-- ==== Sys2Proof/Word.lean ====
section
/-! DEFINITION. The plain words of the model: bytes, register words, one logical block, index types of the
part's units (R14, R32, R33, R156), and the sparse table every large array of the part is held in. -/

namespace Sys2Proof

abbrev Byte := BitVec 8
abbrev W32 := BitVec 32
abbrev W64 := BitVec 64
/-- The 4,096 bytes of one logical block, byte 0 lowest (R34). -/
abbrev Blk := BitVec 32768
/-- The 16 bytes of host metadata of a block tag (R35). -/
abbrev Hmd := BitVec 128

/-- Island index (R14). -/
abbrev Isl := Fin 176
/-- Management core (R14). -/
abbrev CoreId := Fin 32
/-- Flash channel (R14). -/
abbrev Chan := Fin 128
/-- Rank of a channel (R33). -/
abbrev Rank := Fin 16
/-- Die index d = channel × 16 + rank (R142). -/
abbrev DieId := Fin 2048
/-- PCIe port (R251). -/
abbrev Port := Fin 2
/-- Function of the node: port × 128 + f (R257). -/
abbrev FnId := Fin 256
/-- Tenancy (R298). -/
abbrev Ten := Fin 128
/-- Loop slot (R156). -/
abbrev LSlot := Fin 160

/-- A sparse table: key and value pairs, keys strictly rising, no entry equal to the default of its key. -/
abbrev Tab (α : Type) := List (Nat × α)

end Sys2Proof
end

