-- ==== Sys2Proof/Machine/TypesSec.lean ====
section
/-! DEFINITION. The kinds of state of SEC and XTS: key slots, wrapping-key counters, wrapped-key records with
their mirror, the crypto erase under way, the key-wrap operation running. -/

namespace Sys2Proof.Machine

/-- The key-wrap operation that runs (R302): its code, slot, wrapping key, address, length and core. -/
structure KweOp where
  op : Nat
  slot : Nat
  kek : Nat
  addr : Nat
  len : Nat
  core : Nat
  deriving DecidableEq, Repr

/-- The scope of a crypto erase (R311): one namespace, every namespace of a tenancy, or the subsystem, with or
without a block erase. -/
inductive EraseScope
  | ns (n : Nat)
  | ten (t : Nat)
  | all (blocks : Bool)
  deriving DecidableEq, Repr

/-- A crypto erase waiting or under way (R312): its scope, the function and command identifier that asked for
it, the metadata size a Format NVM asks for, whether its commit record stands. -/
structure CryptoErase where
  scope : EraseScope
  fn : Nat
  cid : Nat
  meta_ : Option Nat
  committed : Bool
  deriving DecidableEq, Repr

/-- SEC and XTS beside their registers: the contents of key slots (R300, R301), the nonce counters with their
reserved ends and rotation numbers of wrapping keys (R304), the wrap epoch, wrapped-key records and their mirror
(R303), the DRBG draws so far, the expanded keys in the XTS cache (R307), reserved ends of data unit counts
(R308), each tenancy's wrap-key slot, crypto erases, the running operation and since when it runs. -/
structure Sec where
  keys : Tab (BitVec 512)
  ctr : Tab Nat
  resv : Tab Nat
  rot : Tab Nat
  epoch : Nat
  records : Tab (List Byte)
  mirror : Tab (List Byte)
  draws : Nat
  cache : List Nat
  ducResv : Tab Nat
  twk : Tab Nat
  erases : List CryptoErase
  op : Option KweOp
  since : Nat
  entropyWait : Tab Nat
  sweepAt : Tab Nat
  deriving DecidableEq, Repr

/-- A tenancy that has been created (R289): its rank sets, its key-slot quota. -/
structure TenRec where
  rsets : Nat
  ksq : Nat
  deriving DecidableEq, Repr

end Sys2Proof.Machine
end

