-- ==== Sys2Proof/Machine/TypesHost.lean ====
section
/-! DEFINITION. The host side: submission queue entries, statuses by their NVMe names, task slots,
completions, queues, functions and namespaces. -/

namespace Sys2Proof.Machine

/-- Completion statuses, by the NVMe names the spec cites (R5) and the vendor codes of R296. -/
inductive Status
  | success
  | invalidOpcode
  | invalidField
  | invalidNamespace
  | lbaOutOfRange
  | internalError
  | dataTransferError
  | abortedSqDeletion
  | abortRequested
  | commandSequenceError
  | namespaceWriteProtected
  | zoneBoundary
  | zoneIsFull
  | zoneIsReadOnly
  | zoneIsOffline
  | zoneInvalidWrite
  | tooManyActive
  | tooManyOpen
  | invalidZoneTransition
  | unrecoveredRead
  | compareFailure
  | abortedFailedFused
  | abortedMissingFused
  | capacityExceeded
  | nsInsufficientCapacity
  | nsIdentifierUnavailable
  | nsAlreadyAttached
  | nsNotAttached
  | controllerListInvalid
  | invalidPlacementHandle
  | featureNotSaveable
  | invalidLogPage
  | invalidQueueId
  | invalidCqId
  | invalidQueueDeletion
  | aerLimitExceeded
  | invalidFirmwareSlot
  | invalidFirmwareImage
  | fwNeedsConventionalReset
  | fwNeedsMaxTimeViolation
  | fwProhibited
  | accessDenied
  | asymInaccessible
  | tenancyCreditExhausted
  | keyRotationPending
  | alreadyClaimed
  | loopClosed
  | memberUnreachable
  | rebuildInProgress
  | geometryOffline
  | recorderFrozen
  | nsNotReady
  | invalidQueueSize
  | invalidVector
  | invalidFormat
  | invalidController
  | abortLimit
  | fdpDisabled
  | prpOffsetInvalid
  deriving DecidableEq, Repr

/-- The Status Code Type 0x7 code of a vendor status (R296). -/
def Status.vendorCode : Status → Option Nat
  | .tenancyCreditExhausted => some 1
  | .keyRotationPending => some 2
  | .alreadyClaimed => some 3
  | .loopClosed => some 4
  | .memberUnreachable => some 5
  | .rebuildInProgress => some 6
  | .geometryOffline => some 7
  | .recorderFrozen => some 8
  | _ => none

/-- A submission queue entry: opcode, fuse, command identifier, namespace, command dwords, and the bytes its
data pointer names when the command sends data (lists of ranges, descriptors, images). -/
structure Sqe where
  opc : BitVec 8
  fuse : BitVec 2
  cid : BitVec 16
  nsid : W32
  cdw10 : W32
  cdw11 : W32
  cdw12 : W32
  cdw13 : W32
  cdw14 : W32
  cdw15 : W32
  data : List Byte
  deriving DecidableEq, Repr

/-- What a block of an admitted read, Compare, Verify or Copy source waits for, or what it got (R92, R151). -/
inductive RBlk
  | hazard
  | assigned
  | decide
  | flash
  | recon
  | got (data : Blk) (hmd : Hmd)
  | failed (st : Status)
  deriving DecidableEq, Repr

/-- Where an admitted command stands: admitted and not yet executed, waiting in ZNE, executing, or complete
but for buffer acknowledgements. -/
inductive SlotSt | admitted | waiting | running | posted
  deriving DecidableEq, Repr

/-- A task slot (R270) with the command it holds: function, queue, tenancy, admission time, whether its reads
are urgent, the zone or namespace worked on, first LBA, blocks taken from the host, read blocks by LBA, the
error that stopped it, whether it completes under the stage-through rule (R76), a fused pair's write, and whether
no completion is posted for it any more (R284), the erasures in the row of each block that failed (R120), the write
buffers whose CRC check fails for it (R340), and the first error of the zones a Select All has acted on (R54). -/
structure Slot where
  fn : Nat
  qid : Nat
  ten : Nat
  sqe : Sqe
  at_ : Nat
  urgent : Bool
  st : SlotSt
  zmi : Option Nat
  ns : Nat
  slba : Nat
  nlb : Nat
  taken : List Nat
  bufs : Tab Nat
  blocks : Tab RBlk
  err : Option Status
  thru : Bool
  started : Bool
  order : Nat
  fused : Option Sqe
  lack : Option Nat
  cursor : Nat
  silent : Bool
  hard : Tab Nat
  bad : List Nat
  zst : Option Status
  deriving DecidableEq, Repr

/-- A completion queue entry as posted (R29), with the data the command returned. -/
structure Cpl where
  fn : Nat
  qid : Nat
  cid : Nat
  st : Status
  dw0 : Nat
  dw1 : Nat
  data : List Byte
  blocks : List (Nat × Blk × Hmd)
  deriving DecidableEq, Repr

/-- Priority classes of submission queues (R97, R273). -/
inductive QClass | urgent | high | medium | low
  deriving DecidableEq, Repr

/-- An I/O or admin submission queue: its completion queue, class, ordered attribute (R192), tail and head,
commands admitted and not completed. -/
structure Sq where
  cq : Nat
  size : Nat
  cls : QClass
  ordered : Bool
  tail : Nat
  head : Nat
  live : Nat
  deriving DecidableEq, Repr

/-- A completion queue: size, head told by the host, tail, pending interrupt (R277). -/
structure Cq where
  size : Nat
  vector : Nat
  head : Nat
  tail : Nat
  pendingInt : Nat
  deriving DecidableEq, Repr

/-- Whether a controller is disabled, ready, or going through a shutdown (R285, R286). -/
inductive CtlSt | disabled | enabling | ready
  deriving DecidableEq, Repr

/-- A function (R257 to R262, R273, R277, R284): controller state, CSTS bits, queues, features, outstanding
Asynchronous Event Requests with events waiting, ordered attributes asked for, whether it is an offline secondary controller
(nothing is fetched for it), CC.AMS (0 round robin,
1 weighted round robin with urgent class), the queue served last with the entries taken from it in a row, the
weighted credits left of each class, and the namespaces and zones its host has not yet read of in the changed lists. -/
structure Func where
  ctl : CtlSt
  cfs : Bool
  nssro : Bool
  shst : Nat
  sqs : Tab Sq
  cqs : Tab Cq
  feats : Tab Nat
  aers : List Nat
  events : List Nat
  orderReq : List Nat
  fetchOff : Bool
  ams : Nat
  lastq : Nat
  qrun : Nat
  wrr : Tab Nat
  chNs : List Nat
  chZones : List (Nat × Nat)
  deriving DecidableEq, Repr

/-- A namespace: kind, tenancy, rank set, zones from a base, sizes, metadata bytes, functions attached, LBA
format and namespace index. -/
structure Ns where
  nsid : Nat
  conv : Bool
  ten : Nat
  set : Nat
  zbase : Nat
  zones : Nat
  nsze : Nat
  ncap : Nat
  meta_ : Nat
  fns : List Nat
  node : Nat
  deriving DecidableEq, Repr

/-- A hazard entry (R191): the command's slot, its ranges and whether it writes. -/
structure Hazard where
  slot : Nat
  ns : Nat
  ranges : List (Nat × Nat)
  writes : Bool
  order : Nat
  deriving DecidableEq, Repr

/-- A PCIe port's own state beside its registers (R252 to R266, R273): whether it trains, since when it lacked
full-width traffic, virtual function enable, IDE streams with their keys, the width it asks for, the function whose turn
it is and the entries its turn has admitted, the function served urgently last, the queues of this turn that lacked
credit, and whether the link was up since PERSTn_N. -/
structure PortSt where
  training : Bool
  perst : Bool
  idle : Nat
  vfen : Bool
  numVfs : Nat
  streams : Tab Nat
  l0pReq : Option Nat
  rr : Nat
  burst : Nat
  lastUrg : Nat
  tried : List (Nat × Nat)
  wasUp : Bool
  deriving DecidableEq, Repr

/-- A firmware activation without reset (R288): its slot, the commit command that waits for it, and when fetching
stopped. -/
structure Activation where
  slot : Nat
  fn : Nat
  cid : Nat
  since : Nat
  deriving DecidableEq, Repr

/-- A Namespace Management creation that waits for the blocked key DRBG (R314). -/
structure NmWait where
  fn : Nat
  sqe : Sqe
  since : Nat
  deriving DecidableEq, Repr

/-- HIF (R251 to R297): ports, functions, task slots, hazards, starved writes by tenancy and since when writes lack
credit, completions posted and interrupts sent, fetch stops for an activation, a formation or the end of service, peek
reads under way, namespace creations waiting for entropy, when a formation's reset is due and which function and
command asked for one that waits, whether a formation request is recorded, the rank masks and conventional shares last asked
for by set, device features. -/
structure Hif where
  ports : Tab PortSt
  fns : Tab Func
  slots : Tab Slot
  hazards : Tab Hazard
  nss : Tab Ns
  tens : Tab TenRec
  starved : Tab Nat
  held : Tab Nat
  lastFn : Tab Nat
  order : Nat
  cpls : List Cpl
  ints : List (Nat × Nat)
  activation : Option Activation
  forming : Bool
  stopAll : Bool
  wrblk : Tab Nat
  ure : Tab Nat
  devFeats : Tab Nat
  subnqn : Nat
  fdpEvents : List (Nat × Nat)
  peeks : List (Nat × Nat)
  nmWait : List NmWait
  formAt : Option Nat
  formBy : Option (Nat × Nat)
  formReq : Bool
  partition : Tab (Nat × Nat)
  smart : Tab Nat
  deriving DecidableEq, Repr

end Sys2Proof.Machine
end

