-- ==== Sys2Proof/Machine/TypesBoot.lean ====
section
/-! DEFINITION. The kinds of state of boot, attestation, the cascade and the management bus beside their registers. -/

namespace Sys2Proof.Machine

/-- The one-time-programmable fields of SEC (R316): key hashes by slot (an unlisted slot is all zeros), revocation masks,
the fuses of the security version counter. -/
structure Otp where
  rsaKey : Tab Nat
  slhKey : Tab Nat
  rsaRev : Nat
  slhRev : Nat
  fuse : Nat
  deriving DecidableEq, Repr

/-- An OTP command that runs (R327): the target and the revocations that are made. -/
structure OtpRun where
  target : Nat
  rrev : Nat
  srev : Nat
  deriving DecidableEq, Repr

/-- An SLH-DSA signature kept for a requester (R332): the transcript hash it is over, whether it is complete, when it was
started. -/
structure SlhSig where
  hash : Nat
  done : Bool
  at_ : Nat
  deriving DecidableEq, Repr

/-- A requester endpoint of the SPDM responder (R330, R332): how far its negotiation has come (0 nothing, 1 version,
2 capabilities, 3 algorithms), its secured sessions with whether FINISH was received, its SLH-DSA signatures with the
latest first, and when its signatures were last used. -/
structure SpdmEp where
  stage : Nat
  sessions : Tab Bool
  sigs : List SlhSig
  used : Nat
  deriving DecidableEq, Repr

/-- A message the device sent: to whom, its kind, two numbers, and its bytes. -/
structure Msg where
  dest : Nat
  kind : Nat
  p1 : Nat
  p2 : Nat
  data : List Byte
  deriving DecidableEq, Repr

/-- SEC and firmware at boot (R316 to R334): OTP with a command under way, measurement values by index (R328), since when
the boot watchdog counts, when the recovery commit's reset is due, the image gathered by Firmware Image Download, the
SPDM requester endpoints, messages sent, next session number, whether the start-up of this boot has run, the formed geometry
(ZNE_GEOM without LOCK; none before the first formation), and the register words that a start-up restores from the config
region. -/
structure Boot where
  otp : Otp
  otpRun : Option OtpRun
  meas : Tab (List Byte)
  wdSince : Option Nat
  recAt : Option Nat
  image : Tab Byte
  eps : Tab SpdmEp
  msgs : List Msg
  nextSession : Nat
  started : Bool
  formed : Option Nat
  saved : Tab W64
  deriving DecidableEq, Repr

/-- Training of a Vukoro port (R383): its PHY in reset, training, waiting for a retry, the hello exchanged, up, held down
(DUPMASTER, R385), or taken by a link test (R412). -/
inductive VukSt | reset | training | retry | hello | up | held | testing
  deriving DecidableEq, Repr

/-- A Vukoro port (R382 to R384): its training, since when, the peer's identity from the hello exchange, frames since the
keys were derived and since when, frame numbers next to send and to receive. -/
structure VukPort where
  st : VukSt
  since : Nat
  peerCasc : Nat
  peerSerial : Nat
  frames : Nat
  keyed : Nat
  rxSeq : Nat
  deriving DecidableEq, Repr

/-- What the master knows of a node (R385, R386, R388, R392): its serial number, its hops through VUK1 and through VUK0 (0
where enumeration did not reach it that way), whether it is admitted, ready, reachable through VUK1 (bit 0) and VUK0 (bit 1),
since when it is reachable no way, whether it was declared lost. -/
structure Node where
  serial : Nat
  hops1 : Nat
  hops0 : Nat
  admitted : Bool
  ready : Bool
  reach : Nat
  since : Nat
  lost : Bool
  deriving DecidableEq, Repr

/-- A forwarded command that has not completed (R388): its slot, node and direction (0 VUK1, 1 VUK0). -/
structure Fwd where
  slot : Nat
  node : Nat
  dir : Nat
  deriving DecidableEq, Repr

/-- An admin command that a member carries out for the master (R388, R390): the function it completes on, its entry, the member. -/
structure AdmFwd where
  fn : Nat
  sqe : Sqe
  node : Nat
  deriving DecidableEq, Repr

/-- A forwarded command a member received (R389): its tag, and its completion once it has one. -/
structure TagRec where
  tag : Nat
  cpl : Option Cpl
  deriving DecidableEq, Repr

/-- The cascade and the management bus beside their registers (R380 to R396): cascade ID and this node's recorded ID, the
ports, the nodes, whether this node is admitted, commands forwarded by tag, admin commands that members carry out by number, outcomes of the last 65,536 tags executed for others, since when the master is
reachable no way, whether this node is orphaned, messages sent, next tag, MCTP endpoint IDs by binding (0 and 1 PCIe VDM of
a port), whether an in-band interrupt is pending, when CSYNC was last driven or seen, whether the nodes' images
differ (R391), identifiers of namespaces lost with a member (R392), whether an enumeration waits to be reported (R385). -/
structure Casc where
  id : Nat
  record : Option Nat
  ports : Tab VukPort
  nodes : Tab Node
  admitted : Bool
  fwd : Tab Fwd
  adm : Tab AdmFwd
  tags : List TagRec
  cutSince : Option Nat
  orphan : Bool
  msgs : List Msg
  nextTag : Nat
  eids : Tab Nat
  ibi : Bool
  csync : Nat
  mismatch : Bool
  lostNs : List Nat
  report : Bool
  deriving DecidableEq, Repr

end Sys2Proof.Machine
end

