-- ==== Sys2Proof/Machine/TypesCore.lean ====
section
/-! DEFINITION. The kinds of state of the management side: requesters and cores, the fabric, the event
recorder, the monitors and test machinery of MGT, the memories and the power controller. -/

namespace Sys2Proof.Machine

/-- Who makes a fabric access (R13): a core, the JTAG debug port, HIF serving a port's diagnostic window,
or a DMA channel (number DMC × 4 + channel). -/
inductive Requester
  | core (c : CoreId)
  | jtag
  | hif (p : Port)
  | dma (n : Fin 8)
  deriving DecidableEq, Repr

/-- A number of its own for each requester. -/
def Requester.index : Requester → Nat
  | .core c => c.val
  | .jtag => 32
  | .hif p => 33 + p.val
  | .dma n => 35 + n.val

/-- What a trap was taken for. -/
inductive TrapKind | load | store | fetch | imprecise
  deriving DecidableEq, Repr

/-- An access-fault trap of a core, as the fabric answers it (R12, R22, R23, R25, R26, R345). -/
structure Trap where
  core : Nat
  kind : TrapKind
  addr : Nat
  deriving DecidableEq, Repr

/-- The strap pins and their sampled values (R422). -/
structure Straps where
  portcfg : Nat
  cascmode : Nat
  bootsel : Nat
  deriving DecidableEq, Repr

/-- Levels of the pins the part reads or drives (R420, R421); true is high. -/
structure Pins where
  pli : Bool
  pwrcap : Bool
  thermtripN : Bool
  perst0 : Bool
  perst1 : Bool
  ploLow : Bool
  twarnLow : Bool
  deriving DecidableEq, Repr

/-- State of the cores (R24, R25, R27): halted cores, lines in each fetch buffer, reservation granules. -/
structure Cores where
  halted : BitVec 32
  fetch : Tab (List Nat)
  resv : Tab Nat
  deriving DecidableEq, Repr

/-- An occupied read staging buffer (R31): the operation and codeword it holds, and the bytes the die has driven into it so far. -/
structure Staged where
  op : Nat
  cw : Nat
  bytes : List Byte
  deriving DecidableEq, Repr

/-- FAB (R22, R23): isolated island ports, the island index last recorded in FAB_PORTERR, and the occupied
read staging buffers of R31. -/
structure Fab where
  isolated : List Nat
  portErr : Nat
  staging : Tab Staged
  deriving DecidableEq, Repr

/-- An event between its posting and its arrival at MGT (R398, R399): payload bits packed from bit 0 up. -/
structure Event where
  ts : Nat
  id : Nat
  src : Nat
  sev : Nat
  ten : Nat
  payload : Nat
  bits : Nat
  deriving DecidableEq, Repr

/-- An event record (R398). -/
structure Rec where
  seq : Nat
  ts : Nat
  id : Nat
  src : Nat
  sev : Nat
  cont : Bool
  ten : Nat
  payload : Nat
  deriving DecidableEq, Repr

/-- A reader cursor (R403): the controller it belongs to, the first record its reader has not cleared, when
it was last used. -/
structure Cursor where
  owner : Nat
  pos : Nat
  used : Nat
  deriving DecidableEq, Repr

/-- A freeze in force (R405): the controller that holds it and when it began. -/
structure Freeze where
  holder : Nat
  since : Nat
  deriving DecidableEq, Repr

/-- The event recorder (R399 to R406): records on their way and held by Marrow, the volatile buffer by entry, the event
store by offset, the side buffer, the SEQ after the newest flushed, the bound of a running flush, the end of the reserved
numbers, whether MGT_EVNEXT is loaded, records placed, refused and dropped in the window in force and that window's
number, words staged by core, cursors, controllers whose cursor was reassigned, the freeze. -/
structure Recorder where
  transit : List Event
  held : List Event
  buf : Tab Rec
  store : Tab Rec
  side : List Rec
  flushed : Nat
  flushTo : Option Nat
  resv : Nat
  ready : Bool
  placed : Tab Nat
  refused : Tab Nat
  drops : Tab Nat
  stage : Tab Nat
  cursors : Tab Cursor
  lostCur : List Nat
  win : Nat
  freeze : Option Freeze
  deriving DecidableEq, Repr

/-- State of a link test (R413). -/
inductive TestState | none | running | done | abandoned
  deriving DecidableEq, Repr

/-- The code of a state (R413). -/
def TestState.code : TestState → Nat
  | .none => 0
  | .running => 1
  | .done => 2
  | .abandoned => 3

/-- Counters of one lane of a link test (R413). -/
structure Lane where
  bits : Nat
  errors : Nat
  locked : Bool
  lost : Bool
  never : Bool
  deriving DecidableEq, Repr

/-- The link test of the node (R412, R413): what was asked for, when it runs from and for how long it has run, whether its link has
been taken, and its lanes. -/
structure LinkTest where
  link : Nat
  inst : Nat
  poly : Nat
  mode : Nat
  rank : Nat
  seed : Nat
  lanes : Nat
  duration : Nat
  start : Nat
  elapsed : Nat
  st : TestState
  begun : Bool
  lane : Tab Lane
  deriving DecidableEq, Repr

/-- MGT's own state beside its registers: consecutive samples at 125 °C (R407), excursions of rails and their
in-window samples (R408), since when a core rail is outside (R423), when each general timer ran out last (R14), the JTAG
instruction and boundary scan register (R414), the link test (R412), the memory that MBIST tests: island, MEM and BANK
(R415). -/
structure Mgt where
  hot : Tab Nat
  excur : Tab Nat
  railOut : Tab Nat
  timers : Tab Nat
  jtagIr : Nat
  bscan : Nat
  test : LinkTest
  mbist : Option (Nat × Nat × Nat)
  deriving DecidableEq, Repr

/-- One wear-levelled MRAM region (R351): START, GAP, writes since the gap moved, records written. -/
structure StartGap where
  start : Nat
  gap : Nat
  writes : Nat
  ring : Nat
  deriving DecidableEq, Repr

/-- Stores gathered to one MRAM word (R348): the word's address, the doublewords stored, the cores whose
stores wait for the word write. -/
structure Gather where
  word : Nat
  dws : List (Nat × BitVec 64)
  cores : List Nat
  deriving DecidableEq, Repr

/-- MRM (R347 to R352): start-gap state per region (0 Husk copy 0, 1 event store, 2 config, 3 Husk copy 1,
4 config mirror), spare words left per bank, times of uncorrectable reads per bank, gathered stores, seal. -/
structure Mram where
  sg : Tab StartGap
  spare : Tab Nat
  ue : Tab (List Nat)
  gather : Option Gather
  isSealed : Bool
  deriving DecidableEq, Repr

/-- One entry of a Correctable Error Table (R344). -/
structure CeEntry where
  addr : Nat
  dev : Nat
  syms : Nat
  count : Nat
  ts : Nat
  deriving DecidableEq, Repr

/-- One line of a DMC's merge buffer (R341): its address, the bytes written since the read, its last write. -/
structure MergeLine where
  addr : Nat
  mask : BitVec 64
  last : Nat
  deriving DecidableEq, Repr

/-- An operation a DMA channel runs (R342): 0 COPY, 1 FILL, 2 CHECK, with the addresses and length it started with. -/
structure DmaRun where
  op : Nat
  src : Nat
  dst : Nat
  len : Nat
  deriving DecidableEq, Repr

/-- DRAM protection (R338 to R345): CE tables per subchannel, recent corrections per (subchannel, rank,
device), merge buffers per DMC, poisoned codewords, SRAM words corrected, running DMA channels by DMC × 4 + channel. -/
structure Dram where
  ce : Tab (List CeEntry)
  hits : Tab (List Nat)
  merge : Tab (List MergeLine)
  poison : List Nat
  sramCe : Nat
  dma : Tab DmaRun
  deriving DecidableEq, Repr

/-- Why a power-loss sequence runs (R371, R373, R365): PLI_N, the thermal trip, or before a warm reset of a
cause. -/
inductive PlCause
  | pli
  | thermal
  | reset (cause : Nat)
  deriving DecidableEq, Repr

/-- A power-loss sequence under way (R373): its cause, when it began, dirty MiB it found. -/
structure PowerLoss where
  cause : PlCause
  since : Nat
  dirty : Nat
  deriving DecidableEq, Repr

/-- Marrow and the supply (R354 to R375): whether the running transition is the exit of a wake, whether a wake waits,
since when the mode or transition runs, entry epoch and seals, the power-loss sequence, a fall recorded in
DEEP, islands held in reset after the sequence, the AVS step time. -/
structure Power where
  exiting : Bool
  wake : Bool
  since : Nat
  epoch : Nat
  seals : Tab Nat
  loss : Option PowerLoss
  deepFall : Bool
  heldReset : Bool
  avsLast : Nat
  deriving DecidableEq, Repr

end Sys2Proof.Machine
end

