-- ==== Sys2Proof/Machine/TypesKaz.lean ====
section
/-! DEFINITION. The kinds of state of a Kazino channel sequencer beside its registers (R195 to R218). -/

namespace Sys2Proof.Machine

/-- How an instruction word came out of the instruction memory (R199): intact, with a single-bit error that was
corrected, or with a double-bit error. -/
inductive Fetch | ok | single | double
  deriving DecidableEq, Repr

/-- The op in hand: the rank of its pod, and whether that is the suspended pod. -/
structure Hand where
  rank : Nat
  susp : Bool
  deriving DecidableEq, Repr

/-- A sequencer (R195, R196): k0 to k15, p0 to p3, the return stack (top first), the cycle at which its timer reads 0, the
cycle up to which its instructions have run, the op in hand, SPR ITEM, the rank selected with the chip-enable and
the LUN that it drives (R33), the bytes last driven by a DIN (R202), the direction of the burst
that may continue (true DOUT), the last POLL status, whether the last guarded CMD was refused, the PRBS states of
generator (0 to 3) and checker (4 to 7), the instruction words corrected before, when it faulted; and of the program
guard (R214) the setup collecting addresses (true: erase), the address bytes collected, latched rows of a program and of an
erase, and the refused confirm byte of each op by its number. -/
structure Seq where
  k : List W32
  p : BitVec 4
  stack : List Nat
  timerAt : Option Nat
  till : Nat
  hand : Option Hand
  item : Nat
  sel : Option Nat
  ce : Nat
  lun : Nat
  bus : List Byte
  burst : Option Bool
  status : Nat
  refused : Bool
  prbs : Tab Nat
  ceSeen : List Nat
  faultAt : Nat
  gset : Option Bool
  gaddr : List Nat
  grows : List Nat
  gerase : List Nat
  guarded : Tab Nat
  deriving DecidableEq, Repr

/-- A sequencer after reset (R197). -/
def Seq.empty : Seq :=
  ⟨List.replicate 16 0, 0, [], none, 0, none, 0, none, 0, 0, [], none, 0, false, [], [], 0, none, [], [], [], []⟩

end Sys2Proof.Machine
end

