-- ==== Sys2Proof/Machine/TypesOps.lean ====
section
/-! DEFINITION. The kinds of operand the commands carry beside numbers: what the flash, the decoder and the other
units outside the model answered. -/

namespace Sys2Proof.Machine

/-- What LDC found of a codeword (R110, R112, R152, R346): it decoded with its tag right (data, host metadata, key
generation, corrected bits), did not converge, decoded with a wrong tag (expected and found EPOCH), is a lost-row
codeword, or lay in a staging buffer with a double-bit error. -/
inductive LdcOut
  | pass (data : Blk) (hmd : Hmd) (gen : BitVec 8) (bits : BitVec 12)
  | fail
  | mismatch (expected found : BitVec 32)
  | lostRow
  | doubleBit
  deriving DecidableEq, Repr

/-- What a member's slice was found to be at start-up (R134); a programmed one with the EPOCH of its tags. -/
inductive MClass
  | programmed (epoch : BitVec 64)
  | erased
  | interrupted
  deriving DecidableEq, Repr

/-- The wake sources of R360: link activity, a TLP to a function, PERSTn_N, the Vukoro wake ordered set, a transfer on the management
bus or a pending in-band interrupt, a timer. -/
inductive WakeSource | link | tlp | perst | vukoro | bus | timer
  deriving DecidableEq, Repr

/-- What stops the transfer of a write's data (R69): a host memory error, a poisoned TLP, a fault of its data pointer. -/
inductive XferFault | hostMemory | poisonedTlp | dataPointer
  deriving DecidableEq, Repr

/-- A transfer that fails (R69): its command's slot and what stops it. -/
structure XferIn where
  slot : Fin 65536
  why : XferFault
  deriving DecidableEq, Repr

/-- What the start-up replay reads (R133): the classes that members' slices were found in, by record and member; the records that fail
their check, by copy; the copies whose header fails; and of the stripes found torn, by record, zone or open stage body (of a rank set) with
stripe, the data codewords read from flash or from the stage for the shelf parity (R135, R136). -/
structure HuskIn where
  cls : List (Fin 6400 × Fin 18 × MClass)
  bad : List (Fin 2 × Fin 6400)
  hdr : List (Fin 2)
  rows : List (Fin 6400 × Fin 2048 × Blk × Hmd)
  zones : List (Fin 2097152 × BitVec 11 × Fin 2048 × Blk × Hmd)
  stages : List (Fin 16 × BitVec 11 × Fin 2048 × Blk × Hmd)
  deriving DecidableEq, Repr

/-- Kinds of claimable resource (R294): GPIO, general timer, pool quota. -/
inductive ResKind | gpio | timer | quota
  deriving DecidableEq, Repr

/-- How a word write of MRM went: at once or after rewrites, likewise with errors corrected in the word read, by a spare word, or not
at all because the word's current value could not be read (R347, R348). -/
inductive MramWrite | done | corrected | remapped | unreadable
  deriving DecidableEq, Repr

/-- The operations of an AMO. -/
inductive AmoOp | swap | add | xor | and | or | min | max | minu | maxu
  deriving DecidableEq, Repr

/-- A requester endpoint: the binding it speaks over (0 and 1 PCIe VDM of a port, 2 I3C, 3 SMBus) and its MCTP endpoint ID. -/
abbrev EpId := Fin 4 × BitVec 8

/-- A Copy that starts: its slot, and the source blocks found in a write buffer that fails its CRC (R87, R93). -/
structure CopyIn where
  slot : Fin 65536
  bad : List Nat
  deriving DecidableEq, Repr

/-- How a die's parameter page reads: the die, its manufacturer and its model. A die that does not respond is not listed. -/
abbrev DieIdent := DieId × W64 × W64

/-- What START_UP finds: the dies that responded with their parameter pages, the marker bytes read (a block's, on its first page, or where
the flag is set on its last), the channels that fail PHY training, what rebuild's slices were
found to be, whether the erase ledger is lost (header or entry), the hold-up test's word for AON_HUCFG, the words written to both
DMC_CFG, and MRAM banks that failed their self-test. -/
structure StartIn where
  ids : List DieIdent
  factory : List (BitVec 25 × Bool × Byte)
  cls : List (BitVec 25 × MClass)
  ledgerLost : Option Bool
  hucfg : W32
  dmc0 : BitVec 4
  dmc1 : BitVec 4
  banks : BitVec 4
  phy : List (Fin 128)
  deriving DecidableEq, Repr

/-- A node as the master's enumeration found it (R385, R388, R391): its ID, serial number, hops through VUK1 and through VUK0 (0: not
reached that way), whether it reports READY, whether its image differs from the master's. -/
structure NodeInfo where
  node : Fin 4
  serial : W64
  hops1 : Fin 4
  hops0 : Fin 4
  ready : Bool
  differs : Bool
  deriving DecidableEq, Repr

/-- What a node forwards (R388, R390): an I/O command, an admin command, or an admin command sent again. -/
inductive FwdKind | io | admin | adminAgain
  deriving DecidableEq, Repr

/-- What the checker of a lane found (R413): bits checked, errors, whether it is locked. -/
structure LaneIn where
  lane : Fin 16
  bits : W64
  errors : W32
  locked : Bool
  deriving DecidableEq, Repr

end Sys2Proof.Machine
end

