-- ==== Sys2Proof/Syntax.lean ====
section
/-! DEFINITION. The commands of the part: one constructor for each row of spec/opcode_table.json, in the table's order, with the row's
operands. What a command reports of the world outside (a pin, a die, a host, another node, the time an operation took to end) stands
in its operands. -/

namespace Sys2Proof

open Sys2Proof.Machine

/-- The commands; each constructor's row and rule of spec/ stand above it. -/
inductive Instr
  /-- REGISTER_WRITE (R8). -/
  | registerWrite (q : Requester) (isl : Isl) (off : BitVec 20) (size : Fin 4) (v : W64)
  /-- LOW_WORD_READ (R13). -/
  | lowWordRead (q : Requester) (isl : Isl) (off : BitVec 20) (size : Fin 4)
  /-- LOW_WORD_WRITE (R13). -/
  | lowWordWrite (q : Requester) (isl : Isl) (off : BitVec 20) (v : W32)
  /-- HIGH_WORD_WRITE (R13). -/
  | highWordWrite (q : Requester) (isl : Isl) (off : BitVec 20) (v : W32)
  /-- COLD_RESET (R10). -/
  | coldReset (portcfg : Fin 4) (cascmode : Fin 4) (bootsel : Bool) (bad : BitVec 2)
  /-- WARM_RESET (R10). -/
  | warmReset (portcfg : Fin 4) (cascmode : Fin 4) (bootsel : Bool) (bad : BitVec 2)
  /-- BROWN_OUT (R364). -/
  | brownOut (portcfg : Fin 4) (cascmode : Fin 4) (bootsel : Bool) (bad : BitVec 2)
  /-- RESET_REQUEST (R365). -/
  | resetRequest
  /-- START_UP (R365). -/
  | startUp (x : StartIn)
  /-- ISL_CLKCTL_WRITE (R17). -/
  | islClkctlWrite (q : Requester) (isl : Isl) (v : W32)
  /-- PLL_LOCK (R15). -/
  | pllLock (isl : Isl)
  /-- PLL_LOSS_OF_LOCK (R16). -/
  | pllLossOfLock (isl : Isl)
  /-- HANDSHAKE_TIMEOUT (R22). -/
  | handshakeTimeout (q : Requester) (isl : Isl) (store : Bool) (a : BitVec 40)
  /-- FAB_PORTCTL_WRITE (R22). -/
  | fabPortctlWrite (c : CoreId) (isl : Isl)
  /-- POWER_GATED_ACCESS (R23). -/
  | powerGatedAccess (q : Requester) (isl : Isl) (off : BitVec 20) (store : Bool)
  /-- FENCE (R24). -/
  | fence (c : CoreId) (w : MramWrite)
  /-- FENCE_I (R24). -/
  | fenceI (c : CoreId)
  /-- AMO (R25). -/
  | amo (c : CoreId) (a : BitVec 40) (wide : Bool) (op : AmoOp) (v : W64) (ue : Bool)
  /-- LOAD_RESERVED (R25). -/
  | loadReserved (c : CoreId) (a : BitVec 40) (wide : Bool) (ue : Bool)
  /-- STORE_CONDITIONAL (R25). -/
  | storeConditional (c : CoreId) (a : BitVec 40) (wide : Bool) (v : W64)
  /-- REMOTE_TCM_WRITE (R27). -/
  | remoteTcmWrite (c : CoreId) (t : CoreId) (dtcm : Bool) (off : BitVec 13) (v : W64)
  /-- BAR2_READ (R263). -/
  | bar2Read (p : Port) (off : BitVec 20) (n : BitVec 10)
  /-- BAR2_WRITE (R28). -/
  | bar2Write (p : Port) (off : BitVec 20) (v : W32)
  /-- SQ_TAIL_DOORBELL (R258). -/
  | sqTailDoorbell (fn : FnId) (qid : Fin 65) (tail : BitVec 16)
  /-- CQ_HEAD_DOORBELL (R258). -/
  | cqHeadDoorbell (fn : FnId) (qid : Fin 65) (head : BitVec 16)
  /-- ARBITER_TURN (R273). -/
  | arbiterTurn (p : Port)
  /-- PEEK_ENTRY_ARRIVAL (R271). -/
  | peekEntryArrival (fn : FnId) (qid : Fin 65) (e : Sqe) (pair : Option Sqe)
  /-- WBSTARVE_EXPIRY (R272). -/
  | wbstarveExpiry (fn : FnId) (qid : Fin 65)
  /-- HOST_DATA_ARRIVAL (R306). -/
  | hostDataArrival (ix : Fin 65536) (k : Fin 65536) (d : Blk) (h : Hmd)
  /-- DMC_BUFFER_ACK (R29). -/
  | dmcBufferAck (b : Fin 524288)
  /-- HUSK_SLICE_ENTRY_ACK (R130). -/
  | huskSliceEntryAck (r : Fin 6400) (m : Fin 18)
  /-- POWER_TOKEN_GRANT (R368). -/
  | powerTokenGrant
  /-- POD_DISPATCH (R98). -/
  | podDispatch (d : DieId)
  /-- DIE_OP_DONE (R210). -/
  | dieOpDone (d : DieId) (zeros : BitVec 16)
  /-- HUSK_CLOSE_ENTRY_ACK (R130). -/
  | huskCloseEntryAck (r : Fin 6400)
  /-- TRANSFER_FAILURE (R69). -/
  | transferFailure (x : XferIn)
  /-- STAGE_AGE_EXPIRY (R75). -/
  | stageAgeExpiry (zmi : Fin 2097152)
  /-- STAGE_FILL_TIMEOUT (R78). -/
  | stageFillTimeout (set : Fin 16)
  /-- FOLD_START (R79). -/
  | foldStart (zmi : Fin 2097152) (bad : List Nat)
  /-- STAGE_RECLAIM (R80). -/
  | stageReclaim (set : Fin 16)
  /-- CONV_STRIPE_AGE_EXPIRY (R176). -/
  | convStripeAgeExpiry (ns : Fin 1024) (ruh : Fin 8)
  /-- MAP_CHECKPOINT (R182). -/
  | mapCheckpoint
  /-- WRITE (R66). -/
  | write (ix : Fin 65536)
  /-- ZONE_APPEND (R67). -/
  | zoneAppend (ix : Fin 65536)
  /-- COPY (R88). -/
  | copy (x : CopyIn)
  /-- READ (R92). -/
  | read (ix : Fin 65536) (bad : List Nat)
  /-- COMPARE (R275). -/
  | compare (ix : Fin 65536) (bad : List Nat)
  /-- FUSED_COMPARE_WRITE (R193). -/
  | fusedCompareWrite (ix : Fin 65536) (bad : List Nat)
  /-- VERIFY (R275). -/
  | verify (ix : Fin 65536) (bad : List Nat)
  /-- WRITE_ZEROES (R184). -/
  | writeZeroes (ix : Fin 65536)
  /-- DATASET_MANAGEMENT (R184). -/
  | datasetManagement (ix : Fin 65536)
  /-- FLUSH (R283). -/
  | flush (ix : Fin 65536)
  /-- IO_MANAGEMENT_SEND (R190). -/
  | ioManagementSend (ix : Fin 65536)
  /-- IO_MANAGEMENT_RECEIVE (R189). -/
  | ioManagementReceive (ix : Fin 65536)
  /-- ZONE_OPEN (R54). -/
  | zoneOpen (ix : Fin 65536)
  /-- ZONE_CLOSE (R54). -/
  | zoneClose (ix : Fin 65536)
  /-- ZONE_FINISH (R82). -/
  | zoneFinish (ix : Fin 65536)
  /-- ZONE_RESET (R84). -/
  | zoneReset (ix : Fin 65536)
  /-- ZONE_OFFLINE (R55). -/
  | zoneOffline (ix : Fin 65536)
  /-- ZONE_MGMT_EFFECT (R81). -/
  | zoneMgmtEffect (ix : Fin 65536)
  /-- ZONE_MANAGEMENT_RECEIVE (R83). -/
  | zoneManagementReceive (ix : Fin 65536)
  /-- RECONSTRUCTION_DONE (R107). -/
  | reconstructionDone (k : Nat) (crcFail : Bool)
  /-- SUSPHOLD_EXPIRY (R101). -/
  | suspholdExpiry (d : DieId)
  /-- LDC_DECODE_DONE (R110). -/
  | ldcDecodeDone (u : Nat) (out : LdcOut)
  /-- WATCHDOG_EXPIRY (R114). -/
  | watchdogExpiry (d : DieId)
  /-- HARD_LIMIT_EXPIRY (R114). -/
  | hardLimitExpiry (d : DieId)
  /-- ABORT_DONE_TIMEOUT (R442). -/
  | abortDoneTimeout (d : DieId)
  /-- SUSPECT_PERIOD_EXPIRY (R142). -/
  | suspectPeriodExpiry (d : DieId)
  /-- DIECMD_RETIRE (R142). -/
  | diecmdRetire (d : DieId)
  /-- DIECMD_FAIL (R142). -/
  | diecmdFail (d : DieId)
  /-- REBUILD_JOB_START (R147). -/
  | rebuildJobStart
  /-- STARTUP_HUSK_REPLAY (R133). -/
  | startupHuskReplay (x : HuskIn) (listLost : Bool)
      (found : List (Fin 2097152 × BitVec 11 × Fin 18 × MClass) × List (Fin 16 × BitVec 11 × Fin 18 × MClass))
  /-- TORN_REPAIR (R135). -/
  | tornRepair (r : Fin 6400)
  /-- SAMPLE_BOUNDARY (R158). -/
  | sampleBoundary
  /-- SLOT_OPEN (R166). -/
  | slotOpen (k : Fin 160)
  /-- SLOT_CLOSE (R168). -/
  | slotClose (k : Fin 160)
  /-- LPE_HOLD_WRITE (R166). -/
  | lpeHoldWrite (k : Fin 160) (w : W32)
  /-- LPE_EXTMEAS_WRITE (R171). -/
  | lpeExtmeasWrite (ix : Fin 15) (y : BitVec 16)
  /-- HALT (R203). -/
  | halt (n : Chan) (f : Fetch)
  /-- SEL (R203). -/
  | sel (n : Chan) (f : Fetch) (rs : BitVec 4) (imm : BitVec 18)
  /-- CMD (R203). -/
  | cmd (n : Chan) (f : Fetch) (rs : BitVec 4) (imm : BitVec 18)
  /-- ADDR (R203). -/
  | addr (n : Chan) (f : Fetch) (rs : BitVec 4) (imm : BitVec 18)
  /-- DIN (R203). -/
  | din (n : Chan) (f : Fetch) (rd : BitVec 4) (rs : BitVec 4) (imm : BitVec 18)
  /-- DOUT (R203). -/
  | dout (n : Chan) (f : Fetch) (rd : BitVec 4) (rs : BitVec 4) (imm : BitVec 18) (data : List Byte)
  /-- WAIT (R205). -/
  | wait (n : Chan) (f : Fetch) (rs : BitVec 4) (imm : BitVec 18)
  /-- POLL (R206). -/
  | poll (n : Chan) (f : Fetch) (rd : BitVec 4) (rs : BitVec 4) (imm : BitVec 18) (first : Byte) (more : List Byte)
  /-- LDI (R203). -/
  | ldi (n : Chan) (f : Fetch) (rd : BitVec 4) (imm : BitVec 18)
  /-- LDIH (R203). -/
  | ldih (n : Chan) (f : Fetch) (rd : BitVec 4) (imm : BitVec 18)
  /-- MOV (R204). -/
  | mov (n : Chan) (f : Fetch) (rd : BitVec 4) (rs : BitVec 4) (imm : BitVec 18)
  /-- ADD (R204). -/
  | add (n : Chan) (f : Fetch) (rd : BitVec 4) (rs : BitVec 4) (imm : BitVec 18)
  /-- SUB (R204). -/
  | sub (n : Chan) (f : Fetch) (rd : BitVec 4) (rs : BitVec 4) (imm : BitVec 18)
  /-- AND (R204). -/
  | and (n : Chan) (f : Fetch) (rd : BitVec 4) (rs : BitVec 4) (imm : BitVec 18)
  /-- OR (R204). -/
  | or (n : Chan) (f : Fetch) (rd : BitVec 4) (rs : BitVec 4) (imm : BitVec 18)
  /-- XOR (R204). -/
  | xor (n : Chan) (f : Fetch) (rd : BitVec 4) (rs : BitVec 4) (imm : BitVec 18)
  /-- SHL (R204). -/
  | shl (n : Chan) (f : Fetch) (rd : BitVec 4) (rs : BitVec 4) (imm : BitVec 18)
  /-- SHR (R204). -/
  | shr (n : Chan) (f : Fetch) (rd : BitVec 4) (rs : BitVec 4) (imm : BitVec 18)
  /-- BR (R203). -/
  | br (n : Chan) (f : Fetch) (imm : BitVec 18)
  /-- BRC (R203). -/
  | brc (n : Chan) (f : Fetch) (imm : BitVec 18)
  /-- CALL (R203). -/
  | call (n : Chan) (f : Fetch) (imm : BitVec 18)
  /-- RET (R203). -/
  | ret (n : Chan) (f : Fetch)
  /-- POP (R207). -/
  | pop (n : Chan) (f : Fetch)
  /-- POST_DONE (R208). -/
  | postDone (n : Chan) (f : Fetch) (rd : BitVec 4) (rs : BitVec 4) (imm : BitVec 18)
  /-- POST_PARK (R208). -/
  | postPark (n : Chan) (f : Fetch) (rd : BitVec 4) (rs : BitVec 4) (imm : BitVec 18)
  /-- POST_SUSP (R208). -/
  | postSusp (n : Chan) (f : Fetch) (rd : BitVec 4) (rs : BitVec 4) (imm : BitVec 18)
  /-- PARK_DELAY_EXPIRY (R208). -/
  | parkDelayExpiry (d : DieId)
  /-- TSTART (R211). -/
  | tstart (n : Chan) (f : Fetch) (rs : BitVec 4) (imm : BitVec 18)
  /-- TWAIT (R211). -/
  | twait (n : Chan) (f : Fetch)
  /-- TIMER_EXPIRY (R211). -/
  | timerExpiry (n : Chan)
  /-- EVT (R212). -/
  | evt (n : Chan) (f : Fetch) (rd : BitVec 4) (rs : BitVec 4) (imm : BitVec 18)
  /-- PGEN (R213). -/
  | pgen (n : Chan) (f : Fetch) (rs : BitVec 4) (imm : BitVec 18)
  /-- PCHK (R213). -/
  | pchk (n : Chan) (f : Fetch) (rd : BitVec 4) (rs : BitVec 4) (imm : BitVec 18) (got : List Byte)
  /-- SEQ_RUN (R198). -/
  | seqRun (n : Chan)
  /-- SEQ_STOP (R198). -/
  | seqStop (n : Chan)
  /-- CHANNEL_FAULT_TIMEOUT (R217). -/
  | channelFaultTimeout (n : Chan)
  /-- DIRECT_OP_GO (R218). -/
  | directOpGo (n : Chan)
  /-- BROADCAST_WRITE (R220). -/
  | broadcastWrite (q : Requester) (x : BitVec 19) (v : W32)
  /-- ERASE_LEDGER_WRITE_ACK (R238). -/
  | eraseLedgerWriteAck (b : BitVec 25)
  /-- ERASE_LEDGER_CLEAR_ACK (R238). -/
  | eraseLedgerClearAck (b : BitVec 25)
  /-- PREERASE_START (R231). -/
  | preeraseStart (set : Fin 16)
  /-- WEAR_RELOCATION_START (R232). -/
  | wearRelocationStart (set : Fin 16)
  /-- SCRUB_VISIT (R244). -/
  | scrubVisit
  /-- LINK_ENABLE (R253). -/
  | linkEnable (p : Port)
  /-- LINK_TRAINED (R252). -/
  | linkTrained (p : Port) (rate : BitVec 3) (width : BitVec 5)
  /-- PERST_ASSERT (R254). -/
  | perstAssert (p : Port)
  /-- PERST_DEASSERT (R432). -/
  | perstDeassert (p : Port)
  /-- SURPRISE_LINK_DOWN (R254). -/
  | surpriseLinkDown (p : Port)
  /-- L0P_WIDTH_REQUEST (R255). -/
  | l0pWidthRequest (p : Port) (w : Fin 4)
  /-- IDE_INTEGRITY_FAIL (R266). -/
  | ideIntegrityFail (p : Port) (stream : Fin 8) (rid : BitVec 16) (slots : List (Fin 65536))
  /-- IDE_KM_KEY_PROGRAM (R265). -/
  | ideKmKeyProgram (p : Port) (eid : BitVec 8) (session : W32) (stream : Fin 8) (set : Fin 2) (keys : Vector (BitVec 256) 6)
  /-- VF_ENABLE_WRITE (R259). -/
  | vfEnableWrite (p : Port) (enable : Bool) (num : Fin 128)
  /-- DIAGCTL_WRITE (R264). -/
  | diagctlWrite (p : Port) (v : W32)
  /-- CREATE_IO_SQ (R275). -/
  | createIoSq (fn : FnId) (e : Sqe)
  /-- CREATE_IO_CQ (R275). -/
  | createIoCq (fn : FnId) (e : Sqe)
  /-- DELETE_IO_SQ (R275). -/
  | deleteIoSq (fn : FnId) (e : Sqe)
  /-- DELETE_IO_CQ (R275). -/
  | deleteIoCq (fn : FnId) (e : Sqe)
  /-- GET_LOG_PAGE (R278). -/
  | getLogPage (fn : FnId) (e : Sqe)
  /-- IDENTIFY (R276). -/
  | identify (fn : FnId) (e : Sqe)
  /-- ABORT (R282). -/
  | abort (fn : FnId) (e : Sqe)
  /-- SET_FEATURES (R277). -/
  | setFeatures (fn : FnId) (e : Sqe)
  /-- GET_FEATURES (R277). -/
  | getFeatures (fn : FnId) (e : Sqe)
  /-- ASYNC_EVENT_REQUEST (R275). -/
  | asyncEventRequest (fn : FnId) (e : Sqe)
  /-- NAMESPACE_MANAGEMENT (R275). -/
  | namespaceManagement (fn : FnId) (e : Sqe)
  /-- NAMESPACE_ATTACHMENT (R275). -/
  | namespaceAttachment (fn : FnId) (e : Sqe)
  /-- FIRMWARE_IMAGE_DOWNLOAD (R325). -/
  | firmwareImageDownload (fn : FnId) (e : Sqe)
  /-- FIRMWARE_COMMIT (R287). -/
  | firmwareCommit (fn : FnId) (e : Sqe) (bad : Bool)
  /-- ACTIVATION_DRAIN_TIMEOUT (R288). -/
  | activationDrainTimeout
  /-- ACTIVATION_SWITCH (R288). -/
  | activationSwitch
  /-- DIRECTIVE_SEND (R275). -/
  | directiveSend (fn : FnId) (e : Sqe)
  /-- DIRECTIVE_RECEIVE (R275). -/
  | directiveReceive (fn : FnId) (e : Sqe)
  /-- VIRTUALIZATION_MANAGEMENT (R275). -/
  | virtualizationManagement (fn : FnId) (e : Sqe)
  /-- NVME_MI_SEND (R275). -/
  | nvmeMiSend (fn : FnId) (e : Sqe)
  /-- NVME_MI_RECEIVE (R275). -/
  | nvmeMiReceive (fn : FnId) (e : Sqe)
  /-- FORMAT_NVM (R311). -/
  | formatNvm (fn : FnId) (e : Sqe)
  /-- SANITIZE (R311). -/
  | sanitize (fn : FnId) (e : Sqe)
  /-- TENANCY_CREATE (R289). -/
  | tenancyCreate (fn : FnId) (e : Sqe)
  /-- TENANCY_DELETE (R289). -/
  | tenancyDelete (fn : FnId) (e : Sqe)
  /-- SET_QUOTAS (R290). -/
  | setQuotas (fn : FnId) (e : Sqe)
  /-- MAP_VF (R259). -/
  | mapVf (fn : FnId) (e : Sqe)
  /-- SET_RANK_SETS (R50). -/
  | setRankSets (fn : FnId) (e : Sqe)
  /-- FORM_GEOMETRY (R52). -/
  | formGeometry (fn : FnId) (e : Sqe)
  /-- READ_DESCRIPTOR (R289). -/
  | readDescriptor (fn : FnId) (e : Sqe)
  /-- GOVERNOR_READ (R291). -/
  | governorRead (fn : FnId) (e : Sqe)
  /-- GOVERNOR_WRITE (R291). -/
  | governorWrite (fn : FnId) (e : Sqe)
  /-- RECORDER_FREEZE (R405). -/
  | recorderFreeze (fn : FnId) (e : Sqe)
  /-- RECORDER_UNFREEZE (R405). -/
  | recorderUnfreeze (fn : FnId) (e : Sqe)
  /-- RECORDER_READ (R406). -/
  | recorderRead (fn : FnId) (e : Sqe)
  /-- RECORDER_CLEAR_VIEW (R404). -/
  | recorderClearView (fn : FnId) (e : Sqe)
  /-- GEOMETRY_REPORT (R293). -/
  | geometryReport (fn : FnId) (e : Sqe)
  /-- RESOURCE_CLAIM (R294). -/
  | resourceClaim (fn : FnId) (e : Sqe)
  /-- RESOURCE_RELEASE (R294). -/
  | resourceRelease (fn : FnId) (e : Sqe)
  /-- DIAG_WINDOW_OPEN (R263). -/
  | diagWindowOpen (fn : FnId) (e : Sqe)
  /-- DIAG_WINDOW_CLOSE (R264). -/
  | diagWindowClose (fn : FnId) (e : Sqe)
  /-- LINK_TEST_START (R412). -/
  | linkTestStart (fn : FnId) (e : Sqe)
  /-- LINK_TEST_STOP (R413). -/
  | linkTestStop (fn : FnId) (e : Sqe) (lanes : List LaneIn)
  /-- LINK_TEST_STATUS (R413). -/
  | linkTestStatus (fn : FnId) (e : Sqe) (lanes : List LaneIn)
  /-- LINK_TEST_DURATION_EXPIRY (R412). -/
  | linkTestDurationExpiry (lanes : List LaneIn)
  /-- CONTROLLER_RESET (R285). -/
  | controllerReset (fn : FnId)
  /-- CONTROLLER_ENABLE (R285). -/
  | controllerEnable (fn : FnId) (wrr : Bool) (asqs : BitVec 12) (acqs : BitVec 12)
  /-- FUNCTION_LEVEL_RESET (R285). -/
  | functionLevelReset (fn : FnId)
  /-- NVM_SUBSYSTEM_RESET (R284). -/
  | nvmSubsystemReset (here : Bool)
  /-- SHUTDOWN_NOTIFICATION (R286). -/
  | shutdownNotification (fn : FnId)
  /-- KWE_LOCK_READ (R302). -/
  | kweLockRead (c : CoreId)
  /-- KWE_LOCK_WRITE (R302). -/
  | kweLockWrite (c : CoreId) (v : W32)
  /-- KWE_GEN (R302). -/
  | kweGen (c : CoreId) (slot : BitVec 12) (kek : BitVec 12)
  /-- KWE_WRAP (R302). -/
  | kweWrap (c : CoreId) (slot : BitVec 12) (kek : BitVec 12)
  /-- KWE_UNWRAP (R302). -/
  | kweUnwrap (c : CoreId) (slot : BitVec 12) (kek : BitVec 12)
  /-- KWE_ZERO (R307). -/
  | kweZero (c : CoreId) (slot : BitVec 12) (kek : BitVec 12)
  /-- KWE_SEAL (R302). -/
  | kweSeal (c : CoreId) (slot : BitVec 12) (kek : BitVec 12)
  /-- KWE_UNSEAL (R302). -/
  | kweUnseal (c : CoreId) (slot : BitVec 12) (kek : BitVec 12)
  /-- KWE_OPERATION_DONE (R302). -/
  | kweOperationDone
  /-- XTS_NSK_WRITE (R308). -/
  | xtsNskWrite (n : Fin 1024) (v : W64)
  /-- ENTROPY_TEST_FAIL (R314). -/
  | entropyTestFail (adaptive : Bool) (samples : W32)
  /-- BOOT_WATCHDOG_EXPIRY (R324). -/
  | bootWatchdogExpiry
  /-- BOOT_WATCHDOG_STOP (R324). -/
  | bootWatchdogStop
  /-- OTP_COMMAND_GO (R327). -/
  | otpCommandGo (target : BitVec 7) (rrev : BitVec 4) (srev : BitVec 4)
  /-- OTP_PROGRAM_DONE (R327). -/
  | otpProgramDone (failed : Option (BitVec 6))
  /-- GET_VERSION (R330). -/
  | getVersion (e : EpId)
  /-- GET_CAPABILITIES (R330). -/
  | getCapabilities (e : EpId)
  /-- NEGOTIATE_ALGORITHMS (R330). -/
  | negotiateAlgorithms (e : EpId) (asym : W32) (hash : W32)
  /-- GET_DIGESTS (R330). -/
  | getDigests (e : EpId)
  /-- GET_CERTIFICATE (R330). -/
  | getCertificate (e : EpId) (slot : Fin 8) (off : BitVec 16) (len : BitVec 16)
  /-- CHALLENGE (R332). -/
  | challenge (e : EpId) (slot : Fin 8) (hash : BitVec 384)
  /-- GET_MEASUREMENTS (R328). -/
  | getMeasurements (e : EpId) (index : BitVec 8) (sign : Bool) (hash : BitVec 384)
  /-- KEY_EXCHANGE (R330). -/
  | keyExchange (e : EpId) (hash : BitVec 384)
  /-- FINISH (R330). -/
  | finish (e : EpId) (session : W32)
  /-- SLH_DSA_SIGNATURE_REQUEST (R332). -/
  | slhDsaSignatureRequest (e : EpId) (op : BitVec 16) (off : W32) (len : W32) (hash : BitVec 384)
  /-- SLH_DSA_SIGN_DONE (R332). -/
  | slhDsaSignDone (e : EpId)
  /-- RECOVERY_RESET_DELAY (R333). -/
  | recoveryResetDelay
  /-- READ_NVME_MI_DATA_STRUCTURE (R396). -/
  | readNvmeMiDataStructure (b : Fin 4) (ty : BitVec 8) (port : BitVec 8) (ctl : BitVec 16)
  /-- SUBSYSTEM_HEALTH_STATUS_POLL (R396). -/
  | subsystemHealthStatusPoll (b : Fin 4)
  /-- DMC_CFG_LOCK (R336). -/
  | dmcCfgLock (d : Fin 2) (v : BitVec 4)
  /-- DMA_COPY (R342). -/
  | dmaCopy (d : Fin 2) (c : Fin 4)
  /-- DMA_FILL (R342). -/
  | dmaFill (d : Fin 2) (c : Fin 4)
  /-- DMA_CHECK (R342). -/
  | dmaCheck (d : Fin 2) (c : Fin 4)
  /-- DMA_DONE (R342). -/
  | dmaDone (d : Fin 2) (c : Fin 4) (bad : List (BitVec 40))
  /-- DRAM_PATROL_SCRUB (R343). -/
  | dramPatrolScrub (a : BitVec 40) (rank : Fin 2) (dev : Fin 10) (syms : Fin 5) (ue : Bool) (dirty : Bool)
  /-- MERGE_WRITEBACK_TIMEOUT (R341). -/
  | mergeWritebackTimeout (d : Fin 2) (line : BitVec 40)
  /-- MRAM_CORE_STORE (R348). -/
  | mramCoreStore (c : CoreId) (a : BitVec 40) (size : Fin 4) (v : W64) (w : MramWrite)
  /-- PSTATE_REQUEST (R356). -/
  | pstateRequest (mode : Fin 4)
  /-- MODE_TRANSITION_DONE (R356). -/
  | modeTransitionDone
  /-- WAKE_EVENT (R360). -/
  | wakeEvent (src : WakeSource) (bad : BitVec 24) (dramFail : Option Bool) (slotBad : Bool)
  /-- WAKE_TIMER_EXPIRY (R358). -/
  | wakeTimerExpiry
  /-- AVS_STEP (R366). -/
  | avsStep (mv : BitVec 10) (acked : Bool)
  /-- PWRCAP_ASSERT (R369). -/
  | pwrcapAssert
  /-- PWRCAP_RELEASE (R369). -/
  | pwrcapRelease
  /-- THERMAL_TRIP (R371). -/
  | thermalTrip
  /-- POWER_LOSS (R373). -/
  | powerLoss
  /-- POWER_LOSS_SEQUENCE_END (R375). -/
  | powerLossSequenceEnd (pliHigh : Bool)
  /-- HUCFG_WRITE (R377). -/
  | hucfgWrite (v : W32)
  /-- VUK_LINK_ENABLE (R383). -/
  | vukLinkEnable (v : Fin 2) (w4ok : Bool)
  /-- VUK_TRAINING_RETRY (R383). -/
  | vukTrainingRetry (v : Fin 2)
  /-- HELLO (R383). -/
  | hello (v : Fin 2) (peerMaster : Bool) (node : Fin 4) (casc : W64) (serial : W64) (lanes4 : Option (BitVec 8))
  /-- LINK_AUTHENTICATION (R384). -/
  | linkAuthentication (v : Fin 2) (ok : Bool)
  /-- LINK_KEY_RENEWAL (R384). -/
  | linkKeyRenewal (v : Fin 2)
  /-- VUKORO_FRAME (R384). -/
  | vukoroFrame (v : Fin 2) (seq : W32) (fec : Fin 3) (auth : Bool)
  /-- ENUM (R385). -/
  | enum (v : Fin 2) (id : W64) (claims : List (Fin 4 × W64))
  /-- DUPMASTER (R385). -/
  | dupmaster (v : Fin 2)
  /-- NODE_LIST (R385). -/
  | nodeList (nodes : List NodeInfo) (ring : Bool) (lost : List (Fin 1024))
  /-- MEMBER_READY (R386). -/
  | memberReady (node : Fin 4) (linkUp : Bool)
  /-- CSYNC_PULSE (R387). -/
  | csyncPulse (sec : W32) (err : Fin 101)
  /-- TIME_ORDERED_SET (R387). -/
  | timeOrderedSet (t : W64) (err : Fin 2001)
  /-- FORWARDED_COMMAND (R388). -/
  | forwardedCommand (k : FwdKind) (tag : W32) (ten : Ten) (e : Sqe) (pair : Option Sqe) (bad : Bool)
  /-- FORWARDED_COMPLETION (R388). -/
  | forwardedCompletion (admin : Bool) (tag : W32) (st : Status) (dw0 : W32) (dw1 : W32) (data : List Byte)
      (blocks : List (W64 × Blk × Hmd))
  /-- PATH_FAILURE_REROUTE (R389). -/
  | pathFailureReroute (node : Fin 4) (dir : Fin 2)
  /-- MEMBER_LOSS_TIMEOUT (R392). -/
  | memberLossTimeout (node : Fin 4)
  /-- MEMBER_FAULT_REPORT (R392). -/
  | memberFaultReport (node : Fin 4)
  /-- ORPHAN_TIMEOUT (R393). -/
  | orphanTimeout
  /-- ENTDAA (R394). -/
  | entdaa (addr : BitVec 7)
  /-- SETDASA (R394). -/
  | setdasa (addr : BitVec 7)
  /-- RSTDAA (R394). -/
  | rstdaa
  /-- ARP_ASSIGN_ADDRESS (R394). -/
  | arpAssignAddress (addr : BitVec 7)
  /-- SMBUS_TRANSACTION (R394). -/
  | smbusTransaction
  /-- SET_ENDPOINT_ID (R396). -/
  | setEndpointId (b : Fin 4) (eid : BitVec 8)
  /-- EVPOST_WRITE (R400). -/
  | evpostWrite (c : CoreId) (v : W32)
  /-- EVENT_RECORD_ARRIVAL (R399). -/
  | eventRecordArrival (src : Isl)
  /-- EVENT_FLUSH_DONE (R402). -/
  | eventFlushDone
  /-- RATE_WINDOW_END (R401). -/
  | rateWindowEnd
  /-- FREEZE_TIMEOUT (R405). -/
  | freezeTimeout
  /-- TEMPERATURE_SAMPLE (R407). -/
  | temperatureSample (ts : List (BitVec 32))
  /-- VOLTAGE_SAMPLE (R408). -/
  | voltageSample (mvs : List (BitVec 12))
  /-- RING_OSC_GATE (R409). -/
  | ringOscGate (counts : List (BitVec 16))
  /-- CLAIM_WRITE (R410). -/
  | claimWrite (k : ResKind) (ix : BitVec 8) (id : W32)
  /-- CLAIM_RELEASE (R410). -/
  | claimRelease (k : ResKind) (ix : BitVec 8) (id : W32)
  /-- TAP_RESET (R365). -/
  | tapReset
  /-- EXTEST (R414). -/
  | extest (v : W64)
  /-- IDCODE (R414). -/
  | idcode
  /-- SAMPLE_PRELOAD (R414). -/
  | samplePreload (v : W64)
  /-- HIGHZ (R414). -/
  | highz
  /-- CLAMP (R414). -/
  | clamp
  /-- EXTEST_PULSE (R414). -/
  | extestPulse
  /-- EXTEST_TRAIN (R414). -/
  | extestTrain
  /-- DBGACCESS (R414). -/
  | dbgaccess (a : BitVec 40) (size : Fin 4) (w : Option W64)
  /-- JTAG_MBIST (R414). -/
  | jtagMbist (v : W64)
  /-- BYPASS (R414). -/
  | bypass
  /-- MBIST_GO (R415). -/
  | mbistGo (q : Requester) (isl : BitVec 8) (mem : BitVec 4) (bank : BitVec 5)
  /-- MBIST_DONE (R415). -/
  | mbistDone (failAt : Option W32)
  /-- MINIMUM_RUN_TIME_ELAPSED (R101). -/
  | minimumRunTimeElapsed (d : DieId)
  /-- FORMATION_RESET_DELAY (R52). -/
  | formationResetDelay
  /-- ENTROPY_RESTART_TEST_PASS (R314). -/
  | entropyRestartTestPass
  /-- ENTROPY_WAIT_TIMEOUT (R314). -/
  | entropyWaitTimeout
  /-- PATTERN_CHECKER_LOST_LOCK (R413). -/
  | patternCheckerLostLock (lane : Fin 16)
  /-- LINK_POWER_STATE_CHANGE (R255). -/
  | linkPowerStateChange (p : Port) (lps : Fin 6)
  /-- INTERRUPT_COALESCING_TIMEOUT (R277). -/
  | interruptCoalescingTimeout (fn : FnId) (cq : Fin 65)
  /-- GENERAL_TIMER_EXPIRY (R14). -/
  | generalTimerExpiry (t : Fin 64)
  /-- END_SESSION (R330). -/
  | endSession (e : EpId) (session : W32)
  /-- VUKORO_LINK_DOWN (R383). -/
  | vukoroLinkDown (v : Fin 2)
  /-- CORE_STORE (R341). -/
  | coreStore (c : CoreId) (a : BitVec 40) (size : Fin 4) (v : W64) (ue : Bool)
  deriving DecidableEq, Repr

end Sys2Proof
end

