-- ==== Sys2Proof/WellFormed.lean ====
section
/-! DEFINITION. Well-formed commands: the checks on operands that their types do not make. -/

namespace Sys2Proof

open Sys2Proof.Machine

/-- A value lies below 2^n. -/
def fits {w : Nat} (x : BitVec w) (n : Nat) : Bool := decide (x.toNat < 2 ^ n)

/-- The unused bits of a MOV immediate, [16:8], are 0 (R203). -/
def movImm (x : BitVec 18) : Bool := x.toNat / 2 ^ 8 % 2 ^ 9 == 0

/-- An even byte count of at least 2 (R203). -/
def evenBytes (n : Nat) : Bool := n % 2 == 0 && decide (2 ≤ n)

/-- First byte and count of ADDR stay within the register (R203). -/
def addrImm (x : BitVec 18) : Bool :=
  fits x 5 && decide (1 ≤ x.toNat % 8) && decide (x.toNat % 8 + x.toNat / 8 ≤ 4)

/-- The kind of a POST immediate, with its unused bit 17 zero (R208). -/
def postImm (x : BitVec 18) (kind : Nat) : Bool := fits x 17 && x.toNat / 2 ^ 12 % 4 == kind

/-- Fields a Kazino instruction does not use are 0, and those it uses hold values R203 allows. -/
def Instr.kzOk : Instr → Bool
  | .sel _ _ _ imm => fits imm 5
  | .cmd _ _ _ imm => fits imm 9
  | .addr _ _ _ imm => addrImm imm
  | .din _ _ _ _ imm => evenBytes imm.toNat
  | .dout _ _ _ _ imm data => evenBytes imm.toNat && data.length == imm.toNat
  | .ldih _ _ _ imm => fits imm 14
  | .mov _ _ _ _ imm => movImm imm
  | .br _ _ imm => fits imm 12
  | .brc _ _ imm => fits imm 15
  | .call _ _ imm => fits imm 12
  | .postDone _ _ _ _ imm => postImm imm 0
  | .postPark _ _ _ _ imm => postImm imm 1
  | .postSusp _ _ _ _ imm => postImm imm 2
  | .evt _ _ _ _ imm => fits imm 16
  | .pgen _ _ _ imm => evenBytes (imm.toNat % 2 ^ 16)
  | .pchk _ _ _ _ imm got => evenBytes (imm.toNat % 2 ^ 16) && got.length == imm.toNat % 2 ^ 16
  | _ => true

/-- Lists of samples have one entry for each sensor, rail or island (R407 to R409); a node list names at most four nodes (R380). -/
def Instr.listsOk : Instr → Bool
  | .temperatureSample ts => ts.length == 24
  | .voltageSample mvs => mvs.length == 7
  | .ringOscGate counts => counts.length == 176
  | .nodeList nodes _ _ => decide (nodes.length ≤ 4)
  | .enum _ _ claims => decide (claims.length ≤ 4)
  | _ => true

/-- A second entry comes with the first of a fused pair alone (R193). -/
def Instr.pairOk : Instr → Bool
  | .peekEntryArrival _ _ e pair => pair.isNone || e.fuse == 1
  | _ => true

/-- Rates are codes 1 to 6 and widths powers of two (R254). -/
def Instr.linkOk : Instr → Bool
  | .linkTrained _ rate width => decide (1 ≤ rate.toNat) && decide (rate.toNat ≤ 6) && [1, 2, 4, 8, 16].contains width.toNat
  | _ => true

/-- A command is well formed. -/
def Instr.wf (i : Instr) : Bool := i.kzOk && i.listsOk && i.pairOk && i.linkOk

end Sys2Proof
end

