-- ==== Sys2Proof/Decode.lean ====
section
/-! DEFINITION. Reading a command from a word: none of the table's rows gives bits; and the words of Kazino instructions (R203),
which sequencers fetch from their instruction memory. -/

namespace Sys2Proof

open Sys2Proof.Machine

/-- The command that a word spells by the table's bits. No row of spec/opcode_table.json gives bits, so no word spells one. -/
def decodeTableWord (_nbits _w : Nat) : Option Instr := none

/-! ### Kazino words (R203) -/

/-- The word of an instruction: opcode [31:26], rd [25:22], rs [21:18], immediate [17:0]. -/
def kzPack (op : BitVec 6) (rd rs : BitVec 4) (imm : BitVec 18) : W32 := op ++ rd ++ rs ++ imm

/-- The word of a Kazino instruction, with 0 in the fields it does not use; no other command has one. -/
def kzEncode : Instr → Option W32
  | .halt _ _ => some (kzPack 0x00 0 0 0)
  | .sel _ _ rs imm => some (kzPack 0x04 0 rs imm)
  | .cmd _ _ rs imm => some (kzPack 0x05 0 rs imm)
  | .addr _ _ rs imm => some (kzPack 0x06 0 rs imm)
  | .din _ _ rd rs imm => some (kzPack 0x07 rd rs imm)
  | .dout _ _ rd rs imm _ => some (kzPack 0x08 rd rs imm)
  | .wait _ _ rs imm => some (kzPack 0x09 0 rs imm)
  | .poll _ _ rd rs imm _ _ => some (kzPack 0x0A rd rs imm)
  | .ldi _ _ rd imm => some (kzPack 0x10 rd 0 imm)
  | .ldih _ _ rd imm => some (kzPack 0x11 rd 0 imm)
  | .mov _ _ rd rs imm => some (kzPack 0x12 rd rs imm)
  | .add _ _ rd rs imm => some (kzPack 0x13 rd rs imm)
  | .sub _ _ rd rs imm => some (kzPack 0x14 rd rs imm)
  | .and _ _ rd rs imm => some (kzPack 0x15 rd rs imm)
  | .or _ _ rd rs imm => some (kzPack 0x16 rd rs imm)
  | .xor _ _ rd rs imm => some (kzPack 0x17 rd rs imm)
  | .shl _ _ rd rs imm => some (kzPack 0x18 rd rs imm)
  | .shr _ _ rd rs imm => some (kzPack 0x19 rd rs imm)
  | .br _ _ imm => some (kzPack 0x20 0 0 imm)
  | .brc _ _ imm => some (kzPack 0x21 0 0 imm)
  | .call _ _ imm => some (kzPack 0x22 0 0 imm)
  | .ret _ _ => some (kzPack 0x23 0 0 0)
  | .pop _ _ => some (kzPack 0x28 0 0 0)
  | .postDone _ _ rd rs imm => some (kzPack 0x29 rd rs imm)
  | .postPark _ _ rd rs imm => some (kzPack 0x29 rd rs imm)
  | .postSusp _ _ rd rs imm => some (kzPack 0x29 rd rs imm)
  | .tstart _ _ rs imm => some (kzPack 0x2C 0 rs imm)
  | .twait _ _ => some (kzPack 0x2D 0 0 0)
  | .evt _ _ rd rs imm => some (kzPack 0x30 rd rs imm)
  | .pgen _ _ rs imm => some (kzPack 0x34 0 rs imm)
  | .pchk _ _ rd rs imm _ => some (kzPack 0x35 rd rs imm)
  | _ => none

/-- The instruction of an opcode and fields, where every field it does not use is 0. Bytes that a die is to give are 0. -/
def kzFields (n : Chan) (f : Fetch) (op : BitVec 6) (rd rs : BitVec 4) (imm : BitVec 18) : Option Instr :=
  match op.toNat with
  | 0x00 => if rd = 0 ∧ rs = 0 ∧ imm = 0 then some (.halt n f) else none
  | 0x04 => if rd = 0 then some (.sel n f rs imm) else none
  | 0x05 => if rd = 0 then some (.cmd n f rs imm) else none
  | 0x06 => if rd = 0 then some (.addr n f rs imm) else none
  | 0x07 => some (.din n f rd rs imm)
  | 0x08 => some (.dout n f rd rs imm (List.replicate imm.toNat 0))
  | 0x09 => if rd = 0 then some (.wait n f rs imm) else none
  | 0x0A => some (.poll n f rd rs imm 0 [])
  | 0x10 => if rs = 0 then some (.ldi n f rd imm) else none
  | 0x11 => if rs = 0 then some (.ldih n f rd imm) else none
  | 0x12 => some (.mov n f rd rs imm)
  | 0x13 => some (.add n f rd rs imm)
  | 0x14 => some (.sub n f rd rs imm)
  | 0x15 => some (.and n f rd rs imm)
  | 0x16 => some (.or n f rd rs imm)
  | 0x17 => some (.xor n f rd rs imm)
  | 0x18 => some (.shl n f rd rs imm)
  | 0x19 => some (.shr n f rd rs imm)
  | 0x20 => if rd = 0 ∧ rs = 0 then some (.br n f imm) else none
  | 0x21 => if rd = 0 ∧ rs = 0 then some (.brc n f imm) else none
  | 0x22 => if rd = 0 ∧ rs = 0 then some (.call n f imm) else none
  | 0x23 => if rd = 0 ∧ rs = 0 ∧ imm = 0 then some (.ret n f) else none
  | 0x28 => if rd = 0 ∧ rs = 0 ∧ imm = 0 then some (.pop n f) else none
  | 0x29 =>
    match imm.toNat / 2 ^ 12 % 4 with
    | 0 => some (.postDone n f rd rs imm)
    | 1 => some (.postPark n f rd rs imm)
    | 2 => some (.postSusp n f rd rs imm)
    | _ => none
  | 0x2C => if rd = 0 then some (.tstart n f rs imm) else none
  | 0x2D => if rd = 0 ∧ rs = 0 ∧ imm = 0 then some (.twait n f) else none
  | 0x30 => some (.evt n f rd rs imm)
  | 0x34 => if rd = 0 then some (.pgen n f rs imm) else none
  | 0x35 => some (.pchk n f rd rs imm (List.replicate (imm.toNat % 2 ^ 16) 0))
  | _ => none

/-- The well-formed Kazino instruction that a word of a channel's instruction memory spells. -/
def kzDecode (n : Chan) (f : Fetch) (w : W32) : Option Instr :=
  (kzFields n f (w.extractLsb' 26 6) (w.extractLsb' 22 4) (w.extractLsb' 18 4) (w.extractLsb' 0 18)).filter Instr.wf

/-- A Kazino instruction with the bytes that a die gives it taken as 0: what its word alone says of it. -/
def Instr.bare : Instr → Instr
  | .dout n f rd rs imm data => .dout n f rd rs imm (List.replicate data.length 0)
  | .poll n f rd rs imm _ _ => .poll n f rd rs imm 0 []
  | .pchk n f rd rs imm got => .pchk n f rd rs imm (List.replicate got.length 0)
  | i => i

/-- A Kazino instruction whose word came out of the instruction memory as given. -/
def Instr.refetched (g : Fetch) : Instr → Instr
  | .halt n _ => .halt n g
  | .sel n _ rs imm => .sel n g rs imm
  | .cmd n _ rs imm => .cmd n g rs imm
  | .addr n _ rs imm => .addr n g rs imm
  | .din n _ rd rs imm => .din n g rd rs imm
  | .dout n _ rd rs imm data => .dout n g rd rs imm data
  | .wait n _ rs imm => .wait n g rs imm
  | .poll n _ rd rs imm first more => .poll n g rd rs imm first more
  | .ldi n _ rd imm => .ldi n g rd imm
  | .ldih n _ rd imm => .ldih n g rd imm
  | .mov n _ rd rs imm => .mov n g rd rs imm
  | .add n _ rd rs imm => .add n g rd rs imm
  | .sub n _ rd rs imm => .sub n g rd rs imm
  | .and n _ rd rs imm => .and n g rd rs imm
  | .or n _ rd rs imm => .or n g rd rs imm
  | .xor n _ rd rs imm => .xor n g rd rs imm
  | .shl n _ rd rs imm => .shl n g rd rs imm
  | .shr n _ rd rs imm => .shr n g rd rs imm
  | .br n _ imm => .br n g imm
  | .brc n _ imm => .brc n g imm
  | .call n _ imm => .call n g imm
  | .ret n _ => .ret n g
  | .pop n _ => .pop n g
  | .postDone n _ rd rs imm => .postDone n g rd rs imm
  | .postPark n _ rd rs imm => .postPark n g rd rs imm
  | .postSusp n _ rd rs imm => .postSusp n g rd rs imm
  | .tstart n _ rs imm => .tstart n g rs imm
  | .twait n _ => .twait n g
  | .evt n _ rd rs imm => .evt n g rd rs imm
  | .pgen n _ rs imm => .pgen n g rs imm
  | .pchk n _ rd rs imm got => .pchk n g rd rs imm got
  | i => i

/-- The channel a Kazino instruction runs on, and how its word was fetched. -/
def Instr.site : Instr → Option (Chan × Fetch)
  | .halt n f | .sel n f _ _ | .cmd n f _ _ | .addr n f _ _ | .din n f _ _ _ | .dout n f _ _ _ _ | .wait n f _ _
  | .poll n f _ _ _ _ _ | .ldi n f _ _ | .ldih n f _ _ | .mov n f _ _ _ | .add n f _ _ _ | .sub n f _ _ _ | .and n f _ _ _
  | .or n f _ _ _ | .xor n f _ _ _ | .shl n f _ _ _ | .shr n f _ _ _ | .br n f _ | .brc n f _ | .call n f _ | .ret n f
  | .pop n f | .postDone n f _ _ _ | .postPark n f _ _ _ | .postSusp n f _ _ _ | .tstart n f _ _ | .twait n f
  | .evt n f _ _ _ | .pgen n f _ _ | .pchk n f _ _ _ _ => some (n, f)
  | _ => none

end Sys2Proof
end

