-- ==== Sys2Proof/Config.lean ====
section
/-! DEFINITION. What the spec leaves open: the free values, opaque and without a body. -/

namespace Sys2Proof

/-- The n-th output of the key DRBG (R314): 512 bits nothing constrains (assumption 4). -/
opaque Config.drbg : Nat → BitVec 512

/-- DRK, which the PUF gives with the fuse-held helper data (R300): 256 bits nothing constrains (assumption 3). -/
opaque Config.drk : BitVec 256

/-- The fixed input of the KDF for a label and wrap epoch (R300), which the spec does not give (assumption 3). -/
opaque Config.kdfInput (label epoch : Nat) : List Byte

/-- The bytes of a signature SEC makes over signed data, scheme 0 RSA-3072 and 1 SLH-DSA (R331, R332): its keys were
drawn at manufacture and its salt or randomizer is drawn (assumption 3). -/
opaque Config.signature (scheme : Nat) (signed : Nat) : List Byte

/-- A 16-bit result that the spec leaves open, the n-th drawn (assumption 5). -/
opaque Config.freeNat : Nat → Nat

/-- A choice between two outcomes that R20 leaves to an arbiter (assumption 5). -/
opaque Config.freeBool : Nat → Bool

/-- PRBS output: polynomial 0 to 3, state before, bytes moved; the state after (R213). The generator's
polynomials are named by the spec and its bit order is not (assumption 6). -/
opaque Config.prbs (poly state bytes : Nat) : Nat

/-- Bits of a PCHK that mismatch: polynomial, state, the bytes the die drove (R213, assumption 6). -/
opaque Config.prbsMismatch (poly state : Nat) (got : List Byte) : Nat

/-- Channel cycles of a SEL, which the cost table of R205 leaves out (assumption 11). -/
opaque Config.selCycles : Nat

/-- Which 4 KiB of DRAM a buffer lies in, which the spec does not say: pool (0 write buffers, 1 parity scratch), index (assumption 75). -/
opaque Config.bufAt (pool index : Nat) : Nat

/-- Where in shared SRAM the diagnostic buffer of R202 begins, which the spec does not say (assumption 12). -/
opaque Config.diagBase : Nat

/-- Count a ring oscillator needs at an island's clock (R409 MIN), from fuses blown at manufacture: island, PLL multiplier
(0 on the RC oscillator) (assumption 13). -/
opaque Config.roscMin (island mult : Nat) : Nat

/-- Walvon's 11-bit JEDEC manufacturer code (R414) and MIPI manufacturer ID (R395), which the spec does not give
(assumption 13). -/
opaque Config.jedec : BitVec 11

@[inherit_doc Config.jedec] opaque Config.mipi : BitVec 15

/-- The serial number of this device (R383, R395), fixed at manufacture (assumption 13). -/
opaque Config.serial : Nat

/-- Digest of the Sprout ROM (R328 index 1), whose content the spec does not give (assumption 13). -/
opaque Config.romDigest : BitVec 384

/-- The certificate chain of an SPDM slot (R331) (assumption 13). -/
opaque Config.certChain (slot : Nat) : List Byte

/-- Flash budget of power state PS1 or PS2 in mW, which comes from the Opern image (R359) (assumption 13). -/
opaque Config.psBudget : Nat → Nat

/-- Power state descriptor bytes, which the integrator fills (R276, R359) (assumption 13). -/
opaque Config.psDescriptor : Nat → List Byte

/-- The first 64 bytes of the Identify Controller data: vendor IDs, serial and model number (R276), which the spec does not give
(assumption 13). -/
opaque Config.idHead : List Byte

/-- The IEEE OUI of the Identify Controller data (assumption 13). -/
opaque Config.ieee : BitVec 24

/-- LDPC: whether the hard decoder's correction limit is above a bit count for a parity length (R225). -/
opaque Config.ldpcLimit (ldpclen : Nat) : Nat

/-- LDPC parity of the profile's length in bytes over DATA and TAG (R34): the code is the flash profile's, which the spec does not give
(assumption 49). -/
opaque Config.ldpcParity (bytes : Nat) (front : List Byte) : Nat

/-- DATA of a stage codeword left unfilled, whose value R78 does not give, by its place (assumption 49). -/
opaque Config.unfilled : Nat → Blk

/-- DATA and HMD of a P or Q codeword that a rebuild writes unchanged in a lost row (R152), which the remaining members do not give, by block
and codeword (assumption 49). -/
opaque Config.oldParity (blk cw : Nat) : Blk × Hmd

/-- Exponent of the first root of the DRAM code's generator, which R337 leaves open (assumption 70). -/
opaque Config.rsFirst : Nat

end Sys2Proof
end

