-- ==== Sys2Proof/Machine/RegTable.lean ====
section
/-! DEFINITION. The register tables of the spec as data: every register of every island's CSR window with its
offset, stride and count, and every field with its bits, its type (R8) and its Reset value. The numbers are
those of the register tables of spec/01 to spec/18; each register names its file. -/

namespace Sys2Proof

/-- The access types of R8. -/
inductive FTy | ro | rw | w1c | wo | rwl | rs
  deriving DecidableEq, Repr

/-- One field: its lowest bit, its width, its type and its Reset value. -/
structure FieldDef where
  lo : Nat
  w : Nat
  ty : FTy
  reset : Nat
  deriving DecidableEq, Repr

/-- The registers of the spec by name. -/
inductive RegId
  | ISL_ID | ISL_CLKCTL | ISL_CLKSTAT | ZNE_GEOM | ZNE_ZCNT | ZNE_TZQ | ZNE_TZU | ZNE_DIRTYCFG
  | ZNE_DIRTY | ZNE_DIRTYPK | ZNE_STAGECFG | ZNE_STAGESTAT | ZNE_SCHEDCFG | ZNE_PODCFG | ZNE_SUSPLIM | ZNE_TPRED0
  | ZNE_TPRED1 | ZNE_TPRED2 | ZNE_WDCFG | ZNE_RACFG | LPE_BINEDGE | LPE_HIST | ZNE_HEALTHCFG | ZNE_DHS
  | ZNE_DIECMD | ZNE_RBCFG | LPE_CFG | LPE_STAT | LPE_EXTMEAS | LPE_MODELV | ZNE_CRCFG | ZNE_CRSTAT
  | ZNE_HAZSTAT | CH_SEQCTL | CH_SEQSTAT | CH_TICK | CH_ROWFMT | CH_BUSCFG | CH_POLLCFG | CH_GUARDCFG
  | CH_GUARDCFG2 | CH_GUARDCTL | CH_PODSTAT | CH_ISA | CH_UCVER | CH_ENTRY | CH_DDESC | CH_DCTL
  | CH_DSTAT | LDC_LADDERDEV | LDC_LADDER | ZNE_PELIM | ZNE_WEARCFG | ZNE_ERASECFG | ZNE_SCRUBCFG | ZNE_MHSTAT
  | ZNE_UNCERT | HIF_PORTSTAT | HIF_LINKCFG | HIF_FNMAP | HIF_DIAGCTL | HIF_IDESTAT | HIF_ARBCFG | HIF_TCRED
  | HIF_TWBQ | HIF_TUSE | HIF_TWBU | SEC_KSATTR | KWE_LOCK | KWE_CMD | KWE_GENATTR | KWE_STAT
  | XTS_NSK | XTS_DUC | XTS_CFG | ZNE_KGREF | SEC_TRNGSTAT | SEC_BOOTSTAT | SEC_BOOTWD | SEC_OTPCMD
  | DMC_CFG | DMC_ECCCFG | DMC_ECCSTAT | DMC_DMACTL | MRM_BANKSTAT | AON_PSTATE_REQ | AON_PSSTAT | AON_VETO
  | AON_RETEN | AON_RETSTAT | AON_RSTCAUSE | AON_RSTCTL | AON_AVSCFG | AON_AVSSTAT | AON_HUCFG | AON_HULIM
  | VUK_LINKCFG | VUK_LINKSTAT | VUK_CASC | VUK_CASCCFG | MGT_MBCFG | MGT_MBSTAT | MGT_TEMP | MGT_VMON
  | MGT_VLIM | MGT_ROSC | MGT_SAFECFG | MGT_MBISTCTL | MGT_MBISTADDR | MGT_EVCFG | MGT_EVSTAT | MGT_EVPOST
  | MGT_EVPOST1 | MGT_EVPOST2 | MGT_EVPOST3 | CH_PHYCFG | ZNE_PWRBUD | ZNE_PWRRES | ZNE_TOKCOST0 | ZNE_TOKCOST1
  | ZNE_PWRSTAT | ZNE_PWREFF | ZNE_PCAP | ZNE_PWRPGM | LPE_SCTL | LPE_SP | LPE_GAIN | LPE_FFG
  | LPE_ULIM | LPE_SAFE | LPE_PLAUS | LPE_ESC | LPE_MODE | LPE_HOLD | LPE_OUT | LPE_MEAS
  | LPE_CNT | LPE_ERR | LPE_FAULTS | ZNE_ZMBASE | ZNE_BTBASE | ZNE_BSTBASE | ZNE_AZTBASE | ZNE_SRDBASE
  | ZNE_CPMBASE | ZNE_CSTBASE | ZNE_CNTBASE | ZNE_RCTBASE | ZNE_PROFBASE | ZNE_TGOV | ZNE_SGOV | ZNE_RASTAT_SUSP
  | ZNE_RASTAT_RA | ZNE_RASTAT_RAFB | ZNE_RASTAT_LOSTRACE | ZNE_RASTAT_WDEXP | ZNE_RASTAT_LATEDISC | ZNE_RASTAT_LATEUSED | ZNE_RASTAT_WBHIT | PQE_RECON
  | PQE_RBSLICES | PQE_ROWLOST | PQE_SUBST | LPE_SAMPLES | LPE_MERGED | ZNE_CONV_HOSTCW | ZNE_CONV_RELCW | ZNE_CONV_PADCW
  | CH_OPS | CH_GUARDREF | CH_FAULTS | CH_IMEMCE | ZNE_MH_ERASES | ZNE_MH_CHKFAIL | ZNE_MH_GROWN | ZNE_MH_LIMIT
  | ZNE_MH_SCRUBBED | ZNE_MH_REFRESH | ZNE_MH_WLRELOC | HIF_LINKDOWN | HIF_RETRAIN | HIF_IDEDROP | DMC_CECNT | DMC_UECNT
  | MRM_REMAP | MRM_CE | MRM_UE | AON_PS_ATTEMPT | AON_PS_DONE | AON_PS_REFUSED | AON_PS_ABORTED | AON_PS_COLLAPSED
  | AON_RES | AON_REFCNT | VUK_FECCOR | VUK_FECUNC | VUK_REROUTE | MGT_EVNEXT | MGT_EVOLDEST | MGT_EVDROP
  | MGT_EVSUPP | MGT_EVFWCUR | KWE_ADDR | AON_WAKEAT | AON_AGEAT | DMC_DMASRC | DMC_DMADST | DMC_DMALEN
  | DMC_DMAFADDR | KWE_LEN | LPE_MODEL | CH_KREG | CH_IMEM | MGT_CLAIM
  deriving DecidableEq, Repr

/-- One register or array of registers: the islands that hold it, its offset, the stride and count of an
array, whether it is 64 bits wide (R13), and its fields from bit 0 up. -/
structure RegDef where
  id : RegId
  islLo : Nat
  islHi : Nat
  off : Nat
  stride : Nat
  count : Nat
  wide : Bool
  fields : List FieldDef
  deriving DecidableEq, Repr

/-- A field of a register at an address: the key of its register, its lowest bit and its width. -/
structure Fld where
  addr : Nat
  lo : Nat
  w : Nat
  deriving DecidableEq, Repr

/-- Key of a register: island window number and offset in the window (00_scope, Registers). -/
def regKey (isl off : Nat) : Nat := isl * 0x100000 + off

/-- Registers 0 to 19 of the table. -/
def RegTable.part1 : List RegDef := [
  ⟨.ISL_ID, 0x0, 0xaf, 0x0, 0x0, 1, false,
    [⟨0, 8, .ro, 0x0⟩, ⟨8, 8, .ro, 0x0⟩, ⟨16, 8, .ro, 0x0⟩, ⟨24, 8, .ro, 0x21⟩]⟩,
  ⟨.ISL_CLKCTL, 0x0, 0xaf, 0x8, 0x0, 1, false,
    [⟨0, 1, .rw, 0x0⟩, ⟨1, 1, .rw, 0x0⟩, ⟨2, 6, .ro, 0x0⟩, ⟨8, 7, .rw, 0x0⟩, ⟨15, 17, .ro, 0x0⟩]⟩,
  ⟨.ISL_CLKSTAT, 0x0, 0xaf, 0xc, 0x0, 1, false,
    [⟨0, 1, .ro, 0x0⟩, ⟨1, 1, .ro, 0x0⟩, ⟨2, 1, .w1c, 0x0⟩, ⟨3, 29, .ro, 0x0⟩]⟩,
  ⟨.ZNE_GEOM, 0x8, 0x8, 0x100, 0x0, 1, false,
    [⟨0, 8, .rwl, 0x0⟩, ⟨8, 5, .rwl, 0x0⟩, ⟨13, 2, .rwl, 0x0⟩, ⟨15, 1, .ro, 0x0⟩, ⟨16, 2, .rwl, 0x0⟩, ⟨18, 2, .rwl, 0x0⟩, ⟨20, 11, .ro, 0x0⟩, ⟨31, 1, .rwl, 0x0⟩]⟩,
  ⟨.ZNE_ZCNT, 0x8, 0x8, 0x210, 0x0, 1, false,
    [⟨0, 14, .ro, 0x0⟩, ⟨14, 2, .ro, 0x0⟩, ⟨16, 14, .ro, 0x0⟩, ⟨30, 2, .ro, 0x0⟩]⟩,
  ⟨.ZNE_TZQ, 0x8, 0x8, 0x1000, 0x8, 128, false,
    [⟨0, 14, .rw, 0x2000⟩, ⟨14, 2, .ro, 0x0⟩, ⟨16, 14, .rw, 0x2000⟩, ⟨30, 2, .ro, 0x0⟩]⟩,
  ⟨.ZNE_TZU, 0x8, 0x8, 0x1004, 0x8, 128, false,
    [⟨0, 14, .ro, 0x0⟩, ⟨14, 2, .ro, 0x0⟩, ⟨16, 14, .ro, 0x0⟩, ⟨30, 2, .ro, 0x0⟩]⟩,
  ⟨.ZNE_DIRTYCFG, 0x8, 0x8, 0x200, 0x0, 1, false,
    [⟨0, 12, .rw, 0x400⟩, ⟨12, 12, .ro, 0x400⟩, ⟨24, 1, .ro, 0x0⟩, ⟨25, 7, .ro, 0x0⟩]⟩,
  ⟨.ZNE_DIRTY, 0x8, 0x8, 0x204, 0x0, 1, false,
    [⟨0, 20, .ro, 0x0⟩, ⟨20, 12, .ro, 0x0⟩]⟩,
  ⟨.ZNE_DIRTYPK, 0x8, 0x8, 0x208, 0x0, 1, false,
    [⟨0, 20, .rw, 0x0⟩, ⟨20, 12, .ro, 0x0⟩]⟩,
  ⟨.ZNE_STAGECFG, 0x8, 0x8, 0x20c, 0x0, 1, false,
    [⟨0, 16, .rw, 0x14⟩, ⟨16, 4, .rw, 0xe⟩, ⟨20, 8, .rw, 0xc8⟩, ⟨28, 4, .ro, 0x0⟩]⟩,
  ⟨.ZNE_STAGESTAT, 0x8, 0x8, 0x214, 0x0, 1, false,
    [⟨0, 21, .ro, 0x0⟩, ⟨21, 3, .ro, 0x0⟩, ⟨24, 1, .ro, 0x0⟩, ⟨25, 7, .ro, 0x0⟩]⟩,
  ⟨.ZNE_SCHEDCFG, 0x8, 0x8, 0x318, 0x0, 1, false,
    [⟨0, 12, .rw, 0x3e8⟩, ⟨12, 8, .rw, 0x10⟩, ⟨20, 8, .rw, 0x10⟩, ⟨28, 4, .ro, 0x0⟩]⟩,
  ⟨.ZNE_PODCFG, 0x8, 0x8, 0x300, 0x0, 1, false,
    [⟨0, 1, .rw, 0x1⟩, ⟨1, 7, .ro, 0x0⟩, ⟨8, 8, .rw, 0x8⟩, ⟨16, 12, .rw, 0x3e8⟩, ⟨28, 4, .ro, 0x0⟩]⟩,
  ⟨.ZNE_SUSPLIM, 0x8, 0x8, 0x308, 0x0, 1, false,
    [⟨0, 8, .rwl, 0xc⟩, ⟨8, 8, .rwl, 0x4⟩, ⟨16, 8, .rwl, 0x32⟩, ⟨24, 8, .rwl, 0x14⟩]⟩,
  ⟨.ZNE_TPRED0, 0x8, 0x8, 0x310, 0x0, 1, false,
    [⟨0, 8, .rwl, 0x3c⟩, ⟨8, 8, .rwl, 0x19⟩, ⟨16, 8, .rwl, 0x1e⟩, ⟨24, 8, .rwl, 0x28⟩]⟩,
  ⟨.ZNE_TPRED1, 0x8, 0x8, 0x314, 0x0, 1, false,
    [⟨0, 16, .rwl, 0xfa0⟩, ⟨16, 16, .rwl, 0x2710⟩]⟩,
  ⟨.ZNE_TPRED2, 0x8, 0x8, 0x31c, 0x0, 1, false,
    [⟨0, 16, .rwl, 0xc8⟩, ⟨16, 16, .rwl, 0x1388⟩]⟩,
  ⟨.ZNE_WDCFG, 0x8, 0x8, 0x30c, 0x0, 1, false,
    [⟨0, 12, .rwl, 0xc8⟩, ⟨12, 20, .ro, 0x0⟩]⟩,
  ⟨.ZNE_RACFG, 0x8, 0x8, 0x304, 0x0, 1, false,
    [⟨0, 1, .rw, 0x1⟩, ⟨1, 1, .rw, 0x1⟩, ⟨2, 6, .ro, 0x0⟩, ⟨8, 8, .rw, 0x10⟩, ⟨16, 12, .rw, 0x96⟩, ⟨28, 4, .ro, 0x0⟩]⟩]

/-- Registers 20 to 39 of the table. -/
def RegTable.part2 : List RegDef := [
  ⟨.LPE_BINEDGE, 0x9, 0x9, 0xe00, 0x4, 64, false,
    [⟨0, 32, .ro, 0x0⟩]⟩,
  ⟨.LPE_HIST, 0x9, 0x9, 0x10000, 0x8, 8192, true,
    [⟨0, 64, .ro, 0x0⟩]⟩,
  ⟨.ZNE_HEALTHCFG, 0x8, 0x8, 0x400, 0x0, 1, false,
    [⟨0, 4, .rw, 0x8⟩, ⟨4, 6, .rw, 0xa⟩, ⟨10, 2, .rw, 0x3⟩, ⟨12, 8, .rw, 0x3c⟩, ⟨20, 8, .rw, 0x3c⟩, ⟨28, 4, .ro, 0x0⟩]⟩,
  ⟨.ZNE_DHS, 0x8, 0x8, 0x2000, 0x4, 2048, false,
    [⟨0, 2, .ro, 0x0⟩, ⟨2, 4, .ro, 0x0⟩, ⟨6, 2, .ro, 0x0⟩, ⟨8, 1, .ro, 0x0⟩, ⟨9, 1, .ro, 0x0⟩, ⟨10, 22, .ro, 0x0⟩]⟩,
  ⟨.ZNE_DIECMD, 0x8, 0x8, 0x408, 0x0, 1, false,
    [⟨0, 11, .wo, 0x0⟩, ⟨11, 2, .wo, 0x0⟩, ⟨13, 19, .ro, 0x0⟩]⟩,
  ⟨.ZNE_RBCFG, 0x8, 0x8, 0x404, 0x0, 1, false,
    [⟨0, 4, .rw, 0x5⟩, ⟨4, 8, .rw, 0x46⟩, ⟨12, 1, .rw, 0x0⟩, ⟨13, 19, .ro, 0x0⟩]⟩,
  ⟨.LPE_CFG, 0x9, 0x9, 0x100, 0x0, 1, false,
    [⟨0, 10, .rw, 0x64⟩, ⟨10, 6, .ro, 0x0⟩, ⟨16, 4, .rw, 0x8⟩, ⟨20, 11, .ro, 0x0⟩, ⟨31, 1, .rw, 0x1⟩]⟩,
  ⟨.LPE_STAT, 0x9, 0x9, 0x104, 0x0, 1, false,
    [⟨0, 8, .ro, 0x0⟩, ⟨8, 12, .ro, 0x0⟩, ⟨20, 12, .ro, 0x0⟩]⟩,
  ⟨.LPE_EXTMEAS, 0x9, 0x9, 0x204, 0x4, 15, false,
    [⟨0, 16, .rw, 0x0⟩, ⟨16, 16, .ro, 0x0⟩]⟩,
  ⟨.LPE_MODELV, 0x9, 0x9, 0x118, 0x0, 1, false,
    [⟨0, 18, .rw, 0x0⟩, ⟨18, 14, .ro, 0x0⟩]⟩,
  ⟨.ZNE_CRCFG, 0x8, 0x8, 0x218, 0x0, 1, false,
    [⟨0, 11, .rw, 0x20⟩, ⟨11, 11, .rw, 0x40⟩, ⟨22, 8, .rw, 0x20⟩, ⟨30, 2, .ro, 0x0⟩]⟩,
  ⟨.ZNE_CRSTAT, 0x8, 0x8, 0x21c, 0x0, 1, false,
    [⟨0, 16, .ro, 0x0⟩, ⟨16, 1, .ro, 0x0⟩, ⟨17, 1, .ro, 0x0⟩, ⟨18, 14, .ro, 0x0⟩]⟩,
  ⟨.ZNE_HAZSTAT, 0x8, 0x8, 0x220, 0x0, 1, false,
    [⟨0, 15, .ro, 0x0⟩, ⟨15, 1, .ro, 0x0⟩, ⟨16, 15, .rw, 0x0⟩, ⟨31, 1, .ro, 0x0⟩]⟩,
  ⟨.CH_SEQCTL, 0x30, 0xaf, 0x100, 0x0, 1, false,
    [⟨0, 1, .rw, 0x0⟩, ⟨1, 1, .rw, 0x0⟩, ⟨2, 30, .ro, 0x0⟩]⟩,
  ⟨.CH_SEQSTAT, 0x30, 0xaf, 0x104, 0x0, 1, false,
    [⟨0, 12, .ro, 0x0⟩, ⟨12, 2, .ro, 0x0⟩, ⟨14, 2, .ro, 0x0⟩, ⟨16, 4, .ro, 0x0⟩, ⟨20, 12, .ro, 0x0⟩]⟩,
  ⟨.CH_TICK, 0x30, 0xaf, 0x108, 0x0, 1, false,
    [⟨0, 12, .rwl, 0x4b0⟩, ⟨12, 20, .ro, 0x0⟩]⟩,
  ⟨.CH_ROWFMT, 0x30, 0xaf, 0x10c, 0x0, 1, false,
    [⟨0, 5, .rwl, 0x2⟩, ⟨5, 4, .rwl, 0x7⟩, ⟨9, 5, .rwl, 0xb⟩, ⟨14, 4, .rwl, 0xd⟩, ⟨18, 5, .rwl, 0x18⟩, ⟨23, 3, .rwl, 0x3⟩, ⟨26, 2, .rwl, 0x3⟩, ⟨28, 4, .ro, 0x0⟩]⟩,
  ⟨.CH_BUSCFG, 0x30, 0xaf, 0x110, 0x0, 1, false,
    [⟨0, 8, .rwl, 0xc⟩, ⟨8, 8, .rwl, 0x18⟩, ⟨16, 8, .rwl, 0xc⟩, ⟨24, 8, .rwl, 0x90⟩]⟩,
  ⟨.CH_POLLCFG, 0x30, 0xaf, 0x114, 0x0, 1, false,
    [⟨0, 8, .rwl, 0x78⟩, ⟨8, 1, .rwl, 0x1⟩, ⟨9, 7, .ro, 0x0⟩, ⟨16, 12, .rwl, 0x258⟩, ⟨28, 4, .ro, 0x0⟩]⟩,
  ⟨.CH_GUARDCFG, 0x30, 0xaf, 0x118, 0x0, 1, false,
    [⟨0, 8, .rwl, 0x80⟩, ⟨8, 8, .rwl, 0x85⟩, ⟨16, 8, .rwl, 0x60⟩, ⟨24, 8, .rwl, 0xd0⟩]⟩]

/-- Registers 40 to 59 of the table. -/
def RegTable.part3 : List RegDef := [
  ⟨.CH_GUARDCFG2, 0x30, 0xaf, 0x11c, 0x0, 1, false,
    [⟨0, 8, .rwl, 0x10⟩, ⟨8, 8, .rwl, 0x11⟩, ⟨16, 8, .rwl, 0x1a⟩, ⟨24, 8, .rwl, 0x15⟩]⟩,
  ⟨.CH_GUARDCTL, 0x30, 0xaf, 0x120, 0x0, 1, false,
    [⟨0, 1, .rwl, 0x0⟩, ⟨1, 1, .rwl, 0x0⟩, ⟨2, 30, .ro, 0x0⟩]⟩,
  ⟨.CH_PODSTAT, 0x30, 0xaf, 0x124, 0x0, 1, false,
    [⟨0, 16, .ro, 0x0⟩, ⟨16, 16, .ro, 0x0⟩]⟩,
  ⟨.CH_ISA, 0x30, 0xaf, 0x128, 0x0, 1, false,
    [⟨0, 16, .ro, 0x1⟩, ⟨16, 16, .ro, 0x0⟩]⟩,
  ⟨.CH_UCVER, 0x30, 0xaf, 0x12c, 0x0, 1, false,
    [⟨0, 32, .rw, 0x0⟩]⟩,
  ⟨.CH_ENTRY, 0x30, 0xaf, 0x140, 0x4, 16, false,
    [⟨0, 12, .rwl, 0x0⟩, ⟨12, 4, .ro, 0x0⟩, ⟨16, 1, .rwl, 0x0⟩, ⟨17, 15, .ro, 0x0⟩]⟩,
  ⟨.CH_DDESC, 0x30, 0xaf, 0x180, 0x4, 8, false,
    [⟨0, 32, .rw, 0x0⟩]⟩,
  ⟨.CH_DCTL, 0x30, 0xaf, 0x1a0, 0x0, 1, false,
    [⟨0, 1, .wo, 0x0⟩, ⟨1, 1, .ro, 0x0⟩, ⟨2, 1, .w1c, 0x0⟩, ⟨3, 29, .ro, 0x0⟩]⟩,
  ⟨.CH_DSTAT, 0x30, 0xaf, 0x1a4, 0x0, 1, false,
    [⟨0, 16, .ro, 0x0⟩, ⟨16, 16, .ro, 0x0⟩]⟩,
  ⟨.LDC_LADDERDEV, 0x7, 0x7, 0x3000, 0x8, 6, true,
    [⟨0, 64, .ro, 0x0⟩]⟩,
  ⟨.LDC_LADDER, 0x7, 0x7, 0x1000, 0x8, 1024, true,
    [⟨0, 64, .ro, 0x0⟩]⟩,
  ⟨.ZNE_PELIM, 0x8, 0x8, 0x500, 0x0, 1, false,
    [⟨0, 16, .rwl, 0x5dc⟩, ⟨16, 16, .rwl, 0xc350⟩]⟩,
  ⟨.ZNE_WEARCFG, 0x8, 0x8, 0x504, 0x0, 1, false,
    [⟨0, 4, .rw, 0x8⟩, ⟨4, 12, .rw, 0x64⟩, ⟨16, 4, .rw, 0x2⟩, ⟨20, 6, .rw, 0x4⟩, ⟨26, 6, .ro, 0x0⟩]⟩,
  ⟨.ZNE_ERASECFG, 0x8, 0x8, 0x508, 0x0, 1, false,
    [⟨0, 12, .rwl, 0x40⟩, ⟨12, 16, .rw, 0x258⟩, ⟨28, 4, .ro, 0x0⟩]⟩,
  ⟨.ZNE_SCRUBCFG, 0x8, 0x8, 0x50c, 0x0, 1, false,
    [⟨0, 10, .rw, 0xa8⟩, ⟨10, 4, .rw, 0x4⟩, ⟨14, 12, .rw, 0xc8⟩, ⟨26, 1, .rw, 0x1⟩, ⟨27, 5, .ro, 0x0⟩]⟩,
  ⟨.ZNE_MHSTAT, 0x8, 0x8, 0x510, 0x0, 1, false,
    [⟨0, 13, .ro, 0x0⟩, ⟨13, 1, .ro, 0x0⟩, ⟨14, 2, .ro, 0x0⟩, ⟨16, 13, .ro, 0x0⟩, ⟨29, 3, .ro, 0x0⟩]⟩,
  ⟨.ZNE_UNCERT, 0x8, 0x8, 0x514, 0x0, 1, false,
    [⟨0, 25, .ro, 0x0⟩, ⟨25, 7, .ro, 0x0⟩]⟩,
  ⟨.HIF_PORTSTAT, 0xc, 0xd, 0x100, 0x0, 1, false,
    [⟨0, 2, .ro, 0x0⟩, ⟨2, 1, .ro, 0x0⟩, ⟨3, 1, .ro, 0x0⟩, ⟨4, 1, .ro, 0x0⟩, ⟨5, 3, .ro, 0x0⟩, ⟨8, 5, .ro, 0x0⟩, ⟨13, 3, .ro, 0x6⟩, ⟨16, 16, .ro, 0x0⟩]⟩,
  ⟨.HIF_LINKCFG, 0xc, 0xd, 0x104, 0x0, 1, false,
    [⟨0, 3, .rwl, 0x6⟩, ⟨3, 1, .ro, 0x0⟩, ⟨4, 3, .rwl, 0x2⟩, ⟨7, 1, .rwl, 0x1⟩, ⟨8, 2, .rwl, 0x0⟩, ⟨10, 6, .ro, 0x0⟩, ⟨16, 1, .rw, 0x0⟩, ⟨17, 15, .ro, 0x0⟩]⟩,
  ⟨.HIF_FNMAP, 0xc, 0xd, 0x1000, 0x4, 128, false,
    [⟨0, 7, .rwl, 0x0⟩, ⟨7, 1, .ro, 0x0⟩, ⟨8, 7, .rw, 0x40⟩, ⟨15, 1, .ro, 0x0⟩, ⟨16, 7, .ro, 0x0⟩, ⟨23, 9, .ro, 0x0⟩]⟩]

/-- Registers 60 to 79 of the table. -/
def RegTable.part4 : List RegDef := [
  ⟨.HIF_DIAGCTL, 0xc, 0xd, 0x120, 0x0, 1, false,
    [⟨0, 1, .rwl, 0x0⟩, ⟨1, 1, .rwl, 0x0⟩, ⟨2, 1, .ro, 0x0⟩, ⟨3, 5, .ro, 0x0⟩, ⟨8, 8, .ro, 0x0⟩, ⟨16, 16, .ro, 0x0⟩]⟩,
  ⟨.HIF_IDESTAT, 0xc, 0xd, 0x130, 0x0, 1, false,
    [⟨0, 8, .ro, 0x0⟩, ⟨8, 8, .w1c, 0x0⟩, ⟨16, 16, .ro, 0x0⟩]⟩,
  ⟨.HIF_ARBCFG, 0xc, 0xd, 0x200, 0x0, 1, false,
    [⟨0, 8, .rw, 0x8⟩, ⟨8, 12, .rw, 0xc8⟩, ⟨20, 12, .ro, 0x0⟩]⟩,
  ⟨.HIF_TCRED, 0xc, 0xc, 0x2000, 0x8, 128, false,
    [⟨0, 16, .rw, 0xfc00⟩, ⟨16, 1, .rw, 0x1⟩, ⟨17, 15, .ro, 0x0⟩]⟩,
  ⟨.HIF_TWBQ, 0xc, 0xc, 0x2004, 0x8, 128, false,
    [⟨0, 20, .rw, 0x80000⟩, ⟨20, 12, .ro, 0x0⟩]⟩,
  ⟨.HIF_TUSE, 0xc, 0xc, 0x3000, 0x8, 128, false,
    [⟨0, 16, .ro, 0x0⟩, ⟨16, 16, .ro, 0x0⟩]⟩,
  ⟨.HIF_TWBU, 0xc, 0xc, 0x3004, 0x8, 128, false,
    [⟨0, 20, .ro, 0x0⟩, ⟨20, 12, .ro, 0x0⟩]⟩,
  ⟨.SEC_KSATTR, 0x3, 0x3, 0x1000, 0x4, 4096, false,
    [⟨0, 2, .ro, 0x0⟩, ⟨2, 2, .ro, 0x0⟩, ⟨4, 7, .ro, 0x0⟩, ⟨11, 10, .ro, 0x0⟩, ⟨21, 8, .ro, 0x0⟩, ⟨29, 3, .ro, 0x0⟩]⟩,
  ⟨.KWE_LOCK, 0x3, 0x3, 0x100, 0x0, 1, false,
    [⟨0, 5, .rw, 0x0⟩, ⟨5, 1, .ro, 0x0⟩, ⟨6, 26, .ro, 0x0⟩]⟩,
  ⟨.KWE_CMD, 0x3, 0x3, 0x108, 0x0, 1, false,
    [⟨0, 4, .rw, 0x0⟩, ⟨4, 12, .rw, 0x0⟩, ⟨16, 12, .rw, 0x0⟩, ⟨28, 3, .ro, 0x0⟩, ⟨31, 1, .wo, 0x0⟩]⟩,
  ⟨.KWE_GENATTR, 0x3, 0x3, 0x118, 0x0, 1, false,
    [⟨0, 2, .rw, 0x0⟩, ⟨2, 7, .rw, 0x0⟩, ⟨9, 10, .rw, 0x0⟩, ⟨19, 8, .rw, 0x0⟩, ⟨27, 5, .ro, 0x0⟩]⟩,
  ⟨.KWE_STAT, 0x3, 0x3, 0x11c, 0x0, 1, false,
    [⟨0, 1, .ro, 0x0⟩, ⟨1, 1, .w1c, 0x0⟩, ⟨2, 4, .ro, 0x0⟩, ⟨6, 26, .ro, 0x0⟩]⟩,
  ⟨.XTS_NSK, 0x5, 0x5, 0x1000, 0x8, 1024, true,
    [⟨0, 12, .rw, 0x0⟩, ⟨12, 8, .rw, 0x0⟩, ⟨20, 1, .rw, 0x0⟩, ⟨21, 7, .rw, 0x0⟩, ⟨28, 4, .ro, 0x0⟩, ⟨32, 12, .rw, 0x0⟩, ⟨44, 8, .rw, 0x0⟩, ⟨52, 1, .rw, 0x0⟩, ⟨53, 11, .ro, 0x0⟩]⟩,
  ⟨.XTS_DUC, 0x5, 0x5, 0x10000, 0x8, 4096, true,
    [⟨0, 64, .ro, 0x0⟩]⟩,
  ⟨.XTS_CFG, 0x5, 0x5, 0x100, 0x0, 1, false,
    [⟨0, 6, .rw, 0x24⟩, ⟨6, 26, .ro, 0x0⟩]⟩,
  ⟨.ZNE_KGREF, 0x8, 0x8, 0x4000, 0x8, 1024, true,
    [⟨0, 21, .ro, 0x0⟩, ⟨21, 11, .ro, 0x0⟩, ⟨32, 21, .ro, 0x0⟩, ⟨53, 1, .ro, 0x0⟩, ⟨54, 1, .ro, 0x0⟩, ⟨55, 1, .ro, 0x0⟩, ⟨56, 8, .ro, 0x0⟩]⟩,
  ⟨.SEC_TRNGSTAT, 0x3, 0x3, 0x140, 0x0, 1, false,
    [⟨0, 1, .ro, 0x0⟩, ⟨1, 1, .w1c, 0x0⟩, ⟨2, 1, .w1c, 0x0⟩, ⟨3, 1, .ro, 0x1⟩, ⟨4, 28, .ro, 0x0⟩]⟩,
  ⟨.SEC_BOOTSTAT, 0x3, 0x3, 0x200, 0x0, 1, false,
    [⟨0, 1, .ro, 0x0⟩, ⟨1, 2, .ro, 0x0⟩, ⟨3, 1, .ro, 0x0⟩, ⟨4, 1, .ro, 0x0⟩, ⟨5, 3, .ro, 0x0⟩, ⟨8, 4, .ro, 0x0⟩, ⟨12, 4, .ro, 0x0⟩, ⟨16, 7, .ro, 0x0⟩, ⟨23, 1, .ro, 0x0⟩, ⟨24, 8, .ro, 0x0⟩]⟩,
  ⟨.SEC_BOOTWD, 0x3, 0x3, 0x208, 0x0, 1, false,
    [⟨0, 8, .ro, 0x3c⟩, ⟨8, 1, .ro, 0x0⟩, ⟨9, 1, .wo, 0x0⟩, ⟨10, 22, .ro, 0x0⟩]⟩,
  ⟨.SEC_OTPCMD, 0x3, 0x3, 0x210, 0x0, 1, false,
    [⟨0, 7, .rw, 0x0⟩, ⟨7, 1, .ro, 0x0⟩, ⟨8, 4, .rw, 0x0⟩, ⟨12, 4, .rw, 0x0⟩, ⟨16, 8, .ro, 0x0⟩, ⟨24, 1, .ro, 0x0⟩, ⟨25, 1, .ro, 0x0⟩, ⟨26, 5, .ro, 0x0⟩, ⟨31, 1, .wo, 0x0⟩]⟩]

/-- Registers 80 to 99 of the table. -/
def RegTable.part5 : List RegDef := [
  ⟨.DMC_CFG, 0xa, 0xb, 0x100, 0x0, 1, false,
    [⟨0, 1, .rwl, 0x0⟩, ⟨1, 1, .rwl, 0x0⟩, ⟨2, 1, .rwl, 0x0⟩, ⟨3, 1, .rwl, 0x0⟩, ⟨4, 27, .ro, 0x0⟩, ⟨31, 1, .rwl, 0x0⟩]⟩,
  ⟨.DMC_ECCCFG, 0xa, 0xb, 0x108, 0x0, 1, false,
    [⟨0, 8, .rw, 0x40⟩, ⟨8, 8, .rw, 0x3c⟩, ⟨16, 8, .rw, 0x18⟩, ⟨24, 8, .ro, 0x0⟩]⟩,
  ⟨.DMC_ECCSTAT, 0xa, 0xb, 0x110, 0x4, 2, false,
    [⟨0, 4, .rs, 0x0⟩, ⟨4, 1, .rs, 0x0⟩, ⟨5, 4, .rs, 0x0⟩, ⟨9, 1, .rs, 0x0⟩, ⟨10, 22, .ro, 0x0⟩]⟩,
  ⟨.DMC_DMACTL, 0xa, 0xb, 0x218, 0x40, 4, false,
    [⟨0, 2, .rw, 0x0⟩, ⟨2, 1, .wo, 0x0⟩, ⟨3, 1, .ro, 0x0⟩, ⟨4, 1, .w1c, 0x0⟩, ⟨5, 1, .w1c, 0x0⟩, ⟨6, 2, .ro, 0x0⟩, ⟨8, 8, .ro, 0x0⟩, ⟨16, 16, .ro, 0x0⟩]⟩,
  ⟨.MRM_BANKSTAT, 0x4, 0x4, 0x100, 0x0, 1, false,
    [⟨0, 4, .ro, 0x0⟩, ⟨4, 12, .ro, 0x0⟩, ⟨16, 9, .ro, 0x100⟩, ⟨25, 7, .ro, 0x0⟩]⟩,
  ⟨.AON_PSTATE_REQ, 0x0, 0x0, 0x100, 0x0, 1, false,
    [⟨0, 2, .rw, 0x0⟩, ⟨2, 30, .ro, 0x0⟩]⟩,
  ⟨.AON_PSSTAT, 0x0, 0x0, 0x104, 0x0, 1, false,
    [⟨0, 2, .ro, 0x0⟩, ⟨2, 1, .ro, 0x0⟩, ⟨3, 2, .ro, 0x0⟩, ⟨5, 3, .ro, 0x0⟩, ⟨8, 8, .ro, 0xff⟩, ⟨16, 16, .ro, 0x0⟩]⟩,
  ⟨.AON_VETO, 0x0, 0x0, 0x108, 0x0, 1, false,
    [⟨0, 32, .rw, 0x0⟩]⟩,
  ⟨.AON_RETEN, 0x0, 0x0, 0x10c, 0x0, 1, false,
    [⟨0, 24, .rw, 0xffffff⟩, ⟨24, 8, .ro, 0x0⟩]⟩,
  ⟨.AON_RETSTAT, 0x0, 0x0, 0x110, 0x0, 1, false,
    [⟨0, 24, .w1c, 0x0⟩, ⟨24, 1, .w1c, 0x0⟩, ⟨25, 7, .ro, 0x0⟩]⟩,
  ⟨.AON_RSTCAUSE, 0x0, 0x0, 0x120, 0x0, 1, false,
    [⟨0, 4, .ro, 0x0⟩, ⟨4, 28, .ro, 0x0⟩]⟩,
  ⟨.AON_RSTCTL, 0x0, 0x0, 0x124, 0x0, 1, false,
    [⟨0, 1, .wo, 0x0⟩, ⟨1, 31, .ro, 0x0⟩]⟩,
  ⟨.AON_AVSCFG, 0x0, 0x0, 0x130, 0x0, 1, false,
    [⟨0, 1, .rw, 0x0⟩, ⟨1, 7, .ro, 0x0⟩, ⟨8, 10, .rw, 0x2ee⟩, ⟨18, 14, .ro, 0x0⟩]⟩,
  ⟨.AON_AVSSTAT, 0x0, 0x0, 0x134, 0x0, 1, false,
    [⟨0, 10, .ro, 0x2ee⟩, ⟨10, 1, .w1c, 0x0⟩, ⟨11, 21, .ro, 0x0⟩]⟩,
  ⟨.AON_HUCFG, 0x0, 0x0, 0x140, 0x0, 1, false,
    [⟨0, 16, .rw, 0x5dc⟩, ⟨16, 1, .rw, 0x0⟩, ⟨17, 7, .ro, 0x0⟩, ⟨24, 8, .rw, 0x18⟩]⟩,
  ⟨.AON_HULIM, 0x0, 0x0, 0x144, 0x0, 1, false,
    [⟨0, 12, .ro, 0x40c⟩, ⟨12, 1, .ro, 0x0⟩, ⟨13, 19, .ro, 0x0⟩]⟩,
  ⟨.VUK_LINKCFG, 0xe, 0xf, 0x100, 0x0, 1, false,
    [⟨0, 1, .rw, 0x0⟩, ⟨1, 1, .rwl, 0x1⟩, ⟨2, 30, .ro, 0x0⟩]⟩,
  ⟨.VUK_LINKSTAT, 0xe, 0xf, 0x104, 0x0, 1, false,
    [⟨0, 1, .ro, 0x0⟩, ⟨1, 1, .ro, 0x0⟩, ⟨2, 4, .ro, 0x0⟩, ⟨6, 2, .ro, 0x0⟩, ⟨8, 2, .ro, 0x0⟩, ⟨10, 22, .ro, 0x0⟩]⟩,
  ⟨.VUK_CASC, 0xe, 0xe, 0x200, 0x0, 1, false,
    [⟨0, 2, .ro, 0x0⟩, ⟨2, 2, .ro, 0x0⟩, ⟨4, 3, .ro, 0x1⟩, ⟨7, 1, .ro, 0x0⟩, ⟨8, 4, .ro, 0x1⟩, ⟨12, 4, .ro, 0x0⟩, ⟨16, 16, .ro, 0x0⟩]⟩,
  ⟨.VUK_CASCCFG, 0xe, 0xe, 0x204, 0x0, 1, false,
    [⟨0, 14, .rw, 0x7d0⟩, ⟨14, 18, .ro, 0x0⟩]⟩]

/-- Registers 100 to 119 of the table. -/
def RegTable.part6 : List RegDef := [
  ⟨.MGT_MBCFG, 0x2, 0x2, 0x100, 0x0, 1, false,
    [⟨0, 7, .rw, 0x1d⟩, ⟨7, 1, .rw, 0x1⟩, ⟨8, 1, .rw, 0x1⟩, ⟨9, 1, .rw, 0x1⟩, ⟨10, 22, .ro, 0x0⟩]⟩,
  ⟨.MGT_MBSTAT, 0x2, 0x2, 0x104, 0x0, 1, false,
    [⟨0, 2, .ro, 0x0⟩, ⟨2, 7, .ro, 0x0⟩, ⟨9, 7, .ro, 0x0⟩, ⟨16, 8, .ro, 0x0⟩, ⟨24, 8, .ro, 0x0⟩]⟩,
  ⟨.MGT_TEMP, 0x2, 0x2, 0x400, 0x4, 24, false,
    [⟨0, 16, .ro, 0x0⟩, ⟨16, 1, .ro, 0x0⟩, ⟨17, 1, .ro, 0x0⟩, ⟨18, 14, .ro, 0x0⟩]⟩,
  ⟨.MGT_VMON, 0x2, 0x2, 0x480, 0x4, 7, false,
    [⟨0, 12, .ro, 0x0⟩, ⟨12, 1, .w1c, 0x0⟩, ⟨13, 1, .w1c, 0x0⟩, ⟨14, 18, .ro, 0x0⟩]⟩,
  ⟨.MGT_VLIM, 0x2, 0x2, 0x4c0, 0x4, 7, false,
    [⟨0, 12, .rw, 0x0⟩, ⟨12, 12, .rw, 0x0⟩, ⟨24, 8, .ro, 0x0⟩]⟩,
  ⟨.MGT_ROSC, 0x2, 0x2, 0x800, 0x4, 176, false,
    [⟨0, 16, .ro, 0x0⟩, ⟨16, 16, .ro, 0x0⟩]⟩,
  ⟨.MGT_SAFECFG, 0x2, 0x2, 0x300, 0x0, 1, false,
    [⟨0, 4, .rw, 0xd⟩, ⟨4, 1, .rw, 0x0⟩, ⟨5, 3, .ro, 0x0⟩, ⟨8, 4, .rw, 0xe⟩, ⟨12, 1, .rw, 0x0⟩, ⟨13, 19, .ro, 0x0⟩]⟩,
  ⟨.MGT_MBISTCTL, 0x2, 0x2, 0x600, 0x0, 1, false,
    [⟨0, 8, .rw, 0x0⟩, ⟨8, 4, .rw, 0x0⟩, ⟨12, 1, .wo, 0x0⟩, ⟨13, 1, .ro, 0x0⟩, ⟨14, 1, .w1c, 0x0⟩, ⟨15, 1, .ro, 0x0⟩, ⟨16, 5, .rw, 0x0⟩, ⟨21, 1, .ro, 0x0⟩, ⟨22, 10, .ro, 0x0⟩]⟩,
  ⟨.MGT_MBISTADDR, 0x2, 0x2, 0x604, 0x0, 1, false,
    [⟨0, 32, .ro, 0x0⟩]⟩,
  ⟨.MGT_EVCFG, 0x2, 0x2, 0x140, 0x0, 1, false,
    [⟨0, 8, .rw, 0x40⟩, ⟨8, 8, .rw, 0x3c⟩, ⟨16, 16, .ro, 0x0⟩]⟩,
  ⟨.MGT_EVSTAT, 0x2, 0x2, 0x144, 0x0, 1, false,
    [⟨0, 14, .ro, 0x0⟩, ⟨14, 1, .ro, 0x0⟩, ⟨15, 1, .ro, 0x0⟩, ⟨16, 10, .ro, 0x0⟩, ⟨26, 6, .ro, 0x0⟩]⟩,
  ⟨.MGT_EVPOST, 0x2, 0x2, 0x200, 0x0, 1, false,
    [⟨0, 16, .wo, 0x0⟩, ⟨16, 8, .wo, 0x0⟩, ⟨24, 4, .wo, 0x0⟩, ⟨28, 4, .ro, 0x0⟩]⟩,
  ⟨.MGT_EVPOST1, 0x2, 0x2, 0x204, 0x0, 1, false,
    [⟨0, 8, .wo, 0x0⟩, ⟨8, 24, .wo, 0x0⟩]⟩,
  ⟨.MGT_EVPOST2, 0x2, 0x2, 0x208, 0x0, 1, false,
    [⟨0, 32, .wo, 0x0⟩]⟩,
  ⟨.MGT_EVPOST3, 0x2, 0x2, 0x20c, 0x0, 1, false,
    [⟨0, 32, .wo, 0x0⟩]⟩,
  ⟨.CH_PHYCFG, 0x30, 0xaf, 0x300, 0x0, 1, false,
    [⟨0, 3, .rwl, 0x3⟩, ⟨3, 3, .rwl, 0x3⟩, ⟨6, 8, .rwl, 0x64⟩, ⟨14, 18, .ro, 0x0⟩]⟩,
  ⟨.ZNE_PWRBUD, 0x8, 0x8, 0x600, 0x0, 1, false,
    [⟨0, 20, .rw, 0x17700⟩, ⟨20, 12, .ro, 0x0⟩]⟩,
  ⟨.ZNE_PWRRES, 0x8, 0x8, 0x604, 0x0, 1, false,
    [⟨0, 16, .rw, 0x2ee0⟩, ⟨16, 16, .rw, 0x5dc0⟩]⟩,
  ⟨.ZNE_TOKCOST0, 0x8, 0x8, 0x608, 0x0, 1, false,
    [⟨0, 10, .rwl, 0x2d⟩, ⟨10, 10, .rwl, 0x31⟩, ⟨20, 10, .rwl, 0x39⟩, ⟨30, 2, .ro, 0x0⟩]⟩,
  ⟨.ZNE_TOKCOST1, 0x8, 0x8, 0x60c, 0x0, 1, false,
    [⟨0, 10, .rwl, 0x28⟩, ⟨10, 10, .rwl, 0x12c⟩, ⟨20, 10, .rwl, 0x23⟩, ⟨30, 2, .ro, 0x0⟩]⟩]

/-- Registers 120 to 139 of the table. -/
def RegTable.part7 : List RegDef := [
  ⟨.ZNE_PWRSTAT, 0x8, 0x8, 0x610, 0x0, 1, false,
    [⟨0, 20, .ro, 0x0⟩, ⟨20, 1, .ro, 0x0⟩, ⟨21, 1, .ro, 0x0⟩, ⟨22, 10, .ro, 0x0⟩]⟩,
  ⟨.ZNE_PWREFF, 0x8, 0x8, 0x614, 0x0, 1, false,
    [⟨0, 20, .ro, 0x17700⟩, ⟨20, 12, .ro, 0x0⟩]⟩,
  ⟨.ZNE_PCAP, 0x8, 0x8, 0x618, 0x0, 1, false,
    [⟨0, 20, .rw, 0xbb80⟩, ⟨20, 12, .ro, 0x0⟩]⟩,
  ⟨.ZNE_PWRPGM, 0x8, 0x8, 0x61c, 0x0, 1, false,
    [⟨0, 16, .ro, 0x0⟩, ⟨16, 16, .ro, 0x0⟩]⟩,
  ⟨.LPE_SCTL, 0x9, 0x9, 0x20000, 0x40, 160, false,
    [⟨0, 2, .ro, 0x0⟩, ⟨2, 2, .wo, 0x0⟩, ⟨4, 1, .ro, 0x0⟩, ⟨5, 3, .ro, 0x0⟩, ⟨8, 8, .ro, 0x0⟩, ⟨16, 16, .ro, 0x0⟩]⟩,
  ⟨.LPE_SP, 0x9, 0x9, 0x20004, 0x40, 160, false,
    [⟨0, 16, .rw, 0x190⟩, ⟨16, 16, .rw, 0x3⟩]⟩,
  ⟨.LPE_GAIN, 0x9, 0x9, 0x20008, 0x40, 160, false,
    [⟨0, 16, .rwl, 0x0⟩, ⟨16, 16, .rwl, 0x0⟩]⟩,
  ⟨.LPE_FFG, 0x9, 0x9, 0x2000c, 0x40, 160, false,
    [⟨0, 16, .rwl, 0x0⟩, ⟨16, 4, .rwl, 0x0⟩, ⟨20, 3, .rwl, 0x4⟩, ⟨23, 1, .ro, 0x0⟩, ⟨24, 5, .rwl, 0x0⟩, ⟨29, 3, .ro, 0x0⟩]⟩,
  ⟨.LPE_ULIM, 0x9, 0x9, 0x20010, 0x40, 160, false,
    [⟨0, 16, .rwl, 0x0⟩, ⟨16, 16, .rwl, 0xffff⟩]⟩,
  ⟨.LPE_SAFE, 0x9, 0x9, 0x20014, 0x40, 160, false,
    [⟨0, 16, .rwl, 0x40⟩, ⟨16, 2, .rwl, 0x1⟩, ⟨18, 1, .rwl, 0x0⟩, ⟨19, 13, .ro, 0x0⟩]⟩,
  ⟨.LPE_PLAUS, 0x9, 0x9, 0x20018, 0x40, 160, false,
    [⟨0, 16, .rwl, 0x800⟩, ⟨16, 8, .rwl, 0x0⟩, ⟨24, 8, .ro, 0x0⟩]⟩,
  ⟨.LPE_ESC, 0x9, 0x9, 0x2001c, 0x40, 160, false,
    [⟨0, 16, .rwl, 0x10⟩, ⟨16, 16, .rwl, 0x100⟩]⟩,
  ⟨.LPE_MODE, 0x9, 0x9, 0x20020, 0x40, 160, false,
    [⟨0, 2, .rwl, 0x2⟩, ⟨2, 2, .rwl, 0x1⟩, ⟨4, 28, .ro, 0x0⟩]⟩,
  ⟨.LPE_HOLD, 0x9, 0x9, 0x20024, 0x40, 160, false,
    [⟨0, 16, .rwl, 0xffff⟩, ⟨16, 2, .rwl, 0x2⟩, ⟨18, 1, .rwl, 0x1⟩, ⟨19, 13, .ro, 0x0⟩]⟩,
  ⟨.LPE_OUT, 0x9, 0x9, 0x20028, 0x40, 160, false,
    [⟨0, 16, .ro, 0xffff⟩, ⟨16, 2, .ro, 0x2⟩, ⟨18, 1, .ro, 0x1⟩, ⟨19, 13, .ro, 0x0⟩]⟩,
  ⟨.LPE_MEAS, 0x9, 0x9, 0x2002c, 0x40, 160, false,
    [⟨0, 16, .ro, 0x0⟩, ⟨16, 16, .ro, 0x0⟩]⟩,
  ⟨.LPE_CNT, 0x9, 0x9, 0x20030, 0x40, 160, false,
    [⟨0, 16, .ro, 0x0⟩, ⟨16, 16, .ro, 0x0⟩]⟩,
  ⟨.LPE_ERR, 0x9, 0x9, 0x20034, 0x40, 160, false,
    [⟨0, 16, .ro, 0x0⟩, ⟨16, 16, .ro, 0x0⟩]⟩,
  ⟨.LPE_FAULTS, 0x9, 0x9, 0x20038, 0x40, 160, false,
    [⟨0, 32, .ro, 0x0⟩]⟩,
  ⟨.ZNE_ZMBASE, 0x8, 0x8, 0x108, 0x0, 1, true,
    [⟨0, 21, .ro, 0x0⟩, ⟨21, 19, .rwl, 0x0⟩, ⟨40, 24, .ro, 0x0⟩]⟩]

/-- Registers 140 to 159 of the table. -/
def RegTable.part8 : List RegDef := [
  ⟨.ZNE_BTBASE, 0x8, 0x8, 0x110, 0x0, 1, true,
    [⟨0, 21, .ro, 0x0⟩, ⟨21, 19, .rwl, 0x0⟩, ⟨40, 24, .ro, 0x0⟩]⟩,
  ⟨.ZNE_BSTBASE, 0x8, 0x8, 0x118, 0x0, 1, true,
    [⟨0, 21, .ro, 0x0⟩, ⟨21, 19, .rwl, 0x0⟩, ⟨40, 24, .ro, 0x0⟩]⟩,
  ⟨.ZNE_AZTBASE, 0x8, 0x8, 0x120, 0x0, 1, true,
    [⟨0, 21, .ro, 0x0⟩, ⟨21, 19, .rwl, 0x0⟩, ⟨40, 24, .ro, 0x0⟩]⟩,
  ⟨.ZNE_SRDBASE, 0x8, 0x8, 0x128, 0x0, 1, true,
    [⟨0, 21, .ro, 0x0⟩, ⟨21, 19, .rwl, 0x0⟩, ⟨40, 24, .ro, 0x0⟩]⟩,
  ⟨.ZNE_CPMBASE, 0x8, 0x8, 0x130, 0x0, 1, true,
    [⟨0, 21, .ro, 0x0⟩, ⟨21, 19, .rwl, 0x0⟩, ⟨40, 24, .ro, 0x0⟩]⟩,
  ⟨.ZNE_CSTBASE, 0x8, 0x8, 0x138, 0x0, 1, true,
    [⟨0, 21, .ro, 0x0⟩, ⟨21, 19, .rwl, 0x0⟩, ⟨40, 24, .ro, 0x0⟩]⟩,
  ⟨.ZNE_CNTBASE, 0x8, 0x8, 0x140, 0x0, 1, true,
    [⟨0, 21, .ro, 0x0⟩, ⟨21, 19, .rwl, 0x0⟩, ⟨40, 24, .ro, 0x0⟩]⟩,
  ⟨.ZNE_RCTBASE, 0x8, 0x8, 0x148, 0x0, 1, true,
    [⟨0, 21, .ro, 0x0⟩, ⟨21, 19, .rwl, 0x0⟩, ⟨40, 24, .ro, 0x0⟩]⟩,
  ⟨.ZNE_PROFBASE, 0x8, 0x8, 0x150, 0x0, 1, true,
    [⟨0, 21, .ro, 0x0⟩, ⟨21, 19, .rwl, 0x0⟩, ⟨40, 24, .ro, 0x0⟩]⟩,
  ⟨.ZNE_TGOV, 0x8, 0x8, 0x1800, 0x4, 128, false,
    [⟨0, 16, .ro, 0xffff⟩, ⟨16, 2, .ro, 0x2⟩, ⟨18, 1, .ro, 0x1⟩, ⟨19, 13, .ro, 0x0⟩]⟩,
  ⟨.ZNE_SGOV, 0x8, 0x8, 0x1a00, 0x4, 16, false,
    [⟨0, 16, .ro, 0xffff⟩, ⟨16, 16, .ro, 0x0⟩]⟩,
  ⟨.ZNE_RASTAT_SUSP, 0x8, 0x8, 0x340, 0x0, 1, true,
    [⟨0, 64, .ro, 0x0⟩]⟩,
  ⟨.ZNE_RASTAT_RA, 0x8, 0x8, 0x348, 0x0, 1, true,
    [⟨0, 64, .ro, 0x0⟩]⟩,
  ⟨.ZNE_RASTAT_RAFB, 0x8, 0x8, 0x350, 0x0, 1, true,
    [⟨0, 64, .ro, 0x0⟩]⟩,
  ⟨.ZNE_RASTAT_LOSTRACE, 0x8, 0x8, 0x358, 0x0, 1, true,
    [⟨0, 64, .ro, 0x0⟩]⟩,
  ⟨.ZNE_RASTAT_WDEXP, 0x8, 0x8, 0x360, 0x0, 1, true,
    [⟨0, 64, .ro, 0x0⟩]⟩,
  ⟨.ZNE_RASTAT_LATEDISC, 0x8, 0x8, 0x368, 0x0, 1, true,
    [⟨0, 64, .ro, 0x0⟩]⟩,
  ⟨.ZNE_RASTAT_LATEUSED, 0x8, 0x8, 0x370, 0x0, 1, true,
    [⟨0, 64, .ro, 0x0⟩]⟩,
  ⟨.ZNE_RASTAT_WBHIT, 0x8, 0x8, 0x378, 0x0, 1, true,
    [⟨0, 64, .ro, 0x0⟩]⟩,
  ⟨.PQE_RECON, 0x6, 0x6, 0x100, 0x0, 1, true,
    [⟨0, 64, .ro, 0x0⟩]⟩]

/-- Registers 160 to 179 of the table. -/
def RegTable.part9 : List RegDef := [
  ⟨.PQE_RBSLICES, 0x6, 0x6, 0x108, 0x0, 1, true,
    [⟨0, 64, .ro, 0x0⟩]⟩,
  ⟨.PQE_ROWLOST, 0x6, 0x6, 0x110, 0x0, 1, true,
    [⟨0, 64, .ro, 0x0⟩]⟩,
  ⟨.PQE_SUBST, 0x6, 0x6, 0x118, 0x0, 1, true,
    [⟨0, 64, .ro, 0x0⟩]⟩,
  ⟨.LPE_SAMPLES, 0x9, 0x9, 0x108, 0x0, 1, true,
    [⟨0, 64, .ro, 0x0⟩]⟩,
  ⟨.LPE_MERGED, 0x9, 0x9, 0x110, 0x0, 1, true,
    [⟨0, 64, .ro, 0x0⟩]⟩,
  ⟨.ZNE_CONV_HOSTCW, 0x8, 0x8, 0x380, 0x0, 1, true,
    [⟨0, 64, .ro, 0x0⟩]⟩,
  ⟨.ZNE_CONV_RELCW, 0x8, 0x8, 0x388, 0x0, 1, true,
    [⟨0, 64, .ro, 0x0⟩]⟩,
  ⟨.ZNE_CONV_PADCW, 0x8, 0x8, 0x390, 0x0, 1, true,
    [⟨0, 64, .ro, 0x0⟩]⟩,
  ⟨.CH_OPS, 0x30, 0xaf, 0x1c0, 0x0, 1, true,
    [⟨0, 64, .ro, 0x0⟩]⟩,
  ⟨.CH_GUARDREF, 0x30, 0xaf, 0x1c8, 0x0, 1, true,
    [⟨0, 64, .ro, 0x0⟩]⟩,
  ⟨.CH_FAULTS, 0x30, 0xaf, 0x1d0, 0x0, 1, true,
    [⟨0, 64, .ro, 0x0⟩]⟩,
  ⟨.CH_IMEMCE, 0x30, 0xaf, 0x1d8, 0x0, 1, true,
    [⟨0, 64, .ro, 0x0⟩]⟩,
  ⟨.ZNE_MH_ERASES, 0x8, 0x8, 0x520, 0x0, 1, true,
    [⟨0, 64, .ro, 0x0⟩]⟩,
  ⟨.ZNE_MH_CHKFAIL, 0x8, 0x8, 0x528, 0x0, 1, true,
    [⟨0, 64, .ro, 0x0⟩]⟩,
  ⟨.ZNE_MH_GROWN, 0x8, 0x8, 0x530, 0x0, 1, true,
    [⟨0, 64, .ro, 0x0⟩]⟩,
  ⟨.ZNE_MH_LIMIT, 0x8, 0x8, 0x538, 0x0, 1, true,
    [⟨0, 64, .ro, 0x0⟩]⟩,
  ⟨.ZNE_MH_SCRUBBED, 0x8, 0x8, 0x540, 0x0, 1, true,
    [⟨0, 64, .ro, 0x0⟩]⟩,
  ⟨.ZNE_MH_REFRESH, 0x8, 0x8, 0x548, 0x0, 1, true,
    [⟨0, 64, .ro, 0x0⟩]⟩,
  ⟨.ZNE_MH_WLRELOC, 0x8, 0x8, 0x550, 0x0, 1, true,
    [⟨0, 64, .ro, 0x0⟩]⟩,
  ⟨.HIF_LINKDOWN, 0xc, 0xd, 0x140, 0x0, 1, true,
    [⟨0, 64, .ro, 0x0⟩]⟩]

/-- Registers 180 to 199 of the table. -/
def RegTable.part10 : List RegDef := [
  ⟨.HIF_RETRAIN, 0xc, 0xd, 0x148, 0x0, 1, true,
    [⟨0, 64, .ro, 0x0⟩]⟩,
  ⟨.HIF_IDEDROP, 0xc, 0xd, 0x150, 0x0, 1, true,
    [⟨0, 64, .ro, 0x0⟩]⟩,
  ⟨.DMC_CECNT, 0xa, 0xb, 0x120, 0x8, 2, true,
    [⟨0, 64, .ro, 0x0⟩]⟩,
  ⟨.DMC_UECNT, 0xa, 0xb, 0x130, 0x8, 2, true,
    [⟨0, 64, .ro, 0x0⟩]⟩,
  ⟨.MRM_REMAP, 0x4, 0x4, 0x110, 0x0, 1, true,
    [⟨0, 64, .ro, 0x0⟩]⟩,
  ⟨.MRM_CE, 0x4, 0x4, 0x118, 0x0, 1, true,
    [⟨0, 64, .ro, 0x0⟩]⟩,
  ⟨.MRM_UE, 0x4, 0x4, 0x120, 0x0, 1, true,
    [⟨0, 64, .ro, 0x0⟩]⟩,
  ⟨.AON_PS_ATTEMPT, 0x0, 0x0, 0x180, 0x0, 1, true,
    [⟨0, 64, .ro, 0x0⟩]⟩,
  ⟨.AON_PS_DONE, 0x0, 0x0, 0x188, 0x0, 1, true,
    [⟨0, 64, .ro, 0x0⟩]⟩,
  ⟨.AON_PS_REFUSED, 0x0, 0x0, 0x190, 0x0, 1, true,
    [⟨0, 64, .ro, 0x0⟩]⟩,
  ⟨.AON_PS_ABORTED, 0x0, 0x0, 0x198, 0x0, 1, true,
    [⟨0, 64, .ro, 0x0⟩]⟩,
  ⟨.AON_PS_COLLAPSED, 0x0, 0x0, 0x1a0, 0x0, 1, true,
    [⟨0, 64, .ro, 0x0⟩]⟩,
  ⟨.AON_RES, 0x0, 0x0, 0x1c0, 0x8, 4, true,
    [⟨0, 64, .ro, 0x0⟩]⟩,
  ⟨.AON_REFCNT, 0x0, 0x0, 0x400, 0x4, 176, false,
    [⟨0, 32, .ro, 0x0⟩]⟩,
  ⟨.VUK_FECCOR, 0xe, 0xf, 0x140, 0x0, 1, true,
    [⟨0, 64, .ro, 0x0⟩]⟩,
  ⟨.VUK_FECUNC, 0xe, 0xf, 0x148, 0x0, 1, true,
    [⟨0, 64, .ro, 0x0⟩]⟩,
  ⟨.VUK_REROUTE, 0xe, 0xe, 0x150, 0x0, 1, true,
    [⟨0, 64, .ro, 0x0⟩]⟩,
  ⟨.MGT_EVNEXT, 0x2, 0x2, 0x148, 0x0, 1, true,
    [⟨0, 64, .ro, 0x0⟩]⟩,
  ⟨.MGT_EVOLDEST, 0x2, 0x2, 0x150, 0x0, 1, true,
    [⟨0, 64, .ro, 0x0⟩]⟩,
  ⟨.MGT_EVDROP, 0x2, 0x2, 0x160, 0x0, 1, true,
    [⟨0, 64, .ro, 0x0⟩]⟩]

/-- Registers 200 to 213 of the table. -/
def RegTable.part11 : List RegDef := [
  ⟨.MGT_EVSUPP, 0x2, 0x2, 0x168, 0x0, 1, true,
    [⟨0, 64, .ro, 0x0⟩]⟩,
  ⟨.MGT_EVFWCUR, 0x2, 0x2, 0x158, 0x0, 1, true,
    [⟨0, 64, .rw, 0x0⟩]⟩,
  ⟨.KWE_ADDR, 0x3, 0x3, 0x110, 0x0, 1, true,
    [⟨0, 64, .rw, 0x0⟩]⟩,
  ⟨.AON_WAKEAT, 0x0, 0x0, 0x118, 0x0, 1, true,
    [⟨0, 64, .rw, 0x0⟩]⟩,
  ⟨.AON_AGEAT, 0x0, 0x0, 0x128, 0x0, 1, true,
    [⟨0, 64, .ro, 0x0⟩]⟩,
  ⟨.DMC_DMASRC, 0xa, 0xb, 0x200, 0x40, 4, true,
    [⟨0, 64, .rw, 0x0⟩]⟩,
  ⟨.DMC_DMADST, 0xa, 0xb, 0x208, 0x40, 4, true,
    [⟨0, 64, .rw, 0x0⟩]⟩,
  ⟨.DMC_DMALEN, 0xa, 0xb, 0x210, 0x40, 4, true,
    [⟨0, 64, .rw, 0x0⟩]⟩,
  ⟨.DMC_DMAFADDR, 0xa, 0xb, 0x220, 0x40, 4, true,
    [⟨0, 64, .ro, 0x0⟩]⟩,
  ⟨.KWE_LEN, 0x3, 0x3, 0x128, 0x0, 1, false,
    [⟨0, 13, .rw, 0x0⟩]⟩,
  ⟨.LPE_MODEL, 0x9, 0x9, 0x30000, 0x4, 2304, false,
    [⟨0, 16, .rw, 0x0⟩, ⟨16, 16, .rw, 0x0⟩]⟩,
  ⟨.CH_KREG, 0x30, 0xaf, 0x200, 0x4, 16, false,
    [⟨0, 32, .ro, 0x0⟩]⟩,
  ⟨.CH_IMEM, 0x30, 0xaf, 0x10000, 0x4, 4096, false,
    [⟨0, 32, .rwl, 0x0⟩]⟩,
  ⟨.MGT_CLAIM, 0x2, 0x2, 0x2000, 0x8, 260, true,
    [⟨0, 32, .rw, 0x0⟩, ⟨32, 1, .wo, 0x0⟩, ⟨33, 1, .ro, 0x0⟩, ⟨34, 2, .ro, 0x0⟩, ⟨36, 28, .ro, 0x0⟩]⟩]

/-- Every register of the spec. -/
def RegTable.all : List RegDef :=
  RegTable.part1 ++ RegTable.part2 ++ RegTable.part3 ++ RegTable.part4 ++ RegTable.part5 ++ RegTable.part6 ++ RegTable.part7 ++ RegTable.part8 ++ RegTable.part9 ++ RegTable.part10 ++ RegTable.part11

end Sys2Proof

namespace Sys2Proof.R

/-- ISL_ID (spec/01). -/
def ISL_ID (n : Nat) : Nat := 0x0 + n * 0x100000
/-- ISL_CLKCTL (spec/01). -/
def ISL_CLKCTL (n : Nat) : Nat := 0x8 + n * 0x100000
/-- ISL_CLKSTAT (spec/01). -/
def ISL_CLKSTAT (n : Nat) : Nat := 0xc + n * 0x100000
/-- ZNE_GEOM (spec/02). -/
def ZNE_GEOM : Nat := 0x800100
/-- ZNE_ZCNT (spec/03). -/
def ZNE_ZCNT : Nat := 0x800210
/-- ZNE_TZQ (spec/03). -/
def ZNE_TZQ (i : Nat) : Nat := 0x801000 + i * 0x8
/-- ZNE_TZU (spec/03). -/
def ZNE_TZU (i : Nat) : Nat := 0x801004 + i * 0x8
/-- ZNE_DIRTYCFG (spec/03). -/
def ZNE_DIRTYCFG : Nat := 0x800200
/-- ZNE_DIRTY (spec/03). -/
def ZNE_DIRTY : Nat := 0x800204
/-- ZNE_DIRTYPK (spec/03). -/
def ZNE_DIRTYPK : Nat := 0x800208
/-- ZNE_STAGECFG (spec/03). -/
def ZNE_STAGECFG : Nat := 0x80020c
/-- ZNE_STAGESTAT (spec/03). -/
def ZNE_STAGESTAT : Nat := 0x800214
/-- ZNE_SCHEDCFG (spec/04). -/
def ZNE_SCHEDCFG : Nat := 0x800318
/-- ZNE_PODCFG (spec/04). -/
def ZNE_PODCFG : Nat := 0x800300
/-- ZNE_SUSPLIM (spec/04). -/
def ZNE_SUSPLIM : Nat := 0x800308
/-- ZNE_TPRED0 (spec/04). -/
def ZNE_TPRED0 : Nat := 0x800310
/-- ZNE_TPRED1 (spec/04). -/
def ZNE_TPRED1 : Nat := 0x800314
/-- ZNE_TPRED2 (spec/04). -/
def ZNE_TPRED2 : Nat := 0x80031c
/-- ZNE_WDCFG (spec/04). -/
def ZNE_WDCFG : Nat := 0x80030c
/-- ZNE_RACFG (spec/04). -/
def ZNE_RACFG : Nat := 0x800304
/-- LPE_BINEDGE (spec/04). -/
def LPE_BINEDGE (i : Nat) : Nat := 0x900e00 + i * 0x4
/-- LPE_HIST (spec/04). -/
def LPE_HIST (i : Nat) : Nat := 0x910000 + i * 0x8
/-- ZNE_HEALTHCFG (spec/05). -/
def ZNE_HEALTHCFG : Nat := 0x800400
/-- ZNE_DHS (spec/05). -/
def ZNE_DHS (i : Nat) : Nat := 0x802000 + i * 0x4
/-- ZNE_DIECMD (spec/05). -/
def ZNE_DIECMD : Nat := 0x800408
/-- ZNE_RBCFG (spec/05). -/
def ZNE_RBCFG : Nat := 0x800404
/-- LPE_CFG (spec/06). -/
def LPE_CFG : Nat := 0x900100
/-- LPE_STAT (spec/06). -/
def LPE_STAT : Nat := 0x900104
/-- LPE_EXTMEAS (spec/06). -/
def LPE_EXTMEAS (i : Nat) : Nat := 0x900204 + i * 0x4
/-- LPE_MODELV (spec/06). -/
def LPE_MODELV : Nat := 0x900118
/-- ZNE_CRCFG (spec/07). -/
def ZNE_CRCFG : Nat := 0x800218
/-- ZNE_CRSTAT (spec/07). -/
def ZNE_CRSTAT : Nat := 0x80021c
/-- ZNE_HAZSTAT (spec/07). -/
def ZNE_HAZSTAT : Nat := 0x800220
/-- CH_SEQCTL (spec/08). -/
def CH_SEQCTL (n : Nat) : Nat := 0x3000100 + n * 0x100000
/-- CH_SEQSTAT (spec/08). -/
def CH_SEQSTAT (n : Nat) : Nat := 0x3000104 + n * 0x100000
/-- CH_TICK (spec/08). -/
def CH_TICK (n : Nat) : Nat := 0x3000108 + n * 0x100000
/-- CH_ROWFMT (spec/08). -/
def CH_ROWFMT (n : Nat) : Nat := 0x300010c + n * 0x100000
/-- CH_BUSCFG (spec/08). -/
def CH_BUSCFG (n : Nat) : Nat := 0x3000110 + n * 0x100000
/-- CH_POLLCFG (spec/08). -/
def CH_POLLCFG (n : Nat) : Nat := 0x3000114 + n * 0x100000
/-- CH_GUARDCFG (spec/08). -/
def CH_GUARDCFG (n : Nat) : Nat := 0x3000118 + n * 0x100000
/-- CH_GUARDCFG2 (spec/08). -/
def CH_GUARDCFG2 (n : Nat) : Nat := 0x300011c + n * 0x100000
/-- CH_GUARDCTL (spec/08). -/
def CH_GUARDCTL (n : Nat) : Nat := 0x3000120 + n * 0x100000
/-- CH_PODSTAT (spec/08). -/
def CH_PODSTAT (n : Nat) : Nat := 0x3000124 + n * 0x100000
/-- CH_ISA (spec/08). -/
def CH_ISA (n : Nat) : Nat := 0x3000128 + n * 0x100000
/-- CH_UCVER (spec/08). -/
def CH_UCVER (n : Nat) : Nat := 0x300012c + n * 0x100000
/-- CH_ENTRY (spec/08). -/
def CH_ENTRY (n i : Nat) : Nat := 0x3000140 + n * 0x100000 + i * 0x4
/-- CH_DDESC (spec/08). -/
def CH_DDESC (n i : Nat) : Nat := 0x3000180 + n * 0x100000 + i * 0x4
/-- CH_DCTL (spec/08). -/
def CH_DCTL (n : Nat) : Nat := 0x30001a0 + n * 0x100000
/-- CH_DSTAT (spec/08). -/
def CH_DSTAT (n : Nat) : Nat := 0x30001a4 + n * 0x100000
/-- LDC_LADDERDEV (spec/09). -/
def LDC_LADDERDEV (i : Nat) : Nat := 0x703000 + i * 0x8
/-- LDC_LADDER (spec/09). -/
def LDC_LADDER (i : Nat) : Nat := 0x701000 + i * 0x8
/-- ZNE_PELIM (spec/09). -/
def ZNE_PELIM : Nat := 0x800500
/-- ZNE_WEARCFG (spec/09). -/
def ZNE_WEARCFG : Nat := 0x800504
/-- ZNE_ERASECFG (spec/09). -/
def ZNE_ERASECFG : Nat := 0x800508
/-- ZNE_SCRUBCFG (spec/09). -/
def ZNE_SCRUBCFG : Nat := 0x80050c
/-- ZNE_MHSTAT (spec/09). -/
def ZNE_MHSTAT : Nat := 0x800510
/-- ZNE_UNCERT (spec/09). -/
def ZNE_UNCERT : Nat := 0x800514
/-- HIF_PORTSTAT (spec/10). -/
def HIF_PORTSTAT (n : Nat) : Nat := 0xc00100 + n * 0x100000
/-- HIF_LINKCFG (spec/10). -/
def HIF_LINKCFG (n : Nat) : Nat := 0xc00104 + n * 0x100000
/-- HIF_FNMAP (spec/10). -/
def HIF_FNMAP (n i : Nat) : Nat := 0xc01000 + n * 0x100000 + i * 0x4
/-- HIF_DIAGCTL (spec/10). -/
def HIF_DIAGCTL (n : Nat) : Nat := 0xc00120 + n * 0x100000
/-- HIF_IDESTAT (spec/10). -/
def HIF_IDESTAT (n : Nat) : Nat := 0xc00130 + n * 0x100000
/-- HIF_ARBCFG (spec/11). -/
def HIF_ARBCFG (n : Nat) : Nat := 0xc00200 + n * 0x100000
/-- HIF_TCRED (spec/11). -/
def HIF_TCRED (i : Nat) : Nat := 0xc02000 + i * 0x8
/-- HIF_TWBQ (spec/11). -/
def HIF_TWBQ (i : Nat) : Nat := 0xc02004 + i * 0x8
/-- HIF_TUSE (spec/11). -/
def HIF_TUSE (i : Nat) : Nat := 0xc03000 + i * 0x8
/-- HIF_TWBU (spec/11). -/
def HIF_TWBU (i : Nat) : Nat := 0xc03004 + i * 0x8
/-- SEC_KSATTR (spec/12). -/
def SEC_KSATTR (i : Nat) : Nat := 0x301000 + i * 0x4
/-- KWE_LOCK (spec/12). -/
def KWE_LOCK : Nat := 0x300100
/-- KWE_CMD (spec/12). -/
def KWE_CMD : Nat := 0x300108
/-- KWE_GENATTR (spec/12). -/
def KWE_GENATTR : Nat := 0x300118
/-- KWE_STAT (spec/12). -/
def KWE_STAT : Nat := 0x30011c
/-- XTS_NSK (spec/12). -/
def XTS_NSK (i : Nat) : Nat := 0x501000 + i * 0x8
/-- XTS_DUC (spec/12). -/
def XTS_DUC (i : Nat) : Nat := 0x510000 + i * 0x8
/-- XTS_CFG (spec/12). -/
def XTS_CFG : Nat := 0x500100
/-- ZNE_KGREF (spec/12). -/
def ZNE_KGREF (i : Nat) : Nat := 0x804000 + i * 0x8
/-- SEC_TRNGSTAT (spec/12). -/
def SEC_TRNGSTAT : Nat := 0x300140
/-- SEC_BOOTSTAT (spec/13). -/
def SEC_BOOTSTAT : Nat := 0x300200
/-- SEC_BOOTWD (spec/13). -/
def SEC_BOOTWD : Nat := 0x300208
/-- SEC_OTPCMD (spec/13). -/
def SEC_OTPCMD : Nat := 0x300210
/-- DMC_CFG (spec/14). -/
def DMC_CFG (n : Nat) : Nat := 0xa00100 + n * 0x100000
/-- DMC_ECCCFG (spec/14). -/
def DMC_ECCCFG (n : Nat) : Nat := 0xa00108 + n * 0x100000
/-- DMC_ECCSTAT (spec/14). -/
def DMC_ECCSTAT (n i : Nat) : Nat := 0xa00110 + n * 0x100000 + i * 0x4
/-- DMC_DMACTL (spec/14). -/
def DMC_DMACTL (n i : Nat) : Nat := 0xa00218 + n * 0x100000 + i * 0x40
/-- MRM_BANKSTAT (spec/14). -/
def MRM_BANKSTAT : Nat := 0x400100
/-- AON_PSTATE_REQ (spec/15). -/
def AON_PSTATE_REQ : Nat := 0x100
/-- AON_PSSTAT (spec/15). -/
def AON_PSSTAT : Nat := 0x104
/-- AON_VETO (spec/15). -/
def AON_VETO : Nat := 0x108
/-- AON_RETEN (spec/15). -/
def AON_RETEN : Nat := 0x10c
/-- AON_RETSTAT (spec/15). -/
def AON_RETSTAT : Nat := 0x110
/-- AON_RSTCAUSE (spec/15). -/
def AON_RSTCAUSE : Nat := 0x120
/-- AON_RSTCTL (spec/15). -/
def AON_RSTCTL : Nat := 0x124
/-- AON_AVSCFG (spec/15). -/
def AON_AVSCFG : Nat := 0x130
/-- AON_AVSSTAT (spec/15). -/
def AON_AVSSTAT : Nat := 0x134
/-- AON_HUCFG (spec/15). -/
def AON_HUCFG : Nat := 0x140
/-- AON_HULIM (spec/15). -/
def AON_HULIM : Nat := 0x144
/-- VUK_LINKCFG (spec/16). -/
def VUK_LINKCFG (n : Nat) : Nat := 0xe00100 + n * 0x100000
/-- VUK_LINKSTAT (spec/16). -/
def VUK_LINKSTAT (n : Nat) : Nat := 0xe00104 + n * 0x100000
/-- VUK_CASC (spec/16). -/
def VUK_CASC : Nat := 0xe00200
/-- VUK_CASCCFG (spec/16). -/
def VUK_CASCCFG : Nat := 0xe00204
/-- MGT_MBCFG (spec/16). -/
def MGT_MBCFG : Nat := 0x200100
/-- MGT_MBSTAT (spec/16). -/
def MGT_MBSTAT : Nat := 0x200104
/-- MGT_TEMP (spec/17). -/
def MGT_TEMP (i : Nat) : Nat := 0x200400 + i * 0x4
/-- MGT_VMON (spec/17). -/
def MGT_VMON (i : Nat) : Nat := 0x200480 + i * 0x4
/-- MGT_VLIM (spec/17). -/
def MGT_VLIM (i : Nat) : Nat := 0x2004c0 + i * 0x4
/-- MGT_ROSC (spec/17). -/
def MGT_ROSC (i : Nat) : Nat := 0x200800 + i * 0x4
/-- MGT_SAFECFG (spec/17). -/
def MGT_SAFECFG : Nat := 0x200300
/-- MGT_MBISTCTL (spec/17). -/
def MGT_MBISTCTL : Nat := 0x200600
/-- MGT_MBISTADDR (spec/17). -/
def MGT_MBISTADDR : Nat := 0x200604
/-- MGT_EVCFG (spec/17). -/
def MGT_EVCFG : Nat := 0x200140
/-- MGT_EVSTAT (spec/17). -/
def MGT_EVSTAT : Nat := 0x200144
/-- MGT_EVPOST (spec/17). -/
def MGT_EVPOST : Nat := 0x200200
/-- MGT_EVPOST1 (spec/17). -/
def MGT_EVPOST1 : Nat := 0x200204
/-- MGT_EVPOST2 (spec/17). -/
def MGT_EVPOST2 : Nat := 0x200208
/-- MGT_EVPOST3 (spec/17). -/
def MGT_EVPOST3 : Nat := 0x20020c
/-- CH_PHYCFG (spec/18). -/
def CH_PHYCFG (n : Nat) : Nat := 0x3000300 + n * 0x100000
/-- ZNE_PWRBUD (spec/15). -/
def ZNE_PWRBUD : Nat := 0x800600
/-- ZNE_PWRRES (spec/15). -/
def ZNE_PWRRES : Nat := 0x800604
/-- ZNE_TOKCOST0 (spec/15). -/
def ZNE_TOKCOST0 : Nat := 0x800608
/-- ZNE_TOKCOST1 (spec/15). -/
def ZNE_TOKCOST1 : Nat := 0x80060c
/-- ZNE_PWRSTAT (spec/15). -/
def ZNE_PWRSTAT : Nat := 0x800610
/-- ZNE_PWREFF (spec/15). -/
def ZNE_PWREFF : Nat := 0x800614
/-- ZNE_PCAP (spec/15). -/
def ZNE_PCAP : Nat := 0x800618
/-- ZNE_PWRPGM (spec/15). -/
def ZNE_PWRPGM : Nat := 0x80061c
/-- LPE_SCTL (spec/06). -/
def LPE_SCTL (i : Nat) : Nat := 0x920000 + i * 0x40
/-- LPE_SP (spec/06). -/
def LPE_SP (i : Nat) : Nat := 0x920004 + i * 0x40
/-- LPE_GAIN (spec/06). -/
def LPE_GAIN (i : Nat) : Nat := 0x920008 + i * 0x40
/-- LPE_FFG (spec/06). -/
def LPE_FFG (i : Nat) : Nat := 0x92000c + i * 0x40
/-- LPE_ULIM (spec/06). -/
def LPE_ULIM (i : Nat) : Nat := 0x920010 + i * 0x40
/-- LPE_SAFE (spec/06). -/
def LPE_SAFE (i : Nat) : Nat := 0x920014 + i * 0x40
/-- LPE_PLAUS (spec/06). -/
def LPE_PLAUS (i : Nat) : Nat := 0x920018 + i * 0x40
/-- LPE_ESC (spec/06). -/
def LPE_ESC (i : Nat) : Nat := 0x92001c + i * 0x40
/-- LPE_MODE (spec/06). -/
def LPE_MODE (i : Nat) : Nat := 0x920020 + i * 0x40
/-- LPE_HOLD (spec/06). -/
def LPE_HOLD (i : Nat) : Nat := 0x920024 + i * 0x40
/-- LPE_OUT (spec/06). -/
def LPE_OUT (i : Nat) : Nat := 0x920028 + i * 0x40
/-- LPE_MEAS (spec/06). -/
def LPE_MEAS (i : Nat) : Nat := 0x92002c + i * 0x40
/-- LPE_CNT (spec/06). -/
def LPE_CNT (i : Nat) : Nat := 0x920030 + i * 0x40
/-- LPE_ERR (spec/06). -/
def LPE_ERR (i : Nat) : Nat := 0x920034 + i * 0x40
/-- LPE_FAULTS (spec/06). -/
def LPE_FAULTS (i : Nat) : Nat := 0x920038 + i * 0x40
/-- ZNE_ZMBASE (spec/02). -/
def ZNE_ZMBASE : Nat := 0x800108
/-- ZNE_BTBASE (spec/02). -/
def ZNE_BTBASE : Nat := 0x800110
/-- ZNE_BSTBASE (spec/02). -/
def ZNE_BSTBASE : Nat := 0x800118
/-- ZNE_AZTBASE (spec/03). -/
def ZNE_AZTBASE : Nat := 0x800120
/-- ZNE_SRDBASE (spec/03). -/
def ZNE_SRDBASE : Nat := 0x800128
/-- ZNE_CPMBASE (spec/07). -/
def ZNE_CPMBASE : Nat := 0x800130
/-- ZNE_CSTBASE (spec/07). -/
def ZNE_CSTBASE : Nat := 0x800138
/-- ZNE_CNTBASE (spec/07). -/
def ZNE_CNTBASE : Nat := 0x800140
/-- ZNE_RCTBASE (spec/09). -/
def ZNE_RCTBASE : Nat := 0x800148
/-- ZNE_PROFBASE (spec/09). -/
def ZNE_PROFBASE : Nat := 0x800150
/-- ZNE_TGOV (spec/04). -/
def ZNE_TGOV (i : Nat) : Nat := 0x801800 + i * 0x4
/-- ZNE_SGOV (spec/04). -/
def ZNE_SGOV (i : Nat) : Nat := 0x801a00 + i * 0x4
/-- ZNE_RASTAT_SUSP (spec/04). -/
def ZNE_RASTAT_SUSP : Nat := 0x800340
/-- ZNE_RASTAT_RA (spec/04). -/
def ZNE_RASTAT_RA : Nat := 0x800348
/-- ZNE_RASTAT_RAFB (spec/04). -/
def ZNE_RASTAT_RAFB : Nat := 0x800350
/-- ZNE_RASTAT_LOSTRACE (spec/04). -/
def ZNE_RASTAT_LOSTRACE : Nat := 0x800358
/-- ZNE_RASTAT_WDEXP (spec/04). -/
def ZNE_RASTAT_WDEXP : Nat := 0x800360
/-- ZNE_RASTAT_LATEDISC (spec/04). -/
def ZNE_RASTAT_LATEDISC : Nat := 0x800368
/-- ZNE_RASTAT_LATEUSED (spec/04). -/
def ZNE_RASTAT_LATEUSED : Nat := 0x800370
/-- ZNE_RASTAT_WBHIT (spec/04). -/
def ZNE_RASTAT_WBHIT : Nat := 0x800378
/-- PQE_RECON (spec/05). -/
def PQE_RECON : Nat := 0x600100
/-- PQE_RBSLICES (spec/05). -/
def PQE_RBSLICES : Nat := 0x600108
/-- PQE_ROWLOST (spec/05). -/
def PQE_ROWLOST : Nat := 0x600110
/-- PQE_SUBST (spec/05). -/
def PQE_SUBST : Nat := 0x600118
/-- LPE_SAMPLES (spec/06). -/
def LPE_SAMPLES : Nat := 0x900108
/-- LPE_MERGED (spec/06). -/
def LPE_MERGED : Nat := 0x900110
/-- ZNE_CONV_HOSTCW (spec/07). -/
def ZNE_CONV_HOSTCW : Nat := 0x800380
/-- ZNE_CONV_RELCW (spec/07). -/
def ZNE_CONV_RELCW : Nat := 0x800388
/-- ZNE_CONV_PADCW (spec/07). -/
def ZNE_CONV_PADCW : Nat := 0x800390
/-- CH_OPS (spec/08). -/
def CH_OPS (n : Nat) : Nat := 0x30001c0 + n * 0x100000
/-- CH_GUARDREF (spec/08). -/
def CH_GUARDREF (n : Nat) : Nat := 0x30001c8 + n * 0x100000
/-- CH_FAULTS (spec/08). -/
def CH_FAULTS (n : Nat) : Nat := 0x30001d0 + n * 0x100000
/-- CH_IMEMCE (spec/08). -/
def CH_IMEMCE (n : Nat) : Nat := 0x30001d8 + n * 0x100000
/-- ZNE_MH_ERASES (spec/09). -/
def ZNE_MH_ERASES : Nat := 0x800520
/-- ZNE_MH_CHKFAIL (spec/09). -/
def ZNE_MH_CHKFAIL : Nat := 0x800528
/-- ZNE_MH_GROWN (spec/09). -/
def ZNE_MH_GROWN : Nat := 0x800530
/-- ZNE_MH_LIMIT (spec/09). -/
def ZNE_MH_LIMIT : Nat := 0x800538
/-- ZNE_MH_SCRUBBED (spec/09). -/
def ZNE_MH_SCRUBBED : Nat := 0x800540
/-- ZNE_MH_REFRESH (spec/09). -/
def ZNE_MH_REFRESH : Nat := 0x800548
/-- ZNE_MH_WLRELOC (spec/09). -/
def ZNE_MH_WLRELOC : Nat := 0x800550
/-- HIF_LINKDOWN (spec/10). -/
def HIF_LINKDOWN (n : Nat) : Nat := 0xc00140 + n * 0x100000
/-- HIF_RETRAIN (spec/10). -/
def HIF_RETRAIN (n : Nat) : Nat := 0xc00148 + n * 0x100000
/-- HIF_IDEDROP (spec/10). -/
def HIF_IDEDROP (n : Nat) : Nat := 0xc00150 + n * 0x100000
/-- DMC_CECNT (spec/14). -/
def DMC_CECNT (n i : Nat) : Nat := 0xa00120 + n * 0x100000 + i * 0x8
/-- DMC_UECNT (spec/14). -/
def DMC_UECNT (n i : Nat) : Nat := 0xa00130 + n * 0x100000 + i * 0x8
/-- MRM_REMAP (spec/14). -/
def MRM_REMAP : Nat := 0x400110
/-- MRM_CE (spec/14). -/
def MRM_CE : Nat := 0x400118
/-- MRM_UE (spec/14). -/
def MRM_UE : Nat := 0x400120
/-- AON_PS_ATTEMPT (spec/15). -/
def AON_PS_ATTEMPT : Nat := 0x180
/-- AON_PS_DONE (spec/15). -/
def AON_PS_DONE : Nat := 0x188
/-- AON_PS_REFUSED (spec/15). -/
def AON_PS_REFUSED : Nat := 0x190
/-- AON_PS_ABORTED (spec/15). -/
def AON_PS_ABORTED : Nat := 0x198
/-- AON_PS_COLLAPSED (spec/15). -/
def AON_PS_COLLAPSED : Nat := 0x1a0
/-- AON_RES (spec/15). -/
def AON_RES (i : Nat) : Nat := 0x1c0 + i * 0x8
/-- AON_REFCNT (spec/15). -/
def AON_REFCNT (i : Nat) : Nat := 0x400 + i * 0x4
/-- VUK_FECCOR (spec/16). -/
def VUK_FECCOR (n : Nat) : Nat := 0xe00140 + n * 0x100000
/-- VUK_FECUNC (spec/16). -/
def VUK_FECUNC (n : Nat) : Nat := 0xe00148 + n * 0x100000
/-- VUK_REROUTE (spec/16). -/
def VUK_REROUTE : Nat := 0xe00150
/-- MGT_EVNEXT (spec/17). -/
def MGT_EVNEXT : Nat := 0x200148
/-- MGT_EVOLDEST (spec/17). -/
def MGT_EVOLDEST : Nat := 0x200150
/-- MGT_EVDROP (spec/17). -/
def MGT_EVDROP : Nat := 0x200160
/-- MGT_EVSUPP (spec/17). -/
def MGT_EVSUPP : Nat := 0x200168
/-- MGT_EVFWCUR (spec/17). -/
def MGT_EVFWCUR : Nat := 0x200158
/-- KWE_ADDR (spec/12). -/
def KWE_ADDR : Nat := 0x300110
/-- AON_WAKEAT (spec/15). -/
def AON_WAKEAT : Nat := 0x118
/-- AON_AGEAT (spec/15). -/
def AON_AGEAT : Nat := 0x128
/-- DMC_DMASRC (spec/14). -/
def DMC_DMASRC (n i : Nat) : Nat := 0xa00200 + n * 0x100000 + i * 0x40
/-- DMC_DMADST (spec/14). -/
def DMC_DMADST (n i : Nat) : Nat := 0xa00208 + n * 0x100000 + i * 0x40
/-- DMC_DMALEN (spec/14). -/
def DMC_DMALEN (n i : Nat) : Nat := 0xa00210 + n * 0x100000 + i * 0x40
/-- DMC_DMAFADDR (spec/14). -/
def DMC_DMAFADDR (n i : Nat) : Nat := 0xa00220 + n * 0x100000 + i * 0x40
/-- KWE_LEN (spec/12). -/
def KWE_LEN : Nat := 0x300128
/-- LPE_MODEL (spec/06). -/
def LPE_MODEL (i : Nat) : Nat := 0x930000 + i * 0x4
/-- CH_KREG (spec/08). -/
def CH_KREG (n i : Nat) : Nat := 0x3000200 + n * 0x100000 + i * 0x4
/-- CH_IMEM (spec/08). -/
def CH_IMEM (n i : Nat) : Nat := 0x3010000 + n * 0x100000 + i * 0x4
/-- MGT_CLAIM (spec/17). -/
def MGT_CLAIM (i : Nat) : Nat := 0x202000 + i * 0x8

end Sys2Proof.R

namespace Sys2Proof.F

def ISL_ID_INDEX (n : Nat) : Fld := ⟨(R.ISL_ID n), 0, 8⟩
def ISL_ID_KIND (n : Nat) : Fld := ⟨(R.ISL_ID n), 8, 8⟩
def ISL_ID_INST (n : Nat) : Fld := ⟨(R.ISL_ID n), 16, 8⟩
def ISL_ID_STEP (n : Nat) : Fld := ⟨(R.ISL_ID n), 24, 8⟩
def ISL_CLKCTL_PLLEN (n : Nat) : Fld := ⟨(R.ISL_CLKCTL n), 0, 1⟩
def ISL_CLKCTL_SRC (n : Nat) : Fld := ⟨(R.ISL_CLKCTL n), 1, 1⟩
def ISL_CLKCTL_MULT (n : Nat) : Fld := ⟨(R.ISL_CLKCTL n), 8, 7⟩
def ISL_CLKSTAT_LOCK (n : Nat) : Fld := ⟨(R.ISL_CLKSTAT n), 0, 1⟩
def ISL_CLKSTAT_SRCACT (n : Nat) : Fld := ⟨(R.ISL_CLKSTAT n), 1, 1⟩
def ISL_CLKSTAT_LOSSLOCK (n : Nat) : Fld := ⟨(R.ISL_CLKSTAT n), 2, 1⟩
def ZNE_GEOM_CHANNELS : Fld := ⟨R.ZNE_GEOM, 0, 8⟩
def ZNE_GEOM_DPC : Fld := ⟨R.ZNE_GEOM, 8, 5⟩
def ZNE_GEOM_PLANES : Fld := ⟨R.ZNE_GEOM, 13, 2⟩
def ZNE_GEOM_SLICE : Fld := ⟨R.ZNE_GEOM, 16, 2⟩
def ZNE_GEOM_BLOCK : Fld := ⟨R.ZNE_GEOM, 18, 2⟩
def ZNE_GEOM_LOCK : Fld := ⟨R.ZNE_GEOM, 31, 1⟩
def ZNE_ZCNT_ACTIVE : Fld := ⟨R.ZNE_ZCNT, 0, 14⟩
def ZNE_ZCNT_OPEN : Fld := ⟨R.ZNE_ZCNT, 16, 14⟩
def ZNE_TZQ_AQ (i : Nat) : Fld := ⟨(R.ZNE_TZQ i), 0, 14⟩
def ZNE_TZQ_OQ (i : Nat) : Fld := ⟨(R.ZNE_TZQ i), 16, 14⟩
def ZNE_TZU_ACT (i : Nat) : Fld := ⟨(R.ZNE_TZU i), 0, 14⟩
def ZNE_TZU_OPN (i : Nat) : Fld := ⟨(R.ZNE_TZU i), 16, 14⟩
def ZNE_DIRTYCFG_BUDGET : Fld := ⟨R.ZNE_DIRTYCFG, 0, 12⟩
def ZNE_DIRTYCFG_EFF : Fld := ⟨R.ZNE_DIRTYCFG, 12, 12⟩
def ZNE_DIRTYCFG_THRU : Fld := ⟨R.ZNE_DIRTYCFG, 24, 1⟩
def ZNE_DIRTY_CUR : Fld := ⟨R.ZNE_DIRTY, 0, 20⟩
def ZNE_DIRTYPK_PEAK : Fld := ⟨R.ZNE_DIRTYPK, 0, 20⟩
def ZNE_STAGECFG_AGE : Fld := ⟨R.ZNE_STAGECFG, 0, 16⟩
def ZNE_STAGECFG_HIWAT : Fld := ⟨R.ZNE_STAGECFG, 16, 4⟩
def ZNE_STAGECFG_FILLUS : Fld := ⟨R.ZNE_STAGECFG, 20, 8⟩
def ZNE_STAGESTAT_FREE : Fld := ⟨R.ZNE_STAGESTAT, 0, 21⟩
def ZNE_STAGESTAT_FULL : Fld := ⟨R.ZNE_STAGESTAT, 24, 1⟩
def ZNE_SCHEDCFG_READHOLD : Fld := ⟨R.ZNE_SCHEDCFG, 0, 12⟩
def ZNE_SCHEDCFG_URGBURST : Fld := ⟨R.ZNE_SCHEDCFG, 12, 8⟩
def ZNE_SCHEDCFG_PGMCOST : Fld := ⟨R.ZNE_SCHEDCFG, 20, 8⟩
def ZNE_PODCFG_SUSPEN : Fld := ⟨R.ZNE_PODCFG, 0, 1⟩
def ZNE_PODCFG_RDPERSUSP : Fld := ⟨R.ZNE_PODCFG, 8, 8⟩
def ZNE_PODCFG_SUSPHOLD : Fld := ⟨R.ZNE_PODCFG, 16, 12⟩
def ZNE_SUSPLIM_ERSMAX : Fld := ⟨R.ZNE_SUSPLIM, 0, 8⟩
def ZNE_SUSPLIM_PGMMAX : Fld := ⟨R.ZNE_SUSPLIM, 8, 8⟩
def ZNE_SUSPLIM_ERSRUN : Fld := ⟨R.ZNE_SUSPLIM, 16, 8⟩
def ZNE_SUSPLIM_PGMRUN : Fld := ⟨R.ZNE_SUSPLIM, 24, 8⟩
def ZNE_TPRED0_TR : Fld := ⟨R.ZNE_TPRED0, 0, 8⟩
def ZNE_TPRED0_TRSLC : Fld := ⟨R.ZNE_TPRED0, 8, 8⟩
def ZNE_TPRED0_TSUSPP : Fld := ⟨R.ZNE_TPRED0, 16, 8⟩
def ZNE_TPRED0_TSUSPE : Fld := ⟨R.ZNE_TPRED0, 24, 8⟩
def ZNE_TPRED1_TPROG : Fld := ⟨R.ZNE_TPRED1, 0, 16⟩
def ZNE_TPRED1_TBERS : Fld := ⟨R.ZNE_TPRED1, 16, 16⟩
def ZNE_TPRED2_TPROGSLC : Fld := ⟨R.ZNE_TPRED2, 0, 16⟩
def ZNE_TPRED2_TBERSSLC : Fld := ⟨R.ZNE_TPRED2, 16, 16⟩
def ZNE_WDCFG_MARGIN : Fld := ⟨R.ZNE_WDCFG, 0, 12⟩
def ZNE_RACFG_RAEN : Fld := ⟨R.ZNE_RACFG, 0, 1⟩
def ZNE_RACFG_RA2 : Fld := ⟨R.ZNE_RACFG, 1, 1⟩
def ZNE_RACFG_MAXINFL : Fld := ⟨R.ZNE_RACFG, 8, 8⟩
def ZNE_RACFG_THRESH : Fld := ⟨R.ZNE_RACFG, 16, 12⟩
def LPE_BINEDGE_EDGE (i : Nat) : Fld := ⟨(R.LPE_BINEDGE i), 0, 32⟩
def LPE_HIST_COUNT (i : Nat) : Fld := ⟨(R.LPE_HIST i), 0, 64⟩
def ZNE_HEALTHCFG_EXPN : Fld := ⟨R.ZNE_HEALTHCFG, 0, 4⟩
def ZNE_HEALTHCFG_EXPWIN : Fld := ⟨R.ZNE_HEALTHCFG, 4, 6⟩
def ZNE_HEALTHCFG_SUSPECTN : Fld := ⟨R.ZNE_HEALTHCFG, 10, 2⟩
def ZNE_HEALTHCFG_SUSPECTWIN : Fld := ⟨R.ZNE_HEALTHCFG, 12, 8⟩
def ZNE_HEALTHCFG_SUSPECTDUR : Fld := ⟨R.ZNE_HEALTHCFG, 20, 8⟩
def ZNE_DHS_STATE (i : Nat) : Fld := ⟨(R.ZNE_DHS i), 0, 2⟩
def ZNE_DHS_EXPCNT (i : Nat) : Fld := ⟨(R.ZNE_DHS i), 2, 4⟩
def ZNE_DHS_SUSPCNT (i : Nat) : Fld := ⟨(R.ZNE_DHS i), 6, 2⟩
def ZNE_DHS_REBUILD (i : Nat) : Fld := ⟨(R.ZNE_DHS i), 8, 1⟩
def ZNE_DHS_DEFER (i : Nat) : Fld := ⟨(R.ZNE_DHS i), 9, 1⟩
def ZNE_DIECMD_DIE : Fld := ⟨R.ZNE_DIECMD, 0, 11⟩
def ZNE_DIECMD_ACT : Fld := ⟨R.ZNE_DIECMD, 11, 2⟩
def ZNE_RBCFG_JOBS : Fld := ⟨R.ZNE_RBCFG, 0, 4⟩
def ZNE_RBCFG_SHARE : Fld := ⟨R.ZNE_RBCFG, 4, 8⟩
def ZNE_RBCFG_PAUSE : Fld := ⟨R.ZNE_RBCFG, 12, 1⟩
def LPE_CFG_PERIOD : Fld := ⟨R.LPE_CFG, 0, 10⟩
def LPE_CFG_STALE : Fld := ⟨R.LPE_CFG, 16, 4⟩
def LPE_CFG_RUN : Fld := ⟨R.LPE_CFG, 31, 1⟩
def LPE_STAT_CLOSED : Fld := ⟨R.LPE_STAT, 0, 8⟩
def LPE_STAT_CTIME : Fld := ⟨R.LPE_STAT, 8, 12⟩
def LPE_EXTMEAS_Y (i : Nat) : Fld := ⟨(R.LPE_EXTMEAS i), 0, 16⟩
def LPE_MODELV_LOADED : Fld := ⟨R.LPE_MODELV, 0, 18⟩
def ZNE_CRCFG_LOWSEG : Fld := ⟨R.ZNE_CRCFG, 0, 11⟩
def ZNE_CRCFG_HIGHSEG : Fld := ⟨R.ZNE_CRCFG, 11, 11⟩
def ZNE_CRCFG_MAPDIRTY : Fld := ⟨R.ZNE_CRCFG, 22, 8⟩
def ZNE_CRSTAT_FREESEG : Fld := ⟨R.ZNE_CRSTAT, 0, 16⟩
def ZNE_CRSTAT_RECL : Fld := ⟨R.ZNE_CRSTAT, 16, 1⟩
def ZNE_CRSTAT_STALL : Fld := ⟨R.ZNE_CRSTAT, 17, 1⟩
def ZNE_HAZSTAT_INUSE : Fld := ⟨R.ZNE_HAZSTAT, 0, 15⟩
def ZNE_HAZSTAT_PEAK : Fld := ⟨R.ZNE_HAZSTAT, 16, 15⟩
def CH_SEQCTL_RUN (n : Nat) : Fld := ⟨(R.CH_SEQCTL n), 0, 1⟩
def CH_SEQCTL_STOP (n : Nat) : Fld := ⟨(R.CH_SEQCTL n), 1, 1⟩
def CH_SEQSTAT_PC (n : Nat) : Fld := ⟨(R.CH_SEQSTAT n), 0, 12⟩
def CH_SEQSTAT_STATE (n : Nat) : Fld := ⟨(R.CH_SEQSTAT n), 12, 2⟩
def CH_SEQSTAT_FCODE (n : Nat) : Fld := ⟨(R.CH_SEQSTAT n), 16, 4⟩
def CH_SEQSTAT_FPC (n : Nat) : Fld := ⟨(R.CH_SEQSTAT n), 20, 12⟩
def CH_TICK_TICK (n : Nat) : Fld := ⟨(R.CH_TICK n), 0, 12⟩
def CH_ROWFMT_WLLSB (n : Nat) : Fld := ⟨(R.CH_ROWFMT n), 0, 5⟩
def CH_ROWFMT_WLW (n : Nat) : Fld := ⟨(R.CH_ROWFMT n), 5, 4⟩
def CH_ROWFMT_BLKLSB (n : Nat) : Fld := ⟨(R.CH_ROWFMT n), 9, 5⟩
def CH_ROWFMT_BLKW (n : Nat) : Fld := ⟨(R.CH_ROWFMT n), 14, 4⟩
def CH_ROWFMT_LUNLSB (n : Nat) : Fld := ⟨(R.CH_ROWFMT n), 18, 5⟩
def CH_ROWFMT_LUNW (n : Nat) : Fld := ⟨(R.CH_ROWFMT n), 23, 3⟩
def CH_ROWFMT_ROWCYC (n : Nat) : Fld := ⟨(R.CH_ROWFMT n), 26, 2⟩
def CH_BUSCFG_CACYC (n : Nat) : Fld := ⟨(R.CH_BUSCFG n), 0, 8⟩
def CH_BUSCFG_PRE (n : Nat) : Fld := ⟨(R.CH_BUSCFG n), 8, 8⟩
def CH_BUSCFG_PST (n : Nat) : Fld := ⟨(R.CH_BUSCFG n), 16, 8⟩
def CH_BUSCFG_TWHR (n : Nat) : Fld := ⟨(R.CH_BUSCFG n), 24, 8⟩
def CH_POLLCFG_STSCMD (n : Nat) : Fld := ⟨(R.CH_POLLCFG n), 0, 8⟩
def CH_POLLCFG_ROWADR (n : Nat) : Fld := ⟨(R.CH_POLLCFG n), 8, 1⟩
def CH_POLLCFG_IVL (n : Nat) : Fld := ⟨(R.CH_POLLCFG n), 16, 12⟩
def CH_GUARDCFG_PSET0 (n : Nat) : Fld := ⟨(R.CH_GUARDCFG n), 0, 8⟩
def CH_GUARDCFG_PSET1 (n : Nat) : Fld := ⟨(R.CH_GUARDCFG n), 8, 8⟩
def CH_GUARDCFG_ESET (n : Nat) : Fld := ⟨(R.CH_GUARDCFG n), 16, 8⟩
def CH_GUARDCFG_ECONF (n : Nat) : Fld := ⟨(R.CH_GUARDCFG n), 24, 8⟩
def CH_GUARDCFG2_PCONF0 (n : Nat) : Fld := ⟨(R.CH_GUARDCFG2 n), 0, 8⟩
def CH_GUARDCFG2_PCONF1 (n : Nat) : Fld := ⟨(R.CH_GUARDCFG2 n), 8, 8⟩
def CH_GUARDCFG2_PCONF2 (n : Nat) : Fld := ⟨(R.CH_GUARDCFG2 n), 16, 8⟩
def CH_GUARDCFG2_PCONF3 (n : Nat) : Fld := ⟨(R.CH_GUARDCFG2 n), 24, 8⟩
def CH_GUARDCTL_DIS (n : Nat) : Fld := ⟨(R.CH_GUARDCTL n), 0, 1⟩
def CH_GUARDCTL_LOCK (n : Nat) : Fld := ⟨(R.CH_GUARDCTL n), 1, 1⟩
def CH_PODSTAT_ACT (n : Nat) : Fld := ⟨(R.CH_PODSTAT n), 0, 16⟩
def CH_PODSTAT_SUS (n : Nat) : Fld := ⟨(R.CH_PODSTAT n), 16, 16⟩
def CH_ISA_VER (n : Nat) : Fld := ⟨(R.CH_ISA n), 0, 16⟩
def CH_UCVER_PVER (n : Nat) : Fld := ⟨(R.CH_UCVER n), 0, 32⟩
def CH_ENTRY_ADDR (n i : Nat) : Fld := ⟨(R.CH_ENTRY n i), 0, 12⟩
def CH_ENTRY_VALID (n i : Nat) : Fld := ⟨(R.CH_ENTRY n i), 16, 1⟩
def CH_DDESC_WORD (n i : Nat) : Fld := ⟨(R.CH_DDESC n i), 0, 32⟩
def CH_DCTL_GO (n : Nat) : Fld := ⟨(R.CH_DCTL n), 0, 1⟩
def CH_DCTL_BUSY (n : Nat) : Fld := ⟨(R.CH_DCTL n), 1, 1⟩
def CH_DCTL_DONE (n : Nat) : Fld := ⟨(R.CH_DCTL n), 2, 1⟩
def CH_DSTAT_STATUS (n : Nat) : Fld := ⟨(R.CH_DSTAT n), 0, 16⟩
def CH_DSTAT_OPID (n : Nat) : Fld := ⟨(R.CH_DSTAT n), 16, 16⟩
def LDC_LADDERDEV_COUNT (i : Nat) : Fld := ⟨(R.LDC_LADDERDEV i), 0, 64⟩
def LDC_LADDER_COUNT (i : Nat) : Fld := ⟨(R.LDC_LADDER i), 0, 64⟩
def ZNE_PELIM_QLC : Fld := ⟨R.ZNE_PELIM, 0, 16⟩
def ZNE_PELIM_SLC : Fld := ⟨R.ZNE_PELIM, 16, 16⟩
def ZNE_WEARCFG_WIN : Fld := ⟨R.ZNE_WEARCFG, 0, 4⟩
def ZNE_WEARCFG_WLDELTA : Fld := ⟨R.ZNE_WEARCFG, 4, 12⟩
def ZNE_WEARCFG_WLMAX : Fld := ⟨R.ZNE_WEARCFG, 16, 4⟩
def ZNE_WEARCFG_PREERASE : Fld := ⟨R.ZNE_WEARCFG, 20, 6⟩
def ZNE_ERASECFG_ZEROMAX : Fld := ⟨R.ZNE_ERASECFG, 0, 12⟩
def ZNE_ERASECFG_CLEANAGE : Fld := ⟨R.ZNE_ERASECFG, 12, 16⟩
def ZNE_SCRUBCFG_SCRUBHRS : Fld := ⟨R.ZNE_SCRUBCFG, 0, 10⟩
def ZNE_SCRUBCFG_SCRUBWL : Fld := ⟨R.ZNE_SCRUBCFG, 10, 4⟩
def ZNE_SCRUBCFG_REFRESHBER : Fld := ⟨R.ZNE_SCRUBCFG, 14, 12⟩
def ZNE_SCRUBCFG_SCRUBEN : Fld := ⟨R.ZNE_SCRUBCFG, 26, 1⟩
def ZNE_MHSTAT_LEDGER : Fld := ⟨R.ZNE_MHSTAT, 0, 13⟩
def ZNE_MHSTAT_LEDGERLOST : Fld := ⟨R.ZNE_MHSTAT, 13, 1⟩
def ZNE_MHSTAT_REFQ : Fld := ⟨R.ZNE_MHSTAT, 16, 13⟩
def ZNE_UNCERT_COUNT : Fld := ⟨R.ZNE_UNCERT, 0, 25⟩
def HIF_PORTSTAT_CFG (n : Nat) : Fld := ⟨(R.HIF_PORTSTAT n), 0, 2⟩
def HIF_PORTSTAT_INUSE (n : Nat) : Fld := ⟨(R.HIF_PORTSTAT n), 2, 1⟩
def HIF_PORTSTAT_LINKUP (n : Nat) : Fld := ⟨(R.HIF_PORTSTAT n), 3, 1⟩
def HIF_PORTSTAT_FLIT (n : Nat) : Fld := ⟨(R.HIF_PORTSTAT n), 4, 1⟩
def HIF_PORTSTAT_RATE (n : Nat) : Fld := ⟨(R.HIF_PORTSTAT n), 5, 3⟩
def HIF_PORTSTAT_WIDTH (n : Nat) : Fld := ⟨(R.HIF_PORTSTAT n), 8, 5⟩
def HIF_PORTSTAT_LPS (n : Nat) : Fld := ⟨(R.HIF_PORTSTAT n), 13, 3⟩
def HIF_LINKCFG_MAXRATE (n : Nat) : Fld := ⟨(R.HIF_LINKCFG n), 0, 3⟩
def HIF_LINKCFG_L0PMIN (n : Nat) : Fld := ⟨(R.HIF_LINKCFG n), 4, 3⟩
def HIF_LINKCFG_L0PEN (n : Nat) : Fld := ⟨(R.HIF_LINKCFG n), 7, 1⟩
def HIF_LINKCFG_CLKMODE (n : Nat) : Fld := ⟨(R.HIF_LINKCFG n), 8, 2⟩
def HIF_LINKCFG_LTEN (n : Nat) : Fld := ⟨(R.HIF_LINKCFG n), 16, 1⟩
def HIF_FNMAP_TEN (n i : Nat) : Fld := ⟨(R.HIF_FNMAP n i), 0, 7⟩
def HIF_FNMAP_QMAX (n i : Nat) : Fld := ⟨(R.HIF_FNMAP n i), 8, 7⟩
def HIF_FNMAP_QALLOC (n i : Nat) : Fld := ⟨(R.HIF_FNMAP n i), 16, 7⟩
def HIF_DIAGCTL_ALLOW (n : Nat) : Fld := ⟨(R.HIF_DIAGCTL n), 0, 1⟩
def HIF_DIAGCTL_LOCK (n : Nat) : Fld := ⟨(R.HIF_DIAGCTL n), 1, 1⟩
def HIF_DIAGCTL_OPEN (n : Nat) : Fld := ⟨(R.HIF_DIAGCTL n), 2, 1⟩
def HIF_DIAGCTL_ISEL (n : Nat) : Fld := ⟨(R.HIF_DIAGCTL n), 8, 8⟩
def HIF_IDESTAT_SECURE (n : Nat) : Fld := ⟨(R.HIF_IDESTAT n), 0, 8⟩
def HIF_IDESTAT_FAIL (n : Nat) : Fld := ⟨(R.HIF_IDESTAT n), 8, 8⟩
def HIF_ARBCFG_FNBURST (n : Nat) : Fld := ⟨(R.HIF_ARBCFG n), 0, 8⟩
def HIF_ARBCFG_WBSTARVE (n : Nat) : Fld := ⟨(R.HIF_ARBCFG n), 8, 12⟩
def HIF_TCRED_TSQ (i : Nat) : Fld := ⟨(R.HIF_TCRED i), 0, 16⟩
def HIF_TCRED_URGEN (i : Nat) : Fld := ⟨(R.HIF_TCRED i), 16, 1⟩
def HIF_TWBQ_WBQ (i : Nat) : Fld := ⟨(R.HIF_TWBQ i), 0, 20⟩
def HIF_TUSE_TSU (i : Nat) : Fld := ⟨(R.HIF_TUSE i), 0, 16⟩
def HIF_TWBU_WBU (i : Nat) : Fld := ⟨(R.HIF_TWBU i), 0, 20⟩
def SEC_KSATTR_STATE (i : Nat) : Fld := ⟨(R.SEC_KSATTR i), 0, 2⟩
def SEC_KSATTR_KIND (i : Nat) : Fld := ⟨(R.SEC_KSATTR i), 2, 2⟩
def SEC_KSATTR_TEN (i : Nat) : Fld := ⟨(R.SEC_KSATTR i), 4, 7⟩
def SEC_KSATTR_NSIDX (i : Nat) : Fld := ⟨(R.SEC_KSATTR i), 11, 10⟩
def SEC_KSATTR_GEN (i : Nat) : Fld := ⟨(R.SEC_KSATTR i), 21, 8⟩
def KWE_LOCK_OWNER : Fld := ⟨R.KWE_LOCK, 0, 5⟩
def KWE_LOCK_HELD : Fld := ⟨R.KWE_LOCK, 5, 1⟩
def KWE_CMD_OP : Fld := ⟨R.KWE_CMD, 0, 4⟩
def KWE_CMD_SLOT : Fld := ⟨R.KWE_CMD, 4, 12⟩
def KWE_CMD_KEK : Fld := ⟨R.KWE_CMD, 16, 12⟩
def KWE_CMD_GO : Fld := ⟨R.KWE_CMD, 31, 1⟩
def KWE_GENATTR_KIND : Fld := ⟨R.KWE_GENATTR, 0, 2⟩
def KWE_GENATTR_TEN : Fld := ⟨R.KWE_GENATTR, 2, 7⟩
def KWE_GENATTR_NSIDX : Fld := ⟨R.KWE_GENATTR, 9, 10⟩
def KWE_GENATTR_GEN : Fld := ⟨R.KWE_GENATTR, 19, 8⟩
def KWE_STAT_BUSY : Fld := ⟨R.KWE_STAT, 0, 1⟩
def KWE_STAT_DONE : Fld := ⟨R.KWE_STAT, 1, 1⟩
def KWE_STAT_RES : Fld := ⟨R.KWE_STAT, 2, 4⟩
def XTS_NSK_CURSLOT (i : Nat) : Fld := ⟨(R.XTS_NSK i), 0, 12⟩
def XTS_NSK_CURGEN (i : Nat) : Fld := ⟨(R.XTS_NSK i), 12, 8⟩
def XTS_NSK_CURV (i : Nat) : Fld := ⟨(R.XTS_NSK i), 20, 1⟩
def XTS_NSK_TEN (i : Nat) : Fld := ⟨(R.XTS_NSK i), 21, 7⟩
def XTS_NSK_OLDSLOT (i : Nat) : Fld := ⟨(R.XTS_NSK i), 32, 12⟩
def XTS_NSK_OLDGEN (i : Nat) : Fld := ⟨(R.XTS_NSK i), 44, 8⟩
def XTS_NSK_OLDV (i : Nat) : Fld := ⟨(R.XTS_NSK i), 52, 1⟩
def XTS_DUC_COUNT (i : Nat) : Fld := ⟨(R.XTS_DUC i), 0, 64⟩
def XTS_CFG_LIMEXP : Fld := ⟨R.XTS_CFG, 0, 6⟩
def ZNE_KGREF_CURREF (i : Nat) : Fld := ⟨(R.ZNE_KGREF i), 0, 21⟩
def ZNE_KGREF_OLDREF (i : Nat) : Fld := ⟨(R.ZNE_KGREF i), 32, 21⟩
def ZNE_KGREF_DUE (i : Nat) : Fld := ⟨(R.ZNE_KGREF i), 53, 1⟩
def ZNE_KGREF_PEND (i : Nat) : Fld := ⟨(R.ZNE_KGREF i), 54, 1⟩
def ZNE_KGREF_SWEEP (i : Nat) : Fld := ⟨(R.ZNE_KGREF i), 55, 1⟩
def SEC_TRNGSTAT_HEALTHY : Fld := ⟨R.SEC_TRNGSTAT, 0, 1⟩
def SEC_TRNGSTAT_RCTFAIL : Fld := ⟨R.SEC_TRNGSTAT, 1, 1⟩
def SEC_TRNGSTAT_APTFAIL : Fld := ⟨R.SEC_TRNGSTAT, 2, 1⟩
def SEC_TRNGSTAT_KEYBLK : Fld := ⟨R.SEC_TRNGSTAT, 3, 1⟩
def SEC_BOOTSTAT_SLOT : Fld := ⟨R.SEC_BOOTSTAT, 0, 1⟩
def SEC_BOOTSTAT_PATH : Fld := ⟨R.SEC_BOOTSTAT, 1, 2⟩
def SEC_BOOTSTAT_BOOTSEL : Fld := ⟨R.SEC_BOOTSTAT, 3, 1⟩
def SEC_BOOTSTAT_REVERT : Fld := ⟨R.SEC_BOOTSTAT, 4, 1⟩
def SEC_BOOTSTAT_AFAIL : Fld := ⟨R.SEC_BOOTSTAT, 8, 4⟩
def SEC_BOOTSTAT_BFAIL : Fld := ⟨R.SEC_BOOTSTAT, 12, 4⟩
def SEC_BOOTSTAT_OTPSVN : Fld := ⟨R.SEC_BOOTSTAT, 16, 7⟩
def SEC_BOOTSTAT_ACTCNT : Fld := ⟨R.SEC_BOOTSTAT, 24, 8⟩
def SEC_BOOTWD_TIMEOUT : Fld := ⟨R.SEC_BOOTWD, 0, 8⟩
def SEC_BOOTWD_ARMED : Fld := ⟨R.SEC_BOOTWD, 8, 1⟩
def SEC_BOOTWD_STOP : Fld := ⟨R.SEC_BOOTWD, 9, 1⟩
def SEC_OTPCMD_TARGET : Fld := ⟨R.SEC_OTPCMD, 0, 7⟩
def SEC_OTPCMD_RREV : Fld := ⟨R.SEC_OTPCMD, 8, 4⟩
def SEC_OTPCMD_SREV : Fld := ⟨R.SEC_OTPCMD, 12, 4⟩
def SEC_OTPCMD_SKIP : Fld := ⟨R.SEC_OTPCMD, 16, 8⟩
def SEC_OTPCMD_BUSY : Fld := ⟨R.SEC_OTPCMD, 24, 1⟩
def SEC_OTPCMD_ERR : Fld := ⟨R.SEC_OTPCMD, 25, 1⟩
def SEC_OTPCMD_GO : Fld := ⟨R.SEC_OTPCMD, 31, 1⟩
def DMC_CFG_SUBA (n : Nat) : Fld := ⟨(R.DMC_CFG n), 0, 1⟩
def DMC_CFG_SUBB (n : Nat) : Fld := ⟨(R.DMC_CFG n), 1, 1⟩
def DMC_CFG_RANKS (n : Nat) : Fld := ⟨(R.DMC_CFG n), 2, 1⟩
def DMC_CFG_DENS (n : Nat) : Fld := ⟨(R.DMC_CFG n), 3, 1⟩
def DMC_CFG_LOCK (n : Nat) : Fld := ⟨(R.DMC_CFG n), 31, 1⟩
def DMC_ECCCFG_DEVTHR (n : Nat) : Fld := ⟨(R.DMC_ECCCFG n), 0, 8⟩
def DMC_ECCCFG_DEVWIN (n : Nat) : Fld := ⟨(R.DMC_ECCCFG n), 8, 8⟩
def DMC_ECCCFG_SCRUBH (n : Nat) : Fld := ⟨(R.DMC_ECCCFG n), 16, 8⟩
def DMC_ECCSTAT_FDEV0 (n i : Nat) : Fld := ⟨(R.DMC_ECCSTAT n i), 0, 4⟩
def DMC_ECCSTAT_FV0 (n i : Nat) : Fld := ⟨(R.DMC_ECCSTAT n i), 4, 1⟩
def DMC_ECCSTAT_FDEV1 (n i : Nat) : Fld := ⟨(R.DMC_ECCSTAT n i), 5, 4⟩
def DMC_ECCSTAT_FV1 (n i : Nat) : Fld := ⟨(R.DMC_ECCSTAT n i), 9, 1⟩
def DMC_DMACTL_OP (n i : Nat) : Fld := ⟨(R.DMC_DMACTL n i), 0, 2⟩
def DMC_DMACTL_GO (n i : Nat) : Fld := ⟨(R.DMC_DMACTL n i), 2, 1⟩
def DMC_DMACTL_BUSY (n i : Nat) : Fld := ⟨(R.DMC_DMACTL n i), 3, 1⟩
def DMC_DMACTL_DONE (n i : Nat) : Fld := ⟨(R.DMC_DMACTL n i), 4, 1⟩
def DMC_DMACTL_HALT (n i : Nat) : Fld := ⟨(R.DMC_DMACTL n i), 5, 1⟩
def DMC_DMACTL_STATUS (n i : Nat) : Fld := ⟨(R.DMC_DMACTL n i), 8, 8⟩
def MRM_BANKSTAT_FAILED : Fld := ⟨R.MRM_BANKSTAT, 0, 4⟩
def MRM_BANKSTAT_SPARE2 : Fld := ⟨R.MRM_BANKSTAT, 16, 9⟩
def AON_PSTATE_REQ_MODE : Fld := ⟨R.AON_PSTATE_REQ, 0, 2⟩
def AON_PSSTAT_CUR : Fld := ⟨R.AON_PSSTAT, 0, 2⟩
def AON_PSSTAT_BUSY : Fld := ⟨R.AON_PSSTAT, 2, 1⟩
def AON_PSSTAT_TGT : Fld := ⟨R.AON_PSSTAT, 3, 2⟩
def AON_PSSTAT_LASTREF : Fld := ⟨R.AON_PSSTAT, 8, 8⟩
def AON_VETO_CORE : Fld := ⟨R.AON_VETO, 0, 32⟩
def AON_RETEN_EN : Fld := ⟨R.AON_RETEN, 0, 24⟩
def AON_RETSTAT_DISC : Fld := ⟨R.AON_RETSTAT, 0, 24⟩
def AON_RETSTAT_DRAMFAIL : Fld := ⟨R.AON_RETSTAT, 24, 1⟩
def AON_RSTCAUSE_CAUSE : Fld := ⟨R.AON_RSTCAUSE, 0, 4⟩
def AON_RSTCTL_WARM : Fld := ⟨R.AON_RSTCTL, 0, 1⟩
def AON_AVSCFG_EN : Fld := ⟨R.AON_AVSCFG, 0, 1⟩
def AON_AVSCFG_VFIX : Fld := ⟨R.AON_AVSCFG, 8, 10⟩
def AON_AVSSTAT_VCUR : Fld := ⟨R.AON_AVSSTAT, 0, 10⟩
def AON_AVSSTAT_ERR : Fld := ⟨R.AON_AVSSTAT, 10, 1⟩
def AON_HUCFG_EMEAS : Fld := ⟨R.AON_HUCFG, 0, 16⟩
def AON_HUCFG_FAIL : Fld := ⟨R.AON_HUCFG, 16, 1⟩
def AON_HUCFG_PERIOD : Fld := ⟨R.AON_HUCFG, 24, 8⟩
def AON_HULIM_LIMIT : Fld := ⟨R.AON_HULIM, 0, 12⟩
def AON_HULIM_FAILED : Fld := ⟨R.AON_HULIM, 12, 1⟩
def VUK_LINKCFG_LTEN (n : Nat) : Fld := ⟨(R.VUK_LINKCFG n), 0, 1⟩
def VUK_LINKCFG_W4OK (n : Nat) : Fld := ⟨(R.VUK_LINKCFG n), 1, 1⟩
def VUK_LINKSTAT_UP (n : Nat) : Fld := ⟨(R.VUK_LINKSTAT n), 0, 1⟩
def VUK_LINKSTAT_SECURE (n : Nat) : Fld := ⟨(R.VUK_LINKSTAT n), 1, 1⟩
def VUK_LINKSTAT_WIDTH (n : Nat) : Fld := ⟨(R.VUK_LINKSTAT n), 2, 4⟩
def VUK_LINKSTAT_PEER (n : Nat) : Fld := ⟨(R.VUK_LINKSTAT n), 6, 2⟩
def VUK_LINKSTAT_PEERNODE (n : Nat) : Fld := ⟨(R.VUK_LINKSTAT n), 8, 2⟩
def VUK_CASC_ROLE : Fld := ⟨R.VUK_CASC, 0, 2⟩
def VUK_CASC_NODE : Fld := ⟨R.VUK_CASC, 2, 2⟩
def VUK_CASC_NNODES : Fld := ⟨R.VUK_CASC, 4, 3⟩
def VUK_CASC_RING : Fld := ⟨R.VUK_CASC, 7, 1⟩
def VUK_CASC_JOINED : Fld := ⟨R.VUK_CASC, 8, 4⟩
def VUK_CASC_LOST : Fld := ⟨R.VUK_CASC, 12, 4⟩
def VUK_CASCCFG_LOSSTO : Fld := ⟨R.VUK_CASCCFG, 0, 14⟩
def MGT_MBCFG_SMBADDR : Fld := ⟨R.MGT_MBCFG, 0, 7⟩
def MGT_MBCFG_ARPEN : Fld := ⟨R.MGT_MBCFG, 7, 1⟩
def MGT_MBCFG_I3CEN : Fld := ⟨R.MGT_MBCFG, 8, 1⟩
def MGT_MBCFG_SMBEN : Fld := ⟨R.MGT_MBCFG, 9, 1⟩
def MGT_MBSTAT_MODE : Fld := ⟨R.MGT_MBSTAT, 0, 2⟩
def MGT_MBSTAT_ADDR : Fld := ⟨R.MGT_MBSTAT, 2, 7⟩
def MGT_MBSTAT_EID : Fld := ⟨R.MGT_MBSTAT, 16, 8⟩
def MGT_TEMP_T (i : Nat) : Fld := ⟨(R.MGT_TEMP i), 0, 16⟩
def MGT_TEMP_VALID (i : Nat) : Fld := ⟨(R.MGT_TEMP i), 16, 1⟩
def MGT_TEMP_FAULT (i : Nat) : Fld := ⟨(R.MGT_TEMP i), 17, 1⟩
def MGT_VMON_MV (i : Nat) : Fld := ⟨(R.MGT_VMON i), 0, 12⟩
def MGT_VMON_LOW (i : Nat) : Fld := ⟨(R.MGT_VMON i), 12, 1⟩
def MGT_VMON_HIGH (i : Nat) : Fld := ⟨(R.MGT_VMON i), 13, 1⟩
def MGT_VLIM_LO (i : Nat) : Fld := ⟨(R.MGT_VLIM i), 0, 12⟩
def MGT_VLIM_HI (i : Nat) : Fld := ⟨(R.MGT_VLIM i), 12, 12⟩
def MGT_ROSC_COUNT (i : Nat) : Fld := ⟨(R.MGT_ROSC i), 0, 16⟩
def MGT_ROSC_MIN (i : Nat) : Fld := ⟨(R.MGT_ROSC i), 16, 16⟩
def MGT_SAFECFG_PLOPIN : Fld := ⟨R.MGT_SAFECFG, 0, 4⟩
def MGT_SAFECFG_PLOEN : Fld := ⟨R.MGT_SAFECFG, 4, 1⟩
def MGT_SAFECFG_TWPIN : Fld := ⟨R.MGT_SAFECFG, 8, 4⟩
def MGT_SAFECFG_TWEN : Fld := ⟨R.MGT_SAFECFG, 12, 1⟩
def MGT_MBISTCTL_ISL : Fld := ⟨R.MGT_MBISTCTL, 0, 8⟩
def MGT_MBISTCTL_MEM : Fld := ⟨R.MGT_MBISTCTL, 8, 4⟩
def MGT_MBISTCTL_GO : Fld := ⟨R.MGT_MBISTCTL, 12, 1⟩
def MGT_MBISTCTL_BUSY : Fld := ⟨R.MGT_MBISTCTL, 13, 1⟩
def MGT_MBISTCTL_DONE : Fld := ⟨R.MGT_MBISTCTL, 14, 1⟩
def MGT_MBISTCTL_FAIL : Fld := ⟨R.MGT_MBISTCTL, 15, 1⟩
def MGT_MBISTCTL_BANK : Fld := ⟨R.MGT_MBISTCTL, 16, 5⟩
def MGT_MBISTCTL_REFUSED : Fld := ⟨R.MGT_MBISTCTL, 21, 1⟩
def MGT_MBISTADDR_ADDR : Fld := ⟨R.MGT_MBISTADDR, 0, 32⟩
def MGT_EVCFG_RLIM : Fld := ⟨R.MGT_EVCFG, 0, 8⟩
def MGT_EVCFG_FRZTO : Fld := ⟨R.MGT_EVCFG, 8, 8⟩
def MGT_EVSTAT_UNFL : Fld := ⟨R.MGT_EVSTAT, 0, 14⟩
def MGT_EVSTAT_FROZEN : Fld := ⟨R.MGT_EVSTAT, 14, 1⟩
def MGT_EVSTAT_SIDE : Fld := ⟨R.MGT_EVSTAT, 16, 10⟩
def MGT_EVPOST_ID : Fld := ⟨R.MGT_EVPOST, 0, 16⟩
def MGT_EVPOST_SRC : Fld := ⟨R.MGT_EVPOST, 16, 8⟩
def MGT_EVPOST_SEV : Fld := ⟨R.MGT_EVPOST, 24, 4⟩
def MGT_EVPOST1_TEN : Fld := ⟨R.MGT_EVPOST1, 0, 8⟩
def MGT_EVPOST1_PL0 : Fld := ⟨R.MGT_EVPOST1, 8, 24⟩
def MGT_EVPOST2_PL1 : Fld := ⟨R.MGT_EVPOST2, 0, 32⟩
def MGT_EVPOST3_PL2 : Fld := ⟨R.MGT_EVPOST3, 0, 32⟩
def CH_PHYCFG_DRV (n : Nat) : Fld := ⟨(R.CH_PHYCFG n), 0, 3⟩
def CH_PHYCFG_ODT (n : Nat) : Fld := ⟨(R.CH_PHYCFG n), 3, 3⟩
def CH_PHYCFG_VREF (n : Nat) : Fld := ⟨(R.CH_PHYCFG n), 6, 8⟩
def ZNE_PWRBUD_FLASHBUD : Fld := ⟨R.ZNE_PWRBUD, 0, 20⟩
def ZNE_PWRRES_READRES : Fld := ⟨R.ZNE_PWRRES, 0, 16⟩
def ZNE_PWRRES_PGMCAP : Fld := ⟨R.ZNE_PWRRES, 16, 16⟩
def ZNE_TOKCOST0_READ : Fld := ⟨R.ZNE_TOKCOST0, 0, 10⟩
def ZNE_TOKCOST0_QLCPGM : Fld := ⟨R.ZNE_TOKCOST0, 10, 10⟩
def ZNE_TOKCOST0_SLCPGM : Fld := ⟨R.ZNE_TOKCOST0, 20, 10⟩
def ZNE_TOKCOST1_ERASE : Fld := ⟨R.ZNE_TOKCOST1, 0, 10⟩
def ZNE_TOKCOST1_BUS : Fld := ⟨R.ZNE_TOKCOST1, 10, 10⟩
def ZNE_TOKCOST1_SLCREAD : Fld := ⟨R.ZNE_TOKCOST1, 20, 10⟩
def ZNE_PWRSTAT_DRAW : Fld := ⟨R.ZNE_PWRSTAT, 0, 20⟩
def ZNE_PWRSTAT_HOLD : Fld := ⟨R.ZNE_PWRSTAT, 20, 1⟩
def ZNE_PWRSTAT_PCAP : Fld := ⟨R.ZNE_PWRSTAT, 21, 1⟩
def ZNE_PWREFF_EFF : Fld := ⟨R.ZNE_PWREFF, 0, 20⟩
def ZNE_PCAP_PCAPBUD : Fld := ⟨R.ZNE_PCAP, 0, 20⟩
def ZNE_PWRPGM_PGMDRAW : Fld := ⟨R.ZNE_PWRPGM, 0, 16⟩
def LPE_SCTL_STATE (i : Nat) : Fld := ⟨(R.LPE_SCTL i), 0, 2⟩
def LPE_SCTL_CMD (i : Nat) : Fld := ⟨(R.LPE_SCTL i), 2, 2⟩
def LPE_SCTL_PEND (i : Nat) : Fld := ⟨(R.LPE_SCTL i), 4, 1⟩
def LPE_SCTL_PLCNT (i : Nat) : Fld := ⟨(R.LPE_SCTL i), 8, 8⟩
def LPE_SP_THRESH (i : Nat) : Fld := ⟨(R.LPE_SP i), 0, 16⟩
def LPE_SP_TARGET (i : Nat) : Fld := ⟨(R.LPE_SP i), 16, 16⟩
def LPE_GAIN_KP (i : Nat) : Fld := ⟨(R.LPE_GAIN i), 0, 16⟩
def LPE_GAIN_KI (i : Nat) : Fld := ⟨(R.LPE_GAIN i), 16, 16⟩
def LPE_FFG_FF (i : Nat) : Fld := ⟨(R.LPE_FFG i), 0, 16⟩
def LPE_FFG_GEXP (i : Nat) : Fld := ⟨(R.LPE_FFG i), 16, 4⟩
def LPE_FFG_FSH (i : Nat) : Fld := ⟨(R.LPE_FFG i), 20, 3⟩
def LPE_FFG_MODEL (i : Nat) : Fld := ⟨(R.LPE_FFG i), 24, 5⟩
def LPE_ULIM_UMIN (i : Nat) : Fld := ⟨(R.LPE_ULIM i), 0, 16⟩
def LPE_ULIM_UMAX (i : Nat) : Fld := ⟨(R.LPE_ULIM i), 16, 16⟩
def LPE_SAFE_USAFE (i : Nat) : Fld := ⟨(R.LPE_SAFE i), 0, 16⟩
def LPE_SAFE_SAFELVL (i : Nat) : Fld := ⟨(R.LPE_SAFE i), 16, 2⟩
def LPE_SAFE_SAFERA (i : Nat) : Fld := ⟨(R.LPE_SAFE i), 18, 1⟩
def LPE_PLAUS_BAND (i : Nat) : Fld := ⟨(R.LPE_PLAUS i), 0, 16⟩
def LPE_PLAUS_PLN (i : Nat) : Fld := ⟨(R.LPE_PLAUS i), 16, 8⟩
def LPE_ESC_ESC1 (i : Nat) : Fld := ⟨(R.LPE_ESC i), 0, 16⟩
def LPE_ESC_ESC2 (i : Nat) : Fld := ⟨(R.LPE_ESC i), 16, 16⟩
def LPE_MODE_BASELVL (i : Nat) : Fld := ⟨(R.LPE_MODE i), 0, 2⟩
def LPE_MODE_RAMODE (i : Nat) : Fld := ⟨(R.LPE_MODE i), 2, 2⟩
def LPE_HOLD_U (i : Nat) : Fld := ⟨(R.LPE_HOLD i), 0, 16⟩
def LPE_HOLD_LVL (i : Nat) : Fld := ⟨(R.LPE_HOLD i), 16, 2⟩
def LPE_HOLD_RA (i : Nat) : Fld := ⟨(R.LPE_HOLD i), 18, 1⟩
def LPE_OUT_U (i : Nat) : Fld := ⟨(R.LPE_OUT i), 0, 16⟩
def LPE_OUT_LVL (i : Nat) : Fld := ⟨(R.LPE_OUT i), 16, 2⟩
def LPE_OUT_RA (i : Nat) : Fld := ⟨(R.LPE_OUT i), 18, 1⟩
def LPE_MEAS_YF (i : Nat) : Fld := ⟨(R.LPE_MEAS i), 0, 16⟩
def LPE_MEAS_YHAT (i : Nat) : Fld := ⟨(R.LPE_MEAS i), 16, 16⟩
def LPE_CNT_N (i : Nat) : Fld := ⟨(R.LPE_CNT i), 0, 16⟩
def LPE_CNT_A (i : Nat) : Fld := ⟨(R.LPE_CNT i), 16, 16⟩
def LPE_ERR_E (i : Nat) : Fld := ⟨(R.LPE_ERR i), 0, 16⟩
def LPE_ERR_Q (i : Nat) : Fld := ⟨(R.LPE_ERR i), 16, 16⟩
def LPE_FAULTS_COUNT (i : Nat) : Fld := ⟨(R.LPE_FAULTS i), 0, 32⟩
def ZNE_ZMBASE_BASE : Fld := ⟨R.ZNE_ZMBASE, 21, 19⟩
def ZNE_BTBASE_BASE : Fld := ⟨R.ZNE_BTBASE, 21, 19⟩
def ZNE_BSTBASE_BASE : Fld := ⟨R.ZNE_BSTBASE, 21, 19⟩
def ZNE_AZTBASE_BASE : Fld := ⟨R.ZNE_AZTBASE, 21, 19⟩
def ZNE_SRDBASE_BASE : Fld := ⟨R.ZNE_SRDBASE, 21, 19⟩
def ZNE_CPMBASE_BASE : Fld := ⟨R.ZNE_CPMBASE, 21, 19⟩
def ZNE_CSTBASE_BASE : Fld := ⟨R.ZNE_CSTBASE, 21, 19⟩
def ZNE_CNTBASE_BASE : Fld := ⟨R.ZNE_CNTBASE, 21, 19⟩
def ZNE_RCTBASE_BASE : Fld := ⟨R.ZNE_RCTBASE, 21, 19⟩
def ZNE_PROFBASE_BASE : Fld := ⟨R.ZNE_PROFBASE, 21, 19⟩
def ZNE_TGOV_BGTOK (i : Nat) : Fld := ⟨(R.ZNE_TGOV i), 0, 16⟩
def ZNE_TGOV_SUSPLVL (i : Nat) : Fld := ⟨(R.ZNE_TGOV i), 16, 2⟩
def ZNE_TGOV_RAEN (i : Nat) : Fld := ⟨(R.ZNE_TGOV i), 18, 1⟩
def ZNE_SGOV_BGTOK (i : Nat) : Fld := ⟨(R.ZNE_SGOV i), 0, 16⟩
def ZNE_RASTAT_SUSP_COUNT : Fld := ⟨R.ZNE_RASTAT_SUSP, 0, 64⟩
def ZNE_RASTAT_RA_COUNT : Fld := ⟨R.ZNE_RASTAT_RA, 0, 64⟩
def ZNE_RASTAT_RAFB_COUNT : Fld := ⟨R.ZNE_RASTAT_RAFB, 0, 64⟩
def ZNE_RASTAT_LOSTRACE_COUNT : Fld := ⟨R.ZNE_RASTAT_LOSTRACE, 0, 64⟩
def ZNE_RASTAT_WDEXP_COUNT : Fld := ⟨R.ZNE_RASTAT_WDEXP, 0, 64⟩
def ZNE_RASTAT_LATEDISC_COUNT : Fld := ⟨R.ZNE_RASTAT_LATEDISC, 0, 64⟩
def ZNE_RASTAT_LATEUSED_COUNT : Fld := ⟨R.ZNE_RASTAT_LATEUSED, 0, 64⟩
def ZNE_RASTAT_WBHIT_COUNT : Fld := ⟨R.ZNE_RASTAT_WBHIT, 0, 64⟩
def PQE_RECON_COUNT : Fld := ⟨R.PQE_RECON, 0, 64⟩
def PQE_RBSLICES_COUNT : Fld := ⟨R.PQE_RBSLICES, 0, 64⟩
def PQE_ROWLOST_COUNT : Fld := ⟨R.PQE_ROWLOST, 0, 64⟩
def PQE_SUBST_COUNT : Fld := ⟨R.PQE_SUBST, 0, 64⟩
def LPE_SAMPLES_COUNT : Fld := ⟨R.LPE_SAMPLES, 0, 64⟩
def LPE_MERGED_COUNT : Fld := ⟨R.LPE_MERGED, 0, 64⟩
def ZNE_CONV_HOSTCW_COUNT : Fld := ⟨R.ZNE_CONV_HOSTCW, 0, 64⟩
def ZNE_CONV_RELCW_COUNT : Fld := ⟨R.ZNE_CONV_RELCW, 0, 64⟩
def ZNE_CONV_PADCW_COUNT : Fld := ⟨R.ZNE_CONV_PADCW, 0, 64⟩
def CH_OPS_COUNT (n : Nat) : Fld := ⟨(R.CH_OPS n), 0, 64⟩
def CH_GUARDREF_COUNT (n : Nat) : Fld := ⟨(R.CH_GUARDREF n), 0, 64⟩
def CH_FAULTS_COUNT (n : Nat) : Fld := ⟨(R.CH_FAULTS n), 0, 64⟩
def CH_IMEMCE_COUNT (n : Nat) : Fld := ⟨(R.CH_IMEMCE n), 0, 64⟩
def ZNE_MH_ERASES_COUNT : Fld := ⟨R.ZNE_MH_ERASES, 0, 64⟩
def ZNE_MH_CHKFAIL_COUNT : Fld := ⟨R.ZNE_MH_CHKFAIL, 0, 64⟩
def ZNE_MH_GROWN_COUNT : Fld := ⟨R.ZNE_MH_GROWN, 0, 64⟩
def ZNE_MH_LIMIT_COUNT : Fld := ⟨R.ZNE_MH_LIMIT, 0, 64⟩
def ZNE_MH_SCRUBBED_COUNT : Fld := ⟨R.ZNE_MH_SCRUBBED, 0, 64⟩
def ZNE_MH_REFRESH_COUNT : Fld := ⟨R.ZNE_MH_REFRESH, 0, 64⟩
def ZNE_MH_WLRELOC_COUNT : Fld := ⟨R.ZNE_MH_WLRELOC, 0, 64⟩
def HIF_LINKDOWN_COUNT (n : Nat) : Fld := ⟨(R.HIF_LINKDOWN n), 0, 64⟩
def HIF_RETRAIN_COUNT (n : Nat) : Fld := ⟨(R.HIF_RETRAIN n), 0, 64⟩
def HIF_IDEDROP_COUNT (n : Nat) : Fld := ⟨(R.HIF_IDEDROP n), 0, 64⟩
def DMC_CECNT_COUNT (n i : Nat) : Fld := ⟨(R.DMC_CECNT n i), 0, 64⟩
def DMC_UECNT_COUNT (n i : Nat) : Fld := ⟨(R.DMC_UECNT n i), 0, 64⟩
def MRM_REMAP_COUNT : Fld := ⟨R.MRM_REMAP, 0, 64⟩
def MRM_CE_COUNT : Fld := ⟨R.MRM_CE, 0, 64⟩
def MRM_UE_COUNT : Fld := ⟨R.MRM_UE, 0, 64⟩
def AON_PS_ATTEMPT_COUNT : Fld := ⟨R.AON_PS_ATTEMPT, 0, 64⟩
def AON_PS_DONE_COUNT : Fld := ⟨R.AON_PS_DONE, 0, 64⟩
def AON_PS_REFUSED_COUNT : Fld := ⟨R.AON_PS_REFUSED, 0, 64⟩
def AON_PS_ABORTED_COUNT : Fld := ⟨R.AON_PS_ABORTED, 0, 64⟩
def AON_PS_COLLAPSED_COUNT : Fld := ⟨R.AON_PS_COLLAPSED, 0, 64⟩
def AON_RES_COUNT (i : Nat) : Fld := ⟨(R.AON_RES i), 0, 64⟩
def AON_REFCNT_COUNT (i : Nat) : Fld := ⟨(R.AON_REFCNT i), 0, 32⟩
def VUK_FECCOR_COUNT (n : Nat) : Fld := ⟨(R.VUK_FECCOR n), 0, 64⟩
def VUK_FECUNC_COUNT (n : Nat) : Fld := ⟨(R.VUK_FECUNC n), 0, 64⟩
def VUK_REROUTE_COUNT : Fld := ⟨R.VUK_REROUTE, 0, 64⟩
def MGT_EVNEXT_COUNT : Fld := ⟨R.MGT_EVNEXT, 0, 64⟩
def MGT_EVOLDEST_COUNT : Fld := ⟨R.MGT_EVOLDEST, 0, 64⟩
def MGT_EVDROP_COUNT : Fld := ⟨R.MGT_EVDROP, 0, 64⟩
def MGT_EVSUPP_COUNT : Fld := ⟨R.MGT_EVSUPP, 0, 64⟩
def MGT_EVFWCUR_VALUE : Fld := ⟨R.MGT_EVFWCUR, 0, 64⟩
def KWE_ADDR_VALUE : Fld := ⟨R.KWE_ADDR, 0, 64⟩
def AON_WAKEAT_VALUE : Fld := ⟨R.AON_WAKEAT, 0, 64⟩
def AON_AGEAT_VALUE : Fld := ⟨R.AON_AGEAT, 0, 64⟩
def DMC_DMASRC_VALUE (n i : Nat) : Fld := ⟨(R.DMC_DMASRC n i), 0, 64⟩
def DMC_DMADST_VALUE (n i : Nat) : Fld := ⟨(R.DMC_DMADST n i), 0, 64⟩
def DMC_DMALEN_VALUE (n i : Nat) : Fld := ⟨(R.DMC_DMALEN n i), 0, 64⟩
def DMC_DMAFADDR_VALUE (n i : Nat) : Fld := ⟨(R.DMC_DMAFADDR n i), 0, 64⟩
def KWE_LEN_LEN : Fld := ⟨R.KWE_LEN, 0, 13⟩
def LPE_MODEL_LO (i : Nat) : Fld := ⟨(R.LPE_MODEL i), 0, 16⟩
def LPE_MODEL_HI (i : Nat) : Fld := ⟨(R.LPE_MODEL i), 16, 16⟩
def CH_KREG_K (n i : Nat) : Fld := ⟨(R.CH_KREG n i), 0, 32⟩
def CH_IMEM_WORD (n i : Nat) : Fld := ⟨(R.CH_IMEM n i), 0, 32⟩
def MGT_CLAIM_ID (i : Nat) : Fld := ⟨(R.MGT_CLAIM i), 0, 32⟩
def MGT_CLAIM_RELEASE (i : Nat) : Fld := ⟨(R.MGT_CLAIM i), 32, 1⟩
def MGT_CLAIM_SAFE (i : Nat) : Fld := ⟨(R.MGT_CLAIM i), 33, 1⟩
def MGT_CLAIM_SFN (i : Nat) : Fld := ⟨(R.MGT_CLAIM i), 34, 2⟩

end Sys2Proof.F
end

