-- ==== Sys2Proof/Machine/Table.lean ====
section
/-! DEFINITION. Sparse tables: lookup, write and removal over a list of keys and values kept in rising key
order. Every large array of the part (zones, blocks, dies, registers, records) is held in one of these. -/

namespace Sys2Proof.Machine

/-- The entry of a key, if the table lists one. -/
def Tab.find {α : Type} : Tab α → Nat → Option α
  | [], _ => none
  | (k, v) :: t, x => if k = x then some v else Tab.find t x

/-- The entry of a key, or the default of an unlisted one. -/
def Tab.getD {α : Type} (t : Tab α) (x : Nat) (d : α) : α := (Tab.find t x).getD d

/-- Write one key: later keys keep their order. -/
def Tab.set {α : Type} : Tab α → Nat → α → Tab α
  | [], x, a => [(x, a)]
  | (k, v) :: t, x, a =>
    if x < k then (x, a) :: (k, v) :: t
    else if x = k then (k, a) :: t
    else (k, v) :: Tab.set t x a

/-- Remove one key. -/
def Tab.erase {α : Type} : Tab α → Nat → Tab α
  | [], _ => []
  | (k, v) :: t, x => if k = x then t else (k, v) :: Tab.erase t x

/-- Change one key's entry, starting from the default where none is listed. -/
def Tab.modify {α : Type} (t : Tab α) (x : Nat) (d : α) (f : α → α) : Tab α :=
  Tab.set t x (f (Tab.getD t x d))

/-- Change one key's entry where one is listed. -/
def Tab.adjust {α : Type} (t : Tab α) (x : Nat) (f : α → α) : Tab α :=
  match Tab.find t x with
  | some a => Tab.set t x (f a)
  | none => t

/-- The smallest key at or above a bound that a table does not list. -/
def Tab.firstFree {α : Type} : Tab α → Nat → Nat
  | [], n => n
  | (k, _) :: t, n => if k = n then Tab.firstFree t (n + 1) else Tab.firstFree t n

/-- The entries for which a test holds. -/
def Tab.keep {α : Type} (t : Tab α) (p : Nat → α → Bool) : Tab α := t.filter fun e => p e.1 e.2

/-- The keys in order. -/
def Tab.keys {α : Type} (t : Tab α) : List Nat := t.map Prod.fst

/-- Little-endian bytes of a number. -/
def leBytes : Nat → Nat → List Byte
  | 0, _ => []
  | n + 1, v => BitVec.ofNat 8 v :: leBytes n (v / 256)

/-- The number little-endian bytes spell. -/
def ofLe : List Byte → Nat
  | [] => 0
  | b :: bs => b.toNat + 256 * ofLe bs

/-- Bits lo to lo + w - 1 of a number. -/
def bits (v lo w : Nat) : Nat := v / 2 ^ lo % 2 ^ w

/-- Bit i of a number. -/
def bit (v i : Nat) : Bool := v / 2 ^ i % 2 == 1

/-- One for true, zero for false. -/
def b2n (b : Bool) : Nat := if b then 1 else 0

/-- The least element by a measure, the first on a tie. -/
def minBy {α : Type} (f : α → Nat) : List α → Option α
  | [] => none
  | x :: xs =>
    match minBy f xs with
    | none => some x
    | some y => if f y < f x then some y else some x

/-- Two's complement reading of a w-bit number. -/
def sx (w v : Nat) : Int := if v % 2 ^ w < 2 ^ (w - 1) then ((v % 2 ^ w : Nat) : Int) else ((v % 2 ^ w : Nat) : Int) - (2 ^ w : Nat)

/-- An integer as a w-bit number. -/
def unsx (w : Nat) (v : Int) : Nat := (v % (2 ^ w : Nat)).toNat

/-- Set bit i of a number. -/
def setBit (v i : Nat) : Nat := if bit v i then v else v + 2 ^ i

/-- Clear bit i of a number. -/
def clrBit (v i : Nat) : Nat := if bit v i then v - 2 ^ i else v

/-- Number of one bits among the low n. -/
def popcount : Nat → Nat → Nat
  | 0, _ => 0
  | n + 1, v => v % 2 + popcount n (v / 2)

end Sys2Proof.Machine
end

