-- ==== Sys2Proof/Machine/Sha.lean ====
section
/-! DEFINITION. The secure hashes the named standards take (R4): SHA-256, SHA-384 and SHA-512 of FIPS 180-4, HMAC-SHA-384, the mask
generation function MGF1, and the key derivation of SEC (R300, R316, R319). -/

namespace Sys2Proof.Machine

/-! ### Byte order and pieces -/

/-- The number big-endian bytes spell. -/
def ofBe (bs : List Byte) : Nat := bs.foldl (fun a b => a * 256 + b.toNat) 0

/-- A number as n big-endian bytes. -/
def beBytes (n v : Nat) : List Byte := (leBytes n v).reverse

/-- The first `k` pieces of `n` elements each. -/
def pieces {α : Type} (n : Nat) : Nat → List α → List (List α)
  | 0, _ => []
  | k + 1, l => l.take n :: pieces n k (l.drop n)

/-- Two byte strings added bit by bit. -/
def xorBytes (a b : List Byte) : List Byte := List.zipWith (· ^^^ ·) a b

/-! ### The hash of FIPS 180-4 over words of `w` bits -/

/-- The eight working words. -/
structure ShaSt (w : Nat) where
  a : BitVec w
  b : BitVec w
  c : BitVec w
  d : BitVec w
  e : BitVec w
  f : BitVec w
  g : BitVec w
  h : BitVec w
  deriving DecidableEq, Repr

/-- The rotations of the two large sigma functions, and of the two small ones, whose last number is a shift. -/
structure ShaRot where
  big0 : Nat × Nat × Nat
  big1 : Nat × Nat × Nat
  small0 : Nat × Nat × Nat
  small1 : Nat × Nat × Nat
  deriving DecidableEq, Repr

/-- A large sigma function. -/
def shaBig {w : Nat} (r : Nat × Nat × Nat) (x : BitVec w) : BitVec w :=
  x.rotateRight r.1 ^^^ x.rotateRight r.2.1 ^^^ x.rotateRight r.2.2

/-- A small sigma function. -/
def shaSmall {w : Nat} (r : Nat × Nat × Nat) (x : BitVec w) : BitVec w :=
  x.rotateRight r.1 ^^^ x.rotateRight r.2.1 ^^^ (x >>> r.2.2)

/-- `n` more words of the message schedule, the newest first. -/
def shaSchedule {w : Nat} (r : ShaRot) : Nat → List (BitVec w) → List (BitVec w)
  | 0, ws => ws
  | n + 1, ws =>
    shaSchedule r n
      ((shaSmall r.small1 (ws.getD 1 0) + ws.getD 6 0 + shaSmall r.small0 (ws.getD 14 0) + ws.getD 15 0) :: ws)

/-- One round under its constant and schedule word. -/
def shaRound {w : Nat} (r : ShaRot) (s : ShaSt w) (kw : BitVec w × BitVec w) : ShaSt w :=
  let x := s.h + shaBig r.big1 s.e + ((s.e &&& s.f) ^^^ (~~~ s.e &&& s.g)) + kw.1 + kw.2
  let y := shaBig r.big0 s.a + ((s.a &&& s.b) ^^^ (s.a &&& s.c) ^^^ (s.b &&& s.c))
  ⟨x + y, s.a, s.b, s.c, s.d + x, s.e, s.f, s.g⟩

/-- The hash value after one more block of 16 words, its constants `ks`. -/
def shaBlock {w : Nat} (r : ShaRot) (ks : List (BitVec w)) (s : ShaSt w) (block : List (BitVec w)) : ShaSt w :=
  let z := (ks.zip (shaSchedule r (ks.length - 16) block.reverse).reverse).foldl (shaRound r) s
  ⟨s.a + z.a, s.b + z.b, s.c + z.c, s.d + z.d, s.e + z.e, s.f + z.f, s.g + z.g, s.h + z.h⟩

/-- The message padded to whole blocks of 16 words of `n` bytes: a 1 bit, zeros, and its length in bits in two words. -/
def shaPad (n : Nat) (m : List Byte) : List Byte :=
  let z := (16 * n - (m.length + 1 + 2 * n) % (16 * n)) % (16 * n)
  m ++ 0x80 :: List.replicate z 0 ++ beBytes (2 * n) (8 * m.length)

/-- The digest of a message over words of `n` bytes, before it is cut to the hash's length. -/
def shaDigest {w : Nat} (n : Nat) (r : ShaRot) (ks : List (BitVec w)) (iv : ShaSt w) (m : List Byte) : List Byte :=
  let p := shaPad n m
  let s := ((pieces (16 * n) (p.length / (16 * n)) p).map fun b =>
    (pieces n 16 b).map fun x => BitVec.ofNat w (ofBe x)).foldl (shaBlock r ks) iv
  ([s.a, s.b, s.c, s.d, s.e, s.f, s.g, s.h].map fun x => beBytes n x.toNat).flatten

/-- The round constants of the 64-bit words: the fractions of the cube roots of the first 80 primes. -/
def shaConsts : List W64 :=
  [0x428A2F98D728AE22, 0x7137449123EF65CD, 0xB5C0FBCFEC4D3B2F, 0xE9B5DBA58189DBBC,
   0x3956C25BF348B538, 0x59F111F1B605D019, 0x923F82A4AF194F9B, 0xAB1C5ED5DA6D8118,
   0xD807AA98A3030242, 0x12835B0145706FBE, 0x243185BE4EE4B28C, 0x550C7DC3D5FFB4E2,
   0x72BE5D74F27B896F, 0x80DEB1FE3B1696B1, 0x9BDC06A725C71235, 0xC19BF174CF692694] ++
  [0xE49B69C19EF14AD2, 0xEFBE4786384F25E3, 0x0FC19DC68B8CD5B5, 0x240CA1CC77AC9C65,
   0x2DE92C6F592B0275, 0x4A7484AA6EA6E483, 0x5CB0A9DCBD41FBD4, 0x76F988DA831153B5,
   0x983E5152EE66DFAB, 0xA831C66D2DB43210, 0xB00327C898FB213F, 0xBF597FC7BEEF0EE4,
   0xC6E00BF33DA88FC2, 0xD5A79147930AA725, 0x06CA6351E003826F, 0x142929670A0E6E70] ++
  [0x27B70A8546D22FFC, 0x2E1B21385C26C926, 0x4D2C6DFC5AC42AED, 0x53380D139D95B3DF,
   0x650A73548BAF63DE, 0x766A0ABB3C77B2A8, 0x81C2C92E47EDAEE6, 0x92722C851482353B,
   0xA2BFE8A14CF10364, 0xA81A664BBC423001, 0xC24B8B70D0F89791, 0xC76C51A30654BE30,
   0xD192E819D6EF5218, 0xD69906245565A910, 0xF40E35855771202A, 0x106AA07032BBD1B8] ++
  [0x19A4C116B8D2D0C8, 0x1E376C085141AB53, 0x2748774CDF8EEB99, 0x34B0BCB5E19B48A8,
   0x391C0CB3C5C95A63, 0x4ED8AA4AE3418ACB, 0x5B9CCA4F7763E373, 0x682E6FF3D6B2B8A3,
   0x748F82EE5DEFB2FC, 0x78A5636F43172F60, 0x84C87814A1F0AB72, 0x8CC702081A6439EC,
   0x90BEFFFA23631E28, 0xA4506CEBDE82BDE9, 0xBEF9A3F7B2C67915, 0xC67178F2E372532B] ++
  [0xCA273ECEEA26619C, 0xD186B8C721C0C207, 0xEADA7DD6CDE0EB1E, 0xF57D4F7FEE6ED178,
   0x06F067AA72176FBA, 0x0A637DC5A2C898A6, 0x113F9804BEF90DAE, 0x1B710B35131C471B,
   0x28DB77F523047D84, 0x32CAAB7B40C72493, 0x3C9EBE0A15C9BEBC, 0x431D67C49C100D4C,
   0x4CC5D4BECB3E42B6, 0x597F299CFC657E2A, 0x5FCB6FAB3AD6FAEC, 0x6C44198C4A475817]

/-- The rotations over 64-bit words. -/
def shaRot64 : ShaRot := ⟨(28, 34, 39), (14, 18, 41), (1, 8, 7), (19, 61, 6)⟩

/-- The rotations over 32-bit words. -/
def shaRot32 : ShaRot := ⟨(2, 13, 22), (6, 11, 25), (7, 18, 3), (17, 19, 10)⟩

/-- The first hash value of SHA-512; SHA-256 has its words' upper halves. -/
def shaIv512 : ShaSt 64 :=
  ⟨0x6A09E667F3BCC908, 0xBB67AE8584CAA73B, 0x3C6EF372FE94F82B, 0xA54FF53A5F1D36F1,
   0x510E527FADE682D1, 0x9B05688C2B3E6C1F, 0x1F83D9ABFB41BD6B, 0x5BE0CD19137E2179⟩

/-- The first hash value of SHA-384. -/
def shaIv384 : ShaSt 64 :=
  ⟨0xCBBB9D5DC1059ED8, 0x629A292A367CD507, 0x9159015A3070DD17, 0x152FECD8F70E5939,
   0x67332667FFC00B31, 0x8EB44A8768581511, 0xDB0C2E0D64F98FA7, 0x47B5481DBEFA4FA4⟩

/-- The upper 32 bits of a word. -/
def upper (x : W64) : W32 := x.extractLsb' 32 32

/-- SHA-512 of a byte string: 64 bytes. -/
def sha512 (m : List Byte) : List Byte := shaDigest 8 shaRot64 shaConsts shaIv512 m

/-- SHA-384 of a byte string: 48 bytes. -/
def sha384Bytes (m : List Byte) : List Byte := (shaDigest 8 shaRot64 shaConsts shaIv384 m).take 48

/-- SHA-256 of a byte string: 32 bytes. -/
def sha256 (m : List Byte) : List Byte :=
  let v := shaIv512
  shaDigest 4 shaRot32 ((shaConsts.take 64).map upper)
    ⟨upper v.a, upper v.b, upper v.c, upper v.d, upper v.e, upper v.f, upper v.g, upper v.h⟩ m

/-- SHA-384 of a byte string, as the number its bytes spell little-endian (assumption 34). -/
@[irreducible] def sha384 (m : List Byte) : BitVec 384 := BitVec.ofNat 384 (ofLe (sha384Bytes m))

/-! ### What stands on the hash -/

/-- HMAC-SHA-384 under a key of at most 128 bytes. -/
def hmac384 (key m : List Byte) : List Byte :=
  let k := key ++ List.replicate (128 - key.length) 0
  sha384Bytes (xorBytes k (List.replicate 128 0x5C) ++ sha384Bytes (xorBytes k (List.replicate 128 0x36) ++ m))

/-- MGF1 over a hash: `n` bytes from a seed, from `k` digests. -/
def mgf1 (hash : List Byte → List Byte) (k n : Nat) (seed : List Byte) : List Byte :=
  (((List.range k).map fun i => hash (seed ++ beBytes 4 i)).flatten).take n

/-- The device keys (R300): label 0 the DRK itself, 1 DWK of a wrap epoch, 2 DSK. The counter-mode KDF of SP 800-108 with HMAC-SHA-384
gives 256 bits in one pass; the fixed input of each label is the device's (assumption 3). -/
@[irreducible] def kdf (label epoch : Nat) : BitVec 512 :=
  if label = 0 then Config.drk.setWidth 512
  else BitVec.ofNat 512 (ofLe ((hmac384 (leBytes 32 Config.drk.toNat) (Config.kdfInput label epoch)).take 32))

end Sys2Proof.Machine
end

