-- ==== Sys2Proof/Machine/TypesLpe.lean ====
section
/-! DEFINITION. The kinds of state of LPE beside its registers. -/

namespace Sys2Proof.Machine

/-- A loop slot (R163, R167, R168): u with 12 fraction bits, the filtered measurement, the error and queue of the last
step, whether the next step takes them from its own sample, the pending command (0 none, 1 open, 2 close). -/
structure LpeSlot where
  uq : Nat
  yf : Int
  ep : Int
  qp : Nat
  first : Bool
  pend : Nat
  deriving DecidableEq, Repr

/-- LPE (R158 to R171): slots, the counts N and A of each slot since the last computed boundary, the threshold in force
for a slot whose LPE_SP was written in this period, the TARGET of slot 144 in force until the next boundary where it was
written in this period (R165), boundaries since each external measurement was written and those found stale (R171), the period in force, the last boundary, and the end of the running computation. -/
structure Lpe where
  slots : Tab LpeSlot
  n : Tab Nat
  a : Tab Nat
  thr : Tab Nat
  tgt : Option Nat
  ext : Tab Nat
  gone : List Nat
  per : Nat
  last : Nat
  busyTill : Nat
  deriving DecidableEq, Repr

end Sys2Proof.Machine
end

