-- ==== Sys2Proof/Machine/TypesZne.lean ====
section
/-! DEFINITION. The kinds of state of the Zone Engine and the media: zones, write buffers, stripes, the Husk,
SLC bodies and the stage run directory, conventional tables, blocks, rings, the erase ledger, die operations
and their pods, decodes, reconstructions and the background jobs. -/

namespace Sys2Proof.Machine

/-- Zone states of R40 and R53. -/
inductive ZState | unused | empty | iopen | eopen | closed | pending | readOnly | full | offline
  deriving DecidableEq, Repr

/-- One zone: its Zone Map entry (R40), its Body Table entry (R41; empty list: no body) and, while it is
active, its Active Zone Table entry (R64) and that entry's index, with the body reservation of R56. -/
structure Zone where
  zs : ZState
  fbc : Bool
  staged : Bool
  gen : Nat
  ns : Nat
  set : Nat
  body : List Nat
  wp : Nat
  stage : Option Nat
  epoch : Nat
  owner : Nat
  resv : Bool
  rstate : ZState
  finishPend : Bool
  copying : Bool
  azt : Option Nat
  bstripes : Nat
  send : Nat
  lastWr : Nat
  oldest : Nat
  deriving DecidableEq, Repr

/-- Whose block a write buffer holds: a zone offset, a conventional block, none yet (reserved at admission, R74), or a
staged codeword that a fold of a zone reads back (R79). -/
inductive BufOwner
  | zone (zmi off : Nat)
  | conv (ns lba ruh : Nat)
  | unassigned
  | fold (zmi : Nat)
  deriving DecidableEq, Repr

/-- A write buffer from reservation to release (R73, R74): reserved, written towards DMC, or held with its
CRC acknowledged (R29). -/
inductive BufSt | reserved | written | held
  deriving DecidableEq, Repr

/-- One write buffer: ciphertext, host metadata, namespace and generation of its key, the tenancy charged for
it, the command it serves, when it was taken, whether it was voided (R69), whether its copy lies in the stage
already, whether it failed its CRC (R340), whether a fold or a Copy filled it (R99, R123). -/
structure Buf where
  own : BufOwner
  st : BufSt
  data : Blk
  hmd : Hmd
  ns : Nat
  gen : Nat
  ten : Nat
  slot : Nat
  at_ : Nat
  void : Bool
  staging : Bool
  bad : Bool
  moved : Bool
  deriving DecidableEq, Repr

/-- States of an open stripe (R123). Closed and Degraded stripes are known by BSTRIPES and the dies. -/
inductive StripeSt | filling | committed | programming | torn
  deriving DecidableEq, Repr

/-- What a stripe belongs to: a zone body, a stage body, a conventional segment (with the pair it holds, and
whether it is a reclaim destination), the destination body of a relocation, or a row of the map journal (R182), by its slice. -/
inductive StripeOf
  | body (zmi idx : Nat)
  | stage (slcBody idx : Nat)
  | conv (slcBody idx : Nat)
  | reloc (zmi idx : Nat)
  | journal (idx : Nat)
  deriving DecidableEq, Repr

/-- One member of an open stripe: not yet posted, queued or in its pod, failed, interrupted, under
verification, or passed. -/
inductive MemberSt | idle | posted | failed | interrupted | verifying | passed
  deriving DecidableEq, Repr

/-- A member's block, state and whether it is a pad member (R82). -/
structure Member where
  blk : Nat
  st : MemberSt
  pad : Bool
  epoch : Nat
  deriving DecidableEq, Repr

/-- A codeword read from flash, or reconstructed, that a program writes elsewhere: its ciphertext and host metadata, the generation of
its key, and whether its row lost it (R78, R140, R152). -/
structure Moved where
  data : Blk
  hmd : Hmd
  gen : Nat
  lost : Bool
  deriving DecidableEq, Repr

/-- What a codeword holds beside its check bytes: DATA, and the tag's fields (R35); `lost`: it is a lost-row codeword (R152). -/
structure Cw where
  data : Blk
  hmd : Hmd
  lba : Nat
  epoch : Nat
  zone : Nat
  loc : Nat
  nsidx : Nat
  lost : Bool
  deriving DecidableEq, Repr

/-- One codeword packed in an SLC stripe (R78, R176): its place, the zone offset or conventional block it
carries, and the buffer that holds it, or the flash codeword it is moved from with what was read there. -/
structure PackCw where
  pos : Nat
  own : BufOwner
  buf : Option Nat
  src : Option Nat
  moved : Option Moved
  deriving DecidableEq, Repr

/-- An open stripe. `bg`: it carries fold, Copy, relocation or rebuild data (R99). `closed`: all its members have passed and it waits
for an earlier stripe of its body to close (R124). `src`: data read for it, by data codeword: of a relocation's source, or of a torn
stripe (R135, R233). -/
structure Stripe where
  of_ : StripeOf
  st : StripeSt
  record : Option Nat
  hseq : Nat
  members : List Member
  acked : Nat
  closing : Bool
  verify : Bool
  withdrawn : Bool
  order : Nat
  pack : List PackCw
  opened : Nat
  set : Nat
  want : Bool
  bg : Bool
  closed : Bool
  src : Tab Moved
  deriving DecidableEq, Repr

/-- A slice entry of a Husk record (R127). -/
structure SliceEntry where
  hseq : Nat
  epoch : Nat
  blk : Nat
  zone : Nat
  loc : Nat
  deriving DecidableEq, Repr

/-- A Husk record (R126, R128): close entry, slice entries by member, shelf entry. -/
structure HuskRec where
  closed : Nat
  pass : Nat
  slices : Tab SliceEntry
  shelfSeq : Nat
  pshelf : Nat
  qshelf : Nat
  deriving DecidableEq, Repr

/-- The header of a Husk copy (R128). -/
structure HuskHdr where
  valid : Bool
  copy : Nat
  isSealed : Bool
  epoch : Nat
  high : Nat
  deriving DecidableEq, Repr

/-- The Husk and its counters (R36, R129): two copies, the next HSEQ and program epoch with the ends of their
reserved blocks, used shelf slots with the codewords written to them (R132), the closing list (R125), whether both banks failed and the flush of
R131 is under way, whether the reservations lie in the table journal since (R131), whether this start-up has replayed it (R133). -/
structure Husk where
  hdr0 : HuskHdr
  hdr1 : HuskHdr
  rec0 : Tab HuskRec
  rec1 : Tab HuskRec
  hseq : Nat
  hseqResv : Nat
  epoch : Nat
  epochResv : Nat
  shelf : Tab Nat
  shelfCw : Tab Cw
  closing : Tab Nat
  noHusk : Bool
  inJournal : Bool
  replayed : Bool
  deriving DecidableEq, Repr

/-- A body that full resynchronisation examines (R136): a zone's, or an open stage body. -/
inductive BodyRef | zone (zmi : Nat) | stage (slcBody : Nat)
  deriving DecidableEq, Repr

/-- What a system block serves (R440): the parity shelf, the table journal, the key mirror. -/
inductive SysUse | shelf | journal | mirror
  deriving DecidableEq, Repr

/-- A run record of the stage run directory (R78). -/
structure Run where
  zone : Nat
  off : Nat
  len : Nat
  pos : Nat
  valid : Bool
  next : Option Nat
  deriving DecidableEq, Repr

/-- State of an SLC body (R180): the entry's STATE. -/
inductive SegSt | free | openHost | openReclaim | full | victim | stage
  deriving DecidableEq, Repr

/-- An SLC body: stage body or conventional segment (R77, R175, R180), its members, the stripes programmed
so far, and whether the power-loss reserve counts it as erased ahead (R231). -/
structure SlcBody where
  set : Nat
  members : List Nat
  st : SegSt
  valid : Nat
  seq : Nat
  ns : Nat
  ruh : Nat
  used : Nat
  ready : Bool
  deriving DecidableEq, Repr

/-- A page map entry that is not deallocated (R178): on flash at an SLC codeword index, in a buffer, or at a lost-row codeword
of a row of the Lost Row Table (by its index, 65535 where it is not listed) and a member of that row (R188). -/
inductive MapEntry
  | flash (loc : Nat)
  | buffer (ix : Nat)
  | lost (row member : Nat) (loc : Nat)
  deriving DecidableEq, Repr

/-- The Conventional Namespace Table entry (R179) with its page map. -/
structure ConvNs where
  mapBase : Nat
  nsze : Nat
  ncap : Nat
  nuse : Nat
  fdp : Bool
  set : Nat
  owner : Nat
  nruh : Nat
  kgen : Nat
  map : Tab MapEntry
  deriving DecidableEq, Repr

/-- Block States of R42. -/
inductive BlkSt | free | body | stage | conv | system | spare | retired | factory | absent
  deriving DecidableEq, Repr

/-- A Block State Table entry (R42) with the block's Read Count Table entry (R243). -/
structure BlkEnt where
  pe : Nat
  st : BlkSt
  grown : Bool
  slc : Bool
  cursor : Option Nat
  rdofs : Nat
  reads : Nat
  deriving DecidableEq, Repr

/-- A free ring entry (R229). -/
structure RingEnt where
  blk : Nat
  clean : Bool
  uncertain : Bool
  tclean : Nat
  deriving DecidableEq, Repr

/-- An erase-ledger entry (R240). -/
structure LedgerEnt where
  blk : Nat
  slc : Bool
  second : Bool
  pre : Bool
  zmi : Option Nat
  deriving DecidableEq, Repr

/-- What a block is erased for (R57, R231, R140, R146). -/
inductive EraseFor
  | zone (zmi : Nat)
  | slc (body : Nat)
  | pre
  | job (j : Nat)
  | reloc (j : Nat)
  deriving DecidableEq, Repr

/-- Steps of an erase (R238). -/
inductive EraseSt | ledger | erasing | checking | clearing | verified
  deriving DecidableEq, Repr

/-- A block on its way through the erase sequence of R238. -/
structure EraseJob where
  blk : Nat
  for_ : EraseFor
  st : EraseSt
  second : Bool
  entry : Nat
  left : Nat
  deriving DecidableEq, Repr

/-- Kinds of die operation (R201): reads, programs, erases, the read-offset set apply of class 7, and the
firmware-issued classes 6 and 8 to 15. -/
inductive OpKind | read | program | erase | offset | other
  deriving DecidableEq, Repr

/-- What a die operation is for. -/
inductive Purpose
  | host (slot : Nat)
  | helper (recon : Nat) (member : Nat)
  | prog (stripe member : Nat)
  | verify (stripe member : Nat)
  | fold (zmi : Nat)
  | collect
  | erase (blk : Nat)
  | check (blk : Nat)
  | scrub (blk : Nat) (again : Bool)
  | job (j : Nat)
  | jobHelper (j member : Nat)
  | jobProg (j : Nat)
  | jobVerify (j : Nat)
  | move (j : Nat)
  | offset (set : Nat)
  | direct (opc : Nat)
  | sweep (ns lba : Nat)
  deriving DecidableEq, Repr

/-- A die operation (R95 to R99, R200): scheduler class, kind, block, slice, codewords (with the LBA or offset
each serves), tenancy and set accounts charged, source flags, ladder step of its reads, its times, the read-offset set it read at,
and the codewords that step 4 served meanwhile (R107, R114). -/
structure DieOp where
  id : Nat
  cls : Nat
  kind : OpKind
  slc : Bool
  blk : Nat
  slice : Nat
  cws : List (Nat × Nat)
  purpose : Purpose
  ten : Nat
  helper : Bool
  bg : Bool
  lad : Nat
  suspends : Nat
  queued : Nat
  start : Nat
  ran : Nat
  late : Bool
  reissued : Bool
  granted : Bool
  row : List Nat
  own : StripeOf
  counted : Bool
  again : Bool
  rset : Option Nat
  gone : List Nat
  deriving DecidableEq, Repr

/-- A pod (R96, R196, R200, R208): the operation, its descriptor words, context and resume address, when it is
due, its pending abort and suspend request, and whether its
park delay has run out. -/
structure Pod where
  op : DieOp
  desc : List W32
  ctx : List W32
  fresh : Bool
  resumed : Bool
  resume : Nat
  due : Option Nat
  sw : Bool
  parked : Bool
  abort : Bool
  suspReq : Bool
  hand : Bool
  abortAt : Nat
  suspAt : Nat
  suspLate : Bool
  ripe : Bool
  deriving DecidableEq, Repr

/-- A die of a channel (R96, R98, R101, R142): queues (first in, first out within a class), its two pods,
scheduling counts, recent expiries and suspect entries, failed LUN resets in a row, suspect deadline, whether
rebuild was started, the block a guarded confirm last latched. `rebuilt`: members its rebuild was started for (R154). -/
structure Die where
  queue : List DieOp
  active : Option Pod
  susp : Option Pod
  urgRun : Nat
  readSince : Option Nat
  rdSusp : Nat
  heldSince : Nat
  wantResume : Bool
  expiries : List Nat
  entries : List Nat
  resetFails : Nat
  suspectSince : Nat
  rdset : Nat
  rebuilt : Nat
  deriving DecidableEq, Repr

/-- A DONE on its way to ZNE (R210): the operation, code and detail. -/
structure Done where
  die : Nat
  op : DieOp
  code : Nat
  detail : Nat
  lateBy : Nat
  deriving DecidableEq, Repr

/-- A codeword in LDC (R110): the operation that read it, its index in the slice and what it serves. -/
structure Decode where
  op : DieOp
  cw : Nat
  tag : Nat
  dbl : Bool
  deriving DecidableEq, Repr

/-- What became of one member of a row under reconstruction (R106, R122, R150). -/
inductive RowMember
  | pending
  | got (data : Blk) (hmd : Hmd)
  | hard
  | soft
  deriving DecidableEq, Repr

/-- Whom a reconstruction serves: a block of a host read (degraded or as read-around or step 4), a fold's
staged codeword, or a background job. -/
inductive ReconFor
  | host (slot lba : Nat)
  | fold (zmi off : Nat)
  | collect (loc : Nat)
  | job (j cw : Nat)
  | move (j at_ : Nat)
  | sweep (ns lba : Nat)
  deriving DecidableEq, Repr

/-- A reconstruction in PQE (R106 to R108): the row it reads, the target member, the members read, whether the
target's own read may still serve, whether it is a read-around, degraded, or waits for scratch. -/
structure Recon where
  for_ : ReconFor
  own : StripeOf
  row : List Nat
  slice : Nat
  cw : Nat
  slc : Bool
  target : Nat
  members : Tab RowMember
  around : Bool
  degraded : Bool
  racing : Bool
  failed : Bool
  waiting : Bool
  cls : Nat
  ten : Nat
  crcRetry : Bool
  deriving DecidableEq, Repr

/-- Why a member is moved to another block. -/
inductive JobKind | subst | rebuild
  deriving DecidableEq, Repr

/-- Where a member job stands; `slice`: its next slice job has not started (R147). -/
inductive JobSt | wait | erase | slice | copy | program | verify | deferred
  deriving DecidableEq, Repr

/-- A member substitution (R140) or rebuild (R146): the body it works on (a zone or an SLC body), the member,
old and new blocks, slices done and wanted, the stripe waiting for it, the codewords of the slice under way (copied or reconstructed:
by codeword × 32 + 31; of a helper: + its member), the epoch of that slice's program. -/
structure MJob where
  kind : JobKind
  zmi : Nat
  slcBody : Option Nat
  member : Nat
  old : Nat
  new_ : Option Nat
  done : Nat
  upto : Nat
  stripe : Option Nat
  st : JobSt
  set : Nat
  left : Nat
  bad : Tab Nat
  restart : Bool
  got : Tab Moved
  epoch : Nat
  deriving DecidableEq, Repr

/-- A relocation of a Full zone's body for wear or refresh (R232, R245), with what it read of the stripe under way, by data codeword. -/
structure Reloc where
  zmi : Nat
  refresh : Bool
  dest : List Nat
  stripe : Nat
  st : JobSt
  old : Nat
  left : Nat
  got : Tab Moved
  deriving DecidableEq, Repr

/-- A Lost Row Table entry (R153), and whether the SLC body it lies in has been erased since. -/
structure LostRow where
  zmi : Nat
  stripe : Nat
  row : Nat
  members : Nat
  slc : Bool
  gone : Bool
  deriving DecidableEq, Repr

/-- A rank set, NVM Set and Endurance Group (R48, R185, R232, R247): its ranks, rotor, conventional share,
whether reclaim runs and conventional Writes are held, usable spare at formation, critical warnings already given. -/
structure RankSet where
  ranks : Nat
  rotor : Nat
  conv : Nat
  reclaim : Bool
  stalled : Bool
  spare0 : Nat
  spareLow : Bool
  rowLost : Bool
  readOnly : Bool
  fdp : Bool
  bgtok : Nat
  deriving DecidableEq, Repr

/-- A defect list entry (R237). -/
structure Defect where
  blk : Nat
  whole : Bool
  kind : Nat
  pe : Nat
  deriving DecidableEq, Repr

/-- The selected flash profile: the values of R225 that no register holds, and geometry values of R224. -/
structure Profile where
  valid : Bool
  name : Nat
  rdofs0 : Nat
  nrdofs : Nat
  readLimit : Nat
  verifyBer : Nat
  bDie : Nat
  layers : Nat
  featAdr : Nat
  density : Nat
  ldpcLen : Nat
  deriving DecidableEq, Repr

/-- Everything ZNE, PQE and LDC hold beside registers: tables, buffers, stripes, blocks, dies and jobs. -/
structure Zne where
  zones : Tab Zone
  pend : Tab (List Nat)
  bufs : Tab Buf
  outBufs : List Nat
  stripes : Tab Stripe
  openStage : Tab Nat
  openConv : Tab Nat
  husk : Husk
  srd : Tab (List Run)
  slc : Tab SlcBody
  openSeg : Tab Nat
  conv : Tab ConvNs
  mapDirty : List Nat
  mapUndo : Tab (Option MapEntry)
  blks : Tab BlkEnt
  rings : Tab (List RingEnt)
  released : List Nat
  ledger : Tab LedgerEnt
  erases : Tab EraseJob
  dies : Tab Die
  deadRec : Tab Nat
  sysUse : Tab SysUse
  dones : List Done
  decodes : Tab Decode
  recons : Tab Recon
  jobs : Tab MJob
  relocs : Tab Reloc
  lost : Tab LostRow
  lostGen : Nat
  lostFull : Bool
  unlisted : List (Nat × Nat × Nat × Bool)
  sets : Tab RankSet
  refreshQ : List Nat
  visits : Tab Nat
  defects : List Defect
  defGen : Nat
  profile : Profile
  tenTok : Tab Nat
  setTok : Tab Nat
  rbBytes : List (Nat × Nat)
  scrubAt : Nat
  hwm : Nat
  nextId : Nat
  fillSeq : Nat
  deriving DecidableEq, Repr

end Sys2Proof.Machine
end

