-- ==== Sys2Proof/Machine/State.lean ====
section
/-! DEFINITION. The state of the part, the reasons a step can stop, and the state after a cold reset. -/

namespace Sys2Proof.Machine

/-- The state of the part.

`pending`: commands that wait, first in, first out. `now`: the Marrow timestamp in ns. `csr`: register words by island × 2^20 +
offset; one that is not listed is at its Reset value (R8 to R10). `latch`, `shadow`: high words latched and low words held by requester (R13).
`mem`: bytes of the map of R26 by address, unlisted ones 0. `straps`, `pins`: R420 to R422. `xb`: whether the part is graded XB
(R412). `cores`, `fab`, `traps`: cores, the fabric, traps taken. `resp`: the last value each requester read. `evr`, `mgt`: the event
recorder and the rest of MGT. `mram`, `dram`: memories. `power`: Marrow. `zne`: zones, stripes and flash. `hif`: host interface.
`sec`: keys. `lpe`: the latency governor. `seqs`: Kazino sequencers by channel. `boot`: boot and attestation. `casc`: the cascade
and the management bus. `free`: how many free values have been drawn (the model's own, assumption 5). -/
structure State where
  pending : List Instr
  now : Nat
  csr : Tab W64
  latch : Tab W32
  shadow : Tab W32
  mem : List Host.Cell
  straps : Straps
  pins : Pins
  xb : Bool
  cores : Cores
  fab : Fab
  traps : List Trap
  resp : Tab W64
  evr : Recorder
  mgt : Mgt
  mram : Mram
  dram : Dram
  power : Power
  zne : Zne
  hif : Hif
  sec : Sec
  lpe : Lpe
  seqs : Tab Seq
  boot : Boot
  casc : Casc
  free : Nat
  deriving DecidableEq, Repr

/-- Why a step faults: it never does; an access the part turns down is a trap in the state. Nothing raises one. -/
inductive Fault
  deriving DecidableEq, Repr

/-- Why a step refuses a command. -/
inductive Refusal
  /-- The command has no meaning in this model. No arm raises it; it would be safe. -/
  | notModelled (mnemonic : String)
  deriving DecidableEq, Repr

/-- A link test that never ran. -/
def LinkTest.none : LinkTest := ⟨0, 0, 0, 0, 0, 0, 0, 0, 0, 0, .none, false, []⟩

/-- MGT after power-on: the TAP selects IDCODE (R414). -/
def Mgt.reset : Mgt := ⟨[], [], [], [], 1, 0, LinkTest.none, none⟩

/-- The recorder of a part that has recorded nothing. -/
def Recorder.reset : Recorder := ⟨[], [], [], [], [], 0, none, 0, false, [], [], [], [], [], [], 0, none⟩

/-- A Husk that no formation has written; the first HSEQ is 1, since 0 marks an entry never used (R127). -/
def Husk.reset : Husk := ⟨⟨false, 0, false, 0, 0⟩, ⟨false, 0, false, 0, 0⟩, [], [], 1, 1, 0, 0, [], [], [], false, false, false⟩

/-- ZNE before the first formation: no tables, no profile. -/
def Zne.reset : Zne where
  zones := []
  pend := []
  bufs := []
  outBufs := []
  stripes := []
  openStage := []
  openConv := []
  husk := Husk.reset
  srd := []
  slc := []
  openSeg := []
  conv := []
  mapDirty := []
  mapUndo := []
  blks := []
  rings := []
  released := []
  ledger := []
  erases := []
  dies := []
  deadRec := []
  sysUse := []
  dones := []
  decodes := []
  recons := []
  jobs := []
  relocs := []
  lost := []
  lostGen := 0
  lostFull := false
  unlisted := []
  sets := []
  refreshQ := []
  visits := []
  defects := []
  defGen := 0
  profile := ⟨false, 0, 0, 0, 0, 0, 0, 0, 0, 0, 0⟩
  tenTok := []
  setTok := []
  rbBytes := []
  scrubAt := 0
  hwm := 0
  nextId := 0
  fillSeq := 0

/-- HIF without queues, namespaces or tenancies but the owner's, which holds every rank set and key slot (R289). -/
def Hif.reset : Hif where
  ports := []
  fns := []
  slots := []
  hazards := []
  nss := []
  tens := [(0, ⟨0xFFFF, 3824⟩)]
  starved := []
  held := []
  lastFn := []
  order := 0
  cpls := []
  ints := []
  activation := none
  forming := false
  stopAll := false
  wrblk := []
  ure := []
  devFeats := []
  subnqn := 0
  fdpEvents := []
  peeks := []
  nmWait := []
  formAt := none
  formBy := none
  formReq := false
  partition := []
  smart := []

/-- SEC with the keys it derives at reset (R300). -/
def Sec.reset : Sec :=
  ⟨[(0, kdf 0 0), (1, kdf 1 0), (2, kdf 2 0)], [], [], [], 0, [], [], 0, [], [], [], [], none, 0, [], []⟩

/-- Boot state of a part whose OTP holds nothing. -/
def Boot.reset : Boot := ⟨⟨[], [], 0, 0, 0⟩, none, [], none, none, [], [], [], 0, false, none, []⟩

/-- The cascade of a node that was never admitted to one. -/
def Casc.reset : Casc := ⟨0, none, [], [], false, [], [], [], none, false, [], 0, [], false, 0, false, [], false⟩

/-- The state right after a cold reset (R10) with every strap 0, the device wrap key, root key and seal key derived (R300), before
core 0 starts Sprout; no command waits. -/
def State.reset : State where
  pending := []
  now := 0
  csr := [(0x301000, 10), (0x301004, 10), (0x301008, 10)]
  latch := []
  shadow := []
  mem := []
  straps := ⟨0, 0, 0⟩
  pins := ⟨true, true, true, false, false, false, false⟩
  xb := false
  cores := ⟨BitVec.allOnes 32 <<< 1, [], []⟩
  fab := ⟨[], 0, []⟩
  traps := []
  resp := []
  evr := Recorder.reset
  mgt := Mgt.reset
  mram := ⟨[], [], [], none, false⟩
  dram := ⟨[], [], [], [], 0, []⟩
  power := ⟨false, false, 0, 0, [], none, false, false, 0⟩
  zne := Zne.reset
  hif := Hif.reset
  sec := Sec.reset
  lpe := ⟨[], [], [], [], none, [], [], 100, 0, 0⟩
  seqs := []
  boot := Boot.reset
  casc := Casc.reset
  free := 0

end Sys2Proof.Machine
end

