-- ==== Sys2Proof/Machine/Ops.lean ====
section
/-! DEFINITION. The named operations over the state that every command shares: register words and fields,
memory bytes and regions, traps, events, free values. -/

namespace Sys2Proof.Machine

/-! ### Registers -/

/-- The largest x of at most b bits with x ^ n ≤ v. -/
def rootFrom (n v : Nat) : Nat → Nat → Nat
  | 0, x => x
  | b + 1, x => if (x + 2 ^ b) ^ n ≤ v then rootFrom n v b (x + 2 ^ b) else rootFrom n v b x

/-- Histogram edge k: floor(8,000 × 2^(12 (k − 1) / 62)) ns (R118). -/
def binEdge (k : Nat) : Nat := if k = 0 then 0 else rootFrom 62 (8000 ^ 62 * 2 ^ (12 * (k - 1))) 26 0

/-- First island index of an island's kind (R17 ISL_ID.KIND). -/
def islKind (n : Nat) : Nat :=
  if n < 0x0A then n else if n < 0x0C then 0x0A else if n < 0x0E then 0x0C else if n < 0x10 then 0x0E
  else if n < 0x30 then 0x10 else 0x30

/-- Rail limits of R408: LO and HI of each rail in mV. -/
def railLimits : List (Nat × Nat) :=
  [(620, 880), (760, 840), (1710, 1890), (1140, 1260), (1045, 1155), (807, 893), (855, 945)]

/-- The Reset value of a register word: the sum of its fields' Reset values, but for the registers whose
Reset value differs by island, index or slot (R17, R62, R118, R173, R259, R274, R408). -/
def regResetAt (d : RegDef) (isl i : Nat) : Nat :=
  let base := d.fields.foldl (fun a f => a + f.reset * 2 ^ f.lo) 0
  match d.id with
  | .ISL_ID => isl + islKind isl * 2 ^ 8 + (isl - islKind isl) * 2 ^ 16 + 0x21 * 2 ^ 24
  | .ZNE_TZQ | .HIF_TCRED => if i = 0 then base else 0
  | .LPE_BINEDGE => binEdge i
  | .MGT_VLIM => match railLimits[i]? with
    | some (lo, hi) => lo + hi * 2 ^ 12
    | none => 0
  | .HIF_FNMAP => base + i
  | .HIF_PORTSTAT => if isl = 0x0C then base + 4 else base
  | .LPE_SP => base - bits base 16 16 * 2 ^ 16 +
      (if i < 144 then 3 else if i = 144 then 0x5F00 else if i = 145 then 0x7FFF else 0) * 2 ^ 16
  | .LPE_SAFE => base - bits base 0 16 + (if i < 144 then 0x40 else if i < 146 then 0x8000 else 0)
  | .LPE_FFG => base - bits base 24 5 * 2 ^ 24 +
      (if i < 128 then 0 else if i < 144 then i - 128 else if i = 144 then 0x10 else if i = 145 then 0x11 else 0)
        * 2 ^ 24
  | _ => base

/-- The element and the byte within it that an offset of an island names in a register. -/
def regIndex (d : RegDef) (isl off : Nat) : Option (Nat × Nat) :=
  if d.islLo ≤ isl ∧ isl ≤ d.islHi ∧ d.off ≤ off then
    let st := if d.stride = 0 then (if d.wide then 8 else 4) else d.stride
    let i := (off - d.off) / st
    let sub := (off - d.off) % st
    if i < d.count ∧ (sub = 0 ∨ (d.wide = true ∧ sub = 4)) then some (i, sub) else none
  else none

/-- The register an offset of an island lies in: its definition, element and byte within the element. -/
def regFindIn (isl off : Nat) : List RegDef → Option (RegDef × Nat × Nat)
  | [] => none
  | d :: ds =>
    match regIndex d isl off with
    | some (i, sub) => some (d, i, sub)
    | none => regFindIn isl off ds

/-- The register at a key (island × 0x10_0000 + offset). -/
def regFind (key : Nat) : Option (RegDef × Nat × Nat) :=
  regFindIn (key / 0x100000) (key % 0x100000) RegTable.all

/-- The Reset value of the register found at a key; 0 where none lies (R12). -/
def resetWordOf (key : Nat) : Option (RegDef × Nat × Nat) → W64
  | some (d, i, _) => BitVec.ofNat 64 (regResetAt d (key / 0x100000) i)
  | none => 0

/-- The Reset value of the register word at a key. -/
def resetWord (key : Nat) : W64 := resetWordOf key (regFind key)

/-- The current value of a register: an unlisted register holds its Reset value (R10). -/
def State.word (s : State) (key : Nat) : W64 :=
  match Tab.find s.csr key with
  | some w => w
  | none => resetWord key

/-- Hardware sets a whole register. -/
def State.setWord (s : State) (key : Nat) (w : W64) : State := { s with csr := Tab.set s.csr key w }

/-- Value of a field. -/
def State.fld (s : State) (f : Fld) : Nat := (s.word f.addr).toNat >>> f.lo % 2 ^ f.w

/-- The mask of a field. -/
def fldMask (f : Fld) : W64 := BitVec.ofNat 64 ((2 ^ f.w - 1) <<< f.lo)

/-- A register word with one field replaced. -/
def fldPut (f : Fld) (w : W64) (v : Nat) : W64 :=
  (w &&& ~~~fldMask f) ||| BitVec.ofNat 64 ((v % 2 ^ f.w) <<< f.lo)

/-- Hardware sets one field. -/
def State.setFld (s : State) (f : Fld) (v : Nat) : State := s.setWord f.addr (fldPut f (s.word f.addr) v)

/-- A field as a flag. -/
def State.flag (s : State) (f : Fld) : Bool := s.fld f != 0

/-- A counter field rises by n (00_scope: the counters do not wrap within service life). -/
def State.bump (s : State) (f : Fld) (n : Nat := 1) : State := s.setFld f (s.fld f + n)

/-- A saturating counter field rises by n. -/
def State.bumpSat (s : State) (f : Fld) (n : Nat := 1) : State := s.setFld f (min (s.fld f + n) (2 ^ f.w - 1))

/-- A counter field falls by n, at most to 0. -/
def State.drop (s : State) (f : Fld) (n : Nat := 1) : State := s.setFld f (s.fld f - n)

/-! ### Memory (R26) -/

/-- A byte of memory; an unlisted byte reads 0 (assumption 2). -/
def Memory.read (m : List Host.Cell) (a : Nat) : Byte := Tab.getD m a 0

/-- Write a byte, keeping the canonical form: a byte equal to an unlisted one is not listed. -/
def Memory.write (m : List Host.Cell) (a : Nat) (b : Byte) : List Host.Cell :=
  if b = 0 then Tab.erase m a else Tab.set m a b

/-- The canonical form: addresses strictly rising and no listed byte 0. -/
def Memory.wf : List Host.Cell → Bool
  | [] => true
  | [(_, b)] => b != 0
  | (a, b) :: (a', b') :: m => b != 0 && decide (a < a') && Memory.wf ((a', b') :: m)

/-- Write bytes from an address up. -/
def Memory.writeBytes (m : List Host.Cell) (a : Nat) : List Byte → List Host.Cell
  | [] => m
  | b :: bs => Memory.writeBytes (Memory.write m a b) (a + 1) bs

/-- Read n bytes from an address up. -/
def Memory.readBytes (m : List Host.Cell) (a : Nat) : Nat → List Byte
  | 0 => []
  | n + 1 => Memory.read m a :: Memory.readBytes m (a + 1) n

/-- Little-endian read of n bytes (00_scope, Numbers). -/
def Memory.readNat (m : List Host.Cell) (a n : Nat) : Nat := ofLe (Memory.readBytes m a n)

/-- Little-endian write of n bytes. -/
def Memory.writeNat (m : List Host.Cell) (a n v : Nat) : List Host.Cell := Memory.writeBytes m a (leBytes n v)

/-- Forget the bytes from lo up to hi: they read as unlisted ones. -/
def Memory.clear (m : List Host.Cell) (lo hi : Nat) : List Host.Cell :=
  m.filter fun c => c.1 < lo || hi ≤ c.1

/-- Store bytes in memory. -/
def State.store (s : State) (a : Nat) (bs : List Byte) : State := { s with mem := Memory.writeBytes s.mem a bs }

/-- Regions of the firmware address map (R26). -/
inductive Region | rom | itcm | dtcm | sram | mram | ret | csr | dram | outside
  deriving DecidableEq, Repr

/-- DRAM bytes that a DMC_CFG pair describes (R335), 0 where the pair is no row of R335. -/
def dramRow (a b : Nat) : Nat :=
  -- low four bits: SUBA, SUBB, RANKS, DENS
  match a % 16, b % 16 with
  | 0b0001, 0b0000 => 8 * 2 ^ 30
  | 0b0001, 0b0001 => 16 * 2 ^ 30
  | 0b0011, 0b0011 => 32 * 2 ^ 30
  | 0b1001, 0b1001 => 32 * 2 ^ 30
  | 0b1011, 0b1011 => 64 * 2 ^ 30
  | 0b0111, 0b0111 => 64 * 2 ^ 30
  | _, _ => 0

/-- The populated DRAM size: 0 until both DMC_CFG are locked (R336). -/
def State.dramSize (s : State) : Nat :=
  if s.flag (F.DMC_CFG_LOCK 0) && s.flag (F.DMC_CFG_LOCK 1) then
    dramRow (s.word (R.DMC_CFG 0)).toNat (s.word (R.DMC_CFG 1)).toNat
  else 0

/-- The region an address lies in (R26). -/
def State.region (s : State) (a : Nat) : Region :=
  if a < 0x40000 then .rom
  else if 0x08000000 ≤ a ∧ a < 0x08010000 then .itcm
  else if 0x08010000 ≤ a ∧ a < 0x08020000 then .dtcm
  else if 0x10000000 ≤ a ∧ a < 0x10800000 then .sram
  else if 0x20000000 ≤ a ∧ a < 0x22000000 then .mram
  else if 0x30000000 ≤ a ∧ a < 0x30180000 then .ret
  else if 0x0100000000 ≤ a ∧ a < 0x010B000000 then .csr
  else if 0x1000000000 ≤ a ∧ a < 0x1000000000 + s.dramSize then .dram
  else .outside

/-- Address of a core's own TCM byte in the map: another core's TCM appears in the window of CPUnn, so both
views name one byte (R27). -/
def tcmAddr (core : Nat) (dtcm : Bool) (off : Nat) : Nat :=
  0x0100000000 + (0x10 + core) * 0x100000 + (if dtcm then 0x90000 else 0x80000) + off

/-- A core takes an access-fault trap. -/
def State.trap (s : State) (core : Nat) (k : TrapKind) (addr : Nat) : State :=
  { s with traps := s.traps ++ [⟨core, k, addr⟩] }

/-- The value a requester's read returned. -/
def State.answer (s : State) (q : Requester) (w : W64) : State := { s with resp := Tab.set s.resp q.index w }

/-! ### Power gating -/

/-- An island is power-gated: every island but Marrow in DEEP (R354). -/
def State.gated (s : State) (isl : Nat) : Bool := s.fld F.AON_PSSTAT_CUR == 3 && isl != 0

/-! ### Events (R398) -/

/-- Event IDs of severity Warning, Error and Fault in the event tables of R90, R120, R154, R174, R194, R223,
R250, R269, R297, R315, R334, R353, R379, R397, R416. -/
def warnIds : List Nat :=
  [0x0102, 0x0106, 0x0107, 0x0111, 0x0112, 0x0201, 0x0203, 0x0301, 0x0304, 0x0305, 0x030A, 0x030B, 0x0401,
   0x0403, 0x0404, 0x0407, 0x0409, 0x040A, 0x040C, 0x0503, 0x0504, 0x0506, 0x0602, 0x0605, 0x0607, 0x0608,
   0x0702, 0x0704, 0x0706, 0x070B, 0x0801, 0x0806, 0x0902, 0x0903, 0x0905, 0x0907, 0x0909, 0x090B, 0x0A02,
   0x0A07, 0x0A0A, 0x0A0C, 0x0A0F, 0x0A10, 0x0A12, 0x0B04]

@[inherit_doc warnIds] def errorIds : List Nat :=
  [0x0103, 0x0104, 0x0105, 0x0108, 0x0205, 0x0206, 0x0207, 0x0302, 0x0306, 0x0307, 0x0309, 0x0408, 0x040B,
   0x0440, 0x0441, 0x0501, 0x0603, 0x0606, 0x0705, 0x0707, 0x0709, 0x070A, 0x070C, 0x0802, 0x0803, 0x0805,
   0x0807, 0x0808, 0x0809, 0x0904, 0x0906, 0x0908, 0x090C, 0x0A03, 0x0A05, 0x0A06, 0x0A08, 0x0A09, 0x0B02]

/-- Severity of an event: 1 Info, 2 Warning, 3 Error, 4 Fault; a microcode event by its ID (R398). -/
def sevOf (id : Nat) : Nat :=
  if id = 0x0A0D ∨ id = 0x0A0E then 4
  else if 0x0460 ≤ id ∧ id ≤ 0x047F then 1 + (id - 0x0460) / 8
  else if id ∈ errorIds then 3
  else if id ∈ warnIds then 2
  else 1

/-- Payload items packed as little-endian bit fields in order: value and number of bits. -/
def packBits : List (Nat × Nat) → Nat × Nat
  | [] => (0, 0)
  | (w, v) :: is => (v % 2 ^ w + (packBits is).1 * 2 ^ w, w + (packBits is).2)

/-- Drops counted for a cause in the current window, and in MGT_EVDROP (R402). -/
def State.dropEvents (s : State) (cause n : Nat) : State :=
  { s.bump F.MGT_EVDROP_COUNT n with
    evr := { s.evr with drops := Tab.set s.evr.drops cause (Tab.getD s.evr.drops cause 0 + n) } }

/-- An event with a severity of its own goes on its way to MGT. While MGT is power-gated, Marrow holds at most
16 of its own records and drops the others (R400). -/
def State.postEvent (s : State) (e : Event) : State :=
  if s.gated 2 then
    if s.evr.held.length < 16 then { s with evr := { s.evr with held := s.evr.held ++ [e] } }
    else s.dropEvents 2 1
  else { s with evr := { s.evr with transit := s.evr.transit ++ [e] } }

/-- A source island posts an event: TS is stamped at the source (R398, R399). -/
def State.post (s : State) (src id : Nat) (items : List (Nat × Nat)) (ten : Nat := 0xFF) : State :=
  s.postEvent ⟨s.now, id, src, sevOf id, ten, (packBits items).1, (packBits items).2⟩

/-! ### Free values -/

/-- Draw a value the spec leaves open (assumption 5). -/
def State.drawFree (s : State) : Nat × State := (Config.freeNat s.free, { s with free := s.free + 1 })

/-- Draw the outcome of an arbitration (R20). -/
def State.drawBool (s : State) : Bool × State := (Config.freeBool s.free, { s with free := s.free + 1 })

end Sys2Proof.Machine
end

