-- ==== Sys2Proof/Machine/Parity.lean ====
section
/-! DEFINITION. Parity arithmetic over GF(2^8) with polynomial 0x11D (R121) and the reconstruction of a stripe
row with at most two erased members (R122), byte position by byte position. -/

namespace Sys2Proof.Machine

/-- Multiplication by g = 0x02: a shift, reduced by 0x11D (R121). -/
def gfX (x : Byte) : Byte := if x.msb then (x <<< 1) ^^^ 0x1D else x <<< 1

/-- The terms of a product: x · g^i for each set bit i of the low n bits of y. -/
def gfTerms (x : Byte) : Nat → Nat → Byte
  | 0, _ => 0
  | n + 1, y => (if y % 2 = 1 then x else 0) ^^^ gfTerms (gfX x) n (y / 2)

/-- Product in GF(2^8). -/
def gfMul (x y : Byte) : Byte := gfTerms x 8 y.toNat

/-- The element g^i. -/
def gfPow : Nat → Byte
  | 0 => 1
  | n + 1 => gfX (gfPow n)

/-- x raised to a power by squaring a fixed number of times: the inverse is x^254. -/
def gfInv (x : Byte) : Byte :=
  let x2 := gfMul x x
  let x4 := gfMul x2 x2
  let x8 := gfMul x4 x4
  let x16 := gfMul x8 x8
  let x32 := gfMul x16 x16
  let x64 := gfMul x32 x32
  let x128 := gfMul x64 x64
  gfMul x2 (gfMul x4 (gfMul x8 (gfMul x16 (gfMul x32 (gfMul x64 x128)))))

/-- Quotient in GF(2^8) by a non-zero divisor. -/
def gfDiv (x y : Byte) : Byte := gfMul x (gfInv y)

/-- P of data members at one byte position, from member i up (R121). -/
def parityP (d : Nat → Byte) : Nat → Nat → Byte
  | 0, _ => 0
  | n + 1, i => d i ^^^ parityP d n (i + 1)

/-- Q of data members at one byte position, from member i up (R121). -/
def parityQ (d : Nat → Byte) : Nat → Nat → Byte
  | 0, _ => 0
  | n + 1, i => gfMul (gfPow i) (d i) ^^^ parityQ d n (i + 1)

/-- The 18 members of a row at one byte position: 16 data members, P and Q (R121). -/
def rowByte (d : Nat → Byte) (m : Nat) : Byte :=
  if m < 16 then d m else if m = 16 then parityP d 16 0 else parityQ d 16 0

/-- Data members with the erased ones left out of the syndromes. -/
def without (s : Nat → Byte) (a : Nat) (b : Option Nat) (i : Nat) : Byte :=
  if i = a ∨ some i = b then 0 else s i

/-- Reconstruction of R122 at one byte position: a is the lower erased member, b the higher or none, and
`readable16` says whether P may be used when only one data member is erased. The result is the value of a and,
where two members are erased, of b. -/
def reconstruct (s : Nat → Byte) (a : Nat) (b : Option Nat) (readable16 : Bool) : Byte × Byte :=
  let pp := parityP (without s a b) 16 0
  let qq := parityQ (without s a b) 16 0
  match b with
  | none =>
    if a = 16 then (pp, 0)
    else if a = 17 then (qq, 0)
    else if readable16 then (pp ^^^ s 16, 0)
    else (gfDiv (qq ^^^ s 17) (gfPow a), 0)
  | some b =>
    if a < 16 ∧ b < 16 then
      let pp := pp ^^^ s 16
      let qq := qq ^^^ s 17
      let da := gfDiv (qq ^^^ gfMul (gfPow b) pp) (gfPow a ^^^ gfPow b)
      (da, pp ^^^ da)
    else if a < 16 ∧ b = 16 then
      let da := gfDiv (qq ^^^ s 17) (gfPow a)
      (da, pp ^^^ da)
    else if a < 16 then
      let da := pp ^^^ s 16
      (da, qq ^^^ gfMul (gfPow a) da)
    else (pp, qq)

/-- The 4,112 protected bytes of a codeword: DATA, then the tag's HMD (R121). -/
def protectedBytes (d : Blk) (h : Hmd) : List Byte := leBytes 4096 d.toNat ++ leBytes 16 h.toNat

/-- DATA and HMD of 4,112 protected bytes. -/
def unprotected (bs : List Byte) : Blk × Hmd :=
  (BitVec.ofNat 32768 (ofLe (bs.take 4096)), BitVec.ofNat 128 (ofLe (bs.drop 4096)))

/-- The codeword of the lower erased member of a row (R122), over all its protected bytes: `row m` is the
protected bytes of a readable member. -/
def reconstructRow (row : Nat → List Byte) (a : Nat) (b : Option Nat) (readable16 : Bool) : List Byte :=
  (List.range 4112).map fun k =>
    (reconstruct (fun m => (row m).getD k 0) a b readable16).1

end Sys2Proof.Machine
end

