-- ==== Sys2Proof/Machine/Aes.lean ====
section
/-! DEFINITION. The ciphers the named standards take (R4): AES-256 of FIPS 197, AES-XTS-256 of IEEE 1619 over one logical block (R306),
and AES-256-GCM (R302, R303). -/

namespace Sys2Proof.Machine

/-! ### The field of AES -/

/-- Times x in the field of AES. -/
def aesX (a : Byte) : Byte := if a.getLsbD 7 then a <<< 1 ^^^ 0x1B else a <<< 1

/-- The product of two field elements, over the low `n` bits of the first. -/
def aesMulN : Nat → Byte → Byte → Byte
  | 0, _, _ => 0
  | n + 1, a, b => (if a.getLsbD 0 then b else 0) ^^^ aesMulN n (a >>> 1) (aesX b)

/-- The product of two field elements. -/
def aesMul (a b : Byte) : Byte := aesMulN 8 a b

/-- The inverse of an element, its 254th power; 0 of 0. -/
def aesInv (a : Byte) : Byte :=
  let p2 := aesMul a a
  let p4 := aesMul p2 p2
  let p8 := aesMul p4 p4
  let p16 := aesMul p8 p8
  let p32 := aesMul p16 p16
  let p64 := aesMul p32 p32
  aesMul (aesMul (aesMul p2 p4) (aesMul p8 p16)) (aesMul (aesMul p32 p64) (aesMul p64 p64))

/-- SBOX: the affine map of the inverse. -/
def aesSub (a : Byte) : Byte :=
  let i := aesInv a
  i ^^^ i.rotateLeft 1 ^^^ i.rotateLeft 2 ^^^ i.rotateLeft 3 ^^^ i.rotateLeft 4 ^^^ 0x63

/-- The inverse of SBOX. -/
def aesSubInv (a : Byte) : Byte := aesInv (a.rotateLeft 1 ^^^ a.rotateLeft 3 ^^^ a.rotateLeft 6 ^^^ 0x05)

/-! ### The cipher: 16 bytes, byte r + 4c in row r of column c -/

/-- A row's bytes turned by `k` columns for each row. -/
def aesRows (k : Nat) (s : List Byte) : List Byte := (List.range 16).map fun i => s.getD ((i + 4 * k * (i % 4)) % 16) 0

/-- Each column times the polynomial whose coefficients these are. -/
def aesCols (m : List Byte) (s : List Byte) : List Byte :=
  (List.range 16).map fun i =>
    ((List.range 4).map fun j => aesMul (m.getD ((4 + j - i % 4) % 4) 0) (s.getD (i / 4 * 4 + j) 0)).foldl (· ^^^ ·) 0

/-- The next word of the key schedule, `i` its number: from the word before and the one eight before. -/
def aesNextWord (i : Nat) (prev back : List Byte) : List Byte :=
  let x := if i % 8 = 0 then
      xorBytes ((prev.drop 1 ++ prev.take 1).map aesSub) [(1 : Byte) <<< (i / 8 - 1), 0, 0, 0]
    else if i % 8 = 4 then prev.map aesSub else prev
  xorBytes back x

/-- The key schedule of 60 words, from the 32 bytes of a key. -/
def aesSchedule (key : List Byte) : List (List Byte) :=
  (List.range' 8 52).foldl (fun ws i => ws ++ [aesNextWord i (ws.getD (i - 1) []) (ws.getD (i - 8) [])]) (pieces 4 8 key)

/-- The fifteen round keys of a key. -/
def aesRoundKeys (key : List Byte) : List (List Byte) := (pieces 4 15 (aesSchedule key)).map List.flatten

/-- One block under the round keys. -/
def aesEnc (ks : List (List Byte)) (b : List Byte) : List Byte :=
  let s := ((ks.drop 1).take 13).foldl
    (fun s k => xorBytes k (aesCols [2, 3, 1, 1] (aesRows 1 (s.map aesSub)))) (xorBytes (ks.getD 0 []) b)
  xorBytes (ks.getD 14 []) (aesRows 1 (s.map aesSub))

/-- The inverse of `aesEnc`. -/
def aesDec (ks : List (List Byte)) (b : List Byte) : List Byte :=
  let s := ((ks.drop 1).take 13).reverse.foldl
    (fun s k => aesCols [14, 11, 13, 9] (xorBytes k ((aesRows 3 s).map aesSubInv))) (xorBytes (ks.getD 14 []) b)
  xorBytes (ks.getD 0 []) ((aesRows 3 s).map aesSubInv)

/-! ### XTS (R306) -/

/-- The tweak of the next block: times alpha, the bytes little-endian. -/
def xtsNext (t : Nat) : Nat :=
  if t < 2 ^ 127 then 2 * t else (2 * t - 2 ^ 128) ^^^ 0x87

/-- The cipher over 16-byte blocks, each between its tweak before and after. -/
def xtsBlocks (f : List Byte → List Byte) : List (List Byte) → Nat → List (List Byte)
  | [], _ => []
  | b :: bs, t =>
    let x := leBytes 16 t
    xorBytes x (f (xorBytes x b)) :: xtsBlocks f bs (xtsNext t)

/-- One logical block through XTS: key bytes 0 to 31 cipher the data, bytes 32 to 63 the tweak, a 128-bit little-endian LBA. -/
def xtsRun (f : List (List Byte) → List Byte → List Byte) (key : BitVec 512) (tweak : Nat) (d : Blk) : Blk :=
  let k := leBytes 64 key.toNat
  let t := ofLe (aesEnc (aesRoundKeys (k.drop 32)) (leBytes 16 tweak))
  BitVec.ofNat 32768 (ofLe (xtsBlocks (f (aesRoundKeys (k.take 32))) (pieces 16 256 (leBytes 4096 d.toNat)) t).flatten)

/-- AES-XTS-256 encryption of a logical block (R306). -/
@[irreducible] def xtsEnc (key : BitVec 512) (tweak : Nat) (d : Blk) : Blk := xtsRun aesEnc key tweak d

/-- AES-XTS-256 decryption of a logical block (R306). -/
@[irreducible] def xtsDec (key : BitVec 512) (tweak : Nat) (d : Blk) : Blk := xtsRun aesDec key tweak d

/-! ### GCM (R302, R303): blocks as 128-bit numbers, the first byte highest -/

/-- Times x in the field of GHASH, whose first bit is the lowest power. -/
def ghashX (v : BitVec 128) : BitVec 128 :=
  if v.getLsbD 0 then v >>> 1 ^^^ (0xE1 : BitVec 128) <<< 120 else v >>> 1

/-- The product in the field of GHASH, over the `n` lowest of the first factor's bits not yet taken, from bit n - 1 down. -/
def ghashMul : Nat → BitVec 128 → BitVec 128 → BitVec 128
  | 0, _, _ => 0
  | n + 1, x, v => (if x.getLsbD n then v else 0) ^^^ ghashMul n x (ghashX v)

/-- Bytes in blocks of 16, the last filled with zeros. -/
def blocks16 (bs : List Byte) : List (BitVec 128) :=
  (pieces 16 ((bs.length + 15) / 16) bs).map fun b => BitVec.ofNat 128 (ofBe (b ++ List.replicate (16 - b.length) 0))

/-- The hash of additional data and cipher text under H. -/
def ghash (h : BitVec 128) (aad ct : List Byte) : BitVec 128 :=
  (blocks16 aad ++ blocks16 ct ++ [BitVec.ofNat 128 (8 * aad.length * 2 ^ 64 + 8 * ct.length)]).foldl
    (fun y x => ghashMul 128 (y ^^^ x) h) 0

/-- The key stream of `n` bytes from counter 2 on. -/
def gcmStream (ks : List (List Byte)) (nonce : List Byte) (n : Nat) : List Byte :=
  (((List.range ((n + 15) / 16)).map fun i => aesEnc ks (nonce ++ beBytes 4 (i + 2))).flatten).take n

/-- The tag of additional data and cipher text. -/
def gcmTag (ks : List (List Byte)) (nonce aad ct : List Byte) : List Byte :=
  let h := BitVec.ofNat 128 (ofBe (aesEnc ks (List.replicate 16 0)))
  xorBytes (aesEnc ks (nonce ++ beBytes 4 1)) (beBytes 16 (ghash h aad ct).toNat)

/-- AES-256-GCM encryption: the cipher text, then the 16 bytes of the tag. The key is the low 256 bits; the nonce's 12 bytes are Key ID and
counter as the blob holds them (R303, R304, assumption 34). -/
@[irreducible] def gcmEnc (key : BitVec 512) (nonce : Nat) (aad pt : List Byte) : List Byte :=
  let ks := aesRoundKeys (leBytes 32 key.toNat)
  let iv := leBytes 12 nonce
  let ct := xorBytes pt (gcmStream ks iv pt.length)
  ct ++ gcmTag ks iv aad ct

/-- AES-256-GCM decryption of cipher text and tag: the plain text where the tag is right, else none. -/
@[irreducible] def gcmDec (key : BitVec 512) (nonce : Nat) (aad ctTag : List Byte) : Option (List Byte) :=
  let ks := aesRoundKeys (leBytes 32 key.toNat)
  let iv := leBytes 12 nonce
  let ct := ctTag.take (ctTag.length - 16)
  if gcmTag ks iv aad ct = ctTag.drop (ctTag.length - 16) then some (xorBytes ct (gcmStream ks iv ct.length)) else none

end Sys2Proof.Machine
end

