-- ==== Sys2Proof/Machine/Geometry.lean ====
section
/-! DEFINITION. Geometry (R32 to R49): slices, stripes and zones from ZNE_GEOM, block addresses, the location
of a zone offset, and the block shares of a rank set. -/

namespace Sys2Proof.Machine

/-- Change what ZNE holds. -/
def State.zn (s : State) (f : Zne → Zne) : State := { s with zne := f s.zne }

/-- Change what HIF holds. -/
def State.hf (s : State) (f : Hif → Hif) : State := { s with hif := f s.hif }

/-- Slice S in bytes (R45 SLICE). -/
def State.sliceBytes (s : State) : Nat := 65536 * 2 ^ s.fld F.ZNE_GEOM_SLICE

/-- B_user in bytes (R45 BLOCK). -/
def State.blockBytes (s : State) : Nat := 0x1000000 * 2 ^ s.fld F.ZNE_GEOM_BLOCK

/-- Codewords per slice (R38). -/
def State.cps (s : State) : Nat := s.sliceBytes / 4096

/-- LBAs per stripe (R38). -/
def State.lps (s : State) : Nat := s.sliceBytes / 4096 * 16

/-- Z_LBA (R38). -/
def State.zLba (s : State) : Nat := 16 * s.blockBytes / 4096

/-- Stripes per body (R37). -/
def State.spb (s : State) : Nat := s.blockBytes / s.sliceBytes

/-- Codewords of a stage slice: 4 per plane (R77). -/
def State.stageCps (s : State) : Nat := 4 * 2 ^ s.fld F.ZNE_GEOM_PLANES

/-- Data codewords of an SLC stripe (R77). -/
def State.stageLps (s : State) : Nat := 16 * s.stageCps

/-- Stripes of an SLC body (R77). -/
def State.stageSpb (s : State) : Nat := s.blockBytes / 4 / (s.stageCps * 4096)

/-- Data codewords of a conventional segment (R177, W). -/
def State.segCws (s : State) : Nat := s.stageSpb * s.stageLps

/-- User data of a stage body in bytes (R248). -/
def State.stageBodyBytes (s : State) : Nat := s.segCws * 4096

/-- Channel of a block address (R39). -/
def blkChan (b : Nat) : Nat := bits b 0 7

/-- Rank of a block address (R39). -/
def blkRank (b : Nat) : Nat := bits b 7 4

/-- Block within the die of a block address (R39). -/
def blkIdx (b : Nat) : Nat := bits b 11 14

/-- Die index of a block address: channel × 16 + rank (R142). -/
def blkDie (b : Nat) : Nat := blkChan b * 16 + blkRank b

/-- A block address from its parts (R39). -/
def mkBlk (chan rank idx : Nat) : Nat := chan + rank * 2 ^ 7 + idx * 2 ^ 11

/-- Stripe of a zone offset (R38). -/
def State.offStripe (s : State) (o : Nat) : Nat := o / s.lps

/-- Data member of a zone offset (R38). -/
def State.offMember (s : State) (o : Nat) : Nat := o % s.lps / s.cps

/-- Codeword in the slice, and stripe row, of a zone offset (R38). -/
def State.offCw (s : State) (o : Nat) : Nat := o % s.cps

/-- Block shares of N blocks (R46): zones, SLC-mode pool, system, spare. -/
def shares (n : Nat) : Nat × Nat × Nat × Nat :=
  let z := 13 * n / 256
  (z, n / 64, n / 1024, n - 18 * z - n / 64 - n / 1024)

/-- Populated dies of a rank mask over C channels. -/
def State.setBlocks (s : State) (ranks : Nat) : Nat :=
  s.fld F.ZNE_GEOM_CHANNELS * popcount 16 ranks * s.zne.profile.bDie

/-- An empty rank set. -/
def RankSet.empty : RankSet := ⟨0, 0, 0, false, false, 0, false, false, false, false, 0⟩

/-- Rank set n, counted from 0 (NVM Set n + 1). -/
def State.rset (s : State) (n : Nat) : RankSet := Tab.getD s.zne.sets n RankSet.empty

/-- Free conventional segments of a rank set: its share less the segments in use (R175, R180). -/
def State.freeSegs (s : State) (set : Nat) : Nat :=
  (s.rset set).conv - (s.zne.slc.filter fun e => e.2.set = set && e.2.st != .stage).length

/-- The rank set that holds a rank (R48). -/
def State.setOfRank (s : State) (rank : Nat) : Nat :=
  match s.zne.sets.find? (fun e => bit e.2.ranks rank) with
  | some e => e.1
  | none => 0

/-- The rank set of a block. -/
def State.setOfBlk (s : State) (b : Nat) : Nat := s.setOfRank (blkRank b)

/-- Whether a die is populated (R142). -/
def State.populated (s : State) (die : Nat) : Bool :=
  decide (die / 16 < s.fld F.ZNE_GEOM_CHANNELS) && decide (die % 16 < s.fld F.ZNE_GEOM_DPC)

/-- The Block State Table entry of an absent block (R42). -/
def BlkEnt.absent : BlkEnt := ⟨0, .absent, false, false, none, 0, 0⟩

/-- The Block State Table entry of a block; entries not held read as absent (R42). -/
def State.blk (s : State) (b : Nat) : BlkEnt := Tab.getD s.zne.blks b BlkEnt.absent

/-- Change a block's entry. -/
def State.modBlk (s : State) (b : Nat) (f : BlkEnt → BlkEnt) : State :=
  { s with zne := { s.zne with blks := Tab.set s.zne.blks b (f (s.blk b)) } }

/-- A die that holds nothing. -/
def Die.empty : Die := ⟨[], none, none, 0, none, 0, 0, false, [], [], 0, 0, 0, 0⟩

/-- A die. -/
def State.die (s : State) (d : Nat) : Die := Tab.getD s.zne.dies d Die.empty

/-- Change a die. -/
def State.modDie (s : State) (d : Nat) (f : Die → Die) : State :=
  { s with zne := { s.zne with dies := Tab.set s.zne.dies d (f (s.die d)) } }

/-- Health of a die: 0 healthy, 1 suspect, 2 retired, 3 failed (R142). -/
def State.health (s : State) (d : Nat) : Nat := s.fld (F.ZNE_DHS_STATE d)

/-- A die that serves nothing: retired or failed (R143). -/
def State.deadDie (s : State) (d : Nat) : Bool := decide (2 ≤ s.health d)

/-- A flash channel's link test runs: every die of the channel is unreadable for its duration (R412). -/
def State.chanTested (s : State) (chan : Nat) : Bool :=
  s.mgt.test.st = .running && s.mgt.test.link == 4 && s.mgt.test.inst == chan

/-- A die whose data is reached only by reconstruction: retired, failed, or on a channel under test (R108, R143, R412). -/
def State.unreadable (s : State) (d : Nat) : Bool := s.deadDie d || s.chanTested (d / 16)

/-- ZNE holds a channel's new descriptors: the geometry is locked and the channel's sequencer is stopped, faulted or told to stop (R198,
R222). -/
def State.chanHeld (s : State) (n : Nat) : Bool :=
  s.flag F.ZNE_GEOM_LOCK &&
    (s.flag (F.CH_SEQCTL_STOP n) || s.fld (F.CH_SEQSTAT_STATE n) == 0 || s.fld (F.CH_SEQSTAT_STATE n) == 3)

/-- A die that a read goes around at once: an unreadable one, or one whose channel is held (R108, R222). -/
def State.avoided (s : State) (d : Nat) : Bool := s.unreadable d || s.chanHeld (d / 16)

/-- An unused zone entry (R40). -/
def Zone.unused : Zone :=
  ⟨.unused, false, false, 0, 0, 0, [], 0, none, 0, 0, false, .empty, false, false, none, 0, 0, 0, 0⟩

/-- A zone by its Zone Map index. -/
def State.zone (s : State) (z : Nat) : Zone := Tab.getD s.zne.zones z Zone.unused

/-- Change a zone. -/
def State.modZone (s : State) (z : Nat) (f : Zone → Zone) : State :=
  { s with zne := { s.zne with zones := Tab.set s.zne.zones z (f (s.zone z)) } }

/-- The state a zone reports: body-pending reports RSTATE (R53). -/
def Zone.reported (z : Zone) : ZState := if z.zs = .pending then z.rstate else z.zs

/-- A zone is active (R53). -/
def Zone.active (z : Zone) : Bool := z.zs ∈ [.iopen, .eopen, .closed, .pending]

/-- A zone is open (R53). -/
def Zone.isOpen (z : Zone) : Bool := z.reported ∈ [.iopen, .eopen]

/-- The next number of a kind shared by operations, stripes, decodes, reconstructions and jobs. -/
def State.fresh (s : State) : Nat × State :=
  (s.zne.nextId, { s with zne := { s.zne with nextId := s.zne.nextId + 1 } })

/-- Tenancy named in an event about a zone (R90): its owner. -/
def State.zoneTen (s : State) (z : Nat) : Nat := (s.zone z).owner

/-- ZNE posts an event. -/
def State.znePost (s : State) (id : Nat) (items : List (Nat × Nat)) (ten : Nat := 0xFF) : State :=
  s.post 0x08 id items ten

/-! ### DRAM -/

/-- First byte of DRAM. -/
def dramBase : Nat := 0x1000000000

/-- Populated subchannels. -/
def State.subchans (s : State) : Nat :=
  popcount 2 (s.word (R.DMC_CFG 0)).toNat + popcount 2 (s.word (R.DMC_CFG 1)).toNat

/-- Subchannel of an address: DMC0 A, DMC1 A, DMC0 B, DMC1 B (R336). -/
def State.subchan (s : State) (a : Nat) : Nat := a / 256 % max 1 s.subchans

/-- A correction updates the Correctable Error Table of its subchannel: the line's entry, an empty one, or the one with the lowest
COUNT (R344). A correction counts 1. -/
def ceUpdate (t : List CeEntry) (e : CeEntry) : List CeEntry :=
  if t.any fun x => x.addr == e.addr then
    t.map fun x => if x.addr = e.addr then { x with syms := max x.syms e.syms, count := min (x.count + e.count) 0xFFFF, ts := e.ts } else x
  else if t.length < 32 then t ++ [e]
  else
    match minBy (fun x => x.count * 2 ^ 32 + x.ts) t with
    | some y => t.map fun x => if x = y then e else x
    | none => t

/-! ### Ports (R21, R22) -/

/-- The island whose port serves an address of shared memory (R21, R26): FAB its SRAM, MRM the MRAM, Marrow the retention SRAM, a DMC
the subchannels it has. -/
def State.servedBy (s : State) (a : Nat) : Option Nat :=
  match s.region a with
  | .sram => some 0x01
  | .mram => some 0x04
  | .ret => some 0x00
  | .dram => some (0x0A + s.subchan a % 2)
  | _ => none

/-- Accesses to an island's memory end in error: its port is isolated (R22), it is power-gated (R23), or it is a DMC on its RC
oscillator, whose DDR5 PHY is then in reset (R15; that such an access ends in error is assumption 52). -/
def State.portDown (s : State) (isl : Nat) : Bool :=
  s.gated isl || s.fab.isolated.contains isl || ((isl == 0x0A || isl == 0x0B) && !s.flag (F.ISL_CLKSTAT_SRCACT isl))

/-- An access to an address ends in error at the island that serves it. -/
def State.blocked (s : State) (a : Nat) : Bool := (s.servedBy a).any s.portDown

end Sys2Proof.Machine
end

