-- ==== Sys2Proof/Machine/MramBase.lean ====
section
/-! DEFINITION. MRM's start-gap rotation (R351): every write to a wear-levelled MRAM region counts, and after every 100
the gap moves. -/

namespace Sys2Proof.Machine

/-- Logical words of a wear-levelled region (R349, R350, R351): 0 Husk copy 0, 1 event store, 2 config, 3 Husk copy 1,
4 config mirror. -/
def sgWords (r : Nat) : Nat :=
  match r with
  | 0 => 131072
  | 1 => 65536
  | 2 => 32768
  | 3 => 131072
  | _ => 8192

/-- The MRAM bank of a wear-levelled region (R349). -/
def sgBank (r : Nat) : Nat := if r < 3 then 2 else 3

/-- A region never written: START 0, the gap above its last word. -/
def sgInit (r : Nat) : StartGap := ⟨0, sgWords r, 0, 0⟩

/-- A region's start-gap state. -/
def State.sg (s : State) (r : Nat) : StartGap := Tab.getD s.mram.sg r (sgInit r)

/-- Physical word of a logical word (R351). -/
def sgPhys (g : StartGap) (words x : Nat) : Nat :=
  let p := (x + g.start) % words
  if g.gap ≤ p then p + 1 else p

/-- The gap moves down one word; when it passes physical word 0 it comes in above the last word and START rises
(R351). Each move appends one record to the region's metadata ring. -/
def sgMove (words : Nat) (g : StartGap) : StartGap :=
  if g.gap = 0 then ⟨(g.start + 1) % words, words, 0, g.ring + 1⟩
  else ⟨g.start, g.gap - 1, 0, g.ring + 1⟩

/-- START_GAP_ADVANCE: one more write to a region; after every 100 the gap moves (R351). -/
def sgStep (words : Nat) (g : StartGap) : StartGap :=
  if g.writes + 1 = 100 then sgMove words g else { g with writes := g.writes + 1 }

/-- n word writes to a wear-levelled region. A failed bank takes no writes (R349, R352). -/
def State.sgWrite (s : State) (r : Nat) : Nat → State
  | 0 => s
  | n + 1 =>
    let s := if bit (s.fld F.MRM_BANKSTAT_FAILED) (sgBank r) then s
      else { s with mram := { s.mram with sg := Tab.set s.mram.sg r (sgStep (sgWords r) (s.sg r)) } }
    s.sgWrite r n

/-- One word write to the config region, and to its mirror where the record is mirrored (R350). -/
def State.cfgWrite (s : State) (mirrored : Bool := true) : State :=
  let s := s.sgWrite 2 1
  if mirrored then s.sgWrite 4 1 else s

/-- MRM posts an event. -/
def State.mrmPost (s : State) (id : Nat) (items : List (Nat × Nat)) : State := s.post 0x04 id items

end Sys2Proof.Machine
end

