-- ==== Sys2Proof/Machine/Cipher.lean ====
section
/-! DEFINITION. Media keys: key slots and their attributes, wrapped records and nonce counters (R301 to R305), the
key of a namespace generation and the XTS owner check (R306 to R308), generations, rollover and retirement
(R309, R310). -/

namespace Sys2Proof.Machine

/-- Change what SEC and XTS hold. -/
def State.sc (s : State) (f : Sec → Sec) : State := { s with sec := f s.sec }

/-- SEC posts an event. -/
def State.secPost (s : State) (id : Nat) (items : List (Nat × Nat)) (ten : Nat := 0xFF) : State :=
  s.post 0x03 id items ten

/-! ### Key slots -/

/-- A slot becomes empty and its expanded key leaves the XTS cache (R302 ZERO, R307). -/
def State.zeroSlot (s : State) (k : Nat) : State :=
  (s.setWord (R.SEC_KSATTR k) 0).sc fun x => { x with keys := Tab.erase x.keys k, cache := x.cache.filter (· != k) }

/-- A slot takes a key with attributes. -/
def State.loadSlot (s : State) (k kind ten nsidx gen : Nat) (key : BitVec 512) : State :=
  (s.setWord (R.SEC_KSATTR k) (BitVec.ofNat 64 (1 + kind % 4 * 4 + ten % 128 * 16 + nsidx % 1024 * 2 ^ 11 +
    gen % 256 * 2 ^ 21))).sc fun x => { x with keys := Tab.set x.keys k key }

/-- Whether the halves of a media key are equal (R300). -/
def halvesEqual (k : BitVec 512) : Bool := k.toNat % 2 ^ 256 == k.toNat / 2 ^ 256

/-- Draw a media key, discarding draws with equal halves (R300). -/
def State.drawMedia (s : State) : Nat → BitVec 512 × State
  | 0 => (Config.drbg s.sec.draws, s.sc fun x => { x with draws := x.draws + 1 })
  | n + 1 =>
    let k := Config.drbg s.sec.draws
    let s := s.sc fun x => { x with draws := x.draws + 1 }
    if halvesEqual k then s.drawMedia n else (k, s)

/-- Draw a 256-bit wrap key. -/
def State.drawWrap (s : State) : BitVec 512 × State :=
  (BitVec.ofNat 512 ((Config.drbg s.sec.draws).toNat % 2 ^ 256), s.sc fun x => { x with draws := x.draws + 1 })

/-- GEN: fill a slot from the key DRBG (R302); the data unit count of a media slot starts at 0 (R308). -/
def State.genKey (s : State) (k kind ten nsidx gen : Nat) : State :=
  let (key, s) := if kind = 1 then s.drawMedia 8 else s.drawWrap
  let s := if kind = 1 then
      (s.setWord (R.XTS_DUC k) 0).sc fun x => { x with ducResv := Tab.erase x.ducResv k }
    else s
  s.loadSlot k kind ten nsidx gen key

/-- A free media slot for a tenancy within its KSQ (R301); the owner has no descriptor limit but the pool's. -/
def State.freeMediaSlot (s : State) (ten : Nat) : Option Nat :=
  let held := (s.sec.keys.filter fun e => decide (0x110 ≤ e.1) && s.fld (F.SEC_KSATTR_TEN e.1) == ten).length
  let ksq := match Tab.find s.hif.tens ten with
    | some t => t.ksq
    | none => 0
  let k := Tab.firstFree s.sec.keys 0x110
  if held < ksq ∧ k < 0x1000 then some k else none

/-- Free media slots a tenancy has left in its KSQ. -/
def State.mediaLeft (s : State) (ten : Nat) : Nat :=
  (match Tab.find s.hif.tens ten with | some t => t.ksq | none => 0) -
    (s.sec.keys.filter fun e => decide (0x110 ≤ e.1) && s.fld (F.SEC_KSATTR_TEN e.1) == ten).length

/-! ### Wrapping -/

/-- The Key ID of a wrapping key: its name and rotation number (R304). -/
def State.keyId (s : State) (kek : Nat) : Nat :=
  (if kek = 0x001 ∨ kek = 0x003 then 0 else s.fld (F.SEC_KSATTR_TEN kek) + 1) % 256 +
    Tab.getD s.sec.rot kek 0 % 2 ^ 24 * 2 ^ 8

/-- A wrapping key has an invocation left (R305). -/
def State.hasInvocation (s : State) (kek : Nat) : Bool := decide (Tab.getD s.sec.ctr kek 0 + 1 < 2 ^ 32)

/-- One invocation of a wrapping key: its counter value, reserved in blocks of 4,096 (R304). -/
def State.useCounter (s : State) (kek : Nat) : Nat × State :=
  let c := Tab.getD s.sec.ctr kek 0
  let s := if Tab.getD s.sec.resv kek 0 ≤ c then s.cfgWrite else s
  (c, s.sc fun x => { x with
    ctr := Tab.set x.ctr kek (c + 1),
    resv := if Tab.getD x.resv kek 0 ≤ c then Tab.set x.resv kek (c + 4096) else x.resv })

/-- Take exactly n bytes of a list, with zeros beyond its end. -/
def takePad (n : Nat) (bs : List Byte) : List Byte := (bs ++ List.replicate n 0).take n

/-- The 32 header bytes of a wrapped key blob (R303). -/
def State.blobHeader (s : State) (slot kek ctr : Nat) : List Byte :=
  let media := s.fld (F.SEC_KSATTR_KIND slot) = 1
  leBytes 4 0x4B574E4F ++ leBytes 2 slot ++ leBytes 1 (b2n media) ++ leBytes 1 (s.fld (F.SEC_KSATTR_TEN slot)) ++
  leBytes 2 (if media then s.fld (F.SEC_KSATTR_NSIDX slot) else 0xFFFF) ++
  leBytes 1 (if media then s.fld (F.SEC_KSATTR_GEN slot) else 0) ++ leBytes 1 0 ++
  leBytes 4 (s.keyId kek) ++ leBytes 8 ctr ++ leBytes 8 0

/-- The nonce of an invocation: the 32-bit Key ID, then the 64-bit counter (R304). -/
def State.nonce (s : State) (kek ctr : Nat) : Nat := s.keyId kek + ctr * 2 ^ 32

/-- WRAP: the 128-byte blob of a slot's key under a wrapping key (R303). -/
def State.wrapBlob (s : State) (slot kek : Nat) : List Byte × State :=
  let (c, s) := s.useCounter kek
  let h := s.blobHeader slot kek c
  let k := Tab.getD s.sec.keys kek 0
  (h ++ takePad 80 (gcmEnc k (s.nonce kek c) h (leBytes 64 (Tab.getD s.sec.keys slot 0).toNat)) ++
    leBytes 16 0, s)

/-- The wrapping key of a tenancy's media keys: its TWK (R300). -/
def State.twkOf (s : State) (ten : Nat) : Nat := Tab.getD s.sec.twk ten 0x001

/-- One invocation writes a slot's wrapped record and both mirror copies (R303). -/
def State.wrapUnder (s : State) (slot kek : Nat) : State :=
  let (b, s) := s.wrapBlob slot kek
  s.sc fun x => { x with records := Tab.set x.records slot b, mirror := Tab.set x.mirror slot b }

/-- Overwrite a slot's record with zeros, in the region and its mirror (R312 step 4, R309 erase_records). -/
def State.eraseRecord (s : State) (slot : Nat) : State :=
  s.sc fun x => { x with records := Tab.erase x.records slot, mirror := Tab.erase x.mirror slot }

/-- Rotate a wrapping key whose counter nears its limit (R305): a successor, every record under it wrapped anew,
the mirror rewritten, the old key zeroed. -/
def State.rotateKek (s : State) (kek : Nat) : State :=
  let ten := s.fld (F.SEC_KSATTR_TEN kek)
  let dwk := kek = 0x001
  let oldId := s.keyId kek
  let rotn := Tab.getD s.sec.rot kek 0 + 1
  let succ := if dwk then 0x003 else Tab.firstFree s.sec.keys 0x010
  if dwk = false ∧ 0x110 ≤ succ then s
  else
    let s := if dwk then s.sc fun x => { x with keys := Tab.set x.keys 0x003 (kdf 1 (x.epoch + 1)) }
      else s.genKey succ 0 ten 0 0
    let s := s.sc fun x => { x with
      rot := Tab.set x.rot succ rotn, ctr := Tab.erase x.ctr succ,
      resv := Tab.erase x.resv succ }
    let under := Tab.keys (Tab.keep s.sec.records fun k _ =>
      if dwk then decide (k < 0x110) else decide (0x110 ≤ k) && s.fld (F.SEC_KSATTR_TEN k) == ten)
    let s := under.foldl (fun s k => if k = kek then s else s.wrapUnder k succ) s
    let s := if dwk then
        s.sc fun x => { x with
          keys := Tab.erase (Tab.set x.keys 0x001 (kdf 1 (x.epoch + 1))) 0x003,
          ctr := Tab.set x.ctr 0x001 (Tab.getD x.ctr 0x003 0),
          resv := Tab.set x.resv 0x001 (Tab.getD x.resv 0x003 0),
          rot := Tab.erase (Tab.set x.rot 0x001 rotn) 0x003,
          epoch := x.epoch + 1 }
      else
        ((s.wrapUnder succ 0x001).zeroSlot kek).eraseRecord kek |>.sc fun x =>
          { x with twk := Tab.set x.twk ten succ }
    s.secPost 0x0708 [(32, oldId), (32, s.keyId (if dwk then 0x001 else succ))] (if dwk then 0xFF else ten)

/-- After an invocation, rotate a wrapping key at 2^32 − 65,536 (R305). -/
def State.rotateDue (s : State) (kek : Nat) : State :=
  if 2 ^ 32 - 65536 ≤ Tab.getD s.sec.ctr kek 0 then s.rotateKek kek else s

/-- Wrap a slot's record under a key (R303), which is rotated when its counter asks for it (R305). -/
def State.wrapRecord (s : State) (slot kek : Nat) : State := (s.wrapUnder slot kek).rotateDue kek

/-! ### Generations (R309, R310) -/

/-- Set a namespace's current generation (XTS_NSK). -/
def State.setCur (s : State) (n slot gen ten : Nat) : State :=
  let s := s.setFld (F.XTS_NSK_CURSLOT n) slot
  let s := s.setFld (F.XTS_NSK_CURGEN n) gen
  let s := s.setFld (F.XTS_NSK_CURV n) 1
  s.setFld (F.XTS_NSK_TEN n) ten

/-- A namespace is conventional. -/
def State.isConv (s : State) (n : Nat) : Bool :=
  match Tab.find s.hif.nss n with
  | some x => x.conv
  | none => false

/-- An old generation retires: its key is zeroed and its record erased, with event 0x0703 (R309, R315). -/
def State.retireKey (s : State) (n : Nat) : State :=
  let k := s.fld (F.XTS_NSK_OLDSLOT n)
  let s := ((s.zeroSlot k).eraseRecord k).setFld (F.XTS_NSK_OLDV n) 0
  s.znePost 0x0703 [(10, n), (8, s.fld (F.XTS_NSK_OLDGEN n))] (s.fld (F.XTS_NSK_TEN n))

/-- try_roll (R309): roll a namespace that is due, or leave it pending; an old generation that no zone references
retires at once (R310). While the key DRBG refuses, the rollover waits (R314); with banks 2 and 3 of MRAM failed there is no new key (R350). -/
def State.tryRoll (s : State) (n : Nat) : State :=
  if !s.flag (F.ZNE_KGREF_DUE n) || s.flag F.SEC_TRNGSTAT_KEYBLK then s
  else
    let ten := s.fld (F.XTS_NSK_TEN n)
    let gone := bit (s.fld F.MRM_BANKSTAT_FAILED) 2 && bit (s.fld F.MRM_BANKSTAT_FAILED) 3
    let free := if s.flag (F.XTS_NSK_OLDV n) || gone then none else s.freeMediaSlot ten
    match free with
    | none =>
      if s.flag (F.ZNE_KGREF_PEND n) then s
      else (s.setFld (F.ZNE_KGREF_PEND n) 1).znePost 0x0702
        [(10, n), (21, s.fld (F.ZNE_KGREF_OLDREF n)), (16, s.mediaLeft ten)] ten
    | some k =>
      let gen := (s.fld (F.XTS_NSK_CURGEN n) + 1) % 256
      let s := (s.genKey k 1 ten n gen).wrapRecord k (s.twkOf ten)
      let s := s.setFld (F.XTS_NSK_OLDSLOT n) (s.fld (F.XTS_NSK_CURSLOT n))
      let s := s.setFld (F.XTS_NSK_OLDGEN n) (s.fld (F.XTS_NSK_CURGEN n))
      let s := (s.setFld (F.XTS_NSK_OLDV n) 1).setCur n k gen ten
      let s := s.zn fun z => { z with conv := Tab.adjust z.conv n fun c => { c with kgen := gen } }
      let s := s.setFld (F.ZNE_KGREF_OLDREF n) (s.fld (F.ZNE_KGREF_CURREF n))
      let s := (s.setFld (F.ZNE_KGREF_CURREF n) 0).setFld (F.ZNE_KGREF_DUE n) 0
      let s := s.setFld (F.ZNE_KGREF_PEND n) 0
      let s := if s.isConv n then
          (s.setFld (F.ZNE_KGREF_SWEEP n) 1).sc fun x => { x with sweepAt := Tab.set x.sweepAt n 0 }
        else s
      let s := s.znePost 0x0701 [(10, n), (8, gen), (21, s.fld (F.ZNE_KGREF_OLDREF n))] ten
      if s.fld (F.ZNE_KGREF_OLDREF n) = 0 ∧ s.isConv n = false then s.retireKey n else s

/-- retire_old (R309): the old generation retires, and a waiting rollover is tried. -/
def State.retireOld (s : State) (n : Nat) : State :=
  if s.flag (F.XTS_NSK_OLDV n) then (s.retireKey n).tryRoll n else s

/-- A zone binds the current generation when it leaves Empty (R54, R309). -/
def State.bindGen (s : State) (zmi : Nat) : State :=
  let n := (s.zone zmi).ns
  (s.modZone zmi fun z => { z with gen := s.fld (F.XTS_NSK_CURGEN n) }).bump (F.ZNE_KGREF_CURREF n)

/-- A zone releases its generation (R310); the old one retires at OLDREF 0. -/
def State.unbindGen (s : State) (zmi : Nat) : State :=
  let z := s.zone zmi
  let n := z.ns
  if z.gen = s.fld (F.XTS_NSK_CURGEN n) then s.drop (F.ZNE_KGREF_CURREF n)
  else
    let s := s.drop (F.ZNE_KGREF_OLDREF n)
    if s.fld (F.ZNE_KGREF_OLDREF n) = 0 ∧ s.isConv n = false then s.retireOld n else s

/-- Step 9 of R66: the namespace's generations allow another zone to leave Empty. -/
def State.genAllows (s : State) (n : Nat) : Bool := !s.flag (F.ZNE_KGREF_PEND n) && s.flag (F.XTS_NSK_CURV n)

/-! ### XTS (R306 to R308) -/

/-- The slot of a namespace's generation, from XTS_NSK (R308). -/
def State.slotOf (s : State) (n gen : Nat) : Option Nat :=
  if s.flag (F.XTS_NSK_CURV n) ∧ s.fld (F.XTS_NSK_CURGEN n) = gen then some (s.fld (F.XTS_NSK_CURSLOT n))
  else if s.flag (F.XTS_NSK_OLDV n) ∧ s.fld (F.XTS_NSK_OLDGEN n) = gen then some (s.fld (F.XTS_NSK_OLDSLOT n))
  else none

/-- The owner check of R308. -/
def State.ownerCheck (s : State) (k ten n gen : Nat) : Bool :=
  s.fld (F.SEC_KSATTR_STATE k) == 1 && s.fld (F.SEC_KSATTR_KIND k) == 1 && s.fld (F.SEC_KSATTR_TEN k) == ten &&
  s.fld (F.SEC_KSATTR_NSIDX k) == n && s.fld (F.SEC_KSATTR_GEN k) == gen

/-- The key XTS uses for a data unit, or none with event 0x0705 when the owner check fails (R308). The cache
keeps at most 256 expanded keys (R307). -/
def State.mediaKey (s : State) (n gen ten : Nat) : Option (BitVec 512) × State :=
  match s.slotOf n gen with
  | some k =>
    if s.ownerCheck k ten n gen then
      (some (Tab.getD s.sec.keys k 0), s.sc fun x => { x with cache := ((k :: x.cache.filter (· != k)).take 256) })
    else (none, s.post 0x05 0x0705 [(12, k), (7, ten), (10, n)] ten)
  | none => (none, s.post 0x05 0x0705 [(12, 0), (7, ten), (10, n)] ten)

/-- on_encrypt (R309): the slot's data unit count rises, reserved in blocks of 2^24 (R308), and a namespace whose
current key nears its limit becomes due and is rolled. -/
def State.onEncrypt (s : State) (n gen : Nat) : State :=
  match s.slotOf n gen with
  | none => s
  | some k =>
    let s := s.bump (F.XTS_DUC_COUNT k)
    let c := s.fld (F.XTS_DUC_COUNT k)
    let s := if Tab.getD s.sec.ducResv k 0 < c then
        s.cfgWrite.sc fun x => { x with ducResv := Tab.set x.ducResv k (Tab.getD x.ducResv k 0 + 2 ^ 24) }
      else s
    if k = s.fld (F.XTS_NSK_CURSLOT n) ∧ 2 ^ s.fld F.XTS_CFG_LIMEXP - 2 ^ 31 ≤ c then
      (s.setFld (F.ZNE_KGREF_DUE n) 1).tryRoll n
    else s

/-- A conventional namespace at its generation limit refuses writes (R309). -/
def State.convRefuses (s : State) (n : Nat) : Bool :=
  decide (2 ^ s.fld F.XTS_CFG_LIMEXP ≤ s.fld (F.XTS_DUC_COUNT (s.fld (F.XTS_NSK_CURSLOT n))))

/-- Encrypt one logical block under a namespace's generation (R306); none where the owner check fails. -/
def State.encryptBlk (s : State) (n gen ten lba : Nat) (d : Blk) : Option Blk × State :=
  match s.mediaKey n gen ten with
  | (some k, s) => (some (xtsEnc k lba d), s.onEncrypt n gen)
  | (none, s) => (none, s)

/-- Decrypt one logical block; none where the owner check fails. -/
def State.decryptBlk (s : State) (n gen ten lba : Nat) (c : Blk) : Option Blk × State :=
  match s.mediaKey n gen ten with
  | (some k, s) => (some (xtsDec k lba c), s)
  | (none, s) => (none, s)

end Sys2Proof.Machine
end

