-- ==== Sys2Proof/Machine/Tokens.lean ====
section
/-! DEFINITION. Predicted times (R104), flash power tokens (R367 to R369, R374) and background tokens (R99). -/

namespace Sys2Proof.Machine

/-- Transfer time of bytes on a channel at 2.4 GB/s, in ns (R104). -/
def xferNs (bytes : Nat) : Nat := bytes * 5 / 12

/-- Bytes an operation moves: codewords of 4,544 B; a program moves its whole slice (R95, R104). -/
def State.opBytes (s : State) (o : DieOp) : Nat :=
  match o.kind with
  | .read => o.cws.length * 4544
  | .program => (if o.slc then s.stageCps else s.cps) * 4544
  | _ => 0

/-- Predicted time P of an operation in ns (R104). DESIGN CHOICE (assumption 56): the rule gives none for class 7 and for firmware's
own operations; they take TR. -/
def State.predNs (s : State) (o : DieOp) : Nat :=
  match o.kind with
  | .read => (if o.slc then s.fld F.ZNE_TPRED0_TRSLC else s.fld F.ZNE_TPRED0_TR) * 1000 + xferNs (s.opBytes o)
  | .program =>
    (if o.slc then s.fld F.ZNE_TPRED2_TPROGSLC else s.fld F.ZNE_TPRED1_TPROG) * 1000 + xferNs (s.opBytes o)
  | .erase => (if o.slc then s.fld F.ZNE_TPRED2_TBERSSLC else s.fld F.ZNE_TPRED1_TBERS) * 1000
  | _ => s.fld F.ZNE_TPRED0_TR * 1000

/-- Predicted time of a QLC slice program in µs (R377). -/
def State.qlcProgramP (s : State) : Nat :=
  (s.fld F.ZNE_TPRED1_TPROG * 1000 + xferNs (s.cps * 4544)) / 1000

/-- Predicted suspend time of an operation in ns (R104). -/
def State.suspNs (s : State) (o : DieOp) : Nat :=
  (if o.kind = .erase then s.fld F.ZNE_TPRED0_TSUSPE else s.fld F.ZNE_TPRED0_TSUSPP) * 1000

/-- Watchdog of a predicted time in ns (R113). -/
def State.watchNs (s : State) (p : Nat) : Nat := 2 * p + s.fld F.ZNE_WDCFG_MARGIN * 1000

/-- Hard limit of a predicted time in ns (R114). -/
def hardNs (p : Nat) : Nat := 4 * p + 1000000

/-- Die cost of an operation in mW (R367). -/
def State.dieCost (s : State) (o : DieOp) : Nat :=
  match o.kind, o.slc with
  | .read, true => s.fld F.ZNE_TOKCOST1_SLCREAD
  | .program, false => s.fld F.ZNE_TOKCOST0_QLCPGM
  | .program, true => s.fld F.ZNE_TOKCOST0_SLCPGM
  | .erase, _ => s.fld F.ZNE_TOKCOST1_ERASE
  | _, _ => s.fld F.ZNE_TOKCOST0_READ

/-- Bus cost of an operation in mW (R367). -/
def State.busCost (s : State) (o : DieOp) : Nat := if o.kind = .erase then 0 else s.fld F.ZNE_TOKCOST1_BUS

/-- What an operation in a pod, or granted and waiting for its pod, holds now: its die cost until DONE, its bus
cost for its predicted transfer time from posting (R367), which for a granted one that waits (start 0) still lies ahead. -/
def State.heldCost (s : State) (o : DieOp) : Nat :=
  s.dieCost o + (if o.start = 0 ∨ s.now < o.start + xferNs (s.opBytes o) then s.busCost o else 0)

/-- A direct operation, which firmware runs without ZNE (R218). -/
def DieOp.isDirect (o : DieOp) : Bool :=
  match o.purpose with
  | .direct _ => true
  | _ => false

/-- The operations of a die that hold tokens: granted ones in its queue and the active one, unless firmware runs it. -/
def dieHolding (d : Die) : List DieOp :=
  d.queue.filter (·.granted) ++ (d.active.map (·.op)).toList.filter fun o => !o.isDirect

/-- The suspended operation of a die. -/
def dieSuspended (d : Die) : List DieOp := (d.susp.map (·.op)).toList

/-- Sum of a measure over a list. -/
def sumBy {α : Type} (f : α → Nat) : List α → Nat
  | [] => 0
  | x :: xs => f x + sumBy f xs

/-- DRAW (R368). -/
def State.draw (s : State) : Nat := sumBy (fun e => sumBy s.heldCost (dieHolding e.2)) s.zne.dies

/-- An operation is a class 1 or 2 read. -/
def DieOp.hostRead (o : DieOp) : Bool := o.kind = .read && (o.cls = 1 || o.cls = 2)

/-- RDRAW: the part of DRAW that class 1 and 2 reads hold (R368). -/
def State.rdraw (s : State) : Nat :=
  sumBy (fun e => sumBy s.heldCost ((dieHolding e.2).filter DieOp.hostRead)) s.zne.dies

/-- A program or an erase. -/
def DieOp.writes (o : DieOp) : Bool := o.kind = .program || o.kind = .erase

/-- PGMDRAW: die costs of programs and erases posted and not completed, suspended ones included (R368). -/
def State.pgmdraw (s : State) : Nat :=
  sumBy (fun e => sumBy s.dieCost ((dieHolding e.2 ++ dieSuspended e.2).filter DieOp.writes)) s.zne.dies

/-- EFF from FLASHBUD, the outputs of loop slots 144 and 145, PWRCAP_N and hold mode (R369, R374, R157). -/
def State.effMw (s : State) : Nat :=
  if s.flag F.ZNE_PWRSTAT_HOLD then 37000
  else
    let e := s.fld F.ZNE_PWRBUD_FLASHBUD * min (s.fld (F.LPE_OUT_U 144)) (s.fld (F.LPE_OUT_U 145)) / 65535
    if s.flag F.ZNE_PWRSTAT_PCAP then min e (s.fld F.ZNE_PCAP_PCAPBUD) else e

/-- ZNE_PWREFF, ZNE_PWRSTAT.DRAW and ZNE_PWRPGM show their values. -/
def State.showPower (s : State) : State :=
  let s := s.setFld F.ZNE_PWREFF_EFF s.effMw
  let s := s.setFld F.ZNE_PWRSTAT_DRAW s.draw
  s.setFld F.ZNE_PWRPGM_PGMDRAW s.pgmdraw

/-- READRES in force: 0 in hold mode (R374), at most half of EFF (R368). -/
def State.readRes (s : State) : Nat :=
  if s.flag F.ZNE_PWRSTAT_HOLD then 0 else min (s.fld F.ZNE_PWRRES_READRES) (s.effMw / 2)

/-- The power checks of R368 for operations admitted together. -/
def State.powerAdmits (s : State) (os : List DieOp) : Bool :=
  let c := sumBy (fun o => s.dieCost o + s.busCost o) os
  let w := os.filter DieOp.writes
  decide (s.draw + c ≤ s.effMw) &&
  (os.all DieOp.hostRead || decide (s.draw - s.rdraw + c ≤ s.effMw - s.readRes)) &&
  (w.isEmpty || s.flag F.ZNE_PWRSTAT_HOLD ||
    decide (s.pgmdraw + sumBy s.dieCost w ≤ s.fld F.ZNE_PWRRES_PGMCAP))

/-- The power checks of a resume: its die cost under DRAW and the read reserve only (R368). -/
def State.powerResumes (s : State) (o : DieOp) : Bool :=
  decide (s.draw + s.dieCost o ≤ s.effMw) && decide (s.draw - s.rdraw + s.dieCost o ≤ s.effMw - s.readRes)

/-- Background tokens of tenancy t: BGTOK less what was drawn since the last boundary, never below 0 (R99, R164). -/
def State.tenTokens (s : State) (t : Nat) : Nat := s.fld (F.ZNE_TGOV_BGTOK t) - Tab.getD s.zne.tenTok t 0

/-- Background tokens of NVM Set n + 1. -/
def State.setTokens (s : State) (n : Nat) : Nat := s.fld (F.ZNE_SGOV_BGTOK n) - Tab.getD s.zne.setTok n 0

/-- An operation of conventional reclaim while the rank set's conventional Writes are stalled (R187). -/
def State.stallFree (s : State) (o : DieOp) : Bool :=
  let r := s.rset (s.setOfBlk o.blk)
  (match o.own with | .conv _ _ => true | _ => false) && (o.bg || (match o.purpose with | .collect => true | _ => false)) &&
    decide (0 < r.conv) && decide (s.freeSegs (s.setOfBlk o.blk) < 8)

/-- Background tokens an operation costs (R99), none for conventional reclaim while Writes are stalled (R187). -/
def State.bgCost (s : State) (o : DieOp) : Nat :=
  if s.stallFree o then 0
  else if o.cls = 5 ∧ o.kind = .read then 1
  else if o.cls = 3 ∧ o.bg = true then s.fld F.ZNE_SCHEDCFG_PGMCOST
  else 0

/-- Operations have the background tokens they need in the tenancy's and the set's accounts; ten 0xFF charges
the set only (R99). -/
def State.bgAdmits (s : State) (os : List DieOp) : Bool :=
  let c := sumBy s.bgCost os
  match os with
  | [] => true
  | o :: _ =>
    c = 0 || (decide (c ≤ s.setTokens (s.setOfBlk o.blk)) && (128 ≤ o.ten || decide (c ≤ s.tenTokens o.ten)))

/-- Draw the background tokens of operations. -/
def State.takeBg (s : State) (os : List DieOp) : State :=
  let c := sumBy s.bgCost os
  match os with
  | [] => s
  | o :: _ =>
    let n := s.setOfBlk o.blk
    let s := { s with zne := { s.zne with setTok := Tab.set s.zne.setTok n (Tab.getD s.zne.setTok n 0 + c) } }
    if o.ten < 128 then
      { s with zne := { s.zne with tenTok := Tab.set s.zne.tenTok o.ten (Tab.getD s.zne.tenTok o.ten 0 + c) } }
    else s

end Sys2Proof.Machine
end

