-- ==== Sys2Proof/Machine/Media.lean ====
section
/-! DEFINITION. Blocks out of use and coming into use: free rings and allocation (R229 to R231), retirement and
spares (R235, R236, R247, R248), the erase ledger and the erase sequence (R238 to R241), read counts and the
refresh queue (R242 to R245), body reservations (R56). -/

namespace Sys2Proof.Machine

/-! ### References and rings -/

/-- A die operation of an admitted host read, or one of its helpers. -/
def DieOp.forRead (o : DieOp) : Bool :=
  match o.purpose with
  | .host _ => true
  | .helper _ _ => true
  | _ => false

/-- A read of a scrub visit of a block. -/
def DieOp.scrubs (o : DieOp) (b : Nat) : Bool :=
  match o.purpose with
  | .scrub x _ => x == b
  | _ => false

/-- An admitted read still references a block (R94). -/
def State.referenced (s : State) (b : Nat) : Bool :=
  (s.zne.dies.any fun e => (e.2.queue ++ (e.2.active.map (·.op)).toList).any fun o => o.blk = b && o.forRead) ||
  (s.zne.decodes.any fun e => e.2.op.blk = b && e.2.op.forRead) ||
  (s.zne.dones.any fun x => x.op.blk = b && x.op.forRead) ||
  (s.zne.recons.any fun e => e.2.row.contains b && (match e.2.for_ with | .host _ _ => true | _ => false))

/-- Key of a free ring: rank set, channel, mode (R229). -/
def ringKey (set chan : Nat) (slc : Bool) : Nat := (set * 128 + chan) * 2 + b2n slc

/-- A free ring, head first. -/
def State.ring (s : State) (set chan : Nat) (slc : Bool) : List RingEnt := Tab.getD s.zne.rings (ringKey set chan slc) []

/-- Replace a ring. -/
def State.setRing (s : State) (set chan : Nat) (slc : Bool) (r : List RingEnt) : State :=
  { s with zne := { s.zne with rings := Tab.set s.zne.rings (ringKey set chan slc) r } }

/-- ZNE_UNCERT.COUNT and ZNE_MHSTAT show the rings, the ledger and the refresh queue (R240, R241). -/
def State.showMedia (s : State) : State :=
  let unc := sumBy (fun e => (e.2.filter (·.uncertain)).length) s.zne.rings
  let s := s.setFld F.ZNE_UNCERT_COUNT unc
  let s := s.setFld F.ZNE_MHSTAT_LEDGER s.zne.ledger.length
  let s := s.setFld F.ZNE_MHSTAT_LEDGERLOST (b2n (bit (s.fld F.MRM_BANKSTAT_FAILED) 2 || decide (0 < unc)))
  s.setFld F.ZNE_MHSTAT_REFQ s.zne.refreshQ.length

/-- The erase ledger is lost, for a cause (0 header, 1 entry, 2 bank): it is empty, every CLEAN entry becomes UNCERTAIN, and event 0x0403
is posted (R241). -/
def State.loseLedger (s : State) (cause : Nat) : State :=
  (({ s with zne := { s.zne with
    ledger := [],
    rings := s.zne.rings.map fun r => (r.1, r.2.map fun e => if e.clean then { e with uncertain := true } else e) } } : State).znePost
    0x0403 [(8, cause)]).showMedia

/-- P/E limit of a mode (R230). -/
def State.peLimit (s : State) (slc : Bool) : Nat := if slc then s.fld F.ZNE_PELIM_SLC else s.fld F.ZNE_PELIM_QLC

/-- A ring entry is eligible: its die is Healthy, its PECOUNT below the mode's limit (R230), and no admitted
read references it (R94). -/
def State.eligible (s : State) (e : RingEnt) : Bool :=
  decide (s.health (blkDie e.blk) = 0) && decide ((s.blk e.blk).pe < s.peLimit (s.blk e.blk).slc) &&
  !s.referenced e.blk && (Tab.find s.zne.erases e.blk).isNone

/-- Which entry of the window is taken: lowest PECOUNT, or highest for a wear relocation, the oldest first on a
tie (R230). The power-loss sequence, which erases nothing, takes CLEAN entries only (R441). -/
def State.chooseEnt (s : State) (wear : Bool) (es : List RingEnt) : Option RingEnt :=
  let w := (es.filter fun e => s.eligible e && (s.power.loss.isNone || (e.clean && !e.uncertain))).take (s.fld F.ZNE_WEARCFG_WIN)
  if wear then minBy (fun e => 0xFFFF - (s.blk e.blk).pe) w else minBy (fun e => (s.blk e.blk).pe) w

/-- Channels from a start upward, modulo C (R230). -/
def State.walk (s : State) (start : Nat) : List Nat :=
  let c := s.fld F.ZNE_GEOM_CHANNELS
  (List.range c).map fun k => (start + k) % c

/-- Choose blocks on up to n distinct channels of a walk, at most one to a channel. -/
def State.chooseBody (s : State) (set : Nat) (slc wear : Bool) : List Nat → Nat → List RingEnt
  | [], _ => []
  | _, 0 => []
  | c :: cs, n + 1 =>
    match s.chooseEnt wear (s.ring set c slc) with
    | some e => e :: s.chooseBody set slc wear cs n
    | none => s.chooseBody set slc wear cs (n + 1)

/-- Remove a block's entry from its ring. -/
def State.takeEnt (s : State) (set : Nat) (e : RingEnt) : State :=
  let slc := (s.blk e.blk).slc
  s.setRing set (blkChan e.blk) slc ((s.ring set (blkChan e.blk) slc).filter fun x => x.blk != e.blk)

/-- Take 18 blocks on 18 distinct channels for a body, advancing the rotor by 18 (R57, R230); none when fewer
channels offer one. -/
def State.allocBody (s : State) (set : Nat) (slc wear : Bool) (st : BlkSt) : Option (List RingEnt × State) :=
  let rs := s.rset set
  let es := s.chooseBody set slc wear (s.walk rs.rotor) 18
  if es.length = 18 then
    let s := es.foldl (fun s e => (s.takeEnt set e).modBlk e.blk fun b => { b with st := st }) s
    some (es, { s with zne := { s.zne with
      sets := Tab.set s.zne.sets set { rs with rotor := (rs.rotor + 18) % s.fld F.ZNE_GEOM_CHANNELS } } })
  else none

/-- Whether a ring entry may be used without an erase (R231); the power-loss sequence ignores TCLEAN (R441). -/
def State.usableClean (s : State) (e : RingEnt) : Bool :=
  e.clean && !e.uncertain &&
  (s.power.loss.isSome || decide (s.now / 1000000000 - e.tclean ≤ s.fld F.ZNE_ERASECFG_CLEANAGE))

/-! ### Leaving service -/

/-- Blocks of a rank set for which a test holds, by address. -/
def State.blocksOf (s : State) (set : Nat) (p : Nat → BlkEnt → Bool) : List Nat :=
  Tab.keys (Tab.keep s.zne.blks fun b e => decide (s.setOfBlk b = set) && p b e)

/-- Usable spare blocks of a rank set. -/
def State.spareLeft (s : State) (set : Nat) : Nat :=
  (s.blocksOf set fun b e => e.st = .spare && !s.deadDie (blkDie b)).length

/-- Spare blocks of a channel on dies neither Retired nor Failed. -/
def State.spareOn (s : State) (set chan : Nat) : List Nat :=
  s.blocksOf set fun b e => e.st = .spare && decide (blkChan b = chan) && !s.deadDie (blkDie b)

/-- The spare block R236 picks for a lost block's channel: that channel if it has one, else the channel with
the most, the lower number on a tie; lowest PECOUNT, then lowest address. -/
def State.pickSpare (s : State) (set chan : Nat) : Option Nat :=
  let pick := fun c => minBy (fun b => (s.blk b).pe) (s.spareOn set c)
  match pick chan with
  | some b => some b
  | none =>
    match minBy (fun c => 0x2000000 - (s.spareOn set c).length) (List.range (s.fld F.ZNE_GEOM_CHANNELS)) with
    | some c => pick c
    | none => none

/-- Available Spare of an Endurance Group in percent (R247). -/
def State.availSpare (s : State) (set : Nat) : Nat :=
  let rs := s.rset set
  if rs.spare0 = 0 then 0 else 100 * s.spareLeft set / rs.spare0

/-- Post 0x0409 when Available Spare first falls below 10 (R247). -/
def State.spareCheck (s : State) (set : Nat) : State :=
  let rs := s.rset set
  if s.availSpare set < 10 ∧ rs.spareLow = false then
    ({ s with zne := { s.zne with sets := Tab.set s.zne.sets set { rs with spareLow := true } } }).znePost 0x0409
      [(8, set + 1), (8, s.availSpare set)]
  else s

/-- Make an Endurance Group read-only (R248, R131). -/
def State.makeReadOnly (s : State) (set : Nat) : State :=
  let rs := s.rset set
  if rs.readOnly then s
  else ({ s with zne := { s.zne with sets := Tab.set s.zne.sets set { rs with readOnly := true } } }).znePost 0x0408
    [(8, set + 1)]

/-- Read-only when usable spare is 0 and the usable blocks of the SLC-mode pool, in use or free, less the conventional share, are below
its floor (R248). -/
def State.endCheck (s : State) (set : Nat) : State :=
  let pool := (s.blocksOf set fun b e =>
    e.slc && (e.st = .free || e.st = .stage || e.st = .conv) && !s.deadDie (blkDie b)).length
  let eff := s.fld F.ZNE_DIRTYCFG_EFF * 0x100000
  let floor := 18 * (64 + (eff + s.stageBodyBytes - 1) / s.stageBodyBytes)
  if s.spareLeft set = 0 ∧ pool - 18 * (s.rset set).conv < floor then s.makeReadOnly set else s

/-- A share that lost a block takes one spare block, whose STATE becomes the share's free state (R236). -/
def State.replaceSpare (s : State) (set : Nat) (lost : Nat) (slc : Bool) : State :=
  match s.pickSpare set (blkChan lost) with
  | none => s
  | some b =>
    let s := s.modBlk b fun e => { e with st := .free, slc := slc }
    s.setRing set (blkChan b) slc (s.ring set (blkChan b) slc ++ [⟨b, false, false, 0⟩])

/-- Enter a defect in the list of R237. -/
def State.listDefect (s : State) (b : Nat) (whole : Bool) (kind : Nat) : State :=
  { s with zne := { s.zne with defects := s.zne.defects ++ [⟨b, whole, kind, (s.blk b).pe⟩],
                               defGen := s.zne.defGen + 1 } }

/-- A block leaves service as a grown defect (R235): event 0x0401 with the cause row, a spare in its place. -/
def State.growDefect (s : State) (b cause : Nat) : State :=
  let e := s.blk b
  if e.st = .retired then s else
  let set := s.setOfBlk b
  let s := s.modBlk b fun e => { e with st := .retired, grown := true }
  let s := (s.bump F.ZNE_MH_GROWN_COUNT).listDefect b false 2
  let s := s.znePost 0x0401 [(32, b), (8, cause), (16, e.pe)]
  (s.replaceSpare set b e.slc).spareCheck set |>.endCheck set

/-- A block leaves service at its P/E limit, at release (R235). -/
def State.limitRetire (s : State) (b : Nat) : State :=
  let e := s.blk b
  let set := s.setOfBlk b
  let s := s.modBlk b fun e => { e with st := .retired }
  let s := (s.bump F.ZNE_MH_LIMIT_COUNT).znePost 0x0402 [(32, b), (8, b2n e.slc)]
  (s.replaceSpare set b e.slc).spareCheck set |>.endCheck set

/-- A block is released: retired where R235 says so, out of service with a dead die, else at the tail of its
ring with CLEAN 0 (R229), once no admitted read references it (R94). One that has left service before stays out. -/
def State.releaseBlk (s : State) (b : Nat) : State :=
  let e := s.blk b
  -- a scrub visit that the release overtakes is discarded (R244)
  let s := { s with zne := { s.zne with
    visits := Tab.erase s.zne.visits b,
    dies := Tab.adjust s.zne.dies (blkDie b) fun d => { d with queue := d.queue.filter fun o => !o.scrubs b } } }
  if e.st = .retired then s
  else if e.grown then s.growDefect b 4
  else if s.peLimit e.slc ≤ e.pe then s.limitRetire b
  else
    let s := s.modBlk b fun e => { e with st := .free }
    if s.deadDie (blkDie b) then s
    else if s.referenced b then { s with zne := { s.zne with released := s.zne.released ++ [b] } }
    else
      let set := s.setOfBlk b
      s.setRing set (blkChan b) e.slc (s.ring set (blkChan b) e.slc ++ [⟨b, false, false, 0⟩])

/-- Released blocks that no admitted read references any more join their rings (R94). -/
def State.returnReleased (s : State) : State :=
  let bs := s.zne.released.filter fun b => !s.referenced b
  let s := { s with zne := { s.zne with released := s.zne.released.filter fun b => !bs.contains b } }
  (bs.filter fun b => !s.deadDie (blkDie b)).foldl (fun (s : State) b =>
    let set := s.setOfBlk b
    let slc := (s.blk b).slc
    s.setRing set (blkChan b) slc (s.ring set (blkChan b) slc ++ [⟨b, false, false, 0⟩])) s

/-- Release blocks in order. -/
def State.releaseAll (s : State) (bs : List Nat) : State := bs.foldl (fun s b => s.releaseBlk b) s

/-- Blocks free and spare of a rank set on a channel, on dies neither Retired nor Failed (R56 f_c). DESIGN CHOICE (assumption 59): of
the free blocks those in QLC mode count, since only they become a zone's body. -/
def State.freeOn (s : State) (set chan : Nat) : Nat :=
  (s.blocksOf set fun b e => (e.st = .spare || (e.st = .free && !e.slc)) && decide (blkChan b = chan) &&
    !s.deadDie (blkDie b)).length

/-- Whether a rank set's blocks cover R reservations (R56). -/
def State.coversResv (s : State) (set r : Nat) : Bool :=
  decide (18 * r ≤ sumBy (fun c => min (s.freeOn set c) r) (List.range (s.fld F.ZNE_GEOM_CHANNELS)))

/-- Body reservations held in a rank set. -/
def State.resvHeld (s : State) (set : Nat) : Nat :=
  (Tab.keep s.zne.zones fun _ z => z.resv && decide (z.set = set)).length

/-! ### Die queues -/

/-- An operation joins the queue of its die (R96). -/
def State.enqueue (s : State) (o : DieOp) : State :=
  let (i, s) := s.fresh
  s.modDie (blkDie o.blk) fun d => { d with
    queue := d.queue ++ [{ o with id := i, queued := s.now }],
    -- a class 2 read that begins to wait counts the class 1 reads dispatched from now on (R98)
    urgRun := if o.cls = 2 && !(d.queue.any fun x => x.cls = 2) then 0 else d.urgRun }

/-- A plain operation on a block: not a helper, not granted, no ladder step. -/
def plainOp (cls : Nat) (kind : OpKind) (slc : Bool) (b slice : Nat) (cws : List (Nat × Nat)) (p : Purpose)
    (ten : Nat) : DieOp :=
  ⟨0, cls, kind, slc, b, slice, cws, p, ten, false, false, 0, 0, 0, 0, 0, false, false, false, [], .body 0 0, false, false, none,
    []⟩

/-! ### Erasing (R238) -/

/-- Begin the erase sequence of a block: its ledger entry is written, or waits while none is free (R240). -/
def State.beginErase (s : State) (b : Nat) (f : EraseFor) : State :=
  let zmi := match f with | .zone z => some z | _ => none
  let slot := Tab.firstFree s.zne.ledger 0
  let s := if slot < 4096 ∧ bit (s.fld F.MRM_BANKSTAT_FAILED) 2 = false then
      { s with zne := { s.zne with ledger := Tab.set s.zne.ledger slot ⟨b, (s.blk b).slc, false, f = .pre, zmi⟩ } }
    else s
  ({ s with zne := { s.zne with erases := Tab.set s.zne.erases b ⟨b, f, .ledger, false, slot, 0⟩ } }).showMedia

/-- Erase jobs that wait for a ledger entry take the one freed (R240). -/
def State.ledgerRetry (s : State) : State :=
  match s.zne.erases.find? (fun e => decide (4096 ≤ e.2.entry) && e.2.st = .ledger) with
  | some (b, j) => s.beginErase b j.for_
  | none => s

/-- A block's erase starts: PECOUNT rises, the erase is issued (R227, R238). -/
def State.issueErase (s : State) (j : EraseJob) : State :=
  let s := s.modBlk j.blk fun e => { e with pe := min (e.pe + 1) 0xFFFF }
  let s := s.bump F.ZNE_MH_ERASES_COUNT
  let s := { s with zne := { s.zne with erases := Tab.set s.zne.erases j.blk { j with st := .erasing } } }
  s.enqueue (plainOp (if j.for_ = .pre then 5 else 4) .erase (s.blk j.blk).slc j.blk 0 [] (.erase j.blk) 0xFF)

/-- ERASE_LEDGER_WRITE_ACK: the ledger entry of a block is acknowledged (R238 steps 1 to 3). -/
def execEraseLedgerWriteAck (b : BitVec 25) (s : State) : Host.Outcome State Fault Refusal :=
  match Tab.find s.zne.erases b.toNat with
  | some j => if j.st = .ledger ∧ j.entry < 4096 then .next ((s.cfgWrite false).issueErase j) else .next s
  | none => .next s

/-- The erase passed: the block is erased in the tables, and the reads of its check are issued: on every plane the first codeword of the
first wordline, and the last of the last, four to a plane in SLC mode (R202, R227, R238 step 4, R239). -/
def State.eraseChecked (s : State) (j : EraseJob) : State :=
  let s := s.modBlk j.blk fun e => { e with cursor := none, rdofs := s.zne.profile.rdofs0, reads := 0 }
  let s := { s with zne := { s.zne with erases := Tab.set s.zne.erases j.blk { j with st := .checking, left := 2 } } }
  let slc := (s.blk j.blk).slc
  let cws := fun (k : Nat) => (List.range (2 ^ s.fld F.ZNE_GEOM_PLANES)).map fun p => (p * 4 + k, p * 4 + k)
  (s.enqueue (plainOp 4 .read true j.blk 0 (cws 0) (.check j.blk) 0xFF)).enqueue
    (plainOp 4 .read true j.blk ((if slc then s.stageSpb else s.spb) - 1) (cws 3) (.check j.blk) 0xFF)

/-- The check passed: the ledger entry is being cleared (R238 step 5). -/
def State.eraseClearing (s : State) (j : EraseJob) : State :=
  { s with zne := { s.zne with erases := Tab.set s.zne.erases j.blk { j with st := .clearing } } }

/-- Drop a block's ledger entry and erase job. -/
def State.dropErase (s : State) (b : Nat) : State :=
  let s := { s with zne := { s.zne with erases := Tab.erase s.zne.erases b,
                                        ledger := Tab.keep s.zne.ledger fun _ l => l.blk != b } }
  (s.cfgWrite false).ledgerRetry.showMedia

/-! ### Refresh queue -/

/-- Queue a block for refresh, at most 4,096 (R245). -/
def State.queueRefresh (s : State) (b : Nat) : State :=
  if s.zne.refreshQ.contains b then s
  else if s.zne.refreshQ.length < 4096 then
    ({ s with zne := { s.zne with refreshQ := s.zne.refreshQ ++ [b] } }).showMedia
  else s.znePost 0x040C [(32, b)]

/-- A die read of a block is counted; at READLIMIT it is queued for refresh (R243). -/
def State.countRead (s : State) (b : Nat) : State :=
  let s := s.modBlk b fun e => { e with reads := min (e.reads + 1) 0xFFFFFFFF }
  if (s.blk b).reads = s.zne.profile.readLimit then s.queueRefresh b else s

/-- A block's tracked read-offset set changes; the highest set queues it for refresh (R242). -/
def State.setRdofs (s : State) (b v : Nat) : State :=
  let s := s.modBlk b fun e => { e with rdofs := v }
  if v = s.zne.profile.nrdofs then s.queueRefresh b else s

/-- Which read-offset set a ladder position reads at: the tracked set, the one above, the one below (R242);
none where it does not exist. -/
def State.ladderSet (s : State) (b lad : Nat) : Option Nat :=
  let t := (s.blk b).rdofs
  if lad = 2 then (if t + 1 ≤ s.zne.profile.nrdofs then some (t + 1) else none)
  else if lad = 3 then (if 0 < t then some (t - 1) else none)
  else some t

end Sys2Proof.Machine
end

