-- ==== Sys2Proof/Machine/Sched.lean ====
section
/-! DEFINITION. The die schedulers: pods and dispatch (R96 to R98), suspension and resume (R100 to R103),
predicted waits (R105), descriptors (R200), and the posting of aborts that reset a LUN (R442). -/

namespace Sys2Proof.Machine

/-! ### Descriptors (R200) -/

/-- Op class of an operation (R201). -/
def DieOp.opc (o : DieOp) : Nat :=
  match o.kind, o.slc with
  | .read, false => 0
  | .read, true => 1
  | .program, false => 2
  | .program, true => 3
  | .erase, false => 4
  | .erase, true => 5
  | .offset, _ => 7
  | .other, _ => match o.purpose with
    | .direct c => c
    | _ => 6

/-- The row address of a block and wordline in profile format (CH_ROWFMT). -/
def State.rowAddr (s : State) (b wl : Nat) : Nat :=
  let n := blkChan b
  (wl % 2 ^ s.fld (F.CH_ROWFMT_WLW n)) * 2 ^ s.fld (F.CH_ROWFMT_WLLSB n) +
  (blkIdx b % 2 ^ s.fld (F.CH_ROWFMT_BLKW n)) * 2 ^ s.fld (F.CH_ROWFMT_BLKLSB n) +
  (blkRank b / 2 % 2 ^ s.fld (F.CH_ROWFMT_LUNW n)) * 2 ^ s.fld (F.CH_ROWFMT_LUNLSB n)

/-- GUARD: the CURSOR plus one, or 0 when no slice is programmed (R200). -/
def State.guardOf (s : State) (b : Nat) : Nat :=
  match (s.blk b).cursor with
  | some c => c + 1
  | none => 0

/-- The 8 words of an operation's descriptor (R200). -/
def State.descriptor (s : State) (o : DieOp) : List W32 :=
  let first := match o.cws with
    | (c, _) :: _ => c
    | [] => 0
  let col := match o.kind with
    | .read => first + o.cws.length * 2 ^ 8
    | .program => s.guardOf o.blk
    | .offset => s.zne.profile.featAdr
    | _ => 0
  let buf0 := ((s.fab.staging.find? fun e => e.2.op == o.id).map (·.1)).getD 0
  let kindBits := match o.kind, o.purpose with
    | .read, _ => 1
    | .program, .prog _ m => if m < 16 then 2 else 3
    | .program, _ => 2
    | _, _ => 0
  let ctl := o.opc + o.cls * 2 ^ 4 + b2n o.writes * 2 ^ 7 + blkRank o.blk * 2 ^ 8 + b2n (o.cls = 1) * 2 ^ 16 +
    b2n o.helper * 2 ^ 17 + b2n o.slc * 2 ^ 18 + (s.blk o.blk).rdofs * 2 ^ 24
  -- a class 7 op's ROW is its set's four parameter bytes, from the copy of the profile (R201, R224, R225)
  let b := s.fld F.ZNE_PROFBASE_BASE * 2 ^ 21
  let row := match o.purpose with
    | .offset v => Memory.readNat s.mem (b + Memory.readNat s.mem (b + 76) 4 + 4 * v) 4
    | _ => s.rowAddr o.blk o.slice
  [ctl, row, col, kindBits * 2 ^ 20 + (if o.kind = .read then buf0 else 0), 0,
    s.watchNs (s.predNs o) / 1000, s.predNs o / 1000 % 65536 + o.suspends * 2 ^ 16, o.id % 65536].map
    (BitVec.ofNat 32)

/-! ### Read staging buffers (R31, R202) -/

/-- The lowest run of n free buffers among the 896: a descriptor names its stream by its first buffer (R202). -/
def State.stagingRun (s : State) (n : Nat) : Option Nat :=
  (List.range (897 - n)).find? fun i => s.fab.staging.all fun e => decide (e.1 < i) || decide (i + n ≤ e.1)

/-- A read takes one buffer for each of its codewords. -/
def State.takeStaging (s : State) (o : DieOp) : State :=
  let i := (s.stagingRun o.cws.length).getD 0
  let add := fun (t : Tab Staged) (e : (Nat × Nat) × Nat) => Tab.set t (i + e.2) ⟨o.id, e.1.1, []⟩
  { s with fab := { s.fab with staging := (o.cws.zip (List.range o.cws.length)).foldl add s.fab.staging } }

/-- The buffers for which a test of their operation and codeword holds are free again. -/
def State.freeStaging (s : State) (p : Nat → Nat → Bool) : State :=
  { s with fab := { s.fab with staging := Tab.keep s.fab.staging fun _ x => !p x.op x.cw } }

/-- Bytes written over others from an offset, with zeros in a gap. -/
def putBytes (old : List Byte) (off : Nat) (new_ : List Byte) : List Byte :=
  old.take off ++ List.replicate (off - old.length) 0 ++ new_ ++ old.drop (off + new_.length)

/-- Bytes from a die land in the staging buffers of a stream, 4,544 to a codeword, from its first buffer and an offset on (R31, R202). -/
def State.fillStaging (s : State) (first off : Nat) (bs : List Byte) : State :=
  let piece := fun (k : Nat) (x : Staged) =>
    let lo := k * 4544
    if k < off / 4544 ∨ off + bs.length ≤ lo then x
    else { x with bytes := putBytes x.bytes (off - lo) ((bs.drop (lo - off)).take (4544 - (off - lo))) }
  { s with fab := { s.fab with staging := s.fab.staging.map fun e => (e.1, if first ≤ e.1 then piece (e.1 - first) e.2 else e.2) } }

/-- The bytes of a stream of staging buffers (R202). -/
def State.stagedBytes (s : State) (first off n : Nat) : List Byte :=
  ((List.range ((off + n) / 4544 + 1)).flatMap fun k => match Tab.find s.fab.staging (first + k) with
    | some x => x.bytes ++ List.replicate (4544 - x.bytes.length) 0
    | none => List.replicate 4544 0).drop off |>.take n

/-- The buffer of one codeword of an operation is free again. -/
def State.freeCw (s : State) (o : DieOp) (cw : Nat) : State := s.freeStaging fun i c => i == o.id && c == cw

/-- All buffers of an operation are free again. -/
def State.freeOp (s : State) (o : DieOp) : State := s.freeStaging fun i _ => i == o.id

/-! ### Pods -/

/-- CH_PODSTAT shows a die's pods. -/
def State.showPods (s : State) (d : Nat) : State :=
  let n := d / 16
  let r := d % 16
  let upd := fun (v : Nat) (b : Bool) => if b then setBit v r else clrBit v r
  let s := s.setFld (F.CH_PODSTAT_ACT n) (upd (s.fld (F.CH_PODSTAT_ACT n)) (s.die d).active.isSome)
  s.setFld (F.CH_PODSTAT_SUS n) (upd (s.fld (F.CH_PODSTAT_SUS n)) (s.die d).susp.isSome)

/-- A pod that a descriptor has just been posted to. -/
def State.newPod (s : State) (o : DieOp) : Pod :=
  { op := { o with start := s.now, granted := true, ran := 0, rset := s.ladderSet o.blk o.lad },
    desc := s.descriptor o, ctx := [0, 0, 0, 0], fresh := true, resumed := false, resume := 0, due := none,
    sw := false, parked := false, abort := false, suspReq := false, hand := false, abortAt := 0, suspAt := 0,
    suspLate := false, ripe := false }

/-- Time an operation has been in the active pod so far (R105, R113). -/
def State.podTime (s : State) (p : Pod) : Nat := p.op.ran + (s.now - p.op.start)

/-- ZNE may post a new descriptor to a die: geometry locked, the channel not held, the die not dead (R198, R222). -/
def State.mayPost (s : State) (d : Nat) : Bool := s.flag F.ZNE_GEOM_LOCK && !s.chanHeld (d / 16) && !s.deadDie d

/-- ZNE may resume what a die's suspended pod holds: a channel that drains serves the items it holds (R198). -/
def State.mayResume (s : State) (d : Nat) : Bool := s.flag F.ZNE_GEOM_LOCK && !s.deadDie d

/-- Remove one operation from a queue by its number. -/
def unqueue (q : List DieOp) (id : Nat) : List DieOp := q.filter fun o => o.id != id

/-- The read-offset set a queued read needs when the die's current set differs (R201, R242). -/
def State.needsOffset (s : State) (d : Nat) (o : DieOp) : Option Nat :=
  if o.kind = .read then
    match s.ladderSet o.blk o.lad with
    | some v => if v = (s.die d).rdset then none else some v
    | none => none
  else none

/-- Post an operation to the die's active pod, with its tokens taken and its watchdog armed (R96, R113). -/
def State.postOp (s : State) (d : Nat) (o : DieOp) : State :=
  let s := s.takeBg (if o.granted then [] else [o])
  let urg := if o.cls = 1 ∧ (s.die d).queue.any (fun x => x.cls = 2) = true then (s.die d).urgRun + 1 else 0
  let rs := if o.kind = .read then some ((s.die d).readSince.getD s.now) else none
  let s := if o.kind = .read then s.takeStaging o else s
  let s := s.modDie d fun x => { x with
    queue := unqueue x.queue o.id, active := some (s.newPod o), urgRun := urg, readSince := rs,
    rdSusp := if x.susp.isSome then x.rdSusp + 1 else x.rdSusp }
  (s.showPods d).showPower

/-- Post an operation, or first the class 7 op that sets the die's read-offset set (R201). -/
def State.dispatchOp (s : State) (d : Nat) (o : DieOp) : State :=
  match s.needsOffset d o with
  | some v =>
    let x : DieOp := { plainOp o.cls .offset false o.blk 0 [] (.offset v) o.ten with start := s.now }
    let (i, s) := s.fresh
    ((s.modDie d fun y => { y with active := some (s.newPod { x with id := i }) }).showPods d).showPower
  | none => s.postOp d o

/-! ### Suspension -/

/-- SUSPLVL of a tenancy's reads (R99); work of no tenancy has the reset level. -/
def State.suspLvl (s : State) (ten : Nat) : Nat := s.fld (F.ZNE_TGOV_SUSPLVL (ten % 128))

/-- The conditions of R100 for a class 1 or 2 read of a tenancy. -/
def State.canSuspend (s : State) (d ten : Nat) : Bool :=
  match (s.die d).active with
  | none => false
  | some p =>
    let lvl := s.suspLvl ten
    let er := p.op.kind = .erase
    s.flag F.ZNE_PODCFG_SUSPEN && p.op.writes && (s.die d).susp.isNone && s.power.loss.isNone &&
    decide (p.op.suspends < if er then s.fld F.ZNE_SUSPLIM_ERSMAX else s.fld F.ZNE_SUSPLIM_PGMMAX) &&
    (lvl = 3 || decide ((if er then s.fld F.ZNE_SUSPLIM_ERSRUN else s.fld F.ZNE_SUSPLIM_PGMRUN) * 10000
      ≤ s.now - p.op.start)) &&
    (lvl = 2 || lvl = 3 || (lvl = 1 && er))

/-- Request a suspend of the active operation (R100, R113). -/
def State.requestSuspend (s : State) (d : Nat) : State :=
  s.modDie d fun x => { x with active := x.active.map fun p =>
    if p.suspReq then p else { p with suspReq := true, suspAt := s.now } }

/-- The die reported the suspend complete: the operation moves to the suspended pod (R100, R208). -/
def State.suspendDone (s : State) (d : Nat) (p : Pod) : State :=
  let op := { p.op with suspends := p.op.suspends + 1, ran := s.podTime p, start := s.now }
  let s := s.modDie d fun x => { x with
    active := none, susp := some { p with op := op, suspReq := false, hand := false, parked := false,
                                          suspLate := false, ripe := false },
    rdSusp := 0, heldSince := s.now, wantResume := false }
  ((s.bump F.ZNE_RASTAT_SUSP_COUNT).showPods d).showPower

/-- Class 1 and 2 reads queued for a die. -/
def queuedReads (d : Die) : List DieOp := d.queue.filter DieOp.hostRead

/-- A suspended operation is to resume (R101); after PLI_N falls a program at once, an erase never (R103). -/
def State.resumeDue (s : State) (d : Nat) : Bool :=
  match (s.die d).susp with
  | none => false
  | some p =>
    if s.power.loss.isSome then p.op.kind != .erase
    else (s.die d).wantResume || (queuedReads (s.die d)).isEmpty ||
      decide (s.fld F.ZNE_PODCFG_RDPERSUSP ≤ (s.die d).rdSusp)

/-- Resume the suspended operation into the active pod where the power checks allow (R101, R368). -/
def State.resumeOp (s : State) (d : Nat) : State :=
  match (s.die d).susp, (s.die d).active with
  | some p, none =>
    if s.powerResumes p.op || s.power.loss.isSome then
      let s := s.modDie d fun x => { x with
        susp := none, wantResume := false, rdSusp := 0, readSince := none, urgRun := 0,
        active := some { p with
          op := { p.op with start := s.now }, resumed := true, hand := false, ripe := false
          desc := p.desc.set 6 (BitVec.ofNat 32 (s.predNs p.op / 1000 % 65536 + p.op.suspends * 2 ^ 16)) } }
      (s.showPods d).showPower
    else s
  | _, _ => s

/-! ### Dispatch (R98) -/

/-- The operation passes its admission checks: granted already, or power and background tokens allow it, and
staging buffers are free for a read (R31, R99). -/
def State.opAdmits (s : State) (o : DieOp) : Bool :=
  o.granted || (s.powerAdmits [o] && s.bgAdmits [o] &&
    (o.kind != .read || (s.stagingRun o.cws.length).isSome))

/-- The head of a class's queue. -/
def headOf (d : Die) (cls : Nat) : Option DieOp := d.queue.find? fun o => o.cls = cls

/-- The lowest-numbered non-empty class whose head passes its checks; only reads while the suspended pod is
occupied (R96, R98 rule 4). -/
def State.firstAdmitted (s : State) (d : Die) : List Nat → Option DieOp
  | [] => none
  | c :: cs =>
    match headOf d c with
    | some o => if s.opAdmits o && (d.susp.isNone || o.kind = .read) then some o else s.firstAdmitted d cs
    | none => s.firstAdmitted d cs

/-- Rule 2 of R98: a class 3 operation that reads have held back for READHOLD µs. -/
def State.heldProgram (s : State) (d : Die) : Option DieOp :=
  match d.readSince, headOf d 3 with
  | some t, some o =>
    if d.susp.isNone ∧ s.fld F.ZNE_SCHEDCFG_READHOLD * 1000 ≤ s.now - max t o.queued ∧ s.opAdmits o = true then
      some o
    else none
  | _, _ => none

/-- Rule 3 of R98: a class 2 read after URGBURST class 1 reads in a row while it waited. -/
def State.burstRead (s : State) (d : Die) : Option DieOp :=
  match headOf d 2 with
  | some o => if s.fld F.ZNE_SCHEDCFG_URGBURST ≤ d.urgRun ∧ s.opAdmits o = true then some o else none
  | none => none

/-- Fill a free active pod by the first rule that applies (R98). -/
def State.fillPod (s : State) (d : Nat) : State :=
  let x := s.die d
  if x.active.isSome then s
  else if s.resumeDue d && (s.power.loss.isSome || s.mayResume d) then s.resumeOp d
  else if s.power.loss.isSome then
    -- power loss drops every queued operation; only the granted stage programs of the flush follow (R373, R374)
    match (x.queue.find? fun o => o.granted && o.kind = .program) with
    | some o => if s.mayPost d ∧ x.susp.isNone = true then s.dispatchOp d o else s
    | none => s
  else if s.mayPost d then
    match s.heldProgram x with
    | some o => s.dispatchOp d o
    | none =>
      match s.burstRead x with
      | some o => s.dispatchOp d o
      | none =>
        match s.firstAdmitted x [1, 2, 3, 4, 5] with
        | some o => s.dispatchOp d o
        | none => (s.modDie d fun y => { y with readSince := none }).resumeOp d
  else if s.mayResume d then s.resumeOp d
  else s

/-- POD_DISPATCH: a die's active pod is free and ZNE fills it (R98). -/
def execPodDispatch (d : DieId) (s : State) : Host.Outcome State Fault Refusal := .next (s.fillPod d.val)

/-- SUSPHOLD_EXPIRY: a suspension has lasted SUSPHOLD µs, and the operation resumes (R101). -/
def execSuspholdExpiry (d : DieId) (s : State) : Host.Outcome State Fault Refusal :=
  let x := s.die d.val
  if x.susp.isSome ∧ s.fld F.ZNE_PODCFG_SUSPHOLD * 1000 ≤ s.now - x.heldSince then
    .next ((s.modDie d.val fun x => { x with wantResume := true }).fillPod d.val)
  else .next s

/-- The class 1 and 2 reads, helpers apart, that were left in a die's queue when its active operation last resumed (R101). -/
def State.leftQueued (s : State) (d : Nat) : List DieOp :=
  match (s.die d).active with
  | some p => if p.op.suspends = 0 then [] else (queuedReads (s.die d)).filter fun o => !o.helper && decide (o.queued ≤ p.op.start)
  | none => []

/-- MINIMUM_RUN_TIME_ELAPSED: every condition of R100 holds again for the oldest read left queued at a resume that
is no helper, and ZNE requests the suspension (R101). -/
def execMinimumRunTimeElapsed (d : DieId) (s : State) : Host.Outcome State Fault Refusal :=
  match s.leftQueued d.val with
  | [] => .next s
  | o :: _ => .next (if s.canSuspend d.val o.ten then s.requestSuspend d.val else s)

/-! ### Predicted waits (R105) -/

/-- The predicted time left of the active operation (R105). -/
def State.remaining (s : State) (d : Nat) : Nat :=
  match (s.die d).active with
  | some p => s.predNs p.op - s.podTime p
  | none => 0

/-- Reads that would be dispatched before a read of a class arriving now (R105 t_ahead). -/
def State.tAhead (s : State) (d cls : Nat) : Nat :=
  sumBy s.predNs ((queuedReads (s.die d)).filter fun o => decide (o.cls ≤ cls))

/-- The wait with a suspend, if one is possible (R105 ws). -/
def State.waitSuspend (s : State) (d cls ten : Nat) : Option Nat :=
  match (s.die d).active with
  | some p => if s.canSuspend d ten then some (s.suspNs p.op + s.tAhead d cls) else none
  | none => none

/-- The wait without one (R105 wq). -/
def State.waitQueue (s : State) (d cls : Nat) : Nat := s.remaining d + s.tAhead d cls

/-- A suspend shortens the wait. -/
def State.suspendWins (s : State) (d cls ten : Nat) : Bool :=
  match s.waitSuspend d cls ten with
  | some ws => decide (ws < s.waitQueue d cls)
  | none => false

/-- The die's predicted wait w (R105). -/
def State.waitOf (s : State) (d cls ten : Nat) : Nat :=
  match s.waitSuspend d cls ten with
  | some ws => min (s.waitQueue d cls) ws
  | none => s.waitQueue d cls

/-! ### Aborts and DONEs -/

/-- ZNE posts an abort to a die's active operation (R442, R208). -/
def State.postAbort (s : State) (d : Nat) : State :=
  s.modDie d fun x => { x with active := x.active.map fun p =>
    if p.abort then p else { p with abort := true, abortAt := s.now } }

/-- Hardware completes the operation of a die's suspended pod without microcode (R442, R143). -/
def State.endSuspended (s : State) (d : Nat) : State :=
  match (s.die d).susp with
  | none => s
  | some p =>
    let s := (s.modDie d fun x => { x with susp := none }).bump (F.CH_OPS_COUNT (d / 16))
    ((s.zn fun z => { z with dones := z.dones ++ [⟨d, p.op, 0x04, 0xFE, 0⟩] }).showPods d).showPower

/-- A LUN reset: an abort to the active operation, and the suspended one ended (R442). -/
def State.lunReset (s : State) (d : Nat) : State := (s.postAbort d).endSuspended d

end Sys2Proof.Machine
end

