-- ==== Sys2Proof/Machine/Stripes.lean ====
section
/-! DEFINITION. Write buffers and the dirty budget (R73, R74, R76), the Husk (R126 to R132), and the life of an
open stripe from commit to close (R72, R123 to R125, R130). -/

namespace Sys2Proof.Machine

/-! ### Write buffers -/

/-- ZNE_DIRTY.CUR and PEAK show the dirty buffers and dirty map pages (R74, R182). -/
def State.showDirty (s : State) : State :=
  let n := s.zne.bufs.length + s.zne.mapDirty.length
  let s := s.setFld F.ZNE_DIRTY_CUR n
  s.setFld F.ZNE_DIRTYPK_PEAK (max n (s.fld F.ZNE_DIRTYPK_PEAK))

/-- A buffer index no buffer holds and that is in service (R340). -/
def State.freeBuf (s : State) : Nat :=
  ((List.range (s.zne.outBufs.length + s.zne.bufs.length + 1)).find? fun i =>
    !s.zne.outBufs.contains i && (Tab.find s.zne.bufs i).isNone).getD 0

/-- Reserve one write buffer for a slot's command of a tenancy (R74, R271). -/
def State.reserveBuf (s : State) (own : BufOwner) (ns gen ten slot : Nat) : Nat × State :=
  let i := s.freeBuf
  let s := s.zn fun z => { z with bufs := Tab.set z.bufs i ⟨own, .reserved, 0, 0, ns, gen, ten, slot, s.now,
    false, false, false, false⟩ }
  (i, (s.bump (F.HIF_TWBU_WBU ten)).showDirty)

/-- Reserve n buffers. -/
def State.reserveBufs (s : State) (ten slot : Nat) : Nat → List Nat × State
  | 0 => ([], s)
  | n + 1 =>
    let (i, s) := s.reserveBuf .unassigned 0 0 ten slot
    let (is, s) := s.reserveBufs ten slot n
    (i :: is, s)

/-- Release a write buffer: it stops counting as dirty (R73). -/
def State.releaseBuf (s : State) (i : Nat) : State :=
  match Tab.find s.zne.bufs i with
  | some b => ((s.zn fun z => { z with bufs := Tab.erase z.bufs i }).drop (F.HIF_TWBU_WBU b.ten)).showDirty
  | none => s

/-- Release several buffers. -/
def State.releaseBufs (s : State) (is : List Nat) : State := is.foldl (fun s i => s.releaseBuf i) s

/-- Change a buffer. -/
def State.modBuf (s : State) (i : Nat) (f : Buf → Buf) : State :=
  s.zn fun z => { z with bufs := Tab.adjust z.bufs i f }

/-- The buffer of a zone's block. -/
def State.zoneBuf (s : State) (zmi off : Nat) : Option (Nat × Buf) :=
  s.zne.bufs.find? fun e => e.2.own = .zone zmi off

/-- The buffers a zone's data lies in, by offset (the chain from BUFHEAD, R64). -/
def State.zoneBufs (s : State) (zmi : Nat) : List (Nat × Buf) :=
  s.zne.bufs.filter fun e => match e.2.own with
    | .zone z _ => z == zmi
    | _ => false

/-- SEND of a zone: the offset below which all its data is on flash, in body or stage (R64). -/
def State.sendOf (s : State) (zmi : Nat) : Nat :=
  let os := (s.zoneBufs zmi).filterMap fun e => match e.2.own with
    | .zone _ o => if e.2.moved && e.2.staging then none else some o
    | _ => none
  (minBy id os).getD (s.zone zmi).wp

/-- OLDEST of a zone: when its oldest unflushed data was taken, in µs (R64). -/
def State.oldestOf (s : State) (zmi : Nat) : Nat :=
  match minBy (fun e => e.2.at_) (s.zoneBufs zmi) with
  | some (_, b) => b.at_ / 1000
  | none => 0

/-- EFF in MiB (R76): the lower of BUDGET and the hold-up limit, or BUDGET while hold-up is declared failed. -/
def State.effMib (s : State) : Nat :=
  if s.flag F.AON_HULIM_FAILED then s.fld F.ZNE_DIRTYCFG_BUDGET
  else min (s.fld F.ZNE_DIRTYCFG_BUDGET) (s.fld F.AON_HULIM_LIMIT)

/-- EFF and THRU follow BUDGET and the hold-up limit; a change of THRU posts event 0x0105 (R76). -/
def State.showEff (s : State) : State :=
  let s := s.setFld F.ZNE_DIRTYCFG_EFF s.effMib
  let f := s.fld F.AON_HULIM_FAILED
  if f = s.fld F.ZNE_DIRTYCFG_THRU then s
  else
    -- a write admitted already completes under the stage-through rule from now on
    let wr := fun (x : Slot) => decide (x.sqe.opc.toNat ∈ [0x01, 0x7D, 0x19])
    let s := if f = 0 then s
      else { s with hif := { s.hif with slots := s.hif.slots.map fun e =>
        (e.1, if wr e.2 then { e.2 with thru := true } else e.2) } }
    (s.setFld F.ZNE_DIRTYCFG_THRU f).znePost 0x0105 [(8, f)]

/-- EFF in buffers. -/
def State.effBufs (s : State) : Nat := s.fld F.ZNE_DIRTYCFG_EFF * 256

/-! ### The Husk -/

/-- An empty record (R126). -/
def HuskRec.empty : HuskRec := ⟨0, 0, [], 0, 0, 0⟩

/-- A record is open: 18 slice entries carry one HSEQ greater than CLOSED (R128). -/
def HuskRec.isOpen (r : HuskRec) : Bool :=
  match r.slices with
  | (_, e) :: _ => r.slices.length = 18 && r.slices.all (fun x => x.2.hseq = e.hseq) && decide (r.closed < e.hseq)
  | [] => false

/-- Husk bank 2 holds copy 0, bank 3 copy 1 (R349); a failed bank takes no writes (R131). -/
def State.bankFailed (s : State) (b : Nat) : Bool := bit (s.fld F.MRM_BANKSTAT_FAILED) b

/-- A Husk copy is out of use: its bank has failed, or its header failed at start-up (R131, assumption 80). -/
def State.copyDown (s : State) (c : Nat) : Bool :=
  s.bankFailed (c + 2) || !(if c = 0 then s.zne.husk.hdr0 else s.zne.husk.hdr1).valid

/-- Both Husk banks are failed. -/
def State.huskLost (s : State) : Bool := s.bankFailed 2 && s.bankFailed 3

/-- Change what the Husk holds. -/
def State.hk (s : State) (f : Husk → Husk) : State := s.zn fun z => { z with husk := f z.husk }

/-- Write into a record in both copies, each unless it is out of use (R131). -/
def State.huskWrite (s : State) (r : Nat) (f : HuskRec → HuskRec) : State :=
  ((s.hk fun h => { h with
    rec0 := if s.copyDown 0 then h.rec0 else Tab.modify h.rec0 r HuskRec.empty f,
    rec1 := if s.copyDown 1 then h.rec1 else Tab.modify h.rec1 r HuskRec.empty f }).sgWrite 0 1).sgWrite 3 1

/-- A record as the surviving copy gives it, copy 0 first (R133). -/
def State.huskRec (s : State) (r : Nat) : HuskRec :=
  Tab.getD (if s.copyDown 0 then s.zne.husk.rec1 else s.zne.husk.rec0) r HuskRec.empty

/-- The blocks of the parity shelf, as recorded at formation (R132, R440). -/
def State.shelfBlks (s : State) : List Nat := Tab.keys (Tab.keep s.zne.sysUse fun _ u => u = .shelf)

/-- Slots of one shelf block: slices of the SLC-mode block (R132). -/
def State.shelfPer (s : State) : Nat := s.blockBytes / 4 / s.sliceBytes

/-- Channel of a shelf slot. -/
def State.shelfChan (s : State) (i : Nat) : Nat := blkChan (s.shelfBlks.getD (i / s.shelfPer) 0)

/-- Two free shelf slots on different channels, for the P and Q of a record's stripe; none where the shelf is full (R132). -/
def State.takeShelf (s : State) (r : Nat) : Option (Nat × Nat × State) :=
  let free := fun (i : Nat) => (Tab.find s.zne.husk.shelf i).isNone
  let n := s.shelfBlks.length * s.shelfPer
  match (List.range n).find? free with
  | none => none
  | some p =>
    match (List.range n).find? fun i => free i && decide (s.shelfChan i ≠ s.shelfChan p) with
    | none => none
    | some q => some (p, q, s.hk fun h => { h with shelf := Tab.set (Tab.set h.shelf p r) q r })

/-- The slots of the parity shelf that a record uses are free again (R132). -/
def State.freeShelf (s : State) (r : Nat) : State :=
  let rec_ := s.huskRec r
  let mine := fun (i : Nat) => Tab.find s.zne.husk.shelf i == some r && (i == rec_.pshelf || i == rec_.qshelf)
  s.hk fun h => { h with shelf := Tab.keep h.shelf fun i _ => !mine i, shelfCw := Tab.keep h.shelfCw fun i _ => !mine (i / 128) }

/-- A record no stripe holds and that is not open (R128, R130 step 1). -/
def State.freeRecord (s : State) : Option Nat :=
  (List.range (s.zne.stripes.length + s.zne.husk.rec0.length + s.zne.husk.rec1.length + 1)).find? fun r =>
    decide (r < 6400) && !(s.huskRec r).isOpen && s.zne.stripes.all fun e => e.2.record != some r

/-- A block of HSEQ or epoch values is reserved in the config region, or with both banks failed in the table journal (R129, R131). -/
def State.reserveBlock (s : State) : State := if s.zne.husk.inJournal then s else s.cfgWrite

/-- The next HSEQ, reserving a further block of 65,536 at its end (R129). -/
def State.nextHseq (s : State) : Nat × State :=
  let h := s.zne.husk
  let s := if h.hseqResv ≤ h.hseq + 1 then s.reserveBlock else s
  (h.hseq, s.hk fun h => { h with
    hseq := h.hseq + 1,
    hseqResv := if h.hseqResv ≤ h.hseq + 1 then h.hseqResv + 65536 else h.hseqResv })

/-- n consecutive program epochs (R36), reserved in blocks of 65,536 (R350). -/
def State.nextEpochs (s : State) (n : Nat) : Nat × State :=
  let h := s.zne.husk
  let s := if h.epochResv ≤ h.epoch + n then s.reserveBlock else s
  (h.epoch, s.hk fun h => { h with
    epoch := h.epoch + n,
    epochResv := if h.epochResv ≤ h.epoch + n then h.epochResv + 65536 else h.epochResv })

/-- The P and Q of a stripe whose record is r go to the shelf, and its shelf entry names them (R132, R135); slots it holds already stay;
their two slice programs take epochs (R36). -/
def State.shelve (s : State) (r hseq : Nat) : State :=
  let x := s.huskRec r
  if x.shelfSeq = hseq ∧ hseq ≠ 0 then
    s.hk fun h => { h with shelf := Tab.set (Tab.set h.shelf x.pshelf r) x.qshelf r }
  else
    match s.takeShelf r with
    | some (p, q, s) => (s.nextEpochs 2).2.huskWrite r fun h => { h with shelfSeq := hseq, pshelf := p, qshelf := q }
    | none => s

/-! ### Stripes -/

/-- A stripe by number. -/
def State.stripe (s : State) (k : Nat) : Option Stripe := Tab.find s.zne.stripes k

/-- Change a stripe. -/
def State.modStripe (s : State) (k : Nat) (f : Stripe → Stripe) : State :=
  s.zn fun z => { z with stripes := Tab.adjust z.stripes k f }

/-- Index of an SLC stripe: body × stripes per body + stripe (R77, R176). -/
def State.slcIndex (s : State) (b i : Nat) : Nat := b * s.stageSpb + i

/-- A stripe's data lies in SLC mode. -/
def Stripe.slc (t : Stripe) : Bool :=
  match t.of_ with
  | .stage _ _ => true
  | .conv _ _ => true
  | .journal _ => true
  | _ => false

/-- Slice index of a stripe in its member blocks. -/
def Stripe.idx (t : Stripe) : Nat :=
  match t.of_ with
  | .body _ i => i
  | .stage _ i => i
  | .conv _ i => i
  | .reloc _ i => i
  | .journal i => i

/-- The zone of a body or relocation stripe. -/
def Stripe.zmi (t : Stripe) : Option Nat :=
  match t.of_ with
  | .body z _ => some z
  | .reloc z _ => some z
  | _ => none

/-- The open stripes of a body. -/
def State.bodyStripes (s : State) (zmi : Nat) : Tab Stripe :=
  Tab.keep s.zne.stripes fun _ t => match t.of_ with
    | .body z _ => z == zmi
    | _ => false

/-- State of a body's stripe (R123): an open stripe's own state; Filling when it is not open and not closed. -/
def State.bodyStripeSt (s : State) (zmi idx : Nat) : Option StripeSt :=
  match s.zne.stripes.find? (fun e => e.2.of_ = .body zmi idx) with
  | some (_, t) => some t.st
  | none => none

/-- Every earlier stripe of a body has its programs started (R72): it is closed or Programming. -/
def State.earlierStarted (s : State) (zmi idx : Nat) : Bool :=
  (List.range idx).all fun j =>
    decide (j < (s.zone zmi).bstripes) || s.bodyStripeSt zmi j = some .programming

/-- A member rebuild of the body has not reached the stripe (R148). -/
def State.rebuildHolds (s : State) (zmi idx : Nat) : Bool :=
  s.zne.jobs.any fun e => e.2.kind = .rebuild && e.2.slcBody.isNone && e.2.zmi = zmi && decide (e.2.done ≤ idx)

/-- A finished zone, whose last stripe is padded: Full, or Read Only since it was Full (R54, R82). -/
def Zone.padded (z : Zone) : Bool := z.zs = .full || (z.zs = .readOnly && z.rstate = .full)

/-- Every codeword of a body stripe is in a held buffer that is not being staged, or lies in a pad member wholly at or above WP (R72,
R75, R82). -/
def State.stripeFull (s : State) (zmi idx : Nat) : Bool :=
  let z := s.zone zmi
  (List.range s.lps).all fun k =>
    let off := idx * s.lps + k
    (match s.zoneBuf zmi off with
      | some (_, b) => b.st = .held && (b.moved || !b.staging)
      | none => false) ||
    (z.padded && decide (z.wp ≤ idx * s.lps + k / s.cps * s.cps))

/-- Members of a new stripe over 18 blocks; data members from `pads` up are pad members. -/
def newMembers (blks : List Nat) (pads : Nat) : List Member :=
  (blks.zip (List.range 18)).map fun (b, m) =>
    { blk := b, st := if pads ≤ m ∧ m < 16 then .passed else .idle, pad := decide (pads ≤ m ∧ m < 16), epoch := 0 }

/-- The blocks of an SLC stripe's body are erased and verified (R57, R77). -/
def State.slcReady (s : State) (t : Stripe) : Bool :=
  match t.of_ with
  | .stage b _ => ((Tab.find s.zne.slc b).map (·.ready)).getD false
  | .conv b _ => ((Tab.find s.zne.slc b).map (·.ready)).getD false
  | _ => true

/-- With the Husk lost a stripe may be programmed (R131): a stage stripe, while no other is on its way. -/
def State.aloneStage (s : State) (t : Stripe) : Bool :=
  (match t.of_ with | .stage _ _ => true | _ => false) &&
  s.zne.stripes.all fun e => e.2.record.isSome || (e.2.st != .committed && e.2.st != .programming)

/-- Commit a stripe: take a record, the next HSEQ and 18 epochs, and write its slice entries (R130 steps 1 to
3). Without a free record it stays Filling. With the Husk lost no body stripe is committed; a stage stripe is Committed at once, one at
a time, and verified (R131). -/
def State.commitStripe (s : State) (k : Nat) : State :=
  match s.stripe k with
  | none => s
  | some t =>
    if t.record.isSome ∨ t.st ≠ .filling ∨ s.slcReady t = false then s
    else if s.huskLost then
      if s.aloneStage t = false then s else
      let (e, s) := s.nextEpochs 18
      let (o, s) := s.fresh
      s.modStripe k fun t => { t with
        st := .committed, verify := true, order := o,
        members := (t.members.zip (List.range 18)).map fun (x, m) => { x with epoch := e + m } }
    else
      match s.freeRecord with
      | none => s
      | some r =>
        let (h, s) := s.nextHseq
        let (e, s) := s.nextEpochs 18
        s.modStripe k fun t => { t with
          record := some r, hseq := h, acked := 0,
          members := (t.members.zip (List.range 18)).map fun (x, m) => { x with epoch := e + m } }

/-- A fold or a Copy filled a buffer of a body stripe: its members are verified (R79, R123). -/
def State.stripeMoved (s : State) (zmi idx : Nat) : Bool :=
  (s.zoneBufs zmi).any fun e => e.2.moved && (match e.2.own with
    | .zone _ o => o / s.lps == idx
    | _ => false)

/-- Open and commit the next body stripe of a zone once R72 allows it; none of a zone that the controller finished, whose other
data lies in the stage (R85). -/
def State.tryCommitBody (s : State) (zmi idx : Nat) (verify : Bool) : State :=
  let z := s.zone zmi
  if z.body.length = 18 ∧ z.zs ≠ .pending ∧ z.fbc = false ∧ (s.bodyStripeSt zmi idx).isNone = true ∧ z.bstripes ≤ idx ∧
      s.stripeFull zmi idx = true ∧ s.earlierStarted zmi idx = true ∧ s.rebuildHolds zmi idx = false then
    let pads := if z.padded then (z.wp - idx * s.lps + s.cps - 1) / s.cps else 16
    let (k, s) := s.fresh
    let s := s.zn fun x => { x with stripes := Tab.set x.stripes k ⟨.body zmi idx, .filling, none, 0,
      newMembers z.body pads, 0, false, verify || s.stripeMoved zmi idx, false, 0, [], s.now, z.set, true,
      s.stripeMoved zmi idx, false, []⟩ }
    s.commitStripe k
  else s

/-- Stripes that could not take a record, and body stripes that wait, are tried again. -/
def State.retryCommits (s : State) : State :=
  let s := (Tab.keep s.zne.stripes fun _ t => t.st = .filling && t.record.isNone &&
    t.want).foldl
      (fun s e => s.commitStripe e.1) s
  s.zne.zones.foldl (fun s e =>
    if e.2.body.length = 18 ∧ (s.zoneBufs e.1).length ≠ 0 then
      (List.range 2).foldl (fun s j => s.tryCommitBody e.1 ((s.zone e.1).bstripes + (s.bodyStripes e.1).length + j)
        (s.zone e.1).staged) s
    else s) s

/-- The slice entry of a member (R127). -/
def State.sliceEntry (s : State) (t : Stripe) (m : Nat) : SliceEntry :=
  let x := t.members.getD m ⟨0, .idle, false, 0⟩
  let zone := match t.of_ with
    | .body z _ => z
    | .reloc z _ => z
    | .stage b i => s.slcIndex b i
    | .conv b i => s.slcIndex b i
    | .journal i => i
  let stripe := if t.slc then 0 else t.idx
  ⟨t.hseq, x.epoch, x.blk, zone, stripe + m * 2 ^ 11 + b2n t.slc * 2 ^ 23 + b2n x.pad * 2 ^ 24⟩

/-- HUSK_SLICE_ENTRY_ACK: MRM acknowledged a slice entry in both copies; after the last the stripe is Committed
(R30, R130 step 3). -/
def execHuskSliceEntryAck (r : Fin 6400) (m : Fin 18) (s : State) : Host.Outcome State Fault Refusal :=
  match s.zne.stripes.find? (fun e => e.2.record = some r.val) with
  | none => .next s
  | some (k, t) =>
    if t.st ≠ .filling ∨ bit t.acked m.val = true then .next s
    else
      let s := s.huskWrite r.val fun h => { h with slices := Tab.set h.slices m.val (s.sliceEntry t m.val) }
      let acked := setBit t.acked m.val
      if acked = 0x3FFFF then
        let (o, s) := s.fresh
        .next (s.modStripe k fun t => { t with acked := acked, st := .committed, order := o })
      else .next (s.modStripe k fun t => { t with acked := acked })

/-- The program operations of a stripe: one for each member that is no pad member (R82, R124). -/
def State.stripePrograms (_s : State) (k : Nat) (t : Stripe) (bg : Bool) (ten : Nat) : List DieOp :=
  ((t.members.zip (List.range 18)).filter fun e => !e.1.pad && e.1.st = .idle).map fun (x, m) =>
    { plainOp 3 .program t.slc x.blk t.idx [] (.prog k m) ten with bg := bg, own := t.of_ }

/-- Whether a stripe carries fold, Copy, relocation or rebuild data, whose programs cost background tokens
(R99). -/
def Stripe.background (t : Stripe) : Bool := t.bg

/-- The tenancy charged for a stripe's background programs: the owner of the zone, of the namespace, or of the first codeword moved
into a stage stripe (R99). -/
def State.stripeTen (s : State) (t : Stripe) : Nat :=
  match t.of_ with
  | .body z _ => s.zoneTen z
  | .reloc z _ => s.zoneTen z
  | .stage _ _ => match t.pack.find? fun c => c.src.isSome with
    | some ⟨_, .zone z _, _, _, _⟩ => s.zoneTen z
    | some ⟨_, .conv n _ _, _, _, _⟩ => ((Tab.find s.zne.conv n).map (·.owner)).getD 0xFF
    | _ => 0xFF
  | .conv b _ => match Tab.find s.zne.slc b with
    | some x => match Tab.find s.zne.conv x.ns with
      | some n => n.owner
      | none => 0xFF
    | none => 0xFF
  | .journal _ => 0xFF

/-- A stripe of a body that waits for the mark of a rebuild (R148). -/
def State.stripeHeld (s : State) (t : Stripe) : Bool :=
  match t.of_ with
  | .body z i => s.rebuildHolds z i
  | _ => false

/-- POWER_TOKEN_GRANT: the first Committed stripe, in the order of commitment, has all its programs granted
together when the power and background checks allow; their descriptors are posted in the same step (R124,
R368). A stripe that does not fit holds back every later one; one that waits for
the mark of a rebuild holds back none (R148). -/
def execPowerTokenGrant (s : State) : Host.Outcome State Fault Refusal :=
  match minBy (fun e => e.2.order) (Tab.keep s.zne.stripes fun _ t => t.st = .committed && !t.withdrawn && !s.stripeHeld t) with
  | none => .next s
  | some (k, t) =>
    let os := s.stripePrograms k t t.background (s.stripeTen t)
    if s.powerAdmits os && s.bgAdmits os then
      let s := s.takeBg os
      let s := s.modStripe k fun t => { t with st := .programming, members := t.members.map fun x =>
        if x.st = .idle then { x with st := .posted } else x }
      .next ((os.foldl (fun s o => s.enqueue { o with granted := true }) s).showPower).retryCommits
    else .next s

/-- Write a stripe's close entry once all 18 members have passed (R130 step 5). With the Husk lost there is none,
and the stripe's close follows at once. -/
def State.checkClose (s : State) (k : Nat) : State :=
  match s.stripe k with
  | some t =>
    if t.st ≠ .filling ∧ t.st ≠ .committed ∧ t.members.all (fun x => x.st = .passed) = true then
      s.modStripe k fun t => { t with closing := true }
    else s
  | none => s

/-- A member's state changes. -/
def State.setMember (s : State) (k m : Nat) (st : MemberSt) : State :=
  s.modStripe k fun t => { t with members := t.members.modify m fun x => { x with st := st } }

/-- Enter a zone in the closing list with the HSEQ of its newest open record (R125), at most 6,400 entries. -/
def State.closingAdd (s : State) (zmi : Nat) : State :=
  if (s.bodyStripes zmi).any (fun e => e.2.st = .committed || e.2.st = .programming) &&
      decide (s.zne.husk.closing.length < 6400) then
    let newest := (s.bodyStripes zmi).foldl (fun m e => max m e.2.hseq) 0
    s.hk fun h => { h with closing := Tab.set h.closing zmi newest }
  else s

/-- Withdraw a Committed stripe for staging: its close entry carries PASS 0 (R75). -/
def State.withdraw (s : State) (k : Nat) : State :=
  s.modStripe k fun t => { t with withdrawn := true, closing := true }

end Sys2Proof.Machine
end

