-- ==== Sys2Proof/Machine/Complete.lean ====
section
/-! DEFINITION. Completions and credits on the host side: functions, task slots, the completion queue and its
interrupts (R29, R270, R271, R277), latency histograms (R117), hazard entries (R191), and when an earlier command
holds a later one back (R67, R81, R88). -/

namespace Sys2Proof.Machine

/-! ### Functions and slots -/

/-- A function right after a controller reset (R261, R277). -/
def Func.initial : Func := ⟨.disabled, false, false, 0, [], [], [], [], [], [], false, 0, 0, 0, [], [], []⟩

/-- A function of the node: port × 128 + f. -/
def State.func (s : State) (fn : Nat) : Func := Tab.getD s.hif.fns fn Func.initial

/-- Change a function. -/
def State.modFunc (s : State) (fn : Nat) (f : Func → Func) : State :=
  s.hf fun h => { h with fns := Tab.modify h.fns fn Func.initial f }

/-- The tenancy of a function (R259). -/
def State.fnTen (s : State) (fn : Nat) : Nat := s.fld (F.HIF_FNMAP_TEN (fn / 128) (fn % 128))

/-- HIF of a port posts an event. -/
def State.hifPost (s : State) (port id : Nat) (items : List (Nat × Nat)) (ten : Nat := 0xFF) : State :=
  s.post (0x0C + port) id items ten

/-- A task slot in use. -/
def State.slot (s : State) (i : Nat) : Option Slot := Tab.find s.hif.slots i

/-- Change a task slot. -/
def State.modSlot (s : State) (i : Nat) (f : Slot → Slot) : State :=
  s.hf fun h => { h with slots := Tab.adjust h.slots i f }

/-- The opcode of a slot's command. -/
def Slot.opc (x : Slot) : Nat := x.sqe.opc.toNat

/-- Starting LBA of an entry (CDW10 and CDW11). -/
def Sqe.slba (e : Sqe) : Nat := e.cdw10.toNat + e.cdw11.toNat * 2 ^ 32

/-- Number of logical blocks of an entry (CDW12[15:0], 0's based). -/
def Sqe.nlb (e : Sqe) : Nat := e.cdw12.toNat % 2 ^ 16 + 1

/-- A namespace by its index. -/
def State.nsAt (s : State) (n : Nat) : Option Ns := Tab.find s.hif.nss n

/-- Namespace index of a namespace ID. -/
def State.nsOfId (s : State) (nsid : Nat) : Option Nat := (s.hif.nss.find? fun e => e.2.nsid = nsid).map (·.1)

/-! ### Interrupts and completions -/

/-- Raise the interrupt of a completion queue, unless it is coalesced (R277 feature 0x08): the aggregation
threshold in bits 7:0 and the time in bits 15:8. -/
def State.raiseInt (s : State) (fn cq : Nat) : State :=
  match Tab.find (s.func fn).cqs cq with
  | none => s.hf fun h => { h with ints := h.ints ++ [(fn, 0)] }
  | some c =>
    let f := Tab.getD (s.func fn).feats 0x08 0
    if cq ≠ 0 ∧ bits f 8 8 ≠ 0 ∧ c.pendingInt < bits f 0 8 then
      s.modFunc fn fun x => { x with cqs := Tab.set x.cqs cq { c with pendingInt := c.pendingInt + 1 } }
    else
      (s.modFunc fn fun x => { x with cqs := Tab.set x.cqs cq { c with pendingInt := 0 } }).hf fun h =>
        { h with ints := h.ints ++ [(fn, c.vector)] }

/-- The pseudo function of commands that another node forwarded to this one (R388); their queue number is the tag. -/
def fwdFn : Nat := 256

/-- The number a completion travels as: DW0, DW1, and the status by its place in the list of statuses (assumption 27). -/
def Cpl.answer (c : Cpl) : Nat := c.dw0 % 2 ^ 32 + c.dw1 % 2 ^ 32 * 2 ^ 32 + c.st.ctorIdx * 2 ^ 64

/-- A forwarded command's completion goes back to the node that sent it and is kept with its tag (R388, R389); an admin
command's number is its command identifier, kept above the tags. -/
def State.postFwd (s : State) (c : Cpl) : State :=
  let key := if c.qid = 2 ^ 32 then 2 ^ 32 + c.cid else c.qid
  { s with casc := { s.casc with
    tags := s.casc.tags.map fun t => if t.tag = key then { t with cpl := some c } else t,
    msgs := s.casc.msgs ++ [⟨0, 3, key, c.answer, c.data⟩] } }

/-- The device runs on the recovery path (R322, R333). -/
def State.recovery (s : State) : Bool := s.fld F.SEC_BOOTSTAT_PATH == 3

/-- An answer over MCTP on a binding (0 and 1 PCIe VDM of a port, 2 I3C, 3 SMBus): status, a number, bytes. On I3C with MODE 1 a pending
packet raises an in-band interrupt (R394, R396). -/
def State.mctp (s : State) (b p1 p2 : Nat) (data : List Byte) : State :=
  { s with casc := { s.casc with
    msgs := s.casc.msgs ++ [⟨16 + b, 10, p1, p2, data⟩],
    ibi := s.casc.ibi || (b == 2 && s.fld F.MGT_MBSTAT_MODE == 1) } }

/-- In recovery a tunnelled command's completion is an NVMe-MI response on the management bus (R333). -/
def State.postMi (s : State) (c : Cpl) : State :=
  s.mctp (if s.fld F.MGT_MBSTAT_MODE = 1 then 2 else 3) c.cid c.answer c.data

/-- Write a completion queue entry and raise its interrupt (COMPLETION_POST). -/
def State.postCpl (s : State) (c : Cpl) : State :=
  if c.fn = fwdFn then s.postFwd c
  else if s.recovery then s.postMi c
  else
  let cq := match Tab.find (s.func c.fn).sqs c.qid with
    | some q => q.cq
    | none => 0
  let s := s.modFunc c.fn fun x => { x with cqs := match Tab.find x.cqs cq with
    | some q => Tab.set x.cqs cq { q with tail := if q.tail + 1 < q.size then q.tail + 1 else 0 }
    | none => x.cqs }
  (s.hf fun h => { h with cpls := h.cpls ++ [c] }).raiseInt c.fn cq

/-- Histogram bin of a latency in ns (R117). -/
def histBin (t : Nat) : Nat := ((List.range 63).filter fun k => decide (binEdge (k + 1) ≤ t)).length

/-- HIF records the latency of a completed Read, and LPE counts it for the tenancy's slot, and for the set's where the namespace
lies on this device (R117, R158). -/
def State.recordLatency (s : State) (ten set t : Nat) (own : Bool) : State :=
  let late := fun (k : Nat) => decide (Tab.getD s.lpe.thr k (s.fld (F.LPE_SP_THRESH k)) * 1000 ≤ t)
  let add := fun (l : Lpe) (k : Nat) => { l with
    n := Tab.modify l.n k 0 (· + 1), a := if late k then Tab.modify l.a k 0 (· + 1) else l.a }
  let s := s.bump (F.LPE_HIST_COUNT (ten * 64 + histBin t))
  { s with lpe := if own then add (add s.lpe ten) (128 + set) else add s.lpe ten }

/-- A hazard entry for a command, with the highest count in use (R191, R193). -/
def State.addHazard (s : State) (h : Hazard) : State :=
  let s := (s.hf fun x => { x with hazards := Tab.set x.hazards h.order h }).bump F.ZNE_HAZSTAT_INUSE
  s.setFld F.ZNE_HAZSTAT_PEAK (max (s.fld F.ZNE_HAZSTAT_PEAK) (s.fld F.ZNE_HAZSTAT_INUSE))

/-- The hazard entry of a slot is freed (R191). -/
def State.freeHazard (s : State) (i : Nat) : State :=
  if s.hif.hazards.any (fun e => e.2.slot = i) then
    (s.hf fun h => { h with hazards := Tab.keep h.hazards fun _ x => x.slot != i }).drop F.ZNE_HAZSTAT_INUSE
  else s

/-- Write buffers a slot's command reserved and has not used are freed. -/
def State.freeReserved (s : State) (i : Nat) : State :=
  s.releaseBufs (Tab.keys (Tab.keep s.zne.bufs fun _ b => b.slot = i && b.own = .unassigned))

/-- A task slot and every credit of its command are freed (R271). -/
def State.freeSlot (s : State) (i : Nat) : State :=
  match s.slot i with
  | none => s
  | some x =>
    let s := (s.freeReserved i).freeHazard i
    let s := s.hf fun h => { h with slots := Tab.erase h.slots i }
    let s := { s with casc := { s.casc with fwd := Tab.keep s.casc.fwd fun _ f => f.slot != i } }
    let s := if x.fn = fwdFn then s
      else s.modFunc x.fn fun y => { y with sqs := Tab.adjust y.sqs x.qid fun q => { q with live := q.live - 1 } }
    (s.drop (F.HIF_TUSE_TSU x.ten)).returnReleased

/-- The blocks a read got, by LBA. -/
def Slot.gotBlocks (x : Slot) : List (Nat × Blk × Hmd) :=
  x.blocks.filterMap fun e => match e.2 with
    | .got d h => some (e.1, d, h)
    | _ => none

/-- This node is a cascade member (R380). -/
def State.isMember (s : State) : Bool := s.fld F.VUK_CASC_ROLE == 2

/-- This node's ID: the one a member has recorded, else 0 (R380, R385). VUK_CASC.NODE shows it once the member is admitted. -/
def State.ownNode (s : State) : Nat := if s.isMember then s.casc.record.getD 0 else 0

/-- One count of the SMART log page kept for the life of the part, raised by `n` (assumption 72). -/
def State.smartAdd (s : State) (key n : Nat) : State :=
  s.hf fun h => { h with smart := Tab.set h.smart key (Tab.getD h.smart key 0 + n) }

/-- Place of a function's count, or of an Endurance Group's: 0 blocks read, 1 blocks written, 2 host reads, 3 host writes, 4 integrity
errors, 5 power losses without a shutdown, 7 ns with commands outstanding, 8 commands that failed; of no function, 6 power cycles, 9 ns
powered, 10 ns above WCTEMP, 11 ns above CCTEMP; of a group, 12 bytes programmed, 13 bytes erased, 14 blocks written to conventional
namespaces (assumption 72). -/
def smartKey (fn kind : Nat) : Nat := fn * 16 + kind

/-- What stands for an Endurance Group as a function in `smartKey`. -/
def groupFn (set : Nat) : Nat := 4096 + set

/-- A count. -/
def State.smartOf (s : State) (fn kind : Nat) : Nat := Tab.getD s.hif.smart (smartKey fn kind) 0

/-- What a completed command adds to its controller's counts and to its Endurance Group's (assumption 72): those of a forwarded command's
controller are its own node's. -/
def State.smartCount (s : State) (x : Slot) (st : Status) : State :=
  let count := fun (s : State) (f : Nat) =>
    let s := if x.opc = 0x02 ∨ x.opc = 0x05 then
        (if st = .success then s.smartAdd (smartKey f 0) x.nlb else s).smartAdd (smartKey f 2) 1
      else if x.opc = 0x01 ∨ x.opc = 0x7D then
        (if st = .success then s.smartAdd (smartKey f 1) x.nlb else s).smartAdd (smartKey f 3) 1
      else s
    let s := if st = .success then s else s.smartAdd (smartKey f 8) 1
    if st = .unrecoveredRead then s.smartAdd (smartKey f 4) 1 else s
  let s := match s.nsAt x.ns with
    | some n =>
      if n.node ≠ s.ownNode then s
      else
        let s := count s (groupFn n.set)
        if n.conv ∧ x.opc = 0x01 ∧ st = .success then s.smartAdd (smartKey (groupFn n.set) 14) x.nlb else s
    | none => s
  if x.fn = fwdFn then s else count s x.fn

/-- Complete a slot's command: its completion is posted, a Read counts in its histogram, and the slot is freed
(R29, R115, R117, R270); a command whose function was reset posts none (R284). -/
def State.complete (s : State) (i : Nat) (st : Status) (dw0 : Nat := 0) (dw1 : Nat := 0) (data : List Byte := []) :
    State :=
  match s.slot i with
  | none => s
  | some x =>
    if x.silent then s.freeSlot i
    else
    let s := s.postCpl ⟨x.fn, x.qid, x.sqe.cid.toNat, st, dw0, dw1, data,
      if x.opc = 0x02 ∧ st = .success then x.gotBlocks else []⟩
    let home := (s.nsAt x.ns).any fun n => n.node == s.ownNode
    let s := if x.opc = 0x02 ∧ x.fn ≠ fwdFn then
        s.recordLatency x.ten (((s.nsAt x.ns).map (·.set)).getD 0) (s.now - x.at_) home
      else s
    let s := if st = .unrecoveredRead then
        s.hf fun h => { h with ure := Tab.set h.ure x.ten (Tab.getD h.ure x.ten 0 + 1) }
      else s
    (s.smartCount x st).freeSlot i

/-- Post an admin completion at once (R270: admin queues draw on no tenancy credit). -/
def State.adminDone (s : State) (fn : Nat) (e : Sqe) (st : Status) (dw0 : Nat := 0) (data : List Byte := []) : State :=
  s.postCpl ⟨fn, if fn = fwdFn then 2 ^ 32 else 0, e.cid.toNat, st, dw0, 0, data, []⟩

/-- Logical blocks landed by Write, Zone Append and Copy, for the Tenancy Health log (R279 WRBLK). -/
def State.countWritten (s : State) (ten n : Nat) : State :=
  s.hf fun h => { h with wrblk := Tab.set h.wrblk ten (Tab.getD h.wrblk ten 0 + n) }

/-! ### Order between commands -/

/-- A command that ZNE handles in admission order on its zone: Write, Zone Append, Copy, Write Zeroes, Zone Management Send and
Receive. -/
def Slot.orderedOnZone (x : Slot) : Bool := x.opc ∈ [0x01, 0x7D, 0x19, 0x08, 0x79, 0x7A]

/-- A command that changes its zone. -/
def Slot.changesZone (x : Slot) : Bool := x.opc ∈ [0x01, 0x7D, 0x19, 0x08, 0x79]

/-- A command reads: Read, Compare, Verify. -/
def Slot.reads (x : Slot) : Bool := x.opc ∈ [0x02, 0x05, 0x0C]

/-- A slot's command touches a zone: its own zone, and for a read the zone its last block lies in (R89);
a Zone Management Send with Select All touches every zone of its namespace (R54). -/
def State.touches (s : State) (x : Slot) (zmi : Nat) : Bool :=
  if x.opc = 0x79 ∧ x.sqe.cdw13.toNat / 256 % 2 = 1 then (s.zone zmi).ns == x.ns
  else match x.zmi with
  | some z => z == zmi || (x.reads && decide (z ≤ zmi) && decide (zmi ≤ z + (x.slba % s.zLba + x.nlb - 1) / s.zLba))
  | none => false

/-- A started Copy's source ranges (Format 0 descriptors of 32 B, R87) lie in part in a zone of its namespace. -/
def State.copiesFrom (s : State) (x : Slot) (zmi : Nat) : Bool :=
  x.opc = 0x19 && (s.zone zmi).ns == x.ns &&
    (match s.nsAt x.ns with
      | some n => (List.range (x.sqe.cdw12.toNat % 256 + 1)).any fun k =>
          let d := x.sqe.data.drop (32 * k)
          let lba := ofLe ((d.drop 8).take 8)
          let len := ofLe ((d.drop 16).take 2) + 1
          decide (lba / s.zLba ≤ zmi - n.zbase) && decide (zmi - n.zbase ≤ (lba + len - 1) / s.zLba)
      | none => false)

/-- An earlier command to the same zone has not been handled yet (R67), or an earlier Copy to it runs (R88). -/
def State.zoneBusy (s : State) (i : Nat) (zmi order : Nat) : Bool :=
  s.hif.slots.any fun e => e.1 != i && s.touches e.2 zmi && decide (e.2.order < order) && e.2.orderedOnZone &&
    (e.2.st = .admitted || e.2.st = .waiting || e.2.opc = 0x19)

/-- A write, Zone Append or Copy admitted earlier to a zone has not completed (R81), or, for a reset, an earlier
read has not finished (R84 step 1), a Copy's reads of the zone among them. -/
def State.zoneWritesLive (s : State) (i : Nat) (zmi order : Nat) (reset : Bool) : Bool :=
  s.hif.slots.any fun e => e.1 != i && decide (e.2.order < order) &&
    ((s.touches e.2 zmi && (e.2.orderedOnZone || (reset && e.2.reads))) || (reset && s.copiesFrom e.2 zmi))

/-- Namespace and first LBA of a zone: its namespace's zone base gives its place (R40). -/
def State.zoneStart (s : State) (zmi : Nat) : Nat :=
  match s.nsAt (s.zone zmi).ns with
  | some n => (zmi - n.zbase) * s.zLba
  | none => 0

/-- Zone Map index of an LBA of a zoned namespace. -/
def State.zoneOf (s : State) (n lba : Nat) : Option Nat :=
  match s.nsAt n with
  | some x => if x.conv = false ∧ lba / s.zLba < x.zones then some (x.zbase + lba / s.zLba) else none
  | none => none

end Sys2Proof.Machine
end

