-- ==== Sys2Proof/Machine/ZoneState.lean ====
section
/-! DEFINITION. Zone states (R53 to R62): the counts, body-pending and body allocation (R56 to R58), every
transition of R54, padding at a Finish (R82), reset and release (R84), finish by controller (R85). -/

namespace Sys2Proof.Machine

/-! ### Counts (R59, R62) -/

/-- A zone of a tenancy becomes active. -/
def State.activeUp (s : State) (ten : Nat) : State := (s.bump F.ZNE_ZCNT_ACTIVE).bump (F.ZNE_TZU_ACT ten)

/-- A zone of a tenancy stops being active. -/
def State.activeDown (s : State) (ten : Nat) : State := (s.drop F.ZNE_ZCNT_ACTIVE).drop (F.ZNE_TZU_ACT ten)

/-- A zone of a tenancy becomes open. -/
def State.openUp (s : State) (ten : Nat) : State := (s.bump F.ZNE_ZCNT_OPEN).bump (F.ZNE_TZU_OPN ten)

/-- A zone of a tenancy stops being open. -/
def State.openDown (s : State) (ten : Nat) : State := (s.drop F.ZNE_ZCNT_OPEN).drop (F.ZNE_TZU_OPN ten)

/-- The tenancy's active count stands at its quota. -/
def State.activeFull (s : State) (ten : Nat) : Bool := s.fld (F.ZNE_TZU_ACT ten) == s.fld (F.ZNE_TZQ_AQ ten)

/-- The tenancy's open count stands at its quota. -/
def State.openFull (s : State) (ten : Nat) : Bool := s.fld (F.ZNE_TZU_OPN ten) == s.fld (F.ZNE_TZQ_OQ ten)

/-- A zone releases the counts of the state it leaves. -/
def State.releaseCounts (s : State) (z : Zone) : State :=
  let s := if z.active then s.activeDown z.owner else s
  if z.isOpen then s.openDown z.owner else s

/-! ### Asynchronous events -/

/-- An asynchronous event for a function: it completes an outstanding request, or waits for one (R275). -/
def State.postAen (s : State) (fn dw0 : Nat) : State :=
  match (s.func fn).aers with
  | cid :: rest => (s.modFunc fn fun x => { x with aers := rest }).postCpl ⟨fn, 0, cid, .success, dw0, 0, [], []⟩
  | [] => s.modFunc fn fun x => { x with events := x.events ++ [dw0] }

/-- A notice goes to every function of a list that has enabled it in Asynchronous Event Configuration (FID 0x0B). -/
def State.notify (s : State) (fns : List Nat) (cfgBit dw0 : Nat) : State :=
  fns.foldl (fun s fn => if bit (Tab.getD (s.func fn).feats 0x0B 0) cfgBit then s.postAen fn dw0 else s) s

/-- Zone Descriptor Changed for a zone: notice 0xEF with log page 0xBF, bit 27 of the configuration (R89). The zone enters
the Changed Zone List of every controller the namespace is attached to. -/
def State.zoneAen (s : State) (zmi : Nat) : State :=
  match s.nsAt (s.zone zmi).ns with
  | some n =>
    let z := (n.nsid, s.zoneStart zmi)
    let s := (n.fns.filter (· < 256)).foldl (fun (s : State) fn => s.modFunc fn fun f => { f with
      chZones := if f.chZones.contains z then f.chZones else f.chZones ++ [z] }) s
    s.notify n.fns 27 (2 + 0xEF * 2 ^ 8 + 0xBF * 2 ^ 16)
  | none => s

/-! ### Stage runs of a zone -/

/-- The stage stripes that hold valid runs of a zone, in the order of the runs' offsets. -/
def State.runChain (s : State) (zmi : Nat) : List Nat :=
  let rs := s.zne.srd.flatMap fun e => (e.2.filter fun r => r.valid && r.zone == zmi).map fun r => (r.off, e.1)
  (rs.mergeSort fun a b => decide (a.1 ≤ b.1)).map (·.2)

/-- What follows a value in a list. -/
def after (x : Nat) : List Nat → Option Nat
  | y :: z :: zs => if x = y then some z else after x (z :: zs)
  | _ => none

/-- Chain a zone's valid runs: STAGE names the stripe of the first, each NEXT the stripe of the one after it (R78). -/
def State.linkRuns (s : State) (zmi : Nat) : State :=
  let ch := s.runChain zmi
  let s := s.zn fun z => { z with srd := z.srd.map fun e => (e.1, e.2.map fun r =>
    if r.zone = zmi ∧ r.valid = true then { r with next := after e.1 ch } else r) }
  s.modZone zmi fun z => { z with stage := ch.head?, staged := !ch.isEmpty && (z.staged || !z.active) }

/-- Invalidate the staged runs of a zone below an offset (R79, R84). -/
def State.dropRuns (s : State) (zmi below : Nat) : State :=
  (s.zn fun z => { z with srd := z.srd.map fun e => (e.1, e.2.map fun r =>
    if r.zone = zmi ∧ r.off + r.len ≤ below then { r with valid := false } else r) }).linkRuns zmi

/-- A zone still has a valid staged run. -/
def State.hasRuns (s : State) (zmi : Nat) : Bool := s.zne.srd.any fun e => e.2.any fun r => r.valid && r.zone == zmi

/-- A stage stripe holds data: a valid run. -/
def runsValid (rs : List Run) : Bool := rs.any (·.valid)

/-- A stage body holds nothing: no valid run, no row in the Lost Row Table (R153), no conventional entry, no open stripe, and it is not its rank set's
open one (R80). -/
def State.slcIdle (s : State) (b : Nat) (x : SlcBody) : Bool :=
  x.st = .stage && x.ready && x.valid = 0 && Tab.find s.zne.openStage x.set != some b &&
  !(s.zne.srd.any fun e => e.1 / s.stageSpb == b && runsValid e.2) &&
  !(s.zne.lost.any fun e => e.2.slc && !e.2.gone && e.2.zmi / s.stageSpb == b) &&
  !(s.zne.stripes.any fun e => match e.2.of_ with | .stage k _ => k == b | _ => false)

/-- Blocks of a rank set's conventional share that fill no segment: at the largest share what floor(N_s / 128) leaves over 18, none
at a smaller one (R175; that only the largest share leaves some is DEDUCED, assumption 63). -/
def State.shareRest (s : State) (set : Nat) : Nat :=
  let most := s.setBlocks (s.rset set).ranks / 128
  if (s.rset set).conv = most / 18 then most % 18 else 0

/-- SLC bodies that the stage's part of a rank set's SLC-mode pool makes (R175). -/
def State.stageBodies (s : State) (set : Nat) : Nat :=
  (s.setBlocks (s.rset set).ranks / 64 - 18 * (s.rset set).conv - s.shareRest set) / 18

/-- SLC bodies the stage of a rank set may still take. -/
def State.stageLeft (s : State) (set : Nat) : Nat :=
  s.stageBodies set - (s.zne.slc.filter fun e => decide (e.2.set = set) && decide (e.2.st = .stage)).length

/-- Free SLC-mode blocks of a rank set on live dies. -/
def State.slcFree (s : State) (set : Nat) : Nat :=
  (s.blocksOf set fun b x => x.slc && x.st = .free && !s.deadDie (blkDie b)).length

/-- SLC bodies that the stage of a rank set can take now: of its part of the pool, and of the free blocks that the conventional share does
not keep for its free segments (R80, R175). -/
def State.stageSpare (s : State) (set : Nat) : Nat :=
  min (s.stageLeft set) ((s.slcFree set - 18 * s.freeSegs set) / 18)

/-- Free stage stripes of all rank sets (R80): those of stage bodies it can take, and those not in use of the bodies it has. -/
def State.stageFree (s : State) : Nat :=
  let blocks := 18 * sumBy (fun e => s.stageSpare e.1 +
    (s.zne.slc.filter fun b => decide (b.2.set = e.1) && decide (b.2.st = .stage)).length) s.zne.sets
  blocks / 18 * s.stageSpb - (s.zne.srd.filter fun e => runsValid e.2).length -
    (s.zne.stripes.filter fun e => match e.2.of_ with | .stage _ _ => true | _ => false).length

/-- ZNE_STAGESTAT.FREE shows the free stage stripes (R80). -/
def State.showStage (s : State) : State := s.setFld F.ZNE_STAGESTAT_FREE s.stageFree

/-- Return the blocks of idle stage bodies to their rings, and show ZNE_STAGESTAT (R80). -/
def State.reapStage (s : State) : State :=
  let idle := s.zne.slc.filter fun e => s.slcIdle e.1 e.2
  let s := idle.foldl (fun s e =>
    (s.zn fun z => { z with slc := Tab.erase z.slc e.1,
                            srd := Tab.keep z.srd fun i _ => i / s.stageSpb != e.1 }).releaseAll e.2.members) s
  let s := s.showStage
  if s.fld F.ZNE_STAGESTAT_FREE = 0 then s else s.setFld F.ZNE_STAGESTAT_FULL 0

/-! ### Releasing a zone's body and data (R84) -/

/-- Remove an open stripe: its record is closed with PASS 0 (R75, R141), its shelf slots and its queued programs go. -/
def State.dropStripe (s : State) (k : Nat) : State :=
  match s.stripe k with
  | none => s
  | some t =>
    let s := match t.record with
      | some r => (s.freeShelf r).huskWrite r fun h => { h with closed := t.hseq, pass := 0, shelfSeq := 0 }
      | none => s
    let mine := fun (o : DieOp) => match o.purpose with
      | .prog j _ => j == k
      | _ => false
    s.zn fun z => { z with
      stripes := Tab.erase z.stripes k
      dies := z.dies.map fun e => (e.1, { e.2 with queue := e.2.queue.filter fun o => !mine o }) }

/-- A stripe of the zone's body or relocation is on its way to flash. -/
def State.zoneProgramming (s : State) (zmi : Nat) : Bool :=
  s.zne.stripes.any fun e => e.2.zmi = some zmi && (e.2.st = .programming || e.2.closing)

/-- Blocks that are being erased are given up: each erase runs on to its check, as that of a pre-erase, so that no DONE of it is taken for
another's and its ledger entry stands until then (R238). -/
def State.disownErases (s : State) (blks : List Nat) : State :=
  s.zn fun z => { z with
    erases := z.erases.map fun e => (e.1, if blks.contains e.1 then { e.2 with for_ := .pre } else e.2),
    ledger := z.ledger.map fun e => (e.1, if blks.contains e.2.blk then { e.2 with pre := true, zmi := none } else e.2) }

/-- Abandon the member jobs and relocations of a zone: their new blocks go back to their rings (R141, R148,
R233); a rebuild's substitute stands in the zone's body and goes with it (R146). -/
def State.abandonJobs (s : State) (zmi : Nat) : State :=
  let js := s.zne.jobs.filter fun e => e.2.zmi = zmi && e.2.slcBody.isNone
  let rs := s.zne.relocs.filter fun e => e.2.zmi = zmi
  let dest := rs.flatMap fun e => e.2.dest
  let mine := (js.filter fun e => e.2.kind = .subst).filterMap fun e => e.2.new_
  let s := s.zn fun z => { z with
    jobs := Tab.keep z.jobs fun _ j => !(j.zmi = zmi && j.slcBody.isNone),
    relocs := Tab.keep z.relocs fun _ r => r.zmi != zmi }
  (s.disownErases (js.filterMap (fun e => e.2.new_) ++ dest)).releaseAll (mine ++ dest)

/-- A zone's rows leave the Lost Row Table (R153). -/
def State.clearLost (s : State) (zmi : Nat) : State :=
  let s := s.zn fun z => { z with unlisted := z.unlisted.filter fun e => !(e.1 == zmi && !e.2.2.2) }
  if s.zne.lost.any (fun e => e.2.zmi = zmi && !e.2.slc) then
    s.zn fun z => { z with lost := Tab.keep z.lost fun _ l => !(l.zmi = zmi && !l.slc), lostGen := z.lostGen + 1,
                           lostFull := false }
  else s

/-- Release everything a zone holds: open stripes, buffers, staged runs, jobs, lost rows, body (R84). -/
def State.releaseZone (s : State) (zmi : Nat) : State :=
  let body := (s.zone zmi).body
  let s := s.abandonJobs zmi
  let s := (Tab.keys (Tab.keep s.zne.stripes fun _ t => t.zmi = some zmi)).foldl (fun s k => s.dropStripe k) s
  let s := s.releaseBufs ((s.zne.bufs.filter fun e => match e.2.own with
    | .zone z _ => z == zmi
    | .fold z => z == zmi
    | _ => false).map (·.1))
  let s := s.zn fun z => { z with srd := z.srd.map fun e => (e.1, e.2.filter fun r => r.zone != zmi) }
  let s := (s.clearLost zmi).hk fun h => { h with closing := Tab.erase h.closing zmi }
  let s := s.modZone zmi fun z => { z with
    body := [], stage := none, staged := false, bstripes := 0, send := 0, finishPend := false, fbc := false,
    copying := false, oldest := 0 }
  (s.releaseAll body).reapStage

/-- Take a new body reservation, or go Offline with event 0x0104 (R56). -/
def State.emptyOrOffline (s : State) (zmi : Nat) : State :=
  let z := s.zone zmi
  if s.coversResv z.set (s.resvHeld z.set + 1) then
    s.modZone zmi fun z => { z with zs := .empty, wp := 0, resv := true }
  else
    ((s.modZone zmi fun z => { z with zs := .offline, wp := 0, resv := false }).znePost 0x0104
      [(32, zmi), (8, z.set + 1)] z.owner).zoneAen zmi

/-- Zone Reset takes effect (R84): reset of an Empty zone changes nothing; a zone that holds a body reservation keeps it (R56). -/
def State.resetZone (s : State) (zmi : Nat) : State :=
  let z := s.zone zmi
  if z.zs = .empty then s
  else
    let s := s.releaseCounts z
    let s := s.modZone zmi fun z => { z with azt := none }
    let s := (s.releaseZone zmi).unbindGen zmi
    if z.resv then s.modZone zmi fun z => { z with zs := .empty, wp := 0 } else s.emptyOrOffline zmi

/-- A zone goes Offline: blocks and staged runs are released, its generation reference with them (R54, R310). -/
def State.offlineZone (s : State) (zmi : Nat) : State :=
  let z := s.zone zmi
  let s := s.releaseCounts z
  let s := s.modZone zmi fun z => { z with zs := .offline, resv := false, azt := none }
  let s := s.releaseZone zmi
  if z.zs = .empty ∨ z.zs = .offline then s else s.unbindGen zmi

/-- A zone goes Read Only because a stripe row is lost (R54, R152); RSTATE keeps the state it left. A body-pending zone does once its body
is mapped: R54 has no such row for it. -/
def State.readOnlyZone (s : State) (zmi : Nat) : State :=
  let z := s.zone zmi
  if z.zs ∈ [.iopen, .eopen, .closed, .full] then
    let s := if z.active then s.closingAdd zmi else s
    ((s.releaseCounts z).modZone zmi fun z => { z with zs := .readOnly, rstate := z.zs, azt := none }).zoneAen zmi
  else s

/-- A row in the Lost Row Table has an LBA of a zone in the stage (R152, R153). -/
def State.zoneRowLost (s : State) (zmi : Nat) : Bool :=
  s.zne.lost.any fun e => e.2.slc && !e.2.gone && (Tab.getD s.zne.srd e.2.zmi []).any fun r => r.valid && r.zone == zmi &&
    (List.range 16).any fun m => decide (r.pos ≤ m * s.stageCps + e.2.row) && decide (m * s.stageCps + e.2.row < r.pos + r.len)

/-! ### Becoming Full -/

/-- A zone becomes Full (R54), entering the closing list while a stripe of its body is open (R125). -/
def State.fullZone (s : State) (zmi : Nat) (byController : Bool) : State :=
  let z := s.zone zmi
  let s := if z.active then s.closingAdd zmi else s
  (s.releaseCounts z).modZone zmi fun z => { z with
    zs := .full, fbc := byController, finishPend := false, resv := z.body.isEmpty, azt := none, staged := z.staged || s.hasRuns zmi }

/-- Offsets that a Finish pads: from WP to the end of the data member that holds WP − 1 (R82 step 1). -/
def State.padOffsets (s : State) (wp : Nat) : List Nat :=
  (List.range ((wp + s.cps - 1) / s.cps * s.cps - wp)).map (wp + ·)

/-- Encrypted void or pad data of a zone offset: 4,096 zero bytes under the zone's key (R69, R82). -/
def State.zeroData (s : State) (zmi off : Nat) : Option Blk × State :=
  let z := s.zone zmi
  s.encryptBlk z.ns z.gen z.owner (s.zoneStart zmi + off) 0

/-- Put pad codewords in buffers of their own. -/
def State.padBuffers (s : State) (zmi : Nat) : List Nat → State
  | [] => s
  | o :: os =>
    let z := s.zone zmi
    let (d, s) := s.zeroData zmi o
    let (i, s) := s.reserveBuf (.zone zmi o) z.ns z.gen z.owner 65536
    (s.modBuf i fun b => { b with st := .held, data := d.getD 0, bad := d.isNone, void := true }).padBuffers zmi os

/-- The buffers a Finish needs fit in EFF (R82). -/
def State.padFits (s : State) (wp : Nat) : Bool :=
  decide (s.fld F.ZNE_DIRTY_CUR + (s.padOffsets wp).length ≤ s.effBufs)

/-- The stripe holding WP − 1 is not closed yet, so a Finish has something to complete. -/
def State.finishPads (s : State) (z : Zone) : Bool := decide (z.bstripes * s.lps < z.wp)

/-- Zone Finish of an active zone with its body mapped (R82). -/
def State.finishActive (s : State) (zmi : Nat) (byController : Bool) : State :=
  let z := s.zone zmi
  let s := if s.finishPads z && !byController then s.padBuffers zmi (s.padOffsets z.wp) else s
  (s.fullZone zmi byController).retryCommits

/-- A zone is finished by the controller (R58, R85): its data stays readable, in the body and the stage; event
0x0103 and a Zone Descriptor Changed notice. The records of its open stripes are freed, and their data goes to the stage (R141); a zone
that is no longer active only gives up its open stripes. -/
def State.finishByController (s : State) (zmi : Nat) : State :=
  let z := s.zone zmi
  let pend := Tab.getD s.zne.pend zmi []
  let s := s.zn fun x => { x with pend := Tab.erase x.pend zmi }
  let s := (s.disownErases pend).releaseAll pend
  let s := (Tab.keys (Tab.keep s.zne.stripes fun _ t => t.of_ == .body zmi t.idx)).foldl (fun s k => s.dropStripe k) s
  let s := s.hk fun h => { h with closing := Tab.erase h.closing zmi }
  if z.active then ((s.fullZone zmi true).znePost 0x0103 [(32, zmi), (19, z.wp)] z.owner).zoneAen zmi
  else s.modZone zmi fun z => { z with fbc := true }

/-! ### Body-pending (R57) -/

/-- All members of a body-pending zone are erased and verified: BODY is written and the zone leaves body-pending
(BODY_MAPPED). -/
def State.bodyMapped (s : State) (zmi : Nat) : State :=
  let z := s.zone zmi
  let blks := Tab.getD s.zne.pend zmi []
  if z.zs = .pending ∧ blks.length = 18 ∧
      s.zne.erases.all (fun e => decide (e.2.for_ ≠ .zone zmi)) = true then
    let s := s.zn fun x => { x with pend := Tab.erase x.pend zmi }
    let s := s.modZone zmi fun z => { z with zs := z.rstate, body := blks, epoch := s.zne.husk.epoch }
    let s := if z.wp = s.zLba then s.fullZone zmi false else s
    let s := if s.zoneRowLost zmi then s.readOnlyZone zmi else s
    s.retryCommits
  else s

/-- A block a zone's body is to have: erased first, unless it stands clean (R57, R231). -/
def State.takeMember (s : State) (f : EraseFor) (e : RingEnt) : State :=
  if s.usableClean e then s else s.beginErase e.blk f

/-- Body allocation for a zone that leaves Empty (R57, R230). -/
def State.allocPending (s : State) (zmi : Nat) : State :=
  let z := s.zone zmi
  match s.allocBody z.set false false .body with
  | some (es, s) =>
    let s := s.zn fun x => { x with pend := Tab.set x.pend zmi (es.map (·.blk)) }
    (es.foldl (fun s e => s.takeMember (.zone zmi) e) s).bodyMapped zmi
  | none => s.finishByController zmi

/-- A free entry of the Active Zone Table, which has 8,192 (R63, R64). -/
def State.freeAzt (s : State) : Option Nat :=
  (List.range 8192).find? fun i => s.zne.zones.all fun e => e.2.azt != some i

/-- A zone leaves Empty (R54): it binds the current generation, enters body-pending and takes its body. -/
def State.leaveEmpty (s : State) (zmi : Nat) (rs : ZState) : State :=
  let s := s.bindGen zmi
  let z := s.zone zmi
  let s := (s.activeUp z.owner).openUp z.owner
  let s := s.modZone zmi fun z => { z with
    zs := .pending, rstate := rs, wp := 0, resv := false, bstripes := 0, send := 0, azt := s.freeAzt }
  s.allocPending zmi

/-- The block that replaces a member of a body being allocated: an eligible entry on a channel not in it. -/
def State.otherChannel (s : State) (set : Nat) (slc : Bool) (used : List Nat) (wear : Bool := false) : Option RingEnt :=
  match s.chooseBody set slc wear ((s.walk (s.rset set).rotor).filter fun c => !(used.map blkChan).contains c) 1 with
  | e :: _ => some e
  | [] => none

/-- A member of a body-pending zone is replaced by a block on a channel not yet in the body, or the zone is
finished by the controller (R57, R58). -/
def State.replacePending (s : State) (zmi b : Nat) : State :=
  let rest := (Tab.getD s.zne.pend zmi []).filter (· != b)
  let s := s.dropErase b
  match s.otherChannel (s.zone zmi).set false rest with
  | some e =>
    let s := (s.takeEnt (s.zone zmi).set e).modBlk e.blk fun x => { x with st := .body }
    let s := s.zn fun x => { x with pend := Tab.set x.pend zmi ((Tab.getD x.pend zmi []).map fun y =>
      if y = b then e.blk else y) }
    (s.takeMember (.zone zmi) e).bodyMapped zmi
  | none =>
    (s.zn fun x => { x with pend := Tab.set x.pend zmi rest }).finishByController zmi

/-! ### Open and Close -/

/-- A zone closes, by command or implicitly (R54). -/
def State.closeZone (s : State) (zmi : Nat) : State :=
  let z := s.zone zmi
  (s.openDown z.owner).modZone zmi fun z => if z.zs = .pending then { z with rstate := .closed } else { z with zs := .closed }

/-- The tenancy's Implicitly Opened zone with the oldest last write admission (R61). -/
def State.implicitVictim (s : State) (ten zmi : Nat) : Option Nat :=
  (minBy (fun e => e.2.lastWr) (s.zne.zones.filter fun e =>
    e.2.owner = ten && e.2.reported = .iopen && e.1 != zmi)).map (·.1)

/-- Whether a write, Zone Append or Copy may make its zone active or open (R61), with the zone closed for it. -/
def State.writeQuota (s : State) (zmi : Nat) : Option Status × Option Nat :=
  let z := s.zone zmi
  if z.zs = .empty ∧ s.activeFull z.owner = true then (some .tooManyActive, none)
  else if (z.zs = .empty ∨ z.reported = .closed) ∧ s.openFull z.owner = true then
    match s.implicitVictim z.owner zmi with
    | some v => (none, some v)
    | none => (some .tooManyOpen, none)
  else (none, none)

/-- Implicit close with event 0x0101 (IMPLICIT_CLOSE). -/
def State.implicitClose (s : State) (v : Nat) : State :=
  (s.closeZone v).znePost 0x0101 [(32, v)] (s.zoneTen v)

/-- A zone is made ready for data: it leaves Empty or Closed as Implicitly Opened (R54). -/
def State.openForWrite (s : State) (zmi : Nat) (victim : Option Nat) : State :=
  let s := match victim with
    | some v => s.implicitClose v
    | none => s
  let z := s.zone zmi
  if z.zs = .empty then s.leaveEmpty zmi .iopen
  else if z.reported = .closed then
    (s.openUp z.owner).modZone zmi fun z => if z.zs = .pending then { z with rstate := .iopen } else { z with zs := .iopen }
  else s

/-- Zone Open (R54, R55, R61): its status and effect. DEDUCED (assumption 60): a body-pending zone is opened as its reported state
says, so that RSTATE becomes 0x3. -/
def State.openZone (s : State) (zmi : Nat) : Status × State :=
  let z := s.zone zmi
  match z.reported with
  | .empty =>
    if !s.genAllows z.ns then (.keyRotationPending, s)
    else if s.activeFull z.owner then (.tooManyActive, s)
    else if s.openFull z.owner then (.tooManyOpen, s)
    else (.success, s.leaveEmpty zmi .eopen)
  | .iopen =>
    (.success, s.modZone zmi fun z => if z.zs = .pending then { z with rstate := .eopen } else { z with zs := .eopen })
  | .closed =>
    if s.openFull z.owner then (.tooManyOpen, s)
    else (.success, (s.openUp z.owner).modZone zmi fun z =>
      if z.zs = .pending then { z with rstate := .eopen } else { z with zs := .eopen })
  | .offline => (.zoneIsOffline, s)
  | _ => (.invalidZoneTransition, s)

end Sys2Proof.Machine
end

