-- ==== Sys2Proof/Machine/Slc.lean ====
section
/-! DEFINITION. SLC bodies: their numbering and allocation (R77, R80, R175, R176), packing of codewords into stage
and conventional stripes (R78, R176), conventional map entries and segments (R178 to R188), and what closing an SLC
stripe publishes. -/

namespace Sys2Proof.Machine

/-! ### Allocation -/

/-- Show ZNE_CRSTAT.FREESEG. -/
def State.showSegs (s : State) : State :=
  s.setFld F.ZNE_CRSTAT_FREESEG (sumBy (fun e => s.freeSegs e.1) s.zne.sets)

/-- Allocate an SLC body of a rank set for the stage or for a conventional pair; its blocks are erased first unless
clean (R57, R230, R231), within the stage's part of the SLC-mode pool or the conventional share (R175). -/
def State.allocSlc (s : State) (set : Nat) (st : SegSt) (ns ruh : Nat) : Option (Nat × State) :=
  if (if st = .stage then s.stageLeft set else s.freeSegs set) = 0 then none
  else match s.allocBody set true false (if st = .stage then .stage else .conv) with
  | none => none
  | some (es, s') =>
      let b := Tab.firstFree s.zne.slc 0
      let body : SlcBody := ⟨set, es.map (·.blk), st, 0, s.zne.fillSeq, ns, ruh, 0, es.all s.usableClean⟩
      let s' := s'.zn fun z => { z with slc := Tab.set z.slc b body, fillSeq := z.fillSeq + 1 }
      some (b, (es.foldl (fun s e => s.takeMember (.slc b) e) s').showSegs)

/-- Change an SLC body. -/
def State.modSlc (s : State) (b : Nat) (f : SlcBody → SlcBody) : State :=
  s.zn fun z => { z with slc := Tab.adjust z.slc b f }

/-- The members of an SLC body are all erased and verified. -/
def State.slcMapped (s : State) (b : Nat) : State :=
  if s.zne.erases.all (fun e => decide (e.2.for_ ≠ .slc b)) then
    (s.modSlc b fun x => { x with ready := true }).retryCommits
  else s

/-- Open a new stripe of an SLC body. -/
def State.openSlcStripe (s : State) (of_ : StripeOf) (members : List Nat) (set : Nat) (verify bg : Bool) : Nat × State :=
  let (k, s) := s.fresh
  (k, s.zn fun x => { x with stripes := Tab.set x.stripes k ⟨of_, .filling, none, 0, newMembers members 16, 0, false,
    verify, false, 0, [], s.now, set, false, bg, false, []⟩ })

/-- Key of a conventional pair's open stripe: namespace, handle, and whether it takes reclaimed data (R190). -/
def pairKey (ns ruh : Nat) (reclaim : Bool) : Nat := ns * 16 + ruh * 2 + b2n reclaim

/-- The filling stage stripe of a rank set. -/
def State.stageStripe (s : State) (set : Nat) : Option (Nat × Stripe) :=
  s.zne.stripes.find? fun e => e.2.set = set && e.2.st = .filling && !e.2.want &&
    (match e.2.of_ with | .stage _ _ => true | _ => false)

/-- The filling conventional stripe of a pair. -/
def State.convStripe (s : State) (pair : Nat) : Option (Nat × Stripe) :=
  match Tab.find s.zne.openConv pair with
  | some k => (s.stripe k).bind fun t => if t.st = .filling ∧ t.want = false then some (k, t) else none
  | none => none

/-- The stage stripe that takes data next, opened where none is: the next stripe of the rank set's open stage body,
or of a new body. Without one FULL is set and event 0x0106 posted (R80). -/
def State.nextStage (s : State) (set : Nat) (verify : Bool) : Option Nat × State :=
  match s.stageStripe set with
  | some (k, _) => (some k, if verify then s.modStripe k fun t => { t with verify := true } else s)
  | none =>
    let openNew := fun (s : State) (b : Nat) (x : SlcBody) =>
      let (k, s) := s.openSlcStripe (.stage b x.used) x.members set verify false
      (some k, (s.modSlc b fun x => { x with used := x.used + 1 }).showStage)
    match (Tab.find s.zne.openStage set).bind fun b => (Tab.find s.zne.slc b).map (b, ·) with
    | some (b, x) =>
      if x.used < s.stageSpb then openNew s b x
      else
        match s.allocSlc set .stage 0 0 with
        | some (b, s) =>
          let s := s.zn fun z => { z with openStage := Tab.set z.openStage set b }
          openNew s b ((Tab.find s.zne.slc b).getD ⟨set, [], .stage, 0, 0, 0, 0, 0, false⟩)
        | none => (none, if s.flag F.ZNE_STAGESTAT_FULL then s
            else (s.setFld F.ZNE_STAGESTAT_FULL 1).znePost 0x0106 [(8, set + 1)])
    | none =>
      match s.allocSlc set .stage 0 0 with
      | some (b, s) =>
        let s := s.zn fun z => { z with openStage := Tab.set z.openStage set b }
        openNew s b ((Tab.find s.zne.slc b).getD ⟨set, [], .stage, 0, 0, 0, 0, 0, false⟩)
      | none => (none, if s.flag F.ZNE_STAGESTAT_FULL then s
          else (s.setFld F.ZNE_STAGESTAT_FULL 1).znePost 0x0106 [(8, set + 1)])

/-- Have a filling SLC stripe programmed: it asks for a Husk record (R78, R176). -/
def State.wantStripe (s : State) (k : Nat) : State :=
  (s.modStripe k fun t => { t with want := true }).commitStripe k

/-- Add a codeword to a filling SLC stripe; a full stripe is programmed (R78, R176). -/
def State.packInto (s : State) (k : Nat) (own : BufOwner) (buf src : Option Nat) (mv : Option Moved := none) : State :=
  let s := s.modStripe k fun t => { t with
    pack := t.pack ++ [⟨t.pack.length, own, buf, src, mv⟩],
    opened := if t.pack.isEmpty then s.now else t.opened,
    verify := t.verify || src.isSome
    bg := t.bg || src.isSome }
  match s.stripe k with
  | some t => if s.stageLps ≤ t.pack.length then s.wantStripe k else s
  | none => s

/-! ### Runs (R78) -/

/-- A stage stripe can take the next codeword of a zone: its data forms one run, and at most 16 zones share a
stripe. -/
def canPack (t : Stripe) (zmi off : Nat) : Bool :=
  let zs := (t.pack.filterMap fun c => match c.own with | .zone z _ => some z | _ => none).eraseDups
  match (t.pack.getLast?.map fun c => c.own : Option BufOwner) with
  | some (.zone z o) => if z = zmi then decide (off = o + 1) else !zs.contains zmi && decide (zs.length < 16)
  | _ => !zs.contains zmi && decide (zs.length < 16)

/-- Pack a zone's codeword in its rank set's open stage stripe, programming a stripe that cannot take it. Returns
whether it found a place. -/
def State.stageCw (s : State) (set zmi off : Nat) (buf src : Option Nat) (verify : Bool)
    (mv : Option Moved := none) : Bool × State :=
  let s := match s.stageStripe set with
    | some (k, t) => if canPack t zmi off then s else s.wantStripe k
    | none => s
  match s.nextStage set verify with
  | (some k, s) => (true, s.packInto k (.zone zmi off) buf src mv)
  | (none, s) => (false, s)

/-- The runs of a packed stage stripe: consecutive codewords of one zone (R78). -/
def runsOf : List PackCw → List Run
  | [] => []
  | ⟨p, .zone z o, _, _, _⟩ :: cs =>
    match runsOf cs with
    | r :: rs => if r.zone = z ∧ r.off = o + 1 ∧ r.pos = p + 1 then { r with off := o, pos := p, len := r.len + 1 } :: rs
      else ⟨z, o, 1, p, true, none⟩ :: r :: rs
    | [] => [⟨z, o, 1, p, true, none⟩]
  | _ :: cs => runsOf cs

/-! ### Conventional map (R178 to R184) -/

/-- The conventional table entry of a namespace index. -/
def State.cns (s : State) (n : Nat) : Option ConvNs := Tab.find s.zne.conv n

/-- Page map entry of a conventional block; none is deallocated (R178). -/
def State.mapAt (s : State) (n lba : Nat) : Option MapEntry := (s.cns n).bind fun c => Tab.find c.map lba

/-- Return an empty full segment's blocks to their rings at once (R185). Rows of it in the Lost Row Table stay listed by their
blocks (R153). -/
def State.reapSeg (s : State) (b : Nat) : State :=
  match Tab.find s.zne.slc b with
  | some x =>
    if x.valid = 0 ∧ (x.st = .full ∨ x.st = .victim) then
      let spb := s.stageSpb
      ((s.zn fun z => { z with
        slc := Tab.erase z.slc b
        openSeg := Tab.keep z.openSeg fun _ k => k != b
        lost := z.lost.map fun e => (e.1, if e.2.slc ∧ e.2.zmi / spb = b then { e.2 with gone := true } else e.2)
        }).releaseAll x.members).showSegs
    else s
  | none => s

/-- Location of the codeword an entry points to, its lost-row codeword where its data is lost (R178, R180, R188). -/
def MapEntry.place : MapEntry → Option Nat
  | .flash loc => some loc
  | .lost _ _ loc => some loc
  | .buffer _ => none

/-- The valid run of the stage that a codeword lies in. -/
def State.runAt (s : State) (loc : Nat) : Option Run :=
  (Tab.getD s.zne.srd (loc / s.stageLps) []).find? fun r => r.valid &&
    decide (r.pos ≤ loc % s.stageLps) && decide (loc % s.stageLps < r.pos + r.len)

/-- The conventional block whose map entry points to a codeword. -/
def State.entryAt (s : State) (loc : Nat) : Option (Nat × Nat) :=
  s.zne.conv.findSome? fun c => (c.2.map.find? fun e => e.2.place == some loc).map fun e => (c.1, e.1)

/-- The SLC body's VALID falls by one where an entry pointed into it (R183). -/
def State.dropValid (s : State) (e : Option MapEntry) : State :=
  match e.bind (·.place) with
  | some loc =>
    let b := loc / s.segCws
    (s.modSlc b fun x => { x with valid := x.valid - 1 }).reapSeg b
  | none => s

/-- A page map entry (R178). -/
def State.cpmBytes (s : State) (k : Nat) : List Byte :=
  let e := (s.zne.conv.find? fun c => decide (c.2.mapBase ≤ k) && decide (k < c.2.mapBase + c.2.nsze)).bind fun c =>
    Tab.find c.2.map (k - c.2.mapBase)
  leBytes 4 (match e with
    | none => 0
    | some (.flash loc) => loc + 2 ^ 30
    | some (.lost _ _ loc) => loc + 2 ^ 30
    | some (.buffer i) => i + 2 ^ 31)

/-- The 4 KiB of a map page (R182). -/
def State.pageData (s : State) (p : Nat) : Blk :=
  BitVec.ofNat 32768 (ofLe ((List.range 1024).flatMap fun i => s.cpmBytes (p * 1024 + i)))

/-- Map pages are in the map journal: they are dirty no more (R182). -/
def State.savePages (s : State) (ps : List Nat) : State :=
  (s.zn fun z => { z with
    mapDirty := z.mapDirty.filter fun p => !ps.contains p
    mapUndo := Tab.keep z.mapUndo fun k _ => !ps.contains (k / 1024) }).showDirty

/-- The map page that a codeword of an SLC stripe carries: those of the map journal, and those flushed without a Husk, belong to no buffer
and name the page as their source (R131, R182). -/
def PackCw.page (c : PackCw) : Option Nat :=
  match c.own, c.buf with
  | .unassigned, none => c.src
  | _, _ => none

/-- A stripe closed that carries map pages: each that has not changed since it was packed is clean (R182). -/
def State.pagesLanded (s : State) (pack : List PackCw) : State :=
  match pack.filterMap fun c => c.page.bind fun p => if c.moved.map (·.data) = some (s.pageData p) then some p else none with
  | [] => s
  | ps => s.savePages ps

/-- Dirty map pages that no open stripe carries. -/
def State.pagesLeft (s : State) : List Nat :=
  let away := s.zne.stripes.flatMap fun e => e.2.pack.filterMap (·.page)
  s.zne.mapDirty.filter fun p => !away.contains p

/-- Set a map entry, with NUSE, VALID and the dirty map page (R182 to R184). -/
def State.setEntry (s : State) (n lba : Nat) (e : Option MapEntry) : State :=
  match s.cns n with
  | none => s
  | some c =>
    let old := Tab.find c.map lba
    let nuse := c.nuse + b2n e.isSome - b2n old.isSome
    let page := (c.mapBase + lba) / 1024
    let map' := match e with
      | some e => Tab.set c.map lba e
      | none => Tab.erase c.map lba
    let c := { c with nuse := nuse, map := map' }
    let s := s.zn fun z => { z with
      conv := Tab.set z.conv n c,
      mapDirty := if z.mapDirty.contains page then z.mapDirty else z.mapDirty ++ [page]
      mapUndo := if (Tab.find z.mapUndo (c.mapBase + lba)).isSome then z.mapUndo else Tab.set z.mapUndo (c.mapBase + lba) old }
    let s := match e.bind (·.place) with
      | some loc => s.modSlc (loc / s.segCws) fun x => { x with valid := x.valid + 1 }
      | _ => s
    (s.dropValid old).showDirty

/-- Whether reclaim of a rank set is to run or stop, and whether conventional writes stall (R185, R187). -/
def State.segCheck (s : State) (set : Nat) : State :=
  let rs := s.rset set
  if rs.conv = 0 then s
  else
    let f := s.freeSegs set
    let upd := fun (s : State) (r : RankSet) => s.zn fun z => { z with sets := Tab.set z.sets set r }
    let s := if rs.reclaim = false ∧ f ≤ s.fld F.ZNE_CRCFG_LOWSEG then
        (upd s { rs with reclaim := true }).znePost 0x0110 [(8, set + 1), (16, f), (8, 0)]
      else if rs.reclaim = true ∧ s.fld F.ZNE_CRCFG_HIGHSEG ≤ f then
        (upd s { rs with reclaim := false }).znePost 0x0110 [(8, set + 1), (16, f), (8, 1)]
      else s
    let s := s.setFld F.ZNE_CRSTAT_RECL (b2n (s.zne.sets.any fun e => e.2.reclaim))
    let low := decide (f < 8)
    let s := if (s.rset set).stalled = low then s
      else
        let s := upd s { s.rset set with stalled := low }
        if low then s.znePost 0x0111 [(8, set + 1), (16, f)] else s
    s.setFld F.ZNE_CRSTAT_STALL (b2n (s.zne.sets.any fun e => decide (0 < e.2.conv) && decide (s.freeSegs e.1 < 8)))

/-- The conventional stripe that takes a pair's data next: the open stripe, the next of its open segment, or the
first of a new segment (R176, R190). A finished segment takes its fill number. -/
def State.nextConv (s : State) (ns ruh : Nat) (reclaim : Bool) : Option Nat × State :=
  let p := pairKey ns ruh reclaim
  let set := ((s.cns ns).map (·.set)).getD 0
  match s.convStripe p with
  | some (k, _) => (some k, s)
  | none =>
    let openNew := fun (s : State) (b : Nat) =>
      match Tab.find s.zne.slc b with
      | some x =>
        let (k, s) := s.openSlcStripe (.conv b x.used) x.members set reclaim reclaim
        let s := s.zn fun z => { z with openConv := Tab.set z.openConv p k }
        (some k, s.modSlc b fun x => { x with used := x.used + 1 })
      | none => (none, s)
    let fresh := fun (s : State) =>
      match s.allocSlc set (if reclaim then .openReclaim else .openHost) ns ruh with
      | some (b, s) => openNew ((s.zn fun z => { z with openSeg := Tab.set z.openSeg p b }).segCheck set) b
      | none => (none, s.segCheck set)
    match (Tab.find s.zne.openSeg p).bind fun b => (Tab.find s.zne.slc b).map (b, ·) with
    | some (b, x) =>
      if x.used < s.stageSpb ∧ x.ns = ns ∧ x.ruh = ruh ∧ x.st = (if reclaim then .openReclaim else .openHost) then openNew s b else fresh s
    | none => fresh s

/-- Pack a conventional codeword for its pair (R176). -/
def State.convCw (s : State) (ns lba ruh : Nat) (reclaim : Bool) (buf src : Option Nat)
    (mv : Option Moved := none) : Bool × State :=
  match s.nextConv ns ruh reclaim with
  | (some k, s) => (true, s.packInto k (.conv ns lba ruh) buf src mv)
  | (none, s) => (false, s)

/-- A segment whose last stripe closed is full, with its fill sequence number (R180). -/
def State.segFull (s : State) (b : Nat) : State :=
  match Tab.find s.zne.slc b with
  | some x =>
    if s.stageSpb ≤ x.used ∧ (x.st = .openHost ∨ x.st = .openReclaim) ∧
        s.zne.stripes.all (fun e => match e.2.of_ with | .conv k _ => k != b | _ => true) = true then
      ((s.modSlc b fun x => { x with st := .full, seq := s.zne.fillSeq }).zn fun z =>
        { z with fillSeq := z.fillSeq + 1 }).reapSeg b
    else s
  | none => s

/-- Enter a row in the Lost Row Table: its index, 65535 where the table is full (R153) and the row is only known as marked (R152). -/
def State.addLost (s : State) (k st cw members : Nat) (slc : Bool) : Nat × State :=
  let id := Tab.firstFree s.zne.lost 0
  if id < 4096 then
    (id, s.zn fun z => { z with lost := Tab.set z.lost id ⟨k, st, cw, members, slc, false⟩, lostGen := z.lostGen + 1 })
  else (65535, s.zn fun z => { z with lostFull := true, unlisted := (k, st, cw, slc) :: z.unlisted })

/-- Publish one conventional codeword of a closed stripe, conventional or stage (R182): its entry moves to flash only if it still points
to the stripe's buffer, or to the source it was moved from (R183, R186). -/
def State.publishEntry (s : State) (si : Nat) (c : PackCw) : State :=
  match c.own with
  | .conv n lba _ =>
    let loc := si * s.stageLps + c.pos
    let cur := s.mapAt n lba
    let mine : Bool := match c.buf, c.src with
      | some i, _ => cur == some (.buffer i)
      | none, some l => cur.bind (·.place) == some l
      | none, none => false
    let lost : Bool := match c.buf with
      | some i => ((Tab.find s.zne.bufs i).map (·.bad)).getD false
      | none => false
    if mine && lost then
      let m := c.pos / s.stageCps
      let (id, s) := s.addLost si 0 (c.pos % s.stageCps) (2 ^ m) true
      s.setEntry n lba (some (.lost id m loc))
    else if mine then
      match cur with
      | some (.lost id m _) => s.setEntry n lba (some (.lost id m loc))
      | _ => s.setEntry n lba (some (.flash loc))
    else s
  | _ => s

/-- Publish one codeword of a closed conventional stripe, with its count. -/
def State.publishConv (s : State) (si : Nat) (c : PackCw) : State :=
  (s.publishEntry si c).bump (if c.src.isSome then F.ZNE_CONV_RELCW_COUNT else F.ZNE_CONV_HOSTCW_COUNT)

/-! ### Erased stage capacity (R441) -/

/-- Ring entries of a rank set's SLC rings. -/
def State.slcEntries (s : State) (set : Nat) : List RingEnt :=
  (List.range (s.fld F.ZNE_GEOM_CHANNELS)).flatMap fun c => s.ring set c true

/-- Bodies that blocks on 18 distinct channels make, from the number on each channel: the greatest n, at most `n`, that they cover. -/
def bodiesOf (cs : List Nat) : Nat → Nat
  | 0 => 0
  | n + 1 => if 18 * (n + 1) ≤ (cs.map (min (n + 1))).sum then n + 1 else bodiesOf cs n

/-- Bodies that a rank set's SLC ring entries passing a test make (R231, R441). -/
def State.cleanBodies (s : State) (set : Nat) (p : RingEnt → Bool) : Nat :=
  let cs := (List.range (s.fld F.ZNE_GEOM_CHANNELS)).map fun c => ((s.ring set c true).filter p).length
  bodiesOf cs (cs.sum / 18)

/-- Erased stage capacity of a rank set in codewords: the unwritten part of its open stage stripe, and the bodies whose
member entries are all clean (R441). -/
def State.erasedStage (s : State) (set : Nat) : Nat :=
  let open_ := match (Tab.find s.zne.openStage set).bind fun b => Tab.find s.zne.slc b with
    | some x => (s.stageSpb - x.used) * s.stageLps
    | none => 0
  let here := match s.stageStripe set with
    | some (_, t) => s.stageLps - t.pack.length
    | none => 0
  open_ + here + s.cleanBodies set (fun e => e.clean && !e.uncertain) * s.segCws

/-- Dirty write buffers of a rank set. -/
def State.setDirty (s : State) (set : Nat) : Nat :=
  (s.zne.bufs.filter fun e => match e.2.own with
    | .zone z _ => (s.zone z).set == set
    | .conv n _ _ => ((s.cns n).map (·.set)).getD 0 == set
    | .fold z => (s.zone z).set == set
    | .unassigned => false).length

/-- Erased stage capacity covers n more dirty buffers and one stage body (R441). -/
def State.capacityCovers (s : State) (set n : Nat) : Bool := decide (s.setDirty set + n + s.segCws ≤ s.erasedStage set)

end Sys2Proof.Machine
end

