-- ==== Sys2Proof/Machine/ReadPath.lean ====
section
/-! DEFINITION. The read path: where a block lies (R65, R92), die reads (R95), the read decision (R105), row
reconstruction from helpers (R106 to R108, R150, R151), lost rows (R152, R153), and failed buffers (R340). -/

namespace Sys2Proof.Machine

/-! ### Locations -/

/-- Where a logical block lies (R65, R92, R178): nowhere (it reads as zeros), in a write buffer, in one still
arriving, on flash at a codeword of a stripe row, or lost. -/
inductive Loc
  | zeros
  | buffer (i : Nat)
  | arriving
  | flash (own : StripeOf) (row : List Nat) (member cw : Nat) (slc : Bool)
  | lost
  deriving DecidableEq, Repr

/-- The 18 blocks of a body stripe: a rebuilt member's stripes below its mark lie on the substitute (R108, R146). -/
def State.bodyRow (s : State) (zmi idx : Nat) : List Nat :=
  ((s.zone zmi).body.zip (List.range 18)).map fun (b, m) =>
    match s.zne.jobs.find? (fun e => e.2.kind = .rebuild && e.2.slcBody.isNone && e.2.zmi = zmi && e.2.member = m) with
    | some (_, j) => if idx < j.done then j.new_.getD b else j.old
    | none => b

/-- The 18 blocks of an SLC body. -/
def State.slcRow (s : State) (b : Nat) : List Nat := ((Tab.find s.zne.slc b).map (·.members)).getD []

/-- Location of an SLC codeword index (R77, R78). -/
def State.slcLoc (s : State) (loc : Nat) : Loc :=
  let si := loc / s.stageLps
  let p := loc % s.stageLps
  let b := si / s.stageSpb
  let own := if ((Tab.find s.zne.slc b).map (·.st)).getD .stage = .stage then StripeOf.stage b (si % s.stageSpb)
    else StripeOf.conv b (si % s.stageSpb)
  .flash own (s.slcRow b) (p / s.stageCps) (p % s.stageCps) true

/-- The staged codeword of a zone offset, from the run that covers it. -/
def State.stagedAt (s : State) (zmi off : Nat) : Option Nat :=
  (s.zne.srd.findSome? fun e => (e.2.find? fun r =>
    r.valid && r.zone == zmi && decide (r.off ≤ off) && decide (off < r.off + r.len)).map fun r =>
      e.1 * s.stageLps + r.pos + (off - r.off))

/-- Location of a zone offset (R65, R92). -/
def State.zoneLoc (s : State) (zmi off : Nat) : Loc :=
  let z := s.zone zmi
  if z.wp ≤ off ∨ z.zs = .empty ∨ z.zs = .offline ∨ z.zs = .unused then .zeros
  else if off < z.bstripes * s.lps then
    .flash (.body zmi (off / s.lps)) (s.bodyRow zmi (off / s.lps)) (s.offMember off) (s.offCw off) false
  else
    match s.zoneBuf zmi off with
    | some (i, b) => if b.st = .held then .buffer i else .arriving
    | none =>
      match s.stagedAt zmi off with
      | some loc => s.slcLoc loc
      | none => .zeros

/-- Location of a conventional block (R178, R184). -/
def State.convLoc (s : State) (n lba : Nat) : Loc :=
  match s.mapAt n lba with
  | none => .zeros
  | some (.flash loc) => s.slcLoc loc
  | some (.buffer i) => .buffer i
  | some (.lost _ _ _) => .lost

/-- Location of an LBA of a namespace. -/
def State.locate (s : State) (n lba : Nat) : Loc :=
  if s.isConv n then s.convLoc n lba
  else match s.zoneOf n lba with
    | some zmi => s.zoneLoc zmi (lba % s.zLba)
    | none => .zeros

/-! ### Lost rows (R152, R153) -/

/-- The key under which a row is known: zone or SLC stripe index, stripe, and whether it is an SLC row. -/
def State.rowKey (s : State) (own : StripeOf) : Nat × Nat × Bool :=
  match own with
  | .body z i => (z, i, false)
  | .reloc z i => (z, i, false)
  | .stage b i => (s.slcIndex b i, 0, true)
  | .conv b i => (s.slcIndex b i, 0, true)
  | .journal i => (2 ^ 31 + i, 0, true)

/-- The zones with an LBA in a row (R152). -/
def State.rowZones (s : State) (own : StripeOf) (cw : Nat) : List Nat :=
  match own with
  | .body z _ => [z]
  | .reloc z _ => [z]
  | .stage b i => ((Tab.getD s.zne.srd (s.slcIndex b i) []).filter fun r => r.valid &&
      (List.range 16).any fun m => decide (r.pos ≤ m * s.stageCps + cw) && decide (m * s.stageCps + cw < r.pos + r.len)).map
        (·.zone)
  | .conv _ _ => []
  | .journal _ => []

/-- Mark a row lost, unless it is marked already (ROW_LOST). `erased` is the mask of its hard erasures. -/
def State.rowLost (s : State) (own : StripeOf) (row : List Nat) (cw erased : Nat) : State :=
  let (k, st, slc) := s.rowKey own
  if s.zne.lost.any (fun e => e.2.zmi = k && e.2.stripe = st && e.2.row = cw && e.2.slc = slc && !e.2.gone) ||
      s.zne.unlisted.contains (k, st, cw, slc) then s
  else
    let s := (s.bump F.PQE_ROWLOST_COUNT).post 0x06 0x0309 [(32, k), (16, st), (8, cw), (18, erased)]
      (match own with | .body z _ => s.zoneTen z | .reloc z _ => s.zoneTen z | _ => 0xFF)
    let s := (s.addLost k st cw erased slc).2
    let s := ((row.zip (List.range 18)).filter fun e => bit erased e.2).foldl (fun s e => s.queueRefresh e.1) s
    let set := s.setOfBlk (row.headD 0)
    let s := s.zn fun z => { z with sets := Tab.adjust z.sets set fun r => { r with rowLost := true } }
    (s.rowZones own cw).foldl (fun s z => s.readOnlyZone z) s

/-- The map entry of a block whose SLC codeword is lost (R188). -/
def State.lostEntry (s : State) (loc : Nat) : MapEntry :=
  let si := loc / s.stageLps
  let p := loc % s.stageLps
  match s.zne.lost.find? fun e => e.2.slc && !e.2.gone && e.2.zmi == si && e.2.row == p % s.stageCps with
  | some e => .lost e.1 (p / s.stageCps) loc
  | none => .lost 65535 (p / s.stageCps) loc

/-- Lost logical blocks of a Lost Row Table entry: namespace index, LBA, data member (R153, R280). -/
def State.lostBlocks (s : State) (id : Nat) (e : LostRow) : List (Nat × Nat × Nat) :=
  let ms := (List.range 16).filter fun m => bit e.members m
  if e.slc = false then
    ms.map fun m => ((s.zone e.zmi).ns, s.zoneStart e.zmi + e.stripe * s.lps + m * s.cps + e.row, m)
  else
    let conv := s.zne.conv.flatMap fun c => c.2.map.filterMap fun x => match x.2 with
      | .lost r m _ => if r = id then some (c.1, x.1, m) else none
      | .flash l => if !e.gone && l / s.stageLps == e.zmi && l % s.stageLps % s.stageCps == e.row &&
          ms.contains (l % s.stageLps / s.stageCps) then some (c.1, x.1, l % s.stageLps / s.stageCps) else none
      | .buffer _ => none
    let runs := if e.gone then [] else Tab.getD s.zne.srd e.zmi []
    let staged := runs.flatMap fun r => ms.filterMap fun m =>
      let p := m * s.stageCps + e.row
      if r.pos ≤ p ∧ p < r.pos + r.len ∧ (s.zone r.zone).zs = .readOnly then
        some ((s.zone r.zone).ns, s.zoneStart r.zone + r.off + (p - r.pos), m)
      else none
    conv ++ staged

/-- A zone with an LBA in a stage row has not been reset or taken Offline since: its run stands in the directory (R153). -/
def State.rowHasRuns (s : State) (e : LostRow) : Bool :=
  !e.gone && (Tab.getD s.zne.srd e.zmi []).any fun r => (List.range 16).any fun m =>
    let p := m * s.stageCps + e.row
    decide (r.pos ≤ p) && decide (p < r.pos + r.len)

/-- SLC rows leave the Lost Row Table: a stage row once every zone with an LBA in it is reset or Offline, a conventional one once none of
its blocks is lost any more (R153). -/
def State.pruneLost (s : State) : State :=
  let old := s.zne.lost.filter fun e => e.2.slc && (s.lostBlocks e.1 e.2).isEmpty && !s.rowHasRuns e.2
  if old.isEmpty then s
  else
    let ids := Tab.keys old
    s.zn fun z => { z with
      lost := Tab.keep z.lost fun k _ => !ids.contains k, lostGen := z.lostGen + 1, lostFull := false }

/-! ### Failed buffers (R340) -/

/-- The lines of a 4 KiB buffer whose CRC check failed enter the Correctable Error Tables with COUNT 0xFFFF (R340, R344). The device and
the symbols of such an entry are free values (DESIGN CHOICE, assumption 75). -/
def State.ceBuffer (s : State) (pool i : Nat) : State :=
  let (v, s) := s.drawFree
  let base := dramBase + Config.bufAt pool i % (s.dramSize / 4096) * 4096
  { s with dram := { s.dram with ce := (List.range 64).foldl (fun t k =>
    let sc := s.subchan (base + k * 64)
    Tab.set t sc (ceUpdate (Tab.getD t sc [])
      ⟨base + k * 64, v % 32 + sc * 32, v / 32 % 256, 0xFFFF, s.now / 1000000000 % 2 ^ 32⟩)) s.dram.ce } }

/-- A write buffer fails its CRC: event 0x0803, its lines in the Correctable Error Tables, and it is out of service until cold reset. Its block becomes a
lost-row codeword; a zone goes Read Only and the row lists the member alone, while a conventional entry will
point to the lost-row codeword. -/
def State.bufferFailed (s : State) (i : Nat) (program : Bool) : State :=
  match Tab.find s.zne.bufs i with
  | none => s
  | some b =>
    let (where_, lba) := match b.own with
      | .zone z o => (z, s.zoneStart z + o)
      | .conv n l _ => (n, l)
      | .fold z => (z, 0)
      | .unassigned => (0xFFFFFFFF, 0)
    let s := s.znePost 0x0803 [(20, i), (8, 0), (32, where_), (64, lba)]
    let s := (s.ceBuffer 0 i).zn fun z => { z with outBufs := if z.outBufs.contains i then z.outBufs else z.outBufs ++ [i] }
    let s := s.modBuf i fun b => { b with bad := true }
    if program then
      match b.own with
      | .zone z o =>
        let s := s.rowLost (.body z (s.offStripe o)) (s.zone z).body (s.offCw o) (2 ^ s.offMember o)
        s.readOnlyZone z
      | _ => s
    else s

/-! ### Reconstruction (R106 to R108) -/

/-- Parity scratch buffers of the read-around quota (assumption 7). -/
def raQuota : Nat := 48

/-- Reconstructions for reads that hold a scratch buffer. -/
def State.scratchUsed (s : State) : Nat :=
  (s.zne.recons.filter fun e => !e.2.waiting && (match e.2.for_ with | .host _ _ => true | _ => false)).length

/-- Read-arounds in flight (R109). -/
def State.raInflight (s : State) : Nat := (s.zne.recons.filter fun e => e.2.around).length

/-- The members of a row that count as erasures: hard ones, soft ones, and the target. -/
def Recon.erased (r : Recon) : List Nat :=
  (List.range 18).filter fun m => m = r.target ||
    (match Tab.find r.members m with | some .hard => true | some .soft => true | _ => false)

/-- Hard erasures of the row known so far (R150). -/
def Recon.hard (r : Recon) : List Nat :=
  (List.range 18).filter fun m => match Tab.find r.members m with | some .hard => true | _ => false

/-- Members whose data has come in. -/
def Recon.gotAll (r : Recon) : List Nat :=
  (List.range 18).filter fun m => m != r.target &&
    (match Tab.find r.members m with | some (.got _ _) => true | _ => false)

/-- The reconstruction has its 16 helpers. -/
def Recon.ready (r : Recon) : Bool := !r.failed && !r.waiting && decide (16 ≤ r.gotAll.length)

/-- A reconstruction by its number. -/
def State.recon (s : State) (k : Nat) : Option Recon := Tab.find s.zne.recons k

/-- Change a reconstruction. -/
def State.modRecon (s : State) (k : Nat) (f : Recon → Recon) : State :=
  s.zn fun z => { z with recons := Tab.adjust z.recons k f }

/-- Post the helper reads of members (R106). -/
def State.postHelpers (s : State) (k : Nat) (r : Recon) (ms : List Nat) : State :=
  let s := s.modRecon k fun r => { r with members := ms.foldl (fun t m => Tab.set t m .pending) r.members }
  ms.foldl (fun s m => s.enqueue { plainOp r.cls .read r.slc (r.row.getD m 0) r.slice [(r.cw, m)] (.helper k m) r.ten with
    helper := true, row := r.row, own := r.own }) s

/-- Members not read yet, or late, whose die has left service since are hard erasures (R108, R111). -/
def State.markDead (s : State) (k : Nat) (r : Recon) : State :=
  let dead := (List.range 18).filter fun m => m != r.target && s.unreadable (blkDie (r.row.getD m 0)) &&
    (match Tab.find r.members m with | none => true | some .soft => true | _ => false)
  if dead.isEmpty then s
  else s.modRecon k fun r => { r with members := dead.foldl (fun t m => Tab.set t m .hard) r.members }

/-- The members a reconstruction leaves out when only the target is erased: Q, or P when P's die is busy and Q's is
not, or the other parity of a parity target (R106). -/
def State.spareMember (s : State) (r : Recon) : Nat :=
  let busy := fun m => decide (s.fld F.ZNE_RACFG_THRESH * 1000 < s.waitOf (blkDie (r.row.getD m 0)) r.cls r.ten)
  if r.target = 17 then 16
  else if r.target = 16 then 17
  else if busy 16 && !busy 17 then 16 else 17

/-- A helper read of a member is still queued or in its pod. -/
def State.helperOut (s : State) (k m : Nat) : Bool :=
  s.zne.dies.any fun e => (e.2.queue ++ (e.2.active.map (·.op)).toList).any fun o => o.purpose == .helper k m

/-- Bring a reconstruction on: post what it still needs, wait for late members, or fail (R107, R111, R151). A
reconstruction with more than two erasures falls back to its target read while that may still serve; with three
hard ones, or with nothing left to wait for, it has failed. A late member whose read is still out is waited for. -/
def State.advanceRecon (s : State) (k : Nat) : State :=
  let s := match s.recon k with
    | some r => s.markDead k r
    | none => s
  match s.recon k with
  | none => s
  | some r =>
    if r.waiting ∨ r.failed = true then s
    else
      let er := r.erased
      if er.length ≤ 2 then
        let left := (List.range 18).filter fun m => !er.contains m && (Tab.find r.members m).isNone
        let skip := if er.length = 2 then [] else if left.length ≤ 1 then left else [s.spareMember r]
        s.postHelpers k r (left.filter fun m => !skip.contains m)
      else if 3 ≤ r.hard.length ∨ r.racing = true then s.modRecon k fun r => { r with failed := true }
      else
        let soft := (List.range 18).filter fun m => m != r.target &&
          (match Tab.find r.members m with | some .soft => true | _ => false)
        let out := soft.filter fun m => s.helperOut k m
        let s := s.modRecon k fun r => { r with
          failed := soft.isEmpty, members := out.foldl (fun t m => Tab.set t m .pending) r.members }
        s.postHelpers k r (soft.filter fun m => !out.contains m)

/-- A member of a row becomes an erasure. -/
def State.eraseMember (s : State) (k m : Nat) (hard : Bool) : State :=
  (s.modRecon k fun r => { r with members := Tab.set r.members m (if hard then .hard else .soft) }).advanceRecon k

/-- A slice that no program wrote: a pad member, which takes part in P and Q as zero (R82, R121). -/
def State.neverWritten (s : State) (b slice : Nat) : Bool :=
  match (s.blk b).cursor with
  | some c => decide (c < slice)
  | none => true

/-- Start a reconstruction of one codeword. Unreadable members are hard erasures; a read-around also skips busy
ones; a target that has failed is hard, one that is late or still queued is not; a member on a held channel is soft (R222). Without
scratch it waits. -/
def State.startRecon (s : State) (for_ : ReconFor) (own : StripeOf) (row : List Nat) (slice cw : Nat) (slc : Bool)
    (target : Nat) (targetHard around degraded racing : Bool) (busy : List Nat) (cls ten : Nat) : State :=
  let (k, s) := s.fresh
  let dead := (List.range 18).filter fun m => m != target && s.unreadable (blkDie (row.getD m 0))
  let ms : Tab RowMember := dead.foldl (fun t m => Tab.set t m .hard) []
  let pads := (List.range 16).filter fun m => m != target && s.neverWritten (row.getD m 0) slice
  let ms := pads.foldl (fun t m => Tab.set t m (.got 0 0)) ms
  let held := (List.range 18).filter fun m => m != target && !dead.contains m && s.chanHeld (blkDie (row.getD m 0) / 16)
  let ms := (busy ++ held).foldl (fun t m => Tab.set t m .soft) ms
  let ms := if targetHard then Tab.set ms target .hard else ms
  let waits := (match for_ with | .host _ _ => true | _ => false) && decide (raQuota ≤ s.scratchUsed)
  let r : Recon := {
    for_ := for_, own := own, row := row, slice := slice, cw := cw, slc := slc, target := target,
    members := ms, around := around, degraded := degraded, racing := racing, failed := false, waiting := waits,
    cls := cls, ten := ten, crcRetry := false }
  let s := s.zn fun z => { z with recons := Tab.set z.recons k r }
  s.advanceRecon k

/-- An operation is a helper read of a reconstruction. -/
def DieOp.helps (o : DieOp) (k : Nat) : Bool :=
  match o.purpose with
  | .helper r _ => r == k
  | _ => false

/-- Withdraw the operations for which a test holds that are queued, or posted and not yet taken by POP (R107, R209). -/
def State.withdrawOps (s : State) (p : DieOp → Bool) : State :=
  let s := s.zn fun z => { z with dies := z.dies.map fun e => (e.1, { e.2 with queue := e.2.queue.filter fun o => !p o }) }
  let posted := s.zne.dies.filterMap fun e => e.2.active.bind fun q => if q.fresh && !q.hand && p q.op then some (e.1, q.op.id) else none
  posted.foldl (fun s e =>
    (((s.modDie e.1 fun x => { x with active := none }).freeStaging fun i _ => i == e.2).showPods e.1).showPower) s

/-- Withdraw the helper reads of a reconstruction that have not been dispatched. -/
def State.dropHelpers (s : State) (k : Nat) : State := s.withdrawOps fun o => o.helps k

/-- A reconstruction ends and releases its scratch: one that waited takes it (SCRATCH_RETRY). -/
def State.endRecon (s : State) (k : Nat) : State :=
  let s := (s.zn fun z => { z with recons := Tab.erase z.recons k }).dropHelpers k
  match s.zne.recons.find? (fun e => e.2.waiting) with
  | some (j, _) =>
    if s.scratchUsed < raQuota then (s.modRecon j fun r => { r with waiting := false }).advanceRecon j else s
  | none => s

/-! ### The read decision (R105) -/

/-- A stripe is closed: a body stripe below BSTRIPES, an SLC stripe that is no longer open. -/
def State.stripeClosed (s : State) (own : StripeOf) : Bool :=
  match own with
  | .body z i => decide (i < (s.zone z).bstripes)
  | o => !(s.zne.stripes.any fun e => e.2.of_ == o)

/-- Members of a row, other than the target, that are readable and whose predicted wait exceeds THRESH. -/
def State.busyMembers (s : State) (row : List Nat) (target cls ten : Nat) : List Nat :=
  (List.range 18).filter fun m => m != target && !s.avoided (blkDie (row.getD m 0)) &&
    decide (s.fld F.ZNE_RACFG_THRESH * 1000 < s.waitOf (blkDie (row.getD m 0)) cls ten)

/-- ra_allowed (R105) for n codewords, each of which is a read-around of its own with its scratch buffer, so that MAXINFL bounds the
helpers committed (R106, R109). -/
def State.raAllowed (s : State) (own : StripeOf) (row : List Nat) (target cls ten n : Nat) : Bool :=
  let busy := (s.busyMembers row target cls ten).length
  let dead := ((List.range 18).filter fun m => m != target && s.avoided (blkDie (row.getD m 0))).length
  s.flag F.ZNE_RACFG_RAEN && s.flag (F.ZNE_TGOV_RAEN (ten % 128)) && s.stripeClosed own &&
    decide (s.raInflight + n ≤ s.fld F.ZNE_RACFG_MAXINFL) && decide (1 + dead + busy ≤ 2) &&
    (busy = 0 || s.flag F.ZNE_RACFG_RA2) && decide (s.scratchUsed + n ≤ raQuota)

/-- Slot and block a host read codeword serves. -/
def DieOp.slotOf (o : DieOp) : Nat := match o.purpose with | .host i => i | _ => 0

/-- decide (R105): a class 1 or 2 read reaches its die. A degraded read never enters the die's queue, but for one of a channel that is
held, whose die may still serve it (R222); a read-around leaves the target read queued, and each codeword of the operation counts as one in ZNE_RASTAT_RA and under MAXINFL (DESIGN
CHOICE, assumption 58). -/
def State.decideRead (s : State) (o : DieOp) : State :=
  let d := blkDie o.blk
  let t := o.row.idxOf o.blk
  if s.unreadable d then
    o.cws.foldl (fun s c => s.startRecon (.host o.slotOf c.2) o.own o.row o.slice c.1 o.slc t true false true false []
      o.cls o.ten) s
  else if s.chanHeld (d / 16) then
    o.cws.foldl (fun s c => s.startRecon (.host o.slotOf c.2) o.own o.row o.slice c.1 o.slc t false false true true []
      o.cls o.ten) (s.enqueue o)
  else if s.waitOf d o.cls o.ten ≤ s.fld F.ZNE_RACFG_THRESH * 1000 ∨ s.raAllowed o.own o.row t o.cls o.ten o.cws.length = false then
    let s := if s.suspendWins d o.cls o.ten then s.requestSuspend d else s
    s.enqueue o
  else
    let busy := s.busyMembers o.row t o.cls o.ten
    let s := s.enqueue o
    o.cws.foldl (fun s c => (s.bump F.ZNE_RASTAT_RA_COUNT).startRecon (.host o.slotOf c.2) o.own o.row o.slice c.1 o.slc t
      false true false true busy o.cls o.ten) s

/-- A codeword to read: its row and owner, member, codeword, mode and the LBA it serves. -/
structure CwRead where
  own : StripeOf
  row : List Nat
  member : Nat
  cw : Nat
  slc : Bool
  tag : Nat
  deriving DecidableEq, Repr

/-- Slice of a stripe in its member blocks. -/
def StripeOf.slice : StripeOf → Nat
  | .body _ i => i
  | .stage _ i => i
  | .conv _ i => i
  | .reloc _ i => i
  | .journal i => i

/-- Two codewords share a die operation: one block, one slice, one half of at most 64 codewords (R95). -/
def CwRead.sameOp (a b : CwRead) : Bool :=
  a.row.getD a.member 0 == b.row.getD b.member 0 && a.own.slice == b.own.slice && a.cw / 64 == b.cw / 64

/-- Split codewords into die operations (R95), within n rounds. -/
def groupReads : Nat → List CwRead → List (List CwRead)
  | 0, _ => []
  | _, [] => []
  | n + 1, c :: cs => (c :: cs.filter c.sameOp) :: groupReads n (cs.filter fun x => !c.sameOp x)

/-- The die operation that reads a group of codewords. -/
def readOp (cls ten : Nat) (p : Purpose) (cs : List CwRead) : Option DieOp :=
  match cs with
  | [] => none
  | c :: _ => some { plainOp cls .read c.slc (c.row.getD c.member 0) c.own.slice (cs.map fun x => (x.cw, x.tag)) p ten
      with row := c.row, own := c.own }

/-- What a read's codeword is reconstructed for, where its data is wanted by itself. -/
def DieOp.reconFor (o : DieOp) (tag : Nat) : Option ReconFor :=
  match o.purpose with
  | .host i => some (.host i tag)
  | .fold z => some (.fold z tag)
  | .collect => some (.collect tag)
  | .job j => some (.job j tag)
  | .move j => some (.move j tag)
  | .sweep n l => some (.sweep n l)
  | _ => none

/-- A background read queues (R97), but for one of an unreadable die or a held channel, whose codewords are reconstructed (R108, R222). -/
def State.backRead (s : State) (o : DieOp) : State :=
  if s.avoided (blkDie o.blk) then
    o.cws.foldl (fun s c => match o.reconFor c.2 with
      | some f => s.startRecon f o.own o.row o.slice c.1 o.slc (o.row.idxOf o.blk) true false true false [] o.cls o.ten
      | none => s) s
  else s.enqueue o

/-- Issue the die reads of a host command: each is decided when it reaches its die; background reads queue (R97). -/
def State.issueReads (s : State) (cls ten : Nat) (p : Purpose) (cs : List CwRead) : State :=
  ((groupReads cs.length cs).filterMap (readOp cls ten p)).foldl
    (fun s o => if cls = 5 then s.backRead o else s.decideRead o) s

end Sys2Proof.Machine
end

