-- ==== Sys2Proof/Machine/Codeword.lean ====
section
/-! DEFINITION. The codewords of flash: their layout, tag, CRC and parity (R34, R35, R121), and those that a program of a stripe's member
sends to its die (R78, R82, R443). -/

namespace Sys2Proof.Machine

/-- "LBA of no block": all ones in 64 bits (R35, R443). -/
def noLba : Nat := 2 ^ 64 - 1

/-- LOC of the tag (R35). -/
def tagLoc (stripe member cw : Nat) (slc : Bool) (gen : Nat) : Nat :=
  stripe % 2048 + member * 2 ^ 11 + cw * 2 ^ 16 + b2n slc * 2 ^ 23 + gen % 256 * 2 ^ 24

/-- Bytes 0 to 59 of the tag (R35). -/
def Cw.tagBody (c : Cw) : List Byte :=
  leBytes 8 c.lba ++ leBytes 16 c.hmd.toNat ++ leBytes 8 c.epoch ++ leBytes 4 c.zone ++ leBytes 4 c.loc ++ leBytes 2 c.nsidx ++ leBytes 18 0

/-- CRC of the tag: CRC-32C over DATA and tag bytes 0 to 59 (R35), complemented in a lost-row codeword (R152). -/
def Cw.crc (c : Cw) : W32 :=
  let x := crc32c (leBytes 4096 c.data.toNat ++ c.tagBody)
  if c.lost then ~~~ x else x

/-- The tag (R35). -/
def Cw.tag (c : Cw) : List Byte := c.tagBody ++ leBytes 4 c.crc.toNat

/-- The 4,544 bytes of a codeword (R34): DATA, tag, and the LDPC field, where what the profile's parity leaves unused is 0xFF. -/
def Cw.bytes (len : Nat) (c : Cw) : List Byte :=
  let front := leBytes 4096 c.data.toNat ++ c.tag
  front ++ leBytes len (Config.ldpcParity len front) ++ List.replicate (384 - len) 0xFF

/-- DATA and tag fields of 4,160 bytes read; the bytes behind them are LDPC's or ignored (R34). -/
def cwOfBytes (bs : List Byte) : Cw × W32 :=
  let f := fun (o n : Nat) => ofLe ((bs.drop o).take n)
  (⟨BitVec.ofNat 32768 (f 0 4096), BitVec.ofNat 128 (f 4104 16), f 4096 8, f 4120 8, f 4128 4, f 4132 4, f 4136 2, false⟩,
   BitVec.ofNat 32 (f 4156 4))

/-- What a read codeword is: whole, a lost-row codeword (R152), or neither. -/
inductive CwCheck | good | lostRow | bad
  deriving DecidableEq, Repr

/-- A read codeword's CRC (R35, R152). -/
def cwCheck (bs : List Byte) : CwCheck :=
  let (c, x) := cwOfBytes bs
  if x = c.crc then .good else if x = ~~~ c.crc then .lostRow else .bad

/-- A codeword carries the tag that its place asks for (R110): LBA, ZONE, EPOCH, LOC and NSIDX. -/
def Cw.fits (c : Cw) (want : Cw) : Bool :=
  c.lba == want.lba && c.zone == want.zone && c.epoch == want.epoch && c.loc == want.loc && c.nsidx == want.nsidx

/-- A codeword of no run: LBA and ZONE all ones, NSIDX 0 (R78, R443). -/
def unfilledCw (data : Blk) (hmd : Hmd) (epoch loc : Nat) : Cw := ⟨data, hmd, noLba, epoch, 0xFFFFFFFF, loc, 0, false⟩

/-- The codeword of a zone's block (R443, Body): LBA and NSIDX from the zone. A block lost with its buffer is a lost-row codeword (R340). -/
def State.zoneCw (s : State) (zmi off : Nat) (b : Buf) (epoch loc : Nat) : Cw :=
  let z := s.zone zmi
  ⟨if b.bad then 0 else b.data, b.hmd, s.zoneStart zmi + off, epoch, zmi, loc + b.gen % 256 * 2 ^ 24, z.ns, b.bad⟩

/-- The bytes a row gives at each member (R121): what was read; a pad or a member left out gives zeros. -/
def Recon.bytes (r : Recon) (m : Nat) : List Byte :=
  match Tab.find r.members m with
  | some (.got d h) => protectedBytes d h
  | _ => []

/-- The codeword PQE reconstructs for the target (R122): the target and at most one other member are erased; members
neither read nor erased play no part. -/
def Recon.result (r : Recon) : Blk × Hmd :=
  let other := (List.range 18).find? fun m => m != r.target && !r.gotAll.contains m &&
    (r.erased.contains m || !(m = 16 || m = 17))
  match other with
  | none => unprotected (reconstructRow r.bytes r.target none (r.gotAll.contains 16))
  | some o =>
    let a := min r.target o
    let b := max r.target o
    let bytes := (List.range 4112).map fun k =>
      let v := reconstruct (fun m => (r.bytes m).getD k 0) a (some b) false
      if r.target = a then v.1 else v.2
    unprotected bytes

/-- The codeword of a place of a stripe, with data read or reconstructed: LBA, ZONE, LOC and NSIDX follow from the place (R443); data that
was lost makes a lost-row codeword (R152). -/
def State.placeCw (s : State) (own : StripeOf) (m cw epoch : Nat) (x : Moved) : Cw :=
  let d := if x.lost then 0 else x.data
  let gen := fun (g : Nat) => g % 256 * 2 ^ 24
  let body := fun (z i : Nat) =>
    let lba := if m < 16 then s.zoneStart z + i * s.lps + m * s.cps + cw else noLba
    (⟨d, x.hmd, lba, epoch, z, tagLoc i m cw false (s.zone z).gen, (s.zone z).ns, x.lost⟩ : Cw)
  let slc := fun (b i : Nat) =>
    let loc := s.slcIndex b i * s.stageLps + m * s.stageCps + cw
    let l := tagLoc i m cw true 0
    if 16 ≤ m then (⟨d, x.hmd, noLba, epoch, 0xFFFFFFFF, l, 0, x.lost⟩ : Cw)
    else match s.runAt loc, s.entryAt loc with
    | some r, _ =>
      ⟨d, x.hmd, s.zoneStart r.zone + r.off + (loc % s.stageLps - r.pos), epoch, r.zone, l + gen (s.zone r.zone).gen, (s.zone r.zone).ns,
        x.lost⟩
    | none, some (n, lba) => ⟨d, x.hmd, lba, epoch, 0xFFFFFFFF, l + gen x.gen, n, x.lost⟩
    | none, none => { unfilledCw d x.hmd epoch l with lost := x.lost }
  match own with
  | .body z i => body z i
  | .reloc z i => body z i
  | .stage b i => slc b i
  | .conv b i => slc b i
  | .journal i => { unfilledCw d x.hmd epoch (tagLoc i m cw true 0) with lost := x.lost }

/-- What a data member of a body stripe writes at a codeword: its buffer's block, and zeros on a pad member (R82, R121). -/
def State.bodyCw (s : State) (zmi idx m cw epoch : Nat) : Cw :=
  let off := idx * s.lps + m * s.cps + cw
  let loc := tagLoc idx m cw false 0
  match s.zoneBuf zmi off with
  | some (_, b) => s.zoneCw zmi off b epoch loc
  | none => ⟨0, 0, s.zoneStart zmi + off, epoch, zmi, loc, (s.zone zmi).ns, false⟩

/-- What a data member of an SLC stripe writes at a codeword (R78, R176): the packed block from its buffer; one moved from flash, with the
ciphertext, metadata and key generation that were read; or an unfilled codeword, zero in a conventional stripe, and free in a stage stripe,
where R78 names no value (assumption 49). -/
def State.slcCw (s : State) (t : Stripe) (m cw epoch : Nat) : Cw :=
  let pos := m * s.stageCps + cw
  let loc := tagLoc t.idx m cw true 0
  match t.pack.find? fun c => c.pos == pos with
  | none => unfilledCw (match t.of_ with | .conv _ _ => 0 | _ => Config.unfilled pos) 0 epoch loc
  | some c =>
    let b : Moved := match c.buf.bind fun i => Tab.find s.zne.bufs i with
      | some b => ⟨b.data, b.hmd, b.gen, b.bad⟩
      | none => c.moved.getD ⟨0, 0, 0, true⟩
    let d := if b.lost then 0 else b.data
    let h := b.hmd
    let g := b.gen % 256 * 2 ^ 24
    let lost := b.lost
    match c.own with
    | .zone zmi off => ⟨d, h, s.zoneStart zmi + off, epoch, zmi, loc + g, (s.zone zmi).ns, lost⟩
    | .conv n lba _ => ⟨d, h, lba, epoch, 0xFFFFFFFF, loc + g, n, lost⟩
    | _ => unfilledCw d h epoch loc

/-- Data member m of a stripe at a codeword of its row: what was read for the stripe, or what its buffers and packed codewords hold. -/
def State.dataCw (s : State) (t : Stripe) (m cw : Nat) : Cw :=
  let epoch := (t.members.getD m ⟨0, .idle, false, 0⟩).epoch
  match Tab.find t.src (m * (if t.slc then s.stageCps else s.cps) + cw), t.of_ with
  | some x, own => s.placeCw own m cw epoch x
  | none, .body z i => s.bodyCw z i m cw epoch
  | none, .reloc z i => s.bodyCw z i m cw epoch
  | none, _ => s.slcCw t m cw epoch

/-- The protected bytes of the P or Q codeword of a row (R121). -/
def State.parityBytes (s : State) (t : Stripe) (q : Bool) (cw : Nat) : List Byte :=
  let row := (List.range 16).map fun m => let c := s.dataCw t m cw; protectedBytes c.data c.hmd
  (List.range 4112).map fun k =>
    let d := fun m => (row.getD m []).getD k 0
    if q then parityQ d 16 0 else parityP d 16 0

/-- The P (member 16) or Q (17) codeword of a row: parity in DATA and HMD, LBA all ones, the other fields as R35 has them (R121). -/
def State.parityCw (s : State) (t : Stripe) (m cw : Nat) : Cw :=
  let (d, h) := unprotected (s.parityBytes t (m == 17) cw)
  let epoch := (t.members.getD m ⟨0, .idle, false, 0⟩).epoch
  s.placeCw t.of_ m cw epoch ⟨d, h, 0, false⟩

/-- The codeword that a member's program writes at a place of its slice. -/
def State.memberCw (s : State) (t : Stripe) (m cw : Nat) : Cw := if m < 16 then s.dataCw t m cw else s.parityCw t m cw

/-- The stripe a slice of a job belongs to. -/
def MJob.own (j : MJob) (i : Nat) : StripeOf :=
  match j.slcBody with
  | some b => .stage b i
  | none => .body j.zmi i

/-- What a member job writes at a codeword: what it copied or had reconstructed, or what PQE makes of the helper codewords it read (R122,
R140, R146). -/
def MJob.result (x : MJob) (cw : Nat) : Moved :=
  match Tab.find x.got (cw * 32 + 31) with
  | some y => y
  | none =>
    let ms : Tab RowMember := (List.range 18).foldl (fun t m => match Tab.find x.got (cw * 32 + m) with
      | some y => Tab.set t m (.got y.data y.hmd)
      | none => t) []
    let r : Recon := {
      for_ := .job 0 cw, own := x.own x.done, row := [], slice := x.done, cw := cw, slc := x.slcBody.isSome, target := x.member,
      members := ms, around := false, degraded := false, racing := false, failed := false, waiting := false, cls := 5, ten := 0xFF,
      crcRetry := false }
    ⟨r.result.1, r.result.2, 0, false⟩

/-- The P and Q of a stripe go to the parity shelf with the codewords they hold there: tags under R35 with LOC[23] set (R132, R135). -/
def State.shelveStripe (s : State) (k : Nat) : State :=
  match s.stripe k with
  | none => s
  | some t =>
    match t.record with
    | none => s
    | some r =>
      let had := decide ((s.huskRec r).shelfSeq = t.hseq ∧ t.hseq ≠ 0)
      let e := s.zne.husk.epoch
      let s := s.shelve r t.hseq
      let x := s.huskRec r
      if had || x.shelfSeq != t.hseq then s
      else
        let put := fun (slot m ep : Nat) (c : Tab Cw) => (List.range (if t.slc then s.stageCps else s.cps)).foldl (fun c cw =>
          Tab.set c (slot * 128 + cw) { s.parityCw t m cw with epoch := ep, loc := (s.parityCw t m cw).loc ||| 2 ^ 23 }) c
        s.hk fun h => { h with shelfCw := put x.qshelf 17 (e + 1) (put x.pshelf 16 e h.shelfCw) }

/-- The data stream of a program: the codewords of its slice one after another (R34, R202), those of a member job with tags made afresh
for their place (R140, R443). -/
def State.programBytes (s : State) (o : DieOp) : List Byte :=
  let n := if o.slc then s.stageCps else s.cps
  match o.purpose with
  | .prog k m =>
    match s.stripe k with
    | some t => (List.range n).flatMap fun cw => (s.memberCw t m cw).bytes (4 * s.zne.profile.ldpcLen)
    | none => []
  | .jobProg j =>
    match Tab.find s.zne.jobs j with
    | some x => (List.range n).flatMap fun cw => (s.placeCw (x.own x.done) x.member cw x.epoch (x.result cw)).bytes (4 * s.zne.profile.ldpcLen)
    | none => []
  | _ => List.replicate (n * 4544) 0xFF

end Sys2Proof.Machine
end

