-- ==== Sys2Proof/Machine/Serve.lean ====
section
/-! DEFINITION. Serving the blocks of host commands: hazards between conventional commands (R191), lookup of a
block (R92, R93), what a settled command does (Read, Compare, Verify, fused pairs, Copy: R87, R88, R95, R193), and
writes whose blocks are in place (R29, R72, R183). -/

namespace Sys2Proof.Machine

/-! ### Data of an entry -/

/-- Logical block k of the data an entry sends. -/
def Sqe.block (e : Sqe) (k : Nat) : Blk := BitVec.ofNat 32768 (ofLe ((e.data.drop (k * 4096)).take 4096))

/-- Metadata of block k of the data an entry sends: it follows the n data blocks. -/
def Sqe.hmd (e : Sqe) (n k bytes : Nat) : Hmd :=
  BitVec.ofNat 128 (ofLe ((e.data.drop (n * 4096 + k * bytes)).take bytes))

/-- Metadata bytes of a namespace's LBA format (R276). -/
def State.metaBytes (s : State) (n : Nat) : Nat := ((s.nsAt n).map (·.meta_)).getD 0

/-- The source ranges of a Copy: first LBA and number of blocks (R87, Format 0 descriptors of 32 B). -/
def copyRanges : Nat → List Byte → List (Nat × Nat)
  | 0, _ => []
  | n + 1, bs => (ofLe ((bs.drop 8).take 8), ofLe ((bs.drop 16).take 2) + 1) :: copyRanges n (bs.drop 32)

/-- Ranges of a Copy entry (CDW12[7:0], 0's based). -/
def Sqe.ranges (e : Sqe) : List (Nat × Nat) := copyRanges (e.cdw12.toNat % 256 + 1) e.data

/-- Total length of a Copy. -/
def Sqe.copyLen (e : Sqe) : Nat := sumBy (·.2) e.ranges

/-- Source LBA of block k of a Copy. -/
def sourceLba : List (Nat × Nat) → Nat → Nat
  | [], _ => 0
  | (l, n) :: rs, k => if k < n then l + k else sourceLba rs (k - n)

/-- The LBA that a block key of a slot stands for: a Copy keys its source blocks by their place in the Copy. -/
def Slot.lbaOf (x : Slot) (key : Nat) : Nat := if x.opc = 0x19 then sourceLba x.sqe.ranges key else key

/-- Index of the range that holds block k of a Copy. -/
def rangeIndex : List (Nat × Nat) → Nat → Nat
  | [], _ => 0
  | (_, n) :: rs, k => if k < n then 0 else rangeIndex rs (k - n) + 1

/-! ### Hazards (R191) -/

/-- A range list covers an LBA. -/
def covers (rs : List (Nat × Nat)) (lba : Nat) : Bool := rs.any fun r => decide (r.1 ≤ lba) && decide (lba < r.1 + r.2)

/-- A slot's read has captured an LBA (R94). -/
def Slot.captured (x : Slot) (lba : Nat) : Bool :=
  match Tab.find x.blocks lba with
  | some .hazard => false
  | some .assigned => false
  | some _ => true
  | none => false

/-- A slot's write has put an LBA in place, or given it up. -/
def Slot.placed (x : Slot) (lba : Nat) : Bool := x.taken.contains (lba - x.slba)

/-- Earlier commands leave an LBA to a command: earlier writes are in place, and for a write earlier reads have
captured it. -/
def State.hazardFree (s : State) (n order lba : Nat) (writes : Bool) : Bool :=
  s.hif.hazards.all fun e => e.2.ns != n || decide (order ≤ e.2.order) || !covers e.2.ranges lba ||
    (match s.slot e.2.slot with
      | some x => if e.2.writes then x.placed lba else !writes || x.captured lba
      | none => true)

/-- The admission order of a slot. -/
def State.orderOf (s : State) (i : Nat) : Nat := ((s.slot i).map (·.order)).getD 0

/-! ### Looking a block up -/

/-- A block of a read gets its outcome. -/
def State.setBlock (s : State) (i key : Nat) (b : RBlk) : State :=
  s.modSlot i fun x => { x with blocks := Tab.set x.blocks key b }

/-- Decrypt a codeword for a slot (R306, R308): a failed owner check gives Internal Error and no data. -/
def State.openBlock (s : State) (i key n gen lba : Nat) (d : Blk) (h : Hmd) : State :=
  match s.decryptBlk n gen (((s.slot i).map (·.ten)).getD 0) lba d with
  | (some p, s) => s.setBlock i key (.got p h)
  | (none, s) => s.setBlock i key (.failed .internalError)

/-- Look a block of a slot's command up (R92, R93): zeros and buffer hits are served at once; a codeword on flash is
returned to be read. `bad` lists write buffers whose CRC check fails. -/
def State.lookup (s : State) (i n key lba : Nat) (bad : List Nat) : Option CwRead × State :=
  match s.locate n lba with
  | .zeros => (none, s.setBlock i key (.got 0 0))
  | .buffer b =>
    match Tab.find s.zne.bufs b with
    | some x =>
      let s := s.bump F.ZNE_RASTAT_WBHIT_COUNT
      if bad.contains b then (none, (s.bufferFailed b false).setBlock i key (.failed .unrecoveredRead))
      else if x.bad then (none, s.setBlock i key (.failed .unrecoveredRead))
      else (none, s.openBlock i key x.ns x.gen lba x.data x.hmd)
    | none => (none, s.setBlock i key (.got 0 0))
  | .arriving => (none, s.setBlock i key .assigned)
  | .lost =>
    let n := match s.mapAt n lba with
      | some (.lost r _ _) => ((Tab.find s.zne.lost r).map fun e => max 1 ((List.range 18).filter fun m => bit e.members m).length).getD 1
      | _ => 1
    (none, (s.modSlot i fun x => { x with hard := Tab.set x.hard key n }).setBlock i key (.failed .unrecoveredRead))
  | .flash own row m cw slc => (some ⟨own, row, m, cw, slc, key⟩, s.setBlock i key .flash)

/-- Look up a list of blocks, each under its key, collecting the codewords to read. -/
def State.lookupAll (s : State) (i n : Nat) (bad : List Nat) : List (Nat × Nat) → List CwRead × State
  | [] => ([], s)
  | (key, lba) :: ks =>
    let (c, s) := s.lookup i n key lba bad
    let (cs, s) := s.lookupAll i n bad ks
    (c.toList ++ cs, s)

/-! ### Settled commands -/

/-- A block has its outcome. -/
def RBlk.settled : RBlk → Bool
  | .got _ _ => true
  | .failed _ => true
  | _ => false

/-- Every block of a slot's read is settled. -/
def Slot.allSettled (x : Slot) : Bool := decide (x.blocks.length = x.nlb) && x.blocks.all fun e => e.2.settled

/-- The error of the lowest failing LBA of a read (R95). -/
def Slot.firstError (x : Slot) : Option Status :=
  x.blocks.findSome? fun e => match e.2 with
    | .failed st => some st
    | _ => none

/-- Event 0x0205 for the blocks of a read that failed unrecovered, with the zone of each and the erasures in the row (R120); 1 where no row was read: the
block's own member alone is lost (R340). -/
def State.reportLost (s : State) (x : Slot) : State :=
  (x.blocks.filter fun e => match e.2 with | .failed .unrecoveredRead => true | _ => false).foldl
    (fun s e => s.znePost 0x0205 [(32, if s.isConv x.ns then x.ns else (s.zoneOf x.ns e.1).getD x.ns), (64, e.1),
      (8, Tab.getD x.hard e.1 1)] x.ten) s

/-- The data and metadata of a Compare agree with the host's (R193). -/
def State.compareAgrees (s : State) (x : Slot) : Bool :=
  x.blocks.all fun e => match e.2 with
    | .got d h => d == x.sqe.block (e.1 - x.slba) &&
        h == x.sqe.hmd x.nlb (e.1 - x.slba) (s.metaBytes x.ns)
    | _ => true

/-- The write buffers a slot has reserved and not used, in order. -/
def State.reservedOf (s : State) (i : Nat) : List Nat :=
  Tab.keys (Tab.keep s.zne.bufs fun _ b => b.slot = i && b.own = .unassigned)

/-- Placement handle of a Write with FDP on: the directive specific field when the directive is Data Placement
(R190). -/
def State.handleOf (s : State) (n : Nat) (e : Sqe) : Nat :=
  match s.cns n with
  | some c => if c.fdp ∧ bits e.cdw12.toNat 20 4 = 2 then e.cdw13.toNat / 2 ^ 16 else 0
  | none => 0

/-- A conventional Write (R177, R183, R190, R309). -/
def State.convWrite (s : State) (i : Nat) (x : Slot) : State :=
  match s.cns x.ns with
  | none => s.complete i .invalidNamespace
  | some c =>
    let h := s.handleOf x.ns x.sqe
    let fresh := ((List.range x.nlb).filter fun k => (s.mapAt x.ns (x.slba + k)).isNone).length
    if (s.rset c.set).readOnly then s.complete i .namespaceWriteProtected
    else if s.convRefuses x.ns then s.complete i .keyRotationPending
    else if c.nruh ≤ h then s.complete i .invalidPlacementHandle
    else if c.ncap < c.nuse + fresh then s.complete i .capacityExceeded
    else
      let bs := (List.range x.nlb).zip (s.reservedOf i)
      let gen := s.fld (F.XTS_NSK_CURGEN x.ns)
      let s := bs.foldl (fun s e => s.modBuf e.2 fun b => { b with
        own := .conv x.ns (x.slba + e.1) h, ns := x.ns, gen := gen }) s
      s.modSlot i fun y => { y with st := .running, started := true, bufs := bs, thru := s.flag F.ZNE_DIRTYCFG_THRU || x.thru }

/-- A fused pair whose Compare agreed goes on as its Write: the Compare's completion is posted, and the write is checked and takes
its buffers (R177, R193). -/
def State.fusedGoesOn (s : State) (i : Nat) (x : Slot) (w : Sqe) : State :=
  let s := s.postCpl ⟨x.fn, x.qid, x.sqe.cid.toNat, .success, 0, 0, [], []⟩
  let y := { x with sqe := w, blocks := [], fused := none, started := true }
  (s.modSlot i fun _ => y).convWrite i y

/-- A settled Read, Compare or Verify completes. -/
def State.settleRead (s : State) (i : Nat) (x : Slot) : State :=
  if x.allSettled then
    let s := s.reportLost x
    match x.firstError with
    | some st =>
      let s := match x.fused with
        | some w => s.postCpl ⟨x.fn, x.qid, w.cid.toNat, .abortedFailedFused, 0, 0, [], []⟩
        | none => s
      s.complete i st
    | none =>
      if x.opc = 0x05 then
        if s.compareAgrees x then
          match x.fused with
          | some w => s.fusedGoesOn i x w
          | none => s.complete i .success
        else
          let s := match x.fused with
            | some w => s.postCpl ⟨x.fn, x.qid, w.cid.toNat, .abortedFailedFused, 0, 0, [], []⟩
            | none => s
          s.complete i .compareFailure
      else s.complete i .success
  else s

/-! ### Copy (R87, R88) -/

/-- Tokens and class of a Copy's source reads: class 5, charged to the tenancy (R97, R99). -/
def State.copyReads (s : State) (i : Nat) (x : Slot) (ks : List Nat) : State :=
  let (cs, s) := s.lookupAll i x.ns x.bad (ks.map fun k => (k, sourceLba x.sqe.ranges k))
  s.issueReads 5 x.ten (.host i) cs

/-- A Copy ends (R88). -/
def State.endCopy (s : State) (i : Nat) (x : Slot) (st : Status) : State :=
  let s := match x.zmi with
    | some z => s.modZone z fun z => { z with copying := false }
    | none => s
  s.complete i st (if st = .success then 0 else rangeIndex x.sqe.ranges x.cursor)

/-- A write buffer for the next block of a Copy: one it reserved, or a further one within WBQ, EFF and the power-loss reserve (R271,
R441). -/
def State.copyBuffer (s : State) (i : Nat) (x : Slot) : Option (Nat × State) :=
  match s.zne.bufs.find? (fun e => e.2.slot = i && e.2.own = .unassigned) with
  | some (b, _) => some (b, s)
  | none =>
    if s.fld F.ZNE_DIRTY_CUR < s.effBufs ∧ s.fld (F.HIF_TWBU_WBU x.ten) < s.fld (F.HIF_TWBQ_WBQ x.ten) ∧
        s.capacityCovers (s.zone (x.zmi.getD 0)).set 1 = true then
      some (s.reserveBuf .unassigned 0 0 x.ten i)
    else none

/-- Land the blocks of a Copy in order, each at WP of the destination zone in a buffer of its own, within n
rounds. DESIGN CHOICE (assumption 79): where the zone has gone Full, Read Only or Offline meanwhile, for which R88 names the finish by
controller alone, the Copy completes with Zone Is Full. -/
def State.copyLand (s : State) (i : Nat) : Nat → State
  | 0 => s
  | n + 1 =>
    match s.slot i with
    | none => s
    | some x =>
      let zmi := x.zmi.getD 0
      let z := s.zone zmi
      if x.cursor = x.nlb then
        if x.thru then s else s.endCopy i x .success
      else
        match Tab.find x.blocks x.cursor with
        | some (.failed st) => s.endCopy i x st
        | some (.got d h) =>
          if z.reported ∉ [.iopen, .eopen, .closed] then s.endCopy i x .zoneIsFull
          else
            match s.copyBuffer i x with
            | none => s
            | some (b, s) =>
              let (c, s) := s.encryptBlk z.ns z.gen x.ten (s.zoneStart zmi + z.wp) d
              match c with
              | none => s.endCopy i x .internalError
              | some c =>
                let s := s.modBuf b fun y => { y with
                  own := .zone zmi z.wp, st := .held, data := c, hmd := h, ns := z.ns, gen := z.gen, at_ := s.now,
                  moved := true }
                let s := s.modZone zmi fun z => { z with wp := z.wp + 1, lastWr := s.now }
                let s := s.countWritten x.ten 1
                let s := s.modSlot i fun x => { x with cursor := x.cursor + 1, blocks := Tab.erase x.blocks x.cursor }
                let s := if x.cursor + 256 < x.nlb then s.copyReads i x [x.cursor + 256] else s
                let s := if z.wp + 1 = s.zLba ∧ z.zs ≠ .pending then s.fullZone zmi false else s
                let s := s.tryCommitBody zmi (s.offStripe z.wp) z.staged
                s.copyLand i n
        | _ => s

/-- Copies that wait for a buffer go on. -/
def State.retryCopies (s : State) : State :=
  (s.hif.slots.filter fun e => e.2.opc = 0x19 && e.2.st = .running).foldl (fun s e => s.copyLand e.1 (e.2.nlb + 1)) s

/-! ### Writes in place (R29, R183) -/

/-- The write of a slot completes once all its blocks are in place; in stage-through mode it waits for the stage
(R29, R67, R76). A Zone Append returns its LBA. -/
def State.writeDone (s : State) (i : Nat) : State :=
  match s.slot i with
  | some x =>
    if x.nlb ≤ x.taken.length ∧ x.thru = false then
      s.complete i (x.err.getD .success) (if x.opc = 0x7D then x.slba % 2 ^ 32 else 0)
        (if x.opc = 0x7D then x.slba / 2 ^ 32 else 0)
    else s
  | none => s

/-- Put the blocks of a conventional write in place, each once earlier overlapping commands leave it (R183, R191).
-/
def State.placeConv (s : State) (i : Nat) (x : Slot) : State :=
  x.bufs.foldl (fun s e =>
    match s.slot i, Tab.find s.zne.bufs e.2 with
    | some y, some b =>
      if b.st = .held ∧ y.taken.contains e.1 = false ∧ s.hazardFree y.ns y.order (y.slba + e.1) true then
        let ruh := match b.own with | .conv _ _ r => r | _ => 0
        -- without a segment for it the block waits (R187)
        match s.convCw y.ns (y.slba + e.1) ruh false (some e.2) none with
        | (true, s) =>
          let s := s.setEntry y.ns (y.slba + e.1) (some (.buffer e.2))
          (s.countWritten y.ten 1).modSlot i fun y => { y with taken := y.taken ++ [e.1] }
        | (false, s) => s
      else s
    | _, _ => s) s

/-- The blocks of a deallocating command. -/
def Slot.ranges (x : Slot) : List (Nat × Nat) :=
  if x.opc = 0x09 then
    (List.range (x.sqe.cdw10.toNat % 256 + 1)).map fun k =>
      (ofLe ((x.sqe.data.drop (16 * k + 8)).take 8), ofLe ((x.sqe.data.drop (16 * k + 4)).take 4))
  else [(x.slba, x.nlb)]

/-- The ranges of a conventional command's hazard entry (R191): none for I/O Management, which reaches no LBA. -/
def Slot.hazardRanges (x : Slot) : List (Nat × Nat) := if x.opc = 0x12 ∨ x.opc = 0x1D then [] else x.ranges

/-- Every LBA of a range list. -/
def lbasOf (rs : List (Nat × Nat)) : List Nat := rs.flatMap fun r => (List.range r.2).map (r.1 + ·)

/-- A deallocation takes effect once every block is free of earlier commands (R184, R191); Dataset Management
deallocates only with the Deallocate attribute. In stage-through mode it completes once its map pages are written (R182); `cursor` 1
marks the slot that waits for that. -/
def State.deallocate (s : State) (i : Nat) (x : Slot) : State :=
  let ls := lbasOf x.ranges
  if x.cursor = 0 ∧ ls.all (fun l => s.hazardFree x.ns x.order l true) = true then
    let s := if x.opc = 0x08 ∨ bit x.sqe.cdw11.toNat 2 = true then ls.foldl (fun s l => s.setEntry x.ns l none) s else s
    if s.flag F.ZNE_DIRTYCFG_THRU || x.thru then s.modSlot i fun x => { x with cursor := 1, thru := true }
    else s.complete i .success
  else s

/-- A conventional command goes on as far as hazards allow (HAZARD_RELEASE). -/
def State.advanceConv (s : State) (i : Nat) : State :=
  match s.slot i with
  | none => s
  | some x =>
    if x.st ≠ .running ∨ s.isConv x.ns = false then s
    else if x.opc = 0x01 then (s.placeConv i x).writeDone i
    else if x.reads then
      let free := (x.blocks.filter fun e => e.2 = .hazard && s.hazardFree x.ns x.order e.1 false).map (·.1)
      let (cs, s) := s.lookupAll i x.ns x.bad (free.map fun l => (l, l))
      let s := s.issueReads (if x.urgent then 1 else 2) x.ten (.host i) cs
      match s.slot i with
      | some x => s.settleRead i x
      | none => s
    else if x.opc = 0x08 ∨ x.opc = 0x09 then s.deallocate i x
    else s

/-- Conventional commands in admission order, each brought on; twice, since one may release another. -/
def State.wakeConv (s : State) : State :=
  let ids := s.hif.hazards.map fun e => e.2.slot
  (ids ++ ids).foldl (fun s i => s.advanceConv i) s

/-- A command whose block has got its outcome settles as its kind says. -/
def State.settle (s : State) (i : Nat) : State :=
  match s.slot i with
  | none => s
  | some x => if x.opc = 0x19 then s.copyLand i (x.nlb + 1) else (s.settleRead i x).wakeConv

/-- A block of a slot's command gets its outcome, and the command settles. -/
def State.serve (s : State) (i key : Nat) (b : RBlk) : State := (s.setBlock i key b).settle i

/-- Reads waiting for a zone block return it once it is in its buffer or voided (R71). -/
def State.releaseAssigned (s : State) (zmi off : Nat) : State :=
  let lba := s.zoneStart zmi + off
  let keys := fun (x : Slot) => (x.blocks.filter fun b => b.2 = .assigned && x.lbaOf b.1 == lba).map (·.1)
  (s.hif.slots.filter fun e => e.2.ns = (s.zone zmi).ns && !(keys e.2).isEmpty).foldl (fun s e =>
    ((keys e.2).foldl (fun s k => (s.lookup e.1 e.2.ns k lba e.2.bad).2) s).settle e.1) s

/-- A zoned write's block is in its buffer (DMC_BUFFER_ACK): it counts as taken, waiting reads get it, and its
stripe may be complete (R29, R71, R72). -/
def State.placeZoned (s : State) (i k zmi off : Nat) : State :=
  let ten := ((s.slot i).map (·.ten)).getD 0
  let s := s.modSlot i fun x => { x with taken := if x.taken.contains k then x.taken else x.taken ++ [k] }
  let s := (s.countWritten ten 1).releaseAssigned zmi off
  let s := s.tryCommitBody zmi (s.offStripe off) (s.zone zmi).staged
  s.writeDone i

end Sys2Proof.Machine
end

