-- ==== Sys2Proof/Machine/Reclaim.lean ====
section
/-! DEFINITION. Reclaim of conventional segments (R185 to R187): the victim, the reads of its valid codewords, starting and stopping. -/

namespace Sys2Proof.Machine

/-- A body has a member on a dead die. -/
def State.hasDead (s : State) (x : SlcBody) : Bool := x.members.any fun b => s.deadDie (blkDie b)

/-- The tenancy that owns the data of an SLC codeword: that of its zone or of its namespace (R99, R186 step 1). -/
def State.locTen (s : State) (loc : Nat) : Nat :=
  match s.runAt loc, s.entryAt loc with
  | some r, _ => s.zoneTen r.zone
  | none, some (n, _) => ((s.cns n).map (·.owner)).getD 0xFF
  | none, none => 0xFF

/-- Read codewords of SLC locations to move them: class 5, each charged to the tenancy that owns it. -/
def State.collect (s : State) (locs : List Nat) : State :=
  let ts := locs.map fun l => (s.locTen l, l)
  (ts.map (·.1)).eraseDups.foldl (fun s t =>
    s.issueReads 5 t .collect ((ts.filter fun e => e.1 == t).filterMap fun e => match s.slcLoc e.2 with
      | .flash own row m cw slc => some ⟨own, row, m, cw, slc, e.2⟩
      | _ => none)) s

/-- SLC codeword indices in a body that map entries point to. -/
def State.entryLocs (s : State) (b : Nat) : List Nat :=
  s.zne.conv.flatMap fun c => c.2.map.filterMap fun e => e.2.place.filter fun l => l / s.segCws == b

/-- The victim of reclaim: a segment with an unreadable member, else lowest VALID, lowest SEQ on a tie (R185). -/
def State.convVictim (s : State) (set : Nat) : Option Nat :=
  let fs := s.zne.slc.filter fun e => e.2.set = set && e.2.st = .full
  match fs.find? fun e => s.hasDead e.2 with
  | some (b, _) => some b
  | none => (minBy (fun e => e.2.valid * 2 ^ 40 + e.2.seq) fs).map (·.1)

/-- Make a segment a victim and read its valid codewords (R186 step 1); while writes are stalled, without the limit of background
tokens (R187, State.stallFree). -/
def State.reclaimSeg (s : State) (b : Nat) : State :=
  let s := s.modSlc b fun x => { x with st := .victim }
  (s.collect (s.entryLocs b)).reapSeg b

/-- Reclaim of every rank set takes its next victim, when none is being read: while it runs, and a full segment with a member on a dead
die at any time, in place of a rebuild (R185). -/
def State.runReclaim (s : State) : State :=
  s.zne.sets.foldl (fun s e =>
    if s.zne.slc.all (fun x => x.2.set != e.1 || x.2.st != .victim) = true then
      match s.convVictim e.1 with
      | some b => if (s.rset e.1).reclaim || ((Tab.find s.zne.slc b).map s.hasDead).getD false then s.reclaimSeg b else s
      | none => s
    else s) s

/-- Reclaim starts or stops with the free segments of each rank set, conventional writes are held or let go, and the next victims are
taken (R185, R187). -/
def State.reclaimStep (s : State) : State := (s.zne.sets.foldl (fun s e => s.segCheck e.1) s).runReclaim

end Sys2Proof.Machine
end

