-- ==== Sys2Proof/Machine/HostWrite.lean ====
section
/-! DEFINITION. Writes of the host (R66 to R71, R177, R183, R190): Write, Zone Append and Copy are checked and
assigned their LBAs, data arrives through XTS, DMC acknowledges it, a transfer that fails is voided. -/

namespace Sys2Proof.Machine

/-! ### Checks -/

/-- The first eight steps of R66 and step 9, in order; step 10 is `writeQuota`. -/
def State.writeCheck (s : State) (zmi nlb slba : Nat) (append : Bool) : Option Status :=
  let z := s.zone zmi
  if (s.rset z.set).readOnly then some .namespaceWriteProtected
  else if z.zs = .offline then some .zoneIsOffline
  else if z.zs = .readOnly then some .zoneIsReadOnly
  else if z.zs = .full then some .zoneIsFull
  else if append ∧ slba ≠ s.zoneStart zmi then some .invalidField
  else if append = false ∧ slba ≠ s.zoneStart zmi + z.wp then some .zoneInvalidWrite
  else if s.zLba < z.wp + nlb then some .zoneBoundary
  else if append ∧ 256 < nlb then some .invalidField
  else if z.active = false ∧ s.genAllows z.ns = false then some .keyRotationPending
  else none

/-- LBA_ASSIGN: the command takes WP as its first LBA and WP advances (R67). -/
def State.assignLba (s : State) (i : Nat) (x : Slot) (zmi nlb : Nat) : State :=
  let z := s.zone zmi
  let bs := (List.range nlb).zip (s.reservedOf i)
  let s := bs.foldl (fun s e => s.modBuf e.2 fun b => { b with own := .zone zmi (z.wp + e.1), ns := z.ns, gen := z.gen }) s
  let s := s.modSlot i fun y => { y with
    st := .running, started := true, slba := s.zoneStart zmi + z.wp, bufs := bs,
    thru := s.flag F.ZNE_DIRTYCFG_THRU || x.thru }
  let s := s.modZone zmi fun z => { z with wp := z.wp + nlb, lastWr := s.now }
  if z.wp + nlb = s.zLba ∧ z.zs ≠ .pending then s.fullZone zmi false else s

/-- A zoned Write or Zone Append (R66, R67), once it is its turn on the zone. DESIGN CHOICE (assumption 61): where the zone it makes
active finds no body (R58), the command itself completes with Zone Is Full. -/
def State.zonedWrite (s : State) (i : Nat) (x : Slot) (append : Bool) : State :=
  match x.zmi with
  | none => s.complete i .lbaOutOfRange
  | some zmi =>
    if s.zoneBusy i zmi x.order then s
    else
      match s.writeCheck zmi x.nlb x.slba append with
      | some st => s.complete i st
      | none =>
        match s.writeQuota zmi with
        | (some st, _) => s.complete i st
        | (none, v) =>
          let s := s.openForWrite zmi v
          if (s.zone zmi).zs = .full then s.complete i .zoneIsFull else s.assignLba i x zmi x.nlb

/-- The command in a slot may be executed: it is admitted, and its opcode is the row's. -/
def State.startable (s : State) (i opc : Nat) : Option Slot :=
  match s.slot i with
  | some x => if x.opc = opc ∧ (x.st = .admitted ∨ x.st = .waiting) then some x else none
  | none => none

/-- WRITE: a Write is checked and assigned its LBAs, or takes its buffers (R66, R67, R177, R183). A write that failed
decoding carries its error and completes with it (R271). -/
def execWrite (i : Fin 65536) (s : State) : Host.Outcome State Fault Refusal :=
  match s.startable i.val 0x01 with
  | none => .next s
  | some x =>
    match x.err with
    | some st => .next (s.complete i.val st)
    | none => .next (if s.isConv x.ns then s.convWrite i.val x else s.zonedWrite i.val x false)

/-- ZONE_APPEND (R66 to R68). -/
def execZoneAppend (i : Fin 65536) (s : State) : Host.Outcome State Fault Refusal :=
  match s.startable i.val 0x7D with
  | none => .next s
  | some x =>
    match x.err with
    | some st => .next (s.complete i.val st)
    | none => .next (s.zonedWrite i.val x true)

/-- COPY: checked against the limits of R87, first and with Invalid Field in Command (DESIGN CHOICE, assumption 86), and under R66 with its
total length; then its first sources are read (R88). -/
def execCopy (c : CopyIn) (s : State) : Host.Outcome State Fault Refusal :=
  match s.startable c.slot.val 0x19 with
  | none => .next s
  | some x =>
    match x.err, x.zmi with
    | some st, _ => .next (s.complete c.slot.val st)
    | none, none => .next (s.complete c.slot.val .lbaOutOfRange)
    | none, some zmi =>
      let n := x.sqe.copyLen
      let size := ((s.nsAt x.ns).map (·.nsze)).getD 0
      if s.zoneBusy c.slot.val zmi x.order then .next s
      else if bits x.sqe.cdw12.toNat 8 4 ≠ 0 ∨ 128 < x.sqe.ranges.length ∨ 131072 < n ∨
          x.sqe.ranges.any (fun r => decide (131072 < r.2)) = true then .next (s.complete c.slot.val .invalidField)
      else if x.sqe.ranges.any (fun r => decide (size < r.1 + r.2)) then .next (s.complete c.slot.val .lbaOutOfRange)
      else
        match s.writeCheck zmi n x.slba false, s.writeQuota zmi with
        | some st, _ => .next (s.complete c.slot.val st)
        | none, (some st, _) => .next (s.complete c.slot.val st)
        | none, (none, v) =>
          let s := s.openForWrite zmi v
          if (s.zone zmi).zs = .full then .next (s.complete c.slot.val .zoneIsFull)
          else
            let s := s.modZone zmi fun z => { z with copying := true }
            let x := { x with st := .running, started := true, nlb := n, cursor := 0, thru := s.flag F.ZNE_DIRTYCFG_THRU || x.thru, bad := c.bad }
            let s := s.modSlot c.slot.val fun _ => x
            .next ((s.copyReads c.slot.val x (List.range (min n 256))).settle c.slot.val)

/-! ### Data arrival (R29, R306, R308) -/

/-- HOST_DATA_ARRIVAL: block k of a write arrives, is encrypted under its LBA and written with its CRC towards its
buffer (R306, R309). A failed owner check stops the write with Internal Error: a zoned block becomes a lost-row
codeword, a conventional one keeps its previous data (R308). -/
def execHostDataArrival (i : Fin 65536) (k : Fin 65536) (d : Blk) (h : Hmd) (s : State) :
    Host.Outcome State Fault Refusal :=
  match s.slot i.val with
  | none => .next s
  | some x =>
    match Tab.find x.bufs k.val with
    | none => .next s
    | some b =>
      match Tab.find s.zne.bufs b with
      | none => .next s
      | some y =>
        if y.st ≠ .reserved then .next s
        else
          let h := BitVec.ofNat 128 (h.toNat % 2 ^ (8 * s.metaBytes x.ns))
          let (c, s) := s.encryptBlk y.ns y.gen x.ten (x.slba + k.val) d
          match c with
          | some c => .next (s.modBuf b fun y => { y with st := .written, data := c, hmd := h, at_ := s.now })
          | none =>
            let s := s.modSlot i.val fun x => { x with err := some .internalError }
            match y.own with
            | .zone z o => .next ((s.modBuf b fun y => { y with st := .held, bad := true, at_ := s.now }).placeZoned
                i.val k.val z o)
            | _ => .next (((s.releaseBuf b).modSlot i.val fun x => { x with taken := x.taken ++ [k.val] }).wakeConv.writeDone
                i.val)

/-- Which block of a slot's write a buffer holds. -/
def Slot.indexOf (x : Slot) (b : Nat) : Nat := ((x.bufs.find? fun e => e.2 = b).map (·.1)).getD 0

/-- DMC_BUFFER_ACK: DMC acknowledges a buffer write and its CRC (R29). A zoned block may complete its stripe (R72), a
conventional one changes its map entry (R183). -/
def execDmcBufferAck (b : Fin 524288) (s : State) : Host.Outcome State Fault Refusal :=
  match Tab.find s.zne.bufs b.val with
  | none => .next s
  | some y =>
    -- a buffer spreads over every subchannel, and no controller acknowledges while its port is down (R15, R336)
    if y.st ≠ .written ∨ s.portDown 0x0A = true ∨ s.portDown 0x0B = true then .next s
    else
      let s := s.modBuf b.val fun y => { y with st := .held }
      match y.own, s.slot y.slot with
      | .zone z o, some x => .next (s.placeZoned y.slot (x.indexOf b.val) z o)
      | .zone z o, none => .next ((s.releaseAssigned z o).tryCommitBody z (s.offStripe o) (s.zone z).staged)
      | .conv _ _ _, _ => .next s.wakeConv.reclaimStep
      | .fold _, _ => .next s
      | .unassigned, _ => .next s

/-! ### Voids (R69) -/

/-- Consecutive runs of a rising list of offsets: first and count. -/
def runsOfNats : List Nat → List (Nat × Nat)
  | [] => []
  | x :: xs =>
    match runsOfNats xs with
    | (y, n) :: rs => if y = x + 1 then (x, n + 1) :: rs else (x, 1) :: (y, n) :: rs
    | [] => [(x, 1)]

/-- Put void codewords in the buffers of offsets not taken. -/
def State.voidBuffers (s : State) (zmi : Nat) : List (Nat × Nat) → State
  | [] => s
  | (b, o) :: bs =>
    let (d, s) := s.zeroData zmi o
    (s.modBuf b fun y => { y with st := .held, data := d.getD 0, hmd := 0, bad := d.isNone, void := true, at_ := s.now
      }).voidBuffers zmi bs

/-- VOID_FILL: every logical block of a zoned write that was not taken is filled with a void codeword, with event
0x0102 for each range; WP keeps its advanced value (R69). -/
def State.voidFill (s : State) (i : Nat) : State :=
  match s.slot i with
  | none => s
  | some x =>
    match x.zmi with
    | none => s
    | some zmi =>
      let un := x.bufs.filterMap fun e => match Tab.find s.zne.bufs e.2 with
        | some y => match y.own with
          | .zone _ o => if y.st = .reserved then some (e.2, o) else none
          | _ => none
        | none => none
      let s := s.voidBuffers zmi un
      let s := (runsOfNats (un.map (·.2))).foldl (fun s r =>
        s.znePost 0x0102 [(32, zmi), (19, r.1), (16, r.2)] (s.zoneTen zmi)) s
      un.foldl (fun s e => (s.releaseAssigned zmi e.2).tryCommitBody zmi (s.offStripe e.2) (s.zone zmi).staged) s

/-- The blocks of a conventional write that were not taken keep their previous entries (R183). -/
def State.giveUpConv (s : State) (i : Nat) : State :=
  match s.slot i with
  | none => s
  | some x =>
    let un := x.bufs.filter fun e => ((Tab.find s.zne.bufs e.2).map (·.st)) == some .reserved
    let s := s.releaseBufs (un.map (·.2))
    (s.modSlot i fun x => { x with taken := x.taken ++ un.map (·.1) }).wakeConv

/-- The status of what stopped a transfer (PRESUMED, assumption 38: the NVMe names): a host memory error or a poisoned TLP, or a fault of
the data pointer. -/
def XferFault.status : XferFault → Status
  | .hostMemory => .dataTransferError
  | .poisonedTlp => .dataTransferError
  | .dataPointer => .prpOffsetInvalid

/-- A write stops taking data; it completes with the error that stopped it (R69, R183). -/
def State.transferFail (s : State) (i : Nat) (st : Status) : State :=
  match s.slot i with
  | none => s
  | some x =>
    if x.started = false ∨ (x.opc ≠ 0x01 ∧ x.opc ≠ 0x7D) then s
    else if s.isConv x.ns then
      ((s.modSlot i fun x => { x with err := some st }).giveUpConv i).writeDone i
    else
      let un := (x.bufs.filter fun e => ((Tab.find s.zne.bufs e.2).map (·.st)) == some .reserved).map (·.1)
      let s := (s.voidFill i).modSlot i fun x => { x with
        err := some st, taken := x.taken ++ un.filter fun k => !x.taken.contains k }
      s.writeDone i

/-- TRANSFER_FAILURE: the host data transfer of a write fails (R69, R183). -/
def execTransferFailure (x : XferIn) (s : State) : Host.Outcome State Fault Refusal :=
  .next (s.transferFail x.slot.val x.why.status)

end Sys2Proof.Machine
end

