-- ==== Sys2Proof/Machine/HostRead.lean ====
section
/-! DEFINITION. The other I/O commands of the host (R83, R92 to R95, R184, R189 to R193, R283): Read, Compare,
Verify, fused pairs, Write Zeroes, Dataset Management, Flush, the I/O Management commands, and Zone Management
(R54, R55, R81 to R84). -/

namespace Sys2Proof.Machine

/-! ### Read, Compare, Verify -/

/-- Zones that a read touches and that earlier commands still hold (R67, R88). -/
def State.readHeld (s : State) (i : Nat) (x : Slot) : Bool :=
  match x.zmi with
  | some z => s.zoneBusy i z x.order || s.zoneBusy i (z + (x.slba % s.zLba + x.nlb - 1) / s.zLba) x.order
  | none => false

/-- Start a Read, Compare or Verify: every block is looked up, conventional blocks once earlier writes leave them
(R92, R191), and the codewords on flash are read (R95). -/
def State.startRead (s : State) (i : Nat) (x : Slot) (bad : List Nat) : State :=
  match x.err with
  | some st => s.complete i st
  | none =>
    if s.readHeld i x then s
    else
      let s := s.modSlot i fun x => { x with st := .running, started := true, bad := bad }
      let ls := (List.range x.nlb).map (x.slba + ·)
      let conv := s.isConv x.ns
      let held := if conv then ls.filter fun l => !s.hazardFree x.ns x.order l false else []
      let s := held.foldl (fun s l => s.setBlock i l .hazard) s
      let (cs, s) := s.lookupAll i x.ns bad ((ls.filter fun l => !held.contains l).map fun l => (l, l))
      (s.issueReads (if x.urgent then 1 else 2) x.ten (.host i) cs).settle i

/-- READ (R92 to R95, R105). `bad` lists the write buffers whose CRC check fails in this step (R340). -/
def execRead (i : Fin 65536) (bad : List Nat) (s : State) : Host.Outcome State Fault Refusal :=
  match s.startable i.val 0x02 with
  | none => .next s
  | some x => .next (s.startRead i.val x bad)

/-- COMPARE: the blocks are read and compared with the host's (R275). -/
def execCompare (i : Fin 65536) (bad : List Nat) (s : State) : Host.Outcome State Fault Refusal :=
  match s.startable i.val 0x05 with
  | none => .next s
  | some x => if x.fused.isSome then .next s else .next (s.startRead i.val x bad)

/-- FUSED_COMPARE_WRITE: a pair of at most 16 blocks on a conventional namespace; its Compare runs first (R193). -/
def execFusedCompareWrite (i : Fin 65536) (bad : List Nat) (s : State) : Host.Outcome State Fault Refusal :=
  match s.startable i.val 0x05 with
  | none => .next s
  | some x =>
    match x.fused with
    | none => .next s
    | some w =>
      if s.isConv x.ns = false ∨ 16 < x.nlb ∨ w.slba ≠ x.sqe.slba ∨ w.nlb ≠ x.nlb then
        .next ((s.postCpl ⟨x.fn, x.qid, w.cid.toNat, .invalidField, 0, 0, [], []⟩).complete i.val .invalidField)
      else .next (s.startRead i.val x bad)

/-- VERIFY: the blocks are read and no data goes to the host (R275). -/
def execVerify (i : Fin 65536) (bad : List Nat) (s : State) : Host.Outcome State Fault Refusal :=
  match s.startable i.val 0x0C with
  | none => .next s
  | some x => .next (s.startRead i.val x bad)

/-! ### Write Zeroes, Dataset Management, Flush -/

/-- Write Zeroes to a zone writes zeros at WP under the checks of R66; its buffers are taken within EFF, else it
waits (assumption 8). -/
def State.zonedZeroes (s : State) (i : Nat) (x : Slot) : State :=
  match x.zmi with
  | none => s.complete i .lbaOutOfRange
  | some zmi =>
    if s.zoneBusy i zmi x.order ∨ s.effBufs < s.fld F.ZNE_DIRTY_CUR + x.nlb ∨ s.capacityCovers (s.zone zmi).set x.nlb = false then s
    else
      match s.writeCheck zmi x.nlb x.slba false, s.writeQuota zmi with
      | some st, _ => s.complete i st
      | none, (some st, _) => s.complete i st
      | none, (none, v) =>
        let s := s.openForWrite zmi v
        if (s.zone zmi).zs = .full then s.complete i .zoneIsFull
        else
          let off := (s.zone zmi).wp
          let s := (s.reserveBufs x.ten i x.nlb).2.assignLba i x zmi x.nlb
          let s := ((List.range x.nlb).zip ((s.slot i).map (·.bufs.map (·.2)) |>.getD [])).foldl (fun s e =>
            let (d, s) := s.zeroData zmi (off + e.1)
            (s.modBuf e.2 fun y => { y with st := .held, data := d.getD 0, hmd := 0, bad := d.isNone, at_ := s.now
              }).placeZoned i e.1 zmi (off + e.1)) s
          s

/-- WRITE_ZEROES: a conventional range is deallocated whatever DEAC says (R184). -/
def execWriteZeroes (i : Fin 65536) (s : State) : Host.Outcome State Fault Refusal :=
  match s.startable i.val 0x08 with
  | none => .next s
  | some x =>
    match x.err with
    | some st => .next (s.complete i.val st)
    | none =>
      if s.isConv x.ns then
        .next ((s.modSlot i.val fun x => { x with st := .running, started := true }).advanceConv i.val).wakeConv
      else .next (s.zonedZeroes i.val x)

/-- DATASET_MANAGEMENT: with Deallocate, every block of its ranges (R184). -/
def execDatasetManagement (i : Fin 65536) (s : State) : Host.Outcome State Fault Refusal :=
  match s.startable i.val 0x09 with
  | none => .next s
  | some x =>
    match x.err with
    | some st => .next (s.complete i.val st)
    | none =>
      let size := ((s.nsAt x.ns).map (·.nsze)).getD 0
      if x.ranges.any (fun r => decide (size < r.1 + r.2)) then .next (s.complete i.val .lbaOutOfRange)
      else .next ((s.modSlot i.val fun x => { x with st := .running, started := true }).advanceConv i.val).wakeConv

/-- FLUSH completes with success as soon as it is admitted, for any NSID (R283). -/
def execFlush (i : Fin 65536) (s : State) : Host.Outcome State Fault Refusal :=
  match s.startable i.val 0x00 with
  | none => .next s
  | some _ => .next (s.complete i.val .success)

/-! ### I/O Management (R189, R190) -/

/-- End the open reclaim unit of a placement handle: its open stripe is programmed, padded, its segment is full, and
event 0x0112 and the FDP event Reclaim Unit Not Fully Written are posted (R190, R194). -/
def State.endHandle (s : State) (n h : Nat) : State :=
  let p := pairKey n h false
  match Tab.find s.zne.openSeg p with
  | none => s
  | some b =>
    let wrote := ((Tab.find s.zne.slc b).map (·.used)).getD 0 * s.stageLps -
      ((s.convStripe p).map fun e => s.stageLps - e.2.pack.length).getD 0
    let s := match s.convStripe p with
      | some (k, _) => s.wantStripe k
      | none => s
    let s := (s.modSlc b fun x => { x with used := s.stageSpb }).zn fun z => { z with
      openSeg := Tab.erase z.openSeg p, openConv := Tab.erase z.openConv p }
    let s := s.hf fun x => { x with fdpEvents := x.fdpEvents ++ [(0, n)] }
    (s.znePost 0x0112 [(10, n), (3, h), (32, wrote)] (((s.cns n).map (·.owner)).getD 0xFF)).segFull b

/-- IO_MANAGEMENT_SEND: Reclaim Unit Handle Update of the handles listed (R190). -/
def execIoManagementSend (i : Fin 65536) (s : State) : Host.Outcome State Fault Refusal :=
  match s.startable i.val 0x1D with
  | none => .next s
  | some x =>
    match x.err, s.cns x.ns with
    | some st, _ => .next (s.complete i.val st)
    | none, none => .next (s.complete i.val .invalidField)
    | none, some c =>
      let hs := (List.range (x.sqe.cdw10.toNat / 2 ^ 16 + 1)).map fun k => ofLe ((x.sqe.data.drop (2 * k)).take 2)
      if x.sqe.cdw10.toNat % 256 ≠ 1 ∨ hs.any (fun h => decide (c.nruh ≤ h)) = true then
        .next (s.complete i.val .invalidField)
      else .next ((hs.foldl (fun s h => s.endHandle x.ns h) s).complete i.val .success)

/-- IO_MANAGEMENT_RECEIVE: Reclaim Unit Handle Status, one 32 B descriptor for each handle of the namespace (R189). -/
def execIoManagementReceive (i : Fin 65536) (s : State) : Host.Outcome State Fault Refusal :=
  match s.startable i.val 0x12 with
  | none => .next s
  | some x =>
    match x.err, s.cns x.ns with
    | some st, _ => .next (s.complete i.val st)
    | none, none => .next (s.complete i.val .invalidField)
    | none, some c =>
      if x.sqe.cdw10.toNat % 256 ≠ 1 then .next (s.complete i.val .invalidField)
      else
        let left := fun h => match (Tab.find s.zne.openSeg (pairKey x.ns h false)).bind fun b => Tab.find s.zne.slc b with
          | some b => (s.stageSpb - b.used) * s.stageLps
          | none => s.segCws
        let d := leBytes 14 0 ++ leBytes 2 c.nruh ++ (List.range c.nruh).flatMap fun h =>
          leBytes 2 h ++ leBytes 2 h ++ leBytes 4 0 ++ leBytes 8 (left h) ++ leBytes 16 0
        .next (s.complete i.val .success 0 0 (d.take ((x.sqe.cdw11.toNat + 1) * 4)))

/-! ### Zone Management (R54, R55, R81 to R84) -/

/-- Zone Send Action of an entry (CDW13[7:0]): 1 Close, 2 Finish, 3 Open, 4 Reset, 5 Offline. -/
def Slot.zsa (x : Slot) : Nat := x.sqe.cdw13.toNat % 256

/-- Select All (CDW13[8]). -/
def Slot.selectAll (x : Slot) : Bool := x.sqe.cdw13.toNat / 256 % 2 == 1

/-- A zone action of R54 and R55: its status and effect. -/
def State.zoneAct (s : State) (zmi act : Nat) : Status × State :=
  let z := s.zone zmi
  if z.zs = .offline ∧ act ≠ 5 then (.zoneIsOffline, s)
  else match act with
  | 1 => if z.isOpen then (.success, s.closeZone zmi) else (.invalidZoneTransition, s)
  | 2 =>
    if z.zs = .empty then
      if s.genAllows z.ns then (.success, (s.bindGen zmi).modZone zmi fun z => { z with zs := .full, wp := 0 })
      else (.keyRotationPending, s)
    else if z.active then (.success, s.finishActive zmi false)
    else (.invalidZoneTransition, s)
  | 3 => s.openZone zmi
  | 4 =>
    if z.zs = .readOnly then (.zoneIsReadOnly, s)
    else if z.active ∨ z.zs = .full ∨ z.zs = .empty then (.success, s.resetZone zmi)
    else (.invalidZoneTransition, s)
  | 5 => if z.zs = .readOnly then (.success, s.offlineZone zmi) else (.invalidZoneTransition, s)
  | _ => (.invalidField, s)

/-- The standard set of an action with Select All (R54): zones it applies to, in ascending order. -/
def State.actTargets (s : State) (x : Slot) : List Nat :=
  if x.selectAll then
    (s.zne.zones.filter fun e => e.2.ns = x.ns && (match x.zsa with
      | 1 => e.2.isOpen
      | 2 => e.2.active
      | 3 => e.2.reported = .closed
      | 4 => e.2.active || e.2.zs = .full
      | 5 => e.2.zs = .readOnly
      | _ => false)).map (·.1)
  else x.zmi.toList

/-- A zone action must wait: earlier commands to the zone are still handled or, for Close, Finish and Reset, earlier
writes have not ended (R67, R81); Finish and Reset wait for the body to be mapped (R54); a Finish waits for its
buffers (R82); a Reset for programs in progress (R84). -/
def State.actWaits (s : State) (i : Nat) (x : Slot) (zmi : Nat) : Bool :=
  let z := s.zone zmi
  s.zoneBusy i zmi x.order || ((x.zsa = 1 || x.zsa = 2 || x.zsa = 4) && s.zoneWritesLive i zmi x.order (x.zsa = 4)) ||
    ((x.zsa = 2 || x.zsa = 4) && z.zs = .pending) ||
    (x.zsa = 2 && z.active && s.finishPads z && !s.padFits z.wp) || (x.zsa = 4 && s.zoneProgramming zmi)

/-- Act on zones one after another, in ascending order, each as if it had been named alone (R54): one that must wait holds the command,
which goes on from it later; the first error is kept. -/
def State.actEach (s : State) (i : Nat) (x : Slot) : List Nat → State
  | [] => s.complete i (((s.slot i).bind (·.zst)).getD .success)
  | z :: zs =>
    if s.actWaits i x z then
      let s := s.modSlot i fun y => { y with st := .waiting, started := true, cursor := z }
      if x.zsa = 2 then s.modZone z fun z => { z with finishPend := z.zs = .pending || z.finishPend } else s
    else
      let (st, s) := s.zoneAct z x.zsa
      let bad := if st = .success then none else some st
      (s.modSlot i fun y => { y with zst := y.zst.or bad }).actEach i x zs

/-- A zone management command takes effect, or waits in ZNE (R81). -/
def State.zoneSend (s : State) (i : Nat) (x : Slot) : State :=
  match x.err with
  | some st => s.complete i st
  | none =>
    if x.selectAll = false ∧ x.zmi.isNone = true then s.complete i .lbaOutOfRange
    else s.actEach i x ((s.actTargets x).filter fun z => decide (x.cursor ≤ z))

/-- A zone management command of a row's action that may be handled. -/
def State.zoneCmd (s : State) (i act : Nat) : Option Slot := (s.startable i 0x79).bind fun x => if x.zsa = act then some x else none

/-- ZONE_OPEN (R54, R55, R61). -/
def execZoneOpen (i : Fin 65536) (s : State) : Host.Outcome State Fault Refusal :=
  match s.zoneCmd i.val 3 with
  | none => .next s
  | some x => .next (s.zoneSend i.val x)

/-- ZONE_CLOSE (R54, R55, R81). -/
def execZoneClose (i : Fin 65536) (s : State) : Host.Outcome State Fault Refusal :=
  match s.zoneCmd i.val 1 with
  | none => .next s
  | some x => .next (s.zoneSend i.val x)

/-- ZONE_FINISH (R54, R55, R81, R82). -/
def execZoneFinish (i : Fin 65536) (s : State) : Host.Outcome State Fault Refusal :=
  match s.zoneCmd i.val 2 with
  | none => .next s
  | some x => .next (s.zoneSend i.val x)

/-- ZONE_RESET (R54, R55, R56, R81, R84). -/
def execZoneReset (i : Fin 65536) (s : State) : Host.Outcome State Fault Refusal :=
  match s.zoneCmd i.val 4 with
  | none => .next s
  | some x => .next (s.zoneSend i.val x)

/-- ZONE_OFFLINE (R54, R55). -/
def execZoneOffline (i : Fin 65536) (s : State) : Host.Outcome State Fault Refusal :=
  match s.zoneCmd i.val 5 with
  | none => .next s
  | some x => .next (s.zoneSend i.val x)

/-- ZONE_MGMT_EFFECT: a waiting Zone Close, Finish or Reset takes effect (R81). -/
def execZoneMgmtEffect (i : Fin 65536) (s : State) : Host.Outcome State Fault Refusal :=
  match s.startable i.val 0x79 with
  | none => .next s
  | some x => if x.st = .waiting then .next (s.zoneSend i.val x) else .next s

/-! ### Zone Management Receive (R53, R83) -/

/-- The zone state code of the Zoned Namespace Command Set (R40, R53). -/
def ZState.code : ZState → Nat
  | .unused => 0x0
  | .empty => 0x1
  | .iopen => 0x2
  | .eopen => 0x3
  | .closed => 0x4
  | .pending => 0x5
  | .readOnly => 0xD
  | .full => 0xE
  | .offline => 0xF

/-- A Zone Descriptor, 64 B: type, state, finished-by-controller attribute, capacity, start and write pointer. -/
def State.zoneDesc (s : State) (zmi : Nat) : List Byte :=
  let z := s.zone zmi
  leBytes 1 2 ++ leBytes 1 (z.reported.code * 16) ++ leBytes 1 (b2n z.fbc) ++ leBytes 5 0 ++ leBytes 8 s.zLba ++
    leBytes 8 (s.zoneStart zmi) ++ leBytes 8 (s.zoneStart zmi + z.wp) ++ leBytes 32 0

/-- Zone Receive Action Specific filter: 0 all, 1 Empty, 2 Implicitly Opened, 3 Explicitly Opened, 4 Closed, 5 Full,
6 Read Only, 7 Offline. -/
def zoneFilter (f : Nat) (z : ZState) : Bool :=
  match f with
  | 0 => true
  | 1 => z = .empty
  | 2 => z = .iopen
  | 3 => z = .eopen
  | 4 => z = .closed
  | 5 => z = .full
  | 6 => z = .readOnly
  | 7 => z = .offline
  | _ => false

/-- ZONE_MANAGEMENT_RECEIVE: Report Zones from the zone that holds SLBA (R53, R83), once earlier commands to the zones reported have
been handled (R67, R81, R88). -/
def execZoneManagementReceive (i : Fin 65536) (s : State) : Host.Outcome State Fault Refusal :=
  match s.startable i.val 0x7A with
  | none => .next s
  | some x =>
    match x.err, x.zmi, s.nsAt x.ns with
    | some st, _, _ => .next (s.complete i.val st)
    | none, some zmi, some n =>
      let c13 := x.sqe.cdw13.toNat
      if c13 % 256 ≠ 0 ∨ 7 < bits c13 8 8 then .next (s.complete i.val .invalidField)
      else
        let all := (List.range (n.zbase + n.zones - zmi)).map (zmi + ·)
        if all.any (fun z => s.zoneBusy i.val z x.order) then .next s
        else
        let zs := all.filter fun z => zoneFilter (bits c13 8 8) (s.zone z).reported
        let room := ((x.sqe.cdw12.toNat + 1) * 4 - 64) / 64
        let cnt := if bit c13 16 then min room zs.length else zs.length
        let d := leBytes 8 cnt ++ leBytes 56 0 ++ (zs.take room).flatMap s.zoneDesc
        .next (s.complete i.val .success 0 0 (d.take ((x.sqe.cdw12.toNat + 1) * 4)))
    | none, _, _ => .next (s.complete i.val .lbaOutOfRange)

end Sys2Proof.Machine
end

