-- ==== Sys2Proof/Machine/Health.lean ====
section
/-! DEFINITION. Die health (R142, R143), substitutes (R140 step 1), member jobs: substitution (R139 to R141) and
rebuild (R144 to R149). -/

namespace Sys2Proof.Machine

/-! ### Substitute blocks -/

/-- Eligible ring entries of a channel on dies that pass a test, in window order (R140, R230). -/
def State.ringOn (s : State) (set chan : Nat) (slc : Bool) (p : Nat → Bool) : Option RingEnt :=
  s.chooseEnt false ((s.ring set chan slc).filter fun e => p (blkDie e.blk))

/-- Spare blocks of a channel on healthy dies that pass a test: lowest PECOUNT, then lowest address (R236). -/
def State.spareOnDie (s : State) (set chan : Nat) (p : Nat → Bool) : Option Nat :=
  minBy (fun b => (s.blk b).pe) ((s.spareOn set chan).filter fun b => decide (s.health (blkDie b) = 0) && p (blkDie b))

/-- The channels of R140 step 1 in order of preference, each with the dies allowed on it. -/
def State.substOrder (s : State) (old : Nat) (used : List Nat) : List (Nat × (Nat → Bool)) :=
  let c := blkChan old
  let d := blkDie old
  [(c, fun x => x != d), (c, fun x => x == d)] ++
    (((List.range (s.fld F.ZNE_GEOM_CHANNELS)).filter fun k => k != c && !(used.map blkChan).contains k).map fun k =>
      (k, fun _ => true))

/-- A substitute may come from the free ring (R140 step 1). For a conventional segment that is one of the share's left-over blocks: the
stage and the free segments keep the blocks they still need (R175). -/
def State.ringGives (s : State) (set : Nat) (st : BlkSt) : Bool :=
  st != .conv || decide (18 * (s.stageLeft set + s.freeSegs set) < s.slcFree set)

/-- Take a substitute for a member: from the free ring, or else from spare (R140 step 1). -/
def State.takeSubst (s : State) (set old : Nat) (slc : Bool) (used : List Nat) (st : BlkSt) : Option (Nat × State) :=
  let order := s.substOrder old used
  match if s.ringGives set st then order.findSome? fun c => s.ringOn set c.1 slc c.2 else none with
  | some e => some (e.blk, (s.takeEnt set e).modBlk e.blk fun b => { b with st := st })
  | none =>
    match order.findSome? fun c => s.spareOnDie set c.1 c.2 with
    | some b => some (b, (s.modBlk b fun x => { x with st := st, slc := slc }).spareCheck set |>.endCheck set)
    | none => none

/-! ### Member jobs -/

/-- A member job by its number. -/
def State.job (s : State) (j : Nat) : Option MJob := Tab.find s.zne.jobs j

/-- Change a member job. -/
def State.modJob (s : State) (j : Nat) (f : MJob → MJob) : State :=
  s.zn fun z => { z with jobs := Tab.adjust z.jobs j f }

/-- Remove a member job. -/
def State.endJob (s : State) (j : Nat) : State := s.zn fun z => { z with jobs := Tab.erase z.jobs j }

/-- Change a relocation. -/
def State.modReloc (s : State) (j : Nat) (f : Reloc → Reloc) : State :=
  s.zn fun z => { z with relocs := Tab.adjust z.relocs j f }

/-- Give a relocation up: the zone stays on its old body, event 0x0407 (R233). -/
def State.relocAbandon (s : State) (j : Nat) (cause : Nat) : State :=
  match Tab.find s.zne.relocs j with
  | none => s
  | some r =>
    let s := s.zn fun z => { z with relocs := Tab.erase z.relocs j }
    let ks := Tab.keys (Tab.keep s.zne.stripes fun _ t => match t.of_ with | .reloc z _ => z == r.zmi | _ => false)
    let s := ks.foldl (fun s k => s.dropStripe k) s
    ((s.disownErases r.dest).releaseAll r.dest).znePost 0x0407 [(32, r.zmi), (8, cause)] (s.zoneTen r.zmi)

/-- The relocation whose destination stripe a substitution serves (R233). -/
def State.relocOf (s : State) (x : MJob) : Option Nat :=
  match x.stripe.bind s.stripe with
  | some t => match t.of_ with
    | .reloc z _ => (s.zne.relocs.find? fun e => e.2.zmi == z).map (·.1)
    | _ => none
  | none => none

/-- The blocks of the body a job works on. -/
def State.jobBody (s : State) (j : MJob) : List Nat :=
  match j.slcBody with
  | some b => s.slcRow b
  | none => match s.relocOf j with
    | some r => ((Tab.find s.zne.relocs r).map (·.dest)).getD []
    | none => (s.zone j.zmi).body

/-- Replace a member of the body a job works on. -/
def State.setBodyMember (s : State) (j : MJob) (b : Nat) : State :=
  match j.slcBody with
  | some k => s.modSlc k fun x => { x with members := x.members.set j.member b }
  | none => match s.relocOf j with
    | some r => s.modReloc r fun x => { x with dest := x.dest.set j.member b }
    | none => s.modZone j.zmi fun z => { z with body := z.body.set j.member b }

/-- Codewords of a slice of a job's body. -/
def State.jobCps (s : State) (j : MJob) : Nat := if j.slcBody.isSome then s.stageCps else s.cps

/-- An SLC stripe is given up and its codewords are packed again; its body takes no further stripe (R141). -/
def State.repackStripe (s : State) (k : Nat) : State :=
  match s.stripe k with
  | none => s
  | some t =>
    let s := s.dropStripe k
    let s := match t.of_ with
      | .stage b _ => s.modSlc b fun x => { x with used := s.stageSpb }
      | .conv b _ => s.modSlc b fun x => { x with used := s.stageSpb }
      | _ => s
    t.pack.foldl (fun s c => match c.own with
      | .zone z o => (s.stageCw (s.zone z).set z o c.buf c.src t.verify c.moved).2
      | .conv n l r => (s.convCw n l r c.src.isSome c.buf c.src c.moved).2
      | _ => s) s

/-- A body or stage stripe cannot get a substitute: the zone is finished by the controller (R85, R141), a relocation
is abandoned (R233); an SLC stripe is given up, its data staying in its buffers to be packed again. -/
def State.noSubstitute (s : State) (j : MJob) : State :=
  match j.slcBody with
  | none => match s.relocOf j with
    | some r => s.relocAbandon r 1
    | none => s.finishByController j.zmi
  | some _ =>
    match j.stripe with
    | some k => s.repackStripe k
    | none => s

/-- DEFER of a die falls once none of its members waits for a substitute (R149). -/
def State.deferCheck (s : State) (d : Nat) : State :=
  if s.zne.jobs.any fun e => e.2.kind = .rebuild && e.2.st = .deferred && blkDie e.2.old == d then s
  else s.setFld (F.ZNE_DHS_DEFER d) 0

/-- Take a new block for a job and erase it (R140 step 1, R146 step 1); without one a substitution gives up (R141) and
a rebuild waits with DEFER and event 0x030A (R149). -/
def State.jobTake (s : State) (j : Nat) (x : MJob) : State :=
  let used := (s.jobBody x).filter (· != x.old)
  match s.takeSubst x.set x.old x.slcBody.isSome used
      (if x.slcBody.isSome then (s.blk x.old).st else .body) with
  | some (b, s) =>
    let s := s.modJob j fun x => { x with new_ := some b, st := .erase, done := 0 }
    let s := if x.kind = .rebuild then (s.setBodyMember x b).deferCheck (blkDie x.old) else s
    s.beginErase b (.job j)
  | none =>
    match x.kind with
    | .subst => (s.endJob j).noSubstitute x
    | .rebuild =>
      let d := blkDie x.old
      let waiting := (s.zne.jobs.filter fun e => e.2.kind = .rebuild && e.2.st = .deferred && blkDie e.2.old == d).length
      if x.st = .deferred then s
      else
        let s := (s.modJob j fun x => { x with st := .deferred }).setFld (F.ZNE_DHS_DEFER d) 1
        let s := s.post 0x06 0x030A [(11, d), (8, x.set + 1), (16, waiting + 1)]
        if x.slcBody.isNone ∧ (s.zone x.zmi).active = true then s.finishByController x.zmi else s

/-- Start substituting a member of an open stripe (R139, R140). Where a substitution of the member runs already, it serves the lower
stripe; the others queue behind it. -/
def State.startSubst (s : State) (k m : Nat) : State :=
  match s.stripe k with
  | none => s
  | some t =>
    let (zmi, slcB) := match t.of_ with
      | .body z _ => (z, none)
      | .reloc z _ => (z, none)
      | .stage b _ => (0, some b)
      | .conv b _ => (0, some b)
      | .journal _ => (0, none)
    let old := (t.members.getD m ⟨0, .idle, false, 0⟩).blk
    match s.zne.jobs.find? (fun e => e.2.kind = .subst && e.2.slcBody == slcB && e.2.zmi == zmi && e.2.member == m) with
    | some (j, y) => if t.idx < y.upto then s.modJob j fun y => { y with upto := t.idx, stripe := some k } else s
    | none =>
      let (j, s) := s.fresh
      let x : MJob := ⟨.subst, zmi, slcB, m, old, none, 0, t.idx, some k, .wait, t.set, 0, [], false, [], 0⟩
      let s := s.zn fun z => { z with jobs := Tab.set z.jobs j x }
      s.jobTake j x

/-- Program the job's next slice on its new block at class 3, under a new program epoch, charged as background work (R36, R97, R99). DESIGN
CHOICE (assumption 78): a substitution's copy, which R99 does not name, is charged like a rebuild, to the NVM Set account only. -/
def State.jobProgram (s : State) (j : Nat) (x : MJob) : State :=
  let (e, s) := s.nextEpochs 1
  let s := s.modJob j fun x => { x with st := .program, bad := [], epoch := e }
  s.enqueue { plainOp 3 .program x.slcBody.isSome (x.new_.getD 0) x.done [] (.jobProg j) 0xFF with bg := true }

/-- Reconstruct codewords of the job's slice one by one, where its old member cannot give them (R140 step 2). -/
def State.jobRecon (s : State) (j : Nat) (x : MJob) (cws : List Nat) : State :=
  cws.foldl (fun s c => s.startRecon (.job j c) (x.own x.done) ((s.jobBody x).set x.member x.old) x.done c
    x.slcBody.isSome x.member true false true false [] 5 0xFF) s

/-- Helper slices of a rebuild's slice job: 16 readable members, Q or a second parity in place of an unreadable one
(R146 step 3). -/
def State.jobHelpers (s : State) (x : MJob) : List Nat :=
  let row := match x.slcBody with
    | some b => s.slcRow b
    | none => s.bodyRow x.zmi x.done
  (((List.range 18).filter fun m => m != x.member && !s.deadDie (blkDie (row.getD m 0)) &&
    !(m < 16 && s.neverWritten (row.getD m 0) x.done))).take 16

/-- Read what the job's next slice needs: the old member's slice (substitution), or 16 helper slices (rebuild, and a
substitution whose old member is unreadable); a rebuild whose slices are done ends. Codewords are read in halves of
at most 64 (R95). -/
def State.jobRead (s : State) (j : Nat) (x : MJob) : State :=
  let n := s.jobCps x
  let halves := (List.range ((n + 63) / 64)).map fun h => ((List.range (min 64 (n - 64 * h))).map fun c => (64 * h + c, 64 * h + c))
  if x.kind = .subst ∧ s.deadDie (blkDie x.old) = false then
    let s := s.modJob j fun x => { x with st := .copy, left := n, bad := [], got := [] }
    halves.foldl (fun s cs => s.enqueue { plainOp 5 .read x.slcBody.isSome x.old x.done cs (.job j) 0xFF with
      own := x.own x.done, row := (s.jobBody x).set x.member x.old }) s
  else
    let row := match x.slcBody with
      | some b => s.slcRow b
      | none => s.bodyRow x.zmi x.done
    let hs := s.jobHelpers x
    -- members never written, pad members among them, take part as zero (R82, R121)
    let pads := (List.range 16).filter fun m => m != x.member && s.neverWritten (row.getD m 0) x.done
    let zeros : Tab Moved := (List.range n).foldl (fun t c => pads.foldl (fun t m => Tab.set t (c * 32 + m) ⟨0, 0, 0, false⟩) t) []
    let s := s.modJob j fun x => { x with st := .copy, left := n * hs.length, bad := [], got := zeros }
    let s := s.zn fun z => { z with rbBytes := z.rbBytes ++ [(s.now, hs.length * n * 4544)] }
    hs.foldl (fun s m => halves.foldl (fun s cs => s.enqueue
      { plainOp 5 .read x.slcBody.isSome (row.getD m 0) x.done cs (.jobHelper j m) 0xFF with
        own := x.own x.done, row := row }) s) s

/-- A rebuild ends: REBUILD and DEFER fall, and event 0x0308 is posted with the members rebuilt (R144, R154). -/
def State.rebuildEnded (s : State) (d : Nat) : State :=
  let mine := s.zne.jobs.filter fun e => e.2.kind = .rebuild && blkDie e.2.old == d
  let s := if mine.any (fun e => e.2.st = .deferred) then s else s.setFld (F.ZNE_DHS_DEFER d) 0
  if mine.isEmpty then
    if s.flag (F.ZNE_DHS_REBUILD d) then
      (s.setFld (F.ZNE_DHS_REBUILD d) 0).post 0x06 0x0308 [(11, d), (16, (s.die d).rebuilt), (8, 1)]
    else s
  else s

/-- The open stripes of the body a substitution works on, from a slice index up. -/
def State.stripesFrom (s : State) (x : MJob) (i : Nat) : Tab Stripe :=
  let r := s.relocOf x
  Tab.keep s.zne.stripes fun _ t => decide (i ≤ t.idx) && match t.of_ with
    | .body z _ => x.slcBody.isNone && r.isNone && z == x.zmi
    | .reloc z _ => x.slcBody.isNone && r.isSome && z == x.zmi
    | .stage b _ => x.slcBody == some b
    | .conv b _ => x.slcBody == some b
    | .journal _ => false

/-- An open stripe of a body takes a substituted member's new block: its slice entry is rewritten with a new epoch, and a slice whose
program was posted is programmed again on it (R140 steps 3 and 5). -/
def State.repoint (s : State) (m old new_ k : Nat) : State :=
  match s.stripe k with
  | none => s
  | some t =>
    if (t.members.getD m ⟨0, .idle, false, 0⟩).blk ≠ old then s
    else
      let (e, s) := s.nextEpochs 1
      let again := t.st = .programming || t.st = .torn
      let s := s.modStripe k fun t => { t with
        closing := t.closing && t.withdrawn, closed := false,
        members := t.members.modify m fun y =>
          { y with blk := new_, epoch := e, st := if y.pad then y.st else if again then .posted else .idle } }
      match s.stripe k with
      | some t =>
        let s := match t.record with
          | some r => s.huskWrite r fun h => { h with slices := Tab.set h.slices m (s.sliceEntry t m) }
          | none => s
        let pad := (t.members.getD m ⟨0, .idle, false, 0⟩).pad
        if again && !pad then
          s.enqueue { plainOp 3 .program t.slc new_ t.idx [] (.prog k m) (s.stripeTen t) with bg := t.bg }
        else s
      | none => s

/-- A substitution's copied slices are done: the slice entries of the stripe and of those queued behind it, the body entry, and then
slice s itself (R140 steps 3 to 5). -/
def State.substDone (s : State) (j : Nat) (x : MJob) : State :=
  let new_ := x.new_.getD 0
  let ks := Tab.keys (s.stripesFrom x x.upto)
  let s := (s.endJob j).setBodyMember x new_
  let s := (s.bump F.PQE_SUBST_COUNT).znePost 0x0304
    [(32, (x.slcBody.map fun b => s.slcIndex b x.upto).getD x.zmi), (16, x.upto), (32, x.old), (32, new_), (8, b2n (s.blk x.old).grown)]
    (if x.slcBody.isSome then 0xFF else s.zoneTen x.zmi)
  let s := s.withdrawOps fun o => o.kind = .program && o.blk == x.old
  let s := if (s.blk x.old).st = .retired then s else s.releaseBlk x.old
  -- FDP: substitution moved data of a reclaim unit (R190)
  let s := match (x.slcBody.bind fun b => Tab.find s.zne.slc b : Option SlcBody) with
    | some b => if b.st = SegSt.stage then s else s.hf fun h => { h with fdpEvents := h.fdpEvents ++ [(1, b.ns)] }
    | none => s
  ks.foldl (fun s k => s.repoint x.member x.old new_ k) s

/-- A job's block is erased, or one of its slices is verified: it goes on with the next slice or ends. A torn or
newly filling stripe above a rebuilt member is tried again (R148). The next slice of a rebuild is a new job, started by
REBUILD_JOB_START (R147); a substitution copies a slice once its stripe is closed. -/
def State.jobNext (s : State) (j : Nat) : State :=
  match s.job j with
  | none => s
  | some x =>
    if x.kind = .rebuild then
      let upto : Nat := match x.slcBody with
        | some b => ((Tab.find s.zne.slc b).map (·.used)).getD 0
        | none => (s.zone x.zmi).bstripes
      if upto ≤ x.done then
        let s := s.endJob j
        let s := match (x.slcBody.bind fun b => Tab.find s.zne.slc b : Option SlcBody) with
          | some b => if b.st = SegSt.stage then s else s.hf fun h => { h with fdpEvents := h.fdpEvents ++ [(1, b.ns)] }
          | none => s
        let s := s.modDie (blkDie x.old) fun y => { y with rebuilt := y.rebuilt + 1 }
        -- stripes that waited for the mark take the substitute
        let s := if x.slcBody.isSome then s
          else (Tab.keys (s.bodyStripes x.zmi)).foldl (fun s k => s.repoint x.member x.old (x.new_.getD 0) k) s
        (s.rebuildEnded (blkDie x.old)).retryCommits
      else s.modJob j fun x => { x with st := .slice }
    else if x.upto ≤ x.done then s.substDone j x
    else if (s.stripesFrom x 0).any fun e => decide (e.2.idx ≤ x.done) then s.modJob j fun x => { x with st := .wait }
    else s.jobRead j x

/-- Substitutions that waited for an earlier stripe of their body to close go on (R124, R140). -/
def State.wakeJobs (s : State) : State :=
  (s.zne.jobs.filter fun e => e.2.kind = .subst && e.2.st = .wait && e.2.new_.isSome).foldl (fun s e => s.jobNext e.1) s

/-- A slice of a job is programmed and verified on the new block (REBUILD_SLICE_DONE). -/
def State.jobSliceDone (s : State) (j : Nat) : State :=
  match s.job j with
  | none => s
  | some x =>
    let s := s.modBlk (x.new_.getD 0) fun b => { b with cursor := some x.done }
    let s := if x.kind = .rebuild then s.bump F.PQE_RBSLICES_COUNT else s
    ((s.modJob j fun x => { x with done := x.done + 1 }).retryCommits).jobNext j

/-- A job's new block fails: it is a grown defect where a program or verification failed, and the job starts again on
another block (R141, R148). -/
def State.jobRestart (s : State) (j : Nat) (grown : Bool) : State :=
  match s.job j with
  | none => s
  | some x =>
    let b := x.new_.getD 0
    let s := if (s.blk b).st = .retired then s else if grown then s.growDefect b 3 else s.releaseBlk b
    let s := if x.kind = .rebuild then s.setBodyMember x x.old else s
    let x := { x with new_ := none, done := 0, st := .wait, left := 0, bad := [], restart := false }
    (s.modJob j fun _ => x).jobTake j x

/-- Every codeword of a rebuild's slice is decoded or found lost: rows with two hard erasures read the parity not read
yet, rows with three or more are lost (R146, R151, R152); then the slice is programmed. -/
def State.jobEvaluate (s : State) (j : Nat) : State :=
  match s.job j with
  | none => s
  | some x =>
    if x.left ≠ 0 ∨ x.st ≠ .copy then s
    else
      let row := match x.slcBody with
        | some b => s.slcRow b
        | none => s.bodyRow x.zmi x.done
      let dead := (List.range 18).filter fun m => m != x.member && s.deadDie (blkDie (row.getD m 0))
      let deadMask := dead.foldl setBit (2 ^ x.member)
      let more := x.bad.filter fun e => decide (popcount 18 (deadMask ||| e.2) = 2) && decide (e.2 < 2 ^ 18)
      let extra := ((List.range 18).filter fun m => m != x.member && !dead.contains m && !(s.jobHelpers x).contains m)
      match extra, more with
      | q :: _, _ :: _ =>
        let s := s.modJob j fun x => { x with
          left := more.length, bad := x.bad.map fun e => if more.any (fun y => y.1 = e.1) then (e.1, e.2 + 2 ^ 18) else e }
        let s := s.zn fun z => { z with rbBytes := z.rbBytes ++ [(s.now, more.length * 4544)] }
        s.enqueue { plainOp 5 .read x.slcBody.isSome (row.getD q 0) x.done (more.map fun e => (e.1, e.1))
          (.jobHelper j q) 0xFF with own := x.own x.done, row := row }
      | _, _ =>
        let lost := x.bad.filter fun e => decide (3 ≤ popcount 18 (deadMask ||| e.2 % 2 ^ 18))
        let s := lost.foldl (fun s e => s.rowLost (x.own x.done) row e.1 (deadMask ||| e.2 % 2 ^ 18)) s
        -- a data member gets a lost-row codeword; P and Q of a lost row are written unchanged (R152)
        let keep := fun (c : Nat) => if x.member < 16 then (⟨0, 0, 0, true⟩ : Moved)
          else ⟨(Config.oldParity x.old c).1, (Config.oldParity x.old c).2, 0, false⟩
        let s := s.modJob j fun x => { x with got := lost.foldl (fun t e => Tab.set t (e.1 * 32 + 31) (keep e.1)) x.got }
        (s.bump F.PQE_RECON_COUNT (s.jobCps x - lost.length)).jobProgram j x

/-! ### Rebuild (R144, R145) -/

/-- Where a member stands in the order of R145; 0 is first. -/
def State.rebuildRank (s : State) (x : MJob) : Nat :=
  let row := s.jobBody x
  let pending := fun (m : Nat) => s.zne.jobs.any fun e => e.2.kind = .rebuild && e.2.slcBody == x.slcBody && e.2.zmi == x.zmi &&
    e.2.member == m
  let deadN := ((List.range 18).filter fun m => pending m || s.deadDie (blkDie (row.getD m 0))).length
  if 2 ≤ deadN then 0
  else if x.slcBody.isNone ∧ (s.bodyStripes x.zmi).any (fun e => e.2.st != .filling) = true then 1
  else if x.slcBody.isNone ∧ (s.zone x.zmi).active = true then 2
  else if x.slcBody.isSome then 3
  else 4

/-- Queue the rebuild of every member a die holds (REBUILD_START): body members of active, Full and Read Only
zones. Stage bodies are relocated under R80 and conventional segments reclaimed under R185. -/
def State.queueRebuild (s : State) (d : Nat) : State :=
  let zs := s.zne.zones.filter fun e => e.2.body.length = 18 && (e.2.active || e.2.zs = .full || e.2.zs = .readOnly)
  let ms := zs.flatMap fun e => ((e.2.body.zip (List.range 18)).filter fun b => blkDie b.1 == d).map fun b => (e.1, e.2.set, b)
  let ms := ms.filter fun m => !(s.zne.jobs.any fun e => e.2.slcBody.isNone && e.2.zmi = m.1 && e.2.member = m.2.2.2)
  if ms.isEmpty then s
  else
    let s := if s.flag (F.ZNE_DHS_REBUILD d) then s else s.modDie d fun x => { x with rebuilt := 0 }
    let s := (s.setFld (F.ZNE_DHS_REBUILD d) 1).post 0x06 0x0308 [(11, d), (16, ms.length), (8, 0)]
    ms.foldl (fun s m =>
      let (j, s) := s.fresh
      let x : MJob := ⟨.rebuild, m.1, none, m.2.2.2, m.2.2.1, none, 0, 0, none, .wait, m.2.1, 0, [], false, [], 0⟩
      s.zn fun z => { z with jobs := Tab.set z.jobs j x }) s

/-- A block of a relocation's destination that was being erased is replaced by one on a channel not yet in it (R57), chosen as its body was
(R230, R245), or the relocation is abandoned (R233). -/
def State.replaceDest (s : State) (k b : Nat) : State :=
  let s := s.dropErase b
  match Tab.find s.zne.relocs k with
  | none => s
  | some r =>
    let set := (s.zone r.zmi).set
    match s.otherChannel set false (r.dest.filter (· != b)) (!r.refresh) with
    | none => s.relocAbandon k 0
    | some n =>
      let s := (s.takeEnt set n).modBlk n.blk fun y => { y with st := .body }
      let s := s.modReloc k fun r => { r with dest := r.dest.map fun y => if y = b then n.blk else y }
      s.beginErase n.blk (.reloc k)

/-- Member jobs whose new block lies on a die that left service, between two of its operations, start again on another (R148). -/
def State.restartOnDie (s : State) (d : Nat) : State :=
  (s.zne.jobs.filter fun e => (e.2.new_.map blkDie) == some d && (e.2.st = .slice || e.2.st = .wait || e.2.st = .copy)).foldl
    (fun s e => s.jobRestart e.1 false) s

/-- Members on a die of bodies still being allocated are replaced without a grown-defect mark (R57, R144). -/
def State.replaceOnDie (s : State) (d : Nat) : State :=
  let es := s.zne.erases.filter fun e => blkDie e.1 == d
  es.foldl (fun s e => match e.2.for_ with
    | .zone z => s.replacePending z e.1
    | .job j => (s.dropErase e.1).jobRestart j false
    | .slc b =>
      let s := s.dropErase e.1
      match Tab.find s.zne.slc b with
      | some x =>
        match s.otherChannel x.set true (x.members.filter (· != e.1)) with
        | some n =>
          let s := (s.takeEnt x.set n).modBlk n.blk fun y => { y with st := (s.blk e.1).st }
          let s := s.modSlc b fun x => { x with members := x.members.map fun y => if y = e.1 then n.blk else y }
          let s := s.zn fun z => { z with stripes := z.stripes.map fun t => (t.1, { t.2 with
            members := t.2.members.map fun y => if y.blk = e.1 then { y with blk := n.blk } else y }) }
          (s.takeMember (.slc b) n).slcMapped b
        | none => s
      | none => s
    | .reloc k => s.replaceDest k e.1
    | .pre => s.dropErase e.1) s

/-- Every operation queued for a die that left service ends as aborted (R143). -/
def State.abortQueue (s : State) (d : Nat) : State :=
  let q := (s.die d).queue
  let s := s.modDie d fun x => { x with queue := [] }
  s.zn fun z => { z with dones := z.dones ++ q.map fun o => ⟨d, o, 0x04, 0xFE, 0⟩ }

/-- A die becomes Retired (2) or Failed (3): recorded, its event posted, its free blocks leave the rings, its
suspended operation ends, its members are rebuilt (R142 to R144). -/
def State.dieDead (s : State) (d new cause : Nat) : State :=
  let old := s.health d
  if old = 3 ∨ old = new then s
  else
    let s := s.setFld (F.ZNE_DHS_STATE d) new
    let s := s.zn fun z => { z with deadRec := Tab.set z.deadRec d new }
    let s := if new = 2 then s.znePost 0x0306 [(11, d)] else s.znePost 0x0307 [(11, d), (8, cause)]
    if 2 ≤ old then s
    else
      let s := s.zn fun z => { z with rings := z.rings.map fun r => (r.1, r.2.filter fun e => blkDie e.blk != d) }
      let s := s.listDefect (mkBlk (d / 16) (d % 16) 0) true 3
      let s := (((s.endSuspended d).abortQueue d).replaceOnDie d).restartOnDie d
      let set := s.setOfRank (d % 16)
      ((s.queueRebuild d).showMedia).spareCheck set |>.endCheck set

/-- A suspect entry (SUSPECT_ENTRY, R142) after n expiries: SUSPCNT rises over the last SUSPECTWIN minutes; at SUSPECTN the die is
Retired at once. DESIGN CHOICE (assumption 77): the expiries counted are cleared, so that further ones count afresh and EXPCNT reads 0. -/
def State.suspectEntry (s : State) (d n : Nat) : State :=
  let win := s.fld F.ZNE_HEALTHCFG_SUSPECTWIN * 60 * 1000000000
  let es := ((s.die d).entries.filter fun t => decide (s.now < t + win)) ++ [s.now]
  let s := s.modDie d fun x => { x with entries := es, expiries := [], suspectSince := s.now }
  let s := (s.setFld (F.ZNE_DHS_STATE d) 1).setFld (F.ZNE_DHS_SUSPCNT d) (min es.length 3)
  let s := s.znePost 0x0305 [(11, d), (4, n), (2, min es.length 3)]
  if s.fld F.ZNE_HEALTHCFG_SUSPECTN ≤ es.length then s.dieDead d 2 0 else s

/-- A watchdog expiry counts against a die, with event 0x0201 (R114, R142); a suspect entry clears those counted (DESIGN CHOICE,
assumption 77). -/
def State.countExpiry (s : State) (d : Nat) (o : DieOp) (p : Nat) : State :=
  let s := (s.bump F.ZNE_RASTAT_WDEXP_COUNT).znePost 0x0201 [(11, d), (4, o.opc), (16, p / 1000)] o.ten
  if s.deadDie d then s
  else
    let win := s.fld F.ZNE_HEALTHCFG_EXPWIN * 1000000000
    let es := ((s.die d).expiries.filter fun t => decide (s.now < t + win)) ++ [s.now]
    let s := (s.modDie d fun x => { x with expiries := es }).setFld (F.ZNE_DHS_EXPCNT d) (min es.length 15)
    if s.fld F.ZNE_HEALTHCFG_EXPN ≤ es.length then (s.suspectEntry d es.length).setFld (F.ZNE_DHS_EXPCNT d) 0 else s

/-- A LUN reset of a die succeeded or failed; two failures in a row make it Failed (R142). -/
def State.countReset (s : State) (d : Nat) (ok : Bool) : State :=
  if ok then s.modDie d fun x => { x with resetFails := 0 }
  else
    let s := s.modDie d fun x => { x with resetFails := x.resetFails + 1 }
    if 2 ≤ (s.die d).resetFails then s.dieDead d 3 1 else s

/-- SUSPECT_PERIOD_EXPIRY: SUSPECTDUR seconds have passed without a further entry, and the die is Healthy again
(R142). -/
def execSuspectPeriodExpiry (d : DieId) (s : State) : Host.Outcome State Fault Refusal :=
  if s.health d.val = 1 ∧
      s.fld F.ZNE_HEALTHCFG_SUSPECTDUR * 1000000000 ≤ s.now - (s.die d.val).suspectSince then
    .next (s.setFld (F.ZNE_DHS_STATE d.val) 0)
  else .next s

/-- DIECMD_RETIRE: firmware writes ZNE_DIECMD with ACT 2; ignored for a die that is not populated, Retired or Failed
(R142, R143). -/
def execDiecmdRetire (d : DieId) (s : State) : Host.Outcome State Fault Refusal :=
  if s.populated d.val = true ∧ s.health d.val < 2 then .next (s.dieDead d.val 2 0) else .next s

/-- DIECMD_FAIL: ACT 3; ignored for a die that is not populated or Failed (R142, R143). -/
def execDiecmdFail (d : DieId) (s : State) : Host.Outcome State Fault Refusal :=
  if s.populated d.val = true ∧ s.health d.val < 3 then .next (s.dieDead d.val 3 2) else .next s

/-- Raw bytes of helper reads that rebuild counted over the last 10 ms (R147). -/
def State.recentBytes (s : State) : Nat :=
  sumBy (·.2) (s.zne.rbBytes.filter fun e => decide (s.now < e.1 + 10000000))

/-- EXPCNT and SUSPCNT show what still lies within EXPWIN and SUSPECTWIN (R142, R143). -/
def State.ageHealth (s : State) : State :=
  let win := s.fld F.ZNE_HEALTHCFG_EXPWIN * 1000000000
  let susp := s.fld F.ZNE_HEALTHCFG_SUSPECTWIN * 60 * 1000000000
  (s.zne.dies.filter fun e => !e.2.expiries.isEmpty || !e.2.entries.isEmpty).foldl (fun s e =>
    let xs := e.2.expiries.filter fun t => decide (s.now < t + win)
    let es := e.2.entries.filter fun t => decide (s.now < t + susp)
    let s := s.modDie e.1 fun x => { x with expiries := xs, entries := es }
    (s.setFld (F.ZNE_DHS_EXPCNT e.1) (min xs.length 15)).setFld (F.ZNE_DHS_SUSPCNT e.1) (min es.length 3)) s

/-- A rebuild job that may start: a member that waits, one that a block may now be found for (R149), the next slice of a member. Members
of the last rank wait for the stage bodies of their die that still hold data (R145). -/
def State.rebuildReady (s : State) (x : MJob) : Bool :=
  let used := (s.jobBody x).filter (· != x.old)
  let stage := s.zne.slc.any fun e => e.2.st = .stage && e.2.members.any (fun b => blkDie b == blkDie x.old) &&
    (decide (0 < e.2.valid) || s.zne.srd.any fun r => r.1 / s.stageSpb == e.1 && runsValid r.2)
  x.kind = .rebuild && (x.st = .wait || x.st = .slice ||
    (x.st = .deferred && (s.takeSubst x.set x.old x.slcBody.isSome used .body).isSome)) &&
  !(s.rebuildRank x == 4 && stage)

/-- The read operations of one slice job: 16 helper slices in halves of at most 64 codewords (R95, R146). -/
def State.sliceReads (s : State) (x : MJob) : Nat := 16 * ((s.jobCps x + 63) / 64)

/-- A rebuild's slice job runs; it holds 64 parity scratch buffers (R146). -/
def MJob.running (x : MJob) : Bool := x.kind = .rebuild && x.st != .wait && x.st != .deferred && x.st != .slice

/-- Another slice job of a member may run: its die has fewer than JOBS, and 64 buffers are left of rebuild's scratch quota, which is the
minimum that R146 has firmware set, 64 × JOBS (assumption 7). -/
def State.jobRoom (s : State) (x : MJob) : Bool :=
  let all := s.zne.jobs.filter fun e => e.2.running
  decide ((all.filter fun e => blkDie e.2.old == blkDie x.old).length < s.fld F.ZNE_RBCFG_JOBS) &&
    decide (64 * all.length + 64 ≤ 64 * s.fld F.ZNE_RBCFG_JOBS)

/-- REBUILD_JOB_START: the next slice job in the order of R145 starts, or its member takes its substitute first, when job count, scratch,
share, tokens and PAUSE allow (R146, R147). A deferred member is tried again once a block may be found for it (R149). -/
def execRebuildJobStart (s : State) : Host.Outcome State Fault Refusal :=
  match minBy (fun e => s.rebuildRank e.2 * 2 ^ 40 + e.2.zmi) (s.zne.jobs.filter fun e => s.rebuildReady e.2 && s.jobRoom e.2) with
  | none => .next s
  | some (j, x) =>
    let bytes := 16 * s.jobCps x * 4544
    let share := s.fld F.ZNE_RBCFG_SHARE * 3072000000 / 1000
    if s.flag F.ZNE_RBCFG_PAUSE ∨ share < s.recentBytes + bytes ∨
        s.setTokens x.set < s.sliceReads x then .next s
    else .next (if x.st = .slice then s.jobRead j x else s.jobTake j x)

end Sys2Proof.Machine
end

