-- ==== Sys2Proof/Machine/Background.lean ====
section
/-! DEFINITION. Background work of ZNE: staging (R75, R78), folds (R79), stage reclaim (R80), conventional reclaim
(R185, R186), map checkpoints (R182), pre-erase (R231, R241), wear relocation and refresh (R232, R245), scrub (R244).
-/

namespace Sys2Proof.Machine

/-! ### Staging (R75) -/

/-- A body stripe's data may be staged: never once its programs have been granted; a complete stripe that waits only
under pressure (R75). Everything in a write buffer is staged in the power-loss sequence (R70), and what a zone that the controller
finished has not programmed (R58, R85). -/
def State.mayStage (s : State) (zmi off : Nat) (pressure : Bool) : Bool :=
  if s.power.loss.isSome || (s.zone zmi).fbc then true
  else
    match s.bodyStripeSt zmi (s.offStripe off) with
    | some .programming => false
    | some .torn => false
    | some _ => pressure
    | none => pressure || !s.stripeFull zmi (s.offStripe off)

/-- A buffer of a zone that may be staged now. -/
def State.stageable (s : State) (zmi : Nat) (pressure : Bool) (b : Buf) : Bool :=
  b.st = .held && !b.staging && (match b.own with | .zone _ o => s.mayStage zmi o pressure | _ => false)

/-- The command that filled a buffer completes under the stage-through rule (R76). -/
def State.bufThru (s : State) (b : Nat) : Bool :=
  (((Tab.find s.zne.bufs b).bind fun y => s.slot y.slot).map (·.thru)).getD false

/-- Pack the buffers of a zone into the stage, in offset order; stage-through data is verified (R76). -/
def State.stageBufs (s : State) (set zmi : Nat) : List (Nat × Nat) → State
  | [] => s
  | (o, b) :: bs =>
    match s.stageCw set zmi o (some b) none (s.flag F.ZNE_DIRTYCFG_THRU || s.bufThru b) with
    | (true, s) => (s.modBuf b fun y => { y with staging := true, moved := false }).stageBufs set zmi bs
    | (false, s) => s

/-- Order buffers by their zone offset. -/
def byOffset (bs : List (Nat × Buf)) : List (Nat × Nat) :=
  (bs.filterMap fun e => match e.2.own with | .zone _ o => some (o, e.1) | _ => none).mergeSort fun a b => decide (a.1 ≤ b.1)

/-- The buffers of a zone to stage now, with their offsets: from the lowest offset up as far as each may be staged or has been, so that
the stage holds the data below SEND and no other (R64, R65). The power-loss sequence stages them all (R70). -/
def State.stageRun (s : State) (zmi : Nat) (pressure : Bool) : List (Nat × Nat) :=
  let all := byOffset (s.zoneBufs zmi)
  let is := fun (p : Buf → Bool) (e : Nat × Nat) => ((Tab.find s.zne.bufs e.2).map p).getD false
  let run := if s.power.loss.isSome then all else
    (all.zip (List.range all.length)).takeWhile (fun e =>
      (is (·.staging) e.1 || is (s.stageable zmi pressure) e.1) &&
        (e.2 = 0 || (all.getD (e.2 - 1) (0, 0)).1 + 1 == e.1.1 || (s.stagedAt zmi (e.1.1 - 1)).isSome)) |>.map (·.1)
  run.filter fun e => is (s.stageable zmi pressure) e

/-- Data codewords that the stage of a rank set can still take (R80). -/
def State.stageRoom (s : State) (set : Nat) : Nat :=
  ((s.stageStripe set).map fun e => s.stageLps - e.2.pack.length).getD 0 +
    (((Tab.find s.zne.openStage set).bind fun b => Tab.find s.zne.slc b).map fun x => (s.stageSpb - x.used) * s.stageLps).getD 0 +
    s.stageSpare set * s.segCws

/-- STAGE_DATA: a zone's dirty data moves into the open stage stripe of its rank set; under pressure Committed stripes
of the zone are withdrawn first (STRIPE_WITHDRAW), unless the stage cannot take their data. -/
def State.stageZone (s : State) (zmi : Nat) (pressure : Bool) : State :=
  let set := (s.zone zmi).set
  let pressure := pressure && (s.power.loss.isSome || decide ((s.stageRun zmi true).length ≤ s.stageRoom set))
  let bs := s.stageRun zmi pressure
  let ks := if pressure then Tab.keys (Tab.keep s.zne.stripes fun _ t => t.of_ == .body zmi t.idx &&
      (t.st = .committed || t.st = .filling) && !t.withdrawn && bs.any fun e => e.1 / s.lps == t.idx) else []
  let s := ks.foldl (fun s k => match s.stripe k with
    | some t => if t.st = .committed then s.withdraw k else s.dropStripe k
    | none => s) s
  s.stageBufs set zmi bs

/-- The zone with the oldest OLDEST, among zones with data that may still be staged (R75). -/
def State.oldestZone (s : State) : Option Nat :=
  (minBy (fun e => s.oldestOf e.1) (s.zne.zones.filter fun e =>
    !(s.stageRun e.1 true).isEmpty)).map (·.1)

/-- Stage-through (R76, R182): what its commands have taken goes to the stage at once, their open conventional stripes are programmed;
likewise the data of zones that the controller finished (R58, R85). -/
def State.thruStage (s : State) : State :=
  let xs := s.hif.slots.filter fun e => e.2.thru
  let zs := xs.filterMap (fun e => e.2.zmi) ++ (s.zne.zones.filter fun e => e.2.fbc).map (·.1)
  let s := (zs.filter fun z => (s.zoneBufs z).any fun b => s.stageable z true b.2).foldl (fun s z => s.stageZone z true) s
  let want := fun (t : Stripe) => t.st = .filling && !t.want && (match t.of_ with | .conv _ _ => true | _ => false) &&
    t.pack.any fun c => (c.buf.bind fun b => Tab.find s.zne.bufs b).any fun y => xs.any fun e => e.1 == y.slot
  (Tab.keys (Tab.keep s.zne.stripes fun _ t => want t)).foldl (fun s k => s.wantStripe k) s

/-- While the dirty buffers that are not on their way to the stage reach HIWAT sixteenths of EFF, the oldest data is staged, zone by
zone, at most n of them (R75). -/
def State.stageHigh (s : State) : Nat → State
  | 0 => s
  | n + 1 =>
    let left := s.fld F.ZNE_DIRTY_CUR - (s.zne.bufs.filter fun e => e.2.staging).length
    if s.fld F.ZNE_STAGECFG_HIWAT * s.effBufs ≤ 16 * left then
      match s.oldestZone with
      | some z => (s.stageZone z true).stageHigh n
      | none => s
    else s

/-- Stage-through data, and under pressure the oldest data, is staged (R75, R76). -/
def State.pressureStage (s : State) : State := s.thruStage.stageHigh s.zne.zones.length

/-- STAGE_AGE_EXPIRY: a zone's oldest unflushed data has been in its buffer for AGE ms (R75). -/
def execStageAgeExpiry (zmi : Fin 2097152) (s : State) : Host.Outcome State Fault Refusal :=
  match minBy (fun e => e.2.at_) ((s.zoneBufs zmi.val).filter fun e => e.2.st = .held && !e.2.staging) with
  | some (_, b) =>
    if s.fld F.ZNE_STAGECFG_AGE * 1000000 ≤ s.now - b.at_ then .next (s.stageZone zmi.val false) else .next s
  | none => .next s

/-- STAGE_FILL_TIMEOUT: FILLUS µs after its first codeword entered, a stage stripe is programmed (R78). -/
def execStageFillTimeout (set : Fin 16) (s : State) : Host.Outcome State Fault Refusal :=
  match s.stageStripe set.val with
  | some (k, t) =>
    if t.pack.isEmpty = false ∧ s.fld F.ZNE_STAGECFG_FILLUS * 1000 ≤ s.now - t.opened then .next (s.wantStripe k)
    else .next s
  | none => .next s

/-- The age limit of a pair's open stripe, of host data or reclaimed data: its oldest data has been in a buffer for AGE ms (R176);
reclaimed data counts from the first codeword of the stripe. -/
def State.convAge (s : State) (pair : Nat) : State :=
  match s.convStripe pair with
  | some (k, t) =>
    let at_ := (minBy id (t.pack.filterMap fun c => c.buf.bind fun b => (Tab.find s.zne.bufs b).map (·.at_))).getD t.opened
    if t.pack.isEmpty = false ∧ s.fld F.ZNE_STAGECFG_AGE * 1000000 ≤ s.now - at_ then s.wantStripe k else s
  | none => s

/-- CONV_STRIPE_AGE_EXPIRY: the open stripes of a pair reach their age limit (R176). -/
def execConvStripeAgeExpiry (ns : Fin 1024) (ruh : Fin 8) (s : State) : Host.Outcome State Fault Refusal :=
  .next ((s.convAge (pairKey ns.val ruh.val false)).convAge (pairKey ns.val ruh.val true))

/-! ### Folds (R79) -/

/-- The offsets of a body stripe that lie in the stage only. -/
def State.stagedOffsets (s : State) (zmi idx : Nat) : List Nat :=
  ((List.range s.lps).map (idx * s.lps + ·)).filter fun o => (s.zoneBuf zmi o).isNone && (s.stagedAt zmi o).isSome

/-- Every block of a body stripe is in a buffer, in the stage, or in a pad member. -/
def State.foldable (s : State) (zmi idx : Nat) : Bool :=
  let z := s.zone zmi
  (List.range s.lps).all fun k =>
    let o := idx * s.lps + k
    (match s.zoneBuf zmi o with | some (_, b) => b.st = .held | none => false) || (s.stagedAt zmi o).isSome ||
      (z.padded && decide (z.wp ≤ idx * s.lps + k / s.cps * s.cps))

/-- FOLD_START: the next stripe of a zone's body is complete across buffers and stage, and its staged codewords are
read back at the background class, charged to the tenancy, each into a write buffer reserved for it (R74, R79, R99). A zone that the
controller finished keeps its staged data (R85). `bad` lists buffers whose CRC check fails. -/
def execFoldStart (zmi : Fin 2097152) (bad : List Nat) (s : State) : Host.Outcome State Fault Refusal :=
  let z := s.zone zmi.val
  let idx := z.bstripes + (s.bodyStripes zmi.val).length
  let offs := s.stagedOffsets zmi.val idx
  if z.body.length ≠ 18 ∨ z.fbc = true ∨ offs.isEmpty = true ∨ s.foldable zmi.val idx = false ∨
      s.effBufs < s.fld F.ZNE_DIRTY_CUR + offs.length ∨
      s.zne.bufs.any (fun e => e.2.own == .fold zmi.val) then .next s
  else
    let s := bad.foldl (fun s b => s.bufferFailed b true) s
    let s := offs.foldl (fun s _ => (s.reserveBuf (.fold zmi.val) z.ns z.gen z.owner 65536).2) s
    let cs := offs.filterMap fun o => match (s.stagedAt zmi.val o).map s.slcLoc with
      | some (.flash own row m cw slc) => some (⟨own, row, m, cw, slc, o⟩ : CwRead)
      | _ => none
    .next (s.issueReads 5 z.owner (.fold zmi.val) cs)

/-- A folded codeword is back in a buffer of its own: its stripe may be complete (R72, R79). -/
def State.foldLand (s : State) (zmi off : Nat) (d : Blk) (h : Hmd) (lost : Bool) : State :=
  match s.zne.bufs.find? fun e => e.2.own == .fold zmi with
  | none => s
  | some (i, _) =>
    (s.modBuf i fun b => { b with
      own := .zone zmi off, st := .held, data := d, hmd := h, at_ := s.now, bad := lost, staging := true, moved := true
      }).tryCommitBody zmi (s.offStripe off) true

/-! ### Stage and conventional reclaim (R80, R185, R186) -/

/-- Free stage bodies of a rank set. -/
def State.freeStageBodies (s : State) (set : Nat) : Nat := s.stageSpare set

/-- SLC codeword indices of the valid runs of a stage body. -/
def State.runLocs (s : State) (b : Nat) : List Nat :=
  (s.zne.srd.filter fun e => e.1 / s.stageSpb == b).flatMap fun e =>
    (e.2.filter (·.valid)).flatMap fun r => (List.range r.len).map fun k => e.1 * s.stageLps + r.pos + k

/-- Relocate what a stage body still holds (R80). -/
def State.relocStage (s : State) (b : Nat) : State :=
  let s := if Tab.find s.zne.openStage (((Tab.find s.zne.slc b).map (·.set)).getD 0) = some b then
      s.zn fun z => { z with openStage := Tab.keep z.openStage fun _ k => k != b }
    else s
  s.collect (s.runLocs b ++ s.entryLocs b)

/-- Conventional data that lies in the stage moves to its namespaces' stripes at the background class, a stage body at a time (R178). -/
def State.unstageConv (s : State) (set : Nat) : State :=
  let busy := s.zne.dies.any fun e => (e.2.queue ++ (e.2.active.map (·.op)).toList).any fun o => o.purpose == .collect
  match s.zne.slc.find? fun e => e.2.set == set && e.2.st == .stage && !(s.entryLocs e.1).isEmpty with
  | some (b, _) => if busy then s else s.collect (s.entryLocs b)
  | none => s

/-- STAGE_RECLAIM: with fewer than 64 stage bodies free, or a stage body with a member on a dead die, the valid runs
of the oldest such body are relocated (R80, R144). -/
def execStageReclaim (set : Fin 16) (s : State) : Host.Outcome State Fault Refusal :=
  let bs := s.zne.slc.filter fun e => e.2.set = set.val && e.2.st = .stage && e.2.ready && decide (0 < e.2.used)
  let dead := bs.filter fun e => s.hasDead e.2
  let full := bs.filter fun e => Tab.find s.zne.openStage set.val != some e.1
  match minBy (fun e => e.2.seq) dead with
  | some (b, _) => .next (s.relocStage b).reapStage
  | none =>
    if s.freeStageBodies set.val < 64 then
      match minBy (fun e => e.2.seq) full with
      | some (b, _) => .next (s.relocStage b).reapStage
      | none => .next s
    else .next (s.unstageConv set.val)

/-- A codeword read for a move is packed at its destination: a staged one in the open stage stripe, a conventional one
in the reclaim stripe of its pair, or in the host stripe of its namespace when it lay in a stage body (R178, R186). -/
def State.collectLand (s : State) (loc : Nat) (mv : Moved) : State :=
  match s.runAt loc with
  | some r =>
    let off := r.off + (loc % s.stageLps - r.pos)
    let (ok, t) := s.stageCw (s.zone r.zone).set r.zone off none (some loc) true mv
    if ok then t else s.collect [loc]
  | none =>
    match s.entryAt loc with
    | some (n, lba) =>
      let ruh := ((Tab.find s.zne.slc (loc / s.segCws)).map (·.ruh)).getD 0
      let (ok, t) := s.convCw n lba ruh true none (some loc) mv
      if ok then t else s.collect [loc]
    | none => s

/-! ### Stage-through completions (R76, R182) and map checkpoints -/

/-- The map pages of a conventional command's blocks are all in the map journal (R182). -/
def State.pagesWritten (s : State) (x : Slot) : Bool :=
  match s.cns x.ns with
  | none => true
  | some c => (lbasOf x.ranges).all fun l => !s.zne.mapDirty.contains ((c.mapBase + l) / 1024)

/-- Slots that waited for the stage complete once none of their data is in a write buffer and their map pages are written (R76,
R182). -/
def State.thruDone (s : State) : State :=
  (s.hif.slots.filter fun e => e.2.thru).foldl (fun s e =>
    match s.slot e.1 with
    | some x =>
      if s.zne.bufs.any (fun b => b.2.slot = e.1) ∨ s.pagesWritten x = false then s
      else if x.opc = 0x19 then (if x.cursor = x.nlb then s.endCopy e.1 x .success else s)
      else if x.opc = 0x08 ∨ x.opc = 0x09 then (if x.cursor = 0 then s else s.complete e.1 .success)
      else (s.modSlot e.1 fun x => { x with thru := false }).writeDone e.1
    | none => s) s

/-- Rows of the table journal: 18 of its blocks on distinct channels, in the order of their indices (R182, R226, R440). -/
def State.journalRows (s : State) : List (List Nat) :=
  let bs := (Tab.keys (Tab.keep s.zne.sysUse fun _ u => u = .journal)).filter fun b => (s.blk b).st = .system && !s.deadDie (blkDie b)
  let per := (List.range (s.fld F.ZNE_GEOM_CHANNELS)).map fun c => bs.filter fun b => blkChan b == c
  (List.range bs.length).flatMap fun r =>
    let l := per.filterMap fun l => l[r]?
    (List.range (l.length / 18)).map fun g => (l.drop (18 * g)).take 18

/-- Slices used of a row of the journal, those of its open stripes among them. -/
def State.journalUsed (s : State) (row : List Nat) : Nat :=
  let closed := row.foldl (fun n b => max n (((s.blk b).cursor.map (· + 1)).getD 0)) 0
  s.zne.stripes.foldl (fun n e => match e.2.of_ with
    | .journal i => if e.2.members.any fun m => row.contains m.blk then max n (i + 1) else n
    | _ => n) closed

/-- Where the unwritten slices of the journal would not take every dirty page, the row of least wear among the full ones is erased for use
again (R441; which row, and that no newest copy lies in it, assumption 81). -/
def State.journalErase (s : State) (rows : List (List Nat)) : State :=
  let room := sumBy (fun r => (s.stageSpb - s.journalUsed r) * s.stageLps) rows
  if s.zne.mapDirty.length < room ∨ s.zne.erases.any (fun e => Tab.find s.zne.sysUse e.1 = some .journal) then s
  else match minBy (fun r => sumBy (fun b => (s.blk b).pe) r) (rows.filter fun r => decide (s.stageSpb ≤ s.journalUsed r)) with
  | some r => r.foldl (fun s b => s.beginErase b .pre) s
  | none => s

/-- MAP_CHECKPOINT: dirty map pages are written to the map journal at the background class, charged to the NVM Set
account of the first page's rank set; a stripe of the journal takes as many pages as its data codewords, has P and Q, and is programmed
and verified as another SLC stripe is, without a Husk record (R36, R99, R182). -/
def execMapCheckpoint (s : State) : Host.Outcome State Fault Refusal :=
  match s.pagesLeft with
  | [] => .next s
  | p :: _ =>
    let set := ((s.zne.conv.find? fun c => decide (c.2.mapBase / 1024 ≤ p) && decide (p ≤ (c.2.mapBase + c.2.nsze) / 1024)).map
      (·.2.set)).getD 0
    let cost := 18 * s.fld F.ZNE_SCHEDCFG_PGMCOST
    if s.setTokens set < cost then .next s
    else
      let rows := s.journalRows
      let s := s.journalErase rows
      match rows.find? fun r => decide (s.journalUsed r < s.stageSpb) && r.all fun b => (Tab.find s.zne.erases b).isNone with
      | none => .next s
      | some row =>
        let tok := Tab.getD s.zne.setTok set 0 + cost
        let pack := (s.pagesLeft.take s.stageLps).zipIdx.map fun (p, i) =>
          (⟨i, .unassigned, none, some p, some ⟨s.pageData p, 0, 0, false⟩⟩ : PackCw)
        let idx := s.journalUsed row
        let (k, s) := s.fresh
        let (o, s) := s.fresh
        let (e, s) := s.nextEpochs 18
        let ms := (newMembers row 16).zipIdx.map fun (m, i) => { m with epoch := e + i }
        .next (s.zn fun z => { z with
          setTok := Tab.set z.setTok set tok
          stripes := Tab.set z.stripes k
            ⟨.journal idx, .committed, none, 0, ms, 0, false, true, false, o, pack, s.now, set, true, false, false, []⟩ })

/-! ### Pre-erase (R231, R241, R441) -/

/-- Erased stage capacity of a rank set in codewords without the CLEAN entries that have aged (R231). -/
def State.erasedFresh (s : State) (set : Nat) : Nat :=
  s.erasedStage set - (s.cleanBodies set (fun e => e.clean && !e.uncertain) - s.cleanBodies set s.usableClean) * s.segCws

/-- Erased stage capacity that a rank set is to keep: its dirty buffers, one body, and the PREERASE bodies (R231, R441). -/
def State.preeraseNeed (s : State) (set : Nat) : Nat := s.setDirty set + s.segCws + s.fld F.ZNE_WEARCFG_PREERASE * s.segCws

/-- PREERASE_START: blocks of SLC ring entries that are dirty, aged or UNCERTAIN are erased ahead of use, one on each
of up to 18 channels, while fewer than PREERASE bodies beyond the reserve are clean; those older than CLEANAGE count as dirty (R231, R241,
R441). -/
def execPreeraseStart (set : Fin 16) (s : State) : Host.Outcome State Fault Refusal :=
  let unc := (s.slcEntries set.val).any (·.uncertain)
  if unc = false ∧ s.preeraseNeed set.val ≤ s.erasedFresh set.val then .next s
  else
    let pick := fun c => (s.ring set.val c true).find? fun e => s.eligible e && !s.usableClean e && (!unc || e.uncertain)
    let es := ((s.walk (s.rset set.val).rotor).filterMap pick).take 18
    .next (es.foldl (fun s e => s.beginErase e.blk .pre) s)

/-- A pre-erased block is verified: its ring entry is CLEAN (R231). -/
def State.setClean (s : State) (b : Nat) : State :=
  let set := s.setOfBlk b
  let slc := (s.blk b).slc
  s.setRing set (blkChan b) slc ((s.ring set (blkChan b) slc).map fun e =>
    if e.blk = b then ⟨b, true, false, s.now / 1000000000 % 2 ^ 30⟩ else e)

/-! ### Relocation of bodies (R232, R233, R245) -/

/-- Mean PECOUNT of blocks. -/
def State.meanPe (s : State) (bs : List Nat) : Nat := sumBy (fun b => (s.blk b).pe) bs / bs.length

/-- Start relocating a Full zone's body to blocks erased for it (R232 step 1); event 0x0405 at the start of a wear
relocation. -/
def State.startReloc (s : State) (zmi : Nat) (refresh : Bool) : State :=
  let z := s.zone zmi
  match s.allocBody z.set false (!refresh) .body with
  | none => s.znePost 0x0407 [(32, zmi), (8, 0)] z.owner
  | some (es, s) =>
    let (j, s) := s.fresh
    let dest := es.map (·.blk)
    let r : Reloc := ⟨zmi, refresh, dest, 0, .erase, s.meanPe z.body, 0, []⟩
    let s := s.zn fun x => { x with relocs := Tab.set x.relocs j r }
    let s := if refresh then s else
      s.znePost 0x0405 [(32, zmi), (16, s.meanPe z.body), (16, s.meanPe dest), (8, 0)] z.owner
    dest.foldl (fun s b => s.beginErase b (.reloc j)) s

/-- Read a stripe of a relocation's source: every data codeword, unreadable ones by reconstruction (R232 step 2). -/
def State.relocRead (s : State) (j : Nat) (r : Reloc) : State :=
  let row := s.bodyRow r.zmi r.stripe
  let ms := (List.range 16).filter fun m => !s.neverWritten (row.getD m 0) r.stripe
  let own := StripeOf.body r.zmi r.stripe
  let s := s.modReloc j fun r => { r with st := .copy, left := ms.length * s.cps, got := [] }
  ms.foldl (fun s m =>
    s.issueReads 5 (s.zoneTen r.zmi) (.move j) ((List.range s.cps).map fun c => ⟨own, row, m, c, false, m * s.cps + c⟩)) s

/-- A relocation's stripe is read: its destination stripe goes through the Husk (R232 step 3). -/
def State.relocProgram (s : State) (j : Nat) (r : Reloc) : State :=
  let row := s.bodyRow r.zmi r.stripe
  let pads := ((List.range 16).find? fun m => s.neverWritten (row.getD m 0) r.stripe).getD 16
  let (k, s) := s.fresh
  let t : Stripe := ⟨.reloc r.zmi r.stripe, .filling, none, 0, newMembers r.dest pads, 0, false, true, false, 0, [], s.now,
    (s.zone r.zmi).set, true, true, false, r.got⟩
  let s := s.zn fun x => { x with stripes := Tab.set x.stripes k t }
  (s.modReloc j fun r => { r with st := .program }).commitStripe k

/-- Every stripe of the destination is verified: the body is swapped and the old blocks return dirty
(WEAR_RELOCATION_SWAP). -/
def State.relocSwap (s : State) (j : Nat) (r : Reloc) : State :=
  let old := (s.zone r.zmi).body
  let s := s.zn fun z => { z with relocs := Tab.erase z.relocs j }
  let s := s.modZone r.zmi fun z => { z with body := r.dest }
  let s := if r.refresh then s else
    (s.bump F.ZNE_MH_WLRELOC_COUNT).znePost 0x0405 [(32, r.zmi), (16, r.old), (16, s.meanPe r.dest), (8, 1)] (s.zoneTen r.zmi)
  s.releaseAll old

/-- A relocation goes on: its destination is erased, a stripe is closed, or its stripe is read. -/
def State.relocNext (s : State) (j : Nat) : State :=
  match Tab.find s.zne.relocs j with
  | none => s
  | some r =>
    match r.st with
    | .copy => if r.left = 0 then s.relocProgram j r else s
    | .erase =>
      if s.zne.erases.all (fun e => decide (e.2.for_ ≠ .reloc j)) then
        if (s.zone r.zmi).bstripes = 0 then s.relocSwap j r else s.relocRead j r
      else s
    | .program =>
      let r := { r with stripe := r.stripe + 1 }
      let s := s.modReloc j fun _ => r
      if (s.zone r.zmi).bstripes ≤ r.stripe then s.relocSwap j r else s.relocRead j r
    | _ => s

/-- Sum of the PECOUNT of a body's 18 members: 18 times its mean. -/
def State.sumPe (s : State) (bs : List Nat) : Nat := sumBy (fun b => (s.blk b).pe) bs

/-- WEAR_RELOCATION_START: the highest PECOUNT of a rank set's QLC blocks exceeds the lowest mean member PECOUNT of a
Full body by more than WLDELTA, and fewer than WLMAX relocations run (R232). -/
def execWearRelocationStart (set : Fin 16) (s : State) : Host.Outcome State Fault Refusal :=
  let qlc := s.blocksOf set.val fun _ e => !e.slc && (e.st = .free || e.st = .body)
  let top := qlc.foldl (fun m b => max m (s.blk b).pe) 0
  let full := s.zne.zones.filter fun e => e.2.set = set.val && e.2.zs = .full && e.2.body.length = 18
  let fulls := full.filter fun e => !e.2.staged && !(s.zne.relocs.any fun r => r.2.zmi = e.1)
  let low := minBy id (full.map fun e => s.sumPe e.2.body)
  let running := (s.zne.relocs.filter fun r => (s.zone r.2.zmi).set = set.val && !r.2.refresh).length
  match minBy (fun e => s.sumPe e.2.body) fulls, low with
  | some (z, _), some l =>
    if running < s.fld F.ZNE_WEARCFG_WLMAX ∧ l + 18 * s.fld F.ZNE_WEARCFG_WLDELTA < 18 * top then
      .next (s.startReloc z false)
    else .next s
  | _, _ => .next s

/-! ### Scrub and refresh (R244, R245) -/

/-- The zone whose body holds a block. -/
def State.zoneOfBlk (s : State) (b : Nat) : Option Nat := (s.zne.zones.find? fun e => e.2.body.contains b).map (·.1)

/-- The SLC body that holds a block. -/
def State.slcOfBlk (s : State) (b : Nat) : Option Nat := (s.zne.slc.find? fun e => e.2.members.contains b).map (·.1)

/-- A queued block may be refreshed now: an active zone's waits until the zone is Full, one whose last stripes are not closed or whose
relocation is under way until they are, and an open segment's until it is full (R232, R245). -/
def State.refreshable (s : State) (b : Nat) : Bool :=
  match s.zoneOfBlk b, s.slcOfBlk b with
  | some z, _ => (s.zone z).zs = .full && ((s.zone z).fbc || decide ((s.zone z).wp ≤ (s.zone z).bstripes * s.lps)) &&
      !(s.zne.relocs.any fun r => r.2.zmi == z)
  | none, some k => match Tab.find s.zne.slc k with
    | some x => decide (x.st = .stage ∨ x.st = .full)
    | none => true
  | none, none => true

/-- Why a block is refreshed, as event 0x0406 names it (DESIGN CHOICE, assumption 73): 1 its highest read-offset set, 2 its read count,
3 a codeword that failed the ladder, else 0. -/
def State.refreshCause (s : State) (b : Nat) : Nat :=
  let e := s.blk b
  if e.grown then 3 else if s.zne.profile.readLimit ≤ e.reads then 2 else if e.rdofs = s.zne.profile.nrdofs then 1 else 0

/-- REFRESH: the data of a queued block is moved: the body of a Full zone is relocated, a stage body's runs and a
segment's codewords move. Event 0x0406, with the tenancy of a zone it names (R245, R250). -/
def State.refreshBlk (s : State) (b : Nat) : State :=
  let why := s.refreshCause b
  let s := (s.zn fun z => { z with refreshQ := z.refreshQ.filter (· != b) }).showMedia
  let note := fun (x ten : Nat) => (s.bump F.ZNE_MH_REFRESH_COUNT).znePost 0x0406 [(32, x), (8, why)] ten
  match s.zoneOfBlk b, s.slcOfBlk b with
  | some z, _ =>
    -- without a destination body nothing starts, and the block stays queued
    if (s.allocBody (s.zone z).set false false .body).isNone then (s.queueRefresh b).startReloc z true
    else (note z (s.zoneTen z)).startReloc z true
  | none, some k =>
    match Tab.find s.zne.slc k with
    | some x => if x.st = .stage then (note k 0xFF).relocStage k else (note k 0xFF).reclaimSeg k
    | none => s
  | none, none => s

/-- The sample reads of a scrub visit: on every plane one codeword, the first of its lowest page layer (R202),
of SCRUBWL slices spread from 0 to CURSOR (R244). -/
def State.scrubRead (s : State) (b : Nat) (again : Bool) : State :=
  let e := s.blk b
  match e.cursor with
  | none => s
  | some c =>
    let n := s.fld F.ZNE_SCRUBCFG_SCRUBWL
    let cws := (List.range (2 ^ s.fld F.ZNE_GEOM_PLANES)).map fun p => (p * 4, p * 4)
    let s := s.zn fun z => { z with visits := Tab.set z.visits b 0 }
    (List.range n).foldl (fun s k =>
      s.enqueue (plainOp 5 .read e.slc b (if n ≤ 1 then 0 else c * k / (n - 1)) cws (.scrub b again) 0xFF)) s

/-- SCRUB_VISIT: a block of the refresh queue is visited first, and refreshed; else the next block in Block State Table order in state 0x1 to 0x4
is visited (R244). -/
def execScrubVisit (s : State) : Host.Outcome State Fault Refusal :=
  match s.zne.refreshQ.find? s.refreshable with
  | some b => .next (((s.bump F.ZNE_MH_SCRUBBED_COUNT).scrubRead b false).refreshBlk b)
  | none =>
    if s.flag F.ZNE_SCRUBCFG_SCRUBEN = false then .next s
    else
      let bs := (s.zne.blks.filter fun e => (e.2.st = .body || e.2.st = .stage || e.2.st = .conv || e.2.st = .system) &&
        !s.deadDie (blkDie e.1)).map (·.1)
      match (bs.find? fun b => decide (s.zne.scrubAt ≤ b)).orElse fun _ => bs.head? with
      | some b =>
        let s := (s.zn fun z => { z with scrubAt := b + 1 }).bump F.ZNE_MH_SCRUBBED_COUNT
        .next (s.scrubRead b false)
      | none => .next s

end Sys2Proof.Machine
end

