-- ==== Sys2Proof/Machine/Ladder.lean ====
section
/-! DEFINITION. Codewords on their way from flash to whoever reads them: the decode ladder, reconstructions that end,
members that pass or fail, erases that end. -/

namespace Sys2Proof.Machine

/-! ### Whom a codeword serves -/

/-- The reconstruction under way for a codeword of an operation. -/
def State.reconOf (s : State) (o : DieOp) (c : Nat × Nat) : Option (Nat × Recon) :=
  s.zne.recons.find? fun e => some e.2.for_ == o.reconFor c.2 && e.2.cw == c.1 && e.2.slice == o.slice &&
    e.2.row.getD e.2.target 0 == o.blk

/-- A block of a slot's command still waits for its data. -/
def State.waits (s : State) (i key : Nat) : Bool :=
  match (s.slot i).bind fun x => Tab.find x.blocks key with
  | some b => !b.settled
  | none => false

/-- A codeword of an operation is still wanted (R107, R114, R115): a block not yet served, a member still awaited. -/
def State.wanted (s : State) (o : DieOp) (tag : Nat) : Bool :=
  match o.purpose with
  | .host i => s.waits i tag
  | .helper k m => match (s.recon k).bind fun r => Tab.find r.members m with
    | some .pending => true
    | _ => false
  | .fold z => (s.zoneBuf z tag).isNone
  | .job j => (s.job j).isSome
  | .jobHelper j _ => (s.job j).isSome
  | .jobVerify j => (s.job j).isSome
  | .move j => (Tab.find s.zne.relocs j).isSome
  | .verify k _ => (s.stripe k).isSome
  | .scrub b _ => (Tab.find s.zne.visits b).isSome
  | _ => true

/-- A slot's command is a Copy, whose source reads are no host reads (R246). -/
def State.isCopy (s : State) (i : Nat) : Bool := ((s.slot i).map fun x => decide (x.opc = 0x19)).getD false

/-- An operation reads for a host read, or helps one (R246): its class tells it from a Copy's and from background work (R97), also once
its slot or its reconstruction has ended. -/
def DieOp.readsForHost (o : DieOp) : Bool :=
  o.cls != 5 && match o.purpose with
    | .host _ => true
    | .helper _ _ => true
    | _ => false

/-- Ladder counters: host reads with their helpers count for the tenancy, all other work for the device (R246). -/
def State.countLadder (s : State) (o : DieOp) (k : Nat) : State :=
  if o.readsForHost && decide (o.ten < 128) then s.bump (F.LDC_LADDER_COUNT (o.ten * 8 + k)) else s.bump (F.LDC_LADDERDEV_COUNT k)

/-- Counter of a ladder position: 0 step 1, 1 to 3 step 2, 4 step 3a, 5 step 3b (R110, R246). -/
def ladderStep (lad : Nat) : Nat := if lad = 0 then 0 else if lad < 4 then 1 else lad - 2

/-- The next ladder position of a codeword that exists (R110, R242). -/
def State.nextLad (s : State) (b lad : Nat) : Option Nat :=
  if lad = 0 then some 1
  else if lad = 1 ∧ (s.ladderSet b 2).isSome = true then some 2
  else if lad ≤ 2 ∧ (s.ladderSet b 3).isSome = true then some 3
  else if lad ≤ 3 then some 4
  else if lad = 4 then some 5
  else none

/-! ### Reads of the host -/

/-- The key generation of a codeword that a location gives: the zone's own (R309); for a conventional block it is the
current one, or while an old one lives either, which the spec does not say how to tell (assumption 9). -/
def State.genOf (s : State) (n lba : Nat) : Nat × State :=
  if s.isConv n then
    if s.flag (F.XTS_NSK_OLDV n) then
      let (b, s) := s.drawBool
      (if b then s.fld (F.XTS_NSK_OLDGEN n) else s.fld (F.XTS_NSK_CURGEN n), s)
    else (s.fld (F.XTS_NSK_CURGEN n), s)
  else match s.zoneOf n lba with
    | some z => ((s.zone z).gen, s)
    | none => (0, s)

/-- A block of a slot's command is decrypted and served (R107, R115, R306). -/
def State.serveHost (s : State) (i key : Nat) (gen : Option Nat) (d : Blk) (h : Hmd) : State :=
  match s.slot i with
  | none => s
  | some x =>
    if s.waits i key then
      let (g, s) := match gen with
        | some g => (g, s)
        | none => s.genOf x.ns (x.lbaOf key)
      (s.openBlock i key x.ns g (x.lbaOf key) d h).settle i
    else s

/-- A queue without the codeword that reads a block of a slot. -/
def dropTarget (i key : Nat) (q : List DieOp) : List DieOp :=
  (q.map fun o => if o.purpose = .host i then { o with cws := o.cws.filter fun c => c.2 != key } else o).filter fun o =>
    !(o.purpose = .host i && o.cws.isEmpty)

/-- The target read of a block that a reconstruction has served is withdrawn where it is still queued, or posted and not yet taken (R107, R209). -/
def State.withdrawTarget (s : State) (i key : Nat) : State :=
  (s.withdrawOps fun o => o.purpose == .host i && o.cws.all fun c => c.2 == key).zn fun z => { z with
    dies := z.dies.map fun e => (e.1, { e.2 with queue := dropTarget i key e.2.queue }) }

/-! ### The conventional sweep (R310) -/

/-- Bring the sweep of a conventional namespace to its next allocated block at or after an LBA, or end the walk. -/
def State.sweepFrom (s : State) (n lba : Nat) : State :=
  match (s.cns n).bind fun c => c.map.find? fun e => decide (lba ≤ e.1) with
  | some (l, _) => s.sc fun x => { x with sweepAt := Tab.set x.sweepAt n l }
  | none =>
    let s := (s.sc fun x => { x with sweepAt := Tab.erase x.sweepAt n }).setFld (F.ZNE_KGREF_SWEEP n) 0
    s.retireOld n

/-- Read the block a sweep stands at: one on flash through LDC at the background class, charged to the tenancy; one in
a write buffer was written under the current generation or is passed over with its write. -/
def State.sweepRead (s : State) (n lba : Nat) : State :=
  match s.convLoc n lba with
  | .flash own row m cw slc =>
    if s.zne.dies.any (fun e => (e.2.queue ++ (e.2.active.map (·.op)).toList).any fun o => o.purpose == .sweep n lba) ||
        s.zne.decodes.any (fun e => e.2.op.purpose == .sweep n lba) ||
        s.zne.recons.any (fun e => e.2.for_ == .sweep n lba) then s
    else s.issueReads 5 (((s.cns n).map (·.owner)).getD 0xFF) (.sweep n lba) [⟨own, row, m, cw, slc, lba⟩]
  | _ => s.sweepFrom n (lba + 1)

/-- A swept block has been read: data of the old generation passes through XTS as an internal write, unless a host
write or deallocation won (R310). -/
def State.sweepLand (s : State) (n lba gen : Nat) (d : Blk) (h : Hmd) : State :=
  let ten := ((s.cns n).map (·.owner)).getD 0
  let old := s.flag (F.XTS_NSK_OLDV n) && decide (gen = s.fld (F.XTS_NSK_OLDGEN n))
  -- a buffer and a dirty map page must fit in EFF, else the block is read again later (R74)
  let room := decide (s.fld F.ZNE_DIRTY_CUR + 2 ≤ s.effBufs)
  let onFlash : Bool := match s.mapAt n lba with
    | some (.flash _) => true
    | _ => false
  if old && onFlash && !room then s
  else if old && onFlash && s.hazardFree n (2 ^ 64) lba true then
    let (p, s) := s.decryptBlk n gen ten lba d
    match p with
    | none => s.sweepFrom n (lba + 1)
    | some p =>
      let cur := s.fld (F.XTS_NSK_CURGEN n)
      let (c, s) := s.encryptBlk n cur ten lba p
      let (b, s) := s.reserveBuf (.conv n lba 0) n cur ten 65536
      let s := s.modBuf b fun y => { y with st := .held, data := c.getD 0, hmd := h, bad := c.isNone }
      let s := s.setEntry n lba (some (.buffer b))
      let (_, s) := s.convCw n lba 0 false (some b) none
      s.sweepFrom n (lba + 1)
  else s.sweepFrom n (lba + 1)

/-! ### Codewords that passed -/

/-- A relocation has one codeword less to read. -/
def State.moveOne (s : State) (j at_ : Nat) (x : Moved) : State :=
  (s.modReloc j fun r => { r with left := r.left - 1, got := Tab.set r.got at_ x }).relocNext j

/-- A substitution has one codeword less to copy; with the last, the slice is programmed (R140 step 2). -/
def State.jobOne (s : State) (j cw : Nat) (y : Moved) : State :=
  let s := s.modJob j fun x => { x with left := x.left - 1, got := Tab.set x.got (cw * 32 + 31) y }
  match s.job j with
  | some x => if x.left = 0 ∧ x.st = .copy then s.jobProgram j x else s
  | none => s

/-- A helper codeword of a rebuild is in, or found erased (mask bit m). -/
def State.jobHelperIn (s : State) (j m cw : Nat) (erased : Bool) (y : Moved) : State :=
  let s := s.modJob j fun x => { x with
    left := x.left - 1,
    got := if erased then x.got else Tab.set x.got (cw * 32 + m) y,
    bad := if erased then Tab.set x.bad cw (setBit (Tab.getD x.bad cw 0) m) else x.bad }
  s.jobEvaluate j

/-- Nothing more is read for a purpose. -/
def State.purposeDone (s : State) (p : Purpose) : Bool :=
  !(s.zne.dies.any fun e => (e.2.queue ++ (e.2.active.map (·.op)).toList ++ dieSuspended e.2).any fun o => o.purpose == p) &&
  !(s.zne.decodes.any fun e => e.2.op.purpose == p) && !(s.zne.dones.any fun e => e.op.purpose == p)

/-- The verification reads of a slice (R79): one codeword on every plane and page. -/
def State.verifyCws (_s : State) (cps : Nat) : List (Nat × Nat) := (List.range (cps / 4)).map fun k => (4 * k, 4 * k)

/-- Issue the verification read of a slice just programmed, at the background class (R79, R97). -/
def State.verifyRead (s : State) (blk slice : Nat) (slc : Bool) (p : Purpose) (ten : Nat) : State :=
  s.enqueue (plainOp 5 .read slc blk slice (s.verifyCws (if slc then s.stageCps else s.cps)) p ten)

/-! ### Closing a stripe (R130) -/

/-- An open record of a zone's body stands in the Husk (R125). -/
def State.recordOpen (s : State) (zmi : Nat) : Bool :=
  (if s.copyDown 0 then s.zne.husk.rec1 else s.zne.husk.rec0).any fun e => e.2.isOpen && match e.2.slices with
    | (_, x) :: _ => x.zone == zmi && !bit x.loc 23
    | [] => false

/-- Remove a zone from the closing list once no open stripe of its body remains (R125). -/
def State.closingDone (s : State) (zmi : Nat) : State :=
  if (s.bodyStripes zmi).any (fun e => e.2.record.isSome) || s.recordOpen zmi then s
  else s.hk fun h => { h with closing := Tab.erase h.closing zmi }

/-- A body stripe closed: BSTRIPES advances, its buffers are released, and after verification its staged runs are
invalid (R73, R79, R130 step 6). -/
def State.closeBody (s : State) (zmi idx : Nat) (verified : Bool) : State :=
  let hi := (idx + 1) * s.lps
  let s := s.modZone zmi fun z => { z with bstripes := idx + 1 }
  let s := s.releaseBufs (((s.zoneBufs zmi).filter fun e => match e.2.own with
    | .zone _ o => decide (idx * s.lps ≤ o) && decide (o < hi)
    | _ => false).map (·.1))
  let s := if verified then s.dropRuns zmi hi else s.linkRuns zmi
  let s := s.modZone zmi fun z => { z with send := s.sendOf zmi, oldest := s.oldestOf zmi }
  s.closingDone zmi

/-- A source run is moved once every block of it lies in another valid run (R80, R79). -/
def State.runMoved (s : State) (si : Nat) (r : Run) : Bool :=
  (List.range r.len).all fun k => s.zne.srd.any fun e => e.1 != si && e.2.any fun q =>
    q.valid && q.zone == r.zone && decide (q.off ≤ r.off + k) && decide (r.off + k < q.off + q.len)

/-- A stage stripe closed: its runs are recorded and linked, its buffers released, moved runs invalidated (R73, R78,
R80). -/
def State.closeStage (s : State) (b idx : Nat) (pack : List PackCw) : State :=
  let si := s.slcIndex b idx
  let runs := runsOf pack
  let s := s.zn fun z => { z with srd := Tab.set z.srd si runs }
  let zs := (runs.map (·.zone)).eraseDups
  let s := pack.foldl (fun s c => s.publishEntry si c) s
  let s := s.releaseBufs (pack.filterMap (·.buf))
  let srcs := (pack.filterMap (·.src)).map (· / s.stageLps)
  let s := srcs.eraseDups.foldl (fun s k =>
    let upd := fun (r : Run) => if r.valid && s.runMoved k r then { r with valid := false } else r
    s.zn fun z => { z with srd := Tab.adjust z.srd k fun rs => rs.map upd }) s
  let s := zs.foldl (fun s z => (s.linkRuns z).modZone z fun x => { x with send := s.sendOf z, oldest := s.oldestOf z }) s
  s.thruDone.reapStage

/-- A conventional stripe closed: its entries move to flash, its buffers are released, and its segment may be full
(R73, R176, R180, R183). -/
def State.closeConv (s : State) (b idx : Nat) (pack : List PackCw) : State :=
  let si := s.slcIndex b idx
  let s := pack.foldl (fun s c => s.publishConv si c) s
  let s := s.bump F.ZNE_CONV_PADCW_COUNT (s.stageLps - pack.length)
  let s := s.releaseBufs (pack.filterMap (·.buf))
  let set := ((Tab.find s.zne.slc b).map (·.set)).getD 0
  let s := (s.segFull b).segCheck set
  let vs := s.zne.slc.filter fun e => e.2.st = .victim
  vs.foldl (fun s e => s.reapSeg e.1) s

/-- The cursors of a stripe's members stand at its slice, or past it (R42, R72). -/
def State.markCursors (s : State) (t : Stripe) : State :=
  (t.members.filter fun m => !m.pad).foldl (fun s m => s.modBlk m.blk fun b => { b with
    cursor := some (max t.idx (b.cursor.getD 0)) }) s

/-- What the close of a stripe publishes: its blocks' cursors, and what it held (R124, R130 step 6). -/
def State.publishStripe (s : State) (k : Nat) (t : Stripe) : State :=
  let s := s.zn fun z => { z with stripes := Tab.erase z.stripes k }
  let s := (s.markCursors t).pagesLanded t.pack
  match t.of_ with
  | .body z i => s.closeBody z i (t.verify || t.st = .torn)
  | .stage b i => s.closeStage b i t.pack
  | .conv b i => s.closeConv b i t.pack
  | .journal _ => s
  | .reloc z _ => match s.zne.relocs.find? fun e => e.2.zmi == z with
    | some (j, _) => s.relocNext j
    | none => s

/-- The next stripes of a body close in order where their members have passed already (R124), at most n of them; after a restart the
cursors show those that had passed before it. -/
def State.closeWaiting (s : State) (zmi : Nat) : Nat → State
  | 0 =>
    let c := (((s.zone zmi).body.head?.bind fun b => (s.blk b).cursor).map (· + 1)).getD 0
    if (s.bodyStripes zmi).any (fun e => decide (e.2.idx < c)) then s
    else s.modZone zmi fun z => { z with bstripes := max z.bstripes c }
  | n + 1 =>
    match (s.bodyStripes zmi).find? fun e => e.2.closed && e.2.idx == (s.zone zmi).bstripes with
    | some (k, t) => (s.publishStripe k t).closeWaiting zmi n
    | none => s.closeWaiting zmi n

/-- A stripe's close is acknowledged (R130 steps 5 and 6): it closes, unless an earlier stripe of its body is still open (R124); or a
withdrawn one returns to Filling (R75). -/
def State.closeStripe (s : State) (k : Nat) (t : Stripe) : State :=
  let pass := if t.withdrawn then 0 else 0x3FFFF
  let s := match t.record with
    | some r => (s.freeShelf r).huskWrite r fun h => { h with closed := t.hseq, pass := pass, shelfSeq := 0 }
    | none => s
  let s :=
    if t.withdrawn then s.zn fun z => { z with stripes := Tab.erase z.stripes k }
    else
      match t.of_ with
      | .body z i =>
        if (s.zone z).bstripes < i then
          (s.markCursors t).modStripe k fun t => { t with record := none, closing := false, closed := true }
        else (s.publishStripe k t).closeWaiting z s.zne.stripes.length
      | _ => s.publishStripe k t
  let s := match t.of_ with
    | .body z _ => s.closingDone z
    | _ => s
  s.wakeJobs.thruDone.retryCommits.retryCopies.wakeConv

/-- A member passes; with the last the stripe closes, at once where no Husk record stands for it (R123, R130, R131). -/
def State.memberPassed (s : State) (k m : Nat) : State :=
  let s := (s.setMember k m .passed).checkClose k
  match s.stripe k with
  | some t => if t.closing ∧ t.record = none then s.closeStripe k t else s
  | none => s

/-- A member's slice is not good: it is substituted, with or without a grown defect (R139). -/
def State.memberFailed (s : State) (k m : Nat) (grown : Bool) : State :=
  match (s.stripe k).bind fun t => t.members[m]? with
  | none => s
  | some x =>
    let s := if grown ∧ (s.blk x.blk).st ≠ .retired then s.growDefect x.blk 3 else s
    match s.stripe k with
    | none => s
    | some t =>
      match t.of_ with
      -- a stripe of the map journal is given up, and its pages, dirty still, go to another (R182)
      | .journal _ => (s.markCursors t).dropStripe k
      | _ => (s.setMember k m (if grown then .failed else .interrupted)).startSubst k m

/-- Drop what is still read to verify a purpose. -/
def State.dropReads (s : State) (p : Purpose) : State :=
  let ids := (s.zne.decodes.filter fun e => e.2.op.purpose == p).map (·.2.op.id)
  ((s.withdrawOps fun o => o.purpose == p).zn fun z =>
    { z with decodes := Tab.keep z.decodes fun _ x => x.op.purpose != p }).freeStaging fun i _ => ids.contains i

/-! ### Reconstructions that end -/

/-- A lost codeword, or a codeword read for a move, lands where its reader wants it. `lost`: the hard erasures of a lost row, 0 where it
is not lost. -/
def State.landMove (s : State) (f : ReconFor) (lost : Nat) (gen : Option Nat) (d : Blk) (h : Hmd) : State :=
  match f with
  | .host i key =>
    if lost ≠ 0 then
      (s.modSlot i fun x => { x with hard := Tab.set x.hard key lost }).serve i key (.failed .unrecoveredRead)
    else s.serveHost i key gen d h
  | .fold z off => s.foldLand z off d h (lost ≠ 0)
  | .collect loc =>
    if lost ≠ 0 then
      let x : Moved := ⟨0, 0, 0, true⟩
      match s.entryAt loc with
      | some (n, lba) =>
        match s.mapAt n lba with
        | some (.flash _) => (s.setEntry n lba (some (s.lostEntry loc))).collectLand loc x
        | _ => s.collectLand loc x
      | none => s.collectLand loc x
    else
      let (g, s) := match gen, s.runAt loc, s.entryAt loc with
        | some g, _, _ => (g, s)
        | none, some r, _ => ((s.zone r.zone).gen, s)
        | none, none, some (n, lba) => s.genOf n lba
        | none, none, none => (0, s)
      s.collectLand loc ⟨d, h, g, false⟩
  | .job j cw => s.jobOne j cw ⟨d, h, gen.getD 0, lost ≠ 0⟩
  | .move j k => s.moveOne j k ⟨d, h, gen.getD 0, lost ≠ 0⟩
  | .sweep n lba =>
    if lost ≠ 0 then s.sweepFrom n (lba + 1)
    else
      let (g, s) := match gen with
        | some g => (g, s)
        | none => s.genOf n lba
      s.sweepLand n lba g d h

/-- The tenancy whose ladder counters a reconstruction's step 4 counts in. -/
def State.countStep4 (s : State) (r : Recon) (k : Nat) : State :=
  match r.for_ with
  | .host i _ =>
    if decide (r.ten < 128) && !s.isCopy i then s.bump (F.LDC_LADDER_COUNT (r.ten * 8 + k)) else s.bump (F.LDC_LADDERDEV_COUNT k)
  | _ => s.bump (F.LDC_LADDERDEV_COUNT k)

/-- The read operation of a reconstruction's target. -/
def Recon.targetRead (r : Recon) : DieOp :=
  let (p, tag) := match r.for_ with
    | .host i key => (Purpose.host i, key)
    | .fold z off => (Purpose.fold z, off)
    | .collect loc => (Purpose.collect, loc)
    | .job j c => (Purpose.job j, c)
    | .move j k => (Purpose.move j, k)
    | .sweep n lba => (Purpose.sweep n lba, lba)
  { plainOp r.cls .read r.slc (r.row.getD r.target 0) r.slice [(r.cw, tag)] p r.ten with
    row := r.row, own := r.own, reissued := true }

/-- A reconstruction has failed: the target read serves instead while it may, else three hard erasures lose the row and
the read fails; with fewer the target is read once more (R107, R111, R114, R151, R152). -/
def State.failRecon (s : State) (k : Nat) (r : Recon) : State :=
  let s := s.endRecon k
  let mask := r.hard.foldl setBit 0
  if 3 ≤ r.hard.length ∧ (r.racing = false ∨ r.hard.contains r.target = true) then
    let s := (s.rowLost r.own r.row r.cw mask).countStep4 r 5
    s.landMove r.for_ r.hard.length none 0 0
  else if r.racing then
    let s := if r.around then s.bump F.ZNE_RASTAT_RAFB_COUNT else s
    if r.around then s.znePost 0x0204 [(11, blkDie (r.row.getD r.target 0)), (5, r.erased.length)] r.ten else s
  else if s.unreadable (blkDie (r.row.getD r.target 0)) then
    s.startRecon r.for_ r.own r.row r.slice r.cw r.slc r.target true false true false [] r.cls r.ten
  else s.enqueue r.targetRead

/-- Every reconstruction found to have failed ends. -/
def State.sweepFailed (s : State) : State :=
  (s.zne.recons.filter fun e => e.2.failed).foldl (fun s e => match s.recon e.1 with
    | some r => s.failRecon e.1 r
    | none => s) s

/-- An operation reads the target of a reconstruction. -/
def DieOp.targets (o : DieOp) (r : Recon) : Bool :=
  o.kind = .read && o.blk == r.row.getD r.target 0 && o.slice == r.slice &&
    o.cws.any fun c => c.1 == r.cw && o.reconFor c.2 == some r.for_

/-- Where the target's own read is out of its queue, its data will be discarded on arrival (R107, R114). -/
def State.markServed (s : State) (r : Recon) : State :=
  let mark := fun (o : DieOp) => if o.targets r then { o with gone := r.cw :: o.gone } else o
  s.zn fun z => { z with
    dies := z.dies.map fun e => (e.1, { e.2 with active := e.2.active.map fun p => { p with op := mark p.op } })
    dones := z.dones.map fun x => { x with op := mark x.op }
    decodes := z.decodes.map fun e => (e.1, { e.2 with op := mark e.2.op }) }

/-- A reconstruction serves whoever waits for it (R107, R112, R443). A data codeword whose own read failed or is late counts against
its block's health (R112). -/
def State.finishRecon (s : State) (k : Nat) (r : Recon) : State :=
  let (d, h) := r.result
  let s := (s.bump F.PQE_RECON_COUNT).countStep4 r 4
  let b := r.row.getD r.target 0
  let s := if (r.hard.contains r.target || (!r.around && !r.degraded)) && decide (r.target < 16) && !s.deadDie (blkDie b) then
      s.queueRefresh b else s
  let s := (s.markServed r).endRecon k
  let s := match r.for_ with
    | .host i key => s.withdrawTarget i key
    | _ => s
  s.landMove r.for_ 0 none d h

/-- Controllers whose CC.EN is set become ready (R285). -/
def State.fnsReady (s : State) : State :=
  s.hf fun h => { h with fns := h.fns.map fun e => (e.1, if e.2.ctl = .enabling then { e.2 with ctl := .ready } else e.2) }

/-! ### Codewords that failed -/

/-- A codeword of a scrub visit has been read, as bad as `level`: 0 good, 1 above REFRESHBER or past step 1, 2 to be refreshed. After the
last the worst decides: nothing, another visit at once, or refresh (R244). -/
def State.scrubSeen (s : State) (b : Nat) (again : Bool) (level : Nat) : State :=
  match Tab.find s.zne.visits b with
  | none => s
  | some w =>
    let w := max w level
    if s.purposeDone (.scrub b again) then
      let s := s.zn fun z => { z with visits := Tab.erase z.visits b }
      if w = 0 then s else if w = 1 ∧ again = false then s.scrubRead b true else s.queueRefresh b
    else s.zn fun z => { z with visits := Tab.set z.visits b w }

/-- A codeword of an operation is an erasure: hard, or soft where its data is only late or missing (R106, R111, R114,
R150). -/
def State.eraseCw (s : State) (o : DieOp) (c : Nat × Nat) (hard racing : Bool) : State :=
  match o.purpose with
  | .helper k m => (s.eraseMember k m hard).sweepFailed
  | .jobHelper j m =>
    -- a helper that was only aborted is read again (R150)
    if hard || s.deadDie (blkDie o.blk) then s.jobHelperIn j m c.1 true ⟨0, 0, 0, true⟩
    else s.enqueue { o with cws := [c], late := false, granted := false, suspends := 0, gone := [] }
  | .scrub b a => s.scrubSeen b a 2
  | .verify k m => if hard then (s.dropReads o.purpose).memberFailed k m true else s
  | .jobVerify j => if hard then (s.dropReads o.purpose).jobRestart j true else s
  | _ =>
    match s.reconOf o c with
    | some (k, r) =>
      let s := s.modRecon k fun r => { r with racing := r.racing && racing }
      if hard then (s.eraseMember k r.target true).sweepFailed else (s.advanceRecon k).sweepFailed
    | none =>
      match o.reconFor c.2 with
      | some f =>
        (s.startRecon f o.own o.row o.slice c.1 o.slc (o.row.idxOf o.blk) hard false false racing [] o.cls o.ten).sweepFailed
      | none => s

/-- A codeword failed the ladder through step 3b (R111, R235, R244). -/
def State.ladderFailed (s : State) (o : DieOp) (c : Nat × Nat) : State :=
  let e := s.blk o.blk
  let s := if e.pe * 2 < s.peLimit e.slc ∧ s.deadDie (blkDie o.blk) = false ∧ e.grown = false then
      (s.modBlk o.blk fun b => { b with grown := true }).queueRefresh o.blk
    else s
  s.eraseCw o c true false

/-- A codeword that did not pass a step takes the next one, or has failed the ladder (R110). -/
def State.climb (s : State) (o : DieOp) (c : Nat × Nat) : State :=
  match s.nextLad o.blk o.lad with
  | some l =>
    -- a die that has left service reads nothing any more: the codeword is an erasure (R111, R143)
    if s.deadDie (blkDie o.blk) then s.eraseCw o c true false
    else s.enqueue { o with cws := [c], lad := l, late := false, granted := false, suspends := 0, gone := [] }
  | none => s.ladderFailed o c

/-- A codeword passed the ladder (R107, R110, R112, R242): it serves its reader once. -/
def State.deliver (s : State) (o : DieOp) (c : Nat × Nat) (gen bits : Nat) (d : Blk) (h : Hmd) : State :=
  match o.purpose with
  | .host i =>
    let s := match s.reconOf o c with
      | some (k, _) => s.endRecon k
      | none => s
    s.serveHost i c.2 (some gen) d h
  | .helper k m => s.modRecon k fun r => { r with members := Tab.set r.members m (.got d h) }
  | .fold z => s.foldLand z c.2 d h false
  | .collect => s.collectLand c.2 ⟨d, h, gen, false⟩
  | .job j => s.jobOne j c.2 ⟨d, h, gen, false⟩
  | .jobHelper j m => s.jobHelperIn j m c.1 false ⟨d, h, gen, false⟩
  | .move j => s.moveOne j c.2 ⟨d, h, gen, false⟩
  | .sweep n lba => s.sweepLand n lba gen d h
  | .verify k m =>
    if o.lad = 0 ∧ bits ≤ s.zne.profile.verifyBer then
      if s.purposeDone o.purpose then s.memberPassed k m else s
    else (s.dropReads o.purpose).memberFailed k m true
  | .jobVerify j =>
    if o.lad = 0 ∧ bits ≤ s.zne.profile.verifyBer then
      if s.purposeDone o.purpose then s.jobSliceDone j else s
    else (s.dropReads o.purpose).jobRestart j true
  | .scrub b again =>
    s.scrubSeen b again (if 4 ≤ o.lad then 2 else if 1 ≤ o.lad ∨ s.fld F.ZNE_SCRUBCFG_REFRESHBER < bits then 1 else 0)
  | _ => s

/-- Data that nobody waits for any more is discarded; that of a host block's own read, which a reconstruction served first, is counted
(R107), one for each codeword (DESIGN CHOICE, assumption 57). -/
def State.discard (s : State) (o : DieOp) (c : Nat × Nat) : State :=
  match o.purpose with
  | .host _ => if o.gone.contains c.1 then s.bump F.ZNE_RASTAT_LOSTRACE_COUNT else s
  | _ => s

/-- Hard erasures of the lost row that a lost-row codeword stands for (R112): as the Lost Row Table lists them, at least one. -/
def State.lostCount (s : State) (o : DieOp) (cw : Nat) : Nat :=
  let key := match o.own with
    | .body z i => (z, i)
    | .reloc z i => (z, i)
    | .stage b i => (s.slcIndex b i, 0)
    | .conv b i => (s.slcIndex b i, 0)
    | .journal i => (2 ^ 31 + i, 0)
  match s.zne.lost.find? fun e => e.2.zmi == key.1 && e.2.stripe == key.2 && e.2.row == cw with
  | some (_, l) => max 1 (((List.range 18).filter fun m => bit l.members m).length)
  | none => 1

/-- LDC_DECODE_DONE: a codeword leaves LDC (R110). It frees its read staging buffer (R31, R106). One that is no longer
wanted is discarded; one that failed climbs the ladder; the others serve or become erasures. -/
def execLdcDecodeDone (u : Nat) (out : LdcOut) (s : State) : Host.Outcome State Fault Refusal :=
  match Tab.find s.zne.decodes u with
  | none => .next s
  | some x =>
    let o := x.op
    let c := (x.cw, x.tag)
    let s := s.zn fun z => { z with decodes := Tab.erase z.decodes u }
    let s := s.freeCw o x.cw
    let hardOnly : Bool := match o.purpose with
      | .verify _ _ => true
      | .jobVerify _ => true
      | _ => false
    .next <|
    match out with
    | .pass d h gen bits =>
      let s := s.countLadder o (ladderStep o.lad)
      let s := if o.lad = 1 ∨ o.lad = 2 ∨ o.lad = 3 then
          match o.rset with
          | some v => if v = (s.blk o.blk).rdofs then s else s.setRdofs o.blk v
          | none => s
        else s
      let s := if 4 ≤ o.lad ∧ hardOnly = false then s.queueRefresh o.blk else s
      if s.wanted o c.2 then s.deliver o c gen.toNat bits.toNat d h else s.discard o c
    | .lostRow =>
      if s.wanted o c.2 then
        match o.purpose, o.reconFor c.2 with
        | .helper _ _, _ => s.eraseCw o c true false
        | .jobHelper _ _, _ => s.eraseCw o c true false
        | .verify k m, _ => if s.purposeDone o.purpose then s.memberPassed k m else s
        | .jobVerify j, _ => if s.purposeDone o.purpose then s.jobSliceDone j else s
        | _, some f =>
          let s := match s.reconOf o c with
            | some (k, _) => s.endRecon k
            | none => s
          s.landMove f (s.lostCount o c.1) none 0 0
        | _, none => s.eraseCw o c true false
      else s
    | .mismatch e f =>
      if o.lad = 0 then
        let s := s.znePost 0x0206 [(32, o.blk), (16, o.slice), (32, e.toNat), (32, f.toNat)] o.ten
        if s.wanted o c.2 then s.eraseCw o c true false else s
      else if s.wanted o c.2 then s.climb o c
      else s
    | .fail =>
      if s.wanted o c.2 then
        if hardOnly then s.eraseCw o c true false else s.climb o c
      else s
    | .doubleBit =>
      if s.wanted o c.2 then
        if o.again then s.ladderFailed o c
        else if s.deadDie (blkDie o.blk) then s.eraseCw o c true false
        else s.enqueue { o with cws := [c], again := true, late := false, granted := false, suspends := 0 }
      else s

/-- RECONSTRUCTION_DONE: PQE finishes a reconstruction, which serves its reader if it is first (R107). `crcFail` is a
parity-scratch buffer failing its CRC: PQE recomputes once from its helpers, and a second failure counts as step 4
failing (R340), which alone makes no read fail (R111). -/
def execReconstructionDone (k : Nat) (crcFail : Bool) (s : State) : Host.Outcome State Fault Refusal :=
  match s.recon k with
  | none => .next s
  | some r =>
    if r.failed then .next (s.failRecon k r)
    else if r.ready = false then .next s
    else if crcFail then
      let s := (s.znePost 0x0803 [(20, k), (8, 1), (32, 0xFFFFFFFF), (64, 0)]).ceBuffer 1 k
      if r.crcRetry then .next (s.failRecon k r)
      else .next (s.modRecon k fun r => { r with crcRetry := true })
    else .next (s.finishRecon k r)

end Sys2Proof.Machine
end

