-- ==== Sys2Proof/Machine/Done.lean ====
section
/-! DEFINITION. Die operations that end or run late: DONE codes, watchdogs, hard limits, the end of erases, and the close
of a stripe. -/

namespace Sys2Proof.Machine

/-! ### Erases -/

/-- A block being erased is lost to a grown defect: another takes its place (R57, R235, R238). -/
def State.eraseLost (s : State) (j : EraseJob) (cause : Nat) : State :=
  let s := s.growDefect j.blk cause
  match j.for_ with
  | .zone z => s.replacePending z j.blk
  | .pre =>
    let set := s.setOfBlk j.blk
    let ring := (s.ring set (blkChan j.blk) (s.blk j.blk).slc).filter fun e => e.blk != j.blk
    (s.dropErase j.blk).setRing set (blkChan j.blk) (s.blk j.blk).slc ring
  | .job k => (s.dropErase j.blk).jobRestart k false
  | .slc b =>
    let s := s.dropErase j.blk
    match Tab.find s.zne.slc b with
    | none => s
    | some x =>
      match s.otherChannel x.set true (x.members.filter (· != j.blk)) with
      | none => s
      | some n =>
        let s := (s.takeEnt x.set n).modBlk n.blk fun y => { y with st := if x.st = .stage then .stage else .conv }
        let swap := fun (y : Nat) => if y = j.blk then n.blk else y
        let s := s.modSlc b fun x => { x with members := x.members.map swap }
        let s := s.zn fun z => { z with stripes := z.stripes.map fun t =>
          (t.1, { t.2 with members := t.2.members.map fun y => { y with blk := swap y.blk } }) }
        (s.takeMember (.slc b) n).slcMapped b
  | .reloc k => s.replaceDest k j.blk

/-- The erase check of a block failed: event 0x0404, a second attempt, then retirement (R238 step 6). -/
def State.checkFailed (s : State) (j : EraseJob) (zeros : Nat) : State :=
  let s := (s.bump F.ZNE_MH_CHKFAIL_COUNT).znePost 0x0404 [(32, j.blk), (16, zeros), (8, if j.second then 2 else 1)]
  if j.second then s.eraseLost j 2
  else
    let j := { j with second := true }
    let s := s.zn fun z => { z with ledger := Tab.adjust z.ledger j.entry fun l => { l with second := true } }
    (s.cfgWrite false).issueErase j

/-- ERASE_LEDGER_CLEAR_ACK: a verified block's ledger entry is cleared, and the block may be used (R57, R231, R238). -/
def execEraseLedgerClearAck (b : BitVec 25) (s : State) : Host.Outcome State Fault Refusal :=
  match Tab.find s.zne.erases b.toNat with
  | none => .next s
  | some j =>
    if j.st ≠ .clearing then .next s
    else
      let s := s.zn fun z => { z with erases := Tab.adjust z.erases j.blk fun j => { j with st := .verified } }
      let s := s.dropErase j.blk
      .next <| match j.for_ with
        | .zone z => s.bodyMapped z
        | .slc k => s.slcMapped k
        | .pre => (s.setClean j.blk).showMedia
        | .job k => s.jobNext k
        | .reloc k => s.relocNext k

/-! ### Reads -/

/-- Lateness of a read's data is counted and reported: used after a failed reconstruction, or discarded (R114), once for each
codeword (DESIGN CHOICE, assumption 57). -/
def State.lateUsed (s : State) (x : Done) (row : Nat) : State :=
  let (k, st, _) := s.rowKey x.op.own
  (s.bump F.ZNE_RASTAT_LATEUSED_COUNT).znePost 0x0203 [(11, x.die), (32, k), (16, st),
    (8, row)] x.op.ten

@[inherit_doc State.lateUsed] def State.lateDropped (s : State) (x : Done) : State :=
  (s.bump F.ZNE_RASTAT_LATEDISC_COUNT).znePost 0x0202 [(11, x.die), (32, x.lateBy / 1000)] x.op.ten

/-- One codeword of a read goes to LDC. -/
def State.toLdc (s : State) (o : DieOp) (c : Nat × Nat) : State :=
  let (u, s) := s.fresh
  s.zn fun z => { z with decodes := Tab.set z.decodes u ⟨o, c.1, c.2, false⟩ }

/-- The data of one codeword of a read arrives: it goes to LDC, or is discarded where its reader has been served, or,
late, where step 4 serves it (R107, R114). -/
def State.readData (s : State) (x : Done) (c : Nat × Nat) : State :=
  let o := x.op
  let served := o.gone.contains c.1 || !s.wanted o c.2
  if o.late then
    if served || (s.reconOf o c).isSome then (s.freeCw o c.1).lateDropped x
    else if (o.reconFor c.2).isSome then (s.lateUsed x c.1).toLdc o c
    else s.toLdc o c
  else if served then (s.freeCw o c.1).discard o c
  else s.toLdc o c

/-- A read ended without data: step 4 serves it, or where that has failed it is read once more (R114). -/
def State.readAborted (s : State) (o : DieOp) : State :=
  o.cws.foldl (fun s c =>
    if o.gone.contains c.1 || !s.wanted o c.2 then s
    else if (s.reconOf o c).isSome then
      match s.reconOf o c with
      | some (k, _) => ((s.modRecon k fun r => { r with racing := false }).advanceRecon k).sweepFailed
      | none => s
    else if o.reissued || s.deadDie (blkDie o.blk) then s.eraseCw o c true false
    else if o.late then s.enqueue { o with cws := [c], reissued := true, late := false, granted := false, suspends := 0 }
    else s.eraseCw o c false false) s

/-- A verification read that did not complete is issued again, unless its die has left service. -/
def State.verifyAborted (s : State) (o : DieOp) : State :=
  match o.purpose with
  | .verify k m =>
    if s.deadDie (blkDie o.blk) then (s.dropReads o.purpose).memberFailed k m false
    else s.enqueue { o with late := false, granted := false, suspends := 0 }
  | .jobVerify j =>
    if s.deadDie (blkDie o.blk) then (s.dropReads o.purpose).jobRestart j false
    else s.enqueue { o with late := false, granted := false, suspends := 0 }
  | _ => s

/-- A read's DONE (R210): PASS sends its codewords to LDC, FAIL starts them at step 2, every other code is an erasure. -/
def State.readDone (s : State) (x : Done) (zeros : Nat) : State :=
  let o := x.op
  let s := s.countRead o.blk
  let free := fun (s : State) => s.freeOp o
  match o.purpose with
  | .check b =>
    let s := free s
    match Tab.find s.zne.erases b with
    | some j =>
      if j.st ≠ .checking then s
      else if x.code = 0 ∧ zeros ≤ s.fld F.ZNE_ERASECFG_ZEROMAX then
        if j.left ≤ 1 then s.eraseClearing j
        else s.zn fun z => { z with erases := Tab.set z.erases b { j with left := j.left - 1 } }
      else s.checkFailed j zeros
    | none => s
  | p =>
    let verifies : Bool := match p with
      | .verify _ _ => true
      | .jobVerify _ => true
      | _ => false
    if x.code = 0 then o.cws.foldl (fun s c => s.readData x c) s
    else if x.code = 1 then
      let s := free s
      o.cws.foldl (fun s c =>
        if o.gone.contains c.1 || !s.wanted o c.2 then s
        else if verifies then s.eraseCw o c true false
        else s.climb o c) s
    else if verifies then (free s).verifyAborted o
    else (free s).readAborted o

/-! ### Programs and erases -/

/-- Bytes that an operation programmed or erased count for the Endurance Group of its block (R4, R189, assumption 72). -/
def State.mediaCount (s : State) (o : DieOp) (kind n : Nat) : State := s.smartAdd (smartKey (groupFn (s.setOfBlk o.blk)) kind) n

/-- A program's DONE (R123, R139, R210). -/
def State.programDone (s : State) (x : Done) : State :=
  let o := x.op
  match o.purpose with
  | .prog k m =>
    match s.stripe k with
    | none => s
    | some t =>
      let s := if x.code = 0 then s.mediaCount o 12 (if o.slc then s.stageCps * 4096 else s.cps * 4096) else s
      if (t.members.getD m ⟨0, .idle, false, 0⟩).blk ≠ o.blk then s
      else if x.code = 0 then
        if t.verify then (s.setMember k m .verifying).verifyRead o.blk o.slice o.slc (.verify k m) o.ten
        else s.memberPassed k m
      else s.memberFailed k m (x.code = 1)
  | .jobProg j =>
    match s.job j with
    | none => s
    | some y =>
      let s := if x.code = 0 then s.mediaCount o 12 (if o.slc then s.stageCps * 4096 else s.cps * 4096) else s
      if y.new_ ≠ some o.blk then s
      else if x.code = 0 then (s.modJob j fun y => { y with st := .verify }).verifyRead o.blk o.slice o.slc (.jobVerify j) o.ten
      else s.jobRestart j (x.code = 1)
  | _ => s

/-- An erase's DONE (R210, R238, R442): the check follows; a failed or reset erase is a grown defect; one that was
interrupted otherwise is issued again from its ledger entry. -/
def State.eraseDone (s : State) (x : Done) : State :=
  match x.op.purpose with
  | .erase b =>
    match Tab.find s.zne.erases b with
    | none => s
    | some j =>
      if j.st ≠ .erasing then s
      else if x.code = 0 then (s.mediaCount x.op 13 (if (s.blk b).slc then s.blockBytes / 4 else s.blockBytes)).eraseChecked j
      else if x.code = 1 then s.eraseLost j 1
      else if (x.code = 4 ∧ x.detail ≠ 0xFE) ∨ x.code = 5 then s.eraseLost j 1
      else if s.power.loss.isSome then s
      else s.issueErase j
  | _ => s

/-- The suspended operation resumes where R101 says so (RESUME_OPERATION). -/
def State.resumeAfter (s : State) (d : Nat) : State :=
  if (s.die d).active.isNone ∧ s.resumeDue d = true ∧ (s.power.loss.isSome ∨ s.mayResume d = true) then s.resumeOp d else s

/-- DIE_OP_DONE: the oldest DONE of a die reaches ZNE (R210). `zeros` is the highest count of zero bits that a read of
an erase check found in a codeword (R239). -/
def execDieOpDone (d : DieId) (zeros : BitVec 16) (s : State) : Host.Outcome State Fault Refusal :=
  match s.zne.dones.find? (fun x => x.die == d.val) with
  | none => .next s
  | some x =>
    let s := s.zn fun z => { z with dones := z.dones.erase x }
    let s := if x.code = 5 ∧ x.op.counted = false then s.countReset d.val false
      else if x.code = 4 ∧ x.detail ≠ 0xFE ∧ x.op.counted = false then s.countReset d.val true
      else s
    let s := match x.op.kind with
      | .read => s.readDone x zeros.toNat
      | .program => s.programDone x
      | .erase => s.eraseDone x
      | .offset => match x.op.purpose with
        | .offset v => if x.code = 0 then s.modDie d.val fun y => { y with rdset := v } else s
        | _ => s
      | .other => s
    .next (s.resumeAfter d.val).returnReleased.showPower

/-- HUSK_CLOSE_ENTRY_ACK: MRM acknowledged the close entry of a record (R130 steps 5 and 6). -/
def execHuskCloseEntryAck (r : Fin 6400) (s : State) : Host.Outcome State Fault Refusal :=
  match s.zne.stripes.find? (fun e => e.2.record = some r.val) with
  | none => .next s
  | some (k, t) => if t.closing then .next (s.closeStripe k t) else .next s

/-! ### Late operations (R113, R114) -/

/-- Watchdog of an operation in its pod: each resume adds the suspend time (R113). -/
def State.opWatch (s : State) (o : DieOp) : Nat := s.watchNs (s.predNs o) + o.suspends * s.suspNs o

/-- Hard limit of an operation, measured as its watchdog is (R113, R114). -/
def State.opHard (s : State) (o : DieOp) : Nat := hardNs (s.predNs o) + o.suspends * s.suspNs o

/-- A read is late: step 4 serves it, the late member an erasure (R114). -/
def State.lateRead (s : State) (o : DieOp) : State :=
  match o.purpose with
  | .helper k m => (s.eraseMember k m false).sweepFailed
  | _ => o.cws.foldl (fun s c =>
      if (s.reconOf o c).isSome || !s.wanted o c.2 || (o.reconFor c.2).isNone then s else s.eraseCw o c false true) s

/-- WATCHDOG_EXPIRY: an operation, or a suspend of one, exceeds 2 × P + MARGIN (R113, R114). -/
def execWatchdogExpiry (d : DieId) (s : State) : Host.Outcome State Fault Refusal :=
  match (s.die d.val).active with
  | none => .next s
  | some p =>
    let sp := s.suspNs p.op
    if p.op.isDirect then .next s
    else if p.suspReq ∧ p.suspLate = false ∧ s.watchNs sp ≤ s.now - p.suspAt then
      let s := s.modDie d.val fun x => { x with active := x.active.map fun p => { p with suspLate := true } }
      .next (s.countExpiry d.val p.op sp)
    else if p.op.late = false ∧ s.opWatch p.op ≤ s.podTime p then
      let s := s.modDie d.val fun x => { x with active := x.active.map fun p => { p with op := { p.op with late := true } } }
      let s := s.countExpiry d.val p.op (s.predNs p.op)
      .next (if p.op.kind = .read then s.lateRead p.op else s)
    else .next s

/-- HARD_LIMIT_EXPIRY: an operation, or a suspend, has no completion by 4 × P + 1,000 µs, and the LUN is reset with event
0x0207 (R114, R120, R442). -/
def execHardLimitExpiry (d : DieId) (s : State) : Host.Outcome State Fault Refusal :=
  match (s.die d.val).active with
  | none => .next s
  | some p =>
    if p.abort ∨ p.op.isDirect = true then .next s
    else if s.opHard p.op ≤ s.podTime p ∨ (p.suspReq = true ∧ hardNs (s.suspNs p.op) ≤ s.now - p.suspAt) then
      .next ((s.znePost 0x0207 [(11, d.val), (4, p.op.opc)] p.op.ten).lunReset d.val)
    else .next s

/-- ABORT_DONE_TIMEOUT: no DONE has arrived 10 ms after an abort; a failed LUN reset is counted, once (R442). -/
def execAbortDoneTimeout (d : DieId) (s : State) : Host.Outcome State Fault Refusal :=
  match (s.die d.val).active with
  | none => .next s
  | some p =>
    if p.abort ∧ p.op.counted = false ∧ 10000000 ≤ s.now - p.abortAt then
      let s := s.modDie d.val fun x => { x with active := x.active.map fun p => { p with op := { p.op with counted := true } } }
      .next (s.countReset d.val false)
    else .next s

end Sys2Proof.Machine
end

