-- ==== Sys2Proof/Machine/Lpe.lean ====
section
/-! DEFINITION. The Loop Engine: sample boundaries, the control law, slot states and plausibility (R156 to R174). -/

namespace Sys2Proof.Machine

/-- Change what LPE holds. -/
def State.lp (s : State) (f : Lpe → Lpe) : State := { s with lpe := f s.lpe }

/-- A slot that has never run. -/
def LpeSlot.empty : LpeSlot := ⟨0, 0, 0, 0, true, 0⟩

/-- A loop slot. -/
def State.lpeSlot (s : State) (k : Nat) : LpeSlot := Tab.getD s.lpe.slots k LpeSlot.empty

/-- Change a loop slot. -/
def State.modLpe (s : State) (k : Nat) (f : LpeSlot → LpeSlot) : State :=
  s.lp fun l => { l with slots := Tab.modify l.slots k LpeSlot.empty f }

/-- LPE posts an event about a slot; its tenancy is t for slots 0 to 127 (R174). -/
def State.lpePost (s : State) (k id : Nat) (items : List (Nat × Nat)) : State :=
  s.post 0x09 id ((8, k) :: items) (if k < 128 then k else 0xFF)

/-- LPE window offset of a slot's register (R173): the register offset of events 0x0503 and 0x0504 (DESIGN CHOICE, assumption 85). -/
def slotOff (k off : Nat) : Nat := 0x20000 + k * 0x40 + off

/-- A signed 16-bit field. -/
def s16 (v : Nat) : Int := if v < 32768 then v else (v : Int) - 65536

/-- Clamp to -32768 to 32767 (R163 sat15). -/
def sat15 (x : Int) : Int := max (-32768) (min 32767 x)

/-- The 16 bits of a signed value. -/
def bits16 (x : Int) : Nat := (x % 65536).toNat

/-- An output goes to its destination at once (R156, R157, R164). -/
def State.lpeOut (s : State) (k u lvl ra : Nat) : State :=
  let s := ((s.setFld (F.LPE_OUT_U k) u).setFld (F.LPE_OUT_LVL k) lvl).setFld (F.LPE_OUT_RA k) ra
  if k < 128 then ((s.setFld (F.ZNE_TGOV_BGTOK k) u).setFld (F.ZNE_TGOV_SUSPLVL k) lvl).setFld (F.ZNE_TGOV_RAEN k) ra
  else if k < 144 then s.setFld (F.ZNE_SGOV_BGTOK (k - 128)) u
  else if k < 146 then s.showPower
  else s

/-- State of a slot: 0 OPEN, 1 CLOSED, 2 FAULTED (R166). -/
def State.lpeState (s : State) (k : Nat) : Nat := s.fld (F.LPE_SCTL_STATE k)

/-- A slot changes state; LPE_STAT counts the CLOSED ones. -/
def State.setLpeState (s : State) (k v : Nat) : State :=
  let s := s.setFld (F.LPE_SCTL_STATE k) v
  s.setFld F.LPE_STAT_CLOSED ((List.range 160).filter fun j => s.lpeState j = 1).length

/-- LPE_HOLD takes values. -/
def State.setHold (s : State) (k u lvl ra : Nat) : State :=
  ((s.setFld (F.LPE_HOLD_U k) u).setFld (F.LPE_HOLD_LVL k) lvl).setFld (F.LPE_HOLD_RA k) ra

/-- The register offset that makes a close invalid, none when it is valid (R168). -/
def State.closeBad (s : State) (k : Nat) : Option Nat :=
  let lo := s.fld (F.LPE_ULIM_UMIN k)
  let hi := s.fld (F.LPE_ULIM_UMAX k)
  let safe := s.fld (F.LPE_SAFE_USAFE k)
  if hi < lo then some 0x10
  else if safe < lo ∨ hi < safe then some 0x14
  else if 17 < s.fld (F.LPE_FFG_MODEL k) ∨ bit (s.fld F.LPE_MODELV_LOADED) (s.fld (F.LPE_FFG_MODEL k)) = false then
    some 0x0C
  else if s.fld (F.LPE_MODE_RAMODE k) = 3 then some 0x20
  else none

/-- A pending command takes effect at a boundary (R166 to R168, SLOT_COMMAND_APPLY). -/
def State.applyCmd (s : State) (k : Nat) : State :=
  let cmd := (s.lpeSlot k).pend
  let old := s.lpeState k
  let s := (s.modLpe k fun x => { x with pend := 0 }).setFld (F.LPE_SCTL_PEND k) 0
  if cmd = 1 ∧ old ≠ 0 then
    let s := if old = 1 then s.setHold k (s.fld (F.LPE_OUT_U k)) (s.fld (F.LPE_OUT_LVL k)) (s.fld (F.LPE_OUT_RA k))
      else s.setHold k (s.fld (F.LPE_SAFE_USAFE k)) (s.fld (F.LPE_SAFE_SAFELVL k)) (s.fld (F.LPE_SAFE_SAFERA k))
    (s.setLpeState k 0).lpePost k 0x0502 [(2, old), (2, 0)]
  else if cmd = 2 ∧ old = 0 then
    match s.closeBad k with
    | some off => s.lpePost k 0x0503 [(24, slotOff k off)]
    | none =>
      let s := s.modLpe k fun x => { x with uq := s.fld (F.LPE_HOLD_U k) * 4096, first := true }
      ((s.setFld (F.LPE_SCTL_PLCNT k) 0).setLpeState k 1).lpePost k 0x0502 [(2, 0), (2, 1)]
  else s

/-! ### Measurements -/

/-- Valid sensor readings (R407). -/
def State.temps (s : State) : List Int :=
  ((List.range 24).filter fun i => s.flag (F.MGT_TEMP_VALID i) && !s.flag (F.MGT_TEMP_FAULT i)).map fun i =>
    s16 (s.fld (F.MGT_TEMP_T i))

/-- The highest of a list of readings. -/
def hottest : List Int → Option Int
  | [] => none
  | t :: ts => match hottest ts with
    | some u => some (max t u)
    | none => some t

/-- The lowest of a list of readings. -/
def coldest : List Int → Option Int
  | [] => none
  | t :: ts => match coldest ts with
    | some u => some (min t u)
    | none => some t

/-- The NVM Set of a slot, counted from 0: its own for 128 to 143; for a tenancy that of its zoned namespaces on this node, or the
one named in MODEL when they span several (R158); that set too for a tenancy that has none (DESIGN CHOICE, assumption 85). -/
def State.lpeSet (s : State) (k : Nat) : Nat :=
  if 128 ≤ k then k - 128
  else
    let sets := (s.hif.nss.filter fun e => e.2.ten = k && !e.2.conv && e.2.node = s.ownNode).map (·.2.set)
    match sets with
    | [] => s.fld (F.LPE_FFG_MODEL k)
    | x :: xs => if xs.all (· == x) then x else s.fld (F.LPE_FFG_MODEL k)

/-- q of a slot (R158): admitted reads of a tenancy, die reads queued in a set. -/
def State.lpeQ (s : State) (k : Nat) : Nat :=
  if k < 128 then (s.hif.slots.filter fun e => e.2.ten = k && e.2.opc = 0x02).length
  else if k < 144 then
    sumBy (fun e => if s.setOfRank (e.1 % 16) = k - 128 then (e.2.queue.filter fun o => o.kind = .read).length else 0) s.zne.dies
  else 0

/-- Occupied active pods and dies of a slot's set (R158 busy). -/
def State.lpeBusy (s : State) (k : Nat) : Nat × Nat :=
  let set := s.lpeSet k
  ((s.zne.dies.filter fun e => decide (s.setOfRank (e.1 % 16) = set) && e.2.active.isSome).length,
    s.fld F.ZNE_GEOM_CHANNELS * popcount 16 (s.rset set).ranks)

/-- Number of bits of a value (R169). -/
def bitLength (v : Nat) : Nat := if v = 0 then 0 else Nat.log2 v + 1

/-- The raw measurement of a slot over counts N and A; none when it is stale or, for the thermal slot, no sensor is valid
(R159, R171). -/
def State.lpeMeasure (s : State) (k n a : Nat) : Option Int :=
  if k < 144 then some (if n = 0 then 0 else (min 0x7FFF (a * 32768 / n) : Nat))
  else if k = 144 then (hottest s.temps).map sat15
  else if s.fld F.LPE_CFG_STALE ≤ Tab.getD s.lpe.ext k 0 then none
  else some (s16 (s.fld (F.LPE_EXTMEAS_Y (k - 145))))

/-- Controller islands that are not clock-gated: all while the device runs in ACTIVE, a number the spec leaves open
otherwise. -/
def State.islandsOn (s : State) : Nat × State :=
  if s.fld F.AON_PSSTAT_CUR = 0 ∧ s.power.loss.isNone then (176, s)
  else
    let (v, s) := s.drawFree
    (v % 177, s)

/-- The model's prediction for a slot (R169). -/
def State.lpeModel (s : State) (k q : Nat) : Int × State :=
  let (row, col, s) :=
    if k < 144 then
      let (occ, dies) := s.lpeBusy k
      (if dies = 0 then 0 else min 15 (occ * 16 / dies), min 15 (bitLength q), s)
    else if k = 144 then
      (min 15 (s.fld (F.LPE_OUT_U 144) / 4096), min 15 (((coldest s.temps).getD 0).toNat / 256 / 8), s)
    else if k = 145 then
      let (n, s) := s.islandsOn
      (min 15 (s.fld (F.LPE_OUT_U 145) / 4096), min 15 (n / 11), s)
    else (0, 0, s)
  let i := row * 16 + col
  let m := s.fld (F.LPE_FFG_MODEL k) * 128 + i / 2
  (s16 (if i % 2 = 0 then s.fld (F.LPE_MODEL_LO m) else s.fld (F.LPE_MODEL_HI m)), s)

/-! ### The control law (R163) -/

/-- One step of the law: from a slot and its sample to the slot and its output u, level and read-around. -/
def State.lawStep (s : State) (k : Nat) (x : LpeSlot) (y : Int) (q : Nat) : LpeSlot × Int × Nat × Nat × Nat :=
  let fsh := s.fld (F.LPE_FFG_FSH k)
  let yf := x.yf + (y - x.yf).tdiv (2 ^ fsh)
  let e := sat15 ((s.fld (F.LPE_SP_TARGET k) : Int) - yf)
  let ep := if x.first then e else x.ep
  let qp := if x.first then q else x.qp
  let acc := s16 (s.fld (F.LPE_GAIN_KP k)) * (e - ep) + s16 (s.fld (F.LPE_GAIN_KI k)) * e +
    s16 (s.fld (F.LPE_FFG_FF k)) * ((q : Int) - qp)
  let lo : Int := s.fld (F.LPE_ULIM_UMIN k) * 4096
  let hi : Int := s.fld (F.LPE_ULIM_UMAX k) * 4096
  let uq := max lo (min hi ((x.uq : Int) + acc * 2 ^ s.fld (F.LPE_FFG_GEXP k)))
  let d := -e
  let base := s.fld (F.LPE_MODE_BASELVL k)
  let lvl := if (s.fld (F.LPE_ESC_ESC2 k) : Int) < d then 3
    else if (s.fld (F.LPE_ESC_ESC1 k) : Int) < d then max base 2 else base
  let mode := s.fld (F.LPE_MODE_RAMODE k)
  let ra := if mode = 2 then (if (s.fld (F.LPE_ESC_ESC1 k) : Int) < d then 1 else 0) else mode % 2
  ({ x with uq := uq.toNat, yf := yf, ep := e, qp := q, first := false }, e, uq.toNat / 4096, lvl, ra)

/-- A slot faults (R166, R170): its safe values go out at once, with event 0x0501. -/
def State.lpeFault (s : State) (k : Nat) (yhat : Int) : State :=
  let s := (s.setLpeState k 2).bump (F.LPE_FAULTS_COUNT k)
  let s := s.lpeOut k (s.fld (F.LPE_SAFE_USAFE k)) (s.fld (F.LPE_SAFE_SAFELVL k)) (s.fld (F.LPE_SAFE_SAFERA k))
  s.lpePost k 0x0501 [(16, bits16 (s.lpeSlot k).yf), (16, bits16 yhat), (8, s.fld (F.LPE_PLAUS_PLN k))]

/-- The plausibility check after a step (R170). -/
def State.lpeCheck (s : State) (k : Nat) (stale : Bool) (q : Nat) : State :=
  let (yhat, s) := s.lpeModel k q
  let s := s.setFld (F.LPE_MEAS_YHAT k) (bits16 yhat)
  let pln := s.fld (F.LPE_PLAUS_PLN k)
  if pln = 0 then s.setFld (F.LPE_SCTL_PLCNT k) 0
  else if stale ∨ s.fld (F.LPE_PLAUS_BAND k) < ((s.lpeSlot k).yf - yhat).natAbs then
    let n := min (s.fld (F.LPE_SCTL_PLCNT k) + 1) 255
    let s := s.setFld (F.LPE_SCTL_PLCNT k) n
    if pln < n then s.lpeFault k yhat else s
  else s.setFld (F.LPE_SCTL_PLCNT k) 0

/-- Compute a CLOSED slot (LOOP_STEP, LOOP_OUTPUT_APPLY, PLAUSIBILITY_FAULT, MEASUREMENT_STALE). -/
def State.lpeStep (s : State) (k : Nat) : State :=
  if s.lpeState k ≠ 1 then s
  else
    let n := Tab.getD s.lpe.n k 0
    let a := Tab.getD s.lpe.a k 0
    let q := s.lpeQ k
    match s.lpeMeasure k n a with
    | none => s.lpeCheck k true q
    | some y =>
      let (x, e, u, lvl, ra) := s.lawStep k (s.lpeSlot k) y q
      let s := s.modLpe k fun _ => x
      let s := (s.setFld (F.LPE_MEAS_YF k) (bits16 x.yf)).setFld (F.LPE_ERR_E k) (bits16 e)
      let s := s.setFld (F.LPE_ERR_Q k) (min q 0xFFFF)
      let s := (s.setFld (F.LPE_CNT_N k) (min n 0xFFFF)).setFld (F.LPE_CNT_A k) (min a 0xFFFF)
      (s.lpeOut k u lvl ra).lpeCheck k false q

/-- The order of R160. -/
def slotOrder : List Nat := [144, 145] ++ List.range 128 ++ (List.range 16).map (128 + ·) ++ (List.range 14).map (146 + ·)

/-- The time of a computation over n CLOSED slots in ns: from 2.0 µs for one up to the bound of R160, a value the spec
leaves open within these limits (assumption 10). -/
def State.compTime (s : State) (n : Nat) : Nat × State :=
  if n = 0 then (0, s)
  else
    let (v, s) := s.drawFree
    (2000 + v % (238 * (n - 1) + 1), s)

/-- SAMPLE_BOUNDARY: a sample period has ended (R158 to R164). Token accounts are reloaded (R99), pending slot commands
take effect, and every CLOSED slot is computed, unless the last computation still runs (R161), sampling is off, or the
device is in DOZE or DEEP (R162). LPE_SAMPLES counts the boundaries at which LPE samples, and the staleness of an external measurement runs
at every boundary, in DOZE and DEEP too, from reset where its register was never written (DESIGN CHOICE, assumption 85). -/
def execSampleBoundary (s : State) : Host.Outcome State Fault Refusal :=
  if s.now < s.lpe.last + s.lpe.per * 1000 then .next s
  else
    let ext := (List.range 15).foldl (fun t i => Tab.modify t (145 + i) 0 (· + 1)) s.lpe.ext
    let gone := (List.range 15).filter fun i => decide (s.fld F.LPE_CFG_STALE ≤ Tab.getD ext (145 + i) 0)
    let new_ := gone.filter fun i => !s.lpe.gone.contains i
    let late := (s.now - s.lpe.last) / (s.lpe.per * 1000)
    let s := s.lp fun l => { l with
      last := l.last + late * (l.per * 1000), per := s.fld F.LPE_CFG_PERIOD, thr := [], tgt := none, ext := ext, gone := gone }
    let s := new_.foldl (fun (s : State) i => s.lpePost (145 + i) 0x0506 []) s
    let s := s.zn fun z => { z with tenTok := [], setTok := [] }
    let s := slotOrder.foldl (fun s k => if (s.lpeSlot k).pend = 0 then s else s.applyCmd k) s
    if s.flag F.LPE_CFG_RUN = false ∨ 2 ≤ s.fld F.AON_PSSTAT_CUR then .next (s.lp fun l => { l with n := [], a := [] })
    else
      let s := s.bump F.LPE_SAMPLES_COUNT
      if s.now < s.lpe.busyTill then
        .next ((s.bump F.LPE_MERGED_COUNT).post 0x09 0x0505
          [(12, s.fld F.LPE_STAT_CTIME), (8, s.fld F.LPE_STAT_CLOSED)])
      else
        let (t, s) := s.compTime (s.fld F.LPE_STAT_CLOSED)
        let s := (s.lp fun l => { l with busyTill := s.now + t }).setFld F.LPE_STAT_CTIME (t / 100)
        let s := slotOrder.foldl (fun s k => s.lpeStep k) s
        .next (s.lp fun l => { l with n := [], a := [] })

/-- A command written to LPE_SCTL.CMD waits for the next boundary (R167). -/
def State.slotCmd (s : State) (k c : Nat) : State :=
  (s.modLpe k fun x => { x with pend := c }).setFld (F.LPE_SCTL_PEND k) 1

/-- SLOT_OPEN: a write of CMD = open (R166, R167). -/
def execSlotOpen (k : Fin 160) (s : State) : Host.Outcome State Fault Refusal := .next (s.slotCmd k.val 1)

/-- SLOT_CLOSE: a write of CMD = close (R166 to R168). -/
def execSlotClose (k : Fin 160) (s : State) : Host.Outcome State Fault Refusal := .next (s.slotCmd k.val 2)

/-- A write of a coefficient register while the slot is not OPEN is ignored, with event 0x0504 (R168). -/
def State.coefRefused (s : State) (k off : Nat) : State := s.lpePost k 0x0504 [(24, slotOff k off)]

/-- LPE_HOLD_WRITE: in an OPEN slot the written values go to the destination at once (R166); otherwise the write is
ignored (R168). -/
def execLpeHoldWrite (k : Fin 160) (w : W32) (s : State) : Host.Outcome State Fault Refusal :=
  if s.lpeState k.val = 0 then
    let u := bits w.toNat 0 16
    let lvl := bits w.toNat 16 2
    let ra := bits w.toNat 18 1
    .next ((s.setHold k.val u lvl ra).lpeOut k.val u lvl ra)
  else .next (s.coefRefused k.val 0x24)

/-- LPE_EXTMEAS_WRITE: a write of slot 145 + i's measurement ends its staleness (R171). -/
def execLpeExtmeasWrite (i : Fin 15) (y : BitVec 16) (s : State) : Host.Outcome State Fault Refusal :=
  let k := 145 + i.val
  .next ((s.setFld (F.LPE_EXTMEAS_Y i.val) y.toNat).lp fun l => { l with
    ext := Tab.set l.ext k 0, gone := l.gone.filter fun j => j != i.val })

/-- A tenancy's slot is opened with the reset values of LPE_HOLD (R157, R166). -/
def State.lpeDeleted (s : State) (t : Nat) : State :=
  let s := (s.modLpe t fun x => { x with pend := 0 }).setFld (F.LPE_SCTL_PEND t) 0
  ((s.setLpeState t 0).setHold t 0xFFFF 2 1).lpeOut t 0xFFFF 2 1

/-- The next step of every slot takes its error and queue from its own sample (R162). -/
def State.lpeWake (s : State) : State :=
  s.lp fun l => { l with slots := l.slots.map fun e => (e.1, { e.2 with first := true }) }

end Sys2Proof.Machine
end

