-- ==== Sys2Proof/Machine/Kazino.lean ====
section
/-! DEFINITION. The Kazino channel sequencers (R195 to R218): every instruction, the pod interface, the program guard,
faults, start and stop. Each instruction command names its channel, how its word was fetched and its fields; it acts only
where the sequencer runs and the word at its PC is that instruction. -/

namespace Sys2Proof.Machine

/-! ### The sequencer's state -/

/-- The sequencer of a channel. -/
def State.seq (s : State) (n : Nat) : Seq := Tab.getD s.seqs n Seq.empty

/-- Change a sequencer. -/
def State.modSeq (s : State) (n : Nat) (f : Seq → Seq) : State := { s with seqs := Tab.set s.seqs n (f (s.seq n)) }

/-- Replace element i of a list. -/
def listSet {α : Type} : List α → Nat → α → List α
  | [], _, _ => []
  | _ :: xs, 0, a => a :: xs
  | x :: xs, i + 1, a => x :: listSet xs i a

/-- k[i]; k0 reads as 0 (R195). -/
def Seq.reg (q : Seq) (i : Nat) : W32 := if i = 0 then 0 else q.k.getD i 0

/-- Write k[i]; k0 discards writes (R195). -/
def Seq.setReg (q : Seq) (i : Nat) (v : W32) : Seq := if i = 0 then q else { q with k := listSet q.k i v }

/-- p[i]. -/
def Seq.pred (q : Seq) (i : Nat) : Bool := bit q.p.toNat i

/-- Write p[i]. -/
def Seq.setPred (q : Seq) (i : Nat) (b : Bool) : Seq :=
  { q with p := BitVec.ofNat 4 (if b then setBit q.p.toNat i else clrBit q.p.toNat i) }

/-- The channel cycle count: the time of the part in cycles of TICK, or where the sequencer's instructions end. -/
def State.chNow (s : State) (n : Nat) : Nat := max (s.seq n).till (s.now * s.fld (F.CH_TICK_TICK n) / 1000)

/-- Instructions of a sequencer take cycles. -/
def State.chCost (s : State) (n cycles : Nat) : State := s.modSeq n fun q => { q with till := s.chNow n + cycles }

/-- Cycles left on the timer (R211). -/
def State.timer (s : State) (n : Nat) : Nat :=
  match (s.seq n).timerAt with
  | some t => t - s.chNow n
  | none => 0

/-- A count in a unit as cycles: cycles, ns or µs, clamped to 2^32 − 1; unit 3 is none (R205). -/
def State.toCycles (s : State) (n count unit_ : Nat) : Option Nat :=
  let t := s.fld (F.CH_TICK_TICK n)
  match unit_ with
  | 0 => some (min count 0xFFFFFFFF)
  | 1 => some (min ((count * t + 999) / 1000) 0xFFFFFFFF)
  | 2 => some (min (count * t) 0xFFFFFFFF)
  | _ => none

/-- Move the program counter (R203: it increments modulo 4,096). -/
def State.setPc (s : State) (n pc : Nat) : State := s.setFld (F.CH_SEQSTAT_PC n) (pc % 4096)

/-- The instruction after this one. -/
def State.nextPc (s : State) (n : Nat) : State := s.setPc n (s.fld (F.CH_SEQSTAT_PC n) + 1)

/-- A channel island posts an event (R223). -/
def State.chPost (s : State) (n id : Nat) (items : List (Nat × Nat)) : State := s.post (0x30 + n) id items

/-! ### Completions and faults -/

/-- The pod of the op in hand. -/
def State.handPod (s : State) (n : Nat) : Option Pod :=
  match (s.seq n).hand with
  | some h => if h.susp then (s.die (n * 16 + h.rank)).susp else (s.die (n * 16 + h.rank)).active
  | none => none

/-- OPC of a descriptor. -/
def Pod.opc (p : Pod) : Nat := bits ((p.desc.getD 0 0).toNat) 0 4

/-- OPID of a descriptor. -/
def Pod.opid (p : Pod) : Nat := bits ((p.desc.getD 7 0).toNat) 0 16

/-- OPID of the op in hand, 0 when there is none. -/
def State.handOpid (s : State) (n : Nat) : Nat :=
  match s.handPod n with
  | some p => p.opid
  | none => 0

/-- Rank of the op in hand, 0xF when there is none (R212). -/
def State.handRank (s : State) (n : Nat) : Nat :=
  match (s.seq n).hand with
  | some h => h.rank
  | none => 0xF

/-- The DONE of a pod's op: a direct op's goes to CH_DSTAT (R218), any other on its way to ZNE; the pod is freed (R208,
R209). The lateness it carries for event 0x0202 is measured from the expiry of the op's watchdog (DESIGN CHOICE, assumption 87). -/
def State.podDone (s : State) (n rank : Nat) (susp : Bool) (p : Pod) (code detail : Nat) : State :=
  let d := n * 16 + rank
  let late := s.podTime p - s.opWatch p.op
  let s := s.modDie d fun x => if susp then { x with susp := none } else { x with active := none }
  let s := s.bump (F.CH_OPS_COUNT n)
  let s := s.modSeq n fun q => { q with guarded := Tab.erase q.guarded p.op.id }
  let s :=
    if p.op.isDirect then
      let s := ((s.setFld (F.CH_DCTL_BUSY n) 0).setFld (F.CH_DCTL_DONE n) 1).setFld (F.CH_DSTAT_STATUS n) (code + detail * 256)
      s.setFld (F.CH_DSTAT_OPID n) p.opid
    else s.zn fun z => { z with dones := z.dones ++ [⟨d, p.op, code, detail, late⟩] }
  (s.showPods d).showPower

/-- The op in hand is done. -/
def State.handDone (s : State) (n code detail : Nat) : State :=
  match (s.seq n).hand, s.handPod n with
  | some h, some p => (s.podDone n h.rank h.susp p code detail).modSeq n fun q => { q with hand := none }
  | _, _ => s

/-- A fault (SEQUENCER_FAULT, R216). -/
def State.seqFault (s : State) (n code : Nat) : State :=
  let pc := s.fld (F.CH_SEQSTAT_PC n)
  let s := ((s.setFld (F.CH_SEQSTAT_STATE n) 3).setFld (F.CH_SEQSTAT_FCODE n) code).setFld (F.CH_SEQSTAT_FPC n) pc
  let s := (s.bump (F.CH_FAULTS_COUNT n)).chPost n 0x0440 [(4, code), (12, pc), (4, s.handRank n), (16, s.handOpid n)]
  let s := s.modSeq n fun q => { q with faultAt := s.now, burst := none }
  s.handDone n 0x07 code

/-! ### Fetch (R199, R203) -/

/-- The word of an instruction (R203). -/
def kzWord (op rd rs imm : Nat) : Nat := op * 2 ^ 26 + rd * 2 ^ 22 + rs * 2 ^ 18 + imm

/-- The opcodes of R203. -/
def kzOpcodes : List Nat :=
  [0x00, 0x04, 0x05, 0x06, 0x07, 0x08, 0x09, 0x0A, 0x10, 0x11, 0x12, 0x13, 0x14, 0x15, 0x16, 0x17, 0x18, 0x19, 0x20, 0x21,
   0x22, 0x23, 0x28, 0x29, 0x2C, 0x2D, 0x30, 0x34, 0x35]

/-- A corrected instruction word is counted, and reported the first time (R199). -/
def State.imemCe (s : State) (n : Nat) : State :=
  let pc := s.fld (F.CH_SEQSTAT_PC n)
  let s := s.bump (F.CH_IMEMCE_COUNT n)
  if pc ∈ (s.seq n).ceSeen then s
  else (s.modSeq n fun q => { q with ceSeen := pc :: q.ceSeen }).chPost n 0x0442 [(12, pc)]

/-- Fetch and execute: a double-bit error is fault 2, an illegal opcode fault 1, an illegal POST kind fault 9; the body runs
where the fetched word is the instruction's. A sequencer waiting at POP fetches it again. -/
def State.kz (s : State) (n : Nat) (f : Fetch) (w : Nat) (body : State → State) : State :=
  let st := s.fld (F.CH_SEQSTAT_STATE n)
  if ¬ (st = 1 ∨ (st = 2 ∧ w / 2 ^ 26 = 0x28)) then s
  else
    let x := s.fld (F.CH_IMEM_WORD n (s.fld (F.CH_SEQSTAT_PC n)))
    let seen := if f = .single then s.imemCe n else s
    match f with
    | .double => s.seqFault n 2
    | _ =>
      if x / 2 ^ 26 ∉ kzOpcodes then seen.seqFault n 1
      else if x / 2 ^ 26 = 0x29 ∧ bits x 12 2 = 3 then seen.seqFault n 9
      else if x ≠ w then s
      else body seen

/-- Any bus instruction but DIN and DOUT ends a burst. -/
def State.endBurst (s : State) (n : Nat) : State := s.modSeq n fun q => { q with burst := none }

/-- A bus instruction: fault 5 while no die is selected (R203). -/
def State.onBus (s : State) (n : Nat) (body : State → State) : State :=
  if (s.seq n).sel.isNone then s.seqFault n 5 else body s

/-- A plain instruction that costs cycles, changes registers and falls through. -/
def State.plain (s : State) (n cost : Nat) (f : Seq → Seq) : State := ((s.modSeq n f).chCost n cost).nextPc n

/-! ### Registers and control flow -/

/-- LDI (R203). -/
def execLdi (n : Chan) (f : Fetch) (rd : BitVec 4) (imm : BitVec 18) (s : State) : Host.Outcome State Fault Refusal :=
  .next <| s.kz n f (kzWord 0x10 rd.toNat 0 imm.toNat) fun s => s.plain n 1 fun q => q.setReg rd.toNat (imm.zeroExtend 32)

/-- LDIH (R203): bits 31..18 are loaded, bits 17..0 unchanged. -/
def execLdih (n : Chan) (f : Fetch) (rd : BitVec 4) (imm : BitVec 18) (s : State) : Host.Outcome State Fault Refusal :=
  .next <| s.kz n f (kzWord 0x11 rd.toNat 0 imm.toNat) fun s => s.plain n 1 fun q =>
    let v := bits (q.reg rd.toNat).toNat 0 18 + bits imm.toNat 0 14 * 2 ^ 18
    q.setReg rd.toNat (BitVec.ofNat 32 v)

/-- A special register of MOV (R204). -/
def State.spr (s : State) (n i : Nat) : Nat :=
  match i with
  | 0x00 => s.timer n
  | 0x01 => s.fld (F.CH_TICK_TICK n)
  | 0x02 => n
  | 0x03 => s.chNow n % 2 ^ 32
  | 0x04 => (s.seq n).item
  | 0x05 => (s.seq n).status
  | 0x06 => b2n (s.seq n).refused
  | 0x07 => s.fld (F.CH_ISA_VER n)
  | _ => 0

/-- MOV (R203, R204). -/
def execMov (n : Chan) (f : Fetch) (rd rs : BitVec 4) (imm : BitVec 18) (s : State) : Host.Outcome State Fault Refusal :=
  .next <| s.kz n f (kzWord 0x12 rd.toNat rs.toNat imm.toNat) fun s =>
    let v := if bit imm.toNat 17 then BitVec.ofNat 32 (s.spr n (bits imm.toNat 0 8)) else (s.seq n).reg rs.toNat
    s.plain n 1 fun q => q.setReg rd.toNat v

/-- An ALU operation: its result and what COND 3 tests (R204), from the two operands. -/
def aluAdd (a b : W32) : W32 × Bool := (a + b, decide (2 ^ 32 ≤ a.toNat + b.toNat))
@[inherit_doc aluAdd] def aluSub (a b : W32) : W32 × Bool := (a - b, decide (a.toNat < b.toNat))
@[inherit_doc aluAdd] def aluAnd (a b : W32) : W32 × Bool := (a &&& b, false)
@[inherit_doc aluAdd] def aluOr (a b : W32) : W32 × Bool := (a ||| b, false)
@[inherit_doc aluAdd] def aluXor (a b : W32) : W32 × Bool := (a ^^^ b, false)
@[inherit_doc aluAdd] def aluShl (a b : W32) : W32 × Bool :=
  let k := b.toNat % 32
  (a <<< k, decide (2 ^ 32 ≤ a.toNat * 2 ^ k))
@[inherit_doc aluAdd] def aluShr (a b : W32) : W32 × Bool :=
  let k := b.toNat % 32
  (a >>> k, a.toNat % 2 ^ k != 0)

/-- Operands, result and predicate of an ALU instruction (R204). -/
def Seq.alu (q : Seq) (op : W32 → W32 → W32 × Bool) (rd rs imm : Nat) : Seq :=
  let r := if bit imm 17 then op (q.reg rs) (BitVec.ofNat 32 (bits imm 0 12)) else op (q.reg rd) (q.reg rs)
  let q := q.setReg rd r.1
  if bit imm 16 then
    q.setPred (bits imm 14 2) <| match bits imm 12 2 with
      | 0 => decide (r.1 = 0)
      | 1 => decide (r.1 ≠ 0)
      | 2 => bit r.1.toNat 31
      | _ => r.2
  else q

/-- An ALU instruction of an opcode. -/
def State.aluOp (s : State) (n : Nat) (f : Fetch) (opc : Nat) (op : W32 → W32 → W32 × Bool) (rd rs imm : Nat) : State :=
  s.kz n f (kzWord opc rd rs imm) fun s => s.plain n 1 fun q => q.alu op rd rs imm

/-- ADD (R204). -/
def execAdd (n : Chan) (f : Fetch) (rd rs : BitVec 4) (imm : BitVec 18) (s : State) : Host.Outcome State Fault Refusal :=
  .next (s.aluOp n f 0x13 aluAdd rd.toNat rs.toNat imm.toNat)

/-- SUB (R204). -/
def execSub (n : Chan) (f : Fetch) (rd rs : BitVec 4) (imm : BitVec 18) (s : State) : Host.Outcome State Fault Refusal :=
  .next (s.aluOp n f 0x14 aluSub rd.toNat rs.toNat imm.toNat)

/-- AND (R204). -/
def execAnd (n : Chan) (f : Fetch) (rd rs : BitVec 4) (imm : BitVec 18) (s : State) : Host.Outcome State Fault Refusal :=
  .next (s.aluOp n f 0x15 aluAnd rd.toNat rs.toNat imm.toNat)

/-- OR (R204). -/
def execOr (n : Chan) (f : Fetch) (rd rs : BitVec 4) (imm : BitVec 18) (s : State) : Host.Outcome State Fault Refusal :=
  .next (s.aluOp n f 0x16 aluOr rd.toNat rs.toNat imm.toNat)

/-- XOR (R204). -/
def execXor (n : Chan) (f : Fetch) (rd rs : BitVec 4) (imm : BitVec 18) (s : State) : Host.Outcome State Fault Refusal :=
  .next (s.aluOp n f 0x17 aluXor rd.toNat rs.toNat imm.toNat)

/-- SHL (R203, R204). -/
def execShl (n : Chan) (f : Fetch) (rd rs : BitVec 4) (imm : BitVec 18) (s : State) : Host.Outcome State Fault Refusal :=
  .next (s.aluOp n f 0x18 aluShl rd.toNat rs.toNat imm.toNat)

/-- SHR (R203, R204). -/
def execShr (n : Chan) (f : Fetch) (rd rs : BitVec 4) (imm : BitVec 18) (s : State) : Host.Outcome State Fault Refusal :=
  .next (s.aluOp n f 0x19 aluShr rd.toNat rs.toNat imm.toNat)

/-- BR (R203). -/
def execBr (n : Chan) (f : Fetch) (imm : BitVec 18) (s : State) : Host.Outcome State Fault Refusal :=
  .next <| s.kz n f (kzWord 0x20 0 0 imm.toNat) fun s => (s.chCost n 2).setPc n (bits imm.toNat 0 12)

/-- BRC (R203, R205). -/
def execBrc (n : Chan) (f : Fetch) (imm : BitVec 18) (s : State) : Host.Outcome State Fault Refusal :=
  .next <| s.kz n f (kzWord 0x21 0 0 imm.toNat) fun s =>
    if (s.seq n).pred (bits imm.toNat 12 2) = bit imm.toNat 14 then (s.chCost n 2).setPc n (bits imm.toNat 0 12)
    else (s.chCost n 1).nextPc n

/-- CALL (R203): a ninth entry is fault 3. -/
def execCall (n : Chan) (f : Fetch) (imm : BitVec 18) (s : State) : Host.Outcome State Fault Refusal :=
  .next <| s.kz n f (kzWord 0x22 0 0 imm.toNat) fun s =>
    if 8 ≤ (s.seq n).stack.length then s.seqFault n 3
    else
      let ra := (s.fld (F.CH_SEQSTAT_PC n) + 1) % 4096
      ((s.modSeq n fun q => { q with stack := ra :: q.stack }).chCost n 2).setPc n (bits imm.toNat 0 12)

/-- RET (R203): an empty stack is fault 4. -/
def execRet (n : Chan) (f : Fetch) (s : State) : Host.Outcome State Fault Refusal :=
  .next <| s.kz n f (kzWord 0x23 0 0 0) fun s =>
    match (s.seq n).stack with
    | [] => s.seqFault n 4
    | ra :: t => ((s.modSeq n fun q => { q with stack := t }).chCost n 2).setPc n ra

/-- HALT (R203): the sequencer stops; an op in hand is fault 8. -/
def execHalt (n : Chan) (f : Fetch) (s : State) : Host.Outcome State Fault Refusal :=
  .next <| s.kz n f 0 fun s =>
    if (s.seq n).hand.isSome then s.seqFault n 8
    else (s.setFld (F.CH_SEQSTAT_STATE n) 0).chPost n 0x0443 [(2, 0), (32, s.fld (F.CH_UCVER_PVER n))]

/-- WAIT (R203, R205): k[rs] + count units, idle. It drives nothing, so that it needs no die and ends no burst (DEDUCED, assumption 73). -/
def execWait (n : Chan) (f : Fetch) (rs : BitVec 4) (imm : BitVec 18) (s : State) : Host.Outcome State Fault Refusal :=
  .next <| s.kz n f (kzWord 0x09 0 rs.toNat imm.toNat) fun s =>
    match s.toCycles n (((s.seq n).reg rs.toNat).toNat + bits imm.toNat 0 16) (bits imm.toNat 16 2) with
    | some c => (s.chCost n c).nextPc n
    | none => s.seqFault n 6

/-- TSTART (R211). -/
def execTstart (n : Chan) (f : Fetch) (rs : BitVec 4) (imm : BitVec 18) (s : State) : Host.Outcome State Fault Refusal :=
  .next <| s.kz n f (kzWord 0x2C 0 rs.toNat imm.toNat) fun s =>
    match s.toCycles n (((s.seq n).reg rs.toNat).toNat + bits imm.toNat 0 16) (bits imm.toNat 16 2) with
    | some c =>
      let s := s.chCost n 1
      (s.modSeq n fun q => { q with timerAt := some (s.chNow n + c) }).nextPc n
    | none => s.seqFault n 6

/-- TWAIT (R211): the sequencer is held for what is left on the timer, which then reads 0. -/
def execTwait (n : Chan) (f : Fetch) (s : State) : Host.Outcome State Fault Refusal :=
  .next <| s.kz n f (kzWord 0x2D 0 0 0) fun s =>
    (((s.chCost n (s.timer n)).modSeq n fun q => { q with timerAt := none })).nextPc n

/-- TIMER_EXPIRY: the countdown timer reaches 0 and stops there (R211). -/
def execTimerExpiry (n : Chan) (s : State) : Host.Outcome State Fault Refusal :=
  .next (if s.timer n = 0 then s.modSeq n fun q => { q with timerAt := none } else s)

/-- EVT (R212): an ID outside 0x0460 to 0x047F is fault 6. -/
def execEvt (n : Chan) (f : Fetch) (rd rs : BitVec 4) (imm : BitVec 18) (s : State) : Host.Outcome State Fault Refusal :=
  .next <| s.kz n f (kzWord 0x30 rd.toNat rs.toNat imm.toNat) fun s =>
    let id := bits imm.toNat 0 16
    if id < 0x0460 ∨ 0x047F < id then s.seqFault n 6
    else
      let q := s.seq n
      (((s.chPost n id [(32, (q.reg rd.toNat).toNat), (32, (q.reg rs.toNat).toNat), (4, s.handRank n),
        (16, s.handOpid n)]).chCost n 1).nextPc n)

/-! ### The bus -/

/-- Dies of a channel as SEL knows them: the geometry's, or 16 while no geometry is written. -/
def State.chanDies (s : State) : Nat := if s.fld F.ZNE_GEOM_DPC = 0 then 16 else s.fld F.ZNE_GEOM_DPC

/-- SEL (R203): the rank's chip enable is asserted and its LUN recorded; a rank the channel lacks is fault 6. -/
def execSel (n : Chan) (f : Fetch) (rs : BitVec 4) (imm : BitVec 18) (s : State) : Host.Outcome State Fault Refusal :=
  .next <| s.kz n f (kzWord 0x04 0 rs.toNat imm.toNat) fun s =>
    let r := bits ((s.seq n).reg rs.toNat).toNat (bits imm.toNat 0 5) 4
    if s.chanDies ≤ r then s.seqFault n 6
    else s.plain n Config.selCycles fun q => { q with sel := some r, ce := r % 2, lun := r / 2, burst := none }

/-- Cycles of a command or address cycle. -/
def State.caCyc (s : State) (n : Nat) : Nat := s.fld (F.CH_BUSCFG_CACYC n)

/-- Address cycles collected since a setup byte are latched as a row (R214). -/
def State.latchRow (s : State) (n : Nat) : State :=
  let k := s.fld (F.CH_ROWFMT_ROWCYC n) + 1
  s.modSeq n fun q =>
    match q.gset, q.gaddr with
    | none, _ => q
    | some _, [] => { q with gset := none }
    | some e, as =>
      let row := ofLe ((as.drop (as.length - k)).map (BitVec.ofNat 8))
      if e then { q with gset := none, gaddr := [], gerase := q.gerase ++ [row] }
      else { q with gset := none, gaddr := [], grows := q.grows ++ [row] }

/-- A latched row names the block and LUN of a descriptor's ROW (R214). -/
def State.sameBlock (s : State) (n row : Nat) (p : Pod) : Bool :=
  let want := (p.desc.getD 1 0).toNat
  let b := fun r => bits r (s.fld (F.CH_ROWFMT_BLKLSB n)) (s.fld (F.CH_ROWFMT_BLKW n))
  let l := fun r => bits r (s.fld (F.CH_ROWFMT_LUNLSB n)) (s.fld (F.CH_ROWFMT_LUNW n))
  b row == b want && l row == l want

/-- A latched row is one a program may use: block and LUN of the descriptor, wordline at least GUARD (R214). -/
def State.rowAllowed (s : State) (n row : Nat) (p : Pod) : Bool :=
  s.sameBlock n row p &&
  decide (bits (p.desc.getD 2 0).toNat 0 11 ≤ bits row (s.fld (F.CH_ROWFMT_WLLSB n)) (s.fld (F.CH_ROWFMT_WLW n)))

/-- The byte confirms a program, an erase (R214). -/
def State.isPconf (s : State) (n b : Nat) : Bool :=
  b = s.fld (F.CH_GUARDCFG2_PCONF0 n) || b = s.fld (F.CH_GUARDCFG2_PCONF1 n) || b = s.fld (F.CH_GUARDCFG2_PCONF2 n) ||
  b = s.fld (F.CH_GUARDCFG2_PCONF3 n)

@[inherit_doc State.isPconf] def State.isEconf (s : State) (n b : Nat) : Bool := b = s.fld (F.CH_GUARDCFG_ECONF n)

/-- The guard allows a program confirm: every row latched since the previous confirm is one the op may program (R214). -/
def State.programAllowed (s : State) (n : Nat) : Bool :=
  match s.handPod n with
  | some p =>
    let rows := (s.seq n).grows ++ (s.seq n).gerase
    (p.opc = 2 || p.opc = 3) && !rows.isEmpty && rows.all fun r => s.rowAllowed n r p
  | none => false

/-- The guard allows an erase confirm (R214). -/
def State.eraseAllowed (s : State) (n : Nat) : Bool :=
  match s.handPod n with
  | some p => (p.opc = 4 || p.opc = 5) && (s.seq n).gerase.all fun r => s.sameBlock n r p
  | none => false

/-- The row an event about a refused confirm shows: the first that is not allowed, else the last latched. -/
def State.guardRow (s : State) (n : Nat) (erase : Bool) : Nat :=
  let rows := if erase then (s.seq n).gerase else (s.seq n).grows ++ (s.seq n).gerase
  let bad := match s.handPod n with
    | some p => rows.filter fun r => if erase then !s.sameBlock n r p else !s.rowAllowed n r p
    | none => []
  match bad, rows.getLast? with
  | r :: _, _ => r
  | [], some r => r
  | [], none => 0

/-- The guard refuses a confirm (GUARD_REFUSAL, R215): not driven, p0 0, counted, event 0x0441, the op's DONE forced. -/
def State.guardRefuse (s : State) (n b : Nat) (erase : Bool) : State :=
  let g := match s.handPod n with
    | some p => bits (p.desc.getD 2 0).toNat 0 11
    | none => 0
  let s := s.bump (F.CH_GUARDREF_COUNT n)
  let s := s.chPost n 0x0441 [(8, b), (32, s.guardRow n erase), (11, g), (16, s.handOpid n)]
  let hand := (s.handPod n).map fun p => p.op.id
  s.modSeq n fun q =>
    let q := { q.setPred 0 false with refused := true, grows := [], gerase := [] }
    match hand with
    | some i => { q with guarded := if (Tab.find q.guarded i).isSome then q.guarded else Tab.set q.guarded i b }
    | none => q

/-- The command cycle of a byte under the guard (R214, R215): rows are latched at every CMD, a confirm is checked unless
DIS is 1, a setup byte starts collecting. -/
def State.guardCmd (s : State) (n b : Nat) : State :=
  let s := s.latchRow n
  let conf := s.isPconf n b || s.isEconf n b
  if conf ∧ s.flag (F.CH_GUARDCTL_DIS n) = false then
    if (!s.isPconf n b || s.programAllowed n) && (!s.isEconf n b || s.eraseAllowed n) then
      s.modSeq n fun q => { q.setPred 0 true with refused := false, grows := [], gerase := [] }
    else s.guardRefuse n b (!s.isPconf n b)
  else if conf then s.modSeq n fun q => { q with grows := [], gerase := [] }
  else if b = s.fld (F.CH_GUARDCFG_PSET0 n) ∨ b = s.fld (F.CH_GUARDCFG_PSET1 n) then
    s.modSeq n fun q => { q with gset := some false, gaddr := [] }
  else if b = s.fld (F.CH_GUARDCFG_ESET n) then s.modSeq n fun q => { q with gset := some true, gaddr := [] }
  else s

/-- CMD (R203): one command cycle, subject to the program guard. -/
def execCmd (n : Chan) (f : Fetch) (rs : BitVec 4) (imm : BitVec 18) (s : State) : Host.Outcome State Fault Refusal :=
  .next <| s.kz n f (kzWord 0x05 0 rs.toNat imm.toNat) fun s => s.onBus n fun s =>
    let b := if bit imm.toNat 8 then bits ((s.seq n).reg rs.toNat).toNat 0 8 else bits imm.toNat 0 8
    (((s.guardCmd n b).endBurst n).chCost n (s.caCyc n)).nextPc n

/-- ADDR (R203): address cycles of bytes of k[rs]; a count of 0 or more bytes than k[rs] has are fault 6. -/
def execAddr (n : Chan) (f : Fetch) (rs : BitVec 4) (imm : BitVec 18) (s : State) : Host.Outcome State Fault Refusal :=
  .next <| s.kz n f (kzWord 0x06 0 rs.toNat imm.toNat) fun s => s.onBus n fun s =>
    let count := bits imm.toNat 0 3
    let first := bits imm.toNat 3 2
    if count = 0 ∨ 4 < first + count then s.seqFault n 6
    else
      let v := ((s.seq n).reg rs.toNat).toNat
      let bs := (List.range count).map fun i => bits v ((first + i) * 8) 8
      let s := s.modSeq n fun q => if q.gset.isSome then { q with gaddr := q.gaddr ++ bs } else q
      ((s.endBurst n).chCost n (count * s.caCyc n)).nextPc n

/-- Length of the stream a buffer handle names for the op in hand; none where unlimited, 0 where the kind is reserved
(R202). -/
def State.streamLen (s : State) (n kind : Nat) : Option Nat :=
  let slc : Bool := match s.handPod n with
    | some p => bit (p.desc.getD 0 0).toNat 18
    | none => false
  let opc := match s.handPod n with
    | some p => p.opc
    | none => 0
  match kind with
  | 0 => none
  | 1 => some (64 * 4544)
  | 2 => some ((if slc then s.stageCps else s.cps) * 4544)
  | 3 => some ((if slc then s.stageCps else s.cps) * 4544)
  | 4 => some (if 8 ≤ opc then 65536 else 0)
  | _ => some 0

/-- Cycles of a data burst, shorter where it continues the one before (R205). -/
def State.burstCost (s : State) (n bytes : Nat) (out : Bool) : Nat :=
  if (s.seq n).burst = some out then bytes / 2
  else s.fld (F.CH_BUSCFG_PRE n) + bytes / 2 + s.fld (F.CH_BUSCFG_PST n)

/-- The checks and the common effect of DIN and DOUT (R202, R203): an odd or zero byte count is fault 6, a reserved kind or a
range beyond the stream fault 7; then the data moves and k[rd] rises. -/
def State.dataCycles (s : State) (n rd rs bytes : Nat) (out : Bool) (move : Nat → Nat → Nat → State → State) : State :=
  s.onBus n fun s =>
    if bytes < 2 ∨ bytes % 2 = 1 then s.seqFault n 6
    else
      let h := ((s.seq n).reg rs).toNat
      let kind := bits h 20 4
      let off := ((s.seq n).reg rd).toNat
      let fits : Bool := match s.streamLen n kind with
        | none => true
        | some l => decide (off + bytes ≤ l)
      if 5 ≤ kind ∨ fits = false then s.seqFault n 7
      else
        let cost := s.burstCost n bytes out
        let s := move kind (bits h 0 20) off s
        s.plain n cost fun q => { q.setReg rd (BitVec.ofNat 32 (off + bytes)) with burst := some out }

/-- Address of the diagnostic buffer of R202. -/
def diagBuf : Nat := 0x10000000 + Config.diagBase % 0x7F0000

/-- The bytes that a DIN drives from a stream (R202): 0xFF from none; what the staging buffers hold; a slice image or a P or Q image,
built codeword by codeword; the diagnostic buffer. -/
def State.dinBytes (s : State) (n kind first off bytes : Nat) : List Byte :=
  match kind with
  | 0 => List.replicate bytes 0xFF
  | 1 => s.stagedBytes first off bytes
  | 4 => Memory.readBytes s.mem (diagBuf + off) bytes
  | _ =>
    match s.handPod n with
    | some p => ((s.programBytes p.op).drop off).take bytes
    | none => List.replicate bytes 0xFF

/-- DIN (R203): data cycles to the die. -/
def execDin (n : Chan) (f : Fetch) (rd rs : BitVec 4) (imm : BitVec 18) (s : State) : Host.Outcome State Fault Refusal :=
  .next <| s.kz n f (kzWord 0x07 rd.toNat rs.toNat imm.toNat) fun s =>
    s.dataCycles n rd.toNat rs.toNat imm.toNat false fun kind first off s =>
      let bs := s.dinBytes n kind first off imm.toNat
      s.modSeq n fun q => { q with bus := bs }

/-- DOUT (R203): data cycles from the die; bytes for a diagnostic buffer land in shared SRAM, those for staging
buffers in read staging (R31, R202). -/
def execDout (n : Chan) (f : Fetch) (rd rs : BitVec 4) (imm : BitVec 18) (data : List Byte) (s : State) :
    Host.Outcome State Fault Refusal :=
  .next <| s.kz n f (kzWord 0x08 rd.toNat rs.toNat imm.toNat) fun s =>
    s.dataCycles n rd.toNat rs.toNat imm.toNat true fun kind first off s =>
      if kind = 4 then s.store (diagBuf + off) (data.take imm.toNat)
      else if kind = 1 then s.fillStaging first off (data.take imm.toNat)
      else s

/-- The POLL samples: index and status of the one that ends it, and whether it was ready (R206). -/
def pollRun (mask want step timeout : Nat) : Nat → Nat → List Nat → Nat × Nat × Bool
  | i, last, [] => (max i ((timeout + step - 1) / step + 1) - 1, last, false)
  | i, _, x :: xs =>
    if x &&& mask = want then (i, x, true)
    else if timeout ≤ i * step then (i, x, false)
    else pollRun mask want step timeout (i + 1) x xs

/-- Cycles of one POLL sample (R205). -/
def State.pollCost (s : State) (n : Nat) : Nat :=
  let rows := if s.flag (F.CH_POLLCFG_ROWADR n) then s.fld (F.CH_ROWFMT_ROWCYC n) + 1 else 0
  (1 + rows) * s.caCyc n + s.fld (F.CH_BUSCFG_TWHR n) + 1

/-- POLL (R206): `first` and `more` are the status bytes the die gives at its samples; the last repeats. -/
def execPoll (n : Chan) (f : Fetch) (rd rs : BitVec 4) (imm : BitVec 18) (first : Byte) (more : List Byte) (s : State) :
    Host.Outcome State Fault Refusal :=
  .next <| s.kz n f (kzWord 0x0A rd.toNat rs.toNat imm.toNat) fun s => s.onBus n fun s =>
    let cost := s.pollCost n
    let step := cost + s.fld (F.CH_POLLCFG_IVL n)
    let limit := (s.toCycles n ((s.seq n).reg rs.toNat).toNat 1).getD 0
    let r := pollRun (bits imm.toNat 0 8) (bits imm.toNat 8 8) step limit 0 0 ((first :: more).map BitVec.toNat)
    s.plain n (r.1 * step + cost) fun q =>
      { (q.setReg rd.toNat (BitVec.ofNat 32 r.2.1)).setPred (bits imm.toNat 16 2) r.2.2 with
        status := r.2.1, burst := none }

/-- A pattern runs on: its state after seeding and moving bytes (R213). -/
def Seq.pattern (q : Seq) (i poly bytes : Nat) (seed : Nat) : Nat × Nat :=
  let st := if seed = 0 then Tab.getD q.prbs i 0 else seed
  (st, Config.prbs poly st bytes)

/-- Cycles of a PGEN or PCHK (R205). -/
def State.patCost (s : State) (n bytes : Nat) : Nat := s.fld (F.CH_BUSCFG_PRE n) + bytes / 2 + s.fld (F.CH_BUSCFG_PST n)

/-- PGEN (R213): an odd byte count is fault 6. -/
def execPgen (n : Chan) (f : Fetch) (rs : BitVec 4) (imm : BitVec 18) (s : State) : Host.Outcome State Fault Refusal :=
  .next <| s.kz n f (kzWord 0x34 0 rs.toNat imm.toNat) fun s => s.onBus n fun s =>
    let bytes := bits imm.toNat 0 16
    let poly := bits imm.toNat 16 2
    if bytes % 2 = 1 then s.seqFault n 6
    else
      let r := (s.seq n).pattern poly poly bytes ((s.seq n).reg rs.toNat).toNat
      s.plain n (s.patCost n bytes) fun q => { q with prbs := Tab.set q.prbs poly r.2, burst := none }

/-- PCHK (R213): `got` is what the die drove; k[rd] receives the mismatched bits, saturating. -/
def execPchk (n : Chan) (f : Fetch) (rd rs : BitVec 4) (imm : BitVec 18) (got : List Byte) (s : State) :
    Host.Outcome State Fault Refusal :=
  .next <| s.kz n f (kzWord 0x35 rd.toNat rs.toNat imm.toNat) fun s => s.onBus n fun s =>
    let bytes := bits imm.toNat 0 16
    let poly := bits imm.toNat 16 2
    if bytes % 2 = 1 then s.seqFault n 6
    else
      let r := (s.seq n).pattern (4 + poly) poly bytes ((s.seq n).reg rs.toNat).toNat
      let bad := min (Config.prbsMismatch poly r.1 got) 0xFFFFFFFF
      s.plain n (s.patCost n bytes) fun q =>
        { q.setReg rd.toNat (BitVec.ofNat 32 bad) with prbs := Tab.set q.prbs (4 + poly) r.2, burst := none }

/-! ### The pod interface (R207 to R209) -/

/-- A ready work item: rank, whether it lies in the suspended pod, ITEM's kind, and its place in the order of R207. -/
structure Item where
  rank : Nat
  susp : Bool
  kind : Nat
  key : Nat
  deriving DecidableEq, Repr

/-- The work item of one rank's active pod, if it is ready (R207): a parked op that is due already is not woken early (R209). -/
def podItem (r : Nat) (p : Pod) : Option Item :=
  if p.hand then none
  else if p.parked then
    if p.ripe then some ⟨r, false, 1, 2 ^ 72 + p.due.getD 0⟩
    else if p.abort || (p.suspReq && p.sw) then some ⟨r, false, 2, 0⟩
    else none
  else if p.resumed then some ⟨r, false, 3, 2 * 2 ^ 72⟩
  else some ⟨r, false, 0, (3 + bits (p.desc.getD 0 0).toNat 4 3) * 2 ^ 72 + p.op.start⟩

/-- The work items of one rank: its active pod, and after a fault a suspended pod, whose op has an abort pending and is marked ripe (R208,
R217). -/
def rankItems (r : Nat) (d : Die) : List Item :=
  (match d.active with
    | some p => (podItem r p).toList
    | none => []) ++
  (match d.susp with
    | some p => if p.abort && p.ripe && !p.hand then [⟨r, true, 2, 0⟩] else []
    | none => [])

/-- The ready items of a channel. -/
def State.items (s : State) (n : Nat) : List Item :=
  ((List.range 16).map fun r => rankItems r (s.die (n * 16 + r))).flatten

/-- Every pod of a channel is empty. -/
def State.podsEmpty (s : State) (n : Nat) : Bool :=
  (List.range 16).all fun r => (s.die (n * 16 + r)).active.isNone && (s.die (n * 16 + r)).susp.isNone

/-- The item POP takes: the first in the order of R207; among equals, which the spec leaves open, a free choice. -/
def State.pickItem (s : State) (n : Nat) : Option (Item × State) :=
  match minBy Item.key (s.items n) with
  | none => none
  | some i =>
    let eqs := (s.items n).filter fun j => j.key == i.key
    if eqs.length ≤ 1 then some (i, s)
    else
      let (v, s) := s.drawFree
      some (eqs.getD (v % eqs.length) i, s)

/-- POP delivers an item: registers loaded, predicates set, the stack emptied, the jump taken (R196, R207). -/
def State.deliver_ (s : State) (n : Nat) (i : Item) (p : Pod) : State :=
  let (a, s) := s.drawFree
  let (b, s) := s.drawFree
  let (c, s) := s.drawFree
  let target := if i.kind = 0 then s.fld (F.CH_ENTRY_ADDR n p.opc) else p.resume
  let q := { p with hand := true, parked := false, fresh := false, resumed := false, ripe := false, due := none }
  let s := s.modDie (n * 16 + i.rank) fun x =>
    if i.susp then { x with susp := some q } else { x with active := some q }
  let flags := b2n p.abort * 2 + b2n (i.kind = 3) * 4 + b2n p.suspReq * 8
  let k := 0 :: ([a, b, c].map (BitVec.ofNat 32) ++ p.ctx ++ p.desc)
  let s := s.modSeq n fun x =>
    { x with
      k := k, p := BitVec.ofNat 4 flags, stack := [], hand := some ⟨i.rank, i.susp⟩, item := i.rank + i.kind * 16,
      sel := none, burst := none }
  ((s.setFld (F.CH_SEQSTAT_STATE n) 1).chCost n 4).setPc n target

/-- POP's search: a new descriptor whose class has no handler is completed with FAULT, detail 0xFF (INVALID_ENTRY_COMPLETE),
and the search goes on; with nothing ready the sequencer waits, or stops where STOP asks and every pod is empty (R198). -/
def State.popLoop (s : State) (n : Nat) : Nat → State
  | 0 => s
  | fuel + 1 =>
    match s.pickItem n with
    | none =>
      if s.flag (F.CH_SEQCTL_STOP n) ∧ s.podsEmpty n = true then
        let s := ((s.setFld (F.CH_SEQSTAT_STATE n) 0).setFld (F.CH_SEQCTL_RUN n) 0).setFld (F.CH_SEQCTL_STOP n) 0
        s.chPost n 0x0443 [(2, 0), (32, s.fld (F.CH_UCVER_PVER n))]
      else s.setFld (F.CH_SEQSTAT_STATE n) 2
    | some (i, s) =>
      let d := s.die (n * 16 + i.rank)
      match (if i.susp then d.susp else d.active) with
      | none => s
      | some p =>
        if i.kind = 0 ∧ s.flag (F.CH_ENTRY_VALID n p.opc) = false then
          (s.podDone n i.rank false p 0x07 0xFF).popLoop n fuel
        else s.deliver_ n i p

/-- POP (R207): an op in hand is fault 8. Selection ends (R203). -/
def execPop (n : Chan) (f : Fetch) (s : State) : Host.Outcome State Fault Refusal :=
  .next <| s.kz n f (kzWord 0x28 0 0 0) fun s =>
    if (s.seq n).hand.isSome then s.seqFault n 8
    else (s.modSeq n fun q => { q with sel := none, burst := none }).popLoop n 33

/-- A DONE code microcode may post for a class: those of R210 that it does not reserve or keep for hardware. -/
def codeAllowed (opc code : Nat) : Bool :=
  code ∈ [0x00, 0x01, 0x04, 0x05] || (decide (0x80 ≤ code) && decide (8 ≤ opc))

/-- A POST ends the hold on the op: selection ends, 2 cycles, the next instruction follows (R203, R205). -/
def State.posted (s : State) (n : Nat) : State :=
  s.plain n 2 fun q => { q with sel := none, burst := none, hand := none }

/-- POST_DONE (R208, R210): a status code it may not post is fault 6, no op in hand fault 9; the DONE of an op whose confirm
was refused reaches ZNE as GUARD with the refused byte (R215). -/
def execPostDone (n : Chan) (f : Fetch) (rd rs : BitVec 4) (imm : BitVec 18) (s : State) :
    Host.Outcome State Fault Refusal :=
  .next <|
    if bits imm.toNat 12 2 ≠ 0 then s
    else s.kz n f (kzWord 0x29 rd.toNat rs.toNat imm.toNat) fun s =>
      match (s.seq n).hand, s.handPod n with
      | some h, some p =>
        let v := ((s.seq n).reg rd.toNat).toNat
        if codeAllowed p.opc (bits v 0 8) = false then s.seqFault n 6
        else
          let s := match Tab.find (s.seq n).guarded p.op.id with
            | some b => s.podDone n h.rank h.susp p 0x06 b
            | none => s.podDone n h.rank h.susp p (bits v 0 8) (bits v 8 8)
          s.posted n
      | _, _ => s.seqFault n 9

/-- The context words an op saves: k4 to k7 (R196). -/
def Seq.context (q : Seq) : List W32 := [q.reg 4, q.reg 5, q.reg 6, q.reg 7]

/-- POST_PARK (R208): the op stays in its pod with its context, due after k[rs] units; unit 3 is fault 6. -/
def execPostPark (n : Chan) (f : Fetch) (rd rs : BitVec 4) (imm : BitVec 18) (s : State) :
    Host.Outcome State Fault Refusal :=
  .next <|
    if bits imm.toNat 12 2 ≠ 1 then s
    else s.kz n f (kzWord 0x29 rd.toNat rs.toNat imm.toNat) fun s =>
      match (s.seq n).hand, s.handPod n with
      | some h, some p =>
        match s.toCycles n ((s.seq n).reg rs.toNat).toNat (bits imm.toNat 14 2) with
        | none => s.seqFault n 6
        | some c =>
          let p := { p with ctx := (s.seq n).context, resume := bits imm.toNat 0 12, sw := bit imm.toNat 16 }
          -- a delay of 0, an abort, or with SW a suspend request that came first makes the op due at once (R208, R209)
          let now := decide (c = 0) || p.abort || (p.suspReq && p.sw)
          let p := { p with
            hand := false, parked := true, due := some (s.chNow n + 2 + if now then 0 else c), ripe := now }
          let s := s.modDie (n * 16 + h.rank) fun x =>
            if h.susp then { x with susp := some p } else { x with active := some p }
          s.posted n
      | _, _ => s.seqFault n 9

/-- POST_SUSP (R208): legal only while a suspend request is pending and SUSPABLE is 1, else fault 9; the op moves to the
suspended pod with its context. -/
def execPostSusp (n : Chan) (f : Fetch) (rd rs : BitVec 4) (imm : BitVec 18) (s : State) :
    Host.Outcome State Fault Refusal :=
  .next <|
    if bits imm.toNat 12 2 ≠ 2 then s
    else s.kz n f (kzWord 0x29 rd.toNat rs.toNat imm.toNat) fun s =>
      match (s.seq n).hand, s.handPod n with
      | some h, some p =>
        if s.power.loss.isSome = true ∧ p.suspReq = false ∧ h.susp = false ∧ p.op.writes = true then
          -- the request was withdrawn when PLI_N fell: ZNE suspends nothing and resumes the operation at once (R103)
          let ctx := (s.seq n).context
          (s.modDie (n * 16 + h.rank) fun x => { x with active := x.active.map fun p =>
            { p with ctx := ctx, resume := bits imm.toNat 0 12, resumed := true, hand := false } }).posted n
        else if p.suspReq = true ∧ h.susp = false ∧ bit (p.desc.getD 0 0).toNat 7 = true then
          let p := { p with ctx := (s.seq n).context, resume := bits imm.toNat 0 12 }
          (s.suspendDone (n * 16 + h.rank) p).posted n
        else s.seqFault n 9
      | _, _ => s.seqFault n 9

/-- PARK_DELAY_EXPIRY: the delay of a die's parked op has run out, and it becomes due (R208). -/
def execParkDelayExpiry (d : DieId) (s : State) : Host.Outcome State Fault Refusal :=
  match (s.die d.val).active with
  | none => .next s
  | some p =>
    match p.due with
    | none => .next s
    | some t =>
      if p.parked = true ∧ t ≤ s.chNow (d.val / 16) then
        .next (s.modDie d.val fun x => { x with active := x.active.map fun p => { p with ripe := true } })
      else .next s

/-! ### Start, stop and direct ops (R198, R217, R218) -/

/-- After a fault, each op left in a pod gets an abort (R217). -/
def State.abortPods (s : State) (n : Nat) : State :=
  (List.range 16).foldl (fun s r =>
    let mark := fun (o : Option Pod) => o.map fun p =>
      if p.fresh || p.abort then p else { p with abort := true, abortAt := s.now }
    let wake := fun (o : Option Pod) => (mark o).map fun p => { p with ripe := true }
    let d := n * 16 + r
    if (s.die d).active.isSome || (s.die d).susp.isSome then
      s.modDie d fun x => { x with active := mark x.active, susp := wake x.susp }
    else s) s

/-- A write of RUN = 1 while stopped or faulted (R198, R217). -/
def State.seqRun (s : State) (n : Nat) : State :=
  let st := s.fld (F.CH_SEQSTAT_STATE n)
  if st = 0 ∨ st = 3 then
    let s := if st = 3 then s.abortPods n else s
    let s := ((s.setFld (F.CH_SEQSTAT_STATE n) 1).setPc n 0).setFld (F.CH_SEQCTL_RUN n) 1
    let s := s.modSeq n fun q => { q with sel := none, burst := none, till := s.chNow n }
    s.chPost n 0x0443 [(2, 1), (32, s.fld (F.CH_UCVER_PVER n))]
  else s.setFld (F.CH_SEQCTL_RUN n) 1

/-- SEQ_RUN: a write of CH_SEQCTL.RUN = 1. -/
def execSeqRun (n : Chan) (s : State) : Host.Outcome State Fault Refusal := .next (s.seqRun n)

/-- A write of STOP = 1 (R198): ZNE posts no new descriptor; a sequencer that waits at POP with every pod empty stops. -/
def State.seqStop (s : State) (n : Nat) : State :=
  let s := s.setFld (F.CH_SEQCTL_STOP n) 1
  if s.fld (F.CH_SEQSTAT_STATE n) = 2 then s.popLoop n 33 else s

/-- SEQ_STOP: a write of CH_SEQCTL.STOP = 1. -/
def execSeqStop (n : Chan) (s : State) : Host.Outcome State Fault Refusal := .next (s.seqStop n)

/-- CHANNEL_FAULT_TIMEOUT: a sequencer still faulted 100 ms after its fault has every die of its channel declared Failed,
cause 3 (R142, R217). -/
def execChannelFaultTimeout (n : Chan) (s : State) : Host.Outcome State Fault Refusal :=
  if s.fld (F.CH_SEQSTAT_STATE n) = 3 ∧ (s.seq n).faultAt + 100000000 ≤ s.now then
    .next <| (List.range 16).foldl (fun s r =>
      if s.populated (n.val * 16 + r) then s.dieDead (n.val * 16 + r) 3 3 else s) s
  else .next s

/-- Kind of operation of a direct op's class (R201). -/
def directKind (opc : Nat) : OpKind × Bool :=
  match opc with
  | 0 => (.read, false)
  | 1 => (.read, true)
  | 2 => (.program, false)
  | 3 => (.program, true)
  | 4 => (.erase, false)
  | 5 => (.erase, true)
  | _ => (.other, false)

/-- A write of CH_DCTL.GO = 1 (R218). -/
def State.directGo (s : State) (n : Nat) : State :=
  let desc := (List.range 8).map fun i => BitVec.ofNat 32 (s.fld (F.CH_DDESC_WORD n i))
  let w := (desc.getD 0 0).toNat
  let d := n * 16 + bits w 8 4
  let hot : Bool := match hottest s.temps with
    | some t => decide (s16 (s.lpe.tgt.getD (s.fld (F.LPE_SP_TARGET 144))) < t)
    | none => false
  if s.flag F.ZNE_GEOM_LOCK ∨ s.flag (F.CH_DCTL_BUSY n) = true ∨ (s.die d).active.isSome = true ∨ hot = true then s
  else
    let k := directKind (bits w 0 4)
    let (i, s) := s.fresh
    let o := { plainOp (bits w 4 3) k.1 k.2 (mkBlk n (bits w 8 4) 0) 0 [] (.direct (bits w 0 4)) 0xFF with
      id := i, start := s.now }
    let s := s.modDie d fun x => { x with active := some { s.newPod o with desc := desc } }
    (s.setFld (F.CH_DCTL_BUSY n) 1).showPods d

/-- DIRECT_OP_GO: a write of CH_DCTL.GO = 1. -/
def execDirectOpGo (n : Chan) (s : State) : Host.Outcome State Fault Refusal := .next (s.directGo n)

end Sys2Proof.Machine
end

