-- ==== Sys2Proof/Machine/AdminBase.lean ====
section
/-! DEFINITION. What every admin command shares: whether the function can have it executed now, and who may issue it
(R260, R270, R275, R284, R288, R296, R333, R390). -/

namespace Sys2Proof.Machine

/-- Function 0 of a port (R257): the owner's controller. -/
def isPf (fn : Nat) : Bool := fn % 128 == 0

/-- The tenancy of a function has been created; the owner always exists (R259, R260). -/
def State.tenExists (s : State) (t : Nat) : Bool := t == 0 || (Tab.find s.hif.tens t).isSome

/-- This node is the cascade master. -/
def State.isMaster (s : State) : Bool := s.fld F.VUK_CASC_ROLE == 1

/-- HIF fetches for no function, the one that issued a formation among them: fetching is stopped for an activation, a power
loss or the orphaned state, or HIF is power-gated or clock-stopped (R288, R354, R373, R393). -/
def State.fetchStopped (s : State) : Bool :=
  s.hif.stopAll || s.hif.activation.isSome || s.power.loss.isSome || s.casc.orphan || decide (2 ≤ s.fld F.AON_PSSTAT_CUR)

/-- HIF fetches no I/O command: every fetch is stopped, or a formation is under way (R52 step 1). -/
def State.noFetch (s : State) : Bool := s.hif.forming || s.fetchStopped

/-- A formation stops a function's admin commands, unless its admin queue issued it (R52 step 1). -/
def State.formStops (s : State) (fn : Nat) : Bool := s.hif.forming && s.hif.formBy.all (fun b => b.1 != fn)

/-- A link test holds a PCIe port's traffic (R295, R412). -/
def State.portTested (s : State) (p : Nat) : Bool := s.mgt.test.st = .running && s.mgt.test.link == p

/-- A function executes admin commands: its controller is ready and fetched for (R273, R285, R412). -/
def State.adminRuns (s : State) (fn : Nat) : Bool :=
  (s.func fn).ctl = .ready && !(s.func fn).fetchOff && !s.fetchStopped && !s.formStops fn &&
    !s.portTested (fn / 128)

/-- What an admin command asks of its controller: the owner's, one that is no cascade member's, and a tenancy that has been
created. -/
structure AdminNeeds where
  owner : Bool
  master : Bool
  tenancy : Bool
  deriving DecidableEq, Repr

/-- The status with which a controller turns an admin command down (R260, R275, R390). -/
def State.adminDenies (s : State) (fn : Nat) (n : AdminNeeds) : Option Status :=
  if n.owner && !isPf fn then some .invalidOpcode
  else if n.master && s.isMember then some .invalidOpcode
  else if n.tenancy && !s.tenExists (s.fnTen fn) then some .commandSequenceError
  else none

/-- Run an admin command on a function: not executed while the function runs none, turned down as above, else by its
meaning. In recovery there are no functions; a command tunnelled over MCTP fails, but for those of `State.adminTunnel` (R333). -/
def State.admin (s : State) (fn : Nat) (e : Sqe) (n : AdminNeeds) (run : State → State) :
    Host.Outcome State Fault Refusal :=
  if s.recovery then .next (if s.power.loss.isSome then s else s.adminDone fn e .invalidOpcode)
  else if s.adminRuns fn then
    match s.adminDenies fn n with
    | some st => .next (s.adminDone fn e st)
    | none => .next (run s)
  else .next s

/-- An admin command that recovery accepts over MCTP where `ok` holds (R333). -/
def State.adminTunnel (s : State) (fn : Nat) (e : Sqe) (n : AdminNeeds) (ok : Bool) (run : State → State) :
    Host.Outcome State Fault Refusal :=
  if s.recovery && ok && s.power.loss.isNone then .next (run s) else s.admin fn e n run

/-- An admin command that any ready controller of an existing tenancy may issue. -/
def anyCtl : AdminNeeds := ⟨false, false, true⟩
/-- An admin command of owner controllers. -/
def ownerCtl : AdminNeeds := ⟨true, false, true⟩
/-- An admin command of owner controllers that members do not execute (R390). -/
def masterCtl : AdminNeeds := ⟨true, true, true⟩

/-- An admin transfer of more than 64 KiB has write buffers within its tenancy's WBQ (R296 code 0x01). -/
def State.adminBufs (s : State) (ten bytes : Nat) : Bool :=
  decide (bytes ≤ 65536) ||
  decide (s.fld (F.HIF_TWBU_WBU ten) + (bytes + 4095) / 4096 ≤ s.fld (F.HIF_TWBQ_WBQ ten))

/-- Complete an admin command that returns data, with zeros beyond the data's end and within its transfer length. -/
def State.adminData (s : State) (fn : Nat) (e : Sqe) (bytes : List Byte) (off len : Nat) : State :=
  if s.adminBufs (s.fnTen fn) len then s.adminDone fn e .success 0 (takePad len (bytes.drop off))
  else s.adminDone fn e .tenancyCreditExhausted

end Sys2Proof.Machine
end

