-- ==== Sys2Proof/Machine/CascBase.lean ====
section
/-! DEFINITION. Nodes of a cascade as the master knows them, and the commands it forwards to them (R268, R386, R388, R392). -/

namespace Sys2Proof.Machine

/-- Change what the cascade holds. -/
def State.cs (s : State) (f : Casc → Casc) : State := { s with casc := f s.casc }

/-- A node the master knows nothing of. -/
def Node.unknown : Node := ⟨0, 0, 0, false, false, 0, 0, false⟩

/-- A node. -/
def State.node (s : State) (n : Nat) : Node := Tab.getD s.casc.nodes n Node.unknown

/-- Kinds of message between nodes and on the management bus. -/
inductive MsgKind | enum | dupMaster | completion | command | nodeList | ready | hello | timeSet | keys | mi | reset | admin
  deriving DecidableEq, Repr

/-- The number of a message kind. -/
def MsgKind.code : MsgKind → Nat
  | .enum => 1
  | .dupMaster => 2
  | .completion => 3
  | .command => 4
  | .nodeList => 5
  | .ready => 6
  | .hello => 7
  | .timeSet => 8
  | .keys => 9
  | .mi => 10
  | .reset => 11
  | .admin => 12

/-- Send a message on a Vukoro port. -/
def State.sendVuk (s : State) (port : Nat) (k : MsgKind) (p1 p2 : Nat) (data : List Byte := []) : State :=
  s.cs fun c => { c with msgs := c.msgs ++ [⟨port, k.code, p1, p2, data⟩] }

/-- Direction to a node: the shorter one that is open, VUK1 on a tie (R388). 0 is VUK1, 1 is VUK0. -/
def State.fwdDir (s : State) (n : Nat) : Option Nat :=
  let x := s.node n
  match bit x.reach 0, bit x.reach 1 with
  | true, true => some (if x.hops0 < x.hops1 then 1 else 0)
  | true, false => some 0
  | false, true => some 1
  | false, false => none

/-- The port of a direction: VUK1 is port 1, VUK0 port 0. -/
def dirPort (d : Nat) : Nat := if d = 0 then 1 else 0

/-- Status with which a command to a namespace on another node is turned down (R268, R386, R390, R392). -/
def State.pathDenies (s : State) (x : Ns) : Option Status :=
  if s.casc.lostNs.contains x.nsid then some (if x.conv then .nsNotReady else .zoneIsOffline)
  else if x.node = s.ownNode then none
  else if !s.isMaster then some .asymInaccessible
  else
    let n := s.node x.node
    if n.admitted && n.ready && (s.fwdDir x.node).isSome then none
    else some .memberUnreachable

/-- An entry as it travels between nodes: opcode, namespace, command dwords, data. -/
def Sqe.wire (e : Sqe) : List Byte :=
  leBytes 1 e.opc.toNat ++ leBytes 4 e.nsid.toNat ++ leBytes 4 e.cdw10.toNat ++ leBytes 4 e.cdw11.toNat ++
  leBytes 4 e.cdw12.toNat ++ leBytes 4 e.cdw13.toNat ++ leBytes 4 e.cdw14.toNat ++ leBytes 4 e.cdw15.toNat ++ e.data

/-- Send an admitted command toward its namespace's node with a forwarding tag (R388). -/
def State.forward (s : State) (i : Nat) (x : Slot) (node : Nat) : State :=
  match s.fwdDir node with
  | none => s.complete i .memberUnreachable
  | some d =>
    let tag := s.casc.nextTag
    let s := s.modSlot i fun y => { y with st := .running, started := true }
    (s.cs fun c => { c with nextTag := (tag + 1) % 2 ^ 32, fwd := Tab.set c.fwd tag ⟨i, node, d⟩ }).sendVuk (dirPort d)
      .command tag node (leBytes 1 x.ten ++ x.sqe.wire)

/-- A node's status for a command that names its resources (R296 code 0x05). -/
def State.nodeDenies (s : State) (n : Nat) : Option Status :=
  let x := s.node n
  if n = s.ownNode then none
  else if x.admitted = false ∨ x.lost = true then some .invalidField
  else if (s.fwdDir n).isSome then none
  else some .memberUnreachable

/-- Send an admin command to a member, with a number (65536 where no completion is waited for) and the tenancy it is for. -/
def State.sendAdmin (s : State) (node num : Nat) (e : Sqe) (ten : Nat := 0) : State :=
  match s.fwdDir node with
  | some d => s.sendVuk (dirPort d) .admin num node (leBytes 1 ten ++ e.wire)
  | none => s

/-- A member carries out an admin command and its completion is waited for (R388, R390). -/
def State.askNode (s : State) (fn node : Nat) (e : Sqe) : State :=
  let k := s.casc.nextTag % 65536
  let s := s.cs fun c => { c with
    nextTag := (c.nextTag + 1) % 2 ^ 32, adm := Tab.set c.adm k ⟨fn, e, node⟩ }
  s.sendAdmin node k e (s.fnTen fn)

/-- The master passes an admin command that concerns the whole subsystem to every admitted member (R390, assumption 18). -/
def State.toMembers (s : State) (e : Sqe) : State :=
  if s.isMaster then
    [1, 2, 3].foldl (fun (s : State) n => if (s.node n).admitted then s.sendAdmin n 65536 e else s) s
  else s

/-- Send a message on every Vukoro port whose link is up. -/
def State.sendBoth (s : State) (k : MsgKind) (p1 p2 : Nat) (data : List Byte := []) : State :=
  [1, 0].foldl (fun (s : State) v => if s.flag (F.VUK_LINKSTAT_UP v) then s.sendVuk v k p1 p2 data else s) s

/-- The master reports an enumeration once its start-up has run: event 0x0A04, and 0x0A0A where the ring is open, with the last node
reached through VUK1 and through VUK0 (R381, R385). -/
def State.reportEnum (s : State) : State :=
  if s.casc.report && s.boot.started then
    let ring := s.fld F.VUK_CASC_RING
    let s := (s.cs fun c => { c with report := false }).post 0x0E 0x0A04
      [(3, s.fld F.VUK_CASC_NNODES), (1, ring), (1, b2n s.casc.mismatch)]
    if ring = 1 then s
    else
      let last := fun (h : Node → Nat) => (s.casc.nodes.foldl (fun (a : Nat × Nat) e =>
        if e.2.admitted && decide (a.2 < h e.2) then (e.1, h e.2) else a) (0, 0)).1
      s.post 0x0E 0x0A0A [(2, last (·.hops1)), (2, last (·.hops0))]
  else s

/-- A member whose start-up has run, or one of whose links came up, reports READY to the master (R386). -/
def State.reportReady (s : State) (linkUp : Bool) : State :=
  if s.isMember && s.casc.admitted && s.boot.started then s.sendBoth .ready s.ownNode (b2n linkUp) else s

end Sys2Proof.Machine
end

