-- ==== Sys2Proof/Machine/HostAdmit.lean ====
section
/-! DEFINITION. Doorbells, the fetch arbiter and admission (R258, R270 to R274, R192), and coalesced interrupts (R277). -/

namespace Sys2Proof.Machine

/-! ### Doorbells (R258) -/

/-- An error of a doorbell write: Invalid Doorbell Register (0) or Invalid Doorbell Write Value (1), an asynchronous error
event with the Error Information log (assumption 15). -/
def State.doorbellError (s : State) (fn info : Nat) : State := s.postAen fn (info * 2 ^ 8 + 0x01 * 2 ^ 16)

/-- SQ_TAIL_DOORBELL: the host writes a submission queue tail. -/
def execSqTailDoorbell (fn : FnId) (qid : Fin 65) (tail : BitVec 16) (s : State) : Host.Outcome State Fault Refusal :=
  if (s.func fn.val).ctl ≠ .ready then .next s
  else
    match Tab.find (s.func fn.val).sqs qid.val with
    | none => .next (s.doorbellError fn.val 0)
    | some q =>
      if q.size ≤ tail.toNat then .next (s.doorbellError fn.val 1)
      else .next (s.modFunc fn.val fun x => { x with sqs := Tab.set x.sqs qid.val { q with tail := tail.toNat } })

/-- CQ_HEAD_DOORBELL: the host writes a completion queue head. -/
def execCqHeadDoorbell (fn : FnId) (qid : Fin 65) (head : BitVec 16) (s : State) : Host.Outcome State Fault Refusal :=
  if (s.func fn.val).ctl ≠ .ready then .next s
  else
    match Tab.find (s.func fn.val).cqs qid.val with
    | none => .next (s.doorbellError fn.val 0)
    | some q =>
      if q.size ≤ head.toNat then .next (s.doorbellError fn.val 1)
      else .next (s.modFunc fn.val fun x => { x with cqs := Tab.set x.cqs qid.val { q with head := head.toNat } })

/-- INTERRUPT_COALESCING_TIMEOUT: the aggregation time of a completion queue runs out and its pending message is sent
(R277 feature 0x08). -/
def execInterruptCoalescingTimeout (fn : FnId) (cq : Fin 65) (s : State) : Host.Outcome State Fault Refusal :=
  match Tab.find (s.func fn.val).cqs cq.val with
  | none => .next s
  | some q =>
    if q.pendingInt = 0 then .next s
    else
      let s := s.modFunc fn.val fun x => { x with cqs := Tab.set x.cqs cq.val { q with pendingInt := 0 } }
      .next (s.hf fun h => { h with ints := h.ints ++ [(fn.val, q.vector)] })

/-! ### The arbiter (R273) -/

/-- A port. -/
def PortSt.initial : PortSt := ⟨false, false, 0, false, 0, [], none, 0, 0, 0, [], false⟩

/-- A port by number. -/
def State.port (s : State) (p : Nat) : PortSt := Tab.getD s.hif.ports p PortSt.initial

/-- Change a port. -/
def State.modPort (s : State) (p : Nat) (f : PortSt → PortSt) : State :=
  s.hf fun h => { h with ports := Tab.modify h.ports p PortSt.initial f }

/-- A queue can be peeked: its function is served, it holds an entry, and it did not lack credit in this turn. The admin
queue's entries are executed by the admin rows and are no part of a peek (assumption 16). -/
def State.peekable (s : State) (fn qid : Nat) : Bool :=
  let f := s.func fn
  f.ctl = .ready && !f.fetchOff && qid != 0 && !(s.port (fn / 128)).tried.contains (fn, qid) &&
  (match Tab.find f.sqs qid with
    | some q => q.head != q.tail
    | none => false)

/-- The class a queue is served in: the urgent class of a tenancy without URGEN is served as high (R273). -/
def State.servedClass (s : State) (fn qid : Nat) : QClass :=
  match Tab.find (s.func fn).sqs qid with
  | some q => if q.cls = .urgent ∧ s.flag (F.HIF_TCRED_URGEN (s.fnTen fn)) = false then .high else q.cls
  | none => .medium

/-- The first of a rising list after a value, in cyclic order. -/
def nextAfter (x : Nat) (xs : List Nat) : Option Nat :=
  match xs.find? (fun y => decide (x < y)) with
  | some y => some y
  | none => xs.head?

/-- I/O queues of a function that can be peeked, urgent ones or the others. -/
def State.ioQueues (s : State) (fn : Nat) (urgent : Bool) : List Nat :=
  (Tab.keys (s.func fn).sqs).filter fun q => s.peekable fn q && (decide (s.servedClass fn q = .urgent) == urgent)

/-- Entries taken from one queue in a row: 2 to the Arbitration Burst, 7 for no limit (feature 0x01). -/
def Func.burstLimit (f : Func) : Option Nat :=
  let a := bits (Tab.getD f.feats 0x01 0) 0 3
  if a = 7 then none else some (2 ^ a)

/-- The next queue of a list under round robin with the Arbitration Burst. -/
def Func.rrPick (f : Func) (qs : List Nat) : Option Nat :=
  let more : Bool := match f.burstLimit with
    | none => true
    | some n => decide (f.qrun < n)
  if qs.contains f.lastq ∧ more then some f.lastq else nextAfter f.lastq qs

/-- Weight of a class under weighted round robin, 0's based in the Arbitration feature. -/
def Func.weight (f : Func) (c : QClass) : Nat :=
  let a := Tab.getD f.feats 0x01 0
  match c with
  | .high => bits a 24 8 + 1
  | .medium => bits a 16 8 + 1
  | .low => bits a 8 8 + 1
  | .urgent => 0

/-- The key of a class's credits. -/
def QClass.key : QClass → Nat
  | .urgent => 0
  | .high => 1
  | .medium => 2
  | .low => 3

/-- The queue a function serves next outside the urgent step, with the function's credits after it (R273). -/
def State.pickQueue (s : State) (fn : Nat) : Option (Nat × Func) :=
  let f := s.func fn
  let qs := s.ioQueues fn false
  if f.ams = 0 then (f.rrPick qs).map fun q => (q, f)
  else
    let of := fun c => qs.filter fun q => s.servedClass fn q = c
    let live := [QClass.high, .medium, .low].filter fun c => !(of c).isEmpty
    let full := live.all fun c => Tab.getD f.wrr c.key 0 == 0
    let f := if full then
        { f with wrr := [(1, f.weight .high), (2, f.weight .medium), (3, f.weight .low)] }
      else f
    match live.find? (fun c => Tab.getD f.wrr c.key 0 != 0) with
    | some c => (f.rrPick (of c)).map fun q => (q, { f with wrr := Tab.set f.wrr c.key (Tab.getD f.wrr c.key 0 - 1) })
    | none => none

/-- Issue the read of a queue's head entry into the peek buffer. -/
def State.issuePeek (s : State) (fn qid : Nat) (f : Func) : State :=
  let f := { f with lastq := qid, qrun := if f.lastq = qid then f.qrun + 1 else 1 }
  (s.hf fun h => { h with peeks := h.peeks ++ [(fn, qid)] }).modFunc fn fun _ => f

/-- Functions of a port with a queue of a kind to serve, by function number within the port. -/
def State.serving (s : State) (p : Nat) (urgent : Bool) : List Nat :=
  ((Tab.keys s.hif.fns).filter fun fn => fn / 128 = p && !(s.ioQueues fn urgent).isEmpty).map (· % 128)

/-- ARBITER_TURN: the arbiter of a port selects the next queue and reads its head entry (R273). -/
def execArbiterTurn (p : Port) (s : State) : Host.Outcome State Fault Refusal :=
  if s.noFetch ∨ s.portTested p.val = true ∨ s.hif.peeks.any (fun e => e.1 / 128 = p.val) = true then .next s
  else
    let x := s.port p.val
    match nextAfter x.lastUrg (s.serving p.val true) with
    | some f =>
      let fn := p.val * 128 + f
      match nextAfter (s.func fn).lastq (s.ioQueues fn true) with
      | some q => .next ((s.modPort p.val fun x => { x with lastUrg := f }).issuePeek fn q (s.func fn))
      | none => .next s
    | none =>
      let fs := s.serving p.val false
      let stay : Bool := fs.contains x.rr && decide (x.burst < s.fld (F.HIF_ARBCFG_FNBURST p.val))
      match if stay then some x.rr else nextAfter x.rr fs with
      | none => .next (s.modPort p.val fun x => { x with tried := [] })
      | some f =>
        let s := if stay then s else s.modPort p.val fun x => { x with rr := f, burst := 0, tried := [] }
        match s.pickQueue (p.val * 128 + f) with
        | some (q, y) => .next (s.issuePeek (p.val * 128 + f) q y)
        | none => .next s

/-! ### Decoding (R271, R275) -/

/-- I/O opcodes the device executes (R275). -/
def ioOpcodes : List Nat := [0x00, 0x01, 0x02, 0x05, 0x08, 0x09, 0x0C, 0x12, 0x19, 0x1D, 0x79, 0x7A, 0x7D]

/-- Commands accepted on conventional namespaces only, and on zoned ones only (R87, R275). -/
def convOnly : List Nat := [0x09, 0x12, 0x1D]

@[inherit_doc convOnly] def zonedOnly : List Nat := [0x19, 0x79, 0x7A, 0x7D]

/-- Commands that carry a range in CDW10 to CDW12. -/
def ranged : List Nat := [0x01, 0x02, 0x05, 0x08, 0x0C]

/-- Commands whose data transfer MDTS limits (R276: 1 MiB); a Zone Append has a limit of its own, which R66 checks in its step 8. -/
def mdtsLimited : List Nat := [0x01, 0x02, 0x05]

/-- The error an entry fails decoding with (R271, R275). -/
def State.decodeError (s : State) (fn : Nat) (e : Sqe) : Option Status :=
  let opc := e.opc.toNat
  if opc ∉ ioOpcodes then some .invalidOpcode
  else if opc = 0x00 then none
  else if e.nsid.toNat = 0 ∨ 1024 < e.nsid.toNat then some .invalidNamespace
  else
    match (s.nsOfId e.nsid.toNat).bind s.nsAt with
    | none => some .invalidNamespace
    | some n =>
      if n.fns.contains fn = false then some .invalidField
      else if e.fuse.toNat ≠ 0 ∧ n.conv = false then some .invalidField
      else if n.conv ∧ opc ∈ zonedOnly then some .invalidField
      else if n.conv = false ∧ opc ∈ convOnly then some .invalidField
      else if opc ∈ mdtsLimited ∧ 256 < e.nlb then some .invalidField
      else if opc ∈ ranged ∧ n.nsze < e.slba + e.nlb then some .lbaOutOfRange
      else if opc ∈ [0x19, 0x7A, 0x7D] ∧ n.nsze ≤ e.slba then some .lbaOutOfRange
      else if opc = 0x79 ∧ e.cdw13.toNat / 256 % 2 = 0 ∧ n.nsze ≤ e.slba then some .lbaOutOfRange
      else s.pathDenies n

/-- What FUSE asks for: a fused pair is a Compare with the Write behind it; a half alone fails (R193, R275). -/
def fuseError (e : Sqe) (pair : Option Sqe) : Option Status :=
  match e.fuse.toNat, pair with
  | 0, _ => none
  | 1, some w => if e.opc.toNat = 0x05 ∧ w.opc.toNat = 0x01 ∧ w.fuse.toNat = 2 then none else some .abortedMissingFused
  | 3, _ => some .invalidField
  | _, _ => some .abortedMissingFused

/-! ### Credits (R271, R272) -/

/-- Write buffers an entry reserves at admission (R271). -/
def buffersFor (e : Sqe) (fused : Bool) : Nat :=
  if e.opc.toNat = 0x01 ∨ e.opc.toNat = 0x7D ∨ fused then e.nlb
  else if e.opc.toNat = 0x19 then min e.copyLen 256
  else 0

/-- A crypto erase stops admission to a namespace (R312 step 1). -/
def State.eraseBlocks (s : State) (n : Nat) : Bool :=
  s.sec.erases.any fun e => match e.scope with
    | .ns m => m == n
    | .ten t => ((s.nsAt n).map (·.ten)).getD 0 == t
    | .all _ => true

/-- The credits of a command but for the write credits: slot, hazard entry, and what stops admission to its
namespace (R131, R182, R187, R191, R192, R271, R312). -/
def State.creditsFor (s : State) (ten : Nat) (e : Sqe) (n : Option (Nat × Ns)) : Bool :=
  let opc := e.opc.toNat
  decide (Tab.firstFree s.hif.slots 0 < 64512) && decide (s.fld (F.HIF_TUSE_TSU ten) < s.fld (F.HIF_TCRED_TSQ ten)) &&
  (match n with
    | none => true
    | some (k, x) => !s.eraseBlocks k &&
      !(s.zne.husk.noHusk && !(s.rset x.set).readOnly && (opc = 0x01 || opc = 0x7D || opc = 0x19 || opc = 0x08 || opc = 0x09)) &&
      (!x.conv || (decide (s.fld F.ZNE_HAZSTAT_INUSE < 16384) &&
        !((opc = 0x01 || opc = 0x08 || opc = 0x09 || e.fuse.toNat = 1) &&
          decide (s.fld F.ZNE_CRCFG_MAPDIRTY * 256 ≤ s.zne.mapDirty.length)) &&
        !((opc = 0x01 || e.fuse.toNat = 1) && x.node = s.ownNode && decide (s.freeSegs x.set < 8)))))

/-- The same for an entry of a queue; an ordered queue has one command at a time (R192). -/
def State.creditsOk (s : State) (fn qid : Nat) (e : Sqe) (n : Option (Nat × Ns)) : Bool :=
  let q := Tab.getD (s.func fn).sqs qid ⟨0, 0, .medium, false, 0, 0, 0⟩
  s.creditsFor (s.fnTen fn) e n && (!q.ordered || q.live == 0)

/-- The write credits of n buffers for a tenancy and rank set: WBQ, EFF and the power-loss reserve (R74, R271, R441). -/
def State.writeCredits (s : State) (ten : Nat) (n : Nat) (set : Option Nat) : Bool :=
  decide (s.fld (F.HIF_TWBU_WBU ten) + n ≤ s.fld (F.HIF_TWBQ_WBQ ten)) &&
  decide (s.fld F.ZNE_DIRTY_CUR + n ≤ s.effBufs) &&
  (match set with
    | some k => s.capacityCovers k n
    | none => true)

/-- The number of a queue of the node. -/
def queueKey (fn qid : Nat) : Nat := fn * 65 + qid

/-- An earlier write of the tenancy that starved blocks this one (R272). -/
def State.starvedBy (s : State) (ten key : Nat) : Bool :=
  match Tab.find s.hif.starved ten with
  | some k => k != key
  | none => false

/-- COMMAND_ADMISSION: HIF takes a task slot and every credit in one step and consumes the entry; the
port's link returns to its full width (R255). An entry that failed decoding completes with its error (R271); a fused pair does as a whole,
its Write with Invalid Field too or else as the Write of a failed pair (R193). -/
def State.admitCmd (s : State) (fn qid : Nat) (e : Sqe) (pair : Option Sqe) (err : Option Status)
    (n : Option (Nat × Ns)) (bufs : Nat) : State :=
  let ten := s.fnTen fn
  let i := Tab.firstFree s.hif.slots 0
  let opc := e.opc.toNat
  -- a command that fails decoding counts for its own namespace; 1024 stands for none (R158)
  let ns := if err.isSome then (s.nsOfId e.nsid.toNat).getD 1024 else (n.map (·.1)).getD 0
  let conv := (n.map (·.2.conv)).getD false
  let own := (n.map (·.2.node == s.ownNode)).getD true
  let fusedW := if err.isNone ∧ e.fuse.toNat = 1 then pair else none
  let x : Slot := ⟨fn, qid, ten, e, s.now, decide (s.servedClass fn qid = .urgent), .admitted,
    if conv ∨ own = false then none else s.zoneOf ns e.slba, ns, e.slba, if opc = 0x19 then e.copyLen else e.nlb, [], [], [],
    err, s.flag F.ZNE_DIRTYCFG_THRU && decide (opc ∈ [0x01, 0x7D, 0x19]), false, s.hif.order, fusedW, none, 0, false, [], [],
    none⟩
  let s := s.hf fun h => { h with slots := Tab.set h.slots i x, order := h.order + 1 }
  let s := s.bump (F.HIF_TUSE_TSU ten)
  let s := (s.reserveBufs ten i bufs).2
  let s := if conv ∧ err.isNone then
      let w : Bool := decide (opc ∈ [0x01, 0x08, 0x09]) || fusedW.isSome
      s.addHazard ⟨i, ns, x.hazardRanges, w, x.order⟩
    else s
  let failedW := if err.isSome ∧ e.fuse.toNat = 1 ∧ (fuseError e pair).isNone then pair else none
  let take := if fusedW.isSome ∨ failedW.isSome then 2 else 1
  let s := s.modFunc fn fun f => { f with sqs := Tab.adjust f.sqs qid fun q =>
    { q with head := (q.head + take) % q.size, live := q.live + 1 } }
  let s := s.modPort (fn / 128) fun p => { p with burst := p.burst + 1, idle := s.now, l0pReq := none }
  let s := if s.fld (F.HIF_PORTSTAT_LPS (fn / 128)) = 1 then s.setFld (F.HIF_PORTSTAT_LPS (fn / 128)) 0 else s
  let s := s.hf fun h => { h with
    held := Tab.erase h.held (queueKey fn qid),
    starved := if Tab.find h.starved ten = some (queueKey fn qid) then Tab.erase h.starved ten else h.starved }
  match err with
  | some st =>
    match failedW with
    | some w => (s.postCpl ⟨fn, qid, w.cid.toNat, if st = .invalidField then st else .abortedFailedFused, 0, 0, [], []⟩).complete i st
    | none => s.complete i st
  | none => if own = false then s.forward i x ((n.map (·.2.node)).getD 0) else s.pressureStage

/-- PEEK_ENTRY_ARRIVAL: a peeked entry arrives (with the entry behind it, for a fused pair) and is decoded; HIF admits it if
every credit is available, else discards the copy and leaves the head (R271 to R273). -/
def execPeekEntryArrival (fn : FnId) (qid : Fin 65) (e : Sqe) (pair : Option Sqe) (s : State) :
    Host.Outcome State Fault Refusal :=
  if s.hif.peeks.contains (fn.val, qid.val) = false then .next s
  else
    let s := s.hf fun h => { h with peeks := h.peeks.filter (· != (fn.val, qid.val)) }
    if s.noFetch ∨ s.peekable fn.val qid.val = false ∨ s.portTested (fn.val / 128) = true then .next s
    else
      let lack := fun (s : State) => s.modPort (fn.val / 128) fun p => { p with tried := p.tried ++ [(fn.val, qid.val)] }
      let err := match fuseError e pair with
        | some st => some st
        | none => s.decodeError fn.val e
      let k := if e.opc.toNat = 0x00 then none else s.nsOfId e.nsid.toNat
      let n := if err.isSome then none else k.bind fun k => (s.nsAt k).map fun x => (k, x)
      if s.creditsOk fn.val qid.val e n = false then .next (lack s)
      else
        let bufs := if err.isSome then 0 else buffersFor e (e.fuse.toNat = 1)
        let ten := s.fnTen fn.val
        let key := queueKey fn.val qid.val
        let writes : Bool := err.isNone && (e.opc.toNat ∈ [0x01, 0x7D, 0x19] || e.fuse.toNat = 1)
        let set := match n with
          | some (_, x) => if x.node = s.ownNode then some x.set else none
          | none => none
        if writes && s.starvedBy ten key then .next (lack s)
        else if writes && !s.writeCredits ten bufs set then
          .next ((lack s).hf fun h => { h with held :=
            if (Tab.find h.held key).isSome then h.held else Tab.set h.held key s.now })
        else .next (s.admitCmd fn.val qid.val e pair err n bufs)

/-- WBSTARVE_EXPIRY: a queue's head write has lacked credits for WBSTARVE µs: later writes of its tenancy wait until it is
admitted (R272). -/
def execWbstarveExpiry (fn : FnId) (qid : Fin 65) (s : State) : Host.Outcome State Fault Refusal :=
  let key := queueKey fn.val qid.val
  let ten := s.fnTen fn.val
  match Tab.find s.hif.held key with
  | some t =>
    if t + s.fld (F.HIF_ARBCFG_WBSTARVE (fn.val / 128)) * 1000 ≤ s.now ∧ (Tab.find s.hif.starved ten).isNone = true then
      .next (s.hf fun h => { h with starved := Tab.set h.starved ten key })
    else .next s
  | none => .next s

end Sys2Proof.Machine
end

