-- ==== Sys2Proof/Machine/Recorder.lean ====
section
/-! DEFINITION. The event recorder (R398 to R406): acceptance of records, flushes to the event store, windows of the rate
limit, reader cursors and views, and freezes. -/

namespace Sys2Proof.Machine

/-! ### Content -/

/-- Change what the recorder holds. -/
def State.ev (s : State) (f : Recorder → Recorder) : State := { s with evr := f s.evr }

/-- A record that has not been flushed. -/
def Recorder.unflushed (r : Recorder) : List Rec := (r.buf.map (·.2)).filter fun x => decide (r.flushed ≤ x.seq)

/-- Records of the event store still retained: SEQ at least F − 65,535, F the newest flushed (R402). -/
def Recorder.retained (r : Recorder) : List Rec := (r.store.map (·.2)).filter fun x => decide (r.flushed ≤ x.seq + 65536)

/-- Insert a record by SEQ. -/
def insRec (x : Rec) : List Rec → List Rec
  | [] => [x]
  | y :: ys => if x.seq < y.seq then x :: y :: ys else y :: insRec x ys

/-- Records in SEQ order. -/
def sortRecs (xs : List Rec) : List Rec := xs.foldl (fun a x => insRec x a) []

/-- The event store's bank has failed (R349). -/
def State.evStoreFailed (s : State) : Bool := bit (s.fld F.MRM_BANKSTAT_FAILED) 2

/-- Every record a reader can read, in SEQ order: the retained records of the store, and those of the volatile buffer that
are not in the store. -/
def State.evContent (s : State) : List Rec :=
  if s.evStoreFailed then sortRecs (s.evr.buf.map (·.2))
  else sortRecs (s.evr.retained ++ s.evr.unflushed)

/-- MGT_EVSTAT and MGT_EVOLDEST show the recorder's state. -/
def State.showEvr (s : State) : State :=
  let s := s.setFld F.MGT_EVSTAT_UNFL s.evr.unflushed.length
  let s := s.setFld F.MGT_EVSTAT_FROZEN (b2n s.evr.freeze.isSome)
  let s := s.setFld F.MGT_EVSTAT_SIDE s.evr.side.length
  match s.evContent with
  | x :: _ => s.setFld F.MGT_EVOLDEST_COUNT x.seq
  | [] => s

/-- MGT posts an event. -/
def State.mgtPost (s : State) (id : Nat) (items : List (Nat × Nat)) : State := s.post 0x02 id items

/-- A flush of every unflushed record starts, unless one runs (R402). -/
def State.startFlush (s : State) : State :=
  if s.evr.flushTo.isSome ∨ s.evr.unflushed.isEmpty then s
  else s.ev fun r => { r with flushTo := some (s.fld F.MGT_EVNEXT_COUNT) }

/-- EVENT_FLUSH: the conditions of R402 that start a flush. -/
def State.flushDue (s : State) : State :=
  let u := s.evr.unflushed
  if 6144 ≤ u.length ∨ u.any (fun x => x.sev = 4) = true then s.startFlush else s

/-- Place accepted records (one, or a CONT pair) in the volatile buffer, or drop them together where an entry still holds an
unflushed record (R402). -/
def State.placeRecs (s : State) (xs : List Rec) : State :=
  if xs.any (fun x => match Tab.find s.evr.buf (x.seq % 8192) with
      | some y => decide (s.evr.flushed ≤ y.seq)
      | none => false) then s.dropEvents 0 xs.length
  else s.ev fun r => { r with buf := xs.foldl (fun b x => Tab.set b (x.seq % 8192) x) r.buf }

/-- The record or CONT pair of an event from a sequence number up (R398). -/
def Event.recs (e : Event) (seq : Nat) : List Rec :=
  if e.bits ≤ 88 then [⟨seq, e.ts, e.id, e.src, e.sev, false, e.ten, e.payload % 2 ^ 88⟩]
  else [⟨seq, e.ts, e.id, e.src, e.sev, true, e.ten, e.payload % 2 ^ 88⟩,
        ⟨seq + 1, e.ts, e.id, e.src, e.sev, false, e.ten, e.payload / 2 ^ 88 % 2 ^ 88⟩]

/-- Take the next n sequence numbers, reserving a further block of 8,192 where they pass the reserved end (R399). -/
def State.takeSeq (s : State) (n : Nat) : Nat × State :=
  let q := s.fld F.MGT_EVNEXT_COUNT
  let s := s.setFld F.MGT_EVNEXT_COUNT (q + n)
  (q, if s.evr.resv < q + n then (s.cfgWrite).ev fun r => { r with resv := r.resv + 8192 } else s)

/-- MGT loads MGT_EVNEXT after a reset: the start of the next unreserved block, which it reserves (R399). -/
def State.loadSeq (s : State) : State :=
  if s.evr.ready then s
  else
    let q := s.evr.resv
    ((s.cfgWrite.setFld F.MGT_EVNEXT_COUNT q).ev fun r => { r with resv := q + 8192, ready := true }).showEvr

/-- Accept an event: it takes SEQ, and goes to the volatile buffer or, during a freeze, to the side buffer of 512
(R399, R402, R405). -/
def State.acceptEvent (s : State) (e : Event) : State :=
  let n := if e.bits ≤ 88 then 1 else 2
  let (q, s) := s.takeSeq n
  let s := s.ev fun r => { r with placed := Tab.set r.placed e.src (Tab.getD r.placed e.src 0 + n) }
  let xs := e.recs q
  let s :=
    if s.evr.freeze.isSome then
      if s.evr.side.length + n ≤ 512 then s.ev fun r => { r with side := r.side ++ xs } else s.dropEvents 1 n
    else s.placeRecs xs
  let s := if e.sev = 4 ∨ 6144 ≤ s.evr.unflushed.length then s.startFlush else s
  s.showEvr

/-- Records the rate limit never refuses (R401). -/
def Event.exempt (e : Event) : Bool := e.sev == 4 || e.id == 0x0A11 || e.id == 0x0A12

/-- The first event of a source in a list, and the list without it (R19: records of one source arrive in order). -/
def takeFrom (src : Nat) : List Event → Option (Event × List Event)
  | [] => none
  | e :: es =>
    if e.src = src then some (e, es)
    else match takeFrom src es with
      | some (x, rest) => some (x, e :: rest)
      | none => none

/-- EVENT_RECORD_ARRIVAL: the oldest record a source posted arrives at MGT; beyond RLIM records in the window it is
refused and counted (R399, R401). Until MGT_EVNEXT is loaded, sources wait. -/
def execEventRecordArrival (src : Isl) (s : State) : Host.Outcome State Fault Refusal :=
  if s.evr.ready = false ∨ s.gated 2 = true then .next s
  else
    match takeFrom src.val s.evr.transit with
    | none => .next s
    | some (e, rest) =>
      let n := if e.bits ≤ 88 then 1 else 2
      let s := s.ev fun r => { r with transit := rest }
      if e.exempt = false ∧ s.fld F.MGT_EVCFG_RLIM < Tab.getD s.evr.placed e.src 0 + n then
        .next ((s.bump F.MGT_EVSUPP_COUNT n).ev fun r =>
          { r with refused := Tab.set r.refused e.src (Tab.getD r.refused e.src 0 + n) })
      else .next (s.acceptEvent e)

/-- The records of a finished flush reach the event store; with its bank failed they are counted as dropped (R349,
R402). During a freeze a flush changes no content (R405). -/
def State.flushRecords (s : State) (bound : Nat) : State :=
  let s := s.ev fun r => { r with flushTo := none }
  if s.evr.freeze.isSome then s
  else
    let xs := (s.evr.unflushed).filter fun x => decide (x.seq < bound)
    let s :=
      if s.evStoreFailed then s.dropEvents 3 xs.length
      else (s.ev fun r => { r with store := xs.foldl (fun t x => Tab.set t (x.seq % 65536) x) r.store }).sgWrite 1 xs.length
    s.ev fun r => { r with flushed := max r.flushed bound }

/-- EVENT_FLUSH_DONE: the flush finishes writing its records to the event store; another starts where R402 asks for it. -/
def execEventFlushDone (s : State) : Host.Outcome State Fault Refusal :=
  match s.evr.flushTo with
  | none => .next s
  | some b => .next ((s.flushRecords b).flushDue).showEvr

/-- RATE_WINDOW_END: a 1 ms window ends; MGT reports the records each source had refused in it and the records dropped in it
by cause (R401, R402). While MGT is power-gated nothing is reported. -/
def execRateWindowEnd (s : State) : Host.Outcome State Fault Refusal :=
  if s.gated 2 = true ∨ s.now / 1000000 ≤ s.evr.win then .next s
  else
    let refused := s.evr.refused
    let drops := s.evr.drops
    let s := s.ev fun r => { r with win := s.now / 1000000, placed := [], refused := [], drops := [] }
    let s := refused.foldl (fun s e => s.mgtPost 0x0A11 [(8, e.1), (32, e.2)]) s
    let s := drops.foldl (fun s e => s.mgtPost 0x0A12 [(8, e.1), (32, e.2)]) s
    .next s.flushDue

/-! ### Posting by firmware (R400) -/

/-- Key of a staged word of a requester. -/
def stageKey (q : Requester) (w : Nat) : Nat := q.index * 4 + w

/-- A word of MGT_EVPOST written by a requester is staged. -/
def State.stageWord (s : State) (q : Requester) (w : Nat) (v : W32) : State :=
  s.ev fun r => { r with stage := Tab.set r.stage (stageKey q w) v.toNat }

/-- The write of word 3 posts a requester's staged record, or counts a drop where its ID is 0 (R400). -/
def State.evpost (s : State) (q : Requester) (v : W32) : State :=
  let w := fun i => Tab.getD s.evr.stage (stageKey q i) 0
  let id := bits (w 0) 0 16
  if id = 0 then s.dropEvents 4 1
  else
    let s' := s.ev fun r => { r with
      stage := (List.range 4).foldl (fun t i => Tab.erase t (stageKey q i)) r.stage }
    s'.postEvent ⟨s.now, id, bits (w 0) 16 8, bits (w 0) 24 4, bits (w 1) 0 8,
      bits (w 1) 8 24 + w 2 % 2 ^ 32 * 2 ^ 24 + v.toNat * 2 ^ 56, 88⟩

/-- EVPOST_WRITE: a core writes MGT_EVPOST3 (R400). -/
def execEvpostWrite (c : CoreId) (v : W32) (s : State) : Host.Outcome State Fault Refusal := .next (s.evpost (.core c) v)

/-! ### Cursors and views (R403, R404, R406) -/

/-- A reader's view: every record for an owner's controller, else those of its tenancy and device-wide ones (R404). -/
def State.evView (s : State) (fn : Nat) : List Rec :=
  if isPf fn then s.evContent
  else s.evContent.filter fun x => x.ten == s.fnTen fn || x.ten == 0xFF

/-- The cursor of a controller. -/
def State.cursorOf (s : State) (fn : Nat) : Option (Nat × Cursor) :=
  s.evr.cursors.find? fun e => decide (2 ≤ e.1) && e.2.owner == fn

/-- CURSOR_ASSIGN: a controller's first recorder access takes a free cursor of 2 to 31, or the one used longest ago; it starts
at the oldest record retained in the reader's view (R403). Answers the cursor's number and the state. -/
def State.assignCursor (s : State) (fn : Nat) : Nat × State :=
  let start := match s.evView fn with
    | x :: _ => x.seq
    | [] => s.fld F.MGT_EVNEXT_COUNT
  match s.cursorOf fn with
  | some (k, c) => (k, s.ev fun r => { r with cursors := Tab.set r.cursors k { c with used := s.now } })
  | none =>
    let k := Tab.firstFree (Tab.keep s.evr.cursors fun k _ => decide (2 ≤ k)) 2
    if k < 32 then (k, s.ev fun r => { r with cursors := Tab.set r.cursors k ⟨fn, start, s.now⟩ })
    else
      match minBy (fun e => e.2.used) (Tab.keep s.evr.cursors fun k _ => decide (2 ≤ k)) with
      | some (k, c) => (k, s.ev fun r => { r with
          cursors := Tab.set r.cursors k ⟨fn, start, s.now⟩, lostCur := c.owner :: r.lostCur.filter (· != c.owner) })
      | none => (2, s)

/-- The 32 bytes of a record (R398). -/
def Rec.bytes (x : Rec) : List Byte :=
  leBytes 8 x.ts ++ leBytes 8 x.seq ++ leBytes 2 x.id ++ leBytes 1 x.src ++ leBytes 1 (x.sev + b2n x.cont * 16) ++
  leBytes 1 x.ten ++ leBytes 11 x.payload

/-- The records of a view from a cursor, or from OLDEST if that is higher (R406). -/
def State.viewFrom (s : State) (fn pos : Nat) : List Rec :=
  (s.evView fn).filter fun x => decide (max pos (s.fld F.MGT_EVOLDEST_COUNT) ≤ x.seq)

/-- The Event Recorder log of a caller: a 64 B header, then the records given (R406). -/
def State.recorderLog (s : State) (fn k : Nat) (lost : Bool) (recs : List Rec) : List Byte :=
  let pos := (Tab.getD s.evr.cursors k ⟨fn, 0, 0⟩).pos
  let oldest := s.fld F.MGT_EVOLDEST_COUNT
  let holds := match s.evr.freeze with
    | some f => f.holder == fn
    | none => false
  leBytes 8 oldest ++ leBytes 8 (s.fld F.MGT_EVNEXT_COUNT) ++ leBytes 8 pos ++ leBytes 8 (oldest - pos) ++
  leBytes 8 (s.fld F.MGT_EVDROP_COUNT) ++ leBytes 4 recs.length ++
  leBytes 4 (b2n s.evr.freeze.isSome + b2n holds * 2 + b2n lost * 4 + b2n s.evStoreFailed * 8) ++ leBytes 16 0 ++
  (recs.map Rec.bytes).flatten

/-- A caller's access: its cursor's number, whether its earlier cursor was reassigned, and the state. -/
def State.recorderAccess (s : State) (fn : Nat) : Nat × Bool × State :=
  let lost := s.evr.lostCur.contains fn && (s.cursorOf fn).isNone
  let (k, s) := s.assignCursor fn
  (k, lost, s.ev fun r => { r with lostCur := r.lostCur.filter (· != fn) })

/-- RECORDER_READ (Event Recorder Control, ACT 2): up to CDW11 records from the caller's cursor, which does not move
(R292, R406). -/
def execRecorderRead (fn : FnId) (e : Sqe) (s : State) : Host.Outcome State Fault Refusal :=
  s.admin fn.val e anyCtl fun s =>
    let (k, lost, s) := s.recorderAccess fn.val
    let recs := (s.viewFrom fn.val (Tab.getD s.evr.cursors k ⟨0, 0, 0⟩).pos).take e.cdw11.toNat
    let d := s.recorderLog fn.val k lost recs
    s.adminData fn.val e d 0 d.length

/-- A cursor moves forward to a SEQ, at most to the next to be assigned (R404). -/
def State.moveCursor (s : State) (k to_ : Nat) : State :=
  s.ev fun r => { r with cursors := Tab.adjust r.cursors k fun c =>
    { c with pos := max c.pos (min to_ (s.fld F.MGT_EVNEXT_COUNT)) } }

/-- RECORDER_CLEAR_VIEW (ACT 3): the caller's cursor advances to the SEQ in CDW13:CDW12 (R292, R404). -/
def execRecorderClearView (fn : FnId) (e : Sqe) (s : State) : Host.Outcome State Fault Refusal :=
  s.admin fn.val e anyCtl fun s =>
    let (k, _, s) := s.recorderAccess fn.val
    (s.moveCursor k (e.cdw12.toNat + e.cdw13.toNat * 2 ^ 32)).adminDone fn.val e .success

/-! ### Freeze (R405) -/

/-- A pair of the side buffer is placed together. -/
def sidePairs : List Rec → List (List Rec)
  | [] => []
  | [x] => [[x]]
  | x :: y :: xs => if x.cont then [x, y] :: sidePairs xs else [x] :: sidePairs (y :: xs)

/-- The freeze ends: the side buffer drains into the volatile buffer in SEQ order and event 0x0A13 records the cause
(1 unfreeze, 2 timeout, 3 reset, 4 power loss). -/
def State.endFreeze (s : State) (cause : Nat) : State :=
  match s.evr.freeze with
  | none => s
  | some f =>
    let cur := match s.cursorOf f.holder with
      | some (k, _) => k
      | none => 0
    let side := s.evr.side
    let s := s.ev fun r => { r with freeze := none, side := [] }
    let s := (sidePairs side).foldl (fun s p => s.placeRecs p) s
    ((s.mgtPost 0x0A13 [(8, cur), (8, cause)]).flushDue).showEvr

/-- The freeze of a function ends when that function is reset (R405). -/
def State.endFreezeOf (s : State) (fn : Nat) : State :=
  match s.evr.freeze with
  | some f => if f.holder = fn then s.endFreeze 3 else s
  | none => s

/-- RECORDER_FREEZE (ACT 0): owner only; a freeze in force by another reader fails with Event Recorder Frozen (R292, R405). A
second freeze by its holder leaves it in force. -/
def execRecorderFreeze (fn : FnId) (e : Sqe) (s : State) : Host.Outcome State Fault Refusal :=
  s.admin fn.val e anyCtl fun s =>
    if isPf fn.val = false then s.adminDone fn.val e .invalidField
    else
      let (k, _, s) := s.recorderAccess fn.val
      match s.evr.freeze with
      | some f => s.adminDone fn.val e (if f.holder = fn.val then .success else .recorderFrozen)
      | none =>
        let s := s.ev fun r => { r with freeze := some ⟨fn.val, s.now⟩ }
        ((s.mgtPost 0x0A13 [(8, k), (8, 0)]).showEvr).adminDone fn.val e .success

/-- RECORDER_UNFREEZE (ACT 1): ends the caller's freeze; any other caller fails with Event Recorder Frozen (R292, R405). -/
def execRecorderUnfreeze (fn : FnId) (e : Sqe) (s : State) : Host.Outcome State Fault Refusal :=
  s.admin fn.val e anyCtl fun s =>
    if isPf fn.val = false then s.adminDone fn.val e .invalidField
    else
      let (_, _, s) := s.recorderAccess fn.val
      match s.evr.freeze with
      | some f =>
        if f.holder = fn.val then (s.endFreeze 1).adminDone fn.val e .success
        else s.adminDone fn.val e .recorderFrozen
      | none => s.adminDone fn.val e .recorderFrozen

/-- FREEZE_TIMEOUT: a freeze ends FRZTO seconds after it began (R405). -/
def execFreezeTimeout (s : State) : Host.Outcome State Fault Refusal :=
  match s.evr.freeze with
  | some f => if f.since + s.fld F.MGT_EVCFG_FRZTO * 1000000000 ≤ s.now then .next (s.endFreeze 2) else .next s
  | none => .next s

/-- The recorder at the start of a power loss: a freeze ends (R405). -/
def State.recorderPowerLoss (s : State) : State := s.endFreeze 4

/-- The recorder after a cold or warm reset: the volatile buffer, the side buffer, staged words and records on their way are
gone, with the cursors; the store stays (R399, R402). -/
def Recorder.restart (r : Recorder) : Recorder := { r with
  transit := [], held := [], buf := [], side := [], flushTo := none, ready := false, placed := [], refused := [],
  drops := [], stage := [], cursors := [], lostCur := [], win := 0, freeze := none }

end Sys2Proof.Machine
end

