-- ==== Sys2Proof/Machine/Monitors.lean ====
section
/-! DEFINITION. MGT's monitors (R407 to R409, R423), resource claims and safety functions (R294, R410, R411), general
timers. -/

namespace Sys2Proof.Machine

/-- Change what MGT holds. -/
def State.mg (s : State) (f : Mgt → Mgt) : State := { s with mgt := f s.mgt }

/-! ### Resource claims (R410, R411) -/

/-- The code of a kind (R294). -/
def ResKind.code : ResKind → Nat
  | .gpio => 0
  | .timer => 1
  | .quota => 2

/-- How many resources of a kind there are (R410). -/
def ResKind.count : ResKind → Nat
  | .gpio => 16
  | .timer => 64
  | .quota => 132

/-- Element of MGT_CLAIM of a resource (R411: GPIO at 0x2000, timers at 0x2100, quotas at 0x2400, 8 B each). -/
def ResKind.elem (k : ResKind) (i : Nat) : Nat :=
  match k with
  | .gpio => i
  | .timer => 32 + i
  | .quota => 128 + i

/-- The kind and index of an element of MGT_CLAIM. -/
def claimElem (e : Nat) : Option (ResKind × Nat) :=
  if e < 16 then some (.gpio, e)
  else if 32 ≤ e ∧ e < 96 then some (.timer, e - 32)
  else if 128 ≤ e ∧ e < 260 then some (.quota, e - 128)
  else none

/-- A claim succeeds: ID not 0, and the resource neither claimed nor held by a safety function (R410). -/
def State.claimFree (s : State) (e id : Nat) : Bool :=
  id != 0 && s.fld (F.MGT_CLAIM_ID e) == 0 && !s.flag (F.MGT_CLAIM_SAFE e)

/-- A refused claim write is ignored and posts event 0x0A0F (R410). -/
def State.claimRefused (s : State) (k : ResKind) (i id : Nat) : State :=
  s.mgtPost 0x0A0F [(8, k.code), (8, i), (32, id), (32, s.fld (F.MGT_CLAIM_ID (k.elem i)))]

/-- A write of MGT_CLAIM (R410): a claim, or a release by the claimant; any other write is refused. -/
def State.claimWrite (s : State) (k : ResKind) (i id : Nat) (release : Bool) : State :=
  let e := k.elem i
  if release then
    if id ≠ 0 ∧ s.fld (F.MGT_CLAIM_ID e) = id then s.setFld (F.MGT_CLAIM_ID e) 0 else s.claimRefused k i id
  else if s.claimFree e id then s.setFld (F.MGT_CLAIM_ID e) id
  else s.claimRefused k i id

/-- CLAIM_WRITE: an MGT_CLAIM write with RELEASE 0. An index that has no register is ignored (R12). -/
def execClaimWrite (k : ResKind) (i : BitVec 8) (id : W32) (s : State) : Host.Outcome State Fault Refusal :=
  if i.toNat < k.count then .next (s.claimWrite k i.toNat id.toNat false) else .next s

/-- CLAIM_RELEASE: an MGT_CLAIM write with RELEASE 1. -/
def execClaimRelease (k : ResKind) (i : BitVec 8) (id : W32) (s : State) : Host.Outcome State Fault Refusal :=
  if i.toNat < k.count then .next (s.claimWrite k i.toNat id.toNat true) else .next s

/-- The kind a Resource Claim names in CDW10[1:0]. -/
def resKindOf (v : Nat) : Option ResKind :=
  if v = 0 then some .gpio else if v = 1 then some .timer else if v = 2 then some .quota else none

/-- The resource a Resource Claim command names, when it exists (R294). -/
def claimTarget (e : Sqe) : Option (ResKind × Nat) :=
  match resKindOf (bits e.cdw10.toNat 0 2) with
  | some k => if bits e.cdw10.toNat 8 8 < k.count then some (k, bits e.cdw10.toNat 8 8) else none
  | none => none

/-- RESOURCE_CLAIM: Resource Claim without the release flag (R294). -/
def execResourceClaim (fn : FnId) (e : Sqe) (s : State) : Host.Outcome State Fault Refusal :=
  s.admin fn.val e ownerCtl fun s =>
    match claimTarget e with
    | none => s.adminDone fn.val e .invalidField
    | some (k, i) =>
      if e.cdw11.toNat = 0 then s.adminDone fn.val e .invalidField
      else if s.claimFree (k.elem i) e.cdw11.toNat then
        (s.setFld (F.MGT_CLAIM_ID (k.elem i)) e.cdw11.toNat).adminDone fn.val e .success
      else s.adminDone fn.val e .alreadyClaimed

/-- RESOURCE_RELEASE: Resource Claim with the release flag, by the claimant only (R294). -/
def execResourceRelease (fn : FnId) (e : Sqe) (s : State) : Host.Outcome State Fault Refusal :=
  s.admin fn.val e ownerCtl fun s =>
    match claimTarget e with
    | none => s.adminDone fn.val e .invalidField
    | some (k, i) =>
      if e.cdw11.toNat ≠ 0 ∧ s.fld (F.MGT_CLAIM_ID (k.elem i)) = e.cdw11.toNat then
        (s.setFld (F.MGT_CLAIM_ID (k.elem i)) 0).adminDone fn.val e .success
      else s.adminDone fn.val e .invalidField

/-- SAFETY_TAKEOVER: a safety function of rank sfn (1 PLO, 2 TWARN, 3 cascade sync) takes a resource: it displaces a claimant
and a lower-ranked function, and not a higher-ranked one (R411). -/
def State.takeSafe (s : State) (k : ResKind) (i sfn : Nat) : State :=
  let e := k.elem i
  let id := s.fld (F.MGT_CLAIM_ID e)
  let safe := s.flag (F.MGT_CLAIM_SAFE e)
  if safe ∧ s.fld (F.MGT_CLAIM_SFN e) ≤ sfn then s
  else
    let s := ((s.setFld (F.MGT_CLAIM_ID e) 0).setFld (F.MGT_CLAIM_SAFE e) 1).setFld (F.MGT_CLAIM_SFN e) sfn
    if id = 0 ∧ safe = false then s
    else if k = .gpio ∧ i = 15 ∧ sfn = 3 then s.mgtPost 0x0A0C [(32, id)]
    else s.mgtPost 0x0A10 [(8, k.code), (8, i), (32, id), (2, sfn)]

/-- A safety function stops: its resource becomes free (R411). -/
def State.dropSafe (s : State) (k : ResKind) (i sfn : Nat) : State :=
  let e := k.elem i
  if s.flag (F.MGT_CLAIM_SAFE e) ∧ s.fld (F.MGT_CLAIM_SFN e) = sfn then
    (s.setFld (F.MGT_CLAIM_SAFE e) 0).setFld (F.MGT_CLAIM_SFN e) 0
  else s

/-- A safety function holds a GPIO. -/
def State.holdsSafe (s : State) (i sfn : Nat) : Bool :=
  s.flag (F.MGT_CLAIM_SAFE i) && s.fld (F.MGT_CLAIM_SFN i) == sfn

/-! ### Temperature (R407) -/

/-- WCTEMP in °C: 368 K (R276). -/
def wcTemp : Int := 95

/-- CCTEMP in °C: 378 K or 388 K by ordering code (R276). -/
def State.ccTemp (s : State) : Int := if s.xb then 115 else 105

/-- Composite temperature in units of 1/256 °C: the highest valid sensor (R407). -/
def State.composite (s : State) : Option Int := hottest s.temps

/-- How far above its limits the composite temperature is: 0, 1 above WCTEMP, 2 above CCTEMP. -/
def State.hotLevel (s : State) : Nat :=
  match s.composite with
  | some t => if s.ccTemp * 256 < t then 2 else if wcTemp * 256 < t then 1 else 0
  | none => 0

/-- The TWARN pin is driven low while TWEN is 1, TWARN holds its GPIO and the composite temperature is above WCTEMP (R411). -/
def State.driveTwarn (s : State) : State :=
  let low := s.flag F.MGT_SAFECFG_TWEN && s.holdsSafe (s.fld F.MGT_SAFECFG_TWPIN) 2 && decide (1 ≤ s.hotLevel)
  { s with pins := { s.pins with twarnLow := low } }

/-- One sensor's sample, in 1/256 °C: out of −40 to 150 °C the sensor is marked FAULT with event 0x090C (R407). T holds
what 16 bits can show of it. -/
def State.sampleTemp (s : State) (i : Nat) (t : Int) : State :=
  let bad : Bool := decide (t < -40 * 256) || decide (150 * 256 < t)
  let v := unsx 16 (max (-32768) (min 32767 t))
  let was := s.flag (F.MGT_TEMP_FAULT i)
  let s := s.setWord (R.MGT_TEMP i) (BitVec.ofNat 64 (v + 2 ^ 16 + b2n bad * 2 ^ 17))
  let s := if bad ∧ was = false then s.mgtPost 0x090C [(8, i), (16, v)] else s
  s.mg fun m => { m with
    hot := if bad = false ∧ 125 * 256 ≤ t then Tab.modify m.hot i 0 (· + 1) else Tab.erase m.hot i }

/-- The sensor that reads highest. -/
def State.hottestSensor (s : State) : Nat :=
  match s.composite with
  | some t => ((List.range 24).find? fun i => s.flag (F.MGT_TEMP_VALID i) && !s.flag (F.MGT_TEMP_FAULT i) &&
      s16 (s.fld (F.MGT_TEMP_T i)) == t).getD 0
  | none => 0

/-- TEMPERATURE_SAMPLE: MGT samples its 24 sensors (in 1/256 °C); the composite temperature rising above WCTEMP or CCTEMP
posts event 0x0907, and the TWARN pin follows it (R407, R379, R411). -/
def execTemperatureSample (ts : List (BitVec 32)) (s : State) : Host.Outcome State Fault Refusal :=
  if s.gated 2 then .next s
  else
    let old := s.hotLevel
    let s := ((List.range 24).zip ts).foldl (fun s e => s.sampleTemp e.1 e.2.toInt) s
    let s := if old < s.hotLevel then
        s.mgtPost 0x0907 [(8, s.hottestSensor), (16, s.fld (F.MGT_TEMP_T s.hottestSensor))]
      else s
    .next s.driveTwarn

/-! ### Rails (R408, R423, R429) -/

/-- A rail's last sample lies inside its window. -/
def State.railOk (s : State) (r : Nat) : Bool :=
  decide (s.fld (F.MGT_VLIM_LO r) ≤ s.fld (F.MGT_VMON_MV r)) && decide (s.fld (F.MGT_VMON_MV r) ≤ s.fld (F.MGT_VLIM_HI r))

/-- One rail's sample: outside its window LOW or HIGH sets and event 0x090B is posted once for each excursion, which ends
with 100 consecutive samples inside (R408). -/
def State.sampleRail (s : State) (r mv : Nat) : State :=
  let s := s.setFld (F.MGT_VMON_MV r) mv
  let low : Bool := decide (mv < s.fld (F.MGT_VLIM_LO r))
  if s.railOk r then
    s.mg fun m => { m with
      railOut := Tab.erase m.railOut r,
      excur := match Tab.find m.excur r with
        | some n => if 100 ≤ n + 1 then Tab.erase m.excur r else Tab.set m.excur r (n + 1)
        | none => m.excur }
  else
    let s := if low then s.setFld (F.MGT_VMON_LOW r) 1 else s.setFld (F.MGT_VMON_HIGH r) 1
    let s := if (Tab.find s.mgt.excur r).isNone then s.mgtPost 0x090B [(8, r), (12, mv), (8, b2n (!low))] else s
    s.mg fun m => { m with
      excur := Tab.set m.excur r 0,
      railOut := match Tab.find m.railOut r with
        | some _ => m.railOut
        | none => Tab.set m.railOut r s.now }

/-- VOLTAGE_SAMPLE: MGT measures each rail, in mV. -/
def execVoltageSample (mvs : List (BitVec 12)) (s : State) : Host.Outcome State Fault Refusal :=
  if s.gated 2 then .next s
  else .next (((List.range 7).zip mvs).foldl (fun s e => s.sampleRail e.1 e.2.toNat) s)

/-- FAULT_N is driven low (R423): thermal trip, recovery, CSTS.CFS on any controller, or VDD_CORE or VDD_SRAM outside its
window for more than 1 ms. -/
def State.faultLow (s : State) : Bool :=
  !s.pins.thermtripN || s.fld F.SEC_BOOTSTAT_PATH == 3 || s.hif.fns.any (fun e => e.2.cfs) ||
  [0, 1].any fun r => match Tab.find s.mgt.railOut r with
    | some t => decide (t + 1000000 < s.now)
    | none => false

/-! ### Ring oscillators (R409) -/

/-- The multiplier of an island's present clock: 0 on its RC oscillator (R15). -/
def State.clockMult (s : State) (i : Nat) : Nat :=
  if s.flag (F.ISL_CLKSTAT_SRCACT i) then s.fld (F.ISL_CLKCTL_MULT i) else 0

/-- RING_OSC_GATE: MGT counts each island's ring oscillator; a power-gated island reads 0 in both fields (R409). -/
def execRingOscGate (counts : List (BitVec 16)) (s : State) : Host.Outcome State Fault Refusal :=
  if s.gated 2 then .next s
  else .next (((List.range 176).zip counts).foldl (fun s e =>
    if s.gated e.1 then s.setWord (R.MGT_ROSC e.1) 0
    else (s.setFld (F.MGT_ROSC_COUNT e.1) e.2.toNat).setFld (F.MGT_ROSC_MIN e.1)
      (Config.roscMin e.1 (s.clockMult e.1) % 65536)) s)

/-- The ring oscillator margin of the slowest powered island: the least COUNT − MIN (R409). -/
def State.roscMargin (s : State) : Option Int :=
  ((List.range 176).filter fun i => !s.gated i).foldl (fun a i =>
    let m := (s.fld (F.MGT_ROSC_COUNT i) : Int) - s.fld (F.MGT_ROSC_MIN i)
    match a with
    | some x => some (min x m)
    | none => some m) none

/-- GENERAL_TIMER_EXPIRY: a general timer runs out; the spec gives its owner no register to see it by (R14, R410). -/
def execGeneralTimerExpiry (t : Fin 64) (s : State) : Host.Outcome State Fault Refusal :=
  .next (s.mg fun m => { m with timers := Tab.set m.timers t.val s.now })

end Sys2Proof.Machine
end

