-- ==== Sys2Proof/Machine/HostLink.lean ====
section
/-! DEFINITION. Resets of functions and ports, shutdown, links of the PCIe ports and the registers of R253 to R266 that have
rows of their own. -/

namespace Sys2Proof.Machine

/-! ### Commands that end without a completion (R284) -/

/-- Cancel what a slot's reads wait for: its operations not yet dispatched are withdrawn, what dispatched ones return is no
longer wanted, and its reconstructions end. -/
def State.cancelReads (s : State) (i : Nat) : State :=
  let mine := fun (o : DieOp) => o.purpose == .host i
  let ren := fun (o : DieOp) => if mine o then { o with purpose := .host 70000 } else o
  let s := s.withdrawOps mine
  let pod := fun (p : Pod) => { p with op := ren p.op }
  let s := s.zn fun z => { z with
    dies := z.dies.map fun e => (e.1, { e.2 with active := e.2.active.map pod, susp := e.2.susp.map pod }),
    dones := z.dones.map fun d => { d with op := ren d.op },
    decodes := z.decodes.map fun e => (e.1, { e.2 with op := ren e.2.op }) }
  (Tab.keys (Tab.keep s.zne.recons fun _ r => match r.for_ with
    | .host j _ => j == i
    | _ => false)).foldl (fun s k => s.endRecon k) s

/-- Blocks of a slot's write whose data has not been taken. -/
def State.untaken (s : State) (x : Slot) : List Nat :=
  (x.bufs.filter fun e => ((Tab.find s.zne.bufs e.2).map (·.st)) == some .reserved).map (·.1)

/-- A started write keeps the blocks it has taken; the others are voided or keep their previous data. -/
def State.stopWrite (s : State) (i : Nat) (x : Slot) : State :=
  if s.isConv x.ns then (s.giveUpConv i).writeDone i
  else
    let un := s.untaken x
    ((s.voidFill i).modSlot i fun x => { x with taken := x.taken ++ un.filter fun k => !x.taken.contains k }).writeDone i

/-- What a reset of its function makes of an admitted command (R284): reads are cancelled, a zoned write is assigned its LBAs
and applied block by block, a Copy keeps its landed blocks, anything else ends without effect; no completion is posted. -/
def State.endSlotReset (s : State) (i : Nat) : State :=
  match s.slot i with
  | none => s
  | some x =>
    let sent := s.casc.fwd.any fun e => e.2.slot == i
    let s := s.cs fun c => { c with fwd := Tab.keep c.fwd fun _ f => f.slot != i }
    let s := s.modSlot i fun y => { y with silent := true, qid := 65 }
    if sent then s.freeSlot i
    else if x.opc = 0x19 then
      if x.started then (s.cancelReads i).endCopy i x .success else s.freeSlot i
    else if x.opc = 0x01 ∨ x.opc = 0x7D then
      let s := if x.started || s.isConv x.ns then s else s.zonedWrite i { x with silent := true, qid := 65 } (x.opc = 0x7D)
      match s.slot i with
      | none => s
      | some y => if y.started then s.stopWrite i y else s.freeSlot i
    else ((s.cancelReads i).freeSlot i).wakeConv

/-- Slots of a function's admitted commands, in the order of admission. -/
def State.slotsOf (s : State) (fn : Nat) : List (Nat × Slot) :=
  (s.hif.slots.filter fun e => e.2.fn = fn && !e.2.silent).mergeSort fun a b => decide (a.2.order ≤ b.2.order)

/-- A write that a reset leaves applied in part. -/
def State.inPart (s : State) (x : Slot) : Bool :=
  match x.opc with
  | 0x19 => decide (x.cursor < x.nlb)
  | 0x01 | 0x7D => !x.started || !(s.untaken x).isEmpty
  | _ => false

/-- BAR2 of a port closes, with event 0x0604 (R264). -/
def State.closeDiag (s : State) (p : Nat) : State :=
  if s.flag (F.HIF_DIAGCTL_OPEN p) then
    let isl := s.fld (F.HIF_DIAGCTL_ISEL p)
    ((s.setFld (F.HIF_DIAGCTL_OPEN p) 0).setFld (F.HIF_DIAGCTL_ISEL p) 0).hifPost p 0x0604 [(8, p), (8, isl), (8, 0)]
  else s

/-- The number that stands for no function: a command whose completion a reset discarded. -/
def noFn : Nat := 512

/-- A function is reset (R284, R285): its admitted commands end without completions, its queues, features and requests go;
a PF's diagnostic window closes; an activation it asked for is cancelled; erases and a formation it asked for go on. -/
def State.resetFunction (s : State) (fn : Nat) (nssro : Bool) : State :=
  let live := s.slotsOf fn
  let p := fn / 128
  let reads := (live.filter fun e => e.2.reads).length
  let part := (live.filter fun e => s.inPart e.2).length
  let s := if live.isEmpty then s else s.hifPost p 0x0609 [(8, fn), (16, reads), (16, part)] (s.fnTen fn)
  let s := live.foldl (fun s e => s.endSlotReset e.1) s
  let mine := fun (k : Nat) => k / 65 == fn
  let old := s.func fn
  let fresh := { Func.initial with nssro := nssro || old.nssro, fetchOff := old.fetchOff }
  let act := match s.hif.activation with
    | some a => if a.fn = fn then none else some a
    | none => none
  let by_ := match s.hif.formBy with
    | some b => if b.1 = fn then some (noFn, 0) else some b
    | none => none
  let s := s.hf fun h => { h with
    fns := Tab.adjust h.fns fn fun _ => fresh,
    peeks := h.peeks.filter fun e => e.1 != fn,
    held := Tab.keep h.held fun k _ => !mine k,
    starved := Tab.keep h.starved fun _ k => !mine k,
    nmWait := h.nmWait.filter fun w => w.fn != fn,
    activation := act,
    formBy := by_ }
  let s := s.sc fun x => { x with erases := x.erases.map fun e => if e.fn = fn then { e with fn := noFn } else e }
  let s := s.cs fun c => { c with adm := c.adm.map fun e => (e.1, if e.2.fn = fn then { e.2 with fn := noFn } else e.2) }
  let s := s.setFld (F.HIF_FNMAP_QALLOC p (fn % 128)) 0
  let s := if isPf fn then s.closeDiag p else s
  s.endFreezeOf fn

/-- CONTROLLER_RESET: CC.EN of a function is written from 1 to 0 (R284, R285). -/
def execControllerReset (fn : FnId) (s : State) : Host.Outcome State Fault Refusal :=
  if (s.func fn.val).ctl = .disabled then .next s else .next (s.resetFunction fn.val false)

/-- FUNCTION_LEVEL_RESET (R284, R285). -/
def execFunctionLevelReset (fn : FnId) (s : State) : Host.Outcome State Fault Refusal :=
  .next (s.resetFunction fn.val false)

/-- Every function of a port is reset as by a controller reset (R254, R284). -/
def State.resetPortFns (s : State) (p : Nat) (nssro : Bool) : State :=
  let fns := (Tab.keys s.hif.fns).filter fun fn => fn / 128 = p && fn % 128 != 0
  (p * 128 :: fns).foldl (fun s fn => s.resetFunction fn nssro) s

/-! ### Links (R252 to R256) -/

/-- A port is in use under the strapped configuration (R251). -/
def State.portUsed (s : State) (p : Nat) : Bool := s.flag (F.HIF_PORTSTAT_INUSE p)

/-- Lanes of a port under the strapped configuration (R251). -/
def State.portWidth (s : State) (p : Nat) : Nat := if s.fld (F.HIF_PORTSTAT_CFG p) = 0 then 16 else 8

/-- A port's PERSTn_N pin is deasserted. -/
def State.perstHigh (s : State) (p : Nat) : Bool := if p = 0 then s.pins.perst0 else s.pins.perst1

/-- Event 0x0601: a link came up (cause 0), went down (1) or retrained (2). -/
def State.linkEvent (s : State) (p cause : Nat) : State :=
  s.hifPost p 0x0601 [(8, p), (3, s.fld (F.HIF_PORTSTAT_RATE p)), (5, s.fld (F.HIF_PORTSTAT_WIDTH p)), (8, cause)]

/-- A port's link is down: HIF_PORTSTAT and HIF_IDESTAT.SECURE describe it (R254). -/
def State.linkDown (s : State) (p : Nat) : State :=
  let was := s.flag (F.HIF_PORTSTAT_LINKUP p)
  let s := ((s.setFld (F.HIF_PORTSTAT_LINKUP p) 0).setFld (F.HIF_PORTSTAT_FLIT p) 0).setFld (F.HIF_PORTSTAT_RATE p) 0
  let s := ((s.setFld (F.HIF_PORTSTAT_WIDTH p) 0).setFld (F.HIF_PORTSTAT_LPS p) 6).setFld (F.HIF_IDESTAT_SECURE p) 0
  let s := s.modPort p fun x => { x with l0pReq := none, rr := 0, burst := 0, lastUrg := 0, tried := [] }
  if was then s.linkEvent p 1 else s

/-- A port trains when its PHY is released and PERSTn_N is high (R253, R432). -/
def State.startTraining (s : State) (p : Nat) : State :=
  let go := s.portUsed p && s.flag (F.HIF_LINKCFG_LTEN p) && s.perstHigh p
  s.modPort p fun x => { x with training := go }

/-- Set the level of a port's PERSTn_N pin. -/
def State.setPerst (s : State) (p : Nat) (high : Bool) : State :=
  { s with pins := if p = 0 then { s.pins with perst0 := high } else { s.pins with perst1 := high } }

/-- PERST_ASSERT: PERSTn_N resets the functions, configuration space, VF enables and IDE streams of its port (R254). A port not
in use ignores it (R251). -/
def execPerstAssert (p : Port) (s : State) : Host.Outcome State Fault Refusal :=
  let s := s.setPerst p.val false
  if s.portUsed p.val = false then .next s
  else
    let s := (s.resetPortFns p.val false).linkDown p.val
    .next (s.modPort p.val fun x => { x with
      training := false, perst := true, vfen := false, numVfs := 0, streams := [], wasUp := false })

/-- PERST_DEASSERT: the port begins to train once LTEN is 1 as well (R432). -/
def execPerstDeassert (p : Port) (s : State) : Host.Outcome State Fault Refusal :=
  let s := (s.setPerst p.val true).modPort p.val fun x => { x with perst := false }
  if s.flag (F.HIF_PORTSTAT_LINKUP p.val) then .next s else .next (s.startTraining p.val)

/-- SURPRISE_LINK_DOWN: a link leaves DL_Up without a request: its port's functions are reset, HIF_LINKDOWN counts it, and the
port retrains (R254). -/
def execSurpriseLinkDown (p : Port) (s : State) : Host.Outcome State Fault Refusal :=
  if s.flag (F.HIF_PORTSTAT_LINKUP p.val) = false then .next s
  else .next ((((s.bump (F.HIF_LINKDOWN_COUNT p.val)).resetPortFns p.val false).linkDown p.val).startTraining p.val)

/-- NVM_SUBSYSTEM_RESET: every function of every port and node is reset with CSTS.NSSRO set, and the links of every port are
reset (R284). A host of this node asks for it (`here`), or another node passes it on. -/
def execNvmSubsystemReset (here : Bool) (s : State) : Host.Outcome State Fault Refusal :=
  let s := (s.resetPortFns 0 true).resetPortFns 1 true
  let s := [0, 1].foldl (fun (s : State) p =>
    if s.flag (F.HIF_PORTSTAT_LINKUP p) then (s.linkDown p).startTraining p else s) s
  if here then
    .next ([0, 1].foldl (fun (s : State) v => if s.flag (F.VUK_LINKSTAT_UP v) then s.sendVuk v .reset 0 0 else s) s)
  else .next s

/-- LTEN of a port is written 1: ignored on the RC oscillator (R253) and while its PHY's rail is outside its window (R429). -/
def State.linkEnable (s : State) (p : Nat) : State :=
  if s.flag (F.ISL_CLKSTAT_SRCACT (0x0C + p)) = false ∨ s.flag (F.HIF_LINKCFG_LTEN p) = true ∨ s.railOk 5 = false then s
  else (s.setFld (F.HIF_LINKCFG_LTEN p) 1).startTraining p

/-- LINK_ENABLE (R253). -/
def execLinkEnable (p : Port) (s : State) : Host.Outcome State Fault Refusal := .next (s.linkEnable p.val)

/-- LINK_TRAINED: a port completes training at a rate and width its configuration allows (R252); a training after the first
since PERSTn_N counts in HIF_RETRAIN, and one below MAXRATE or the strapped width posts event 0x0602 (R269). -/
def execLinkTrained (p : Port) (rate : BitVec 3) (width : BitVec 5) (s : State) : Host.Outcome State Fault Refusal :=
  let x := s.port p.val
  let up := s.flag (F.HIF_PORTSTAT_LINKUP p.val)
  if (x.training = false ∧ up = false) ∨ rate.toNat = 0 ∨ s.fld (F.HIF_LINKCFG_MAXRATE p.val) < rate.toNat ∨
      width.toNat ∉ [1, 2, 4, 8, 16] ∨ s.portWidth p.val < width.toNat then .next s
  else
    let s := if x.wasUp then s.bump (F.HIF_RETRAIN_COUNT p.val) else s
    let s := (s.setFld (F.HIF_PORTSTAT_LINKUP p.val) 1).setFld (F.HIF_PORTSTAT_FLIT p.val) (if rate.toNat = 6 then 1 else 0)
    let s := (s.setFld (F.HIF_PORTSTAT_RATE p.val) rate.toNat).setFld (F.HIF_PORTSTAT_WIDTH p.val) width.toNat
    let s := (s.setFld (F.HIF_PORTSTAT_LPS p.val) 0).modPort p.val fun y => { y with
      training := false, wasUp := true, idle := s.now, l0pReq := none }
    let s := s.linkEvent p.val (if x.wasUp then 2 else 0)
    if rate.toNat < s.fld (F.HIF_LINKCFG_MAXRATE p.val) ∨ width.toNat < s.portWidth p.val then
      .next (s.hifPost p.val 0x0602 [(8, p.val), (3, rate.toNat), (5, width.toNat)])
    else .next s

/-- L0P_WIDTH_REQUEST: after 20 µs without traffic that needs the full width a port at 64 GT/s asks for a narrower one
(0 x1, 1 x2, 2 x4, 3 x8), never below L0PMIN (R255). -/
def execL0pWidthRequest (p : Port) (w : Fin 4) (s : State) : Host.Outcome State Fault Refusal :=
  let now := match (s.port p.val).l0pReq with
    | some v => 2 ^ v
    | none => s.fld (F.HIF_PORTSTAT_WIDTH p.val)
  if s.flag (F.HIF_LINKCFG_L0PEN p.val) = true ∧ s.fld (F.HIF_PORTSTAT_RATE p.val) = 6 ∧
      s.fld (F.HIF_PORTSTAT_LPS p.val) ≤ 1 ∧ s.fld (F.HIF_LINKCFG_L0PMIN p.val) ≤ w.val ∧ 2 ^ w.val < now ∧
      (s.port p.val).idle + 20000 ≤ s.now then
    .next ((s.setFld (F.HIF_PORTSTAT_LPS p.val) 1).modPort p.val fun x => { x with l0pReq := some w.val })
  else .next s

/-- IDE_INTEGRITY_FAIL: a TLP that fails its IDE check is discarded and counted; its stream goes Insecure, and the commands whose
data transfers used it fail with Data Transfer Error (R266). `slots` are those commands. -/
def execIdeIntegrityFail (p : Port) (stream : Fin 8) (rid : BitVec 16) (slots : List (Fin 65536)) (s : State) :
    Host.Outcome State Fault Refusal :=
  let s := s.bump (F.HIF_IDEDROP_COUNT p.val)
  let sec := s.fld (F.HIF_IDESTAT_SECURE p.val)
  if bit sec stream.val = false then .next s
  else
    let s := s.setFld (F.HIF_IDESTAT_SECURE p.val) (clrBit sec stream.val)
    let s := s.setFld (F.HIF_IDESTAT_FAIL p.val) (setBit (s.fld (F.HIF_IDESTAT_FAIL p.val)) stream.val)
    let s := s.hifPost p.val 0x0603 [(8, p.val), (8, stream.val), (16, rid.toNat)]
    .next (slots.foldl (fun s i => match s.slot i.val with
      | some x =>
        if x.fn / 128 ≠ p.val then s
        else if x.reads then (s.cancelReads i.val).complete i.val .dataTransferError
        else s.transferFail i.val .dataTransferError
      | none => s) s)

/-- VF_ENABLE_WRITE: VF Enable and NumVFs of a port's SR-IOV capability are written (R257, R259). NumVFs holds while VF Enable is
1; VFs that go away are reset. -/
def execVfEnableWrite (p : Port) (enable : Bool) (num : Fin 128) (s : State) : Host.Outcome State Fault Refusal :=
  let x := s.port p.val
  if s.portUsed p.val = false ∨ x.perst = true then .next s
  else if x.vfen then
    if enable then .next s
    else
      let s := (List.range x.numVfs).foldl (fun s k => s.resetFunction (p.val * 128 + k + 1) false) s
      let s := s.hf fun h => { h with fns := Tab.keep h.fns fun k _ => !(k / 128 == p.val && k % 128 != 0) }
      .next (s.modPort p.val fun x => { x with vfen := false })
  else .next (s.modPort p.val fun x => { x with vfen := enable, numVfs := num.val })

/-- A VF of a port is enabled (R259); function 0 always is. -/
def State.fnEnabled (s : State) (fn : Nat) : Bool :=
  fn % 128 == 0 || ((s.port (fn / 128)).vfen && decide (fn % 128 ≤ (s.port (fn / 128)).numVfs))

/-- A write of HIF_DIAGCTL: ALLOW and LOCK, unless LOCK is set; BAR2 closes when ALLOW is cleared (R264). -/
def State.diagctlWrite (s : State) (p : Nat) (v : Nat) : State :=
  if s.flag (F.HIF_DIAGCTL_LOCK p) then s
  else
    let s := (s.setFld (F.HIF_DIAGCTL_ALLOW p) (v % 2)).setFld (F.HIF_DIAGCTL_LOCK p) (v / 2 % 2)
    if v % 2 = 0 then s.closeDiag p else s

/-- DIAGCTL_WRITE (R264). -/
def execDiagctlWrite (p : Port) (v : W32) (s : State) : Host.Outcome State Fault Refusal :=
  .next (s.diagctlWrite p.val v.toNat)

/-! ### Enabling and shutdown (R285, R286) -/

/-- CONTROLLER_ENABLE: CC.EN of a function is written from 0 to 1 with CC.AMS and the admin queue sizes (0's based). The controller
becomes ready once the start-up has run; a node that is orphaned, or a member that is not admitted, sets CSTS.CFS (R285, R385,
R393). MRAM sealed by a shutdown is open again. -/
def execControllerEnable (fn : FnId) (wrr : Bool) (asqs acqs : BitVec 12) (s : State) : Host.Outcome State Fault Refusal :=
  if (s.func fn.val).ctl ≠ .disabled ∨ (s.func fn.val).fetchOff = true ∨ s.fnEnabled fn.val = false ∨ s.flag (F.HIF_PORTSTAT_LINKUP (fn.val / 128)) = false then
    .next s
  else
    let cfs := s.casc.orphan || (s.isMember && !s.casc.admitted)
    let ctl := if s.boot.started && s.zne.husk.replayed then CtlSt.ready else .enabling
    let s := s.modFunc fn.val fun f => { f with
      ctl := ctl, cfs := cfs, shst := 0, ams := b2n wrr,
      sqs := [(0, ⟨0, asqs.toNat + 1, .medium, false, 0, 0, 0⟩)], cqs := [(0, ⟨acqs.toNat + 1, 0, 0, 0, 0⟩)] }
    let s := s.hk fun h => { h with hdr0 := { h.hdr0 with isSealed := false }, hdr1 := { h.hdr1 with isSealed := false } }
    .next { s with mram := { s.mram with isSealed := false } }

/-- Conventional dirty data goes to the stage in the power-loss sequence (R182): stripes that hold it and have not been granted are given
up, and each block that its entry still points to is packed in the stage stripe of its rank set. -/
def State.stageConv (s : State) : State :=
  let ks := Tab.keys (Tab.keep s.zne.stripes fun _ t => (match t.of_ with | .conv _ _ => true | _ => false) &&
    (t.st = .filling || t.st = .committed))
  let s := ks.foldl (fun s k => s.dropStripe k) s
  s.zne.bufs.foldl (fun s e =>
    match e.2.own with
    | .conv n lba ruh =>
      if e.2.st = .held ∧ e.2.staging = false ∧ s.mapAt n lba = some (.buffer e.1) then
        match s.nextStage (((s.cns n).map (·.set)).getD 0) true with
        | (some k, s) => (s.packInto k (.conv n lba ruh) (some e.1) none).modBuf e.1 fun y => { y with staging := true }
        | (none, s) => s
      else s
    | _ => s) s

/-- All dirty data goes to the SLC stage: every zone's buffers are packed, and every filling SLC stripe is programmed (R286,
R373, R393). -/
def State.stageAll (s : State) : State :=
  let s := if s.power.loss.isSome then s.stageConv else s
  let zs := (Tab.keys s.zne.zones).filter fun z => (s.zoneBufs z).any fun b => b.2.st = .held && !b.2.staging
  let s := zs.foldl (fun s z => s.stageZone z true) s
  (Tab.keys (Tab.keep s.zne.stripes fun _ t => t.slc && t.st = .filling && !t.want && !t.pack.isEmpty)).foldl
    (fun s k => s.wantStripe k) s

/-- The table pages are written, and the Husk and MRAM sealed: each copy's header takes SEALED, the program epoch and the HSEQ high-water
(R128, R226, R286). -/
def State.sealAll (s : State) : State :=
  let s := (s.nextEpochs (18 * ((s.zne.mapDirty.length + s.stageLps - 1) / s.stageLps))).2
  let s := s.savePages s.zne.mapDirty
  let hdr := fun (h : Husk) (b : Nat) (x : HuskHdr) =>
    if s.bankFailed b then x else { x with isSealed := true, epoch := h.epoch, high := h.hseq }
  let s := s.hk fun h => { h with hdr0 := hdr h 2 h.hdr0, hdr1 := hdr h 3 h.hdr1 }
  { s with mram := { s.mram with isSealed := true } }

/-- A function has a command admitted and not completed. -/
def State.busyFn (s : State) (fn : Nat) : Bool :=
  !(s.slotsOf fn).isEmpty || s.sec.erases.any (fun e => e.fn == fn) || s.hif.nmWait.any (fun w => w.fn == fn) ||
  (match s.hif.activation with
    | some a => a.fn == fn
    | none => false)

/-- Another controller of this device is enabled and not shut down. -/
def State.othersUp (s : State) (fn : Nat) : Bool :=
  s.hif.fns.any fun e => e.1 != fn && e.2.ctl = .ready && e.2.shst == 0

/-- A notified function goes on with its shutdown: once its commands are done it reports SHST = 2; the last controller first has
all dirty data staged and MRAM sealed (R286). -/
def State.shutdownStep (s : State) (fn : Nat) : State :=
  if (s.func fn).shst ≠ 1 ∨ s.busyFn fn = true then s
  else if s.othersUp fn then s.modFunc fn fun f => { f with shst := 2 }
  else
    let s := s.stageAll
    if s.zne.bufs.isEmpty then s.sealAll.modFunc fn fun f => { f with shst := 2 } else s

/-- SHUTDOWN_NOTIFICATION: CC.SHN is written on a function (R284, R286). -/
def execShutdownNotification (fn : FnId) (s : State) : Host.Outcome State Fault Refusal :=
  if (s.func fn.val).ctl ≠ .ready ∨ (s.func fn.val).shst ≠ 0 then .next s
  else .next ((s.modFunc fn.val fun f => { f with shst := 1 }).shutdownStep fn.val)

end Sys2Proof.Machine
end

