-- ==== Sys2Proof/Machine/MramStore.lean ====
section
/-! DEFINITION. Stores of cores to the MRAM config region (R348), remapped words and failed banks (R131, R347, R352). -/

namespace Sys2Proof.Machine

/-- First byte of the config region in the MRAM window: regions follow one another as R349 lists them (assumption 19). -/
def cfgBase : Nat := 0x21600000

/-- An offset of the config region whose records are mirrored (R350). -/
def cfgMirrored (off : Nat) : Bool :=
  decide (off < 0x10000) || (decide (0x70000 ≤ off) && decide (off < 0xA0000))

/-- Change what MRM holds. -/
def State.mr (s : State) (f : Mram → Mram) : State := { s with mram := f s.mram }

/-- Both Husk banks have failed: the dirty data, zoned and conventional, is to be flushed without Husk entries (NO_HUSK_FLUSH, R131);
stripes that waited for a record give it up. -/
def State.noHuskFlush (s : State) : State :=
  let s := s.hk fun h => { h with noHusk := true }
  let ks := Tab.keys (Tab.keep s.zne.stripes fun _ t => (t.st = .filling || t.st = .committed) && (match t.of_ with
    | .body _ _ => true
    | _ => false))
  (ks.foldl (fun s k => s.dropStripe k) s).stageConv.stageAll

/-- MRAM_BANK_FAIL: a bank is declared failed (causes: 0 spares exhausted, 1 uncorrectable reads, 2 self-test), its mask recorded in
both config copies, event 0x0807 posted; a Husk bank leaves the other copy to serve with event 0x0301, and with bank 2 the Lost
Row Table, erase ledger and closing list are lost (R131, R349, R351, R352). The records affected, in 0x0301, are all 6,400 of the copy
(DESIGN CHOICE, assumption 66). -/
def State.bankFail (s : State) (b cause : Nat) : State :=
  if bit (s.fld F.MRM_BANKSTAT_FAILED) b then s
  else
    let s := s.setFld F.MRM_BANKSTAT_FAILED (setBit (s.fld F.MRM_BANKSTAT_FAILED) b)
    let s := s.cfgWrite.mrmPost 0x0807 [(8, b), (8, cause)]
    if b < 2 then s
    else
      let s := s.znePost 0x0301 [(8, b - 2), (16, 6400)]
      let s := if b = 2 then
          let s := (s.zn fun z => { z with lost := [], lostFull := true, lostGen := z.lostGen + 1, ledger := [] }).hk fun h =>
            { h with closing := [] }
          if s.boot.started then s.loseLedger 2 else s
        else s
      if s.huskLost then s.noHuskFlush else s

/-- MRAM_WORD_REMAP: a word that still fails its read-back after two rewrites takes a spare word of its bank; a bank without spares
fails (R347, R352). -/
def State.remapWord (s : State) (b phys : Nat) : State :=
  let left := Tab.getD s.mram.spare b 256 - 1
  let s := (s.mr fun m => { m with spare := Tab.set m.spare b left }).bump F.MRM_REMAP_COUNT
  let s := if b = 2 then s.setFld F.MRM_BANKSTAT_SPARE2 left else s
  let s := s.mrmPost 0x0806 [(8, b), (24, phys), (9, left)]
  if left = 0 then s.bankFail b 0 else s

/-- An uncorrectable read of a word: event 0x0808; 16 within 24 hours fail the bank (R347, R352). -/
def State.mramUe (s : State) (b region word : Nat) : State :=
  let day := 86400 * 1000000000
  let ts := s.now :: (Tab.getD s.mram.ue b []).filter fun t => decide (s.now < t + day)
  let s := (s.mr fun m => { m with ue := Tab.set m.ue b ts }).bump F.MRM_UE_COUNT
  let s := s.mrmPost 0x0808 [(8, b), (8, region), (32, word)]
  if 16 ≤ ts.length then s.bankFail b 1 else s

/-- The gathered word is written (R348): its doublewords take effect together; every write counts for the region's gap. A record
that is not mirrored is lost with bank 2. -/
def State.flushGather (s : State) (w : MramWrite) : State :=
  match s.mram.gather with
  | none => s
  | some g =>
    let s := s.mr fun m => { m with gather := none }
    let off := g.word - cfgBase
    let full := g.dws.length = 4
    if s.portDown 0x04 then g.cores.foldl (fun s c => s.trap c .imprecise g.word) s
    else if w = .unreadable ∧ full = false then
      let s := s.mramUe 2 2 (off / 32)
      g.cores.foldl (fun s c => s.trap c .imprecise g.word) s
    else
      let kept := !s.bankFailed 2 || (cfgMirrored off && !s.bankFailed 3)
      let s := if kept then g.dws.foldl (fun s d => s.store (g.word + d.1 * 8) (leBytes 8 d.2.toNat)) s else s
      let phys := sgPhys (s.sg 2) (sgWords 2) (off / 32)
      let s := s.cfgWrite (cfgMirrored off)
      if w = .remapped then s.remapWord 2 phys else if w = .corrected then s.bump F.MRM_CE_COUNT else s

/-- A core's 64-bit store to the config region is gathered; a store to the word's doubleword 3 writes it, and one to another word
first writes the word gathered before. Any other store to MRAM traps (R348). -/
def State.mramStore (s : State) (c a size v : Nat) (w : MramWrite) : State :=
  if size ≠ 3 ∨ a % 8 ≠ 0 ∨ a < cfgBase ∨ cfgBase + 0x100000 ≤ a then s.trap c .store a
  else
    let word := a / 32 * 32
    let dw := a % 32 / 8
    let other : Bool := match s.mram.gather with
      | some g => g.word != word
      | none => false
    let s := if other then s.flushGather w else s
    let g := (s.mram.gather).getD ⟨word, [], []⟩
    let g : Gather := ⟨word, g.dws.filter (fun d => d.1 != dw) ++ [(dw, BitVec.ofNat 64 v)],
      if g.cores.contains c then g.cores else g.cores ++ [c]⟩
    let s := s.mr fun m => { m with gather := some g }
    if dw = 3 then s.flushGather w else s

/-- MRAM_CORE_STORE (R348): `w` says how the word write went, where one is made. -/
def execMramCoreStore (c : CoreId) (a : BitVec 40) (size : Fin 4) (v : W64) (w : MramWrite) (s : State) :
    Host.Outcome State Fault Refusal :=
  if s.cores.halted.getLsbD c.val || s.region a.toNat != .mram then .next s
  else if s.blocked a.toNat then .next (s.trap c.val .store a.toNat)
  else .next (s.mramStore c.val a.toNat size.val v.toNat w)

end Sys2Proof.Machine
end

