-- ==== Sys2Proof/Machine/Sig.lean ====
section
/-! DEFINITION. The two signature checks of the boot chain by their standards (R4, R319, R320): RSASSA-PSS over RSA-3072 with SHA-384 and a
48-byte salt (RFC 8017), and pure SLH-DSA-SHA2-192s with an empty context (FIPS 205). -/

namespace Sys2Proof.Machine

/-! ### RSASSA-PSS -/

/-- b ^ e mod n over the low `k` bits of e. -/
def powMod (n : Nat) : Nat → Nat → Nat → Nat
  | 0, _, _ => 1 % n
  | k + 1, b, e => (if e % 2 = 1 then b else 1) * powMod n k (b * b % n) (e / 2) % n

/-- EMSA-PSS-VERIFY of a 48-byte message over the 384 bytes of an encoded message of 3,071 bits. -/
def pssOk (m em : List Byte) : Bool :=
  let masked := em.take 335
  let h := (em.drop 335).take 48
  let db := xorBytes masked (mgf1 sha384Bytes 7 335 h)
  let db := (db.take 1).map (· &&& 0x7F) ++ db.drop 1
  decide (em.drop 383 = [0xBC] ∧ (em.headD 0).getLsbD 7 = false ∧
    db.take 287 = List.replicate 286 0 ++ [0x01] ∧
    h = sha384Bytes (List.replicate 8 0 ++ sha384Bytes m ++ db.drop 287))

/-- Whether an RSA-3072 signature verifies over the message D: modulus and signature of 384 big-endian bytes, exponent of 4. A modulus
of fewer than 3,072 bits is no RSA-3072 key. -/
@[irreducible] def rsaVerifies (modulus exponent m sig : List Byte) : Bool :=
  let n := ofBe modulus
  decide (2 ^ 3071 ≤ n ∧ ofBe sig < n) && pssOk m (beBytes 384 (powMod n 32 (ofBe sig) (ofBe exponent)))

/-! ### SLH-DSA-SHA2-192s: n = 24, h = 63, d = 7, h' = 9, a = 14, k = 17, w = 16 -/

/-- The address of one hash call: layer, tree, type, and the three words that the type names. -/
structure Adrs where
  layer : Nat
  tree : Nat
  kind : Nat
  pair : Nat
  hi : Nat
  lo : Nat
  deriving DecidableEq, Repr

/-- The compressed address: 22 bytes. -/
def Adrs.bytes (a : Adrs) : List Byte :=
  beBytes 1 a.layer ++ beBytes 8 a.tree ++ beBytes 1 a.kind ++ beBytes 4 a.pair ++ beBytes 4 a.hi ++ beBytes 4 a.lo

/-- F: SHA-256 cut to 24 bytes. -/
def slhF (seed : List Byte) (a : Adrs) (m : List Byte) : List Byte :=
  (sha256 (seed ++ List.replicate 40 0 ++ a.bytes ++ m)).take 24

/-- H and T: SHA-512 cut to 24 bytes. -/
def slhH (seed : List Byte) (a : Adrs) (m : List Byte) : List Byte :=
  (sha512 (seed ++ List.replicate 104 0 ++ a.bytes ++ m)).take 24

/-- The first `k` digits of `w` bits of a byte string, the highest first. -/
def slhDigits (w k : Nat) (bs : List Byte) : List Nat :=
  let v := ofBe bs / 2 ^ (8 * bs.length - w * k)
  (List.range k).map fun i => v / 2 ^ (w * (k - 1 - i)) % 2 ^ w

/-- `n` steps of a chain, from step `i`. -/
def slhChain (seed : List Byte) (a : Adrs) : Nat → Nat → List Byte → List Byte
  | 0, _, x => x
  | n + 1, i, x => slhChain seed a n (i + 1) (slhF seed { a with lo := i } x)

/-- The root that a node and its authentication path give, from height `z`: `idx` is the node's number at that height. -/
def slhClimb (seed : List Byte) (a : Adrs) : List (List Byte) → Nat → Nat → List Byte → List Byte
  | [], _, _, node => node
  | p :: ps, z, idx, node =>
    let a' : Adrs := { a with hi := z + 1, lo := idx / 2 }
    slhClimb seed a ps (z + 1) (idx / 2) (slhH seed a' (if idx % 2 = 0 then node ++ p else p ++ node))

/-- The WOTS+ public key that a signature of 51 chains gives for a 24-byte message. -/
def wotsPk (seed : List Byte) (layer tree pair : Nat) (sig : List (List Byte)) (m : List Byte) : List Byte :=
  let ds := slhDigits 4 48 m
  let sum := (ds.map fun x => 15 - x).sum
  let ds := ds ++ slhDigits 4 3 (beBytes 2 (sum * 16))
  slhH seed ⟨layer, tree, 1, pair, 0, 0⟩
    ((List.range 51).map fun i =>
      slhChain seed ⟨layer, tree, 0, pair, i, 0⟩ (15 - ds.getD i 0) (ds.getD i 0) (sig.getD i [])).flatten

/-- The root of a tree of a layer that its signature, 51 chain values and a path of 9 nodes, gives for a message. -/
def xmssRoot (seed : List Byte) (layer tree leaf : Nat) (sig : List (List Byte)) (m : List Byte) : List Byte :=
  slhClimb seed ⟨layer, tree, 2, 0, 0, 0⟩ (sig.drop 51) 0 leaf (wotsPk seed layer tree leaf (sig.take 51) m)

/-- The root of the hypertree from layer `j` up. -/
def hyperRoot (seed : List Byte) : List (List (List Byte)) → Nat → Nat → Nat → List Byte → List Byte
  | [], _, _, _, m => m
  | x :: xs, j, tree, leaf, m => hyperRoot seed xs (j + 1) (tree / 512) (tree % 512) (xmssRoot seed j tree leaf x m)

/-- The FORS public key: 17 trees, each a secret value and a path of 14 nodes. -/
def forsPk (seed : List Byte) (tree leaf : Nat) (sig : List (List (List Byte))) (md : List Byte) : List Byte :=
  let ix := slhDigits 14 17 md
  slhH seed ⟨0, tree, 4, leaf, 0, 0⟩
    ((List.range 17).map fun i =>
      let x := sig.getD i []
      let idx := i * 2 ^ 14 + ix.getD i 0
      slhClimb seed ⟨0, tree, 3, leaf, 0, 0⟩ (x.drop 1) 0 idx (slhF seed ⟨0, tree, 3, leaf, 0, idx⟩ (x.headD []))).flatten

/-- Whether an SLH-DSA signature of 16,224 bytes verifies over the message D under a 48-byte public key, seed then root. -/
@[irreducible] def slhVerifies (key m sig : List Byte) : Bool :=
  let seed := key.take 24
  let root := key.drop 24
  let r := sig.take 24
  let dg := mgf1 sha512 1 39 (r ++ seed ++ sha512 (r ++ seed ++ root ++ [0, 0] ++ m))
  let tree := ofBe ((dg.drop 30).take 7) % 2 ^ 54
  let leaf := ofBe (dg.drop 37) % 512
  let nodes := pieces 24 675 (sig.drop 24)
  let pk := forsPk seed tree leaf (pieces 15 17 (nodes.take 255)) (dg.take 30)
  hyperRoot seed (pieces 60 7 (nodes.drop 255)) 0 tree leaf pk == root

end Sys2Proof.Machine
end

