-- ==== Sys2Proof/Machine/Slots.lean ====
section
/-! DEFINITION. OTP (R316), the Opern image and its verification (R317 to R320), the ACTIVE_SLOT word (R321), and the measurement
values (R328). -/

namespace Sys2Proof.Machine

/-- Change what boot holds. -/
def State.bt (s : State) (f : Boot → Boot) : State := { s with boot := f s.boot }

/-! ### OTP (R316) -/

/-- OTPSVN: the lowest fuse bit that reads 0, or 64. -/
def Otp.svn (o : Otp) : Nat := ((List.range 64).find? fun i => !bit o.fuse i).getD 64

/-- An RSA key slot is programmed and not revoked. -/
def Otp.rsaUsable (o : Otp) (k : Nat) : Bool := decide (k < 4) && Tab.getD o.rsaKey k 0 != 0 && !bit o.rsaRev k

/-- An SLH-DSA key slot is programmed and not revoked. -/
def Otp.slhUsable (o : Otp) (k : Nat) : Bool := decide (k < 4) && Tab.getD o.slhKey k 0 != 0 && !bit o.slhRev k

/-! ### The image (R317 to R319) -/

/-- The first byte of a slot in the MRAM window (R349; assumption 19). -/
def slotBase (n : Nat) : Nat := 0x20000000 + n * 0x800000

/-- A little-endian field of an image that starts at a byte of a memory. -/
def imgNat (m : List Host.Cell) (b off n : Nat) : Nat := Memory.readNat m (b + off) n

/-- Where a stage of the image begins, by its DIR entry. -/
def stageAt (m : List Host.Cell) (b k : Nat) : Nat := b + imgNat m b (48 + 16 * k + 4) 4

/-- STLEN of a stage's DIR entry. -/
def stageLen (m : List Host.Cell) (b k : Nat) : Nat := imgNat m b (48 + 16 * k + 8) 4

/-- Bytes of a stage's padded body. -/
def bodyLen (m : List Host.Cell) (b k : Nat) : Nat := (imgNat m (stageAt m b k) 8 4 + 15) / 16 * 16

/-- D of a stage: SHA-384 over its header, padded body and key block (R319). -/
def stageDigest (m : List Host.Cell) (b k : Nat) : Nat :=
  (sha384 (Memory.readBytes m (stageAt m b k) (128 + bodyLen m b k + 448))).toNat

/-- Where a stage's key block begins. -/
def keyBlock (m : List Host.Cell) (b k : Nat) : Nat := stageAt m b k + 128 + bodyLen m b k

/-- The five stages. -/
def stages : List Nat := [0, 1, 2, 3, 4]

/-- Check 0x1: header values, stages within LEN, in DIR order, without overlap. -/
def formOk (m : List Host.Cell) (b : Nat) : Bool :=
  let len := imgNat m b 8 4
  let off := fun k => stageAt m b k - b
  decide (imgNat m b 0 4 = 0x4E52504F ∧ imgNat m b 4 2 = 1 ∧ imgNat m b 6 2 = 5 ∧ len ≤ 8388608 ∧ 128 ≤ off 0) &&
  stages.all fun k => decide (off k % 16 = 0 ∧ off k + stageLen m b k ≤ len) &&
    (k == 4 || decide (off k + stageLen m b k ≤ off (k + 1)))

/-- Check 0x2: a stage's header agrees with the image header and its DIR entry, and its length is STLEN. -/
def stageOk (m : List Host.Cell) (b k : Nat) : Bool :=
  let a := stageAt m b k
  decide (imgNat m a 0 4 = 0x4753504F ∧ imgNat m a 4 1 = k + 1 ∧ imgNat m b (48 + 16 * k) 1 = k + 1 ∧
    imgNat m a 12 4 = imgNat m b 12 4 ∧ Memory.readBytes m (a + 16) 16 = Memory.readBytes m (b + 16) 16 ∧
    imgNat m a 32 48 = (sha384 (Memory.readBytes m b 128)).toNat ∧
    stageLen m b k = bodyLen m b k + 17184)

/-- Check 0x3: the RSA key of a stage is a usable one. -/
def rsaKeyOk (o : Otp) (m : List Host.Cell) (b k : Nat) : Bool :=
  let r := imgNat m (stageAt m b k) 5 1
  let kb := keyBlock m b k
  o.rsaUsable r && decide (Tab.getD o.rsaKey r 0 = (sha384 (Memory.readBytes m kb 388)).toNat) &&
  Memory.readBytes m (kb + 384) 4 == [0, 1, 0, 1]

/-- Check 0x4: the SLH-DSA key of a stage is a usable one. -/
def slhKeyOk (o : Otp) (m : List Host.Cell) (b k : Nat) : Bool :=
  let r := imgNat m (stageAt m b k) 6 1
  o.slhUsable r && decide (Tab.getD o.slhKey r 0 = (sha384 (Memory.readBytes m (keyBlock m b k + 388) 48)).toNat)

/-- Check 0x5: the RSA signature of a stage verifies. -/
def rsaSigOk (m : List Host.Cell) (b k : Nat) : Bool :=
  let kb := keyBlock m b k
  rsaVerifies (Memory.readBytes m kb 384) (Memory.readBytes m (kb + 384) 4) (leBytes 48 (stageDigest m b k))
    (Memory.readBytes m (kb + 448) 384)

/-- Check 0x6: the SLH-DSA signature of a stage verifies. -/
def slhSigOk (m : List Host.Cell) (b k : Nat) : Bool :=
  let kb := keyBlock m b k
  slhVerifies (Memory.readBytes m (kb + 388) 48) (leBytes 48 (stageDigest m b k)) (Memory.readBytes m (kb + 832) 16224)

/-- The failure code of an image (R320); 0 where it passes. `bad`: an MRAM read of it is uncorrectable. -/
def imageCode (o : Otp) (m : List Host.Cell) (b : Nat) (bad : Bool) : Nat :=
  if imgNat m b 0 4 = 0 then 0xF
  else if formOk m b = false then 0x1
  else if bad then 0x8
  else if stages.all (stageOk m b) = false then 0x2
  else if imgNat m b 12 4 < o.svn then 0x7
  else if stages.all (rsaKeyOk o m b) = false then 0x3
  else if stages.all (slhKeyOk o m b) = false then 0x4
  else if stages.all (rsaSigOk m b) = false then 0x5
  else if stages.all (slhSigOk m b) = false then 0x6
  else 0

/-- SLOT_VERIFY: the failure code of a slot; a slot of a failed bank fails with 0x8 (R320, R349). -/
def State.slotCode (s : State) (n : Nat) (bad : Bool) : Nat :=
  if bit (s.fld F.MRM_BANKSTAT_FAILED) n then 0x8 else imageCode s.boot.otp s.mem (slotBase n) bad

/-- FWREV of a slot: 8 ASCII characters. -/
def State.slotRev (s : State) (n : Nat) : List Byte := Memory.readBytes s.mem (slotBase n + 40) 8

/-- SVN of a slot's header. -/
def State.slotSvn (s : State) (n : Nat) : Nat := imgNat s.mem (slotBase n) 12 4

/-! ### The ACTIVE_SLOT word (R321) -/

/-- The word can be read: not both of its banks have failed (R350). -/
def State.wordReadable (s : State) : Bool := !(s.bankFailed 2 && s.bankFailed 3)

/-- ACTIVE, PENDING and TRIES of the word, where it is valid. -/
def State.activeWord (s : State) : Option (Nat × Nat × Nat) :=
  let f := fun off n => imgNat s.mem cfgBase off n
  if s.wordReadable && decide (f 28 4 = (crc32c (Memory.readBytes s.mem cfgBase 28)).toNat) && decide (f 0 1 ≤ 1) &&
      (decide (f 1 1 ≤ 1) || f 1 1 == 0xFF) then
    some (f 0 1, f 1 1, f 2 1)
  else none

/-- SEQ of the word. -/
def State.activeSeq (s : State) : Nat := imgNat s.mem cfgBase 4 4

/-- ACTIVE_SLOT_WRITE: the word is written whole, with SEQ raised and its CRC. -/
def State.writeActive (s : State) (active pending tries : Nat) : State :=
  let b := leBytes 1 active ++ leBytes 1 pending ++ leBytes 1 tries ++ leBytes 1 0 ++ leBytes 4 (s.activeSeq + 1) ++
    leBytes 20 0
  let s := if s.wordReadable then s.store cfgBase (b ++ leBytes 4 (crc32c b).toNat) else s
  s.cfgWrite

/-- The slot that runs (R321): ACTIVE, where the word is valid. -/
def State.activeSlot (s : State) : Nat :=
  match s.activeWord with
  | some (a, _, _) => a
  | none => s.fld F.SEC_BOOTSTAT_SLOT

/-! ### Measurements (R328) -/

/-- The device is in test mode: recovery with BOOTSEL at 1 (R414). -/
def State.testMode (s : State) : Bool := s.recovery && s.flag F.SEC_BOOTSTAT_BOOTSEL

/-- Index 1: the digest of Sprout. -/
def romMeas : List Byte := leBytes 48 Config.romDigest.toNat

/-- Index 2: key hashes, revocation bits and OTPSVN. -/
def State.otpMeas (s : State) : List Byte :=
  let o := s.boot.otp
  let keys := fun (t : Tab Nat) => ([0, 1, 2, 3].map fun k => leBytes 48 (Tab.getD t k 0)).flatten
  leBytes 48 (sha384 (keys o.rsaKey ++ keys o.slhKey ++ leBytes 1 (o.rsaRev % 16 + o.slhRev % 16 * 16) ++
    leBytes 1 o.svn)).toNat

/-- Index 9: the boot state. -/
def State.bootMeas (s : State) : List Byte :=
  leBytes 4 (s.word R.SEC_BOOTSTAT).toNat ++ leBytes 1 (b2n s.testMode) ++ leBytes 3 0

/-- Indices 3 to 8, 10 and 11 of a slot's image. -/
def State.imageMeas (s : State) (n : Nat) : Tab (List Byte) :=
  let b := slotBase n
  (3, leBytes 48 (sha384 (Memory.readBytes s.mem b 128)).toNat) ::
  (stages.map fun k => (4 + k, leBytes 48 (stageDigest s.mem b k))) ++
  [(10, leBytes 8 (s.slotSvn n)), (11, s.slotRev n)]

/-- Measurements at a boot from a slot, or on the recovery path (R323, R329). -/
def State.measureBoot (s : State) (slot : Option Nat) : State :=
  let base := [(1, romMeas), (2, s.otpMeas), (9, s.bootMeas)]
  let img := (slot.map s.imageMeas).getD []
  s.bt fun b => { b with meas := (base ++ img).foldl (fun t e => Tab.set t e.1 e.2) [] }

/-- Measurements after an activation without reset: index 1 and index 2 stay (R326). -/
def State.measureActivation (s : State) (slot : Nat) : State :=
  let img := (9, s.bootMeas) :: s.imageMeas slot
  s.bt fun b => { b with meas := img.foldl (fun t e => Tab.set t e.1 e.2) b.meas }

end Sys2Proof.Machine
end

