-- ==== Sys2Proof/Machine/Bundle.lean ====
section
/-! DEFINITION. Kazino bundles in a slot (R219 to R222): their directory, loading and running the channels, and what DEEP loses of them. -/

namespace Sys2Proof.Machine

/-- First byte of the Kazino bundle of a slot: the body of stage 3 (R317, R318). -/
def State.bundleAt (s : State) (slot : Nat) : Nat := stageAt s.mem (slotBase slot) 2 + 128

/-- The bundle header stands: MAGIC, format, programs, and a length within the stage's body (R219, R317). -/
def State.bundleOk (s : State) (slot : Nat) : Bool :=
  let b := s.bundleAt slot
  decide (imgNat s.mem b 0 4 = 0x4F4E5A4B ∧ imgNat s.mem b 4 2 = 1 ∧ 1 ≤ imgNat s.mem b 6 2 ∧ imgNat s.mem b 6 2 ≤ 16 ∧
    32 + imgNat s.mem b 6 2 * 128 ≤ imgNat s.mem b 12 4 ∧ imgNat s.mem b 12 4 ≤ imgNat s.mem (b - 128) 8 4)

/-- A directory entry serves a profile on this sequencer, with 1 to 4,096 words, and its CRCs pass (R219, R220 step 1). -/
def State.entryOk (s : State) (base i profile : Nat) : Bool :=
  let d := base + 32 + i * 128
  let m := s.mem
  decide (imgNat m d 0 16 = profile ∧ 1 ≤ imgNat m d 20 2 ∧ imgNat m d 20 2 ≤ 4096 ∧ imgNat m d 22 2 ≤ s.fld (F.CH_ISA_VER 0) ∧
    imgNat m d 124 4 = (crc32c (Memory.readBytes m d 124)).toNat ∧
    imgNat m d 28 4 = (crc32c (Memory.readBytes m (base + imgNat m d 16 4) (imgNat m d 20 2 * 4))).toNat)

/-- The directory entry of a slot's bundle that serves a profile. -/
def State.bundleEntry (s : State) (slot profile : Nat) : Option Nat :=
  let b := s.bundleAt slot
  if s.bundleOk slot then
    ((List.range (imgNat s.mem b 6 2)).find? fun i => s.entryOk b i profile).map fun i => b + 32 + i * 128
  else none

/-- PVER of a directory entry. -/
def State.entryPver (s : State) (d : Nat) : Nat := imgNat s.mem d 24 4

/-- Load a stopped channel from a directory entry: instruction words, entries, formats, the bus timing of the channel clock's rate, TICK,
version and guard (R220 steps 2 and 3). -/
def State.loadChannel (s : State) (slot d n : Nat) : State :=
  let m := s.mem
  let at_ := s.bundleAt slot + imgNat m d 16 4
  let word := fun (a : Nat) => BitVec.ofNat 64 (imgNat m a 0 4)
  let s := (List.range (imgNat m d 20 2)).foldl (fun s i => s.setWord (R.CH_IMEM n i) (word (at_ + i * 4))) s
  let s := (List.range 16).foldl (fun (s : State) i =>
    let v := imgNat m (d + 32 + i * 2) 0 2
    (s.setFld (F.CH_ENTRY_ADDR n i) (bits v 0 12)).setFld (F.CH_ENTRY_VALID n i) (bits v 15 1)) s
  let mhz := s.fld (F.ISL_CLKCTL_MULT (0x30 + n)) * 25
  let bus := if 1200 < mhz ∧ imgNat m (d + 84) 0 4 ≠ 0 then d + 84 else d + 68
  let s := ((s.setWord (R.CH_ROWFMT n) (word (d + 64))).setWord (R.CH_BUSCFG n) (word bus)).setFld (F.CH_TICK_TICK n) mhz
  let s := (s.setWord (R.CH_POLLCFG n) (word (d + 72))).setFld (F.CH_UCVER_PVER n) (s.entryPver d)
  -- the guard registers are locked until the reset that follows CH_GUARDCTL.LOCK (R216)
  if s.flag (F.CH_GUARDCTL_LOCK n) then s
  else (s.setWord (R.CH_GUARDCFG n) (word (d + 76))).setWord (R.CH_GUARDCFG2 n) (word (d + 80))

/-- Populated channels. -/
def State.channels (s : State) : List Nat := List.range (s.fld F.ZNE_GEOM_CHANNELS)

/-- Every channel is stopped (R222 step 2). -/
def State.allStopped (s : State) : Bool := s.channels.all fun n => s.fld (F.CH_SEQSTAT_STATE n) == 0

/-- Load channels in one pass, those whose STATE is stopped, and run them (R220). -/
def State.loadOf (s : State) (slot d : Nat) (cs : List Nat) : State :=
  let cs := cs.filter fun n => s.fld (F.CH_SEQSTAT_STATE n) == 0
  let s := cs.foldl (fun s n => s.loadChannel slot d n) s
  cs.foldl (fun s n => s.seqRun n) s

/-- Load all channels in one pass and run them. -/
def State.loadAll (s : State) (slot d : Nat) : State := s.loadOf slot d s.channels

/-- The channels run the identification program while the dies' parameter pages are read, and are stopped (R221). -/
def State.identifyDies (s : State) (slot d channels : Nat) : State :=
  let cs := List.range channels
  let s := s.loadOf slot d cs
  cs.foldl (fun s n => ((s.setFld (F.CH_SEQSTAT_STATE n) 0).setFld (F.CH_SEQCTL_RUN n) 0).chPost n 0x0443
    [(2, 0), (32, s.fld (F.CH_UCVER_PVER n))]) s

/-- The channels run at 1,800 MHz where the profile and its program support 3,600 MT/s and a channel has one package load: 4 dies
(R14, R219, R224, assumption 82); else at 1,200 MHz. -/
def State.setRates (s : State) (r d dpc : Nat) : State :=
  let fast := bit (imgNat s.mem r 82 1) 1 && imgNat s.mem d 84 4 != 0 && dpc == 4
  s.channels.foldl (fun s n => s.setFld (F.ISL_CLKCTL_MULT (0x30 + n)) (if fast then 72 else 48)) s

/-- Registers of a channel island that DEEP loses: instruction memory, entries and the RWL registers of the sequencer (R197). -/
def kazinoLost : List RegId :=
  [.CH_IMEM, .CH_ENTRY, .CH_TICK, .CH_ROWFMT, .CH_BUSCFG, .CH_POLLCFG, .CH_GUARDCFG, .CH_GUARDCFG2, .CH_GUARDCTL]

/-- DEEP is entered: the channels lose those registers, which read as after a warm reset (R197). -/
def State.loseKazino (s : State) : State :=
  { s with csr := s.csr.filter fun e => match regFind e.1 with
      | some d => decide (d.1.id ∉ kazinoLost)
      | none => true }

/-- DEEP is left: firmware loads the channels that ran anew, from the booted slot's bundle, and runs them (R220, R361). -/
def State.reloadKazino (s : State) : State :=
  let run := (List.range 128).filter fun n => s.fld (F.CH_SEQSTAT_STATE n) != 0
  let s := run.foldl (fun s n => s.setFld (F.CH_SEQSTAT_STATE n) 0) { s with seqs := [] }
  let slot := s.fld F.SEC_BOOTSTAT_SLOT
  match s.bundleEntry slot s.zne.profile.name with
  | some d => s.loadOf slot d run
  | none => s

end Sys2Proof.Machine
end

