-- ==== Sys2Proof/Machine/Keys.lean ====
section
/-! DEFINITION. The key-wrap engine (R302, R303), XTS_NSK (R308), the entropy source (R314) and the crypto erase (R311, R312). -/

namespace Sys2Proof.Machine

/-! ### The key-wrap engine (R302) -/

/-- Event 0x0706: an access to the key-wrap engine was refused; requester and register offset. -/
def State.kweRefused (s : State) (q : Requester) (off : Nat) : State := s.secPost 0x0706 [(8, q.index), (16, off)]

/-- A core holds the engine. -/
def State.kweHeldBy (s : State) (q : Requester) : Bool :=
  match q with
  | .core c => s.flag F.KWE_LOCK_HELD && s.fld F.KWE_LOCK_OWNER == c.val
  | _ => false

/-- A read of KWE_LOCK by a core while it is free grants the engine; by any other requester it changes nothing. -/
def State.kweLockRead (s : State) (q : Requester) : State :=
  match q with
  | .core c => if s.flag F.KWE_LOCK_HELD then s else (s.setFld F.KWE_LOCK_HELD 1).setFld F.KWE_LOCK_OWNER c.val
  | _ => s

/-- KWE_LOCK_READ (R302). -/
def execKweLockRead (c : CoreId) (s : State) : Host.Outcome State Fault Refusal :=
  let s := s.kweLockRead (.core c)
  .next (s.answer (.core c) (s.word R.KWE_LOCK))

/-- The result of an operation: BUSY clears, DONE sets, RES is written. -/
def State.kweEnd (s : State) (res : Nat) : State :=
  ((s.setFld F.KWE_STAT_BUSY 0).setFld F.KWE_STAT_DONE 1).setFld F.KWE_STAT_RES res |>.sc fun x => { x with op := none }

/-- The engine is released; an operation that runs is abandoned: its destination slot is zeroed and RES reads 5. -/
def State.kweRelease (s : State) : State :=
  let s := s.setFld F.KWE_LOCK_HELD 0
  match s.sec.op with
  | some o => (if o.op = 1 ∨ o.op = 3 ∨ o.op = 4 then s.zeroSlot o.slot else s).kweEnd 5
  | none => s

/-- A write of KWE_LOCK: the current OWNER releases the engine, whoever writes it; any other write is ignored with event
0x0706. -/
def State.kweLockWrite (s : State) (q : Requester) (v : Nat) : State :=
  if s.flag F.KWE_LOCK_HELD ∧ v % 32 = s.fld F.KWE_LOCK_OWNER then s.kweRelease else s.kweRefused q 0x100

/-- KWE_LOCK_WRITE (R302). -/
def execKweLockWrite (c : CoreId) (v : W32) (s : State) : Host.Outcome State Fault Refusal :=
  .next (s.kweLockWrite (.core c) v.toNat)

/-- A write of KWE_CMD: refused without the engine, ignored as a whole with a reserved OP (R439) or while an operation runs;
GO starts the operation with the address and length registers as they stand. -/
def State.kweCmd (s : State) (q : Requester) (v : Nat) : State :=
  if s.kweHeldBy q = false then s.kweRefused q 0x108
  else if bits v 0 4 = 0 ∨ 6 < bits v 0 4 then s
  else
    let s := s.setWord R.KWE_CMD (BitVec.ofNat 64 (bits v 0 28))
    if bit v 31 = true ∧ s.flag F.KWE_STAT_BUSY = false then
      let s := s.setFld F.KWE_STAT_BUSY 1
      s.sc fun x => { x with
        op := some ⟨bits v 0 4, bits v 4 12, bits v 16 12, (s.word R.KWE_ADDR).toNat, s.fld F.KWE_LEN_LEN, q.index⟩
        since := s.now }
    else s

/-- The word of KWE_CMD that starts an operation. -/
def kweWord (op : Nat) (slot kek : BitVec 12) : Nat := op + slot.toNat * 2 ^ 4 + kek.toNat * 2 ^ 16 + 2 ^ 31

/-- KWE_GEN. -/
def execKweGen (c : CoreId) (slot kek : BitVec 12) (s : State) : Host.Outcome State Fault Refusal :=
  .next (s.kweCmd (.core c) (kweWord 1 slot kek))

/-- KWE_WRAP. -/
def execKweWrap (c : CoreId) (slot kek : BitVec 12) (s : State) : Host.Outcome State Fault Refusal :=
  .next (s.kweCmd (.core c) (kweWord 2 slot kek))

/-- KWE_UNWRAP. -/
def execKweUnwrap (c : CoreId) (slot kek : BitVec 12) (s : State) : Host.Outcome State Fault Refusal :=
  .next (s.kweCmd (.core c) (kweWord 3 slot kek))

/-- KWE_ZERO. -/
def execKweZero (c : CoreId) (slot kek : BitVec 12) (s : State) : Host.Outcome State Fault Refusal :=
  .next (s.kweCmd (.core c) (kweWord 4 slot kek))

/-- KWE_SEAL. -/
def execKweSeal (c : CoreId) (slot kek : BitVec 12) (s : State) : Host.Outcome State Fault Refusal :=
  .next (s.kweCmd (.core c) (kweWord 5 slot kek))

/-- KWE_UNSEAL. -/
def execKweUnseal (c : CoreId) (slot kek : BitVec 12) (s : State) : Host.Outcome State Fault Refusal :=
  .next (s.kweCmd (.core c) (kweWord 6 slot kek))

/-- A slot holds a key. -/
def State.slotFull (s : State) (k : Nat) : Bool := (Tab.find s.sec.keys k).isSome

/-- A slot may hold a wrap key (0x010 to 0x10F) or a media key (0x110 and above) (R301). -/
def slotIsMedia (k : Nat) : Bool := decide (0x110 ≤ k)

@[inherit_doc slotIsMedia] def slotIsWrap (k : Nat) : Bool := decide (0x010 ≤ k) && decide (k < 0x110)

/-- Whether a wrapping key is of the layer above a slot: a media key goes under a wrap key, a wrap key under DWK (R300). -/
def kekFits (slot kek : Nat) : Bool :=
  (slotIsMedia slot && slotIsWrap kek) || (slotIsWrap slot && (kek == 1 || kek == 3))

/-- A buffer of n bytes at a 16-byte aligned address lies in shared SRAM. -/
def sramOk (a n : Nat) : Bool := a % 16 == 0 && decide (0x10000000 ≤ a) && decide (a + n ≤ 0x10800000)

/-- GEN: an empty slot takes a key from the key DRBG with the attributes of KWE_GENATTR; slot 0x003 takes the DWK of the next
wrap epoch (R305). With banks 2 and 3 of MRAM failed every GEN and WRAP is refused with RES 4 (R350). -/
def State.kweGen (s : State) (o : KweOp) : State :=
  let kind := s.fld F.KWE_GENATTR_KIND
  if s.huskLost then s.kweEnd 4
  else if s.slotFull o.slot then s.kweEnd 3
  else if o.slot = 3 then
    let s := s.setWord (R.SEC_KSATTR 3) (BitVec.ofNat 64 (2 + 2 * 4))
    (s.sc fun x => { x with keys := Tab.set x.keys 3 (kdf 1 (x.epoch + 1)) }).kweEnd 0
  else if (kind = 0 ∧ slotIsWrap o.slot = false) ∨ (kind = 1 ∧ slotIsMedia o.slot = false) then s.kweEnd 2
  else if s.flag F.SEC_TRNGSTAT_KEYBLK then s.kweEnd 6
  else (s.genKey o.slot kind (s.fld F.KWE_GENATTR_TEN) (s.fld F.KWE_GENATTR_NSIDX) (s.fld F.KWE_GENATTR_GEN)).kweEnd 0

/-- WRAP: the blob of a slot's key is written to shared SRAM (R303). -/
def State.kweWrap (s : State) (o : KweOp) : State :=
  if s.huskLost then s.kweEnd 4
  else if s.slotFull o.slot = false ∨ s.slotFull o.kek = false then s.kweEnd 3
  else if kekFits o.slot o.kek = false then s.kweEnd 2
  else if s.hasInvocation o.kek = false then s.kweEnd 4
  else if sramOk o.addr 128 = false then s.kweEnd 7
  else
    let (b, s) := s.wrapBlob o.slot o.kek
    ((s.store o.addr b).kweEnd 0).rotateDue o.kek

/-- UNWRAP: an empty slot is loaded from an authenticated blob, with the attributes of its header; a blob that fails writes
nothing (R302, R303). -/
def State.kweUnwrap (s : State) (o : KweOp) : State :=
  if s.slotFull o.slot = true ∨ s.slotFull o.kek = false then s.kweEnd 3
  else if kekFits o.slot o.kek = false then s.kweEnd 2
  else if s.hasInvocation o.kek = false then s.kweEnd 4
  else if sramOk o.addr 128 = false then s.kweEnd 7
  else
    let b := Memory.readBytes s.mem o.addr 128
    let f := fun lo n => ofLe ((b.drop lo).take n)
    let s := (s.useCounter o.kek).2
    match gcmDec (Tab.getD s.sec.keys o.kek 0) (f 12 4 + f 16 8 * 2 ^ 32) (b.take 32) ((b.drop 32).take 80) with
    | some k =>
      if f 6 1 = b2n (slotIsMedia o.slot) then
        ((s.loadSlot o.slot (f 6 1) (f 7 1) (if f 6 1 = 1 then f 8 2 else 0) (f 10 1) (BitVec.ofNat 512 (ofLe k))).kweEnd
          0).rotateDue o.kek
      else s.kweEnd 2
    | none => s.kweEnd 1

/-- SEAL: the data after a 32-byte header is encrypted under DSK with the header as additional data, and a 16-byte tag is written
after it. The engine puts KEYID and its counter into header bytes 12 to 23, where a wrapped blob has them (assumption 17). Before KWE_LEN
is written there is no buffer: an address fault (assumption 34). -/
def State.kweSeal (s : State) (o : KweOp) : State :=
  if o.kek ≠ 2 then s.kweEnd 2
  else if s.slotFull 2 = false then s.kweEnd 3
  else if s.hasInvocation 2 = false then s.kweEnd 4
  else if o.len < 48 ∨ sramOk o.addr (o.len + 16) = false then s.kweEnd 7
  else
    let (c, s) := s.useCounter 2
    let b := Memory.readBytes s.mem o.addr o.len
    let h := b.take 12 ++ leBytes 4 (s.keyId 2) ++ leBytes 8 c ++ (b.drop 24).take 8
    let ct := takePad (o.len - 16) (gcmEnc (Tab.getD s.sec.keys 2 0) (s.nonce 2 c) h (b.drop 32))
    (s.store o.addr (h ++ ct)).kweEnd 0

/-- UNSEAL: data that authenticates under DSK is decrypted in place; data that does not is left (R302). -/
def State.kweUnseal (s : State) (o : KweOp) : State :=
  if o.kek ≠ 2 then s.kweEnd 2
  else if s.slotFull 2 = false then s.kweEnd 3
  else if s.hasInvocation 2 = false then s.kweEnd 4
  else if o.len < 48 ∨ sramOk o.addr (o.len + 16) = false then s.kweEnd 7
  else
    let s := (s.useCounter 2).2
    let b := Memory.readBytes s.mem o.addr (o.len + 16)
    let f := fun lo n => ofLe ((b.drop lo).take n)
    match gcmDec (Tab.getD s.sec.keys 2 0) (f 12 4 + f 16 8 * 2 ^ 32) (b.take 32) (b.drop 32) with
    | some pt => (s.store (o.addr + 32) (takePad (o.len - 32) pt)).kweEnd 0
    | none => s.kweEnd 1

/-- KWE_OPERATION_DONE: the operation that runs ends, with its effect and RES; a ZERO leaves no expanded key in the XTS cache
before DONE shows (R302, R307). -/
def execKweOperationDone (s : State) : Host.Outcome State Fault Refusal :=
  match s.sec.op with
  | none => .next s
  | some o =>
    match o.op with
    | 1 => .next (s.kweGen o)
    | 2 => .next (s.kweWrap o)
    | 3 => .next (s.kweUnwrap o)
    | 4 => .next ((s.zeroSlot o.slot).kweEnd 0)
    | 5 => .next (s.kweSeal o)
    | _ => .next (s.kweUnseal o)

/-! ### XTS_NSK (R308) -/

/-- A write of XTS_NSK whose valid slot fields name a slot that fails the owner check is ignored with event 0x0705. -/
def State.nskWrite (s : State) (n v : Nat) : State :=
  let ten := bits v 21 7
  let fails := fun (k : Nat) => s.post 0x05 0x0705 [(12, k), (7, ten), (10, n)] ten
  if bit v 20 = true ∧ s.ownerCheck (bits v 0 12) ten n (bits v 12 8) = false then fails (bits v 0 12)
  else if bit v 52 = true ∧ s.ownerCheck (bits v 32 12) ten n (bits v 44 8) = false then fails (bits v 32 12)
  else s.setWord (R.XTS_NSK n) (BitVec.ofNat 64 (bits v 0 28 + bits v 32 21 * 2 ^ 32))

/-- XTS_NSK_WRITE: a write of the whole register. -/
def execXtsNskWrite (n : Fin 1024) (v : W64) (s : State) : Host.Outcome State Fault Refusal := .next (s.nskWrite n.val v.toNat)

/-! ### Entropy (R314) -/

/-- ENTROPY_TEST_FAIL: a repetition count (0) or adaptive proportion (1) test fails: the key DRBG refuses every request. -/
def execEntropyTestFail (adaptive : Bool) (samples : W32) (s : State) : Host.Outcome State Fault Refusal :=
  let s := (s.setFld F.SEC_TRNGSTAT_HEALTHY 0).setFld F.SEC_TRNGSTAT_KEYBLK 1
  let s := s.setFld (if adaptive then F.SEC_TRNGSTAT_APTFAIL else F.SEC_TRNGSTAT_RCTFAIL) 1
  .next (s.secPost 0x0707 [(8, b2n adaptive), (32, samples.toNat)])

/-! ### Crypto erase (R311, R312) -/

/-- Namespaces of this node in an erase's scope. -/
def State.eraseNss (s : State) (e : EraseScope) : List Nat :=
  match e with
  | .ns n => [n]
  | .ten t => Tab.keys (Tab.keep s.hif.nss fun _ x => x.ten == t && x.node == s.ownNode)
  | .all _ => Tab.keys (Tab.keep s.hif.nss fun _ x => x.node == s.ownNode)

/-- No admitted command works on a namespace in scope (R312 step 1). -/
def State.eraseDrained (s : State) (e : EraseScope) : Bool :=
  let ns := s.eraseNss e
  !(s.hif.slots.any fun x => ns.contains x.2.ns && x.2.opc != 0x00)

/-- A namespace's media keys are destroyed and replaced by a new current generation (R311). -/
def State.replaceKeys (s : State) (n : Nat) : State :=
  let ten := ((s.nsAt n).map (·.ten)).getD 0
  let gen := (s.fld (F.XTS_NSK_CURGEN n) + 1) % 256
  match s.freeMediaSlot ten with
  | none => s
  | some k =>
    let s := (s.genKey k 1 ten n gen).wrapRecord k (s.twkOf ten)
    let s := (s.setWord (R.XTS_NSK n) 0).setCur n k gen ten
    s.zn fun z => { z with conv := Tab.adjust z.conv n fun c => { c with kgen := gen } }

/-- A namespace's media keys are zeroed and their records overwritten (R312 steps 3 and 4). -/
def State.destroyKeys (s : State) (n : Nat) : State :=
  let cur := s.fld (F.XTS_NSK_CURSLOT n)
  let old := s.fld (F.XTS_NSK_OLDSLOT n)
  let s := if s.flag (F.XTS_NSK_CURV n) then (s.zeroSlot cur).eraseRecord cur else s
  let s := if s.flag (F.XTS_NSK_OLDV n) then (s.zeroSlot old).eraseRecord old else s
  let s := (s.setFld (F.XTS_NSK_CURV n) 0).setFld (F.XTS_NSK_OLDV n) 0
  (s.setWord (R.ZNE_KGREF n) 0).sc fun x => { x with sweepAt := Tab.erase x.sweepAt n }

/-- The data column of R311: zones return to Empty, conventional entries are deallocated. -/
def State.eraseData (s : State) (n : Nat) : State :=
  match s.nsAt n with
  | none => s
  | some x =>
    if x.conv then
      let ls := ((s.cns n).map fun c => Tab.keys c.map).getD []
      (ls.foldl (fun s l => s.setEntry n l none) s).segCheck x.set
    else
      (List.range x.zones).foldl (fun s k =>
        if (s.zone (x.zbase + k)).zs = .offline ∨ (s.zone (x.zbase + k)).zs = .unused then s
        else s.resetZone (x.zbase + k)) s

/-- A stage body or conventional segment is given up, with the stripes open in it: its blocks go to their rings. -/
def State.dropSlc (s : State) (b : Nat) (x : SlcBody) : State :=
  let ks := Tab.keys (Tab.keep s.zne.stripes fun _ t => match t.of_ with
    | .stage c _ => c == b
    | .conv c _ => c == b
    | _ => false)
  let s := ks.foldl (fun s k => s.dropStripe k) s
  (s.zn fun z => { z with
    slc := Tab.erase z.slc b
    srd := Tab.keep z.srd fun i _ => i / s.stageSpb != b
    openStage := Tab.keep z.openStage fun _ k => k != b
    openSeg := Tab.keep z.openSeg fun _ k => k != b
    openConv := Tab.keep z.openConv fun _ k => !ks.contains k }).releaseAll x.members

/-- Every block of bodies, stage, conventional segments and parity shelf is erased (R311 Block Erase): zones have given their bodies
back, stage bodies and segments follow, and every dirty block of every ring and the shelf's blocks are erased. -/
def State.eraseBlocksAll (s : State) : State :=
  let s := (s.zne.slc.filter fun e => e.2.ready).foldl (fun s e => s.dropSlc e.1 e.2) s
  let s := (Tab.keys s.zne.sets).foldl (fun s k => s.segCheck k) s.reapStage
  let es := s.zne.rings.flatMap fun r => r.2.filter fun e => !e.clean
  let todo := (es.map (·.blk) ++ s.shelfBlks).filter fun b => (Tab.find s.zne.erases b).isNone
  let s := (s.hk fun h => { h with shelf := [] })
  todo.foldl (fun s b => s.beginErase b .pre) s

/-- Scope code and number of event 0x0704: 0 a namespace, 1 a tenancy, 2 the subsystem. -/
def EraseScope.item : EraseScope → Nat × Nat
  | .ns n => (0, n)
  | .ten t => (1, t)
  | .all _ => (2, 0)

/-- A crypto erase goes through its steps 2 to 7 (R312): keys are destroyed and replaced, wrap keys rotated, the mirror rewritten,
the data column applied, with event 0x0704 (0 by command, 1 at a restart). -/
def State.cryptoErase (s : State) (e : EraseScope) (restart : Nat) : State :=
  let ns := s.eraseNss e
  let s := s.cfgWrite
  let s := ns.foldl (fun s n => s.destroyKeys n) s
  let s := match e with
    | .ns _ => s
    | .ten t => if (Tab.find s.sec.twk t).isSome then s.rotateKek (s.twkOf t) else s
    | .all _ => (Tab.keys s.sec.twk).foldl (fun s t => s.rotateKek (s.twkOf t)) (s.rotateKek 0x001)
  let s := ns.foldl (fun s n => s.replaceKeys n) s
  let s := ns.foldl (fun s n => s.eraseData n) s
  let s := match e with
    | .all true => s.eraseBlocksAll
    | _ => s
  let s := s.cfgWrite
  s.secPost 0x0704 [(8, e.item.1), (32, e.item.2), (8, restart)] 
    (match e with
    | .ns n => s.fld (F.XTS_NSK_TEN n)
    | .ten t => t
    | .all _ => 0xFF)

/-- The command of an erase completes, if its function was not reset since. -/
def State.cryptoDone (s : State) (e : CryptoErase) : State :=
  let s := s.sc fun x => { x with erases := x.erases.filter (· != e) }
  let s := match e.scope with
    | .all _ => s.hf fun h => { h with devFeats := Tab.set h.devFeats 0x10081 1 }
    | _ => s
  if e.fn = noFn then s else s.postCpl ⟨e.fn, if e.fn = fwdFn then 2 ^ 32 else 0, e.cid, .success, 0, 0, [], []⟩

/-- The metadata size of a formatted namespace. -/
def State.setMeta (s : State) (e : CryptoErase) : State :=
  match e.meta_ with
  | some m => (s.eraseNss e.scope).foldl (fun s n => s.hf fun h => { h with
      nss := Tab.adjust h.nss n fun x => { x with meta_ := m } }) s
  | none => s

/-- An erase goes on: once its namespaces are drained and the key DRBG serves it is carried out; a Block Erase completes with its
last block erase (R311, R312, R314). -/
def State.eraseStep (s : State) (e : CryptoErase) : State :=
  if e.committed then
    if s.zne.erases.any (fun x => x.2.for_ == .pre) then s else s.cryptoDone e
  else if s.eraseDrained e.scope = false ∨ s.flag F.SEC_TRNGSTAT_KEYBLK = true then s
  else
    let s := (s.cryptoErase e.scope 0).setMeta e
    match e.scope with
    | .all true => s.sc fun x => { x with erases := x.erases.map fun y => if y = e then { y with committed := true } else y }
    | _ => s.cryptoDone e

/-- Ask for a crypto erase: admission to its namespaces stops, and it is carried out at once when nothing is admitted. -/
def State.askErase (s : State) (e : CryptoErase) : State :=
  (s.sc fun x => { x with erases := x.erases ++ [e] }).eraseStep e

/-- Metadata bytes of an LBA format (R276). -/
def lbaFormat (f : Nat) : Option Nat :=
  match f with
  | 0 => some 0
  | 1 => some 8
  | 2 => some 16
  | _ => none

/-- Format NVM (R311): LBA format in CDW10[3:0], no protection information. -/
def State.formatNvm (s : State) (fn : Nat) (e : Sqe) : State :=
  let c := e.cdw10.toNat
  match lbaFormat (bits c 0 4) with
  | none => s.adminDone fn e .invalidFormat
  | some m =>
    if bits c 5 3 ≠ 0 ∨ bits c 12 2 ≠ 0 then s.adminDone fn e .invalidFormat
    else if e.nsid.toNat = 0xFFFFFFFF then
      let t := bits e.cdw11.toNat 0 7
      if s.tenExists t = false then s.adminDone fn e .invalidField
      else (s.toMembers e).askErase ⟨.ten t, fn, e.cid.toNat, some m, false⟩
    else
      match s.nsOfId e.nsid.toNat with
      | none => s.adminDone fn e .invalidNamespace
      | some n =>
        match (s.nsAt n).bind s.pathDenies with
        | some st => s.adminDone fn e st
        | none =>
          let node := ((s.nsAt n).map (·.node)).getD 0
          if node = s.ownNode then s.askErase ⟨.ns n, fn, e.cid.toNat, some m, false⟩
          else s.askNode fn node e

/-- FORMAT_NVM (R311, R390). -/
def execFormatNvm (fn : FnId) (e : Sqe) (s : State) : Host.Outcome State Fault Refusal :=
  s.admin fn.val e masterCtl fun s => s.formatNvm fn.val e

/-- A rebuild runs or waits in a rank set (R296). -/
def State.rebuilding (s : State) (p : Nat → Bool) : Bool := s.zne.jobs.any fun e => e.2.kind = .rebuild && p e.2.set

/-- Sanitize: CDW10[2:0] 2 Block Erase, 4 Crypto Erase, 1 leaves a failure mode that cannot arise (R276, R311). -/
def State.sanitize (s : State) (fn : Nat) (e : Sqe) : State :=
  let act := bits e.cdw10.toNat 0 3
  if act = 1 then s.adminDone fn e .success
  else if act ≠ 2 ∧ act ≠ 4 then s.adminDone fn e .invalidField
  else if s.rebuilding fun _ => true then s.adminDone fn e .rebuildInProgress
  else (s.toMembers e).askErase ⟨.all (act = 2), fn, e.cid.toNat, none, false⟩

/-- SANITIZE. -/
def execSanitize (fn : FnId) (e : Sqe) (s : State) : Host.Outcome State Fault Refusal :=
  s.admin fn.val e masterCtl fun s => s.sanitize fn.val e

end Sys2Proof.Machine
end

