-- ==== Sys2Proof/Machine/Replay.lean ====
section
/-! DEFINITION. Restart: replay of the Husk, full resynchronisation and the repair of torn stripes (R133 to R137). -/

namespace Sys2Proof.Machine

/-- A copy whose header fails at start-up is out of use (R131, R133). -/
def State.failHdrs (s : State) (hdr : List (Fin 2)) : State :=
  s.hk fun h => { h with
    hdr0 := if hdr.contains 0 then { h.hdr0 with valid := false } else h.hdr0
    hdr1 := if hdr.contains 1 then { h.hdr1 with valid := false } else h.hdr1 }

/-- A record passes in a copy: the copy's header does, and its own entries do (R133). `bad` names the records with an entry that fails
its CRC. -/
def State.recGood (s : State) (bad : List (Fin 2 × Fin 6400)) (c r : Nat) : Bool :=
  !s.copyDown c && !(bad.any fun x => x.1.val == c && x.2.val == r)

/-- A record as replay uses it: copy 0 where it passes there, else copy 1 (R133). -/
def State.replayRec (s : State) (bad : List (Fin 2 × Fin 6400)) (r : Nat) : HuskRec :=
  Tab.getD (if s.recGood bad 0 r then s.zne.husk.rec0 else s.zne.husk.rec1) r HuskRec.empty

/-- Every record passes in one copy or the other; else the Husk is resynchronised in place of replay (R133). -/
def State.replayable (s : State) (bad : List (Fin 2 × Fin 6400)) : Bool :=
  (!s.copyDown 0 || !s.copyDown 1) && bad.all fun x => s.recGood bad 0 x.2.val || s.recGood bad 1 x.2.val

/-- The class a member was found in; one on a dead die, or not listed, is interrupted (R134). -/
def State.classOf (s : State) (blk : Nat) (c : Option MClass) : MClass :=
  if s.deadDie (blkDie blk) then .interrupted else c.getD .interrupted

/-- What the stripe of a record belongs to, from its slice entries (R127). -/
def State.recOwner (s : State) (e : SliceEntry) : StripeOf :=
  if bit e.loc 23 then
    let b := e.zone / s.stageSpb
    if ((Tab.find s.zne.slc b).map (·.st)).getD .stage = .stage then .stage b (e.zone % s.stageSpb)
    else .conv b (e.zone % s.stageSpb)
  else .body e.zone (bits e.loc 0 11)

/-- The member of a replayed stripe. -/
def replayMember (e : SliceEntry) (c : MClass) : Member :=
  { blk := e.blk, pad := bit e.loc 24, epoch := e.epoch,
    st := if bit e.loc 24 then .passed else match c with
      | .programmed _ => .passed
      | .erased => .idle
      | .interrupted => .interrupted }

/-- Data codewords read for a stripe, by their place in it. -/
def srcOf {α : Type} (rows : List (α × Fin 2048 × Blk × Hmd)) : Tab Moved :=
  rows.foldl (fun t y => Tab.set t y.2.1.val ⟨y.2.2.1, y.2.2.2, 0, false⟩) []

/-- The stripe of an open record, its members classified (R134). A member counts as programmed only with the epoch of
its slice entry. -/
def State.replayStripe (s : State) (r : Nat) (rec_ : HuskRec) (x : HuskIn) : Option Stripe :=
  match rec_.slices with
  | [] => none
  | (_, e0) :: _ =>
    let member := fun (m : Nat) (e : SliceEntry) =>
      let c := (x.cls.find? fun y => y.1.val == r && y.2.1.val == m).map (·.2.2)
      let c := match s.classOf e.blk c with
        | .programmed ep => if ep.toNat = e.epoch then MClass.programmed ep else .interrupted
        | c => c
      replayMember e c
    let own := s.recOwner e0
    let set := match own with
      | .body z _ => (s.zone z).set
      | .reloc z _ => (s.zone z).set
      | .stage b _ => ((Tab.find s.zne.slc b).map (·.set)).getD 0
      | .conv b _ => ((Tab.find s.zne.slc b).map (·.set)).getD 0
      | .journal _ => 0
    some { of_ := own, st := .torn, record := some r, hseq := e0.hseq, members := rec_.slices.map fun x => member x.1 x.2,
           acked := 0x3FFFF, closing := false, verify := true, withdrawn := false, order := 0, pack := [], opened := s.now,
           set := set, want := true, bg := false, closed := false,
           src := srcOf (x.rows.filter fun y => y.1.val == r) }

/-- The record belongs to no body any more: the destination of a relocation that a stop abandoned (R233). -/
def State.recOrphan (s : State) (t : Stripe) : Bool :=
  match t.of_ with
  | .body z _ => t.members.all fun m => !(s.zone z).body.contains m.blk
  | _ => false

/-- A record is rewritten in the other copy from the one used, the copies that are out of use aside (R131, R133). -/
def State.syncRec (s : State) (bad : List (Fin 2 × Fin 6400)) (r : Nat) : State :=
  let rec_ := s.replayRec bad r
  s.hk fun h => { h with
    rec0 := if s.copyDown 0 then h.rec0 else Tab.set h.rec0 r rec_,
    rec1 := if s.copyDown 1 then h.rec1 else Tab.set h.rec1 r rec_ }

/-- Act on one open record (R135). -/
def State.replayOne (s : State) (x : HuskIn) (r : Nat) : Bool × State :=
  let rec_ := s.huskRec r
  match s.replayStripe r rec_ x with
  | none => (false, s)
  | some t =>
    let ms := t.members.filter fun m => !m.pad
    if s.recOrphan t ∨ ms.all (fun m => m.st = .idle) = true then
      (false, (s.freeShelf r).huskWrite r fun h => { h with closed := t.hseq, pass := 0, shelfSeq := 0 })
    else
      let (k, s) := s.fresh
      let s := s.zn fun z => { z with stripes := Tab.set z.stripes k t }
      if ms.all (fun m => m.st = .passed) then (false, s.closeStripe k t)
      else (true, s.shelveStripe k)

/-- Replay every open record (R133 to R135), with event 0x0303. A copy whose header fails gets event 0x0301, with the records it holds
as those affected (DESIGN CHOICE, assumption 66). -/
def State.replay (s : State) (x : HuskIn) : State :=
  let s := if s.copyDown 0 = false then s else s.znePost 0x0301 [(8, 0), (16, s.zne.husk.rec0.length)]
  let s := if s.copyDown 1 = false then s else s.znePost 0x0301 [(8, 1), (16, s.zne.husk.rec1.length)]
  let all := (Tab.keys s.zne.husk.rec0 ++ Tab.keys s.zne.husk.rec1).eraseDups
  let s := all.foldl (fun s r => s.syncRec x.bad r) s
  let open_ := all.filter fun r => (s.huskRec r).isOpen
  let (torn, s) := open_.foldl (fun a r =>
    let (t, s) := a.2.replayOne x r
    (a.1 + b2n t, s)) (0, s)
  s.znePost 0x0303 [(16, open_.length), (16, torn)]

/-! ### Full resynchronisation (R136, R137) -/

/-- What resynchronisation read of the flash: by zone and by rank set of an open stage body, with stripe and member, the class of the
slice. -/
abbrev Found := List (Fin 2097152 × BitVec 11 × Fin 18 × MClass) × List (Fin 16 × BitVec 11 × Fin 18 × MClass)

/-- The bodies that may hold a torn stripe: active zones and zones on the closing list, or, with that list unreadable,
every Full and Read Only zone that has a body; and the open stage bodies (R136, R137). -/
def State.candidates (s : State) (listLost : Bool) : List BodyRef :=
  ((s.zne.zones.filter fun e => e.2.body.length = 18 && (e.2.active ||
    (if listLost then e.2.zs = .full || e.2.zs = .readOnly else (Tab.find s.zne.husk.closing e.1).isSome))).map fun e => .zone e.1) ++
  s.zne.openStage.map fun e => .stage e.2

/-- Members of a body. -/
def State.refBlks (s : State) : BodyRef → List Nat
  | .zone z => (s.zone z).body
  | .stage b => s.slcRow b

/-- Stripes of a body. -/
def State.refStripes (s : State) : BodyRef → Nat
  | .zone _ => s.spb
  | .stage _ => s.stageSpb

/-- A stripe of a body was closed before the stop: below BSTRIPES, or with runs in the directory. -/
def State.refClosed (s : State) (i : Nat) : BodyRef → Bool
  | .zone z => decide (i < (s.zone z).bstripes)
  | .stage b => (Tab.find s.zne.srd (s.slcIndex b i)).isSome

/-- First pad member of a stripe of a body; 16 where it has none (R82). -/
def State.refPads (s : State) (i : Nat) : BodyRef → Nat
  | .zone z => if (s.zone z).padded then ((s.zone z).wp - i * s.lps + s.cps - 1) / s.cps else 16
  | .stage _ => 16

/-- Class of a member's slice as resynchronisation found it: a slice of a closed stripe that nothing is said of is programmed, another
one erased. -/
def State.foundAt (s : State) (found : Found) (x : BodyRef) (i m : Nat) : MClass :=
  let c := match x with
    | .zone z => (found.1.find? fun y => y.1.val == z && y.2.1.toNat == i && y.2.2.1.val == m).map (·.2.2.2)
    | .stage b => (found.2.find? fun y => Tab.find s.zne.openStage y.1.val == some b && y.2.1.toNat == i && y.2.2.1.val == m).map
        (·.2.2.2)
  match c with
  | some c => s.classOf ((s.refBlks x).getD m 0) (some c)
  | none => if s.refClosed i x then .programmed (BitVec.allOnes 64) else .erased

/-- A member is a pad member in a stripe of a body: neither programmed nor read (R82). -/
def State.padAt (s : State) (x : BodyRef) (m i : Nat) : Bool := decide (s.refPads i x ≤ m ∧ m < 16)

/-- A member's slice is programmed, with an EPOCH not below the zone's OPEN_EPOCH (R136). -/
def State.programmedAt (s : State) (found : Found) (x : BodyRef) (m i : Nat) : Bool :=
  let low := match x with
    | .zone z => (s.zone z).epoch
    | .stage _ => 0
  !s.padAt x m i && match s.foundAt found x i m with
  | .programmed e => decide (low ≤ e.toNat)
  | _ => false

/-- The binary search of R136 between slices a and b − 1, in n rounds: the last programmed slice plus one, r where none is. -/
def lastSearch (p : Nat → Bool) : Nat → Nat → Nat → Nat → Nat
  | 0, _, _, r => r
  | n + 1, a, b, r =>
    if b ≤ a then r
    else
      let c := (a + b - 1) / 2
      if p c then lastSearch p n (c + 1) b (c + 1) else lastSearch p n a c r

/-- Last programmed slice of a member, plus one (R136). A Full or Read Only zone is tested at the member's restored cursor and the slice
after it first (R137). -/
def State.lastProgrammed (s : State) (found : Found) (x : BodyRef) (m : Nat) : Nat :=
  let p := s.programmedAt found x m
  let n := s.refStripes x
  let k := (((s.blk ((s.refBlks x).getD m 0)).cursor).map (· + 1)).getD 0
  let whole : Bool := match x with
    | .zone z => !(s.zone z).active
    | .stage _ => false
  if whole && (k == 0 || p (k - 1)) && (decide (n ≤ k) || !p k) then k else lastSearch p (n + 1) 0 n 0

/-- A torn stripe found: its P and Q go to the shelf, and it is committed afresh unless both banks have failed (R136). -/
def State.tornFound (s : State) (inp : HuskIn) (found : Found) (x : BodyRef) (i : Nat) : State :=
  let body := s.refBlks x
  let mem := fun (b m e : Nat) =>
    let pad := s.padAt x m i
    let c := if s.programmedAt found x m i then s.foundAt found x i m else match s.foundAt found x i m with
      | .erased => .erased
      | _ => MClass.interrupted
    ({ blk := b, pad := pad,
       epoch := match c with | .programmed ep => ep.toNat | _ => e,
       st := if pad then .passed else match c with
         | .programmed _ => .passed
         | .erased => .idle
         | .interrupted => .interrupted } : Member)
  let (k, s) := s.fresh
  let (own, set) : StripeOf × Nat := match x with
    | .zone z => (StripeOf.body z i, (s.zone z).set)
    | .stage b => (StripeOf.stage b i, ((Tab.find s.zne.slc b).map fun y => y.set).getD 0)
  let src := match x with
    | .zone z => srcOf ((inp.zones.filter fun y => y.1.val == z && y.2.1.toNat == i).map fun y => (y.1, y.2.2))
    | .stage b =>
      srcOf ((inp.stages.filter fun y => Tab.find s.zne.openStage y.1.val == some b && y.2.1.toNat == i).map fun y => (y.1, y.2.2))
  let base : Stripe := ⟨own, .torn, none, 0, [], 0x3FFFF, false, true, false, 0, [], s.now, set, true, false, false, src⟩
  if s.huskLost then
    let t := { base with members := (body.zip (List.range 18)).map fun (y : Nat × Nat) => mem y.1 y.2 0 }
    s.zn fun y => { y with stripes := Tab.set y.stripes k t }
  else
    match s.freeRecord with
    | none => s
    | some r =>
      let (h, s) := s.nextHseq
      let (e, s) := s.nextEpochs 18
      let t := { base with record := some r, hseq := h, members := (body.zip (List.range 18)).map fun (y : Nat × Nat) => mem y.1 y.2 (e + y.2) }
      let s := s.zn fun y => { y with stripes := Tab.set y.stripes k t }
      let slices := (List.range 18).map fun m => (m, s.sliceEntry t m)
      (s.huskWrite r fun x => { x with slices := slices, shelfSeq := 0 }).shelveStripe k

/-- Full resynchronisation (R136): the stripes from the lowest to the highest frontier of each candidate body are torn
unless all their members are programmed. The closing list is lost where its check fails, or with bank 2 (R131, R137). -/
def State.resync (s : State) (x : HuskIn) (listLost : Bool) (found : Found) : State :=
  let wide := listLost || s.bankFailed 2
  let s := if wide then s.znePost 0x030B [] else s
  let cs := s.candidates wide
  let hdr := fun (c : Nat) => (⟨true, c, false, s.zne.husk.epoch, s.zne.husk.hseq⟩ : HuskHdr)
  let s := s.hk fun h => { h with hdr0 := hdr 0, hdr1 := hdr 1, rec0 := [], rec1 := [], shelf := [], shelfCw := [],
                                  closing := if wide then [] else h.closing }
  -- members that are pads in the last programmed stripe say nothing of the lowest frontier (R136)
  let frontier := fun (s : State) (x : BodyRef) =>
    let ls := (List.range 18).map fun m => (m, s.lastProgrammed found x m)
    let hi := ls.foldl (fun n y => max n y.2) 0
    ((ls.filter fun y => !s.padAt x y.1 (hi - 1)).foldl (fun n y => min n y.2) 0x7FF, hi)
  let ts := cs.flatMap fun x =>
    let (lo, hi) := frontier s x
    ((List.range hi).filter fun i => decide (lo ≤ i + 1) &&
      !((List.range 18).all fun m => s.padAt x m i || s.programmedAt found x m i)).map fun i => (x, i)
  let s := cs.foldl (fun s x => match x with
    | .zone z => s.modZone z fun y => { y with bstripes := max y.bstripes (frontier s x).1 }
    | .stage _ => s) s
  let s := ts.foldl (fun s t => s.tornFound x found t.1 t.2) s
  let (ms, s) := s.drawFree
  s.znePost 0x0302 [(24, cs.length), (16, ts.length), (32, ms)]

/-- The Husk has been replayed: the controllers that waited for it become ready once the start-up is done (R133, R285). -/
def State.husksDone (s : State) : State :=
  let s := s.hk fun h => { h with replayed := true }
  if s.boot.started then s.fnsReady else s

/-- STARTUP_HUSK_REPLAY: before CSTS.RDY, ZNE replays every open record, or where no copy yields a record that passes
resynchronises (R133 to R137), once at each start-up. `found` is what the members' slices of candidate bodies were found to be; `listLost` says the closing list
failed its check. -/
def execStartupHuskReplay (x : HuskIn) (listLost : Bool) (found : Found) (s : State) : Host.Outcome State Fault Refusal :=
  if s.zne.husk.replayed then .next s
  else
    let s := s.failHdrs x.hdr
    .next (if s.replayable x.bad then s.replay x else s.resync x listLost found).husksDone

/-- TORN_REPAIR: at class 3 each Interrupted member of a torn stripe is substituted and each Erased member programmed in
place; the stripe then closes and its shelf slots are freed (R135, R140). -/
def execTornRepair (r : Fin 6400) (s : State) : Host.Outcome State Fault Refusal :=
  match s.zne.stripes.find? (fun e => e.2.record = some r.val && e.2.st = .torn) with
  | none => .next s
  | some (k, t) =>
    let ms := t.members.zip (List.range 18)
    let idle := ms.filter fun x => x.1.st = .idle
    let bad := ms.filter fun x => x.1.st = .interrupted
    let s := s.modStripe k fun t => { t with verify := false, members := t.members.map fun x =>
      if x.st = .idle then { x with st := .posted } else x }
    let s := idle.foldl (fun s x => s.enqueue (plainOp 3 .program t.slc x.1.blk t.idx [] (.prog k x.2) (s.stripeTen t))) s
    .next (bad.foldl (fun s x => s.startSubst k x.2) s)

end Sys2Proof.Machine
end

