-- ==== Sys2Proof/Machine/Power.lean ====
section
/-! DEFINITION. Power modes and their transitions (R354 to R363), core voltage (R366), PWRCAP_N (R369), the hold-up limit (R377),
thermal trip and the start of the power-loss sequence (R371 to R375). -/

namespace Sys2Proof.Machine

/-- Change what Marrow and the supply hold. -/
def State.pw (s : State) (f : Power → Power) : State := { s with power := f s.power }

/-- Marrow posts an event. -/
def State.aonPost (s : State) (id : Nat) (items : List (Nat × Nat)) : State := s.post 0x00 id items

/-! ### Retention (R362) -/

/-- First byte of a retention bank. -/
def retBase (n : Nat) : Nat := 0x30000000 + n * 0x10000

/-- The seal of a bank under an entry epoch: CRC-32C over its 64 KiB followed by the epoch. -/
def State.bankSeal (s : State) (n epoch : Nat) : Nat :=
  (crc32c (Memory.readBytes s.mem (retBase n) 0x10000 ++ leBytes 8 epoch)).toNat

/-- Retention banks that are powered in DEEP. -/
def State.retOn (s : State) : List Nat := (List.range 24).filter fun n => bit (s.fld F.AON_RETEN_EN) n

/-- Entry to DEEP seals every enabled bank under the next epoch; banks without power, and shared SRAM, lose their content. -/
def State.sealBanks (s : State) : State :=
  let e := s.power.epoch + 1
  let on := s.retOn
  let s := s.pw fun p => { p with epoch := e, seals := on.map fun n => (n, s.bankSeal n e) }
  let m := (List.range 24).foldl (fun m n =>
    if on.contains n then m else Memory.clear m (retBase n) (retBase n + 0x10000)) s.mem
  { s with mem := Memory.clear m 0x10000000 0x10800000 }

/-- The owner island of a retention bank (R362); 0xFF for firmware's own. -/
def retOwner (n : Nat) : Nat :=
  if n < 8 then 0x10 + n * 4 else if n < 12 then 0x08 else if n = 12 then 0x09 else if n = 13 then 0x01
  else if n = 14 then 0x0A else if n = 15 then 0x02 else if n = 16 then 0x03 else if n = 17 then 0x0E
  else if n < 20 then 0x30 else 0xFF

/-! ### Refusals (R355) -/

/-- Whether the link state of a port in use allows a mode (R256). -/
def State.linkAllows (s : State) (p mode : Nat) : Bool :=
  let l := s.fld (F.HIF_PORTSTAT_LPS p)
  !s.portUsed p || mode < 2 || decide (4 ≤ l) || (mode == 2 && decide (2 ≤ l))

/-- An island's condition of R355 refuses an entry to DOZE or DEEP. -/
def State.refuses (s : State) (mode i : Nat) : Bool :=
  if i = 0x0C ∨ i = 0x0D then
    !s.linkAllows (i - 0x0C) mode || s.hif.slots.any (fun e => e.2.fn != fwdFn && e.2.fn / 128 == i - 0x0C) ||
      (Tab.keys s.hif.fns).any fun fn => fn != fwdFn && fn / 128 == i - 0x0C && s.busyFn fn
  else if i = 0x08 then
    s.zne.dies.any (fun e => !e.2.queue.isEmpty || e.2.active.isSome || e.2.susp.isSome) ||
    s.zne.stripes.any fun e => e.2.st = .committed || e.2.st = .programming
  else if i = 0x0A ∨ i = 0x0B then (List.range 4).any fun k => s.flag (F.DMC_DMACTL_BUSY (i - 0x0A) k)
  else if i = 0x03 then s.flag F.KWE_STAT_BUSY || s.flag F.SEC_OTPCMD_BUSY
  else if i = 0x0E ∨ i = 0x0F then
    s.casc.fwd.any (fun e => dirPort e.2.dir == i - 0x0E) || s.hif.slots.any fun e => e.2.fn == fwdFn
  else if 0x10 ≤ i ∧ i < 0x30 then bit (s.fld F.AON_VETO_CORE) (i - 0x10)
  else false

/-- The islands that refuse an entry, in rising order. -/
def State.refusers (s : State) (mode : Nat) : List Nat :=
  if mode < 2 then [] else (List.range 0x30).filter fun i => s.refuses mode i

/-! ### Transitions (R356, R357) -/

/-- When the oldest dirty data reaches its age, for AON_AGEAT (R358); 0 where nothing is dirty. -/
def State.ageAt (s : State) : Nat :=
  match minBy (fun e => e.2.at_) (s.zne.bufs.filter fun e => e.2.st = .held && !e.2.staging) with
  | some (_, b) => b.at_ + s.fld F.ZNE_STAGECFG_AGE * 1000000
  | none => 0

/-- A transition begins toward a mode. -/
def State.beginMode (s : State) (tgt : Nat) (wake : Bool) : State :=
  let s := (s.setFld F.AON_PSSTAT_BUSY 1).setFld F.AON_PSSTAT_TGT tgt
  let s := s.pw fun p => { p with exiting := wake, since := s.now }
  if tgt = 2 then s.setWord R.AON_AGEAT (BitVec.ofNat 64 s.ageAt)
  else if tgt = 3 then s.stageAll
  else s

/-- Start toward the latched mode: directly from ACTIVE or to a deeper mode, else to ACTIVE first. An entry to DOZE or DEEP that
an island refuses leaves the mode as it is (ENTRY_REFUSED, R355). -/
def State.startMode (s : State) : State :=
  let cur := s.fld F.AON_PSSTAT_CUR
  let req := s.fld F.AON_PSTATE_REQ_MODE
  if req = cur then s
  else
    let s := s.bump F.AON_PS_ATTEMPT_COUNT
    if req = 0 ∨ req < cur then s.beginMode 0 false
    else
      match s.refusers req with
      | [] => s.beginMode req false
      | r :: rs =>
        let s := (s.setFld F.AON_PSTATE_REQ_MODE cur).bump F.AON_PS_REFUSED_COUNT
        let s := (r :: rs).foldl (fun s i => s.bumpSat (F.AON_REFCNT_COUNT i)) (s.setFld F.AON_PSSTAT_LASTREF r)
        s.aonPost 0x0902 [(2, req), (8, r), (8, rs.length + 1)]

/-- A write of AON_PSTATE_REQ (R356): it replaces the latched mode, a replaced one whose transition has not started counting one
collapse. -/
def State.pstateRequest (s : State) (mode : Nat) : State :=
  if s.flag F.AON_PSSTAT_BUSY then
    let s := if s.fld F.AON_PSTATE_REQ_MODE ≠ s.fld F.AON_PSSTAT_TGT then s.bump F.AON_PS_COLLAPSED_COUNT else s
    s.setFld F.AON_PSTATE_REQ_MODE mode
  else (s.setFld F.AON_PSTATE_REQ_MODE mode).startMode

/-- PSTATE_REQUEST (R356). -/
def execPstateRequest (mode : Fin 4) (s : State) : Host.Outcome State Fault Refusal := .next (s.pstateRequest mode.val)

/-- What entering a mode does: the cores halt in DOZE and DEEP; before DEEP the Husk is sealed, the recorder flushed and the
retention banks sealed (R354, R358, R362); SEC releases a key-wrap engine that a gated core holds (R302). -/
def State.enterMode (s : State) (tgt : Nat) : State :=
  if tgt < 2 then s
  else
    let s := { s with cores := { s.cores with halted := BitVec.allOnes 32 } }
    if tgt = 2 then s
    else
      let s := if s.flag F.KWE_LOCK_HELD then s.kweRelease.secPost 0x0706 [(8, s.fld F.KWE_LOCK_OWNER), (16, 0x100)] else s
      let s := s.sealAll.loseKazino
      let s := (s.startFlush).flushRecords (s.fld F.MGT_EVNEXT_COUNT)
      (s.sealBanks).sc fun x => { x with cache := [] }

/-- What a return to ACTIVE does: the cores resume; after DEEP the Kazino programs are loaded again and run, LPE's slots start from
their own samples, Marrow's held records go to MGT, and MRAM is open (R162, R361, R400). -/
def State.leaveMode (s : State) (cur : Nat) : State :=
  if cur < 2 then s
  else
    let s := { s with cores := { s.cores with halted := 0 } }
    let s := (s.setWord R.AON_AGEAT 0).lpeWake
    if cur = 2 then s
    else
      let s := s.reloadKazino
      let s := s.ev fun r => { r with transit := r.transit ++ r.held, held := [] }
      let s := s.hk fun h => { h with hdr0 := { h.hdr0 with isSealed := false }, hdr1 := { h.hdr1 with isSealed := false } }
      { s with mram := { s.mram with isSealed := false } }

/-- Entry to DEEP waits until nothing is owed to the flash (R358). -/
def State.deepReady (s : State) : Bool :=
  s.zne.bufs.isEmpty && !(s.zne.dies.any fun e => !e.2.queue.isEmpty || e.2.active.isSome || e.2.susp.isSome)

/-- MODE_TRANSITION_DONE: the running transition ends, with event 0x0901 where DOZE or DEEP was entered or left; a wake that arrived
meanwhile starts the exit, else the device starts toward a newer latched mode (R356, R357). -/
def execModeTransitionDone (s : State) : Host.Outcome State Fault Refusal :=
  let cur := s.fld F.AON_PSSTAT_CUR
  let tgt := s.fld F.AON_PSSTAT_TGT
  if s.flag F.AON_PSSTAT_BUSY = false ∨ (tgt = 3 ∧ s.deepReady = false) then .next s
  else
    let us := (s.now - s.power.since) / 1000
    let s := if s.power.exiting then s else s.bump F.AON_PS_DONE_COUNT
    let s := if tgt = 0 then s.leaveMode cur else s.enterMode tgt
    let s := (s.setFld F.AON_PSSTAT_BUSY 0).setFld F.AON_PSSTAT_CUR tgt
    let s := if 2 ≤ max cur tgt then s.aonPost 0x0901 [(2, max cur tgt), (32, us)] else s
    if s.power.wake ∧ 2 ≤ tgt then
      .next (((s.pw fun p => { p with wake := false }).setFld F.AON_PSTATE_REQ_MODE 0).beginMode 0 true)
    else .next ((s.pw fun p => { p with wake := false }).startMode)

/-- A wake source acts: an exit to ACTIVE starts, or waits for a running entry to complete (R357, R360). -/
def State.wakeUp (s : State) : State :=
  if s.flag F.AON_PSSTAT_BUSY then
    if 2 ≤ s.fld F.AON_PSSTAT_TGT then s.pw fun p => { p with wake := true } else s
  else if 2 ≤ s.fld F.AON_PSSTAT_CUR then (s.setFld F.AON_PSTATE_REQ_MODE 0).beginMode 0 true
  else s

/-- RETENTION_SEAL_CHECK: banks whose seal fails at a wake from DEEP are discarded (R363). `bad` are banks whose content did not
keep. -/
def State.checkSeals (s : State) (bad : Nat) : State :=
  s.retOn.foldl (fun s n =>
    if bit bad n ∨ Tab.find s.power.seals n ≠ some (s.bankSeal n s.power.epoch) then
      (s.setFld F.AON_RETSTAT_DISC (setBit (s.fld F.AON_RETSTAT_DISC) n)).aonPost 0x0903 [(8, n), (8, retOwner n)]
    else s) s

/-- A link power state of a port changes (R255): L1, a substate, L2, or back to L0; a port that leaves the states the mode allows
wakes the device (R256). -/
def execLinkPowerStateChange (p : Port) (lps : Fin 6) (s : State) : Host.Outcome State Fault Refusal :=
  if s.flag (F.HIF_PORTSTAT_LINKUP p.val) = false ∨ lps.val = 1 then .next s
  else
    let s := (s.setFld (F.HIF_PORTSTAT_LPS p.val) lps.val).modPort p.val fun x => { x with idle := s.now, l0pReq := none }
    if s.linkAllows p.val (s.fld F.AON_PSSTAT_CUR) then .next s else .next s.wakeUp

/-- WAKE_TIMER_EXPIRY: AON_WAKEAT or AON_AGEAT is reached (R358, R360). -/
def execWakeTimerExpiry (s : State) : Host.Outcome State Fault Refusal :=
  let due := fun (k : Nat) => (s.word k).toNat != 0 && decide ((s.word k).toNat ≤ s.now)
  if due R.AON_WAKEAT || due R.AON_AGEAT then .next s.wakeUp else .next s

/-! ### Core voltage (R366) -/

/-- AVS_STEP: Marrow commands a voltage over AVSBus: at most 5 mV from the last, at least 100 µs after it, within 650 to 850 mV;
raised while the slowest island's margin is negative, not lowered in DOZE or DEEP; toward VFIX while the loop is off. A command
that is not acknowledged sets ERR with event 0x0909. -/
def execAvsStep (mv : BitVec 10) (acked : Bool) (s : State) : Host.Outcome State Fault Refusal :=
  let v := mv.toNat
  let cur := s.fld F.AON_AVSSTAT_VCUR
  let fix := s.fld F.AON_AVSCFG_VFIX
  let short : Bool := match s.roscMargin with
    | some m => decide (m < 0)
    | none => false
  let ok : Bool :=
    if s.flag F.AON_AVSCFG_EN then cur < v || (v < cur && !short && decide (s.fld F.AON_PSSTAT_CUR < 2))
    else (cur < v && decide (v ≤ fix)) || (v < cur && decide (fix ≤ v) && decide (s.fld F.AON_PSSTAT_CUR < 2))
  if v < 650 ∨ 850 < v ∨ cur + 5 < v ∨ v + 5 < cur ∨ ok = false ∨ s.now < s.power.avsLast + 100000 then .next s
  else
    let s := s.pw fun p => { p with avsLast := s.now }
    if acked then .next (s.setFld F.AON_AVSSTAT_VCUR v)
    else .next ((s.setFld F.AON_AVSSTAT_ERR 1).aonPost 0x0909 [(10, v), (10, cur)])

/-! ### PWRCAP_N (R369) -/

/-- The level of PWRCAP_N changes, with event 0x090A. -/
def State.setPwrcap (s : State) (high : Bool) : State :=
  if s.pins.pwrcap = high then s
  else
    let s := { s with pins := { s.pins with pwrcap := high } }
    let s := (s.setFld F.ZNE_PWRSTAT_PCAP (b2n !high)).showPower
    s.znePost 0x090A [(20, s.fld F.ZNE_PCAP_PCAPBUD), (20, s.fld F.ZNE_PWREFF_EFF)]

/-- PWRCAP_ASSERT. -/
def execPwrcapAssert (s : State) : Host.Outcome State Fault Refusal := .next (s.setPwrcap false)

/-- PWRCAP_RELEASE. -/
def execPwrcapRelease (s : State) : Host.Outcome State Fault Refusal := .next (s.setPwrcap true)

/-! ### Hold-up (R377) -/

/-- Stage the oldest dirty data until what is not on its way is within EFF. -/
def State.stageDown (s : State) : Nat → State
  | 0 => s
  | n + 1 =>
    let left := s.fld F.ZNE_DIRTY_CUR - (s.zne.bufs.filter fun e => e.2.staging).length
    if left ≤ s.effBufs then s
    else
      match s.oldestZone with
      | some z => (s.stageZone z true).stageDown n
      | none => s

/-- HOLDUP_LIMIT_RECOMPUTE: Marrow computes LIMIT and FAILED; EFF and stage-through mode follow (R76, R377). -/
def State.holdupRecompute (s : State) : State :=
  let tp := s.qlcProgramP
  let pgmcap := s.fld F.ZNE_PWRRES_PGMCAP
  let avail := s.fld F.AON_HUCFG_EMEAS * 500000
  let fix := 13000 * (tp + 500) + pgmcap * tp
  let lim := (avail - fix) / 570394
  let failed := s.flag F.AON_HUCFG_FAIL || decide (lim < 64)
  let limit := if failed then 0 else min lim 4095
  let was := s.flag F.AON_HULIM_FAILED
  let s := ((s.setFld F.AON_HULIM_LIMIT limit).setFld F.AON_HULIM_FAILED (b2n failed)).showEff
  let s := if was = failed then s
    else s.aonPost 0x0906 [(16, s.fld F.AON_HUCFG_EMEAS), (12, limit), (1, b2n failed)]
  if failed then s else s.stageDown s.zne.bufs.length

/-- A write of AON_HUCFG: PERIOD 1 to 168, else ignored as a whole (R377, R439). -/
def State.hucfgWrite (s : State) (v : Nat) : State :=
  if bits v 24 8 = 0 ∨ 168 < bits v 24 8 then s
  else (s.setWord R.AON_HUCFG (BitVec.ofNat 64 (bits v 0 17 + bits v 24 8 * 2 ^ 24))).holdupRecompute

/-- HUCFG_WRITE (R377). -/
def execHucfgWrite (v : W32) (s : State) : Host.Outcome State Fault Refusal := .next (s.hucfgWrite v.toNat)

/-! ### Power loss (R373, R374) -/

/-- No completion is posted any more for an admitted command whose completion has not begun (R373 step 1); its blocks not taken
are voided or keep their previous data (step 4). -/
def State.lossSlots (s : State) : State :=
  let ids := Tab.keys s.hif.slots
  let s := s.hf fun h => { h with
    slots := h.slots.map fun e => (e.1, { e.2 with silent := true, qid := 65 }), peeks := [] }
  ids.foldl (fun s i => match s.slot i with
    | some x =>
      if x.reads then s.cancelReads i
      else if (x.opc = 0x01 ∨ x.opc = 0x7D) ∧ x.started = true then s.stopWrite i x
      else s
    | none => s) s

/-- Stripes whose P or Q program is dropped before it began: their accumulators go to the parity shelf (R132, R373 step 5). -/
def State.lossShelf (s : State) (dropped : List DieOp) : State :=
  let cut := fun (k m : Nat) => dropped.any fun o => o.purpose == .prog k m
  (s.zne.stripes.filter fun e => e.2.st = .programming && (cut e.1 16 || cut e.1 17)).foldl (fun s e =>
    s.shelveStripe e.1) s

/-- Queued operations are dropped, erases aborted, suspended programs resumed (R373 step 3). -/
def State.lossDies (s : State) : State :=
  let dropped := s.zne.dies.flatMap fun e => e.2.queue
  let ids := s.zne.decodes.map fun e => e.2.op.id
  let s := (s.zn fun z => { z with
    dies := z.dies.map fun e => (e.1, { e.2 with queue := [] })
    decodes := []
    recons := [] }).freeStaging fun i _ => ids.contains i
  let s := (Tab.keys s.zne.dies).foldl (fun s d =>
    let er : Bool := match (s.die d).active with
      | some p => p.op.kind = .erase
      | none => false
    let s := if er then s.postAbort d else s
    let held : Bool := match (s.die d).susp with
      | some p => p.op.kind = .erase
      | none => false
    let s := if held then s.endSuspended d else s
    if s.resumeDue d then s.resumeOp d else s) s
  s.lossShelf dropped

/-- PLO, where it is active, is driven low (R411). -/
def State.drivePlo (s : State) : State :=
  let low := s.flag F.MGT_SAFECFG_PLOEN && s.holdsSafe (s.fld F.MGT_SAFECFG_PLOPIN) 1
  { s with pins := { s.pins with ploLow := s.pins.ploLow || low } }

/-- The power-loss sequence ends a link test, with STATE abandoned (R412); a channel's LUN is reset and its sequencer runs again. -/
def State.dropTest (s : State) : State :=
  let t := s.mgt.test
  if t.st = .running then
    let ms := if t.begun then (s.now - t.start) / 1000000 else 0
    let s := if t.link = 4 ∧ t.begun = true then
        ((s.setFld (F.CH_SEQCTL_STOP t.inst) 0).lunReset (t.inst * 16 + t.rank)).seqRun t.inst
      else s
    ({ s with mgt := { s.mgt with test := { t with st := .abandoned, elapsed := ms } } }).mgtPost 0x0B01
      [(8, t.link), (8, t.inst), (8, t.poly + t.mode * 4), (8, 3)]
  else s

/-- The controllers that run and have not been shut down count a power loss without a shutdown (assumption 72). -/
def State.smartLoss (s : State) : State :=
  (s.hif.fns.filter fun e => e.2.ctl != .disabled && e.2.shst != 2).foldl (fun s e => s.smartAdd (smartKey e.1 5) 1) s

/-- The hardware power-loss sequence starts, steps 1 to 5 (R373): the cores halt, DMC drains, the dies are quieted, hold mode and
the flush to the SLC stage begin (HOLD_MODE, POWER_LOSS_FLUSH). A mode entry that runs is aborted (R357). -/
def State.startLoss (s : State) (c : PlCause) : State :=
  if s.power.loss.isSome ∨ s.power.heldReset = true then s
  else
    let s := if s.flag F.AON_PSSTAT_BUSY then
        let s := if s.power.exiting ∨ s.fld F.AON_PSSTAT_TGT = 0 then s else s.bump F.AON_PS_ABORTED_COUNT
        s.setFld F.AON_PSSTAT_BUSY 0
      else s
    let s := s.dropTest
    let s := s.leaveMode (s.fld F.AON_PSSTAT_CUR)
    let s := (s.setFld F.AON_PSSTAT_CUR 0).setFld F.AON_PSTATE_REQ_MODE 0
    let s := s.recorderPowerLoss.smartLoss
    let mib := (s.fld F.ZNE_DIRTY_CUR + 255) / 256
    let s := s.pw fun p => { p with loss := some ⟨c, s.now, mib⟩, wake := false }
    let s := { s with
      cores := { s.cores with halted := BitVec.allOnes 32 },
      dram := { s.dram with merge := [] } }
    let s := (s.flushGather .done).lossSlots.lossDies
    ((s.setFld F.ZNE_PWRSTAT_HOLD 1).showPower).stageAll

/-- POWER_LOSS: PLI_N has stayed low for 2 µs (R372). In DEEP Marrow only records the fall: nothing is owed (R375). -/
def execPowerLoss (s : State) : Host.Outcome State Fault Refusal :=
  let s := { s with pins := { s.pins with pli := false } }
  if s.fld F.AON_PSSTAT_CUR = 3 then .next (s.pw fun p => { p with deepFall := true })
  else .next (s.drivePlo.startLoss .pli)

/-- THERMAL_TRIP: a sensor has read 125 °C or more for 10 µs: event 0x0908, THERMTRIP_N low, and the power-loss sequence (R371). -/
def execThermalTrip (s : State) : Host.Outcome State Fault Refusal :=
  match s.mgt.hot.find? fun e => decide (3 ≤ e.2) with
  | none => .next s
  | some (i, _) =>
    let s := s.mgtPost 0x0908 [(8, i), (16, s.fld (F.MGT_TEMP_T i))]
    .next (({ s with pins := { s.pins with thermtripN := false } }).startLoss .thermal)

end Sys2Proof.Machine
end

