-- ==== Sys2Proof/Machine/Admin.lean ====
section
/-! DEFINITION. Queues, Abort, features and Asynchronous Event Requests (R262, R275, R277, R282). -/

namespace Sys2Proof.Machine

/-! ### Queues (R261, R262) -/

/-- The queues a function may have of each kind: its last grant (feature 0x07, 0's based), or QMAX before one. -/
def State.queueLimit (s : State) (fn : Nat) : Nat × Nat :=
  let q := s.fld (F.HIF_FNMAP_QMAX (fn / 128) (fn % 128))
  match Tab.find (s.func fn).feats 0x07 with
  | some v => (bits v 0 16 + 1, bits v 16 16 + 1)
  | none => (q, q)

/-- Queue identifier and entries of a queue creation. -/
def Sqe.qid (e : Sqe) : Nat := bits e.cdw10.toNat 0 16

@[inherit_doc Sqe.qid] def Sqe.qsize (e : Sqe) : Nat := bits e.cdw10.toNat 16 16 + 1

/-- Create an I/O completion queue: contiguous, 2 to 4,096 entries, one of the 65 vectors (R258, R261). -/
def State.createCq (s : State) (fn : Nat) (e : Sqe) : State :=
  let c := e.cdw11.toNat
  let f := s.func fn
  if e.qid = 0 ∨ (s.queueLimit fn).2 < e.qid ∨ (Tab.find f.cqs e.qid).isSome = true then s.adminDone fn e .invalidQueueId
  else if e.qsize < 2 ∨ 4096 < e.qsize then s.adminDone fn e .invalidQueueSize
  else if bit c 0 = false then s.adminDone fn e .invalidField
  else if bit c 1 = true ∧ 65 ≤ bits c 16 16 then s.adminDone fn e .invalidVector
  else (s.modFunc fn fun f => { f with cqs := Tab.set f.cqs e.qid ⟨e.qsize, bits c 16 16, 0, 0, 0⟩ }).adminDone fn e .success

/-- CREATE_IO_CQ. -/
def execCreateIoCq (fn : FnId) (e : Sqe) (s : State) : Host.Outcome State Fault Refusal :=
  s.admin fn.val e anyCtl fun s => s.createCq fn.val e

/-- The class a queue is created with (QPRIO); medium under plain round robin. -/
def Func.classOf (f : Func) (qprio : Nat) : QClass :=
  if f.ams = 0 then .medium
  else match qprio with
    | 0 => .urgent
    | 1 => .high
    | 2 => .medium
    | _ => .low

/-- Create an I/O submission queue; an ordered attribute asked for its identifier takes effect (R192). -/
def State.createSq (s : State) (fn : Nat) (e : Sqe) : State :=
  let c := e.cdw11.toNat
  let f := s.func fn
  let cq := bits c 16 16
  if e.qid = 0 ∨ (s.queueLimit fn).1 < e.qid ∨ (Tab.find f.sqs e.qid).isSome = true then s.adminDone fn e .invalidQueueId
  else if e.qsize < 2 ∨ 4096 < e.qsize then s.adminDone fn e .invalidQueueSize
  else if bit c 0 = false then s.adminDone fn e .invalidField
  else if cq = 0 ∨ (Tab.find f.cqs cq).isNone = true then s.adminDone fn e .invalidCqId
  else
    let q : Sq := ⟨cq, e.qsize, f.classOf (bits c 1 2), f.orderReq.contains e.qid, 0, 0, 0⟩
    (s.modFunc fn fun f => { f with sqs := Tab.set f.sqs e.qid q }).adminDone fn e .success

/-- CREATE_IO_SQ. -/
def execCreateIoSq (fn : FnId) (e : Sqe) (s : State) : Host.Outcome State Fault Refusal :=
  s.admin fn.val e anyCtl fun s => s.createSq fn.val e

/-- DELETE_IO_CQ: a queue that a submission queue still uses is not deleted. -/
def execDeleteIoCq (fn : FnId) (e : Sqe) (s : State) : Host.Outcome State Fault Refusal :=
  s.admin fn.val e anyCtl fun s =>
    let f := s.func fn.val
    if e.qid = 0 ∨ (Tab.find f.cqs e.qid).isNone = true then s.adminDone fn.val e .invalidQueueId
    else if f.sqs.any fun q => q.1 != 0 && q.2.cq == e.qid then s.adminDone fn.val e .invalidQueueDeletion
    else (s.modFunc fn.val fun f => { f with cqs := Tab.erase f.cqs e.qid }).adminDone fn.val e .success

/-- DELETE_IO_SQ: the queue is deleted once its admitted commands have completed; its entries not admitted are dropped and an
ordered attribute ends (R192). -/
def execDeleteIoSq (fn : FnId) (e : Sqe) (s : State) : Host.Outcome State Fault Refusal :=
  s.admin fn.val e anyCtl fun s =>
    match if e.qid = 0 then none else Tab.find (s.func fn.val).sqs e.qid with
    | none => s.adminDone fn.val e .invalidQueueId
    | some q =>
      if q.live ≠ 0 then s
      else
        let s := s.modFunc fn.val fun f => { f with
          sqs := Tab.erase f.sqs e.qid, orderReq := f.orderReq.filter (· != e.qid) }
        let k := fn.val * 65 + e.qid
        let s := s.hf fun h => { h with
          peeks := h.peeks.filter (· != (fn.val, e.qid)),
          held := Tab.erase h.held k,
          starved := Tab.keep h.starved fun _ x => x != k }
        s.adminDone fn.val e .success

/-! ### Abort (R282) and Asynchronous Event Requests (R275) -/

/-- No operation of a slot has been dispatched to a die, and none of its data has moved. -/
def State.unstarted (s : State) (i : Nat) (x : Slot) : Bool :=
  let mine := fun (o : DieOp) => o.purpose == .host i
  let inPod := fun (p : Option Pod) => match p with
    | some p => mine p.op
    | none => false
  !(s.zne.dies.any fun e => inPod e.2.active || inPod e.2.susp) && !(s.zne.dones.any fun d => mine d.op) &&
  !(s.zne.decodes.any fun e => mine e.2.op) &&
  !(s.zne.recons.any fun e => match e.2.for_ with
    | .host j _ => j == i
    | _ => false) &&
  !(s.casc.fwd.any fun e => e.2.slot == i) &&
  x.blocks.all fun e => match e.2 with
    | .got _ _ => false
    | .failed _ => false
    | _ => true

/-- ABORT: the submission queue in CDW10[15:0], the command identifier in CDW10[31:16]. -/
def execAbort (fn : FnId) (e : Sqe) (s : State) : Host.Outcome State Fault Refusal :=
  s.admin fn.val e anyCtl fun s =>
    let q := bits e.cdw10.toNat 0 16
    let cid := bits e.cdw10.toNat 16 16
    if q = 0 ∧ (s.func fn.val).aers.contains cid = true then
      let s := s.modFunc fn.val fun f => { f with aers := f.aers.erase cid }
      (s.postCpl ⟨fn.val, 0, cid, .abortRequested, 0, 0, [], []⟩).adminDone fn.val e .success
    else
      match s.hif.slots.find? fun t => t.2.fn == fn.val && t.2.qid == q && t.2.sqe.cid.toNat == cid && !t.2.silent with
      | some (i, x) =>
        if x.reads && s.unstarted i x then
          (((s.cancelReads i).complete i .abortRequested).wakeConv).adminDone fn.val e .success
        else s.adminDone fn.val e .success 1
      | none => s.adminDone fn.val e .success 1

/-- ASYNC_EVENT_REQUEST: at most 16 are outstanding; one that finds an event waiting reports it at once. -/
def execAsyncEventRequest (fn : FnId) (e : Sqe) (s : State) : Host.Outcome State Fault Refusal :=
  s.admin fn.val e anyCtl fun s =>
    let f := s.func fn.val
    if 16 ≤ f.aers.length then s.adminDone fn.val e .aerLimitExceeded
    else
      match f.events with
      | d :: ds => (s.modFunc fn.val fun f => { f with events := ds }).adminDone fn.val e .success d
      | [] => s.modFunc fn.val fun f => { f with aers := f.aers ++ [e.cid.toNat] }

/-! ### Features (R277) -/

/-- Features of controller scope, which any controller sets; Number of Queues, Flexible Data Placement, FDP Events and Queue
Ordering apart. -/
def ctlFeatures : List Nat := [0x01, 0x08, 0x09, 0x0B, 0x16]

/-- Features of device scope, which the owner sets. -/
def devFeatures : List Nat := [0x02, 0x04, 0x0C, 0x0E, 0x18]

/-- Where a feature's value is kept: the features that have one value for each vector, threshold or group have a key for each. -/
def featKey (fid c : Nat) : Nat :=
  match fid with
  | 0x04 => 0x40000 + bits c 16 6
  | 0x09 => 0x90000 + bits c 0 16
  | 0x18 => 0x180000 + bits c 0 16
  | _ => fid

/-- Default of a feature: the over temperature threshold of the composite sensor is WCTEMP, 368 K; an interrupt vector's value
names the vector (R276, R277). -/
def featDefault (fid c : Nat) : Nat :=
  match fid with
  | 0x04 => if bits c 16 6 = 0 then 368 else if bits c 20 2 = 0 then 0xFFFF else 0
  | 0x09 => bits c 0 16
  | 0x18 => bits c 0 16
  | _ => 0

/-- The power state a Set Features asks for (R359): PS0 to PS2 set the flash budget, PS3 and PS4 ask for DOZE and DEEP. -/
def State.setPs (s : State) (ps : Nat) : State :=
  let wake := fun (s : State) => if 2 ≤ s.fld F.AON_PSTATE_REQ_MODE then s.pstateRequest 0 else s
  match ps with
  | 0 => wake ((s.setFld F.ZNE_PWRBUD_FLASHBUD 96000).showPower)
  | 1 | 2 => wake ((s.setFld F.ZNE_PWRBUD_FLASHBUD (Config.psBudget ps)).showPower)
  | 3 => s.pstateRequest 2
  | _ => s.pstateRequest 3

/-- Rank set index of an Endurance Group identifier, where one is formed. -/
def State.setOfGroup (s : State) (g : Nat) : Option Nat :=
  if g ≠ 0 ∧ (Tab.find s.zne.sets (g - 1)).isSome = true then some (g - 1) else none

/-- Flexible Data Placement of an Endurance Group is switched only while no namespace exists in it (R190). -/
def State.setFdp (s : State) (fn : Nat) (e : Sqe) : State :=
  match s.setOfGroup (bits e.cdw11.toNat 0 16) with
  | none => s.adminDone fn e .invalidField
  | some g =>
    if s.hif.nss.any (fun n => n.2.set == g && n.2.node == s.ownNode) then s.adminDone fn e .geometryOffline
    else if bits e.cdw12.toNat 8 8 ≠ 0 then s.adminDone fn e .invalidField
    else (s.zn fun z => { z with
      sets := Tab.adjust z.sets g fun r => { r with fdp := bit e.cdw12.toNat 0 } }).adminDone fn e .success

/-- FDP event types that a namespace reports (feature 0x1E): Reclaim Unit Not Fully Written (0x00) and Media Reallocated (0x80),
one bit each of the value kept for the namespace. -/
def fdpMask (types : List Byte) : Nat :=
  b2n (types.any (·.toNat == 0x00)) + b2n (types.any (·.toNat == 0x80)) * 2

/-- Set the FDP event types of a namespace. -/
def State.setFdpEvents (s : State) (fn : Nat) (e : Sqe) : State :=
  match s.nsOfId e.nsid.toNat with
  | none => s.adminDone fn e .invalidNamespace
  | some n =>
    let m := fdpMask (e.data.take (bits e.cdw11.toNat 16 8))
    let k := 0x1E0000 + n
    let old := Tab.getD s.hif.devFeats k 0
    let v := if bit e.cdw12.toNat 0 then Nat.lor old m else Nat.land old (3 - m)
    (s.hf fun h => { h with devFeats := Tab.set h.devFeats k v }).adminDone fn e .success

/-- The Timestamp feature: the time the owner set, and the Marrow timestamp at which it was set. -/
def State.setTimestamp (s : State) (v : Nat) : State :=
  s.hf fun h => { h with devFeats := Tab.set (Tab.set h.devFeats 0x0E v) 0xE0001 s.now }

/-- Milliseconds of the Timestamp feature, with Timestamp Origin 1 after a Set Features (bits 51:48). -/
def State.timestamp (s : State) : Nat :=
  match Tab.find s.hif.devFeats 0x0E with
  | some v => (v + (s.now - Tab.getD s.hif.devFeats 0xE0001 0) / 1000000) % 2 ^ 48 + 1 * 2 ^ 49
  | none => s.now / 1000000 % 2 ^ 48

/-- Set Features Number of Queues: the lesser of what is asked for and QMAX is granted; QALLOC shows the higher grant (R262). -/
def State.setQueues (s : State) (fn : Nat) (e : Sqe) : State :=
  let f := s.func fn
  let q := s.fld (F.HIF_FNMAP_QMAX (fn / 128) (fn % 128))
  let ask := fun lo => bits e.cdw11.toNat lo 16 + 1
  if f.sqs.any (fun x => x.1 != 0) || f.cqs.any (fun x => x.1 != 0) then s.adminDone fn e .commandSequenceError
  else if 65536 ≤ ask 0 ∨ 65536 ≤ ask 16 then s.adminDone fn e .invalidField
  else
    let sq := min (ask 0) q
    let cq := min (ask 16) q
    let v := (sq - 1) + (cq - 1) * 2 ^ 16
    let s := s.modFunc fn fun f => { f with feats := Tab.set f.feats 0x07 v }
    (s.setFld (F.HIF_FNMAP_QALLOC (fn / 128) (fn % 128)) (max sq cq)).adminDone fn e .success v

/-- Queue Ordering (R192): QID in CDW11[15:0], ORDERED in CDW11[31]; refused for a queue that exists. -/
def State.setOrdering (s : State) (fn : Nat) (e : Sqe) : State :=
  let q := bits e.cdw11.toNat 0 16
  if q = 0 ∨ 64 < q ∨ (Tab.find (s.func fn).sqs q).isSome = true then s.adminDone fn e .invalidField
  else
    let f := fun (x : Func) => { x with
      orderReq := if bit e.cdw11.toNat 31 then q :: x.orderReq.filter (· != q) else x.orderReq.filter (· != q) }
    (s.modFunc fn f).adminDone fn e .success

/-- The value a Set Features gives a plain feature: CDW11, with what its data structure holds for Host Behavior Support and
Autonomous Power State Transition. -/
def Sqe.featValue (e : Sqe) (fid : Nat) : Nat :=
  match fid with
  | 0x16 => ofLe (e.data.take 512)
  | 0x0C => e.cdw11.toNat % 2 + ofLe (e.data.take 256) * 2 ^ 32
  | _ => e.cdw11.toNat

/-- Set Features. -/
def State.setFeatures (s : State) (fn : Nat) (e : Sqe) : State :=
  let fid := bits e.cdw10.toNat 0 8
  let c := e.cdw11.toNat
  if bit e.cdw10.toNat 31 then s.adminDone fn e .featureNotSaveable
  else if fid ∈ ctlFeatures then
    if fid = 0x09 ∧ 65 ≤ bits c 0 16 then s.adminDone fn e .invalidField
    else (s.modFunc fn fun f => { f with
      feats := Tab.set f.feats (featKey fid c) (e.featValue fid) }).adminDone fn e .success
  else if fid = 0x07 then s.setQueues fn e
  else if fid = 0xC0 then s.setOrdering fn e
  else if isPf fn = false then s.adminDone fn e .invalidField
  else if fid = 0x02 then
    if 4 < bits c 0 5 then s.adminDone fn e .invalidField
    else (((s.hf fun h => { h with devFeats := Tab.set h.devFeats 0x02 (bits c 0 8) }).toMembers e).setPs
      (bits c 0 5)).adminDone fn e .success
  else if fid = 0x0E then (s.setTimestamp (ofLe (e.data.take 6))).adminDone fn e .success
  else if fid = 0x18 ∧ (s.setOfGroup (bits c 0 16)).isNone = true then s.adminDone fn e .invalidField
  else if fid ∈ devFeatures then
    (s.hf fun h => { h with
      devFeats := Tab.set h.devFeats (featKey fid c) (e.featValue fid) }).adminDone fn e .success
  else if fid = 0x1D then s.setFdp fn e
  else if fid = 0x1E then s.setFdpEvents fn e
  else s.adminDone fn e .invalidField

/-- SET_FEATURES: the feature in CDW10[7:0], SV in CDW10[31]. -/
def execSetFeatures (fn : FnId) (e : Sqe) (s : State) : Host.Outcome State Fault Refusal :=
  s.admin fn.val e anyCtl fun s => s.setFeatures fn.val e

/-- The attribute of a queue: its own, or the one asked for. -/
def Func.orderedOf (f : Func) (q : Nat) : Bool :=
  match Tab.find f.sqs q with
  | some x => x.ordered
  | none => f.orderReq.contains q

/-- What a feature supports: changeable always, specific to namespaces for FDP Events (SEL 3). -/
def featCaps (fid : Nat) : Nat := if fid = 0x1E then 6 else 4

/-- Complete a Get Features: SEL 0 the current value, 1 the default. -/
def State.giveFeature (s : State) (fn : Nat) (e : Sqe) (now dflt : Nat) (data : List Byte := []) : State :=
  if bits e.cdw10.toNat 8 3 = 1 then s.adminDone fn e .success dflt (data.map fun _ => 0)
  else s.adminDone fn e .success now data

/-- Get Features. -/
def State.getFeatures (s : State) (fn : Nat) (e : Sqe) : State :=
  let fid := bits e.cdw10.toNat 0 8
  let sel := bits e.cdw10.toNat 8 3
  let c := e.cdw11.toNat
  let f := s.func fn
  let known := fid ∈ ctlFeatures ∨ fid ∈ devFeatures ∨ fid = 0x07 ∨ fid = 0x1D ∨ fid = 0x1E ∨ fid = 0xC0
  if sel = 2 then s.adminDone fn e .featureNotSaveable
  else if ¬known ∨ 3 < sel then s.adminDone fn e .invalidField
  else if sel = 3 then s.adminDone fn e .success (featCaps fid)
  else if fid = 0x07 then
    let q := s.fld (F.HIF_FNMAP_QMAX (fn / 128) (fn % 128)) - 1
    s.giveFeature fn e (Tab.getD f.feats 0x07 (q * (1 + 2 ^ 16))) (q * (1 + 2 ^ 16))
  else if fid = 0x09 ∧ 65 ≤ bits c 0 16 then s.adminDone fn e .invalidField
  else if fid ∈ ctlFeatures then
    let v := Tab.getD f.feats (featKey fid c) (featDefault fid c)
    if fid = 0x16 then s.giveFeature fn e 0 0 (leBytes 512 v) else s.giveFeature fn e v (featDefault fid c)
  else if fid = 0x0E then s.giveFeature fn e 0 0 (leBytes 8 s.timestamp)
  else if fid ∈ devFeatures then
    let v := Tab.getD s.hif.devFeats (featKey fid c) (featDefault fid c)
    if fid = 0x0C then s.giveFeature fn e (v % 2 ^ 32) 0 (leBytes 256 (v / 2 ^ 32))
    else s.giveFeature fn e (v % 2 ^ 32) (featDefault fid c)
  else if fid = 0x1D then
    match s.setOfGroup (bits c 0 16) with
    | some g => s.giveFeature fn e (b2n (s.rset g).fdp) 0
    | none => s.adminDone fn e .invalidField
  else if fid = 0x1E then
    match s.nsOfId e.nsid.toNat with
    | some n =>
      let v := Tab.getD s.hif.devFeats (0x1E0000 + n) 0
      s.giveFeature fn e 2 2 [0x00, BitVec.ofNat 8 (v % 2), 0x80, BitVec.ofNat 8 (v / 2)]
    | none => s.adminDone fn e .invalidNamespace
  else s.giveFeature fn e (bits c 0 16 + b2n (f.orderedOf (bits c 0 16)) * 2 ^ 31) (bits c 0 16)

/-- GET_FEATURES: SEL in CDW10[10:8]; executed by a controller whose tenancy has not been created too (R260). -/
def execGetFeatures (fn : FnId) (e : Sqe) (s : State) : Host.Outcome State Fault Refusal :=
  s.admin fn.val e ⟨false, false, false⟩ fun s => s.getFeatures fn.val e

end Sys2Proof.Machine
end

