-- ==== Sys2Proof/Machine/Tables.lean ====
section
/-! DEFINITION. The tables of ZNE as bytes: what a reader of their DRAM regions and of the Husk copies and lists in MRAM finds while ZNE
holds them (R40 to R42, R64, R78, R125 to R128, R153, R178 to R180, R240, R243, R350). State holds each entry as a structure; these
functions lay the entries out. -/

namespace Sys2Proof.Machine

/-- An entry of n bytes whose last four are the CRC-32C of the others. -/
def withCrc (bs : List Byte) : List Byte := bs ++ leBytes 4 (crc32c bs).toNat

/-- "No block", "no index": all ones in 32 bits (R39, R40). -/
def none32 : Nat := 0xFFFFFFFF

/-! ### Tables in DRAM -/

/-- A Zone Map entry (R40). A body lies in the Body Table under its zone's own index (R41). -/
def State.zmBytes (s : State) (zmi : Nat) : List Byte :=
  let z := s.zone zmi
  let st := z.zs.code + b2n z.fbc * 2 ^ 4 + b2n z.staged * 2 ^ 5 + z.gen % 256 * 2 ^ 8 + z.ns % 1024 * 2 ^ 16 + z.set % 16 * 2 ^ 26
  withCrc (leBytes 4 st ++ leBytes 4 (if z.body.isEmpty then none32 else zmi) ++ leBytes 4 z.wp ++ leBytes 4 (z.stage.getD none32) ++
    leBytes 8 z.epoch ++ leBytes 2 z.owner ++ leBytes 2 0)

/-- A Body Table entry (R41). -/
def State.btBytes (s : State) (zmi : Nat) : List Byte :=
  let z := s.zone zmi
  let gone := z.zs = .empty ∨ z.zs = .offline ∨ z.zs = .unused
  (List.range 18).flatMap fun m => leBytes 4 (if gone then none32 else z.body.getD m none32)

/-- STATE of a block (R42). -/
def BlkSt.code : BlkSt → Nat
  | .free => 0x0
  | .body => 0x1
  | .stage => 0x2
  | .conv => 0x3
  | .system => 0x4
  | .spare => 0x5
  | .retired => 0x6
  | .factory => 0x7
  | .absent => 0xF

/-- A Block State Table entry (R42). -/
def State.bstBytes (s : State) (b : Nat) : List Byte :=
  let x := s.blk b
  leBytes 8 (min x.pe 0xFFFF + x.st.code * 2 ^ 16 + b2n x.grown * 2 ^ 20 + b2n x.slc * 2 ^ 21 + (x.cursor.getD 0x7FF) * 2 ^ 32 +
    x.rdofs * 2 ^ 43)

/-- BUFHEAD: the write buffer of the lowest offset of a zone's unflushed data, all ones where there is none (R64). -/
def State.bufHead (s : State) (zmi : Nat) : Nat :=
  let bs := s.zne.bufs.filterMap fun e => match e.2.own with
    | .zone z off => if z = zmi then some (off, e.1) else none
    | _ => none
  match minBy (fun x => x.1) bs with
  | some x => x.2
  | none => 0xFFFFF

/-- An Active Zone Table entry (R64); a free one holds the free marker and zeros. -/
def State.aztBytes (s : State) (i : Nat) : List Byte :=
  match s.zne.zones.find? fun e => e.2.azt == some i with
  | none => withCrc (leBytes 4 none32 ++ leBytes 24 0)
  | some (zmi, z) =>
    let rs := z.reported.code + b2n (z.zs = .pending) * 2 ^ 4 + b2n z.finishPend * 2 ^ 5 + b2n z.copying * 2 ^ 6
    withCrc (leBytes 4 zmi ++ leBytes 1 rs ++ leBytes 1 z.owner ++ leBytes 2 z.bstripes ++ leBytes 4 z.send ++
      leBytes 4 (s.bufHead zmi) ++ leBytes 8 z.lastWr ++ leBytes 4 (s.oldestOf zmi))

/-- A run record (R78); one that is not valid names no zone. -/
def Run.bytes (r : Run) : List Byte :=
  leBytes 4 (if r.valid then r.zone else none32) ++ leBytes 4 (r.off + (r.len - 1) * 2 ^ 19) ++ leBytes 4 (r.pos + b2n r.valid * 2 ^ 10) ++
    leBytes 4 (r.next.getD none32)

/-- The 16 run records of a stage stripe (R78). -/
def State.srdBytes (s : State) (si : Nat) : List Byte :=
  let rs := Tab.getD s.zne.srd si []
  (List.range 16).flatMap fun i => match rs[i]? with
    | some r => r.bytes
    | none => leBytes 4 none32 ++ leBytes 12 0

/-- STATE of an SLC body (R180). -/
def SegSt.code : SegSt → Nat
  | .free => 0
  | .openHost => 1
  | .openReclaim => 2
  | .full => 3
  | .victim => 4
  | .stage => 5

/-- A Conventional Segment Table entry (R180); a body that does not exist is free. -/
def State.cstBytes (s : State) (b : Nat) : List Byte :=
  withCrc (match Tab.find s.zne.slc b with
    | none => leBytes 12 0
    | some x => leBytes 4 x.valid ++ leBytes 4 x.seq ++ leBytes 2 x.ns ++ leBytes 1 x.ruh ++ leBytes 1 x.st.code)

/-- A Conventional Namespace Table entry (R179). -/
def State.cntBytes (s : State) (n : Nat) : List Byte :=
  withCrc (match s.cns n with
    | none => leBytes 28 0
    | some c => leBytes 4 c.mapBase ++ leBytes 4 c.nsze ++ leBytes 4 c.ncap ++ leBytes 4 c.nuse ++
        leBytes 2 (1 + b2n c.fdp * 2 + c.set * 4) ++ leBytes 1 c.owner ++ leBytes 1 c.nruh ++ leBytes 1 c.kgen ++ leBytes 7 0)

/-- Bytes of an entry of each guarded table, in the order of `guardedRanges`. -/
def entrySize : Nat → Nat
  | 0 => 32
  | 1 => 72
  | 2 => 8
  | 3 => 4
  | 4 => 32
  | 5 => 256
  | 6 => 16
  | _ => 32

/-- Entry k of a guarded table. -/
def State.entryBytes (s : State) (t k : Nat) : List Byte :=
  match t with
  | 0 => s.zmBytes k
  | 1 => s.btBytes k
  | 2 => s.bstBytes k
  | 3 => s.cpmBytes k
  | 4 => s.aztBytes k
  | 5 => s.srdBytes k
  | 6 => s.cstBytes k
  | _ => s.cntBytes k

/-- Byte ranges of tables that DMC guards while ZNE_GEOM.LOCK is 1 (R43, R63, R181): Zone Map, Body Table, Block State Table,
conventional page map, Active Zone Table, stage run directory, Segment Table, Conventional Namespace Table. -/
def State.guardedRanges (s : State) : List (Nat × Nat) :=
  let b := fun (f : Fld) => s.fld f * 2 ^ 21
  [(b F.ZNE_ZMBASE_BASE, 0x4000000), (b F.ZNE_BTBASE_BASE, 2097152 * 72), (b F.ZNE_BSTBASE_BASE, 0x10000000),
   (b F.ZNE_CPMBASE_BASE, 0x40000000), (b F.ZNE_AZTBASE_BASE, 8192 * 32), (b F.ZNE_SRDBASE_BASE, 512 * 2 ^ 20),
   (b F.ZNE_CSTBASE_BASE, 64 * 2 ^ 20), (b F.ZNE_CNTBASE_BASE, 2 * 2 ^ 20)]

/-- An address lies in a table that ZNE holds. -/
def State.inTable (s : State) (a : Nat) : Bool :=
  s.flag F.ZNE_GEOM_LOCK && s.guardedRanges.any fun r => r.1 != 0 && decide (r.1 ≤ a) && decide (a < r.1 + r.2)

/-- An address lies in firmware's copy of the profile record and its read-offset table (R225). -/
def State.inProfile (s : State) (a : Nat) : Bool :=
  let b := s.fld F.ZNE_PROFBASE_BASE * 2 ^ 21
  s.flag F.ZNE_GEOM_LOCK && b != 0 && decide (b ≤ a) &&
    decide (a < b + max 128 (Memory.readNat s.mem (b + 76) 4 + 4 * (s.zne.profile.nrdofs + 1)))

/-- An address that DMC guards: in a table, or in the copy of the profile (R43, R225). -/
def State.guarded (s : State) (a : Nat) : Bool := s.inTable a || s.inProfile a

/-- One byte of a guarded table. -/
def State.tableByte (s : State) (a : Nat) : Byte :=
  match ((List.range 8).zip s.guardedRanges).find? fun e => e.2.1 != 0 && decide (e.2.1 ≤ a) && decide (a < e.2.1 + e.2.2) with
  | some (t, base, _) => (s.entryBytes t ((a - base) / entrySize t)).getD ((a - base) % entrySize t) 0
  | none => 0

/-- An address lies in the Read Count Table, which DMC does not guard (R43, R243). -/
def State.inCounts (s : State) (a : Nat) : Bool :=
  let b := s.fld F.ZNE_RCTBASE_BASE * 2 ^ 21
  s.flag F.ZNE_GEOM_LOCK && b != 0 && decide (b ≤ a) && decide (a < b + 2 ^ 27)

/-- One byte of the Read Count Table: 4 B for each block, by its address (R243). -/
def State.countByte (s : State) (a : Nat) : Byte :=
  let o := a - s.fld F.ZNE_RCTBASE_BASE * 2 ^ 21
  (leBytes 4 (s.blk (o / 4)).reads).getD (o % 4) 0

/-- n bytes as a reader of shared memory finds them: those of a table are what ZNE holds, all others what was stored. -/
def State.readBytes (s : State) (a n : Nat) : List Byte :=
  if s.inTable a then (List.range n).map fun i => s.tableByte (a + i)
  else if s.inCounts a then (List.range n).map fun i => s.countByte (a + i)
  else Memory.readBytes s.mem a n

/-- n bytes read as a number, least significant first. -/
def State.readNat (s : State) (a n : Nat) : Nat := if s.inTable a || s.inCounts a then ofLe (s.readBytes a n) else Memory.readNat s.mem a n

/-! ### Husk copies and lists in MRAM -/

/-- The copy header (R128); one that is not valid has never been written. -/
def HuskHdr.bytes (h : HuskHdr) : List Byte :=
  if h.valid then
    withCrc (leBytes 4 0x4B535548 ++ leBytes 1 h.copy ++ leBytes 1 (b2n h.isSealed) ++ leBytes 2 0 ++ leBytes 8 h.epoch ++
      leBytes 8 h.high ++ leBytes 4 0)
  else leBytes 32 0

/-- A slice entry (R127). -/
def SliceEntry.bytes (e : SliceEntry) : List Byte :=
  withCrc (leBytes 8 e.hseq ++ leBytes 8 e.epoch ++ leBytes 4 e.blk ++ leBytes 4 e.zone ++ leBytes 4 e.loc)

/-- Entry i of a record: the close entry, the slice entries of members 0 to 17, the shelf entry (R126, R128). -/
def HuskRec.entry (r : HuskRec) (i : Nat) : List Byte :=
  if i = 0 then withCrc (leBytes 8 r.closed ++ leBytes 4 r.pass ++ leBytes 16 0)
  else if i = 19 then withCrc (leBytes 8 r.shelfSeq ++ leBytes 4 r.pshelf ++ leBytes 4 r.qshelf ++ leBytes 12 0)
  else match Tab.find r.slices (i - 1) with
    | some e => e.bytes
    | none => leBytes 32 0

/-- The 256-bit word at a logical offset of a Husk copy (R126): header, reserved area, records of 640 bytes from 0x1_8000. -/
def huskWord (h : HuskHdr) (rs : Tab HuskRec) (off : Nat) : List Byte :=
  if off < 32 then h.bytes
  else if off < 0x18000 then leBytes 32 0
  else
    match Tab.find rs ((off - 0x18000) / 640) with
    | some r => r.entry ((off - 0x18000) % 640 / 32)
    | none => leBytes 32 0

/-- An erase-ledger word (R240): the header, then the entries. -/
def State.ledgerWord (s : State) (off : Nat) : List Byte :=
  if off < 32 then withCrc (leBytes 4 0x47524445 ++ leBytes 4 s.zne.ledger.length ++ leBytes 20 0)
  else withCrc (match Tab.find s.zne.ledger (off / 32 - 1) with
    | some e => leBytes 4 e.blk ++ leBytes 4 (b2n e.slc + b2n e.second * 2 + b2n e.pre * 4) ++ leBytes 4 (e.zmi.getD none32) ++ leBytes 16 0
    | none => leBytes 4 none32 ++ leBytes 24 0)

/-- A closing-list entry (R125), the zones in the order State holds them. -/
def State.closingEntry (s : State) (i : Nat) : List Byte :=
  withCrc (match s.zne.husk.closing[i]? with
    | some (zmi, h) => leBytes 4 zmi ++ leBytes 8 h
    | none => leBytes 4 none32 ++ leBytes 8 0)

/-- A Lost Row Table entry (R153); an entry in no use is zero. -/
def State.lostEntryBytes (s : State) (i : Nat) : List Byte :=
  match Tab.find s.zne.lost i with
  | some e => withCrc (leBytes 4 e.zmi ++ leBytes 2 e.stripe ++ leBytes 1 e.row ++ leBytes 1 0 ++ leBytes 4 (e.members + b2n e.slc * 2 ^ 31))
  | none => leBytes 16 0

/-- First bytes of Husk copy 0, Husk copy 1 and the config region in the MRAM window: regions follow one another as R349 lists them
(assumption 19). -/
def huskBase (copy : Nat) : Nat := if copy = 0 then 0x21000000 else 0x21800000

/-- The byte at an MRAM address that a table of ZNE holds, none elsewhere (R350). -/
def State.mramTableByte (s : State) (a : Nat) : Option Byte :=
  let at_ := fun (bs : List Byte) (k : Nat) => some (bs.getD k 0)
  let k := s.zne.husk
  if huskBase 0 ≤ a ∧ a < huskBase 0 + 0x400000 then at_ (huskWord k.hdr0 k.rec0 (a - huskBase 0)) (a % 32)
  else if huskBase 1 ≤ a ∧ a < huskBase 1 + 0x400000 then at_ (huskWord k.hdr1 k.rec1 (a - huskBase 1)) (a % 32)
  else if 0x21610000 ≤ a ∧ a < 0x21610000 + 4097 * 32 then at_ (s.ledgerWord (a - 0x21610000)) (a % 32)
  else if 0x21640000 ≤ a ∧ a < 0x21640000 + 6400 * 16 then at_ (s.closingEntry ((a - 0x21640000) / 16)) (a % 16)
  else if 0x21660000 ≤ a ∧ a < 0x21660000 + 4096 * 16 then at_ (s.lostEntryBytes ((a - 0x21660000) / 16)) (a % 16)
  else none

/-- n bytes of MRAM as a reader finds them. -/
def State.mramNat (s : State) (a n : Nat) : Nat :=
  ofLe ((List.range n).map fun i => (s.mramTableByte (a + i)).getD (BitVec.ofNat 8 (Memory.readNat s.mem (a + i) 1)))

end Sys2Proof.Machine
end

