-- ==== Sys2Proof/Machine/Dram.lean ====
section
/-! DEFINITION. DRAM and shared SRAM as the cores, the DMA channels and the patrol scrub reach them (R23 to R27, R43, R335 to
R346). -/

namespace Sys2Proof.Machine

/-- Change what DMC holds. -/
def State.dr (s : State) (f : Dram → Dram) : State := { s with dram := f s.dram }

/-! ### Subchannels and errors (R336 to R345) -/

/-- FAB_PORTERR takes an island's index. -/
def State.portError (s : State) (isl : Nat) : State := { s with fab := { s.fab with portErr := isl } }

/-- A core's access to memory ends in an access-fault trap; one to a power-gated island leaves its index in FAB_PORTERR (R22, R23). -/
def State.blockedTrap (s : State) (c a : Nat) (k : TrapKind) : State :=
  match s.servedBy a with
  | some i => (if s.gated i then s.portError i else s).trap c k a
  | none => s.trap c k a

/-- A DMC posts an event. -/
def State.dmcPost (s : State) (sc id : Nat) (items : List (Nat × Nat)) : State := s.post (0x0A + sc % 2) id items

/-- An uncorrectable codeword was read by a requester's island: DMC_UECNT and event 0x0802 (R345). -/
def State.dramUe (s : State) (a isl : Nat) : State :=
  let sc := s.subchan a
  (s.bump (F.DMC_UECNT_COUNT (sc % 2) (sc / 2))).dmcPost sc 0x0802 [(40, a), (8, isl)]

/-- DEVICE_MARK: a device of a rank that reaches DEVTHR corrections within DEVWIN minutes is marked failed, at most one a rank, with
event 0x0801 (R339). -/
def State.markDevice (s : State) (sc rank dev : Nat) : State :=
  let d := sc % 2
  let i := sc / 2
  let (fv, fd) := if rank = 0 then (F.DMC_ECCSTAT_FV0 d i, F.DMC_ECCSTAT_FDEV0 d i)
    else (F.DMC_ECCSTAT_FV1 d i, F.DMC_ECCSTAT_FDEV1 d i)
  if s.flag fv ∧ s.fld fd = dev then s
  else
    let key := (sc * 2 + rank) * 16 + dev
    let win := s.fld (F.DMC_ECCCFG_DEVWIN d) * 60000000000
    let ts := s.now :: (Tab.getD s.dram.hits key []).filter fun t => decide (s.now ≤ t + win)
    if s.fld (F.DMC_ECCCFG_DEVTHR d) ≤ ts.length then
      let free := !s.flag fv
      let s := s.dr fun x => { x with hits := Tab.erase x.hits key }
      let s := if free then (s.setFld fv 1).setFld fd dev else s
      s.dmcPost sc 0x0801 [(8, sc), (8, rank), (8, dev), (8, b2n free)]
    else s.dr fun x => { x with hits := Tab.set x.hits key ts }

/-- DRAM_CORRECTION: a codeword of a line was corrected (R338, R344). -/
def State.dramCorrect (s : State) (a rank dev syms : Nat) : State :=
  let sc := s.subchan a
  let line := a / 64 * 64
  let e : CeEntry := ⟨line, dev + rank * 16 + sc * 32, syms, 1, s.now / 1000000000 % 2 ^ 32⟩
  let s := s.bump (F.DMC_CECNT_COUNT (sc % 2) (sc / 2))
  (s.dr fun x => { x with ce := Tab.set x.ce sc (ceUpdate (Tab.getD x.ce sc []) e) }).markDevice sc rank dev

/-- A codeword of the range is poisoned (R341). -/
def State.poisoned (s : State) (a n : Nat) : Bool :=
  s.dram.poison.any fun p => decide (p < a + n) && decide (a < p + 32)

/-- Codewords written in full are no longer poisoned. -/
def State.unpoison (s : State) (a n : Nat) : State :=
  s.dr fun x => { x with poison := x.poison.filter fun p => !(decide (a ≤ p) && decide (p + 32 ≤ a + n)) }

/-- Reservations on the granules of a written range end (R25). -/
def State.dropResv (s : State) (a n : Nat) : State :=
  { s with cores := { s.cores with
    resv := Tab.keep s.cores.resv fun _ g => !(decide (g * 64 < a + n) && decide (a < g * 64 + 64)) } }

/-! ### Narrow writes (R341) -/

/-- The merge buffer after a narrow write: the line's bytes are marked; a line all of whose bytes were written leaves, and the least
recently written of more than 16 is written back. -/
def mergeInto (ms : List MergeLine) (line : Nat) (mask : BitVec 64) (now : Nat) : List MergeLine :=
  let old := match ms.find? fun m => m.addr == line with
    | some m => m.mask
    | none => 0
  let rest := ms.filter fun m => m.addr != line
  if old ||| mask = BitVec.allOnes 64 then rest
  else (if 16 ≤ rest.length then rest.drop 1 else rest) ++ [⟨line, old ||| mask, now⟩]

/-- A core's write to DRAM: narrower than a codeword, so it goes through the merge buffer of its DMC. Where the merge read is
uncorrectable the bytes are written and the line's codewords poisoned, and the core takes an imprecise trap (R341, R345). -/
def State.dramWrite (s : State) (c a size v : Nat) (ue : Bool) : State :=
  let n := 2 ^ size
  let line := a / 64 * 64
  let d := s.subchan a % 2
  let ms := Tab.getD s.dram.merge d []
  let held := ms.any fun m => m.addr == line
  let bad := !held && (ue || s.poisoned line 64)
  let mask := BitVec.ofNat 64 ((2 ^ n - 1) * 2 ^ (a % 64))
  let ms' := mergeInto ms line mask s.now
  let s := (s.store a (leBytes n v)).dropResv a n
  let s := s.dr fun x => { x with merge := Tab.set x.merge d ms' }
  let s := if ms'.any fun m => m.addr == line then s else s.unpoison line 64
  if bad then
    let s := s.dr fun x => { x with poison := line :: (line + 32) :: x.poison.filter fun p => p != line && p != line + 32 }
    (s.dramUe a (0x10 + c)).trap c .imprecise a
  else s

/-- MERGE_WRITEBACK_TIMEOUT: 1 µs after its last write a line of a merge buffer is written back (R341). -/
def execMergeWritebackTimeout (d : Fin 2) (line : BitVec 40) (s : State) : Host.Outcome State Fault Refusal :=
  let due := fun (m : MergeLine) => m.addr == line.toNat && decide (m.last + 1000 ≤ s.now)
  .next (s.dr fun x => { x with merge := Tab.adjust x.merge d.val fun ms => ms.filter fun m => !due m })

/-- REMOTE_TCM_WRITE: a core writes a doubleword of another core's TCM: applied only while that core is halted (R27). -/
def execRemoteTcmWrite (c t : CoreId) (dtcm : Bool) (off : BitVec 13) (v : W64) (s : State) :
    Host.Outcome State Fault Refusal :=
  if s.cores.halted.getLsbD c.val = true then .next s
  else if s.portDown (0x10 + t.val) then
    let s := if s.gated (0x10 + t.val) then s.portError (0x10 + t.val) else s
    .next (s.trap c.val .store (tcmAddr t.val dtcm (off.toNat * 8)))
  else if s.cores.halted.getLsbD t.val = false then .next s
  else .next (s.store (tcmAddr t.val dtcm (off.toNat * 8)) (leBytes 8 v.toNat))

/-! ### Atomics and fences (R24, R25) -/

/-- What an AMO writes, of w bits. -/
def AmoOp.apply (op : AmoOp) (w old v : Nat) : Nat :=
  match op with
  | .swap => v % 2 ^ w
  | .add => (old + v) % 2 ^ w
  | .xor => Nat.xor old (v % 2 ^ w)
  | .and => Nat.land old (v % 2 ^ w)
  | .or => Nat.lor old (v % 2 ^ w)
  | .min => if sx w old ≤ sx w v then old else v % 2 ^ w
  | .max => if sx w v ≤ sx w old then old else v % 2 ^ w
  | .minu => Nat.min old (v % 2 ^ w)
  | .maxu => Nat.max old (v % 2 ^ w)

/-- Whether an atomic access of 4 or 8 bytes may go to its target: shared SRAM or DRAM (R25), aligned, through a port that takes it.
DESIGN CHOICE (assumption 53): a misaligned one takes the access-fault trap, and the trap of an AMO or SC is recorded as a load's. -/
def State.atomicOk (s : State) (a n : Nat) : Bool :=
  a % n == 0 && (s.region a == .sram || s.region a == .dram) && !s.blocked a

/-- An atomic's read met an uncorrectable word: nothing is written and the core takes a precise trap (R345, R346). -/
def State.atomicUe (s : State) (c a : Nat) : State :=
  let s := if s.region a = .dram then s.dramUe a (0x10 + c) else s.post 0x01 0x0805 [(8, 0), (40, a)]
  s.trap c .load a

/-- An atomic's read is uncorrectable: as found, or because its codeword is poisoned. -/
def State.atomicBad (s : State) (a n : Nat) (ue : Bool) : Bool := ue || (s.region a == .dram && s.poisoned a n)

/-- The write of an atomic at its target. -/
def State.atomicWrite (s : State) (c a n v : Nat) : State :=
  if s.region a = .dram then s.dramWrite c a (Nat.log2 n) v false else (s.store a (leBytes n v)).dropResv a n

/-- AMO (R25): the old value is returned. -/
def execAmo (c : CoreId) (a : BitVec 40) (wide : Bool) (op : AmoOp) (v : W64) (ue : Bool) (s : State) :
    Host.Outcome State Fault Refusal :=
  let n := if wide then 8 else 4
  if s.cores.halted.getLsbD c.val then .next s
  else if s.atomicOk a.toNat n = false ∨ s.guarded a.toNat = true then .next (s.trap c.val .load a.toNat)
  else if s.atomicBad a.toNat n ue then .next (s.atomicUe c.val a.toNat)
  else
    let old := Memory.readNat s.mem a.toNat n
    .next ((s.atomicWrite c.val a.toNat n (op.apply (8 * n) old v.toNat)).answer (.core c) (BitVec.ofNat 64 old))

/-- LOAD_RESERVED (R25): the 64 B granule is reserved for the core. -/
def execLoadReserved (c : CoreId) (a : BitVec 40) (wide : Bool) (ue : Bool) (s : State) : Host.Outcome State Fault Refusal :=
  let n := if wide then 8 else 4
  if s.cores.halted.getLsbD c.val then .next s
  else if s.atomicOk a.toNat n = false then .next (s.trap c.val .load a.toNat)
  else if s.atomicBad a.toNat n ue then .next (s.atomicUe c.val a.toNat)
  else
    let s := { s with cores := { s.cores with resv := Tab.set s.cores.resv c.val (a.toNat / 64) } }
    .next (s.answer (.core c) (BitVec.ofNat 64 (s.readNat a.toNat n)))

/-- STORE_CONDITIONAL (R25): stores only while the core's reservation holds; 0 is returned for a store, 1 for none. -/
def execStoreConditional (c : CoreId) (a : BitVec 40) (wide : Bool) (v : W64) (s : State) : Host.Outcome State Fault Refusal :=
  let n := if wide then 8 else 4
  if s.cores.halted.getLsbD c.val then .next s
  else if s.atomicOk a.toNat n = false ∨ s.guarded a.toNat = true then .next (s.trap c.val .load a.toNat)
  else if Tab.find s.cores.resv c.val = some (a.toNat / 64) then
    .next ((s.atomicWrite c.val a.toNat n (v.toNat % 2 ^ (8 * n))).answer (.core c) 0)
  else
    let s := { s with cores := { s.cores with resv := Tab.erase s.cores.resv c.val } }
    .next (s.answer (.core c) 1)

/-- An access of the core has not been acknowledged: a store gathered for an MRAM word (R348). -/
def State.unacked (s : State) (c : Nat) : Bool :=
  match s.mram.gather with
  | some g => g.cores.contains c
  | none => false

/-- FENCE: it retires once every earlier access is acknowledged, and the core's gathered MRAM word with it is written first, since
only its word write acknowledges it (R24, R348; assumption 20). -/
def execFence (c : CoreId) (w : MramWrite) (s : State) : Host.Outcome State Fault Refusal :=
  if s.cores.halted.getLsbD c.val then .next s
  else if s.unacked c.val then .next (s.flushGather w)
  else .next s

/-- FENCE_I empties the core's instruction fetch buffer (R24). -/
def execFenceI (c : CoreId) (s : State) : Host.Outcome State Fault Refusal :=
  .next { s with cores := { s.cores with fetch := Tab.erase s.cores.fetch c.val } }

/-! ### DMC_CFG (R335, R336) -/

/-- A DMC_CFG value can form part of a row of R335: as DMC0's, or as DMC1's beside some DMC0 value. -/
def cfgPart (d v : Nat) : Bool :=
  (List.range 16).any fun o => dramRow (if d = 0 then v else o) (if d = 0 then o else v) != 0

/-- A write of DMC_CFG: ignored while locked; LOCK = 1 with a value that forms no row is ignored as a whole (R336, R439). -/
def State.dmcCfgWrite (s : State) (d v : Nat) : State :=
  if s.flag (F.DMC_CFG_LOCK d) then s
  else
    let other := (s.word (R.DMC_CFG (1 - d))).toNat
    let pair := if d = 0 then dramRow v other else dramRow other v
    if bit v 31 ∧ (cfgPart d (v % 16) = false ∨ (s.flag (F.DMC_CFG_LOCK (1 - d)) = true ∧ pair = 0)) then s
    else s.setWord (R.DMC_CFG d) (BitVec.ofNat 64 (v % 16 + bits v 31 1 * 2 ^ 31))

/-- DMC_CFG_LOCK: a write of DMC_CFG with LOCK = 1. -/
def execDmcCfgLock (d : Fin 2) (v : BitVec 4) (s : State) : Host.Outcome State Fault Refusal :=
  .next (s.dmcCfgWrite d.val (v.toNat + 2 ^ 31))

/-! ### DMA (R342) -/

/-- A write of DMC_DMACTL: DONE and HALT clear on 1, OP is set, GO starts a channel that is neither busy nor halted. -/
def State.dmaCtl (s : State) (d c v : Nat) : State :=
  if v % 4 = 3 then s
  else
    let s := if bit v 4 then s.setFld (F.DMC_DMACTL_DONE d c) 0 else s
    let s := if bit v 5 then s.setFld (F.DMC_DMACTL_HALT d c) 0 else s
    let s := s.setFld (F.DMC_DMACTL_OP d c) (v % 4)
    if bit v 2 = true ∧ s.flag (F.DMC_DMACTL_BUSY d c) = false ∧ s.flag (F.DMC_DMACTL_HALT d c) = false then
      let run : DmaRun := ⟨v % 4, (s.word (R.DMC_DMASRC d c)).toNat, (s.word (R.DMC_DMADST d c)).toNat,
        (s.word (R.DMC_DMALEN d c)).toNat⟩
      (s.setFld (F.DMC_DMACTL_BUSY d c) 1).dr fun x => { x with dma := Tab.set x.dma (d * 4 + c) run }
    else s

/-- DMA_COPY. -/
def execDmaCopy (d : Fin 2) (c : Fin 4) (s : State) : Host.Outcome State Fault Refusal := .next (s.dmaCtl d.val c.val 4)

/-- DMA_FILL. -/
def execDmaFill (d : Fin 2) (c : Fin 4) (s : State) : Host.Outcome State Fault Refusal := .next (s.dmaCtl d.val c.val 5)

/-- DMA_CHECK. -/
def execDmaCheck (d : Fin 2) (c : Fin 4) (s : State) : Host.Outcome State Fault Refusal := .next (s.dmaCtl d.val c.val 6)

/-- A channel ends with a status; a halt leaves its address in FADDR. -/
def State.dmaEnd (s : State) (d c status faddr : Nat) : State :=
  let s := (s.setFld (F.DMC_DMACTL_BUSY d c) 0).setFld (F.DMC_DMACTL_STATUS d c) status
  let s := s.dr fun x => { x with dma := Tab.erase x.dma (d * 4 + c) }
  if status = 0 then s.setFld (F.DMC_DMACTL_DONE d c) 1
  else (s.setFld (F.DMC_DMACTL_HALT d c) 1).setWord (R.DMC_DMAFADDR d c) (BitVec.ofNat 64 faddr)

/-- The channel's lines one by one: it halts at the first read that is uncorrectable, address outside the populated DRAM or
behind a port that takes no access (R22), or COPY into a guarded table, and writes nothing at or beyond it (R342, R345). `bad` are lines whose read is uncorrectable. -/
def State.dmaLines (s : State) (d c : Nat) (r : DmaRun) (bad : List Nat) : Nat → State
  | 0 => s.dmaEnd d c 0 0
  | n + 1 =>
    let k := r.len / 64 - (n + 1)
    let src := r.src + 64 * k
    let dst := r.dst + 64 * k
    let out := fun a => s.region a != .dram || s.blocked a
    if r.op ≠ 1 ∧ out src = true then s.dmaEnd d c 2 src
    else if r.op ≠ 2 ∧ out dst = true then s.dmaEnd d c 2 dst
    else if r.op ≠ 1 ∧ (bad.contains src || s.poisoned src 64) = true then (s.dramUe src (0x0A + d)).dmaEnd d c 1 src
    else if r.op = 0 ∧ s.guarded dst = true then s.dmaEnd d c 3 dst
    else
      let bs := if r.op = 1 then (List.replicate 8 (leBytes 8 r.src)).flatten else s.readBytes src 64
      let s := if r.op = 2 then s else ((s.store dst bs).unpoison dst 64).dropResv dst 64
      s.dmaLines d c r bad n

/-- DMA_DONE: a channel's operation ends, completed or halted (R342). -/
def execDmaDone (d : Fin 2) (c : Fin 4) (bad : List (BitVec 40)) (s : State) : Host.Outcome State Fault Refusal :=
  match Tab.find s.dram.dma (d.val * 4 + c.val) with
  | none => .next s
  | some r => .next (s.dmaLines d.val c.val r (bad.map fun a => a.toNat / 64 * 64) (r.len / 64))

/-! ### Patrol scrub and table recovery (R343, R345) -/

/-- The table an address lies in, numbered in the order of `guardedRanges`, and its page of 4 KiB. -/
def State.tablePage (s : State) (a : Nat) : Option (Nat × Nat) :=
  ((List.range 8).zip s.guardedRanges).findSome? fun e =>
    if s.inTable a ∧ e.2.1 ≤ a ∧ a < e.2.1 + e.2.2 then some (e.1, (a - e.2.1) / 4096) else none

/-- A table page that cannot be read: a clean one is reloaded from the table journal; a dirty one sets CSTS.CFS on every controller,
stops fetching and restarts the device as after a power loss, CAUSE 4 (TABLE_RECOVERY, R345). -/
def State.recoverTable (s : State) (table page : Nat) (dirty : Bool) : State :=
  let s := s.znePost 0x0809 [(8, table), (32, page), (8, b2n dirty)]
  if dirty then
    let s := s.hf fun h => { h with fns := h.fns.map fun e => (e.1, { e.2 with cfs := true }), stopAll := true }
    s.startLoss (.reset 4)
  else s

/-- The page of the Read Count Table at an address that cannot be read: its counts are set to 0 (R243, R345). -/
def State.clearCounts (s : State) (a : Nat) : State :=
  let b := s.fld F.ZNE_RCTBASE_BASE * 2 ^ 21
  let page := (a - b) / 4096
  if s.flag F.ZNE_GEOM_LOCK ∧ b ≠ 0 ∧ b ≤ a ∧ page < 32768 then
    s.zn fun z => { z with blks := z.blks.map fun e => if e.1 / 1024 = page then (e.1, { e.2 with reads := 0 }) else e }
  else s

/-- DRAM_PATROL_SCRUB: the scrub reads a line: clean, corrected (a device's symbols in error), or uncorrectable, and then handled as a
read by its owner (R343). `dirty` says that an unreadable table page had not been persisted. -/
def execDramPatrolScrub (a : BitVec 40) (rank : Fin 2) (dev : Fin 10) (syms : Fin 5) (ue dirty : Bool) (s : State) :
    Host.Outcome State Fault Refusal :=
  let x := a.toNat / 64 * 64
  if s.region x ≠ .dram ∨ 2 ≤ s.fld F.AON_PSSTAT_CUR ∨ s.blocked x = true then .next s
  else if ue || s.poisoned x 64 then
    let s := s.dramUe x (0x0A + s.subchan x % 2)
    match s.tablePage x with
    | some (t, p) => .next (s.recoverTable t p dirty)
    | none => .next (s.clearCounts x)
  else if syms.val = 0 then .next s
  else
    let rk := if s.flag (F.DMC_CFG_RANKS (s.subchan x % 2)) then rank.val else 0
    .next (s.dramCorrect x rk dev.val syms.val)

end Sys2Proof.Machine
end

