-- ==== Sys2Proof/Machine/Logs.lean ====
section
/-! DEFINITION. Get Log Page: the standard pages, laid out as NVMe 2.0 does (assumption 21), and the vendor pages of R237, R278 to
R281, R344, R378 and R406. -/

namespace Sys2Proof.Machine

/-! ### Pages -/

/-- Bytes of fields given by offset, size and value in rising order of offset, with zeros between. -/
def layOut : Nat → List (Nat × Nat × Nat) → List Byte
  | _, [] => []
  | at_, (o, n, v) :: fs => leBytes (o - at_) 0 ++ leBytes n v ++ layOut (o + n) fs

/-- A page of a size from its fields. -/
def pageOf (size : Nat) (fs : List (Nat × Nat × Nat)) : List Byte := takePad size (layOut 0 fs)

/-! ### Health of the Endurance Groups (R247) -/

/-- Percentage Used of a group: the higher wear ratio of its QLC and SLC-mode blocks not retired, in percent rounded up. -/
def State.percentUsed (s : State) (set : Nat) : Nat :=
  let ratio := fun (slc : Bool) =>
    let bs := s.blocksOf set fun _ e => e.slc == slc && e.st != .retired && e.st != .factory && e.st != .absent
    let lim := s.peLimit slc * bs.length
    if lim = 0 then 0 else (100 * sumBy (fun b => (s.blk b).pe) bs + lim - 1) / lim
  min 255 (max (ratio false) (ratio true))

/-- Critical warning of a group: bit 0 spare below the threshold, bit 2 a lost row, bit 3 read-only. -/
def State.groupWarning (s : State) (set : Nat) : Nat :=
  let r := s.rset set
  b2n (s.availSpare set < 10) + b2n r.rowLost * 4 + b2n r.readOnly * 8

/-- Groups formed. -/
def State.groups (s : State) : List Nat := Tab.keys (Tab.keep s.zne.sets fun _ r => r.ranks != 0)

/-- Namespaces attached to a controller. -/
def State.attached (s : State) (fn : Nat) : List (Nat × Ns) := s.hif.nss.filter fun e => e.2.fns.contains fn

/-- Groups a controller sees: all for the owner, else those that hold namespaces attached to it (R278). -/
def State.groupsOf (s : State) (fn : Nat) : List Nat :=
  if isPf fn then s.groups else s.groups.filter fun g => (s.attached fn).any fun e => e.2.set == g && e.2.node == s.ownNode

/-- Composite temperature in kelvin; 0 before a sample (R407). -/
def State.kelvin (s : State) : Nat :=
  match s.composite with
  | some t => (t / 256 + 273).toNat
  | none => 0

/-- The composite temperature is beyond a threshold of the Temperature Threshold feature. -/
def State.tempWarning (s : State) : Bool :=
  let above := Tab.getD s.hif.devFeats 0x40000 368
  let below := Tab.getD s.hif.devFeats 0x40010 0
  s.kelvin != 0 && (decide (bits above 0 16 ≤ s.kelvin) || decide (s.kelvin ≤ bits below 0 16))

/-- SMART / Health Information (0x02): the figures of R247 and R407, and the counts kept (assumption 72). -/
def State.smartLog (s : State) (fn : Nat) : List Byte × State :=
  let gs := s.groupsOf fn
  let w := gs.foldl (fun a g => Nat.lor a (s.groupWarning g)) 0
  let spare := (minBy (fun x => x) (gs.map s.availSpare)).getD 100
  let used := gs.foldl (fun a g => max a (s.percentUsed g)) 0
  let n := s.smartOf fn
  let all := s.smartOf fwdFn
  let mins := fun (x : Nat) => x / 60000000000
  (pageOf 512 [(0, 1, Nat.lor w (b2n s.tempWarning * 2)), (1, 2, s.kelvin), (3, 1, spare), (4, 1, 10), (5, 1, used),
    (6, 1, w), (32, 16, (n 0 * 8 + 999) / 1000), (48, 16, (n 1 * 8 + 999) / 1000), (64, 16, n 2), (80, 16, n 3), (96, 16, mins (n 7)),
    (112, 16, all 6), (128, 16, mins (all 9) / 60), (144, 16, n 5), (160, 16, n 4), (176, 16, n 8), (192, 4, mins (all 10)),
    (196, 4, mins (all 11))], s)

/-- Endurance Group Information (0x09) of the group in LSI. -/
def State.groupLog (s : State) (g : Nat) : List Byte × State :=
  let zones := (shares (s.setBlocks (s.rset g).ranks)).1
  let cap := zones * s.zLba * 4096
  let taken := sumBy (fun e => e.2.nsze * 4096) (s.hif.nss.filter fun e => e.2.set == g && e.2.node == s.ownNode)
  let n := s.smartOf (groupFn g)
  let billions := fun (x : Nat) => (x + 999999999) / 1000000000
  (pageOf 512 [(0, 1, s.groupWarning g), (3, 1, s.availSpare g), (4, 1, 10), (5, 1, s.percentUsed g), (48, 16, billions (n 0 * 4096)),
    (64, 16, billions (n 1 * 4096)), (80, 16, billions (n 12)), (96, 16, n 2), (112, 16, n 3), (128, 16, n 4), (144, 16, n 8),
    (160, 16, cap), (176, 16, cap - taken)], s)

/-- A group's critical warning that its Endurance Group Event Configuration enables and that has not been reported is reported: it
enters the aggregate log and owners that enabled the notice hear of it (R247, R276). -/
def State.groupEvents (s : State) : State :=
  s.groups.foldl (fun s g =>
    let want := bits (Tab.getD s.hif.devFeats (0x180001 + g) 0) 16 8
    let w := Nat.land (s.groupWarning g) want
    let old := Tab.getD s.hif.devFeats (0x190000 + g) 0
    if w ≠ old ∧ Nat.lor w old ≠ old then
      let s := s.hf fun h => { h with
        devFeats := Tab.set (Tab.set h.devFeats (0x190000 + g) w) (0x1A0000 + g) 1 }
      s.notify ((Tab.keys s.hif.fns).filter isPf) 14 (2 + 0x05 * 2 ^ 8 + 0x0F * 2 ^ 16)
    else s) s

/-- Groups in the Endurance Group Event Aggregate. -/
def State.aggregate (s : State) : List Nat := s.groups.filter fun g => Tab.getD s.hif.devFeats (0x1A0000 + g) 0 == 1

/-! ### Other standard pages -/

/-- Firmware Slot Information (0x03): the running slot, the slot of the next reset, FWREV of both (R287, R317, R322). On the recovery
path no slot is active. -/
def State.slotLog (s : State) : List Byte :=
  let active := if s.recovery then 0 else s.activeSlot + 1
  let next := match s.activeWord with
    | some (_, p, _) => if p = 0xFF then 0 else p + 1
    | none => 0
  takePad 512 (leBytes 8 (active + next * 16) ++ s.slotRev 0 ++ s.slotRev 1)

/-- Admin opcodes of a controller (R275, R390): opcode, owner only, master only. -/
def adminOpcodes : List (Nat × Bool × Bool) :=
  [(0x00, false, false), (0x01, false, false), (0x02, false, false), (0x04, false, false), (0x05, false, false),
   (0x06, false, false), (0x08, false, false), (0x09, false, false), (0x0A, false, false), (0x0C, false, false),
   (0x0D, true, true), (0x10, true, true), (0x11, true, true), (0x15, true, true), (0x19, false, false), (0x1A, false, false),
   (0x1C, true, true), (0x1D, true, false), (0x1E, true, false), (0x80, true, true), (0x84, true, true), (0xC0, true, true),
   (0xC1, false, false), (0xC2, false, false), (0xC4, false, false), (0xC5, true, false), (0xC6, true, false)]

/-- Commands Supported and Effects (0x05): CSUPP of every supported opcode; data change, namespace change and controller change
effects as the standard names them. -/
def State.effectsLog (s : State) (fn : Nat) : List Byte :=
  let eff := fun (o : Nat) =>
    match o with
    | 0x80 | 0x84 => 1 + 2 + 4
    | 0x0D | 0x15 => 1 + 4 + 8
    | 0x10 | 0x1C => 1 + 16
    | _ => 1
  let adm := (List.range 256).flatMap fun o =>
    match adminOpcodes.find? fun e => e.1 == o with
    | some (_, own, mas) => if (own && !isPf fn) || (mas && s.isMember) then leBytes 4 0 else leBytes 4 (eff o)
    | none => leBytes 4 0
  let io := (List.range 256).flatMap fun o =>
    leBytes 4 (if ioOpcodes.contains o then 1 + (if [0x01, 0x08, 0x09, 0x19, 0x79, 0x7D].contains o then 2 else 0) else 0)
  takePad 4096 (adm ++ io)

/-- A list of namespace identifiers that changed (0x04), at most 1,024. -/
def Func.changedNs (f : Func) : List Byte := takePad 4096 (((f.chNs.take 1024).mergeSort (· ≤ ·)).flatMap (leBytes 4))

/-- Changed Zone List (0xBF) of a namespace, at most 511 zones. -/
def Func.changedZones (f : Func) (nsid : Nat) : List Byte :=
  let zs := (f.chZones.filter fun z => z.1 == nsid).map (·.2)
  if 511 < zs.length then pageOf 4096 [(0, 2, 0xFFFF)]
  else takePad 4096 (leBytes 8 zs.length ++ zs.flatMap (leBytes 8))

/-- Nodes enumerated, this one included (R268). -/
def State.nodeCount (s : State) : Nat := 1 + (s.casc.nodes.filter fun e => e.2.admitted && e.1 != s.ownNode).length

/-- ANA state of a group of namespaces for this node's controllers: 1 optimized, 2 non-optimized, 3 inaccessible (R268). -/
def State.anaState (s : State) (node : Nat) : Nat := if node = s.ownNode then 1 else if s.isMaster then 2 else 3

/-- Asymmetric Namespace Access (0x0C): a group for each node, with the namespaces attached to the controller. -/
def State.anaLog (s : State) (fn : Nat) : List Byte :=
  let chg := Tab.getD s.hif.devFeats 0xA0C00 0
  let nodes := if s.isMember then [s.ownNode] else List.range s.nodeCount
  let grp := fun (d : Nat) =>
    let ns := ((s.attached fn).filter fun e => e.2.node == d).map (·.2.nsid)
    layOut 0 [(0, 4, d + 1), (4, 4, ns.length), (8, 8, chg), (16, 1, s.anaState d), (17, 15, 0)] ++ ns.flatMap (leBytes 4)
  layOut 0 [(0, 8, chg), (8, 2, nodes.length), (10, 6, 0)] ++ nodes.flatMap grp

/-- Sanitize Status (0x81). -/
def State.sanitizeLog (s : State) : List Byte :=
  let run := s.sec.erases.any fun e => match e.scope with
    | .all _ => true
    | _ => false
  let done := Tab.getD s.hif.devFeats 0x10081 0 == 1
  pageOf 512 [(0, 2, if run then 0 else 0xFFFF), (2, 2, if run then 2 else if done then 0x101 else 0x100),
    (8, 4, 0xFFFFFFFF), (12, 4, 0xFFFFFFFF), (16, 4, 0xFFFFFFFF)]

/-- FDP Configurations (0x20) of a group: one configuration, one reclaim group, 8 handles, persistently isolated (R189). -/
def State.fdpConfigs (s : State) : List Byte :=
  layOut 0 [(0, 2, 0), (4, 4, 16 + 96), (8, 8, 0), (16, 2, 96), (18, 1, 0x80), (20, 4, 1), (24, 2, 8), (26, 2, 7), (28, 4, 1024),
    (32, 8, s.segCws * 4096), (40, 4, 0), (80, 4, 2), (84, 4, 2), (88, 4, 2), (92, 4, 2), (96, 4, 2), (100, 4, 2), (104, 4, 2),
    (108, 4, 2)]

/-- FDP Statistics (0x22): host bytes written to the group's conventional namespaces, media bytes programmed and erased (R189). -/
def State.fdpStats (s : State) (g : Nat) : List Byte :=
  let n := s.smartOf (groupFn g)
  layOut 0 [(0, 16, n 14 * 4096), (16, 16, n 12), (32, 16, n 13), (48, 16, 0)]

/-- Reclaim Unit Handle Usage (0x21): a handle is host specified while a namespace of the group uses it. -/
def State.fdpUsage (s : State) (g : Nat) : List Byte :=
  let n := (s.zne.conv.filter fun c => c.2.set == g).foldl (fun a c => max a c.2.nruh) 0
  layOut 0 [(0, 2, 8), (2, 6, 0)] ++ (List.range 8).flatMap fun k => leBytes 8 (b2n (k < n))

/-- FDP Events (0x23) of a group: those a namespace of it reports (feature 0x1E). -/
def State.fdpEventLog (s : State) (g : Nat) : List Byte :=
  let on := s.hif.fdpEvents.filter fun e =>
    (((s.nsAt e.2).map (·.set)).getD 0 == g) && bit (Tab.getD s.hif.devFeats (0x1E0000 + e.2) 0) e.1
  leBytes 4 on.length ++ leBytes 60 0 ++ on.flatMap fun e =>
    pageOf 64 [(0, 1, if e.1 = 0 then 0 else 0x80), (1, 1, 2), (12, 4, ((s.nsAt e.2).map (·.nsid)).getD 0)]

/-! ### Vendor pages -/

/-- Tenancy Health of one tenancy (R279). -/
def State.tenHealth (s : State) (t : Nat) : List Byte :=
  let n := (List.range 64).foldl (fun a b => a + s.fld (F.LPE_HIST_COUNT (t * 64 + b))) 0
  let ladder := (List.range 6).map fun k => (32 + k * 8, 8, s.fld (F.LDC_LADDER_COUNT (t * 8 + k)))
  pageOf 128 ([(0, 1, t), (1, 1, b2n (s.tenExists t) + b2n (s.fld (F.LPE_SCTL_STATE t) == 2) * 2),
    (4, 2, s.fld (F.ZNE_TZQ_AQ t)), (6, 2, s.fld (F.ZNE_TZQ_OQ t)), (8, 2, s.fld (F.ZNE_TZU_ACT t)),
    (10, 2, s.fld (F.ZNE_TZU_OPN t)), (12, 4, s.fld (F.HIF_TCRED_TSQ t)), (16, 4, s.fld (F.HIF_TUSE_TSU t)),
    (20, 4, s.fld (F.HIF_TWBQ_WBQ t)), (24, 4, s.fld (F.HIF_TWBU_WBU t))] ++ ladder ++
    [(80, 8, n), (88, 8, Tab.getD s.hif.wrblk t 0), (96, 8, Tab.getD s.hif.ure t 0), (104, 4, (s.word (R.LPE_OUT t)).toNat),
     (108, 4, s.fld (F.LPE_FAULTS_COUNT t))])

/-- Stripe Health (R280): every tenancy's lost blocks for none, else one tenancy's. -/
def State.stripeHealth (s : State) (ten : Option Nat) : List Byte :=
  let all := s.zne.lost.flatMap fun e => (s.lostBlocks e.1 e.2).filterMap fun b =>
    (s.nsAt b.1).bind fun n =>
      if ten.isNone || ten == some n.ten then some (n.nsid, b.2.1, e.1, b.2.2, e.2.slc) else none
  let es := all.mergeSort fun a b => decide (a.1 * 2 ^ 64 + a.2.1 ≤ b.1 * 2 ^ 64 + b.2.1)
  layOut 0 [(0, 8, if ten.isNone then s.fld F.PQE_ROWLOST_COUNT else 0), (8, 4, es.length),
    (12, 4, b2n s.zne.lostFull), (16, 8, s.zne.lostGen), (24, 8, 0)] ++
  es.flatMap fun x => layOut 0 [(0, 8, x.2.1), (8, 4, x.1), (12, 2, x.2.2.1), (14, 1, x.2.2.2.1), (15, 1, b2n x.2.2.2.2)]

/-- Latency Histogram of one tenancy (R281). -/
def State.histLog (s : State) (t : Nat) : List Byte :=
  layOut 0 [(0, 1, t), (2, 2, 64), (4, 4, s.fld (F.LPE_SP_THRESH t)), (8, 8, s.now)] ++
  ((List.range 64).flatMap fun b => leBytes 8 (s.fld (F.LPE_HIST_COUNT (t * 64 + b)))) ++
  ((List.range 64).flatMap fun k => leBytes 4 (if k = 0 then 0 else (s.word (R.LPE_BINEDGE k)).toNat))

/-- Power Accounting (R378). -/
def State.powerLog (s : State) : List Byte :=
  layOut 0 ([(0, 8, s.fld F.AON_PS_ATTEMPT_COUNT), (8, 8, s.fld F.AON_PS_DONE_COUNT), (16, 8, s.fld F.AON_PS_REFUSED_COUNT),
    (24, 8, s.fld F.AON_PS_ABORTED_COUNT), (32, 8, s.fld F.AON_PS_COLLAPSED_COUNT), (40, 1, s.fld F.AON_PSSTAT_CUR),
    (41, 1, s.fld F.AON_PSSTAT_LASTREF), (44, 4, s.fld F.ZNE_PWREFF_EFF), (48, 4, s.fld F.ZNE_PWRSTAT_DRAW),
    (52, 4, s.fld F.AON_HULIM_LIMIT), (56, 4, s.fld F.AON_HUCFG_EMEAS),
    (60, 4, s.fld F.AON_HULIM_FAILED + s.fld F.ZNE_DIRTYCFG_THRU * 2 + s.fld F.ZNE_PWRSTAT_PCAP * 4 +
      b2n (s.fld (F.LPE_SCTL_STATE 144) == 2) * 8)] ++
    ((List.range 4).map fun m => (64 + m * 8, 8, s.fld (F.AON_RES_COUNT m))) ++
    ((List.range 176).map fun i => (96 + i * 4, 4, s.fld (F.AON_REFCNT_COUNT i))))

/-- The devices marked failed of a subchannel, as the Correctable Error Table log shows them: rank 0's mark before rank 1's. -/
def State.devFail (s : State) (sc : Nat) : Nat :=
  let d := sc % 2
  let i := sc / 2
  if s.flag (F.DMC_ECCSTAT_FV0 d i) then s.fld (F.DMC_ECCSTAT_FDEV0 d i) + 2 ^ 7
  else if s.flag (F.DMC_ECCSTAT_FV1 d i) then s.fld (F.DMC_ECCSTAT_FDEV1 d i) + 2 ^ 4 + 2 ^ 7
  else 0

/-- Correctable Error Table (R344). -/
def State.ceLog (s : State) : List Byte :=
  let sub := [0, 1, 2, 3]
  let ent := fun (sc : Nat) => takePad 512 ((Tab.getD s.dram.ce sc []).flatMap fun e =>
    layOut 0 [(0, 8, e.addr), (8, 1, e.dev), (9, 1, e.syms), (10, 2, e.count), (12, 4, e.ts)])
  layOut 0 (sub.map (fun c => (c * 8, 8, s.fld (F.DMC_CECNT_COUNT (c % 2) (c / 2)))) ++
    sub.map (fun c => (32 + c * 8, 8, s.fld (F.DMC_UECNT_COUNT (c % 2) (c / 2)))) ++
    sub.map (fun c => (64 + c, 1, s.devFail c)) ++
    [(68, 4, s.fld F.MRM_REMAP_COUNT), (72, 1, s.fld F.MRM_BANKSTAT_FAILED), (76, 4, s.dram.sramCe), (80, 16, 0)]) ++
  sub.flatMap ent

/-- Legacy Defect List (R237). -/
def State.defectLog (s : State) : List Byte :=
  let ds := s.zne.defects.mergeSort fun a b =>
    decide ((blkChan a.blk * 16 + blkRank a.blk) * 2 ^ 17 + (if a.whole then 0xFFFF else blkIdx a.blk) ≤
      (blkChan b.blk * 16 + blkRank b.blk) * 2 ^ 17 + (if b.whole then 0xFFFF else blkIdx b.blk))
  let hdr := layOut 0 [(0, 4, 0x31304C47), (4, 2, 1), (8, 4, ds.length), (12, 4, s.fld F.ZNE_GEOM_CHANNELS), (16, 8, s.zne.defGen),
    (24, 4, 0)]
  hdr ++ leBytes 4 (crc32c hdr).toNat ++ ds.flatMap fun d =>
    layOut 0 [(0, 2, if d.whole then 0xFFFF else blkIdx d.blk), (2, 1, blkChan d.blk), (3, 1, blkRank d.blk), (4, 1, d.kind),
      (5, 1, 0), (6, 2, min d.pe 0xFFFF)]

/-! ### The command -/

/-- Identifier, length in bytes and offset of a Get Log Page, and its Log Specific Identifier. -/
def Sqe.lid (e : Sqe) : Nat := bits e.cdw10.toNat 0 8

@[inherit_doc Sqe.lid] def Sqe.logLen (e : Sqe) : Nat := (bits e.cdw10.toNat 16 16 + bits e.cdw11.toNat 0 16 * 2 ^ 16 + 1) * 4

@[inherit_doc Sqe.lid] def Sqe.logOff (e : Sqe) : Nat := e.cdw12.toNat + e.cdw13.toNat * 2 ^ 32

@[inherit_doc Sqe.lid] def Sqe.lsi (e : Sqe) : Nat := bits e.cdw11.toNat 16 16

/-- Log pages the device has. -/
def logPages : List Nat :=
  [0x00, 0x01, 0x02, 0x03, 0x04, 0x05, 0x09, 0x0C, 0x0F, 0x20, 0x21, 0x22, 0x23, 0x81, 0xBF, 0xC0, 0xC1, 0xC2, 0xC3, 0xC4, 0xC5,
   0xC6]

/-- Supported Log Pages (0x00). -/
def supportedLogs (fn : Nat) : List Byte :=
  (List.range 256).flatMap fun l => leBytes 4 (b2n (logPages.contains l && (l != 0xC6 || isPf fn)))

/-- The vendor pages that define what 0xFFFF in LSI selects (R279 to R281; the Stripe Health log by its view, assumption 31). -/
def allTenPages : List Nat := [0xC0, 0xC1, 0xC2]

/-- The tenancies a vendor page shows: one's own for a tenancy controller; the one in LSI, or all for 0xFFFF where the page defines
it, for the owner; none where LSI names no existing tenancy (R278). -/
def State.logTens (s : State) (fn : Nat) (e : Sqe) : Option (List Nat) :=
  if isPf fn = false then some [s.fnTen fn]
  else if e.lsi = 0xFFFF then (if e.lid ∈ allTenPages then some (List.range 128) else none)
  else if e.lsi < 128 ∧ s.tenExists e.lsi = true then some [e.lsi]
  else none

/-- The group a page names with LSI, if the controller sees it. -/
def State.logGroup (s : State) (fn : Nat) (e : Sqe) : Option Nat :=
  if e.lsi ≠ 0 ∧ (s.groupsOf fn).contains (e.lsi - 1) = true then some (e.lsi - 1) else none

/-- Answer a page. -/
def State.givePage (s : State) (fn : Nat) (e : Sqe) (p : List Byte) : State := s.adminData fn e p e.logOff e.logLen

/-- A page of a group. -/
def State.giveGroup (s : State) (fn : Nat) (e : Sqe) (f : Nat → State → List Byte × State) (fdp : Bool := false) : State :=
  match s.logGroup fn e with
  | none => s.adminDone fn e .invalidField
  | some g =>
    if fdp && !(s.rset g).fdp then s.adminDone fn e .fdpDisabled
    else
      let (p, s) := f g s
      s.givePage fn e p

/-- A vendor page of tenancies. -/
def State.giveTens (s : State) (fn : Nat) (e : Sqe) (f : List Nat → List Byte) : State :=
  match s.logTens fn e with
  | none => s.adminDone fn e .invalidField
  | some ts => s.givePage fn e (f ts)

/-- A read page's retained event is cleared unless RAE is set. -/
def Sqe.clears (e : Sqe) : Bool := !bit e.cdw10.toNat 15

/-- Get Log Page. -/
def State.getLogPage (s : State) (fn : Nat) (e : Sqe) : State :=
  if e.logOff % 4 ≠ 0 then s.adminDone fn e .invalidField
  else
    match e.lid with
    | 0x00 => s.givePage fn e (supportedLogs fn)
    | 0x01 =>
      let (v, s) := s.drawFree
      s.givePage fn e (leBytes 4096 v)
    | 0x02 =>
      let (p, s) := s.smartLog fn
      s.givePage fn e p
    | 0x03 => s.givePage fn e s.slotLog
    | 0x04 =>
      let p := (s.func fn).changedNs
      (if e.clears then s.modFunc fn fun f => { f with chNs := [] } else s).givePage fn e p
    | 0x05 => s.givePage fn e (s.effectsLog fn)
    | 0x09 => s.giveGroup fn e fun g s => s.groupLog g
    | 0x0C => s.givePage fn e (s.anaLog fn)
    | 0x0F =>
      let gs := s.aggregate
      let p := leBytes 8 gs.length ++ gs.flatMap fun g => leBytes 2 (g + 1)
      let s := if e.clears ∧ isPf fn = true then
          gs.foldl (fun s g => s.hf fun h => { h with devFeats := Tab.set h.devFeats (0x1A0000 + g) 0 }) s
        else s
      s.givePage fn e p
    | 0x20 => s.giveGroup fn e fun _ s => (s.fdpConfigs, s)
    | 0x21 => s.giveGroup fn e (fun g s => (s.fdpUsage g, s)) true
    | 0x22 => s.giveGroup fn e (fun g s => (s.fdpStats g, s)) true
    | 0x23 => s.giveGroup fn e (fun g s => (s.fdpEventLog g, s)) true
    | 0x81 => s.givePage fn e s.sanitizeLog
    | 0xBF =>
      let n := e.nsid.toNat
      if (s.attached fn).any (fun x => x.2.nsid == n && !x.2.conv) = false then s.adminDone fn e .invalidNamespace
      else
        let p := (s.func fn).changedZones n
        (if e.clears then s.modFunc fn fun f => { f with chZones := f.chZones.filter fun z => z.1 != n } else s).givePage fn e p
    | 0xC0 => s.giveTens fn e fun ts => ts.flatMap s.tenHealth
    | 0xC1 => s.giveTens fn e fun ts => s.stripeHealth (if ts.length = 1 then ts.head? else none)
    | 0xC2 => s.giveTens fn e fun ts => ts.flatMap s.histLog
    | 0xC3 =>
      match s.logTens fn e with
      | none => s.adminDone fn e .invalidField
      | some _ =>
        let (k, lost, s) := s.recorderAccess fn
        s.givePage fn e (s.recorderLog fn k lost (s.viewFrom fn (Tab.getD s.evr.cursors k ⟨0, 0, 0⟩).pos))
    | 0xC4 => s.giveTens fn e fun _ => s.powerLog
    | 0xC5 => s.giveTens fn e fun _ => s.ceLog
    | 0xC6 => if isPf fn then s.givePage fn e s.defectLog else s.adminDone fn e .invalidLogPage
    | _ => s.adminDone fn e .invalidLogPage

/-- GET_LOG_PAGE: executed by a controller whose tenancy has not been created too (R260, R278). -/
def execGetLogPage (fn : FnId) (e : Sqe) (s : State) : Host.Outcome State Fault Refusal :=
  s.adminTunnel fn.val e ⟨false, false, false⟩ (e.lid == 3) fun s => s.getLogPage fn.val e

end Sys2Proof.Machine
end

