-- ==== Sys2Proof/Machine/Identify.lean ====
section
/-! DEFINITION. Identify: the data structures of the CNS values of R276, laid out as NVMe 2.0 does (assumption 21), with the values
of R60, R89, R184, R267, R268 and R276. -/

namespace Sys2Proof.Machine

/-! ### Controllers -/

/-- Controller ID of a function of this node (R267). -/
def State.cntlid (s : State) (fn : Nat) : Nat := 1 + s.ownNode * 256 + fn

/-- What a namespace's list of controllers holds for a Controller ID: the function, or 1024 and up for another node's. -/
def State.ctlEntry (s : State) (cid : Nat) : Nat :=
  if (cid - 1) / 256 = s.ownNode then (cid - 1) % 256 else 1024 + (cid - 1)

/-- The Controller ID of such an entry. -/
def State.ctlId (s : State) (x : Nat) : Nat := if x < 1024 then s.cntlid x else x - 1024 + 1

/-- Hexadecimal digit. -/
def hexDigit (n : Nat) : Byte := BitVec.ofNat 8 (if n < 10 then 48 + n else 87 + n)

/-- The text of a UUID: 32 hexadecimal digits with dashes. -/
def uuidText (u : Nat) : List Byte :=
  let d := fun (k : Nat) => hexDigit (u / 16 ^ (31 - k) % 16)
  let part := fun (a n : Nat) => (List.range n).map fun i => d (a + i)
  part 0 8 ++ [45] ++ part 8 4 ++ [45] ++ part 12 4 ++ [45] ++ part 16 4 ++ [45] ++ part 20 12

/-- The text nqn.2014-08.org.nvmexpress:uuid: that SUBNQN begins with. -/
def nqnHead : List Byte :=
  [110, 113, 110, 46, 50, 48, 49, 52, 45, 48, 56, 46, 111, 114, 103, 46, 110, 118, 109, 101, 120, 112, 114, 101, 115, 115, 58,
   117, 117, 105, 100, 58]

/-- Capacity of this node in bytes and what of it no namespace takes. -/
def State.capacity (s : State) : Nat × Nat :=
  let cap := sumBy (fun e => (shares (s.setBlocks e.2.ranks)).1 * s.zLba * 4096) s.zne.sets
  let taken := sumBy (fun e => if e.2.node = s.ownNode then e.2.nsze * 4096 else 0) s.hif.nss
  (cap, cap - taken)

/-- FR: FWREV of the running slot. -/
def State.firmwareRev (s : State) : List Byte :=
  if s.recovery then List.replicate 8 0x20 else s.slotRev s.activeSlot

/-- Identify Controller (CNS 0x01). -/
def State.idController (s : State) (fn : Nat) : List Byte :=
  let (cap, free) := s.capacity
  takePad 64 Config.idHead ++ s.firmwareRev ++
  layOut 72 [(73, 3, Config.ieee.toNat), (76, 1, if fn % 128 = 0 then 0x0B else 0x0F), (77, 1, 8), (78, 2, s.cntlid fn),
    (80, 4, 0x00020000), (84, 4, 4000000), (88, 4, 2000000), (92, 4, 2 ^ 8 + 2 ^ 9 + 2 ^ 11 + 2 ^ 14 + 2 ^ 27),
    (96, 4, 1 + 2 ^ 2 + 2 ^ 4 + 2 ^ 19), (111, 1, 1), (256, 2, 2 + 4 + 8 + 2 ^ 5 + 2 ^ 6 + 2 ^ 7), (258, 1, 3), (259, 1, 15),
    (260, 1, 0x14), (261, 1, 6), (262, 1, 63), (263, 1, 4), (265, 1, 1), (266, 2, 368), (268, 2, if s.xb then 388 else 378),
    (270, 2, 8), (272, 4, 0), (280, 16, cap), (296, 16, free), (328, 4, 3), (338, 2, 16), (340, 2, 16), (342, 1, 10),
    (343, 1, 7), (344, 4, 4), (348, 4, s.nodeCount), (512, 1, 0x66), (513, 1, 0x44), (516, 4, 1024), (520, 2, 0x1CD), (522, 2, 1),
    (524, 1, 4), (525, 1, 6), (526, 2, 0), (528, 2, 0), (532, 2, 15), (534, 2, 1), (536, 4, 0), (540, 4, 1024)] ++
  leBytes (768 - 544) 0 ++ takePad 256 (nqnHead ++ uuidText s.hif.subnqn) ++ leBytes (2048 - 1024) 0 ++
  takePad (4096 - 2048) ([0, 1, 2, 3, 4].flatMap fun k => takePad 32 (Config.psDescriptor k))

/-! ### Namespaces -/

/-- The LBA format of a metadata size. -/
def formatOf (m : Nat) : Nat := if m = 8 then 1 else if m = 16 then 2 else 0

/-- LBA formats 0 to 2: metadata size and 2 ^ 12 bytes of data. -/
def lbaFormats : List (Nat × Nat × Nat) := [(128, 4, 12 * 2 ^ 16), (132, 4, 8 + 12 * 2 ^ 16), (136, 4, 16 + 12 * 2 ^ 16)]

/-- Blocks in use of a namespace: those not deallocated of a conventional one (R177), all of a zoned one. -/
def State.nuse (s : State) (n : Nat) (x : Ns) : Nat :=
  if x.conv then ((s.cns n).map (·.nuse)).getD 0 else x.ncap

/-- Identify Namespace (CNS 0x00, 0x11). MSSRL is 16 bits wide in the NVMe structure, so
it reports 0xFFFF for the 131,072 blocks of R87 (DESIGN CHOICE, assumption 64). -/
def State.idNamespace (s : State) (n : Nat) (x : Ns) : List Byte :=
  pageOf 4096 ([(0, 8, x.nsze), (8, 8, x.ncap), (16, 8, s.nuse n x), (24, 1, b2n x.conv + 16), (25, 1, 2),
    (26, 1, formatOf x.meta_), (27, 1, 3), (30, 1, 1), (33, 1, if x.conv then 9 else 0), (64, 2, if x.conv then 15 else 1023),
    (66, 2, if x.conv then 15 else 1023), (74, 2, 0xFFFF), (76, 4, 131072), (80, 1, 127), (92, 4, x.node + 1), (100, 2, x.set + 1), (102, 2, x.set + 1)] ++ lbaFormats)

/-- Identify Namespace of NSID 0xFFFF_FFFF: what is common to all namespaces. -/
def idCommon : List Byte := pageOf 4096 ([(25, 1, 2), (27, 1, 3)] ++ lbaFormats)

/-- Identify of the I/O command set of a namespace (CNS 0x05): the values of R60 and R89 for a zoned one. -/
def State.idCommandSet (s : State) (x : Ns) : List Byte :=
  if x.conv then leBytes 4096 0
  else
    let z := [0, 1, 2].map fun k => (2816 + k * 16, 8, s.zLba)
    pageOf 4096 ([(0, 2, 0), (2, 2, 1), (4, 4, s.fld (F.ZNE_TZQ_AQ x.ten) + 0xFFFFFFFF), (8, 4, s.fld (F.ZNE_TZQ_OQ x.ten) + 0xFFFFFFFF)]
      ++ z)

/-- Identify of a namespace apart from its command set (CNS 0x08). -/
def idIndependent (x : Ns) : List Byte :=
  pageOf 4096 [(0, 1, 16), (1, 1, 1), (4, 4, x.node + 1), (10, 2, x.set + 1), (12, 2, x.set + 1), (14, 1, 1)]

/-- Rising namespace identifiers above one, at most 1,024 of them. -/
def nsidList (ids : List Nat) (above : Nat) : List Byte :=
  takePad 4096 ((((ids.filter (above < ·)).mergeSort (· ≤ ·)).take 1024).flatMap (leBytes 4))

/-- A controller list: identifiers from one up. -/
def ctlList (ids : List Nat) (from_ : Nat) : List Byte :=
  let l := (ids.filter (from_ ≤ ·)).mergeSort (· ≤ ·)
  takePad 4096 (leBytes 2 l.length ++ l.flatMap (leBytes 2))

/-- Functions of this node that are controllers now: PFs of ports in use and enabled VFs. -/
def State.controllers (s : State) : List Nat :=
  (List.range 256).filter fun fn => s.portUsed (fn / 128) && s.fnEnabled fn

/-- NVM Set List (CNS 0x04). -/
def State.idSets (s : State) (fn from_ : Nat) : List Byte :=
  let gs := (s.groupsOf fn).filter fun g => decide (from_ ≤ g + 1)
  let ent := fun (g : Nat) =>
    let cap := (shares (s.setBlocks (s.rset g).ranks)).1 * s.zLba * 4096
    let taken := sumBy (fun e => if e.2.set = g ∧ e.2.node = s.ownNode then e.2.nsze * 4096 else 0) s.hif.nss
    pageOf 128 [(0, 2, g + 1), (2, 2, g + 1), (16, 16, cap), (32, 16, cap - taken)]
  takePad 4096 (pageOf 128 [(0, 1, gs.length)] ++ gs.flatMap ent)

/-- Endurance Group List (CNS 0x19). -/
def State.idGroups (s : State) (fn from_ : Nat) : List Byte := ctlList ((s.groupsOf fn).map (· + 1)) from_

/-- Primary Controller Capabilities (CNS 0x14): no flexible resources (R275). -/
def State.idPrimary (s : State) (fn : Nat) : List Byte := pageOf 4096 [(0, 2, s.cntlid fn), (2, 2, fn / 128), (4, 1, 0)]

/-- Secondary Controller List (CNS 0x15): the VFs of a PF's port; online while enabled. -/
def State.idSecondary (s : State) (fn from_ : Nat) : List Byte :=
  let p := fn / 128
  let vs := if isPf fn then ((List.range 127).map (· + 1)).filter fun f => decide (from_ ≤ s.cntlid (p * 128 + f)) else []
  takePad 4096 (pageOf 32 [(0, 1, vs.length)] ++ vs.flatMap fun f =>
    pageOf 32 [(0, 2, s.cntlid (p * 128 + f)), (2, 2, s.cntlid (p * 128)), (4, 1, b2n (s.fnEnabled (p * 128 + f))), (8, 2, f)])

/-! ### The command -/

/-- An attached namespace by its identifier. -/
def State.attachedId (s : State) (fn nsid : Nat) : Option (Nat × Ns) := (s.attached fn).find? fun e => e.2.nsid == nsid

/-- Answer 4,096 bytes. -/
def State.give4k (s : State) (fn : Nat) (e : Sqe) (p : List Byte) : State := s.adminData fn e p 0 4096

/-- Identify. -/
def State.identify (s : State) (fn : Nat) (e : Sqe) : State :=
  let cntid := bits e.cdw10.toNat 16 16
  let low := bits e.cdw11.toNat 0 16
  let csi := bits e.cdw11.toNat 24 8
  let nsid := e.nsid.toNat
  let bad := decide (nsid = 0 ∨ 1024 < nsid)
  match bits e.cdw10.toNat 0 8 with
  | 0x00 =>
    if nsid = 0xFFFFFFFF then s.give4k fn e idCommon
    else if bad then s.adminDone fn e .invalidNamespace
    else s.give4k fn e (match s.attachedId fn nsid with
      | some (n, x) => s.idNamespace n x
      | none => [])
  | 0x01 => s.give4k fn e (s.idController fn)
  | 0x02 =>
    if 0xFFFFFFFE ≤ nsid then s.adminDone fn e .invalidNamespace
    else s.give4k fn e (nsidList ((s.attached fn).map (·.2.nsid)) nsid)
  | 0x03 =>
    match s.attachedId fn nsid with
    | some (_, x) => s.give4k fn e (pageOf 4096 [(0, 1, 4), (1, 1, 1), (4, 1, if x.conv then 0 else 2)])
    | none => s.adminDone fn e .invalidNamespace
  | 0x04 => s.give4k fn e (s.idSets fn low)
  | 0x05 =>
    if bad then s.adminDone fn e .invalidNamespace
    else
      match s.attachedId fn nsid with
      | some (_, x) =>
        if csi = (if x.conv then 0 else 2) then s.give4k fn e (s.idCommandSet x) else s.adminDone fn e .invalidField
      | none => s.give4k fn e []
  | 0x06 =>
    if csi = 0 then s.give4k fn e [] else if csi = 2 then s.give4k fn e [8] else s.adminDone fn e .invalidField
  | 0x08 =>
    if bad then s.adminDone fn e .invalidNamespace
    else s.give4k fn e (match s.attachedId fn nsid with
      | some (_, x) => idIndependent x
      | none => [])
  | 0x10 =>
    if 0xFFFFFFFE ≤ nsid then s.adminDone fn e .invalidNamespace
    else s.give4k fn e (nsidList (s.hif.nss.map (·.2.nsid)) nsid)
  | 0x11 =>
    if bad then s.adminDone fn e .invalidNamespace
    else s.give4k fn e (match (s.nsOfId nsid).bind fun n => (s.nsAt n).map fun x => (n, x) with
      | some (n, x) => s.idNamespace n x
      | none => [])
  | 0x12 =>
    if bad then s.adminDone fn e .invalidNamespace
    else
      let fns := (((s.nsOfId nsid).bind s.nsAt).map (·.fns)).getD []
      s.give4k fn e (ctlList (fns.map s.ctlId) cntid)
  | 0x13 => s.give4k fn e (ctlList (s.controllers.map s.cntlid) cntid)
  | 0x14 => s.give4k fn e (s.idPrimary fn)
  | 0x15 => s.give4k fn e (s.idSecondary fn cntid)
  | 0x19 => s.give4k fn e (s.idGroups fn low)
  | _ => s.adminDone fn e .invalidField

/-- IDENTIFY: executed by a controller whose tenancy has not been created too (R260). -/
def execIdentify (fn : FnId) (e : Sqe) (s : State) : Host.Outcome State Fault Refusal :=
  s.adminTunnel fn.val e ⟨false, false, false⟩ (e.cdw10.toNat % 256 == 1) fun s => s.identify fn.val e

end Sys2Proof.Machine
end

