-- ==== Sys2Proof/Machine/NsAdmin.lean ====
section
/-! DEFINITION. Namespace Management and Attachment (R40, R56, R60, R175, R177, R275, R301, R314, R390), directives, virtualization
management. -/

namespace Sys2Proof.Machine

/-! ### Creation -/

/-- What a Namespace Management creation asks for: its host-specified data in NVMe's layout, the node in byte 3,072 (R390), the
tenancy in byte 3,073 (assumption 22), CSI in CDW11[31:24]. -/
structure NsAsk where
  nsze : Nat
  ncap : Nat
  fmt : Nat
  set : Nat
  conv : Bool
  nruh : Nat
  node : Nat
  ten : Nat
  deriving DecidableEq, Repr

/-- Field of a command's data. -/
def Sqe.field (e : Sqe) (off n : Nat) : Nat := ofLe ((e.data.drop off).take n)

/-- Read a creation's data; none where a value is not one the device takes. -/
def nsAsk (e : Sqe) : Option NsAsk :=
  let csi := bits e.cdw11.toNat 24 8
  let set := e.field 100 2
  let eg := e.field 102 2
  let n := if set = 0 then eg else set
  if (csi ≠ 0 ∧ csi ≠ 2) ∨ n = 0 ∨ 16 < n ∨ (set ≠ 0 ∧ eg ≠ 0 ∧ set ≠ eg) ∨ 3 < e.field 3072 1 ∨ 127 < e.field 3073 1 then none
  else some ⟨e.field 0 8, e.field 8 8, e.field 26 1, n - 1, csi = 0, max 1 (e.field 394 2), e.field 3072 1, e.field 3073 1⟩

/-- Zone Map indices that namespaces of this node take, in rising order of their first index. -/
def State.zoneRanges (s : State) : List (Nat × Nat) :=
  ((s.hif.nss.filter fun e => !e.2.conv && e.2.node == s.ownNode).map fun e => (e.2.zbase, e.2.zones)).mergeSort fun a b =>
    decide (a.1 ≤ b.1)

/-- The lowest index from which n are free, given the ranges taken. -/
def firstGap (n : Nat) : List (Nat × Nat) → Nat → Nat
  | [], a => a
  | (b, m) :: rs, a => if a + n ≤ b then a else firstGap n rs (max a (b + m))

/-- Page map ranges that conventional namespaces take. -/
def State.mapRanges (s : State) : List (Nat × Nat) :=
  (s.zne.conv.map fun c => (c.2.mapBase, c.2.nsze)).mergeSort fun a b => decide (a.1 ≤ b.1)

/-- The status with which a creation is refused on the node that holds it. -/
def State.nsRefused (s : State) (a : NsAsk) : Option Status :=
  let same := fun (x : Ns) => x.set == a.set && x.node == s.ownNode
  let t := Tab.getD s.hif.tens a.ten ⟨0xFFFF, 0⟩
  if s.flag F.ZNE_GEOM_LOCK = false then some .nsInsufficientCapacity
  else if s.tenExists a.ten = false ∨ (Tab.find s.zne.sets a.set).isNone = true ∨ bit t.rsets a.set = false ∨ a.nsze = 0 then
    some .invalidField
  else if 2 < a.fmt % 16 then some .invalidFormat
  else if (s.freeMediaSlot a.ten).isNone then some .nsInsufficientCapacity
  else if s.bankFailed 2 && s.bankFailed 3 then some .internalError
  else if a.conv then
    let r := s.rset a.set
    let nsz := sumBy (fun c => c.2.nsze) s.zne.conv
    let ncp := sumBy (fun c => if c.2.set = a.set then c.2.ncap else 0) s.zne.conv
    let pairs := sumBy (fun c => if c.2.set = a.set then c.2.nruh else 0) s.zne.conv
    if a.nsze < a.ncap ∨ a.ncap = 0 ∨ 8 < a.nruh ∨ (r.fdp = false ∧ 1 < a.nruh) then some .invalidField
    else if r.conv = 0 ∨ 268435456 < nsz + a.nsze ∨ 7 * (r.conv - 64) * s.segCws / 8 < ncp + a.ncap ∨ 256 < pairs + a.nruh ∨
        268435456 < firstGap a.nsze s.mapRanges 0 + a.nsze then
      some .nsInsufficientCapacity
    else none
  else
    let n := a.nsze / s.zLba
    let used := sumBy (fun e => if same e.2 then e.2.zones else 0) s.hif.nss
    if a.nsze % s.zLba ≠ 0 ∨ a.ncap ≠ a.nsze then some .invalidField
    else if (shares (s.setBlocks (s.rset a.set).ranks)).1 < used + n ∨ 2097152 < firstGap n s.zoneRanges 0 + n ∨
        s.coversResv a.set (s.resvHeld a.set + n) = false then
      some .nsInsufficientCapacity
    else none

/-- The lowest namespace identifier that is free. -/
def State.freeNsid (s : State) : Option Nat :=
  ((List.range 1024).map (· + 1)).find? fun i => (s.nsOfId i).isNone

/-- A tenancy's wrap key is generated with the first media key it is to wrap (R300, R301; assumption 23). -/
def State.needTwk (s : State) (ten : Nat) : State :=
  let k := Tab.firstFree s.sec.keys 0x010
  if (Tab.find s.sec.twk ten).isSome ∨ 0x110 ≤ k then s
  else ((s.genKey k 0 ten 0 0).wrapRecord k 0x001).sc fun x => { x with twk := Tab.set x.twk ten k }

/-- A namespace's first media key (R300, R309). -/
def State.firstKey (s : State) (n ten : Nat) : State :=
  let s := s.needTwk ten
  match s.freeMediaSlot ten with
  | none => s
  | some k => (((s.genKey k 1 ten n 0).wrapRecord k (s.twkOf ten)).setWord (R.XTS_NSK n) 0).setCur n k 0 ten

/-- A namespace comes into being on this node: its key, and its zones Empty with a reservation each, or its conventional entry
with every block deallocated (R40, R56, R178, R179). Its index is its identifier less one. -/
def State.makeNs (s : State) (nsid : Nat) (a : NsAsk) : State :=
  let n := nsid - 1
  let m := (lbaFormat (a.fmt % 16)).getD 0
  let s := (s.firstKey n a.ten).setWord (R.ZNE_KGREF n) 0
  if a.conv then
    let c : ConvNs := ⟨firstGap a.nsze s.mapRanges 0, a.nsze, a.ncap, 0, (s.rset a.set).fdp, a.set, a.ten, a.nruh, 0, []⟩
    let s := s.zn fun z => { z with conv := Tab.set z.conv n c }
    s.hf fun h => { h with nss := Tab.set h.nss n ⟨nsid, true, a.ten, a.set, 0, 0, a.nsze, a.ncap, m, [], s.ownNode⟩ }
  else
    let k := a.nsze / s.zLba
    let b := firstGap k s.zoneRanges 0
    let z0 := { Zone.unused with zs := .empty, ns := n, set := a.set, owner := a.ten, resv := true }
    let s := s.zn fun z => { z with zones := (List.range k).foldl (fun t i => Tab.set t (b + i) z0) z.zones }
    s.hf fun h => { h with nss := Tab.set h.nss n ⟨nsid, false, a.ten, a.set, b, k, a.nsze, a.ncap, m, [], s.ownNode⟩ }

/-- A namespace of another node, as the master keeps it. -/
def State.noteNs (s : State) (nsid : Nat) (a : NsAsk) : State :=
  let x : Ns := ⟨nsid, a.conv, a.ten, a.set, 0, 0, a.nsze, a.ncap, (lbaFormat (a.fmt % 16)).getD 0, [], a.node⟩
  s.hf fun h => { h with nss := Tab.set h.nss (nsid - 1) x }

/-- Create a namespace: on this node at once, or, while the key DRBG refuses requests, once it serves again (R314); on a member
through the cascade. -/
def State.createNs (s : State) (fn : Nat) (e : Sqe) : State :=
  match nsAsk e, (if fn = fwdFn then some e.nsid.toNat else s.freeNsid) with
  | none, _ => s.adminDone fn e .invalidField
  | _, none => s.adminDone fn e .nsIdentifierUnavailable
  | some a, some nsid =>
    match s.nodeDenies a.node with
    | some st => s.adminDone fn e st
    | none =>
      if a.node ≠ s.ownNode then
        if s.tenExists a.ten = false then s.adminDone fn e .invalidField
        else (s.noteNs nsid a).askNode fn a.node { e with nsid := BitVec.ofNat 32 nsid }
      else
        match s.nsRefused a with
        | some st => s.adminDone fn e st
        | none =>
          if s.flag F.SEC_TRNGSTAT_KEYBLK then s.hf fun h => { h with nmWait := h.nmWait ++ [⟨fn, e, s.now⟩] }
          else (s.makeNs nsid a).adminDone fn e .success nsid

/-! ### Deletion -/

/-- A namespace's controllers hear that their namespaces changed (notice 0x00, log page 0x04, bit 8 of the configuration). -/
def State.nsNotice (s : State) (fns : List Nat) (nsid : Nat) : State :=
  let own := fns.filter (· < 256)
  let s := own.foldl (fun (s : State) fn => s.modFunc fn fun f => { f with
    chNs := if f.chNs.contains nsid then f.chNs else f.chNs ++ [nsid] }) s
  s.notify own 8 (2 + 0x04 * 2 ^ 16)

/-- An admitted command works on a namespace. -/
def State.nsBusy (s : State) (n : Nat) : Bool := s.hif.slots.any fun x => x.2.ns == n && x.2.opc != 0x00

/-- Remove a namespace: its data and keys go, its controllers are told. -/
def State.dropNs (s : State) (n : Nat) : State :=
  match s.nsAt n with
  | none => s
  | some x =>
    let s := s.nsNotice x.fns x.nsid
    let s := if x.node = s.ownNode then
        let s := (s.eraseData n).destroyKeys n
        let s := s.zn fun z => { z with
          zones := Tab.keep z.zones fun k y => !(!x.conv && y.ns == n && decide (x.zbase ≤ k) && decide (k < x.zbase + x.zones)),
          conv := Tab.erase z.conv n
          mapUndo := match Tab.find z.conv n with
            | some c => Tab.keep z.mapUndo fun k _ => !(decide (c.mapBase ≤ k) && decide (k < c.mapBase + c.nsze))
            | none => z.mapUndo }
        s.setWord (R.XTS_NSK n) 0
      else s
    let s := s.cs fun c => { c with lostNs := c.lostNs.filter (· != x.nsid) }
    s.hf fun h => { h with
      nss := Tab.erase h.nss n,
      fns := h.fns.map fun e => (e.1, { e.2 with chZones := e.2.chZones.filter fun z => z.1 != x.nsid }) }

/-- Remove namespaces. -/
def State.dropAll (s : State) (ns : List Nat) : State := ns.foldl (fun s n => s.dropNs n) s

/-- Delete a namespace, or all of them for NSID 0xFFFF_FFFF, once no admitted command works on it. The namespaces of a lost member
go from the directory at once, and the member is told where it can be reached (R392). -/
def State.deleteNs (s : State) (fn : Nat) (e : Sqe) : State :=
  let all : Bool := e.nsid.toNat == 0xFFFFFFFF
  let ns := if all then Tab.keys s.hif.nss else (s.nsOfId e.nsid.toNat).toList
  if ns.isEmpty ∧ ¬all then s.adminDone fn e .invalidNamespace
  else
    let away := (ns.filterMap fun n => (s.nsAt n).map (·.node)).eraseDups.filter (· != s.ownNode)
    let nodes := away.filter fun d => !(s.node d).lost
    match nodes.findSome? s.nodeDenies with
    | some st => s.adminDone fn e st
    | none =>
      if ns.any s.nsBusy then s
      else
        match nodes, all with
        | [d], false => s.askNode fn d e
        | _, _ => ((away.foldl (fun (s : State) d => s.sendAdmin d 65536 e) s).dropAll ns).adminDone fn e .success

/-- NAMESPACE_MANAGEMENT: SEL in CDW10[3:0], 0 create, 1 delete. -/
def execNamespaceManagement (fn : FnId) (e : Sqe) (s : State) : Host.Outcome State Fault Refusal :=
  s.admin fn.val e masterCtl fun s =>
    match bits e.cdw10.toNat 0 4 with
    | 0 => s.createNs fn.val e
    | 1 => s.deleteNs fn.val e
    | _ => s.adminDone fn.val e .invalidField

/-! ### Attachment -/

/-- The controller list of an attachment; none where it is not a rising list of controllers that may exist. -/
def Sqe.ctlIds (e : Sqe) : Option (List Nat) :=
  let n := e.field 0 2
  let ids := (List.range n).map fun i => e.field (2 + 2 * i) 2
  if n = 0 ∨ 2047 < n ∨ ids.any (fun i => i == 0 || decide (1024 < i)) = true then none
  else if decide (ids.Pairwise (· < ·)) then some ids else none

/-- The tenancy of a controller of any node: nodes share the mapping of functions (R390). -/
def State.ctlTen (s : State) (cid : Nat) : Nat := s.fnTen ((cid - 1) % 256)

/-- A controller exists: on this node an enabled function of a port in use; on another node an admitted one's. -/
def State.ctlExists (s : State) (cid : Nat) : Bool :=
  if (cid - 1) / 256 = s.ownNode then s.controllers.contains ((cid - 1) % 256) else (s.node ((cid - 1) / 256)).admitted

/-- Why an attachment is refused: a controller of another tenancy, or a tenancy without zone quotas (R60, R275). -/
def State.attachRefused (s : State) (x : Ns) (ids : List Nat) : Option Status :=
  if ids.any fun i => s.ctlTen i != x.ten then some .invalidField
  else if !x.conv && (s.fld (F.ZNE_TZQ_AQ x.ten) == 0 || s.fld (F.ZNE_TZQ_OQ x.ten) == 0) then some .invalidField
  else if ids.any fun i => x.fns.contains (s.ctlEntry i) then some .nsAlreadyAttached
  else none

/-- The list of controllers of a namespace changes, and they are told. -/
def State.putAttach (s : State) (n : Nat) (x : Ns) (ents : List Nat) (attach : Bool) : State :=
  let fns := if attach then x.fns ++ ents.filter (fun f => !x.fns.contains f) else x.fns.filter fun f => !ents.contains f
  let s := s.hf fun h => { h with nss := Tab.set h.nss n { x with fns := fns } }
  s.nsNotice ents x.nsid

/-- Attach or detach controllers. -/
def State.attachNs (s : State) (fn : Nat) (e : Sqe) (attach : Bool) : State :=
  match (s.nsOfId e.nsid.toNat).bind fun n => (s.nsAt n).map fun x => (n, x) with
  | none => s.adminDone fn e .invalidNamespace
  | some (n, x) =>
    match e.ctlIds with
    | none => s.adminDone fn e .controllerListInvalid
    | some ids =>
      if fn ≠ fwdFn ∧ ids.all s.ctlExists = false then s.adminDone fn e .controllerListInvalid
      else
        let ents := ids.map s.ctlEntry
        let bad := if attach then s.attachRefused x ids
          else if ents.all x.fns.contains then none else some .nsNotAttached
        match bad with
        | some st => s.adminDone fn e st
        | none =>
          match if fn = fwdFn then none else s.nodeDenies x.node with
          | some st => s.adminDone fn e st
          | none =>
            if fn ≠ fwdFn ∧ x.node ≠ s.ownNode then s.askNode fn x.node e
            else (s.putAttach n x ents attach).adminDone fn e .success

/-- What the master keeps of an admin command that a member has carried out. -/
def State.afterAdmin (s : State) (a : AdmFwd) (st : Status) : State :=
  let ok := st = .success
  let e := a.sqe
  match e.opc.toNat, bits e.cdw10.toNat 0 4 with
  | 0x0D, 0 => if ok then s else s.hf fun h => { h with nss := Tab.erase h.nss (e.nsid.toNat - 1) }
  | 0x0D, _ => if ok then s.dropAll (s.nsOfId e.nsid.toNat).toList else s
  | 0x15, k =>
    match (s.nsOfId e.nsid.toNat).bind (fun n => (s.nsAt n).map fun x => (n, x)), e.ctlIds with
    | some (n, x), some ids => if ok then s.putAttach n x (ids.map s.ctlEntry) (k = 0) else s
    | _, _ => s
  | 0x80, f =>
    match s.nsOfId e.nsid.toNat, lbaFormat f with
    | some n, some m => if ok then s.hf fun h => { h with nss := Tab.adjust h.nss n fun x => { x with meta_ := m } } else s
    | _, _ => s
  | _, _ => s

/-- NAMESPACE_ATTACHMENT: SEL in CDW10[3:0], 0 attach, 1 detach. -/
def execNamespaceAttachment (fn : FnId) (e : Sqe) (s : State) : Host.Outcome State Fault Refusal :=
  s.admin fn.val e masterCtl fun s =>
    match bits e.cdw10.toNat 0 4 with
    | 0 => s.attachNs fn.val e true
    | 1 => s.attachNs fn.val e false
    | _ => s.adminDone fn.val e .invalidField

/-! ### Entropy (R314) -/

/-- The key DRBG serves again: waiting creations, rollovers and erases go on. -/
def State.serveEntropy (s : State) : State :=
  let ws := s.hif.nmWait
  let s := s.hf fun h => { h with nmWait := [] }
  let s := ws.foldl (fun s w => s.createNs w.fn w.sqe) s
  let s := (Tab.keys s.hif.nss).foldl (fun s n => s.tryRoll n) s
  s.sec.erases.foldl (fun s e => s.eraseStep e) s

/-- ENTROPY_RESTART_TEST_PASS. -/
def execEntropyRestartTestPass (s : State) : Host.Outcome State Fault Refusal :=
  if s.flag F.SEC_TRNGSTAT_KEYBLK then
    .next ((s.setFld F.SEC_TRNGSTAT_HEALTHY 1).setFld F.SEC_TRNGSTAT_KEYBLK 0).serveEntropy
  else .next (s.setFld F.SEC_TRNGSTAT_HEALTHY 1)

/-- ENTROPY_WAIT_TIMEOUT: creations that have waited 1 s fail with Internal Error. -/
def execEntropyWaitTimeout (s : State) : Host.Outcome State Fault Refusal :=
  let late := s.hif.nmWait.filter fun w => decide (w.since + 1000000000 ≤ s.now)
  let s := s.hf fun h => { h with nmWait := h.nmWait.filter fun w => !decide (w.since + 1000000000 ≤ s.now) }
  .next (late.foldl (fun s w => s.adminDone w.fn w.sqe .internalError) s)

/-! ### Directives and virtualization management -/

/-- The namespace a directive names is attached to the controller. -/
def State.directiveNs (s : State) (fn : Nat) (e : Sqe) : Option Ns := (s.attachedId fn e.nsid.toNat).map (·.2)

/-- DIRECTIVE_SEND: Enable Directive (Identify, operation 1); the Identify and Data Placement directives cannot be disabled or enabled
by a host (R275). -/
def execDirectiveSend (fn : FnId) (e : Sqe) (s : State) : Host.Outcome State Fault Refusal :=
  s.admin fn.val e anyCtl fun s =>
    let c := e.cdw11.toNat
    match s.directiveNs fn.val e with
    | none => s.adminDone fn.val e .invalidNamespace
    | some x =>
      let now := b2n (s.rset x.set).fdp
      if bits c 8 8 = 0 ∧ bits c 0 8 = 1 ∧ bits e.cdw12.toNat 8 8 = 2 ∧ bits e.cdw12.toNat 0 1 = now then
        s.adminDone fn.val e .success
      else s.adminDone fn.val e .invalidField

/-- DIRECTIVE_RECEIVE: Return Parameters (Identify, operation 1): directives supported and enabled; Data Placement is enabled while
FDP is (R190). -/
def execDirectiveReceive (fn : FnId) (e : Sqe) (s : State) : Host.Outcome State Fault Refusal :=
  s.admin fn.val e anyCtl fun s =>
    let c := e.cdw11.toNat
    match s.directiveNs fn.val e with
    | none => s.adminDone fn.val e .invalidNamespace
    | some x =>
      if bits c 8 8 = 0 ∧ bits c 0 8 = 1 then
        let on := if x.conv ∧ (s.rset x.set).fdp = true then 5 else 1
        s.adminData fn.val e (pageOf 4096 [(0, 1, 5), (32, 1, on), (64, 1, on)]) 0 ((e.cdw10.toNat + 1) * 4)
      else s.adminDone fn.val e .invalidField

/-- VIRTUALIZATION_MANAGEMENT: a secondary controller is taken offline (ACT 7), which resets it, or online (ACT 9); there are no
flexible resources to allocate (R275). -/
def execVirtualizationManagement (fn : FnId) (e : Sqe) (s : State) : Host.Outcome State Fault Refusal :=
  s.admin fn.val e masterCtl fun s =>
    let act := bits e.cdw10.toNat 0 4
    let cid := bits e.cdw10.toNat 16 16
    if act ≠ 7 ∧ act ≠ 9 then s.adminDone fn.val e .invalidField
    else if cid = 0 ∨ (cid - 1) / 256 ≠ s.ownNode ∨ isPf ((cid - 1) % 256) = true ∨ (cid - 1) % 256 / 128 ≠ fn.val / 128 ∨
        s.fnEnabled ((cid - 1) % 256) = false then
      s.adminDone fn.val e .invalidController
    else
      let v := (cid - 1) % 256
      let s := if act = 7 then s.resetFunction v false else s
      (s.modFunc v fun f => { f with fetchOff := act = 7 }).adminDone fn.val e .success

end Sys2Proof.Machine
end

