-- ==== Sys2Proof/Machine/Firmware.lean ====
section
/-! DEFINITION. Working clocks (R15, R17), Firmware Image Download and Commit (R287, R325, R333, R391) and activation
without reset (R288, R326). -/

namespace Sys2Proof.Machine

/-! ### Clocks (R15, R17) -/

/-- PLL multiplier of an island's working clock (R17). -/
def workMult (i : Nat) : Nat :=
  if i = 0x02 then 16
  else if i = 0x03 ∨ i = 0x04 ∨ i = 0x09 then 32
  else if i = 0x05 ∨ (0x0C ≤ i ∧ i < 0x10) then 40
  else if i = 0x06 ∨ i = 0x08 then 60
  else if i = 0x0A ∨ i = 0x0B ∨ (0x10 ≤ i ∧ i < 0x30) then 64
  else 48

/-- Sprout or firmware moves an island to its PLL (R15, R322). -/
def State.usePll (s : State) (i : Nat) : State :=
  let s := if s.flag (F.ISL_CLKCTL_PLLEN i) then s
    else (s.setFld (F.ISL_CLKCTL_MULT i) (workMult i)).setFld (F.ISL_CLKCTL_PLLEN i) 1
  ((s.setFld (F.ISL_CLKSTAT_LOCK i) 1).setFld (F.ISL_CLKCTL_SRC i) 1).setFld (F.ISL_CLKSTAT_SRCACT i) 1

/-! ### Image download (R325) -/

/-- FIRMWARE_IMAGE_DOWNLOAD: a piece of the image, its length and offset in dwords. -/
def State.imageDownload (s : State) (fn : Nat) (e : Sqe) : State :=
  let n := (e.cdw10.toNat + 1) * 4
  let off := e.cdw11.toNat * 4
  if 8388608 < off + n then s.adminDone fn e .invalidField
  else if s.adminBufs 0 n = false then s.adminDone fn e .tenancyCreditExhausted
  else
    let d := takePad n e.data
    (s.bt fun b => { b with image := (d.zip (List.range n)).foldl (fun t x => Memory.write t (off + x.2) x.1) b.image }).adminDone
      fn e .success

/-- FIRMWARE_IMAGE_DOWNLOAD (in-band). -/
def execFirmwareImageDownload (fn : FnId) (e : Sqe) (s : State) : Host.Outcome State Fault Refusal :=
  s.adminTunnel fn.val e masterCtl true fun s => s.imageDownload fn.val e

/-! ### Commit (R287, R325) -/

/-- Write the gathered image to a slot. -/
def State.writeSlot (s : State) (k : Nat) : State :=
  let b := slotBase k
  { s with mem := s.boot.image.foldl (fun m c => Memory.write m (b + c.1) c.2) (Memory.clear s.mem b (b + 8388608)) }

/-- Firmware posts event 0x070E: slot, CA, SVN and FWREV. -/
def State.slotEvent (s : State) (k ca : Nat) : State :=
  s.post 0x03 0x070E [(8, k), (8, ca), (32, s.slotSvn k), (64, ofLe (s.slotRev k))]

/-- Firmware Activation Starting goes to every controller that has it enabled (R288 step 2). -/
def State.activationNotice (s : State) : State := s.notify (Tab.keys s.hif.fns) 9 (2 + 0x01 * 2 ^ 8 + 0x03 * 2 ^ 16)

/-- The words of a commit are written and it completes, or its activation starts (R325 step 4, R288). -/
def State.finishCommit (s : State) (fn : Nat) (e : Sqe) (k ca : Nat) : State :=
  match ca with
  | 0 => (s.slotEvent k ca).adminDone fn e .success
  | 3 => s.activationNotice.hf fun h => { h with activation := some ⟨k, fn, e.cid.toNat, s.now⟩ }
  | _ =>
    let s := ((s.writeActive s.activeSlot k 0).slotEvent k ca).adminDone fn e .fwNeedsConventionalReset
    if s.recovery then s.bt fun b => { b with recAt := some (s.now + 100000000) } else s

/-- The slot a commit names; none where it may not. On the recovery path no slot is active (R325 step 1, R333). -/
def State.commitSlot (s : State) (fs ca : Nat) : Option Nat :=
  if s.recovery then (if fs = 1 ∨ fs = 2 then some (fs - 1) else none)
  else
    let k := if fs = 0 then 1 - s.activeSlot else fs - 1
    if 2 < fs ∨ (ca ≠ 2 ∧ k = s.activeSlot) then none else some k

/-- The image is verified and, unless CA is 010, written and verified again; the code found, and the state. -/
def State.stageCommit (s : State) (k ca : Nat) (bad : Bool) : Bool × State :=
  if ca = 2 then (s.slotCode k bad == 0, s)
  else if imageCode s.boot.otp s.boot.image 0 false ≠ 0 ∨ bit (s.fld F.MRM_BANKSTAT_FAILED) k = true then (false, s)
  else
    let s := s.writeSlot k
    (s.slotCode k bad == 0, s)

/-- Nodes that take part in a commit: the admitted members (R391). -/
def State.commitNodes (s : State) : List Nat := if s.isMaster then [1, 2, 3].filter fun n => (s.node n).admitted else []

/-- The image as the master sends it. -/
def State.imageBytes (s : State) : List Byte := Memory.readBytes s.boot.image 0 (imgNat s.boot.image 0 8 4)

/-- Firmware Commit. `bad`: an MRAM read of the slot is uncorrectable. -/
def State.commit (s : State) (fn : Nat) (e : Sqe) (bad : Bool) : State :=
  let ca := bits e.cdw10.toNat 3 3
  let fs := bits e.cdw10.toNat 0 3
  if 3 < ca then s.adminDone fn e .invalidField
  else
    match s.commitSlot fs ca with
    | none => s.adminDone fn e .invalidFirmwareSlot
    | some k =>
      let (ok, s) := s.stageCommit k ca bad
      if ok = false then s.adminDone fn e .invalidFirmwareImage
      else
        match s.commitNodes with
        | [] => s.finishCommit fn e k ca
        | ns =>
          let e := { e with data := s.imageBytes, cdw10 := BitVec.ofNat 32 (k + 1 + ca * 8) }
          ns.foldl (fun s n => s.askNode fn n e) s

/-- FIRMWARE_COMMIT: refused while an activation is under way (R287). -/
def execFirmwareCommit (fn : FnId) (e : Sqe) (bad : Bool) (s : State) : Host.Outcome State Fault Refusal :=
  if s.hif.activation.isSome ∧ (s.func fn.val).ctl = .ready ∧ isPf fn.val = true then .next (s.adminDone fn.val e .fwProhibited)
  else
    s.adminTunnel fn.val e masterCtl (bits e.cdw10.toNat 3 3 == 1 || bits e.cdw10.toNat 3 3 == 2) fun s =>
      s.commit fn.val e bad

/-- A member carries out a commit the master sent, with the image beside it (R391). -/
def State.memberCommit (s : State) (e : Sqe) (bad : Bool) : State :=
  let s := s.bt fun b => { b with image := (e.data.zip (List.range e.data.length)).foldl (fun t x => Memory.write t x.2 x.1) [] }
  s.commit fwdFn e bad

/-- A commit goes on once every member has answered: an image that failed anywhere fails it, a drain that failed anywhere abandons the
activation, else the master writes its own word (R391). -/
def State.commitAnswered (s : State) (a : AdmFwd) (st : Status) : State :=
  let e := a.sqe
  let others := s.casc.adm.any fun x => x.2.sqe.opc.toNat == 0x10 && x.2.fn == a.fn
  let drop := s.cs fun c => { c with adm := Tab.keep c.adm fun _ x => !(x.sqe.opc.toNat == 0x10 && x.fn == a.fn) }
  if st = .invalidFirmwareImage ∨ st = .fwNeedsMaxTimeViolation then drop.adminDone a.fn e st
  else if others then s
  else s.finishCommit a.fn e (bits e.cdw10.toNat 0 3 - 1) (bits e.cdw10.toNat 3 3)

/-! ### Activation without reset (R288) -/

/-- ACTIVATION_DRAIN_TIMEOUT: commands remain 500 ms after fetching stopped: the slot is marked for the next reset, the commit fails,
fetching resumes, event 0x0608. -/
def execActivationDrainTimeout (s : State) : Host.Outcome State Fault Refusal :=
  match s.hif.activation with
  | none => .next s
  | some a =>
    if s.now < a.since + 500000000 ∨ s.hif.slots.isEmpty = true then .next s
    else
      let n := s.hif.slots.length
      let s := (s.writeActive s.activeSlot a.slot 0).hf fun h => { h with activation := none }
      let s := s.hifPost 0 0x0608 [(16, n)]
      .next (s.postCpl ⟨a.fn, if a.fn = fwdFn then 2 ^ 32 else 0, a.cid, .fwNeedsMaxTimeViolation, 0, 0, [], []⟩)

/-- The new firmware takes over: ACTIVE_SLOT, ACTCNT, measurements; fetching resumes and the commit completes. -/
def State.activate (s : State) (a : Activation) : State :=
  let s := s.writeActive a.slot 0xFF 0
  let s := ((s.bumpSat F.SEC_BOOTSTAT_ACTCNT).measureActivation a.slot).slotEvent a.slot 3
  let s := s.hf fun h => { h with activation := none }
  s.postCpl ⟨a.fn, if a.fn = fwdFn then 2 ^ 32 else 0, a.cid, .success, 0, 0, [], []⟩

/-- ACTIVATION_SWITCH: once every admitted command has completed (R288 step 6). Where the new bundle serves the running profile with
another PVER, all channels are stopped together first, and loaded and run when every one has stopped (KAZINO_RELOAD, R222). -/
def execActivationSwitch (s : State) : Host.Outcome State Fault Refusal :=
  match s.hif.activation with
  | none => .next s
  | some a =>
    if s.hif.slots.isEmpty = false then .next s
    else
      match s.bundleEntry a.slot s.zne.profile.name with
      | some d =>
        if s.entryPver d = s.fld (F.CH_UCVER_PVER 0) then .next (s.activate a)
        else
          let s := (s.channels.filter fun n => bit (s.fld (F.CH_SEQSTAT_STATE n)) 0 != bit (s.fld (F.CH_SEQSTAT_STATE n)) 1).foldl
            (fun s n => s.seqStop n) s
          if s.allStopped then .next ((s.loadAll a.slot d).activate a) else .next s
      | none => .next (s.activate a)

end Sys2Proof.Machine
end

