-- ==== Sys2Proof/Machine/Sprout.lean ====
section
/-! DEFINITION. Sprout's choice of a slot and path (R322, R323), the boot watchdog (R324) and OTP programming (R327). -/

namespace Sys2Proof.Machine

/-! ### Slots and paths (R322) -/

/-- Record the failure code of a slot that was tried. -/
def State.setSlotFail (s : State) (k code : Nat) : State :=
  s.setFld (if k = 0 then F.SEC_BOOTSTAT_AFAIL else F.SEC_BOOTSTAT_BFAIL) code

/-- Try slots in order: the first that passes R320, with the failure codes of those before it. `bad`: slots an MRAM read of which
is uncorrectable. -/
def State.trySlots (s : State) (bad : BitVec 2) : List Nat → Option Nat × State
  | [] => (none, s)
  | k :: ks =>
    let c := s.slotCode k (bit bad.toNat k)
    if c = 0 then (some k, s) else (s.setSlotFail k c).trySlots bad ks

/-- Copy the Stem body of a slot to core 0's ITCM at LOADADDR (R323). -/
def State.copyStem (s : State) (slot : Nat) : State :=
  let a := stageAt s.mem (slotBase slot) 0
  let load := imgNat s.mem a 80 4 % 0x10000
  let n := min (imgNat s.mem a 8 4) (0x10000 - load)
  s.store (tcmAddr 0 false load) (Memory.readBytes s.mem (a + 128) n)

/-- Boot a slot on a path: SEC_BOOTSTAT, measurements, Stem (R323, MEASUREMENT_WRITE). -/
def State.bootSlot (s : State) (slot path : Nat) : State :=
  let s := (s.setFld F.SEC_BOOTSTAT_SLOT slot).setFld F.SEC_BOOTSTAT_PATH path
  (s.measureBoot (some slot)).copyStem slot

/-- Enter recovery (R322, R329). -/
def State.enterRecovery (s : State) : State := (s.setFld F.SEC_BOOTSTAT_PATH 3).measureBoot none

/-- Boot the first slot of a list that passes, the others being a fallback. -/
def State.bootOrder (s : State) (bad : BitVec 2) (first second : Nat) : State :=
  match s.trySlots bad [first, second] with
  | (some k, s) => s.bootSlot k (if k = first then 0 else 2)
  | (none, s) => s.enterRecovery

/-- The boot watchdog counts from the start of Stem (R324). -/
def State.armWatchdog (s : State) : State :=
  (s.setFld F.SEC_BOOTWD_ARMED 1).bt fun b => { b with wdSince := some s.now }

/-- Try a pending slot: booted with the watchdog armed, or given up for the active one. -/
def State.bootTrial (s : State) (bad : BitVec 2) (active pending tries : Nat) : State :=
  let s := s.writeActive active pending (tries + 1)
  match s.trySlots bad [pending] with
  | (some k, s) => (s.bootSlot k 1).armWatchdog
  | (none, s) => (s.writeActive active 0xFF (tries + 1)).bootOrder bad active (1 - active)

/-- SPROUT_START: SEC and MRM move to their PLLs, OTP is read and a path chosen by the first row of R322 that applies. -/
def State.sprout (s : State) (bad : BitVec 2) : State :=
  let s := ((s.usePll 0x03).usePll 0x04).setFld F.SEC_BOOTSTAT_OTPSVN s.boot.otp.svn
  if s.flag F.SEC_BOOTSTAT_BOOTSEL then s.enterRecovery
  else
    match s.activeWord with
    | none => if s.slotSvn 0 < s.slotSvn 1 then s.bootOrder bad 1 0 else s.bootOrder bad 0 1
    | some (a, p, t) =>
      if p = 0xFF then s.bootOrder bad a (1 - a)
      else if t < 3 then s.bootTrial bad a p t
      else ((s.writeActive a 0xFF 0).setFld F.SEC_BOOTSTAT_REVERT 1).bootOrder bad a (1 - a)

/-! ### The boot watchdog (R324) -/

/-- A write of SEC_BOOTWD: STOP stops the watchdog. -/
def State.bootwdWrite (s : State) (v : Nat) : State :=
  if bit v 9 then (s.setFld F.SEC_BOOTWD_ARMED 0).bt fun b => { b with wdSince := none } else s

/-- BOOT_WATCHDOG_STOP. -/
def execBootWatchdogStop (s : State) : Host.Outcome State Fault Refusal := .next (s.bootwdWrite 0x200)

/-- BOOT_WATCHDOG_EXPIRY: the watchdog has counted TIMEOUT seconds: a warm reset of CAUSE 3 after the power-loss sequence (R324,
R365). -/
def execBootWatchdogExpiry (s : State) : Host.Outcome State Fault Refusal :=
  match s.boot.wdSince with
  | some t =>
    if t + s.fld F.SEC_BOOTWD_TIMEOUT * 1000000000 ≤ s.now then
      .next (((s.setFld F.SEC_BOOTWD_ARMED 0).bt fun b => { b with wdSince := none }).startLoss (.reset 3))
    else .next s
  | none => .next s

/-- Firmware confirms a trial boot: the word names the slot ACTIVE, and the watchdog stops (R324). -/
def State.confirmTrial (s : State) : State :=
  if s.fld F.SEC_BOOTSTAT_PATH = 1 then (s.writeActive (s.fld F.SEC_BOOTSTAT_SLOT) 0xFF 0).bootwdWrite 0x200 else s

/-! ### OTP programming (R327) -/

/-- Key slots that the stages of a slot's image name. -/
def State.usedKeys (s : State) (slot off : Nat) : List Nat :=
  stages.map fun k => imgNat s.mem (stageAt s.mem (slotBase slot) k) off 1

/-- Revocation bits that SEC leaves out of a mask: those of a key of a stage of either slot, and those that would leave the algorithm
with no usable slot. -/
def skipMask (usable : Nat → Bool) (named : List Nat) (mask : Nat) : Nat :=
  let inUse := [0, 1, 2, 3].filter fun k => bit mask k && named.contains k
  let todo := [0, 1, 2, 3].filter fun k => bit mask k && !named.contains k
  let left := [0, 1, 2, 3].filter fun k => usable k && !todo.contains k
  let skip := if left.isEmpty then inUse ++ todo.filter usable else inUse
  skip.foldl setBit 0

/-- A GO write of SEC_OTPCMD: TARGET, RREV and SREV are kept, and the programming starts unless it runs (R327). A TARGET above 64 is
ignored with the whole write (R439). -/
def State.otpcmdWrite (s : State) (v : Nat) : State :=
  if 64 < bits v 0 7 then s
  else
    let s := (s.setFld F.SEC_OTPCMD_TARGET (bits v 0 7)).setFld F.SEC_OTPCMD_RREV (bits v 8 4)
    let s := s.setFld F.SEC_OTPCMD_SREV (bits v 12 4)
    if bit v 31 = true ∧ s.flag F.SEC_OTPCMD_BUSY = false then
      (s.setFld F.SEC_OTPCMD_BUSY 1).bt fun b => { b with otpRun := some ⟨bits v 0 7, bits v 8 4, bits v 12 4⟩ }
    else s

/-- OTP_COMMAND_GO. -/
def execOtpCommandGo (target : BitVec 7) (rrev srev : BitVec 4) (s : State) : Host.Outcome State Fault Refusal :=
  .next (s.otpcmdWrite (target.toNat + rrev.toNat * 2 ^ 8 + srev.toNat * 2 ^ 12 + 2 ^ 31))

/-- Fuse bits below a target. -/
def blowFuses (fuse target : Nat) : Nat := (List.range (min target 64)).foldl setBit fuse

/-- The OTP command's effect on the array: fuses up to the target, then revocations but for the skipped ones. -/
def Otp.apply (o : Otp) (r : OtpRun) (skipR skipS : Nat) : Otp :=
  let add := fun (old mask skip : Nat) => [0, 1, 2, 3].foldl (fun a k => if bit mask k && !bit skip k then setBit a k else a) old
  { o with
    fuse := if o.svn < r.target then blowFuses o.fuse r.target else o.fuse,
    rsaRev := add o.rsaRev r.rrev skipR,
    slhRev := add o.slhRev r.srev skipS }

/-- The bits a running OTP command leaves out: RSA and SLH-DSA. -/
def State.otpSkips (s : State) (r : OtpRun) : Nat × Nat :=
  let o := s.boot.otp
  (skipMask o.rsaUsable (s.usedKeys 0 5 ++ s.usedKeys 1 5) r.rrev, skipMask o.slhUsable (s.usedKeys 0 6 ++ s.usedKeys 1 6) r.srev)

/-- OTP_PROGRAM_DONE: the array takes the command's bits; a fuse that failed its margin read three times stays as it was and sets ERR;
event 0x070D (R316, R327). `failed` names it. -/
def execOtpProgramDone (failed : Option (BitVec 6)) (s : State) : Host.Outcome State Fault Refusal :=
  match s.boot.otpRun with
  | none => .next s
  | some r =>
    let (kr, ks) := s.otpSkips r
    let old := s.boot.otp.svn
    let o := s.boot.otp.apply r kr ks
    let o := match failed with
      | some f => if bit s.boot.otp.fuse f.toNat then o else { o with fuse := clrBit o.fuse f.toNat }
      | none => o
    let err := decide (o ≠ s.boot.otp.apply r kr ks)
    let made := (o.rsaRev - s.boot.otp.rsaRev) + (o.slhRev - s.boot.otp.slhRev) * 16
    let s := s.bt fun b => { b with otp := o, otpRun := none }
    let s := ((s.setFld F.SEC_OTPCMD_BUSY 0).setFld F.SEC_OTPCMD_SKIP (kr + ks * 16)).setFld F.SEC_OTPCMD_ERR (b2n err)
    let s := s.setFld F.SEC_BOOTSTAT_OTPSVN o.svn
    .next (s.secPost 0x070D [(7, old), (7, o.svn), (8, made), (8, kr + ks * 16), (1, b2n err)])

end Sys2Proof.Machine
end

