-- ==== Sys2Proof/Machine/Reset.lean ====
section
/-! DEFINITION. Device resets (R10, R322, R364, R365, R422), the end of the power-loss sequence (R373, R375) and wake events (R360,
R363). -/

namespace Sys2Proof.Machine

/-! ### What a reset keeps (R10) -/

/-- Registers that a later chapter clears at cold reset only. -/
def coldOnly : List RegId :=
  [.DMC_CECNT, .DMC_UECNT, .MRM_REMAP, .MRM_CE, .MRM_UE, .AON_PS_ATTEMPT, .AON_PS_DONE, .AON_PS_REFUSED, .AON_PS_ABORTED,
   .AON_PS_COLLAPSED, .AON_RES, .AON_REFCNT, .MGT_EVDROP, .MGT_EVSUPP]

/-- Registers whose content the config region keeps and start-up restores: quotas (R289), namespace keys and generation counts
(R308, R309), and the failed bank mask (R350). -/
def savedRegs : List RegId := [.ZNE_TZQ, .HIF_TCRED, .HIF_TWBQ, .XTS_NSK, .ZNE_KGREF, .MRM_BANKSTAT]

/-- The register of a key. -/
def regIdAt (key : Nat) : Option RegId := (regFind key).map (·.1.id)

/-- What a warm reset leaves of the word of the register found at a key: its RS fields, and the Reset value of the rest; a
cold-only register as it is. -/
def warmWordOf (key : Nat) (w : W64) : Option (RegDef × Nat × Nat) → W64
  | none => resetWord key
  | some (d, _, _) =>
    if d.id ∈ coldOnly then w
    else (d.fields.filter fun f => f.ty = .rs).foldl (fun a f =>
      fldPut ⟨key, f.lo, f.w⟩ a (w.toNat >>> f.lo % 2 ^ f.w)) (resetWord key)

/-- A register word after a warm reset. -/
def warmWord (key : Nat) (w : W64) : W64 := warmWordOf key w (regFind key)

/-- The registers after a reset: at a cold one every field takes its Reset value. -/
def resetCsr (csr : Tab W64) (cold : Bool) : Tab W64 :=
  if cold then []
  else (csr.map fun e => (e.1, warmWord e.1 e.2)).filter fun e => e.2 != resetWord e.1

/-- Memory after a reset: MRAM stays. A cold reset leaves nothing else; after a warm one no DRAM content is used (R342). -/
def resetMem (m : List Host.Cell) (cold : Bool) : List Host.Cell :=
  let m := Memory.clear m dramBase (dramBase + 0x1000000000)
  if cold then Memory.clear (Memory.clear m 0 0x20000000) 0x22000000 dramBase else m

/-- Flash and its tables after a reset: what DRAM and the dies' pods held is gone, what the table journal, MRAM and the flash keep
stays; counters reserved in blocks resume at the block's end (R36, R129, R226). -/
def resetZne (z : Zne) : Zne :=
  let slc := Tab.keep z.slc fun _ b => b.ready
  let jobs := Tab.keep z.jobs fun _ j => decide (j.kind = .rebuild)
  let unbuf := fun (e : MapEntry) => match e with
    | .buffer _ => false
    | _ => true
  { z with
    zones := z.zones.map fun e => (e.1, { e.2 with copying := false, body := if e.2.zs = .pending then [] else e.2.body }),
    pend := [], bufs := [], outBufs := [], stripes := [],
    openStage := Tab.keep z.openStage fun _ b => (Tab.find slc b).isSome,
    openConv := [],
    husk := { z.husk with
      hseq := z.husk.hseqResv, epoch := z.husk.epochResv,
      hdr0 := { z.husk.hdr0 with isSealed := false }, hdr1 := { z.husk.hdr1 with isSealed := false }, replayed := false },
    slc := slc.map fun e => (e.1, if e.2.st = .victim then { e.2 with st := .full } else e.2),
    openSeg := Tab.keep z.openSeg fun _ b => (Tab.find slc b).isSome,
    conv := z.conv.map fun e =>
      -- entries of a page that was not in the map journal are what the journal holds (R182); NUSE is the count of those left (R177)
      let old := z.mapUndo.foldl (fun m u =>
        if e.2.mapBase ≤ u.1 ∧ u.1 < e.2.mapBase + e.2.nsze then match u.2 with
          | some x => Tab.set m (u.1 - e.2.mapBase) x
          | none => Tab.erase m (u.1 - e.2.mapBase)
        else m) e.2.map
      let map := Tab.keep old fun _ x => unbuf x
      (e.1, { e.2 with map := map, nuse := map.length }),
    mapDirty := [], mapUndo := [],
    blks := z.blks.map fun e => (e.1, { e.2 with reads := 0 }),
    erases := [], dies := [], dones := [], decodes := [], recons := [],
    jobs := jobs.map fun e => (e.1, { e.2 with st := .wait, left := 0, bad := [] }),
    relocs := [], refreshQ := [], tenTok := [], setTok := [], rbBytes := [], scrubAt := 0 }

/-- A power cycle counts once for every controller (assumption 72). -/
def Hif.powerCycle (h : Hif) : Hif := { h with smart := Tab.set h.smart (smartKey fwdFn 6) (Tab.getD h.smart (smartKey fwdFn 6) 0 + 1) }

/-- HIF after a reset: namespaces, tenancies, a recorded formation and the partition asked for stay (R52, R289). -/
def resetHif (h : Hif) : Hif := { h with
  ports := [], fns := [], slots := [], hazards := [], starved := [], held := [], lastFn := [], ints := [], activation := none,
  forming := false, stopAll := false, wrblk := [], ure := [], devFeats := Tab.keep h.devFeats fun k _ => k == 0x10081,
  fdpEvents := [], peeks := [], nmWait := [], formAt := none, formBy := none }

/-- SEC after a reset: derived keys are derived afresh, wrapped records and reservations stay, and a counter resumes at the end of its
reservation (R300, R304, R312). -/
def resetSec (x : Sec) : Sec := { x with
  keys := [(0, kdf 0 0), (1, kdf 1 x.epoch), (2, kdf 2 0)],
  ctr := x.resv, cache := [], erases := (x.erases.filter (·.committed)).map fun e => { e with fn := 512 }, op := none,
  since := 0, entropyWait := [], sweepAt := x.sweepAt.map fun e => (e.1, 0) }

/-- Boot state after a reset. -/
def resetBoot (s : State) : Boot := { s.boot with
  otpRun := none, meas := [], wdSince := none, recAt := none, image := [], eps := [], started := false,
  saved := if s.boot.started then s.csr.filter fun e => match regIdAt e.1 with
      | some i => decide (i ∈ savedRegs)
      | none => false
    else s.boot.saved }

/-- The cascade after a reset: its ID, this node's recorded ID and the messages sent stay (R385). -/
def resetCasc (c : Casc) : Casc := { c with
  ports := [], nodes := [], admitted := false, fwd := [], adm := [], tags := [], cutSince := none, orphan := false, eids := [],
  ibi := false, csync := 0, mismatch := false, report := false }

/-- MGT after a reset; the TAP takes its state at power-on or from TRST_N only (R365), with IDCODE selected (R414). -/
def resetMgt (m : Mgt) (cold : Bool) : Mgt :=
  { hot := [], excur := [], railOut := [], timers := [], jtagIr := if cold then 1 else m.jtagIr,
    bscan := if cold then 0 else m.bscan, test := LinkTest.none, mbist := none }

/-- An OTP command interrupted by the reset: bits programmed in half read either way (R316). -/
def State.cutOtp (s : State) : State :=
  match s.boot.otpRun with
  | none => s
  | some r =>
    let (all, s) := s.drawBool
    let (kr, ks) := s.otpSkips r
    if all then s.bt fun b => { b with otp := b.otp.apply r kr ks } else s

/-- STRAP_SAMPLE: the straps as sampled at the instant core 0 is released (R251, R380, R422). A reserved value is handled as R251
and R380 say, with events 0x0606 and 0x0A06 (of cause 2, assumption 50). QMAX of the VFs starts at 0x1F where both ports are in use (R262). -/
def State.sampleStraps (s : State) (x : Straps) : State :=
  let s := { s with straps := x }
  let cfg := x.portcfg % 4
  let s := [0, 1].foldl (fun s p => s.setFld (F.HIF_PORTSTAT_CFG p) (if cfg = 3 then 2 else cfg)) s
  let s := (s.setFld (F.HIF_PORTSTAT_INUSE 0) 1).setFld (F.HIF_PORTSTAT_INUSE 1) (b2n (cfg = 1))
  let s := if cfg = 3 then s.hifPost 0 0x0606 [(2, cfg)] else s
  let s := if cfg = 1 then (List.range 254).foldl (fun s k => s.setFld (F.HIF_FNMAP_QMAX (k / 127) (k % 127 + 1)) 0x1F) s else s
  let role := if x.cascmode % 4 = 3 then 0 else x.cascmode % 4
  let s := s.setFld F.VUK_CASC_ROLE role
  let s := if x.cascmode % 4 = 3 then s.post 0x0E 0x0A06 [(8, 2), (64, 0)] else s
  let s := if role = 0 then s else (s.takeSafe .gpio 15 3).takeSafe .timer 63 3
  s.setFld F.SEC_BOOTSTAT_BOOTSEL (x.bootsel % 2)

/-- A device reset: registers, latches, shadows and volatile state, then the straps, then Sprout (R10, R322, R365, R422). `bad`: slots
an MRAM read of which is uncorrectable. -/
def State.deviceReset (s : State) (cold : Bool) (cause : Nat) (x : Straps) (bad : BitVec 2) : State :=
  let s := s.cutOtp
  let banks := s.fld F.MRM_BANKSTAT_FAILED
  let s := { s with
    csr := resetCsr s.csr cold, latch := [], shadow := [], mem := resetMem s.mem cold,
    pins := { s.pins with pli := true, thermtripN := true, ploLow := false, twarnLow := false },
    cores := ⟨BitVec.allOnes 32 <<< 1, [], []⟩,
    fab := ⟨[], 0, []⟩, traps := [], resp := [],
    evr := s.evr.restart,
    mgt := resetMgt s.mgt cold,
    mram := { s.mram with gather := none, isSealed := false },
    dram := { ce := if cold then [] else s.dram.ce, hits := [], merge := [], poison := [], sramCe := 0, dma := [] },
    power := ⟨false, false, s.now, if cold then 0 else s.power.epoch, [], none, false, false, s.now⟩,
    zne := { resetZne s.zne with outBufs := if cold then [] else s.zne.outBufs }, hif := resetHif (if cold then s.hif.powerCycle else s.hif), sec := resetSec s.sec,
    lpe := ⟨[], [], [], [], none, [], [], 100, s.now / 100000 * 100000, 0⟩,
    seqs := [], boot := resetBoot s, casc := resetCasc s.casc }
  let s := (s.setFld F.MRM_BANKSTAT_FAILED banks).setFld F.AON_RSTCAUSE_CAUSE cause
  let s := ([0, 1, 2].foldl (fun s k => s.setWord (R.SEC_KSATTR k) (BitVec.ofNat 64 (2 + 2 * 4))) s)
  ((s.sampleStraps x).sprout bad).returnReleased

/-- COLD_RESET: VDD_1P8 power-on, CAUSE 0; it lasts until PLI_N has been high for 1 ms (R365, R428). -/
def execColdReset (portcfg cascmode : Fin 4) (bootsel : Bool) (bad : BitVec 2) (s : State) : Host.Outcome State Fault Refusal :=
  .next (s.deviceReset true 0 ⟨portcfg.val, cascmode.val, b2n bootsel⟩ bad)

/-- BROWN_OUT: Marrow's LDO is overloaded or its output falls: a cold reset of CAUSE 1 (R364). -/
def execBrownOut (portcfg cascmode : Fin 4) (bootsel : Bool) (bad : BitVec 2) (s : State) : Host.Outcome State Fault Refusal :=
  .next (s.deviceReset true 1 ⟨portcfg.val, cascmode.val, b2n bootsel⟩ bad)

/-- WARM_RESET: the device holds its islands in reset after a power-loss sequence that a warm reset follows (R365, R373, R375). -/
def execWarmReset (portcfg cascmode : Fin 4) (bootsel : Bool) (bad : BitVec 2) (s : State) : Host.Outcome State Fault Refusal :=
  match s.power.loss with
  | some ⟨.reset c, _, _⟩ =>
    if s.power.heldReset then .next (s.deviceReset false c ⟨portcfg.val, cascmode.val, b2n bootsel⟩ bad) else .next s
  | _ => .next s

/-- A write of AON_RSTCTL: WARM runs the power-loss sequence and then a warm reset of CAUSE 2 (R365). -/
def State.rstctlWrite (s : State) (v : Nat) : State := if bit v 0 then s.startLoss (.reset 2) else s

/-- RESET_REQUEST. -/
def execResetRequest (s : State) : Host.Outcome State Fault Refusal := .next (s.rstctlWrite 1)

/-- FORMATION_RESET_DELAY: 100 ms after the formation command completed: a warm reset of CAUSE 8 (R52). -/
def execFormationResetDelay (s : State) : Host.Outcome State Fault Refusal :=
  match s.hif.formAt with
  | some t => if t ≤ s.now then .next ((s.hf fun h => { h with formAt := none }).startLoss (.reset 8)) else .next s
  | none => .next s

/-- RECOVERY_RESET_DELAY: 100 ms after a passing commit in recovery: event 0x070C and a warm reset of CAUSE 5, unless BOOTSEL is 1
(R333, R334). -/
def execRecoveryResetDelay (s : State) : Host.Outcome State Fault Refusal :=
  match s.boot.recAt with
  | some t =>
    if t ≤ s.now ∧ s.flag F.SEC_BOOTSTAT_BOOTSEL = false then
      let slot := match s.activeWord with
        | some (_, p, _) => p
        | none => 0
      let s := s.secPost 0x070C [(8, slot), (4, s.fld F.SEC_BOOTSTAT_AFAIL), (4, s.fld F.SEC_BOOTSTAT_BFAIL)]
      .next ((s.bt fun b => { b with recAt := none }).startLoss (.reset 5))
    else .next s
  | none => .next s

/-! ### The end of the power-loss sequence (R373 steps 6 and 7, R375) -/

/-- An operation that programs is active, queued or on its way back. -/
def State.programsLeft (s : State) : Bool :=
  (s.zne.dies.any fun e => ((e.2.active.map fun p => p.op.kind == .program).getD false) ||
    ((e.2.susp.map fun p => p.op.kind == .program).getD false) || e.2.queue.any fun o => o.kind == .program) ||
  (s.zne.dones.any fun d => d.op.kind == .program) ||
  s.zne.stripes.any fun e => e.2.slc && (e.2.st = .committed || e.2.st = .programming)

/-- HUSK_SEAL: both Husk copies and MRAM are sealed and the recorder flushed, after event 0x0905 (R373 step 6). -/
def State.lossSeal (s : State) (l : PowerLoss) : State :=
  let cause := match l.cause with
    | .pli => 0
    | .thermal => 1
    | .reset c => c
  let s := s.znePost 0x0905 [(16, l.dirty), (32, (s.now - l.since) / 1000), (8, cause)]
  let s := s.evr.transit.foldl (fun s e => s.acceptEvent e) s |>.ev fun r => { r with transit := [] }
  let s := (s.startFlush).flushRecords (s.fld F.MGT_EVNEXT_COUNT)
  (s.flushGather .done).sealAll

/-- POWER_LOSS_SEQUENCE_END: every program has completed: the Husk and MRAM are sealed and the islands held in reset. With PLI_N high
again, a warm reset of CAUSE 6 is to follow; after a thermal trip none follows until a cold reset (R371, R375). -/
def execPowerLossSequenceEnd (pliHigh : Bool) (s : State) : Host.Outcome State Fault Refusal :=
  match s.power.loss with
  | none => .next s
  | some l =>
    if s.power.heldReset ∨ s.programsLeft = true then .next s
    else
      let s := s.lossSeal l
      let cause := if l.cause = .pli ∧ pliHigh = true then PlCause.reset 6 else l.cause
      let loss : PowerLoss := ⟨cause, l.since, l.dirty⟩
      .next ({ s with pins := { s.pins with pli := pliHigh } }.pw fun p => { p with heldReset := true, loss := some loss })

/-! ### Wake (R360 to R363) -/

/-- DRAM_RETENTION_FAIL: a failed canary or save area takes the warm-restart path: event 0x0904 and a warm reset of CAUSE 7. -/
def State.warmRestart (s : State) (check : Nat) : State :=
  ((s.setFld F.AON_RETSTAT_DRAMFAIL 1).aonPost 0x0904 [(8, check)]).startLoss (.reset 7)

/-- After a wake from DEEP whose retention banks of core 0 or of SEC were discarded, Sprout verifies the active slot again and
starts its Stem (R361). -/
def State.wakeBoot (s : State) (slotBad : Bool) : State :=
  let disc := s.fld F.AON_RETSTAT_DISC
  if [0, 1, 2, 3, 16].any (fun n => bit disc n || !bit (s.fld F.AON_RETEN_EN) n) then
    let k := s.activeSlot
    if s.slotCode k slotBad = 0 then s.bootSlot k 0 else s
  else s

/-- WAKE_EVENT: a source of R360 wakes the device. From DEEP the retention seals are checked first (RETENTION_SEAL_CHECK): `bad` are
banks whose content did not keep, `dramFail` the check of DRAM that failed (0 canary, 1 save area), `slotBad` whether an MRAM read
of the active slot is uncorrectable. -/
def execWakeEvent (src : WakeSource) (bad : BitVec 24) (dramFail : Option Bool) (slotBad : Bool) (s : State) :
    Host.Outcome State Fault Refusal :=
  if src = .vukoro ∧ s.isMember = false then .next s
  else if s.fld F.AON_PSSTAT_CUR = 3 ∧ s.flag F.AON_PSSTAT_BUSY = false then
    let s := s.checkSeals bad.toNat
    match dramFail with
    | some c => .next (s.warmRestart (b2n c))
    | none => .next (s.wakeBoot slotBad).wakeUp
  else .next s.wakeUp

end Sys2Proof.Machine
end

