-- ==== Sys2Proof/Machine/Formation.lean ====
section
/-! DEFINITION. Flash profiles (R224, R225), the geometry registers (R45), and forming a geometry (R46 to R49, R52, R234, R440). -/

namespace Sys2Proof.Machine

/-! ### Profile records (R224, R225) -/

/-- A little-endian field of the profile record at an address. -/
def State.prof (s : State) (r off n : Nat) : Nat := imgNat s.mem r off n

/-- Where the record that follows a record begins: after its read-offset table. -/
def State.profNext (s : State) (r : Nat) : Nat := r + s.prof r 76 4 + 4 * (s.prof r 62 1 + 1)

/-- The records of a slot's flash profiles stage, one after another, up to n (R318 stage 5). -/
def State.profList (s : State) (stop : Nat) : Nat → Nat → List Nat
  | 0, _ => []
  | n + 1, r => if r + 128 ≤ stop then r :: s.profList stop n (s.profNext r) else []

/-- The profile records of a slot. -/
def State.profRecords (s : State) (slot : Nat) : List Nat :=
  let a := stageAt s.mem (slotBase slot) 4
  s.profList (a + 128 + imgNat s.mem a 8 4) 256 (a + 128)

/-- CRC of a record, over its first 124 bytes and its read-offset table. -/
def State.profCrcOk (s : State) (r : Nat) : Bool :=
  let tab := Memory.readBytes s.mem (r + s.prof r 76 4) (4 * (s.prof r 62 1 + 1))
  s.prof r 124 4 == (crc32c (Memory.readBytes s.mem r 124 ++ tab)).toNat

/-- A record lies within the limits of R225, with an LDPC parity that a codeword holds (R34, R224). -/
def State.profAccepted (s : State) (r : Nat) : Bool :=
  let g := s.prof r 32 4
  let planes := bits g 4 3 + 1
  let bdie := bits g 16 16
  let limit := Config.ldpcLimit (s.prof r 75 1)
  let most := s.prof r 36 2 * 8 / 2 ^ bits g 0 2
  decide (bits g 0 2 < 3) && (planes == 1 || planes == 2 || planes == 4 || planes == 8) &&
  decide (planes * 16384 ≤ 65536 * 2 ^ bits g 2 2) && decide (bdie ≤ most) && decide (most ≤ 16384) &&
  decide (512 ≤ s.prof r 36 2 ∧ s.prof r 36 2 ≤ 4096) &&
  decide (100 ≤ s.prof r 56 2 ∧ s.prof r 56 2 ≤ 10000 ∧ 1000 ≤ s.prof r 58 2 ∧ s.prof r 58 2 ≤ 65000 ∧
    s.prof r 56 2 ≤ s.prof r 58 2) &&
  decide (1 ≤ s.prof r 60 2 ∧ s.prof r 60 2 ≤ 4095) &&
  decide (s.prof r 64 2 < limit ∧ s.prof r 66 2 < limit) && decide (s.prof r 38 2 ≤ bdie / 32) &&
  decide (1 ≤ s.prof r 75 1 ∧ s.prof r 75 1 ≤ 96)

/-- The record a die's parameter page matches: the first whose MFRID and MODEL match, whose CRC passes and that is accepted. -/
def State.dieProfile (s : State) (recs : List Nat) (mfr model : Nat) : Option Nat :=
  recs.find? fun r => s.prof r 16 8 == mfr && s.prof r 24 8 == model

/-- The record most dies match, the first on a tie. -/
def State.pickProfile (s : State) (recs : List Nat) (ids : List DieIdent) : Option Nat :=
  let count := fun (r : Nat) => (ids.filter fun x => s.dieProfile recs x.2.1.toNat x.2.2.toNat == some r).length
  minBy (fun r => 4096 - count r) (recs.filter fun r => decide (0 < count r))

/-- The records of a slot that the device may use: their CRC passes and they are accepted (R225). -/
def State.goodProfiles (s : State) (slot : Nat) : List Nat := (s.profRecords slot).filter fun r => s.profCrcOk r && s.profAccepted r

/-- PROFILE_SELECT: refused records with event 0x040B and their index in the stage (R250), then the device's record (R225); none where no
die matches one. -/
def State.selectProfile (s : State) (slot : Nat) (ids : List DieIdent) : Option Nat × State :=
  let bad := (s.profRecords slot).zipIdx.filter fun x => s.profCrcOk x.1 && !s.profAccepted x.1
  let s := bad.foldl (fun s x => s.znePost 0x040B [(16, x.2), (8, 0)]) s
  (s.pickProfile (s.goodProfiles slot) ids, s)

/-- The dies whose parameter page matches the record in use (R225). -/
def State.matching (s : State) (slot r : Nat) (ids : List DieIdent) : List Nat :=
  let recs := s.goodProfiles slot
  (ids.filter fun e => s.dieProfile recs e.2.1.toNat e.2.2.toNat == some r).map fun e => e.1.val

/-- Blocks whose marker byte, on a page that FBMPG names and at the column FBMCOL, is not 0xFF (R234). -/
def State.factoryOf (s : State) (r : Nat) (ms : List (BitVec 25 × Bool × Byte)) : List Nat :=
  ((ms.filter fun x => bit (s.prof r 74 1) (b2n x.2.1) && x.2.2 != 0xFF).map (·.1.toNat)).eraseDups

/-- The values ZNE takes from the copy of the record, and the registers firmware writes from it (R224, R225). -/
def State.loadProfile (s : State) (r : Nat) : State :=
  let g := s.prof r 32 4
  let w := fun (off : Nat) => BitVec.ofNat 64 (s.prof r off 4)
  let p : Profile := ⟨true, s.prof r 0 16, s.prof r 63 1, s.prof r 62 1, s.prof r 68 4, s.prof r 64 2, bits g 16 16,
    bits g 7 4 + 1, s.prof r 80 1, s.prof r 36 2, s.prof r 75 1⟩
  let ber := s.prof r 66 2
  let zmax := s.prof r 60 2
  let s := ((s.setWord R.ZNE_TPRED0 (w 40)).setWord R.ZNE_TPRED1 (w 44)).setWord R.ZNE_TPRED2 (w 48)
  let s := ((s.setWord R.ZNE_SUSPLIM (w 52)).setWord R.ZNE_PELIM (w 56)).setFld F.ZNE_SCRUBCFG_REFRESHBER ber
  (s.setFld F.ZNE_ERASECFG_ZEROMAX zmax).zn fun z => { z with profile := p }

/-! ### Geometry registers (R45) -/

/-- The table base registers that follow ZNE_GEOM.LOCK, each with the MiB its table takes (R43, R45, R63, R181, R225, R243). -/
def tableBases : List (Fld × Nat) :=
  [(F.ZNE_ZMBASE_BASE, 64), (F.ZNE_BTBASE_BASE, 144), (F.ZNE_BSTBASE_BASE, 256), (F.ZNE_AZTBASE_BASE, 2),
   (F.ZNE_SRDBASE_BASE, 512), (F.ZNE_CPMBASE_BASE, 1024), (F.ZNE_CSTBASE_BASE, 64), (F.ZNE_CNTBASE_BASE, 2),
   (F.ZNE_RCTBASE_BASE, 128), (F.ZNE_PROFBASE_BASE, 2)]

/-- A table base lies in the populated DRAM. -/
def State.baseOk (s : State) (f : Fld) : Bool :=
  let a := s.fld f * 2 ^ 21
  decide (dramBase ≤ a) && decide (a < dramBase + s.dramSize)

/-- The first field that fails the checks of a LOCK write: its register, lowest bit and value. -/
def State.lockFails (s : State) : Option (Nat × Nat × Nat) :=
  let c := s.fld F.ZNE_GEOM_CHANNELS
  let d := s.fld F.ZNE_GEOM_DPC
  let sl := s.fld F.ZNE_GEOM_SLICE
  let at_ := fun (f : Fld) => (f.addr % 0x100000, f.lo, s.fld f)
  if c ∉ [32, 64, 96, 128] then some (at_ F.ZNE_GEOM_CHANNELS)
  else if d ∉ [4, 8, 16] then some (at_ F.ZNE_GEOM_DPC)
  else if 65536 * 2 ^ sl < 2 ^ s.fld F.ZNE_GEOM_PLANES * 16384 then some (at_ F.ZNE_GEOM_SLICE)
  else if s.fld F.ZNE_GEOM_BLOCK = 3 then some (at_ F.ZNE_GEOM_BLOCK)
  else ((tableBases.map (·.1)).find? fun f => !s.baseOk f).map at_

/-- The first field of a word for ZNE_GEOM that lies outside its list: lowest bit and value (R45). -/
def geomBad (v : Nat) : Option (Nat × Nat) :=
  if bits v 0 8 ∉ [32, 64, 96, 128] then some (0, bits v 0 8)
  else if bits v 8 5 ∉ [4, 8, 16] then some (8, bits v 8 5)
  else if bits v 18 2 = 3 then some (18, 3)
  else none

/-- A write of ZNE_GEOM: ignored while locked; ignored as a whole with a value outside the lists (R439); LOCK takes effect where nothing
fails R45. A refused LOCK write posts event 0x0108 with the field. -/
def State.geomWrite (s : State) (v : Nat) : State :=
  if s.flag F.ZNE_GEOM_LOCK then s
  else match geomBad v with
  | some (b, x) => if bit v 31 then s.znePost 0x0108 [(24, (F.ZNE_GEOM_CHANNELS).addr % 0x100000), (8, b), (32, x)] else s
  | none =>
    let t := s.setWord R.ZNE_GEOM (BitVec.ofNat 64 (bits v 0 15 + bits v 16 4 * 2 ^ 16))
    if bit v 31 then
      match t.lockFails with
      | none => t.setFld F.ZNE_GEOM_LOCK 1
      | some (o, b, x) => s.znePost 0x0108 [(24, o), (8, b), (32, x)]
    else t

/-- Firmware lays the tables one after another from the start of DRAM (its own choice, assumption 25). -/
def State.writeBases (s : State) : State :=
  (tableBases.foldl (fun (a : Nat × State) x => (a.1 + x.2 / 2, a.2.setFld x.1 a.1)) (dramBase / 2 ^ 21, s)).2

/-! ### Forming (R46 to R49, R234, R440) -/

/-- The smallest number of a list that is at least n, or the last. -/
def roundTo (n : Nat) : List Nat → Nat
  | [] => n
  | [x] => x
  | x :: y :: xs => if n ≤ x then x else roundTo n (y :: xs)

/-- C and D that the responding dies make (R32): populated channels are contiguous, with equal numbers of dies. -/
def popOf (ids : List DieIdent) : Nat × Nat :=
  (roundTo ((ids.map fun x => x.1.val / 16 + 1).foldl max 0) [32, 64, 96, 128],
   roundTo ((ids.map fun x => x.1.val % 16 + 1).foldl max 0) [4, 8, 16])

/-- The word of ZNE_GEOM, without LOCK, of C channels with D dies of a profile record. -/
def State.geomOf (s : State) (r : Nat) (cd : Nat × Nat) : Nat :=
  let g := s.prof r 32 4
  let planes := bits g 4 3 + 1
  let code := if planes = 1 then 0 else if planes = 2 then 1 else if planes = 4 then 2 else 3
  cd.1 + cd.2 * 2 ^ 8 + code * 2 ^ 13 + bits g 2 2 * 2 ^ 16 + bits g 0 2 * 2 ^ 18

/-- Declare a die Failed before the tables are in use, with its whole-die entry in the defect list (R225, R234, R237). -/
def State.failDie (s : State) (d cause : Nat) : State :=
  let old := Tab.getD s.zne.deadRec d 0
  if 3 ≤ old then s
  else
    let s := ((s.zn fun z => { z with deadRec := Tab.set z.deadRec d 3 }).setFld (F.ZNE_DHS_STATE d) 3).znePost 0x0307 [(11, d), (8, cause)]
    if old = 2 then s else s.listDefect (mkBlk (d / 16) (d % 16) 0) true 3

/-- Minimum DRAM for N blocks (R44). -/
def minDram (n : Nat) : Nat :=
  if n ≤ 8388608 then 8 * 2 ^ 30 else if n ≤ 16777216 then 16 * 2 ^ 30 else 32 * 2 ^ 30

/-- The rank masks and conventional shares to form over C channels of D dies: the partition asked for, within the ranks populated and with
shares of at most N_s / 128 blocks (R47), or where that leaves a populated rank in no set, all ranks in one set (R48, assumption 83). -/
def State.formSets (s : State) (cd : Nat × Nat) : List (Nat × Nat × Nat) :=
  let asked := (List.range 16).filterMap fun n =>
    match Tab.find s.hif.partition n with
    | some p => some (n, p)
    | none => (Tab.find s.zne.sets n).map fun r => (n, r.ranks, r.conv)
  let live := (asked.map fun x => (x.1, x.2.1 % 2 ^ cd.2, x.2.2)).filter fun x => x.2.1 != 0
  let sets := if (List.range cd.2).all fun r => live.any fun x => bit x.2.1 r then live else [(0, 2 ^ cd.2 - 1, 0)]
  sets.map fun x => (x.1, x.2.1, min x.2.2 (cd.1 * popcount 16 x.2.1 * s.zne.profile.bDie / 128 / 18))

/-- Blocks that a share gives to a channel: the shares of two channels differ by at most one (R440). -/
def perChannel (total channels c : Nat) : Nat := total / channels + b2n (decide (c < total % channels))

/-- Blocks of a rank set on a channel that a share may take: those with no factory defect and not retired, dead dies last. R440 excepts
factory defects alone; leaving out blocks that an earlier formation retired is a DESIGN CHOICE (assumption 62). -/
def State.usableOn (s : State) (factory : List Nat) (ranks c : Nat) : List Nat :=
  let rs := (List.range 16).filter (bit ranks)
  let alive := fun (r : Nat) => decide (Tab.getD s.zne.deadRec (c * 16 + r) 0 < 2)
  let all := (rs.filter alive ++ rs.filter fun r => !alive r).flatMap fun r =>
    (List.range s.zne.profile.bDie).map fun i => mkBlk c r i
  all.filter fun b => !factory.contains b && (s.blk b).st != .factory && (s.blk b).st != .retired

/-- The shares of a channel of a rank set (R46, R440): its table entries, and none where it lacks blocks. System blocks serve SLC stripes
and slots (R132, R226). -/
def State.formChannel (s : State) (factory : List Nat) (channels ranks c : Nat) : Option (List (Nat × BlkEnt)) :=
  let us := s.usableOn factory ranks c
  let n := channels * popcount 16 ranks * s.zne.profile.bDie
  let (z, slc, sys, _) := shares n
  let k1 := perChannel (18 * z) channels c
  let k2 := perChannel slc channels c
  let k3 := perChannel sys channels c
  let ent := fun (st : BlkSt) (m : Bool) (b : Nat) => (b, ({ s.blk b with
    st := st, slc := m, grown := false, cursor := none, rdofs := s.zne.profile.rdofs0, reads := 0 } : BlkEnt))
  if us.length < k1 + k2 + k3 then none
  else some ((us.take k1).map (ent .free false) ++ ((us.drop k1).take k2).map (ent .free true) ++
    ((us.drop (k1 + k2)).take k3).map (ent .system true) ++ (us.drop (k1 + k2 + k3)).map (ent .spare false))

/-- The tables of a rank set, or none where formation is refused. -/
def State.formSet (s : State) (factory : List Nat) (channels ranks : Nat) : Option (List (Nat × BlkEnt)) :=
  (List.range channels).foldl (fun a c => match a, s.formChannel factory channels ranks c with
    | some xs, some ys => some (xs ++ ys)
    | _, _ => none) (some [])

/-- Dies whose factory defects exceed MAXFBB are declared Failed (R234, FACTORY_MARKER_READ). -/
def State.failMarked (s : State) (factory : List Nat) (maxFbb : Nat) : State :=
  let ds := (factory.map blkDie).eraseDups
  (ds.filter fun d => decide (maxFbb < (factory.filter fun b => blkDie b == d).length)).foldl
    (fun s d => s.failDie d 4) s

/-- Factory defects enter the Block State Table and the defect list, where a Failed die is listed as a whole (R234, R237). -/
def State.markFactory (s : State) (factory : List Nat) : State :=
  let new_ := factory.filter fun b => (s.blk b).st = .absent
  let s := new_.foldl (fun s b => s.modBlk b fun _ => ⟨0, .factory, false, false, none, 0, 0⟩) s
  let single := new_.filter fun b => decide (Tab.getD s.zne.deadRec (blkDie b) 0 < 3)
  s.zn fun z => { z with
    defects := z.defects ++ single.map fun b => ⟨b, false, 1, 0⟩,
    defGen := z.defGen + single.length }

/-- The free rings of newly formed tables: the free blocks of live dies, CLEAN 0 (R229, R440). -/
def formRings (dead : Nat → Bool) (key : Nat → Bool → Nat) (bs : Tab BlkEnt) : Tab (List RingEnt) :=
  bs.foldl (fun t e =>
    if e.2.st = .free ∧ dead (blkDie e.1) = false then
      let k := key e.1 e.2.slc
      Tab.set t k (Tab.getD t k [] ++ [⟨e.1, false, false, 0⟩])
    else t) []

/-- What the system blocks serve (R132, R303, R440): floor(N / 8,192) of them the parity shelf, spread evenly over the channels; the next
block of two channels the key mirror; the rest the table journal. Which they are is firmware's choice (assumption 25). -/
def sysUses (channels n : Nat) (sys : List Nat) : Tab SysUse :=
  let k := n / 8192
  (List.range channels).flatMap fun c =>
    let bs := sys.filter fun b => blkChan b == c
    let a := perChannel k channels c
    (bs.zip (List.range bs.length)).map fun x =>
      (x.1, if x.2 < a then .shelf else if x.2 = a ∧ c < 2 then .mirror else .journal)

/-- Write every table afresh for the sets formed (R43, R52 step 5): of the old Block State Table only defects within the new geometry stay. -/
def State.writeTables (s : State) (cd : Nat × Nat) (fs : List (Nat × Nat × Nat)) (es : List (Nat × BlkEnt)) : State :=
  let sets : Tab RankSet := fs.foldl (fun t x => Tab.set t x.1
    { s.rset x.1 with ranks := x.2.1, conv := x.2.2, rotor := 0, reclaim := false, stalled := false, spareLow := false, rowLost := false,
                      readOnly := false, bgtok := 0 }) []
  let hdr := fun (c : Nat) => (⟨true, c, false, s.zne.husk.epoch, s.zne.husk.hseq⟩ : HuskHdr)
  let s := s.zn fun z => { z with
    zones := [], srd := [], slc := [], openSeg := [], openStage := [], conv := [],
    sets := sets,
    blks := es.foldl (fun t e => Tab.set t e.1 e.2) (Tab.keep z.blks fun b e => (e.st = .factory || e.st = .retired) &&
      decide (blkChan b < cd.1) && decide (blkRank b < cd.2) && decide (blkIdx b < z.profile.bDie)),
    sysUse := sysUses cd.1 (cd.1 * cd.2 * z.profile.bDie) ((es.filter fun e => e.2.st = .system).map (·.1)),
    ledger := [], jobs := [], lost := [], lostFull := false, unlisted := [],
    husk := { z.husk with
      hdr0 := hdr 0, hdr1 := hdr 1, rec0 := [], rec1 := [], shelf := [], shelfCw := [], closing := [], noHusk := false, inJournal := false,
      replayed := z.husk.replayed } }
  let s := s.zn fun z => { z with
    rings := formRings (fun d => decide (2 ≤ Tab.getD z.deadRec d 0)) (fun b m => ringKey (s.setOfBlk b) (blkChan b) m) z.blks }
  let s := s.zn fun z => { z with sets := z.sets.map fun e => (e.1, { e.2 with spare0 := s.spareLeft e.1 }) }
  s.hf fun h => { h with partition := [] }

/-- At the first formation the TRNG gives the UUID of SUBNQN, and on a master the cascade ID (R276, R385). -/
def State.drawIds (s : State) : State :=
  if s.boot.formed.isSome then s
  else
    let (u, s) := s.drawFree
    let s := s.hf fun h => { h with subnqn := u % 2 ^ 128 }
    if s.fld F.VUK_CASC_ROLE = 1 then
      let (c, s) := s.drawFree
      { s with casc := { s.casc with id := c % 2 ^ 64 } }
    else s

/-- FORMATION: the shares of every rank set over the populated dies; refused, with event 0x040B, where a channel lacks the blocks or
the DRAM is too small (R44, R234, R440). -/
def State.form (s : State) (r : Nat) (ids : List DieIdent) (markers : List (BitVec 25 × Bool × Byte)) : Option State × State :=
  let cd := popOf ids
  let factory := s.factoryOf r markers
  let s := s.loadProfile r
  let s := (s.failMarked factory (s.prof r 38 2)).markFactory factory
  let fs := s.formSets cd
  let tabs := fs.map fun x => s.formSet factory cd.1 x.2.1
  if s.dramSize < minDram (cd.1 * cd.2 * s.zne.profile.bDie) ∨ tabs.any (·.isNone) = true then
    (none, s.znePost 0x040B [(16, 0), (8, 1)])
  else
    let es := tabs.flatMap fun t => t.getD []
    let g := s.geomOf r cd
    let s := s.drawIds
    (some (((s.writeTables cd fs es).cfgWrite.hf fun h => { h with formReq := false }).bt fun b => { b with formed := some g }), s)

end Sys2Proof.Machine
end

