-- ==== Sys2Proof/Machine/Tenancy.lean ====
section
/-! DEFINITION. Tenancy Management (R50, R52, R59, R62, R157, R259, R274, R289, R290, R301), Governor Access (R168, R291), Geometry
Report (R293), the diagnostic window (R263, R264, R295). -/

namespace Sys2Proof.Machine

/-! ### Descriptors and quotas (R289, R290) -/

/-- A tenancy's descriptor. -/
structure TenDesc where
  aq : Nat
  oq : Nat
  tsq : Nat
  wbq : Nat
  rsets : Nat
  urgen : Nat
  ksq : Nat
  deriving DecidableEq, Repr

/-- Read a descriptor. -/
def tenDesc (e : Sqe) : TenDesc :=
  ⟨e.field 0 2, e.field 2 2, e.field 4 4, e.field 8 4, e.field 12 2, e.field 14 1 % 2, e.field 16 2⟩

/-- Sum of a field over the other tenancies. -/
def othersSum (t : Nat) (f : Nat → Nat) : Nat := sumBy (fun u => if u = t then 0 else f u) (List.range 128)

/-- AQ and OQ break R59 or R62. -/
def State.quotaBad (s : State) (t aq oq : Nat) : Bool :=
  decide (aq < oq) || decide (8192 < othersSum t (fun u => s.fld (F.ZNE_TZQ_AQ u)) + aq) ||
  decide (8192 < othersSum t (fun u => s.fld (F.ZNE_TZQ_OQ u)) + oq) ||
  decide (aq < s.fld (F.ZNE_TZU_ACT t)) || decide (oq < s.fld (F.ZNE_TZU_OPN t))

/-- TSQ breaks R274. -/
def State.tsqBad (s : State) (t tsq : Nat) : Bool :=
  decide (64512 < othersSum t (fun u => s.fld (F.HIF_TCRED_TSQ u)) + tsq)

/-- Media-key slots a tenancy holds. -/
def State.mediaHeld (s : State) (t : Nat) : Nat :=
  (s.sec.keys.filter fun e => decide (0x110 ≤ e.1) && s.fld (F.SEC_KSATTR_TEN e.1) == t).length

/-- KSQ breaks R301. -/
def State.ksqBad (s : State) (t ksq : Nat) : Bool :=
  decide (3824 < (s.hif.tens.foldl (fun a e => if e.1 = t then a else a + e.2.ksq) 0) + ksq) || decide (ksq < s.mediaHeld t)

/-- RSETS omits a rank set that holds one of the tenancy's namespaces (R290). -/
def State.rsetsBad (s : State) (t rsets : Nat) : Bool := s.hif.nss.any fun e => e.2.ten == t && !bit rsets e.2.set

/-- Put a descriptor's quotas in force. -/
def State.putQuotas (s : State) (t : Nat) (d : TenDesc) : State :=
  let s := (s.setFld (F.ZNE_TZQ_AQ t) d.aq).setFld (F.ZNE_TZQ_OQ t) d.oq
  let s := ((s.setFld (F.HIF_TCRED_TSQ t) d.tsq).setFld (F.HIF_TCRED_URGEN t) d.urgen).setFld (F.HIF_TWBQ_WBQ t) d.wbq
  s.hf fun h => { h with tens := Tab.set h.tens t ⟨d.rsets, d.ksq⟩ }

/-- Apply a descriptor whole, or refuse it whole: a bad quota posts event 0x0107, a bad credit 0x0607 (R62, R274). -/
def State.applyDesc (s : State) (fn : Nat) (e : Sqe) (t : Nat) : State :=
  let d := tenDesc e
  if s.quotaBad t d.aq d.oq then
    (s.znePost 0x0107 [(7, t), (14, d.aq), (14, d.oq)] t).adminDone fn e .invalidField
  else if s.tsqBad t d.tsq then
    (s.hifPost (fn / 128 % 2) 0x0607 [(7, t), (16, d.tsq)]).adminDone fn e .invalidField
  else if s.ksqBad t d.ksq || s.rsetsBad t d.rsets || decide (524288 < d.wbq) then s.adminDone fn e .invalidField
  else ((s.toMembers e).putQuotas t d).adminDone fn e .success

/-- The tenancy a Tenancy Management command names. -/
def Sqe.ten (e : Sqe) : Nat := bits e.cdw10.toNat 16 7

/-- Every row of Tenancy Management carries its own ACT. -/
def Sqe.withAct (e : Sqe) (act : Nat) : Sqe :=
  { e with cdw10 := BitVec.ofNat 32 (e.cdw10.toNat / 16 * 16 + act) }

/-- TENANCY_CREATE (ACT 0). -/
def execTenancyCreate (fn : FnId) (e : Sqe) (s : State) : Host.Outcome State Fault Refusal :=
  let e := e.withAct 0
  s.admin fn.val e masterCtl fun s =>
    if s.tenExists e.ten then s.adminDone fn.val e .invalidField else s.applyDesc fn.val e e.ten

/-- A tenancy is deleted: its wrap key and its slot go (R311), its loop slot opens (R157), its quotas take their Reset values. -/
def State.dropTenancy (s : State) (t : Nat) : State :=
  let s := match Tab.find s.sec.twk t with
    | some k => (((s.cfgWrite.zeroSlot k).eraseRecord k).sc fun x => { x with twk := Tab.erase x.twk t })
    | none => s
  let s := ((s.lpeDeleted t).setWord (R.ZNE_TZQ t) 0).setWord (R.HIF_TCRED t) 0
  let s := s.setFld (F.HIF_TWBQ_WBQ t) 0x80000
  s.hf fun h => { h with tens := Tab.erase h.tens t }

/-- TENANCY_DELETE (ACT 1). -/
def execTenancyDelete (fn : FnId) (e : Sqe) (s : State) : Host.Outcome State Fault Refusal :=
  let e := e.withAct 1
  s.admin fn.val e masterCtl fun s =>
    let t := e.ten
    if t = 0 ∨ s.tenExists t = false then s.adminDone fn.val e .invalidField
    else if s.hif.nss.any (fun n => n.2.ten == t) then s.adminDone fn.val e .commandSequenceError
    else ((s.toMembers e).dropTenancy t).adminDone fn.val e .success

/-- SET_QUOTAS (ACT 2). -/
def execSetQuotas (fn : FnId) (e : Sqe) (s : State) : Host.Outcome State Fault Refusal :=
  let e := e.withAct 2
  s.admin fn.val e masterCtl fun s =>
    if s.tenExists e.ten then s.applyDesc fn.val e e.ten else s.adminDone fn.val e .invalidField

/-- READ_DESCRIPTOR (ACT 6). -/
def execReadDescriptor (fn : FnId) (e : Sqe) (s : State) : Host.Outcome State Fault Refusal :=
  let e := e.withAct 6
  s.admin fn.val e masterCtl fun s =>
    let t := e.ten
    if s.tenExists t = false then s.adminDone fn.val e .invalidField
    else
      let r := Tab.getD s.hif.tens t ⟨0xFFFF, 0⟩
      s.adminData fn.val e (pageOf 32 [(0, 2, s.fld (F.ZNE_TZQ_AQ t)), (2, 2, s.fld (F.ZNE_TZQ_OQ t)),
        (4, 4, s.fld (F.HIF_TCRED_TSQ t)), (8, 4, s.fld (F.HIF_TWBQ_WBQ t)), (12, 2, r.rsets),
        (14, 1, s.fld (F.HIF_TCRED_URGEN t)), (16, 2, r.ksq)]) 0 32

/-! ### Functions (R259) -/

/-- A write of HIF_FNMAP.TEN of a VF is not accepted: the VF is enabled, the value is 0, or the tenancy holds another VF of the
port. -/
def State.mapBad (s : State) (p f t : Nat) : Bool :=
  f == 0 || ((s.port p).vfen && decide (f ≤ (s.port p).numVfs)) || t == 0 ||
  ((List.range 127).map (· + 1)).any fun g => g != f && s.fnTen (p * 128 + g) == t

/-- Map a VF to a tenancy: port in CDW11[0], VF in CDW11[7:1], node in CDW11[9:8] (R390). -/
def State.mapVf (s : State) (fn : Nat) (e : Sqe) : State :=
  let c := e.cdw11.toNat
  let d := bits c 8 2
  match s.nodeDenies d with
  | some st => s.adminDone fn e st
  | none =>
    if d ≠ s.ownNode then s.askNode fn d e
    else if s.mapBad (bits c 0 1) (bits c 1 7) e.ten then s.adminDone fn e .invalidField
    else (s.setFld (F.HIF_FNMAP_TEN (bits c 0 1) (bits c 1 7)) e.ten).adminDone fn e .success

/-- MAP_VF (ACT 3). -/
def execMapVf (fn : FnId) (e : Sqe) (s : State) : Host.Outcome State Fault Refusal :=
  s.admin fn.val (e.withAct 3) masterCtl fun s => s.mapVf fn.val (e.withAct 3)

/-! ### Geometry (R50, R52, R175) -/

/-- RANKS and the conventional segment count of rank set n (counted from 0) in a geometry request. -/
def Sqe.geomEntry (e : Sqe) (n : Nat) : Nat × Nat := (e.field (n * 8) 2, e.field (n * 8 + 2) 2)

/-- Partition in force: the formed sets, or for a set asked for since, what was asked. -/
def State.partOf (s : State) (n : Nat) : Nat × Nat :=
  match Tab.find s.hif.partition n with
  | some p => p
  | none => ((s.rset n).ranks, (s.rset n).conv)

/-- A geometry request names a partition of the populated ranks, with shares of R175. -/
def State.geomOk (s : State) (e : Sqe) : Bool :=
  let es := (List.range 16).map e.geomEntry
  let d := s.fld F.ZNE_GEOM_DPC
  let each := (List.range 16).all fun r =>
    decide ((es.filter fun x => bit x.1 r).length = if r < d then 1 else 0)
  each && es.all fun x =>
    x.2 == 0 || (decide (128 ≤ x.2) && decide (x.2 ≤ s.setBlocks x.1 / 128 / 18) && x.1 != 0)

/-- Rank sets a geometry request changes. -/
def State.geomChanges (s : State) (e : Sqe) : List Nat :=
  (List.range 16).filter fun n => decide (e.geomEntry n ≠ s.partOf n)

/-- Ask for a partition: refused while a rebuild or a namespace is in a set that changes. A share alone is in force at once; a
changed partition is what the next formation forms (R50, R52, R175; assumption 24). -/
def State.setRankSets (s : State) (fn : Nat) (e : Sqe) : State :=
  let ch := s.geomChanges e
  if s.geomOk e = false then s.adminDone fn e .invalidField
  else if s.rebuilding ch.contains then s.adminDone fn e .rebuildInProgress
  else if s.hif.nss.any (fun n => n.2.node == s.ownNode && ch.contains n.2.set) then s.adminDone fn e .geometryOffline
  else
    let s := (s.toMembers e).hf fun h => { h with
      partition := ch.foldl (fun t n => Tab.set t n (e.geomEntry n)) h.partition }
    let s := s.zn fun z => { z with sets := z.sets.map fun x =>
      if (e.geomEntry x.1).1 = x.2.ranks then (x.1, { x.2 with conv := (e.geomEntry x.1).2 }) else x }
    (s.showSegs.reapStage).adminDone fn e .success

/-- SET_RANK_SETS (ACT 4). -/
def execSetRankSets (fn : FnId) (e : Sqe) (s : State) : Host.Outcome State Fault Refusal :=
  s.admin fn.val (e.withAct 4) masterCtl fun s => s.setRankSets fn.val (e.withAct 4)

/-- Every namespace goes, with its keys, wrap keys rotated as Sanitize does (R52 step 3, R311, R312). -/
def State.destroyAll (s : State) : State :=
  let s := s.cryptoErase (.all false) 0
  (Tab.keys s.hif.nss).foldl (fun s n => s.dropNs n) s

/-- A formation goes on (R52): once nothing is admitted the request is recorded and the namespaces are destroyed, and the command
completes; the reset follows 100 ms later. -/
def State.formStep (s : State) : State :=
  if s.hif.forming = false ∨ s.hif.formAt.isSome = true ∨ s.hif.slots.isEmpty = false ∨ s.hif.nmWait.isEmpty = false ∨
      s.sec.erases.isEmpty = false ∨ s.flag F.SEC_TRNGSTAT_KEYBLK = true then s
  else
    let s := s.cfgWrite.hf fun h => { h with formReq := true }
    let s := s.destroyAll.hf fun h => { h with formAt := some (s.now + 100000000) }
    match s.hif.formBy with
    | some (fn, cid) =>
      if fn = noFn then s else s.postCpl ⟨fn, if fn = fwdFn then 2 ^ 32 else 0, cid, .success, 0, 0, [], []⟩
    | none => s

/-- Form the geometry at the next start-up, on every node (R52, R390). -/
def State.formGeometry (s : State) (fn : Nat) (e : Sqe) : State :=
  ((s.toMembers e).hf fun h => { h with forming := true, formBy := some (fn, e.cid.toNat) }).formStep

/-- FORM_GEOMETRY (ACT 5). -/
def execFormGeometry (fn : FnId) (e : Sqe) (s : State) : Host.Outcome State Fault Refusal :=
  s.admin fn.val (e.withAct 5) masterCtl fun s => s.formGeometry fn.val (e.withAct 5)

/-! ### Governor Access (R291) -/

/-- Bits of an LPE slot register that hold fields. -/
def lpeMask (off : Nat) : Nat :=
  match off with
  | 0x0C => 2 ^ 29 - 1 - 2 ^ 23
  | 0x14 => 2 ^ 19 - 1
  | 0x18 => 2 ^ 24 - 1
  | 0x20 => 2 ^ 4 - 1
  | _ => 2 ^ 32 - 1

/-- A value that an LPE slot register takes (R173, R370). THRESH is checked for slots 144 to 159 too, where it is not used (DESIGN CHOICE,
assumption 85). -/
def State.lpeValid (s : State) (k off v : Nat) : Bool :=
  match off with
  | 0x04 =>
    let t := bits v 16 16
    decide (8 ≤ bits v 0 16 ∧ bits v 0 16 ≤ 32767 ∧ t ≤ 0x7FFF) &&
      (k != 144 || (decide (0x4600 ≤ t) && decide (t ≤ if s.xb then 0x6E00 else 0x6400)))
  | 0x0C => decide (bits v 24 5 ≤ 17)
  | 0x20 => decide (bits v 2 2 ≠ 3)
  | _ => true

/-- Offsets of the coefficient registers (R168). -/
def coefOffs : List Nat := [0x08, 0x0C, 0x10, 0x14, 0x18, 0x1C, 0x20]

/-- A write of an LPE slot register by firmware (R166 to R168, R173). -/
def State.lpeWrite (s : State) (k off v : Nat) : State :=
  if off = 0x00 then
    if bits v 2 2 = 1 ∨ bits v 2 2 = 2 then s.slotCmd k (bits v 2 2) else s
  else if off = 0x04 then
    if s.lpeValid k off v = false then s
    else
      let old := s.fld (F.LPE_SP_THRESH k)
      let s := if old = bits v 0 16 then s else s.lp fun l => { l with thr := Tab.set l.thr k (Tab.getD l.thr k old) }
      let s := if k = 144 then s.lp fun l => { l with tgt := some (l.tgt.getD (s.fld (F.LPE_SP_TARGET 144))) } else s
      s.setWord (R.LPE_SP k) (BitVec.ofNat 64 (v % 2 ^ 32))
  else if off = 0x24 then
    if s.lpeState k ≠ 0 then s.coefRefused k off
    else (s.setHold k (bits v 0 16) (bits v 16 2) (bits v 18 1)).lpeOut k (bits v 0 16) (bits v 16 2) (bits v 18 1)
  else if off ∈ coefOffs then
    if s.lpeState k ≠ 0 then s.coefRefused k off
    else if s.lpeValid k off v then s.setWord (R.LPE_SCTL k + off) (BitVec.ofNat 64 (Nat.land (v % 2 ^ 32) (lpeMask off)))
    else s
  else s

/-- The image of a slot's registers: 16 words from LPE_SCTL up. -/
def State.slotImage (s : State) (k : Nat) : List Byte :=
  (List.range 16).flatMap fun w => leBytes 4 (s.word (R.LPE_SCTL k + w * 4)).toNat

/-- The slot and the direction of a Governor Access, forced to a row's direction. -/
def Sqe.withDir (e : Sqe) (d : Nat) : Sqe :=
  { e with cdw10 := BitVec.ofNat 32 (e.cdw10.toNat / 512 * 512 + bits e.cdw10.toNat 0 8 + d * 256) }

/-- GOVERNOR_READ: a tenancy controller reads only its own slot. -/
def execGovernorRead (fn : FnId) (e : Sqe) (s : State) : Host.Outcome State Fault Refusal :=
  let e := e.withDir 0
  s.admin fn.val e anyCtl fun s =>
    let k := bits e.cdw10.toNat 0 8
    if 145 < k ∨ (isPf fn.val = false ∧ k ≠ s.fnTen fn.val) then s.adminDone fn.val e .invalidField
    else s.adminData fn.val e (s.slotImage k) 0 64

/-- GOVERNOR_WRITE: the words of the mask in CDW11[15:0]; refused whole where the slot is not OPEN and a locked field would change.
A word that leaves its locked fields as they are is accepted. -/
def execGovernorWrite (fn : FnId) (e : Sqe) (s : State) : Host.Outcome State Fault Refusal :=
  let e := e.withDir 1
  s.admin fn.val e anyCtl fun s =>
    let k := bits e.cdw10.toNat 0 8
    let words := (List.range 16).filter fun w => bit e.cdw11.toNat w
    let v := fun (w : Nat) => e.field (w * 4) 4
    let isOpen := s.lpeState k = 0
    let locked := fun (w : Nat) => (w * 4) ∈ (0x24 :: coefOffs)
    let changes := fun (w : Nat) =>
      decide (Nat.land (v w) (if w = 9 then 2 ^ 19 - 1 else lpeMask (w * 4)) ≠ (s.word (R.LPE_SCTL k + w * 4)).toNat)
    if 145 < k ∨ isPf fn.val = false then s.adminDone fn.val e .invalidField
    else if ¬isOpen ∧ words.any (fun w => locked w && changes w) = true then s.adminDone fn.val e .loopClosed
    else
      let todo := words.filter fun w => decide isOpen || !decide (locked w)
      (todo.foldl (fun s w => s.lpeWrite k (w * 4) (v w)) s).adminDone fn.val e .success

/-! ### Geometry Report (R293) -/

/-- SLC-mode pool, system and spare blocks of the formed sets. -/
def State.shareSums (s : State) : Nat × Nat × Nat × Nat :=
  s.zne.sets.foldl (fun a e =>
    let x := shares (s.setBlocks e.2.ranks)
    (a.1 + x.1, a.2.1 + x.2.1, a.2.2.1 + x.2.2.1, a.2.2.2 + x.2.2.2)) (0, 0, 0, 0)

/-- A rank set's entry. -/
def State.setEntryOf (s : State) (n : Nat) : List Byte :=
  match Tab.find s.zne.sets n with
  | none => leBytes 64 0
  | some r =>
    let nb := s.setBlocks r.ranks
    let sh := shares nb
    pageOf 64 [(0, 2, r.ranks), (2, 2, b2n r.fdp + b2n r.readOnly * 2), (4, 4, sh.1), (8, 8, nb), (16, 4, r.conv),
      (20, 4, (sh.2.1 - 18 * r.conv) / 18), (24, 8, r.spare0), (32, 8, s.spareLeft n)]

/-- The report for a tenancy, the owner's showing every set: zeros while no geometry is formed (R234). -/
def State.geometryReport (s : State) (ten : Nat) : List Byte :=
  if s.flag F.ZNE_GEOM_LOCK = false then leBytes 1152 0
  else
    let (z, p, y, sp) := s.shareSums
    let c := s.fld F.ZNE_GEOM_CHANNELS
    let d := s.fld F.ZNE_GEOM_DPC
    let b := s.zne.profile.bDie
    let hdr := pageOf 128 [(0, 2, c), (2, 2, d), (4, 4, b), (8, 4, s.blockBytes / 2 ^ 20), (12, 4, s.sliceBytes / 1024),
      (16, 4, 4544), (20, 4, s.zLba), (24, 8, c * d * b), (32, 8, z), (40, 8, p), (48, 8, y), (56, 8, sp),
      (64, 2, s.zne.sets.length), (68, 16, s.zne.profile.name), (84, 4, s.fld (F.CH_UCVER_PVER 0))]
    let mine := if ten = 0 then 0xFFFF else (Tab.getD s.hif.tens ten ⟨0, 0⟩).rsets
    hdr ++ (List.range 16).flatMap fun n => if bit mine n then s.setEntryOf n else leBytes 64 0

/-- GEOMETRY_REPORT: on the master the node is in CDW11[9:8] (R390). -/
def execGeometryReport (fn : FnId) (e : Sqe) (s : State) : Host.Outcome State Fault Refusal :=
  s.admin fn.val e anyCtl fun s =>
    let d := bits e.cdw11.toNat 8 2
    if s.isMaster ∧ d ≠ s.ownNode then
      match s.nodeDenies d with
      | some st => s.adminDone fn.val e st
      | none => s.askNode fn.val d e
    else s.adminData fn.val e (s.geometryReport (s.fnTen fn.val)) 0 1152

/-! ### The diagnostic window (R263, R264, R295) -/

/-- DIAG_WINDOW_OPEN (ACT 0): BAR2 of the port opens on island CDW10[15:8]. -/
def execDiagWindowOpen (fn : FnId) (e : Sqe) (s : State) : Host.Outcome State Fault Refusal :=
  let e := e.withAct 0
  s.admin fn.val e ownerCtl fun s =>
    let p := fn.val / 128
    let isl := bits e.cdw10.toNat 8 8
    if s.flag (F.HIF_DIAGCTL_ALLOW p) = false ∨ 176 ≤ isl then s.adminDone fn.val e .invalidField
    else
      let s := (s.setFld (F.HIF_DIAGCTL_OPEN p) 1).setFld (F.HIF_DIAGCTL_ISEL p) isl
      (s.hifPost p 0x0604 [(8, p), (8, isl), (8, 1)]).adminDone fn.val e .success

/-- DIAG_WINDOW_CLOSE (ACT 1). -/
def execDiagWindowClose (fn : FnId) (e : Sqe) (s : State) : Host.Outcome State Fault Refusal :=
  let e := e.withAct 1
  s.admin fn.val e ownerCtl fun s => (s.closeDiag (fn.val / 128)).adminDone fn.val e .success

end Sys2Proof.Machine
end

