-- ==== Sys2Proof/Machine/Startup.lean ====
section
/-! DEFINITION. START_UP (R365): what firmware and ZNE do after a reset, until CSTS.RDY: clocks, DRAM, tables and registers restored,
dies identified, keys unwrapped, the erase ledger read, the tables reconciled, a formation carried out, a crypto erase finished, a
trial boot confirmed. -/

namespace Sys2Proof.Machine

/-! ### Keys (R303, R304, R308, KEY_MIRROR_RECOVERY) -/

/-- A field of a wrapped key blob. -/
def blobField (b : List Byte) (off n : Nat) : Nat := ofLe ((b.drop off).take n)

/-- Unwrap a slot's record under the key of the layer above; none where it fails its check. -/
def State.unwrapAt (s : State) (k : Nat) (b : List Byte) : Option State :=
  let ten := blobField b 7 1
  let kek := if k < 0x110 then 0x001 else s.twkOf ten
  match Tab.find s.sec.keys kek with
  | none => none
  | some key =>
    match gcmDec key (blobField b 12 4 + blobField b 16 8 * 2 ^ 32) (b.take 32) ((b.drop 32).take 80) with
    | some pt =>
      if blobField b 2 2 = k then
        some ((s.useCounter kek).2.loadSlot k (blobField b 6 1) ten (if k < 0x110 then 0 else blobField b 8 2) (blobField b 10 1)
          (BitVec.ofNat 512 (ofLe pt)))
      else none
    | none => none

/-- The zones and blocks of a namespace whose key is lost: zones go Offline, conventional blocks are deallocated (R312). -/
def State.loseData (s : State) (n : Nat) : State :=
  match s.nsAt n with
  | none => s
  | some x =>
    if x.conv then s.eraseData n
    else (List.range x.zones).foldl (fun (s : State) k =>
      if (s.zone (x.zbase + k)).zs = .offline then s else (s.offlineZone (x.zbase + k)).zoneAen (x.zbase + k)) s

/-- A slot whose key neither MRAM nor the mirror holds: event 0x0709, and its namespace's data is lost. -/
def State.loseSlot (s : State) (k : Nat) : State :=
  let ns := (Tab.keys s.hif.nss).filter fun n =>
    (s.flag (F.XTS_NSK_CURV n) && s.fld (F.XTS_NSK_CURSLOT n) == k) || (s.flag (F.XTS_NSK_OLDV n) && s.fld (F.XTS_NSK_OLDSLOT n) == k)
  let s := s.eraseRecord k
  if ns.isEmpty then s.secPost 0x0709 [(12, k), (10, 0x3FF)] (((s.sec.twk.find? fun e => e.2 == k).map (·.1)).getD 0xFF)
  else ns.foldl (fun s n => (s.secPost 0x0709 [(12, k), (10, n)] (s.fld (F.XTS_NSK_TEN n))).loseData n) s

/-- Load one slot: from its MRAM record, else from the mirror, else it is lost. The records are in bank 3. -/
def State.recoverSlot (s : State) (k : Nat) : State :=
  let mram := if s.bankFailed 3 then none else (Tab.find s.sec.records k).bind (s.unwrapAt k)
  match mram with
  | some s => s
  | none =>
    match Tab.find s.sec.mirror k with
    | some b =>
      match s.unwrapAt k b with
      | some s => s.sc fun x => { x with records := Tab.set x.records k b }
      | none => s.loseSlot k
    | none => s.loseSlot k

/-- Every slot with a record is loaded, wrap keys before media keys, and data unit counts resume at their reservations. -/
def State.recoverKeys (s : State) : State :=
  let ks := (Tab.keys s.sec.records ++ (Tab.keys s.sec.mirror).filter fun k => (Tab.find s.sec.records k).isNone).mergeSort (· ≤ ·)
  let s := ks.foldl (fun s k => s.recoverSlot k) s
  s.sec.ducResv.foldl (fun s e => s.setFld (F.XTS_DUC_COUNT e.1) e.2) s

/-- CRYPTO_ERASE_RESUME: an erase whose commit record stands is finished (R312). -/
def State.resumeErases (s : State) : State :=
  s.sec.erases.foldl (fun s e => (s.cryptoErase e.scope 1).sc fun x => { x with erases := x.erases.filter (· != e) }) s

/-! ### Blocks (R228, R241) -/

/-- A block is in a ring. -/
def State.inRing (s : State) (b : Nat) : Bool := s.zne.rings.any fun r => r.2.any fun e => e.blk == b

/-- Blocks that the tables, the parity shelf and the system share name, with the state their reference implies. -/
def State.namedBlocks (s : State) : List (Nat × BlkSt) :=
  (s.zne.zones.flatMap fun e => e.2.body.map fun b => (b, BlkSt.body)) ++
  (s.zne.slc.flatMap fun e => e.2.members.map fun b => (b, if e.2.st = .stage then BlkSt.stage else .conv)) ++
  ((s.zne.sysUse.filter fun e => decide ((s.blk e.1).st ≠ .retired)).map fun e => (e.1, BlkSt.system)) ++
  s.zne.jobs.filterMap fun e => e.2.new_.map fun b =>
    (b, match e.2.slcBody.bind fun k => Tab.find s.zne.slc k with
        | some x => if x.st = .stage then BlkSt.stage else .conv
        | none => .body)

/-- LEDGER_RECOVERY: a block of a valid ledger entry goes dirty to its ring; with the ledger lost every CLEAN entry becomes UNCERTAIN,
with event 0x0403 (0 header, 1 entry, 2 bank). -/
def State.ledgerRecovery (s : State) (lost : Option Bool) : State :=
  let cause : Option Nat := if s.bankFailed 2 then some 2 else lost.map b2n
  match cause with
  | some c => s.loseLedger c
  | none =>
    let bs := s.zne.ledger.map fun e => e.2.blk
    let s := s.zn fun z => { z with
      ledger := [], rings := z.rings.map fun r => (r.1, r.2.map fun e => if bs.contains e.blk then { e with clean := false } else e) }
    let out := bs.filter fun b => !s.inRing b && !(s.namedBlocks.any fun x => x.1 == b)
    (s.releaseAll out).showMedia

/-- STARTUP_RECONCILE: orphan blocks go dirty to their rings and states that disagree with their reference are corrected, with event
0x040A. -/
def State.reconcile (s : State) : State :=
  let named := s.namedBlocks
  let orphans := Tab.keys (Tab.keep s.zne.blks fun b e =>
    (e.st = .body || e.st = .stage || e.st = .conv) && !(named.any fun x => x.1 == b))
  let wrong := named.filter fun x => decide ((s.blk x.1).st ≠ x.2)
  let s := s.releaseAll orphans
  let s := wrong.foldl (fun s x => s.modBlk x.1 fun e => { e with st := x.2 }) s
  if orphans.isEmpty ∧ wrong.isEmpty then s else s.znePost 0x040A [(32, orphans.length), (32, wrong.length)]

/-- A rebuild resumes from its progress entry (R148): on the same substitute where the slice at the mark is erased, after its
verification one slice further where it is programmed, else on a fresh substitute. -/
def State.resumeRebuild (s : State) (cls : List (BitVec 25 × MClass)) (dirty : List Nat) (j : Nat) : State :=
  match s.job j with
  | none => s
  | some x =>
    match x.new_ with
    | none => s
    | some b =>
      let c : Option MClass := if dirty.contains b then none else (cls.find? fun y => y.1.toNat == b).map (·.2)
      match c with
      | some .erased => (s.modJob j fun x => { x with st := .copy }).jobNext j
      | some (.programmed _) =>
        (s.modJob j fun x => { x with st := .verify }).verifyRead b x.done x.slcBody.isSome (.jobVerify j) 0xFF
      | _ => ((s.releaseBlk b).setBodyMember x x.old).modJob j fun x => { x with new_ := none, done := 0, st := .wait }

/-! ### Registers -/

/-- Registers that the config region keeps are restored (R289, R308, R309). -/
def State.restoreSaved (s : State) : State := s.boot.saved.foldl (fun s e => s.setWord e.1 e.2) s

/-- Counts that follow from the tables: active and open zones by owner (R61, R62), segments, stage, dirty data, media, dies under
rebuild. -/
def State.restoreCounts (s : State) : State :=
  let s := s.zne.zones.foldl (fun (s : State) e =>
    let s := if e.2.active then s.activeUp e.2.owner else s
    if e.2.isOpen then s.openUp e.2.owner else s) s
  let ds := ((s.zne.jobs.filter fun e => e.2.kind = .rebuild).map fun e => blkDie e.2.old).eraseDups
  let s := ds.foldl (fun s d => s.setFld (F.ZNE_DHS_REBUILD d) 1) s
  (s.showSegs.reapStage).showDirty.showMedia

/-- Dies recorded as Retired or Failed are restored through ZNE_DIECMD, which posts their events again (R143). -/
def State.restoreDies (s : State) : State :=
  s.zne.deadRec.foldl (fun (s : State) e =>
    if s.fld (F.ZNE_DHS_STATE e.1) = e.2 then s
    else
      let s := s.setFld (F.ZNE_DHS_STATE e.1) e.2
      if e.2 = 2 then s.znePost 0x0306 [(11, e.1)] else s.znePost 0x0307 [(11, e.1), (8, 2)]) s

/-- Events Sprout could not post: a slot that failed, with the fallback taken, and an abandoned pending slot (R324, R334). -/
def State.bootEvents (s : State) : State :=
  let fail := fun (s : State) (k : Nat) (f : Fld) => if s.fld f = 0 then s else s.secPost 0x070A [(8, k), (8, s.fld f)]
  let s := fail (fail s 0 F.SEC_BOOTSTAT_AFAIL) 1 F.SEC_BOOTSTAT_BFAIL
  if s.flag F.SEC_BOOTSTAT_REVERT then
    s.secPost 0x070B [(8, 1 - s.activeSlot), (32, s.activeSeq)]
  else s

/-! ### The start-up -/

/-- Clocks, the recorder, MRAM's self-test, DRAM, the hold-up test (R15, R336, R352, R377, R399). -/
def State.startBase (s : State) (x : StartIn) : State :=
  let s := { s with cores := { s.cores with halted := 0 } }
  let isl := ((List.range 176).filter fun i => i != 0)
  let s := isl.foldl (fun s i => s.usePll i) s
  let s := ([0, 1, 2, 3].filter (bit x.banks.toNat)).foldl (fun s b => s.bankFail b 2) s.loadSeq.bootEvents
  let s := (s.dmcCfgWrite 0 (x.dmc0.toNat + 2 ^ 31)).dmcCfgWrite 1 (x.dmc1.toNat + 2 ^ 31)
  (s.hucfgWrite x.hucfg.toNat).writeBases.restoreSaved

/-- The controllers whose CC.EN was set while the device started become ready, once the Husk has been replayed (R133, R285); a master reports its enumeration and a member
its READY (R385, R386). -/
def State.readyAll (s : State) : State :=
  let s := if s.zne.husk.replayed then s.fnsReady else s
  ((s.bt fun b => { b with started := true }).confirmTrial.reportEnum).reportReady false

/-- Start-up without a geometry: ZNE_GEOM stays unlocked, with what the dies show, there is no Husk to replay, and the controllers become
ready (R221, R234). -/
def State.startBare (s : State) (geom : Option Nat) : State :=
  let s := s.hk fun h => { h with replayed := true }
  (match geom with
    | some g => s.geomWrite g
    | none => s).readyAll

/-- Firmware closes slot 144 before it sets LOCK (R172): it has loaded the model table the slot names (R169), and its close takes
effect under R168. The contents of the table and of the coefficient registers are what they hold (DESIGN CHOICE, assumption 68). -/
def State.closeThermal (s : State) : State :=
  if s.lpeState 144 = 1 then s
  else
    let m := s.fld (F.LPE_FFG_MODEL 144)
    let loaded := s.fld F.LPE_MODELV_LOADED
    let s := s.setFld F.LPE_MODELV_LOADED (if bit loaded m || decide (17 < m) then loaded else loaded + 2 ^ m)
    (s.slotCmd 144 2).applyCmd 144

/-- Firmware copies the selected record, with its read-offset table, to the region at ZNE_PROFBASE (R225). -/
def State.copyProfile (s : State) (r : Nat) : State :=
  s.store (s.fld F.ZNE_PROFBASE_BASE * 2 ^ 21)
    (Memory.readBytes s.mem r (min 0x200000 (max 128 (s.prof r 76 4 + 4 * (s.prof r 62 1 + 1)))))

/-- Every segment's VALID is rebuilt from the restored page map (R182). -/
def State.countValid (s : State) : State :=
  s.zn fun z => { z with slc := z.slc.map fun e =>
    (e.1, { e.2 with valid := sumBy (fun c => (c.2.map.filter fun x => (x.2.place.map (· / s.segCws)) == some e.1).length) z.conv }) }

/-- Start-up on the formed geometry g, whose profile is record r (R225 to R228, R241, R303, R312). -/
def State.startFormed (s : State) (x : StartIn) (r g slot : Nat) : State :=
  let dirty := s.zne.ledger.map fun e => e.2.blk
  let s := (s.geomWrite g).restoreDies
  let s := match s.bundleEntry slot s.zne.profile.name with
    | some d => (s.setRates r d (s.fld F.ZNE_GEOM_DPC)).loadAll slot d
    | none => ((List.range 2048).filter s.populated).foldl (fun s d => s.dieDead d 3 2) s
  let s := (((s.ledgerRecovery x.ledgerLost).reconcile).copyProfile r).closeThermal.geomWrite (g + 2 ^ 31)
  let s := s.countValid
  let good := s.matching slot r x.ids
  let gone := (List.range 2048).filter fun d => s.populated d && !good.contains d && !s.deadDie d
  let s := s.restoreCounts.recoverKeys
  let s := gone.foldl (fun s d => s.dieDead d 3 4) s
  -- a channel that fails PHY training takes its dies with it (R142)
  let s := ((List.range 2048).filter fun d => s.populated d && x.phy.any fun n => n.val == d / 16).foldl (fun s d => s.dieDead d 3 3) s
  let js := Tab.keys (Tab.keep s.zne.jobs fun _ j => decide (j.kind = .rebuild))
  let s := js.foldl (fun s j => s.resumeRebuild x.cls dirty j) s
  let ps := (Tab.keys s.zne.zones).filter fun z => (s.zone z).zs = .pending
  (ps.foldl (fun s z => s.allocPending z) s).resumeErases.readyAll

/-- A formation recorded before step 3 of R52 ran goes on there: every namespace is destroyed. -/
def State.startForm (s : State) (x : StartIn) (r slot : Nat) : State :=
  let s := if s.hif.nss.isEmpty then s else s.recoverKeys.destroyAll
  let g := s.geomOf r (popOf x.ids)
  let good := s.matching slot r x.ids
  let (c, d) := popOf x.ids
  let gone := (List.range 2048).filter fun n => decide (n / 16 < c) && decide (n % 16 < d) && !good.contains n
  let s := gone.foldl (fun s n => s.failDie n 4) s.restoreDies
  match s.form r x.ids x.factory with
  | (some s, _) => s.startFormed x r g slot
  | (none, s) => s.startBare (some g)

/-- START_UP with the profile it selected: a formation that was asked for, else the formed geometry. -/
def State.startProfile (s : State) (x : StartIn) (slot : Nat) (profile : Option Nat) : State :=
  match profile with
  | none => s.startBare none
  | some r =>
    if s.hif.formReq then s.startForm x r slot
    else match s.boot.formed with
      | some g => (s.loadProfile r).startFormed x r g slot
      | none => s.startBare (some (s.geomOf r (popOf x.ids)))

/-- START_UP with the bundle entry of the all-zero PROFILE, which identifies the dies (R221). -/
def State.startEntry (s : State) (x : StartIn) (slot : Nat) (entry : Option Nat) : State :=
  match entry with
  | none => (s.znePost 0x040B [(16, 0), (8, 2)]).startBare none
  | some d =>
    let p := (s.identifyDies slot d (popOf x.ids).1).selectProfile slot x.ids
    p.2.startProfile x slot p.1

/-- START_UP (R365): on the recovery path, and before a sequence or reset that runs has ended, there is none. -/
def execStartUp (x : StartIn) (s : State) : Host.Outcome State Fault Refusal :=
  if s.recovery ∨ s.boot.started = true ∨ s.power.loss.isSome = true then .next s
  else
    let s := s.startBase x
    let slot := s.fld F.SEC_BOOTSTAT_SLOT
    .next (s.startEntry x slot (s.bundleEntry slot 0))

end Sys2Proof.Machine
end

