-- ==== Sys2Proof/Machine/Spdm.lean ====
section
/-! DEFINITION. The SPDM responder (R328 to R333), SLH-DSA signatures held for requesters (R332), and IDE key management (R265). The
codes of messages, errors, capabilities and algorithms are those of DMTF DSP0274 1.2, which R330 names (assumption 26). -/

namespace Sys2Proof.Machine

/-- The number of a requester endpoint. -/
def epKey (e : EpId) : Nat := e.1.val * 256 + e.2.toNat

/-- A requester the responder has not heard of. -/
def SpdmEp.fresh : SpdmEp := ⟨0, [], [], 0⟩

/-- A requester endpoint's state. -/
def State.ep (s : State) (e : EpId) : SpdmEp := Tab.getD s.boot.eps (epKey e) SpdmEp.fresh

/-- Change a requester endpoint's state. -/
def State.modEp (s : State) (e : EpId) (f : SpdmEp → SpdmEp) : State :=
  s.bt fun b => { b with eps := Tab.modify b.eps (epKey e) SpdmEp.fresh f }

/-- SPDM response codes. -/
inductive SpdmRsp | version | capabilities | algorithms | digests | certificate | challengeAuth | measurements | vendor | keyExchange
  | finish | endSession | error
  deriving DecidableEq, Repr

/-- The code byte of a response. -/
def SpdmRsp.code : SpdmRsp → Nat
  | .version => 0x04
  | .capabilities => 0x61
  | .algorithms => 0x63
  | .digests => 0x01
  | .certificate => 0x02
  | .challengeAuth => 0x03
  | .measurements => 0x60
  | .vendor => 0x7E
  | .keyExchange => 0x64
  | .finish => 0x65
  | .endSession => 0x6C
  | .error => 0x7F

/-- Answer a requester; on I3C an in-band interrupt is pending (R394). -/
def State.spdm (s : State) (e : EpId) (r : SpdmRsp) (p1 p2 : Nat) (data : List Byte) : State :=
  let s := s.bt fun b => { b with msgs := b.msgs ++ [⟨epKey e, r.code, p1, p2, data⟩] }
  if e.1.val = 2 ∧ s.fld F.MGT_MBSTAT_MODE = 1 then { s with casc := { s.casc with ibi := true } } else s

/-- ERROR InvalidRequest. -/
def State.spdmInvalid (s : State) (e : EpId) : State := s.spdm e .error 0x01 0 []

/-- ERROR UnexpectedRequest. -/
def State.spdmUnexpected (s : State) (e : EpId) : State := s.spdm e .error 0x04 0 []

/-- ERROR UnsupportedRequest. -/
def State.spdmUnsupported (s : State) (e : EpId) : State := s.spdm e .error 0x07 0 []

/-- The responder hears an endpoint: over PCIe while the port's link is up, which it is not in recovery; over the management bus
always (R330, R333). -/
def State.hears (s : State) (e : EpId) : Bool :=
  s.power.loss.isNone && (decide (2 ≤ e.1.val) || (!s.recovery && s.flag (F.HIF_PORTSTAT_LINKUP e.1.val)))

/-- A request that needs negotiated algorithms. -/
def State.negotiated (s : State) (e : EpId) (f : State → State) : Host.Outcome State Fault Refusal :=
  if s.hears e = false then .next s
  else if (s.ep e).stage < 3 then .next (s.spdmUnexpected e)
  else .next (f s)

/-! ### Connection (R330) -/

/-- GET_VERSION: 1.2, with the connection starting anew. -/
def execGetVersion (e : EpId) (s : State) : Host.Outcome State Fault Refusal :=
  if s.hears e = false then .next s
  else .next ((s.modEp e fun x => { x with stage := 1, sessions := [] }).spdm e .version 0 0 (leBytes 1 1 ++ leBytes 2 0x1200))

/-- Capability flags: CERT, CHAL, MEAS with signature, ENCRYPT, MAC, KEY_EX. -/
def spdmCaps : Nat := 2 ^ 1 + 2 ^ 2 + 2 * 2 ^ 3 + 2 ^ 6 + 2 ^ 7 + 2 ^ 9

/-- GET_CAPABILITIES. -/
def execGetCapabilities (e : EpId) (s : State) : Host.Outcome State Fault Refusal :=
  if s.hears e = false then .next s
  else if (s.ep e).stage = 0 then .next (s.spdmUnexpected e)
  else .next ((s.modEp e fun x => { x with stage := 2 }).spdm e .capabilities 0 0
    (leBytes 4 spdmCaps ++ leBytes 4 4608 ++ leBytes 4 4608))

/-- NEGOTIATE_ALGORITHMS: RSASSA-PSS 3072, SHA-384, measurement hash SHA-384, secp384r1, AES-256-GCM, SPDM key schedule; a requester
that offers neither of the first two gets an error. -/
def execNegotiateAlgorithms (e : EpId) (asym hash : W32) (s : State) : Host.Outcome State Fault Refusal :=
  if s.hears e = false then .next s
  else if (s.ep e).stage < 2 then .next (s.spdmUnexpected e)
  else if bit asym.toNat 3 = false ∨ bit hash.toNat 1 = false then .next (s.spdmInvalid e)
  else .next ((s.modEp e fun x => { x with stage := 3 }).spdm e .algorithms 0 0
    (leBytes 4 (2 ^ 3) ++ leBytes 4 (2 ^ 1) ++ leBytes 4 (2 ^ 2) ++ leBytes 2 (2 ^ 4) ++ leBytes 2 (2 ^ 1) ++ leBytes 2 1))

/-! ### Certificates (R330, R331) -/

/-- GET_DIGESTS: the digests of the chains in slots 0 and 1. -/
def execGetDigests (e : EpId) (s : State) : Host.Outcome State Fault Refusal :=
  s.negotiated e fun s => s.spdm e .digests 0 3
    (leBytes 48 (sha384 (Config.certChain 0)).toNat ++ leBytes 48 (sha384 (Config.certChain 1)).toNat)

/-- GET_CERTIFICATE: bytes of a chain from an offset, with what is left of it in p2; slots 2 to 7 are empty. -/
def execGetCertificate (e : EpId) (slot : Fin 8) (off len : BitVec 16) (s : State) : Host.Outcome State Fault Refusal :=
  s.negotiated e fun s =>
    let c := Config.certChain slot.val
    if 2 ≤ slot.val ∨ c.length ≤ off.toNat then s.spdmInvalid e
    else
      let n := min len.toNat (min 4600 (c.length - off.toNat))
      s.spdm e .certificate slot.val (c.length - off.toNat - n) ((c.drop off.toNat).take n)

/-! ### Signatures (R331, R332) -/

/-- Keep an SLH-DSA signature started for an endpoint: its 2 latest, for the 16 endpoints last used. -/
def State.startSlh (s : State) (e : EpId) (hash : Nat) : State :=
  let s := s.modEp e fun x => { x with sigs := (⟨hash, false, s.now⟩ :: x.sigs).take 2, used := s.now }
  let holders := Tab.keep s.boot.eps fun _ x => !x.sigs.isEmpty
  if holders.length ≤ 16 then s
  else
    match minBy (fun x => x.2.used) (holders.filter fun x => x.1 != epKey e) with
    | some (k, _) => s.bt fun b => { b with eps := Tab.adjust b.eps k fun x => { x with sigs := [] } }
    | none => s

/-- CHALLENGE: answered with CHALLENGE_AUTH, RSA-signed over the transcript hash, and an SLH-DSA signature over the same starts. Slot
0 holds the chain of the RSA key. -/
def execChallenge (e : EpId) (slot : Fin 8) (hash : BitVec 384) (s : State) : Host.Outcome State Fault Refusal :=
  s.negotiated e fun s =>
    if slot.val ≠ 0 then s.spdmInvalid e
    else (s.startSlh e hash.toNat).spdm e .challengeAuth 0 1
      (leBytes 48 (sha384 (Config.certChain 0)).toNat ++ takePad 384 (Config.signature 0 hash.toNat))

/-- Value types of the measurement indices (R328): bit 7 marks a raw value. -/
def measType (i : Nat) : Nat :=
  match i with
  | 1 => 0
  | 2 => 2
  | 3 => 3
  | 7 => 3
  | 8 => 3
  | 9 => 0x85
  | 10 => 0x87
  | 11 => 0x86
  | _ => 1

/-- A measurement block. -/
def measBlock (i : Nat) (v : List Byte) : List Byte :=
  leBytes 1 i ++ leBytes 1 1 ++ leBytes 2 (v.length + 3) ++ leBytes 1 (measType i) ++ leBytes 2 v.length ++ v

/-- GET_MEASUREMENTS: the number of blocks (index 0), every block (0xFF) or one; with a signature where one is asked for (R328, R329,
R332). -/
def execGetMeasurements (e : EpId) (index : BitVec 8) (sign : Bool) (hash : BitVec 384) (s : State) :
    Host.Outcome State Fault Refusal :=
  s.negotiated e fun s =>
    let ms := if index.toNat = 0xFF then s.boot.meas else s.boot.meas.filter fun m => m.1 == index.toNat
    let n := if index = 0 then s.boot.meas.length else ms.length
    if index.toNat ≠ 0 ∧ ms.isEmpty = true then s.spdmInvalid e
    else
      let data := (ms.map fun m => measBlock m.1 m.2).flatten
      if sign then
        (s.startSlh e hash.toNat).spdm e .measurements n 0 (data ++ takePad 384 (Config.signature 0 hash.toNat))
      else s.spdm e .measurements n 0 data

/-- SLH_DSA_SIGN_DONE: the oldest signature under way for an endpoint is complete. -/
def execSlhDsaSignDone (e : EpId) (s : State) : Host.Outcome State Fault Refusal :=
  let sigs := (s.ep e).sigs
  match (sigs.filter fun x => !x.done).getLast? with
  | none => .next s
  | some x => .next (s.modEp e fun y => { y with sigs := sigs.map fun z => if z = x then { z with done := true } else z })

/-- Bytes of a signature. -/
def slhBytes : Nat := 16224

/-- SLH_DSA_SIGNATURE_REQUEST: part of a held signature, or STATUS 1 to 3 (R332). -/
def execSlhDsaSignatureRequest (e : EpId) (op : BitVec 16) (off len : W32) (hash : BitVec 384) (s : State) :
    Host.Outcome State Fault Refusal :=
  s.negotiated e fun s =>
    let rsp := fun (s : State) (st : Nat) (sig : List Byte) => s.spdm e .vendor st 0
      (leBytes 2 0x8001 ++ leBytes 2 st ++ leBytes 4 slhBytes ++ leBytes 4 off.toNat ++ leBytes 4 sig.length ++
       leBytes 48 hash.toNat ++ sig)
    if op.toNat ≠ 1 ∨ len.toNat = 0 ∨ 4096 < len.toNat ∨ slhBytes ≤ off.toNat then rsp s 3 []
    else
      match (s.ep e).sigs.find? fun x => x.hash == hash.toNat with
      | none => rsp s 2 []
      | some x =>
        let s := s.modEp e fun y => { y with used := s.now }
        if x.done = false then rsp s 1 []
        else rsp s 0 (((takePad slhBytes (Config.signature 1 x.hash)).drop off.toNat).take len.toNat)

/-! ### Secured sessions and IDE (R265, R330) -/

/-- KEY_EXCHANGE: a secured session starts, on PCIe VDM only. -/
def execKeyExchange (e : EpId) (hash : BitVec 384) (s : State) : Host.Outcome State Fault Refusal :=
  s.negotiated e fun s =>
    if 2 ≤ e.1.val then s.spdmUnsupported e
    else
      let k := s.boot.nextSession
      let s := (s.bt fun b => { b with nextSession := k + 1 }).modEp e fun x => { x with sessions := Tab.set x.sessions k false }
      s.spdm e .keyExchange k 0 (takePad 384 (Config.signature 0 hash.toNat))

/-- FINISH: the handshake of a session is complete. -/
def execFinish (e : EpId) (session : W32) (s : State) : Host.Outcome State Fault Refusal :=
  s.negotiated e fun s =>
    match Tab.find (s.ep e).sessions session.toNat with
    | some false => (s.modEp e fun x => { x with sessions := Tab.set x.sessions session.toNat true }).spdm e .finish session.toNat 0 []
    | _ => s.spdmUnexpected e

/-- END_SESSION: a session ends. -/
def execEndSession (e : EpId) (session : W32) (s : State) : Host.Outcome State Fault Refusal :=
  s.negotiated e fun s =>
    match Tab.find (s.ep e).sessions session.toNat with
    | some _ => (s.modEp e fun x => { x with sessions := Tab.erase x.sessions session.toNat }).spdm e .endSession session.toNat 0 []
    | none => s.spdmUnexpected e

/-- Where HIF holds a key of a stream: key set, sub-stream (0 posted, 1 non-posted, 2 completions), direction. -/
def ideKey (stream set sub dir : Nat) : Nat := stream * 16 + set * 8 + sub * 2 + dir

/-- IDE_KM_KEY_PROGRAM: in a finished session of the port's own PF endpoint, the keys of a key set of a stream are programmed for every
sub-stream and direction, and the stream started: it is Secure (R265, R266). -/
def execIdeKmKeyProgram (p : Port) (eid : BitVec 8) (session : W32) (stream : Fin 8) (set : Fin 2) (keys : Vector (BitVec 256) 6)
    (s : State) : Host.Outcome State Fault Refusal :=
  let e : EpId := (⟨p.val, by omega⟩, eid)
  if s.hears e = false ∨ Tab.find (s.ep e).sessions session.toNat ≠ some true then .next s
  else
    let put := fun (t : Tab Nat) (i : Fin 6) => Tab.set t (ideKey stream.val set.val (i.val / 2) (i.val % 2)) keys[i].toNat
    let s := s.modPort p.val fun x => { x with streams := (List.finRange 6).foldl put x.streams }
    .next (s.setFld (F.HIF_IDESTAT_SECURE p.val) (setBit (s.fld (F.HIF_IDESTAT_SECURE p.val)) stream.val))

end Sys2Proof.Machine
end

