-- ==== Sys2Proof/Machine/Cascade.lean ====
section
/-! DEFINITION. The cascade: Vukoro links (R382 to R384), enumeration and the member list (R385, R386), common time (R387),
forwarded commands (R388 to R391), lost and orphaned nodes (R392, R393). Port 0 is VUK0 and port 1 VUK1. -/

namespace Sys2Proof.Machine

/-! ### Links (R382 to R384) -/

/-- A Vukoro port whose PHY is in reset. -/
def VukPort.fresh : VukPort := ⟨.reset, 0, 0, 0, 0, 0, 0⟩

/-- A Vukoro port. -/
def State.vp (s : State) (v : Nat) : VukPort := Tab.getD s.casc.ports v VukPort.fresh

/-- Change a Vukoro port. -/
def State.modVp (s : State) (v : Nat) (f : VukPort → VukPort) : State :=
  s.cs fun c => { c with ports := Tab.modify c.ports v VukPort.fresh f }

/-- A Vukoro port's island posts an event. -/
def State.vukPost (s : State) (v id : Nat) (items : List (Nat × Nat)) : State := s.post (0x0E + v) id items

/-- This node is a master or a member (R380). -/
def State.inCascade (s : State) : Bool := s.isMaster || s.isMember

/-- Event 0x0A01: a link came up or went down. -/
def State.vukEvent (s : State) (v : Nat) : State :=
  s.vukPost v 0x0A01 [(8, v), (4, s.fld (F.VUK_LINKSTAT_WIDTH v)), (2, s.fld (F.VUK_LINKSTAT_PEERNODE v))]

/-- Begin an attempt to train. -/
def State.vukTrain (s : State) (v : Nat) : State := s.modVp v fun x => { x with st := .training, since := s.now }

/-! ### Paths (R388, R389) -/

/-- Change what is known of a node. -/
def State.modNode (s : State) (n : Nat) (f : Node → Node) : State :=
  s.cs fun c => { c with nodes := Tab.modify c.nodes n Node.unknown f }

/-- Send a node's outstanding admin commands again. -/
def State.resendAdm (s : State) (n : Nat) : State :=
  (s.casc.adm.filter fun e => e.2.node == n).foldl (fun s e => s.sendAdmin n e.1 e.2.sqe (s.fnTen e.2.fn)) s

/-- Send a node's outstanding forwarded commands again over direction d: event 0x0A07, and VUK_REROUTE counts them (R389). -/
def State.resend (s : State) (n d : Nat) (tags : List (Nat × Fwd)) : State :=
  let s := tags.foldl (fun (s : State) e =>
    let s := (s.cs fun c => { c with fwd := Tab.set c.fwd e.1 { e.2 with dir := d } }).bump F.VUK_REROUTE_COUNT
    match s.slot e.2.slot with
    | some x => s.sendVuk (dirPort d) .command e.1 n (leBytes 1 x.ten ++ x.sqe.wire)
    | none => s) s
  let s := s.resendAdm n
  if tags.isEmpty then s else s.post 0x0E 0x0A07 [(2, n), (16, tags.length)]

/-- The path to a node in direction d failed: its outstanding commands go the other way, or wait while there is none. A member cut
off from the master notes since when. -/
def State.pathFail (s : State) (n d : Nat) : State :=
  let x := s.node n
  if bit x.reach d = false then s
  else
    let left := clrBit x.reach d
    let s := s.modNode n fun y => { y with reach := left, since := if left = 0 then s.now else y.since }
    let tags := s.casc.fwd.filter fun e => e.2.node == n && e.2.dir == d
    if left = 0 then
      let s := s.cs fun c => { c with fwd := c.fwd.map fun e =>
        (e.1, if e.2.node = n ∧ e.2.dir = d then { e.2 with dir := 2 } else e.2) }
      if s.isMember ∧ n = 0 then s.cs fun c => { c with cutSince := some s.now } else s
    else s.resend n (1 - d) tags

/-- Commands that waited for a path to a node go on when there is one again. -/
def State.pathBack (s : State) (n : Nat) : State :=
  match s.fwdDir n with
  | none => s
  | some d =>
    let tags := s.casc.fwd.filter fun e => e.2.node == n && !bit (s.node n).reach e.2.dir
    if tags.isEmpty then s.resendAdm n else s.resend n d tags

/-- A Vukoro link is down: its status clears, and every path through it fails (R383, R389). -/
def State.vukDown (s : State) (v : Nat) : State :=
  let was := s.flag (F.VUK_LINKSTAT_UP v)
  let d := 1 - v
  let peer := s.fld (F.VUK_LINKSTAT_PEERNODE v)
  let s := ((s.setFld (F.VUK_LINKSTAT_UP v) 0).setFld (F.VUK_LINKSTAT_SECURE v) 0).setFld (F.VUK_LINKSTAT_WIDTH v) 0
  let s := (s.setFld (F.VUK_LINKSTAT_PEER v) 0).setFld (F.VUK_LINKSTAT_PEERNODE v) 0
  if was = false then s
  else
    let s := s.vukPost v 0x0A01 [(8, v), (4, 0), (2, peer)]
    (Tab.keys s.casc.nodes).foldl (fun s n => s.pathFail n d) s

/-- A write of VUK_LINKCFG: W4OK unless LTEN is 1, and LTEN unless the island runs from RC. LTEN releases the PHY and starts training,
but on a single device, whose ports stay in reset (R380); it is ignored while the PHY's rail is outside its window (R429). LTEN = 0
puts it back in reset (R383). -/
def State.vukLinkCfg (s : State) (v w : Nat) : State :=
  let was := s.flag (F.VUK_LINKCFG_LTEN v)
  let s := if was then s else s.setFld (F.VUK_LINKCFG_W4OK v) (w / 2 % 2)
  if s.flag (F.ISL_CLKSTAT_SRCACT (0x0E + v)) = false ∨ was = bit w 0 then s
  else if bit w 0 then
    if s.inCascade = false then s.setFld (F.VUK_LINKCFG_LTEN v) 1
    else if s.railOk 6 then (s.setFld (F.VUK_LINKCFG_LTEN v) 1).vukTrain v
    else s
  else ((s.setFld (F.VUK_LINKCFG_LTEN v) 0).vukDown v).modVp v fun _ => VukPort.fresh

/-- VUK_LINK_ENABLE: LTEN is written 1, with W4OK beside it (R383). -/
def execVukLinkEnable (v : Fin 2) (w4ok : Bool) (s : State) : Host.Outcome State Fault Refusal :=
  .next (s.vukLinkCfg v.val (1 + b2n w4ok * 2))

/-- VUK_TRAINING_RETRY: 100 ms after a failed attempt, or 1 s after an authentication failure, the port trains again. -/
def execVukTrainingRetry (v : Fin 2) (s : State) : Host.Outcome State Fault Refusal :=
  let x := s.vp v.val
  let wait := if x.st = .retry then 1000000000 else 100000000
  if (x.st = .training ∨ x.st = .hello ∨ x.st = .retry) ∧ x.since + wait ≤ s.now then .next (s.vukTrain v.val) else .next s

/-- HELLO: the two ends of a trained link exchange role, node ID, cascade ID and serial number (R383). `lanes4` names the failed lanes
of a link trained on lanes 0 to 3 (R382). -/
def execHello (v : Fin 2) (peerMaster : Bool) (node : Fin 4) (casc serial : W64) (lanes4 : Option (BitVec 8)) (s : State) :
    Host.Outcome State Fault Refusal :=
  let x := s.vp v.val
  if x.st ≠ .training ∨ (lanes4.isSome = true ∧ s.flag (F.VUK_LINKCFG_W4OK v.val) = false) then .next s
  else
    let s := s.modVp v.val fun y => { y with st := .hello, peerCasc := casc.toNat, peerSerial := serial.toNat }
    let s := (s.setFld (F.VUK_LINKSTAT_PEER v.val) (if peerMaster then 1 else 2)).setFld (F.VUK_LINKSTAT_PEERNODE v.val) node.val
    let s := s.sendVuk v.val .hello (s.fld F.VUK_CASC_ROLE + s.ownNode * 4) s.casc.id (leBytes 8 Config.serial)
    match lanes4 with
    | some l => .next ((s.setFld (F.VUK_LINKSTAT_WIDTH v.val) 4).vukPost v.val 0x0A02 [(8, v.val), (8, l.toNat)])
    | none => .next (s.setFld (F.VUK_LINKSTAT_WIDTH v.val) 8)

/-- The master sends ENUM on each link that is up, with its cascade ID and nobody's claim (R385, R386). -/
def State.enumerate (s : State) : State :=
  if s.isMaster then (s.setFld F.VUK_CASC_RING 0).sendBoth .enum s.casc.id 0 else s

/-- LINK_AUTHENTICATION: the SECs of both ends check each other's chains and derive the link keys, and the link is up; a failed check
keeps it down (R384). The master enumerates; a member reports its new link (RE_ENUMERATION). -/
def execLinkAuthentication (v : Fin 2) (ok : Bool) (s : State) : Host.Outcome State Fault Refusal :=
  let x := s.vp v.val
  if x.st ≠ .hello then .next s
  else if ok then
    let s := (s.setFld (F.VUK_LINKSTAT_UP v.val) 1).setFld (F.VUK_LINKSTAT_SECURE v.val) 1
    let s := s.modVp v.val fun y => { y with st := .up, since := s.now, frames := 0, keyed := s.now, rxSeq := 0 }
    .next ((s.vukEvent v.val).enumerate.reportReady true)
  else
    let s := s.vukDown v.val
    let s := s.modVp v.val fun y => { y with st := .retry, since := s.now }
    .next (s.vukPost v.val 0x0A03 [(8, v.val), (64, x.peerSerial)])

/-- LINK_KEY_RENEWAL: after 2^32 frames or one hour (R384). -/
def execLinkKeyRenewal (v : Fin 2) (s : State) : Host.Outcome State Fault Refusal :=
  let x := s.vp v.val
  if x.st = .up ∧ (2 ^ 32 ≤ x.frames ∨ x.keyed + 3600000000000 ≤ s.now) then
    .next ((s.modVp v.val fun y => { y with frames := 0, keyed := s.now }).sendVuk v.val .keys 0 0)
  else .next s

/-- VUKORO_FRAME: a frame with its FEC outcome (0 clean, 1 corrected, 2 uncorrectable) and its authentication. One that FEC cannot
correct, that fails authentication or is out of sequence is discarded and retransmitted by the link layer (R382, R384). -/
def execVukoroFrame (v : Fin 2) (seq : W32) (fec : Fin 3) (auth : Bool) (s : State) : Host.Outcome State Fault Refusal :=
  let x := s.vp v.val
  if x.st ≠ .up then .next s
  else
    let s := if fec = 1 then s.bump (F.VUK_FECCOR_COUNT v.val) else if fec = 2 then s.bump (F.VUK_FECUNC_COUNT v.val) else s
    if fec = 2 ∨ auth = false ∨ seq.toNat ≠ x.rxSeq then .next s
    else .next (s.modVp v.val fun y => { y with rxSeq := (y.rxSeq + 1) % 2 ^ 32, frames := y.frames + 1 })

/-- VUKORO_LINK_DOWN: a trained link goes down and trains again with no action from firmware (R383). -/
def execVukoroLinkDown (v : Fin 2) (s : State) : Host.Outcome State Fault Refusal :=
  if s.flag (F.VUK_LINKSTAT_UP v.val) = false then .next s else .next ((s.vukDown v.val).vukTrain v.val)

/-- PATH_FAILURE_REROUTE: the path to a node in one direction (0 through VUK1, 1 through VUK0) failed, here or further round the
ring (R389). -/
def execPathFailureReroute (node : Fin 4) (dir : Fin 2) (s : State) : Host.Outcome State Fault Refusal :=
  .next (s.pathFail node.val dir.val)

/-! ### Enumeration (R385, R386) -/

/-- CSTS.CFS is set on each of this node's controllers (R385, R393). -/
def State.setCfs (s : State) : State :=
  s.hf fun h => { h with fns := h.fns.map fun e => (e.1, if e.2.ctl = .disabled then e.2 else { e.2 with cfs := true }) }

/-- The claims an ENUM carries. -/
def claimBytes (cs : List (Nat × Nat)) : List Byte := cs.flatMap fun c => leBytes 1 c.1 ++ leBytes 8 c.2

/-- The node ID a member takes under a cascade ID: its recorded one unless another member holds it, else the lowest free one. -/
def State.enumId (s : State) (id : Nat) (claims : List (Nat × Nat)) : Option Nat :=
  let other := fun (n : Nat) => claims.any fun c => c.1 == n && c.2 != Config.serial
  match if s.casc.id = id then s.casc.record else none with
  | some n => if other n then none else some n
  | none => [1, 2, 3].find? fun n => !other n

/-- A member is admitted with an ID, which it records with the cascade ID; its namespaces follow it. -/
def State.grant (s : State) (v id n : Nat) : State :=
  let old := s.ownNode
  let s := if s.casc.id = id ∧ s.casc.record = some n then s else s.cfgWrite
  let s := s.hf fun h => { h with nss := h.nss.map fun e => (e.1, if e.2.node = old then { e.2 with node := n } else e.2) }
  let s := s.cs fun c => { c with id := id, record := some n, admitted := true, orphan := false, cutSince := none }
  let s := s.setFld F.VUK_CASC_NODE n
  (s.modNode 0 fun x => { x with admitted := true, ready := true, reach := setBit x.reach (1 - v) }).reportReady false

/-- A member is not admitted: event 0x0A06 with the cause (0 no ID free, 1 its ID is held), and CSTS.CFS. -/
def State.notAdmitted (s : State) (v cause : Nat) : State :=
  ((s.cs fun c => { c with admitted := false }).setCfs).post 0x0E 0x0A06 [(8, cause), (64, (s.vp v).peerSerial)]

/-- ENUM: arrives on a port with a cascade ID and the IDs claimed so far, each with the serial number that holds it. -/
def execEnum (v : Fin 2) (id : W64) (claims : List (Fin 4 × W64)) (s : State) : Host.Outcome State Fault Refusal :=
  let cs := claims.map fun c => (c.1.val, c.2.toNat)
  if s.flag (F.VUK_LINKSTAT_UP v.val) = false then .next s
  else if s.isMaster then
    if id.toNat = s.casc.id then .next (s.setFld F.VUK_CASC_RING 1)
    else .next ((s.sendVuk v.val .dupMaster 0 0).vukPost v.val 0x0A05 [(8, v.val), (64, (s.vp v.val).peerSerial)])
  else if s.isMember then
    let o := 1 - v.val
    let pass := fun (s : State) (cs : List (Nat × Nat)) =>
      if s.flag (F.VUK_LINKSTAT_UP o) then s.sendVuk o .enum id.toNat 0 (claimBytes cs) else s
    match s.enumId id.toNat cs with
    | some n => .next (pass (s.grant v.val id.toNat n) (cs.filter (·.1 != n) ++ [(n, Config.serial)]))
    | none =>
      let held : Bool := s.casc.id == id.toNat && s.casc.record.isSome
      .next (pass (s.notAdmitted v.val (b2n held)) cs)
  else .next s

/-- DUPMASTER: the peer is a master too; the link is held down (R385). -/
def execDupmaster (v : Fin 2) (s : State) : Host.Outcome State Fault Refusal :=
  if s.flag (F.VUK_LINKSTAT_UP v.val) = false then .next s
  else
    let p := (s.vp v.val).peerSerial
    let s := (s.vukDown v.val).modVp v.val fun x => { x with st := .held, since := s.now }
    .next (s.vukPost v.val 0x0A05 [(8, v.val), (64, p)])

/-- VUK_CASC shows the nodes known. -/
def State.showNodes (s : State) : State :=
  let live := s.casc.nodes.filter fun e => e.2.admitted && e.1 != s.ownNode
  let joined := live.foldl (fun a e => if e.2.ready && !e.2.lost then setBit a e.1 else a) 1
  let lost := live.foldl (fun a e => if e.2.lost then setBit a e.1 else a) 0
  ((s.setFld F.VUK_CASC_NNODES (1 + live.length)).setFld F.VUK_CASC_JOINED joined).setFld F.VUK_CASC_LOST lost

/-- A node as an enumeration found it. -/
def State.foundNode (s : State) (x : NodeInfo) : State :=
  s.modNode x.node.val fun y => { y with
    serial := x.serial.toNat, hops1 := x.hops1.val, hops0 := x.hops0.val, admitted := true, ready := y.ready || x.ready,
    reach := b2n (x.hops1 != 0) + b2n (x.hops0 != 0) * 2, since := s.now, lost := false }

/-- The zones of a namespace that was lost go Offline in this node's Zone Map (R392). -/
def State.offlineNs (s : State) (nsid : Nat) : State :=
  match (s.nsOfId nsid).bind s.nsAt with
  | some x =>
    let s := s.cs fun c => { c with lostNs := if c.lostNs.contains nsid then c.lostNs else c.lostNs ++ [nsid] }
    if x.conv then s
    else (List.range x.zones).foldl (fun (s : State) k =>
      if (s.zone (x.zbase + k)).zs = .offline then s else (s.offlineZone (x.zbase + k)).zoneAen (x.zbase + k)) s
  | none => s

/-- The list of nodes as it is sent: cascade facts, and the namespaces lost. -/
def State.nodeBytes (s : State) : List Byte :=
  leBytes 2 (s.fld F.VUK_CASC_JOINED + s.fld F.VUK_CASC_NNODES * 16 + s.fld F.VUK_CASC_RING * 128) ++
  s.casc.lostNs.flatMap (leBytes 2)

/-- NODE_LIST: on the master, what its enumeration found, which it sends to every admitted member and reports once its start-up has
run (events 0x0A04 and 0x0A0A), with an ANA Change AEN to controllers whose ANA groups changed (R268, R385); commands that waited for a
path go on. On a member, the list arrives: `nodes` beside it, RING, and the identifiers of lost namespaces (R392). -/
def execNodeList (nodes : List NodeInfo) (ring : Bool) (lost : List (Fin 1024)) (s : State) :
    Host.Outcome State Fault Refusal :=
  let others := nodes.filter fun x => x.node.val != s.ownNode
  if s.isMaster then
    let before := (s.casc.nodes.filter fun e => e.2.admitted).map (·.1)
    let s := others.foldl (fun s x => s.foundNode x) s
    let s := s.cs fun c => { c with mismatch := others.any (·.differs), report := true }
    let s := s.showNodes
    let after := (s.casc.nodes.filter fun e => e.2.admitted).map (·.1)
    let s := if before = after then s
      else (s.hf fun h => { h with devFeats := Tab.set h.devFeats 0xA0C00 (Tab.getD h.devFeats 0xA0C00 0 + 1) }).notify
        (Tab.keys s.hif.fns) 11 (2 + 0x03 * 2 ^ 8 + 0x0C * 2 ^ 16)
    let s := (s.sendBoth .nodeList 0 0 s.nodeBytes).reportEnum
    .next (others.foldl (fun s x => s.pathBack x.node.val) s)
  else if s.isMember && s.casc.admitted then
    let joined := others.foldl (fun a x => if x.ready then setBit a x.node.val else a) (2 ^ s.ownNode)
    let s := (s.setFld F.VUK_CASC_NNODES (1 + others.length)).setFld F.VUK_CASC_RING (b2n ring)
    .next (lost.foldl (fun s k => s.offlineNs (k.val + 1)) (s.setFld F.VUK_CASC_JOINED joined))
  else .next s

/-- MEMBER_READY: a member reports READY, or that one of its links came up, on which the master enumerates again (R386). -/
def execMemberReady (node : Fin 4) (linkUp : Bool) (s : State) : Host.Outcome State Fault Refusal :=
  if s.isMaster = false ∨ (s.node node.val).admitted = false then .next s
  else
    let s := (s.modNode node.val fun x => { x with ready := true }).showNodes
    .next (if linkUp then s.enumerate else s)

/-! ### Common time (R387) -/

/-- CSYNC_PULSE: the master drives CSYNC at a whole second of its timestamp; a member takes the second `sec` whose edge it saw as its
timestamp, within 50 ns. -/
def execCsyncPulse (sec : W32) (err : Fin 101) (s : State) : Host.Outcome State Fault Refusal :=
  if s.isMaster then
    if (s.casc.csync / 1000000000) < s.now / 1000000000 then .next (s.cs fun c => { c with csync := s.now }) else .next s
  else if s.isMember then
    let t := sec.toNat * 1000000000 + err.val - 50
    .next { s with now := t, casc := { s.casc with csync := t } }
  else .next s

/-- TIME_ORDERED_SET: the master sends its timestamp each 1 ms; a member that saw CSYNC within the last 2 s aligns within 50 ns, else
within 1 µs. -/
def execTimeOrderedSet (t : W64) (err : Fin 2001) (s : State) : Host.Outcome State Fault Refusal :=
  if s.isMaster then .next (s.sendBoth .timeSet s.now 0)
  else if s.isMember then
    let synced := s.casc.csync ≠ 0 ∧ s.now ≤ s.casc.csync + 2000000000
    let t := if synced then t.toNat + err.val % 101 - 50 else t.toNat + err.val - 1000
    .next { s with now := t, casc := { s.casc with csync := if synced then t else 0 } }
  else .next s

/-! ### Forwarded commands (R388 to R391) -/

/-- The number a forwarded command is known by: its tag, or for an admin command its own above the tags. -/
def fwdKey (k : FwdKind) (tag : Nat) : Nat := if k = .io then tag else 2 ^ 32 + tag % 65536

/-- Note a forwarded command, dropping the oldest of more than 65,536 (R389). -/
def State.noteTag (s : State) (key : Nat) : State :=
  s.cs fun c =>
    let ts := (c.tags.filter fun t => t.tag != key) ++ [⟨key, none⟩]
    { c with tags := ts.drop (ts.length - 65536) }

/-- A member executes an admin command for the master (R390, R391). -/
def State.memberAdmin (s : State) (e : Sqe) (ten : Nat) (bad : Bool) : State :=
  let k := bits e.cdw10.toNat 0 4
  match e.opc.toNat with
  | 0x09 => s.setFeatures fwdFn e
  | 0x0D => if k = 0 then s.createNs fwdFn e else s.deleteNs fwdFn e
  | 0x10 => s.memberCommit e bad
  | 0x15 => s.attachNs fwdFn e (k = 0)
  | 0x80 => s.formatNvm fwdFn e
  | 0x84 => s.sanitize fwdFn e
  | 0xC0 =>
    match k with
    | 0 | 2 => s.applyDesc fwdFn e e.ten
    | 1 => (s.dropTenancy e.ten).adminDone fwdFn e .success
    | 3 => s.mapVf fwdFn e
    | 4 => s.setRankSets fwdFn e
    | 5 => s.formGeometry fwdFn e
    | _ => s.adminDone fwdFn e .invalidField
  | 0xC4 => s.adminData fwdFn e (s.geometryReport ten) 0 1152
  | _ => s.adminDone fwdFn e .invalidOpcode

/-- Task slot, buffers and hazard entry of a forwarded I/O command; its tag stands for its queue. -/
def State.admitFwd (s : State) (tag ten : Nat) (e : Sqe) (pair : Option Sqe) (n : Nat) (x : Ns) : State :=
  let i := Tab.firstFree s.hif.slots 0
  let opc := e.opc.toNat
  let w := if e.fuse.toNat = 1 then pair else none
  let y : Slot := ⟨fwdFn, tag, ten, e, s.now, false, .admitted, if x.conv then none else s.zoneOf n e.slba, n, e.slba,
    if opc = 0x19 then e.copyLen else e.nlb, [], [], [], none, false, false, s.hif.order, w, none, 0, false, [], [], none⟩
  let s := s.hf fun h => { h with slots := Tab.set h.slots i y, order := h.order + 1 }
  let s := ((s.bump (F.HIF_TUSE_TSU ten)).reserveBufs ten i (buffersFor e w.isSome)).2
  let s := if x.conv then
      let wr : Bool := decide (opc ∈ [0x01, 0x08, 0x09]) || w.isSome
      s.addHazard ⟨i, n, y.hazardRanges, wr, y.order⟩
    else s
  s.pressureStage

/-- A forwarded I/O command: executed under this node's own zone, key and credit rules; while credits lack it is not taken and comes
again (R388). -/
def State.takeFwd (s : State) (tag ten : Nat) (e : Sqe) (pair : Option Sqe) : State :=
  match (s.nsOfId e.nsid.toNat).bind fun n => (s.nsAt n).map fun x => (n, x) with
  | none => (s.noteTag tag).postFwd ⟨fwdFn, tag, e.cid.toNat, .invalidNamespace, 0, 0, [], []⟩
  | some (n, x) =>
    if x.node ≠ s.ownNode ∨ s.casc.lostNs.contains x.nsid = true then
      (s.noteTag tag).postFwd ⟨fwdFn, tag, e.cid.toNat, (s.pathDenies x).getD .internalError, 0, 0, [], []⟩
    else
      let bufs := buffersFor e (e.fuse.toNat = 1)
      if s.creditsFor ten e (some (n, x)) && s.writeCredits ten bufs (if bufs = 0 then none else some x.set) then
        (s.noteTag tag).admitFwd tag ten e pair n x
      else s

/-- FORWARDED_COMMAND: arrives with its tag. One already executed has its recorded completion sent again, one that runs goes on, and one
never received is executed (R388, R389). `bad`: an MRAM read of the slot a commit names is uncorrectable. -/
def execForwardedCommand (k : FwdKind) (tag : W32) (ten : Ten) (e : Sqe) (pair : Option Sqe) (bad : Bool) (s : State) :
    Host.Outcome State Fault Refusal :=
  if s.isMember = false ∨ s.casc.admitted = false ∨ s.boot.started = false ∨ s.noFetch = true then .next s
  else
    let key := fwdKey k tag.toNat
    match if k = .admin then none else s.casc.tags.find? fun t => t.tag == key with
    | some ⟨_, some c⟩ => .next (s.sendBoth .completion key c.answer c.data)
    | some ⟨_, none⟩ => .next s
    | none =>
      if k = .io then .next (s.takeFwd key ten.val e pair)
      else .next ((s.noteTag key).memberAdmin { e with cid := BitVec.ofNat 16 tag.toNat } ten.val bad)

/-- The completion of an admin command that a member carried out. -/
def State.admAnswer (s : State) (a : AdmFwd) (st : Status) (dw0 : Nat) (data : List Byte) : State :=
  if a.sqe.opc.toNat = 0x10 then s.commitAnswered a st
  else
    let s := s.afterAdmin a st
    if a.fn = noFn then s else s.adminDone a.fn a.sqe st dw0 data

/-- FORWARDED_COMPLETION: a member's completion returns, and the receiving node posts the one completion (R388). `admin`: `tag` is an
admin command's number. -/
def execForwardedCompletion (admin : Bool) (tag : W32) (st : Status) (dw0 dw1 : W32) (data : List Byte)
    (blocks : List (W64 × Blk × Hmd)) (s : State) : Host.Outcome State Fault Refusal :=
  if admin then
    let k := tag.toNat % 65536
    match Tab.find s.casc.adm k with
    | some a => .next ((s.cs fun c => { c with adm := Tab.erase c.adm k }).admAnswer a st dw0.toNat data)
    | none => .next s
  else
    match Tab.find s.casc.fwd tag.toNat with
    | some f =>
      let s := s.modSlot f.slot fun x => { x with
        blocks := blocks.foldl (fun t b => Tab.set t b.1.toNat (RBlk.got b.2.1 b.2.2)) x.blocks }
      .next ((s.cs fun c => { c with fwd := Tab.erase c.fwd tag.toNat }).complete f.slot st dw0.toNat dw1.toNat data)
    | none => .next s

/-! ### Losing a node (R392, R393) -/

/-- The master declares a member lost: LOST, its namespaces in the directory, event 0x0A08; what it was still to answer fails. -/
def State.declareLost (s : State) (n : Nat) : State :=
  let ids := (s.hif.nss.filter fun e => e.2.node == n).map (·.2.nsid)
  let new_ := ids.filter fun i => !s.casc.lostNs.contains i
  let s := s.modNode n fun x => { x with lost := true, ready := false }
  let s := (s.cs fun c => { c with lostNs := c.lostNs ++ new_ }).cfgWrite.showNodes
  let s := s.post 0x0E 0x0A08 [(2, n), (16, ids.length)]
  let s := (s.casc.fwd.filter fun e => e.2.node == n).foldl (fun (s : State) e =>
    let st := match (s.slot e.2.slot).bind fun x => s.nsAt x.ns with
      | some x => if x.conv then Status.nsNotReady else .zoneIsOffline
      | none => .memberUnreachable
    s.complete e.2.slot st) s
  (s.casc.adm.filter fun e => e.2.node == n).foldl (fun (s : State) e =>
    (s.cs fun c => { c with adm := Tab.erase c.adm e.1 }).admAnswer e.2
      (if e.2.sqe.opc.toNat = 0x10 then .invalidFirmwareImage else .memberUnreachable) 0 []) s

/-- LOSSTO in ns. -/
def State.lossTime (s : State) : Nat := s.fld F.VUK_CASCCFG_LOSSTO * 1000000

/-- MEMBER_LOSS_TIMEOUT: a member has been reachable no way for LOSSTO ms. -/
def execMemberLossTimeout (node : Fin 4) (s : State) : Host.Outcome State Fault Refusal :=
  let x := s.node node.val
  if s.isMaster = true ∧ node ≠ 0 ∧ x.admitted = true ∧ x.lost = false ∧ x.reach = 0 ∧ x.since + s.lossTime ≤ s.now then
    .next (s.declareLost node.val)
  else .next s

/-- MEMBER_FAULT_REPORT: a member reports a fault that sets its CSTS.CFS. -/
def execMemberFaultReport (node : Fin 4) (s : State) : Host.Outcome State Fault Refusal :=
  let x := s.node node.val
  if s.isMaster = true ∧ node ≠ 0 ∧ x.admitted = true ∧ x.lost = false then .next (s.declareLost node.val) else .next s

/-- The orphaned node goes on: forwarded commands are applied block by block, dirty data is staged, and MRAM sealed once none is
left (R393). -/
def State.orphanStep (s : State) : State :=
  if s.casc.orphan = false ∨ s.mram.isSealed = true ∨ (s.hif.slots.any fun e => !e.2.silent) = true then s
  else
    let s := s.stageAll
    if s.zne.bufs.isEmpty then s.sealAll else s

/-- ORPHAN_TIMEOUT: a member has been cut off from the master both ways for LOSSTO ms: it stops fetching, completes what its own
functions admitted, applies forwarded commands block by block, stages its dirty data, sets CSTS.CFS and posts event 0x0A09. -/
def execOrphanTimeout (s : State) : Host.Outcome State Fault Refusal :=
  match s.casc.cutSince with
  | none => .next s
  | some t =>
    if s.isMember = false ∨ s.casc.orphan = true ∨ s.now < t + s.lossTime then .next s
    else
      let mib := (s.fld F.ZNE_DIRTY_CUR + 255) / 256
      let s := (s.cs fun c => { c with orphan := true, admitted := false }).post 0x0E 0x0A09 [(2, s.ownNode), (16, mib)]
      let s := (s.slotsOf fwdFn).foldl (fun s e => s.endSlotReset e.1) s
      .next s.setCfs.orphanStep

end Sys2Proof.Machine
end

