-- ==== Sys2Proof/Machine/MgmtBus.lean ====
section
/-! DEFINITION. The management bus: I3C and SMBus addressing, MCTP endpoint IDs (R394 to R396), and NVMe-MI over MCTP and in-band
(R275, R333, R396). The layouts of NVMe-MI structures are those of NVMe-MI 1.2, which the spec names without giving them
(assumption 28). -/

namespace Sys2Proof.Machine

/-! ### Addresses (R394, R395) -/

/-- The I3C provisioned ID. -/
def State.provisionedId (s : State) : Nat :=
  Config.mipi.toNat * 2 ^ 33 + 0x7280 * 2 ^ 16 + s.ownNode * 2 ^ 12 + Config.serial % 2 ^ 12

/-- Fix the mode of the bus with an address, event 0x0A0B. -/
def State.fixMode (s : State) (mode addr : Nat) : State :=
  let s := (s.setFld F.MGT_MBSTAT_MODE mode).setFld F.MGT_MBSTAT_ADDR addr
  s.mgtPost 0x0A0B [(2, mode), (7, addr), (8, s.fld F.MGT_MBSTAT_EID)]

/-- An I3C assignment of a dynamic address; a device answers the bus it is not fixed to another protocol of (R394). -/
def State.i3cAssign (s : State) (addr : Nat) : State :=
  if s.flag F.MGT_MBCFG_I3CEN && s.fld F.MGT_MBSTAT_MODE == 0 then s.fixMode 1 addr else s

/-- ENTDAA: the device offers its provisioned ID and is assigned an address. -/
def execEntdaa (addr : BitVec 7) (s : State) : Host.Outcome State Fault Refusal :=
  if s.flag F.MGT_MBCFG_I3CEN && s.fld F.MGT_MBSTAT_MODE == 0 then
    .next ((s.mctp 2 0 s.provisionedId []).i3cAssign addr.toNat)
  else .next s

/-- SETDASA. -/
def execSetdasa (addr : BitVec 7) (s : State) : Host.Outcome State Fault Refusal := .next (s.i3cAssign addr.toNat)

/-- RSTDAA returns MODE to 0; a device fixed to SMBus does not hear it. -/
def execRstdaa (s : State) : Host.Outcome State Fault Refusal :=
  if s.flag F.MGT_MBCFG_I3CEN && s.fld F.MGT_MBSTAT_MODE != 2 then
    .next (((s.setFld F.MGT_MBSTAT_MODE 0).setFld F.MGT_MBSTAT_ADDR 0).cs fun c => { c with ibi := false })
  else .next s

/-- ARP_ASSIGN_ADDRESS: an SMBus ARP Assign Address fixes MODE 2 and sets the address. -/
def execArpAssignAddress (addr : BitVec 7) (s : State) : Host.Outcome State Fault Refusal :=
  if s.flag F.MGT_MBCFG_SMBEN && s.flag F.MGT_MBCFG_ARPEN && s.fld F.MGT_MBSTAT_MODE != 1 then .next (s.fixMode 2 addr.toNat)
  else .next s

/-- SMBUS_TRANSACTION: a transaction addressed to SMBADDR fixes MODE 2. -/
def execSmbusTransaction (s : State) : Host.Outcome State Fault Refusal :=
  if s.flag F.MGT_MBCFG_SMBEN && s.fld F.MGT_MBSTAT_MODE == 0 then .next (s.fixMode 2 (s.fld F.MGT_MBCFG_SMBADDR)) else .next s

/-- A binding carries MCTP packets: 0 and 1 PCIe VDM of a port, 2 I3C, 3 SMBus. -/
def State.bindingUp (s : State) (b : Nat) : Bool :=
  s.power.loss.isNone &&
  (if b < 2 then !s.recovery && s.flag (F.HIF_PORTSTAT_LINKUP b) else s.fld F.MGT_MBSTAT_MODE == b - 1)

/-- SET_ENDPOINT_ID: a binding's bus owner assigns the endpoint ID; 0 and 0xFF are none (PRESUMED, MCTP). -/
def execSetEndpointId (b : Fin 4) (eid : BitVec 8) (s : State) : Host.Outcome State Fault Refusal :=
  if s.bindingUp b.val = false ∨ eid = 0 ∨ eid = 0xFF then .next s
  else
    let s := s.cs fun c => { c with eids := Tab.set c.eids b.val eid.toNat }
    let s := if 2 ≤ b.val then s.setFld F.MGT_MBSTAT_EID eid.toNat else s
    .next (s.mctp b.val 0 eid.toNat [])

/-! ### NVMe-MI (R333, R396) -/

/-- Ports in use, PCIe first; the management bus is the last one. None of the PCIe ports runs in recovery (R333). -/
def State.miPorts (s : State) : List Nat := if s.recovery then [] else [0, 1].filter s.portUsed

/-- Controllers of this node's management endpoint. -/
def State.miCtls (s : State) : List Nat := if s.recovery then [] else s.controllers.map s.cntlid

/-- Port Information of a port. -/
def State.miPort (s : State) (k : Nat) : Option (List Byte) :=
  match s.miPorts[k]? with
  | some p =>
    some (pageOf 32 [(0, 1, 1), (2, 2, 256), (8, 1, 2), (9, 1, 0x3F), (10, 1, s.fld (F.HIF_PORTSTAT_RATE p)),
      (11, 1, s.portWidth p), (12, 1, s.fld (F.HIF_PORTSTAT_WIDTH p)), (13, 1, p)])
  | none =>
    if k = s.miPorts.length then
      some (pageOf 32 [(0, 1, 2), (2, 2, if s.fld F.MGT_MBSTAT_MODE = 1 then 256 else 64),
        (10, 1, s.fld F.MGT_MBSTAT_ADDR * 2), (11, 1, 3)])
    else none

/-- Controller Information of a controller: its port, and its function as a routing ID's low bits. -/
def State.miCtl (s : State) (cid : Nat) : Option (List Byte) :=
  if s.miCtls.contains cid then
    let fn := (cid - 1) % 256
    some (pageOf 32 [(0, 1, fn / 128), (5, 1, 1), (6, 2, fn % 128)])
  else none

/-- Read NVMe-MI Data Structure: 0 subsystem, 1 port, 2 controller list, 3 controller, 4 optional commands; none for another type or
an object that does not exist. -/
def State.miStructure (s : State) (ty port ctl : Nat) : Option (List Byte) :=
  match ty with
  | 0 => some (pageOf 32 [(0, 1, s.miPorts.length), (1, 1, 1), (2, 1, 2)])
  | 1 => s.miPort port
  | 2 =>
    let cs := s.miCtls.filter (ctl ≤ ·)
    some (leBytes 2 cs.length ++ cs.flatMap (leBytes 2))
  | 3 => s.miCtl ctl
  | 4 => some (leBytes 2 0)
  | _ => none

/-- NVM Subsystem Health: Drive Functional is clear in recovery (R333); link activity by port, warnings of every group inverted,
composite temperature in °C, life used. -/
def State.miHealth (s : State) : List Byte :=
  let gs := s.groups
  let w := Nat.lor (gs.foldl (fun a g => Nat.lor a (s.groupWarning g)) 0) (b2n s.tempWarning * 2)
  let used := gs.foldl (fun a g => max a (s.percentUsed g)) 0
  let up := fun (p : Nat) => b2n (s.flag (F.HIF_PORTSTAT_LINKUP p))
  let cfs := s.hif.fns.any fun e => e.2.cfs
  let rdy := s.hif.fns.any fun e => e.2.ctl = .ready
  pageOf 8 [(0, 1, b2n (!s.recovery) * 32 + 16 + up 0 * 8 + up 1 * 4), (1, 1, 255 - w % 256),
    (2, 1, (s.kelvin - 273) % 256), (3, 1, min used 255), (4, 2, b2n rdy + b2n cfs * 2)]

/-- Invalid Parameter, Invalid Command Opcode of NVMe-MI. -/
def miInvalid : Nat := 0x04
@[inherit_doc miInvalid] def miOpcode : Nat := 0x03

/-- READ_NVME_MI_DATA_STRUCTURE over MCTP. -/
def execReadNvmeMiDataStructure (b : Fin 4) (ty port : BitVec 8) (ctl : BitVec 16) (s : State) : Host.Outcome State Fault Refusal :=
  if s.bindingUp b.val = false then .next s
  else
    match s.miStructure ty.toNat port.toNat ctl.toNat with
    | some d => .next (s.mctp b.val 0 d.length d)
    | none => .next (s.mctp b.val miInvalid 0 [])

/-- SUBSYSTEM_HEALTH_STATUS_POLL over MCTP. -/
def execSubsystemHealthStatusPoll (b : Fin 4) (s : State) : Host.Outcome State Fault Refusal :=
  if s.bindingUp b.val = false then .next s else .next (s.mctp b.val 0 8 s.miHealth)

/-- NVME_MI_SEND: opcode in CDW11[7:0]; the device has no management command that sends data, and the tunnelled status says so. -/
def execNvmeMiSend (fn : FnId) (e : Sqe) (s : State) : Host.Outcome State Fault Refusal :=
  s.admin fn.val e ownerCtl fun s => s.adminDone fn.val e .success miOpcode

/-- NVME_MI_RECEIVE: opcode in CDW11[7:0], 0 Read NVMe-MI Data Structure with its type, port and controller in CDW12[31:24], [23:16],
[15:0], 1 NVM Subsystem Health Status Poll; the tunnelled status in DW0. -/
def execNvmeMiReceive (fn : FnId) (e : Sqe) (s : State) : Host.Outcome State Fault Refusal :=
  s.admin fn.val e ownerCtl fun s =>
    let c := e.cdw12.toNat
    match bits e.cdw11.toNat 0 8 with
    | 0 =>
      match s.miStructure (bits c 24 8) (bits c 16 8) (bits c 0 16) with
      | some d => s.adminDone fn.val e .success (d.length * 256) d
      | none => s.adminDone fn.val e .success miInvalid
    | 1 => s.adminDone fn.val e .success 0 s.miHealth
    | _ => s.adminDone fn.val e .success miOpcode

end Sys2Proof.Machine
end

