-- ==== Sys2Proof/Machine/LinkTests.lean ====
section
/-! DEFINITION. Link tests (R295, R412, R413), memory self-test (R415) and the boundary-scan instructions of the TAP (R365, R414). -/

namespace Sys2Proof.Machine

/-! ### Link tests (R412, R413) -/

/-- Lanes a link has. -/
def State.testLanes (s : State) (link : Nat) : Nat :=
  if link < 2 then s.portWidth link else if link = 5 then 10 else 8

/-- The link a test names exists: a PCIe port in use, a Vukoro port of a cascade node, a channel and rank of the geometry, a subchannel. -/
def State.linkExists (s : State) (link inst rank : Nat) : Bool :=
  if link < 2 then s.portUsed link
  else if link < 4 then s.inCascade
  else if link = 4 then decide (inst < s.fld F.ZNE_GEOM_CHANNELS) && decide (rank < s.fld F.ZNE_GEOM_DPC)
  else link == 5 && decide (inst < 4)

/-- A mode that a link allows. -/
def modeAllowed (link mode : Nat) : Bool := if link = 4 then decide (mode ≤ 2) else if link = 5 then mode == 0 else true

/-- Without its link of a Vukoro port, an admitted node would be reachable no way. -/
def State.wouldCut (s : State) (v : Nat) : Bool :=
  s.flag (F.VUK_LINKSTAT_UP v) && s.casc.nodes.any fun e => e.2.admitted && e.2.reach == 2 ^ (1 - v)

/-- Event 0x0B01: a link test started or ended. -/
def State.testEvent (s : State) : State :=
  let t := s.mgt.test
  s.mgtPost 0x0B01 [(8, t.link), (8, t.inst), (8, t.poly + t.mode * 4), (8, t.st.code)]

/-- The test takes its link: a PCIe port once its admitted commands have completed; a Vukoro link goes down; a channel's sequencer
stops. It runs from then on. -/
def State.testBegin (s : State) : State :=
  let t := s.mgt.test
  if t.st ≠ .running ∨ t.begun = true then s
  else if t.link < 2 ∧ (s.hif.slots.any fun e => e.2.fn != fwdFn && e.2.fn / 128 == t.link) = true then s
  else
    let s := if t.link < 2 then (s.linkDown t.link).modPort t.link fun x => { x with training := false }
      else if t.link < 4 then (s.vukDown (t.link - 2)).modVp (t.link - 2) fun x => { x with st := .testing, since := s.now }
      else if t.link = 4 then s.seqStop t.inst
      else s
    s.mg fun m => { m with test := { m.test with begun := true, start := s.now } }

/-- The test's link goes back to its use: a port retrains, which is no surprise link down; a channel's LUN is reset and its sequencer
runs again. -/
def State.testRelease (s : State) : State :=
  let t := s.mgt.test
  if t.begun = false then s
  else if t.link < 2 then s.startTraining t.link
  else if t.link < 4 then
    if s.flag (F.VUK_LINKCFG_LTEN (t.link - 2)) then s.vukTrain (t.link - 2)
    else s.modVp (t.link - 2) fun _ => VukPort.fresh
  else if t.link = 4 then ((s.setFld (F.CH_SEQCTL_STOP t.inst) 0).lunReset (t.inst * 16 + t.rank)).seqRun t.inst
  else s

/-- What the checkers found goes into the lanes of the mask. -/
def State.testLanesIn (s : State) (xs : List LaneIn) : State :=
  let add := fun (t : Tab Lane) (x : LaneIn) =>
    if bit s.mgt.test.lanes x.lane.val then
      let old := Tab.getD t x.lane.val ⟨0, 0, false, false, true⟩
      Tab.set t x.lane.val ⟨x.bits.toNat, x.errors.toNat, x.locked, old.lost, old.never && !x.locked⟩
    else t
  s.mg fun m => { m with test := { m.test with lane := xs.foldl add m.test.lane } }

/-- A test ends: its lanes as found, STATE done, its link released. -/
def State.testEnd (s : State) (xs : List LaneIn) : State :=
  let t := s.mgt.test
  if t.st ≠ .running then s
  else
    let ms := if t.begun then (s.now - t.start) / 1000000 else 0
    let s := s.testLanesIn xs
    let s := (s.mg fun m => { m with test := { m.test with st := .done, elapsed := ms } }).testEvent
    s.testRelease

/-- The report of actions 3 and 4: header and 16 lanes, 272 bytes. -/
def State.testReport (s : State) : List Byte :=
  let t := s.mgt.test
  let ms := if t.st = .running then (if t.begun then (s.now - t.start) / 1000000 else 0) else t.elapsed
  layOut 0 [(0, 1, t.link), (1, 1, t.inst), (2, 1, t.poly + t.mode * 4), (3, 1, t.st.code), (4, 4, ms), (8, 2, t.lanes), (10, 6, 0)] ++
  (List.range 16).flatMap fun l =>
    match Tab.find t.lane l with
    | some x => layOut 0 [(0, 8, x.bits), (8, 4, min x.errors 0xFFFFFFFF),
        (12, 1, b2n x.locked + b2n x.lost * 2 + b2n x.never * 4), (13, 3, 0)]
    | none => leBytes 16 0

/-- Start a test. -/
def State.testStart (s : State) (fn : Nat) (e : Sqe) : State :=
  let c := e.cdw11.toNat
  let d := e.cdw12.toNat
  let link := bits c 0 4
  let inst := bits c 4 8
  let lanes := bits c 16 16
  let mode := bits d 2 2
  let rank := bits d 4 4
  let dur := bits d 16 16
  if s.linkExists link inst rank = false ∨ modeAllowed link mode = false ∨ lanes = 0 ∨ 2 ^ s.testLanes link ≤ lanes ∨
      (link = fn / 128 ∧ dur = 0) then s.adminDone fn e .invalidField
  else if s.mgt.test.st = .running ∨ (2 ≤ link ∧ link < 4 ∧ s.wouldCut (link - 2) = true) then
    s.adminDone fn e .commandSequenceError
  else
    let seed := if e.cdw13 = 0 then 0xFFFFFFFF else e.cdw13.toNat
    let t : LinkTest := ⟨link, if link < 4 then 0 else inst, bits d 0 2, mode, rank, seed, lanes, dur, s.now, 0, .running, false, []⟩
    let t := { t with lane := ((List.range 16).filter (bit lanes)).foldl (fun a l => Tab.set a l ⟨0, 0, false, false, true⟩) [] }
    (((s.adminDone fn e .success).mg fun m => { m with test := t }).testEvent).testBegin

/-- LINK_TEST_START (ACT 2): completes before its link changes state. -/
def execLinkTestStart (fn : FnId) (e : Sqe) (s : State) : Host.Outcome State Fault Refusal :=
  s.admin fn.val (e.withAct 2) ownerCtl fun s => s.testStart fn.val (e.withAct 2)

/-- LINK_TEST_STOP (ACT 3): the test ends, with what the checkers found, and the report is returned. -/
def execLinkTestStop (fn : FnId) (e : Sqe) (lanes : List LaneIn) (s : State) : Host.Outcome State Fault Refusal :=
  s.admin fn.val (e.withAct 3) ownerCtl fun s =>
    let s := s.testEnd lanes
    s.adminData fn.val e s.testReport 0 272

/-- LINK_TEST_STATUS (ACT 4). -/
def execLinkTestStatus (fn : FnId) (e : Sqe) (lanes : List LaneIn) (s : State) : Host.Outcome State Fault Refusal :=
  s.admin fn.val (e.withAct 4) ownerCtl fun s =>
    let s := if s.mgt.test.st = .running then s.testLanesIn lanes else s
    s.adminData fn.val e s.testReport 0 272

/-- LINK_TEST_DURATION_EXPIRY: a duration of 0 runs until action 3. -/
def execLinkTestDurationExpiry (lanes : List LaneIn) (s : State) : Host.Outcome State Fault Refusal :=
  let t := s.mgt.test
  if t.st = .running ∧ t.begun = true ∧ t.duration ≠ 0 ∧ t.start + t.duration * 1000000 ≤ s.now then .next (s.testEnd lanes)
  else .next s

/-- PATTERN_CHECKER_LOST_LOCK: the lane's lost-lock flag is set, with event 0x0B02. -/
def execPatternCheckerLostLock (lane : Fin 16) (s : State) : Host.Outcome State Fault Refusal :=
  let t := s.mgt.test
  if t.st = .running ∧ t.begun = true ∧ bit t.lanes lane.val = true then
    let s := s.mg fun m => { m with test := { m.test with
      lane := Tab.adjust m.test.lane lane.val fun x => { x with locked := false, lost := true } } }
    .next (s.mgtPost 0x0B02 [(8, t.link), (8, t.inst), (8, lane.val)])
  else .next s

/-! ### Memory self-test (R415) -/

/-- The condition under which a memory may be tested. -/
def State.mbistOk (s : State) (q : Requester) (isl mem bank : Nat) : Bool :=
  match mem with
  | 0 | 1 =>
    decide (0x10 ≤ isl) && decide (isl < 0x30) && s.cores.halted.getLsbD (isl - 0x10) &&
    (match q with
      | .core c => c.val != isl - 0x10
      | _ => true)
  | 2 => s.testMode && q == .jtag
  | 3 => !s.flag F.ZNE_GEOM_LOCK
  | 4 => decide (0x30 ≤ isl) && decide (isl < 0xB0) && s.fld (F.CH_SEQSTAT_STATE (isl - 0x30)) == 0
  | 5 => s.fld F.AON_PSSTAT_CUR == 0 && !s.flag F.AON_PSSTAT_BUSY && decide (bank < 24)
  | _ => false

/-- GO is written with ISL, MEM and BANK: the test starts, or is refused. A reserved MEM or BANK leaves the whole write without effect
(R439). -/
def State.mbistGo (s : State) (q : Requester) (isl mem bank : Nat) : State :=
  if 5 < mem ∨ 23 < bank then s
  else
    let s := ((s.setFld F.MGT_MBISTCTL_ISL isl).setFld F.MGT_MBISTCTL_MEM mem).setFld F.MGT_MBISTCTL_BANK bank
    if s.flag F.MGT_MBISTCTL_BUSY || !s.mbistOk q isl mem bank then s.setFld F.MGT_MBISTCTL_REFUSED 1
    else
      let s := ((s.setFld F.MGT_MBISTCTL_REFUSED 0).setFld F.MGT_MBISTCTL_BUSY 1).setFld F.MGT_MBISTCTL_FAIL 0
      { s with mgt := { s.mgt with mbist := some (isl, mem, bank) } }

/-- MBIST_GO. -/
def execMbistGo (q : Requester) (isl : BitVec 8) (mem : BitVec 4) (bank : BitVec 5) (s : State) :
    Host.Outcome State Fault Refusal := .next (s.mbistGo q isl.toNat mem.toNat bank.toNat)

/-- The memory under test ends with zeros and valid check bits. -/
def State.mbistZero (s : State) (isl mem bank : Nat) : State :=
  let clr := fun (a n : Nat) => { s with mem := Memory.clear s.mem a (a + n) }
  match mem with
  | 0 => clr (tcmAddr (isl - 0x10) false 0) 0x10000
  | 1 => clr (tcmAddr (isl - 0x10) true 0) 0x10000
  | 2 => clr 0x10000000 0x800000
  | 3 => { s with fab := { s.fab with staging := [] } }
  | 4 => { s with csr := s.csr.filter fun e => !(decide (R.CH_IMEM (isl - 0x30) 0 ≤ e.1) && decide (e.1 < R.CH_IMEM (isl - 0x30) 4096)) }
  | 5 => clr (retBase bank) 0x10000
  | _ => s

/-- MBIST_DONE: DONE and FAIL with the first failing word's offset, event 0x0B03. -/
def execMbistDone (failAt : Option W32) (s : State) : Host.Outcome State Fault Refusal :=
  match s.mgt.mbist with
  | none => .next s
  | some (isl, mem, bank) =>
    let s := ({ s with mgt := { s.mgt with mbist := none } } : State).mbistZero isl mem bank
    let s := ((s.setFld F.MGT_MBISTCTL_BUSY 0).setFld F.MGT_MBISTCTL_DONE 1).setFld F.MGT_MBISTCTL_FAIL (b2n failAt.isSome)
    let at_ := (failAt.map (·.toNat)).getD 0
    .next ((s.setFld F.MGT_MBISTADDR_ADDR at_).mgtPost 0x0B03 [(8, isl), (4, mem), (1, b2n failAt.isSome), (32, at_)])

/-! ### The TAP (R365, R414) -/

/-- Load an instruction. -/
def State.tapIr (s : State) (op : Nat) : State := s.mg fun m => { m with jtagIr := op }

/-- An instruction of test mode: outside it, it acts as BYPASS, with event 0x0B04. -/
def State.tapTest (s : State) (op : Nat) : State :=
  if s.testMode then s.tapIr op else (s.tapIr 0xFF).mgtPost 0x0B04 [(8, op)]

/-- TAP_RESET: TRST_N resets the TAP only: IDCODE is selected. -/
def execTapReset (s : State) : Host.Outcome State Fault Refusal := .next (s.tapIr 0x01)

/-- The identification register. -/
def idcode : Nat := 2 * 2 ^ 28 + 0x7280 * 2 ^ 12 + Config.jedec.toNat * 2 + 1

/-- IDCODE: the debugger reads the identification register. -/
def execIdcode (s : State) : Host.Outcome State Fault Refusal :=
  .next ((s.tapIr 0x01).answer .jtag (BitVec.ofNat 64 idcode))

/-- SAMPLE_PRELOAD: the boundary register is loaded, and the pins are as the device drives them. -/
def execSamplePreload (v : W64) (s : State) : Host.Outcome State Fault Refusal :=
  .next ((s.tapIr 0x02).mg fun m => { m with bscan := v.toNat })

/-- EXTEST: in test mode the boundary register drives the pins, and `v` is shifted in. -/
def execExtest (v : W64) (s : State) : Host.Outcome State Fault Refusal :=
  let s := s.tapTest 0x00
  .next (if s.testMode then s.mg fun m => { m with bscan := v.toNat } else s)

/-- HIGHZ: in test mode the pins float. -/
def execHighz (s : State) : Host.Outcome State Fault Refusal := .next (s.tapTest 0x03)

/-- CLAMP: in test mode the boundary register holds the pins, and the one-bit bypass register is selected. -/
def execClamp (s : State) : Host.Outcome State Fault Refusal := .next (s.tapTest 0x04)

/-- EXTEST_PULSE on AC-coupled pairs, in test mode (IEEE 1149.6). -/
def execExtestPulse (s : State) : Host.Outcome State Fault Refusal := .next (s.tapTest 0x05)

/-- EXTEST_TRAIN on AC-coupled pairs, in test mode (IEEE 1149.6). -/
def execExtestTrain (s : State) : Host.Outcome State Fault Refusal := .next (s.tapTest 0x06)

/-- BYPASS. -/
def execBypass (s : State) : Host.Outcome State Fault Refusal := .next (s.tapIr 0xFF)

end Sys2Proof.Machine
end

