-- ==== Sys2Proof/Machine/Registers.lean ====
section
/-! DEFINITION. Register accesses through the fabric: who may make one and how it fails (R12, R22, R23), reads and writes of 32-bit
words with the latches and shadows of 64-bit registers (R13), access types and valid values (R8, R439), the registers whose write
acts, island clocks (R15 to R17), BAR2 (R263) and the debug port (R414). -/

namespace Sys2Proof.Machine

/-! ### Islands and clocks (R15, R16, R17) -/

/-- The PHY that an island's move to its PLL releases may leave reset: its rail is inside its window (R15, R429). -/
def State.phyOk (s : State) (isl : Nat) : Bool :=
  if isl = 0x0A ∨ isl = 0x0B then s.railOk 4 else if 0x30 ≤ isl then s.railOk 3 else true

/-- A write of ISL_CLKCTL (R17); Marrow ignores it. DESIGN CHOICE (assumption 54): SRC 1 with PLLEN 0 is ignored as a whole, also
while SRC is still 0. -/
def State.clkWrite (s : State) (isl v : Nat) : State :=
  let pll := s.flag (F.ISL_CLKCTL_PLLEN isl)
  let act := s.flag (F.ISL_CLKSTAT_SRCACT isl)
  let mult := bits v 8 7
  if isl = 0 ∨ (bit v 1 = true ∧ (bit v 0 = false ∨ s.flag (F.ISL_CLKSTAT_LOCK isl) = false)) ∨
      (pll = false ∧ (mult < 8 ∨ 72 < mult)) ∨ (bit v 1 = true ∧ act = false ∧ s.phyOk isl = false) then s
  else
    let s := if pll then s else s.setFld (F.ISL_CLKCTL_MULT isl) mult
    let s := (s.setFld (F.ISL_CLKCTL_PLLEN isl) (bits v 0 1)).setFld (F.ISL_CLKCTL_SRC isl) (bits v 1 1)
    let s := s.setFld (F.ISL_CLKSTAT_SRCACT isl) (bits v 1 1)
    if bit v 0 then s else s.setFld (F.ISL_CLKSTAT_LOCK isl) 0

/-- PLL_LOCK: an enabled PLL locks. -/
def execPllLock (isl : Isl) (s : State) : Host.Outcome State Fault Refusal :=
  if s.flag (F.ISL_CLKCTL_PLLEN isl.val) then .next (s.setFld (F.ISL_CLKSTAT_LOCK isl.val) 1) else .next s

/-- PLL_LOSS_OF_LOCK: a selected PLL that loses lock leaves its island on RC, with LOSSLOCK and event 0x0A0D; it stays there until
firmware selects the PLL again (R16). -/
def execPllLossOfLock (isl : Isl) (s : State) : Host.Outcome State Fault Refusal :=
  if s.flag (F.ISL_CLKSTAT_LOCK isl.val) = false then .next s
  else
    let used := s.flag (F.ISL_CLKSTAT_SRCACT isl.val)
    let s := s.setFld (F.ISL_CLKSTAT_LOCK isl.val) 0
    if used then
      .next (((s.setFld (F.ISL_CLKSTAT_SRCACT isl.val) 0).setFld (F.ISL_CLKSTAT_LOSSLOCK isl.val) 1).mgtPost 0x0A0D
        [(8, isl.val)])
    else .next s

/-! ### Who may access, and how an access fails (R12, R22, R23) -/

/-- Address of an offset of an island in the firmware map (R26). -/
def csrAddr (isl off : Nat) : Nat := 0x0100000000 + regKey isl off

/-- Island of a requester: a core's, HIF's, a DMC's; the debug port is attached to FAB (R14). -/
def Requester.island : Requester → Nat
  | .core c => 0x10 + c.val
  | .jtag => 0x01
  | .hif p => 0x0C + p.val
  | .dma n => 0x0A + n.val / 4

/-- A requester can reach an island's window: a core that runs, the debug port with DBGACCESS in test mode (R414), HIF where BAR2 is
open on that island (R263). DMA channels reach DRAM alone (R342). -/
def State.mayAccess (s : State) (q : Requester) (isl : Nat) : Bool :=
  match q with
  | .core c => !s.cores.halted.getLsbD c.val
  | .jtag => s.testMode && s.mgt.jtagIr == 0x10
  | .hif p => s.flag (F.HIF_DIAGCTL_OPEN p.val) && s.fld (F.HIF_DIAGCTL_ISEL p.val) == isl
  | .dma _ => false

/-- An access ends in error: a core traps; a DMA channel halts with a status, which the spec does not number for this; another
requester's read returns 0 (R12, R22, R23). -/
def State.accessError (s : State) (q : Requester) (store : Bool) (a : Nat) : State :=
  match q with
  | .core c => s.trap c.val (if store then .store else .load) a
  | .dma n =>
    let (x, s) := s.drawFree
    if s.flag (F.DMC_DMACTL_BUSY (n.val / 4) (n.val % 4)) then s.dmaEnd (n.val / 4) (n.val % 4) (1 + x % 255) a else s
  | _ => if store then s else s.answer q 0

/-- Run an access of 2^size bytes at an offset of an island, or fail it: a power-gated island (R23), an isolated port (R22), a width
or alignment that R12 does not allow. -/
def State.access (s : State) (q : Requester) (store : Bool) (isl off size : Nat) (run : State → State) : State :=
  if s.mayAccess q isl = false then s
  else if s.gated isl then (s.portError isl).accessError q store (csrAddr isl off)
  else if s.fab.isolated.contains isl then s.accessError q store (csrAddr isl off)
  else if size < 2 ∨ off % 2 ^ size ≠ 0 then s.accessError q store (csrAddr isl off)
  else run s

/-- HANDSHAKE_TIMEOUT: a destination has not completed a handshake within 20 µs: FAB ends the transaction with an error, isolates the
island's port and records its index; MGT posts event 0x0A0E (R22). -/
def execHandshakeTimeout (q : Requester) (isl : Isl) (store : Bool) (a : BitVec 40) (s : State) :
    Host.Outcome State Fault Refusal :=
  let s := { s with fab := { s.fab with
    isolated := if s.fab.isolated.contains isl.val then s.fab.isolated else isl.val :: s.fab.isolated } }
  .next (((s.portError isl.val).mgtPost 0x0A0E [(8, isl.val), (8, q.island)]).accessError q store a.toNat)

/-- FAB_PORTCTL_WRITE: firmware on a core re-enables an isolated port (R22). -/
def execFabPortctlWrite (c : CoreId) (isl : Isl) (s : State) : Host.Outcome State Fault Refusal :=
  if s.cores.halted.getLsbD c.val then .next s
  else .next { s with fab := { s.fab with isolated := s.fab.isolated.filter (· != isl.val) } }

/-- POWER_GATED_ACCESS: an access to the window of a power-gated island fails at once, without an event (R23). -/
def execPowerGatedAccess (q : Requester) (isl : Isl) (off : BitVec 20) (store : Bool) (s : State) :
    Host.Outcome State Fault Refusal :=
  if s.gated isl.val then .next ((s.portError isl.val).accessError q store (csrAddr isl.val off.toNat)) else .next s

/-! ### Access types and valid values (R8, R439) -/

/-- One field's new value: `o` held, `n` written in the bits `m`. -/
def putField (t : FTy) (locked : Bool) (o n m : Nat) : Nat :=
  let repl := Nat.lor (o - Nat.land o m) (Nat.land n m)
  match t with
  | .ro => o
  | .rw | .rs => repl
  | .rwl => if locked then o else repl
  | .w1c => o - Nat.land o (Nat.land n m)
  | .wo => 0

/-- The word a write leaves in a register (R8). -/
def mergeWord (d : RegDef) (locked : Bool) (old v mask : Nat) : Nat :=
  d.fields.foldl (fun a f => a + putField f.ty locked (bits old f.lo f.w) (bits v f.lo f.w) (bits mask f.lo f.w) * 2 ^ f.lo) 0

/-- The RWL fields of a register are locked: ZNE's by ZNE_GEOM.LOCK (R63), a channel's guard by CH_GUARDCTL.LOCK (R208), a channel's
others while its sequencer is not stopped (R198, R436). -/
def State.locked (s : State) (d : RegDef) (isl : Nat) : Bool :=
  if isl = 8 then s.flag F.ZNE_GEOM_LOCK
  else if 0x30 ≤ isl then
    if d.id = .CH_GUARDCFG ∨ d.id = .CH_GUARDCFG2 ∨ d.id = .CH_GUARDCTL then s.flag (F.CH_GUARDCTL_LOCK (isl - 0x30))
    else s.fld (F.CH_SEQSTAT_STATE (isl - 0x30)) != 0
  else false

/-- A field of a word lies in a range. -/
def inRange (w lo n a b : Nat) : Bool := decide (a ≤ bits w lo n) && decide (bits w lo n ≤ b)

/-- Every field of the word that has a range or a set of valid values lies in it (R439). -/
def State.validWord (s : State) (d : RegDef) (i w : Nat) : Bool :=
  match d.id with
  | .ZNE_DIRTYCFG => inRange w 0 12 64 2048
  | .ZNE_STAGECFG => inRange w 0 16 1 1000 && inRange w 16 4 8 15 && inRange w 20 8 50 255
  | .ZNE_SCHEDCFG => inRange w 0 12 200 4000 && inRange w 12 8 1 255 && inRange w 20 8 1 255
  | .ZNE_PODCFG => inRange w 8 8 1 64 && inRange w 16 12 100 4000
  | .ZNE_WDCFG => inRange w 0 12 100 1000
  | .ZNE_RACFG => inRange w 8 8 1 48 && inRange w 16 12 20 2000
  | .ZNE_HEALTHCFG => inRange w 0 4 2 15 && inRange w 4 6 1 60 && inRange w 10 2 1 3 && inRange w 12 8 10 240 && inRange w 20 8 10 255
  | .ZNE_RBCFG => inRange w 0 4 1 15 && inRange w 4 8 10 250
  | .ZNE_CRCFG => inRange w 0 11 8 1024 && inRange w 11 11 (bits w 0 11 + 8) 2047 && inRange w 22 8 8 255
  | .ZNE_WEARCFG => inRange w 0 4 1 15 && inRange w 4 12 20 4095
  | .ZNE_ERASECFG => inRange w 12 16 60 65535
  | .ZNE_SCRUBCFG => inRange w 0 10 24 1000 && inRange w 10 4 2 15 && inRange w 14 12 1 4095
  | .ZNE_PWRBUD => inRange w 0 20 8000 200000
  | .ZNE_PWRRES => inRange w 16 16 4000 60000
  | .ZNE_ZMBASE | .ZNE_BTBASE | .ZNE_BSTBASE | .ZNE_AZTBASE | .ZNE_SRDBASE | .ZNE_CPMBASE | .ZNE_CSTBASE | .ZNE_CNTBASE
  | .ZNE_RCTBASE | .ZNE_PROFBASE => decide (dramBase ≤ w) && decide (w < dramBase + 64 * 2 ^ 30)
  | .LPE_CFG => inRange w 0 10 25 1000 && inRange w 16 4 1 15
  | .CH_TICK => inRange w 0 12 400 1800
  | .CH_ROWFMT => inRange w 5 4 1 15
  | .CH_PHYCFG => inRange w 0 3 0 5 && inRange w 3 3 0 5 && inRange w 6 8 0x50 0x78
  | .HIF_ARBCFG => inRange w 0 8 1 255 && inRange w 8 12 20 4000
  | .HIF_TWBQ => inRange w 0 20 0 524288
  | .KWE_LEN => inRange w 0 13 48 4096 && bits w 0 13 % 16 == 0
  | .KWE_GENATTR => inRange w 0 2 0 1
  | .KWE_ADDR => w % 16 == 0
  | .XTS_CFG => inRange w 0 6 33 (min 36 (s.fld F.XTS_CFG_LIMEXP))
  | .DMC_ECCCFG => inRange w 0 8 8 255 && inRange w 8 8 1 240 && inRange w 16 8 1 168
  | .DMC_DMADST | .DMC_DMALEN => w % 64 == 0
  | .AON_AVSCFG => inRange w 8 10 650 850
  | .VUK_CASCCFG => inRange w 0 14 100 10000
  | .MGT_EVCFG => inRange w 0 8 8 255 && inRange w 8 8 1 255
  | .HIF_LINKCFG => inRange w 0 3 4 6 && decide (2 ^ bits w 4 3 < s.portWidth i) && inRange w 8 2 0 2
  | _ => true

/-! ### Writes that act -/

/-- Hardware that follows a register shows its new value (R76, R368, R377). -/
def State.follow (s : State) (d : RegDef) : State :=
  match d.id with
  | .ZNE_DIRTYCFG => s.showEff
  | .ZNE_TPRED1 | .ZNE_PWRRES => s.holdupRecompute.showPower
  | .ZNE_PWRBUD | .ZNE_PCAP => s.showPower
  | _ => s

/-- A write of HIF_LINKCFG (R253, R254): the RWL fields while LTEN is 0; LTEN = 1 releases the PHY, and is ignored with its write on
the RC oscillator or with the rail outside its window (R429); LTEN = 0 puts the PHY back in reset. -/
def State.linkcfgWrite (s : State) (d : RegDef) (p v : Nat) : State :=
  let was := s.flag (F.HIF_LINKCFG_LTEN p)
  let w := mergeWord d was (s.word (R.HIF_LINKCFG p)).toNat v (2 ^ 32 - 1)
  if s.validWord d p w = false ∨ (bit v 16 = true ∧ was = false ∧
      (s.flag (F.ISL_CLKSTAT_SRCACT (0x0C + p)) = false ∨ s.railOk 5 = false)) then s
  else
    let on := bit v 16
    let s := s.setWord (R.HIF_LINKCFG p) (BitVec.ofNat 64 (Nat.land w (2 ^ 16 - 1) + b2n was * 2 ^ 16))
    if on = was then s
    else if on then s.linkEnable p
    else
      let s := (s.setFld (F.HIF_LINKCFG_LTEN p) 0).modPort p fun x => { x with training := false }
      if s.flag (F.HIF_PORTSTAT_LINKUP p) then (s.resetPortFns p false).linkDown p else s

/-- The higher of QMAX and QALLOC, summed over the functions of the ports in use but one (R262). -/
def State.queueSum (s : State) (p f : Nat) : Nat :=
  sumBy (fun k => if k = p * 128 + f ∨ s.portUsed (k / 128) = false then 0
    else max (s.fld (F.HIF_FNMAP_QMAX (k / 128) (k % 128))) (s.fld (F.HIF_FNMAP_QALLOC (k / 128) (k % 128)))) (List.range 256)

/-- A write of HIF_FNMAP (R259, R262): a QMAX out of its budget posts event 0x0605; TEN is read-only for the PF and locked while the
VF is enabled. -/
def State.fnmapWrite (s : State) (p f v : Nat) : State :=
  let ten := bits v 0 7
  let q := bits v 8 7
  let keep := f == 0 || s.fnEnabled (p * 128 + f) || ten == s.fld (F.HIF_FNMAP_TEN p f)
  if q = 0 ∨ 64 < q ∨ (s.portUsed p = true ∧
      8192 < s.queueSum p f + max q (s.fld (F.HIF_FNMAP_QALLOC p f))) then
    s.hifPost p 0x0605 [(8, p * 128 + f), (7, q)] (s.fnTen (p * 128 + f))
  else if keep = false ∧ s.mapBad p f ten = true then s
  else
    let s := s.setFld (F.HIF_FNMAP_QMAX p f) q
    if keep then s else s.setFld (F.HIF_FNMAP_TEN p f) ten

/-- A write of ZNE_TZQ (R59, R62). -/
def State.tzqWrite (s : State) (t v : Nat) : State :=
  if s.quotaBad t (bits v 0 14) (bits v 16 14) then s.znePost 0x0107 [(7, t), (14, bits v 0 14), (14, bits v 16 14)] t
  else (s.setFld (F.ZNE_TZQ_AQ t) (bits v 0 14)).setFld (F.ZNE_TZQ_OQ t) (bits v 16 14)

/-- A write of HIF_TCRED (R274). -/
def State.tcredWrite (s : State) (t v : Nat) : State :=
  if s.tsqBad t (bits v 0 16) then s.hifPost 0 0x0607 [(7, t), (16, bits v 0 16)]
  else (s.setFld (F.HIF_TCRED_TSQ t) (bits v 0 16)).setFld (F.HIF_TCRED_URGEN t) (bits v 16 1)

/-- A write of ZNE_DIECMD (R142, R143). -/
def State.diecmdWrite (s : State) (v : Nat) : State :=
  let d := bits v 0 11
  if s.populated d = false then s
  else if bits v 11 2 = 2 ∧ s.health d < 2 then s.dieDead d 2 0
  else if bits v 11 2 = 3 ∧ s.health d < 3 then s.dieDead d 3 2
  else s

/-- A write of LPE_MODELV that would clear the bit of a table that a CLOSED slot names is ignored (R169). -/
def State.modelvWrite (s : State) (v : Nat) : State :=
  let cut := (List.range 160).any fun k =>
    s.lpeState k == 1 && bit (s.word R.LPE_MODELV).toNat (s.fld (F.LPE_FFG_MODEL k)) && !bit v (s.fld (F.LPE_FFG_MODEL k))
  if cut then s else s.setWord R.LPE_MODELV (BitVec.ofNat 64 (bits v 0 18))

/-- A write of LPE_EXTMEAS of slot 145 + e: the slot takes it as a measurement (R171). -/
def State.extmeasWrite (s : State) (e v : Nat) : State :=
  (s.setFld (F.LPE_EXTMEAS_Y e) (bits v 0 16)).lp fun l =>
    { l with ext := Tab.set l.ext (145 + e) 0, gone := l.gone.filter fun j => j != e }

/-- A write of CH_SEQCTL (R198). -/
def State.seqctlWrite (s : State) (n v : Nat) : State :=
  let s := if bit v 0 then s.seqRun n else s.setFld (F.CH_SEQCTL_RUN n) 0
  if bit v 1 then s.seqStop n else s.setFld (F.CH_SEQCTL_STOP n) 0

/-- A write of CH_DCTL (R218). -/
def State.dctlWrite (s : State) (n v : Nat) : State :=
  let s := if bit v 2 then s.setFld (F.CH_DCTL_DONE n) 0 else s
  if bit v 0 then s.directGo n else s

/-- A write of MGT_EVFWCUR: firmware's cursor only moves forward, at most to the next SEQ (R403). -/
def State.fwcurWrite (s : State) (v : Nat) : State :=
  let v := min v (s.word R.MGT_EVNEXT).toNat
  if (s.word R.MGT_EVFWCUR).toNat < v then s.setWord R.MGT_EVFWCUR (BitVec.ofNat 64 v) else s

/-- A write of MGT_SAFECFG: PLO and TWARN become active, stop, or change their GPIO (R411). -/
def State.safecfgWrite (s : State) (v : Nat) : State :=
  let plo := s.flag F.MGT_SAFECFG_PLOEN && (!bit v 4 || s.fld F.MGT_SAFECFG_PLOPIN != bits v 0 4)
  let tw := s.flag F.MGT_SAFECFG_TWEN && (!bit v 12 || s.fld F.MGT_SAFECFG_TWPIN != bits v 8 4)
  let s := if plo then s.dropSafe .gpio (s.fld F.MGT_SAFECFG_PLOPIN) 1 else s
  let s := if tw then s.dropSafe .gpio (s.fld F.MGT_SAFECFG_TWPIN) 2 else s
  let s := s.setWord R.MGT_SAFECFG (BitVec.ofNat 64 (bits v 0 5 + bits v 8 5 * 2 ^ 8))
  let s := if bit v 4 then s.takeSafe .gpio (bits v 0 4) 1 else s
  let s := if bit v 12 then s.takeSafe .gpio (bits v 8 4) 2 else s
  s.driveTwarn

/-- A write of MGT_MBISTCTL: DONE clears on 1; ISL, MEM and BANK are set, and GO starts a test (R415). A reserved MEM or a BANK above
23 leaves the write without effect (R439). -/
def State.mbistctlWrite (s : State) (q : Requester) (v : Nat) : State :=
  if 5 < bits v 8 4 ∨ 23 < bits v 16 5 then s
  else
    let s := if bit v 14 then s.setFld F.MGT_MBISTCTL_DONE 0 else s
    if bit v 12 then s.mbistGo q (bits v 0 8) (bits v 8 4) (bits v 16 5)
    else ((s.setFld F.MGT_MBISTCTL_ISL (bits v 0 8)).setFld F.MGT_MBISTCTL_MEM (bits v 8 4)).setFld F.MGT_MBISTCTL_BANK
      (bits v 16 5)

/-- A register without a write action takes the fields its types let it take, unless one would leave its valid values (R8, R439). -/
def State.plainWrite (s : State) (d : RegDef) (isl i key v mask : Nat) : State :=
  let w := mergeWord d (s.locked d isl) (s.word key).toNat v mask
  if s.validWord d i w then (s.setWord key (BitVec.ofNat 64 w)).follow d else s

/-- A committed write of a register: element i of d at a key, the bits of the mask written. DESIGN CHOICE (assumption 55): a high-word
write of MGT_CLAIM without a low word names controller 0 and is judged by R410 as such. -/
def State.regWrite (s : State) (q : Requester) (d : RegDef) (isl i key v mask : Nat) : State :=
  let slotOff := key % 0x40
  let p := isl - 0x0C
  let n := isl - 0x30
  match d.id with
  | .ISL_CLKCTL => s.clkWrite isl v
  | .ZNE_GEOM => s.geomWrite v
  | .ZNE_TZQ => s.tzqWrite i v
  | .ZNE_DIECMD => s.diecmdWrite v
  | .LPE_SCTL | .LPE_SP | .LPE_GAIN | .LPE_FFG | .LPE_ULIM | .LPE_SAFE | .LPE_PLAUS | .LPE_ESC | .LPE_MODE | .LPE_HOLD =>
    s.lpeWrite i slotOff v
  | .LPE_EXTMEAS => s.extmeasWrite i v
  | .LPE_MODELV => s.modelvWrite v
  | .CH_SEQCTL => s.seqctlWrite n v
  | .CH_DCTL => s.dctlWrite n v
  | .HIF_LINKCFG => s.linkcfgWrite d p v
  | .HIF_FNMAP => s.fnmapWrite p i v
  | .HIF_DIAGCTL => s.diagctlWrite p v
  | .HIF_TCRED => s.tcredWrite i v
  | .KWE_LOCK => s.kweLockWrite q v
  | .KWE_CMD => s.kweCmd q v
  | .KWE_ADDR => if s.kweHeldBy q then s.plainWrite d isl i key v mask else s.kweRefused q 0x110
  | .KWE_GENATTR => if s.kweHeldBy q then s.plainWrite d isl i key v mask else s.kweRefused q 0x118
  | .XTS_NSK => s.nskWrite i (mergeWord d false (s.word key).toNat v mask)
  | .SEC_BOOTWD => s.bootwdWrite v
  | .SEC_OTPCMD => if q = .jtag then s else s.otpcmdWrite v
  | .DMC_CFG => s.dmcCfgWrite (isl - 0x0A) v
  | .DMC_DMACTL => s.dmaCtl (isl - 0x0A) i v
  | .AON_PSTATE_REQ => s.pstateRequest (bits v 0 2)
  | .AON_RSTCTL => s.rstctlWrite v
  | .AON_HUCFG => s.hucfgWrite v
  | .VUK_LINKCFG => s.vukLinkCfg (isl - 0x0E) v
  | .MGT_EVPOST => s.stageWord q 0 (BitVec.ofNat 32 v)
  | .MGT_EVPOST1 => s.stageWord q 1 (BitVec.ofNat 32 v)
  | .MGT_EVPOST2 => s.stageWord q 2 (BitVec.ofNat 32 v)
  | .MGT_EVPOST3 => s.evpost q (BitVec.ofNat 32 v)
  | .MGT_EVFWCUR => s.fwcurWrite (mergeWord d false (s.word key).toNat v mask)
  | .MGT_SAFECFG => s.safecfgWrite v
  | .MGT_MBISTCTL => s.mbistctlWrite q v
  | .MGT_CLAIM =>
    match claimElem i with
    | some (k, j) => s.claimWrite k j (bits v 0 32) (bit v 32)
    | none => s
  | _ => s.plainWrite d isl i key v mask

/-! ### Words (R13) -/

/-- Key of a requester's latch or shadow of a register. -/
def latchKey (q : Requester) (key : Nat) : Nat := q.index * 2 ^ 40 + key

/-- A 32-bit write of an offset where a register was found, or none: of a register, of the low word of a 64-bit one into the
writer's shadow, of its high word, which commits; of another core's TCM while that core is halted (R27). Other offsets ignore it
(R12). -/
def State.wordWriteAt (s : State) (q : Requester) (isl off v : Nat) : Option (RegDef × Nat × Nat) → State
  | none =>
    if 0x10 ≤ isl ∧ isl < 0x30 ∧ 0x80000 ≤ off ∧ off < 0xA0000 ∧ s.cores.halted.getLsbD (isl - 0x10) = true then
      s.store (csrAddr isl off) (leBytes 4 v)
    else s
  | some (d, i, sub) =>
    let key := regKey isl off - sub
    if d.wide = false then s.regWrite q d isl i key v (2 ^ 32 - 1)
    else if sub = 0 then { s with shadow := Tab.set s.shadow (latchKey q key) (BitVec.ofNat 32 v) }
    else
      match Tab.find s.shadow (latchKey q key) with
      | some lo =>
        ({ s with shadow := Tab.erase s.shadow (latchKey q key) } : State).regWrite q d isl i key (lo.toNat + v * 2 ^ 32)
          (2 ^ 64 - 1)
      | none => s.regWrite q d isl i key (v * 2 ^ 32) (2 ^ 64 - 2 ^ 32)

/-- A 32-bit write of an offset. -/
def State.wordWrite (s : State) (q : Requester) (isl off v : Nat) : State :=
  s.wordWriteAt q isl off v (regFind (regKey isl off))

/-- What a register shows to a read: WO fields read 0 (R8); CH_KREG shows k0 to k15 while the sequencer is stopped or faulted, and
0 otherwise (08, after R218). -/
def State.shown (s : State) (d : RegDef) (isl i key : Nat) : Nat :=
  match d.id with
  | .CH_KREG =>
    let n := isl - 0x30
    if s.fld (F.CH_SEQSTAT_STATE n) = 0 ∨ s.fld (F.CH_SEQSTAT_STATE n) = 3 then ((s.seq n).k.getD i 0).toNat else 0
  | .MGT_CLAIM => if (claimElem i).isSome then (s.word key).toNat else 0
  | _ => d.fields.foldl (fun a f => if f.ty = .wo then a - bits a f.lo f.w * 2 ^ f.lo else a) (s.word key).toNat

/-- The 32-bit word of the recorder's volatile buffer at an offset of MGT (17, MGT_EVFWCUR): 8,192 entries of 32 B from 0x4_0000 up. -/
def State.bufWord (s : State) (off : Nat) : Nat :=
  match Tab.find s.evr.buf ((off - 0x40000) / 32) with
  | some x => ofLe ((x.bytes.drop (off % 32)).take 4)
  | none => 0

/-- A 32-bit read of an offset where a register was found, or none: the value and the state after it, in which a read of KWE_LOCK
may have granted the engine (R302) and the reader's latch holds or has given up a high word (R13). -/
def State.wordReadAt (s : State) (q : Requester) (isl off : Nat) : Option (RegDef × Nat × Nat) → Nat × State
  | none =>
    if isl = 2 ∧ 0x40000 ≤ off ∧ off < 0x80000 then (s.bufWord off, s)
    else if 0x10 ≤ isl ∧ isl < 0x30 ∧ 0x80000 ≤ off ∧ off < 0xA0000 then (Memory.readNat s.mem (csrAddr isl off) 4, s)
    else (0, s)
  | some (d, i, sub) =>
    let key := regKey isl off - sub
    let s := if d.id = .KWE_LOCK then s.kweLockRead q else s
    let v := s.shown d isl i key
    if d.wide = false then (v % 2 ^ 32, s)
    else if sub = 0 then
      (v % 2 ^ 32, { s with latch := Tab.set s.latch (latchKey q key) (BitVec.ofNat 32 (v / 2 ^ 32)) })
    else
      match Tab.find s.latch (latchKey q key) with
      | some h => (h.toNat, { s with latch := Tab.erase s.latch (latchKey q key) })
      | none => (v / 2 ^ 32, s)

/-- A 32-bit read of an offset. -/
def State.wordRead (s : State) (q : Requester) (isl off : Nat) : Nat × State :=
  s.wordReadAt q isl off (regFind (regKey isl off))

/-- A read of one or two words; a 64-bit access is a low-word access and then a high-word access (R13). -/
def State.csrRead (s : State) (q : Requester) (isl off size : Nat) : State :=
  s.access q false isl off size fun s =>
    let (lo, s) := s.wordRead q isl off
    if size = 2 then s.answer q (BitVec.ofNat 64 lo)
    else
      let (hi, s) := s.wordRead q isl (off + 4)
      s.answer q (BitVec.ofNat 64 (lo + hi * 2 ^ 32))

/-- A write of one or two words, as csrRead reads them. A write to CH000 at 0x8_0000 and above goes to every populated channel that is
stopped (R220). -/
def State.csrWrite (s : State) (q : Requester) (isl off size v : Nat) : State :=
  let put := fun (s : State) (isl off : Nat) =>
    let s := s.wordWrite q isl off (v % 2 ^ 32)
    if size = 2 then s else s.wordWrite q isl (off + 4) (v / 2 ^ 32 % 2 ^ 32)
  s.access q true isl off size fun s =>
    if isl = 0x30 ∧ 0x80000 ≤ off then
      let cnt := if s.fld F.ZNE_GEOM_CHANNELS = 0 then 128 else s.fld F.ZNE_GEOM_CHANNELS
      ((List.range cnt).filter fun n => s.fld (F.CH_SEQSTAT_STATE n) == 0 && !s.portDown (0x30 + n)).foldl
        (fun s n => put s (0x30 + n) (off - 0x80000)) s
    else put s isl off

/-- An offset names the low word (0) or the high word (4) of a 64-bit register. -/
def isWord (isl off sub : Nat) : Bool :=
  (regFind (regKey isl off)).any fun x => x.1.wide && x.2.2 == sub

/-- HIF never reads these through BAR2: SEC, MRM, and offsets 0x8_0000 and above of a CPU island (R263). -/
def hifHidden (isl off : Nat) : Bool :=
  isl == 3 || isl == 4 || (decide (0x10 ≤ isl) && decide (isl < 0x30) && decide (0x80000 ≤ off))

/-! ### The commands -/

/-- REGISTER_WRITE: a write of 2^size bytes at an offset of an island's window (R8, R12, R439). HIF writes nothing (R263). -/
def execRegisterWrite (q : Requester) (isl : Isl) (off : BitVec 20) (size : Fin 4) (v : W64) (s : State) :
    Host.Outcome State Fault Refusal :=
  match q with
  | .hif _ => .next s
  | _ => .next (s.csrWrite q isl.val off.toNat size.val v.toNat)

/-- LOW_WORD_READ: a read of an offset of an island's window, of the low word of a 64-bit register among them (R8, R12, R13). -/
def execLowWordRead (q : Requester) (isl : Isl) (off : BitVec 20) (size : Fin 4) (s : State) :
    Host.Outcome State Fault Refusal :=
  match q with
  | .hif _ => if hifHidden isl.val off.toNat then .next s else .next (s.csrRead q isl.val off.toNat size.val)
  | _ => .next (s.csrRead q isl.val off.toNat size.val)

/-- LOW_WORD_WRITE: a 32-bit write of the low word of a 64-bit register (R13). -/
def execLowWordWrite (q : Requester) (isl : Isl) (off : BitVec 20) (v : W32) (s : State) : Host.Outcome State Fault Refusal :=
  match q with
  | .hif _ => .next s
  | _ => if isWord isl.val off.toNat 0 then .next (s.csrWrite q isl.val off.toNat 2 v.toNat) else .next s

/-- HIGH_WORD_WRITE: a 32-bit write of the high word of a 64-bit register (R13). -/
def execHighWordWrite (q : Requester) (isl : Isl) (off : BitVec 20) (v : W32) (s : State) : Host.Outcome State Fault Refusal :=
  match q with
  | .hif _ => .next s
  | _ => if isWord isl.val off.toNat 4 then .next (s.csrWrite q isl.val off.toNat 2 v.toNat) else .next s

/-- A core's store anywhere in its address map (R12, R22, R26, R27, R43, R348). DESIGN CHOICE (assumption 53): outside the CSR windows,
whose rule is R12's, a misaligned store takes an access-fault trap. -/
def State.coreStore (s : State) (c a size v : Nat) (ue : Bool) : State :=
  let n := 2 ^ size
  if s.region a = .csr then
    s.csrWrite (.core ⟨c % 32, Nat.mod_lt _ (by decide)⟩) ((a - 0x0100000000) / 0x100000) (a % 0x100000) size v
  else if a % n ≠ 0 then s.trap c .store a
  else if s.blocked a then s.blockedTrap c a .store
  else
    match s.region a with
    | .itcm => s.store (tcmAddr c false (a - 0x08000000)) (leBytes n v)
    | .dtcm => s.store (tcmAddr c true (a - 0x08010000)) (leBytes n v)
    | .sram => (s.store a (leBytes n v)).dropResv a n
    | .ret => s.store a (leBytes n v)
    | .dram => if s.guarded a then s.trap c .store a else s.dramWrite c a size v ue
    | .mram => s.mramStore c a size v .done
    | .csr => s
    | .rom | .outside => s.trap c .store a

/-- CORE_STORE: a core stores 1, 2, 4 or 8 bytes; `ue` says that the merge read of its DRAM line is uncorrectable. -/
def execCoreStore (c : CoreId) (a : BitVec 40) (size : Fin 4) (v : W64) (ue : Bool) (s : State) :
    Host.Outcome State Fault Refusal :=
  if s.cores.halted.getLsbD c.val then .next s else .next (s.coreStore c.val a.toNat size.val v.toNat ue)

/-- ISL_CLKCTL_WRITE (R17). -/
def execIslClkctlWrite (q : Requester) (isl : Isl) (v : W32) (s : State) : Host.Outcome State Fault Refusal :=
  match q with
  | .hif _ => .next s
  | _ => .next (s.csrWrite q isl.val 0x0008 2 v.toNat)

/-- BROADCAST_WRITE: a 32-bit write at CH000 offset 0x8_0000 + x (R220). -/
def execBroadcastWrite (q : Requester) (x : BitVec 19) (v : W32) (s : State) : Host.Outcome State Fault Refusal :=
  match q with
  | .hif _ => .next s
  | _ => .next (s.csrWrite q 0x30 (0x80000 + x.toNat) 2 v.toNat)

/-- BAR2_READ: HIF reads n + 1 doublewords one after another while BAR2 is open; each is a 32-bit CSR read of its own (R263). A read
of a closed window, of a hidden offset or of a power-gated island returns 0. -/
def execBar2Read (p : Port) (off : BitVec 20) (n : BitVec 10) (s : State) : Host.Outcome State Fault Refusal :=
  let isl := s.fld (F.HIF_DIAGCTL_ISEL p.val)
  .next <| (List.range (n.toNat + 1)).foldl (fun s k =>
    let o := off.toNat / 4 * 4 + 4 * k
    if s.flag (F.HIF_DIAGCTL_OPEN p.val) = false ∨ hifHidden isl o = true ∨ s.gated isl = true ∨ 0x100000 ≤ o ∨ 176 ≤ isl then
      s.answer (.hif p) 0
    else s.csrRead (.hif p) isl o 2) s

/-- BAR2_WRITE: a host's write to BAR2 is discarded, open or closed (R28, R263). -/
def execBar2Write (_p : Port) (_off : BitVec 20) (_v : W32) (s : State) : Host.Outcome State Fault Refusal := .next s

/-! ### The debug port (R414) -/

/-- The debug port reads or writes 2^size bytes of a memory region; regions no core may write, and a guarded table, take no write. -/
def State.dbgMemory (s : State) (a size : Nat) (w : Option W64) : State :=
  let n := 2 ^ size
  let r := s.region a
  let gone := r == .itcm || r == .dtcm || r == .outside || s.blocked a
  match w with
  | none =>
    if gone then s.answer .jtag 0
    else if r = .dram ∧ s.poisoned a n = true then (s.dramUe a 0x01).answer .jtag 0
    else if r = .mram then s.answer .jtag (BitVec.ofNat 64 (s.mramNat a n))
    else s.answer .jtag (BitVec.ofNat 64 (s.readNat a n))
  | some v =>
    if s.blocked a = false ∧ (r = .sram ∨ r = .ret ∨ (r = .dram ∧ s.guarded a = false)) then (s.store a (leBytes n v.toNat)).dropResv a n else s

/-- DBGACCESS: fabric access through the JTAG port in test mode, to every powered region of R26; outside test mode the instruction acts
as BYPASS, with event 0x0B04. Key-slot contents and OTP programming are out of its reach. -/
def execDbgaccess (a : BitVec 40) (size : Fin 4) (w : Option W64) (s : State) : Host.Outcome State Fault Refusal :=
  let s := s.tapTest 0x10
  if s.testMode = false then .next s
  else if s.region a.toNat = .csr then
    let key := a.toNat - 0x0100000000
    match w with
    | some v => .next (s.csrWrite .jtag (key / 0x100000) (key % 0x100000) size.val v.toNat)
    | none => .next (s.csrRead .jtag (key / 0x100000) (key % 0x100000) size.val)
  else if a.toNat % 2 ^ size.val ≠ 0 then .next s
  else .next (s.dbgMemory a.toNat size.val w)

/-- JTAG_MBIST: in test mode a 64-bit data register reaches MGT_MBISTCTL (low word) and MGT_MBISTADDR (high word): their values are
captured, and the low word shifted in is written. -/
def execJtagMbist (v : W64) (s : State) : Host.Outcome State Fault Refusal :=
  let s := s.tapTest 0x11
  if s.testMode = false then .next s
  else
    let ctl := (s.word R.MGT_MBISTCTL).toNat
    let s := s.answer .jtag (BitVec.ofNat 64 (ctl + (s.word R.MGT_MBISTADDR).toNat * 2 ^ 32))
    .next (s.mbistctlWrite .jtag (v.toNat % 2 ^ 32))

end Sys2Proof.Machine
end

