-- ==== Sys2Proof/Machine/Dispatch.lean ====
section
/-! DEFINITION. One arm for each command: a direct call of its meaning. -/

namespace Sys2Proof.Machine

/-- The effect of a command on everything but the queue. -/
def exec (i : Instr) (s : State) : Host.Outcome State Fault Refusal :=
  match i with
  | .registerWrite q isl off size v => Sys2Proof.Machine.execRegisterWrite q isl off size v s
  | .lowWordRead q isl off size => Sys2Proof.Machine.execLowWordRead q isl off size s
  | .lowWordWrite q isl off v => Sys2Proof.Machine.execLowWordWrite q isl off v s
  | .highWordWrite q isl off v => Sys2Proof.Machine.execHighWordWrite q isl off v s
  | .coldReset portcfg cascmode bootsel bad => Sys2Proof.Machine.execColdReset portcfg cascmode bootsel bad s
  | .warmReset portcfg cascmode bootsel bad => Sys2Proof.Machine.execWarmReset portcfg cascmode bootsel bad s
  | .brownOut portcfg cascmode bootsel bad => Sys2Proof.Machine.execBrownOut portcfg cascmode bootsel bad s
  | .resetRequest => Sys2Proof.Machine.execResetRequest s
  | .startUp x => Sys2Proof.Machine.execStartUp x s
  | .islClkctlWrite q isl v => Sys2Proof.Machine.execIslClkctlWrite q isl v s
  | .pllLock isl => Sys2Proof.Machine.execPllLock isl s
  | .pllLossOfLock isl => Sys2Proof.Machine.execPllLossOfLock isl s
  | .handshakeTimeout q isl store a => Sys2Proof.Machine.execHandshakeTimeout q isl store a s
  | .fabPortctlWrite c isl => Sys2Proof.Machine.execFabPortctlWrite c isl s
  | .powerGatedAccess q isl off store => Sys2Proof.Machine.execPowerGatedAccess q isl off store s
  | .fence c w => Sys2Proof.Machine.execFence c w s
  | .fenceI c => Sys2Proof.Machine.execFenceI c s
  | .amo c a wide op v ue => Sys2Proof.Machine.execAmo c a wide op v ue s
  | .loadReserved c a wide ue => Sys2Proof.Machine.execLoadReserved c a wide ue s
  | .storeConditional c a wide v => Sys2Proof.Machine.execStoreConditional c a wide v s
  | .remoteTcmWrite c t dtcm off v => Sys2Proof.Machine.execRemoteTcmWrite c t dtcm off v s
  | .bar2Read p off n => Sys2Proof.Machine.execBar2Read p off n s
  | .bar2Write p off v => Sys2Proof.Machine.execBar2Write p off v s
  | .sqTailDoorbell fn qid tail => Sys2Proof.Machine.execSqTailDoorbell fn qid tail s
  | .cqHeadDoorbell fn qid head => Sys2Proof.Machine.execCqHeadDoorbell fn qid head s
  | .arbiterTurn p => Sys2Proof.Machine.execArbiterTurn p s
  | .peekEntryArrival fn qid e pair => Sys2Proof.Machine.execPeekEntryArrival fn qid e pair s
  | .wbstarveExpiry fn qid => Sys2Proof.Machine.execWbstarveExpiry fn qid s
  | .hostDataArrival ix k d h => Sys2Proof.Machine.execHostDataArrival ix k d h s
  | .dmcBufferAck b => Sys2Proof.Machine.execDmcBufferAck b s
  | .huskSliceEntryAck r m => Sys2Proof.Machine.execHuskSliceEntryAck r m s
  | .powerTokenGrant => Sys2Proof.Machine.execPowerTokenGrant s
  | .podDispatch d => Sys2Proof.Machine.execPodDispatch d s
  | .dieOpDone d zeros => Sys2Proof.Machine.execDieOpDone d zeros s
  | .huskCloseEntryAck r => Sys2Proof.Machine.execHuskCloseEntryAck r s
  | .transferFailure x => Sys2Proof.Machine.execTransferFailure x s
  | .stageAgeExpiry zmi => Sys2Proof.Machine.execStageAgeExpiry zmi s
  | .stageFillTimeout set => Sys2Proof.Machine.execStageFillTimeout set s
  | .foldStart zmi bad => Sys2Proof.Machine.execFoldStart zmi bad s
  | .stageReclaim set => Sys2Proof.Machine.execStageReclaim set s
  | .convStripeAgeExpiry ns ruh => Sys2Proof.Machine.execConvStripeAgeExpiry ns ruh s
  | .mapCheckpoint => Sys2Proof.Machine.execMapCheckpoint s
  | .write ix => Sys2Proof.Machine.execWrite ix s
  | .zoneAppend ix => Sys2Proof.Machine.execZoneAppend ix s
  | .copy x => Sys2Proof.Machine.execCopy x s
  | .read ix bad => Sys2Proof.Machine.execRead ix bad s
  | .compare ix bad => Sys2Proof.Machine.execCompare ix bad s
  | .fusedCompareWrite ix bad => Sys2Proof.Machine.execFusedCompareWrite ix bad s
  | .verify ix bad => Sys2Proof.Machine.execVerify ix bad s
  | .writeZeroes ix => Sys2Proof.Machine.execWriteZeroes ix s
  | .datasetManagement ix => Sys2Proof.Machine.execDatasetManagement ix s
  | .flush ix => Sys2Proof.Machine.execFlush ix s
  | .ioManagementSend ix => Sys2Proof.Machine.execIoManagementSend ix s
  | .ioManagementReceive ix => Sys2Proof.Machine.execIoManagementReceive ix s
  | .zoneOpen ix => Sys2Proof.Machine.execZoneOpen ix s
  | .zoneClose ix => Sys2Proof.Machine.execZoneClose ix s
  | .zoneFinish ix => Sys2Proof.Machine.execZoneFinish ix s
  | .zoneReset ix => Sys2Proof.Machine.execZoneReset ix s
  | .zoneOffline ix => Sys2Proof.Machine.execZoneOffline ix s
  | .zoneMgmtEffect ix => Sys2Proof.Machine.execZoneMgmtEffect ix s
  | .zoneManagementReceive ix => Sys2Proof.Machine.execZoneManagementReceive ix s
  | .reconstructionDone k crcFail => Sys2Proof.Machine.execReconstructionDone k crcFail s
  | .suspholdExpiry d => Sys2Proof.Machine.execSuspholdExpiry d s
  | .ldcDecodeDone u out => Sys2Proof.Machine.execLdcDecodeDone u out s
  | .watchdogExpiry d => Sys2Proof.Machine.execWatchdogExpiry d s
  | .hardLimitExpiry d => Sys2Proof.Machine.execHardLimitExpiry d s
  | .abortDoneTimeout d => Sys2Proof.Machine.execAbortDoneTimeout d s
  | .suspectPeriodExpiry d => Sys2Proof.Machine.execSuspectPeriodExpiry d s
  | .diecmdRetire d => Sys2Proof.Machine.execDiecmdRetire d s
  | .diecmdFail d => Sys2Proof.Machine.execDiecmdFail d s
  | .rebuildJobStart => Sys2Proof.Machine.execRebuildJobStart s
  | .startupHuskReplay x listLost found => Sys2Proof.Machine.execStartupHuskReplay x listLost found s
  | .tornRepair r => Sys2Proof.Machine.execTornRepair r s
  | .sampleBoundary => Sys2Proof.Machine.execSampleBoundary s
  | .slotOpen k => Sys2Proof.Machine.execSlotOpen k s
  | .slotClose k => Sys2Proof.Machine.execSlotClose k s
  | .lpeHoldWrite k w => Sys2Proof.Machine.execLpeHoldWrite k w s
  | .lpeExtmeasWrite ix y => Sys2Proof.Machine.execLpeExtmeasWrite ix y s
  | .halt n f => Sys2Proof.Machine.execHalt n f s
  | .sel n f rs imm => Sys2Proof.Machine.execSel n f rs imm s
  | .cmd n f rs imm => Sys2Proof.Machine.execCmd n f rs imm s
  | .addr n f rs imm => Sys2Proof.Machine.execAddr n f rs imm s
  | .din n f rd rs imm => Sys2Proof.Machine.execDin n f rd rs imm s
  | .dout n f rd rs imm data => Sys2Proof.Machine.execDout n f rd rs imm data s
  | .wait n f rs imm => Sys2Proof.Machine.execWait n f rs imm s
  | .poll n f rd rs imm first more => Sys2Proof.Machine.execPoll n f rd rs imm first more s
  | .ldi n f rd imm => Sys2Proof.Machine.execLdi n f rd imm s
  | .ldih n f rd imm => Sys2Proof.Machine.execLdih n f rd imm s
  | .mov n f rd rs imm => Sys2Proof.Machine.execMov n f rd rs imm s
  | .add n f rd rs imm => Sys2Proof.Machine.execAdd n f rd rs imm s
  | .sub n f rd rs imm => Sys2Proof.Machine.execSub n f rd rs imm s
  | .and n f rd rs imm => Sys2Proof.Machine.execAnd n f rd rs imm s
  | .or n f rd rs imm => Sys2Proof.Machine.execOr n f rd rs imm s
  | .xor n f rd rs imm => Sys2Proof.Machine.execXor n f rd rs imm s
  | .shl n f rd rs imm => Sys2Proof.Machine.execShl n f rd rs imm s
  | .shr n f rd rs imm => Sys2Proof.Machine.execShr n f rd rs imm s
  | .br n f imm => Sys2Proof.Machine.execBr n f imm s
  | .brc n f imm => Sys2Proof.Machine.execBrc n f imm s
  | .call n f imm => Sys2Proof.Machine.execCall n f imm s
  | .ret n f => Sys2Proof.Machine.execRet n f s
  | .pop n f => Sys2Proof.Machine.execPop n f s
  | .postDone n f rd rs imm => Sys2Proof.Machine.execPostDone n f rd rs imm s
  | .postPark n f rd rs imm => Sys2Proof.Machine.execPostPark n f rd rs imm s
  | .postSusp n f rd rs imm => Sys2Proof.Machine.execPostSusp n f rd rs imm s
  | .parkDelayExpiry d => Sys2Proof.Machine.execParkDelayExpiry d s
  | .tstart n f rs imm => Sys2Proof.Machine.execTstart n f rs imm s
  | .twait n f => Sys2Proof.Machine.execTwait n f s
  | .timerExpiry n => Sys2Proof.Machine.execTimerExpiry n s
  | .evt n f rd rs imm => Sys2Proof.Machine.execEvt n f rd rs imm s
  | .pgen n f rs imm => Sys2Proof.Machine.execPgen n f rs imm s
  | .pchk n f rd rs imm got => Sys2Proof.Machine.execPchk n f rd rs imm got s
  | .seqRun n => Sys2Proof.Machine.execSeqRun n s
  | .seqStop n => Sys2Proof.Machine.execSeqStop n s
  | .channelFaultTimeout n => Sys2Proof.Machine.execChannelFaultTimeout n s
  | .directOpGo n => Sys2Proof.Machine.execDirectOpGo n s
  | .broadcastWrite q x v => Sys2Proof.Machine.execBroadcastWrite q x v s
  | .eraseLedgerWriteAck b => Sys2Proof.Machine.execEraseLedgerWriteAck b s
  | .eraseLedgerClearAck b => Sys2Proof.Machine.execEraseLedgerClearAck b s
  | .preeraseStart set => Sys2Proof.Machine.execPreeraseStart set s
  | .wearRelocationStart set => Sys2Proof.Machine.execWearRelocationStart set s
  | .scrubVisit => Sys2Proof.Machine.execScrubVisit s
  | .linkEnable p => Sys2Proof.Machine.execLinkEnable p s
  | .linkTrained p rate width => Sys2Proof.Machine.execLinkTrained p rate width s
  | .perstAssert p => Sys2Proof.Machine.execPerstAssert p s
  | .perstDeassert p => Sys2Proof.Machine.execPerstDeassert p s
  | .surpriseLinkDown p => Sys2Proof.Machine.execSurpriseLinkDown p s
  | .l0pWidthRequest p w => Sys2Proof.Machine.execL0pWidthRequest p w s
  | .ideIntegrityFail p stream rid slots => Sys2Proof.Machine.execIdeIntegrityFail p stream rid slots s
  | .ideKmKeyProgram p eid session stream set keys => Sys2Proof.Machine.execIdeKmKeyProgram p eid session stream set keys s
  | .vfEnableWrite p enable num => Sys2Proof.Machine.execVfEnableWrite p enable num s
  | .diagctlWrite p v => Sys2Proof.Machine.execDiagctlWrite p v s
  | .createIoSq fn e => Sys2Proof.Machine.execCreateIoSq fn e s
  | .createIoCq fn e => Sys2Proof.Machine.execCreateIoCq fn e s
  | .deleteIoSq fn e => Sys2Proof.Machine.execDeleteIoSq fn e s
  | .deleteIoCq fn e => Sys2Proof.Machine.execDeleteIoCq fn e s
  | .getLogPage fn e => Sys2Proof.Machine.execGetLogPage fn e s
  | .identify fn e => Sys2Proof.Machine.execIdentify fn e s
  | .abort fn e => Sys2Proof.Machine.execAbort fn e s
  | .setFeatures fn e => Sys2Proof.Machine.execSetFeatures fn e s
  | .getFeatures fn e => Sys2Proof.Machine.execGetFeatures fn e s
  | .asyncEventRequest fn e => Sys2Proof.Machine.execAsyncEventRequest fn e s
  | .namespaceManagement fn e => Sys2Proof.Machine.execNamespaceManagement fn e s
  | .namespaceAttachment fn e => Sys2Proof.Machine.execNamespaceAttachment fn e s
  | .firmwareImageDownload fn e => Sys2Proof.Machine.execFirmwareImageDownload fn e s
  | .firmwareCommit fn e bad => Sys2Proof.Machine.execFirmwareCommit fn e bad s
  | .activationDrainTimeout => Sys2Proof.Machine.execActivationDrainTimeout s
  | .activationSwitch => Sys2Proof.Machine.execActivationSwitch s
  | .directiveSend fn e => Sys2Proof.Machine.execDirectiveSend fn e s
  | .directiveReceive fn e => Sys2Proof.Machine.execDirectiveReceive fn e s
  | .virtualizationManagement fn e => Sys2Proof.Machine.execVirtualizationManagement fn e s
  | .nvmeMiSend fn e => Sys2Proof.Machine.execNvmeMiSend fn e s
  | .nvmeMiReceive fn e => Sys2Proof.Machine.execNvmeMiReceive fn e s
  | .formatNvm fn e => Sys2Proof.Machine.execFormatNvm fn e s
  | .sanitize fn e => Sys2Proof.Machine.execSanitize fn e s
  | .tenancyCreate fn e => Sys2Proof.Machine.execTenancyCreate fn e s
  | .tenancyDelete fn e => Sys2Proof.Machine.execTenancyDelete fn e s
  | .setQuotas fn e => Sys2Proof.Machine.execSetQuotas fn e s
  | .mapVf fn e => Sys2Proof.Machine.execMapVf fn e s
  | .setRankSets fn e => Sys2Proof.Machine.execSetRankSets fn e s
  | .formGeometry fn e => Sys2Proof.Machine.execFormGeometry fn e s
  | .readDescriptor fn e => Sys2Proof.Machine.execReadDescriptor fn e s
  | .governorRead fn e => Sys2Proof.Machine.execGovernorRead fn e s
  | .governorWrite fn e => Sys2Proof.Machine.execGovernorWrite fn e s
  | .recorderFreeze fn e => Sys2Proof.Machine.execRecorderFreeze fn e s
  | .recorderUnfreeze fn e => Sys2Proof.Machine.execRecorderUnfreeze fn e s
  | .recorderRead fn e => Sys2Proof.Machine.execRecorderRead fn e s
  | .recorderClearView fn e => Sys2Proof.Machine.execRecorderClearView fn e s
  | .geometryReport fn e => Sys2Proof.Machine.execGeometryReport fn e s
  | .resourceClaim fn e => Sys2Proof.Machine.execResourceClaim fn e s
  | .resourceRelease fn e => Sys2Proof.Machine.execResourceRelease fn e s
  | .diagWindowOpen fn e => Sys2Proof.Machine.execDiagWindowOpen fn e s
  | .diagWindowClose fn e => Sys2Proof.Machine.execDiagWindowClose fn e s
  | .linkTestStart fn e => Sys2Proof.Machine.execLinkTestStart fn e s
  | .linkTestStop fn e lanes => Sys2Proof.Machine.execLinkTestStop fn e lanes s
  | .linkTestStatus fn e lanes => Sys2Proof.Machine.execLinkTestStatus fn e lanes s
  | .linkTestDurationExpiry lanes => Sys2Proof.Machine.execLinkTestDurationExpiry lanes s
  | .controllerReset fn => Sys2Proof.Machine.execControllerReset fn s
  | .controllerEnable fn wrr asqs acqs => Sys2Proof.Machine.execControllerEnable fn wrr asqs acqs s
  | .functionLevelReset fn => Sys2Proof.Machine.execFunctionLevelReset fn s
  | .nvmSubsystemReset here => Sys2Proof.Machine.execNvmSubsystemReset here s
  | .shutdownNotification fn => Sys2Proof.Machine.execShutdownNotification fn s
  | .kweLockRead c => Sys2Proof.Machine.execKweLockRead c s
  | .kweLockWrite c v => Sys2Proof.Machine.execKweLockWrite c v s
  | .kweGen c slot kek => Sys2Proof.Machine.execKweGen c slot kek s
  | .kweWrap c slot kek => Sys2Proof.Machine.execKweWrap c slot kek s
  | .kweUnwrap c slot kek => Sys2Proof.Machine.execKweUnwrap c slot kek s
  | .kweZero c slot kek => Sys2Proof.Machine.execKweZero c slot kek s
  | .kweSeal c slot kek => Sys2Proof.Machine.execKweSeal c slot kek s
  | .kweUnseal c slot kek => Sys2Proof.Machine.execKweUnseal c slot kek s
  | .kweOperationDone => Sys2Proof.Machine.execKweOperationDone s
  | .xtsNskWrite n v => Sys2Proof.Machine.execXtsNskWrite n v s
  | .entropyTestFail adaptive samples => Sys2Proof.Machine.execEntropyTestFail adaptive samples s
  | .bootWatchdogExpiry => Sys2Proof.Machine.execBootWatchdogExpiry s
  | .bootWatchdogStop => Sys2Proof.Machine.execBootWatchdogStop s
  | .otpCommandGo target rrev srev => Sys2Proof.Machine.execOtpCommandGo target rrev srev s
  | .otpProgramDone failed => Sys2Proof.Machine.execOtpProgramDone failed s
  | .getVersion e => Sys2Proof.Machine.execGetVersion e s
  | .getCapabilities e => Sys2Proof.Machine.execGetCapabilities e s
  | .negotiateAlgorithms e asym hash => Sys2Proof.Machine.execNegotiateAlgorithms e asym hash s
  | .getDigests e => Sys2Proof.Machine.execGetDigests e s
  | .getCertificate e slot off len => Sys2Proof.Machine.execGetCertificate e slot off len s
  | .challenge e slot hash => Sys2Proof.Machine.execChallenge e slot hash s
  | .getMeasurements e index sign hash => Sys2Proof.Machine.execGetMeasurements e index sign hash s
  | .keyExchange e hash => Sys2Proof.Machine.execKeyExchange e hash s
  | .finish e session => Sys2Proof.Machine.execFinish e session s
  | .slhDsaSignatureRequest e op off len hash => Sys2Proof.Machine.execSlhDsaSignatureRequest e op off len hash s
  | .slhDsaSignDone e => Sys2Proof.Machine.execSlhDsaSignDone e s
  | .recoveryResetDelay => Sys2Proof.Machine.execRecoveryResetDelay s
  | .readNvmeMiDataStructure b ty port ctl => Sys2Proof.Machine.execReadNvmeMiDataStructure b ty port ctl s
  | .subsystemHealthStatusPoll b => Sys2Proof.Machine.execSubsystemHealthStatusPoll b s
  | .dmcCfgLock d v => Sys2Proof.Machine.execDmcCfgLock d v s
  | .dmaCopy d c => Sys2Proof.Machine.execDmaCopy d c s
  | .dmaFill d c => Sys2Proof.Machine.execDmaFill d c s
  | .dmaCheck d c => Sys2Proof.Machine.execDmaCheck d c s
  | .dmaDone d c bad => Sys2Proof.Machine.execDmaDone d c bad s
  | .dramPatrolScrub a rank dev syms ue dirty => Sys2Proof.Machine.execDramPatrolScrub a rank dev syms ue dirty s
  | .mergeWritebackTimeout d line => Sys2Proof.Machine.execMergeWritebackTimeout d line s
  | .mramCoreStore c a size v w => Sys2Proof.Machine.execMramCoreStore c a size v w s
  | .pstateRequest mode => Sys2Proof.Machine.execPstateRequest mode s
  | .modeTransitionDone => Sys2Proof.Machine.execModeTransitionDone s
  | .wakeEvent src bad dramFail slotBad => Sys2Proof.Machine.execWakeEvent src bad dramFail slotBad s
  | .wakeTimerExpiry => Sys2Proof.Machine.execWakeTimerExpiry s
  | .avsStep mv acked => Sys2Proof.Machine.execAvsStep mv acked s
  | .pwrcapAssert => Sys2Proof.Machine.execPwrcapAssert s
  | .pwrcapRelease => Sys2Proof.Machine.execPwrcapRelease s
  | .thermalTrip => Sys2Proof.Machine.execThermalTrip s
  | .powerLoss => Sys2Proof.Machine.execPowerLoss s
  | .powerLossSequenceEnd pliHigh => Sys2Proof.Machine.execPowerLossSequenceEnd pliHigh s
  | .hucfgWrite v => Sys2Proof.Machine.execHucfgWrite v s
  | .vukLinkEnable v w4ok => Sys2Proof.Machine.execVukLinkEnable v w4ok s
  | .vukTrainingRetry v => Sys2Proof.Machine.execVukTrainingRetry v s
  | .hello v peerMaster node casc serial lanes4 => Sys2Proof.Machine.execHello v peerMaster node casc serial lanes4 s
  | .linkAuthentication v ok => Sys2Proof.Machine.execLinkAuthentication v ok s
  | .linkKeyRenewal v => Sys2Proof.Machine.execLinkKeyRenewal v s
  | .vukoroFrame v seq fec auth => Sys2Proof.Machine.execVukoroFrame v seq fec auth s
  | .enum v id claims => Sys2Proof.Machine.execEnum v id claims s
  | .dupmaster v => Sys2Proof.Machine.execDupmaster v s
  | .nodeList nodes ring lost => Sys2Proof.Machine.execNodeList nodes ring lost s
  | .memberReady node linkUp => Sys2Proof.Machine.execMemberReady node linkUp s
  | .csyncPulse sec err => Sys2Proof.Machine.execCsyncPulse sec err s
  | .timeOrderedSet t err => Sys2Proof.Machine.execTimeOrderedSet t err s
  | .forwardedCommand k tag ten e pair bad => Sys2Proof.Machine.execForwardedCommand k tag ten e pair bad s
  | .forwardedCompletion admin tag st dw0 dw1 data blocks => Sys2Proof.Machine.execForwardedCompletion admin tag st dw0 dw1 data blocks s
  | .pathFailureReroute node dir => Sys2Proof.Machine.execPathFailureReroute node dir s
  | .memberLossTimeout node => Sys2Proof.Machine.execMemberLossTimeout node s
  | .memberFaultReport node => Sys2Proof.Machine.execMemberFaultReport node s
  | .orphanTimeout => Sys2Proof.Machine.execOrphanTimeout s
  | .entdaa addr => Sys2Proof.Machine.execEntdaa addr s
  | .setdasa addr => Sys2Proof.Machine.execSetdasa addr s
  | .rstdaa => Sys2Proof.Machine.execRstdaa s
  | .arpAssignAddress addr => Sys2Proof.Machine.execArpAssignAddress addr s
  | .smbusTransaction => Sys2Proof.Machine.execSmbusTransaction s
  | .setEndpointId b eid => Sys2Proof.Machine.execSetEndpointId b eid s
  | .evpostWrite c v => Sys2Proof.Machine.execEvpostWrite c v s
  | .eventRecordArrival src => Sys2Proof.Machine.execEventRecordArrival src s
  | .eventFlushDone => Sys2Proof.Machine.execEventFlushDone s
  | .rateWindowEnd => Sys2Proof.Machine.execRateWindowEnd s
  | .freezeTimeout => Sys2Proof.Machine.execFreezeTimeout s
  | .temperatureSample ts => Sys2Proof.Machine.execTemperatureSample ts s
  | .voltageSample mvs => Sys2Proof.Machine.execVoltageSample mvs s
  | .ringOscGate counts => Sys2Proof.Machine.execRingOscGate counts s
  | .claimWrite k ix id => Sys2Proof.Machine.execClaimWrite k ix id s
  | .claimRelease k ix id => Sys2Proof.Machine.execClaimRelease k ix id s
  | .tapReset => Sys2Proof.Machine.execTapReset s
  | .extest v => Sys2Proof.Machine.execExtest v s
  | .idcode => Sys2Proof.Machine.execIdcode s
  | .samplePreload v => Sys2Proof.Machine.execSamplePreload v s
  | .highz => Sys2Proof.Machine.execHighz s
  | .clamp => Sys2Proof.Machine.execClamp s
  | .extestPulse => Sys2Proof.Machine.execExtestPulse s
  | .extestTrain => Sys2Proof.Machine.execExtestTrain s
  | .dbgaccess a size w => Sys2Proof.Machine.execDbgaccess a size w s
  | .jtagMbist v => Sys2Proof.Machine.execJtagMbist v s
  | .bypass => Sys2Proof.Machine.execBypass s
  | .mbistGo q isl mem bank => Sys2Proof.Machine.execMbistGo q isl mem bank s
  | .mbistDone failAt => Sys2Proof.Machine.execMbistDone failAt s
  | .minimumRunTimeElapsed d => Sys2Proof.Machine.execMinimumRunTimeElapsed d s
  | .formationResetDelay => Sys2Proof.Machine.execFormationResetDelay s
  | .entropyRestartTestPass => Sys2Proof.Machine.execEntropyRestartTestPass s
  | .entropyWaitTimeout => Sys2Proof.Machine.execEntropyWaitTimeout s
  | .patternCheckerLostLock lane => Sys2Proof.Machine.execPatternCheckerLostLock lane s
  | .linkPowerStateChange p lps => Sys2Proof.Machine.execLinkPowerStateChange p lps s
  | .interruptCoalescingTimeout fn cq => Sys2Proof.Machine.execInterruptCoalescingTimeout fn cq s
  | .generalTimerExpiry t => Sys2Proof.Machine.execGeneralTimerExpiry t s
  | .endSession e session => Sys2Proof.Machine.execEndSession e session s
  | .vukoroLinkDown v => Sys2Proof.Machine.execVukoroLinkDown v s
  | .coreStore c a size v ue => Sys2Proof.Machine.execCoreStore c a size v ue s

end Sys2Proof.Machine
end

