-- ==== Sys2Proof/Machine/Idle.lean ====
section
/-! DEFINITION. What the part does while no command waits: 1 µs passes, and what only waited for work to drain goes on. -/

namespace Sys2Proof.Machine

/-- The length in ns of one idle step (assumption 29). -/
def idleNs : Nat := 1000

/-- Time that the SMART log counts: powered, above the temperature thresholds, and with commands outstanding (R4, assumption 72). -/
def State.smartTime (s : State) : State :=
  let s := s.smartAdd (smartKey fwdFn 9) idleNs
  let s := if 1 ≤ s.hotLevel then s.smartAdd (smartKey fwdFn 10) idleNs else s
  let s := if 2 ≤ s.hotLevel then s.smartAdd (smartKey fwdFn 11) idleNs else s
  (s.hif.slots.map (·.2.fn)).eraseDups.foldl (fun s fn => s.smartAdd (smartKey fn 7) idleNs) s

/-- Time passes: the Marrow timestamp, the residency counter of the mode in force (R378), and what the SMART log counts. -/
def State.passTime (s : State) : State :=
  (({ s with now := s.now + idleNs }).bump (F.AON_RES_COUNT (s.fld F.AON_PSSTAT_CUR)) idleNs).smartTime

/-- Without a Husk the map pages owed are programmed into stage stripes too; the Endurance Groups become read-only once the dirty data and the map pages owed are flushed; from then on HSEQ and
epoch values are reserved in the table journal (R131). -/
def State.noHuskStep (s : State) : State :=
  if s.zne.husk.noHusk && s.zne.bufs.isEmpty && !s.zne.mapDirty.isEmpty then
    match s.pagesLeft with
    | [] => s
    | p :: ps =>
      match s.nextStage ((((Tab.keys s.zne.sets).head?)).getD 0) true with
      | (none, s) => s
      | (some k, s) =>
        let s := ((p :: ps).take s.stageLps).foldl (fun s p => s.packInto k .unassigned none (some p) (some ⟨s.pageData p, 0, 0, false⟩)) s
        s.wantStripe k
  else if s.zne.husk.noHusk && s.zne.bufs.isEmpty then
    let s := s.hk fun h => { h with inJournal := true }
    (Tab.keys s.zne.sets).foldl (fun s n => s.makeReadOnly n) s
  else s

/-- The sweep of each conventional namespace that rolls over reads its next block (R310). -/
def State.sweepStep (s : State) : State := s.sec.sweepAt.foldl (fun s e => s.sweepRead e.1 e.2) s

/-- Erases, creations and rollovers that wait for the key DRBG, for drains or for block erases go on (R311, R312, R314). -/
def State.keyStep (s : State) : State :=
  if s.flag F.SEC_TRNGSTAT_KEYBLK then s.sec.erases.foldl (fun s e => s.eraseStep e) s else s.serveEntropy

/-- Controllers that were told to shut down go on with it (R286). -/
def State.shutdownAll (s : State) : State := (Tab.keys s.hif.fns).foldl (fun s fn => s.shutdownStep fn) s

/-- Rebuilds whose last members were given up, their zones reset, end (R144, R148). -/
def State.rebuildsEnded (s : State) : State :=
  ((Tab.keys s.zne.deadRec).filter fun d => s.flag (F.ZNE_DHS_REBUILD d)).foldl (fun s d => s.rebuildEnded d) s

/-- A conventional block whose entry points to a held buffer that no stripe carries, for want of a segment, is packed (R176, R183). -/
def State.repackConv (s : State) : State :=
  if s.power.loss.isSome then s
  else s.zne.bufs.foldl (fun s e => match e.2.own with
    | .conv n lba ruh =>
      if e.2.st = .held ∧ s.mapAt n lba = some (.buffer e.1) ∧
          (s.zne.stripes.any fun t => t.2.pack.any fun c => c.buf == some e.1) = false then
        (s.convCw n lba ruh false (some e.1) none).2
      else s
    | _ => s) s

/-- One idle step (assumption 29). -/
def State.idle (s : State) : State :=
  (((((((((((s.passTime.ageHealth.returnReleased.pressureStage.rebuildsEnded.reclaimStep).keyStep).shutdownAll).formStep).groupEvents).pruneLost).orphanStep).testBegin).noHuskStep).sweepStep).repackConv).wakeConv

end Sys2Proof.Machine
end

