-- ==== Sys2Proof/Safety.lean ====
section
/-! DEFINITION. What every run keeps, and the conditions that the statements name. -/

namespace Sys2Proof

open Sys2Proof.Machine

/-- The invariant of the part: memory is in its canonical form, so that equal memories are equal data. -/
abbrev Machine.State.Inv (s : State) : Prop := Memory.wf s.mem = true

/-- The commands whose meaning can store to memory, latch the straps or program the OTP: register accesses, which reach another core's TCM
and the MRAM windows, core stores and atomics, DMA, OTP programming, resets, power, and what a command passed on runs. -/
def Instr.mayStore : Instr → Bool
  | .registerWrite .. | .lowWordRead .. | .lowWordWrite .. | .highWordWrite .. | .islClkctlWrite .. | .bar2Read ..
  | .broadcastWrite .. | .fence .. | .amo .. | .storeConditional .. | .remoteTcmWrite .. | .coreStore .. | .mramCoreStore ..
  | .dbgaccess .. | .dout .. | .dmaDone .. | .dramPatrolScrub .. | .mbistDone .. | .kweOperationDone | .otpProgramDone ..
  | .coldReset .. | .warmReset .. | .brownOut .. | .resetRequest | .startUp .. | .bootWatchdogExpiry | .recoveryResetDelay
  | .formationResetDelay | .thermalTrip | .powerLoss | .powerLossSequenceEnd .. | .modeTransitionDone | .wakeEvent ..
  | .firmwareCommit .. | .activationDrainTimeout | .activationSwitch | .forwardedCommand .. | .forwardedCompletion ..
  | .memberLossTimeout .. | .memberFaultReport .. => true
  | _ => false

/-- The commands that sample the straps: cold resets, and the warm reset that ends a power-loss sequence (R10, R422). -/
def Instr.samplesStraps : Instr → Bool
  | .coldReset .. | .warmReset .. | .brownOut .. => true
  | _ => false

/-- The commands that can change the OTP: the end of a programming, and a reset that cuts one off (R327). -/
def Instr.programsOtp : Instr → Bool
  | .coldReset .. | .warmReset .. | .brownOut .. | .otpProgramDone .. => true
  | _ => false

/-- HIF, serving a diagnostic window. -/
def Machine.Requester.isHif : Requester → Bool
  | .hif _ => true
  | _ => false

/-- A requester's access of 2^size bytes reaches an island's window (R12, R22, R23): the requester may make it, the island is powered and
its port not isolated, and the access is an aligned one of 32 or 64 bits. -/
abbrev Machine.State.reaches (s : State) (q : Requester) (isl off size : Nat) : Prop :=
  s.mayAccess q isl = true ∧ s.gated isl = false ∧ s.fab.isolated.contains isl = false ∧ 2 ≤ size ∧ off % 2 ^ size = 0

/-- An offset of an island that holds no register, nor a word of another window: the recorder's buffer, a core's TCM, the broadcast window. -/
abbrev Machine.emptyAt (isl off : Nat) : Prop :=
  regFind (regKey isl off) = none ∧ ¬(isl = 2 ∧ 0x40000 ≤ off ∧ off < 0x80000) ∧
    ¬(0x10 ≤ isl ∧ isl < 0x30 ∧ 0x80000 ≤ off ∧ off < 0xA0000) ∧ ¬(isl = 0x30 ∧ 0x80000 ≤ off)

/-- A core runs. -/
abbrev Machine.State.coreRuns (s : State) (c : CoreId) : Prop := s.cores.halted.getLsbD c.val = false

/-- Where a core's store to an address goes in the map: its own TCM stands in its island's window (R27). -/
def Machine.State.storeAt (s : State) (c : CoreId) (a : Nat) : Nat :=
  match s.region a with
  | .itcm => tcmAddr c.val false (a - 0x08000000)
  | .dtcm => tcmAddr c.val true (a - 0x08010000)
  | _ => a

/-- An admin command of a function is executed, for the needs of its row (R271, R275): the part is not on the recovery path, the function's
controller serves its admin queue, and nothing denies the command to it. -/
abbrev Machine.State.adminGo (s : State) (fn : FnId) (n : AdminNeeds) : Prop :=
  s.recovery = false ∧ s.adminRuns fn.val = true ∧ s.adminDenies fn.val n = none

/-- The completion of an admin command of a function. -/
def Machine.adminCpl (fn : FnId) (e : Sqe) (st : Status) (dw0 : Nat := 0) (data : List Byte := []) : Cpl :=
  ⟨fn.val, 0, e.cid.toNat, st, dw0, 0, data, []⟩

/-- An I/O command that holds a command slot has not started and was found well formed when it was decoded (R271, R274). -/
abbrev Machine.State.serves (s : State) (i opc : Nat) (x : Slot) : Prop := s.startable i opc = some x ∧ x.err = none

/-- A zone command that names one zone, once it acts (R54, R81): its transition, and its completion with the status of that. -/
def Machine.State.zoneDone (s : State) (i z act : Nat) : State :=
  let bad := if (s.zoneAct z act).1 = .success then none else some (s.zoneAct z act).1
  let u := (s.zoneAct z act).2.modSlot i fun y => { y with zst := y.zst.or bad }
  u.complete i (((u.slot i).bind (·.zst)).getD .success)

/-- A requester's negotiation with the SPDM responder is complete, over a binding that is up (R330). -/
abbrev Machine.State.spdmGo (s : State) (e : EpId) : Prop := s.hears e = true ∧ 3 ≤ (s.ep e).stage

/-- A channel's sequencer runs and its program counter stands at this instruction, whose word comes out of the instruction memory intact or
corrected (R199, R203). -/
abbrev Machine.State.runsKz (s : State) (n : Chan) (f : Fetch) (i : Instr) : Prop :=
  s.fld (F.CH_SEQSTAT_STATE n) = 1 ∧ f ≠ .double ∧
    kzEncode i = some (BitVec.ofNat 32 (s.fld (F.CH_IMEM_WORD n (s.fld (F.CH_SEQSTAT_PC n)))))

/-- The state in which a fetched instruction runs: a word that was corrected has been counted (R199). -/
def Machine.State.fetched (s : State) (n : Chan) (f : Fetch) : State := if f = .single then s.imemCe n else s

/-- The operands of an ALU instruction (R204): k[rs] and the immediate, or k[rd] and k[rs]. -/
def Machine.Seq.aluArgs (q : Seq) (rd rs : BitVec 4) (imm : BitVec 18) : W32 × W32 :=
  if imm.getLsbD 17 then (q.reg rs.toNat, (imm.extractLsb' 0 12).zeroExtend 32) else (q.reg rd.toNat, q.reg rs.toNat)

/-- An ALU instruction with its result r and what COND 3 tests (R204): k[rd] takes the result; p[PD] is set from it where PW is 1. -/
def Machine.Seq.aluEnd (q : Seq) (rd : BitVec 4) (imm : BitVec 18) (r : W32) (out : Bool) : Seq :=
  let q := q.setReg rd.toNat r
  if imm.getLsbD 16 then
    q.setPred (imm.extractLsb' 14 2).toNat (match (imm.extractLsb' 12 2).toNat with
      | 0 => decide (r = 0)
      | 1 => decide (r ≠ 0)
      | 2 => r.getLsbD 31
      | _ => out)
  else q

end Sys2Proof
end

