-- ==== Sys2Proof/Certificates/Slice0/Obligations.lean ====
section
/-! DEFINITION. The statements about the part. -/

open Sys2Proof Sys2Proof.Machine

/-- For every command and state, a step of the state with the command at the front of its queue is exec of the command on the state with the rest of the queue. -/
def Obligations.step_runs_front : Prop :=
  ∀ (s : State) (c : Instr) (cs : List Instr), step { s with pending := c :: cs } = exec c { s with pending := cs }

/-- On an empty queue a step answers a next state in which the queue is empty still, memory reads as before, and the straps, the ordering code and the OTP stay (the idle step is the model's own, assumption 29). -/
def Obligations.idle_step : Prop :=
  ∀ (s : State), s.pending = [] → ∃ t, step s = .next t ∧ t.pending = [] ∧
    (∀ a, Memory.read t.mem a = Memory.read s.mem a) ∧ t.straps = s.straps ∧ t.xb = s.xb ∧ t.boot.otp = s.boot.otp

/-- Memory is in its canonical form in the reset state. -/
def Obligations.reset_invariant : Prop :=
  State.reset.Inv

/-- In the reset state every register but the attributes of key slots 0 to 2 holds its Reset value (R10); every island has its own index in ISL_ID and runs from its RC oscillator with its PLL off (R15, R17); the core set point of the thermal loop is 95 degrees (R370); no key engine is held, no PLL locked and no sequencer runs. -/
def Obligations.reset_registers : Prop :=
  (∀ key, key ≠ 0x301000 → key ≠ 0x301004 → key ≠ 0x301008 → State.reset.word key = resetWord key) ∧
  (∀ isl : Isl, State.reset.fld (F.ISL_ID_INDEX isl.val) = isl.val ∧ State.reset.flag (F.ISL_CLKCTL_PLLEN isl.val) = false ∧
    State.reset.flag (F.ISL_CLKSTAT_SRCACT isl.val) = false ∧ State.reset.flag (F.ISL_CLKSTAT_LOCK isl.val) = false) ∧
  State.reset.fld (F.LPE_SP_TARGET 144) = 0x5F00 ∧ State.reset.flag F.KWE_LOCK_HELD = false ∧
  (∀ n : Chan, State.reset.fld (F.CH_SEQSTAT_STATE n.val) = 0)

/-- No command faults and none is refused: exec of every command in every state answers a next state. -/
def Obligations.every_command_answers : Prop :=
  ∀ (c : Instr) (s : State), ∃ t, exec c s = .next t

/-- From every state whose memory is in its canonical form, a step that answers a next state leaves memory in its canonical form, whatever command stands in front. -/
def Obligations.step_keeps_invariant : Prop :=
  ∀ (s t : State), s.Inv → step s = .next t → t.Inv

/-- Whatever command runs, the queue of waiting commands and the grading of the part (R412) are as before. -/
def Obligations.exec_keeps_queue : Prop :=
  ∀ (c : Instr) (s t : State), exec c s = .next t → t.pending = s.pending ∧ t.xb = s.xb

/-- The commands outside the named list of storing ones leave every byte of memory, the straps and the OTP as they were. -/
def Obligations.memory_frame : Prop :=
  ∀ (c : Instr) (s t : State), c.mayStore = false → exec c s = .next t →
    (∀ a, Memory.read t.mem a = Memory.read s.mem a) ∧ t.straps = s.straps ∧ t.boot.otp = s.boot.otp

/-- A command other than a cold reset, a brown-out or a warm reset leaves the straps; one that is none of these nor the end of an OTP programming leaves the OTP. A cold reset and a brown-out take the straps given. Commands whose answer it states, as exec = next under conditions on operands and state alone: coldReset, brownOut. -/
def Obligations.straps_and_otp_isolated : Prop :=
  (∀ (c : Instr) (s t : State), c.samplesStraps = false → exec c s = .next t → t.straps = s.straps) ∧
  (∀ (c : Instr) (s t : State), c.programsOtp = false → exec c s = .next t → t.boot.otp = s.boot.otp) ∧
  (∀ (p m : Fin 4) (b : Bool) (bad : BitVec 2) (s : State), ∃ t, exec (.coldReset p m b bad) s = .next t ∧
    t.straps = ⟨p.val, m.val, b2n b⟩) ∧
  (∀ (p m : Fin 4) (b : Bool) (bad : BitVec 2) (s : State), ∃ t, exec (.brownOut p m b bad) s = .next t ∧
    t.straps = ⟨p.val, m.val, b2n b⟩)

/-- Every well-formed Kazino instruction, with every operand at every value its encoding admits, decodes from its own word to what the word says of it: the instruction with the bytes a die gives it taken as 0. -/
def Obligations.kazino_words_round_trip : Prop :=
  ∀ (n : Chan) (f : Fetch) (i : Instr) (w : W32), i.wf = true → i.site = some (n, f) → kzEncode i = some w →
    kzDecode n f w = some i.bare

/-- An instruction that a word decodes to is well formed, on the channel and fetch given, and has that word. Words written out from R203: the example dout k6, k11, 0x11C0 is 0x21AC_11C0; add k1, k2, 16; brc !p0, 5; a word of 0 is HALT; an opcode not listed and kind 3 of POST spell nothing. -/
def Obligations.kazino_words : Prop :=
  (∀ (n : Chan) (f : Fetch) (i : Instr) (w : W32), kzDecode n f w = some i →
    kzEncode i = some w ∧ i.wf = true ∧ i.site = some (n, f)) ∧
  ((∀ data, kzEncode (.dout 0 .ok 6 11 0x11C0 data) = some 0x21AC11C0) ∧
  kzDecode 0 .ok 0x21AC11C0 = some (.dout 0 .ok 6 11 0x11C0 (List.replicate 0x11C0 0)) ∧
  kzDecode 0 .ok 0b010011_0001_0010_10_0000_0000_0001_0000 = some (.add 0 .ok 1 2 0x20010) ∧
  kzDecode 3 .single 0b100001_0000_0000_00_0000_0000_0000_0101 = some (.brc 3 .single 5) ∧
  kzDecode 127 .ok 0 = some (.halt 127 .ok) ∧ kzDecode 0 .ok 0b000001_0000_0000_00_0000_0000_0000_0000 = none ∧
  kzDecode 0 .ok 0b101001_0001_0000_00_0011_0000_0000_0000 = none ∧
  kzDecode 0 .ok 0b100011_0001_0000_00_0000_0000_0000_0000 = none)

/-- A write by any requester but HIF that reaches an island is the write of one word, or of the low and then the high word; a read by any requester answers the word, or both, with what the read of each leaves; HIF writes nothing; a broadcast write reaches offset x of every channel island that is populated and stopped and whose port takes it; a BAR2 read of one doubleword while the window is open is the read of that word by HIF, and a longer one is the shorter one and then one more; a BAR2 write is discarded. Commands whose answer it states, as exec = next under conditions on operands and state alone: registerWrite, lowWordRead, bar2Read, broadcastWrite. -/
def Obligations.register_accesses : Prop :=
  (∀ q isl off v s, q.isHif = false → s.reaches q isl.val off.toNat 2 → ¬(isl.val = 0x30 ∧ 0x80000 ≤ off.toNat) →
    exec (.registerWrite q isl off 2 v) s = .next (s.wordWrite q isl.val off.toNat (v.toNat % 2 ^ 32))) ∧
  (∀ q isl off v s, q.isHif = false → s.reaches q isl.val off.toNat 3 → ¬(isl.val = 0x30 ∧ 0x80000 ≤ off.toNat) →
    exec (.registerWrite q isl off 3 v) s = .next ((s.wordWrite q isl.val off.toNat (v.toNat % 2 ^ 32)).wordWrite q isl.val
      (off.toNat + 4) (v.toNat / 2 ^ 32))) ∧
  (∀ p isl off size v s, exec (.registerWrite (.hif p) isl off size v) s = .next s) ∧
  (∀ q isl off s, (q.isHif = true → hifHidden isl.val off.toNat = false) → s.reaches q isl.val off.toNat 2 →
    exec (.lowWordRead q isl off 2) s = .next ((s.wordRead q isl.val off.toNat).2.answer q
      (BitVec.ofNat 64 (s.wordRead q isl.val off.toNat).1))) ∧
  (∀ q isl off s, (q.isHif = true → hifHidden isl.val off.toNat = false) → s.reaches q isl.val off.toNat 3 →
    exec (.lowWordRead q isl off 3) s = .next (((s.wordRead q isl.val off.toNat).2.wordRead q isl.val (off.toNat + 4)).2.answer q
      (BitVec.ofNat 64 ((s.wordRead q isl.val off.toNat).1 +
        ((s.wordRead q isl.val off.toNat).2.wordRead q isl.val (off.toNat + 4)).1 * 2 ^ 32)))) ∧
  (∀ q x v s, q.isHif = false → s.reaches q 0x30 (0x80000 + x.toNat) 2 →
    exec (.broadcastWrite q x v) s = .next
      (((List.range (if s.fld F.ZNE_GEOM_CHANNELS = 0 then 128 else s.fld F.ZNE_GEOM_CHANNELS)).filter
        fun n => s.fld (F.CH_SEQSTAT_STATE n) == 0 && !s.portDown (0x30 + n)).foldl (fun s n => s.wordWrite q (0x30 + n) x.toNat v.toNat) s)) ∧
  (∀ (p : Port) (off : BitVec 20) (s : State), s.flag (F.HIF_DIAGCTL_OPEN p.val) = true →
    hifHidden (s.fld (F.HIF_DIAGCTL_ISEL p.val)) (off.toNat / 4 * 4) = false → s.gated (s.fld (F.HIF_DIAGCTL_ISEL p.val)) = false →
    s.fld (F.HIF_DIAGCTL_ISEL p.val) < 176 →
    exec (.bar2Read p off 0) s = .next (s.csrRead (.hif p) (s.fld (F.HIF_DIAGCTL_ISEL p.val)) (off.toNat / 4 * 4) 2)) ∧
  (∀ (p : Port) (off : BitVec 20) (n : BitVec 10) (s t : State), n.toNat < 1023 →
    off.toNat / 4 * 4 + 4 * (n.toNat + 1) < 0x100000 → exec (.bar2Read p off n) s = .next t →
    exec (.bar2Read p off (n + 1)) s = exec (.bar2Read p (BitVec.ofNat 20 (off.toNat / 4 * 4 + 4 * (n.toNat + 1))) 0) t) ∧
  (∀ p off v s, exec (.bar2Write p off v) s = .next s)

/-- Of a 64-bit register that stands at an offset: a read of the low word answers it and latches the high word for the reader alone; the next read of the high word by the same requester answers the latched value and empties the latch, and with an empty latch it answers the current high word; a write of the low word is held in the writer's shadow and does nothing else; a write of the high word commits shadow and high word as one value and empties the shadow; with an empty shadow it writes the high word alone (R13). No other requester's latch or shadow changes. Commands whose answer it states, as exec = next under conditions on operands and state alone: lowWordRead, lowWordWrite, highWordWrite. -/
def Obligations.words_of_wide_registers : Prop :=
  ∀ (q : Requester) (isl : Isl) (off hoff : BitVec 20) (d : RegDef) (k : Nat) (s : State), q.isHif = false →
    regFind (regKey isl.val off.toNat) = some (d, k, 0) → regFind (regKey isl.val hoff.toNat) = some (d, k, 4) →
    hoff.toNat = off.toNat + 4 → d.wide = true → d.id ≠ .KWE_LOCK → ¬(isl.val = 0x30 ∧ 0x80000 ≤ hoff.toNat) →
    let key := regKey isl.val off.toNat
    (s.reaches q isl.val off.toNat 2 →
      exec (.lowWordRead q isl off 2) s = .next (State.answer { s with
          latch := Tab.set s.latch (latchKey q key) (BitVec.ofNat 32 (s.shown d isl.val k key / 2 ^ 32)) } q
        (BitVec.ofNat 64 (s.shown d isl.val k key % 2 ^ 32))) ∧
      ∀ v, exec (.lowWordWrite q isl off v) s = .next { s with shadow := Tab.set s.shadow (latchKey q key) v }) ∧
    (s.reaches q isl.val hoff.toNat 2 →
      (∀ h, Tab.find s.latch (latchKey q key) = some h → exec (.lowWordRead q isl hoff 2) s =
        .next (State.answer { s with latch := Tab.erase s.latch (latchKey q key) } q (BitVec.ofNat 64 h.toNat))) ∧
      (Tab.find s.latch (latchKey q key) = none → exec (.lowWordRead q isl hoff 2) s =
        .next (s.answer q (BitVec.ofNat 64 (s.shown d isl.val k key / 2 ^ 32)))) ∧
      (∀ (v lo : W32), Tab.find s.shadow (latchKey q key) = some lo → exec (.highWordWrite q isl hoff v) s =
        .next (State.regWrite { s with shadow := Tab.erase s.shadow (latchKey q key) } q d isl.val k key
          (lo.toNat + v.toNat * 2 ^ 32) (2 ^ 64 - 1))) ∧
      (∀ v : W32, Tab.find s.shadow (latchKey q key) = none → exec (.highWordWrite q isl hoff v) s =
        .next (s.regWrite q d isl.val k key (v.toNat * 2 ^ 32) (2 ^ 64 - 2 ^ 32)))) ∧
    (∀ q' key' : _, q' ≠ q → key' < 2 ^ 40 → key < 2 ^ 40 → latchKey q' key' ≠ latchKey q key)

/-- For every register of the table, every field and every value: a full write leaves in the field what the types of R8 say, the written bits (RW, RS), the held bits (RO), the held bits where the lock is set and else the written ones (RWL), the held bits cleared where 1 is written (W1C), and 0 (WO); the bits that belong to no field read 0 (R11). A register without a write action, and without hardware that follows it, takes that word unless it breaks a range (R439). -/
def Obligations.access_types : Prop :=
  (∀ d ∈ RegTable.all, ∀ f ∈ d.fields, ∀ (locked : Bool) (old v : W64),
    bits (mergeWord d locked old.toNat v.toNat (2 ^ 64 - 1)) f.lo f.w =
      match f.ty with
      | .rw | .rs => bits v.toNat f.lo f.w
      | .ro => bits old.toNat f.lo f.w
      | .rwl => if locked then bits old.toNat f.lo f.w else bits v.toNat f.lo f.w
      | .w1c => bits (old &&& ~~~v).toNat f.lo f.w
      | .wo => 0) ∧
  (∀ d ∈ RegTable.all, ∀ (locked : Bool) (old v : W64) (b : Nat), (∀ f ∈ d.fields, b < f.lo ∨ f.lo + f.w ≤ b) →
    (mergeWord d locked old.toNat v.toNat (2 ^ 64 - 1)).testBit b = false) ∧
  (∀ (s : State) (d : RegDef) (isl k key v mask : Nat),
    (s.validWord d k (mergeWord d (s.locked d isl) (s.word key).toNat v mask) = false → s.plainWrite d isl k key v mask = s) ∧
    (s.validWord d k (mergeWord d (s.locked d isl) (s.word key).toNat v mask) = true →
      d.id ∉ [.ZNE_DIRTYCFG, .ZNE_TPRED1, .ZNE_PWRRES, .ZNE_PWRBUD, .ZNE_PCAP] → s.plainWrite d isl k key v mask =
        s.setWord key (BitVec.ofNat 64 (mergeWord d (s.locked d isl) (s.word key).toNat v mask))))

/-- An access by a running core of another width than 32 or 64 bits, or not naturally aligned, takes an access-fault trap on that core and leaves every register unchanged; a read of an offset that holds no register returns 0 and a write to it is ignored. Commands whose answer it states, as exec = next under conditions on operands and state alone: registerWrite, lowWordRead. -/
def Obligations.misaligned_and_empty_offsets : Prop :=
  (∀ (c : CoreId) (isl : Isl) (off : BitVec 20) (size : Fin 4) (v : W64) (s : State), s.coreRuns c →
    (size.val < 2 ∨ off.toNat % 2 ^ size.val ≠ 0) →
    (∃ t, exec (.registerWrite (.core c) isl off size v) s = .next t ∧ t.csr = s.csr ∧
      t.traps = s.traps ++ [⟨c.val, .store, csrAddr isl.val off.toNat⟩]) ∧
    (∃ t, exec (.lowWordRead (.core c) isl off size) s = .next t ∧ t.csr = s.csr ∧
      t.traps = s.traps ++ [⟨c.val, .load, csrAddr isl.val off.toNat⟩])) ∧
  (∀ (c : CoreId) (isl : Isl) (off : BitVec 20) (v : W64) (s : State), s.reaches (.core c) isl.val off.toNat 2 →
    emptyAt isl.val off.toNat →
    exec (.lowWordRead (.core c) isl off 2) s = .next (s.answer (.core c) 0) ∧
    exec (.registerWrite (.core c) isl off 2 v) s = .next s) ∧
  (∀ (c : CoreId) (isl : Isl) (off : BitVec 20) (v : W64) (s : State), s.reaches (.core c) isl.val off.toNat 3 →
    emptyAt isl.val off.toNat → emptyAt isl.val (off.toNat + 4) →
    exec (.lowWordRead (.core c) isl off 3) s = .next (s.answer (.core c) 0) ∧
    exec (.registerWrite (.core c) isl off 3 v) s = .next s)

/-- A core's access to the window of a power-gated island takes an access-fault trap at once, leaves the register unchanged, records the island in FAB_PORTERR and posts no event; a busy DMA channel whose request goes there halts with a status. Commands whose answer it states, as exec = next under conditions on operands and state alone: registerWrite, lowWordRead, powerGatedAccess. -/
def Obligations.gated_islands : Prop :=
  (∀ (c : CoreId) (isl : Isl) (off : BitVec 20) (store : Bool) (s : State), s.gated isl.val = true →
    ∃ t, exec (.powerGatedAccess (.core c) isl off store) s = .next t ∧
      t.traps = s.traps ++ [⟨c.val, if store then .store else .load, csrAddr isl.val off.toNat⟩] ∧
      t.csr = s.csr ∧ t.fab.portErr = isl.val ∧ t.evr = s.evr ∧ t.mem = s.mem) ∧
  (∀ (c : CoreId) (isl : Isl) (off : BitVec 20) (size : Fin 4) (v : W64) (s : State), s.coreRuns c → s.gated isl.val = true →
    (∃ t, exec (.registerWrite (.core c) isl off size v) s = .next t ∧
      t.traps = s.traps ++ [⟨c.val, .store, csrAddr isl.val off.toNat⟩] ∧ t.csr = s.csr ∧ t.fab.portErr = isl.val ∧
      t.evr = s.evr) ∧
    (∃ t, exec (.lowWordRead (.core c) isl off size) s = .next t ∧
      t.traps = s.traps ++ [⟨c.val, .load, csrAddr isl.val off.toNat⟩] ∧ t.csr = s.csr ∧ t.fab.portErr = isl.val ∧
      t.evr = s.evr)) ∧
  (∀ (n : Fin 8) (isl : Isl) (off : BitVec 20) (store : Bool) (s : State), s.gated isl.val = true →
    s.flag (F.DMC_DMACTL_BUSY (n.val / 4) (n.val % 4)) = true →
    ∃ t, exec (.powerGatedAccess (.dma n) isl off store) s = .next t ∧
      t.flag (F.DMC_DMACTL_HALT (n.val / 4) (n.val % 4)) = true ∧ t.flag (F.DMC_DMACTL_BUSY (n.val / 4) (n.val % 4)) = false ∧
      t.fld (F.DMC_DMACTL_STATUS (n.val / 4) (n.val % 4)) ≠ 0 ∧ t.fab.portErr = isl.val ∧ t.evr = s.evr)

/-- With its PLL enabled and locked and its rail in its window, a write of PLLEN and SRC 1 moves an island other than Marrow to its PLL, and a write of both 0 moves it back to its RC oscillator with LOCK 0 (R17); an enabled PLL locks (R15); loss of lock while the PLL is selected leaves the island on RC with LOSSLOCK set and event 0x0A0D (R16); a destination that does not answer ends the access with an error, its port isolated and recorded, with event 0x0A0E, until firmware re-enables the port (R22). Commands whose answer it states, as exec = next under conditions on operands and state alone: islClkctlWrite, pllLock, pllLossOfLock, handshakeTimeout, fabPortctlWrite. -/
def Obligations.clocks_and_fabric : Prop :=
  (∀ q isl (v : W32) s, q.isHif = false → s.reaches q isl.val 8 2 → isl.val ≠ 0 → v.getLsbD 0 = true → v.getLsbD 1 = true →
    s.flag (F.ISL_CLKCTL_PLLEN isl.val) = true → s.flag (F.ISL_CLKSTAT_LOCK isl.val) = true →
    (s.flag (F.ISL_CLKSTAT_SRCACT isl.val) = true ∨ s.phyOk isl.val = true) →
    exec (.islClkctlWrite q isl v) s = .next (((s.setFld (F.ISL_CLKCTL_PLLEN isl.val) 1).setFld (F.ISL_CLKCTL_SRC isl.val) 1).setFld
      (F.ISL_CLKSTAT_SRCACT isl.val) 1)) ∧
  (∀ q isl (v : W32) s, q.isHif = false → s.reaches q isl.val 8 2 → isl.val ≠ 0 → v.getLsbD 0 = false → v.getLsbD 1 = false →
    s.flag (F.ISL_CLKCTL_PLLEN isl.val) = true →
    exec (.islClkctlWrite q isl v) s = .next ((((s.setFld (F.ISL_CLKCTL_PLLEN isl.val) 0).setFld (F.ISL_CLKCTL_SRC isl.val) 0).setFld
      (F.ISL_CLKSTAT_SRCACT isl.val) 0).setFld (F.ISL_CLKSTAT_LOCK isl.val) 0)) ∧
  (∀ (isl : Isl) (s : State), s.flag (F.ISL_CLKCTL_PLLEN isl.val) = true → ∃ t, exec (.pllLock isl) s = .next t ∧
    t = s.setFld (F.ISL_CLKSTAT_LOCK isl.val) 1 ∧ t.fld (F.ISL_CLKSTAT_LOCK isl.val) = 1) ∧
  (∀ (isl : Isl) (s : State), s.flag (F.ISL_CLKSTAT_LOCK isl.val) = true → s.flag (F.ISL_CLKSTAT_SRCACT isl.val) = true →
    ∃ t u, exec (.pllLossOfLock isl) s = .next t ∧ t = u.mgtPost 0x0A0D [(8, isl.val)] ∧
      u = ((s.setFld (F.ISL_CLKSTAT_LOCK isl.val) 0).setFld (F.ISL_CLKSTAT_SRCACT isl.val) 0).setFld
        (F.ISL_CLKSTAT_LOSSLOCK isl.val) 1 ∧
      u.fld (F.ISL_CLKSTAT_LOCK isl.val) = 0 ∧ u.fld (F.ISL_CLKSTAT_SRCACT isl.val) = 0 ∧
      u.fld (F.ISL_CLKSTAT_LOSSLOCK isl.val) = 1) ∧
  (∀ (c : CoreId) (isl : Isl) (store : Bool) (a : BitVec 40) (s : State), s.gated 2 = false →
    ∃ t, exec (.handshakeTimeout (.core c) isl store a) s = .next t ∧ t.fab.isolated.contains isl.val = true ∧
      t.fab.portErr = isl.val ∧ t.traps = s.traps ++ [⟨c.val, if store then .store else .load, a.toNat⟩] ∧ t.csr = s.csr ∧
      ∃ e, t.evr.transit = s.evr.transit ++ [e] ∧ e.id = 0x0A0E ∧ e.sev = 4) ∧
  (∀ (n : Fin 8) (isl : Isl) (store : Bool) (a : BitVec 40) (s : State),
    s.flag (F.DMC_DMACTL_BUSY (n.val / 4) (n.val % 4)) = true → s.gated 2 = false →
    ∃ t, exec (.handshakeTimeout (.dma n) isl store a) s = .next t ∧ t.fab.isolated.contains isl.val = true ∧
      t.fab.portErr = isl.val ∧ t.flag (F.DMC_DMACTL_HALT (n.val / 4) (n.val % 4)) = true ∧
      t.fld (F.DMC_DMACTL_STATUS (n.val / 4) (n.val % 4)) ≠ 0) ∧
  (∀ (c : CoreId) (isl : Isl) (s : State), s.coreRuns c → ∃ t, exec (.fabPortctlWrite c isl) s = .next t ∧
    t.fab.isolated.contains isl.val = false ∧ (∀ j, j ≠ isl.val → t.fab.isolated.contains j = s.fab.isolated.contains j) ∧
    t.csr = s.csr ∧ t.mem = s.mem)

/-- On shared SRAM and DRAM, aligned and outside the guarded tables, an AMO writes the operation of the old value and the operand and answers the old value, LOAD_RESERVED reserves the 64 B granule and answers the value, STORE_CONDITIONAL stores and answers 0 while the core's reservation holds the granule, and else stores nothing, gives the reservation up and answers 1 (1 is the model's, assumption 35). To any other region each takes an access-fault trap (that a load's is recorded is the model's, assumption 53). An AMO and a STORE_CONDITIONAL change no byte of memory outside the 4 or 8 bytes at their address, and, while the event recorder has power, no register but the counters of uncorrectable DRAM words; they leave the pins, the host interface, the zones, the keys, MRAM, the Loop Engine and the sequencers. A LOAD_RESERVED changes no byte of memory. Commands whose answer it states, as exec = next under conditions on operands and state alone: amo, loadReserved, storeConditional. -/
def Obligations.atomics : Prop :=
  ((∀ (c : CoreId) (a : BitVec 40) (wide : Bool) (op : AmoOp) (v : W64) (s : State), s.coreRuns c →
    let n := if wide then 8 else 4
    s.atomicOk a.toNat n = true → s.guarded a.toNat = false → s.atomicBad a.toNat n false = false →
    exec (.amo c a wide op v false) s = .next ((s.atomicWrite c.val a.toNat n
        (op.apply (8 * n) (Memory.readNat s.mem a.toNat n) v.toNat)).answer (.core c)
      (BitVec.ofNat 64 (Memory.readNat s.mem a.toNat n)))) ∧
  (∀ (c : CoreId) (a : BitVec 40) (wide : Bool) (s : State), s.coreRuns c →
    let n := if wide then 8 else 4
    s.atomicOk a.toNat n = true → s.atomicBad a.toNat n false = false →
    ∃ t, exec (.loadReserved c a wide false) s = .next t ∧ Tab.find t.cores.resv c.val = some (a.toNat / 64) ∧
      Tab.find t.resp c.val = some (BitVec.ofNat 64 (s.readNat a.toNat n)) ∧
      (s.guarded a.toNat = false → s.readNat a.toNat n = Memory.readNat s.mem a.toNat n) ∧ t.mem = s.mem ∧ t.csr = s.csr ∧
      ∀ d : CoreId, d ≠ c → Tab.find t.cores.resv d.val = Tab.find s.cores.resv d.val) ∧
  (∀ (c : CoreId) (a : BitVec 40) (wide : Bool) (v : W64) (s : State), s.coreRuns c →
    let n := if wide then 8 else 4
    s.atomicOk a.toNat n = true → s.guarded a.toNat = false → Tab.find s.cores.resv c.val = some (a.toNat / 64) →
    exec (.storeConditional c a wide v) s = .next ((s.atomicWrite c.val a.toNat n (v.toNat % 2 ^ (8 * n))).answer (.core c) 0)) ∧
  (∀ (c : CoreId) (a : BitVec 40) (wide : Bool) (v : W64) (s : State), s.coreRuns c →
    s.atomicOk a.toNat (if wide then 8 else 4) = true → s.guarded a.toNat = false →
    Tab.find s.cores.resv c.val ≠ some (a.toNat / 64) →
    ∃ t, exec (.storeConditional c a wide v) s = .next t ∧ t.mem = s.mem ∧ t.csr = s.csr ∧
      Tab.find t.resp c.val = some 1 ∧ t.cores.resv = Tab.erase s.cores.resv c.val) ∧
  (∀ (c : CoreId) (a : BitVec 40) (wide : Bool) (op : AmoOp) (v : W64) (ue : Bool) (s : State), s.coreRuns c →
    s.region a.toNat ≠ .sram → s.region a.toNat ≠ .dram →
    exec (.amo c a wide op v ue) s = .next (s.trap c.val .load a.toNat) ∧
    exec (.loadReserved c a wide ue) s = .next (s.trap c.val .load a.toNat) ∧
    exec (.storeConditional c a wide v) s = .next (s.trap c.val .load a.toNat))) ∧
  ((∀ (c : CoreId) (a : BitVec 40) (wide : Bool) (op : AmoOp) (v : W64) (ue : Bool) (s t : State),
    exec (.amo c a wide op v ue) s = .next t →
    (∀ x, x < a.toNat ∨ a.toNat + (if wide then 8 else 4) ≤ x → Memory.read t.mem x = Memory.read s.mem x) ∧
    (s.gated 2 = false → ∀ key, (∀ d < 2, ∀ i < 2, key ≠ (F.DMC_UECNT_COUNT d i).addr) → t.word key = s.word key) ∧
    t.pins = s.pins ∧ t.hif = s.hif ∧ t.zne = s.zne ∧ t.sec = s.sec ∧ t.mram = s.mram ∧ t.lpe = s.lpe ∧ t.seqs = s.seqs) ∧
  (∀ (c : CoreId) (a : BitVec 40) (wide : Bool) (v : W64) (s t : State), exec (.storeConditional c a wide v) s = .next t →
    (∀ x, x < a.toNat ∨ a.toNat + (if wide then 8 else 4) ≤ x → Memory.read t.mem x = Memory.read s.mem x) ∧
    (s.gated 2 = false → ∀ key, (∀ d < 2, ∀ i < 2, key ≠ (F.DMC_UECNT_COUNT d i).addr) → t.word key = s.word key) ∧
    t.pins = s.pins ∧ t.hif = s.hif ∧ t.zne = s.zne ∧ t.sec = s.sec ∧ t.mram = s.mram ∧ t.lpe = s.lpe ∧ t.seqs = s.seqs) ∧
  (∀ (c : CoreId) (a : BitVec 40) (wide ue : Bool) (s t : State), exec (.loadReserved c a wide ue) s = .next t → t.mem = s.mem))

/-- An aligned store of a running core to its own ITCM or DTCM, to shared SRAM, to retention SRAM or to DRAM outside the guarded tables, through a port that takes it, leaves the bytes of the value, low byte first, at the address it goes to (a core's TCM at its place in the map, R27), and every other byte of memory as it was; a store to ROM, outside every region, misaligned (the model's choice, assumption 53), or to a guarded table takes an access-fault trap and leaves all of memory, and so does one that its island's port does not take; a store to MRAM is an MRAM_CORE_STORE, and one to a CSR window is a write of its register, with the trap of R12 where it is misaligned or narrower than 32 bits. Commands whose answer it states, as exec = next under conditions on operands and state alone: coreStore. -/
def Obligations.core_stores : Prop :=
  (∀ (c : CoreId) (a : BitVec 40) (size : Fin 4) (v : W64) (ue : Bool) (s : State), s.Inv → s.coreRuns c → a.toNat % 2 ^ size.val = 0 →
    s.blocked a.toNat = false → (s.region a.toNat = .itcm ∨ s.region a.toNat = .dtcm ∨ s.region a.toNat = .sram ∨ s.region a.toNat = .ret ∨
      (s.region a.toNat = .dram ∧ s.guarded a.toNat = false)) →
    ∃ t, exec (.coreStore c a size v ue) s = .next t ∧
      (∀ k, k < 2 ^ size.val → Memory.read t.mem (s.storeAt c a.toNat + k) = BitVec.ofNat 8 (v.toNat / 2 ^ (8 * k))) ∧
      (∀ x, x < s.storeAt c a.toNat ∨ s.storeAt c a.toNat + 2 ^ size.val ≤ x → Memory.read t.mem x = Memory.read s.mem x) ∧
      t.pins = s.pins ∧ t.hif = s.hif ∧ t.zne = s.zne ∧ t.sec = s.sec ∧ t.lpe = s.lpe ∧ t.seqs = s.seqs) ∧
  (∀ (c : CoreId) (a : BitVec 40) (size : Fin 4) (v : W64) (ue : Bool) (s : State), s.coreRuns c →
    ((a.toNat % 2 ^ size.val ≠ 0 ∧ s.region a.toNat ≠ .csr) ∨ s.region a.toNat = .rom ∨ s.region a.toNat = .outside ∨
      (s.region a.toNat = .dram ∧ s.blocked a.toNat = false ∧ s.guarded a.toNat = true)) →
    exec (.coreStore c a size v ue) s = .next (s.trap c.val .store a.toNat)) ∧
  (∀ (c : CoreId) (a : BitVec 40) (size : Fin 4) (v : W64) (ue : Bool) (s : State), s.coreRuns c → a.toNat % 2 ^ size.val = 0 →
    s.region a.toNat ≠ .csr → s.blocked a.toNat = true → ∃ t, exec (.coreStore c a size v ue) s = .next t ∧ t.mem = s.mem ∧
      t.csr = s.csr ∧ t.traps = s.traps ++ [⟨c.val, .store, a.toNat⟩]) ∧
  (∀ (c : CoreId) (isl : Isl) (off : BitVec 20) (a : BitVec 40) (size : Fin 4) (v : W64) (ue : Bool) (s : State), s.coreRuns c →
    a.toNat = csrAddr isl.val off.toNat → s.region a.toNat = .csr →
    exec (.coreStore c a size v ue) s = exec (.registerWrite (.core c) isl off size v) s) ∧
  (∀ (c : CoreId) (a : BitVec 40) (size : Fin 4) (v : W64) (ue : Bool) (s : State), s.coreRuns c → a.toNat % 2 ^ size.val = 0 →
    s.blocked a.toNat = false → (s.region a.toNat = .mram → exec (.coreStore c a size v ue) s = exec (.mramCoreStore c a size v .done) s)) ∧
  (∀ (c : CoreId) (a : BitVec 40) (size : Fin 4) (v : W64) (ue : Bool) (s : State), s.coreRuns c →
    s.region a.toNat = .mram → a.toNat % 2 ^ size.val ≠ 0 →
    exec (.coreStore c a size v ue) s = .next (s.trap c.val .store a.toNat))

/-- In the window of CPUnn another core's ITCM stands at offset 0x8_0000 and its DTCM at 0x9_0000, the same bytes as the core itself stores; a running core reads them at any time; a write is applied while that core is halted and is otherwise ignored without error; one that meets a port that is gated or isolated traps. Commands whose answer it states, as exec = next under conditions on operands and state alone: registerWrite, lowWordRead, remoteTcmWrite. -/
def Obligations.tcm_windows : Prop :=
  (∀ (t : CoreId) (o : Nat), o < 0x10000 → tcmAddr t.val false o = csrAddr (0x10 + t.val) (0x80000 + o) ∧
    tcmAddr t.val true o = csrAddr (0x10 + t.val) (0x90000 + o)) ∧
  (∀ (c t : CoreId) (isl : Isl) (off : BitVec 20) (s : State), isl.val = 0x10 + t.val → 0x80000 ≤ off.toNat → off.toNat < 0xA0000 →
    s.reaches (.core c) isl.val off.toNat 2 →
    exec (.lowWordRead (.core c) isl off 2) s =
      .next (s.answer (.core c) (BitVec.ofNat 64 (Memory.readNat s.mem (csrAddr isl.val off.toNat) 4)))) ∧
  (∀ (c t : CoreId) (isl : Isl) (off : BitVec 20) (v : W64) (s : State), isl.val = 0x10 + t.val → 0x80000 ≤ off.toNat →
    off.toNat < 0xA0000 → s.reaches (.core c) isl.val off.toNat 2 →
    exec (.registerWrite (.core c) isl off 2 v) s = .next (if s.cores.halted.getLsbD t.val then
      s.store (csrAddr isl.val off.toNat) (leBytes 4 (v.toNat % 2 ^ 32)) else s)) ∧
  (∀ (c t : CoreId) (dtcm : Bool) (off : BitVec 13) (v : W64) (s : State), s.coreRuns c → s.portDown (0x10 + t.val) = false →
    exec (.remoteTcmWrite c t dtcm off v) s = .next (if s.cores.halted.getLsbD t.val then
      s.store (tcmAddr t.val dtcm (off.toNat * 8)) (leBytes 8 v.toNat) else s)) ∧
  (∀ (c t : CoreId) (dtcm : Bool) (off : BitVec 13) (v : W64) (s : State), s.coreRuns c → s.portDown (0x10 + t.val) = true →
    exec (.remoteTcmWrite c t dtcm off v) s = .next ((if s.gated (0x10 + t.val) then s.portError (0x10 + t.val) else s).trap c.val .store
      (tcmAddr t.val dtcm (off.toNat * 8)))) ∧
  (∀ (c t : CoreId) (dtcm : Bool) (off : BitVec 13) (v : W64) (s u : State), exec (.remoteTcmWrite c t dtcm off v) s = .next u →
    ∀ x, x < tcmAddr t.val dtcm (off.toNat * 8) ∨ tcmAddr t.val dtcm (off.toNat * 8) + 8 ≤ x →
      Memory.read u.mem x = Memory.read s.mem x)

/-- A FENCE of a running core with no unacknowledged store changes nothing; with stores gathered to an MRAM word it writes the word (assumption 20). FENCE.I empties the core's fetch buffer and nothing else. A 64-bit store to the config region gathers in its word, and the store to doubleword 3 writes it; a store of another width, to another part of MRAM or to a port that takes no access takes an access-fault trap and writes nothing; the bytes a store can change are those of the word gathered before and of its own word (R24, R348). Commands whose answer it states, as exec = next under conditions on operands and state alone: fence, fenceI, mramCoreStore. -/
def Obligations.fences_and_mram_stores : Prop :=
  (∀ (c : CoreId) (w : MramWrite) (s : State), s.coreRuns c → s.unacked c.val = false → exec (.fence c w) s = .next s) ∧
  (∀ (c : CoreId) (w : MramWrite) (s : State), s.coreRuns c → s.unacked c.val = true →
    ∃ t, exec (.fence c w) s = .next t ∧ t = s.flushGather w ∧ t.unacked c.val = false) ∧
  (∀ (c : CoreId) (s : State), ∃ t, exec (.fenceI c) s = .next t ∧
    t = { s with cores := { s.cores with fetch := Tab.erase s.cores.fetch c.val } }) ∧
  (∀ (c : CoreId) (a : BitVec 40) (v : W64) (w : MramWrite) (s : State), s.coreRuns c → s.region a.toNat = .mram → s.blocked a.toNat = false →
    cfgBase ≤ a.toNat → a.toNat < cfgBase + 0x100000 → a.toNat % 8 = 0 → s.mram.gather = none → a.toNat % 32 ≠ 24 →
    exec (.mramCoreStore c a 3 v w) s =
      .next (s.mr fun m => { m with gather := some ⟨a.toNat / 32 * 32, [(a.toNat % 32 / 8, v)], [c.val]⟩ })) ∧
  (∀ (c : CoreId) (a : BitVec 40) (v : W64) (w : MramWrite) (s : State), s.coreRuns c → s.region a.toNat = .mram → s.blocked a.toNat = false →
    cfgBase ≤ a.toNat → a.toNat < cfgBase + 0x100000 → a.toNat % 32 = 24 → s.mram.gather = none →
    exec (.mramCoreStore c a 3 v w) s =
      .next ((s.mr fun m => { m with gather := some ⟨a.toNat / 32 * 32, [(3, v)], [c.val]⟩ }).flushGather w)) ∧
  (∀ (c : CoreId) (a : BitVec 40) (size : Fin 4) (v : W64) (w : MramWrite) (s : State), s.coreRuns c → s.region a.toNat = .mram →
    (s.blocked a.toNat = true ∨ size ≠ 3 ∨ a.toNat % 8 ≠ 0 ∨ a.toNat < cfgBase ∨ cfgBase + 0x100000 ≤ a.toNat) →
    exec (.mramCoreStore c a size v w) s = .next (s.trap c.val .store a.toNat)) ∧
  (∀ (c : CoreId) (a : BitVec 40) (size : Fin 4) (v : W64) (w : MramWrite) (s t : State),
    exec (.mramCoreStore c a size v w) s = .next t →
    ∀ x, (x < a.toNat / 32 * 32 ∨ a.toNat / 32 * 32 + 32 ≤ x) →
      (∀ g, s.mram.gather = some g → ∀ d ∈ g.dws, x < g.word + d.1 * 8 ∨ g.word + d.1 * 8 + 8 ≤ x) →
      Memory.read t.mem x = Memory.read s.mem x)

/-- On each fetch of an instruction by a running sequencer, a single-bit error is corrected (the instruction runs as it would intact), counted in CH_IMEMCE, and reported by event 0x0442 the first time it occurs for each word; a double-bit error is fault 2. -/
def Obligations.kazino_fetch : Prop :=
  (∀ (i : Instr) (n : Chan) (s : State), i.wf = true → i.site = some (n, .double) → s.fld (F.CH_SEQSTAT_STATE n) = 1 →
    exec i s = .next (s.seqFault n 2)) ∧
  (∀ (i : Instr) (n : Chan) (s : State), i.wf = true → i.site = some (n, .single) → s.runsKz n .single i →
    exec i s = exec (i.refetched .ok) (s.imemCe n)) ∧
  (∀ (n : Chan) (s : State), (s.imemCe n).fld (F.CH_IMEMCE_COUNT n) = (s.fld (F.CH_IMEMCE_COUNT n) + 1) % 2 ^ 64 ∧
    (s.gated 2 = false →
      (s.fld (F.CH_SEQSTAT_PC n) ∈ (s.seq n).ceSeen → (s.imemCe n).evr = s.evr) ∧
      (s.fld (F.CH_SEQSTAT_PC n) ∉ (s.seq n).ceSeen → ∃ e, (s.imemCe n).evr.transit = s.evr.transit ++ [e] ∧ e.id = 0x0442 ∧
        e.src = 0x30 + n.val ∧ s.fld (F.CH_SEQSTAT_PC n) ∈ ((s.imemCe n).seq n).ceSeen)))

/-- A well-formed instruction does nothing on a sequencer that neither runs nor waits, and nothing where the fetched word is another legal one (the model's form of an instruction as a command, assumption 47); an opcode that R203 does not list is fault 1, and a POST of kind 3 fault 9. -/
def Obligations.kazino_other_words : Prop :=
  (∀ (i : Instr) (n : Chan) (f : Fetch) (s : State), i.site = some (n, f) → s.fld (F.CH_SEQSTAT_STATE n) ≠ 1 →
    s.fld (F.CH_SEQSTAT_STATE n) ≠ 2 → exec i s = .next s) ∧
  (∀ (i : Instr) (n : Chan) (f : Fetch) (s : State), i.wf = true → i.site = some (n, f) → f ≠ .double →
    s.fld (F.CH_SEQSTAT_STATE n) = 1 →
    let x := s.fld (F.CH_IMEM_WORD n (s.fld (F.CH_SEQSTAT_PC n)))
    (x / 2 ^ 26 ∉ kzOpcodes → exec i s = .next ((s.fetched n f).seqFault n 1)) ∧
    (x / 2 ^ 26 = 0x29 → x / 2 ^ 12 % 4 = 3 → exec i s = .next ((s.fetched n f).seqFault n 9)) ∧
    (x / 2 ^ 26 ∈ kzOpcodes → ¬(x / 2 ^ 26 = 0x29 ∧ x / 2 ^ 12 % 4 = 3) → kzEncode i ≠ some (BitVec.ofNat 32 x) →
      exec i s = .next s))

/-- Each ALU instruction takes k[rs] and the immediate, or k[rd] and k[rs], writes its result to k[rd] and, where PW is 1, sets p[PD] from the result by COND, with the carry, the borrow or the 1 shifted out for COND 3, in one cycle; LDI, LDIH and MOV write k[rd]; nothing else of the part changes but the cycle count and the program counter (R203, R204). k0 reads as 0 and discards writes; another register of the sixteen takes a value and no other register changes (R195); a predicate that is set reads so and no other changes; a plain instruction adds its cycles to the channel's clock and moves the program counter to the next of 4,096 words. Commands whose answer it states, as exec = next under conditions on operands and state alone: ldi, ldih, mov, add, sub, and, or, xor, shl, shr. -/
def Obligations.kazino_arithmetic : Prop :=
  (∀ (n : Chan) (f : Fetch) (rd rs : BitVec 4) (imm : BitVec 18) (s : State),
  let u := s.fetched n f
  let a := ((u.seq n).aluArgs rd rs imm).1
  let b := ((u.seq n).aluArgs rd rs imm).2
  (s.runsKz n f (.add n f rd rs imm) → exec (.add n f rd rs imm) s =
    .next (u.plain n 1 fun q => q.aluEnd rd imm (a + b) (decide (2 ^ 32 ≤ a.toNat + b.toNat)))) ∧
  (s.runsKz n f (.sub n f rd rs imm) → exec (.sub n f rd rs imm) s =
    .next (u.plain n 1 fun q => q.aluEnd rd imm (a - b) (decide (a.toNat < b.toNat)))) ∧
  (s.runsKz n f (.and n f rd rs imm) → exec (.and n f rd rs imm) s =
    .next (u.plain n 1 fun q => q.aluEnd rd imm (a &&& b) false)) ∧
  (s.runsKz n f (.or n f rd rs imm) → exec (.or n f rd rs imm) s =
    .next (u.plain n 1 fun q => q.aluEnd rd imm (a ||| b) false)) ∧
  (s.runsKz n f (.xor n f rd rs imm) → exec (.xor n f rd rs imm) s =
    .next (u.plain n 1 fun q => q.aluEnd rd imm (a ^^^ b) false)) ∧
  (s.runsKz n f (.shl n f rd rs imm) → exec (.shl n f rd rs imm) s =
    .next (u.plain n 1 fun q => q.aluEnd rd imm (a <<< (b.toNat % 32)) (decide (2 ^ 32 ≤ a.toNat * 2 ^ (b.toNat % 32))))) ∧
  (s.runsKz n f (.shr n f rd rs imm) → exec (.shr n f rd rs imm) s =
    .next (u.plain n 1 fun q => q.aluEnd rd imm (a >>> (b.toNat % 32)) (decide (a.toNat % 2 ^ (b.toNat % 32) ≠ 0)))) ∧
  (s.runsKz n f (.ldi n f rd imm) → exec (.ldi n f rd imm) s =
    .next (u.plain n 1 fun q => q.setReg rd.toNat (imm.zeroExtend 32))) ∧
  (s.runsKz n f (.ldih n f rd imm) → exec (.ldih n f rd imm) s =
    .next (u.plain n 1 fun q => q.setReg rd.toNat (imm.extractLsb' 0 14 ++ (q.reg rd.toNat).extractLsb' 0 18))) ∧
  (s.runsKz n f (.mov n f rd rs imm) → imm.getLsbD 17 = false → exec (.mov n f rd rs imm) s =
    .next (u.plain n 1 fun q => q.setReg rd.toNat (q.reg rs.toNat))) ∧
  (s.runsKz n f (.mov n f rd rs imm) → imm.getLsbD 17 = true → exec (.mov n f rd rs imm) s =
    .next (u.plain n 1 fun q => q.setReg rd.toNat (BitVec.ofNat 32 (match imm.toNat % 256 with
      | 0 => u.timer n
      | 1 => u.fld (F.CH_TICK_TICK n)
      | 2 => n.val
      | 3 => u.chNow n % 2 ^ 32
      | 4 => (u.seq n).item
      | 5 => (u.seq n).status
      | 6 => if (u.seq n).refused then 1 else 0
      | 7 => u.fld (F.CH_ISA_VER n)
      | _ => 0))))) ∧
  ((∀ (q : Seq) (v : W32), q.reg 0 = 0 ∧ q.setReg 0 v = q) ∧
  (∀ (q : Seq) (r x : Nat) (v : W32), q.k.length = 16 → 0 < r → r < 16 → (q.setReg r v).k.length = 16 ∧
    (q.setReg r v).reg r = v ∧ (x ≠ r → (q.setReg r v).reg x = q.reg x) ∧ (q.setReg r v).p = q.p ∧
    (q.setReg r v).stack = q.stack) ∧
  (∀ (q : Seq) (r x : Nat) (b : Bool), r < 4 → x < 4 → (q.setPred r b).pred r = b ∧
    (x ≠ r → (q.setPred r b).pred x = q.pred x) ∧ (q.setPred r b).k = q.k) ∧
  (∀ (s : State) (n : Chan) (c : Nat) (g : Seq → Seq), (∀ q, (g q).till = q.till) →
    (s.plain n c g).fld (F.CH_SEQSTAT_PC n) = (s.fld (F.CH_SEQSTAT_PC n) + 1) % 4096 ∧
    ((s.plain n c g).seq n).till = s.chNow n + c ∧ ((s.plain n c g).seq n).k = (g (s.seq n)).k ∧
    ((s.plain n c g).seq n).p = (g (s.seq n)).p ∧ (∀ m, m ≠ n.val → (s.plain n c g).seq m = s.seq m) ∧
    (s.plain n c g).mem = s.mem ∧ (s.plain n c g).evr = s.evr ∧ (s.plain n c g).zne = s.zne ∧
    (∀ key, key ≠ (F.CH_SEQSTAT_PC n).addr → (s.plain n c g).word key = s.word key)))

/-- BR and a taken BRC set the program counter in 2 cycles, and a BRC not taken falls through in 1; CALL pushes the next address, and a ninth entry is fault 3; RET pops it, and an empty stack is fault 4; HALT stops the sequencer, and an op in hand is fault 8; WAIT idles k[rs] + count units, TSTART loads the timer with them, and unit 3 is fault 6 of both; TWAIT ends with the timer at 0 (R203, R205, R211). Commands whose answer it states, as exec = next under conditions on operands and state alone: halt, wait, br, brc, call, ret, tstart, twait. -/
def Obligations.kazino_control_flow : Prop :=
  ∀ (n : Chan) (f : Fetch) (rs : BitVec 4) (imm : BitVec 18) (s : State),
  let u := s.fetched n f
  let count := ((u.seq n).reg rs.toNat).toNat + imm.toNat % 2 ^ 16
  (s.runsKz n f (.br n f imm) → exec (.br n f imm) s = .next ((u.chCost n 2).setPc n (imm.toNat % 4096))) ∧
  (s.runsKz n f (.brc n f imm) → (u.seq n).pred (imm.toNat / 2 ^ 12 % 4) = imm.getLsbD 14 →
    exec (.brc n f imm) s = .next ((u.chCost n 2).setPc n (imm.toNat % 4096))) ∧
  (s.runsKz n f (.brc n f imm) → (u.seq n).pred (imm.toNat / 2 ^ 12 % 4) ≠ imm.getLsbD 14 →
    exec (.brc n f imm) s = .next ((u.chCost n 1).nextPc n)) ∧
  (s.runsKz n f (.call n f imm) → (u.seq n).stack.length < 8 → exec (.call n f imm) s =
    .next (((u.modSeq n fun q => { q with stack := (u.fld (F.CH_SEQSTAT_PC n) + 1) % 4096 :: q.stack }).chCost n 2).setPc n
      (imm.toNat % 4096))) ∧
  (s.runsKz n f (.call n f imm) → 8 ≤ (u.seq n).stack.length → exec (.call n f imm) s = .next (u.seqFault n 3)) ∧
  (∀ ra t, s.runsKz n f (.ret n f) → (u.seq n).stack = ra :: t → exec (.ret n f) s =
    .next (((u.modSeq n fun q => { q with stack := t }).chCost n 2).setPc n ra)) ∧
  (s.runsKz n f (.ret n f) → (u.seq n).stack = [] → exec (.ret n f) s = .next (u.seqFault n 4)) ∧
  (s.runsKz n f (.halt n f) → (u.seq n).hand = none → ∃ t, exec (.halt n f) s = .next t ∧
    t.fld (F.CH_SEQSTAT_STATE n) = 0 ∧ t = (u.setFld (F.CH_SEQSTAT_STATE n) 0).chPost n 0x0443 [(2, 0), (32, u.fld (F.CH_UCVER_PVER n))]) ∧
  (s.runsKz n f (.halt n f) → (u.seq n).hand ≠ none → exec (.halt n f) s = .next (u.seqFault n 8)) ∧
  (∀ c, s.runsKz n f (.wait n f rs imm) → u.toCycles n count (imm.toNat / 2 ^ 16) = some c →
    exec (.wait n f rs imm) s = .next ((u.chCost n c).nextPc n)) ∧
  (s.runsKz n f (.wait n f rs imm) → imm.toNat / 2 ^ 16 = 3 → exec (.wait n f rs imm) s = .next (u.seqFault n 6)) ∧
  (∀ c, s.runsKz n f (.tstart n f rs imm) → u.toCycles n count (imm.toNat / 2 ^ 16) = some c →
    ∃ t, exec (.tstart n f rs imm) s = .next t ∧ t.timer n = c ∧
      t.fld (F.CH_SEQSTAT_PC n) = (u.fld (F.CH_SEQSTAT_PC n) + 1) % 4096 ∧ (t.seq n).k = (u.seq n).k ∧ t.mem = s.mem) ∧
  (s.runsKz n f (.tstart n f rs imm) → imm.toNat / 2 ^ 16 = 3 → exec (.tstart n f rs imm) s = .next (u.seqFault n 6)) ∧
  (s.runsKz n f (.twait n f) → ∃ t, exec (.twait n f) s = .next t ∧ t.timer n = 0 ∧ (t.seq n).till = u.chNow n + u.timer n ∧
    t.fld (F.CH_SEQSTAT_PC n) = (u.fld (F.CH_SEQSTAT_PC n) + 1) % 4096 ∧ (t.seq n).k = (u.seq n).k ∧ t.mem = s.mem)

/-- EVT of a running sequencer: an ID outside 0x0460 to 0x047F is fault 6; with an ID inside it the instruction completes in one cycle, moves the program counter on and leaves the registers and memory as they were, and, unless MGT is power-gated, posts one event with that ID, the channel island as its source, tenancy 0xFF, exempt from no limit of the recorder, and k[rd], k[rs], the rank of the op in hand (0xF without one) and its OPID as its payload (R212; that the payload is packed low bits first is the model's, assumption 50). Commands whose answer it states, as exec = next under conditions on operands and state alone: evt. -/
def Obligations.kazino_event : Prop :=
  ∀ (n : Chan) (f : Fetch) (rd rs : BitVec 4) (imm : BitVec 18) (s : State), s.runsKz n f (.evt n f rd rs imm) →
  let u := s.fetched n f
  let id := imm.toNat % 2 ^ 16
  ((id < 0x0460 ∨ 0x047F < id) → exec (.evt n f rd rs imm) s = .next (u.seqFault n 6)) ∧
  (0x0460 ≤ id → id ≤ 0x047F → ∃ t, exec (.evt n f rd rs imm) s = .next t ∧
    t.fld (F.CH_SEQSTAT_PC n) = (u.fld (F.CH_SEQSTAT_PC n) + 1) % 4096 ∧ (t.seq n).k = (u.seq n).k ∧
    (t.seq n).till = u.chNow n + 1 ∧ t.mem = s.mem ∧
    (s.gated 2 = false → ∃ e, t.evr.transit = u.evr.transit ++ [e] ∧ e.id = id ∧ e.src = 0x30 + n.val ∧ e.ten = 0xFF ∧ e.ts = s.now ∧
      e.exempt = false ∧ e.payload = ((u.seq n).reg rd.toNat).toNat + ((u.seq n).reg rs.toNat).toNat * 2 ^ 32 +
        (match (u.seq n).hand with | some h => h.rank % 16 | none => 0xF) * 2 ^ 64 + u.handOpid n % 2 ^ 16 * 2 ^ 68))

/-- SEL selects the rank that k[rs] names, with its chip-enable and LUN (R33), and a rank the channel lacks is fault 6. While a die is selected: CMD drives a byte under the guard, ADDR drives bytes of k[rs], DIN and DOUT move their bytes at the offset in k[rd], which rises by them, DOUT storing what comes for a diagnostic buffer or for staging buffers, POLL ends on the first sample that matches or on its timeout with its predicate and status, PGEN and PCHK run the pattern on, PCHK counting mismatches into k[rd]; a byte count or range it does not allow is fault 6 and a handle or stream it does not allow fault 7; a bus instruction with no die selected is fault 5 (R203, R205, R206, R213). A DOUT stores at most its byte count, at the diagnostic buffer's base plus the offset in k[rd], and only where its handle names a diagnostic buffer; every other byte of memory is as before, and so is all of it for every other handle. Commands whose answer it states, as exec = next under conditions on operands and state alone: sel, cmd, addr, din, dout, poll, pgen, pchk. -/
def Obligations.kazino_bus : Prop :=
  (∀ (n : Chan) (f : Fetch) (rd rs : BitVec 4) (imm : BitVec 18) (s : State),
  let u := s.fetched n f
  let r := ((u.seq n).reg rs.toNat).toNat
  let from_ := if r = 0 then Tab.getD (u.seq n).prbs (imm.toNat / 2 ^ 16) 0 else r
  (s.runsKz n f (.sel n f rs imm) → bits r (imm.toNat % 32) 4 < u.chanDies → exec (.sel n f rs imm) s =
    .next (u.plain n Config.selCycles fun q => { q with
      sel := some (bits r (imm.toNat % 32) 4), ce := bits r (imm.toNat % 32) 4 % 2, lun := bits r (imm.toNat % 32) 4 / 2, burst := none })) ∧
  (s.runsKz n f (.sel n f rs imm) → u.chanDies ≤ bits r (imm.toNat % 32) 4 → exec (.sel n f rs imm) s = .next (u.seqFault n 6)) ∧
  ((u.seq n).sel = none →
    (s.runsKz n f (.cmd n f rs imm) → exec (.cmd n f rs imm) s = .next (u.seqFault n 5)) ∧
    (s.runsKz n f (.addr n f rs imm) → exec (.addr n f rs imm) s = .next (u.seqFault n 5)) ∧
    (s.runsKz n f (.din n f rd rs imm) → exec (.din n f rd rs imm) s = .next (u.seqFault n 5)) ∧
    (∀ data, s.runsKz n f (.dout n f rd rs imm data) → exec (.dout n f rd rs imm data) s = .next (u.seqFault n 5)) ∧
    (∀ x xs, s.runsKz n f (.poll n f rd rs imm x xs) → exec (.poll n f rd rs imm x xs) s = .next (u.seqFault n 5)) ∧
    (s.runsKz n f (.pgen n f rs imm) → exec (.pgen n f rs imm) s = .next (u.seqFault n 5)) ∧
    (∀ got, s.runsKz n f (.pchk n f rd rs imm got) → exec (.pchk n f rd rs imm got) s = .next (u.seqFault n 5))) ∧
  ((u.seq n).sel ≠ none →
    (s.runsKz n f (.cmd n f rs imm) → exec (.cmd n f rs imm) s =
      .next ((((u.guardCmd n (if imm.getLsbD 8 then r % 256 else imm.toNat % 256)).modSeq n fun q => { q with burst := none }).chCost n
        (u.fld (F.CH_BUSCFG_CACYC n))).nextPc n)) ∧
    (s.runsKz n f (.addr n f rs imm) → 1 ≤ imm.toNat % 8 → imm.toNat % 8 + imm.toNat / 8 % 4 ≤ 4 → ∃ t,
      exec (.addr n f rs imm) s = .next t ∧ t.fld (F.CH_SEQSTAT_PC n) = (u.fld (F.CH_SEQSTAT_PC n) + 1) % 4096 ∧
      (t.seq n).till = u.chNow n + imm.toNat % 8 * u.fld (F.CH_BUSCFG_CACYC n) ∧
      ((u.seq n).gset ≠ none → (t.seq n).gaddr = (u.seq n).gaddr ++
        (List.range (imm.toNat % 8)).map fun i => r / 2 ^ ((imm.toNat / 8 % 4 + i) * 8) % 256) ∧
      ((u.seq n).gset = none → (t.seq n).gaddr = (u.seq n).gaddr) ∧ (t.seq n).k = (u.seq n).k ∧ t.mem = s.mem) ∧
    (s.runsKz n f (.din n f rd rs imm) → 2 ≤ imm.toNat → imm.toNat % 2 = 0 → bits r 20 4 < 5 →
      (∀ l, u.streamLen n (bits r 20 4) = some l → ((u.seq n).reg rd.toNat).toNat + imm.toNat ≤ l) →
      exec (.din n f rd rs imm) s = .next ((u.modSeq n fun q => { q with
          bus := u.dinBytes n (bits r 20 4) (bits r 0 20) ((u.seq n).reg rd.toNat).toNat imm.toNat }).plain n (u.burstCost n imm.toNat false) fun q =>
        { q.setReg rd.toNat (BitVec.ofNat 32 (((u.seq n).reg rd.toNat).toNat + imm.toNat)) with burst := some false })) ∧
    (∀ data, s.runsKz n f (.dout n f rd rs imm data) → 2 ≤ imm.toNat → imm.toNat % 2 = 0 → bits r 20 4 < 5 →
      (∀ l, u.streamLen n (bits r 20 4) = some l → ((u.seq n).reg rd.toNat).toNat + imm.toNat ≤ l) →
      exec (.dout n f rd rs imm data) s = .next (State.plain (if bits r 20 4 = 4 then
          u.store (diagBuf + ((u.seq n).reg rd.toNat).toNat) (data.take imm.toNat)
        else if bits r 20 4 = 1 then u.fillStaging (bits r 0 20) ((u.seq n).reg rd.toNat).toNat (data.take imm.toNat) else u) n (u.burstCost n imm.toNat true) fun q =>
        { q.setReg rd.toNat (BitVec.ofNat 32 (((u.seq n).reg rd.toNat).toNat + imm.toNat)) with burst := some true })) ∧
    (∀ x xs, s.runsKz n f (.poll n f rd rs imm x xs) → x.toNat &&& (imm.toNat % 256) = imm.toNat / 256 % 256 →
      exec (.poll n f rd rs imm x xs) s = .next (u.plain n (u.pollCost n) fun q =>
        { (q.setReg rd.toNat (x.zeroExtend 32)).setPred (imm.toNat / 2 ^ 16) true with status := x.toNat, burst := none })) ∧
    (∀ x, s.runsKz n f (.poll n f rd rs imm x []) → x.toNat &&& (imm.toNat % 256) ≠ imm.toNat / 256 % 256 → r = 0 →
      exec (.poll n f rd rs imm x []) s = .next (u.plain n (u.pollCost n) fun q =>
        { (q.setReg rd.toNat (x.zeroExtend 32)).setPred (imm.toNat / 2 ^ 16) false with status := x.toNat, burst := none })) ∧
    (∀ x xs, s.runsKz n f (.poll n f rd rs imm x xs) → ∃ t, exec (.poll n f rd rs imm x xs) s = .next t ∧
      t.fld (F.CH_SEQSTAT_PC n) = (u.fld (F.CH_SEQSTAT_PC n) + 1) % 4096 ∧ (t.seq n).burst = none ∧ t.mem = s.mem ∧
      (t.seq n).k = ((u.seq n).setReg rd.toNat (BitVec.ofNat 32 (t.seq n).status)).k) ∧
    (s.runsKz n f (.addr n f rs imm) → (imm.toNat % 8 = 0 ∨ 4 < imm.toNat % 8 + imm.toNat / 8 % 4) →
      exec (.addr n f rs imm) s = .next (u.seqFault n 6)) ∧
    (s.runsKz n f (.din n f rd rs imm) → (imm.toNat < 2 ∨ imm.toNat % 2 = 1) → exec (.din n f rd rs imm) s = .next (u.seqFault n 6)) ∧
    (s.runsKz n f (.din n f rd rs imm) → 2 ≤ imm.toNat → imm.toNat % 2 = 0 → 5 ≤ bits r 20 4 →
      exec (.din n f rd rs imm) s = .next (u.seqFault n 7)) ∧
    (∀ l, s.runsKz n f (.din n f rd rs imm) → 2 ≤ imm.toNat → imm.toNat % 2 = 0 → u.streamLen n (bits r 20 4) = some l →
      l < ((u.seq n).reg rd.toNat).toNat + imm.toNat → exec (.din n f rd rs imm) s = .next (u.seqFault n 7)) ∧
    (s.runsKz n f (.pgen n f rs imm) → imm.toNat % 2 = 1 → exec (.pgen n f rs imm) s = .next (u.seqFault n 6)) ∧
    (s.runsKz n f (.pgen n f rs imm) → imm.toNat % 2 = 0 → exec (.pgen n f rs imm) s =
      .next (u.plain n (u.patCost n (imm.toNat % 2 ^ 16)) fun q =>
        { q with burst := none, prbs := Tab.set q.prbs (imm.toNat / 2 ^ 16) (Config.prbs (imm.toNat / 2 ^ 16) from_ (imm.toNat % 2 ^ 16)) })) ∧
    (∀ got, s.runsKz n f (.pchk n f rd rs imm got) → imm.toNat % 2 = 0 → ∃ t, exec (.pchk n f rd rs imm got) s = .next t ∧
      (t.seq n).k = ((u.seq n).setReg rd.toNat (BitVec.ofNat 32 (min (Config.prbsMismatch (imm.toNat / 2 ^ 16)
        (if r = 0 then Tab.getD (u.seq n).prbs (4 + imm.toNat / 2 ^ 16) 0 else r) got) 0xFFFFFFFF))).k ∧
      t.fld (F.CH_SEQSTAT_PC n) = (u.fld (F.CH_SEQSTAT_PC n) + 1) % 4096 ∧ (t.seq n).burst = none ∧ t.mem = s.mem) ∧
    (∀ got, s.runsKz n f (.pchk n f rd rs imm got) → imm.toNat % 2 = 1 → exec (.pchk n f rd rs imm got) s = .next (u.seqFault n 6)) ∧
    (∀ data, s.runsKz n f (.dout n f rd rs imm data) → (imm.toNat < 2 ∨ imm.toNat % 2 = 1) →
      exec (.dout n f rd rs imm data) s = .next (u.seqFault n 6)) ∧
    (∀ data, s.runsKz n f (.dout n f rd rs imm data) → 2 ≤ imm.toNat → imm.toNat % 2 = 0 → 5 ≤ bits r 20 4 →
      exec (.dout n f rd rs imm data) s = .next (u.seqFault n 7)) ∧
    (∀ l data, s.runsKz n f (.dout n f rd rs imm data) → 2 ≤ imm.toNat → imm.toNat % 2 = 0 → u.streamLen n (bits r 20 4) = some l →
      l < ((u.seq n).reg rd.toNat).toNat + imm.toNat → exec (.dout n f rd rs imm data) s = .next (u.seqFault n 7)))) ∧
  (∀ (n : Chan) (f : Fetch) (rd rs : BitVec 4) (imm : BitVec 18) (data : List Byte) (s t : State),
    exec (.dout n f rd rs imm data) s = .next t →
    (∀ x, (x < diagBuf + (((s.fetched n f).seq n).reg rd.toNat).toNat ∨
        diagBuf + (((s.fetched n f).seq n).reg rd.toNat).toNat + imm.toNat ≤ x) → Memory.read t.mem x = Memory.read s.mem x) ∧
    (bits (((s.fetched n f).seq n).reg rs.toNat).toNat 20 4 ≠ 4 → ∀ x, Memory.read t.mem x = Memory.read s.mem x))

/-- While a die is selected and DIS is 0, a CMD that confirms a program is allowed only for an op of class 2 or 3 with a row latched since the previous confirm, after ESET or not, and every such row naming the descriptor's block and LUN and a wordline of at least GUARD, and one that confirms an erase only for class 4 or 5 with every latched row in the block and LUN; an allowed confirm sets p0 to 1; a refused one sets p0 to 0, is counted in CH_GUARDREF, and marks the op's DONE with the byte of its first refusal; both clear the rows (R214, R215). -/
def Obligations.program_guard : Prop :=
  ∀ (n : Chan) (s : State) (b : Nat),
  let l := s.latchRow n
  let ok := (l.isPconf n b = true → l.programAllowed n = true) ∧ (l.isEconf n b = true → l.eraseAllowed n = true)
  (l.isPconf n b = true ∨ l.isEconf n b = true) → s.flag (F.CH_GUARDCTL_DIS n) = false →
  (ok → ((s.guardCmd n b).seq n).pred 0 = true ∧ ((s.guardCmd n b).seq n).refused = false ∧
    (s.guardCmd n b).fld (F.CH_GUARDREF_COUNT n) = s.fld (F.CH_GUARDREF_COUNT n)) ∧
  (¬ok → ((s.guardCmd n b).seq n).pred 0 = false ∧ ((s.guardCmd n b).seq n).refused = true ∧
    (s.guardCmd n b).fld (F.CH_GUARDREF_COUNT n) = (s.fld (F.CH_GUARDREF_COUNT n) + 1) % 2 ^ 64 ∧
    (∀ p, l.handPod n = some p → Tab.find ((s.guardCmd n b).seq n).guarded p.op.id =
      some (Tab.getD (l.seq n).guarded p.op.id b))) ∧
  ((s.guardCmd n b).seq n).grows = [] ∧ ((s.guardCmd n b).seq n).gerase = [] ∧
  (∀ p, l.programAllowed n = true → l.handPod n = some p → (p.opc = 2 ∨ p.opc = 3) ∧
    (l.seq n).grows ++ (l.seq n).gerase ≠ [] ∧ ∀ row ∈ (l.seq n).grows ++ (l.seq n).gerase, l.sameBlock n row p = true ∧
      bits (p.desc.getD 2 0).toNat 0 11 ≤ bits row (s.fld (F.CH_ROWFMT_WLLSB n)) (s.fld (F.CH_ROWFMT_WLW n))) ∧
  (∀ p, l.eraseAllowed n = true → l.handPod n = some p → (p.opc = 4 ∨ p.opc = 5) ∧
    ∀ row ∈ (l.seq n).gerase, l.sameBlock n row p = true)

/-- POP with an op in hand is fault 8; with no work item ready it leaves the sequencer waiting, or stopped where a stop was asked and every pod is empty; of one ready item it loads descriptor and context and jumps, at the class's entry for a new one and at the resume address for the others. POST DONE of a status that the class allows frees the pod and its DONE goes to ZNE, or to CH_DSTAT for a direct op, with the guard's status for a refused op, and of another is fault 6; PARK leaves the op parked with its context, due after its delay, or at once where an abort, or with SW a suspend request, came first, SUSP moves it to the suspended pod while a suspend is pending and SUSPABLE is 1; a POST with no op in hand is fault 9 (R207, R208, R210). Commands whose answer it states, as exec = next under conditions on operands and state alone: pop, postDone, postPark, postSusp. -/
def Obligations.kazino_pods : Prop :=
  ∀ (n : Chan) (f : Fetch) (rd rs : BitVec 4) (imm : BitVec 18) (s : State),
  let u := s.fetched n f
  let status := ((u.seq n).reg rd.toNat).toNat
  let idle := u.modSeq n fun q => { q with sel := none, burst := none }
  (s.runsKz n f (.pop n f) → (u.seq n).hand ≠ none → exec (.pop n f) s = .next (u.seqFault n 8)) ∧
  (s.runsKz n f (.pop n f) → (u.seq n).hand = none → idle.items n = [] →
    (u.flag (F.CH_SEQCTL_STOP n) = false ∨ u.podsEmpty n = false) →
    exec (.pop n f) s = .next (idle.setFld (F.CH_SEQSTAT_STATE n) 2)) ∧
  (s.runsKz n f (.pop n f) → (u.seq n).hand = none → idle.items n = [] → u.flag (F.CH_SEQCTL_STOP n) = true → u.podsEmpty n = true →
    ∃ t, exec (.pop n f) s = .next t ∧ t.fld (F.CH_SEQSTAT_STATE n) = 0 ∧ t.fld (F.CH_SEQCTL_RUN n) = 0 ∧
      t.fld (F.CH_SEQCTL_STOP n) = 0 ∧ t.zne = s.zne ∧ t.mem = s.mem) ∧
  (∀ it p, s.runsKz n f (.pop n f) → (u.seq n).hand = none → idle.items n = [it] →
    (if it.susp then (u.die (n.val * 16 + it.rank)).susp else (u.die (n.val * 16 + it.rank)).active) = some p →
    ¬(it.kind = 0 ∧ u.flag (F.CH_ENTRY_VALID n p.opc) = false) →
    ∃ t, exec (.pop n f) s = .next t ∧ t.fld (F.CH_SEQSTAT_STATE n) = 1 ∧ (t.seq n).hand = some ⟨it.rank, it.susp⟩ ∧
      (t.seq n).item = it.rank + it.kind * 16 ∧ (t.seq n).stack = [] ∧ (t.seq n).sel = none ∧
      (t.seq n).k.drop 4 = p.ctx ++ p.desc ∧
      t.fld (F.CH_SEQSTAT_PC n) = (if it.kind = 0 then u.fld (F.CH_ENTRY_ADDR n p.opc) else p.resume) % 4096 ∧ t.mem = s.mem) ∧
  (∀ h p, s.runsKz n f (.postDone n f rd rs imm) → (u.seq n).hand = some h → u.handPod n = some p →
    codeAllowed p.opc (status % 256) = true → imm.toNat / 2 ^ 12 % 4 = 0 →
    exec (.postDone n f rd rs imm) s = .next ((match Tab.find (u.seq n).guarded p.op.id with
      | some b => u.podDone n h.rank h.susp p 0x06 b
      | none => u.podDone n h.rank h.susp p (status % 256) (status / 256 % 256)).posted n)) ∧
  (∀ h p, s.runsKz n f (.postDone n f rd rs imm) → (u.seq n).hand = some h → u.handPod n = some p →
    codeAllowed p.opc (status % 256) = false → imm.toNat / 2 ^ 12 % 4 = 0 →
    exec (.postDone n f rd rs imm) s = .next (u.seqFault n 6)) ∧
  (∀ (v : State) (d : Nat) (p : Pod) (code detail : Nat), n.val * 16 + d < 2048 → ∃ o, v.podDone n d false p code detail = o ∧
    (o.die (n.val * 16 + d)).active = none ∧
    (p.op.isDirect = false → ∃ e, o.zne.dones = v.zne.dones ++ [e] ∧ e.code = code ∧ e.detail = detail ∧ e.op = p.op) ∧
    (p.op.isDirect = true → code < 256 → detail < 256 → o.zne.dones = v.zne.dones ∧ o.fld (F.CH_DSTAT_STATUS n) = code + detail * 256 ∧
      o.flag (F.CH_DCTL_DONE n) = true)) ∧
  (∀ h p c, s.runsKz n f (.postPark n f rd rs imm) → (u.seq n).hand = some h → u.handPod n = some p → imm.toNat / 2 ^ 12 % 4 = 1 →
    u.toCycles n ((u.seq n).reg rs.toNat).toNat (imm.toNat / 2 ^ 14 % 4) = some c →
    ∃ t q, exec (.postPark n f rd rs imm) s = .next t ∧
      (if h.susp then (t.die (n.val * 16 + h.rank)).susp else (t.die (n.val * 16 + h.rank)).active) = some q ∧
      q.parked = true ∧ q.hand = false ∧ q.ctx = [(u.seq n).reg 4, (u.seq n).reg 5, (u.seq n).reg 6, (u.seq n).reg 7] ∧
      q.resume = imm.toNat % 4096 ∧ q.sw = imm.getLsbD 16 ∧ q.due = some (u.chNow n + 2 + if c = 0 ∨ p.abort = true ∨ (p.suspReq = true ∧ imm.getLsbD 16 = true) then 0 else c) ∧ q.op = p.op ∧ q.desc = p.desc ∧
      (t.seq n).hand = none ∧ t.mem = s.mem) ∧
  (∀ h p, s.runsKz n f (.postSusp n f rd rs imm) → (u.seq n).hand = some h → u.handPod n = some p → imm.toNat / 2 ^ 12 % 4 = 2 →
    p.suspReq = true → h.susp = false → bit (p.desc.getD 0 0).toNat 7 = true →
    exec (.postSusp n f rd rs imm) s = .next ((u.suspendDone (n.val * 16 + h.rank)
      { p with ctx := (u.seq n).context, resume := imm.toNat % 4096 }).posted n)) ∧
  ((u.seq n).hand = none →
    (s.runsKz n f (.postDone n f rd rs imm) → imm.toNat / 2 ^ 12 % 4 = 0 → exec (.postDone n f rd rs imm) s = .next (u.seqFault n 9)) ∧
    (s.runsKz n f (.postPark n f rd rs imm) → imm.toNat / 2 ^ 12 % 4 = 1 → exec (.postPark n f rd rs imm) s = .next (u.seqFault n 9)) ∧
    (s.runsKz n f (.postSusp n f rd rs imm) → imm.toNat / 2 ^ 12 % 4 = 2 → exec (.postSusp n f rd rs imm) s = .next (u.seqFault n 9)))

/-- RUN starts a stopped or faulted sequencer at word 0, with an abort for each op, active or suspended, that a fault left in a pod begun and not aborted yet; STOP is recorded, and a waiting sequencer whose pods are empty stops; a timer at 0 stops; a parked op whose delay has run out is due; a sequencer faulted for 100 ms has the populated dies of its channel declared Failed with cause 3; a direct op is posted to a free pod before the geometry is locked while the part is not hot (R198, R208, R211, R217, R218). Commands whose answer it states, as exec = next under conditions on operands and state alone: parkDelayExpiry, timerExpiry, seqRun, seqStop, channelFaultTimeout, directOpGo. -/
def Obligations.sequencer_control : Prop :=
  (∀ (n : Chan) (s : State), s.fld (F.CH_SEQSTAT_STATE n) = 0 → s.gated 2 = false → ∃ t e, exec (.seqRun n) s = .next t ∧
    t.fld (F.CH_SEQSTAT_STATE n) = 1 ∧ t.fld (F.CH_SEQSTAT_PC n) = 0 ∧ t.fld (F.CH_SEQCTL_RUN n) = 1 ∧ (t.seq n).sel = none ∧
    (t.seq n).k = (s.seq n).k ∧ t.zne = s.zne ∧ t.evr.transit = s.evr.transit ++ [e] ∧ e.id = 0x0443 ∧ e.payload % 4 = 1) ∧
  (∀ (n : Chan) (s : State), s.fld (F.CH_SEQSTAT_STATE n) = 3 → ∃ t, exec (.seqRun n) s = .next t ∧
    t.fld (F.CH_SEQSTAT_STATE n) = 1 ∧ t.fld (F.CH_SEQSTAT_PC n) = 0 ∧
    ∀ r : Fin 16, (∀ p, (s.die (n.val * 16 + r.val)).active = some p → p.fresh = false →
      ∃ q, (t.die (n.val * 16 + r.val)).active = some q ∧ q.abort = true ∧ q.op = p.op ∧ q.resume = p.resume) ∧
      (∀ p, (s.die (n.val * 16 + r.val)).susp = some p → p.fresh = false →
        ∃ q, (t.die (n.val * 16 + r.val)).susp = some q ∧ q.abort = true ∧ q.op = p.op ∧ q.resume = p.resume)) ∧
  (∀ (n : Chan) (s : State), s.fld (F.CH_SEQSTAT_STATE n) ≠ 2 → ∃ t, exec (.seqStop n) s = .next t ∧
    t = s.setFld (F.CH_SEQCTL_STOP n) 1 ∧ t.fld (F.CH_SEQCTL_STOP n) = 1) ∧
  (∀ (n : Chan) (s : State), s.fld (F.CH_SEQSTAT_STATE n) = 2 → s.items n = [] → s.podsEmpty n = true →
    ∃ t, exec (.seqStop n) s = .next t ∧ t.fld (F.CH_SEQSTAT_STATE n) = 0 ∧ t.fld (F.CH_SEQCTL_STOP n) = 0 ∧
      t.fld (F.CH_SEQCTL_RUN n) = 0 ∧ t.zne = s.zne ∧ t.mem = s.mem) ∧
  (∀ (n : Chan) (s : State), s.timer n = 0 → exec (.timerExpiry n) s = .next (s.modSeq n fun q => { q with timerAt := none })) ∧
  (∀ (d : DieId) (p : Pod) (due : Nat) (s : State), (s.die d.val).active = some p → p.due = some due → p.parked = true →
    due ≤ s.chNow (d.val / 16) → exec (.parkDelayExpiry d) s =
      .next (s.modDie d.val fun x => { x with active := x.active.map fun p => { p with ripe := true } })) ∧
  (∀ (n : Chan) (s : State), s.fld (F.CH_SEQSTAT_STATE n) = 3 → (s.seq n).faultAt + 100000000 ≤ s.now →
    exec (.channelFaultTimeout n) s = .next ((List.range 16).foldl (fun s r =>
      if s.populated (n.val * 16 + r) then s.dieDead (n.val * 16 + r) 3 3 else s) s)) ∧
  (∀ (n : Chan) (s : State), s.flag F.ZNE_GEOM_LOCK = false → s.flag (F.CH_DCTL_BUSY n) = false →
    (s.die (n.val * 16 + bits (s.fld (F.CH_DDESC_WORD n 0)) 8 4)).active = none →
    (∀ t, hottest s.temps = some t → t ≤ s16 (s.lpe.tgt.getD (s.fld (F.LPE_SP_TARGET 144)))) →
    ∃ t p, exec (.directOpGo n) s = .next t ∧ t.flag (F.CH_DCTL_BUSY n) = true ∧
      (t.die (n.val * 16 + bits (s.fld (F.CH_DDESC_WORD n 0)) 8 4)).active = some p ∧
      p.desc = (List.range 8).map (fun i => BitVec.ofNat 32 (s.fld (F.CH_DDESC_WORD n i))) ∧ t.mem = s.mem)

/-- A reset request (RST 1), the boot watchdog's end, the delay after a recovery commit and the delay after a formation each start the power-loss sequence toward a warm reset of CAUSE 2, 3, 5 and 8; a warm reset follows a sequence that has ended and left the islands held; the watchdog stops; an OTP command with a target not above 64 makes the controller busy with that command and leaves the array as it was, one while it is busy only writes its fields, one above 64 is ignored, and its end without a fault writes the array (R314, R316, R324, R327, R333, R365, R375, R52). Once its reset is over and outside the recovery path a part that has not started runs its start-up: with no bundle in the active slot it stays without media; with one, the bundle's identification program runs and a profile is chosen: with none that serves the installed media the part stays without media, with a formation requested it forms, with a geometry formed it loads the profile and starts on it, and with none it stays without media beside the geometry it finds. Once at each start-up the Husk's open records are replayed where some copy is in use and every record passes its check in one of the copies, a copy whose header fails being out of use, and the bodies are resynchronised otherwise (R365, R221, R131, R133, R137; assumption 80). Commands whose answer it states, as exec = next under conditions on operands and state alone: warmReset, resetRequest, startUp, startupHuskReplay, bootWatchdogExpiry, bootWatchdogStop, otpCommandGo, otpProgramDone, recoveryResetDelay, formationResetDelay. -/
def Obligations.resets_and_starting_up : Prop :=
  ((∀ (pc cm : Fin 4) (b : Bool) (bad : BitVec 2) (k t0 d : Nat) (s : State), s.power.loss = some ⟨.reset k, t0, d⟩ →
    s.power.heldReset = true →
    exec (.warmReset pc cm b bad) s = .next (s.deviceReset false k ⟨pc.val, cm.val, b2n b⟩ bad)) ∧
  (∀ (s : State), exec .resetRequest s = .next (s.startLoss (.reset 2))) ∧
  (∀ (t : Nat) (s : State), s.boot.wdSince = some t → t + s.fld F.SEC_BOOTWD_TIMEOUT * 1000000000 ≤ s.now →
    exec .bootWatchdogExpiry s =
      .next (({ (s.setFld F.SEC_BOOTWD_ARMED 0) with boot := { s.boot with wdSince := none } } : State).startLoss (.reset 3))) ∧
  (∀ (s : State), ∃ t, exec .bootWatchdogStop s = .next t ∧ t.flag F.SEC_BOOTWD_ARMED = false ∧ t.boot.wdSince = none ∧
    t.mem = s.mem ∧ t.zne = s.zne) ∧
  (∀ (t : Nat) (s : State), s.boot.recAt = some t → t ≤ s.now → s.flag F.SEC_BOOTSTAT_BOOTSEL = false →
    let u := s.secPost 0x070C [(8, (s.activeWord.map (·.2.1)).getD 0), (4, s.fld F.SEC_BOOTSTAT_AFAIL), (4, s.fld F.SEC_BOOTSTAT_BFAIL)]
    exec .recoveryResetDelay s = .next (({ u with boot := { u.boot with recAt := none } } : State).startLoss (.reset 5))) ∧
  (∀ (t : Nat) (s : State), s.hif.formAt = some t → t ≤ s.now →
    exec .formationResetDelay s = .next (({ s with hif := { s.hif with formAt := none } } : State).startLoss (.reset 8))) ∧
  (∀ (g : BitVec 7) (rr sr : BitVec 4) (s : State), g.toNat ≤ 64 → s.flag F.SEC_OTPCMD_BUSY = false →
    ∃ t, exec (.otpCommandGo g rr sr) s = .next t ∧ t.flag F.SEC_OTPCMD_BUSY = true ∧ t.fld F.SEC_OTPCMD_TARGET = g.toNat ∧
      t.fld F.SEC_OTPCMD_RREV = rr.toNat ∧ t.fld F.SEC_OTPCMD_SREV = sr.toNat ∧
      t.boot.otpRun = some ⟨g.toNat, rr.toNat, sr.toNat⟩ ∧ t.boot.otp = s.boot.otp ∧ t.mem = s.mem) ∧
  (∀ (g : BitVec 7) (rr sr : BitVec 4) (s : State), g.toNat ≤ 64 → s.flag F.SEC_OTPCMD_BUSY = true →
    exec (.otpCommandGo g rr sr) s = .next (((s.setFld F.SEC_OTPCMD_TARGET g.toNat).setFld F.SEC_OTPCMD_RREV rr.toNat).setFld
      F.SEC_OTPCMD_SREV sr.toNat)) ∧
  (∀ (g : BitVec 7) (rr sr : BitVec 4) (s : State), 64 < g.toNat → exec (.otpCommandGo g rr sr) s = .next s) ∧
  (∀ (r : OtpRun) (s : State), s.boot.otpRun = some r →
    ∃ t, exec (.otpProgramDone none) s = .next t ∧ t.boot.otp = s.boot.otp.apply r (s.otpSkips r).1 (s.otpSkips r).2 ∧
      t.boot.otpRun = none ∧ t.flag F.SEC_OTPCMD_BUSY = false ∧ t.flag F.SEC_OTPCMD_ERR = false ∧ t.mem = s.mem ∧ t.zne = s.zne)) ∧
  ((∀ (x : StartIn) (s : State), s.recovery = false → s.boot.started = false → s.power.loss = none →
    let u := s.startBase x
    let slot := u.fld F.SEC_BOOTSTAT_SLOT
    (u.bundleEntry slot 0 = none →
      exec (.startUp x) s = .next ((u.znePost 0x040B [(16, 0), (8, 2)]).startBare none)) ∧
    (∀ b, u.bundleEntry slot 0 = some b →
      let v := (u.identifyDies slot b (popOf x.ids).1).selectProfile slot x.ids
      (v.1 = none → exec (.startUp x) s = .next (v.2.startBare none)) ∧
      (∀ r g, v.1 = some r → v.2.hif.formReq = false → v.2.boot.formed = some g →
        exec (.startUp x) s = .next ((v.2.loadProfile r).startFormed x r g slot)) ∧
      (∀ r, v.1 = some r → v.2.hif.formReq = true → exec (.startUp x) s = .next (v.2.startForm x r slot)) ∧
      (∀ r, v.1 = some r → v.2.hif.formReq = false → v.2.boot.formed = none →
        exec (.startUp x) s = .next (v.2.startBare (some (v.2.geomOf r (popOf x.ids))))))) ∧
  (∀ (x : HuskIn) (l : Bool) (f : Found) (s : State), s.zne.husk.replayed = false →
    let u := s.failHdrs x.hdr
    (u.replayable x.bad = true → exec (.startupHuskReplay x l f) s = .next (u.replay x).husksDone) ∧
    (u.replayable x.bad = false → exec (.startupHuskReplay x l f) s = .next (u.resync x l f).husksDone) ∧
    (u.replayable x.bad = true ↔ (u.copyDown 0 = false ∨ u.copyDown 1 = false) ∧
      ∀ y, y ∈ x.bad → u.recGood x.bad 0 y.2.val = true ∨ u.recGood x.bad 1 y.2.val = true)) ∧
  (∀ (x : HuskIn) (l : Bool) (f : Found) (s : State), s.zne.husk.replayed = true →
    exec (.startupHuskReplay x l f) s = .next s))

/-- On a ready controller a tail doorbell of an existing submission queue with a tail inside it records the tail, a head doorbell of an existing completion queue with a head inside it records the head, and no other queue, register, medium or byte of memory changes; a doorbell of no queue, or a value outside the queue, raises an Error asynchronous event of information 0 or 1; the coalescing timeout of a queue with completions unsignalled sends its interrupt (R274, R276). A port's arbiter takes an urgent queue before any other, and else serves the functions in turn, FNBURST entries at a time; a peeked entry that every credit allows is admitted, and one that lacks a credit stays in its queue; a head write that has lacked its credits for WBSTARVE µs holds its tenancy's later writes back (R271 to R273). Commands whose answer it states, as exec = next under conditions on operands and state alone: sqTailDoorbell, cqHeadDoorbell, arbiterTurn, peekEntryArrival, wbstarveExpiry, interruptCoalescingTimeout. -/
def Obligations.doorbells_and_arbitration : Prop :=
  ((∀ (fn : FnId) (qid : Fin 65) (v : BitVec 16) (q : Sq) (s : State), (s.func fn.val).ctl = .ready →
    Tab.find (s.func fn.val).sqs qid.val = some q → v.toNat < q.size →
    ∃ t, exec (.sqTailDoorbell fn qid v) s = .next t ∧
      Tab.find (t.func fn.val).sqs qid.val = some { q with tail := v.toNat } ∧
      (∀ k, k ≠ qid.val → Tab.find (t.func fn.val).sqs k = Tab.find (s.func fn.val).sqs k) ∧
      (t.func fn.val).cqs = (s.func fn.val).cqs ∧ (∀ f, f ≠ fn.val → t.func f = s.func f) ∧
      t.csr = s.csr ∧ t.mem = s.mem ∧ t.zne = s.zne ∧ t.evr = s.evr) ∧
  (∀ (fn : FnId) (qid : Fin 65) (v : BitVec 16) (q : Cq) (s : State), (s.func fn.val).ctl = .ready →
    Tab.find (s.func fn.val).cqs qid.val = some q → v.toNat < q.size →
    ∃ t, exec (.cqHeadDoorbell fn qid v) s = .next t ∧
      Tab.find (t.func fn.val).cqs qid.val = some { q with head := v.toNat } ∧
      (∀ k, k ≠ qid.val → Tab.find (t.func fn.val).cqs k = Tab.find (s.func fn.val).cqs k) ∧
      (t.func fn.val).sqs = (s.func fn.val).sqs ∧ (∀ f, f ≠ fn.val → t.func f = s.func f) ∧
      t.csr = s.csr ∧ t.mem = s.mem ∧ t.zne = s.zne ∧ t.evr = s.evr) ∧
  (∀ (fn : FnId) (qid : Fin 65) (v : BitVec 16) (s : State), (s.func fn.val).ctl = .ready →
    (Tab.find (s.func fn.val).sqs qid.val = none → exec (.sqTailDoorbell fn qid v) s = .next (s.doorbellError fn.val 0)) ∧
    (Tab.find (s.func fn.val).cqs qid.val = none → exec (.cqHeadDoorbell fn qid v) s = .next (s.doorbellError fn.val 0)) ∧
    (∀ q, Tab.find (s.func fn.val).sqs qid.val = some q → q.size ≤ v.toNat →
      exec (.sqTailDoorbell fn qid v) s = .next (s.doorbellError fn.val 1)) ∧
    (∀ q, Tab.find (s.func fn.val).cqs qid.val = some q → q.size ≤ v.toNat →
      exec (.cqHeadDoorbell fn qid v) s = .next (s.doorbellError fn.val 1))) ∧
  (∀ (fn : FnId) (cq : Fin 65) (q : Cq) (s : State), Tab.find (s.func fn.val).cqs cq.val = some q → q.pendingInt ≠ 0 →
    ∃ t, exec (.interruptCoalescingTimeout fn cq) s = .next t ∧ t.hif.ints = s.hif.ints ++ [(fn.val, q.vector)] ∧
      Tab.find (t.func fn.val).cqs cq.val = some { q with pendingInt := 0 } ∧ t.mem = s.mem ∧ t.csr = s.csr)) ∧
  ((∀ (p : Port) (f q : Nat) (s : State), s.noFetch = false → s.portTested p.val = false →
    (∀ e, e ∈ s.hif.peeks → e.1 / 128 ≠ p.val) → nextAfter (s.port p.val).lastUrg (s.serving p.val true) = some f →
    nextAfter (s.func (p.val * 128 + f)).lastq (s.ioQueues (p.val * 128 + f) true) = some q →
    exec (.arbiterTurn p) s = .next ((s.modPort p.val fun x => { x with lastUrg := f }).issuePeek (p.val * 128 + f) q
      (s.func (p.val * 128 + f)))) ∧
  (∀ (p : Port) (q : Nat) (y : Func) (s : State), s.noFetch = false → s.portTested p.val = false →
    (∀ e, e ∈ s.hif.peeks → e.1 / 128 ≠ p.val) → nextAfter (s.port p.val).lastUrg (s.serving p.val true) = none →
    (s.port p.val).rr ∈ s.serving p.val false → (s.port p.val).burst < s.fld (F.HIF_ARBCFG_FNBURST p.val) →
    s.pickQueue (p.val * 128 + (s.port p.val).rr) = some (q, y) →
    exec (.arbiterTurn p) s = .next (s.issuePeek (p.val * 128 + (s.port p.val).rr) q y)) ∧
  (∀ (fn : FnId) (qid : Fin 65) (e : Sqe) (pair : Option Sqe) (st : Status) (s : State),
    s.hif.peeks.contains (fn.val, qid.val) = true →
    let u : State := { s with hif := { s.hif with peeks := s.hif.peeks.filter (· != (fn.val, qid.val)) } }
    u.noFetch = false → u.peekable fn.val qid.val = true → u.portTested (fn.val / 128) = false →
    fuseError e pair = none → u.decodeError fn.val e = some st → e.fuse.toNat ≠ 1 →
    (u.creditsOk fn.val qid.val e none = true →
      exec (.peekEntryArrival fn qid e pair) s = .next (u.admitCmd fn.val qid.val e pair (some st) none 0)) ∧
    (u.creditsOk fn.val qid.val e none = false → ∃ t, exec (.peekEntryArrival fn qid e pair) s = .next t ∧
      t.hif.slots = s.hif.slots ∧ t.hif.cpls = s.hif.cpls ∧ t.hif.fns = s.hif.fns ∧ t.csr = s.csr ∧ t.zne = s.zne)) ∧
  (∀ (fn : FnId) (qid : Fin 65) (e : Sqe) (s : State), s.hif.peeks.contains (fn.val, qid.val) = true →
    let u : State := { s with hif := { s.hif with peeks := s.hif.peeks.filter (· != (fn.val, qid.val)) } }
    u.noFetch = false → u.peekable fn.val qid.val = true → u.portTested (fn.val / 128) = false →
    fuseError e none = none → u.decodeError fn.val e = none → e.opc.toNat = 0x00 → e.fuse.toNat ≠ 1 →
    u.creditsOk fn.val qid.val e none = true →
      exec (.peekEntryArrival fn qid e none) s = .next (u.admitCmd fn.val qid.val e none none none (buffersFor e false))) ∧
  (∀ (fn : FnId) (qid : Fin 65) (t : Nat) (s : State), Tab.find s.hif.held (queueKey fn.val qid.val) = some t →
    t + s.fld (F.HIF_ARBCFG_WBSTARVE (fn.val / 128)) * 1000 ≤ s.now → Tab.find s.hif.starved (s.fnTen fn.val) = none →
    ∃ u, exec (.wbstarveExpiry fn qid) s = .next u ∧
      Tab.find u.hif.starved (s.fnTen fn.val) = some (queueKey fn.val qid.val) ∧ u.hif.slots = s.hif.slots ∧ u.csr = s.csr ∧
      u.mem = s.mem))

/-- A block that arrives is encrypted for its LBA and its buffer marked written; the acknowledgement of the DMCs, while their ports are up, makes the buffer hold it and lets a zoned block complete its stripe; each slice entry that MRM acknowledges is one bit of the stripe, whose eighteenth makes it Committed, and the acknowledgement of the close entry closes it; the first Committed stripe that no rebuild holds has its programs granted together once the power and background checks allow; a transfer that fails on a conventional Write gives its blocks up and ends it with the fault's status (R29, R30, R72, R124, R130, R306, R309). Commands whose answer it states, as exec = next under conditions on operands and state alone: hostDataArrival, dmcBufferAck, huskSliceEntryAck, powerTokenGrant, huskCloseEntryAck, transferFailure. -/
def Obligations.write_data_path : Prop :=
  (∀ (i k : Fin 65536) (d : Blk) (h : Hmd) (x : Slot) (b : Nat) (y : Buf) (c : Blk) (s : State), s.slot i.val = some x →
    Tab.find x.bufs k.val = some b → Tab.find s.zne.bufs b = some y → y.st = .reserved →
    (s.encryptBlk y.ns y.gen x.ten (x.slba + k.val) d).1 = some c →
    exec (.hostDataArrival i k d h) s = .next ((s.encryptBlk y.ns y.gen x.ten (x.slba + k.val) d).2.modBuf b fun z =>
      { z with
        st := .written
        data := c
        hmd := BitVec.ofNat 128 (h.toNat % 2 ^ (8 * s.metaBytes x.ns))
        at_ := (s.encryptBlk y.ns y.gen x.ten (x.slba + k.val) d).2.now })) ∧
  (∀ (b : Fin 524288) (y : Buf) (z o : Nat) (x : Slot) (s : State), Tab.find s.zne.bufs b.val = some y → y.st = .written → s.portDown 0x0A = false → s.portDown 0x0B = false →
    y.own = .zone z o → s.slot y.slot = some x →
    exec (.dmcBufferAck b) s =
      .next ((s.modBuf b.val fun y => { y with st := .held }).placeZoned y.slot (x.indexOf b.val) z o)) ∧
  (∀ (r : Fin 6400) (m : Fin 18) (k : Nat) (t : Stripe) (s : State),
    s.zne.stripes.find? (fun e => e.2.record = some r.val) = some (k, t) → t.st = .filling → bit t.acked m.val = false →
    setBit t.acked m.val ≠ 0x3FFFF →
    exec (.huskSliceEntryAck r m) s =
      .next ((s.huskWrite r.val fun h => { h with slices := Tab.set h.slices m.val (s.sliceEntry t m.val) }).modStripe k
        fun t => { t with acked := setBit t.acked m.val })) ∧
  (∀ (r : Fin 6400) (m : Fin 18) (k : Nat) (t : Stripe) (s : State),
    s.zne.stripes.find? (fun e => e.2.record = some r.val) = some (k, t) → t.st = .filling → bit t.acked m.val = false →
    setBit t.acked m.val = 0x3FFFF →
    let u := s.huskWrite r.val fun h => { h with slices := Tab.set h.slices m.val (s.sliceEntry t m.val) }
    exec (.huskSliceEntryAck r m) s =
      .next (u.fresh.2.modStripe k fun t => { t with acked := 0x3FFFF, st := .committed, order := u.fresh.1 })) ∧
  (∀ (k : Nat) (t : Stripe) (s : State),
    minBy (fun e => e.2.order) (Tab.keep s.zne.stripes fun _ t => t.st = .committed && !t.withdrawn && !s.stripeHeld t) = some (k, t) →
    let os := s.stripePrograms k t t.background (s.stripeTen t)
    (s.powerAdmits os = true → s.bgAdmits os = true →
      exec .powerTokenGrant s = .next ((os.foldl (fun s o => s.enqueue { o with granted := true })
        ((s.takeBg os).modStripe k fun t => { t with
          st := .programming
          members := t.members.map fun x => if x.st = .idle then { x with st := .posted } else x })).showPower).retryCommits) ∧
    ((s.powerAdmits os = false ∨ s.bgAdmits os = false) → exec .powerTokenGrant s = .next s)) ∧
  (∀ (r : Fin 6400) (k : Nat) (t : Stripe) (s : State),
    s.zne.stripes.find? (fun e => e.2.record = some r.val) = some (k, t) → t.closing = true →
    exec (.huskCloseEntryAck r) s = .next (s.closeStripe k t)) ∧
  (∀ (i : Fin 65536) (why : XferFault) (x : Slot) (s : State), s.slot i.val = some x → x.started = true → x.opc = 0x01 →
    s.isConv x.ns = true → exec (.transferFailure ⟨i, why⟩) s =
      .next (((s.modSlot i.val fun x => { x with err := some why.status }).giveUpConv i.val).writeDone i.val))

/-- A die whose active pod is free and that may be posted to takes the operation that the scheduler puts first; the oldest DONE of a die is answered by what the operation was for, with the failed resets of the die counted; a suspended operation held for SUSPHOLD is wanted back; a resumed program or erase with a read left queued behind it at the resume, whose minimum run has passed, is asked to suspend; a Suspect die whose period has passed is Healthy again; DIECMD retires a die that is Healthy or Suspect and fails one that is not Failed, and is else ignored (R98 to R101, R210). An operation past 2 × P + MARGIN is marked late and counted against its die, once, a late read being dealt with at once (P of an operation to which R104 gives none is the model's, assumption 56), and so is a suspend past its own;  one past 4 × P + 1,000 µs has its LUN reset with event 0x0207, and before that and without a suspend pending nothing happens; a reset that brings no DONE within 10 ms is counted as failed, once (R113, R114, R120, R442). Commands whose answer it states, as exec = next under conditions on operands and state alone: podDispatch, dieOpDone, suspholdExpiry, watchdogExpiry, hardLimitExpiry, abortDoneTimeout, suspectPeriodExpiry, diecmdRetire, diecmdFail, minimumRunTimeElapsed. -/
def Obligations.operations_of_dies : Prop :=
  ((∀ (d : DieId) (o : DieOp) (s : State), (s.die d.val).active = none → s.resumeDue d.val = false → s.power.loss = none →
    s.mayPost d.val = true → s.heldProgram (s.die d.val) = some o → exec (.podDispatch d) s = .next (s.dispatchOp d.val o)) ∧
  (∀ (d : DieId) (o : DieOp) (s : State), (s.die d.val).active = none → s.resumeDue d.val = false → s.power.loss = none →
    s.mayPost d.val = true → s.heldProgram (s.die d.val) = none → s.burstRead (s.die d.val) = none →
    s.firstAdmitted (s.die d.val) [1, 2, 3, 4, 5] = some o → exec (.podDispatch d) s = .next (s.dispatchOp d.val o)) ∧
  (∀ (d : DieId) (zeros : BitVec 16) (x : Done) (s : State), s.zne.dones.find? (fun x => x.die == d.val) = some x →
    let v : State := { s with zne := { s.zne with dones := s.zne.dones.erase x } }
    let u : State := if x.code = 5 ∧ x.op.counted = false then v.countReset d.val false
      else if x.code = 4 ∧ x.detail ≠ 0xFE ∧ x.op.counted = false then v.countReset d.val true else v
    let w : State := match x.op.kind with
      | .read => u.readDone x zeros.toNat
      | .program => u.programDone x
      | .erase => u.eraseDone x
      | .offset => match x.op.purpose with
        | .offset v => if x.code = 0 then u.modDie d.val fun y => { y with rdset := v } else u
        | _ => u
      | .other => u
    exec (.dieOpDone d zeros) s = .next (w.resumeAfter d.val).returnReleased.showPower) ∧
  (∀ (d : DieId) (p : Pod) (s : State), (s.die d.val).susp = some p →
    s.fld F.ZNE_PODCFG_SUSPHOLD * 1000 ≤ s.now - (s.die d.val).heldSince →
    exec (.suspholdExpiry d) s = .next ((s.modDie d.val fun x => { x with wantResume := true }).fillPod d.val)) ∧
  (∀ (d : DieId) (o : DieOp) (os : List DieOp) (s : State), s.leftQueued d.val = o :: os → s.canSuspend d.val o.ten = true →
    ∃ t, exec (.minimumRunTimeElapsed d) s = .next t ∧ (∀ p, (t.die d.val).active = some p → p.suspReq = true) ∧
      t.mem = s.mem ∧ t.csr = s.csr ∧ t.hif = s.hif) ∧
  (∀ (d : DieId) (s : State), s.health d.val = 1 →
    s.fld F.ZNE_HEALTHCFG_SUSPECTDUR * 1000000000 ≤ s.now - (s.die d.val).suspectSince →
    ∃ t, exec (.suspectPeriodExpiry d) s = .next t ∧ t.health d.val = 0 ∧ t.zne = s.zne ∧ t.mem = s.mem) ∧
  (∀ (d : DieId) (s : State), s.populated d.val = true → s.health d.val < 2 →
    exec (.diecmdRetire d) s = .next (s.dieDead d.val 2 0)) ∧
  (∀ (d : DieId) (s : State), s.populated d.val = true → s.health d.val < 3 →
    exec (.diecmdFail d) s = .next (s.dieDead d.val 3 2)) ∧
  (∀ (d : DieId) (s : State), (s.populated d.val = false ∨ 2 ≤ s.health d.val) → exec (.diecmdRetire d) s = .next s) ∧
  (∀ (d : DieId) (s : State), (s.populated d.val = false ∨ 3 ≤ s.health d.val) → exec (.diecmdFail d) s = .next s)) ∧
  ((∀ (d : DieId) (p : Pod) (s : State), (s.die d.val).active = some p → p.op.isDirect = false → p.suspReq = false →
    p.op.late = false → s.opWatch p.op ≤ s.podTime p → p.op.kind ≠ .read →
    exec (.watchdogExpiry d) s = .next ((s.modDie d.val fun x => { x with active := x.active.map fun p => { p with
      op := { p.op with late := true } } }).countExpiry d.val p.op
        ((s.modDie d.val fun x => { x with active := x.active.map fun p => { p with op := { p.op with late := true } } }).predNs p.op))) ∧
  (∀ (d : DieId) (p : Pod) (s : State), (s.die d.val).active = some p → p.op.isDirect = false → p.suspReq = false →
    p.op.late = false → s.opWatch p.op ≤ s.podTime p → p.op.kind = .read →
    exec (.watchdogExpiry d) s = .next (((s.modDie d.val fun x => { x with active := x.active.map fun p => { p with
      op := { p.op with late := true } } }).countExpiry d.val p.op
        ((s.modDie d.val fun x => { x with active := x.active.map fun p => { p with op := { p.op with late := true } } }).predNs
          p.op)).lateRead p.op)) ∧
  (∀ (d : DieId) (p : Pod) (s : State), (s.die d.val).active = some p → p.op.isDirect = false → p.suspReq = true →
    p.suspLate = false → s.watchNs (s.suspNs p.op) ≤ s.now - p.suspAt →
    exec (.watchdogExpiry d) s = .next ((s.modDie d.val fun x => { x with active := x.active.map fun p => { p with
      suspLate := true } }).countExpiry d.val p.op (s.suspNs p.op))) ∧
  (∀ (d : DieId) (p : Pod) (s : State), (s.die d.val).active = some p → p.op.isDirect = false → p.suspReq = false →
    p.op.late = true → exec (.watchdogExpiry d) s = .next s) ∧
  (∀ (d : DieId) (p : Pod) (s : State), (s.die d.val).active = some p → p.abort = false → p.op.isDirect = false →
    s.opHard p.op ≤ s.podTime p →
    exec (.hardLimitExpiry d) s = .next ((s.znePost 0x0207 [(11, d.val), (4, p.op.opc)] p.op.ten).lunReset d.val)) ∧
  (∀ (d : DieId) (p : Pod) (s : State), (s.die d.val).active = some p → p.abort = false → p.op.isDirect = false →
    s.podTime p < s.opHard p.op → p.suspReq = false → exec (.hardLimitExpiry d) s = .next s) ∧
  (∀ (d : DieId) (p : Pod) (s : State), (s.die d.val).active = some p → p.abort = true → p.op.counted = false →
    10000000 ≤ s.now - p.abortAt →
    exec (.abortDoneTimeout d) s = .next ((s.modDie d.val fun x => { x with active := x.active.map fun p => { p with
      op := { p.op with counted := true } } }).countReset d.val false)) ∧
  (∀ (d : DieId) (p : Pod) (s : State), (s.die d.val).active = some p → p.op.counted = true →
    exec (.abortDoneTimeout d) s = .next s))

/-- A Flush that has been admitted completes with success, for any namespace identifier. Commands whose answer it states, as exec = next under conditions on operands and state alone: flush. -/
def Obligations.flush_completes : Prop :=
  ∀ (i : Fin 65536) (x : Slot) (s : State), s.startable i.val 0x00 = some x → exec (.flush i) s = .next (s.complete i.val .success)

/-- A zoned write whose zone is not held by an earlier command completes with the first check it fails, and else opens its zone and is assigned its LBAs; an append is checked as one, its write pointer moving the same way (that a zone found Full when it opens ends the command is the model's, assumption 61); Write Zeroes of a zone takes buffers and places zeros; a conventional write with a read-only rank set, a handle its namespace lacks, or no capacity completes with that status, and else has its buffers owned by its blocks; Write Zeroes and Deallocate of a conventional namespace start and release what they can, a Deallocate with a range beyond the namespace completing with LBA Out of Range; a Copy of ranges that its namespace holds and allows has its destination opened and its first blocks read (R66 to R68, R87, R177, R183, R184). Commands whose answer it states, as exec = next under conditions on operands and state alone: write, zoneAppend, copy, writeZeroes, datasetManagement. -/
def Obligations.writes_and_appends : Prop :=
  (∀ (i : Fin 65536) (x : Slot) (z : Nat) (st : Status) (s : State), s.isConv x.ns = false → x.zmi = some z →
    s.zoneBusy i.val z x.order = false →
    (s.serves i.val 0x01 x → s.writeCheck z x.nlb x.slba false = some st → exec (.write i) s = .next (s.complete i.val st)) ∧
    (s.serves i.val 0x7D x → s.writeCheck z x.nlb x.slba true = some st → exec (.zoneAppend i) s = .next (s.complete i.val st)) ∧
    (s.serves i.val 0x08 x → x.nlb + s.fld F.ZNE_DIRTY_CUR ≤ s.effBufs → s.writeCheck z x.nlb x.slba false = some st →
      exec (.writeZeroes i) s = .next (s.complete i.val st))) ∧
  (∀ (i : Fin 65536) (x : Slot) (z : Nat) (v : Option Nat) (s : State), s.isConv x.ns = false → x.zmi = some z →
    s.zoneBusy i.val z x.order = false → s.writeQuota z = (none, v) → ((s.openForWrite z v).zone z).zs ≠ .full →
    (s.serves i.val 0x01 x → s.writeCheck z x.nlb x.slba false = none →
      exec (.write i) s = .next ((s.openForWrite z v).assignLba i.val x z x.nlb)) ∧
    (s.serves i.val 0x7D x → s.writeCheck z x.nlb x.slba true = none →
      exec (.zoneAppend i) s = .next ((s.openForWrite z v).assignLba i.val x z x.nlb))) ∧
  (∀ (i : Fin 65536) (x : Slot) (z : Nat) (v : Option Nat) (s : State), s.isConv x.ns = false → x.zmi = some z →
    s.zoneBusy i.val z x.order = false → s.writeQuota z = (none, v) → ((s.openForWrite z v).zone z).zs ≠ .full →
    ((s.openForWrite z v).zone z).wp + x.nlb < (s.openForWrite z v).zLba →
    (s.serves i.val 0x01 x → s.writeCheck z x.nlb x.slba false = none → ∃ (t : State) (y : Slot), exec (.write i) s = .next t ∧
      (t.zone z).wp = ((s.openForWrite z v).zone z).wp + x.nlb ∧ t.slot i.val = some y ∧ y.started = true ∧
      y.slba = (s.openForWrite z v).zoneStart z + ((s.openForWrite z v).zone z).wp ∧ t.mem = s.mem) ∧
    (s.serves i.val 0x7D x → s.writeCheck z x.nlb x.slba true = none → ∃ (t : State) (y : Slot), exec (.zoneAppend i) s = .next t ∧
      (t.zone z).wp = ((s.openForWrite z v).zone z).wp + x.nlb ∧ t.slot i.val = some y ∧ y.started = true ∧
      y.slba = (s.openForWrite z v).zoneStart z + ((s.openForWrite z v).zone z).wp ∧ t.mem = s.mem)) ∧
  (∀ (i : Fin 65536) (x : Slot) (z : Nat) (v : Option Nat) (s : State), s.isConv x.ns = false → x.zmi = some z →
    s.zoneBusy i.val z x.order = false → s.writeQuota z = (none, v) → ((s.openForWrite z v).zone z).zs ≠ .full →
    x.nlb + s.fld F.ZNE_DIRTY_CUR ≤ s.effBufs → s.serves i.val 0x08 x → s.writeCheck z x.nlb x.slba false = none →
    let u := s.openForWrite z v
    let w := (u.reserveBufs x.ten i.val x.nlb).2.assignLba i.val x z x.nlb
    exec (.writeZeroes i) s = .next (((List.range x.nlb).zip ((w.slot i.val).map (·.bufs.map (·.2)) |>.getD [])).foldl (fun w e =>
      ((w.zeroData z ((u.zone z).wp + e.1)).2.modBuf e.2 fun y => { y with
        st := .held
        data := (w.zeroData z ((u.zone z).wp + e.1)).1.getD 0
        hmd := 0
        bad := (w.zeroData z ((u.zone z).wp + e.1)).1.isNone
        at_ := (w.zeroData z ((u.zone z).wp + e.1)).2.now }).placeZoned i.val e.1 z ((u.zone z).wp + e.1)) w)) ∧
  (∀ (z nlb slba : Nat) (append : Bool) (s : State), (s.rset (s.zone z).set).readOnly = false →
    (s.zone z).zs ≠ .offline → (s.zone z).zs ≠ .readOnly → (s.zone z).zs ≠ .full → (s.zone z).active = true →
    (s.writeCheck z nlb slba append = none ↔
      (if append then slba = s.zoneStart z ∧ nlb ≤ 256 else slba = s.zoneStart z + (s.zone z).wp) ∧
        (s.zone z).wp + nlb ≤ s.zLba)) ∧
  (∀ (i : Fin 65536) (x : Slot) (c : ConvNs) (s : State), s.serves i.val 0x01 x → s.isConv x.ns = true → s.cns x.ns = some c →
    ((s.rset c.set).readOnly = true → exec (.write i) s = .next (s.complete i.val .namespaceWriteProtected)) ∧
    ((s.rset c.set).readOnly = false → s.convRefuses x.ns = false → c.nruh ≤ s.handleOf x.ns x.sqe →
      exec (.write i) s = .next (s.complete i.val .invalidPlacementHandle)) ∧
    (∀ fresh, fresh = ((List.range x.nlb).filter fun k => (s.mapAt x.ns (x.slba + k)).isNone).length →
      (s.rset c.set).readOnly = false → s.convRefuses x.ns = false → s.handleOf x.ns x.sqe < c.nruh →
      (c.ncap < c.nuse + fresh → exec (.write i) s = .next (s.complete i.val .capacityExceeded)) ∧
      (c.nuse + fresh ≤ c.ncap → exec (.write i) s = .next
        ((((List.range x.nlb).zip (s.reservedOf i.val)).foldl (fun s e => s.modBuf e.2 fun b => { b with
          own := .conv x.ns (x.slba + e.1) (s.handleOf x.ns x.sqe)
          ns := x.ns
          gen := s.fld (F.XTS_NSK_CURGEN x.ns) }) s).modSlot i.val fun y => { y with
        st := .running
        started := true
        bufs := (List.range x.nlb).zip (s.reservedOf i.val)
        thru := s.flag F.ZNE_DIRTYCFG_THRU || x.thru })))) ∧
  (∀ (i : Fin 65536) (x : Slot) (s : State), s.serves i.val 0x08 x → s.isConv x.ns = true →
    exec (.writeZeroes i) s =
      .next ((s.modSlot i.val fun x => { x with st := .running, started := true }).advanceConv i.val).wakeConv) ∧
  (∀ (i : Fin 65536) (x : Slot) (n : Ns) (s : State), s.serves i.val 0x09 x → s.nsAt x.ns = some n →
    ((∀ r, r ∈ x.ranges → r.1 + r.2 ≤ n.nsze) → exec (.datasetManagement i) s =
      .next ((s.modSlot i.val fun x => { x with st := .running, started := true }).advanceConv i.val).wakeConv) ∧
    ((∃ r, r ∈ x.ranges ∧ n.nsze < r.1 + r.2) → exec (.datasetManagement i) s = .next (s.complete i.val .lbaOutOfRange))) ∧
  (∀ (c : CopyIn) (x : Slot) (z : Nat) (n : Ns) (v : Option Nat) (s : State), s.serves c.slot.val 0x19 x → x.zmi = some z →
    s.nsAt x.ns = some n → s.zoneBusy c.slot.val z x.order = false → bits x.sqe.cdw12.toNat 8 4 = 0 → x.sqe.ranges.length ≤ 128 →
    x.sqe.copyLen ≤ 131072 → (∀ r, r ∈ x.sqe.ranges → r.2 ≤ 131072 ∧ r.1 + r.2 ≤ n.nsze) →
    s.writeCheck z x.sqe.copyLen x.slba false = none → s.writeQuota z = (none, v) → ((s.openForWrite z v).zone z).zs ≠ .full →
    let u := (s.openForWrite z v).modZone z fun y => { y with copying := true }
    let y := { x with
      st := .running
      started := true
      nlb := x.sqe.copyLen
      cursor := 0
      thru := u.flag F.ZNE_DIRTYCFG_THRU || x.thru
      bad := c.bad }
    exec (.copy c) s = .next (((u.modSlot c.slot.val fun _ => y).copyReads c.slot.val y (List.range (min x.sqe.copyLen 256))).settle c.slot.val))

/-- An admitted Read, Compare or Verify whose zone an earlier command holds waits and changes nothing; a Read, Compare or Verify of a zoned namespace issues the media reads of the blocks that no buffer holds; a fused pair on a conventional namespace whose halves name the same blocks starts with its Compare, and any other completes both halves with Invalid Field (R92 to R95, R105, R193, R275). Reclaim Unit Handle Update ends the unit of each handle listed and refuses a handle the namespace lacks; Reclaim Unit Handle Status gives one 32-byte descriptor per handle after a 16-byte header; Report Zones waits for the earlier commands on the zones it reports and gives the zones from SLBA on that the filter passes, 64 bytes each after a 64-byte header (R83, R189, R190). Commands whose answer it states, as exec = next under conditions on operands and state alone: read, compare, fusedCompareWrite, verify, ioManagementSend, ioManagementReceive, zoneManagementReceive. -/
def Obligations.reads_and_reports : Prop :=
  ((∀ (i : Fin 65536) (bad : List Nat) (x : Slot) (s : State), x.err = none → s.readHeld i.val x = true →
    (s.startable i.val 0x02 = some x → exec (.read i bad) s = .next s) ∧
    (s.startable i.val 0x05 = some x → x.fused = none → exec (.compare i bad) s = .next s) ∧
    (s.startable i.val 0x0C = some x → exec (.verify i bad) s = .next s)) ∧
  (∀ (i : Fin 65536) (bad : List Nat) (x : Slot) (s : State), x.err = none → s.readHeld i.val x = false → s.isConv x.ns = false →
    let u := s.modSlot i.val fun x => { x with st := .running, started := true, bad := bad }
    let r := u.lookupAll i.val x.ns bad ((List.range x.nlb).map fun k => (x.slba + k, x.slba + k))
    let t := (r.2.issueReads (if x.urgent then 1 else 2) x.ten (.host i.val) r.1).settle i.val
    (s.startable i.val 0x02 = some x → exec (.read i bad) s = .next t) ∧
    (s.startable i.val 0x05 = some x → x.fused = none → exec (.compare i bad) s = .next t) ∧
    (s.startable i.val 0x0C = some x → exec (.verify i bad) s = .next t)) ∧
  (∀ (i : Fin 65536) (bad : List Nat) (x : Slot) (w : Sqe) (s : State), s.startable i.val 0x05 = some x → x.fused = some w →
    (s.isConv x.ns = true → x.nlb ≤ 16 → w.slba = x.sqe.slba → w.nlb = x.nlb →
      exec (.fusedCompareWrite i bad) s = .next (s.startRead i.val x bad)) ∧
    ((s.isConv x.ns = false ∨ 16 < x.nlb ∨ w.slba ≠ x.sqe.slba ∨ w.nlb ≠ x.nlb) →
      exec (.fusedCompareWrite i bad) s =
        .next ((s.postCpl ⟨x.fn, x.qid, w.cid.toNat, .invalidField, 0, 0, [], []⟩).complete i.val .invalidField)))) ∧
  ((∀ (i : Fin 65536) (x : Slot) (c : ConvNs) (s : State), s.serves i.val 0x1D x → s.cns x.ns = some c →
    let hs := (List.range (x.sqe.cdw10.toNat / 2 ^ 16 + 1)).map fun k => ofLe ((x.sqe.data.drop (2 * k)).take 2)
    (x.sqe.cdw10.toNat % 256 = 1 → (∀ h, h ∈ hs → h < c.nruh) →
      exec (.ioManagementSend i) s = .next ((hs.foldl (fun s h => s.endHandle x.ns h) s).complete i.val .success)) ∧
    ((x.sqe.cdw10.toNat % 256 ≠ 1 ∨ ∃ h, h ∈ hs ∧ c.nruh ≤ h) →
      exec (.ioManagementSend i) s = .next (s.complete i.val .invalidField))) ∧
  (∀ (i : Fin 65536) (x : Slot) (c : ConvNs) (s : State), s.serves i.val 0x12 x → s.cns x.ns = some c →
    x.sqe.cdw10.toNat % 256 = 1 → ∃ d : List Byte, exec (.ioManagementReceive i) s =
      .next (s.complete i.val .success 0 0 (d.take ((x.sqe.cdw11.toNat + 1) * 4))) ∧ d.length = 16 + 32 * c.nruh ∧
      ofLe ((d.drop 14).take 2) = c.nruh % 2 ^ 16 ∧ ∀ h, h < c.nruh → ofLe ((d.drop (16 + 32 * h)).take 2) = h % 2 ^ 16) ∧
  (∀ (i : Fin 65536) (x : Slot) (z : Nat) (n : Ns) (s : State), s.serves i.val 0x7A x → x.zmi = some z → s.nsAt x.ns = some n →
    let c := x.sqe.cdw13.toNat
    let zs := ((List.range (n.zbase + n.zones - z)).map (z + ·)).filter fun k => zoneFilter (bits c 8 8) (s.zone k).reported
    let room := ((x.sqe.cdw12.toNat + 1) * 4 - 64) / 64
    (c % 256 = 0 → bits c 8 8 ≤ 7 → (∃ k, z ≤ k ∧ k < n.zbase + n.zones ∧ s.zoneBusy i.val k x.order = true) →
      exec (.zoneManagementReceive i) s = .next s) ∧
    (c % 256 = 0 → bits c 8 8 ≤ 7 → (∀ k, z ≤ k → k < n.zbase + n.zones → s.zoneBusy i.val k x.order = false) →
      exec (.zoneManagementReceive i) s = .next (s.complete i.val .success 0 0
      ((leBytes 8 (if bit c 16 then min room zs.length else zs.length) ++ leBytes 56 0 ++ (zs.take room).flatMap s.zoneDesc).take
        ((x.sqe.cdw12.toNat + 1) * 4)))) ∧
    ((c % 256 ≠ 0 ∨ 7 < bits c 8 8) → exec (.zoneManagementReceive i) s = .next (s.complete i.val .invalidField))))

/-- Of one zone that no earlier command holds back, each zone command completes with the status of its transition, in the state the transition leaves; an Offline zone refuses all but Zone Offline with Zone Is Offline, a Read Only zone refuses a reset, and the transitions that R54 does not have fail with Invalid Zone State Transition and change nothing; an open zone closes, an Empty zone finishes as Full with nothing written (R54, R55, R81, R82). Commands whose answer it states, as exec = next under conditions on operands and state alone: zoneOpen, zoneClose, zoneFinish, zoneReset, zoneOffline, zoneMgmtEffect. -/
def Obligations.zone_commands : Prop :=
  (∀ (i : Fin 65536) (x : Slot) (z : Nat) (s : State), x.err = none → x.selectAll = false → x.zmi = some z → x.cursor ≤ z →
    s.actWaits i.val x z = false →
    (s.zoneCmd i.val 3 = some x → exec (.zoneOpen i) s = .next (s.zoneDone i.val z 3)) ∧
    (s.zoneCmd i.val 1 = some x → exec (.zoneClose i) s = .next (s.zoneDone i.val z 1)) ∧
    (s.zoneCmd i.val 2 = some x → exec (.zoneFinish i) s = .next (s.zoneDone i.val z 2)) ∧
    (s.zoneCmd i.val 4 = some x → exec (.zoneReset i) s = .next (s.zoneDone i.val z 4)) ∧
    (s.zoneCmd i.val 5 = some x → exec (.zoneOffline i) s = .next (s.zoneDone i.val z 5)) ∧
    (s.startable i.val 0x79 = some x → x.st = .waiting →
      exec (.zoneMgmtEffect i) s = .next (s.zoneDone i.val z x.zsa))) ∧
  (∀ (i : Fin 65536) (z a : Nat) (y : Slot) (s : State), (s.zoneAct z a).2.slot i.val = some y → y.zst = none →
    let u := (s.zoneAct z a).2.modSlot i.val fun y => { y with
      zst := y.zst.or (if (s.zoneAct z a).1 = .success then none else some (s.zoneAct z a).1) }
    s.zoneDone i.val z a = u.complete i.val (s.zoneAct z a).1) ∧
  (∀ (i : Fin 65536) (x : Slot) (z : Nat) (s : State), x.err = none → x.selectAll = false → x.zmi = some z →
    s.actWaits i.val x z = true →
    (s.zoneCmd i.val 4 = some x → x.cursor ≤ z → exec (.zoneReset i) s =
      .next (s.modSlot i.val fun x => { x with st := .waiting, started := true, cursor := z })) ∧
    (s.zoneCmd i.val 1 = some x → x.cursor ≤ z → exec (.zoneClose i) s =
      .next (s.modSlot i.val fun x => { x with st := .waiting, started := true, cursor := z }))) ∧
  (∀ (z : Nat) (s : State), (s.zone z).zs = .full → (s.zone z).resv = true → (s.zoneAct z 4).1 = .success ∧
    ((s.zoneAct z 4).2.zone z).zs = .empty ∧ ((s.zoneAct z 4).2.zone z).wp = 0) ∧
  (∀ (z : Nat) (s : State), (s.zone z).zs = .readOnly → (s.zoneAct z 5).1 = .success ∧
    ((s.zoneAct z 5).2.zone z).zs = .offline) ∧
  (∀ (z a : Nat) (s : State), (s.zone z).zs = .offline → a ≠ 5 → s.zoneAct z a = (.zoneIsOffline, s)) ∧
  (∀ (z : Nat) (s : State), (s.zone z).zs ≠ .readOnly → s.zoneAct z 5 = (.invalidZoneTransition, s)) ∧
  (∀ (z : Nat) (s : State), (s.zone z).zs = .readOnly → s.zoneAct z 4 = (.zoneIsReadOnly, s) ∧
    s.zoneAct z 1 = (.invalidZoneTransition, s) ∧ s.zoneAct z 2 = (.invalidZoneTransition, s) ∧
    s.zoneAct z 3 = (.invalidZoneTransition, s)) ∧
  (∀ (z : Nat) (s : State), (s.zone z).zs = .full → s.zoneAct z 1 = (.invalidZoneTransition, s) ∧
    s.zoneAct z 2 = (.invalidZoneTransition, s) ∧ s.zoneAct z 3 = (.invalidZoneTransition, s)) ∧
  (∀ (z : Nat) (s : State), (s.zone z).zs = .empty → s.zoneAct z 1 = (.invalidZoneTransition, s)) ∧
  (∀ (z : Nat) (s : State), ((s.zone z).zs = .iopen ∨ (s.zone z).zs = .eopen) →
    (s.zoneAct z 1).1 = .success ∧ ((s.zoneAct z 1).2.zone z).zs = .closed ∧ ((s.zoneAct z 1).2.zone z).wp = (s.zone z).wp ∧
      ∀ k, k ≠ z → (s.zoneAct z 1).2.zone k = s.zone k) ∧
  (∀ (z : Nat) (s : State), (s.zone z).zs = .iopen → (s.zoneAct z 3).1 = .success ∧ ((s.zoneAct z 3).2.zone z).zs = .eopen ∧
    ((s.zoneAct z 3).2.zone z).wp = (s.zone z).wp ∧ ∀ k, k ≠ z → (s.zoneAct z 3).2.zone k = s.zone k) ∧
  (∀ (z : Nat) (s : State), (s.zone z).zs = .empty → s.genAllows (s.zone z).ns = true →
    (s.zoneAct z 2).1 = .success ∧ ((s.zoneAct z 2).2.zone z).zs = .full ∧ ((s.zoneAct z 2).2.zone z).wp = 0)

/-- A zone whose oldest unflushed data is AGE ms old is staged, and one whose data is younger is not; a stage stripe is programmed FILLUS µs after its first codeword, and an open conventional stripe, of the host or of reclaim, AGE ms after its oldest data; a fold of a body of a zone that its controller did not finish takes a buffer for each staged codeword and reads them; the stage body with a dead member is relocated first, then, with fewer than 64 free, the oldest, and with neither the conventional data that a stage body holds moves on; once the background tokens cover a stripe, the dirty map pages not under way, as many as a stripe takes, go into a Committed stripe of the journal, verified and with no Husk record, on a row with a slice left, where there is one (R75, R78 to R80, R99, R176, R178, R182; assumption 81). Commands whose answer it states, as exec = next under conditions on operands and state alone: stageAgeExpiry, stageFillTimeout, foldStart, stageReclaim, convStripeAgeExpiry, mapCheckpoint. -/
def Obligations.staging_and_folding : Prop :=
  (∀ (z : Fin 2097152) (e : Nat × Buf) (s : State),
    minBy (fun e => e.2.at_) ((s.zoneBufs z.val).filter fun e => e.2.st = .held && !e.2.staging) = some e →
    (s.fld F.ZNE_STAGECFG_AGE * 1000000 ≤ s.now - e.2.at_ → exec (.stageAgeExpiry z) s = .next (s.stageZone z.val false)) ∧
    (s.now - e.2.at_ < s.fld F.ZNE_STAGECFG_AGE * 1000000 → exec (.stageAgeExpiry z) s = .next s)) ∧
  (∀ (n : Fin 16) (k : Nat) (t : Stripe) (s : State), s.stageStripe n.val = some (k, t) → t.pack ≠ [] →
    (s.fld F.ZNE_STAGECFG_FILLUS * 1000 ≤ s.now - t.opened → exec (.stageFillTimeout n) s = .next (s.wantStripe k)) ∧
    (s.now - t.opened < s.fld F.ZNE_STAGECFG_FILLUS * 1000 → exec (.stageFillTimeout n) s = .next s)) ∧
  (∀ (ns : Fin 1024) (h : Fin 8) (s : State),
    exec (.convStripeAgeExpiry ns h) s = .next ((s.convAge (pairKey ns.val h.val false)).convAge (pairKey ns.val h.val true))) ∧
  (∀ (p k a : Nat) (t : Stripe) (s : State), s.convStripe p = some (k, t) →
    t.pack ≠ [] → minBy id (t.pack.filterMap fun c => c.buf.bind fun b => (Tab.find s.zne.bufs b).map (·.at_)) = some a →
    (s.fld F.ZNE_STAGECFG_AGE * 1000000 ≤ s.now - a → s.convAge p = s.wantStripe k) ∧
    (s.now - a < s.fld F.ZNE_STAGECFG_AGE * 1000000 → s.convAge p = s)) ∧
  (∀ (p : Nat) (s : State), s.convStripe p = none → s.convAge p = s) ∧
  (∀ (z : Fin 2097152) (s : State),
    let i := (s.zone z.val).bstripes + (s.bodyStripes z.val).length
    let offs := s.stagedOffsets z.val i
    let u := offs.foldl (fun u _ => (u.reserveBuf (.fold z.val) (s.zone z.val).ns (s.zone z.val).gen (s.zone z.val).owner 65536).2) s
    (s.zone z.val).body.length = 18 → (s.zone z.val).fbc = false → offs ≠ [] → s.foldable z.val i = true →
    s.fld F.ZNE_DIRTY_CUR + offs.length ≤ s.effBufs → (∀ e, e ∈ s.zne.bufs → e.2.own ≠ .fold z.val) →
    exec (.foldStart z []) s = .next (u.issueReads 5 (s.zone z.val).owner (.fold z.val) (offs.filterMap fun o =>
      match (u.stagedAt z.val o).map u.slcLoc with
      | some (.flash own row m cw slc) => some (⟨own, row, m, cw, slc, o⟩ : CwRead)
      | _ => none))) ∧
  (∀ (n : Fin 16) (s : State),
    let bs := s.zne.slc.filter fun e => e.2.set = n.val && e.2.st = .stage && e.2.ready && decide (0 < e.2.used)
    (∀ e, minBy (fun e => e.2.seq) (bs.filter fun e => s.hasDead e.2) = some e →
      exec (.stageReclaim n) s = .next (s.relocStage e.1).reapStage) ∧
    (bs.filter (fun e => s.hasDead e.2) = [] → s.freeStageBodies n.val < 64 →
      ∀ e, minBy (fun e => e.2.seq) (bs.filter fun e => Tab.find s.zne.openStage n.val != some e.1) = some e →
        exec (.stageReclaim n) s = .next (s.relocStage e.1).reapStage) ∧
    (bs.filter (fun e => s.hasDead e.2) = [] → 64 ≤ s.freeStageBodies n.val → exec (.stageReclaim n) s = .next (s.unstageConv n.val))) ∧
  (∀ (p : Nat) (ps : List Nat) (s : State), s.pagesLeft = p :: ps →
    let set := ((s.zne.conv.find? fun c => decide (c.2.mapBase / 1024 ≤ p) && decide (p ≤ (c.2.mapBase + c.2.nsze) / 1024)).map (·.2.set)).getD 0
    let u := s.journalErase s.journalRows
    let free := s.journalRows.find? fun r => decide (u.journalUsed r < u.stageSpb) && r.all fun b => (Tab.find u.zne.erases b).isNone
    (s.setTokens set < 18 * s.fld F.ZNE_SCHEDCFG_PGMCOST → exec .mapCheckpoint s = .next s) ∧
    (18 * s.fld F.ZNE_SCHEDCFG_PGMCOST ≤ s.setTokens set → free = none → exec .mapCheckpoint s = .next u) ∧
    (∀ row, 18 * s.fld F.ZNE_SCHEDCFG_PGMCOST ≤ s.setTokens set → free = some row →
      ∃ (t : State) (k : Nat) (x : Stripe), exec .mapCheckpoint s = .next t ∧ Tab.find t.zne.stripes k = some x ∧ x.of_ = .journal (u.journalUsed row) ∧
        x.st = .committed ∧ x.record = none ∧ x.verify = true ∧ x.pack.filterMap (·.page) = u.pagesLeft.take u.stageLps ∧
        Tab.find t.zne.setTok set = some (Tab.getD u.zne.setTok set 0 + 18 * u.fld F.ZNE_SCHEDCFG_PGMCOST) ∧
        t.mem = s.mem ∧ t.hif = s.hif))

/-- A codeword that passes at its first read is counted at that step, delivered where it is wanted and discarded where it is not; a wanted one that fails, read neither to verify a program nor a rebuild, climbs to the next step of the ladder, is an erasure where its die has left service, and past the last step has failed the ladder; a tag of another location at the first read is reported and makes it an erasure, and at a later one climbs; the lost-row code of a helper makes it an erasure; a second double-bit error fails the ladder; a reconstruction that has its members serves its reader, recomputes once after a CRC failure, with event 0x0803, and is given up after a second, and one that has failed is given up (R107, R110, R111, R340). Commands whose answer it states, as exec = next under conditions on operands and state alone: reconstructionDone, ldcDecodeDone. -/
def Obligations.decode_outcomes : Prop :=
  (∀ (k : Nat) (r : Recon) (s : State), s.recon k = some r →
    (r.failed = true → ∀ b, exec (.reconstructionDone k b) s = .next (s.failRecon k r)) ∧
    (r.failed = false → r.ready = true → exec (.reconstructionDone k false) s = .next (s.finishRecon k r)) ∧
    (r.failed = false → r.ready = true → r.crcRetry = false → exec (.reconstructionDone k true) s =
      .next (((s.znePost 0x0803 [(20, k), (8, 1), (32, 0xFFFFFFFF), (64, 0)]).ceBuffer 1 k).modRecon k fun r => { r with crcRetry := true })) ∧
    (r.failed = false → r.ready = true → r.crcRetry = true → exec (.reconstructionDone k true) s = .next
      (((s.znePost 0x0803 [(20, k), (8, 1), (32, 0xFFFFFFFF), (64, 0)]).ceBuffer 1 k).failRecon k r)) ∧
    (r.failed = false → r.ready = false → ∀ b, exec (.reconstructionDone k b) s = .next s)) ∧
  (∀ (u : Nat) (x : Decode) (s : State), Tab.find s.zne.decodes u = some x →
    let w := State.freeCw { s with zne := { s.zne with decodes := Tab.erase s.zne.decodes u } } x.op x.cw
    (∀ h d g b, x.op.lad = 0 →
      ((w.countLadder x.op (ladderStep 0)).wanted x.op x.tag = true → exec (.ldcDecodeDone u (.pass d h g b)) s =
        .next ((w.countLadder x.op (ladderStep 0)).deliver x.op (x.cw, x.tag) g.toNat b.toNat d h)) ∧
      ((w.countLadder x.op (ladderStep 0)).wanted x.op x.tag = false → exec (.ldcDecodeDone u (.pass d h g b)) s =
        .next ((w.countLadder x.op (ladderStep 0)).discard x.op (x.cw, x.tag)))) ∧
    (∀ e f, x.op.lad = 0 →
      let v := w.znePost 0x0206 [(32, x.op.blk), (16, x.op.slice), (32, e.toNat), (32, f.toNat)] x.op.ten
      (v.wanted x.op x.tag = false → exec (.ldcDecodeDone u (.mismatch e f)) s = .next v) ∧
      (v.wanted x.op x.tag = true → exec (.ldcDecodeDone u (.mismatch e f)) s =
        .next (v.eraseCw x.op (x.cw, x.tag) true false))) ∧
    (∀ e f, x.op.lad ≠ 0 →
      (w.wanted x.op x.tag = false → exec (.ldcDecodeDone u (.mismatch e f)) s = .next w) ∧
      (w.wanted x.op x.tag = true → exec (.ldcDecodeDone u (.mismatch e f)) s = .next (w.climb x.op (x.cw, x.tag)))) ∧
    (∀ a b, w.wanted x.op x.tag = true → x.op.purpose = .helper a b → exec (.ldcDecodeDone u .lostRow) s =
      .next (w.eraseCw x.op (x.cw, x.tag) true false)) ∧
    (w.wanted x.op x.tag = false → exec (.ldcDecodeDone u .fail) s = .next w ∧ exec (.ldcDecodeDone u .lostRow) s = .next w ∧
      exec (.ldcDecodeDone u .doubleBit) s = .next w) ∧
    (w.wanted x.op x.tag = true → x.op.again = true →
      exec (.ldcDecodeDone u .doubleBit) s = .next (w.ladderFailed x.op (x.cw, x.tag))) ∧
    (w.wanted x.op x.tag = true → (∀ a b, x.op.purpose ≠ .verify a b) → (∀ a, x.op.purpose ≠ .jobVerify a) →
      (w.nextLad x.op.blk x.op.lad = none → exec (.ldcDecodeDone u .fail) s = .next (w.ladderFailed x.op (x.cw, x.tag))) ∧
      (∀ l, w.nextLad x.op.blk x.op.lad = some l → w.deadDie (blkDie x.op.blk) = true → exec (.ldcDecodeDone u .fail) s =
        .next (w.eraseCw x.op (x.cw, x.tag) true false)) ∧
      (∀ l, w.nextLad x.op.blk x.op.lad = some l → w.deadDie (blkDie x.op.blk) = false → exec (.ldcDecodeDone u .fail) s =
        .next (w.enqueue { x.op with
          cws := [(x.cw, x.tag)]
          lad := l
          late := false
          granted := false
          suspends := 0
          gone := [] }))))

/-- An erase is issued only once its ledger entry is acknowledged; a cleared ledger entry lets the erased block be used for what it was erased for; ahead of use up to 18 dirty blocks of the rings are erased; the least worn Full body is relocated where the lowest mean of the Full bodies lies more than WLDELTA below the most worn block; the refresh queue is served before the scrub; a rebuild, and each of its slices, starts where PAUSE, the die's jobs, share and tokens allow; a torn stripe has its Interrupted members substituted and its Erased ones programmed (R57, R135, R140, R145, R147, R231, R232, R238, R241, R244). Commands whose answer it states, as exec = next under conditions on operands and state alone: rebuildJobStart, tornRepair, eraseLedgerWriteAck, eraseLedgerClearAck, preeraseStart, wearRelocationStart, scrubVisit. -/
def Obligations.erase_and_upkeep : Prop :=
  (∀ (b : BitVec 25) (j : EraseJob) (s : State), Tab.find s.zne.erases b.toNat = some j →
    (j.st = .ledger → j.entry < 4096 → exec (.eraseLedgerWriteAck b) s = .next ((s.cfgWrite false).issueErase j)) ∧
    (j.st ≠ .ledger → exec (.eraseLedgerWriteAck b) s = .next s) ∧
    (j.st = .clearing → j.for_ = .pre → exec (.eraseLedgerClearAck b) s =
      .next ((({ s with zne := { s.zne with
        erases := Tab.adjust s.zne.erases j.blk fun j => { j with st := .verified } } } : State).dropErase j.blk).setClean j.blk).showMedia) ∧
    (∀ z, j.st = .clearing → j.for_ = .zone z → exec (.eraseLedgerClearAck b) s =
      .next ((({ s with zne := { s.zne with
        erases := Tab.adjust s.zne.erases j.blk fun j => { j with st := .verified } } } : State).dropErase j.blk).bodyMapped z)) ∧
    (∀ k, j.st = .clearing → (j.for_ = .slc k → exec (.eraseLedgerClearAck b) s =
        .next ((({ s with zne := { s.zne with
          erases := Tab.adjust s.zne.erases j.blk fun j => { j with st := .verified } } } : State).dropErase j.blk).slcMapped k)) ∧
      (j.for_ = .job k → exec (.eraseLedgerClearAck b) s =
        .next ((({ s with zne := { s.zne with
          erases := Tab.adjust s.zne.erases j.blk fun j => { j with st := .verified } } } : State).dropErase j.blk).jobNext k)) ∧
      (j.for_ = .reloc k → exec (.eraseLedgerClearAck b) s =
        .next ((({ s with zne := { s.zne with
          erases := Tab.adjust s.zne.erases j.blk fun j => { j with st := .verified } } } : State).dropErase j.blk).relocNext k))) ∧
    (j.st ≠ .clearing → exec (.eraseLedgerClearAck b) s = .next s)) ∧
  (∀ (n : Fin 16) (s : State),
    let unc := (s.slcEntries n.val).any (·.uncertain)
    let es := ((s.walk (s.rset n.val).rotor).filterMap fun c => (s.ring n.val c true).find? fun e =>
      s.eligible e && !s.usableClean e && (!unc || e.uncertain)).take 18
    ((unc = true ∨ s.erasedFresh n.val < s.preeraseNeed n.val) →
      exec (.preeraseStart n) s = .next (es.foldl (fun s e => s.beginErase e.blk .pre) s)) ∧
    (unc = false → s.preeraseNeed n.val ≤ s.erasedFresh n.val → exec (.preeraseStart n) s = .next s) ∧ es.length ≤ 18) ∧
  (∀ (n : Fin 16) (z l : Nat) (x : Zone) (s : State),
    let full := s.zne.zones.filter fun e => e.2.set = n.val && e.2.zs = .full && e.2.body.length = 18
    minBy (fun e => s.sumPe e.2.body) (full.filter fun e => !e.2.staged && !(s.zne.relocs.any fun r => r.2.zmi = e.1)) = some (z, x) →
    minBy id (full.map fun e => s.sumPe e.2.body) = some l →
    (s.zne.relocs.filter fun r => (s.zone r.2.zmi).set = n.val && !r.2.refresh).length < s.fld F.ZNE_WEARCFG_WLMAX →
    l + 18 * s.fld F.ZNE_WEARCFG_WLDELTA <
      18 * (s.blocksOf n.val fun _ e => !e.slc && (e.st = .free || e.st = .body)).foldl (fun m b => max m (s.blk b).pe) 0 →
    exec (.wearRelocationStart n) s = .next (s.startReloc z false)) ∧
  (∀ (b : Nat) (s : State), s.zne.refreshQ.find? s.refreshable = some b →
    exec .scrubVisit s = .next (((s.bump F.ZNE_MH_SCRUBBED_COUNT).scrubRead b false).refreshBlk b)) ∧
  (∀ (s : State), s.zne.refreshQ.find? s.refreshable = none → s.flag F.ZNE_SCRUBCFG_SCRUBEN = false → exec .scrubVisit s = .next s) ∧
  (∀ (b : Nat) (s : State), s.zne.refreshQ.find? s.refreshable = none → s.flag F.ZNE_SCRUBCFG_SCRUBEN = true →
    (((s.zne.blks.filter fun e => (e.2.st = .body || e.2.st = .stage || e.2.st = .conv || e.2.st = .system) &&
      !s.deadDie (blkDie e.1)).map (·.1)).find? fun b => decide (s.zne.scrubAt ≤ b)) = some b →
    exec .scrubVisit s = .next ((({ s with zne := { s.zne with scrubAt := b + 1 } } : State).bump F.ZNE_MH_SCRUBBED_COUNT).scrubRead
      b false)) ∧
  (∀ (j : Nat) (x : MJob) (s : State),
    minBy (fun e => s.rebuildRank e.2 * 2 ^ 40 + e.2.zmi) (s.zne.jobs.filter fun e => s.rebuildReady e.2 && s.jobRoom e.2) = some (j, x) →
    (s.flag F.ZNE_RBCFG_PAUSE = true → exec .rebuildJobStart s = .next s) ∧
    (s.flag F.ZNE_RBCFG_PAUSE = false →
      s.recentBytes + 16 * s.jobCps x * 4544 ≤ s.fld F.ZNE_RBCFG_SHARE * 3072000000 / 1000 → s.sliceReads x ≤ s.setTokens x.set →
      (x.st = .slice → exec .rebuildJobStart s = .next (s.jobRead j x)) ∧
      (x.st ≠ .slice → exec .rebuildJobStart s = .next (s.jobTake j x)))) ∧
  (∀ (r : Fin 6400) (k : Nat) (t : Stripe) (s : State),
    s.zne.stripes.find? (fun e => e.2.record = some r.val && e.2.st = .torn) = some (k, t) →
    let ms := t.members.zip (List.range 18)
    let u := (ms.filter fun x => x.1.st = .idle).foldl (fun s x => s.enqueue
        (plainOp 3 .program t.slc x.1.blk t.idx [] (.prog k x.2) (s.stripeTen t)))
      (s.modStripe k fun t => { t with
        verify := false
        members := t.members.map fun x => if x.st = .idle then { x with st := .posted } else x })
    exec (.tornRepair r) s = .next ((ms.filter fun x => x.1.st = .interrupted).foldl (fun s x => s.startSubst k x.2) u))

/-- A command to a slot waits for the next sample boundary; LPE_HOLD written in an OPEN slot shows at its output at once, and in a slot that is not open is refused with event 0x0504, whose register offset is that in the LPE window (assumption 85); an external measurement ends its staleness; a sample boundary, on the grid of PERIOD, reloads the token accounts and lets the written temperature target act, completing in every state; with sampling off and no slot command waiting it changes no register, and posts event 0x0506 for each external measurement that goes stale there, counted from reset where none was written (assumption 85), and nothing else; a boundary before its time changes nothing (R99, R158, R166, R168, R171). Commands whose answer it states, as exec = next under conditions on operands and state alone: sampleBoundary, slotOpen, slotClose, lpeHoldWrite, lpeExtmeasWrite. -/
def Obligations.loop_engine : Prop :=
  (∀ (k : Fin 160) (s : State), (∃ t, exec (.slotOpen k) s = .next t ∧ (t.lpeSlot k.val).pend = 1 ∧ t.flag (F.LPE_SCTL_PEND k.val) = true ∧
      t.lpeState k.val = s.lpeState k.val ∧ (∀ j, j ≠ k.val → t.lpeSlot j = s.lpeSlot j) ∧ t.zne = s.zne ∧ t.mem = s.mem) ∧
    (∃ t, exec (.slotClose k) s = .next t ∧ (t.lpeSlot k.val).pend = 2 ∧ t.flag (F.LPE_SCTL_PEND k.val) = true ∧
      t.lpeState k.val = s.lpeState k.val ∧ (∀ j, j ≠ k.val → t.lpeSlot j = s.lpeSlot j) ∧ t.zne = s.zne ∧ t.mem = s.mem)) ∧
  (∀ (k : Fin 160) (w : W32) (s : State), s.lpeState k.val = 0 →
    ∃ t, exec (.lpeHoldWrite k w) s = .next t ∧ t.fld (F.LPE_HOLD_U k.val) = w.toNat % 2 ^ 16 ∧
      t.fld (F.LPE_OUT_U k.val) = w.toNat % 2 ^ 16 ∧ t.fld (F.LPE_HOLD_LVL k.val) = w.toNat / 2 ^ 16 % 4 ∧
      t.fld (F.LPE_OUT_LVL k.val) = w.toNat / 2 ^ 16 % 4 ∧ t.fld (F.LPE_OUT_RA k.val) = w.toNat / 2 ^ 18 % 2 ∧
      (k.val < 128 → t.fld (F.ZNE_TGOV_BGTOK k.val) = w.toNat % 2 ^ 16 ∧ t.fld (F.ZNE_TGOV_SUSPLVL k.val) = w.toNat / 2 ^ 16 % 4) ∧
      t.lpe = s.lpe ∧ t.zne = s.zne ∧ t.mem = s.mem) ∧
  (∀ (k : Fin 160) (w : W32) (s : State), s.lpeState k.val ≠ 0 →
    exec (.lpeHoldWrite k w) s = .next (s.lpePost k.val 0x0504 [(24, slotOff k.val 0x24)])) ∧
  (∀ (i : Fin 15) (y : BitVec 16) (s : State), ∃ t, exec (.lpeExtmeasWrite i y) s = .next t ∧
    t.fld (F.LPE_EXTMEAS_Y i.val) = y.toNat ∧ Tab.find t.lpe.ext (145 + i.val) = some 0 ∧ i.val ∉ t.lpe.gone ∧ t.zne = s.zne ∧
    t.mem = s.mem) ∧
  (∀ (s : State), s.now < s.lpe.last + s.lpe.per * 1000 → exec .sampleBoundary s = .next s) ∧
  (∀ (s : State), s.lpe.last + s.lpe.per * 1000 ≤ s.now →
    ∃ t, exec .sampleBoundary s = .next t ∧ t.zne.tenTok = [] ∧ t.zne.setTok = [] ∧
      t.lpe.last = s.lpe.last + (s.now - s.lpe.last) / (s.lpe.per * 1000) * (s.lpe.per * 1000) ∧ t.lpe.tgt = none ∧
      t.lpe.per = s.fld F.LPE_CFG_PERIOD ∧ t.mem = s.mem ∧ t.zne.zones = s.zne.zones ∧ t.hif = s.hif) ∧
  (∀ (s : State), s.lpe.last + s.lpe.per * 1000 ≤ s.now → s.flag F.LPE_CFG_RUN = false →
    (∀ k, k ∈ slotOrder → (s.lpeSlot k).pend = 0) →
    ∃ t, exec .sampleBoundary s = .next t ∧ (s.gated 2 = false → t.csr = s.csr) ∧
      (∀ i : Fin 15, i.val ∈ t.lpe.gone ↔ s.fld F.LPE_CFG_STALE ≤ Tab.getD s.lpe.ext (145 + i.val) 0 + 1) ∧
      ((∀ i : Fin 15, i.val ∈ s.lpe.gone ∨ Tab.getD s.lpe.ext (145 + i.val) 0 + 1 < s.fld F.LPE_CFG_STALE) → t.evr = s.evr ∧ t.csr = s.csr) ∧
      (s.gated 2 = false → ∀ i : Fin 15, i.val ∉ s.lpe.gone → s.fld F.LPE_CFG_STALE ≤ Tab.getD s.lpe.ext (145 + i.val) 0 + 1 →
        ∃ e, e ∈ t.evr.transit ∧ e.id = 0x0506 ∧ e.src = 0x09 ∧ e.payload = 145 + i.val))

/-- LTEN is set once the island runs on its PLL and the PHY rail is good, and else, or a second time, nothing happens; a link that trains, or trains again, at a rate and a width within its configuration shows LINKUP, RATE, WIDTH, FLIT at 64 GT/s and L0, and one outside it shows nothing; PERSTn_N of a port in use resets the functions of the port, takes its link down and clears its VF Enable, NumVFs and IDE streams, its release starts training where LTEN is 1 and the port is in use, and on a port not in use PERSTn_N changes its pin alone; a link lost without a request counts in HIF_LINKDOWN, resets the port's functions and trains again (R251 to R254, R269, R432). A port at 64 GT/s in L0 or L0p that has been idle for 20 µs asks for a width narrower than the one it has or has asked for, not below L0PMIN; a power state of the link other than L0p shows in LPS, and wakes the part where its power mode does not allow it; a failed IDE check on a secure stream is counted in HIF_IDEDROP, clears the stream's Secure bit, sets its FAIL bit and ends the commands it met with Data Transfer Error; keys programmed in a finished session of the port's own endpoint make the stream Secure; VF Enable takes NumVFs with it and holds it; the diagnostic window's ALLOW and LOCK are written until LOCK is 1 (R255, R257, R259, R264 to R266). Commands whose answer it states, as exec = next under conditions on operands and state alone: linkEnable, linkTrained, perstAssert, perstDeassert, surpriseLinkDown, l0pWidthRequest, ideIntegrityFail, ideKmKeyProgram, vfEnableWrite, diagctlWrite, linkPowerStateChange. -/
def Obligations.pcie_links : Prop :=
  ((∀ (p : Port) (s : State), s.flag (F.ISL_CLKSTAT_SRCACT (0x0C + p.val)) = true → s.flag (F.HIF_LINKCFG_LTEN p.val) = false →
    s.railOk 5 = true → ∃ t, exec (.linkEnable p) s = .next t ∧ t.flag (F.HIF_LINKCFG_LTEN p.val) = true ∧
      (t.port p.val).training = (s.portUsed p.val && s.perstHigh p.val) ∧ t.zne = s.zne ∧ t.mem = s.mem) ∧
  (∀ (p : Port) (s : State), (s.flag (F.ISL_CLKSTAT_SRCACT (0x0C + p.val)) = false ∨ s.flag (F.HIF_LINKCFG_LTEN p.val) = true ∨
    s.railOk 5 = false) → exec (.linkEnable p) s = .next s) ∧
  (∀ (p : Port) (rate : BitVec 3) (width : BitVec 5) (s : State), ((s.port p.val).training = true ∨ s.flag (F.HIF_PORTSTAT_LINKUP p.val) = true) →
    rate.toNat ≠ 0 → rate.toNat ≤ s.fld (F.HIF_LINKCFG_MAXRATE p.val) → width.toNat ≤ s.portWidth p.val → width.toNat ∈ [1, 2, 4, 8, 16] →
    ∃ t, exec (.linkTrained p rate width) s = .next t ∧ t.flag (F.HIF_PORTSTAT_LINKUP p.val) = true ∧
      t.fld (F.HIF_PORTSTAT_RATE p.val) = rate.toNat ∧ t.fld (F.HIF_PORTSTAT_WIDTH p.val) = width.toNat ∧
      t.flag (F.HIF_PORTSTAT_FLIT p.val) = decide (rate.toNat = 6) ∧ t.fld (F.HIF_PORTSTAT_LPS p.val) = 0 ∧
      (t.port p.val).training = false ∧ (t.port p.val).wasUp = true ∧ t.zne = s.zne ∧ t.mem = s.mem) ∧
  (∀ (p : Port) (rate : BitVec 3) (width : BitVec 5) (s : State), (rate.toNat = 0 ∨ s.fld (F.HIF_LINKCFG_MAXRATE p.val) < rate.toNat ∨
    s.portWidth p.val < width.toNat) → exec (.linkTrained p rate width) s = .next s) ∧
  (∀ (p : Port) (s : State), s.portUsed p.val = true → ∃ t, exec (.perstAssert p) s = .next t ∧
    t = (((s.setPerst p.val false).resetPortFns p.val false).linkDown p.val).modPort p.val (fun x => { x with
      training := false
      perst := true
      vfen := false
      numVfs := 0
      streams := []
      wasUp := false }) ∧ (t.port p.val).perst = true ∧ (t.port p.val).vfen = false ∧ (t.port p.val).numVfs = 0 ∧ (t.port p.val).streams = [] ∧
    (t.port p.val).training = false) ∧
  (∀ (p : Port) (s : State), s.portUsed p.val = false → exec (.perstAssert p) s = .next (s.setPerst p.val false)) ∧
  (∀ (p : Port) (s : State), s.flag (F.HIF_PORTSTAT_LINKUP p.val) = false → ∃ t, exec (.perstDeassert p) s = .next t ∧
    t.perstHigh p.val = true ∧ (t.port p.val).perst = false ∧
    (t.port p.val).training = (s.portUsed p.val && s.flag (F.HIF_LINKCFG_LTEN p.val)) ∧ t.csr = s.csr ∧ t.zne = s.zne) ∧
  (∀ (p : Port) (s : State), s.flag (F.HIF_PORTSTAT_LINKUP p.val) = true → exec (.surpriseLinkDown p) s =
    .next ((((s.bump (F.HIF_LINKDOWN_COUNT p.val)).resetPortFns p.val false).linkDown p.val).startTraining p.val)) ∧
  (∀ (p : Port) (s : State), s.flag (F.HIF_PORTSTAT_LINKUP p.val) = false → exec (.surpriseLinkDown p) s = .next s)) ∧
  ((∀ (p : Port) (w : Fin 4) (s : State), s.flag (F.HIF_LINKCFG_L0PEN p.val) = true → s.fld (F.HIF_PORTSTAT_RATE p.val) = 6 →
    s.fld (F.HIF_PORTSTAT_LPS p.val) ≤ 1 → s.fld (F.HIF_LINKCFG_L0PMIN p.val) ≤ w.val → 
    2 ^ w.val < (((s.port p.val).l0pReq.map (2 ^ ·)).getD (s.fld (F.HIF_PORTSTAT_WIDTH p.val))) → (s.port p.val).idle + 20000 ≤ s.now →
    ∃ t, exec (.l0pWidthRequest p w) s = .next t ∧ t.fld (F.HIF_PORTSTAT_LPS p.val) = 1 ∧
      (t.port p.val).l0pReq = some w.val ∧ t.zne = s.zne ∧ t.mem = s.mem) ∧
  (∀ (p : Port) (w : Fin 4) (s : State), (s.flag (F.HIF_LINKCFG_L0PEN p.val) = false ∨ s.fld (F.HIF_PORTSTAT_RATE p.val) ≠ 6 ∨
    w.val < s.fld (F.HIF_LINKCFG_L0PMIN p.val) ∨ s.now < (s.port p.val).idle + 20000) →
    exec (.l0pWidthRequest p w) s = .next s) ∧
  (∀ (p : Port) (l : Fin 6) (s : State), s.flag (F.HIF_PORTSTAT_LINKUP p.val) = true → l.val ≠ 1 →
    ∃ u : State, u.fld (F.HIF_PORTSTAT_LPS p.val) = l.val ∧ (u.port p.val).idle = s.now ∧ (u.port p.val).l0pReq = none ∧
      u.zne = s.zne ∧ u.mem = s.mem ∧
      (u.linkAllows p.val (s.fld F.AON_PSSTAT_CUR) = true → exec (.linkPowerStateChange p l) s = .next u) ∧
      (u.linkAllows p.val (s.fld F.AON_PSSTAT_CUR) = false → exec (.linkPowerStateChange p l) s = .next u.wakeUp)) ∧
  (∀ (p : Port) (l : Fin 6) (s : State), s.flag (F.HIF_PORTSTAT_LINKUP p.val) = true → l.val ≠ 1 → s.fld F.AON_PSSTAT_CUR = 0 →
    ∃ t, exec (.linkPowerStateChange p l) s = .next t ∧ t.fld (F.HIF_PORTSTAT_LPS p.val) = l.val ∧ t.zne = s.zne ∧ t.mem = s.mem) ∧
  (∀ (p : Port) (k : Fin 8) (rid : BitVec 16) (s : State), bit (s.fld (F.HIF_IDESTAT_SECURE p.val)) k.val = true →
    ∃ t, exec (.ideIntegrityFail p k rid []) s = .next t ∧ bit (t.fld (F.HIF_IDESTAT_SECURE p.val)) k.val = false ∧
      t.fld (F.HIF_IDEDROP_COUNT p.val) = (s.fld (F.HIF_IDEDROP_COUNT p.val) + 1) % 2 ^ 64 ∧
      (∀ slots, exec (.ideIntegrityFail p k rid slots) s = .next (slots.foldl (fun u i => match u.slot i.val with
        | some x =>
          if x.fn / 128 ≠ p.val then u
          else if x.reads then (u.cancelReads i.val).complete i.val .dataTransferError
          else u.transferFail i.val .dataTransferError
        | none => u) t)) ∧
      bit (t.fld (F.HIF_IDESTAT_FAIL p.val)) k.val = true ∧
      (∀ j : Fin 8, j ≠ k → bit (t.fld (F.HIF_IDESTAT_SECURE p.val)) j.val = bit (s.fld (F.HIF_IDESTAT_SECURE p.val)) j.val) ∧
      t.zne = s.zne ∧ t.mem = s.mem) ∧
  (∀ (p : Port) (eid : BitVec 8) (h : W32) (k : Fin 8) (n : Fin 2) (keys : Vector (BitVec 256) 6) (s : State),
    let e : EpId := (⟨p.val, by omega⟩, eid)
    (s.hears e = true → Tab.find (s.ep e).sessions h.toNat = some true →
      ∃ t, exec (.ideKmKeyProgram p eid h k n keys) s = .next t ∧ bit (t.fld (F.HIF_IDESTAT_SECURE p.val)) k.val = true ∧
        (∀ i : Fin 6, Tab.find (t.port p.val).streams (ideKey k.val n.val (i.val / 2) (i.val % 2)) = some keys[i].toNat) ∧
        t.zne = s.zne ∧ t.mem = s.mem) ∧
    ((s.hears e = false ∨ Tab.find (s.ep e).sessions h.toNat ≠ some true) → exec (.ideKmKeyProgram p eid h k n keys) s = .next s)) ∧
  (∀ (p : Port) (en : Bool) (n : Fin 128) (s : State), s.portUsed p.val = true → (s.port p.val).perst = false →
    ((s.port p.val).vfen = false → ∃ t, exec (.vfEnableWrite p en n) s = .next t ∧ (t.port p.val).vfen = en ∧
      (t.port p.val).numVfs = n.val ∧ t.csr = s.csr ∧ t.zne = s.zne) ∧
    ((s.port p.val).vfen = true → exec (.vfEnableWrite p true n) s = .next s) ∧
    ((s.port p.val).vfen = true → ∃ t, exec (.vfEnableWrite p false n) s = .next t ∧ (t.port p.val).vfen = false)) ∧
  (∀ (p : Port) (v : W32) (s : State), s.flag (F.HIF_DIAGCTL_LOCK p.val) = false → ∃ t, exec (.diagctlWrite p v) s = .next t ∧
    t.flag (F.HIF_DIAGCTL_ALLOW p.val) = v.getLsbD 0 ∧ t.flag (F.HIF_DIAGCTL_LOCK p.val) = v.getLsbD 1 ∧
    (v.getLsbD 0 = false → t.flag (F.HIF_DIAGCTL_OPEN p.val) = false) ∧ t.zne = s.zne ∧ t.mem = s.mem) ∧
  (∀ (p : Port) (v : W32) (s : State), s.flag (F.HIF_DIAGCTL_LOCK p.val) = true → exec (.diagctlWrite p v) s = .next s))

/-- Where its controller serves its admin queue and the tenancy exists, Create I/O SQ and CQ record the queue they name, empty, in the next state and complete with success, and refuse an identifier that is 0, beyond the limit or in use; Delete I/O SQ removes a queue with no live command and waits for one that has some, Delete I/O CQ removes one that no submission queue uses and refuses another; Abort ends an outstanding asynchronous event request, and a read that has not started, and of any other command reports that it was not aborted; a seventeenth asynchronous event request is refused, one that finds an event waiting reports it, and any other waits (R275 to R277). Commands whose answer it states, as exec = next under conditions on operands and state alone: createIoSq, createIoCq, deleteIoSq, deleteIoCq, abort, asyncEventRequest. -/
def Obligations.admin_queues : Prop :=
  (∀ (fn : FnId) (e : Sqe) (s : State), s.adminGo fn anyCtl → e.qid ≠ 0 → e.qid ≤ (s.queueLimit fn.val).1 →
    Tab.find (s.func fn.val).sqs e.qid = none → 2 ≤ e.qsize → e.qsize ≤ 4096 → bit e.cdw11.toNat 0 = true →
    bits e.cdw11.toNat 16 16 ≠ 0 → (Tab.find (s.func fn.val).cqs (bits e.cdw11.toNat 16 16)).isSome = true →
    ∃ t, exec (.createIoSq fn e) s = .next t ∧ t.hif.cpls = s.hif.cpls ++ [adminCpl fn e .success] ∧
      Tab.find (t.func fn.val).sqs e.qid = some ⟨bits e.cdw11.toNat 16 16, e.qsize, (s.func fn.val).classOf (bits e.cdw11.toNat 1 2),
        (s.func fn.val).orderReq.contains e.qid, 0, 0, 0⟩ ∧
      (∀ k, k ≠ e.qid → Tab.find (t.func fn.val).sqs k = Tab.find (s.func fn.val).sqs k) ∧ t.csr = s.csr ∧ t.mem = s.mem) ∧
  (∀ (fn : FnId) (e : Sqe) (s : State), s.adminGo fn anyCtl → e.qid ≠ 0 → e.qid ≤ (s.queueLimit fn.val).2 →
    Tab.find (s.func fn.val).cqs e.qid = none → 2 ≤ e.qsize → e.qsize ≤ 4096 → bit e.cdw11.toNat 0 = true →
    (bit e.cdw11.toNat 1 = false ∨ bits e.cdw11.toNat 16 16 < 65) →
    exec (.createIoCq fn e) s = .next ((s.modFunc fn.val fun f => { f with
      cqs := Tab.set f.cqs e.qid ⟨e.qsize, bits e.cdw11.toNat 16 16, 0, 0, 0⟩ }).adminDone fn.val e .success)) ∧
  (∀ (fn : FnId) (e : Sqe) (s : State), s.adminGo fn anyCtl →
    ((e.qid = 0 ∨ (s.queueLimit fn.val).1 < e.qid ∨ (Tab.find (s.func fn.val).sqs e.qid).isSome = true) →
      exec (.createIoSq fn e) s = .next (s.adminDone fn.val e .invalidQueueId)) ∧
    ((e.qid = 0 ∨ (s.queueLimit fn.val).2 < e.qid ∨ (Tab.find (s.func fn.val).cqs e.qid).isSome = true) →
      exec (.createIoCq fn e) s = .next (s.adminDone fn.val e .invalidQueueId))) ∧
  (∀ (fn : FnId) (e : Sqe) (q : Sq) (s : State), s.adminGo fn anyCtl → e.qid ≠ 0 → Tab.find (s.func fn.val).sqs e.qid = some q →
    (q.live = 0 → ∃ t, exec (.deleteIoSq fn e) s = .next t ∧ t.hif.cpls = s.hif.cpls ++ [adminCpl fn e .success] ∧
      (t.func fn.val).sqs = Tab.erase (s.func fn.val).sqs e.qid ∧ (fn.val, e.qid) ∉ t.hif.peeks ∧ t.csr = s.csr ∧
      t.zne = s.zne) ∧
    (q.live ≠ 0 → exec (.deleteIoSq fn e) s = .next s)) ∧
  (∀ (fn : FnId) (e : Sqe) (q : Cq) (s : State), s.adminGo fn anyCtl → e.qid ≠ 0 → Tab.find (s.func fn.val).cqs e.qid = some q →
    ((∀ x, x ∈ (s.func fn.val).sqs → x.1 ≠ 0 → x.2.cq ≠ e.qid) → exec (.deleteIoCq fn e) s =
      .next ((s.modFunc fn.val fun f => { f with cqs := Tab.erase f.cqs e.qid }).adminDone fn.val e .success)) ∧
    ((∃ x, x ∈ (s.func fn.val).sqs ∧ x.1 ≠ 0 ∧ x.2.cq = e.qid) →
      exec (.deleteIoCq fn e) s = .next (s.adminDone fn.val e .invalidQueueDeletion))) ∧
  (∀ (fn : FnId) (e : Sqe) (s : State), s.adminGo fn anyCtl → bits e.cdw10.toNat 0 16 = 0 →
    bits e.cdw10.toNat 16 16 ∈ (s.func fn.val).aers → ∃ t, exec (.abort fn e) s = .next t ∧
      t.hif.cpls = s.hif.cpls ++ [⟨fn.val, 0, bits e.cdw10.toNat 16 16, .abortRequested, 0, 0, [], []⟩, adminCpl fn e .success] ∧
      (t.func fn.val).aers = (s.func fn.val).aers.erase (bits e.cdw10.toNat 16 16)) ∧
  (∀ (fn : FnId) (e : Sqe) (s : State), s.adminGo fn anyCtl →
    ¬(bits e.cdw10.toNat 0 16 = 0 ∧ bits e.cdw10.toNat 16 16 ∈ (s.func fn.val).aers) →
    let cmd := s.hif.slots.find? fun t => t.2.fn == fn.val && t.2.qid == bits e.cdw10.toNat 0 16 &&
      t.2.sqe.cid.toNat == bits e.cdw10.toNat 16 16 && !t.2.silent
    (cmd = none → exec (.abort fn e) s = .next (s.adminDone fn.val e .success 1)) ∧
    (∀ i x, cmd = some (i, x) → (x.reads = false ∨ s.unstarted i x = false) →
      exec (.abort fn e) s = .next (s.adminDone fn.val e .success 1)) ∧
    (∀ i x, cmd = some (i, x) → x.reads = true → s.unstarted i x = true → exec (.abort fn e) s =
      .next ((((s.cancelReads i).complete i .abortRequested).wakeConv).adminDone fn.val e .success))) ∧
  (∀ (fn : FnId) (e : Sqe) (s : State), s.adminGo fn anyCtl →
    (16 ≤ (s.func fn.val).aers.length → exec (.asyncEventRequest fn e) s = .next (s.adminDone fn.val e .aerLimitExceeded)) ∧
    ((s.func fn.val).aers.length < 16 → (s.func fn.val).events = [] → exec (.asyncEventRequest fn e) s =
      .next (s.modFunc fn.val fun f => { f with aers := f.aers ++ [e.cid.toNat] })) ∧
    (∀ d ds, (s.func fn.val).aers.length < 16 → (s.func fn.val).events = d :: ds → ∃ t, exec (.asyncEventRequest fn e) s = .next t ∧
      t.hif.cpls = s.hif.cpls ++ [adminCpl fn e .success d] ∧ (t.func fn.val).events = ds))

/-- A command that needs the owner is refused to a virtual function and one that needs the master to a member's controllers, with Invalid Command Opcode; one that needs a tenancy is refused to a function whose tenancy does not exist, with Command Sequence Error; Identify, Get Log Page and Get Features are executed for such a function too; a controller that is not ready executes nothing (R260, R271, R275, R387). Commands whose answer it states, as exec = next under conditions on operands and state alone: createIoSq, getLogPage, identify, abort, setFeatures, getFeatures, namespaceManagement, namespaceAttachment, formatNvm, sanitize, setQuotas, governorRead, resourceClaim, diagWindowOpen. -/
def Obligations.admin_denials : Prop :=
  (∀ (fn : FnId) (e : Sqe) (s : State), s.recovery = false → s.adminRuns fn.val = true → isPf fn.val = false →
    exec (.resourceClaim fn e) s = .next (s.adminDone fn.val e .invalidOpcode) ∧
    exec (.formatNvm fn e) s = .next (s.adminDone fn.val e .invalidOpcode) ∧
    exec (.namespaceManagement fn e) s = .next (s.adminDone fn.val e .invalidOpcode) ∧
    exec (.diagWindowOpen fn e) s = .next (s.adminDone fn.val e .invalidOpcode)) ∧
  (∀ (fn : FnId) (e : Sqe) (s : State), s.recovery = false → s.adminRuns fn.val = true → s.isMember = true →
    exec (.sanitize fn e) s = .next (s.adminDone fn.val e .invalidOpcode) ∧
    exec (.namespaceAttachment fn e) s = .next (s.adminDone fn.val e .invalidOpcode) ∧
    exec (.setQuotas fn e) s = .next (s.adminDone fn.val e .invalidOpcode)) ∧
  (∀ (fn : FnId) (e : Sqe) (s : State), s.recovery = false → s.adminRuns fn.val = true → s.tenExists (s.fnTen fn.val) = false →
    exec (.createIoSq fn e) s = .next (s.adminDone fn.val e .commandSequenceError) ∧
    exec (.setFeatures fn e) s = .next (s.adminDone fn.val e .commandSequenceError) ∧
    exec (.governorRead fn e) s = .next (s.adminDone fn.val e .commandSequenceError) ∧
    exec (.identify fn e) s = .next (s.identify fn.val e) ∧ exec (.getLogPage fn e) s = .next (s.getLogPage fn.val e) ∧
    exec (.getFeatures fn e) s = .next (s.getFeatures fn.val e)) ∧
  (∀ (fn : FnId) (e : Sqe) (s : State), s.recovery = false → (s.func fn.val).ctl ≠ .ready →
    exec (.createIoSq fn e) s = .next s ∧ exec (.identify fn e) s = .next s ∧ exec (.sanitize fn e) s = .next s ∧
    exec (.abort fn e) s = .next s ∧ exec (.resourceClaim fn e) s = .next s)

/-- Set Features of a feature that its controller keeps records the value, whatever save is asked for fails as not saveable, and Get Features then returns what was set; an offset of a log page that is no multiple of 4 and an unknown page are refused; Return Parameters shows Data Placement enabled where it is (R190, R275 to R278). Commands whose answer it states, as exec = next under conditions on operands and state alone: getLogPage, identify, setFeatures, getFeatures, directiveSend, directiveReceive. -/
def Obligations.features_and_logs : Prop :=
  (∀ (fn : FnId) (e : Sqe) (s : State), s.adminGo fn anyCtl → bit e.cdw10.toNat 31 = true →
    exec (.setFeatures fn e) s = .next (s.adminDone fn.val e .featureNotSaveable)) ∧
  (∀ (fn : FnId) (e : Sqe) (s : State), s.adminGo fn anyCtl → bit e.cdw10.toNat 31 = false →
    bits e.cdw10.toNat 0 8 ∈ ctlFeatures → bits e.cdw10.toNat 0 8 ≠ 0x09 →
    ∃ t, exec (.setFeatures fn e) s = .next t ∧ t.hif.cpls = s.hif.cpls ++ [adminCpl fn e .success] ∧
      Tab.find (t.func fn.val).feats (featKey (bits e.cdw10.toNat 0 8) e.cdw11.toNat) =
        some (e.featValue (bits e.cdw10.toNat 0 8)) ∧ t.csr = s.csr ∧ t.mem = s.mem ∧ t.zne = s.zne) ∧
  (∀ (fn : FnId) (e : Sqe) (s : State), s.adminGo fn ⟨false, false, false⟩ →
    bits e.cdw10.toNat 8 3 ≠ 2 → bits e.cdw10.toNat 8 3 ≤ 2 → bits e.cdw10.toNat 0 8 ∈ ctlFeatures →
    bits e.cdw10.toNat 0 8 ≠ 0x09 → bits e.cdw10.toNat 0 8 ≠ 0x16 → bits e.cdw10.toNat 0 8 ≠ 0x07 →
    exec (.getFeatures fn e) s = .next (s.giveFeature fn.val e
      (Tab.getD (s.func fn.val).feats (featKey (bits e.cdw10.toNat 0 8) e.cdw11.toNat)
        (featDefault (bits e.cdw10.toNat 0 8) e.cdw11.toNat))
      (featDefault (bits e.cdw10.toNat 0 8) e.cdw11.toNat))) ∧
  (∀ (fn : FnId) (e : Sqe) (s : State), s.adminGo fn ⟨false, false, false⟩ → bits e.cdw10.toNat 8 3 = 2 →
    exec (.getFeatures fn e) s = .next (s.adminDone fn.val e .featureNotSaveable)) ∧
  (∀ (fn : FnId) (e : Sqe) (s : State), s.adminGo fn ⟨false, false, false⟩ →
    (e.logOff % 4 ≠ 0 → exec (.getLogPage fn e) s = .next (s.adminDone fn.val e .invalidField)) ∧
    (e.logOff % 4 = 0 → e.lid = 0 → exec (.getLogPage fn e) s = .next (s.givePage fn.val e (supportedLogs fn.val))) ∧
    (e.logOff % 4 = 0 → e.lid = 0x03 → exec (.getLogPage fn e) s = .next (s.givePage fn.val e s.slotLog)) ∧
    (e.logOff % 4 = 0 → e.lid = 0x81 → exec (.getLogPage fn e) s = .next (s.givePage fn.val e s.sanitizeLog)) ∧
    (e.logOff % 4 = 0 → e.lid = 0xC6 → isPf fn.val = false →
      exec (.getLogPage fn e) s = .next (s.adminDone fn.val e .invalidLogPage)) ∧
    exec (.identify fn e) s = .next (s.identify fn.val e)) ∧
  (∀ (fn : FnId) (e : Sqe) (x : Ns) (s : State), s.adminGo fn anyCtl → s.directiveNs fn.val e = some x →
    (bits e.cdw11.toNat 8 8 = 0 → bits e.cdw11.toNat 0 8 = 1 →
      exec (.directiveReceive fn e) s = .next (s.adminData fn.val e
        (pageOf 4096 [(0, 1, 5), (32, 1, if x.conv ∧ (s.rset x.set).fdp = true then 5 else 1),
          (64, 1, if x.conv ∧ (s.rset x.set).fdp = true then 5 else 1)]) 0 ((e.cdw10.toNat + 1) * 4))) ∧
    (bits e.cdw11.toNat 8 8 = 0 → bits e.cdw11.toNat 0 8 = 1 → bits e.cdw12.toNat 8 8 = 2 →
      bits e.cdw12.toNat 0 1 = b2n (s.rset x.set).fdp → exec (.directiveSend fn e) s = .next (s.adminDone fn.val e .success)) ∧
    (bits e.cdw11.toNat 8 8 ≠ 0 → exec (.directiveSend fn e) s = .next (s.adminDone fn.val e .invalidField) ∧
      exec (.directiveReceive fn e) s = .next (s.adminDone fn.val e .invalidField))) ∧
  (∀ (fn : FnId) (e : Sqe) (s : State), s.adminGo fn anyCtl → s.directiveNs fn.val e = none →
    exec (.directiveSend fn e) s = .next (s.adminDone fn.val e .invalidNamespace) ∧
    exec (.directiveReceive fn e) s = .next (s.adminDone fn.val e .invalidNamespace))

/-- Set Quotas of a tenancy writes AQ, OQ, TSQ, URGEN, WBQ, the rank sets and the key slots of its descriptor together and completes with success; where AQ and OQ break the zone quotas, TSQ the slot credits, or RSETS omits a rank set that holds one of the tenancy's namespaces, it completes with Invalid Field in Command and writes none of them. (Its refusal of a key-slot share is of R298; its WBQ limit is the register's.) Commands whose answer it states, as exec = next under conditions on operands and state alone: setQuotas. -/
def Obligations.quotas_whole_or_not : Prop :=
  (∀ (fn : FnId) (e : Sqe) (s : State), s.adminGo fn masterCtl → s.tenExists (e.withAct 2).ten = true →
    let d := tenDesc (e.withAct 2)
    let n := (e.withAct 2).ten
    ((s.quotaBad n d.aq d.oq = true ∨ s.tsqBad n d.tsq = true ∨ s.ksqBad n d.ksq = true ∨ s.rsetsBad n d.rsets = true ∨
        524288 < d.wbq) →
      ∃ t, exec (.setQuotas fn e) s = .next t ∧ t.hif.cpls = s.hif.cpls ++ [adminCpl fn e .invalidField] ∧
        (∀ k, k < 128 → t.fld (F.ZNE_TZQ_AQ k) = s.fld (F.ZNE_TZQ_AQ k) ∧ t.fld (F.ZNE_TZQ_OQ k) = s.fld (F.ZNE_TZQ_OQ k) ∧
          t.fld (F.HIF_TCRED_TSQ k) = s.fld (F.HIF_TCRED_TSQ k) ∧ t.fld (F.HIF_TWBQ_WBQ k) = s.fld (F.HIF_TWBQ_WBQ k)) ∧
        t.hif.tens = s.hif.tens) ∧
    (s.quotaBad n d.aq d.oq = false → s.tsqBad n d.tsq = false → s.ksqBad n d.ksq = false → s.rsetsBad n d.rsets = false →
      d.wbq ≤ 524288 → s.isMaster = false → ∃ t, exec (.setQuotas fn e) s = .next t ∧
        t.hif.cpls = s.hif.cpls ++ [adminCpl fn e .success] ∧ t.fld (F.ZNE_TZQ_AQ n) = d.aq ∧ t.fld (F.ZNE_TZQ_OQ n) = d.oq ∧
        t.fld (F.HIF_TCRED_TSQ n) = d.tsq ∧ t.fld (F.HIF_TCRED_URGEN n) = d.urgen ∧
        t.fld (F.HIF_TWBQ_WBQ n) = d.wbq ∧ Tab.find t.hif.tens n = some ⟨d.rsets, d.ksq⟩ ∧
        (∀ k, k < 128 → k ≠ n → t.fld (F.ZNE_TZQ_AQ k) = s.fld (F.ZNE_TZQ_AQ k))))

/-- Create refuses a tenancy that exists and else applies the descriptor; Delete refuses tenancy 0, one that does not exist and one that has namespaces, and else deletes it; Read Descriptor returns the quotas in force; a VF of this node that may be mapped takes the tenancy, and another is refused; rank sets that break the rules of partitioning, over a rebuild or over a namespace are refused, and else recorded where they change; Form Geometry begins the formation (R289 to R291, R47, R52). Commands whose answer it states, as exec = next under conditions on operands and state alone: tenancyCreate, tenancyDelete, mapVf, setRankSets, formGeometry, readDescriptor. -/
def Obligations.tenancies : Prop :=
  (∀ (fn : FnId) (e : Sqe) (s : State), s.adminGo fn masterCtl →
    let n := (e.withAct 0).ten
    (s.tenExists n = true → exec (.tenancyCreate fn e) s = .next (s.adminDone fn.val e .invalidField)) ∧
    (s.tenExists n = false → exec (.tenancyCreate fn e) s = .next (s.applyDesc fn.val (e.withAct 0) n))) ∧
  (∀ (fn : FnId) (e : Sqe) (s : State), s.adminGo fn masterCtl →
    let n := (e.withAct 1).ten
    ((n = 0 ∨ s.tenExists n = false) → exec (.tenancyDelete fn e) s = .next (s.adminDone fn.val e .invalidField)) ∧
    (n ≠ 0 → s.tenExists n = true → (∃ x, x ∈ s.hif.nss ∧ x.2.ten = n) →
      exec (.tenancyDelete fn e) s = .next (s.adminDone fn.val e .commandSequenceError)) ∧
    (n ≠ 0 → s.tenExists n = true → (∀ x, x ∈ s.hif.nss → x.2.ten ≠ n) → exec (.tenancyDelete fn e) s =
      .next (((s.toMembers (e.withAct 1)).dropTenancy n).adminDone fn.val e .success))) ∧
  (∀ (fn : FnId) (e : Sqe) (s : State), s.adminGo fn masterCtl → s.tenExists (e.withAct 6).ten = true →
    ∃ d : List Byte, exec (.readDescriptor fn e) s = .next (s.adminData fn.val e d 0 32) ∧
      ofLe (d.take 2) = s.fld (F.ZNE_TZQ_AQ (e.withAct 6).ten) ∧ ofLe ((d.drop 2).take 2) = s.fld (F.ZNE_TZQ_OQ (e.withAct 6).ten) ∧
      ofLe ((d.drop 4).take 4) = s.fld (F.HIF_TCRED_TSQ (e.withAct 6).ten) ∧
      ofLe ((d.drop 8).take 4) = s.fld (F.HIF_TWBQ_WBQ (e.withAct 6).ten)) ∧
  (∀ (fn : FnId) (e : Sqe) (s : State), s.adminGo fn masterCtl → bits (e.withAct 3).cdw11.toNat 8 2 = s.ownNode →
    s.nodeDenies s.ownNode = none →
    let p := bits (e.withAct 3).cdw11.toNat 0 1
    let f := bits (e.withAct 3).cdw11.toNat 1 7
    (s.mapBad p f (e.withAct 3).ten = true → exec (.mapVf fn e) s = .next (s.adminDone fn.val e .invalidField)) ∧
    (s.mapBad p f (e.withAct 3).ten = false → ∃ t, exec (.mapVf fn e) s = .next t ∧
      t.fld (F.HIF_FNMAP_TEN p f) = (e.withAct 3).ten ∧ t.hif.cpls = s.hif.cpls ++ [adminCpl fn e .success] ∧ t.mem = s.mem)) ∧
  (∀ (fn : FnId) (e : Sqe) (s : State), s.adminGo fn masterCtl →
    (s.geomOk (e.withAct 4) = false → exec (.setRankSets fn e) s = .next (s.adminDone fn.val e .invalidField)) ∧
    (s.geomOk (e.withAct 4) = true → s.rebuilding (s.geomChanges (e.withAct 4)).contains = true →
      exec (.setRankSets fn e) s = .next (s.adminDone fn.val e .rebuildInProgress)) ∧
    (s.geomOk (e.withAct 4) = true → s.rebuilding (s.geomChanges (e.withAct 4)).contains = false →
      (∃ x, x ∈ s.hif.nss ∧ x.2.node = s.ownNode ∧ x.2.set ∈ s.geomChanges (e.withAct 4)) →
      exec (.setRankSets fn e) s = .next (s.adminDone fn.val e .geometryOffline)) ∧
    (s.geomOk (e.withAct 4) = true → s.rebuilding (s.geomChanges (e.withAct 4)).contains = false → s.isMaster = false →
      (∀ x, x ∈ s.hif.nss → x.2.node = s.ownNode → x.2.set ∉ s.geomChanges (e.withAct 4)) →
      ∃ t, exec (.setRankSets fn e) s = .next t ∧ t.hif.cpls = s.hif.cpls ++ [adminCpl fn e .success] ∧
        (∀ n, n ∈ s.geomChanges (e.withAct 4) → Tab.find t.hif.partition n = some ((e.withAct 4).geomEntry n)) ∧
        (∀ n, n ∉ s.geomChanges (e.withAct 4) → Tab.find t.hif.partition n = Tab.find s.hif.partition n)) ∧
    exec (.formGeometry fn e) s = .next (({ s.toMembers (e.withAct 5) with hif := { (s.toMembers (e.withAct 5)).hif with
      forming := true
      formBy := some (fn.val, e.cid.toNat) } } : State).formStep))

/-- Governor Read returns the sixteen words of a slot, to a tenancy's own controller only its own; Governor Write is refused whole to any but the owner, and where a slot that is not OPEN would have its LPE_HOLD word changed, and else, of an OPEN slot, writes the words of its mask; Recorder Freeze, by the owner, holds the recorder until its holder unfreezes it, and any other caller is refused; Recorder Read returns the caller's view; Clear View moves only the caller's cursor, and never back (R291, R292, R404 to R406). Commands whose answer it states, as exec = next under conditions on operands and state alone: governorRead, governorWrite, recorderFreeze, recorderUnfreeze, recorderRead, recorderClearView. -/
def Obligations.governor_and_recorder_commands : Prop :=
  (∀ (fn : FnId) (e : Sqe) (s : State), s.adminGo fn anyCtl →
    let k := bits e.cdw10.toNat 0 8
    ((145 < k ∨ (isPf fn.val = false ∧ k ≠ s.fnTen fn.val)) →
      exec (.governorRead fn e) s = .next (s.adminDone fn.val e .invalidField)) ∧
    (k ≤ 145 → (isPf fn.val = true ∨ k = s.fnTen fn.val) →
      exec (.governorRead fn e) s = .next (s.adminData fn.val e ((List.range 16).flatMap fun w =>
        leBytes 4 (s.word (R.LPE_SCTL k + w * 4)).toNat) 0 64)) ∧
    ((145 < k ∨ isPf fn.val = false) → exec (.governorWrite fn e) s = .next (s.adminDone fn.val e .invalidField)) ∧
    (k ≤ 145 → isPf fn.val = true → s.lpeState k = 0 → exec (.governorWrite fn e) s =
      .next ((((List.range 16).filter fun w => bit e.cdw11.toNat w).foldl (fun s w => s.lpeWrite k (w * 4) (e.field (w * 4) 4)) s).adminDone
        fn.val e .success)) ∧
    (k ≤ 145 → isPf fn.val = true → s.lpeState k ≠ 0 → bit e.cdw11.toNat 9 = true →
      e.field 36 4 % 2 ^ 19 ≠ (s.word (R.LPE_SCTL k + 36)).toNat →
      exec (.governorWrite fn e) s = .next (s.adminDone fn.val e .loopClosed))) ∧
  (∀ (fn : FnId) (e : Sqe) (s : State), s.adminGo fn anyCtl → isPf fn.val = false →
    exec (.recorderFreeze fn e) s = .next (s.adminDone fn.val e .invalidField) ∧
    exec (.recorderUnfreeze fn e) s = .next (s.adminDone fn.val e .invalidField)) ∧
  (∀ (fn : FnId) (e : Sqe) (s : State), s.adminGo fn anyCtl → isPf fn.val = true →
    let u := (s.recorderAccess fn.val).2.2
    (u.evr.freeze = none → ∃ t, exec (.recorderFreeze fn e) s = .next t ∧ t.evr.freeze = some ⟨fn.val, u.now⟩ ∧
      t.flag F.MGT_EVSTAT_FROZEN = true) ∧
    (∀ f, u.evr.freeze = some f → f.holder ≠ fn.val →
      exec (.recorderFreeze fn e) s = .next (u.adminDone fn.val e .recorderFrozen) ∧
      exec (.recorderUnfreeze fn e) s = .next (u.adminDone fn.val e .recorderFrozen)) ∧
    (∀ f, u.evr.freeze = some f → f.holder = fn.val →
      exec (.recorderFreeze fn e) s = .next (u.adminDone fn.val e .success) ∧
      exec (.recorderUnfreeze fn e) s = .next ((u.endFreeze 1).adminDone fn.val e .success))) ∧
  (∀ (fn : FnId) (e : Sqe) (s : State), s.adminGo fn anyCtl →
    let k := (s.recorderAccess fn.val).1
    let u := (s.recorderAccess fn.val).2.2
    let d := u.recorderLog fn.val k (s.recorderAccess fn.val).2.1
      ((u.viewFrom fn.val (Tab.getD u.evr.cursors k ⟨0, 0, 0⟩).pos).take e.cdw11.toNat)
    exec (.recorderRead fn e) s = .next (u.adminData fn.val e d 0 d.length) ∧
    (∀ c, Tab.find u.evr.cursors k = some c → ∃ t, exec (.recorderClearView fn e) s = .next t ∧
      Tab.find t.evr.cursors k = some { c with
        pos := max c.pos (min (e.cdw12.toNat + e.cdw13.toNat * 2 ^ 32) (u.fld F.MGT_EVNEXT_COUNT)) } ∧
      ∀ j, j ≠ k → Tab.find t.evr.cursors j = Tab.find u.evr.cursors j))

/-- A free, unreserved resource is claimed with the identifier given and released by it, one that another holds is refused, from the host and from a core alike; the diagnostic window opens on the island named where ALLOW is 1, with event 0x0604 while MGT has power, is else refused, and closes; a link test that nothing forbids begins with its lanes and its duration, Status and Stop report it, and it ends at its duration; a lane under test that loses lock is marked so (R263, R264, R293, R294, R410, R417, R418). Commands whose answer it states, as exec = next under conditions on operands and state alone: resourceClaim, resourceRelease, diagWindowOpen, diagWindowClose, linkTestStart, linkTestStop, linkTestStatus, linkTestDurationExpiry, claimWrite, claimRelease, patternCheckerLostLock. -/
def Obligations.claims_and_windows : Prop :=
  (∀ (fn : FnId) (e : Sqe) (k : ResKind) (i : Nat) (s : State), s.adminGo fn ownerCtl → claimTarget e = some (k, i) →
    (e.cdw11.toNat ≠ 0 → s.fld (F.MGT_CLAIM_ID (k.elem i)) = 0 → s.flag (F.MGT_CLAIM_SAFE (k.elem i)) = false →
      ∃ t, exec (.resourceClaim fn e) s = .next t ∧ t.fld (F.MGT_CLAIM_ID (k.elem i)) = e.cdw11.toNat % 2 ^ (F.MGT_CLAIM_ID (k.elem i)).w ∧
        t.hif.cpls = s.hif.cpls ++ [adminCpl fn e .success] ∧ t.mem = s.mem) ∧
    (e.cdw11.toNat ≠ 0 → s.fld (F.MGT_CLAIM_ID (k.elem i)) ≠ 0 →
      exec (.resourceClaim fn e) s = .next (s.adminDone fn.val e .alreadyClaimed)) ∧
    (e.cdw11.toNat ≠ 0 → s.fld (F.MGT_CLAIM_ID (k.elem i)) = e.cdw11.toNat →
      ∃ t, exec (.resourceRelease fn e) s = .next t ∧ t.fld (F.MGT_CLAIM_ID (k.elem i)) = 0 ∧
        t.hif.cpls = s.hif.cpls ++ [adminCpl fn e .success]) ∧
    (s.fld (F.MGT_CLAIM_ID (k.elem i)) ≠ e.cdw11.toNat →
      exec (.resourceRelease fn e) s = .next (s.adminDone fn.val e .invalidField))) ∧
  (∀ (k : ResKind) (i : BitVec 8) (id : W32) (s : State), i.toNat < k.count →
    (id.toNat ≠ 0 → s.fld (F.MGT_CLAIM_ID (k.elem i.toNat)) = 0 → s.flag (F.MGT_CLAIM_SAFE (k.elem i.toNat)) = false →
      exec (.claimWrite k i id) s = .next (s.setFld (F.MGT_CLAIM_ID (k.elem i.toNat)) id.toNat)) ∧
    (id.toNat ≠ 0 → s.fld (F.MGT_CLAIM_ID (k.elem i.toNat)) = id.toNat →
      exec (.claimRelease k i id) s = .next (s.setFld (F.MGT_CLAIM_ID (k.elem i.toNat)) 0)) ∧
    ((id.toNat = 0 ∨ s.fld (F.MGT_CLAIM_ID (k.elem i.toNat)) ≠ id.toNat) →
      exec (.claimRelease k i id) s = .next (s.claimRefused k i.toNat id.toNat))) ∧
  (∀ (k : ResKind) (i : BitVec 8) (id : W32) (s : State), k.count ≤ i.toNat →
    exec (.claimWrite k i id) s = .next s ∧ exec (.claimRelease k i id) s = .next s) ∧
  (∀ (fn : FnId) (e : Sqe) (s : State), s.adminGo fn ownerCtl →
    let i := bits (e.withAct 0).cdw10.toNat 8 8
    (s.flag (F.HIF_DIAGCTL_ALLOW (fn.val / 128)) = true → i < 176 → ∃ t, exec (.diagWindowOpen fn e) s = .next t ∧
      (s.gated 2 = false → ∃ x, x.id = 0x0604 ∧ t.evr.transit = s.evr.transit ++ [x]) ∧
      t.flag (F.HIF_DIAGCTL_OPEN (fn.val / 128)) = true ∧ t.fld (F.HIF_DIAGCTL_ISEL (fn.val / 128)) = i ∧
      t.hif.cpls = s.hif.cpls ++ [adminCpl fn e .success]) ∧
    ((s.flag (F.HIF_DIAGCTL_ALLOW (fn.val / 128)) = false ∨ 176 ≤ i) →
      exec (.diagWindowOpen fn e) s = .next (s.adminDone fn.val e .invalidField)) ∧
    (∃ t, exec (.diagWindowClose fn e) s = .next t ∧ t.flag (F.HIF_DIAGCTL_OPEN (fn.val / 128)) = false ∧
      t.hif.cpls = s.hif.cpls ++ [adminCpl fn e .success])) ∧
  (∀ (fn : FnId) (e : Sqe) (lanes : List LaneIn) (s : State), s.adminGo fn ownerCtl →
    exec (.linkTestStop fn e lanes) s = .next ((s.testEnd lanes).adminData fn.val e (s.testEnd lanes).testReport 0 272) ∧
    (s.mgt.test.st ≠ .running → exec (.linkTestStatus fn e lanes) s = .next (s.adminData fn.val e s.testReport 0 272)) ∧
    (s.mgt.test.st = .running →
      exec (.linkTestStatus fn e lanes) s = .next ((s.testLanesIn lanes).adminData fn.val e (s.testLanesIn lanes).testReport 0 272)) ∧
    ((bits (e.withAct 2).cdw11.toNat 16 16 = 0 ∨ modeAllowed (bits (e.withAct 2).cdw11.toNat 0 4) (bits (e.withAct 2).cdw12.toNat 2 2) = false) →
      exec (.linkTestStart fn e) s = .next (s.adminDone fn.val e .invalidField))) ∧
  (∀ (fn : FnId) (e : Sqe) (s : State), s.adminGo fn ownerCtl →
    let c := (e.withAct 2).cdw11.toNat
    let d := (e.withAct 2).cdw12.toNat
    s.linkExists (bits c 0 4) (bits c 4 8) (bits d 4 4) = true → modeAllowed (bits c 0 4) (bits d 2 2) = true →
    bits c 16 16 ≠ 0 → bits c 16 16 < 2 ^ s.testLanes (bits c 0 4) → bits d 16 16 ≠ 0 → s.mgt.test.st ≠ .running →
    4 ≤ bits c 0 4 → ∃ t, exec (.linkTestStart fn e) s = .next t ∧ t.mgt.test.st = .running ∧ t.mgt.test.begun = true ∧
      t.mgt.test.link = bits c 0 4 ∧ t.mgt.test.lanes = bits c 16 16 ∧ t.mgt.test.duration = bits d 16 16 ∧
      t.mgt.test.start = s.now ∧ t.hif.cpls = s.hif.cpls ++ [adminCpl fn e .success]) ∧
  (∀ (lanes : List LaneIn) (s : State), s.mgt.test.st = .running → s.mgt.test.begun = true → s.mgt.test.duration ≠ 0 →
    (s.mgt.test.start + s.mgt.test.duration * 1000000 ≤ s.now → exec (.linkTestDurationExpiry lanes) s = .next (s.testEnd lanes)) ∧
    (s.now < s.mgt.test.start + s.mgt.test.duration * 1000000 → exec (.linkTestDurationExpiry lanes) s = .next s)) ∧
  (∀ (l : Fin 16) (x : Lane) (s : State), s.mgt.test.st = .running → s.mgt.test.begun = true → bit s.mgt.test.lanes l.val = true →
    Tab.find s.mgt.test.lane l.val = some x → ∃ t, exec (.patternCheckerLostLock l) s = .next t ∧
      Tab.find t.mgt.test.lane l.val = some { x with locked := false, lost := true } ∧ t.zne = s.zne ∧ t.mem = s.mem)

/-- On the node that holds it a creation that nothing refuses makes the namespace with the lowest free identifier and one that is refused ends with the reason; deletion of a namespace in use waits and of another is done; an attachment that nothing refuses records its controllers; Format of a format the device has starts a cryptographic erase, and Sanitize one of everything; an image part is stored at its offset, a commit of an action above 3 or of a slot that may not be named is refused, one of action 2 of a valid slot finishes, and while an activation is under way every commit is refused; the drain ends after 500 ms, and the switch waits for every command; a function of the caller's port is set online; the geometry of a node that is no master is reported (R275 to R277, R285, R287, R288, R299, R300, R311). Commands whose answer it states, as exec = next under conditions on operands and state alone: namespaceManagement, namespaceAttachment, firmwareImageDownload, firmwareCommit, activationDrainTimeout, activationSwitch, virtualizationManagement, formatNvm, sanitize, geometryReport. -/
def Obligations.namespaces_and_firmware : Prop :=
  (∀ (fn : FnId) (e : Sqe) (a : NsAsk) (k : Nat) (s : State), s.adminGo fn masterCtl → bits e.cdw10.toNat 0 4 = 0 →
    nsAsk e = some a → s.freeNsid = some k → s.nodeDenies a.node = none → a.node = s.ownNode →
    (∀ st, s.nsRefused a = some st → exec (.namespaceManagement fn e) s = .next (s.adminDone fn.val e st)) ∧
    (s.nsRefused a = none → s.flag F.SEC_TRNGSTAT_KEYBLK = false → exec (.namespaceManagement fn e) s =
      .next ((s.makeNs k a).adminDone fn.val e .success k))) ∧
  (∀ (fn : FnId) (e : Sqe) (s : State), s.adminGo fn masterCtl → e.nsid.toNat ≠ 0xFFFFFFFF → s.nsOfId e.nsid.toNat = none →
    bits e.cdw10.toNat 0 4 = 1 → exec (.namespaceManagement fn e) s = .next (s.adminDone fn.val e .invalidNamespace)) ∧
  (∀ (fn : FnId) (e : Sqe) (n : Nat) (x : Ns) (s : State), s.adminGo fn masterCtl → bits e.cdw10.toNat 0 4 = 1 →
    e.nsid.toNat ≠ 0xFFFFFFFF → s.nsOfId e.nsid.toNat = some n → s.nsAt n = some x → x.node = s.ownNode →
    (s.nsBusy n = true → exec (.namespaceManagement fn e) s = .next s) ∧
    (s.nsBusy n = false → exec (.namespaceManagement fn e) s = .next ((s.dropAll [n]).adminDone fn.val e .success))) ∧
  (∀ (fn : FnId) (e : Sqe) (n : Nat) (x : Ns) (ids : List Nat) (s : State), s.adminGo fn masterCtl →
    s.nsOfId e.nsid.toNat = some n → s.nsAt n = some x → e.ctlIds = some ids → (∀ i, i ∈ ids → s.ctlExists i = true) →
    s.nodeDenies x.node = none → x.node = s.ownNode →
    (bits e.cdw10.toNat 0 4 = 0 → s.attachRefused x ids = none → exec (.namespaceAttachment fn e) s =
      .next ((s.putAttach n x (ids.map s.ctlEntry) true).adminDone fn.val e .success)) ∧
    (bits e.cdw10.toNat 0 4 = 1 → (∀ i, i ∈ ids → s.ctlEntry i ∉ x.fns) → ids ≠ [] →
      exec (.namespaceAttachment fn e) s = .next (s.adminDone fn.val e .nsNotAttached))) ∧
  (∀ (fn : FnId) (e : Sqe) (s : State), s.adminGo fn masterCtl →
    (lbaFormat (bits e.cdw10.toNat 0 4) = none → exec (.formatNvm fn e) s = .next (s.adminDone fn.val e .invalidFormat)) ∧
    (∀ m n x, lbaFormat (bits e.cdw10.toNat 0 4) = some m → bits e.cdw10.toNat 5 3 = 0 → bits e.cdw10.toNat 12 2 = 0 →
      e.nsid.toNat ≠ 0xFFFFFFFF → s.nsOfId e.nsid.toNat = some n → s.nsAt n = some x → s.pathDenies x = none →
      x.node = s.ownNode → exec (.formatNvm fn e) s = .next (s.askErase ⟨.ns n, fn.val, e.cid.toNat, some m, false⟩)) ∧
    (bits e.cdw10.toNat 0 3 = 1 → exec (.sanitize fn e) s = .next (s.adminDone fn.val e .success)) ∧
    (bits e.cdw10.toNat 0 3 = 4 → s.rebuilding (fun _ => true) = false → exec (.sanitize fn e) s =
      .next ((s.toMembers e).askErase ⟨.all false, fn.val, e.cid.toNat, none, false⟩)) ∧
    (bits e.cdw10.toNat 0 3 ∉ [1, 2, 4] → exec (.sanitize fn e) s = .next (s.adminDone fn.val e .invalidField))) ∧
  (∀ (fn : FnId) (e : Sqe) (s : State), s.adminGo fn masterCtl →
    let n := (e.cdw10.toNat + 1) * 4
    (8388608 < e.cdw11.toNat * 4 + n → exec (.firmwareImageDownload fn e) s = .next (s.adminDone fn.val e .invalidField)) ∧
    (e.cdw11.toNat * 4 + n ≤ 8388608 → s.adminBufs 0 n = true → ∃ t, exec (.firmwareImageDownload fn e) s = .next t ∧
      t.boot.image = ((takePad n e.data).zip (List.range n)).foldl (fun m x => Memory.write m (e.cdw11.toNat * 4 + x.2) x.1) s.boot.image ∧
      t.hif.cpls = s.hif.cpls ++ [adminCpl fn e .success] ∧ t.mem = s.mem ∧ t.csr = s.csr)) ∧
  (∀ (fn : FnId) (e : Sqe) (bad : Bool) (s : State), s.adminGo fn masterCtl → s.hif.activation = none →
    (3 < bits e.cdw10.toNat 3 3 → exec (.firmwareCommit fn e bad) s = .next (s.adminDone fn.val e .invalidField)) ∧
    (bits e.cdw10.toNat 3 3 ≤ 3 → s.commitSlot (bits e.cdw10.toNat 0 3) (bits e.cdw10.toNat 3 3) = none →
      exec (.firmwareCommit fn e bad) s = .next (s.adminDone fn.val e .invalidFirmwareSlot)) ∧
    (∀ k, bits e.cdw10.toNat 3 3 = 2 → s.commitSlot (bits e.cdw10.toNat 0 3) 2 = some k → s.slotCode k bad = 0 →
      s.commitNodes = [] → exec (.firmwareCommit fn e bad) s = .next (s.finishCommit fn.val e k 2))) ∧
  (∀ (fn : FnId) (e : Sqe) (bad : Bool) (s : State), s.hif.activation.isSome = true → (s.func fn.val).ctl = .ready →
    isPf fn.val = true → exec (.firmwareCommit fn e bad) s = .next (s.adminDone fn.val e .fwProhibited)) ∧
  (∀ (a : Activation) (s : State), s.hif.activation = some a →
    (s.hif.slots ≠ [] → s.now < a.since + 500000000 → exec .activationDrainTimeout s = .next s) ∧
    (s.hif.slots ≠ [] → exec .activationSwitch s = .next s) ∧
    (s.hif.slots = [] → s.bundleEntry a.slot s.zne.profile.name = none → exec .activationSwitch s = .next (s.activate a)) ∧
    (∀ d, s.hif.slots = [] → s.bundleEntry a.slot s.zne.profile.name = some d → s.entryPver d = s.fld (F.CH_UCVER_PVER 0) →
      exec .activationSwitch s = .next (s.activate a)) ∧
    (s.hif.slots ≠ [] → a.since + 500000000 ≤ s.now → ∃ t, exec .activationDrainTimeout s = .next t ∧ t.hif.activation = none ∧
      (a.fn < 256 → s.recovery = false →
        t.hif.cpls = s.hif.cpls ++ [⟨a.fn, 0, a.cid, .fwNeedsMaxTimeViolation, 0, 0, [], []⟩]))) ∧
  (∀ (fn : FnId) (e : Sqe) (s : State), s.adminGo fn masterCtl →
    let c := bits e.cdw10.toNat 16 16
    (bits e.cdw10.toNat 0 4 ∉ [7, 9] → exec (.virtualizationManagement fn e) s = .next (s.adminDone fn.val e .invalidField)) ∧
    (bits e.cdw10.toNat 0 4 = 9 → c ≠ 0 → (c - 1) / 256 = s.ownNode → isPf ((c - 1) % 256) = false →
      (c - 1) % 256 / 128 = fn.val / 128 → s.fnEnabled ((c - 1) % 256) = true → exec (.virtualizationManagement fn e) s =
        .next ((s.modFunc ((c - 1) % 256) fun f => { f with fetchOff := false }).adminDone fn.val e .success))) ∧
  (∀ (fn : FnId) (e : Sqe) (s : State), s.adminGo fn anyCtl → s.isMaster = false →
    exec (.geometryReport fn e) s = .next (s.adminData fn.val e (s.geometryReport (s.fnTen fn.val)) 0 1152))

/-- CC.EN makes a disabled controller whose function exists and whose link is up enabling, and ready once the part has started and the Husk is replayed, with its admin queues of the sizes given, and does nothing to another; a controller reset of a controller that is not disabled and a function level reset reset their function; a subsystem reset resets the functions of both ports and takes their links down to train again, and, where it was asked of this node, is passed on over the Vukoro links that are up; a shutdown is noted and completes at once where nothing of the function is under way and another controller stays up (R284 to R286). Commands whose answer it states, as exec = next under conditions on operands and state alone: controllerReset, controllerEnable, functionLevelReset, nvmSubsystemReset, shutdownNotification. -/
def Obligations.controllers : Prop :=
  (∀ (fn : FnId) (wrr : Bool) (a c : BitVec 12) (s : State), (s.func fn.val).ctl = .disabled → (s.func fn.val).fetchOff = false →
    s.fnEnabled fn.val = true → s.flag (F.HIF_PORTSTAT_LINKUP (fn.val / 128)) = true →
    ∃ t, exec (.controllerEnable fn wrr a c) s = .next t ∧
      (t.func fn.val).ctl = (if s.boot.started && s.zne.husk.replayed then .ready else .enabling) ∧ (t.func fn.val).shst = 0 ∧
      (t.func fn.val).sqs = [(0, ⟨0, a.toNat + 1, .medium, false, 0, 0, 0⟩)] ∧
      (t.func fn.val).cqs = [(0, ⟨c.toNat + 1, 0, 0, 0, 0⟩)] ∧ t.mram.isSealed = false ∧ t.csr = s.csr ∧ t.mem = s.mem ∧
      ∀ f, f ≠ fn.val → t.func f = s.func f) ∧
  (∀ (fn : FnId) (wrr : Bool) (a c : BitVec 12) (s : State), ((s.func fn.val).ctl ≠ .disabled ∨
    s.flag (F.HIF_PORTSTAT_LINKUP (fn.val / 128)) = false) → exec (.controllerEnable fn wrr a c) s = .next s) ∧
  (∀ (fn : FnId) (s : State), ((s.func fn.val).ctl ≠ .disabled → exec (.controllerReset fn) s = .next (s.resetFunction fn.val false)) ∧
    ((s.func fn.val).ctl = .disabled → exec (.controllerReset fn) s = .next s) ∧
    exec (.functionLevelReset fn) s = .next (s.resetFunction fn.val false)) ∧
  (∀ (s : State), exec (.nvmSubsystemReset false) s = .next ([0, 1].foldl (fun (s : State) p =>
    if s.flag (F.HIF_PORTSTAT_LINKUP p) then (s.linkDown p).startTraining p else s) ((s.resetPortFns 0 true).resetPortFns 1 true)) ∧
    ∀ t, exec (.nvmSubsystemReset false) s = .next t → exec (.nvmSubsystemReset true) s = .next ([0, 1].foldl (fun (s : State) v =>
      if s.flag (F.VUK_LINKSTAT_UP v) then s.sendVuk v .reset 0 0 else s) t)) ∧
  (∀ (fn : FnId) (s : State), (s.func fn.val).ctl = .ready → (s.func fn.val).shst = 0 →
    let u := s.modFunc fn.val fun f => { f with shst := 1 }
    (s.busyFn fn.val = true → exec (.shutdownNotification fn) s = .next u) ∧
    (s.busyFn fn.val = false → u.othersUp fn.val = true → ∃ t, exec (.shutdownNotification fn) s = .next t ∧
      (t.func fn.val).shst = 2 ∧ t.csr = s.csr ∧ t.zne = s.zne)) ∧
  (∀ (fn : FnId) (s : State), (s.func fn.val).ctl ≠ .ready → exec (.shutdownNotification fn) s = .next s)

/-- Over a binding that is up a requester negotiates version, capabilities and algorithms in that order, an earlier request of another kind being answered with an Unexpected Request error; after that digests, certificates of the two slots, challenges and measurements, by their index, of all or their count, are answered, and those of a slot or an index that does not exist are refused; sessions open with KEY_EXCHANGE over PCIe only, complete with FINISH and end with END_SESSION; a first request for an SLH-DSA signature starts it, and its end marks it done; NVMe-MI answers its data structures and the health poll over every binding that is up, and through the tunnel (R276, R328 to R332). Commands whose answer it states, as exec = next under conditions on operands and state alone: nvmeMiSend, nvmeMiReceive, getVersion, getCapabilities, negotiateAlgorithms, getDigests, getCertificate, challenge, getMeasurements, keyExchange, finish, slhDsaSignatureRequest, slhDsaSignDone, readNvmeMiDataStructure, subsystemHealthStatusPoll, endSession. -/
def Obligations.attestation : Prop :=
  (∀ (e : EpId) (s : State), s.hears e = true →
    (∃ t, exec (.getVersion e) s = .next t ∧ (t.ep e).stage = 1 ∧ (t.ep e).sessions = [] ∧
      t.boot.msgs = s.boot.msgs ++ [⟨epKey e, SpdmRsp.version.code, 0, 0, leBytes 1 1 ++ leBytes 2 0x1200⟩]) ∧
    ((s.ep e).stage = 0 → exec (.getCapabilities e) s = .next (s.spdmUnexpected e)) ∧
    ((s.ep e).stage ≠ 0 → ∃ t, exec (.getCapabilities e) s = .next t ∧ (t.ep e).stage = 2 ∧
      t.boot.msgs.length = s.boot.msgs.length + 1) ∧
    (∀ a h, (s.ep e).stage < 2 → exec (.negotiateAlgorithms e a h) s = .next (s.spdmUnexpected e)) ∧
    (∀ a h, 2 ≤ (s.ep e).stage → a.getLsbD 3 = true → h.getLsbD 1 = true → ∃ t, exec (.negotiateAlgorithms e a h) s = .next t ∧
      (t.ep e).stage = 3) ∧
    (∀ a h, 2 ≤ (s.ep e).stage → (a.getLsbD 3 = false ∨ h.getLsbD 1 = false) →
      exec (.negotiateAlgorithms e a h) s = .next (s.spdmInvalid e)) ∧
    ((s.ep e).stage < 3 → exec (.getDigests e) s = .next (s.spdmUnexpected e) ∧
      (∀ h, exec (.keyExchange e h) s = .next (s.spdmUnexpected e)) ∧
      (∀ i g h, exec (.getMeasurements e i g h) s = .next (s.spdmUnexpected e)))) ∧
  (∀ (e : EpId) (s : State), s.hears e = false → exec (.getVersion e) s = .next s ∧ exec (.getDigests e) s = .next s) ∧
  (∀ (e : EpId) (s : State), s.spdmGo e →
    exec (.getDigests e) s = .next (s.spdm e .digests 0 3 (leBytes 48 (sha384 (Config.certChain 0)).toNat ++
      leBytes 48 (sha384 (Config.certChain 1)).toNat)) ∧
    (∀ (k : Fin 8) (off len : BitVec 16), k.val < 2 → off.toNat < (Config.certChain k.val).length →
      let n := min len.toNat (min 4600 ((Config.certChain k.val).length - off.toNat))
      exec (.getCertificate e k off len) s = .next (s.spdm e .certificate k.val ((Config.certChain k.val).length - off.toNat - n)
        (((Config.certChain k.val).drop off.toNat).take n))) ∧
    (∀ (k : Fin 8) (off len : BitVec 16), 2 ≤ k.val → exec (.getCertificate e k off len) s = .next (s.spdmInvalid e)) ∧
    (∀ h, exec (.challenge e 0 h) s = .next ((s.startSlh e h.toNat).spdm e .challengeAuth 0 1
      (leBytes 48 (sha384 (Config.certChain 0)).toNat ++ takePad 384 (Config.signature 0 h.toNat)))) ∧
    (∀ h, exec (.getMeasurements e 0 false h) s = .next (s.spdm e .measurements s.boot.meas.length 0
      ((s.boot.meas.filter fun m => m.1 == 0).map fun m => measBlock m.1 m.2).flatten)) ∧
    (∀ (i : BitVec 8) h m, m ∈ s.boot.meas → m.1 = i.toNat → i.toNat ≠ 0 → i.toNat ≠ 0xFF → ∃ t, exec (.getMeasurements e i false h) s = .next t ∧
      t.boot.msgs.length = s.boot.msgs.length + 1) ∧
    (∀ (i : BitVec 8) h, i.toNat ≠ 0 → (∀ m, m ∈ s.boot.meas → m.1 ≠ i.toNat) → i.toNat ≠ 0xFF →
      exec (.getMeasurements e i false h) s = .next (s.spdmInvalid e)) ∧
    (∀ h, s.boot.meas ≠ [] → exec (.getMeasurements e 0xFF false h) s = .next (s.spdm e .measurements s.boot.meas.length 0
      (s.boot.meas.map fun m => measBlock m.1 m.2).flatten)) ∧
    (∀ h, e.1.val < 2 → ∃ t, exec (.keyExchange e h) s = .next t ∧
      Tab.find (t.ep e).sessions s.boot.nextSession = some false ∧ t.boot.nextSession = s.boot.nextSession + 1) ∧
    (∀ h, 2 ≤ e.1.val → exec (.keyExchange e h) s = .next (s.spdmUnsupported e)) ∧
    (∀ k : W32, Tab.find (s.ep e).sessions k.toNat = some false → ∃ t, exec (.finish e k) s = .next t ∧
      Tab.find (t.ep e).sessions k.toNat = some true) ∧
    (∀ k : W32, Tab.find (s.ep e).sessions k.toNat ≠ some false → exec (.finish e k) s = .next (s.spdmUnexpected e)) ∧
    (∀ k : W32, (Tab.find (s.ep e).sessions k.toNat).isSome = true → ∃ t, exec (.endSession e k) s = .next t ∧
      (t.ep e).sessions = Tab.erase (s.ep e).sessions k.toNat ∧ t.boot.msgs.length = s.boot.msgs.length + 1) ∧
    (∀ (op : BitVec 16) (off len : W32) h, op.toNat = 1 → 0 < len.toNat → len.toNat ≤ 4096 → off.toNat < slhBytes →
      (s.ep e).sigs = [] → exec (.slhDsaSignatureRequest e op off len h) s = .next (s.spdm e .vendor 2 0
        (leBytes 2 0x8001 ++ leBytes 2 2 ++ leBytes 4 slhBytes ++ leBytes 4 off.toNat ++ leBytes 4 0 ++ leBytes 48 h.toNat)))) ∧
  (∀ (e : EpId) (x : SlhSig) (xs : List SlhSig) (s : State), (s.ep e).sigs = xs ++ [x] → x.done = false →
    ∃ t, exec (.slhDsaSignDone e) s = .next t ∧ { x with done := true } ∈ (t.ep e).sigs ∧ t.mem = s.mem ∧ t.csr = s.csr) ∧
  (∀ (b : Fin 4) (ty port : BitVec 8) (ctl : BitVec 16) (s : State), s.bindingUp b.val = true →
    (∀ d, s.miStructure ty.toNat port.toNat ctl.toNat = some d →
      exec (.readNvmeMiDataStructure b ty port ctl) s = .next (s.mctp b.val 0 d.length d)) ∧
    (s.miStructure ty.toNat port.toNat ctl.toNat = none →
      exec (.readNvmeMiDataStructure b ty port ctl) s = .next (s.mctp b.val miInvalid 0 [])) ∧
    exec (.subsystemHealthStatusPoll b) s = .next (s.mctp b.val 0 8 s.miHealth)) ∧
  (∀ (fn : FnId) (e : Sqe) (s : State), s.adminGo fn ownerCtl →
    exec (.nvmeMiSend fn e) s = .next (s.adminDone fn.val e .success miOpcode) ∧
    (bits e.cdw11.toNat 0 8 = 1 → exec (.nvmeMiReceive fn e) s = .next (s.adminDone fn.val e .success 0 s.miHealth)))

/-- A read of KWE_LOCK by a core while HELD is 0 gives that core the engine and returns the new value, and a read while HELD is 1 returns the value and changes nothing; a write of the owner's number releases it, with a running operation abandoned, and any other write is ignored with event 0x0706; a command of the holder makes the engine busy with that operation, one of another core is ignored with event 0x0706 and one while it is busy only writes the fields of KWE_CMD (assumption 34); ZERO empties its slot; a namespace's key register takes a whole value whose owner checks pass; a failed entropy test blocks the key DRBG until a restart test passes; a creation that has waited 1 s for entropy fails with Internal Error (R302 to R305, R307, R308, R312). Commands whose answer it states, as exec = next under conditions on operands and state alone: kweLockRead, kweLockWrite, kweGen, kweWrap, kweUnwrap, kweZero, kweSeal, kweUnseal, kweOperationDone, xtsNskWrite, entropyTestFail, entropyRestartTestPass, entropyWaitTimeout. -/
def Obligations.key_engine : Prop :=
  (∀ (c : CoreId) (s : State), s.flag F.KWE_LOCK_HELD = false → ∃ t, exec (.kweLockRead c) s = .next t ∧
    t.flag F.KWE_LOCK_HELD = true ∧ t.fld F.KWE_LOCK_OWNER = c.val ∧ Tab.find t.resp c.val = some (t.word R.KWE_LOCK) ∧
    t.sec = s.sec ∧ t.mem = s.mem) ∧
  (∀ (c : CoreId) (s : State), s.flag F.KWE_LOCK_HELD = true →
    exec (.kweLockRead c) s = .next (s.answer (.core c) (s.word R.KWE_LOCK))) ∧
  (∀ (c : CoreId) (v : W32) (s : State), s.flag F.KWE_LOCK_HELD = true → v.toNat % 32 = s.fld F.KWE_LOCK_OWNER →
    (s.sec.op = none → exec (.kweLockWrite c v) s = .next (s.setFld F.KWE_LOCK_HELD 0)) ∧
    (∀ o, s.sec.op = some o → ∃ t, exec (.kweLockWrite c v) s = .next t ∧ t.flag F.KWE_LOCK_HELD = false ∧ t.sec.op = none ∧
      t.fld F.KWE_STAT_RES = 5 ∧ t.flag F.KWE_STAT_BUSY = false ∧ t.mem = s.mem)) ∧
  (∀ (c : CoreId) (v : W32) (s : State), (s.flag F.KWE_LOCK_HELD = false ∨ v.toNat % 32 ≠ s.fld F.KWE_LOCK_OWNER) →
    exec (.kweLockWrite c v) s = .next (s.kweRefused (.core c) 0x100)) ∧
  (∀ (c : CoreId) (k w : BitVec 12) (s : State), (s.flag F.KWE_LOCK_HELD = false ∨ s.fld F.KWE_LOCK_OWNER ≠ c.val) →
    exec (.kweGen c k w) s = .next (s.kweRefused (.core c) 0x108) ∧ exec (.kweWrap c k w) s = .next (s.kweRefused (.core c) 0x108) ∧
    exec (.kweUnwrap c k w) s = .next (s.kweRefused (.core c) 0x108) ∧ exec (.kweZero c k w) s = .next (s.kweRefused (.core c) 0x108) ∧
    exec (.kweSeal c k w) s = .next (s.kweRefused (.core c) 0x108) ∧
    exec (.kweUnseal c k w) s = .next (s.kweRefused (.core c) 0x108)) ∧
  (∀ (c : CoreId) (k w : BitVec 12) (s : State), s.flag F.KWE_LOCK_HELD = true → s.fld F.KWE_LOCK_OWNER = c.val →
    (s.flag F.KWE_STAT_BUSY = true → ∀ i n, (i, n) ∈ [(Instr.kweGen c k w, 1), (.kweWrap c k w, 2), (.kweUnwrap c k w, 3),
        (.kweZero c k w, 4), (.kweSeal c k w, 5), (.kweUnseal c k w, 6)] →
      exec i s = .next (s.setWord R.KWE_CMD (BitVec.ofNat 64 (n + k.toNat * 2 ^ 4 + w.toNat * 2 ^ 16)))) ∧
    (s.flag F.KWE_STAT_BUSY = false → ∀ i n, (i, n) ∈ [(Instr.kweGen c k w, 1), (.kweWrap c k w, 2), (.kweUnwrap c k w, 3),
        (.kweZero c k w, 4), (.kweSeal c k w, 5), (.kweUnseal c k w, 6)] →
      ∃ t o, exec i s = .next t ∧ t.sec.op = some o ∧ o.op = n ∧ o.slot = k.toNat ∧ o.kek = w.toNat ∧
        o.addr = (s.word R.KWE_ADDR).toNat ∧ o.len = s.fld F.KWE_LEN_LEN ∧ t.flag F.KWE_STAT_BUSY = true ∧
        t.sec.keys = s.sec.keys ∧ t.mem = s.mem)) ∧
  (∀ (o : KweOp) (s : State), s.sec.op = some o → o.slot < 4096 →
    (o.op = 1 → exec .kweOperationDone s = .next (s.kweGen o)) ∧ (o.op = 2 → exec .kweOperationDone s = .next (s.kweWrap o)) ∧
    (o.op = 3 → exec .kweOperationDone s = .next (s.kweUnwrap o)) ∧ (o.op = 5 → exec .kweOperationDone s = .next (s.kweSeal o)) ∧
    (o.op = 6 → exec .kweOperationDone s = .next (s.kweUnseal o)) ∧
    (o.op = 4 → ∃ t, exec .kweOperationDone s = .next t ∧ t.word (R.SEC_KSATTR o.slot) = (s.setWord (R.SEC_KSATTR o.slot) 0).word (R.SEC_KSATTR o.slot) ∧
      t.sec.keys = Tab.erase s.sec.keys o.slot ∧ o.slot ∉ t.sec.cache ∧ t.fld F.KWE_STAT_RES = 0 ∧ t.flag F.KWE_STAT_DONE = true ∧
      t.flag F.KWE_STAT_BUSY = false ∧ t.sec.op = none ∧ t.mem = s.mem)) ∧
  (∀ (o : KweOp) (s : State), s.sec.op = some o → s.slotFull o.slot = true →
    (o.op = 1 → s.huskLost = false → exec .kweOperationDone s = .next (s.kweEnd 3)) ∧
    (o.op = 1 ∨ o.op = 2 → s.huskLost = true → exec .kweOperationDone s = .next (s.kweEnd 4)) ∧ (o.op = 3 → exec .kweOperationDone s = .next (s.kweEnd 3))) ∧
  (∀ (n : Fin 1024) (v : W64) (s : State), v.getLsbD 20 = false → v.getLsbD 52 = false →
    exec (.xtsNskWrite n v) s = .next (s.setWord (R.XTS_NSK n.val) (BitVec.ofNat 64 (bits v.toNat 0 28 + bits v.toNat 32 21 * 2 ^ 32)))) ∧
  (∀ (n : Fin 1024) (v : W64) (s : State),
    (v.getLsbD 20 = true → s.ownerCheck (bits v.toNat 0 12) (bits v.toNat 21 7) n.val (bits v.toNat 12 8) = true) →
    (v.getLsbD 52 = true → s.ownerCheck (bits v.toNat 32 12) (bits v.toNat 21 7) n.val (bits v.toNat 44 8) = true) →
    exec (.xtsNskWrite n v) s = .next (s.setWord (R.XTS_NSK n.val) (BitVec.ofNat 64 (bits v.toNat 0 28 + bits v.toNat 32 21 * 2 ^ 32)))) ∧
  (∀ (n : Fin 1024) (v : W64) (s : State), v.getLsbD 20 = true →
    s.ownerCheck (bits v.toNat 0 12) (bits v.toNat 21 7) n.val (bits v.toNat 12 8) = false →
    exec (.xtsNskWrite n v) s =
      .next (s.post 0x05 0x0705 [(12, bits v.toNat 0 12), (7, bits v.toNat 21 7), (10, n.val)] (bits v.toNat 21 7))) ∧
  (∀ (a : Bool) (n : W32) (s : State), ∃ t, exec (.entropyTestFail a n) s = .next t ∧ t.flag F.SEC_TRNGSTAT_HEALTHY = false ∧
    t.flag F.SEC_TRNGSTAT_KEYBLK = true ∧ t.flag (if a then F.SEC_TRNGSTAT_APTFAIL else F.SEC_TRNGSTAT_RCTFAIL) = true ∧
    t.sec = s.sec ∧ t.mem = s.mem) ∧
  (∀ (s : State), s.flag F.SEC_TRNGSTAT_KEYBLK = false → exec .entropyRestartTestPass s = .next (s.setFld F.SEC_TRNGSTAT_HEALTHY 1)) ∧
  (∀ (s : State), s.flag F.SEC_TRNGSTAT_KEYBLK = true → exec .entropyRestartTestPass s =
    .next ((s.setFld F.SEC_TRNGSTAT_HEALTHY 1).setFld F.SEC_TRNGSTAT_KEYBLK 0).serveEntropy) ∧
  (∀ (s : State), (∀ w, w ∈ s.hif.nmWait → s.now < w.since + 1000000000) → exec .entropyWaitTimeout s = .next s) ∧
  (∀ (s : State), ∃ t, exec .entropyWaitTimeout s = .next t ∧ t.sec = s.sec ∧ t.csr = s.csr ∧
    t = (s.hif.nmWait.filter fun w => decide (w.since + 1000000000 ≤ s.now)).foldl (fun s w => s.adminDone w.fn w.sqe .internalError)
      { s with hif := { s.hif with nmWait := s.hif.nmWait.filter fun w => !decide (w.since + 1000000000 ≤ s.now) } }) ∧
  (∀ (c : CoreId) (k w : BitVec 12) (s : State), s.flag F.KWE_LOCK_HELD = true → s.fld F.KWE_LOCK_OWNER = c.val →
    s.flag F.KWE_STAT_BUSY = false →
    (∃ t, exec (.kweGen c k w) s = .next t ∧ t.sec.op.map (·.op) = some 1) ∧
    (∃ t, exec (.kweWrap c k w) s = .next t ∧ t.sec.op.map (·.op) = some 2) ∧
    (∃ t, exec (.kweUnwrap c k w) s = .next t ∧ t.sec.op.map (·.op) = some 3) ∧
    (∃ t, exec (.kweZero c k w) s = .next t ∧ t.sec.op.map (·.op) = some 4) ∧
    (∃ t, exec (.kweSeal c k w) s = .next t ∧ t.sec.op.map (·.op) = some 5) ∧
    (∃ t, exec (.kweUnseal c k w) s = .next t ∧ t.sec.op.map (·.op) = some 6))

/-- A DMA command on a channel that is neither busy nor halted records the channel's source, destination and length and sets BUSY, and on another only writes OP; the end of a run of one line leaves the source's bytes, or the fill's doubleword, at the destination and nothing else, and a run stops at a line outside DRAM and a copy at a guarded table; the patrol scrub corrects what it can, with the count of its subchannel, and posts event 0x0802 for what it cannot; DMC_CFG is locked only with a part that exists; a merge line is written back 1 µs after its last write (R335, R341 to R343, R439). Commands whose answer it states, as exec = next under conditions on operands and state alone: dmcCfgLock, dmaCopy, dmaFill, dmaCheck, dmaDone, dramPatrolScrub, mergeWritebackTimeout. -/
def Obligations.dram_and_dma : Prop :=
  (∀ (d : Fin 2) (c : Fin 4) (s : State), s.flag (F.DMC_DMACTL_BUSY d.val c.val) = false →
    s.flag (F.DMC_DMACTL_HALT d.val c.val) = false →
    ∀ i n, (i, n) ∈ [(Instr.dmaCopy d c, 0), (.dmaFill d c, 1), (.dmaCheck d c, 2)] → ∃ t, exec i s = .next t ∧
      t.flag (F.DMC_DMACTL_BUSY d.val c.val) = true ∧ t.fld (F.DMC_DMACTL_OP d.val c.val) = n ∧
      Tab.find t.dram.dma (d.val * 4 + c.val) = some ⟨n, (s.word (R.DMC_DMASRC d.val c.val)).toNat,
        (s.word (R.DMC_DMADST d.val c.val)).toNat, (s.word (R.DMC_DMALEN d.val c.val)).toNat⟩ ∧ t.mem = s.mem) ∧
  (∀ (d : Fin 2) (c : Fin 4) (s : State), (s.flag (F.DMC_DMACTL_BUSY d.val c.val) = true ∨ s.flag (F.DMC_DMACTL_HALT d.val c.val) = true) →
    exec (.dmaCopy d c) s = .next (s.setFld (F.DMC_DMACTL_OP d.val c.val) 0) ∧
    exec (.dmaFill d c) s = .next (s.setFld (F.DMC_DMACTL_OP d.val c.val) 1) ∧
    exec (.dmaCheck d c) s = .next (s.setFld (F.DMC_DMACTL_OP d.val c.val) 2)) ∧
  (∀ (d : Fin 2) (c : Fin 4) (s : State), s.flag (F.DMC_DMACTL_BUSY d.val c.val) = false →
    s.flag (F.DMC_DMACTL_HALT d.val c.val) = false →
    (∃ t, exec (.dmaFill d c) s = .next t ∧ t.flag (F.DMC_DMACTL_BUSY d.val c.val) = true ∧ t.mem = s.mem) ∧
    (∃ t, exec (.dmaCheck d c) s = .next t ∧ t.flag (F.DMC_DMACTL_BUSY d.val c.val) = true ∧ t.mem = s.mem)) ∧
  (∀ (d : Fin 2) (c : Fin 4) (bad : List (BitVec 40)) (r : DmaRun) (s : State), Tab.find s.dram.dma (d.val * 4 + c.val) = some r →
    (r.len < 64 → exec (.dmaDone d c bad) s = .next (s.dmaEnd d.val c.val 0 0)) ∧
    (64 ≤ r.len → r.op ≠ 1 → s.region r.src ≠ .dram → exec (.dmaDone d c bad) s = .next (s.dmaEnd d.val c.val 2 r.src)) ∧
    (64 ≤ r.len → r.op = 1 → s.region r.dst ≠ .dram → exec (.dmaDone d c bad) s = .next (s.dmaEnd d.val c.val 2 r.dst)) ∧
    (64 ≤ r.len → r.op = 0 → s.region r.src = .dram → s.region r.dst = .dram → s.blocked r.src = false → s.blocked r.dst = false →
      bad = [] → s.poisoned r.src 64 = false → s.guarded r.dst = true → exec (.dmaDone d c bad) s = .next (s.dmaEnd d.val c.val 3 r.dst))) ∧
  (∀ (d : Fin 2) (c : Fin 4) (r : DmaRun) (s : State), Tab.find s.dram.dma (d.val * 4 + c.val) = some r → s.Inv → r.op = 0 →
    64 ≤ r.len → r.len < 128 → s.region r.src = .dram → s.region r.dst = .dram → s.blocked r.src = false → s.blocked r.dst = false →
    s.poisoned r.src 64 = false → s.guarded r.src = false → s.guarded r.dst = false →
    ∃ t, exec (.dmaDone d c []) s = .next t ∧
      (∀ x, r.dst ≤ x → x < r.dst + 64 → Memory.read t.mem x = Memory.read s.mem (r.src + (x - r.dst))) ∧
      (∀ x, x < r.dst ∨ r.dst + 64 ≤ x → Memory.read t.mem x = Memory.read s.mem x) ∧ t.zne = s.zne ∧ t.hif = s.hif) ∧
  (∀ (d : Fin 2) (c : Fin 4) (r : DmaRun) (s : State), Tab.find s.dram.dma (d.val * 4 + c.val) = some r → s.Inv → r.op = 1 →
    64 ≤ r.len → r.len < 128 → s.region r.dst = .dram → s.blocked r.dst = false →
    ∃ t, exec (.dmaDone d c []) s = .next t ∧
      (∀ k, k < 64 → Memory.read t.mem (r.dst + k) = BitVec.ofNat 8 (r.src / 2 ^ (8 * (k % 8)))) ∧
      (∀ x, x < r.dst ∨ r.dst + 64 ≤ x → Memory.read t.mem x = Memory.read s.mem x) ∧ t.zne = s.zne ∧ t.hif = s.hif) ∧
  (∀ (a : BitVec 40) (rank : Fin 2) (dev : Fin 10) (n : Fin 5) (dirty : Bool) (s : State),
    s.region (a.toNat / 64 * 64) = .dram → s.fld F.AON_PSSTAT_CUR < 2 → s.blocked (a.toNat / 64 * 64) = false →
    s.poisoned (a.toNat / 64 * 64) 64 = false →
    (n = 0 → exec (.dramPatrolScrub a rank dev n false dirty) s = .next s) ∧
    (n ≠ 0 → exec (.dramPatrolScrub a rank dev n false dirty) s = .next (s.dramCorrect (a.toNat / 64 * 64)
      (if s.flag (F.DMC_CFG_RANKS (s.subchan (a.toNat / 64 * 64) % 2)) then rank.val else 0) dev.val n.val)) ∧
    (s.inTable (a.toNat / 64 * 64) = false → exec (.dramPatrolScrub a rank dev n true dirty) s =
      .next ((s.dramUe (a.toNat / 64 * 64) (0x0A + s.subchan (a.toNat / 64 * 64) % 2)).clearCounts (a.toNat / 64 * 64)))) ∧
  (∀ (d : Fin 2) (v : BitVec 4) (s : State), s.flag (F.DMC_CFG_LOCK d.val) = false → cfgPart d.val v.toNat = true →
    s.flag (F.DMC_CFG_LOCK (1 - d.val)) = false → ∃ t, exec (.dmcCfgLock d v) s = .next t ∧
      t.flag (F.DMC_CFG_LOCK d.val) = true ∧ t.mem = s.mem ∧ t.zne = s.zne) ∧
  (∀ (d : Fin 2) (v : BitVec 4) (s : State), (s.flag (F.DMC_CFG_LOCK d.val) = true ∨ cfgPart d.val v.toNat = false) →
    exec (.dmcCfgLock d v) s = .next s) ∧
  (∀ (d : Fin 2) (l : BitVec 40) (ms : List MergeLine) (s : State), Tab.find s.dram.merge d.val = some ms →
    ∃ t, exec (.mergeWritebackTimeout d l) s = .next t ∧
      Tab.find t.dram.merge d.val = some (ms.filter fun m => !(m.addr == l.toNat && decide (m.last + 1000 ≤ s.now))) ∧
      t.mem = s.mem ∧ t.csr = s.csr)

/-- A power-state request latches its mode and, with no transition running, starts toward it where it differs, a mode that a unit refuses being refused with event 0x0902; a transition ends in its target, but toward DEEP not before dirty data and die operations have gone; a wake ends DOZE, and from DEEP first checks what retention kept; the voltage moves at most 5 mV, within 650 to 850 mV, 100 µs after the last; up is always open with AVS on, and down in ACTIVE and COAST with no short margin; with AVS off it only moves toward VFIX; the power cap shows in ZNE_PWRSTAT; a thermal trip and a power loss start the power-loss sequence, whose end leaves the islands held (R356 to R360, R363, R369, R371, R372, R375, R377). Commands whose answer it states, as exec = next under conditions on operands and state alone: pstateRequest, modeTransitionDone, wakeEvent, wakeTimerExpiry, avsStep, pwrcapAssert, pwrcapRelease, thermalTrip, powerLoss, powerLossSequenceEnd, hucfgWrite. -/
def Obligations.power_modes : Prop :=
  (∀ (m : Fin 4) (s : State), s.flag F.AON_PSSTAT_BUSY = false → m.val = s.fld F.AON_PSSTAT_CUR →
    exec (.pstateRequest m) s = .next (s.setFld F.AON_PSTATE_REQ_MODE m.val)) ∧
  (∀ (m : Fin 4) (s : State), s.flag F.AON_PSSTAT_BUSY = true → s.fld F.AON_PSTATE_REQ_MODE = s.fld F.AON_PSSTAT_TGT →
    exec (.pstateRequest m) s = .next (s.setFld F.AON_PSTATE_REQ_MODE m.val)) ∧
  (∀ (m : Fin 4) (s : State), s.flag F.AON_PSSTAT_BUSY = true → s.fld F.AON_PSTATE_REQ_MODE ≠ s.fld F.AON_PSSTAT_TGT →
    exec (.pstateRequest m) s = .next ((s.bump F.AON_PS_COLLAPSED_COUNT).setFld F.AON_PSTATE_REQ_MODE m.val)) ∧
  (∀ (m : Fin 4) (s : State), s.flag F.AON_PSSTAT_BUSY = false → m.val < 2 → m.val ≠ s.fld F.AON_PSSTAT_CUR →
    s.fld F.AON_PSSTAT_CUR < 2 → ∃ t, exec (.pstateRequest m) s = .next t ∧ t.flag F.AON_PSSTAT_BUSY = true ∧
      t.fld F.AON_PSSTAT_TGT = m.val ∧ t.fld F.AON_PSSTAT_CUR = s.fld F.AON_PSSTAT_CUR ∧ t.power.since = s.now ∧ t.mem = s.mem ∧
      t.zne = s.zne) ∧
  (∀ (m : Fin 4) (r : Nat) (rs : List Nat) (s : State), s.flag F.AON_PSSTAT_BUSY = false → s.fld F.AON_PSSTAT_CUR < m.val →
    ((s.setFld F.AON_PSTATE_REQ_MODE m.val).bump F.AON_PS_ATTEMPT_COUNT).refusers m.val = r :: rs →
    ∃ t e, exec (.pstateRequest m) s = .next t ∧ t.fld F.AON_PSTATE_REQ_MODE = s.fld F.AON_PSSTAT_CUR ∧
      t.fld F.AON_PSSTAT_CUR = s.fld F.AON_PSSTAT_CUR ∧ t.flag F.AON_PSSTAT_BUSY = false ∧ t.power = s.power ∧ t.zne = s.zne ∧
      (s.gated 2 = false → t.evr.transit = s.evr.transit ++ [e] ∧ e.id = 0x0902)) ∧
  (∀ (s : State), s.flag F.AON_PSSTAT_BUSY = false → exec .modeTransitionDone s = .next s) ∧
  (∀ (s : State), s.flag F.AON_PSSTAT_BUSY = true → s.fld F.AON_PSSTAT_TGT = 3 → s.deepReady = false →
    exec .modeTransitionDone s = .next s) ∧
  (∀ (s : State), s.flag F.AON_PSSTAT_BUSY = true → s.fld F.AON_PSSTAT_TGT = 2 → s.fld F.AON_PSTATE_REQ_MODE = 2 →
    s.fld F.AON_PSSTAT_CUR < 3 → s.power.exiting = false → s.power.wake = false → ∃ t, exec .modeTransitionDone s = .next t ∧
      t.fld F.AON_PSSTAT_CUR = 2 ∧ t.flag F.AON_PSSTAT_BUSY = false ∧ t.cores.halted = BitVec.allOnes 32 ∧ t.mem = s.mem ∧
      t.zne = s.zne) ∧
  (∀ (s : State), s.flag F.AON_PSSTAT_BUSY = true → s.fld F.AON_PSSTAT_TGT = 0 → s.fld F.AON_PSTATE_REQ_MODE = 0 →
    s.fld F.AON_PSSTAT_CUR = 2 → ∃ t, exec .modeTransitionDone s = .next t ∧ t.fld F.AON_PSSTAT_CUR = 0 ∧
      t.flag F.AON_PSSTAT_BUSY = false ∧ t.cores.halted = 0 ∧ t.power.wake = false ∧ t.mem = s.mem ∧ t.zne = s.zne) ∧
  (∀ (s : State), s.flag F.AON_PSSTAT_BUSY = true → s.fld F.AON_PSSTAT_TGT = 1 → s.fld F.AON_PSTATE_REQ_MODE = 1 →
    s.fld F.AON_PSSTAT_CUR < 2 → s.power.exiting = false → ∃ t, exec .modeTransitionDone s = .next t ∧
      t.fld F.AON_PSSTAT_CUR = 1 ∧ t.flag F.AON_PSSTAT_BUSY = false ∧ t.cores = s.cores ∧ t.mem = s.mem ∧ t.power.wake = false) ∧
  (∀ (src : WakeSource) (bad : BitVec 24) (df : Option Bool) (sb : Bool) (s : State), ¬(src = .vukoro ∧ s.isMember = false) →
    (s.flag F.AON_PSSTAT_BUSY = false → s.fld F.AON_PSSTAT_CUR = 2 → exec (.wakeEvent src bad df sb) s =
      .next ((s.setFld F.AON_PSTATE_REQ_MODE 0).beginMode 0 true)) ∧
    (s.flag F.AON_PSSTAT_BUSY = false → s.fld F.AON_PSSTAT_CUR < 2 → exec (.wakeEvent src bad df sb) s = .next s) ∧
    (s.flag F.AON_PSSTAT_BUSY = true → 2 ≤ s.fld F.AON_PSSTAT_TGT → exec (.wakeEvent src bad df sb) s =
      .next { s with power := { s.power with wake := true } }) ∧
    (∀ c, s.flag F.AON_PSSTAT_BUSY = false → s.fld F.AON_PSSTAT_CUR = 3 → df = some c → exec (.wakeEvent src bad df sb) s =
      .next ((s.checkSeals bad.toNat).warmRestart (b2n c)))) ∧
  (∀ (s : State), (s.word R.AON_WAKEAT).toNat ≠ 0 → (s.word R.AON_WAKEAT).toNat ≤ s.now →
    exec .wakeTimerExpiry s = .next s.wakeUp) ∧
  (∀ (s : State), s.now < (s.word R.AON_WAKEAT).toNat → s.now < (s.word R.AON_AGEAT).toNat →
    exec .wakeTimerExpiry s = .next s) ∧
  (∀ (v : BitVec 10) (ok : Bool) (s : State), (v.toNat < 650 ∨ 850 < v.toNat ∨ s.fld F.AON_AVSSTAT_VCUR + 5 < v.toNat ∨
    v.toNat + 5 < s.fld F.AON_AVSSTAT_VCUR ∨ s.now < s.power.avsLast + 100000) → exec (.avsStep v ok) s = .next s) ∧
  (∀ (v : BitVec 10) (s : State), 650 ≤ v.toNat → v.toNat ≤ 850 → s.fld F.AON_AVSSTAT_VCUR < v.toNat →
    v.toNat ≤ s.fld F.AON_AVSSTAT_VCUR + 5 → s.power.avsLast + 100000 ≤ s.now → s.flag F.AON_AVSCFG_EN = true →
    (∃ t, exec (.avsStep v true) s = .next t ∧ t.fld F.AON_AVSSTAT_VCUR = v.toNat ∧ t.power.avsLast = s.now ∧ t.zne = s.zne) ∧
    (∃ t, exec (.avsStep v false) s = .next t ∧ t.fld F.AON_AVSSTAT_VCUR = s.fld F.AON_AVSSTAT_VCUR ∧
      t.flag F.AON_AVSSTAT_ERR = true)) ∧
  (∀ (v : BitVec 10) (s : State), 650 ≤ v.toNat → v.toNat ≤ 850 → v.toNat < s.fld F.AON_AVSSTAT_VCUR →
    s.fld F.AON_AVSSTAT_VCUR ≤ v.toNat + 5 → s.power.avsLast + 100000 ≤ s.now → s.fld F.AON_PSSTAT_CUR < 2 →
    ((s.flag F.AON_AVSCFG_EN = true ∧ ∀ m, s.roscMargin = some m → 0 ≤ m) ∨
      (s.flag F.AON_AVSCFG_EN = false ∧ s.fld F.AON_AVSCFG_VFIX ≤ v.toNat)) →
    ∃ t, exec (.avsStep v true) s = .next t ∧ t.fld F.AON_AVSSTAT_VCUR = v.toNat ∧ t.power.avsLast = s.now ∧ t.zne = s.zne) ∧
  (∀ (v : BitVec 10) (ok : Bool) (s : State), s.flag F.AON_AVSCFG_EN = false →
    (s.fld F.AON_AVSSTAT_VCUR < v.toNat ∧ s.fld F.AON_AVSCFG_VFIX < v.toNat) ∨
      (v.toNat < s.fld F.AON_AVSSTAT_VCUR ∧ v.toNat < s.fld F.AON_AVSCFG_VFIX) → exec (.avsStep v ok) s = .next s) ∧
  (∀ (s : State), s.pins.pwrcap = true → ∃ t, exec .pwrcapAssert s = .next t ∧ t.pins.pwrcap = false ∧
    t.flag F.ZNE_PWRSTAT_PCAP = true ∧ t.zne = s.zne ∧ t.mem = s.mem) ∧
  (∀ (s : State), s.pins.pwrcap = false → exec .pwrcapAssert s = .next s ∧ ∃ t, exec .pwrcapRelease s = .next t ∧
    t.pins.pwrcap = true ∧ t.flag F.ZNE_PWRSTAT_PCAP = false ∧ t.zne = s.zne ∧ t.mem = s.mem) ∧
  (∀ (i n : Nat) (s : State), s.mgt.hot.find? (fun e => decide (3 ≤ e.2)) = some (i, n) →
    let u := s.mgtPost 0x0908 [(8, i), (16, s.fld (F.MGT_TEMP_T i))]
    exec .thermalTrip s = .next (({ u with pins := { u.pins with thermtripN := false } } : State).startLoss .thermal)) ∧
  (∀ (s : State), let u : State := { s with pins := { s.pins with pli := false } }
    (s.fld F.AON_PSSTAT_CUR = 3 → exec .powerLoss s = .next { u with power := { u.power with deepFall := true } }) ∧
    (s.fld F.AON_PSSTAT_CUR ≠ 3 → exec .powerLoss s = .next (u.drivePlo.startLoss .pli))) ∧
  (∀ (l : PowerLoss) (high : Bool) (s : State), s.power.loss = some l → s.power.heldReset = false →
    (s.programsLeft = true → exec (.powerLossSequenceEnd high) s = .next s) ∧
    (s.programsLeft = false → ∃ t, exec (.powerLossSequenceEnd high) s = .next t ∧ t.power.heldReset = true ∧ t.pins.pli = high ∧
      t.power.loss = some ⟨if l.cause = .pli ∧ high = true then .reset 6 else l.cause, l.since, l.dirty⟩)) ∧
  (∀ (v : W32) (s : State), (bits v.toNat 24 8 = 0 ∨ 168 < bits v.toNat 24 8) → exec (.hucfgWrite v) s = .next s) ∧
  (∀ (v : W32) (s : State), bits v.toNat 24 8 ≠ 0 → bits v.toNat 24 8 ≤ 168 → exec (.hucfgWrite v) s =
    .next (s.setWord R.AON_HUCFG (BitVec.ofNat 64 (bits v.toNat 0 17 + bits v.toNat 24 8 * 2 ^ 24))).holdupRecompute)

/-- LTEN set on a node strapped into a cascade, with its clock and rail good, trains the link; a failed attempt trains again after 100 ms and a failed authentication after 1 s; two ends that trained exchange HELLO, on eight lanes, or on four with event 0x0A02 where W4OK allows it, then a check that passes brings the link up and secure, the master enumerating and a member reporting it, and one that fails keeps it down with event 0x0A03; keys are renewed after an hour; frames are counted in sequence, a corrected one too, and a frame that FEC cannot correct, that fails authentication or is out of sequence is dropped; a peer that is a master too has its link held down (R382 to R385). Commands whose answer it states, as exec = next under conditions on operands and state alone: vukLinkEnable, vukTrainingRetry, hello, linkAuthentication, linkKeyRenewal, vukoroFrame, dupmaster, vukoroLinkDown. -/
def Obligations.cascade_links : Prop :=
  (∀ (v : Fin 2) (w : Bool) (s : State), s.flag (F.ISL_CLKSTAT_SRCACT (0x0E + v.val)) = true → s.flag (F.VUK_LINKCFG_LTEN v.val) = false →
    s.inCascade = true → s.railOk 6 = true → ∃ t, exec (.vukLinkEnable v w) s = .next t ∧ t.flag (F.VUK_LINKCFG_LTEN v.val) = true ∧
      t.flag (F.VUK_LINKCFG_W4OK v.val) = w ∧ (t.vp v.val).st = .training ∧ (t.vp v.val).since = s.now ∧ t.zne = s.zne ∧ t.mem = s.mem) ∧
  (∀ (v : Fin 2) (w : Bool) (s : State), s.flag (F.VUK_LINKCFG_LTEN v.val) = true → exec (.vukLinkEnable v w) s = .next s) ∧
  (∀ (v : Fin 2) (s : State), ((((s.vp v.val).st = .training ∨ (s.vp v.val).st = .hello) ∧ (s.vp v.val).since + 100000000 ≤ s.now) ∨
      ((s.vp v.val).st = .retry ∧ (s.vp v.val).since + 1000000000 ≤ s.now)) →
    ∃ t, exec (.vukTrainingRetry v) s = .next t ∧ (t.vp v.val).st = .training ∧ (t.vp v.val).since = s.now ∧ t.csr = s.csr ∧
      t.zne = s.zne) ∧
  (∀ (v : Fin 2) (s : State), (s.vp v.val).st = .retry → s.now < (s.vp v.val).since + 1000000000 →
    exec (.vukTrainingRetry v) s = .next s) ∧
  (∀ (v : Fin 2) (m : Bool) (n : Fin 4) (id ser : W64) (s : State), (s.vp v.val).st = .training →
    ∃ t, exec (.hello v m n id ser none) s = .next t ∧ (t.vp v.val).st = .hello ∧ (t.vp v.val).peerCasc = id.toNat ∧
      (t.vp v.val).peerSerial = ser.toNat ∧ t.fld (F.VUK_LINKSTAT_PEER v.val) = (if m then 1 else 2) ∧
      t.fld (F.VUK_LINKSTAT_PEERNODE v.val) = n.val ∧ t.fld (F.VUK_LINKSTAT_WIDTH v.val) = 8 ∧
      t.casc.msgs.length = s.casc.msgs.length + 1 ∧ t.zne = s.zne) ∧
  (∀ (v : Fin 2) (m : Bool) (n : Fin 4) (id ser : W64) (l : BitVec 8) (s : State), (s.vp v.val).st = .training →
    (s.flag (F.VUK_LINKCFG_W4OK v.val) = false → exec (.hello v m n id ser (some l)) s = .next s) ∧
    (s.flag (F.VUK_LINKCFG_W4OK v.val) = true → ∃ t, exec (.hello v m n id ser (some l)) s = .next t ∧
      (t.vp v.val).st = .hello ∧ (t.vp v.val).peerCasc = id.toNat ∧ t.fld (F.VUK_LINKSTAT_PEERNODE v.val) = n.val ∧
      t.fld (F.VUK_LINKSTAT_WIDTH v.val) = 4 ∧ t.zne = s.zne ∧ (s.gated 2 = false →
        ∃ e, t.evr.transit = s.evr.transit ++ [e] ∧ e.id = 0x0A02 ∧ e.payload = v.val + l.toNat * 2 ^ 8))) ∧
  (∀ (v : Fin 2) (m : Bool) (n : Fin 4) (id ser : W64) (l : Option (BitVec 8)) (s : State), (s.vp v.val).st ≠ .training →
    exec (.hello v m n id ser l) s = .next s) ∧
  (∀ (v : Fin 2) (ok : Bool) (s : State), (s.vp v.val).st ≠ .hello → exec (.linkAuthentication v ok) s = .next s) ∧
  (∀ (v : Fin 2) (s : State), (s.vp v.val).st = .hello →
    (
      let u := ((s.setFld (F.VUK_LINKSTAT_UP v.val) 1).setFld (F.VUK_LINKSTAT_SECURE v.val) 1).modVp v.val fun y =>
        { y with st := .up, since := s.now, frames := 0, keyed := s.now, rxSeq := 0 }
      exec (.linkAuthentication v true) s = .next ((u.vukEvent v.val).enumerate.reportReady true)) ∧
    (
      let p := (s.vp v.val).peerSerial
      exec (.linkAuthentication v false) s = .next (((s.vukDown v.val).modVp v.val fun y =>
        { y with st := .retry, since := (s.vukDown v.val).now }).vukPost v.val 0x0A03 [(8, v.val), (64, p)])) ∧
    (s.isMaster = false → s.isMember = false → ∃ t, exec (.linkAuthentication v true) s = .next t ∧
      t.flag (F.VUK_LINKSTAT_UP v.val) = true ∧ t.flag (F.VUK_LINKSTAT_SECURE v.val) = true ∧ (t.vp v.val).st = .up ∧
      (t.vp v.val).keyed = s.now ∧ (t.vp v.val).rxSeq = 0) ∧
    (s.flag (F.VUK_LINKSTAT_UP v.val) = false → ∃ t, exec (.linkAuthentication v false) s = .next t ∧
      t.flag (F.VUK_LINKSTAT_UP v.val) = false ∧ t.flag (F.VUK_LINKSTAT_SECURE v.val) = false ∧ (t.vp v.val).st = .retry ∧
      (t.vp v.val).since = s.now)) ∧
  (∀ (v : Fin 2) (s : State), (s.vp v.val).st = .up → (s.vp v.val).keyed + 3600000000000 ≤ s.now →
    ∃ t, exec (.linkKeyRenewal v) s = .next t ∧ (t.vp v.val).keyed = s.now ∧ (t.vp v.val).frames = 0 ∧ t.csr = s.csr ∧
      t.casc.msgs.length = s.casc.msgs.length + 1) ∧
  (∀ (v : Fin 2) (q : W32) (a : Bool) (s : State), (s.vp v.val).st = .up →
    (q.toNat = (s.vp v.val).rxSeq → ∃ t, exec (.vukoroFrame v q 0 true) s = .next t ∧
      (t.vp v.val).rxSeq = (q.toNat + 1) % 2 ^ 32 ∧ (t.vp v.val).frames = (s.vp v.val).frames + 1 ∧ t.csr = s.csr) ∧
    (q.toNat = (s.vp v.val).rxSeq → ∃ t, exec (.vukoroFrame v q 1 true) s = .next t ∧
      (t.vp v.val).rxSeq = (q.toNat + 1) % 2 ^ 32 ∧ t.csr = (s.bump (F.VUK_FECCOR_COUNT v.val)).csr ∧ t.zne = s.zne) ∧
    exec (.vukoroFrame v q 2 a) s = .next (s.bump (F.VUK_FECUNC_COUNT v.val)) ∧
    exec (.vukoroFrame v q 0 false) s = .next s ∧
    (q.toNat ≠ (s.vp v.val).rxSeq → exec (.vukoroFrame v q 0 a) s = .next s)) ∧
  (∀ (v : Fin 2) (q : W32) (f : Fin 3) (a : Bool) (s : State), (s.vp v.val).st ≠ .up → exec (.vukoroFrame v q f a) s = .next s) ∧
  (∀ (v : Fin 2) (s : State), s.flag (F.VUK_LINKSTAT_UP v.val) = true →
    exec (.vukoroLinkDown v) s = .next ((s.vukDown v.val).vukTrain v.val) ∧
    (exec (.dupmaster v) s = .next (((s.vukDown v.val).modVp v.val fun x => { x with
      st := .held
      since := s.now }).vukPost v.val 0x0A05 [(8, v.val), (64, (s.vp v.val).peerSerial)]))) ∧
  (∀ (v : Fin 2) (s : State), s.flag (F.VUK_LINKSTAT_UP v.val) = false → exec (.vukoroLinkDown v) s = .next s ∧
    exec (.dupmaster v) s = .next s)

/-- A member that hears ENUM is admitted with its recorded identifier, or the lowest free one, and passes the word on; the master hearing its own ENUM closes the ring, and another master's is answered DUPMASTER; a READY report shows the member joined, and one of a new link has the master enumerate again; a node list shows a member who has joined, and the list completes on a master too; CSYNC and time sets align a member; a forwarded command already executed is answered from its record, one that runs goes on, and another is executed; a completion frees its command, with the blocks it carries; a member out of reach for LOSSTO is declared lost, and one cut off for LOSSTO is orphaned (R385, R386, R388, R389, R391 to R394). Commands whose answer it states, as exec = next under conditions on operands and state alone: enum, nodeList, memberReady, csyncPulse, timeOrderedSet, forwardedCommand, forwardedCompletion, pathFailureReroute, memberLossTimeout, memberFaultReport, orphanTimeout. -/
def Obligations.cascade_protocol : Prop :=
  (∀ (v : Fin 2) (id : W64) (cs : List (Fin 4 × W64)) (s : State), s.flag (F.VUK_LINKSTAT_UP v.val) = true →
    let c := cs.map fun c => (c.1.val, c.2.toNat)
    (s.isMaster = true → id.toNat = s.casc.id → exec (.enum v id cs) s = .next (s.setFld F.VUK_CASC_RING 1)) ∧
    (s.isMaster = true → id.toNat ≠ s.casc.id → exec (.enum v id cs) s =
      .next ((s.sendVuk v.val .dupMaster 0 0).vukPost v.val 0x0A05 [(8, v.val), (64, (s.vp v.val).peerSerial)])) ∧
    (∀ n, s.isMember = true → s.isMaster = false → s.enumId id.toNat c = some n →
      let u := s.grant v.val id.toNat n
      exec (.enum v id cs) s = .next (if u.flag (F.VUK_LINKSTAT_UP (1 - v.val)) then
        u.sendVuk (1 - v.val) .enum id.toNat 0 (claimBytes (c.filter (·.1 != n) ++ [(n, Config.serial)])) else u)) ∧
    (s.isMember = true → s.isMaster = false → s.enumId id.toNat c = none →
      let u := s.notAdmitted v.val (b2n (s.casc.id == id.toNat && s.casc.record.isSome))
      exec (.enum v id cs) s = .next (if u.flag (F.VUK_LINKSTAT_UP (1 - v.val)) then
        u.sendVuk (1 - v.val) .enum id.toNat 0 (claimBytes c) else u))) ∧
  (∀ (id n : Nat) (s : State), s.casc.id ≠ id → s.enumId id [] = some 1 ∧ (s.enumId id [(1, n), (2, n), (3, n)] = none ↔ n ≠ Config.serial)) ∧
  (∀ (nodes : List NodeInfo) (ring : Bool) (s : State), s.isMaster = false → s.isMember = true → s.casc.admitted = true →
    let others := nodes.filter fun x => x.node.val != s.ownNode
    ∃ t, exec (.nodeList nodes ring []) s = .next t ∧ t.flag F.VUK_CASC_RING = ring ∧
      t.fld F.VUK_CASC_JOINED = others.foldl (fun a x => if x.ready then setBit a x.node.val else a) (2 ^ s.ownNode) % 2 ^ F.VUK_CASC_JOINED.w ∧
      t.zne = s.zne ∧ t.hif = s.hif) ∧
  (∀ (nodes : List NodeInfo) (ring : Bool) (lost : List (Fin 1024)) (s : State), s.isMaster = false →
    (s.isMember = false ∨ s.casc.admitted = false) → exec (.nodeList nodes ring lost) s = .next s) ∧
  (∀ (nodes : List NodeInfo) (ring : Bool) (lost : List (Fin 1024)) (s : State), ∃ t, exec (.nodeList nodes ring lost) s = .next t ∧
    t.now = s.now) ∧
  (∀ (n : Fin 4) (up : Bool) (s : State), (s.isMaster = false ∨ (s.node n.val).admitted = false) →
    exec (.memberReady n up) s = .next s) ∧
  (∀ (n : Fin 4) (s : State), s.isMaster = true → (s.node n.val).admitted = true →
    exec (.memberReady n true) s = .next (s.modNode n.val fun x => { x with ready := true }).showNodes.enumerate) ∧
  (∀ (n : Fin 4) (s : State), s.isMaster = true → (s.node n.val).admitted = true →
    ∃ t, exec (.memberReady n false) s = .next t ∧ (t.node n.val).ready = true ∧ t.zne = s.zne ∧ t.hif = s.hif) ∧
  (∀ (sec : W32) (err : Fin 101) (s : State),
    (s.isMaster = true → s.casc.csync / 1000000000 < s.now / 1000000000 → exec (.csyncPulse sec err) s =
      .next { s with casc := { s.casc with csync := s.now } }) ∧
    (s.isMaster = false → s.isMember = true → 1 ≤ sec.toNat → ∃ t, exec (.csyncPulse sec err) s = .next t ∧
      sec.toNat * 1000000000 ≤ t.now + 50 ∧ t.now ≤ sec.toNat * 1000000000 + 50 ∧ t.csr = s.csr ∧ t.zne = s.zne)) ∧
  (∀ (x : W64) (err : Fin 2001) (s : State),
    (s.isMaster = true → exec (.timeOrderedSet x err) s = .next (s.sendBoth .timeSet s.now 0)) ∧
    (s.isMaster = false → s.isMember = true → 1000 ≤ x.toNat → ∃ t, exec (.timeOrderedSet x err) s = .next t ∧
      x.toNat ≤ t.now + 1000 ∧ t.now ≤ x.toNat + 1000 ∧
      (s.casc.csync ≠ 0 → s.now ≤ s.casc.csync + 2000000000 → x.toNat ≤ t.now + 50 ∧ t.now ≤ x.toNat + 50))) ∧
  (∀ (k : FwdKind) (tag : W32) (ten : Ten) (e : Sqe) (p : Option Sqe) (bad : Bool) (s : State),
    (s.isMember = false ∨ s.casc.admitted = false) → exec (.forwardedCommand k tag ten e p bad) s = .next s) ∧
  (∀ (tag : W32) (ten : Ten) (e : Sqe) (p : Option Sqe) (bad : Bool) (s : State), s.isMember = true → s.casc.admitted = true →
    s.boot.started = true → s.noFetch = false →
    (∀ m, s.casc.tags.find? (fun t => t.tag == fwdKey .io tag.toNat) = some ⟨m, none⟩ →
      exec (.forwardedCommand .io tag ten e p bad) s = .next s) ∧
    (∀ m c, s.casc.tags.find? (fun t => t.tag == fwdKey .io tag.toNat) = some ⟨m, some c⟩ →
      exec (.forwardedCommand .io tag ten e p bad) s = .next (s.sendBoth .completion (fwdKey .io tag.toNat) c.answer c.data)) ∧
    (s.casc.tags.find? (fun t => t.tag == fwdKey .io tag.toNat) = none →
      exec (.forwardedCommand .io tag ten e p bad) s = .next (s.takeFwd (fwdKey .io tag.toNat) ten.val e p))) ∧
  (∀ (tag : W32) (ten : Ten) (e : Sqe) (p : Option Sqe) (bad : Bool) (s : State), s.isMember = true → s.casc.admitted = true →
    s.boot.started = true → s.noFetch = false →
    exec (.forwardedCommand .admin tag ten e p bad) s = .next ((s.noteTag (fwdKey .admin tag.toNat)).memberAdmin
      { e with cid := BitVec.ofNat 16 tag.toNat } ten.val bad)) ∧
  (∀ (tag : W32) (st : Status) (d0 d1 : W32) (data : List Byte) (bl : List (W64 × Blk × Hmd)) (a : AdmFwd) (s : State),
    Tab.find s.casc.adm (tag.toNat % 65536) = some a → exec (.forwardedCompletion true tag st d0 d1 data bl) s =
      .next (({ s with casc := { s.casc with adm := Tab.erase s.casc.adm (tag.toNat % 65536) } } : State).admAnswer
        a st d0.toNat data)) ∧
  (∀ (tag : W32) (st : Status) (d0 d1 : W32) (data : List Byte) (bl : List (W64 × Blk × Hmd)) (f : Fwd) (s : State),
    Tab.find s.casc.fwd tag.toNat = some f →
    let u := s.modSlot f.slot fun x => { x with
      blocks := bl.foldl (fun t b => Tab.set t b.1.toNat (RBlk.got b.2.1 b.2.2)) x.blocks }
    exec (.forwardedCompletion false tag st d0 d1 data bl) s =
      .next (({ u with casc := { u.casc with fwd := Tab.erase u.casc.fwd tag.toNat } } : State).complete
        f.slot st d0.toNat d1.toNat data)) ∧
  (∀ (tag : W32) (st : Status) (d0 d1 : W32) (data : List Byte) (f : Fwd) (s : State), Tab.find s.casc.fwd tag.toNat = some f →
    exec (.forwardedCompletion false tag st d0 d1 data []) s =
      .next (({ s.modSlot f.slot (fun x => x) with casc := { s.casc with fwd := Tab.erase s.casc.fwd tag.toNat } } : State).complete
        f.slot st d0.toNat d1.toNat data)) ∧
  (∀ (admin : Bool) (tag : W32) (st : Status) (d0 d1 : W32) (data : List Byte) (bl : List (W64 × Blk × Hmd)) (s : State),
    s.casc.fwd = [] → s.casc.adm = [] → exec (.forwardedCompletion admin tag st d0 d1 data bl) s = .next s) ∧
  (∀ (n : Fin 4) (d : Fin 2) (s : State), bit (s.node n.val).reach d.val = false → exec (.pathFailureReroute n d) s = .next s) ∧
  (∀ (n : Fin 4) (d : Fin 2) (s : State), bit (s.node n.val).reach d.val = true → clrBit (s.node n.val).reach d.val = 0 →
    s.isMember = false → ∃ t, exec (.pathFailureReroute n d) s = .next t ∧ (t.node n.val).reach = 0 ∧ (t.node n.val).since = s.now ∧
      t.csr = s.csr ∧ t.zne = s.zne ∧ t.hif = s.hif) ∧
  (∀ (n : Fin 4) (s : State), s.isMaster = true → n ≠ 0 → (s.node n.val).admitted = true → (s.node n.val).lost = false →
    exec (.memberFaultReport n) s = .next (s.declareLost n.val) ∧
    ((s.node n.val).reach = 0 → (s.node n.val).since + s.lossTime ≤ s.now →
      exec (.memberLossTimeout n) s = .next (s.declareLost n.val)) ∧
    ((s.node n.val).reach ≠ 0 → exec (.memberLossTimeout n) s = .next s)) ∧
  (∀ (t0 : Nat) (s : State), s.casc.cutSince = some t0 → s.isMember = true → s.casc.orphan = false → t0 + s.lossTime ≤ s.now →
    let u := ({ s with casc := { s.casc with orphan := true, admitted := false } } : State).post 0x0E 0x0A09
      [(2, s.ownNode), (16, (s.fld F.ZNE_DIRTY_CUR + 255) / 256)]
    exec .orphanTimeout s = .next ((u.slotsOf fwdFn).foldl (fun s e => s.endSlotReset e.1) u).setCfs.orphanStep) ∧
  (∀ (t0 : Nat) (s : State), s.casc.cutSince = some t0 → s.now < t0 + s.lossTime → exec .orphanTimeout s = .next s)

/-- On a bus that no host has fixed, ENTDAA and SETDASA fix I3C with the address given, ARP and a transaction to SMBADDR fix SMBus, RSTDAA undoes I3C, and an endpoint ID that is not reserved is taken; a core's record with a nonzero ID reaches the recorder whole and one without an ID is dropped; a record arrives in order of its source unless its source has used up its window, and an exempt one always; a freeze ends after FRZTO seconds; a rate window's end reports what was refused and dropped in it (R395 to R406). Commands whose answer it states, as exec = next under conditions on operands and state alone: entdaa, setdasa, rstdaa, arpAssignAddress, smbusTransaction, setEndpointId, evpostWrite, eventRecordArrival, eventFlushDone, rateWindowEnd, freezeTimeout. -/
def Obligations.management_bus_and_recorder : Prop :=
  (∀ (a : BitVec 7) (s : State), s.flag F.MGT_MBCFG_I3CEN = true → s.fld F.MGT_MBSTAT_MODE = 0 →
    (∃ t, exec (.setdasa a) s = .next t ∧ t.fld F.MGT_MBSTAT_MODE = 1 ∧ t.fld F.MGT_MBSTAT_ADDR = a.toNat ∧ t.zne = s.zne ∧
      t.casc = s.casc) ∧
    (∃ t, exec (.entdaa a) s = .next t ∧ t.fld F.MGT_MBSTAT_MODE = 1 ∧ t.fld F.MGT_MBSTAT_ADDR = a.toNat ∧
      t.casc.msgs = s.casc.msgs ++ [⟨18, 10, 0, s.provisionedId, []⟩])) ∧
  (∀ (a : BitVec 7) (s : State), (s.flag F.MGT_MBCFG_I3CEN = false ∨ s.fld F.MGT_MBSTAT_MODE ≠ 0) →
    exec (.setdasa a) s = .next s ∧ exec (.entdaa a) s = .next s) ∧
  (∀ (s : State), s.flag F.MGT_MBCFG_I3CEN = true → s.fld F.MGT_MBSTAT_MODE ≠ 2 → ∃ t, exec .rstdaa s = .next t ∧
    t.fld F.MGT_MBSTAT_MODE = 0 ∧ t.fld F.MGT_MBSTAT_ADDR = 0 ∧ t.zne = s.zne ∧ t.evr = s.evr) ∧
  (∀ (a : BitVec 7) (s : State), s.flag F.MGT_MBCFG_SMBEN = true →
    (s.flag F.MGT_MBCFG_ARPEN = true → s.fld F.MGT_MBSTAT_MODE ≠ 1 → ∃ t, exec (.arpAssignAddress a) s = .next t ∧
      t.fld F.MGT_MBSTAT_MODE = 2 ∧ t.fld F.MGT_MBSTAT_ADDR = a.toNat ∧ t.zne = s.zne) ∧
    (s.fld F.MGT_MBSTAT_MODE = 0 → ∃ t, exec .smbusTransaction s = .next t ∧ t.fld F.MGT_MBSTAT_MODE = 2 ∧
      t.fld F.MGT_MBSTAT_ADDR = s.fld F.MGT_MBCFG_SMBADDR ∧ t.zne = s.zne)) ∧
  (∀ (b : Fin 4) (e : BitVec 8) (s : State), s.bindingUp b.val = true → e ≠ 0 → e ≠ 0xFF →
    ∃ t, exec (.setEndpointId b e) s = .next t ∧ Tab.find t.casc.eids b.val = some e.toNat ∧
      (2 ≤ b.val → t.fld F.MGT_MBSTAT_EID = e.toNat) ∧ t.casc.msgs = s.casc.msgs ++ [⟨16 + b.val, 10, 0, e.toNat, []⟩]) ∧
  (∀ (c : CoreId) (v : W32) (s : State),
    let w := fun i => Tab.getD s.evr.stage (stageKey (.core c) i) 0
    (bits (w 0) 0 16 = 0 → exec (.evpostWrite c v) s = .next (s.dropEvents 4 1)) ∧
    (bits (w 0) 0 16 ≠ 0 → s.gated 2 = false → ∃ t, exec (.evpostWrite c v) s = .next t ∧
      t.evr.transit = s.evr.transit ++ [⟨s.now, bits (w 0) 0 16, bits (w 0) 16 8, bits (w 0) 24 4, bits (w 1) 0 8,
        bits (w 1) 8 24 + w 2 % 2 ^ 32 * 2 ^ 24 + v.toNat * 2 ^ 56, 88⟩] ∧ t.csr = s.csr ∧ t.mem = s.mem)) ∧
  (∀ (isl : Isl) (e : Event) (rest : List Event) (s : State), s.evr.ready = true → s.gated 2 = false →
    takeFrom isl.val s.evr.transit = some (e, rest) → e.bits ≤ 88 →
    let u : State := { s with evr := { s.evr with transit := rest } }
    ((e.exempt = true ∨ Tab.getD s.evr.placed e.src 0 + 1 ≤ s.fld F.MGT_EVCFG_RLIM) →
      exec (.eventRecordArrival isl) s = .next (u.acceptEvent e)) ∧
    (e.exempt = false → s.fld F.MGT_EVCFG_RLIM < Tab.getD s.evr.placed e.src 0 + 1 →
      ∃ t, exec (.eventRecordArrival isl) s = .next t ∧ t.evr.transit = rest ∧ t.evr.buf = s.evr.buf ∧
        Tab.find t.evr.refused e.src = some (Tab.getD s.evr.refused e.src 0 + 1) ∧ t.mem = s.mem)) ∧
  (∀ (isl : Isl) (e : Event) (rest : List Event) (ts : List Event), takeFrom isl.val ts = some (e, rest) →
    e.src = isl.val ∧ rest.length + 1 = ts.length) ∧
  (∀ (b : Nat) (s : State), s.evr.flushTo = some b →
    exec .eventFlushDone s = .next ((s.flushRecords b).flushDue).showEvr) ∧
  (∀ (s : State), s.evr.flushTo = none → exec .eventFlushDone s = .next s) ∧
  (∀ (f : Freeze) (s : State), s.evr.freeze = some f →
    (f.since + s.fld F.MGT_EVCFG_FRZTO * 1000000000 ≤ s.now → exec .freezeTimeout s = .next (s.endFreeze 2)) ∧
    (s.now < f.since + s.fld F.MGT_EVCFG_FRZTO * 1000000000 → exec .freezeTimeout s = .next s)) ∧
  (∀ (s : State), s.gated 2 = false → s.evr.win < s.now / 1000000 →
    let u : State := { s with evr := { s.evr with win := s.now / 1000000, placed := [], refused := [], drops := [] } }
    exec .rateWindowEnd s = .next (s.evr.drops.foldl (fun s e => s.mgtPost 0x0A12 [(8, e.1), (32, e.2)])
      (s.evr.refused.foldl (fun s e => s.mgtPost 0x0A11 [(8, e.1), (32, e.2)]) u)).flushDue) ∧
  (∀ (s : State), (s.gated 2 = true ∨ s.now / 1000000 ≤ s.evr.win) → exec .rateWindowEnd s = .next s)

/-- MGT samples its sensors, rails and oscillators unless it is power-gated; each TAP instruction is selected in test mode, and outside it all but BYPASS, IDCODE and SAMPLE_PRELOAD act as BYPASS with event 0x0B04; a debug access in test mode writes an aligned doubleword of shared SRAM; a memory test runs where the memory may be taken and none is running, and is otherwise REFUSED, and its end, but that of a memory of kind 4, shows DONE, FAIL and the address (R407 to R411, R415, R419, R420). Commands whose answer it states, as exec = next under conditions on operands and state alone: temperatureSample, voltageSample, ringOscGate, tapReset, extest, idcode, samplePreload, highz, clamp, extestPulse, extestTrain, dbgaccess, jtagMbist, bypass, mbistGo, mbistDone, generalTimerExpiry. -/
def Obligations.monitors_and_test : Prop :=
  (∀ (s : State) (ts : List (BitVec 32)) (mv : List (BitVec 12)) (cs : List (BitVec 16)), s.gated 2 = true →
    exec (.temperatureSample ts) s = .next s ∧ exec (.voltageSample mv) s = .next s ∧ exec (.ringOscGate cs) s = .next s) ∧
  (∀ (ts : List (BitVec 32)) (s : State), s.gated 2 = false →
    let u := ((List.range 24).zip ts).foldl (fun s e => s.sampleTemp e.1 e.2.toInt) s
    exec (.temperatureSample ts) s = .next (if s.hotLevel < u.hotLevel then
      (u.mgtPost 0x0907 [(8, u.hottestSensor), (16, u.fld (F.MGT_TEMP_T u.hottestSensor))]).driveTwarn else u.driveTwarn)) ∧
  (∀ (mv : List (BitVec 12)) (s : State), s.gated 2 = false →
    exec (.voltageSample mv) s = .next (((List.range 7).zip mv).foldl (fun s e => s.sampleRail e.1 e.2.toNat) s)) ∧
  (∀ (r : Nat) (v : BitVec 12) (s : State), r < 7 → (s.sampleRail r v.toNat).fld (F.MGT_VMON_MV r) = v.toNat ∧
    (v.toNat < s.fld (F.MGT_VLIM_LO r) → (s.sampleRail r v.toNat).flag (F.MGT_VMON_LOW r) = true) ∧
    (s.fld (F.MGT_VLIM_LO r) ≤ v.toNat → v.toNat ≤ s.fld (F.MGT_VLIM_HI r) →
      (s.sampleRail r v.toNat).flag (F.MGT_VMON_LOW r) = s.flag (F.MGT_VMON_LOW r))) ∧
  (∀ (cs : List (BitVec 16)) (s : State), s.gated 2 = false → exec (.ringOscGate cs) s =
    .next (((List.range 176).zip cs).foldl (fun s e => if s.gated e.1 then s.setWord (R.MGT_ROSC e.1) 0
      else (s.setFld (F.MGT_ROSC_COUNT e.1) e.2.toNat).setFld (F.MGT_ROSC_MIN e.1)
        (Config.roscMin e.1 (s.clockMult e.1) % 65536)) s)) ∧
  (∀ (s : State), (∃ t, exec .tapReset s = .next t ∧ t.mgt.jtagIr = 0x01 ∧ t.csr = s.csr ∧ t.mem = s.mem ∧ t.zne = s.zne) ∧
    (∃ t, exec .bypass s = .next t ∧ t.mgt.jtagIr = 0xFF ∧ t.csr = s.csr ∧ t.mem = s.mem ∧ t.evr = s.evr) ∧
    (∃ t, exec .idcode s = .next t ∧ t.mgt.jtagIr = 0x01 ∧ Tab.find t.resp 32 = some (BitVec.ofNat 64 idcode) ∧ t.csr = s.csr) ∧
    (∀ v : W64, ∃ t, exec (.samplePreload v) s = .next t ∧ t.mgt.jtagIr = 0x02 ∧ t.mgt.bscan = v.toNat ∧ t.pins = s.pins)) ∧
  (∀ (s : State), s.testMode = true →
    (∀ v : W64, ∃ t, exec (.extest v) s = .next t ∧ t.mgt.jtagIr = 0x00 ∧ t.mgt.bscan = v.toNat ∧ t.evr = s.evr) ∧
    (∀ i n, (i, n) ∈ [(Instr.highz, 3), (.clamp, 4), (.extestPulse, 5), (.extestTrain, 6)] →
      ∃ t, exec i s = .next t ∧ t.mgt.jtagIr = n ∧ t.csr = s.csr ∧ t.evr = s.evr ∧ t.mem = s.mem)) ∧
  (∀ (s : State), s.testMode = true → (∃ t, exec .highz s = .next t ∧ t.mgt.jtagIr = 3) ∧
    (∃ t, exec .clamp s = .next t ∧ t.mgt.jtagIr = 4) ∧ (∃ t, exec .extestPulse s = .next t ∧ t.mgt.jtagIr = 5) ∧
    (∃ t, exec .extestTrain s = .next t ∧ t.mgt.jtagIr = 6)) ∧
  (∀ (s : State), s.testMode = false → s.gated 2 = false →
    ∀ i, i ∈ [Instr.highz, .clamp, .extestPulse, .extestTrain, .extest 0, .jtagMbist 0, .dbgaccess 0 3 none] →
      ∃ t e, exec i s = .next t ∧ t.mgt.jtagIr = 0xFF ∧ t.evr.transit = s.evr.transit ++ [e] ∧ e.id = 0x0B04 ∧ t.mem = s.mem ∧
        t.csr = s.csr ∧ t.mgt.bscan = s.mgt.bscan) ∧
  (∀ (a : BitVec 40) (v : W64) (s : State), s.Inv → s.testMode = true → s.region a.toNat = .sram → s.blocked a.toNat = false → a.toNat % 8 = 0 →
    ∃ t, exec (.dbgaccess a 3 (some v)) s = .next t ∧ t.mgt.jtagIr = 0x10 ∧ Memory.readNat t.mem a.toNat 8 = v.toNat ∧
      (∀ x, x < a.toNat ∨ a.toNat + 8 ≤ x → Memory.read t.mem x = Memory.read s.mem x)) ∧
  (∀ (v : W64) (s : State), s.testMode = true → ∃ u : State, exec (.jtagMbist v) s = .next (u.mbistctlWrite .jtag (v.toNat % 2 ^ 32)) ∧
    u.mgt.jtagIr = 0x11 ∧ Tab.find u.resp 32 = some (BitVec.ofNat 64 ((s.word R.MGT_MBISTCTL).toNat + (s.word R.MGT_MBISTADDR).toNat * 2 ^ 32)) ∧
    u.csr = s.csr) ∧
  (∀ (q : Requester) (isl : BitVec 8) (m : BitVec 4) (b : BitVec 5) (s : State), m.toNat ≤ 5 → b.toNat ≤ 23 →
    s.flag F.MGT_MBISTCTL_BUSY = false →
    let u := ((s.setFld F.MGT_MBISTCTL_ISL isl.toNat).setFld F.MGT_MBISTCTL_MEM m.toNat).setFld F.MGT_MBISTCTL_BANK b.toNat
    (u.mbistOk q isl.toNat m.toNat b.toNat = true → ∃ t, exec (.mbistGo q isl m b) s = .next t ∧
      t.flag F.MGT_MBISTCTL_BUSY = true ∧ t.flag F.MGT_MBISTCTL_REFUSED = false ∧ t.fld F.MGT_MBISTCTL_ISL = isl.toNat ∧
      t.fld F.MGT_MBISTCTL_MEM = m.toNat ∧ t.fld F.MGT_MBISTCTL_BANK = b.toNat ∧ t.mem = s.mem) ∧
    (u.mbistOk q isl.toNat m.toNat b.toNat = false → ∃ t, exec (.mbistGo q isl m b) s = .next t ∧
      t.flag F.MGT_MBISTCTL_REFUSED = true ∧ t.flag F.MGT_MBISTCTL_BUSY = false ∧ t.mem = s.mem)) ∧
  (∀ (q : Requester) (isl : BitVec 8) (m : BitVec 4) (b : BitVec 5) (s : State), m.toNat ≤ 5 → b.toNat ≤ 23 →
    s.flag F.MGT_MBISTCTL_BUSY = true → exec (.mbistGo q isl m b) s =
      .next ((((s.setFld F.MGT_MBISTCTL_ISL isl.toNat).setFld F.MGT_MBISTCTL_MEM m.toNat).setFld F.MGT_MBISTCTL_BANK b.toNat).setFld
        F.MGT_MBISTCTL_REFUSED 1)) ∧
  (∀ (q : Requester) (isl : BitVec 8) (m : BitVec 4) (b : BitVec 5) (s : State), (5 < m.toNat ∨ 23 < b.toNat) →
    exec (.mbistGo q isl m b) s = .next s) ∧
  (∀ (x : Option W32) (s : State), s.flag F.MGT_MBISTCTL_BUSY = true → s.fld F.MGT_MBISTCTL_MEM ≠ 4 →
    ∃ t, exec (.mbistDone x) s = .next t ∧ t.flag F.MGT_MBISTCTL_BUSY = false ∧ t.flag F.MGT_MBISTCTL_DONE = true ∧
      t.flag F.MGT_MBISTCTL_FAIL = x.isSome ∧ t.fld F.MGT_MBISTADDR_ADDR = (x.map (·.toNat)).getD 0) ∧
  (∀ (k : Fin 64) (s : State), ∃ t, exec (.generalTimerExpiry k) s = .next t ∧ Tab.find t.mgt.timers k.val = some s.now ∧
    t.csr = s.csr ∧ t.mem = s.mem ∧ t.zne = s.zne)
end

