-- ==== Sys2Proof/Laws/Exec.lean ====
section
/-! SUPPORT. What exec is for each command: its meaning. -/

namespace Sys2Proof.Machine

@[simp] theorem exec_registerWrite {s : State} {q isl off size v} : exec (.registerWrite q isl off size v) s = execRegisterWrite q isl off size v s := rfl
@[simp] theorem exec_lowWordRead {s : State} {q isl off size} : exec (.lowWordRead q isl off size) s = execLowWordRead q isl off size s := rfl
@[simp] theorem exec_lowWordWrite {s : State} {q isl off v} : exec (.lowWordWrite q isl off v) s = execLowWordWrite q isl off v s := rfl
@[simp] theorem exec_highWordWrite {s : State} {q isl off v} : exec (.highWordWrite q isl off v) s = execHighWordWrite q isl off v s := rfl
@[simp] theorem exec_coldReset {s : State} {portcfg cascmode bootsel bad} : exec (.coldReset portcfg cascmode bootsel bad) s = execColdReset portcfg cascmode bootsel bad s := rfl
@[simp] theorem exec_warmReset {s : State} {portcfg cascmode bootsel bad} : exec (.warmReset portcfg cascmode bootsel bad) s = execWarmReset portcfg cascmode bootsel bad s := rfl
@[simp] theorem exec_brownOut {s : State} {portcfg cascmode bootsel bad} : exec (.brownOut portcfg cascmode bootsel bad) s = execBrownOut portcfg cascmode bootsel bad s := rfl
@[simp] theorem exec_resetRequest {s : State} : exec (.resetRequest) s = execResetRequest s := rfl
@[simp] theorem exec_startUp {s : State} {x} : exec (.startUp x) s = execStartUp x s := rfl
@[simp] theorem exec_islClkctlWrite {s : State} {q isl v} : exec (.islClkctlWrite q isl v) s = execIslClkctlWrite q isl v s := rfl
@[simp] theorem exec_pllLock {s : State} {isl} : exec (.pllLock isl) s = execPllLock isl s := rfl
@[simp] theorem exec_pllLossOfLock {s : State} {isl} : exec (.pllLossOfLock isl) s = execPllLossOfLock isl s := rfl
@[simp] theorem exec_handshakeTimeout {s : State} {q isl store a} : exec (.handshakeTimeout q isl store a) s = execHandshakeTimeout q isl store a s := rfl
@[simp] theorem exec_fabPortctlWrite {s : State} {c isl} : exec (.fabPortctlWrite c isl) s = execFabPortctlWrite c isl s := rfl
@[simp] theorem exec_powerGatedAccess {s : State} {q isl off store} : exec (.powerGatedAccess q isl off store) s = execPowerGatedAccess q isl off store s := rfl
@[simp] theorem exec_fence {s : State} {c w} : exec (.fence c w) s = execFence c w s := rfl
@[simp] theorem exec_fenceI {s : State} {c} : exec (.fenceI c) s = execFenceI c s := rfl
@[simp] theorem exec_amo {s : State} {c a wide op v ue} : exec (.amo c a wide op v ue) s = execAmo c a wide op v ue s := rfl
@[simp] theorem exec_loadReserved {s : State} {c a wide ue} : exec (.loadReserved c a wide ue) s = execLoadReserved c a wide ue s := rfl
@[simp] theorem exec_storeConditional {s : State} {c a wide v} : exec (.storeConditional c a wide v) s = execStoreConditional c a wide v s := rfl
@[simp] theorem exec_remoteTcmWrite {s : State} {c t dtcm off v} : exec (.remoteTcmWrite c t dtcm off v) s = execRemoteTcmWrite c t dtcm off v s := rfl
@[simp] theorem exec_bar2Read {s : State} {p off n} : exec (.bar2Read p off n) s = execBar2Read p off n s := rfl
@[simp] theorem exec_bar2Write {s : State} {p off v} : exec (.bar2Write p off v) s = execBar2Write p off v s := rfl
@[simp] theorem exec_sqTailDoorbell {s : State} {fn qid tail} : exec (.sqTailDoorbell fn qid tail) s = execSqTailDoorbell fn qid tail s := rfl
@[simp] theorem exec_cqHeadDoorbell {s : State} {fn qid head} : exec (.cqHeadDoorbell fn qid head) s = execCqHeadDoorbell fn qid head s := rfl
@[simp] theorem exec_arbiterTurn {s : State} {p} : exec (.arbiterTurn p) s = execArbiterTurn p s := rfl
@[simp] theorem exec_peekEntryArrival {s : State} {fn qid e pair} : exec (.peekEntryArrival fn qid e pair) s = execPeekEntryArrival fn qid e pair s := rfl
@[simp] theorem exec_wbstarveExpiry {s : State} {fn qid} : exec (.wbstarveExpiry fn qid) s = execWbstarveExpiry fn qid s := rfl
@[simp] theorem exec_hostDataArrival {s : State} {ix k d h} : exec (.hostDataArrival ix k d h) s = execHostDataArrival ix k d h s := rfl
@[simp] theorem exec_dmcBufferAck {s : State} {b} : exec (.dmcBufferAck b) s = execDmcBufferAck b s := rfl
@[simp] theorem exec_huskSliceEntryAck {s : State} {r m} : exec (.huskSliceEntryAck r m) s = execHuskSliceEntryAck r m s := rfl
@[simp] theorem exec_powerTokenGrant {s : State} : exec (.powerTokenGrant) s = execPowerTokenGrant s := rfl
@[simp] theorem exec_podDispatch {s : State} {d} : exec (.podDispatch d) s = execPodDispatch d s := rfl
@[simp] theorem exec_dieOpDone {s : State} {d zeros} : exec (.dieOpDone d zeros) s = execDieOpDone d zeros s := rfl
@[simp] theorem exec_huskCloseEntryAck {s : State} {r} : exec (.huskCloseEntryAck r) s = execHuskCloseEntryAck r s := rfl
@[simp] theorem exec_transferFailure {s : State} {x} : exec (.transferFailure x) s = execTransferFailure x s := rfl
@[simp] theorem exec_stageAgeExpiry {s : State} {zmi} : exec (.stageAgeExpiry zmi) s = execStageAgeExpiry zmi s := rfl
@[simp] theorem exec_stageFillTimeout {s : State} {set} : exec (.stageFillTimeout set) s = execStageFillTimeout set s := rfl
@[simp] theorem exec_foldStart {s : State} {zmi bad} : exec (.foldStart zmi bad) s = execFoldStart zmi bad s := rfl
@[simp] theorem exec_stageReclaim {s : State} {set} : exec (.stageReclaim set) s = execStageReclaim set s := rfl
@[simp] theorem exec_convStripeAgeExpiry {s : State} {ns ruh} : exec (.convStripeAgeExpiry ns ruh) s = execConvStripeAgeExpiry ns ruh s := rfl
@[simp] theorem exec_mapCheckpoint {s : State} : exec (.mapCheckpoint) s = execMapCheckpoint s := rfl
@[simp] theorem exec_write {s : State} {ix} : exec (.write ix) s = execWrite ix s := rfl
@[simp] theorem exec_zoneAppend {s : State} {ix} : exec (.zoneAppend ix) s = execZoneAppend ix s := rfl
@[simp] theorem exec_copy {s : State} {x} : exec (.copy x) s = execCopy x s := rfl
@[simp] theorem exec_read {s : State} {ix bad} : exec (.read ix bad) s = execRead ix bad s := rfl
@[simp] theorem exec_compare {s : State} {ix bad} : exec (.compare ix bad) s = execCompare ix bad s := rfl
@[simp] theorem exec_fusedCompareWrite {s : State} {ix bad} : exec (.fusedCompareWrite ix bad) s = execFusedCompareWrite ix bad s := rfl
@[simp] theorem exec_verify {s : State} {ix bad} : exec (.verify ix bad) s = execVerify ix bad s := rfl
@[simp] theorem exec_writeZeroes {s : State} {ix} : exec (.writeZeroes ix) s = execWriteZeroes ix s := rfl
@[simp] theorem exec_datasetManagement {s : State} {ix} : exec (.datasetManagement ix) s = execDatasetManagement ix s := rfl
@[simp] theorem exec_flush {s : State} {ix} : exec (.flush ix) s = execFlush ix s := rfl
@[simp] theorem exec_ioManagementSend {s : State} {ix} : exec (.ioManagementSend ix) s = execIoManagementSend ix s := rfl
@[simp] theorem exec_ioManagementReceive {s : State} {ix} : exec (.ioManagementReceive ix) s = execIoManagementReceive ix s := rfl
@[simp] theorem exec_zoneOpen {s : State} {ix} : exec (.zoneOpen ix) s = execZoneOpen ix s := rfl
@[simp] theorem exec_zoneClose {s : State} {ix} : exec (.zoneClose ix) s = execZoneClose ix s := rfl
@[simp] theorem exec_zoneFinish {s : State} {ix} : exec (.zoneFinish ix) s = execZoneFinish ix s := rfl
@[simp] theorem exec_zoneReset {s : State} {ix} : exec (.zoneReset ix) s = execZoneReset ix s := rfl
@[simp] theorem exec_zoneOffline {s : State} {ix} : exec (.zoneOffline ix) s = execZoneOffline ix s := rfl
@[simp] theorem exec_zoneMgmtEffect {s : State} {ix} : exec (.zoneMgmtEffect ix) s = execZoneMgmtEffect ix s := rfl
@[simp] theorem exec_zoneManagementReceive {s : State} {ix} : exec (.zoneManagementReceive ix) s = execZoneManagementReceive ix s := rfl
@[simp] theorem exec_reconstructionDone {s : State} {k crcFail} : exec (.reconstructionDone k crcFail) s = execReconstructionDone k crcFail s := rfl
@[simp] theorem exec_suspholdExpiry {s : State} {d} : exec (.suspholdExpiry d) s = execSuspholdExpiry d s := rfl
@[simp] theorem exec_ldcDecodeDone {s : State} {u out} : exec (.ldcDecodeDone u out) s = execLdcDecodeDone u out s := rfl
@[simp] theorem exec_watchdogExpiry {s : State} {d} : exec (.watchdogExpiry d) s = execWatchdogExpiry d s := rfl
@[simp] theorem exec_hardLimitExpiry {s : State} {d} : exec (.hardLimitExpiry d) s = execHardLimitExpiry d s := rfl
@[simp] theorem exec_abortDoneTimeout {s : State} {d} : exec (.abortDoneTimeout d) s = execAbortDoneTimeout d s := rfl
@[simp] theorem exec_suspectPeriodExpiry {s : State} {d} : exec (.suspectPeriodExpiry d) s = execSuspectPeriodExpiry d s := rfl
@[simp] theorem exec_diecmdRetire {s : State} {d} : exec (.diecmdRetire d) s = execDiecmdRetire d s := rfl
@[simp] theorem exec_diecmdFail {s : State} {d} : exec (.diecmdFail d) s = execDiecmdFail d s := rfl
@[simp] theorem exec_rebuildJobStart {s : State} : exec (.rebuildJobStart) s = execRebuildJobStart s := rfl
@[simp] theorem exec_startupHuskReplay {s : State} {x listLost found} : exec (.startupHuskReplay x listLost found) s = execStartupHuskReplay x listLost found s := rfl
@[simp] theorem exec_tornRepair {s : State} {r} : exec (.tornRepair r) s = execTornRepair r s := rfl
@[simp] theorem exec_sampleBoundary {s : State} : exec (.sampleBoundary) s = execSampleBoundary s := rfl
@[simp] theorem exec_slotOpen {s : State} {k} : exec (.slotOpen k) s = execSlotOpen k s := rfl
@[simp] theorem exec_slotClose {s : State} {k} : exec (.slotClose k) s = execSlotClose k s := rfl
@[simp] theorem exec_lpeHoldWrite {s : State} {k w} : exec (.lpeHoldWrite k w) s = execLpeHoldWrite k w s := rfl
@[simp] theorem exec_lpeExtmeasWrite {s : State} {ix y} : exec (.lpeExtmeasWrite ix y) s = execLpeExtmeasWrite ix y s := rfl
@[simp] theorem exec_halt {s : State} {n f} : exec (.halt n f) s = execHalt n f s := rfl
@[simp] theorem exec_sel {s : State} {n f rs imm} : exec (.sel n f rs imm) s = execSel n f rs imm s := rfl
@[simp] theorem exec_cmd {s : State} {n f rs imm} : exec (.cmd n f rs imm) s = execCmd n f rs imm s := rfl
@[simp] theorem exec_addr {s : State} {n f rs imm} : exec (.addr n f rs imm) s = execAddr n f rs imm s := rfl
@[simp] theorem exec_din {s : State} {n f rd rs imm} : exec (.din n f rd rs imm) s = execDin n f rd rs imm s := rfl
@[simp] theorem exec_dout {s : State} {n f rd rs imm data} : exec (.dout n f rd rs imm data) s = execDout n f rd rs imm data s := rfl
@[simp] theorem exec_wait {s : State} {n f rs imm} : exec (.wait n f rs imm) s = execWait n f rs imm s := rfl
@[simp] theorem exec_poll {s : State} {n f rd rs imm first more} : exec (.poll n f rd rs imm first more) s = execPoll n f rd rs imm first more s := rfl
@[simp] theorem exec_ldi {s : State} {n f rd imm} : exec (.ldi n f rd imm) s = execLdi n f rd imm s := rfl
@[simp] theorem exec_ldih {s : State} {n f rd imm} : exec (.ldih n f rd imm) s = execLdih n f rd imm s := rfl
@[simp] theorem exec_mov {s : State} {n f rd rs imm} : exec (.mov n f rd rs imm) s = execMov n f rd rs imm s := rfl
@[simp] theorem exec_add {s : State} {n f rd rs imm} : exec (.add n f rd rs imm) s = execAdd n f rd rs imm s := rfl
@[simp] theorem exec_sub {s : State} {n f rd rs imm} : exec (.sub n f rd rs imm) s = execSub n f rd rs imm s := rfl
@[simp] theorem exec_and {s : State} {n f rd rs imm} : exec (.and n f rd rs imm) s = execAnd n f rd rs imm s := rfl
@[simp] theorem exec_or {s : State} {n f rd rs imm} : exec (.or n f rd rs imm) s = execOr n f rd rs imm s := rfl
@[simp] theorem exec_xor {s : State} {n f rd rs imm} : exec (.xor n f rd rs imm) s = execXor n f rd rs imm s := rfl
@[simp] theorem exec_shl {s : State} {n f rd rs imm} : exec (.shl n f rd rs imm) s = execShl n f rd rs imm s := rfl
@[simp] theorem exec_shr {s : State} {n f rd rs imm} : exec (.shr n f rd rs imm) s = execShr n f rd rs imm s := rfl
@[simp] theorem exec_br {s : State} {n f imm} : exec (.br n f imm) s = execBr n f imm s := rfl
@[simp] theorem exec_brc {s : State} {n f imm} : exec (.brc n f imm) s = execBrc n f imm s := rfl
@[simp] theorem exec_call {s : State} {n f imm} : exec (.call n f imm) s = execCall n f imm s := rfl
@[simp] theorem exec_ret {s : State} {n f} : exec (.ret n f) s = execRet n f s := rfl
@[simp] theorem exec_pop {s : State} {n f} : exec (.pop n f) s = execPop n f s := rfl
@[simp] theorem exec_postDone {s : State} {n f rd rs imm} : exec (.postDone n f rd rs imm) s = execPostDone n f rd rs imm s := rfl
@[simp] theorem exec_postPark {s : State} {n f rd rs imm} : exec (.postPark n f rd rs imm) s = execPostPark n f rd rs imm s := rfl
@[simp] theorem exec_postSusp {s : State} {n f rd rs imm} : exec (.postSusp n f rd rs imm) s = execPostSusp n f rd rs imm s := rfl
@[simp] theorem exec_parkDelayExpiry {s : State} {d} : exec (.parkDelayExpiry d) s = execParkDelayExpiry d s := rfl
@[simp] theorem exec_tstart {s : State} {n f rs imm} : exec (.tstart n f rs imm) s = execTstart n f rs imm s := rfl
@[simp] theorem exec_twait {s : State} {n f} : exec (.twait n f) s = execTwait n f s := rfl
@[simp] theorem exec_timerExpiry {s : State} {n} : exec (.timerExpiry n) s = execTimerExpiry n s := rfl
@[simp] theorem exec_evt {s : State} {n f rd rs imm} : exec (.evt n f rd rs imm) s = execEvt n f rd rs imm s := rfl
@[simp] theorem exec_pgen {s : State} {n f rs imm} : exec (.pgen n f rs imm) s = execPgen n f rs imm s := rfl
@[simp] theorem exec_pchk {s : State} {n f rd rs imm got} : exec (.pchk n f rd rs imm got) s = execPchk n f rd rs imm got s := rfl
@[simp] theorem exec_seqRun {s : State} {n} : exec (.seqRun n) s = execSeqRun n s := rfl
@[simp] theorem exec_seqStop {s : State} {n} : exec (.seqStop n) s = execSeqStop n s := rfl
@[simp] theorem exec_channelFaultTimeout {s : State} {n} : exec (.channelFaultTimeout n) s = execChannelFaultTimeout n s := rfl
@[simp] theorem exec_directOpGo {s : State} {n} : exec (.directOpGo n) s = execDirectOpGo n s := rfl
@[simp] theorem exec_broadcastWrite {s : State} {q x v} : exec (.broadcastWrite q x v) s = execBroadcastWrite q x v s := rfl
@[simp] theorem exec_eraseLedgerWriteAck {s : State} {b} : exec (.eraseLedgerWriteAck b) s = execEraseLedgerWriteAck b s := rfl
@[simp] theorem exec_eraseLedgerClearAck {s : State} {b} : exec (.eraseLedgerClearAck b) s = execEraseLedgerClearAck b s := rfl
@[simp] theorem exec_preeraseStart {s : State} {set} : exec (.preeraseStart set) s = execPreeraseStart set s := rfl
@[simp] theorem exec_wearRelocationStart {s : State} {set} : exec (.wearRelocationStart set) s = execWearRelocationStart set s := rfl
@[simp] theorem exec_scrubVisit {s : State} : exec (.scrubVisit) s = execScrubVisit s := rfl
@[simp] theorem exec_linkEnable {s : State} {p} : exec (.linkEnable p) s = execLinkEnable p s := rfl
@[simp] theorem exec_linkTrained {s : State} {p rate width} : exec (.linkTrained p rate width) s = execLinkTrained p rate width s := rfl
@[simp] theorem exec_perstAssert {s : State} {p} : exec (.perstAssert p) s = execPerstAssert p s := rfl
@[simp] theorem exec_perstDeassert {s : State} {p} : exec (.perstDeassert p) s = execPerstDeassert p s := rfl
@[simp] theorem exec_surpriseLinkDown {s : State} {p} : exec (.surpriseLinkDown p) s = execSurpriseLinkDown p s := rfl
@[simp] theorem exec_l0pWidthRequest {s : State} {p w} : exec (.l0pWidthRequest p w) s = execL0pWidthRequest p w s := rfl
@[simp] theorem exec_ideIntegrityFail {s : State} {p stream rid slots} : exec (.ideIntegrityFail p stream rid slots) s = execIdeIntegrityFail p stream rid slots s := rfl
@[simp] theorem exec_ideKmKeyProgram {s : State} {p eid session stream set keys} : exec (.ideKmKeyProgram p eid session stream set keys) s = execIdeKmKeyProgram p eid session stream set keys s := rfl
@[simp] theorem exec_vfEnableWrite {s : State} {p enable num} : exec (.vfEnableWrite p enable num) s = execVfEnableWrite p enable num s := rfl
@[simp] theorem exec_diagctlWrite {s : State} {p v} : exec (.diagctlWrite p v) s = execDiagctlWrite p v s := rfl
@[simp] theorem exec_createIoSq {s : State} {fn e} : exec (.createIoSq fn e) s = execCreateIoSq fn e s := rfl
@[simp] theorem exec_createIoCq {s : State} {fn e} : exec (.createIoCq fn e) s = execCreateIoCq fn e s := rfl
@[simp] theorem exec_deleteIoSq {s : State} {fn e} : exec (.deleteIoSq fn e) s = execDeleteIoSq fn e s := rfl
@[simp] theorem exec_deleteIoCq {s : State} {fn e} : exec (.deleteIoCq fn e) s = execDeleteIoCq fn e s := rfl
@[simp] theorem exec_getLogPage {s : State} {fn e} : exec (.getLogPage fn e) s = execGetLogPage fn e s := rfl
@[simp] theorem exec_identify {s : State} {fn e} : exec (.identify fn e) s = execIdentify fn e s := rfl
@[simp] theorem exec_abort {s : State} {fn e} : exec (.abort fn e) s = execAbort fn e s := rfl
@[simp] theorem exec_setFeatures {s : State} {fn e} : exec (.setFeatures fn e) s = execSetFeatures fn e s := rfl
@[simp] theorem exec_getFeatures {s : State} {fn e} : exec (.getFeatures fn e) s = execGetFeatures fn e s := rfl
@[simp] theorem exec_asyncEventRequest {s : State} {fn e} : exec (.asyncEventRequest fn e) s = execAsyncEventRequest fn e s := rfl
@[simp] theorem exec_namespaceManagement {s : State} {fn e} : exec (.namespaceManagement fn e) s = execNamespaceManagement fn e s := rfl
@[simp] theorem exec_namespaceAttachment {s : State} {fn e} : exec (.namespaceAttachment fn e) s = execNamespaceAttachment fn e s := rfl
@[simp] theorem exec_firmwareImageDownload {s : State} {fn e} : exec (.firmwareImageDownload fn e) s = execFirmwareImageDownload fn e s := rfl
@[simp] theorem exec_firmwareCommit {s : State} {fn e bad} : exec (.firmwareCommit fn e bad) s = execFirmwareCommit fn e bad s := rfl
@[simp] theorem exec_activationDrainTimeout {s : State} : exec (.activationDrainTimeout) s = execActivationDrainTimeout s := rfl
@[simp] theorem exec_activationSwitch {s : State} : exec (.activationSwitch) s = execActivationSwitch s := rfl
@[simp] theorem exec_directiveSend {s : State} {fn e} : exec (.directiveSend fn e) s = execDirectiveSend fn e s := rfl
@[simp] theorem exec_directiveReceive {s : State} {fn e} : exec (.directiveReceive fn e) s = execDirectiveReceive fn e s := rfl
@[simp] theorem exec_virtualizationManagement {s : State} {fn e} : exec (.virtualizationManagement fn e) s = execVirtualizationManagement fn e s := rfl
@[simp] theorem exec_nvmeMiSend {s : State} {fn e} : exec (.nvmeMiSend fn e) s = execNvmeMiSend fn e s := rfl
@[simp] theorem exec_nvmeMiReceive {s : State} {fn e} : exec (.nvmeMiReceive fn e) s = execNvmeMiReceive fn e s := rfl
@[simp] theorem exec_formatNvm {s : State} {fn e} : exec (.formatNvm fn e) s = execFormatNvm fn e s := rfl
@[simp] theorem exec_sanitize {s : State} {fn e} : exec (.sanitize fn e) s = execSanitize fn e s := rfl
@[simp] theorem exec_tenancyCreate {s : State} {fn e} : exec (.tenancyCreate fn e) s = execTenancyCreate fn e s := rfl
@[simp] theorem exec_tenancyDelete {s : State} {fn e} : exec (.tenancyDelete fn e) s = execTenancyDelete fn e s := rfl
@[simp] theorem exec_setQuotas {s : State} {fn e} : exec (.setQuotas fn e) s = execSetQuotas fn e s := rfl
@[simp] theorem exec_mapVf {s : State} {fn e} : exec (.mapVf fn e) s = execMapVf fn e s := rfl
@[simp] theorem exec_setRankSets {s : State} {fn e} : exec (.setRankSets fn e) s = execSetRankSets fn e s := rfl
@[simp] theorem exec_formGeometry {s : State} {fn e} : exec (.formGeometry fn e) s = execFormGeometry fn e s := rfl
@[simp] theorem exec_readDescriptor {s : State} {fn e} : exec (.readDescriptor fn e) s = execReadDescriptor fn e s := rfl
@[simp] theorem exec_governorRead {s : State} {fn e} : exec (.governorRead fn e) s = execGovernorRead fn e s := rfl
@[simp] theorem exec_governorWrite {s : State} {fn e} : exec (.governorWrite fn e) s = execGovernorWrite fn e s := rfl
@[simp] theorem exec_recorderFreeze {s : State} {fn e} : exec (.recorderFreeze fn e) s = execRecorderFreeze fn e s := rfl
@[simp] theorem exec_recorderUnfreeze {s : State} {fn e} : exec (.recorderUnfreeze fn e) s = execRecorderUnfreeze fn e s := rfl
@[simp] theorem exec_recorderRead {s : State} {fn e} : exec (.recorderRead fn e) s = execRecorderRead fn e s := rfl
@[simp] theorem exec_recorderClearView {s : State} {fn e} : exec (.recorderClearView fn e) s = execRecorderClearView fn e s := rfl
@[simp] theorem exec_geometryReport {s : State} {fn e} : exec (.geometryReport fn e) s = execGeometryReport fn e s := rfl
@[simp] theorem exec_resourceClaim {s : State} {fn e} : exec (.resourceClaim fn e) s = execResourceClaim fn e s := rfl
@[simp] theorem exec_resourceRelease {s : State} {fn e} : exec (.resourceRelease fn e) s = execResourceRelease fn e s := rfl
@[simp] theorem exec_diagWindowOpen {s : State} {fn e} : exec (.diagWindowOpen fn e) s = execDiagWindowOpen fn e s := rfl
@[simp] theorem exec_diagWindowClose {s : State} {fn e} : exec (.diagWindowClose fn e) s = execDiagWindowClose fn e s := rfl
@[simp] theorem exec_linkTestStart {s : State} {fn e} : exec (.linkTestStart fn e) s = execLinkTestStart fn e s := rfl
@[simp] theorem exec_linkTestStop {s : State} {fn e lanes} : exec (.linkTestStop fn e lanes) s = execLinkTestStop fn e lanes s := rfl
@[simp] theorem exec_linkTestStatus {s : State} {fn e lanes} : exec (.linkTestStatus fn e lanes) s = execLinkTestStatus fn e lanes s := rfl
@[simp] theorem exec_linkTestDurationExpiry {s : State} {lanes} : exec (.linkTestDurationExpiry lanes) s = execLinkTestDurationExpiry lanes s := rfl
@[simp] theorem exec_controllerReset {s : State} {fn} : exec (.controllerReset fn) s = execControllerReset fn s := rfl
@[simp] theorem exec_controllerEnable {s : State} {fn wrr asqs acqs} : exec (.controllerEnable fn wrr asqs acqs) s = execControllerEnable fn wrr asqs acqs s := rfl
@[simp] theorem exec_functionLevelReset {s : State} {fn} : exec (.functionLevelReset fn) s = execFunctionLevelReset fn s := rfl
@[simp] theorem exec_nvmSubsystemReset {s : State} {here} : exec (.nvmSubsystemReset here) s = execNvmSubsystemReset here s := rfl
@[simp] theorem exec_shutdownNotification {s : State} {fn} : exec (.shutdownNotification fn) s = execShutdownNotification fn s := rfl
@[simp] theorem exec_kweLockRead {s : State} {c} : exec (.kweLockRead c) s = execKweLockRead c s := rfl
@[simp] theorem exec_kweLockWrite {s : State} {c v} : exec (.kweLockWrite c v) s = execKweLockWrite c v s := rfl
@[simp] theorem exec_kweGen {s : State} {c slot kek} : exec (.kweGen c slot kek) s = execKweGen c slot kek s := rfl
@[simp] theorem exec_kweWrap {s : State} {c slot kek} : exec (.kweWrap c slot kek) s = execKweWrap c slot kek s := rfl
@[simp] theorem exec_kweUnwrap {s : State} {c slot kek} : exec (.kweUnwrap c slot kek) s = execKweUnwrap c slot kek s := rfl
@[simp] theorem exec_kweZero {s : State} {c slot kek} : exec (.kweZero c slot kek) s = execKweZero c slot kek s := rfl
@[simp] theorem exec_kweSeal {s : State} {c slot kek} : exec (.kweSeal c slot kek) s = execKweSeal c slot kek s := rfl
@[simp] theorem exec_kweUnseal {s : State} {c slot kek} : exec (.kweUnseal c slot kek) s = execKweUnseal c slot kek s := rfl
@[simp] theorem exec_kweOperationDone {s : State} : exec (.kweOperationDone) s = execKweOperationDone s := rfl
@[simp] theorem exec_xtsNskWrite {s : State} {n v} : exec (.xtsNskWrite n v) s = execXtsNskWrite n v s := rfl
@[simp] theorem exec_entropyTestFail {s : State} {adaptive samples} : exec (.entropyTestFail adaptive samples) s = execEntropyTestFail adaptive samples s := rfl
@[simp] theorem exec_bootWatchdogExpiry {s : State} : exec (.bootWatchdogExpiry) s = execBootWatchdogExpiry s := rfl
@[simp] theorem exec_bootWatchdogStop {s : State} : exec (.bootWatchdogStop) s = execBootWatchdogStop s := rfl
@[simp] theorem exec_otpCommandGo {s : State} {target rrev srev} : exec (.otpCommandGo target rrev srev) s = execOtpCommandGo target rrev srev s := rfl
@[simp] theorem exec_otpProgramDone {s : State} {failed} : exec (.otpProgramDone failed) s = execOtpProgramDone failed s := rfl
@[simp] theorem exec_getVersion {s : State} {e} : exec (.getVersion e) s = execGetVersion e s := rfl
@[simp] theorem exec_getCapabilities {s : State} {e} : exec (.getCapabilities e) s = execGetCapabilities e s := rfl
@[simp] theorem exec_negotiateAlgorithms {s : State} {e asym hash} : exec (.negotiateAlgorithms e asym hash) s = execNegotiateAlgorithms e asym hash s := rfl
@[simp] theorem exec_getDigests {s : State} {e} : exec (.getDigests e) s = execGetDigests e s := rfl
@[simp] theorem exec_getCertificate {s : State} {e slot off len} : exec (.getCertificate e slot off len) s = execGetCertificate e slot off len s := rfl
@[simp] theorem exec_challenge {s : State} {e slot hash} : exec (.challenge e slot hash) s = execChallenge e slot hash s := rfl
@[simp] theorem exec_getMeasurements {s : State} {e index sign hash} : exec (.getMeasurements e index sign hash) s = execGetMeasurements e index sign hash s := rfl
@[simp] theorem exec_keyExchange {s : State} {e hash} : exec (.keyExchange e hash) s = execKeyExchange e hash s := rfl
@[simp] theorem exec_finish {s : State} {e session} : exec (.finish e session) s = execFinish e session s := rfl
@[simp] theorem exec_slhDsaSignatureRequest {s : State} {e op off len hash} : exec (.slhDsaSignatureRequest e op off len hash) s = execSlhDsaSignatureRequest e op off len hash s := rfl
@[simp] theorem exec_slhDsaSignDone {s : State} {e} : exec (.slhDsaSignDone e) s = execSlhDsaSignDone e s := rfl
@[simp] theorem exec_recoveryResetDelay {s : State} : exec (.recoveryResetDelay) s = execRecoveryResetDelay s := rfl
@[simp] theorem exec_readNvmeMiDataStructure {s : State} {b ty port ctl} : exec (.readNvmeMiDataStructure b ty port ctl) s = execReadNvmeMiDataStructure b ty port ctl s := rfl
@[simp] theorem exec_subsystemHealthStatusPoll {s : State} {b} : exec (.subsystemHealthStatusPoll b) s = execSubsystemHealthStatusPoll b s := rfl
@[simp] theorem exec_dmcCfgLock {s : State} {d v} : exec (.dmcCfgLock d v) s = execDmcCfgLock d v s := rfl
@[simp] theorem exec_dmaCopy {s : State} {d c} : exec (.dmaCopy d c) s = execDmaCopy d c s := rfl
@[simp] theorem exec_dmaFill {s : State} {d c} : exec (.dmaFill d c) s = execDmaFill d c s := rfl
@[simp] theorem exec_dmaCheck {s : State} {d c} : exec (.dmaCheck d c) s = execDmaCheck d c s := rfl
@[simp] theorem exec_dmaDone {s : State} {d c bad} : exec (.dmaDone d c bad) s = execDmaDone d c bad s := rfl
@[simp] theorem exec_dramPatrolScrub {s : State} {a rank dev syms ue dirty} : exec (.dramPatrolScrub a rank dev syms ue dirty) s = execDramPatrolScrub a rank dev syms ue dirty s := rfl
@[simp] theorem exec_mergeWritebackTimeout {s : State} {d line} : exec (.mergeWritebackTimeout d line) s = execMergeWritebackTimeout d line s := rfl
@[simp] theorem exec_mramCoreStore {s : State} {c a size v w} : exec (.mramCoreStore c a size v w) s = execMramCoreStore c a size v w s := rfl
@[simp] theorem exec_pstateRequest {s : State} {mode} : exec (.pstateRequest mode) s = execPstateRequest mode s := rfl
@[simp] theorem exec_modeTransitionDone {s : State} : exec (.modeTransitionDone) s = execModeTransitionDone s := rfl
@[simp] theorem exec_wakeEvent {s : State} {src bad dramFail slotBad} : exec (.wakeEvent src bad dramFail slotBad) s = execWakeEvent src bad dramFail slotBad s := rfl
@[simp] theorem exec_wakeTimerExpiry {s : State} : exec (.wakeTimerExpiry) s = execWakeTimerExpiry s := rfl
@[simp] theorem exec_avsStep {s : State} {mv acked} : exec (.avsStep mv acked) s = execAvsStep mv acked s := rfl
@[simp] theorem exec_pwrcapAssert {s : State} : exec (.pwrcapAssert) s = execPwrcapAssert s := rfl
@[simp] theorem exec_pwrcapRelease {s : State} : exec (.pwrcapRelease) s = execPwrcapRelease s := rfl
@[simp] theorem exec_thermalTrip {s : State} : exec (.thermalTrip) s = execThermalTrip s := rfl
@[simp] theorem exec_powerLoss {s : State} : exec (.powerLoss) s = execPowerLoss s := rfl
@[simp] theorem exec_powerLossSequenceEnd {s : State} {pliHigh} : exec (.powerLossSequenceEnd pliHigh) s = execPowerLossSequenceEnd pliHigh s := rfl
@[simp] theorem exec_hucfgWrite {s : State} {v} : exec (.hucfgWrite v) s = execHucfgWrite v s := rfl
@[simp] theorem exec_vukLinkEnable {s : State} {v w4ok} : exec (.vukLinkEnable v w4ok) s = execVukLinkEnable v w4ok s := rfl
@[simp] theorem exec_vukTrainingRetry {s : State} {v} : exec (.vukTrainingRetry v) s = execVukTrainingRetry v s := rfl
@[simp] theorem exec_hello {s : State} {v peerMaster node casc serial lanes4} : exec (.hello v peerMaster node casc serial lanes4) s = execHello v peerMaster node casc serial lanes4 s := rfl
@[simp] theorem exec_linkAuthentication {s : State} {v ok} : exec (.linkAuthentication v ok) s = execLinkAuthentication v ok s := rfl
@[simp] theorem exec_linkKeyRenewal {s : State} {v} : exec (.linkKeyRenewal v) s = execLinkKeyRenewal v s := rfl
@[simp] theorem exec_vukoroFrame {s : State} {v seq fec auth} : exec (.vukoroFrame v seq fec auth) s = execVukoroFrame v seq fec auth s := rfl
@[simp] theorem exec_enum {s : State} {v id claims} : exec (.enum v id claims) s = execEnum v id claims s := rfl
@[simp] theorem exec_dupmaster {s : State} {v} : exec (.dupmaster v) s = execDupmaster v s := rfl
@[simp] theorem exec_nodeList {s : State} {nodes ring lost} : exec (.nodeList nodes ring lost) s = execNodeList nodes ring lost s := rfl
@[simp] theorem exec_memberReady {s : State} {node linkUp} : exec (.memberReady node linkUp) s = execMemberReady node linkUp s := rfl
@[simp] theorem exec_csyncPulse {s : State} {sec err} : exec (.csyncPulse sec err) s = execCsyncPulse sec err s := rfl
@[simp] theorem exec_timeOrderedSet {s : State} {t err} : exec (.timeOrderedSet t err) s = execTimeOrderedSet t err s := rfl
@[simp] theorem exec_forwardedCommand {s : State} {k tag ten e pair bad} : exec (.forwardedCommand k tag ten e pair bad) s = execForwardedCommand k tag ten e pair bad s := rfl
@[simp] theorem exec_forwardedCompletion {s : State} {admin tag st dw0 dw1 data blocks} : exec (.forwardedCompletion admin tag st dw0 dw1 data blocks) s = execForwardedCompletion admin tag st dw0 dw1 data blocks s := rfl
@[simp] theorem exec_pathFailureReroute {s : State} {node dir} : exec (.pathFailureReroute node dir) s = execPathFailureReroute node dir s := rfl
@[simp] theorem exec_memberLossTimeout {s : State} {node} : exec (.memberLossTimeout node) s = execMemberLossTimeout node s := rfl
@[simp] theorem exec_memberFaultReport {s : State} {node} : exec (.memberFaultReport node) s = execMemberFaultReport node s := rfl
@[simp] theorem exec_orphanTimeout {s : State} : exec (.orphanTimeout) s = execOrphanTimeout s := rfl
@[simp] theorem exec_entdaa {s : State} {addr} : exec (.entdaa addr) s = execEntdaa addr s := rfl
@[simp] theorem exec_setdasa {s : State} {addr} : exec (.setdasa addr) s = execSetdasa addr s := rfl
@[simp] theorem exec_rstdaa {s : State} : exec (.rstdaa) s = execRstdaa s := rfl
@[simp] theorem exec_arpAssignAddress {s : State} {addr} : exec (.arpAssignAddress addr) s = execArpAssignAddress addr s := rfl
@[simp] theorem exec_smbusTransaction {s : State} : exec (.smbusTransaction) s = execSmbusTransaction s := rfl
@[simp] theorem exec_setEndpointId {s : State} {b eid} : exec (.setEndpointId b eid) s = execSetEndpointId b eid s := rfl
@[simp] theorem exec_evpostWrite {s : State} {c v} : exec (.evpostWrite c v) s = execEvpostWrite c v s := rfl
@[simp] theorem exec_eventRecordArrival {s : State} {src} : exec (.eventRecordArrival src) s = execEventRecordArrival src s := rfl
@[simp] theorem exec_eventFlushDone {s : State} : exec (.eventFlushDone) s = execEventFlushDone s := rfl
@[simp] theorem exec_rateWindowEnd {s : State} : exec (.rateWindowEnd) s = execRateWindowEnd s := rfl
@[simp] theorem exec_freezeTimeout {s : State} : exec (.freezeTimeout) s = execFreezeTimeout s := rfl
@[simp] theorem exec_temperatureSample {s : State} {ts} : exec (.temperatureSample ts) s = execTemperatureSample ts s := rfl
@[simp] theorem exec_voltageSample {s : State} {mvs} : exec (.voltageSample mvs) s = execVoltageSample mvs s := rfl
@[simp] theorem exec_ringOscGate {s : State} {counts} : exec (.ringOscGate counts) s = execRingOscGate counts s := rfl
@[simp] theorem exec_claimWrite {s : State} {k ix id} : exec (.claimWrite k ix id) s = execClaimWrite k ix id s := rfl
@[simp] theorem exec_claimRelease {s : State} {k ix id} : exec (.claimRelease k ix id) s = execClaimRelease k ix id s := rfl
@[simp] theorem exec_tapReset {s : State} : exec (.tapReset) s = execTapReset s := rfl
@[simp] theorem exec_extest {s : State} {v} : exec (.extest v) s = execExtest v s := rfl
@[simp] theorem exec_idcode {s : State} : exec (.idcode) s = execIdcode s := rfl
@[simp] theorem exec_samplePreload {s : State} {v} : exec (.samplePreload v) s = execSamplePreload v s := rfl
@[simp] theorem exec_highz {s : State} : exec (.highz) s = execHighz s := rfl
@[simp] theorem exec_clamp {s : State} : exec (.clamp) s = execClamp s := rfl
@[simp] theorem exec_extestPulse {s : State} : exec (.extestPulse) s = execExtestPulse s := rfl
@[simp] theorem exec_extestTrain {s : State} : exec (.extestTrain) s = execExtestTrain s := rfl
@[simp] theorem exec_dbgaccess {s : State} {a size w} : exec (.dbgaccess a size w) s = execDbgaccess a size w s := rfl
@[simp] theorem exec_jtagMbist {s : State} {v} : exec (.jtagMbist v) s = execJtagMbist v s := rfl
@[simp] theorem exec_bypass {s : State} : exec (.bypass) s = execBypass s := rfl
@[simp] theorem exec_mbistGo {s : State} {q isl mem bank} : exec (.mbistGo q isl mem bank) s = execMbistGo q isl mem bank s := rfl
@[simp] theorem exec_mbistDone {s : State} {failAt} : exec (.mbistDone failAt) s = execMbistDone failAt s := rfl
@[simp] theorem exec_minimumRunTimeElapsed {s : State} {d} : exec (.minimumRunTimeElapsed d) s = execMinimumRunTimeElapsed d s := rfl
@[simp] theorem exec_formationResetDelay {s : State} : exec (.formationResetDelay) s = execFormationResetDelay s := rfl
@[simp] theorem exec_entropyRestartTestPass {s : State} : exec (.entropyRestartTestPass) s = execEntropyRestartTestPass s := rfl
@[simp] theorem exec_entropyWaitTimeout {s : State} : exec (.entropyWaitTimeout) s = execEntropyWaitTimeout s := rfl
@[simp] theorem exec_patternCheckerLostLock {s : State} {lane} : exec (.patternCheckerLostLock lane) s = execPatternCheckerLostLock lane s := rfl
@[simp] theorem exec_linkPowerStateChange {s : State} {p lps} : exec (.linkPowerStateChange p lps) s = execLinkPowerStateChange p lps s := rfl
@[simp] theorem exec_interruptCoalescingTimeout {s : State} {fn cq} : exec (.interruptCoalescingTimeout fn cq) s = execInterruptCoalescingTimeout fn cq s := rfl
@[simp] theorem exec_generalTimerExpiry {s : State} {t} : exec (.generalTimerExpiry t) s = execGeneralTimerExpiry t s := rfl
@[simp] theorem exec_endSession {s : State} {e session} : exec (.endSession e session) s = execEndSession e session s := rfl
@[simp] theorem exec_vukoroLinkDown {s : State} {v} : exec (.vukoroLinkDown v) s = execVukoroLinkDown v s := rfl
@[simp] theorem exec_coreStore {s : State} {c a size v ue} : exec (.coreStore c a size v ue) s = execCoreStore c a size v ue s := rfl

end Sys2Proof.Machine
end

