-- ==== Sys2Proof/Laws/Access.lean ====
section
/-! SUPPORT. Fabric accesses: one that reaches its island runs. -/

namespace Sys2Proof.Machine

/-- An access that reaches its island runs. -/
theorem State.access_run {s : State} {q : Requester} {isl off size : Nat} (store : Bool) (run : State → State)
    (h : s.reaches q isl off size) : s.access q store isl off size run = run s := by
  obtain ⟨h1, h2, h3, h4, h5⟩ := h
  unfold State.access
  split
  · simp_all
  split
  · simp_all
  split
  · exact absurd (by assumption) (by rw [h3]; decide)
  split
  · rename_i h
    exact absurd h (not_or.mpr ⟨Nat.not_lt.mpr h4, not_not.mpr h5⟩)
  rfl

/-- A word of less than 2^32 is its own remainder. -/
theorem word_mod (v : W32) : v.toNat % 2 ^ 32 = v.toNat := Nat.mod_eq_of_lt v.isLt

/-- A write of one word that reaches its island, elsewhere than in the broadcast window. -/
theorem State.csrWrite_word {s : State} {q : Requester} {isl off : Nat} (v : Nat) (h : s.reaches q isl off 2)
    (hb : ¬(isl = 0x30 ∧ 0x80000 ≤ off)) : s.csrWrite q isl off 2 v = s.wordWrite q isl off (v % 2 ^ 32) := by
  unfold State.csrWrite
  rw [State.access_run _ _ h]
  simp only [if_neg hb, ↓reduceIte]

/-- A read of one word that reaches its island. -/
theorem State.csrRead_word {s : State} {q : Requester} {isl off : Nat} (h : s.reaches q isl off 2) :
    s.csrRead q isl off 2 = (s.wordRead q isl off).2.answer q (BitVec.ofNat 64 (s.wordRead q isl off).1) := by
  unfold State.csrRead
  rw [State.access_run _ _ h]
  generalize s.wordRead q isl off = p
  obtain ⟨lo, t⟩ := p
  simp only [↓reduceIte]

end Sys2Proof.Machine
end

