-- ==== Sys2Proof/Laws/Table.lean ====
section
/-! SUPPORT. Sparse tables: what a lookup finds after a write, a removal or a filter. -/

namespace Sys2Proof.Machine

@[simp] theorem Tab.find_nil {α : Type} (x : Nat) : Tab.find ([] : Tab α) x = none := rfl

@[simp] theorem Tab.find_set_self {α : Type} (t : Tab α) (x : Nat) (a : α) : Tab.find (Tab.set t x a) x = some a := by
  induction t with
  | nil => simp [Tab.set, Tab.find]
  | cons e t ih =>
    obtain ⟨k, v⟩ := e
    simp only [Tab.set]
    split
    · simp [Tab.find]
    · split
      · simp_all [Tab.find]
      · rename_i h
        simp [Tab.find, ih, Ne.symm h]

theorem Tab.find_set_ne {α : Type} (t : Tab α) {x y : Nat} (a : α) (h : y ≠ x) :
    Tab.find (Tab.set t x a) y = Tab.find t y := by
  induction t with
  | nil => simp [Tab.set, Tab.find, Ne.symm h]
  | cons e t ih =>
    obtain ⟨k, v⟩ := e
    simp only [Tab.set]
    split
    · simp [Tab.find, Ne.symm h]
    · split
      · rename_i h2
        subst h2
        simp [Tab.find, Ne.symm h]
      · simp [Tab.find, ih]

theorem Tab.find_erase_ne {α : Type} (t : Tab α) {x y : Nat} (h : y ≠ x) : Tab.find (Tab.erase t x) y = Tab.find t y := by
  induction t with
  | nil => rfl
  | cons e t ih =>
    obtain ⟨k, v⟩ := e
    simp only [Tab.erase]
    split
    · rename_i h2
      subst h2
      simp [Tab.find, Ne.symm h]
    · simp [Tab.find, ih]

@[simp] theorem Tab.getD_set_self {α : Type} (t : Tab α) (x : Nat) (a d : α) : Tab.getD (Tab.set t x a) x d = a := by
  simp [Tab.getD]

theorem Tab.getD_set_ne {α : Type} (t : Tab α) {x y : Nat} (a d : α) (h : y ≠ x) :
    Tab.getD (Tab.set t x a) y d = Tab.getD t y d := by
  simp [Tab.getD, Tab.find_set_ne t a h]

theorem Tab.getD_erase_ne {α : Type} (t : Tab α) {x y : Nat} (d : α) (h : y ≠ x) :
    Tab.getD (Tab.erase t x) y d = Tab.getD t y d := by
  simp [Tab.getD, Tab.find_erase_ne t h]

theorem Tab.find_none_of_lt {α : Type} {t : Tab α} {x : Nat} (h : ∀ e ∈ t, x < e.1) : Tab.find t x = none := by
  induction t with
  | nil => rfl
  | cons e t ih =>
    obtain ⟨k, v⟩ := e
    have hk : x < k := h _ (List.mem_cons_self ..)
    simp only [Tab.find, if_neg (Nat.ne_of_gt hk)]
    exact ih fun e he => h e (List.mem_cons_of_mem _ he)

theorem Tab.mem_set {α : Type} {t : Tab α} {x : Nat} {a : α} {e : Nat × α} (h : e ∈ Tab.set t x a) : e = (x, a) ∨ e ∈ t := by
  induction t with
  | nil => simp_all [Tab.set]
  | cons c t ih =>
    obtain ⟨k, v⟩ := c
    simp only [Tab.set] at h
    split at h
    · simp_all
    · split at h
      · rename_i h2
        subst h2
        simp only [List.mem_cons] at h ⊢
        tauto
      · simp only [List.mem_cons] at h ⊢
        rcases h with h | h
        · exact .inr (.inl h)
        · rcases ih h with h | h
          · exact .inl h
          · exact .inr (.inr h)

theorem Tab.mem_erase {α : Type} {t : Tab α} {x : Nat} {e : Nat × α} (h : e ∈ Tab.erase t x) : e ∈ t := by
  induction t with
  | nil => exact h
  | cons c t ih =>
    obtain ⟨k, v⟩ := c
    simp only [Tab.erase] at h
    split at h
    · exact List.mem_cons_of_mem _ h
    · simp only [List.mem_cons] at h ⊢
      exact h.imp id ih

/-- A table in rising key order. -/
def Tab.Sorted {α : Type} (t : Tab α) : Prop := t.Pairwise fun a b => a.1 < b.1

theorem Tab.Sorted.set {α : Type} {t : Tab α} (h : Tab.Sorted t) (x : Nat) (a : α) : Tab.Sorted (Tab.set t x a) := by
  unfold Tab.Sorted at *
  induction t with
  | nil => simp [Tab.set]
  | cons c t ih =>
    obtain ⟨k, v⟩ := c
    obtain ⟨h1, h2⟩ := List.pairwise_cons.mp h
    simp only [Tab.set]
    split
    · rename_i hx
      refine List.pairwise_cons.mpr ⟨fun e he => ?_, h⟩
      rcases List.mem_cons.mp he with rfl | he
      · exact hx
      · exact Nat.lt_trans hx (h1 e he)
    · split
      · exact List.pairwise_cons.mpr ⟨h1, h2⟩
      · rename_i hlt hne
        refine List.pairwise_cons.mpr ⟨fun e he => ?_, ih h2⟩
        rcases Tab.mem_set he with rfl | he
        · exact Nat.lt_of_le_of_ne (Nat.le_of_not_lt hlt) (Ne.symm hne)
        · exact h1 e he

theorem Tab.Sorted.erase {α : Type} {t : Tab α} (h : Tab.Sorted t) (x : Nat) : Tab.Sorted (Tab.erase t x) := by
  unfold Tab.Sorted at *
  induction t with
  | nil => simp [Tab.erase]
  | cons c t ih =>
    obtain ⟨k, v⟩ := c
    obtain ⟨h1, h2⟩ := List.pairwise_cons.mp h
    simp only [Tab.erase]
    split
    · exact h2
    · exact List.pairwise_cons.mpr ⟨fun e he => h1 e (Tab.mem_erase he), ih h2⟩

theorem Tab.Sorted.find_erase_self {α : Type} {t : Tab α} (h : Tab.Sorted t) (x : Nat) : Tab.find (Tab.erase t x) x = none := by
  unfold Tab.Sorted at *
  induction t with
  | nil => rfl
  | cons c t ih =>
    obtain ⟨k, v⟩ := c
    obtain ⟨h1, h2⟩ := List.pairwise_cons.mp h
    simp only [Tab.erase]
    split
    · rename_i hk
      subst hk
      exact Tab.find_none_of_lt h1
    · rename_i hk
      simp [Tab.find, hk, ih h2]

theorem Tab.Sorted.filter {α : Type} {t : Tab α} (h : Tab.Sorted t) (p : Nat × α → Bool) : Tab.Sorted (t.filter p) :=
  List.Pairwise.filter p h

end Sys2Proof.Machine
end

