-- ==== Sys2Proof/Laws/Memory.lean ====
section
/-! SUPPORT. Byte memory: every operation keeps the canonical form; what a byte reads as after a write. -/

namespace Sys2Proof.Machine

/-- The canonical form: rising addresses, no byte listed that an unlisted address reads as. -/
theorem Memory.wf_iff (m : List Host.Cell) : Memory.wf m = true ↔ Tab.Sorted m ∧ ∀ c ∈ m, c.2 ≠ 0 := by
  unfold Tab.Sorted
  induction m with
  | nil => simp [Memory.wf]
  | cons c m ih =>
    obtain ⟨a, b⟩ := c
    cases m with
    | nil => simp [Memory.wf]
    | cons d m =>
      obtain ⟨a', b'⟩ := d
      simp only [Memory.wf, Bool.and_eq_true, decide_eq_true_eq, bne_iff_ne, ih]
      constructor
      · rintro ⟨⟨hb, ha⟩, hp, hz⟩
        refine ⟨List.pairwise_cons.mpr ⟨fun e he => ?_, hp⟩, fun e he => ?_⟩
        · rcases List.mem_cons.mp he with rfl | he
          · exact ha
          · exact Nat.lt_trans ha ((List.pairwise_cons.mp hp).1 e he)
        · rcases List.mem_cons.mp he with rfl | he
          · exact hb
          · exact hz e he
      · rintro ⟨hp, hz⟩
        obtain ⟨h1, h2⟩ := List.pairwise_cons.mp hp
        exact ⟨⟨hz (a, b) (List.mem_cons_self ..), h1 (a', b') (List.mem_cons_self ..)⟩, h2, fun e he => hz e (List.mem_cons_of_mem _ he)⟩

theorem Memory.write_wf {m : List Host.Cell} (h : Memory.wf m = true) (a : Nat) (b : Byte) :
    Memory.wf (Memory.write m a b) = true := by
  rw [Memory.wf_iff] at *
  obtain ⟨hs, hz⟩ := h
  unfold Memory.write
  split
  · exact ⟨hs.erase a, fun c hc => hz c (Tab.mem_erase hc)⟩
  · rename_i hb
    refine ⟨hs.set a b, fun c hc => ?_⟩
    rcases Tab.mem_set hc with rfl | hc
    · exact hb
    · exact hz c hc

theorem Memory.writeBytes_wf {m : List Host.Cell} (h : Memory.wf m = true) (a : Nat) (bs : List Byte) :
    Memory.wf (Memory.writeBytes m a bs) = true := by
  induction bs generalizing m a with
  | nil => exact h
  | cons b bs ih => exact ih (Memory.write_wf h a b) (a + 1)

theorem Memory.filter_wf {m : List Host.Cell} (h : Memory.wf m = true) (p : Host.Cell → Bool) :
    Memory.wf (m.filter p) = true := by
  rw [Memory.wf_iff] at *
  exact ⟨h.1.filter p, fun c hc => h.2 c (List.mem_filter.mp hc).1⟩

theorem Memory.clear_wf {m : List Host.Cell} (h : Memory.wf m = true) (lo hi : Nat) : Memory.wf (Memory.clear m lo hi) = true :=
  Memory.filter_wf h _

/-- A written byte reads as written. -/
theorem Memory.read_write_self {m : List Host.Cell} (h : Memory.wf m = true) (a : Nat) (b : Byte) :
    Memory.read (Memory.write m a b) a = b := by
  unfold Memory.read Memory.write Tab.getD
  split
  · rename_i hb
    rw [((Memory.wf_iff m).mp h).1.find_erase_self, hb]
    rfl
  · simp

/-- A write leaves every other byte. -/
theorem Memory.read_write_ne (m : List Host.Cell) {a x : Nat} (b : Byte) (h : x ≠ a) :
    Memory.read (Memory.write m a b) x = Memory.read m x := by
  unfold Memory.read Memory.write
  split
  · exact Tab.getD_erase_ne m 0 h
  · exact Tab.getD_set_ne m b 0 h

/-- Writing bytes leaves every byte outside them. -/
theorem Memory.read_writeBytes_out (m : List Host.Cell) (a : Nat) (bs : List Byte) {x : Nat} (h : x < a ∨ a + bs.length ≤ x) :
    Memory.read (Memory.writeBytes m a bs) x = Memory.read m x := by
  induction bs generalizing m a with
  | nil => rfl
  | cons b bs ih =>
    simp only [List.length_cons] at h
    exact (ih _ (a + 1) (by omega)).trans (Memory.read_write_ne m b (by omega))

/-- The bytes written read as written. -/
theorem Memory.read_writeBytes_in {m : List Host.Cell} (hm : Memory.wf m = true) (a : Nat) (bs : List Byte) {i : Nat}
    (h : i < bs.length) : Memory.read (Memory.writeBytes m a bs) (a + i) = bs[i] := by
  induction bs generalizing m a i with
  | nil => simp at h
  | cons b bs ih =>
    cases i with
    | zero => exact (Memory.read_writeBytes_out _ (a + 1) bs (by omega)).trans (Memory.read_write_self hm a b)
    | succ i =>
      have := ih (Memory.write_wf hm a b) (a + 1) (i := i) (by simpa using h)
      rw [show a + 1 + i = a + (i + 1) by omega] at this
      exact this

theorem Tab.find_filter {α : Type} {t : Tab α} (h : Tab.Sorted t) (p : Nat → Bool) (x : Nat) :
    Tab.find (t.filter fun e => p e.1) x = if p x then Tab.find t x else none := by
  unfold Tab.Sorted at h
  induction t with
  | nil => simp
  | cons e t ih =>
    obtain ⟨k, v⟩ := e
    obtain ⟨h1, h2⟩ := List.pairwise_cons.mp h
    have ih := ih h2
    by_cases hk : k = x
    · subst hk
      by_cases hp : p k = true
      · simp [Tab.find, hp]
      · simp only [List.filter_cons, hp, if_neg (by simp : ¬ (false = true)), Bool.false_eq_true, if_false] at *
        simpa using ih
    · by_cases hp : p k = true
      · simp [Tab.find, hp, hk, ih]
      · simp [Tab.find, hp, hk, ih]

/-- Clearing a range makes it read as 0 and leaves every other byte. -/
theorem Memory.read_clear {m : List Host.Cell} (h : Memory.wf m = true) (lo hi x : Nat) :
    Memory.read (Memory.clear m lo hi) x = if lo ≤ x ∧ x < hi then 0 else Memory.read m x := by
  unfold Memory.read Memory.clear Tab.getD
  rw [Tab.find_filter ((Memory.wf_iff m).mp h).1 fun a => a < lo || hi ≤ a]
  by_cases hx : lo ≤ x ∧ x < hi
  · have : (decide (x < lo) || decide (hi ≤ x)) = false := by simp; omega
    simp [this, hx]
  · have : (decide (x < lo) || decide (hi ≤ x)) = true := by simp; omega
    simp [this, hx]

@[simp] theorem State.store_mem (s : State) (a : Nat) (bs : List Byte) : (s.store a bs).mem = Memory.writeBytes s.mem a bs := rfl

end Sys2Proof.Machine
end

