-- ==== Sys2Proof/Laws/State.lean ====
section
/-! SUPPORT. What each named update of the state does to each of its fields: to its own, the value it is given; to every other, nothing. -/

namespace Sys2Proof.Machine

variable (s : State)

@[simp] theorem State.setWord_pending (k : Nat) (w : W64) : (s.setWord k w).pending = s.pending := rfl
@[simp] theorem State.setWord_now (k : Nat) (w : W64) : (s.setWord k w).now = s.now := rfl
@[simp] theorem State.setWord_csr (k : Nat) (w : W64) : (s.setWord k w).csr = Tab.set s.csr k w := rfl
@[simp] theorem State.setWord_latch (k : Nat) (w : W64) : (s.setWord k w).latch = s.latch := rfl
@[simp] theorem State.setWord_shadow (k : Nat) (w : W64) : (s.setWord k w).shadow = s.shadow := rfl
@[simp] theorem State.setWord_mem (k : Nat) (w : W64) : (s.setWord k w).mem = s.mem := rfl
@[simp] theorem State.setWord_straps (k : Nat) (w : W64) : (s.setWord k w).straps = s.straps := rfl
@[simp] theorem State.setWord_pins (k : Nat) (w : W64) : (s.setWord k w).pins = s.pins := rfl
@[simp] theorem State.setWord_xb (k : Nat) (w : W64) : (s.setWord k w).xb = s.xb := rfl
@[simp] theorem State.setWord_cores (k : Nat) (w : W64) : (s.setWord k w).cores = s.cores := rfl
@[simp] theorem State.setWord_fab (k : Nat) (w : W64) : (s.setWord k w).fab = s.fab := rfl
@[simp] theorem State.setWord_traps (k : Nat) (w : W64) : (s.setWord k w).traps = s.traps := rfl
@[simp] theorem State.setWord_resp (k : Nat) (w : W64) : (s.setWord k w).resp = s.resp := rfl
@[simp] theorem State.setWord_evr (k : Nat) (w : W64) : (s.setWord k w).evr = s.evr := rfl
@[simp] theorem State.setWord_mgt (k : Nat) (w : W64) : (s.setWord k w).mgt = s.mgt := rfl
@[simp] theorem State.setWord_mram (k : Nat) (w : W64) : (s.setWord k w).mram = s.mram := rfl
@[simp] theorem State.setWord_dram (k : Nat) (w : W64) : (s.setWord k w).dram = s.dram := rfl
@[simp] theorem State.setWord_power (k : Nat) (w : W64) : (s.setWord k w).power = s.power := rfl
@[simp] theorem State.setWord_zne (k : Nat) (w : W64) : (s.setWord k w).zne = s.zne := rfl
@[simp] theorem State.setWord_hif (k : Nat) (w : W64) : (s.setWord k w).hif = s.hif := rfl
@[simp] theorem State.setWord_sec (k : Nat) (w : W64) : (s.setWord k w).sec = s.sec := rfl
@[simp] theorem State.setWord_lpe (k : Nat) (w : W64) : (s.setWord k w).lpe = s.lpe := rfl
@[simp] theorem State.setWord_seqs (k : Nat) (w : W64) : (s.setWord k w).seqs = s.seqs := rfl
@[simp] theorem State.setWord_boot (k : Nat) (w : W64) : (s.setWord k w).boot = s.boot := rfl
@[simp] theorem State.setWord_casc (k : Nat) (w : W64) : (s.setWord k w).casc = s.casc := rfl
@[simp] theorem State.setWord_free (k : Nat) (w : W64) : (s.setWord k w).free = s.free := rfl

@[simp] theorem State.setFld_pending (f : Fld) (v : Nat) : (s.setFld f v).pending = s.pending := rfl
@[simp] theorem State.setFld_now (f : Fld) (v : Nat) : (s.setFld f v).now = s.now := rfl
@[simp] theorem State.setFld_csr (f : Fld) (v : Nat) : (s.setFld f v).csr = Tab.set s.csr f.addr (fldPut f (s.word f.addr) v) := rfl
@[simp] theorem State.setFld_latch (f : Fld) (v : Nat) : (s.setFld f v).latch = s.latch := rfl
@[simp] theorem State.setFld_shadow (f : Fld) (v : Nat) : (s.setFld f v).shadow = s.shadow := rfl
@[simp] theorem State.setFld_mem (f : Fld) (v : Nat) : (s.setFld f v).mem = s.mem := rfl
@[simp] theorem State.setFld_straps (f : Fld) (v : Nat) : (s.setFld f v).straps = s.straps := rfl
@[simp] theorem State.setFld_pins (f : Fld) (v : Nat) : (s.setFld f v).pins = s.pins := rfl
@[simp] theorem State.setFld_xb (f : Fld) (v : Nat) : (s.setFld f v).xb = s.xb := rfl
@[simp] theorem State.setFld_cores (f : Fld) (v : Nat) : (s.setFld f v).cores = s.cores := rfl
@[simp] theorem State.setFld_fab (f : Fld) (v : Nat) : (s.setFld f v).fab = s.fab := rfl
@[simp] theorem State.setFld_traps (f : Fld) (v : Nat) : (s.setFld f v).traps = s.traps := rfl
@[simp] theorem State.setFld_resp (f : Fld) (v : Nat) : (s.setFld f v).resp = s.resp := rfl
@[simp] theorem State.setFld_evr (f : Fld) (v : Nat) : (s.setFld f v).evr = s.evr := rfl
@[simp] theorem State.setFld_mgt (f : Fld) (v : Nat) : (s.setFld f v).mgt = s.mgt := rfl
@[simp] theorem State.setFld_mram (f : Fld) (v : Nat) : (s.setFld f v).mram = s.mram := rfl
@[simp] theorem State.setFld_dram (f : Fld) (v : Nat) : (s.setFld f v).dram = s.dram := rfl
@[simp] theorem State.setFld_power (f : Fld) (v : Nat) : (s.setFld f v).power = s.power := rfl
@[simp] theorem State.setFld_zne (f : Fld) (v : Nat) : (s.setFld f v).zne = s.zne := rfl
@[simp] theorem State.setFld_hif (f : Fld) (v : Nat) : (s.setFld f v).hif = s.hif := rfl
@[simp] theorem State.setFld_sec (f : Fld) (v : Nat) : (s.setFld f v).sec = s.sec := rfl
@[simp] theorem State.setFld_lpe (f : Fld) (v : Nat) : (s.setFld f v).lpe = s.lpe := rfl
@[simp] theorem State.setFld_seqs (f : Fld) (v : Nat) : (s.setFld f v).seqs = s.seqs := rfl
@[simp] theorem State.setFld_boot (f : Fld) (v : Nat) : (s.setFld f v).boot = s.boot := rfl
@[simp] theorem State.setFld_casc (f : Fld) (v : Nat) : (s.setFld f v).casc = s.casc := rfl
@[simp] theorem State.setFld_free (f : Fld) (v : Nat) : (s.setFld f v).free = s.free := rfl

@[simp] theorem State.store_pending (a : Nat) (bs : List Byte) : (s.store a bs).pending = s.pending := rfl
@[simp] theorem State.store_now (a : Nat) (bs : List Byte) : (s.store a bs).now = s.now := rfl
@[simp] theorem State.store_csr (a : Nat) (bs : List Byte) : (s.store a bs).csr = s.csr := rfl
@[simp] theorem State.store_latch (a : Nat) (bs : List Byte) : (s.store a bs).latch = s.latch := rfl
@[simp] theorem State.store_shadow (a : Nat) (bs : List Byte) : (s.store a bs).shadow = s.shadow := rfl
@[simp] theorem State.store_straps (a : Nat) (bs : List Byte) : (s.store a bs).straps = s.straps := rfl
@[simp] theorem State.store_pins (a : Nat) (bs : List Byte) : (s.store a bs).pins = s.pins := rfl
@[simp] theorem State.store_xb (a : Nat) (bs : List Byte) : (s.store a bs).xb = s.xb := rfl
@[simp] theorem State.store_cores (a : Nat) (bs : List Byte) : (s.store a bs).cores = s.cores := rfl
@[simp] theorem State.store_fab (a : Nat) (bs : List Byte) : (s.store a bs).fab = s.fab := rfl
@[simp] theorem State.store_traps (a : Nat) (bs : List Byte) : (s.store a bs).traps = s.traps := rfl
@[simp] theorem State.store_resp (a : Nat) (bs : List Byte) : (s.store a bs).resp = s.resp := rfl
@[simp] theorem State.store_evr (a : Nat) (bs : List Byte) : (s.store a bs).evr = s.evr := rfl
@[simp] theorem State.store_mgt (a : Nat) (bs : List Byte) : (s.store a bs).mgt = s.mgt := rfl
@[simp] theorem State.store_mram (a : Nat) (bs : List Byte) : (s.store a bs).mram = s.mram := rfl
@[simp] theorem State.store_dram (a : Nat) (bs : List Byte) : (s.store a bs).dram = s.dram := rfl
@[simp] theorem State.store_power (a : Nat) (bs : List Byte) : (s.store a bs).power = s.power := rfl
@[simp] theorem State.store_zne (a : Nat) (bs : List Byte) : (s.store a bs).zne = s.zne := rfl
@[simp] theorem State.store_hif (a : Nat) (bs : List Byte) : (s.store a bs).hif = s.hif := rfl
@[simp] theorem State.store_sec (a : Nat) (bs : List Byte) : (s.store a bs).sec = s.sec := rfl
@[simp] theorem State.store_lpe (a : Nat) (bs : List Byte) : (s.store a bs).lpe = s.lpe := rfl
@[simp] theorem State.store_seqs (a : Nat) (bs : List Byte) : (s.store a bs).seqs = s.seqs := rfl
@[simp] theorem State.store_boot (a : Nat) (bs : List Byte) : (s.store a bs).boot = s.boot := rfl
@[simp] theorem State.store_casc (a : Nat) (bs : List Byte) : (s.store a bs).casc = s.casc := rfl
@[simp] theorem State.store_free (a : Nat) (bs : List Byte) : (s.store a bs).free = s.free := rfl

@[simp] theorem State.trap_pending (c : Nat) (k : TrapKind) (a : Nat) : (s.trap c k a).pending = s.pending := rfl
@[simp] theorem State.trap_now (c : Nat) (k : TrapKind) (a : Nat) : (s.trap c k a).now = s.now := rfl
@[simp] theorem State.trap_csr (c : Nat) (k : TrapKind) (a : Nat) : (s.trap c k a).csr = s.csr := rfl
@[simp] theorem State.trap_latch (c : Nat) (k : TrapKind) (a : Nat) : (s.trap c k a).latch = s.latch := rfl
@[simp] theorem State.trap_shadow (c : Nat) (k : TrapKind) (a : Nat) : (s.trap c k a).shadow = s.shadow := rfl
@[simp] theorem State.trap_mem (c : Nat) (k : TrapKind) (a : Nat) : (s.trap c k a).mem = s.mem := rfl
@[simp] theorem State.trap_straps (c : Nat) (k : TrapKind) (a : Nat) : (s.trap c k a).straps = s.straps := rfl
@[simp] theorem State.trap_pins (c : Nat) (k : TrapKind) (a : Nat) : (s.trap c k a).pins = s.pins := rfl
@[simp] theorem State.trap_xb (c : Nat) (k : TrapKind) (a : Nat) : (s.trap c k a).xb = s.xb := rfl
@[simp] theorem State.trap_cores (c : Nat) (k : TrapKind) (a : Nat) : (s.trap c k a).cores = s.cores := rfl
@[simp] theorem State.trap_fab (c : Nat) (k : TrapKind) (a : Nat) : (s.trap c k a).fab = s.fab := rfl
@[simp] theorem State.trap_traps (c : Nat) (k : TrapKind) (a : Nat) : (s.trap c k a).traps = s.traps ++ [⟨c, k, a⟩] := rfl
@[simp] theorem State.trap_resp (c : Nat) (k : TrapKind) (a : Nat) : (s.trap c k a).resp = s.resp := rfl
@[simp] theorem State.trap_evr (c : Nat) (k : TrapKind) (a : Nat) : (s.trap c k a).evr = s.evr := rfl
@[simp] theorem State.trap_mgt (c : Nat) (k : TrapKind) (a : Nat) : (s.trap c k a).mgt = s.mgt := rfl
@[simp] theorem State.trap_mram (c : Nat) (k : TrapKind) (a : Nat) : (s.trap c k a).mram = s.mram := rfl
@[simp] theorem State.trap_dram (c : Nat) (k : TrapKind) (a : Nat) : (s.trap c k a).dram = s.dram := rfl
@[simp] theorem State.trap_power (c : Nat) (k : TrapKind) (a : Nat) : (s.trap c k a).power = s.power := rfl
@[simp] theorem State.trap_zne (c : Nat) (k : TrapKind) (a : Nat) : (s.trap c k a).zne = s.zne := rfl
@[simp] theorem State.trap_hif (c : Nat) (k : TrapKind) (a : Nat) : (s.trap c k a).hif = s.hif := rfl
@[simp] theorem State.trap_sec (c : Nat) (k : TrapKind) (a : Nat) : (s.trap c k a).sec = s.sec := rfl
@[simp] theorem State.trap_lpe (c : Nat) (k : TrapKind) (a : Nat) : (s.trap c k a).lpe = s.lpe := rfl
@[simp] theorem State.trap_seqs (c : Nat) (k : TrapKind) (a : Nat) : (s.trap c k a).seqs = s.seqs := rfl
@[simp] theorem State.trap_boot (c : Nat) (k : TrapKind) (a : Nat) : (s.trap c k a).boot = s.boot := rfl
@[simp] theorem State.trap_casc (c : Nat) (k : TrapKind) (a : Nat) : (s.trap c k a).casc = s.casc := rfl
@[simp] theorem State.trap_free (c : Nat) (k : TrapKind) (a : Nat) : (s.trap c k a).free = s.free := rfl

@[simp] theorem State.answer_pending (q : Requester) (w : W64) : (s.answer q w).pending = s.pending := rfl
@[simp] theorem State.answer_now (q : Requester) (w : W64) : (s.answer q w).now = s.now := rfl
@[simp] theorem State.answer_csr (q : Requester) (w : W64) : (s.answer q w).csr = s.csr := rfl
@[simp] theorem State.answer_latch (q : Requester) (w : W64) : (s.answer q w).latch = s.latch := rfl
@[simp] theorem State.answer_shadow (q : Requester) (w : W64) : (s.answer q w).shadow = s.shadow := rfl
@[simp] theorem State.answer_mem (q : Requester) (w : W64) : (s.answer q w).mem = s.mem := rfl
@[simp] theorem State.answer_straps (q : Requester) (w : W64) : (s.answer q w).straps = s.straps := rfl
@[simp] theorem State.answer_pins (q : Requester) (w : W64) : (s.answer q w).pins = s.pins := rfl
@[simp] theorem State.answer_xb (q : Requester) (w : W64) : (s.answer q w).xb = s.xb := rfl
@[simp] theorem State.answer_cores (q : Requester) (w : W64) : (s.answer q w).cores = s.cores := rfl
@[simp] theorem State.answer_fab (q : Requester) (w : W64) : (s.answer q w).fab = s.fab := rfl
@[simp] theorem State.answer_traps (q : Requester) (w : W64) : (s.answer q w).traps = s.traps := rfl
@[simp] theorem State.answer_resp (q : Requester) (w : W64) : (s.answer q w).resp = Tab.set s.resp q.index w := rfl
@[simp] theorem State.answer_evr (q : Requester) (w : W64) : (s.answer q w).evr = s.evr := rfl
@[simp] theorem State.answer_mgt (q : Requester) (w : W64) : (s.answer q w).mgt = s.mgt := rfl
@[simp] theorem State.answer_mram (q : Requester) (w : W64) : (s.answer q w).mram = s.mram := rfl
@[simp] theorem State.answer_dram (q : Requester) (w : W64) : (s.answer q w).dram = s.dram := rfl
@[simp] theorem State.answer_power (q : Requester) (w : W64) : (s.answer q w).power = s.power := rfl
@[simp] theorem State.answer_zne (q : Requester) (w : W64) : (s.answer q w).zne = s.zne := rfl
@[simp] theorem State.answer_hif (q : Requester) (w : W64) : (s.answer q w).hif = s.hif := rfl
@[simp] theorem State.answer_sec (q : Requester) (w : W64) : (s.answer q w).sec = s.sec := rfl
@[simp] theorem State.answer_lpe (q : Requester) (w : W64) : (s.answer q w).lpe = s.lpe := rfl
@[simp] theorem State.answer_seqs (q : Requester) (w : W64) : (s.answer q w).seqs = s.seqs := rfl
@[simp] theorem State.answer_boot (q : Requester) (w : W64) : (s.answer q w).boot = s.boot := rfl
@[simp] theorem State.answer_casc (q : Requester) (w : W64) : (s.answer q w).casc = s.casc := rfl
@[simp] theorem State.answer_free (q : Requester) (w : W64) : (s.answer q w).free = s.free := rfl

@[simp] theorem State.zn_pending (f : Zne → Zne) : (s.zn f).pending = s.pending := rfl
@[simp] theorem State.zn_now (f : Zne → Zne) : (s.zn f).now = s.now := rfl
@[simp] theorem State.zn_csr (f : Zne → Zne) : (s.zn f).csr = s.csr := rfl
@[simp] theorem State.zn_latch (f : Zne → Zne) : (s.zn f).latch = s.latch := rfl
@[simp] theorem State.zn_shadow (f : Zne → Zne) : (s.zn f).shadow = s.shadow := rfl
@[simp] theorem State.zn_mem (f : Zne → Zne) : (s.zn f).mem = s.mem := rfl
@[simp] theorem State.zn_straps (f : Zne → Zne) : (s.zn f).straps = s.straps := rfl
@[simp] theorem State.zn_pins (f : Zne → Zne) : (s.zn f).pins = s.pins := rfl
@[simp] theorem State.zn_xb (f : Zne → Zne) : (s.zn f).xb = s.xb := rfl
@[simp] theorem State.zn_cores (f : Zne → Zne) : (s.zn f).cores = s.cores := rfl
@[simp] theorem State.zn_fab (f : Zne → Zne) : (s.zn f).fab = s.fab := rfl
@[simp] theorem State.zn_traps (f : Zne → Zne) : (s.zn f).traps = s.traps := rfl
@[simp] theorem State.zn_resp (f : Zne → Zne) : (s.zn f).resp = s.resp := rfl
@[simp] theorem State.zn_evr (f : Zne → Zne) : (s.zn f).evr = s.evr := rfl
@[simp] theorem State.zn_mgt (f : Zne → Zne) : (s.zn f).mgt = s.mgt := rfl
@[simp] theorem State.zn_mram (f : Zne → Zne) : (s.zn f).mram = s.mram := rfl
@[simp] theorem State.zn_dram (f : Zne → Zne) : (s.zn f).dram = s.dram := rfl
@[simp] theorem State.zn_power (f : Zne → Zne) : (s.zn f).power = s.power := rfl
@[simp] theorem State.zn_zne (f : Zne → Zne) : (s.zn f).zne = f s.zne := rfl
@[simp] theorem State.zn_hif (f : Zne → Zne) : (s.zn f).hif = s.hif := rfl
@[simp] theorem State.zn_sec (f : Zne → Zne) : (s.zn f).sec = s.sec := rfl
@[simp] theorem State.zn_lpe (f : Zne → Zne) : (s.zn f).lpe = s.lpe := rfl
@[simp] theorem State.zn_seqs (f : Zne → Zne) : (s.zn f).seqs = s.seqs := rfl
@[simp] theorem State.zn_boot (f : Zne → Zne) : (s.zn f).boot = s.boot := rfl
@[simp] theorem State.zn_casc (f : Zne → Zne) : (s.zn f).casc = s.casc := rfl
@[simp] theorem State.zn_free (f : Zne → Zne) : (s.zn f).free = s.free := rfl

@[simp] theorem State.hf_pending (f : Hif → Hif) : (s.hf f).pending = s.pending := rfl
@[simp] theorem State.hf_now (f : Hif → Hif) : (s.hf f).now = s.now := rfl
@[simp] theorem State.hf_csr (f : Hif → Hif) : (s.hf f).csr = s.csr := rfl
@[simp] theorem State.hf_latch (f : Hif → Hif) : (s.hf f).latch = s.latch := rfl
@[simp] theorem State.hf_shadow (f : Hif → Hif) : (s.hf f).shadow = s.shadow := rfl
@[simp] theorem State.hf_mem (f : Hif → Hif) : (s.hf f).mem = s.mem := rfl
@[simp] theorem State.hf_straps (f : Hif → Hif) : (s.hf f).straps = s.straps := rfl
@[simp] theorem State.hf_pins (f : Hif → Hif) : (s.hf f).pins = s.pins := rfl
@[simp] theorem State.hf_xb (f : Hif → Hif) : (s.hf f).xb = s.xb := rfl
@[simp] theorem State.hf_cores (f : Hif → Hif) : (s.hf f).cores = s.cores := rfl
@[simp] theorem State.hf_fab (f : Hif → Hif) : (s.hf f).fab = s.fab := rfl
@[simp] theorem State.hf_traps (f : Hif → Hif) : (s.hf f).traps = s.traps := rfl
@[simp] theorem State.hf_resp (f : Hif → Hif) : (s.hf f).resp = s.resp := rfl
@[simp] theorem State.hf_evr (f : Hif → Hif) : (s.hf f).evr = s.evr := rfl
@[simp] theorem State.hf_mgt (f : Hif → Hif) : (s.hf f).mgt = s.mgt := rfl
@[simp] theorem State.hf_mram (f : Hif → Hif) : (s.hf f).mram = s.mram := rfl
@[simp] theorem State.hf_dram (f : Hif → Hif) : (s.hf f).dram = s.dram := rfl
@[simp] theorem State.hf_power (f : Hif → Hif) : (s.hf f).power = s.power := rfl
@[simp] theorem State.hf_zne (f : Hif → Hif) : (s.hf f).zne = s.zne := rfl
@[simp] theorem State.hf_hif (f : Hif → Hif) : (s.hf f).hif = f s.hif := rfl
@[simp] theorem State.hf_sec (f : Hif → Hif) : (s.hf f).sec = s.sec := rfl
@[simp] theorem State.hf_lpe (f : Hif → Hif) : (s.hf f).lpe = s.lpe := rfl
@[simp] theorem State.hf_seqs (f : Hif → Hif) : (s.hf f).seqs = s.seqs := rfl
@[simp] theorem State.hf_boot (f : Hif → Hif) : (s.hf f).boot = s.boot := rfl
@[simp] theorem State.hf_casc (f : Hif → Hif) : (s.hf f).casc = s.casc := rfl
@[simp] theorem State.hf_free (f : Hif → Hif) : (s.hf f).free = s.free := rfl

@[simp] theorem State.sc_pending (f : Sec → Sec) : (s.sc f).pending = s.pending := rfl
@[simp] theorem State.sc_now (f : Sec → Sec) : (s.sc f).now = s.now := rfl
@[simp] theorem State.sc_csr (f : Sec → Sec) : (s.sc f).csr = s.csr := rfl
@[simp] theorem State.sc_latch (f : Sec → Sec) : (s.sc f).latch = s.latch := rfl
@[simp] theorem State.sc_shadow (f : Sec → Sec) : (s.sc f).shadow = s.shadow := rfl
@[simp] theorem State.sc_mem (f : Sec → Sec) : (s.sc f).mem = s.mem := rfl
@[simp] theorem State.sc_straps (f : Sec → Sec) : (s.sc f).straps = s.straps := rfl
@[simp] theorem State.sc_pins (f : Sec → Sec) : (s.sc f).pins = s.pins := rfl
@[simp] theorem State.sc_xb (f : Sec → Sec) : (s.sc f).xb = s.xb := rfl
@[simp] theorem State.sc_cores (f : Sec → Sec) : (s.sc f).cores = s.cores := rfl
@[simp] theorem State.sc_fab (f : Sec → Sec) : (s.sc f).fab = s.fab := rfl
@[simp] theorem State.sc_traps (f : Sec → Sec) : (s.sc f).traps = s.traps := rfl
@[simp] theorem State.sc_resp (f : Sec → Sec) : (s.sc f).resp = s.resp := rfl
@[simp] theorem State.sc_evr (f : Sec → Sec) : (s.sc f).evr = s.evr := rfl
@[simp] theorem State.sc_mgt (f : Sec → Sec) : (s.sc f).mgt = s.mgt := rfl
@[simp] theorem State.sc_mram (f : Sec → Sec) : (s.sc f).mram = s.mram := rfl
@[simp] theorem State.sc_dram (f : Sec → Sec) : (s.sc f).dram = s.dram := rfl
@[simp] theorem State.sc_power (f : Sec → Sec) : (s.sc f).power = s.power := rfl
@[simp] theorem State.sc_zne (f : Sec → Sec) : (s.sc f).zne = s.zne := rfl
@[simp] theorem State.sc_hif (f : Sec → Sec) : (s.sc f).hif = s.hif := rfl
@[simp] theorem State.sc_sec (f : Sec → Sec) : (s.sc f).sec = f s.sec := rfl
@[simp] theorem State.sc_lpe (f : Sec → Sec) : (s.sc f).lpe = s.lpe := rfl
@[simp] theorem State.sc_seqs (f : Sec → Sec) : (s.sc f).seqs = s.seqs := rfl
@[simp] theorem State.sc_boot (f : Sec → Sec) : (s.sc f).boot = s.boot := rfl
@[simp] theorem State.sc_casc (f : Sec → Sec) : (s.sc f).casc = s.casc := rfl
@[simp] theorem State.sc_free (f : Sec → Sec) : (s.sc f).free = s.free := rfl

@[simp] theorem State.bt_pending (f : Boot → Boot) : (s.bt f).pending = s.pending := rfl
@[simp] theorem State.bt_now (f : Boot → Boot) : (s.bt f).now = s.now := rfl
@[simp] theorem State.bt_csr (f : Boot → Boot) : (s.bt f).csr = s.csr := rfl
@[simp] theorem State.bt_latch (f : Boot → Boot) : (s.bt f).latch = s.latch := rfl
@[simp] theorem State.bt_shadow (f : Boot → Boot) : (s.bt f).shadow = s.shadow := rfl
@[simp] theorem State.bt_mem (f : Boot → Boot) : (s.bt f).mem = s.mem := rfl
@[simp] theorem State.bt_straps (f : Boot → Boot) : (s.bt f).straps = s.straps := rfl
@[simp] theorem State.bt_pins (f : Boot → Boot) : (s.bt f).pins = s.pins := rfl
@[simp] theorem State.bt_xb (f : Boot → Boot) : (s.bt f).xb = s.xb := rfl
@[simp] theorem State.bt_cores (f : Boot → Boot) : (s.bt f).cores = s.cores := rfl
@[simp] theorem State.bt_fab (f : Boot → Boot) : (s.bt f).fab = s.fab := rfl
@[simp] theorem State.bt_traps (f : Boot → Boot) : (s.bt f).traps = s.traps := rfl
@[simp] theorem State.bt_resp (f : Boot → Boot) : (s.bt f).resp = s.resp := rfl
@[simp] theorem State.bt_evr (f : Boot → Boot) : (s.bt f).evr = s.evr := rfl
@[simp] theorem State.bt_mgt (f : Boot → Boot) : (s.bt f).mgt = s.mgt := rfl
@[simp] theorem State.bt_mram (f : Boot → Boot) : (s.bt f).mram = s.mram := rfl
@[simp] theorem State.bt_dram (f : Boot → Boot) : (s.bt f).dram = s.dram := rfl
@[simp] theorem State.bt_power (f : Boot → Boot) : (s.bt f).power = s.power := rfl
@[simp] theorem State.bt_zne (f : Boot → Boot) : (s.bt f).zne = s.zne := rfl
@[simp] theorem State.bt_hif (f : Boot → Boot) : (s.bt f).hif = s.hif := rfl
@[simp] theorem State.bt_sec (f : Boot → Boot) : (s.bt f).sec = s.sec := rfl
@[simp] theorem State.bt_lpe (f : Boot → Boot) : (s.bt f).lpe = s.lpe := rfl
@[simp] theorem State.bt_seqs (f : Boot → Boot) : (s.bt f).seqs = s.seqs := rfl
@[simp] theorem State.bt_boot (f : Boot → Boot) : (s.bt f).boot = f s.boot := rfl
@[simp] theorem State.bt_casc (f : Boot → Boot) : (s.bt f).casc = s.casc := rfl
@[simp] theorem State.bt_free (f : Boot → Boot) : (s.bt f).free = s.free := rfl

@[simp] theorem State.mg_pending (f : Mgt → Mgt) : (s.mg f).pending = s.pending := rfl
@[simp] theorem State.mg_now (f : Mgt → Mgt) : (s.mg f).now = s.now := rfl
@[simp] theorem State.mg_csr (f : Mgt → Mgt) : (s.mg f).csr = s.csr := rfl
@[simp] theorem State.mg_latch (f : Mgt → Mgt) : (s.mg f).latch = s.latch := rfl
@[simp] theorem State.mg_shadow (f : Mgt → Mgt) : (s.mg f).shadow = s.shadow := rfl
@[simp] theorem State.mg_mem (f : Mgt → Mgt) : (s.mg f).mem = s.mem := rfl
@[simp] theorem State.mg_straps (f : Mgt → Mgt) : (s.mg f).straps = s.straps := rfl
@[simp] theorem State.mg_pins (f : Mgt → Mgt) : (s.mg f).pins = s.pins := rfl
@[simp] theorem State.mg_xb (f : Mgt → Mgt) : (s.mg f).xb = s.xb := rfl
@[simp] theorem State.mg_cores (f : Mgt → Mgt) : (s.mg f).cores = s.cores := rfl
@[simp] theorem State.mg_fab (f : Mgt → Mgt) : (s.mg f).fab = s.fab := rfl
@[simp] theorem State.mg_traps (f : Mgt → Mgt) : (s.mg f).traps = s.traps := rfl
@[simp] theorem State.mg_resp (f : Mgt → Mgt) : (s.mg f).resp = s.resp := rfl
@[simp] theorem State.mg_evr (f : Mgt → Mgt) : (s.mg f).evr = s.evr := rfl
@[simp] theorem State.mg_mgt (f : Mgt → Mgt) : (s.mg f).mgt = f s.mgt := rfl
@[simp] theorem State.mg_mram (f : Mgt → Mgt) : (s.mg f).mram = s.mram := rfl
@[simp] theorem State.mg_dram (f : Mgt → Mgt) : (s.mg f).dram = s.dram := rfl
@[simp] theorem State.mg_power (f : Mgt → Mgt) : (s.mg f).power = s.power := rfl
@[simp] theorem State.mg_zne (f : Mgt → Mgt) : (s.mg f).zne = s.zne := rfl
@[simp] theorem State.mg_hif (f : Mgt → Mgt) : (s.mg f).hif = s.hif := rfl
@[simp] theorem State.mg_sec (f : Mgt → Mgt) : (s.mg f).sec = s.sec := rfl
@[simp] theorem State.mg_lpe (f : Mgt → Mgt) : (s.mg f).lpe = s.lpe := rfl
@[simp] theorem State.mg_seqs (f : Mgt → Mgt) : (s.mg f).seqs = s.seqs := rfl
@[simp] theorem State.mg_boot (f : Mgt → Mgt) : (s.mg f).boot = s.boot := rfl
@[simp] theorem State.mg_casc (f : Mgt → Mgt) : (s.mg f).casc = s.casc := rfl
@[simp] theorem State.mg_free (f : Mgt → Mgt) : (s.mg f).free = s.free := rfl

@[simp] theorem State.ev_pending (f : Recorder → Recorder) : (s.ev f).pending = s.pending := rfl
@[simp] theorem State.ev_now (f : Recorder → Recorder) : (s.ev f).now = s.now := rfl
@[simp] theorem State.ev_csr (f : Recorder → Recorder) : (s.ev f).csr = s.csr := rfl
@[simp] theorem State.ev_latch (f : Recorder → Recorder) : (s.ev f).latch = s.latch := rfl
@[simp] theorem State.ev_shadow (f : Recorder → Recorder) : (s.ev f).shadow = s.shadow := rfl
@[simp] theorem State.ev_mem (f : Recorder → Recorder) : (s.ev f).mem = s.mem := rfl
@[simp] theorem State.ev_straps (f : Recorder → Recorder) : (s.ev f).straps = s.straps := rfl
@[simp] theorem State.ev_pins (f : Recorder → Recorder) : (s.ev f).pins = s.pins := rfl
@[simp] theorem State.ev_xb (f : Recorder → Recorder) : (s.ev f).xb = s.xb := rfl
@[simp] theorem State.ev_cores (f : Recorder → Recorder) : (s.ev f).cores = s.cores := rfl
@[simp] theorem State.ev_fab (f : Recorder → Recorder) : (s.ev f).fab = s.fab := rfl
@[simp] theorem State.ev_traps (f : Recorder → Recorder) : (s.ev f).traps = s.traps := rfl
@[simp] theorem State.ev_resp (f : Recorder → Recorder) : (s.ev f).resp = s.resp := rfl
@[simp] theorem State.ev_evr (f : Recorder → Recorder) : (s.ev f).evr = f s.evr := rfl
@[simp] theorem State.ev_mgt (f : Recorder → Recorder) : (s.ev f).mgt = s.mgt := rfl
@[simp] theorem State.ev_mram (f : Recorder → Recorder) : (s.ev f).mram = s.mram := rfl
@[simp] theorem State.ev_dram (f : Recorder → Recorder) : (s.ev f).dram = s.dram := rfl
@[simp] theorem State.ev_power (f : Recorder → Recorder) : (s.ev f).power = s.power := rfl
@[simp] theorem State.ev_zne (f : Recorder → Recorder) : (s.ev f).zne = s.zne := rfl
@[simp] theorem State.ev_hif (f : Recorder → Recorder) : (s.ev f).hif = s.hif := rfl
@[simp] theorem State.ev_sec (f : Recorder → Recorder) : (s.ev f).sec = s.sec := rfl
@[simp] theorem State.ev_lpe (f : Recorder → Recorder) : (s.ev f).lpe = s.lpe := rfl
@[simp] theorem State.ev_seqs (f : Recorder → Recorder) : (s.ev f).seqs = s.seqs := rfl
@[simp] theorem State.ev_boot (f : Recorder → Recorder) : (s.ev f).boot = s.boot := rfl
@[simp] theorem State.ev_casc (f : Recorder → Recorder) : (s.ev f).casc = s.casc := rfl
@[simp] theorem State.ev_free (f : Recorder → Recorder) : (s.ev f).free = s.free := rfl

@[simp] theorem State.pw_pending (f : Power → Power) : (s.pw f).pending = s.pending := rfl
@[simp] theorem State.pw_now (f : Power → Power) : (s.pw f).now = s.now := rfl
@[simp] theorem State.pw_csr (f : Power → Power) : (s.pw f).csr = s.csr := rfl
@[simp] theorem State.pw_latch (f : Power → Power) : (s.pw f).latch = s.latch := rfl
@[simp] theorem State.pw_shadow (f : Power → Power) : (s.pw f).shadow = s.shadow := rfl
@[simp] theorem State.pw_mem (f : Power → Power) : (s.pw f).mem = s.mem := rfl
@[simp] theorem State.pw_straps (f : Power → Power) : (s.pw f).straps = s.straps := rfl
@[simp] theorem State.pw_pins (f : Power → Power) : (s.pw f).pins = s.pins := rfl
@[simp] theorem State.pw_xb (f : Power → Power) : (s.pw f).xb = s.xb := rfl
@[simp] theorem State.pw_cores (f : Power → Power) : (s.pw f).cores = s.cores := rfl
@[simp] theorem State.pw_fab (f : Power → Power) : (s.pw f).fab = s.fab := rfl
@[simp] theorem State.pw_traps (f : Power → Power) : (s.pw f).traps = s.traps := rfl
@[simp] theorem State.pw_resp (f : Power → Power) : (s.pw f).resp = s.resp := rfl
@[simp] theorem State.pw_evr (f : Power → Power) : (s.pw f).evr = s.evr := rfl
@[simp] theorem State.pw_mgt (f : Power → Power) : (s.pw f).mgt = s.mgt := rfl
@[simp] theorem State.pw_mram (f : Power → Power) : (s.pw f).mram = s.mram := rfl
@[simp] theorem State.pw_dram (f : Power → Power) : (s.pw f).dram = s.dram := rfl
@[simp] theorem State.pw_power (f : Power → Power) : (s.pw f).power = f s.power := rfl
@[simp] theorem State.pw_zne (f : Power → Power) : (s.pw f).zne = s.zne := rfl
@[simp] theorem State.pw_hif (f : Power → Power) : (s.pw f).hif = s.hif := rfl
@[simp] theorem State.pw_sec (f : Power → Power) : (s.pw f).sec = s.sec := rfl
@[simp] theorem State.pw_lpe (f : Power → Power) : (s.pw f).lpe = s.lpe := rfl
@[simp] theorem State.pw_seqs (f : Power → Power) : (s.pw f).seqs = s.seqs := rfl
@[simp] theorem State.pw_boot (f : Power → Power) : (s.pw f).boot = s.boot := rfl
@[simp] theorem State.pw_casc (f : Power → Power) : (s.pw f).casc = s.casc := rfl
@[simp] theorem State.pw_free (f : Power → Power) : (s.pw f).free = s.free := rfl

@[simp] theorem State.mr_pending (f : Mram → Mram) : (s.mr f).pending = s.pending := rfl
@[simp] theorem State.mr_now (f : Mram → Mram) : (s.mr f).now = s.now := rfl
@[simp] theorem State.mr_csr (f : Mram → Mram) : (s.mr f).csr = s.csr := rfl
@[simp] theorem State.mr_latch (f : Mram → Mram) : (s.mr f).latch = s.latch := rfl
@[simp] theorem State.mr_shadow (f : Mram → Mram) : (s.mr f).shadow = s.shadow := rfl
@[simp] theorem State.mr_mem (f : Mram → Mram) : (s.mr f).mem = s.mem := rfl
@[simp] theorem State.mr_straps (f : Mram → Mram) : (s.mr f).straps = s.straps := rfl
@[simp] theorem State.mr_pins (f : Mram → Mram) : (s.mr f).pins = s.pins := rfl
@[simp] theorem State.mr_xb (f : Mram → Mram) : (s.mr f).xb = s.xb := rfl
@[simp] theorem State.mr_cores (f : Mram → Mram) : (s.mr f).cores = s.cores := rfl
@[simp] theorem State.mr_fab (f : Mram → Mram) : (s.mr f).fab = s.fab := rfl
@[simp] theorem State.mr_traps (f : Mram → Mram) : (s.mr f).traps = s.traps := rfl
@[simp] theorem State.mr_resp (f : Mram → Mram) : (s.mr f).resp = s.resp := rfl
@[simp] theorem State.mr_evr (f : Mram → Mram) : (s.mr f).evr = s.evr := rfl
@[simp] theorem State.mr_mgt (f : Mram → Mram) : (s.mr f).mgt = s.mgt := rfl
@[simp] theorem State.mr_mram (f : Mram → Mram) : (s.mr f).mram = f s.mram := rfl
@[simp] theorem State.mr_dram (f : Mram → Mram) : (s.mr f).dram = s.dram := rfl
@[simp] theorem State.mr_power (f : Mram → Mram) : (s.mr f).power = s.power := rfl
@[simp] theorem State.mr_zne (f : Mram → Mram) : (s.mr f).zne = s.zne := rfl
@[simp] theorem State.mr_hif (f : Mram → Mram) : (s.mr f).hif = s.hif := rfl
@[simp] theorem State.mr_sec (f : Mram → Mram) : (s.mr f).sec = s.sec := rfl
@[simp] theorem State.mr_lpe (f : Mram → Mram) : (s.mr f).lpe = s.lpe := rfl
@[simp] theorem State.mr_seqs (f : Mram → Mram) : (s.mr f).seqs = s.seqs := rfl
@[simp] theorem State.mr_boot (f : Mram → Mram) : (s.mr f).boot = s.boot := rfl
@[simp] theorem State.mr_casc (f : Mram → Mram) : (s.mr f).casc = s.casc := rfl
@[simp] theorem State.mr_free (f : Mram → Mram) : (s.mr f).free = s.free := rfl

@[simp] theorem State.dr_pending (f : Dram → Dram) : (s.dr f).pending = s.pending := rfl
@[simp] theorem State.dr_now (f : Dram → Dram) : (s.dr f).now = s.now := rfl
@[simp] theorem State.dr_csr (f : Dram → Dram) : (s.dr f).csr = s.csr := rfl
@[simp] theorem State.dr_latch (f : Dram → Dram) : (s.dr f).latch = s.latch := rfl
@[simp] theorem State.dr_shadow (f : Dram → Dram) : (s.dr f).shadow = s.shadow := rfl
@[simp] theorem State.dr_mem (f : Dram → Dram) : (s.dr f).mem = s.mem := rfl
@[simp] theorem State.dr_straps (f : Dram → Dram) : (s.dr f).straps = s.straps := rfl
@[simp] theorem State.dr_pins (f : Dram → Dram) : (s.dr f).pins = s.pins := rfl
@[simp] theorem State.dr_xb (f : Dram → Dram) : (s.dr f).xb = s.xb := rfl
@[simp] theorem State.dr_cores (f : Dram → Dram) : (s.dr f).cores = s.cores := rfl
@[simp] theorem State.dr_fab (f : Dram → Dram) : (s.dr f).fab = s.fab := rfl
@[simp] theorem State.dr_traps (f : Dram → Dram) : (s.dr f).traps = s.traps := rfl
@[simp] theorem State.dr_resp (f : Dram → Dram) : (s.dr f).resp = s.resp := rfl
@[simp] theorem State.dr_evr (f : Dram → Dram) : (s.dr f).evr = s.evr := rfl
@[simp] theorem State.dr_mgt (f : Dram → Dram) : (s.dr f).mgt = s.mgt := rfl
@[simp] theorem State.dr_mram (f : Dram → Dram) : (s.dr f).mram = s.mram := rfl
@[simp] theorem State.dr_dram (f : Dram → Dram) : (s.dr f).dram = f s.dram := rfl
@[simp] theorem State.dr_power (f : Dram → Dram) : (s.dr f).power = s.power := rfl
@[simp] theorem State.dr_zne (f : Dram → Dram) : (s.dr f).zne = s.zne := rfl
@[simp] theorem State.dr_hif (f : Dram → Dram) : (s.dr f).hif = s.hif := rfl
@[simp] theorem State.dr_sec (f : Dram → Dram) : (s.dr f).sec = s.sec := rfl
@[simp] theorem State.dr_lpe (f : Dram → Dram) : (s.dr f).lpe = s.lpe := rfl
@[simp] theorem State.dr_seqs (f : Dram → Dram) : (s.dr f).seqs = s.seqs := rfl
@[simp] theorem State.dr_boot (f : Dram → Dram) : (s.dr f).boot = s.boot := rfl
@[simp] theorem State.dr_casc (f : Dram → Dram) : (s.dr f).casc = s.casc := rfl
@[simp] theorem State.dr_free (f : Dram → Dram) : (s.dr f).free = s.free := rfl

@[simp] theorem State.cs_pending (f : Casc → Casc) : (s.cs f).pending = s.pending := rfl
@[simp] theorem State.cs_now (f : Casc → Casc) : (s.cs f).now = s.now := rfl
@[simp] theorem State.cs_csr (f : Casc → Casc) : (s.cs f).csr = s.csr := rfl
@[simp] theorem State.cs_latch (f : Casc → Casc) : (s.cs f).latch = s.latch := rfl
@[simp] theorem State.cs_shadow (f : Casc → Casc) : (s.cs f).shadow = s.shadow := rfl
@[simp] theorem State.cs_mem (f : Casc → Casc) : (s.cs f).mem = s.mem := rfl
@[simp] theorem State.cs_straps (f : Casc → Casc) : (s.cs f).straps = s.straps := rfl
@[simp] theorem State.cs_pins (f : Casc → Casc) : (s.cs f).pins = s.pins := rfl
@[simp] theorem State.cs_xb (f : Casc → Casc) : (s.cs f).xb = s.xb := rfl
@[simp] theorem State.cs_cores (f : Casc → Casc) : (s.cs f).cores = s.cores := rfl
@[simp] theorem State.cs_fab (f : Casc → Casc) : (s.cs f).fab = s.fab := rfl
@[simp] theorem State.cs_traps (f : Casc → Casc) : (s.cs f).traps = s.traps := rfl
@[simp] theorem State.cs_resp (f : Casc → Casc) : (s.cs f).resp = s.resp := rfl
@[simp] theorem State.cs_evr (f : Casc → Casc) : (s.cs f).evr = s.evr := rfl
@[simp] theorem State.cs_mgt (f : Casc → Casc) : (s.cs f).mgt = s.mgt := rfl
@[simp] theorem State.cs_mram (f : Casc → Casc) : (s.cs f).mram = s.mram := rfl
@[simp] theorem State.cs_dram (f : Casc → Casc) : (s.cs f).dram = s.dram := rfl
@[simp] theorem State.cs_power (f : Casc → Casc) : (s.cs f).power = s.power := rfl
@[simp] theorem State.cs_zne (f : Casc → Casc) : (s.cs f).zne = s.zne := rfl
@[simp] theorem State.cs_hif (f : Casc → Casc) : (s.cs f).hif = s.hif := rfl
@[simp] theorem State.cs_sec (f : Casc → Casc) : (s.cs f).sec = s.sec := rfl
@[simp] theorem State.cs_lpe (f : Casc → Casc) : (s.cs f).lpe = s.lpe := rfl
@[simp] theorem State.cs_seqs (f : Casc → Casc) : (s.cs f).seqs = s.seqs := rfl
@[simp] theorem State.cs_boot (f : Casc → Casc) : (s.cs f).boot = s.boot := rfl
@[simp] theorem State.cs_casc (f : Casc → Casc) : (s.cs f).casc = f s.casc := rfl
@[simp] theorem State.cs_free (f : Casc → Casc) : (s.cs f).free = s.free := rfl

@[simp] theorem State.lp_pending (f : Lpe → Lpe) : (s.lp f).pending = s.pending := rfl
@[simp] theorem State.lp_now (f : Lpe → Lpe) : (s.lp f).now = s.now := rfl
@[simp] theorem State.lp_csr (f : Lpe → Lpe) : (s.lp f).csr = s.csr := rfl
@[simp] theorem State.lp_latch (f : Lpe → Lpe) : (s.lp f).latch = s.latch := rfl
@[simp] theorem State.lp_shadow (f : Lpe → Lpe) : (s.lp f).shadow = s.shadow := rfl
@[simp] theorem State.lp_mem (f : Lpe → Lpe) : (s.lp f).mem = s.mem := rfl
@[simp] theorem State.lp_straps (f : Lpe → Lpe) : (s.lp f).straps = s.straps := rfl
@[simp] theorem State.lp_pins (f : Lpe → Lpe) : (s.lp f).pins = s.pins := rfl
@[simp] theorem State.lp_xb (f : Lpe → Lpe) : (s.lp f).xb = s.xb := rfl
@[simp] theorem State.lp_cores (f : Lpe → Lpe) : (s.lp f).cores = s.cores := rfl
@[simp] theorem State.lp_fab (f : Lpe → Lpe) : (s.lp f).fab = s.fab := rfl
@[simp] theorem State.lp_traps (f : Lpe → Lpe) : (s.lp f).traps = s.traps := rfl
@[simp] theorem State.lp_resp (f : Lpe → Lpe) : (s.lp f).resp = s.resp := rfl
@[simp] theorem State.lp_evr (f : Lpe → Lpe) : (s.lp f).evr = s.evr := rfl
@[simp] theorem State.lp_mgt (f : Lpe → Lpe) : (s.lp f).mgt = s.mgt := rfl
@[simp] theorem State.lp_mram (f : Lpe → Lpe) : (s.lp f).mram = s.mram := rfl
@[simp] theorem State.lp_dram (f : Lpe → Lpe) : (s.lp f).dram = s.dram := rfl
@[simp] theorem State.lp_power (f : Lpe → Lpe) : (s.lp f).power = s.power := rfl
@[simp] theorem State.lp_zne (f : Lpe → Lpe) : (s.lp f).zne = s.zne := rfl
@[simp] theorem State.lp_hif (f : Lpe → Lpe) : (s.lp f).hif = s.hif := rfl
@[simp] theorem State.lp_sec (f : Lpe → Lpe) : (s.lp f).sec = s.sec := rfl
@[simp] theorem State.lp_lpe (f : Lpe → Lpe) : (s.lp f).lpe = f s.lpe := rfl
@[simp] theorem State.lp_seqs (f : Lpe → Lpe) : (s.lp f).seqs = s.seqs := rfl
@[simp] theorem State.lp_boot (f : Lpe → Lpe) : (s.lp f).boot = s.boot := rfl
@[simp] theorem State.lp_casc (f : Lpe → Lpe) : (s.lp f).casc = s.casc := rfl
@[simp] theorem State.lp_free (f : Lpe → Lpe) : (s.lp f).free = s.free := rfl

@[simp] theorem State.modSeq_pending (n : Nat) (f : Seq → Seq) : (s.modSeq n f).pending = s.pending := rfl
@[simp] theorem State.modSeq_now (n : Nat) (f : Seq → Seq) : (s.modSeq n f).now = s.now := rfl
@[simp] theorem State.modSeq_csr (n : Nat) (f : Seq → Seq) : (s.modSeq n f).csr = s.csr := rfl
@[simp] theorem State.modSeq_latch (n : Nat) (f : Seq → Seq) : (s.modSeq n f).latch = s.latch := rfl
@[simp] theorem State.modSeq_shadow (n : Nat) (f : Seq → Seq) : (s.modSeq n f).shadow = s.shadow := rfl
@[simp] theorem State.modSeq_mem (n : Nat) (f : Seq → Seq) : (s.modSeq n f).mem = s.mem := rfl
@[simp] theorem State.modSeq_straps (n : Nat) (f : Seq → Seq) : (s.modSeq n f).straps = s.straps := rfl
@[simp] theorem State.modSeq_pins (n : Nat) (f : Seq → Seq) : (s.modSeq n f).pins = s.pins := rfl
@[simp] theorem State.modSeq_xb (n : Nat) (f : Seq → Seq) : (s.modSeq n f).xb = s.xb := rfl
@[simp] theorem State.modSeq_cores (n : Nat) (f : Seq → Seq) : (s.modSeq n f).cores = s.cores := rfl
@[simp] theorem State.modSeq_fab (n : Nat) (f : Seq → Seq) : (s.modSeq n f).fab = s.fab := rfl
@[simp] theorem State.modSeq_traps (n : Nat) (f : Seq → Seq) : (s.modSeq n f).traps = s.traps := rfl
@[simp] theorem State.modSeq_resp (n : Nat) (f : Seq → Seq) : (s.modSeq n f).resp = s.resp := rfl
@[simp] theorem State.modSeq_evr (n : Nat) (f : Seq → Seq) : (s.modSeq n f).evr = s.evr := rfl
@[simp] theorem State.modSeq_mgt (n : Nat) (f : Seq → Seq) : (s.modSeq n f).mgt = s.mgt := rfl
@[simp] theorem State.modSeq_mram (n : Nat) (f : Seq → Seq) : (s.modSeq n f).mram = s.mram := rfl
@[simp] theorem State.modSeq_dram (n : Nat) (f : Seq → Seq) : (s.modSeq n f).dram = s.dram := rfl
@[simp] theorem State.modSeq_power (n : Nat) (f : Seq → Seq) : (s.modSeq n f).power = s.power := rfl
@[simp] theorem State.modSeq_zne (n : Nat) (f : Seq → Seq) : (s.modSeq n f).zne = s.zne := rfl
@[simp] theorem State.modSeq_hif (n : Nat) (f : Seq → Seq) : (s.modSeq n f).hif = s.hif := rfl
@[simp] theorem State.modSeq_sec (n : Nat) (f : Seq → Seq) : (s.modSeq n f).sec = s.sec := rfl
@[simp] theorem State.modSeq_lpe (n : Nat) (f : Seq → Seq) : (s.modSeq n f).lpe = s.lpe := rfl
@[simp] theorem State.modSeq_seqs (n : Nat) (f : Seq → Seq) : (s.modSeq n f).seqs = Tab.set s.seqs n (f (s.seq n)) := rfl
@[simp] theorem State.modSeq_boot (n : Nat) (f : Seq → Seq) : (s.modSeq n f).boot = s.boot := rfl
@[simp] theorem State.modSeq_casc (n : Nat) (f : Seq → Seq) : (s.modSeq n f).casc = s.casc := rfl
@[simp] theorem State.modSeq_free (n : Nat) (f : Seq → Seq) : (s.modSeq n f).free = s.free := rfl

end Sys2Proof.Machine
end

