-- ==== Sys2Proof/Laws/Fields.lean ====
section
/-! SUPPORT. Register words and fields: what a write of one leaves in it, and that it leaves every other as it was. -/

namespace Sys2Proof.Machine

theorem State.word_setWord_self (s : State) (k : Nat) (w : W64) : (s.setWord k w).word k = w := by
  simp [State.word]

theorem State.word_setWord_ne (s : State) {k j : Nat} (w : W64) (h : j ≠ k) : (s.setWord k w).word j = s.word j := by
  simp [State.word, Tab.find_set_ne _ w h]

theorem fldMask_getLsbD (f : Fld) {i : Nat} (hi : i < 64) :
    (fldMask f).getLsbD i = decide (f.lo ≤ i ∧ i < f.lo + f.w) := by
  simp only [fldMask, BitVec.getLsbD_ofNat, hi, decide_true, Bool.true_and, Nat.testBit_shiftLeft, Nat.testBit_two_pow_sub_one]
  by_cases h : f.lo ≤ i
  · simp [h]
    omega
  · simp [h]

/-- Bit i of a word with a field replaced: a bit of the value within the field, the old bit outside it. -/
theorem fldPut_getLsbD (f : Fld) (w : W64) (v : Nat) {i : Nat} (hi : i < 64) :
    (fldPut f w v).getLsbD i = if f.lo ≤ i ∧ i < f.lo + f.w then v.testBit (i - f.lo) else w.getLsbD i := by
  simp only [fldPut, BitVec.getLsbD_or, BitVec.getLsbD_and, BitVec.getLsbD_not, fldMask_getLsbD f hi, hi, decide_true,
    Bool.true_and, BitVec.getLsbD_ofNat, Nat.testBit_shiftLeft, Nat.testBit_mod_two_pow]
  split <;> rename_i h
  · simp [h, show i - f.lo < f.w by omega]
  · by_cases h1 : f.lo ≤ i
    · simp [h1, show ¬ i - f.lo < f.w by omega, show f.lo + f.w ≤ i by omega]
    · simp [h1]

theorem State.fld_testBit (s : State) (f : Fld) (i : Nat) :
    (s.fld f).testBit i = (decide (i < f.w) && (s.word f.addr).getLsbD (f.lo + i)) := by
  rw [State.fld, Nat.testBit_mod_two_pow, Nat.testBit_shiftRight]
  rfl

/-- A field set holds the value, within its width. -/
theorem State.fld_setFld_self (s : State) (f : Fld) (v : Nat) (h : f.lo + f.w ≤ 64) :
    (s.setFld f v).fld f = v % 2 ^ f.w := by
  apply Nat.eq_of_testBit_eq
  intro i
  rw [State.fld_testBit, State.setFld, State.word_setWord_self, Nat.testBit_mod_two_pow]
  by_cases hi : i < f.w
  · rw [fldPut_getLsbD f _ v (by omega)]
    simp [hi]
  · simp [hi]

/-- A field of another register keeps its value. -/
theorem State.fld_setFld_ne (s : State) {f g : Fld} (v : Nat) (h : g.addr ≠ f.addr) : (s.setFld f v).fld g = s.fld g := by
  simp only [State.fld, State.setFld, State.word_setWord_ne _ _ h]

/-- A field of the same register with no bit in common keeps its value. -/
theorem State.fld_setFld_disjoint (s : State) {f g : Fld} (v : Nat) (hg : g.lo + g.w ≤ 64)
    (hd : g.lo + g.w ≤ f.lo ∨ f.lo + f.w ≤ g.lo) : (s.setFld f v).fld g = s.fld g := by
  by_cases h : g.addr = f.addr
  · apply Nat.eq_of_testBit_eq
    intro i
    rw [State.fld_testBit, State.fld_testBit, h, State.setFld, State.word_setWord_self]
    by_cases hi : i < g.w
    · rw [fldPut_getLsbD f _ v (by omega), if_neg (by omega)]
    · simp [hi]
  · exact s.fld_setFld_ne v h

end Sys2Proof.Machine
end

