-- ==== Sys2Proof/Laws/Fixed.lean ====
section
/-! SUPPORT. What most operations leave as it is: the queue, memory, the straps, the ordering code and the OTP fuses. -/

namespace Sys2Proof.Machine

/-- The queue, memory, the straps, the ordering code and the OTP contents. -/
def State.fixed (s : State) : List Instr × List Host.Cell × Straps × Bool × Otp :=
  (s.pending, s.mem, s.straps, s.xb, s.boot.otp)

theorem State.fold_fixed (s : State) : (s.pending, s.mem, s.straps, s.xb, s.boot.otp) = s.fixed := (rfl)

theorem State.mk_fixed (a b c d e f g h i j k l m n o p q r t u v w x y z aa) :
    (State.mk a b c d e f g h i j k l m n o p q r t u v w x y z aa).fixed = (a, f, g, i, y.otp) := (rfl)

theorem State.fixed_pending {s t : State} (h : t.fixed = s.fixed) : t.pending = s.pending := congrArg (·.1) h
theorem State.fixed_mem {s t : State} (h : t.fixed = s.fixed) : t.mem = s.mem := congrArg (·.2.1) h
theorem State.fixed_straps {s t : State} (h : t.fixed = s.fixed) : t.straps = s.straps := congrArg (·.2.2.1) h
theorem State.fixed_xb {s t : State} (h : t.fixed = s.fixed) : t.xb = s.xb := congrArg (·.2.2.2.1) h
theorem State.fixed_otp {s t : State} (h : t.fixed = s.fixed) : t.boot.otp = s.boot.otp := congrArg (·.2.2.2.2) h

theorem State.ite_fixed {c : Prop} [Decidable c] {a b s : State} (ha : a.fixed = s.fixed) (hb : b.fixed = s.fixed) :
    (if c then a else b).fixed = s.fixed := by
  split
  · exact ha
  · exact hb

theorem State.ite_snd_fixed {α : Type} {c : Prop} [Decidable c] {a b : α × State} {s : State} (ha : a.2.fixed = s.fixed)
    (hb : b.2.fixed = s.fixed) : (if c then a else b).2.fixed = s.fixed := by
  split
  · exact ha
  · exact hb

/-- A fold of operations that each keep these parts keeps them. -/
theorem State.foldl_fixed {α : Type} (f : State → α → State) (h : ∀ s x, (f s x).fixed = s.fixed) (xs : List α) (s : State) :
    (xs.foldl f s).fixed = s.fixed := by
  induction xs generalizing s with
  | nil => rfl
  | cons x xs ih => exact (ih (f s x)).trans (h s x)

/-- A step that answers a next state leaves these parts as they were. -/
def Keeps (o : Host.Outcome State Fault Refusal) (s : State) : Prop :=
  match o with
  | .next t => t.fixed = s.fixed
  | _ => True

theorem Keeps.next {t s : State} (h : t.fixed = s.fixed) : Keeps (.next t) s := h

theorem Keeps.ite {c : Prop} [Decidable c] {a b : Host.Outcome State Fault Refusal} {s : State} (ha : Keeps a s) (hb : Keeps b s) :
    Keeps (if c then a else b) s := by
  split
  · exact ha
  · exact hb

/-- An operation that may answer a value and a state leaves these parts as they were. -/
def KeepsO {α : Type} (o : Option (α × State)) (s : State) : Prop :=
  match o with
  | some r => r.2.fixed = s.fixed
  | none => True

theorem KeepsO.some {α : Type} {x : α} {t s : State} (h : t.fixed = s.fixed) : KeepsO (some (x, t)) s := h

theorem KeepsO.none {α : Type} {s : State} : KeepsO (α := α) none s := trivial

/-- An operation that may answer a state leaves these parts as they were. -/
def KeepsS (o : Option State) (s : State) : Prop :=
  match o with
  | some t => t.fixed = s.fixed
  | none => True

theorem KeepsS.some {t s : State} (h : t.fixed = s.fixed) : KeepsS (some t) s := h

theorem KeepsS.none {s : State} : KeepsS none s := trivial

end Sys2Proof.Machine
end

