-- ==== Sys2Proof/Laws/FixOps.lean ====
section
/-! SUPPORT. Operations of Machine/Ops.lean that keep the queue, memory, the straps and the OTP. -/

namespace Sys2Proof.Machine

set_option linter.all false

@[simp] theorem State.setWord_fixed (s : State) (key : Nat) (w : W64) :
    (State.setWord s key w).fixed = s.fixed := by
  unfold State.setWord
  repeat' (first | with_reducible rfl | with_reducible refine State.ite_fixed ?_ ?_ | simp only [State.mk_fixed, State.fold_fixed, apply_ite Prod.snd, ite_self] | split | with_reducible refine (State.foldl_fixed _ (fun _ _ => ?_) _ _).trans ?_)

@[simp] theorem State.setFld_fixed (s : State) (f : Fld) (v : Nat) :
    (State.setFld s f v).fixed = s.fixed := by
  unfold State.setFld
  repeat' (first | with_reducible rfl | with_reducible refine State.ite_fixed ?_ ?_ | simp only [State.mk_fixed, State.fold_fixed, apply_ite Prod.snd, ite_self, State.setWord_fixed] | split | with_reducible refine (State.foldl_fixed _ (fun _ _ => ?_) _ _).trans ?_)

@[simp] theorem State.bump_fixed (s : State) (f : Fld) (n : Nat) :
    (State.bump s f n).fixed = s.fixed := by
  unfold State.bump
  repeat' (first | with_reducible rfl | with_reducible refine State.ite_fixed ?_ ?_ | simp only [State.mk_fixed, State.fold_fixed, apply_ite Prod.snd, ite_self, State.setFld_fixed] | split | with_reducible refine (State.foldl_fixed _ (fun _ _ => ?_) _ _).trans ?_)

@[simp] theorem State.bumpSat_fixed (s : State) (f : Fld) (n : Nat) :
    (State.bumpSat s f n).fixed = s.fixed := by
  unfold State.bumpSat
  repeat' (first | with_reducible rfl | with_reducible refine State.ite_fixed ?_ ?_ | simp only [State.mk_fixed, State.fold_fixed, apply_ite Prod.snd, ite_self, State.setFld_fixed] | split | with_reducible refine (State.foldl_fixed _ (fun _ _ => ?_) _ _).trans ?_)

@[simp] theorem State.drop_fixed (s : State) (f : Fld) (n : Nat) :
    (State.drop s f n).fixed = s.fixed := by
  unfold State.drop
  repeat' (first | with_reducible rfl | with_reducible refine State.ite_fixed ?_ ?_ | simp only [State.mk_fixed, State.fold_fixed, apply_ite Prod.snd, ite_self, State.setFld_fixed] | split | with_reducible refine (State.foldl_fixed _ (fun _ _ => ?_) _ _).trans ?_)

@[simp] theorem State.trap_fixed (s : State) (core : Nat) (k : TrapKind) (addr : Nat) :
    (State.trap s core k addr).fixed = s.fixed := by
  unfold State.trap
  repeat' (first | with_reducible rfl | with_reducible refine State.ite_fixed ?_ ?_ | simp only [State.mk_fixed, State.fold_fixed, apply_ite Prod.snd, ite_self] | split | with_reducible refine (State.foldl_fixed _ (fun _ _ => ?_) _ _).trans ?_)

@[simp] theorem State.answer_fixed (s : State) (q : Requester) (w : W64) :
    (State.answer s q w).fixed = s.fixed := by
  unfold State.answer
  repeat' (first | with_reducible rfl | with_reducible refine State.ite_fixed ?_ ?_ | simp only [State.mk_fixed, State.fold_fixed, apply_ite Prod.snd, ite_self] | split | with_reducible refine (State.foldl_fixed _ (fun _ _ => ?_) _ _).trans ?_)

@[simp] theorem State.dropEvents_fixed (s : State) (cause n : Nat) :
    (State.dropEvents s cause n).fixed = s.fixed := by
  unfold State.dropEvents
  repeat' (first | with_reducible rfl | with_reducible refine State.ite_fixed ?_ ?_ | simp only [State.mk_fixed, State.fold_fixed, apply_ite Prod.snd, ite_self, State.bump_fixed] | split | with_reducible refine (State.foldl_fixed _ (fun _ _ => ?_) _ _).trans ?_)

@[simp] theorem State.postEvent_fixed (s : State) (e : Event) :
    (State.postEvent s e).fixed = s.fixed := by
  unfold State.postEvent
  repeat' (first | with_reducible rfl | with_reducible refine State.ite_fixed ?_ ?_ | simp only [State.mk_fixed, State.fold_fixed, apply_ite Prod.snd, ite_self, State.dropEvents_fixed] | split | with_reducible refine (State.foldl_fixed _ (fun _ _ => ?_) _ _).trans ?_)

@[simp] theorem State.post_fixed (s : State) (src id : Nat) (items : List (Nat × Nat)) (ten : Nat) :
    (State.post s src id items ten).fixed = s.fixed := by
  unfold State.post
  repeat' (first | with_reducible rfl | with_reducible refine State.ite_fixed ?_ ?_ | simp only [State.mk_fixed, State.fold_fixed, apply_ite Prod.snd, ite_self, State.postEvent_fixed] | split | with_reducible refine (State.foldl_fixed _ (fun _ _ => ?_) _ _).trans ?_)

@[simp] theorem State.drawFree_fixed (s : State) :
    (State.drawFree s).2.fixed = s.fixed := by
  unfold State.drawFree
  repeat' (first | with_reducible rfl | with_reducible refine State.ite_fixed ?_ ?_ | simp only [State.mk_fixed, State.fold_fixed, apply_ite Prod.snd, ite_self] | split | with_reducible refine (State.foldl_fixed _ (fun _ _ => ?_) _ _).trans ?_)

theorem State.drawFree_fixed_of {s : State} {x0} {t : State} (h : State.drawFree s = (x0, t)) : t.fixed = s.fixed := by
  have := State.drawFree_fixed s
  rw [h] at this
  exact this

@[simp] theorem State.drawBool_fixed (s : State) :
    (State.drawBool s).2.fixed = s.fixed := by
  unfold State.drawBool
  repeat' (first | with_reducible rfl | with_reducible refine State.ite_fixed ?_ ?_ | simp only [State.mk_fixed, State.fold_fixed, apply_ite Prod.snd, ite_self] | split | with_reducible refine (State.foldl_fixed _ (fun _ _ => ?_) _ _).trans ?_)

theorem State.drawBool_fixed_of {s : State} {x0} {t : State} (h : State.drawBool s = (x0, t)) : t.fixed = s.fixed := by
  have := State.drawBool_fixed s
  rw [h] at this
  exact this

end Sys2Proof.Machine
end

