-- ==== Sys2Proof/Laws/FixGeometry.lean ====
section
/-! SUPPORT. Operations of Machine/Geometry.lean that keep the queue, memory, the straps and the OTP. -/

namespace Sys2Proof.Machine

set_option linter.all false

@[simp] theorem State.zn_fixed (s : State) (f : Zne → Zne) :
    (State.zn s f).fixed = s.fixed := by
  unfold State.zn
  repeat' (first | with_reducible rfl | with_reducible refine State.ite_fixed ?_ ?_ | simp only [State.mk_fixed, State.fold_fixed, apply_ite Prod.snd, ite_self] | split | with_reducible refine (State.foldl_fixed _ (fun _ _ => ?_) _ _).trans ?_)

@[simp] theorem State.hf_fixed (s : State) (f : Hif → Hif) :
    (State.hf s f).fixed = s.fixed := by
  unfold State.hf
  repeat' (first | with_reducible rfl | with_reducible refine State.ite_fixed ?_ ?_ | simp only [State.mk_fixed, State.fold_fixed, apply_ite Prod.snd, ite_self] | split | with_reducible refine (State.foldl_fixed _ (fun _ _ => ?_) _ _).trans ?_)

@[simp] theorem State.modBlk_fixed (s : State) (b : Nat) (f : BlkEnt → BlkEnt) :
    (State.modBlk s b f).fixed = s.fixed := by
  unfold State.modBlk
  repeat' (first | with_reducible rfl | with_reducible refine State.ite_fixed ?_ ?_ | simp only [State.mk_fixed, State.fold_fixed, apply_ite Prod.snd, ite_self] | split | with_reducible refine (State.foldl_fixed _ (fun _ _ => ?_) _ _).trans ?_)

@[simp] theorem State.modDie_fixed (s : State) (d : Nat) (f : Die → Die) :
    (State.modDie s d f).fixed = s.fixed := by
  unfold State.modDie
  repeat' (first | with_reducible rfl | with_reducible refine State.ite_fixed ?_ ?_ | simp only [State.mk_fixed, State.fold_fixed, apply_ite Prod.snd, ite_self] | split | with_reducible refine (State.foldl_fixed _ (fun _ _ => ?_) _ _).trans ?_)

@[simp] theorem State.modZone_fixed (s : State) (z : Nat) (f : Zone → Zone) :
    (State.modZone s z f).fixed = s.fixed := by
  unfold State.modZone
  repeat' (first | with_reducible rfl | with_reducible refine State.ite_fixed ?_ ?_ | simp only [State.mk_fixed, State.fold_fixed, apply_ite Prod.snd, ite_self] | split | with_reducible refine (State.foldl_fixed _ (fun _ _ => ?_) _ _).trans ?_)

@[simp] theorem State.fresh_fixed (s : State) :
    (State.fresh s).2.fixed = s.fixed := by
  unfold State.fresh
  repeat' (first | with_reducible rfl | with_reducible refine State.ite_fixed ?_ ?_ | simp only [State.mk_fixed, State.fold_fixed, apply_ite Prod.snd, ite_self] | split | with_reducible refine (State.foldl_fixed _ (fun _ _ => ?_) _ _).trans ?_)

theorem State.fresh_fixed_of {s : State} {x0} {t : State} (h : State.fresh s = (x0, t)) : t.fixed = s.fixed := by
  have := State.fresh_fixed s
  rw [h] at this
  exact this

@[simp] theorem State.znePost_fixed (s : State) (id : Nat) (items : List (Nat × Nat)) (ten : Nat) :
    (State.znePost s id items ten).fixed = s.fixed := by
  unfold State.znePost
  repeat' (first | with_reducible rfl | with_reducible refine State.ite_fixed ?_ ?_ | simp only [State.mk_fixed, State.fold_fixed, apply_ite Prod.snd, ite_self, State.post_fixed] | split | with_reducible refine (State.foldl_fixed _ (fun _ _ => ?_) _ _).trans ?_)

end Sys2Proof.Machine
end

