-- ==== Sys2Proof/Laws/FixTokens.lean ====
section
/-! SUPPORT. Operations of Machine/Tokens.lean that keep the queue, memory, the straps and the OTP. -/

namespace Sys2Proof.Machine

set_option linter.all false

@[simp] theorem State.showPower_fixed (s : State) :
    (State.showPower s).fixed = s.fixed := by
  unfold State.showPower
  repeat' (first | with_reducible rfl | with_reducible refine State.ite_fixed ?_ ?_ | simp only [State.mk_fixed, State.fold_fixed, apply_ite Prod.snd, ite_self, State.setFld_fixed] | split | with_reducible refine (State.foldl_fixed _ (fun _ _ => ?_) _ _).trans ?_)

@[simp] theorem State.takeBg_fixed (s : State) (os : List DieOp) :
    (State.takeBg s os).fixed = s.fixed := by
  unfold State.takeBg
  repeat' (first | with_reducible rfl | with_reducible refine State.ite_fixed ?_ ?_ | simp only [State.mk_fixed, State.fold_fixed, apply_ite Prod.snd, ite_self] | split | with_reducible refine (State.foldl_fixed _ (fun _ _ => ?_) _ _).trans ?_)

end Sys2Proof.Machine
end

