-- ==== Sys2Proof/Laws/FixMramBase.lean ====
section
/-! SUPPORT. Operations of Machine/MramBase.lean that keep the queue, memory, the straps and the OTP. -/

namespace Sys2Proof.Machine

set_option linter.all false

@[simp] theorem State.sgWrite_fixed (s : State) (r : Nat) (rx : Nat) :
    (State.sgWrite s r rx).fixed = s.fixed := by
  induction rx generalizing s with
  | zero =>
    simp only [State.sgWrite]
    repeat' (first | with_reducible rfl | with_reducible refine State.ite_fixed ?_ ?_ | simp only [State.mk_fixed, State.fold_fixed, apply_ite Prod.snd, ite_self] | split | with_reducible refine (State.foldl_fixed _ (fun _ _ => ?_) _ _).trans ?_)
  | succ _ ih =>
    simp only [State.sgWrite]
    repeat' (first | with_reducible rfl | with_reducible refine State.ite_fixed ?_ ?_ | simp only [State.mk_fixed, State.fold_fixed, apply_ite Prod.snd, ite_self, ih] | split | with_reducible refine (State.foldl_fixed _ (fun _ _ => ?_) _ _).trans ?_)

@[simp] theorem State.cfgWrite_fixed (s : State) (mirrored : Bool) :
    (State.cfgWrite s mirrored).fixed = s.fixed := by
  unfold State.cfgWrite
  repeat' (first | with_reducible rfl | with_reducible refine State.ite_fixed ?_ ?_ | simp only [State.mk_fixed, State.fold_fixed, apply_ite Prod.snd, ite_self, State.sgWrite_fixed] | split | with_reducible refine (State.foldl_fixed _ (fun _ _ => ?_) _ _).trans ?_)

@[simp] theorem State.mrmPost_fixed (s : State) (id : Nat) (items : List (Nat × Nat)) :
    (State.mrmPost s id items).fixed = s.fixed := by
  unfold State.mrmPost
  repeat' (first | with_reducible rfl | with_reducible refine State.ite_fixed ?_ ?_ | simp only [State.mk_fixed, State.fold_fixed, apply_ite Prod.snd, ite_self, State.post_fixed] | split | with_reducible refine (State.foldl_fixed _ (fun _ _ => ?_) _ _).trans ?_)

end Sys2Proof.Machine
end

