-- ==== Sys2Proof/Laws/FixMedia.lean ====
section
/-! SUPPORT. Operations of Machine/Media.lean that keep the queue, memory, the straps and the OTP. -/

namespace Sys2Proof.Machine

set_option linter.all false

@[simp] theorem State.setRing_fixed (s : State) (set chan : Nat) (slc : Bool) (r : List RingEnt) :
    (State.setRing s set chan slc r).fixed = s.fixed := by
  unfold State.setRing
  repeat' (first | with_reducible rfl | with_reducible refine State.ite_fixed ?_ ?_ | simp only [State.mk_fixed, State.fold_fixed, apply_ite Prod.snd, ite_self] | split | with_reducible refine (State.foldl_fixed _ (fun _ _ => ?_) _ _).trans ?_)

@[simp] theorem State.showMedia_fixed (s : State) :
    (State.showMedia s).fixed = s.fixed := by
  unfold State.showMedia
  repeat' (first | with_reducible rfl | with_reducible refine State.ite_fixed ?_ ?_ | simp only [State.mk_fixed, State.fold_fixed, apply_ite Prod.snd, ite_self, State.setFld_fixed] | split | with_reducible refine (State.foldl_fixed _ (fun _ _ => ?_) _ _).trans ?_)

@[simp] theorem State.loseLedger_fixed (s : State) (cause : Nat) :
    (State.loseLedger s cause).fixed = s.fixed := by
  unfold State.loseLedger
  repeat' (first | with_reducible rfl | with_reducible refine State.ite_fixed ?_ ?_ | simp only [State.mk_fixed, State.fold_fixed, apply_ite Prod.snd, ite_self, State.showMedia_fixed, State.znePost_fixed] | split | with_reducible refine (State.foldl_fixed _ (fun _ _ => ?_) _ _).trans ?_)

@[simp] theorem State.takeEnt_fixed (s : State) (set : Nat) (e : RingEnt) :
    (State.takeEnt s set e).fixed = s.fixed := by
  unfold State.takeEnt
  repeat' (first | with_reducible rfl | with_reducible refine State.ite_fixed ?_ ?_ | simp only [State.mk_fixed, State.fold_fixed, apply_ite Prod.snd, ite_self, State.setRing_fixed] | split | with_reducible refine (State.foldl_fixed _ (fun _ _ => ?_) _ _).trans ?_)

theorem State.allocBody_fixed (s : State) (set : Nat) (slc wear : Bool) (st : BlkSt) :
    KeepsO (State.allocBody s set slc wear st) s := by
  unfold State.allocBody
  repeat' (first | with_reducible rfl | with_reducible refine State.ite_fixed ?_ ?_ | with_reducible exact KeepsO.none | with_reducible refine KeepsO.some ?_ | simp only [State.mk_fixed, State.fold_fixed, apply_ite Prod.snd, ite_self, State.modBlk_fixed, State.takeEnt_fixed] | split | with_reducible refine (State.foldl_fixed _ (fun _ _ => ?_) _ _).trans ?_)

theorem State.allocBody_fixed_of {s : State} {set : Nat} {slc wear : Bool} {st : BlkSt} {x0} {t : State} (h : State.allocBody s set slc wear st = some (x0, t)) : t.fixed = s.fixed := by
  have := State.allocBody_fixed s set slc wear st
  rw [h] at this
  exact this

@[simp] theorem State.spareCheck_fixed (s : State) (set : Nat) :
    (State.spareCheck s set).fixed = s.fixed := by
  unfold State.spareCheck
  repeat' (first | with_reducible rfl | with_reducible refine State.ite_fixed ?_ ?_ | simp only [State.mk_fixed, State.fold_fixed, apply_ite Prod.snd, ite_self, State.znePost_fixed] | split | with_reducible refine (State.foldl_fixed _ (fun _ _ => ?_) _ _).trans ?_)

@[simp] theorem State.makeReadOnly_fixed (s : State) (set : Nat) :
    (State.makeReadOnly s set).fixed = s.fixed := by
  unfold State.makeReadOnly
  repeat' (first | with_reducible rfl | with_reducible refine State.ite_fixed ?_ ?_ | simp only [State.mk_fixed, State.fold_fixed, apply_ite Prod.snd, ite_self, State.znePost_fixed] | split | with_reducible refine (State.foldl_fixed _ (fun _ _ => ?_) _ _).trans ?_)

@[simp] theorem State.endCheck_fixed (s : State) (set : Nat) :
    (State.endCheck s set).fixed = s.fixed := by
  unfold State.endCheck
  repeat' (first | with_reducible rfl | with_reducible refine State.ite_fixed ?_ ?_ | simp only [State.mk_fixed, State.fold_fixed, apply_ite Prod.snd, ite_self, State.makeReadOnly_fixed] | split | with_reducible refine (State.foldl_fixed _ (fun _ _ => ?_) _ _).trans ?_)

@[simp] theorem State.replaceSpare_fixed (s : State) (set : Nat) (lost : Nat) (slc : Bool) :
    (State.replaceSpare s set lost slc).fixed = s.fixed := by
  unfold State.replaceSpare
  repeat' (first | with_reducible rfl | with_reducible refine State.ite_fixed ?_ ?_ | simp only [State.mk_fixed, State.fold_fixed, apply_ite Prod.snd, ite_self, State.modBlk_fixed, State.setRing_fixed] | split | with_reducible refine (State.foldl_fixed _ (fun _ _ => ?_) _ _).trans ?_)

@[simp] theorem State.listDefect_fixed (s : State) (b : Nat) (whole : Bool) (kind : Nat) :
    (State.listDefect s b whole kind).fixed = s.fixed := by
  unfold State.listDefect
  repeat' (first | with_reducible rfl | with_reducible refine State.ite_fixed ?_ ?_ | simp only [State.mk_fixed, State.fold_fixed, apply_ite Prod.snd, ite_self] | split | with_reducible refine (State.foldl_fixed _ (fun _ _ => ?_) _ _).trans ?_)

@[simp] theorem State.growDefect_fixed (s : State) (b cause : Nat) :
    (State.growDefect s b cause).fixed = s.fixed := by
  unfold State.growDefect
  repeat' (first | with_reducible rfl | with_reducible refine State.ite_fixed ?_ ?_ | simp only [State.mk_fixed, State.fold_fixed, apply_ite Prod.snd, ite_self, State.bump_fixed, State.endCheck_fixed, State.listDefect_fixed, State.modBlk_fixed, State.replaceSpare_fixed, State.spareCheck_fixed, State.znePost_fixed] | split | with_reducible refine (State.foldl_fixed _ (fun _ _ => ?_) _ _).trans ?_)

@[simp] theorem State.limitRetire_fixed (s : State) (b : Nat) :
    (State.limitRetire s b).fixed = s.fixed := by
  unfold State.limitRetire
  repeat' (first | with_reducible rfl | with_reducible refine State.ite_fixed ?_ ?_ | simp only [State.mk_fixed, State.fold_fixed, apply_ite Prod.snd, ite_self, State.bump_fixed, State.endCheck_fixed, State.modBlk_fixed, State.replaceSpare_fixed, State.spareCheck_fixed, State.znePost_fixed] | split | with_reducible refine (State.foldl_fixed _ (fun _ _ => ?_) _ _).trans ?_)

@[simp] theorem State.releaseBlk_fixed (s : State) (b : Nat) :
    (State.releaseBlk s b).fixed = s.fixed := by
  unfold State.releaseBlk
  repeat' (first | with_reducible rfl | with_reducible refine State.ite_fixed ?_ ?_ | simp only [State.mk_fixed, State.fold_fixed, apply_ite Prod.snd, ite_self, State.growDefect_fixed, State.limitRetire_fixed, State.modBlk_fixed, State.setRing_fixed] | split | with_reducible refine (State.foldl_fixed _ (fun _ _ => ?_) _ _).trans ?_)

@[simp] theorem State.returnReleased_fixed (s : State) :
    (State.returnReleased s).fixed = s.fixed := by
  unfold State.returnReleased
  repeat' (first | with_reducible rfl | with_reducible refine State.ite_fixed ?_ ?_ | simp only [State.mk_fixed, State.fold_fixed, apply_ite Prod.snd, ite_self, State.setRing_fixed] | split | with_reducible refine (State.foldl_fixed _ (fun _ _ => ?_) _ _).trans ?_)

@[simp] theorem State.releaseAll_fixed (s : State) (bs : List Nat) :
    (State.releaseAll s bs).fixed = s.fixed := by
  unfold State.releaseAll
  repeat' (first | with_reducible rfl | with_reducible refine State.ite_fixed ?_ ?_ | simp only [State.mk_fixed, State.fold_fixed, apply_ite Prod.snd, ite_self, State.releaseBlk_fixed] | split | with_reducible refine (State.foldl_fixed _ (fun _ _ => ?_) _ _).trans ?_)

@[simp] theorem State.enqueue_fixed (s : State) (o : DieOp) :
    (State.enqueue s o).fixed = s.fixed := by
  unfold State.enqueue
  repeat' (first | with_reducible rfl | with_reducible refine State.ite_fixed ?_ ?_ | simp only [State.mk_fixed, State.fold_fixed, apply_ite Prod.snd, ite_self, State.fresh_fixed, State.modDie_fixed] | with_reducible refine (State.fresh_fixed_of (by assumption)).trans ?_ | split | with_reducible refine (State.foldl_fixed _ (fun _ _ => ?_) _ _).trans ?_)

@[simp] theorem State.beginErase_fixed (s : State) (b : Nat) (f : EraseFor) :
    (State.beginErase s b f).fixed = s.fixed := by
  unfold State.beginErase
  repeat' (first | with_reducible rfl | with_reducible refine State.ite_fixed ?_ ?_ | simp only [State.mk_fixed, State.fold_fixed, apply_ite Prod.snd, ite_self, State.showMedia_fixed] | split | with_reducible refine (State.foldl_fixed _ (fun _ _ => ?_) _ _).trans ?_)

@[simp] theorem State.ledgerRetry_fixed (s : State) :
    (State.ledgerRetry s).fixed = s.fixed := by
  unfold State.ledgerRetry
  repeat' (first | with_reducible rfl | with_reducible refine State.ite_fixed ?_ ?_ | simp only [State.mk_fixed, State.fold_fixed, apply_ite Prod.snd, ite_self, State.beginErase_fixed] | split | with_reducible refine (State.foldl_fixed _ (fun _ _ => ?_) _ _).trans ?_)

@[simp] theorem State.issueErase_fixed (s : State) (j : EraseJob) :
    (State.issueErase s j).fixed = s.fixed := by
  unfold State.issueErase
  repeat' (first | with_reducible rfl | with_reducible refine State.ite_fixed ?_ ?_ | simp only [State.mk_fixed, State.fold_fixed, apply_ite Prod.snd, ite_self, State.bump_fixed, State.enqueue_fixed, State.modBlk_fixed] | split | with_reducible refine (State.foldl_fixed _ (fun _ _ => ?_) _ _).trans ?_)

theorem execEraseLedgerWriteAck_fixed (b : BitVec 25) (s : State) :
    Keeps (execEraseLedgerWriteAck b s) s := by
  unfold execEraseLedgerWriteAck
  repeat' (first | with_reducible rfl | with_reducible refine State.ite_fixed ?_ ?_ | with_reducible refine Keeps.next ?_ | with_reducible refine Keeps.ite ?_ ?_ | simp only [State.mk_fixed, State.fold_fixed, apply_ite Prod.snd, ite_self, State.cfgWrite_fixed, State.issueErase_fixed] | split | with_reducible refine (State.foldl_fixed _ (fun _ _ => ?_) _ _).trans ?_)

@[simp] theorem State.eraseChecked_fixed (s : State) (j : EraseJob) :
    (State.eraseChecked s j).fixed = s.fixed := by
  unfold State.eraseChecked
  repeat' (first | with_reducible rfl | with_reducible refine State.ite_fixed ?_ ?_ | simp only [State.mk_fixed, State.fold_fixed, apply_ite Prod.snd, ite_self, State.enqueue_fixed, State.modBlk_fixed] | split | with_reducible refine (State.foldl_fixed _ (fun _ _ => ?_) _ _).trans ?_)

@[simp] theorem State.eraseClearing_fixed (s : State) (j : EraseJob) :
    (State.eraseClearing s j).fixed = s.fixed := by
  unfold State.eraseClearing
  repeat' (first | with_reducible rfl | with_reducible refine State.ite_fixed ?_ ?_ | simp only [State.mk_fixed, State.fold_fixed, apply_ite Prod.snd, ite_self] | split | with_reducible refine (State.foldl_fixed _ (fun _ _ => ?_) _ _).trans ?_)

@[simp] theorem State.dropErase_fixed (s : State) (b : Nat) :
    (State.dropErase s b).fixed = s.fixed := by
  unfold State.dropErase
  repeat' (first | with_reducible rfl | with_reducible refine State.ite_fixed ?_ ?_ | simp only [State.mk_fixed, State.fold_fixed, apply_ite Prod.snd, ite_self, State.cfgWrite_fixed, State.ledgerRetry_fixed, State.showMedia_fixed] | split | with_reducible refine (State.foldl_fixed _ (fun _ _ => ?_) _ _).trans ?_)

@[simp] theorem State.queueRefresh_fixed (s : State) (b : Nat) :
    (State.queueRefresh s b).fixed = s.fixed := by
  unfold State.queueRefresh
  repeat' (first | with_reducible rfl | with_reducible refine State.ite_fixed ?_ ?_ | simp only [State.mk_fixed, State.fold_fixed, apply_ite Prod.snd, ite_self, State.showMedia_fixed, State.znePost_fixed] | split | with_reducible refine (State.foldl_fixed _ (fun _ _ => ?_) _ _).trans ?_)

@[simp] theorem State.countRead_fixed (s : State) (b : Nat) :
    (State.countRead s b).fixed = s.fixed := by
  unfold State.countRead
  repeat' (first | with_reducible rfl | with_reducible refine State.ite_fixed ?_ ?_ | simp only [State.mk_fixed, State.fold_fixed, apply_ite Prod.snd, ite_self, State.modBlk_fixed, State.queueRefresh_fixed] | split | with_reducible refine (State.foldl_fixed _ (fun _ _ => ?_) _ _).trans ?_)

@[simp] theorem State.setRdofs_fixed (s : State) (b v : Nat) :
    (State.setRdofs s b v).fixed = s.fixed := by
  unfold State.setRdofs
  repeat' (first | with_reducible rfl | with_reducible refine State.ite_fixed ?_ ?_ | simp only [State.mk_fixed, State.fold_fixed, apply_ite Prod.snd, ite_self, State.modBlk_fixed, State.queueRefresh_fixed] | split | with_reducible refine (State.foldl_fixed _ (fun _ _ => ?_) _ _).trans ?_)

end Sys2Proof.Machine
end

