-- ==== Sys2Proof/Laws/FixSched.lean ====
section
/-! SUPPORT. Operations of Machine/Sched.lean that keep the queue, memory, the straps and the OTP. -/

namespace Sys2Proof.Machine

set_option linter.all false

@[simp] theorem State.takeStaging_fixed (s : State) (o : DieOp) :
    (State.takeStaging s o).fixed = s.fixed := by
  unfold State.takeStaging
  repeat' (first | with_reducible rfl | with_reducible refine State.ite_fixed ?_ ?_ | simp only [State.mk_fixed, State.fold_fixed, apply_ite Prod.snd, ite_self] | split | with_reducible refine (State.foldl_fixed _ (fun _ _ => ?_) _ _).trans ?_)

@[simp] theorem State.freeStaging_fixed (s : State) (p : Nat → Nat → Bool) :
    (State.freeStaging s p).fixed = s.fixed := by
  unfold State.freeStaging
  repeat' (first | with_reducible rfl | with_reducible refine State.ite_fixed ?_ ?_ | simp only [State.mk_fixed, State.fold_fixed, apply_ite Prod.snd, ite_self] | split | with_reducible refine (State.foldl_fixed _ (fun _ _ => ?_) _ _).trans ?_)

@[simp] theorem State.fillStaging_fixed (s : State) (first off : Nat) (bs : List Byte) :
    (State.fillStaging s first off bs).fixed = s.fixed := by
  unfold State.fillStaging
  repeat' (first | with_reducible rfl | with_reducible refine State.ite_fixed ?_ ?_ | simp only [State.mk_fixed, State.fold_fixed, apply_ite Prod.snd, ite_self, State.drop_fixed] | split | with_reducible refine (State.foldl_fixed _ (fun _ _ => ?_) _ _).trans ?_)

@[simp] theorem State.freeCw_fixed (s : State) (o : DieOp) (cw : Nat) :
    (State.freeCw s o cw).fixed = s.fixed := by
  unfold State.freeCw
  repeat' (first | with_reducible rfl | with_reducible refine State.ite_fixed ?_ ?_ | simp only [State.mk_fixed, State.fold_fixed, apply_ite Prod.snd, ite_self, State.freeStaging_fixed] | split | with_reducible refine (State.foldl_fixed _ (fun _ _ => ?_) _ _).trans ?_)

@[simp] theorem State.freeOp_fixed (s : State) (o : DieOp) :
    (State.freeOp s o).fixed = s.fixed := by
  unfold State.freeOp
  repeat' (first | with_reducible rfl | with_reducible refine State.ite_fixed ?_ ?_ | simp only [State.mk_fixed, State.fold_fixed, apply_ite Prod.snd, ite_self, State.freeStaging_fixed] | split | with_reducible refine (State.foldl_fixed _ (fun _ _ => ?_) _ _).trans ?_)

@[simp] theorem State.showPods_fixed (s : State) (d : Nat) :
    (State.showPods s d).fixed = s.fixed := by
  unfold State.showPods
  repeat' (first | with_reducible rfl | with_reducible refine State.ite_fixed ?_ ?_ | simp only [State.mk_fixed, State.fold_fixed, apply_ite Prod.snd, ite_self, State.setFld_fixed] | split | with_reducible refine (State.foldl_fixed _ (fun _ _ => ?_) _ _).trans ?_)

@[simp] theorem State.postOp_fixed (s : State) (d : Nat) (o : DieOp) :
    (State.postOp s d o).fixed = s.fixed := by
  unfold State.postOp
  repeat' (first | with_reducible rfl | with_reducible refine State.ite_fixed ?_ ?_ | simp only [State.mk_fixed, State.fold_fixed, apply_ite Prod.snd, ite_self, State.modDie_fixed, State.showPods_fixed, State.showPower_fixed, State.takeBg_fixed, State.takeStaging_fixed] | split | with_reducible refine (State.foldl_fixed _ (fun _ _ => ?_) _ _).trans ?_)

@[simp] theorem State.dispatchOp_fixed (s : State) (d : Nat) (o : DieOp) :
    (State.dispatchOp s d o).fixed = s.fixed := by
  unfold State.dispatchOp
  repeat' (first | with_reducible rfl | with_reducible refine State.ite_fixed ?_ ?_ | simp only [State.mk_fixed, State.fold_fixed, apply_ite Prod.snd, ite_self, State.fresh_fixed, State.modDie_fixed, State.postOp_fixed, State.showPods_fixed, State.showPower_fixed] | with_reducible refine (State.fresh_fixed_of (by assumption)).trans ?_ | split | with_reducible refine (State.foldl_fixed _ (fun _ _ => ?_) _ _).trans ?_)

@[simp] theorem State.requestSuspend_fixed (s : State) (d : Nat) :
    (State.requestSuspend s d).fixed = s.fixed := by
  unfold State.requestSuspend
  repeat' (first | with_reducible rfl | with_reducible refine State.ite_fixed ?_ ?_ | simp only [State.mk_fixed, State.fold_fixed, apply_ite Prod.snd, ite_self, State.modDie_fixed] | split | with_reducible refine (State.foldl_fixed _ (fun _ _ => ?_) _ _).trans ?_)

@[simp] theorem State.suspendDone_fixed (s : State) (d : Nat) (p : Pod) :
    (State.suspendDone s d p).fixed = s.fixed := by
  unfold State.suspendDone
  repeat' (first | with_reducible rfl | with_reducible refine State.ite_fixed ?_ ?_ | simp only [State.mk_fixed, State.fold_fixed, apply_ite Prod.snd, ite_self, State.bump_fixed, State.modDie_fixed, State.showPods_fixed, State.showPower_fixed] | split | with_reducible refine (State.foldl_fixed _ (fun _ _ => ?_) _ _).trans ?_)

@[simp] theorem State.resumeOp_fixed (s : State) (d : Nat) :
    (State.resumeOp s d).fixed = s.fixed := by
  unfold State.resumeOp
  repeat' (first | with_reducible rfl | with_reducible refine State.ite_fixed ?_ ?_ | simp only [State.mk_fixed, State.fold_fixed, apply_ite Prod.snd, ite_self, State.modDie_fixed, State.showPods_fixed, State.showPower_fixed] | split | with_reducible refine (State.foldl_fixed _ (fun _ _ => ?_) _ _).trans ?_)

@[simp] theorem State.fillPod_fixed (s : State) (d : Nat) :
    (State.fillPod s d).fixed = s.fixed := by
  unfold State.fillPod
  repeat' (first | with_reducible rfl | with_reducible refine State.ite_fixed ?_ ?_ | simp only [State.mk_fixed, State.fold_fixed, apply_ite Prod.snd, ite_self, State.dispatchOp_fixed, State.modDie_fixed, State.resumeOp_fixed] | split | with_reducible refine (State.foldl_fixed _ (fun _ _ => ?_) _ _).trans ?_)

theorem execPodDispatch_fixed (d : DieId) (s : State) :
    Keeps (execPodDispatch d s) s := by
  unfold execPodDispatch
  repeat' (first | with_reducible rfl | with_reducible refine State.ite_fixed ?_ ?_ | with_reducible refine Keeps.next ?_ | with_reducible refine Keeps.ite ?_ ?_ | simp only [State.mk_fixed, State.fold_fixed, apply_ite Prod.snd, ite_self, State.fillPod_fixed] | split | with_reducible refine (State.foldl_fixed _ (fun _ _ => ?_) _ _).trans ?_)

theorem execSuspholdExpiry_fixed (d : DieId) (s : State) :
    Keeps (execSuspholdExpiry d s) s := by
  unfold execSuspholdExpiry
  repeat' (first | with_reducible rfl | with_reducible refine State.ite_fixed ?_ ?_ | with_reducible refine Keeps.next ?_ | with_reducible refine Keeps.ite ?_ ?_ | simp only [State.mk_fixed, State.fold_fixed, apply_ite Prod.snd, ite_self, State.fillPod_fixed, State.modDie_fixed] | split | with_reducible refine (State.foldl_fixed _ (fun _ _ => ?_) _ _).trans ?_)

theorem execMinimumRunTimeElapsed_fixed (d : DieId) (s : State) :
    Keeps (execMinimumRunTimeElapsed d s) s := by
  unfold execMinimumRunTimeElapsed
  repeat' (first | with_reducible rfl | with_reducible refine State.ite_fixed ?_ ?_ | with_reducible refine Keeps.next ?_ | with_reducible refine Keeps.ite ?_ ?_ | simp only [State.mk_fixed, State.fold_fixed, apply_ite Prod.snd, ite_self, State.requestSuspend_fixed] | split | with_reducible refine (State.foldl_fixed _ (fun _ _ => ?_) _ _).trans ?_)

@[simp] theorem State.postAbort_fixed (s : State) (d : Nat) :
    (State.postAbort s d).fixed = s.fixed := by
  unfold State.postAbort
  repeat' (first | with_reducible rfl | with_reducible refine State.ite_fixed ?_ ?_ | simp only [State.mk_fixed, State.fold_fixed, apply_ite Prod.snd, ite_self, State.modDie_fixed] | split | with_reducible refine (State.foldl_fixed _ (fun _ _ => ?_) _ _).trans ?_)

@[simp] theorem State.endSuspended_fixed (s : State) (d : Nat) :
    (State.endSuspended s d).fixed = s.fixed := by
  unfold State.endSuspended
  repeat' (first | with_reducible rfl | with_reducible refine State.ite_fixed ?_ ?_ | simp only [State.mk_fixed, State.fold_fixed, apply_ite Prod.snd, ite_self, State.bump_fixed, State.modDie_fixed, State.showPods_fixed, State.showPower_fixed, State.zn_fixed] | split | with_reducible refine (State.foldl_fixed _ (fun _ _ => ?_) _ _).trans ?_)

@[simp] theorem State.lunReset_fixed (s : State) (d : Nat) :
    (State.lunReset s d).fixed = s.fixed := by
  unfold State.lunReset
  repeat' (first | with_reducible rfl | with_reducible refine State.ite_fixed ?_ ?_ | simp only [State.mk_fixed, State.fold_fixed, apply_ite Prod.snd, ite_self, State.endSuspended_fixed, State.postAbort_fixed] | split | with_reducible refine (State.foldl_fixed _ (fun _ _ => ?_) _ _).trans ?_)

end Sys2Proof.Machine
end

