-- ==== Sys2Proof/Laws/FixStripes.lean ====
section
/-! SUPPORT. Operations of Machine/Stripes.lean that keep the queue, memory, the straps and the OTP. -/

namespace Sys2Proof.Machine

set_option linter.all false

@[simp] theorem State.showDirty_fixed (s : State) :
    (State.showDirty s).fixed = s.fixed := by
  unfold State.showDirty
  repeat' (first | with_reducible rfl | with_reducible refine State.ite_fixed ?_ ?_ | simp only [State.mk_fixed, State.fold_fixed, apply_ite Prod.snd, ite_self, State.setFld_fixed] | split | with_reducible refine (State.foldl_fixed _ (fun _ _ => ?_) _ _).trans ?_)

@[simp] theorem State.reserveBuf_fixed (s : State) (own : BufOwner) (ns gen ten slot : Nat) :
    (State.reserveBuf s own ns gen ten slot).2.fixed = s.fixed := by
  unfold State.reserveBuf
  repeat' (first | with_reducible rfl | with_reducible refine State.ite_fixed ?_ ?_ | simp only [State.mk_fixed, State.fold_fixed, apply_ite Prod.snd, ite_self, State.bump_fixed, State.showDirty_fixed, State.zn_fixed] | split | with_reducible refine (State.foldl_fixed _ (fun _ _ => ?_) _ _).trans ?_)

theorem State.reserveBuf_fixed_of {s : State} {own : BufOwner} {ns gen ten slot : Nat} {x0} {t : State} (h : State.reserveBuf s own ns gen ten slot = (x0, t)) : t.fixed = s.fixed := by
  have := State.reserveBuf_fixed s own ns gen ten slot
  rw [h] at this
  exact this

@[simp] theorem State.reserveBufs_fixed (s : State) (ten slot : Nat) (rx : Nat) :
    (State.reserveBufs s ten slot rx).2.fixed = s.fixed := by
  induction rx generalizing s with
  | zero =>
    simp only [State.reserveBufs]
    repeat' (first | with_reducible rfl | with_reducible refine State.ite_fixed ?_ ?_ | simp only [State.mk_fixed, State.fold_fixed, apply_ite Prod.snd, ite_self, State.reserveBuf_fixed] | with_reducible refine (State.reserveBuf_fixed_of (by assumption)).trans ?_ | split | with_reducible refine (State.foldl_fixed _ (fun _ _ => ?_) _ _).trans ?_)
  | succ _ ih =>
    simp only [State.reserveBufs]
    repeat' (first | with_reducible rfl | with_reducible refine State.ite_fixed ?_ ?_ | simp only [State.mk_fixed, State.fold_fixed, apply_ite Prod.snd, ite_self, State.reserveBuf_fixed, ih] | with_reducible refine (State.reserveBuf_fixed_of (by assumption)).trans ?_ | split | with_reducible refine (State.foldl_fixed _ (fun _ _ => ?_) _ _).trans ?_)

theorem State.reserveBufs_fixed_of {s : State} {ten slot : Nat} {rx : Nat} {x0} {t : State} (h : State.reserveBufs s ten slot rx = (x0, t)) : t.fixed = s.fixed := by
  have := State.reserveBufs_fixed s ten slot rx
  rw [h] at this
  exact this

@[simp] theorem State.releaseBuf_fixed (s : State) (i : Nat) :
    (State.releaseBuf s i).fixed = s.fixed := by
  unfold State.releaseBuf
  repeat' (first | with_reducible rfl | with_reducible refine State.ite_fixed ?_ ?_ | simp only [State.mk_fixed, State.fold_fixed, apply_ite Prod.snd, ite_self, State.drop_fixed, State.showDirty_fixed, State.zn_fixed] | split | with_reducible refine (State.foldl_fixed _ (fun _ _ => ?_) _ _).trans ?_)

@[simp] theorem State.releaseBufs_fixed (s : State) (is : List Nat) :
    (State.releaseBufs s is).fixed = s.fixed := by
  unfold State.releaseBufs
  repeat' (first | with_reducible rfl | with_reducible refine State.ite_fixed ?_ ?_ | simp only [State.mk_fixed, State.fold_fixed, apply_ite Prod.snd, ite_self, State.releaseBuf_fixed] | split | with_reducible refine (State.foldl_fixed _ (fun _ _ => ?_) _ _).trans ?_)

@[simp] theorem State.modBuf_fixed (s : State) (i : Nat) (f : Buf → Buf) :
    (State.modBuf s i f).fixed = s.fixed := by
  unfold State.modBuf
  repeat' (first | with_reducible rfl | with_reducible refine State.ite_fixed ?_ ?_ | simp only [State.mk_fixed, State.fold_fixed, apply_ite Prod.snd, ite_self, State.zn_fixed] | split | with_reducible refine (State.foldl_fixed _ (fun _ _ => ?_) _ _).trans ?_)

@[simp] theorem State.showEff_fixed (s : State) :
    (State.showEff s).fixed = s.fixed := by
  unfold State.showEff
  repeat' (first | with_reducible rfl | with_reducible refine State.ite_fixed ?_ ?_ | simp only [State.mk_fixed, State.fold_fixed, apply_ite Prod.snd, ite_self, State.setFld_fixed, State.znePost_fixed] | split | with_reducible refine (State.foldl_fixed _ (fun _ _ => ?_) _ _).trans ?_)

@[simp] theorem State.hk_fixed (s : State) (f : Husk → Husk) :
    (State.hk s f).fixed = s.fixed := by
  unfold State.hk
  repeat' (first | with_reducible rfl | with_reducible refine State.ite_fixed ?_ ?_ | simp only [State.mk_fixed, State.fold_fixed, apply_ite Prod.snd, ite_self, State.zn_fixed] | split | with_reducible refine (State.foldl_fixed _ (fun _ _ => ?_) _ _).trans ?_)

@[simp] theorem State.huskWrite_fixed (s : State) (r : Nat) (f : HuskRec → HuskRec) :
    (State.huskWrite s r f).fixed = s.fixed := by
  unfold State.huskWrite
  repeat' (first | with_reducible rfl | with_reducible refine State.ite_fixed ?_ ?_ | simp only [State.mk_fixed, State.fold_fixed, apply_ite Prod.snd, ite_self, State.hk_fixed, State.sgWrite_fixed] | split | with_reducible refine (State.foldl_fixed _ (fun _ _ => ?_) _ _).trans ?_)

theorem State.takeShelf_fixed_of {s : State} {r x0 x1 : Nat} {t : State} (h : s.takeShelf r = some (x0, x1, t)) : t.fixed = s.fixed := by
  unfold State.takeShelf at h
  extract_lets free n at h
  split at h
  · cases h
  · split at h
    · cases h
    · cases h; exact State.hk_fixed ..

@[simp] theorem State.freeShelf_fixed (s : State) (r : Nat) :
    (State.freeShelf s r).fixed = s.fixed := by
  unfold State.freeShelf
  repeat' (first | with_reducible rfl | with_reducible refine State.ite_fixed ?_ ?_ | simp only [State.mk_fixed, State.fold_fixed, apply_ite Prod.snd, ite_self, State.hk_fixed] | split | with_reducible refine (State.foldl_fixed _ (fun _ _ => ?_) _ _).trans ?_)

@[simp] theorem State.reserveBlock_fixed (s : State) :
    (State.reserveBlock s).fixed = s.fixed := by
  unfold State.reserveBlock
  repeat' (first | with_reducible rfl | with_reducible refine State.ite_fixed ?_ ?_ | simp only [State.mk_fixed, State.fold_fixed, apply_ite Prod.snd, ite_self, State.cfgWrite_fixed] | split | with_reducible refine (State.foldl_fixed _ (fun _ _ => ?_) _ _).trans ?_)

@[simp] theorem State.nextHseq_fixed (s : State) :
    (State.nextHseq s).2.fixed = s.fixed := by
  unfold State.nextHseq
  repeat' (first | with_reducible rfl | with_reducible refine State.ite_fixed ?_ ?_ | simp only [State.mk_fixed, State.fold_fixed, apply_ite Prod.snd, ite_self, State.hk_fixed, State.reserveBlock_fixed] | split | with_reducible refine (State.foldl_fixed _ (fun _ _ => ?_) _ _).trans ?_)

theorem State.nextHseq_fixed_of {s : State} {x0} {t : State} (h : State.nextHseq s = (x0, t)) : t.fixed = s.fixed := by
  have := State.nextHseq_fixed s
  rw [h] at this
  exact this

@[simp] theorem State.nextEpochs_fixed (s : State) (n : Nat) :
    (State.nextEpochs s n).2.fixed = s.fixed := by
  unfold State.nextEpochs
  repeat' (first | with_reducible rfl | with_reducible refine State.ite_fixed ?_ ?_ | simp only [State.mk_fixed, State.fold_fixed, apply_ite Prod.snd, ite_self, State.hk_fixed, State.reserveBlock_fixed] | split | with_reducible refine (State.foldl_fixed _ (fun _ _ => ?_) _ _).trans ?_)

theorem State.nextEpochs_fixed_of {s : State} {n : Nat} {x0} {t : State} (h : State.nextEpochs s n = (x0, t)) : t.fixed = s.fixed := by
  have := State.nextEpochs_fixed s n
  rw [h] at this
  exact this

@[simp] theorem State.shelve_fixed (s : State) (r hseq : Nat) : (s.shelve r hseq).fixed = s.fixed := by
  unfold State.shelve
  extract_lets x
  split
  · exact State.hk_fixed ..
  · split
    next p q s1 h1 =>
      simp only [State.huskWrite_fixed, State.nextEpochs_fixed]
      exact State.takeShelf_fixed_of h1
    · rfl

@[simp] theorem State.modStripe_fixed (s : State) (k : Nat) (f : Stripe → Stripe) :
    (State.modStripe s k f).fixed = s.fixed := by
  unfold State.modStripe
  repeat' (first | with_reducible rfl | with_reducible refine State.ite_fixed ?_ ?_ | simp only [State.mk_fixed, State.fold_fixed, apply_ite Prod.snd, ite_self, State.zn_fixed] | split | with_reducible refine (State.foldl_fixed _ (fun _ _ => ?_) _ _).trans ?_)

@[simp] theorem State.commitStripe_fixed (s : State) (k : Nat) :
    (State.commitStripe s k).fixed = s.fixed := by
  unfold State.commitStripe
  repeat' (first | with_reducible rfl | with_reducible refine State.ite_fixed ?_ ?_ | simp only [State.mk_fixed, State.fold_fixed, apply_ite Prod.snd, ite_self, State.fresh_fixed, State.modStripe_fixed, State.nextEpochs_fixed, State.nextHseq_fixed] | with_reducible refine (State.fresh_fixed_of (by assumption)).trans ?_ | with_reducible refine (State.nextEpochs_fixed_of (by assumption)).trans ?_ | with_reducible refine (State.nextHseq_fixed_of (by assumption)).trans ?_ | split | with_reducible refine (State.foldl_fixed _ (fun _ _ => ?_) _ _).trans ?_)

@[simp] theorem State.tryCommitBody_fixed (s : State) (zmi idx : Nat) (verify : Bool) :
    (State.tryCommitBody s zmi idx verify).fixed = s.fixed := by
  unfold State.tryCommitBody
  repeat' (first | with_reducible rfl | with_reducible refine State.ite_fixed ?_ ?_ | simp only [State.mk_fixed, State.fold_fixed, apply_ite Prod.snd, ite_self, State.commitStripe_fixed, State.fresh_fixed, State.zn_fixed] | with_reducible refine (State.fresh_fixed_of (by assumption)).trans ?_ | split | with_reducible refine (State.foldl_fixed _ (fun _ _ => ?_) _ _).trans ?_)

@[simp] theorem State.retryCommits_fixed (s : State) :
    (State.retryCommits s).fixed = s.fixed := by
  unfold State.retryCommits
  repeat' (first | with_reducible rfl | with_reducible refine State.ite_fixed ?_ ?_ | simp only [State.mk_fixed, State.fold_fixed, apply_ite Prod.snd, ite_self, State.commitStripe_fixed, State.tryCommitBody_fixed] | split | with_reducible refine (State.foldl_fixed _ (fun _ _ => ?_) _ _).trans ?_)

theorem execHuskSliceEntryAck_fixed (r : Fin 6400) (m : Fin 18) (s : State) :
    Keeps (execHuskSliceEntryAck r m s) s := by
  unfold execHuskSliceEntryAck
  repeat' (first | with_reducible rfl | with_reducible refine State.ite_fixed ?_ ?_ | with_reducible refine Keeps.next ?_ | with_reducible refine Keeps.ite ?_ ?_ | simp only [State.mk_fixed, State.fold_fixed, apply_ite Prod.snd, ite_self, State.fresh_fixed, State.huskWrite_fixed, State.modStripe_fixed] | with_reducible refine (State.fresh_fixed_of (by assumption)).trans ?_ | split | with_reducible refine (State.foldl_fixed _ (fun _ _ => ?_) _ _).trans ?_)

theorem execPowerTokenGrant_fixed (s : State) :
    Keeps (execPowerTokenGrant s) s := by
  unfold execPowerTokenGrant
  repeat' (first | with_reducible rfl | with_reducible refine State.ite_fixed ?_ ?_ | with_reducible refine Keeps.next ?_ | with_reducible refine Keeps.ite ?_ ?_ | simp only [State.mk_fixed, State.fold_fixed, apply_ite Prod.snd, ite_self, State.enqueue_fixed, State.modStripe_fixed, State.retryCommits_fixed, State.showPower_fixed, State.takeBg_fixed] | split | with_reducible refine (State.foldl_fixed _ (fun _ _ => ?_) _ _).trans ?_)

@[simp] theorem State.checkClose_fixed (s : State) (k : Nat) :
    (State.checkClose s k).fixed = s.fixed := by
  unfold State.checkClose
  repeat' (first | with_reducible rfl | with_reducible refine State.ite_fixed ?_ ?_ | simp only [State.mk_fixed, State.fold_fixed, apply_ite Prod.snd, ite_self, State.modStripe_fixed] | split | with_reducible refine (State.foldl_fixed _ (fun _ _ => ?_) _ _).trans ?_)

@[simp] theorem State.setMember_fixed (s : State) (k m : Nat) (st : MemberSt) :
    (State.setMember s k m st).fixed = s.fixed := by
  unfold State.setMember
  repeat' (first | with_reducible rfl | with_reducible refine State.ite_fixed ?_ ?_ | simp only [State.mk_fixed, State.fold_fixed, apply_ite Prod.snd, ite_self, State.modStripe_fixed] | split | with_reducible refine (State.foldl_fixed _ (fun _ _ => ?_) _ _).trans ?_)

@[simp] theorem State.closingAdd_fixed (s : State) (zmi : Nat) :
    (State.closingAdd s zmi).fixed = s.fixed := by
  unfold State.closingAdd
  repeat' (first | with_reducible rfl | with_reducible refine State.ite_fixed ?_ ?_ | simp only [State.mk_fixed, State.fold_fixed, apply_ite Prod.snd, ite_self, State.hk_fixed] | split | with_reducible refine (State.foldl_fixed _ (fun _ _ => ?_) _ _).trans ?_)

@[simp] theorem State.withdraw_fixed (s : State) (k : Nat) :
    (State.withdraw s k).fixed = s.fixed := by
  unfold State.withdraw
  repeat' (first | with_reducible rfl | with_reducible refine State.ite_fixed ?_ ?_ | simp only [State.mk_fixed, State.fold_fixed, apply_ite Prod.snd, ite_self, State.modStripe_fixed] | split | with_reducible refine (State.foldl_fixed _ (fun _ _ => ?_) _ _).trans ?_)

end Sys2Proof.Machine
end

