-- ==== Sys2Proof/Laws/FixCipher.lean ====
section
/-! SUPPORT. Operations of Machine/Cipher.lean that keep the queue, memory, the straps and the OTP. -/

namespace Sys2Proof.Machine

set_option linter.all false

@[simp] theorem State.sc_fixed (s : State) (f : Sec → Sec) :
    (State.sc s f).fixed = s.fixed := by
  unfold State.sc
  repeat' (first | with_reducible rfl | with_reducible refine State.ite_fixed ?_ ?_ | simp only [State.mk_fixed, State.fold_fixed, apply_ite Prod.snd, ite_self] | split | with_reducible refine (State.foldl_fixed _ (fun _ _ => ?_) _ _).trans ?_)

@[simp] theorem State.secPost_fixed (s : State) (id : Nat) (items : List (Nat × Nat)) (ten : Nat) :
    (State.secPost s id items ten).fixed = s.fixed := by
  unfold State.secPost
  repeat' (first | with_reducible rfl | with_reducible refine State.ite_fixed ?_ ?_ | simp only [State.mk_fixed, State.fold_fixed, apply_ite Prod.snd, ite_self, State.post_fixed] | split | with_reducible refine (State.foldl_fixed _ (fun _ _ => ?_) _ _).trans ?_)

@[simp] theorem State.zeroSlot_fixed (s : State) (k : Nat) :
    (State.zeroSlot s k).fixed = s.fixed := by
  unfold State.zeroSlot
  repeat' (first | with_reducible rfl | with_reducible refine State.ite_fixed ?_ ?_ | simp only [State.mk_fixed, State.fold_fixed, apply_ite Prod.snd, ite_self, State.sc_fixed, State.setWord_fixed] | split | with_reducible refine (State.foldl_fixed _ (fun _ _ => ?_) _ _).trans ?_)

@[simp] theorem State.loadSlot_fixed (s : State) (k kind ten nsidx gen : Nat) (key : BitVec 512) :
    (State.loadSlot s k kind ten nsidx gen key).fixed = s.fixed := by
  unfold State.loadSlot
  repeat' (first | with_reducible rfl | with_reducible refine State.ite_fixed ?_ ?_ | simp only [State.mk_fixed, State.fold_fixed, apply_ite Prod.snd, ite_self, State.sc_fixed, State.setWord_fixed] | split | with_reducible refine (State.foldl_fixed _ (fun _ _ => ?_) _ _).trans ?_)

@[simp] theorem State.drawMedia_fixed (s : State) (rx : Nat) :
    (State.drawMedia s rx).2.fixed = s.fixed := by
  induction rx generalizing s with
  | zero =>
    simp only [State.drawMedia]
    repeat' (first | with_reducible rfl | with_reducible refine State.ite_fixed ?_ ?_ | simp only [State.mk_fixed, State.fold_fixed, apply_ite Prod.snd, ite_self, State.sc_fixed] | split | with_reducible refine (State.foldl_fixed _ (fun _ _ => ?_) _ _).trans ?_)
  | succ _ ih =>
    simp only [State.drawMedia]
    repeat' (first | with_reducible rfl | with_reducible refine State.ite_fixed ?_ ?_ | simp only [State.mk_fixed, State.fold_fixed, apply_ite Prod.snd, ite_self, State.sc_fixed, ih] | split | with_reducible refine (State.foldl_fixed _ (fun _ _ => ?_) _ _).trans ?_)

theorem State.drawMedia_fixed_of {s : State} {rx : Nat} {x0} {t : State} (h : State.drawMedia s rx = (x0, t)) : t.fixed = s.fixed := by
  have := State.drawMedia_fixed s rx
  rw [h] at this
  exact this

@[simp] theorem State.drawWrap_fixed (s : State) :
    (State.drawWrap s).2.fixed = s.fixed := by
  unfold State.drawWrap
  repeat' (first | with_reducible rfl | with_reducible refine State.ite_fixed ?_ ?_ | simp only [State.mk_fixed, State.fold_fixed, apply_ite Prod.snd, ite_self, State.sc_fixed] | split | with_reducible refine (State.foldl_fixed _ (fun _ _ => ?_) _ _).trans ?_)

theorem State.drawWrap_fixed_of {s : State} {x0} {t : State} (h : State.drawWrap s = (x0, t)) : t.fixed = s.fixed := by
  have := State.drawWrap_fixed s
  rw [h] at this
  exact this

@[simp] theorem State.genKey_fixed (s : State) (k kind ten nsidx gen : Nat) :
    (State.genKey s k kind ten nsidx gen).fixed = s.fixed := by
  unfold State.genKey
  repeat' (first | with_reducible rfl | with_reducible refine State.ite_fixed ?_ ?_ | simp only [State.mk_fixed, State.fold_fixed, apply_ite Prod.snd, ite_self, State.drawMedia_fixed, State.drawWrap_fixed, State.loadSlot_fixed, State.sc_fixed, State.setWord_fixed] | with_reducible refine (State.drawMedia_fixed_of (by assumption)).trans ?_ | with_reducible refine (State.drawWrap_fixed_of (by assumption)).trans ?_ | split | with_reducible refine (State.foldl_fixed _ (fun _ _ => ?_) _ _).trans ?_)

@[simp] theorem State.useCounter_fixed (s : State) (kek : Nat) :
    (State.useCounter s kek).2.fixed = s.fixed := by
  unfold State.useCounter
  repeat' (first | with_reducible rfl | with_reducible refine State.ite_fixed ?_ ?_ | simp only [State.mk_fixed, State.fold_fixed, apply_ite Prod.snd, ite_self, State.cfgWrite_fixed, State.sc_fixed] | split | with_reducible refine (State.foldl_fixed _ (fun _ _ => ?_) _ _).trans ?_)

theorem State.useCounter_fixed_of {s : State} {kek : Nat} {x0} {t : State} (h : State.useCounter s kek = (x0, t)) : t.fixed = s.fixed := by
  have := State.useCounter_fixed s kek
  rw [h] at this
  exact this

@[simp] theorem State.wrapBlob_fixed (s : State) (slot kek : Nat) :
    (State.wrapBlob s slot kek).2.fixed = s.fixed := by
  unfold State.wrapBlob
  repeat' (first | with_reducible rfl | with_reducible refine State.ite_fixed ?_ ?_ | simp only [State.mk_fixed, State.fold_fixed, apply_ite Prod.snd, ite_self, State.useCounter_fixed] | with_reducible refine (State.useCounter_fixed_of (by assumption)).trans ?_ | split | with_reducible refine (State.foldl_fixed _ (fun _ _ => ?_) _ _).trans ?_)

theorem State.wrapBlob_fixed_of {s : State} {slot kek : Nat} {x0} {t : State} (h : State.wrapBlob s slot kek = (x0, t)) : t.fixed = s.fixed := by
  have := State.wrapBlob_fixed s slot kek
  rw [h] at this
  exact this

@[simp] theorem State.wrapUnder_fixed (s : State) (slot kek : Nat) :
    (State.wrapUnder s slot kek).fixed = s.fixed := by
  unfold State.wrapUnder
  repeat' (first | with_reducible rfl | with_reducible refine State.ite_fixed ?_ ?_ | simp only [State.mk_fixed, State.fold_fixed, apply_ite Prod.snd, ite_self, State.sc_fixed, State.wrapBlob_fixed] | with_reducible refine (State.wrapBlob_fixed_of (by assumption)).trans ?_ | split | with_reducible refine (State.foldl_fixed _ (fun _ _ => ?_) _ _).trans ?_)

@[simp] theorem State.eraseRecord_fixed (s : State) (slot : Nat) :
    (State.eraseRecord s slot).fixed = s.fixed := by
  unfold State.eraseRecord
  repeat' (first | with_reducible rfl | with_reducible refine State.ite_fixed ?_ ?_ | simp only [State.mk_fixed, State.fold_fixed, apply_ite Prod.snd, ite_self, State.sc_fixed] | split | with_reducible refine (State.foldl_fixed _ (fun _ _ => ?_) _ _).trans ?_)

@[simp] theorem State.rotateKek_fixed (s : State) (kek : Nat) :
    (State.rotateKek s kek).fixed = s.fixed := by
  unfold State.rotateKek
  repeat' (first | with_reducible rfl | with_reducible refine State.ite_fixed ?_ ?_ | simp only [State.mk_fixed, State.fold_fixed, apply_ite Prod.snd, ite_self, State.eraseRecord_fixed, State.genKey_fixed, State.sc_fixed, State.secPost_fixed, State.wrapUnder_fixed, State.zeroSlot_fixed] | split | with_reducible refine (State.foldl_fixed _ (fun _ _ => ?_) _ _).trans ?_)

@[simp] theorem State.rotateDue_fixed (s : State) (kek : Nat) :
    (State.rotateDue s kek).fixed = s.fixed := by
  unfold State.rotateDue
  repeat' (first | with_reducible rfl | with_reducible refine State.ite_fixed ?_ ?_ | simp only [State.mk_fixed, State.fold_fixed, apply_ite Prod.snd, ite_self, State.rotateKek_fixed] | split | with_reducible refine (State.foldl_fixed _ (fun _ _ => ?_) _ _).trans ?_)

@[simp] theorem State.wrapRecord_fixed (s : State) (slot kek : Nat) :
    (State.wrapRecord s slot kek).fixed = s.fixed := by
  unfold State.wrapRecord
  repeat' (first | with_reducible rfl | with_reducible refine State.ite_fixed ?_ ?_ | simp only [State.mk_fixed, State.fold_fixed, apply_ite Prod.snd, ite_self, State.rotateDue_fixed, State.wrapUnder_fixed] | split | with_reducible refine (State.foldl_fixed _ (fun _ _ => ?_) _ _).trans ?_)

@[simp] theorem State.setCur_fixed (s : State) (n slot gen ten : Nat) :
    (State.setCur s n slot gen ten).fixed = s.fixed := by
  unfold State.setCur
  repeat' (first | with_reducible rfl | with_reducible refine State.ite_fixed ?_ ?_ | simp only [State.mk_fixed, State.fold_fixed, apply_ite Prod.snd, ite_self, State.setFld_fixed] | split | with_reducible refine (State.foldl_fixed _ (fun _ _ => ?_) _ _).trans ?_)

@[simp] theorem State.retireKey_fixed (s : State) (n : Nat) :
    (State.retireKey s n).fixed = s.fixed := by
  unfold State.retireKey
  repeat' (first | with_reducible rfl | with_reducible refine State.ite_fixed ?_ ?_ | simp only [State.mk_fixed, State.fold_fixed, apply_ite Prod.snd, ite_self, State.eraseRecord_fixed, State.setFld_fixed, State.zeroSlot_fixed, State.znePost_fixed] | split | with_reducible refine (State.foldl_fixed _ (fun _ _ => ?_) _ _).trans ?_)

@[simp] theorem State.tryRoll_fixed (s : State) (n : Nat) :
    (State.tryRoll s n).fixed = s.fixed := by
  unfold State.tryRoll
  repeat' (first | with_reducible rfl | with_reducible refine State.ite_fixed ?_ ?_ | simp only [State.mk_fixed, State.fold_fixed, apply_ite Prod.snd, ite_self, State.genKey_fixed, State.retireKey_fixed, State.sc_fixed, State.setCur_fixed, State.setFld_fixed, State.wrapRecord_fixed, State.zn_fixed, State.znePost_fixed] | split | with_reducible refine (State.foldl_fixed _ (fun _ _ => ?_) _ _).trans ?_)

@[simp] theorem State.retireOld_fixed (s : State) (n : Nat) :
    (State.retireOld s n).fixed = s.fixed := by
  unfold State.retireOld
  repeat' (first | with_reducible rfl | with_reducible refine State.ite_fixed ?_ ?_ | simp only [State.mk_fixed, State.fold_fixed, apply_ite Prod.snd, ite_self, State.retireKey_fixed, State.tryRoll_fixed] | split | with_reducible refine (State.foldl_fixed _ (fun _ _ => ?_) _ _).trans ?_)

@[simp] theorem State.bindGen_fixed (s : State) (zmi : Nat) :
    (State.bindGen s zmi).fixed = s.fixed := by
  unfold State.bindGen
  repeat' (first | with_reducible rfl | with_reducible refine State.ite_fixed ?_ ?_ | simp only [State.mk_fixed, State.fold_fixed, apply_ite Prod.snd, ite_self, State.bump_fixed, State.modZone_fixed] | split | with_reducible refine (State.foldl_fixed _ (fun _ _ => ?_) _ _).trans ?_)

@[simp] theorem State.unbindGen_fixed (s : State) (zmi : Nat) :
    (State.unbindGen s zmi).fixed = s.fixed := by
  unfold State.unbindGen
  repeat' (first | with_reducible rfl | with_reducible refine State.ite_fixed ?_ ?_ | simp only [State.mk_fixed, State.fold_fixed, apply_ite Prod.snd, ite_self, State.drop_fixed, State.retireOld_fixed] | split | with_reducible refine (State.foldl_fixed _ (fun _ _ => ?_) _ _).trans ?_)

@[simp] theorem State.mediaKey_fixed (s : State) (n gen ten : Nat) :
    (State.mediaKey s n gen ten).2.fixed = s.fixed := by
  unfold State.mediaKey
  repeat' (first | with_reducible rfl | with_reducible refine State.ite_fixed ?_ ?_ | simp only [State.mk_fixed, State.fold_fixed, apply_ite Prod.snd, ite_self, State.post_fixed, State.sc_fixed] | split | with_reducible refine (State.foldl_fixed _ (fun _ _ => ?_) _ _).trans ?_)

theorem State.mediaKey_fixed_of {s : State} {n gen ten : Nat} {x0} {t : State} (h : State.mediaKey s n gen ten = (x0, t)) : t.fixed = s.fixed := by
  have := State.mediaKey_fixed s n gen ten
  rw [h] at this
  exact this

@[simp] theorem State.onEncrypt_fixed (s : State) (n gen : Nat) :
    (State.onEncrypt s n gen).fixed = s.fixed := by
  unfold State.onEncrypt
  repeat' (first | with_reducible rfl | with_reducible refine State.ite_fixed ?_ ?_ | simp only [State.mk_fixed, State.fold_fixed, apply_ite Prod.snd, ite_self, State.bump_fixed, State.cfgWrite_fixed, State.sc_fixed, State.setFld_fixed, State.tryRoll_fixed] | split | with_reducible refine (State.foldl_fixed _ (fun _ _ => ?_) _ _).trans ?_)

@[simp] theorem State.encryptBlk_fixed (s : State) (n gen ten lba : Nat) (d : Blk) :
    (State.encryptBlk s n gen ten lba d).2.fixed = s.fixed := by
  unfold State.encryptBlk
  repeat' (first | with_reducible rfl | with_reducible refine State.ite_fixed ?_ ?_ | simp only [State.mk_fixed, State.fold_fixed, apply_ite Prod.snd, ite_self, State.mediaKey_fixed, State.onEncrypt_fixed] | with_reducible refine (State.mediaKey_fixed_of (by assumption)).trans ?_ | split | with_reducible refine (State.foldl_fixed _ (fun _ _ => ?_) _ _).trans ?_)

theorem State.encryptBlk_fixed_of {s : State} {n gen ten lba : Nat} {d : Blk} {x0} {t : State} (h : State.encryptBlk s n gen ten lba d = (x0, t)) : t.fixed = s.fixed := by
  have := State.encryptBlk_fixed s n gen ten lba d
  rw [h] at this
  exact this

@[simp] theorem State.decryptBlk_fixed (s : State) (n gen ten lba : Nat) (c : Blk) :
    (State.decryptBlk s n gen ten lba c).2.fixed = s.fixed := by
  unfold State.decryptBlk
  repeat' (first | with_reducible rfl | with_reducible refine State.ite_fixed ?_ ?_ | simp only [State.mk_fixed, State.fold_fixed, apply_ite Prod.snd, ite_self, State.mediaKey_fixed] | with_reducible refine (State.mediaKey_fixed_of (by assumption)).trans ?_ | split | with_reducible refine (State.foldl_fixed _ (fun _ _ => ?_) _ _).trans ?_)

theorem State.decryptBlk_fixed_of {s : State} {n gen ten lba : Nat} {c : Blk} {x0} {t : State} (h : State.decryptBlk s n gen ten lba c = (x0, t)) : t.fixed = s.fixed := by
  have := State.decryptBlk_fixed s n gen ten lba c
  rw [h] at this
  exact this

end Sys2Proof.Machine
end

