-- ==== Sys2Proof/Laws/FixComplete.lean ====
section
/-! SUPPORT. Operations of Machine/Complete.lean that keep the queue, memory, the straps and the OTP. -/

namespace Sys2Proof.Machine

set_option linter.all false

@[simp] theorem State.modFunc_fixed (s : State) (fn : Nat) (f : Func → Func) :
    (State.modFunc s fn f).fixed = s.fixed := by
  unfold State.modFunc
  repeat' (first | with_reducible rfl | with_reducible refine State.ite_fixed ?_ ?_ | simp only [State.mk_fixed, State.fold_fixed, apply_ite Prod.snd, ite_self, State.hf_fixed] | split | with_reducible refine (State.foldl_fixed _ (fun _ _ => ?_) _ _).trans ?_)

@[simp] theorem State.hifPost_fixed (s : State) (port id : Nat) (items : List (Nat × Nat)) (ten : Nat) :
    (State.hifPost s port id items ten).fixed = s.fixed := by
  unfold State.hifPost
  repeat' (first | with_reducible rfl | with_reducible refine State.ite_fixed ?_ ?_ | simp only [State.mk_fixed, State.fold_fixed, apply_ite Prod.snd, ite_self, State.post_fixed] | split | with_reducible refine (State.foldl_fixed _ (fun _ _ => ?_) _ _).trans ?_)

@[simp] theorem State.modSlot_fixed (s : State) (i : Nat) (f : Slot → Slot) :
    (State.modSlot s i f).fixed = s.fixed := by
  unfold State.modSlot
  repeat' (first | with_reducible rfl | with_reducible refine State.ite_fixed ?_ ?_ | simp only [State.mk_fixed, State.fold_fixed, apply_ite Prod.snd, ite_self, State.hf_fixed] | split | with_reducible refine (State.foldl_fixed _ (fun _ _ => ?_) _ _).trans ?_)

@[simp] theorem State.raiseInt_fixed (s : State) (fn cq : Nat) :
    (State.raiseInt s fn cq).fixed = s.fixed := by
  unfold State.raiseInt
  repeat' (first | with_reducible rfl | with_reducible refine State.ite_fixed ?_ ?_ | simp only [State.mk_fixed, State.fold_fixed, apply_ite Prod.snd, ite_self, State.hf_fixed, State.modFunc_fixed] | split | with_reducible refine (State.foldl_fixed _ (fun _ _ => ?_) _ _).trans ?_)

@[simp] theorem State.postFwd_fixed (s : State) (c : Cpl) :
    (State.postFwd s c).fixed = s.fixed := by
  unfold State.postFwd
  repeat' (first | with_reducible rfl | with_reducible refine State.ite_fixed ?_ ?_ | simp only [State.mk_fixed, State.fold_fixed, apply_ite Prod.snd, ite_self, State.answer_fixed] | split | with_reducible refine (State.foldl_fixed _ (fun _ _ => ?_) _ _).trans ?_)

@[simp] theorem State.mctp_fixed (s : State) (b p1 p2 : Nat) (data : List Byte) :
    (State.mctp s b p1 p2 data).fixed = s.fixed := by
  unfold State.mctp
  repeat' (first | with_reducible rfl | with_reducible refine State.ite_fixed ?_ ?_ | simp only [State.mk_fixed, State.fold_fixed, apply_ite Prod.snd, ite_self] | split | with_reducible refine (State.foldl_fixed _ (fun _ _ => ?_) _ _).trans ?_)

@[simp] theorem State.postMi_fixed (s : State) (c : Cpl) :
    (State.postMi s c).fixed = s.fixed := by
  unfold State.postMi
  repeat' (first | with_reducible rfl | with_reducible refine State.ite_fixed ?_ ?_ | simp only [State.mk_fixed, State.fold_fixed, apply_ite Prod.snd, ite_self, State.answer_fixed, State.mctp_fixed] | split | with_reducible refine (State.foldl_fixed _ (fun _ _ => ?_) _ _).trans ?_)

@[simp] theorem State.postCpl_fixed (s : State) (c : Cpl) :
    (State.postCpl s c).fixed = s.fixed := by
  unfold State.postCpl
  repeat' (first | with_reducible rfl | with_reducible refine State.ite_fixed ?_ ?_ | simp only [State.mk_fixed, State.fold_fixed, apply_ite Prod.snd, ite_self, State.hf_fixed, State.modFunc_fixed, State.postFwd_fixed, State.postMi_fixed, State.raiseInt_fixed] | split | with_reducible refine (State.foldl_fixed _ (fun _ _ => ?_) _ _).trans ?_)

@[simp] theorem State.recordLatency_fixed (s : State) (ten set t : Nat) (own : Bool) :
    (State.recordLatency s ten set t own).fixed = s.fixed := by
  unfold State.recordLatency
  repeat' (first | with_reducible rfl | with_reducible refine State.ite_fixed ?_ ?_ | simp only [State.mk_fixed, State.fold_fixed, apply_ite Prod.snd, ite_self, State.bump_fixed] | split | with_reducible refine (State.foldl_fixed _ (fun _ _ => ?_) _ _).trans ?_)

@[simp] theorem State.addHazard_fixed (s : State) (h : Hazard) :
    (State.addHazard s h).fixed = s.fixed := by
  unfold State.addHazard
  repeat' (first | with_reducible rfl | with_reducible refine State.ite_fixed ?_ ?_ | simp only [State.mk_fixed, State.fold_fixed, apply_ite Prod.snd, ite_self, State.bump_fixed, State.hf_fixed, State.setFld_fixed] | split | with_reducible refine (State.foldl_fixed _ (fun _ _ => ?_) _ _).trans ?_)

@[simp] theorem State.freeHazard_fixed (s : State) (i : Nat) :
    (State.freeHazard s i).fixed = s.fixed := by
  unfold State.freeHazard
  repeat' (first | with_reducible rfl | with_reducible refine State.ite_fixed ?_ ?_ | simp only [State.mk_fixed, State.fold_fixed, apply_ite Prod.snd, ite_self, State.drop_fixed, State.hf_fixed] | split | with_reducible refine (State.foldl_fixed _ (fun _ _ => ?_) _ _).trans ?_)

@[simp] theorem State.freeReserved_fixed (s : State) (i : Nat) :
    (State.freeReserved s i).fixed = s.fixed := by
  unfold State.freeReserved
  repeat' (first | with_reducible rfl | with_reducible refine State.ite_fixed ?_ ?_ | simp only [State.mk_fixed, State.fold_fixed, apply_ite Prod.snd, ite_self, State.releaseBufs_fixed] | split | with_reducible refine (State.foldl_fixed _ (fun _ _ => ?_) _ _).trans ?_)

@[simp] theorem State.freeSlot_fixed (s : State) (i : Nat) :
    (State.freeSlot s i).fixed = s.fixed := by
  unfold State.freeSlot
  repeat' (first | with_reducible rfl | with_reducible refine State.ite_fixed ?_ ?_ | simp only [State.mk_fixed, State.fold_fixed, apply_ite Prod.snd, ite_self, State.drop_fixed, State.freeHazard_fixed, State.freeReserved_fixed, State.hf_fixed, State.modFunc_fixed, State.returnReleased_fixed] | split | with_reducible refine (State.foldl_fixed _ (fun _ _ => ?_) _ _).trans ?_)

@[simp] theorem State.smartAdd_fixed (s : State) (key n : Nat) :
    (State.smartAdd s key n).fixed = s.fixed := by
  unfold State.smartAdd
  repeat' (first | with_reducible rfl | with_reducible refine State.ite_fixed ?_ ?_ | simp only [State.mk_fixed, State.fold_fixed, apply_ite Prod.snd, ite_self, State.hf_fixed] | split | with_reducible refine (State.foldl_fixed _ (fun _ _ => ?_) _ _).trans ?_)

@[simp] theorem State.smartCount_fixed (s : State) (x : Slot) (st : Status) :
    (State.smartCount s x st).fixed = s.fixed := by
  unfold State.smartCount
  repeat' (first | with_reducible rfl | with_reducible refine State.ite_fixed ?_ ?_ | simp only [State.mk_fixed, State.fold_fixed, apply_ite Prod.snd, ite_self, State.smartAdd_fixed] | split | with_reducible refine (State.foldl_fixed _ (fun _ _ => ?_) _ _).trans ?_)

@[simp] theorem State.complete_fixed (s : State) (i : Nat) (st : Status) (dw0 : Nat) (dw1 : Nat) (data : List Byte) :
    (State.complete s i st dw0 dw1 data).fixed = s.fixed := by
  unfold State.complete
  repeat' (first | with_reducible rfl | with_reducible refine State.ite_fixed ?_ ?_ | simp only [State.mk_fixed, State.fold_fixed, apply_ite Prod.snd, ite_self, State.freeSlot_fixed, State.hf_fixed, State.postCpl_fixed, State.recordLatency_fixed, State.smartCount_fixed] | split | with_reducible refine (State.foldl_fixed _ (fun _ _ => ?_) _ _).trans ?_)

@[simp] theorem State.adminDone_fixed (s : State) (fn : Nat) (e : Sqe) (st : Status) (dw0 : Nat) (data : List Byte) :
    (State.adminDone s fn e st dw0 data).fixed = s.fixed := by
  unfold State.adminDone
  repeat' (first | with_reducible rfl | with_reducible refine State.ite_fixed ?_ ?_ | simp only [State.mk_fixed, State.fold_fixed, apply_ite Prod.snd, ite_self, State.postCpl_fixed] | split | with_reducible refine (State.foldl_fixed _ (fun _ _ => ?_) _ _).trans ?_)

@[simp] theorem State.countWritten_fixed (s : State) (ten n : Nat) :
    (State.countWritten s ten n).fixed = s.fixed := by
  unfold State.countWritten
  repeat' (first | with_reducible rfl | with_reducible refine State.ite_fixed ?_ ?_ | simp only [State.mk_fixed, State.fold_fixed, apply_ite Prod.snd, ite_self, State.hf_fixed] | split | with_reducible refine (State.foldl_fixed _ (fun _ _ => ?_) _ _).trans ?_)

end Sys2Proof.Machine
end

