-- ==== Sys2Proof/Laws/FixAdminBase.lean ====
section
/-! SUPPORT. Operations of Machine/AdminBase.lean that keep the queue, memory, the straps and the OTP. -/

namespace Sys2Proof.Machine

set_option linter.all false

theorem State.admin_fixed {s : State} {fn : Nat} {e : Sqe} {n : AdminNeeds} {run : State → State} (hrun : ∀ v0, (run v0).fixed = v0.fixed) :
    Keeps (State.admin s fn e n run) s := by
  unfold State.admin
  repeat' (first | with_reducible rfl | with_reducible refine State.ite_fixed ?_ ?_ | with_reducible refine Keeps.next ?_ | with_reducible refine Keeps.ite ?_ ?_ | simp only [State.mk_fixed, State.fold_fixed, apply_ite Prod.snd, ite_self, hrun, State.adminDone_fixed] | split | with_reducible refine (State.foldl_fixed _ (fun _ _ => ?_) _ _).trans ?_)

theorem State.adminTunnel_fixed {s : State} {fn : Nat} {e : Sqe} {n : AdminNeeds} {ok : Bool} {run : State → State} (hrun : ∀ v0, (run v0).fixed = v0.fixed) :
    Keeps (State.adminTunnel s fn e n ok run) s := by
  unfold State.adminTunnel
  repeat' (first | with_reducible rfl | with_reducible refine State.ite_fixed ?_ ?_ | with_reducible refine Keeps.next ?_ | with_reducible refine Keeps.ite ?_ ?_ | simp only [State.mk_fixed, State.fold_fixed, apply_ite Prod.snd, ite_self, hrun] | with_reducible refine State.admin_fixed (fun _ => ?_) | split | with_reducible refine (State.foldl_fixed _ (fun _ _ => ?_) _ _).trans ?_)

@[simp] theorem State.adminData_fixed (s : State) (fn : Nat) (e : Sqe) (bytes : List Byte) (off len : Nat) :
    (State.adminData s fn e bytes off len).fixed = s.fixed := by
  unfold State.adminData
  repeat' (first | with_reducible rfl | with_reducible refine State.ite_fixed ?_ ?_ | simp only [State.mk_fixed, State.fold_fixed, apply_ite Prod.snd, ite_self, State.adminDone_fixed, State.drop_fixed] | split | with_reducible refine (State.foldl_fixed _ (fun _ _ => ?_) _ _).trans ?_)

end Sys2Proof.Machine
end

