-- ==== Sys2Proof/Laws/FixCascBase.lean ====
section
/-! SUPPORT. Operations of Machine/CascBase.lean that keep the queue, memory, the straps and the OTP. -/

namespace Sys2Proof.Machine

set_option linter.all false

@[simp] theorem State.cs_fixed (s : State) (f : Casc → Casc) :
    (State.cs s f).fixed = s.fixed := by
  unfold State.cs
  repeat' (first | with_reducible rfl | with_reducible refine State.ite_fixed ?_ ?_ | simp only [State.mk_fixed, State.fold_fixed, apply_ite Prod.snd, ite_self] | split | with_reducible refine (State.foldl_fixed _ (fun _ _ => ?_) _ _).trans ?_)

@[simp] theorem State.sendVuk_fixed (s : State) (port : Nat) (k : MsgKind) (p1 p2 : Nat) (data : List Byte) :
    (State.sendVuk s port k p1 p2 data).fixed = s.fixed := by
  unfold State.sendVuk
  repeat' (first | with_reducible rfl | with_reducible refine State.ite_fixed ?_ ?_ | simp only [State.mk_fixed, State.fold_fixed, apply_ite Prod.snd, ite_self, State.cs_fixed] | split | with_reducible refine (State.foldl_fixed _ (fun _ _ => ?_) _ _).trans ?_)

@[simp] theorem State.forward_fixed (s : State) (i : Nat) (x : Slot) (node : Nat) :
    (State.forward s i x node).fixed = s.fixed := by
  unfold State.forward
  repeat' (first | with_reducible rfl | with_reducible refine State.ite_fixed ?_ ?_ | simp only [State.mk_fixed, State.fold_fixed, apply_ite Prod.snd, ite_self, State.complete_fixed, State.cs_fixed, State.modSlot_fixed, State.sendVuk_fixed] | split | with_reducible refine (State.foldl_fixed _ (fun _ _ => ?_) _ _).trans ?_)

@[simp] theorem State.sendAdmin_fixed (s : State) (node num : Nat) (e : Sqe) (ten : Nat) :
    (State.sendAdmin s node num e ten).fixed = s.fixed := by
  unfold State.sendAdmin
  repeat' (first | with_reducible rfl | with_reducible refine State.ite_fixed ?_ ?_ | simp only [State.mk_fixed, State.fold_fixed, apply_ite Prod.snd, ite_self, State.sendVuk_fixed] | with_reducible refine State.admin_fixed (fun _ => ?_) | split | with_reducible refine (State.foldl_fixed _ (fun _ _ => ?_) _ _).trans ?_)

@[simp] theorem State.askNode_fixed (s : State) (fn node : Nat) (e : Sqe) :
    (State.askNode s fn node e).fixed = s.fixed := by
  unfold State.askNode
  repeat' (first | with_reducible rfl | with_reducible refine State.ite_fixed ?_ ?_ | simp only [State.mk_fixed, State.fold_fixed, apply_ite Prod.snd, ite_self, State.cs_fixed, State.sendAdmin_fixed] | split | with_reducible refine (State.foldl_fixed _ (fun _ _ => ?_) _ _).trans ?_)

@[simp] theorem State.toMembers_fixed (s : State) (e : Sqe) :
    (State.toMembers s e).fixed = s.fixed := by
  unfold State.toMembers
  repeat' (first | with_reducible rfl | with_reducible refine State.ite_fixed ?_ ?_ | simp only [State.mk_fixed, State.fold_fixed, apply_ite Prod.snd, ite_self, State.sendAdmin_fixed] | split | with_reducible refine (State.foldl_fixed _ (fun _ _ => ?_) _ _).trans ?_)

@[simp] theorem State.sendBoth_fixed (s : State) (k : MsgKind) (p1 p2 : Nat) (data : List Byte) :
    (State.sendBoth s k p1 p2 data).fixed = s.fixed := by
  unfold State.sendBoth
  repeat' (first | with_reducible rfl | with_reducible refine State.ite_fixed ?_ ?_ | simp only [State.mk_fixed, State.fold_fixed, apply_ite Prod.snd, ite_self, State.sendVuk_fixed] | split | with_reducible refine (State.foldl_fixed _ (fun _ _ => ?_) _ _).trans ?_)

@[simp] theorem State.reportEnum_fixed (s : State) :
    (State.reportEnum s).fixed = s.fixed := by
  unfold State.reportEnum
  repeat' (first | with_reducible rfl | with_reducible refine State.ite_fixed ?_ ?_ | simp only [State.mk_fixed, State.fold_fixed, apply_ite Prod.snd, ite_self, State.cs_fixed, State.post_fixed] | split | with_reducible refine (State.foldl_fixed _ (fun _ _ => ?_) _ _).trans ?_)

@[simp] theorem State.reportReady_fixed (s : State) (linkUp : Bool) :
    (State.reportReady s linkUp).fixed = s.fixed := by
  unfold State.reportReady
  repeat' (first | with_reducible rfl | with_reducible refine State.ite_fixed ?_ ?_ | simp only [State.mk_fixed, State.fold_fixed, apply_ite Prod.snd, ite_self, State.sendBoth_fixed] | split | with_reducible refine (State.foldl_fixed _ (fun _ _ => ?_) _ _).trans ?_)

end Sys2Proof.Machine
end

