-- ==== Sys2Proof/Laws/FixZoneState.lean ====
section
/-! SUPPORT. Operations of Machine/ZoneState.lean that keep the queue, memory, the straps and the OTP. -/

namespace Sys2Proof.Machine

set_option linter.all false

@[simp] theorem State.activeUp_fixed (s : State) (ten : Nat) :
    (State.activeUp s ten).fixed = s.fixed := by
  unfold State.activeUp
  repeat' (first | with_reducible rfl | with_reducible refine State.ite_fixed ?_ ?_ | simp only [State.mk_fixed, State.fold_fixed, apply_ite Prod.snd, ite_self, State.bump_fixed] | split | with_reducible refine (State.foldl_fixed _ (fun _ _ => ?_) _ _).trans ?_)

@[simp] theorem State.activeDown_fixed (s : State) (ten : Nat) :
    (State.activeDown s ten).fixed = s.fixed := by
  unfold State.activeDown
  repeat' (first | with_reducible rfl | with_reducible refine State.ite_fixed ?_ ?_ | simp only [State.mk_fixed, State.fold_fixed, apply_ite Prod.snd, ite_self, State.drop_fixed] | split | with_reducible refine (State.foldl_fixed _ (fun _ _ => ?_) _ _).trans ?_)

@[simp] theorem State.openUp_fixed (s : State) (ten : Nat) :
    (State.openUp s ten).fixed = s.fixed := by
  unfold State.openUp
  repeat' (first | with_reducible rfl | with_reducible refine State.ite_fixed ?_ ?_ | simp only [State.mk_fixed, State.fold_fixed, apply_ite Prod.snd, ite_self, State.bump_fixed] | split | with_reducible refine (State.foldl_fixed _ (fun _ _ => ?_) _ _).trans ?_)

@[simp] theorem State.openDown_fixed (s : State) (ten : Nat) :
    (State.openDown s ten).fixed = s.fixed := by
  unfold State.openDown
  repeat' (first | with_reducible rfl | with_reducible refine State.ite_fixed ?_ ?_ | simp only [State.mk_fixed, State.fold_fixed, apply_ite Prod.snd, ite_self, State.drop_fixed] | split | with_reducible refine (State.foldl_fixed _ (fun _ _ => ?_) _ _).trans ?_)

@[simp] theorem State.releaseCounts_fixed (s : State) (z : Zone) :
    (State.releaseCounts s z).fixed = s.fixed := by
  unfold State.releaseCounts
  repeat' (first | with_reducible rfl | with_reducible refine State.ite_fixed ?_ ?_ | simp only [State.mk_fixed, State.fold_fixed, apply_ite Prod.snd, ite_self, State.activeDown_fixed, State.openDown_fixed] | split | with_reducible refine (State.foldl_fixed _ (fun _ _ => ?_) _ _).trans ?_)

@[simp] theorem State.postAen_fixed (s : State) (fn dw0 : Nat) :
    (State.postAen s fn dw0).fixed = s.fixed := by
  unfold State.postAen
  repeat' (first | with_reducible rfl | with_reducible refine State.ite_fixed ?_ ?_ | simp only [State.mk_fixed, State.fold_fixed, apply_ite Prod.snd, ite_self, State.modFunc_fixed, State.postCpl_fixed] | split | with_reducible refine (State.foldl_fixed _ (fun _ _ => ?_) _ _).trans ?_)

@[simp] theorem State.notify_fixed (s : State) (fns : List Nat) (cfgBit dw0 : Nat) :
    (State.notify s fns cfgBit dw0).fixed = s.fixed := by
  unfold State.notify
  repeat' (first | with_reducible rfl | with_reducible refine State.ite_fixed ?_ ?_ | simp only [State.mk_fixed, State.fold_fixed, apply_ite Prod.snd, ite_self, State.postAen_fixed] | split | with_reducible refine (State.foldl_fixed _ (fun _ _ => ?_) _ _).trans ?_)

@[simp] theorem State.zoneAen_fixed (s : State) (zmi : Nat) :
    (State.zoneAen s zmi).fixed = s.fixed := by
  unfold State.zoneAen
  repeat' (first | with_reducible rfl | with_reducible refine State.ite_fixed ?_ ?_ | simp only [State.mk_fixed, State.fold_fixed, apply_ite Prod.snd, ite_self, State.modFunc_fixed, State.notify_fixed] | split | with_reducible refine (State.foldl_fixed _ (fun _ _ => ?_) _ _).trans ?_)

@[simp] theorem State.linkRuns_fixed (s : State) (zmi : Nat) :
    (State.linkRuns s zmi).fixed = s.fixed := by
  unfold State.linkRuns
  repeat' (first | with_reducible rfl | with_reducible refine State.ite_fixed ?_ ?_ | simp only [State.mk_fixed, State.fold_fixed, apply_ite Prod.snd, ite_self, State.modZone_fixed, State.zn_fixed] | split | with_reducible refine (State.foldl_fixed _ (fun _ _ => ?_) _ _).trans ?_)

@[simp] theorem State.dropRuns_fixed (s : State) (zmi below : Nat) :
    (State.dropRuns s zmi below).fixed = s.fixed := by
  unfold State.dropRuns
  repeat' (first | with_reducible rfl | with_reducible refine State.ite_fixed ?_ ?_ | simp only [State.mk_fixed, State.fold_fixed, apply_ite Prod.snd, ite_self, State.linkRuns_fixed, State.zn_fixed] | split | with_reducible refine (State.foldl_fixed _ (fun _ _ => ?_) _ _).trans ?_)

@[simp] theorem State.showStage_fixed (s : State) :
    (State.showStage s).fixed = s.fixed := by
  unfold State.showStage
  repeat' (first | with_reducible rfl | with_reducible refine State.ite_fixed ?_ ?_ | simp only [State.mk_fixed, State.fold_fixed, apply_ite Prod.snd, ite_self, State.setFld_fixed] | split | with_reducible refine (State.foldl_fixed _ (fun _ _ => ?_) _ _).trans ?_)

@[simp] theorem State.reapStage_fixed (s : State) :
    (State.reapStage s).fixed = s.fixed := by
  unfold State.reapStage
  repeat' (first | with_reducible rfl | with_reducible refine State.ite_fixed ?_ ?_ | simp only [State.mk_fixed, State.fold_fixed, apply_ite Prod.snd, ite_self, State.releaseAll_fixed, State.setFld_fixed, State.showStage_fixed, State.zn_fixed] | split | with_reducible refine (State.foldl_fixed _ (fun _ _ => ?_) _ _).trans ?_)

@[simp] theorem State.dropStripe_fixed (s : State) (k : Nat) :
    (State.dropStripe s k).fixed = s.fixed := by
  unfold State.dropStripe
  repeat' (first | with_reducible rfl | with_reducible refine State.ite_fixed ?_ ?_ | simp only [State.mk_fixed, State.fold_fixed, apply_ite Prod.snd, ite_self, State.freeShelf_fixed, State.huskWrite_fixed, State.zn_fixed] | split | with_reducible refine (State.foldl_fixed _ (fun _ _ => ?_) _ _).trans ?_)

@[simp] theorem State.disownErases_fixed (s : State) (blks : List Nat) :
    (State.disownErases s blks).fixed = s.fixed := by
  unfold State.disownErases
  repeat' (first | with_reducible rfl | with_reducible refine State.ite_fixed ?_ ?_ | simp only [State.mk_fixed, State.fold_fixed, apply_ite Prod.snd, ite_self, State.zn_fixed] | split | with_reducible refine (State.foldl_fixed _ (fun _ _ => ?_) _ _).trans ?_)

@[simp] theorem State.abandonJobs_fixed (s : State) (zmi : Nat) :
    (State.abandonJobs s zmi).fixed = s.fixed := by
  unfold State.abandonJobs
  repeat' (first | with_reducible rfl | with_reducible refine State.ite_fixed ?_ ?_ | simp only [State.mk_fixed, State.fold_fixed, apply_ite Prod.snd, ite_self, State.disownErases_fixed, State.releaseAll_fixed, State.zn_fixed] | split | with_reducible refine (State.foldl_fixed _ (fun _ _ => ?_) _ _).trans ?_)

@[simp] theorem State.clearLost_fixed (s : State) (zmi : Nat) :
    (State.clearLost s zmi).fixed = s.fixed := by
  unfold State.clearLost
  repeat' (first | with_reducible rfl | with_reducible refine State.ite_fixed ?_ ?_ | simp only [State.mk_fixed, State.fold_fixed, apply_ite Prod.snd, ite_self, State.zn_fixed] | split | with_reducible refine (State.foldl_fixed _ (fun _ _ => ?_) _ _).trans ?_)

@[simp] theorem State.releaseZone_fixed (s : State) (zmi : Nat) :
    (State.releaseZone s zmi).fixed = s.fixed := by
  unfold State.releaseZone
  repeat' (first | with_reducible rfl | with_reducible refine State.ite_fixed ?_ ?_ | simp only [State.mk_fixed, State.fold_fixed, apply_ite Prod.snd, ite_self, State.abandonJobs_fixed, State.clearLost_fixed, State.dropStripe_fixed, State.hk_fixed, State.modZone_fixed, State.reapStage_fixed, State.releaseAll_fixed, State.releaseBufs_fixed, State.zn_fixed] | split | with_reducible refine (State.foldl_fixed _ (fun _ _ => ?_) _ _).trans ?_)

@[simp] theorem State.emptyOrOffline_fixed (s : State) (zmi : Nat) :
    (State.emptyOrOffline s zmi).fixed = s.fixed := by
  unfold State.emptyOrOffline
  repeat' (first | with_reducible rfl | with_reducible refine State.ite_fixed ?_ ?_ | simp only [State.mk_fixed, State.fold_fixed, apply_ite Prod.snd, ite_self, State.modZone_fixed, State.znePost_fixed, State.zoneAen_fixed] | split | with_reducible refine (State.foldl_fixed _ (fun _ _ => ?_) _ _).trans ?_)

@[simp] theorem State.resetZone_fixed (s : State) (zmi : Nat) :
    (State.resetZone s zmi).fixed = s.fixed := by
  unfold State.resetZone
  repeat' (first | with_reducible rfl | with_reducible refine State.ite_fixed ?_ ?_ | simp only [State.mk_fixed, State.fold_fixed, apply_ite Prod.snd, ite_self, State.emptyOrOffline_fixed, State.modZone_fixed, State.releaseCounts_fixed, State.releaseZone_fixed, State.unbindGen_fixed] | split | with_reducible refine (State.foldl_fixed _ (fun _ _ => ?_) _ _).trans ?_)

@[simp] theorem State.offlineZone_fixed (s : State) (zmi : Nat) :
    (State.offlineZone s zmi).fixed = s.fixed := by
  unfold State.offlineZone
  repeat' (first | with_reducible rfl | with_reducible refine State.ite_fixed ?_ ?_ | simp only [State.mk_fixed, State.fold_fixed, apply_ite Prod.snd, ite_self, State.modZone_fixed, State.releaseCounts_fixed, State.releaseZone_fixed, State.unbindGen_fixed] | split | with_reducible refine (State.foldl_fixed _ (fun _ _ => ?_) _ _).trans ?_)

@[simp] theorem State.readOnlyZone_fixed (s : State) (zmi : Nat) :
    (State.readOnlyZone s zmi).fixed = s.fixed := by
  unfold State.readOnlyZone
  repeat' (first | with_reducible rfl | with_reducible refine State.ite_fixed ?_ ?_ | simp only [State.mk_fixed, State.fold_fixed, apply_ite Prod.snd, ite_self, State.closingAdd_fixed, State.modZone_fixed, State.releaseCounts_fixed, State.zoneAen_fixed] | split | with_reducible refine (State.foldl_fixed _ (fun _ _ => ?_) _ _).trans ?_)

@[simp] theorem State.fullZone_fixed (s : State) (zmi : Nat) (byController : Bool) :
    (State.fullZone s zmi byController).fixed = s.fixed := by
  unfold State.fullZone
  repeat' (first | with_reducible rfl | with_reducible refine State.ite_fixed ?_ ?_ | simp only [State.mk_fixed, State.fold_fixed, apply_ite Prod.snd, ite_self, State.closingAdd_fixed, State.modZone_fixed, State.releaseCounts_fixed] | split | with_reducible refine (State.foldl_fixed _ (fun _ _ => ?_) _ _).trans ?_)

@[simp] theorem State.zeroData_fixed (s : State) (zmi off : Nat) :
    (State.zeroData s zmi off).2.fixed = s.fixed := by
  unfold State.zeroData
  repeat' (first | with_reducible rfl | with_reducible refine State.ite_fixed ?_ ?_ | simp only [State.mk_fixed, State.fold_fixed, apply_ite Prod.snd, ite_self, State.encryptBlk_fixed] | with_reducible refine (State.encryptBlk_fixed_of (by assumption)).trans ?_ | split | with_reducible refine (State.foldl_fixed _ (fun _ _ => ?_) _ _).trans ?_)

theorem State.zeroData_fixed_of {s : State} {zmi off : Nat} {x0} {t : State} (h : State.zeroData s zmi off = (x0, t)) : t.fixed = s.fixed := by
  have := State.zeroData_fixed s zmi off
  rw [h] at this
  exact this

@[simp] theorem State.padBuffers_fixed (s : State) (zmi : Nat) (rx : List Nat) :
    (State.padBuffers s zmi rx).fixed = s.fixed := by
  induction rx generalizing s with
  | nil =>
    simp only [State.padBuffers]
    repeat' (first | with_reducible rfl | with_reducible refine State.ite_fixed ?_ ?_ | simp only [State.mk_fixed, State.fold_fixed, apply_ite Prod.snd, ite_self, State.modBuf_fixed, State.reserveBuf_fixed, State.zeroData_fixed] | with_reducible refine (State.reserveBuf_fixed_of (by assumption)).trans ?_ | with_reducible refine (State.zeroData_fixed_of (by assumption)).trans ?_ | split | with_reducible refine (State.foldl_fixed _ (fun _ _ => ?_) _ _).trans ?_)
  | cons _ _ ih =>
    simp only [State.padBuffers]
    repeat' (first | with_reducible rfl | with_reducible refine State.ite_fixed ?_ ?_ | simp only [State.mk_fixed, State.fold_fixed, apply_ite Prod.snd, ite_self, State.modBuf_fixed, State.reserveBuf_fixed, State.zeroData_fixed, ih] | with_reducible refine (State.reserveBuf_fixed_of (by assumption)).trans ?_ | with_reducible refine (State.zeroData_fixed_of (by assumption)).trans ?_ | split | with_reducible refine (State.foldl_fixed _ (fun _ _ => ?_) _ _).trans ?_)

@[simp] theorem State.finishActive_fixed (s : State) (zmi : Nat) (byController : Bool) :
    (State.finishActive s zmi byController).fixed = s.fixed := by
  unfold State.finishActive
  repeat' (first | with_reducible rfl | with_reducible refine State.ite_fixed ?_ ?_ | simp only [State.mk_fixed, State.fold_fixed, apply_ite Prod.snd, ite_self, State.fullZone_fixed, State.padBuffers_fixed, State.retryCommits_fixed] | split | with_reducible refine (State.foldl_fixed _ (fun _ _ => ?_) _ _).trans ?_)

@[simp] theorem State.finishByController_fixed (s : State) (zmi : Nat) :
    (State.finishByController s zmi).fixed = s.fixed := by
  unfold State.finishByController
  repeat' (first | with_reducible rfl | with_reducible refine State.ite_fixed ?_ ?_ | simp only [State.mk_fixed, State.fold_fixed, apply_ite Prod.snd, ite_self, State.disownErases_fixed, State.dropStripe_fixed, State.fullZone_fixed, State.hk_fixed, State.modZone_fixed, State.releaseAll_fixed, State.zn_fixed, State.znePost_fixed, State.zoneAen_fixed] | split | with_reducible refine (State.foldl_fixed _ (fun _ _ => ?_) _ _).trans ?_)

@[simp] theorem State.bodyMapped_fixed (s : State) (zmi : Nat) :
    (State.bodyMapped s zmi).fixed = s.fixed := by
  unfold State.bodyMapped
  repeat' (first | with_reducible rfl | with_reducible refine State.ite_fixed ?_ ?_ | simp only [State.mk_fixed, State.fold_fixed, apply_ite Prod.snd, ite_self, State.fullZone_fixed, State.modZone_fixed, State.readOnlyZone_fixed, State.retryCommits_fixed, State.zn_fixed] | split | with_reducible refine (State.foldl_fixed _ (fun _ _ => ?_) _ _).trans ?_)

@[simp] theorem State.takeMember_fixed (s : State) (f : EraseFor) (e : RingEnt) :
    (State.takeMember s f e).fixed = s.fixed := by
  unfold State.takeMember
  repeat' (first | with_reducible rfl | with_reducible refine State.ite_fixed ?_ ?_ | simp only [State.mk_fixed, State.fold_fixed, apply_ite Prod.snd, ite_self, State.beginErase_fixed] | split | with_reducible refine (State.foldl_fixed _ (fun _ _ => ?_) _ _).trans ?_)

@[simp] theorem State.allocPending_fixed (s : State) (zmi : Nat) :
    (State.allocPending s zmi).fixed = s.fixed := by
  unfold State.allocPending
  repeat' (first | with_reducible rfl | with_reducible refine State.ite_fixed ?_ ?_ | simp only [State.mk_fixed, State.fold_fixed, apply_ite Prod.snd, ite_self, State.bodyMapped_fixed, State.finishByController_fixed, State.takeMember_fixed, State.zn_fixed] | with_reducible refine (State.allocBody_fixed_of (by assumption)).trans ?_ | split | with_reducible refine (State.foldl_fixed _ (fun _ _ => ?_) _ _).trans ?_)

@[simp] theorem State.leaveEmpty_fixed (s : State) (zmi : Nat) (rs : ZState) :
    (State.leaveEmpty s zmi rs).fixed = s.fixed := by
  unfold State.leaveEmpty
  repeat' (first | with_reducible rfl | with_reducible refine State.ite_fixed ?_ ?_ | simp only [State.mk_fixed, State.fold_fixed, apply_ite Prod.snd, ite_self, State.activeUp_fixed, State.allocPending_fixed, State.bindGen_fixed, State.modZone_fixed, State.openUp_fixed] | split | with_reducible refine (State.foldl_fixed _ (fun _ _ => ?_) _ _).trans ?_)

@[simp] theorem State.replacePending_fixed (s : State) (zmi b : Nat) :
    (State.replacePending s zmi b).fixed = s.fixed := by
  unfold State.replacePending
  repeat' (first | with_reducible rfl | with_reducible refine State.ite_fixed ?_ ?_ | simp only [State.mk_fixed, State.fold_fixed, apply_ite Prod.snd, ite_self, State.bodyMapped_fixed, State.dropErase_fixed, State.finishByController_fixed, State.modBlk_fixed, State.takeEnt_fixed, State.takeMember_fixed, State.zn_fixed] | split | with_reducible refine (State.foldl_fixed _ (fun _ _ => ?_) _ _).trans ?_)

@[simp] theorem State.closeZone_fixed (s : State) (zmi : Nat) :
    (State.closeZone s zmi).fixed = s.fixed := by
  unfold State.closeZone
  repeat' (first | with_reducible rfl | with_reducible refine State.ite_fixed ?_ ?_ | simp only [State.mk_fixed, State.fold_fixed, apply_ite Prod.snd, ite_self, State.modZone_fixed, State.openDown_fixed] | split | with_reducible refine (State.foldl_fixed _ (fun _ _ => ?_) _ _).trans ?_)

@[simp] theorem State.implicitClose_fixed (s : State) (v : Nat) :
    (State.implicitClose s v).fixed = s.fixed := by
  unfold State.implicitClose
  repeat' (first | with_reducible rfl | with_reducible refine State.ite_fixed ?_ ?_ | simp only [State.mk_fixed, State.fold_fixed, apply_ite Prod.snd, ite_self, State.closeZone_fixed, State.znePost_fixed] | split | with_reducible refine (State.foldl_fixed _ (fun _ _ => ?_) _ _).trans ?_)

@[simp] theorem State.openForWrite_fixed (s : State) (zmi : Nat) (victim : Option Nat) :
    (State.openForWrite s zmi victim).fixed = s.fixed := by
  unfold State.openForWrite
  repeat' (first | with_reducible rfl | with_reducible refine State.ite_fixed ?_ ?_ | simp only [State.mk_fixed, State.fold_fixed, apply_ite Prod.snd, ite_self, State.implicitClose_fixed, State.leaveEmpty_fixed, State.modZone_fixed, State.openUp_fixed] | split | with_reducible refine (State.foldl_fixed _ (fun _ _ => ?_) _ _).trans ?_)

@[simp] theorem State.openZone_fixed (s : State) (zmi : Nat) :
    (State.openZone s zmi).2.fixed = s.fixed := by
  unfold State.openZone
  repeat' (first | with_reducible rfl | with_reducible refine State.ite_fixed ?_ ?_ | simp only [State.mk_fixed, State.fold_fixed, apply_ite Prod.snd, ite_self, State.leaveEmpty_fixed, State.modZone_fixed, State.openUp_fixed] | split | with_reducible refine (State.foldl_fixed _ (fun _ _ => ?_) _ _).trans ?_)

theorem State.openZone_fixed_of {s : State} {zmi : Nat} {x0} {t : State} (h : State.openZone s zmi = (x0, t)) : t.fixed = s.fixed := by
  have := State.openZone_fixed s zmi
  rw [h] at this
  exact this

end Sys2Proof.Machine
end

