-- ==== Sys2Proof/Laws/FixSlc.lean ====
section
/-! SUPPORT. Operations of Machine/Slc.lean that keep the queue, memory, the straps and the OTP. -/

namespace Sys2Proof.Machine

set_option linter.all false

@[simp] theorem State.showSegs_fixed (s : State) :
    (State.showSegs s).fixed = s.fixed := by
  unfold State.showSegs
  repeat' (first | with_reducible rfl | with_reducible refine State.ite_fixed ?_ ?_ | simp only [State.mk_fixed, State.fold_fixed, apply_ite Prod.snd, ite_self, State.setFld_fixed] | split | with_reducible refine (State.foldl_fixed _ (fun _ _ => ?_) _ _).trans ?_)

theorem State.allocSlc_fixed (s : State) (set : Nat) (st : SegSt) (ns ruh : Nat) :
    KeepsO (State.allocSlc s set st ns ruh) s := by
  unfold State.allocSlc
  repeat' (first | with_reducible rfl | with_reducible refine State.ite_fixed ?_ ?_ | with_reducible exact KeepsO.none | with_reducible refine KeepsO.some ?_ | simp only [State.mk_fixed, State.fold_fixed, apply_ite Prod.snd, ite_self, State.showSegs_fixed, State.takeMember_fixed, State.zn_fixed] | with_reducible refine (State.allocBody_fixed_of (by assumption)).trans ?_ | split | with_reducible refine (State.foldl_fixed _ (fun _ _ => ?_) _ _).trans ?_)

theorem State.allocSlc_fixed_of {s : State} {set : Nat} {st : SegSt} {ns ruh : Nat} {x0} {t : State} (h : State.allocSlc s set st ns ruh = some (x0, t)) : t.fixed = s.fixed := by
  have := State.allocSlc_fixed s set st ns ruh
  rw [h] at this
  exact this

@[simp] theorem State.modSlc_fixed (s : State) (b : Nat) (f : SlcBody → SlcBody) :
    (State.modSlc s b f).fixed = s.fixed := by
  unfold State.modSlc
  repeat' (first | with_reducible rfl | with_reducible refine State.ite_fixed ?_ ?_ | simp only [State.mk_fixed, State.fold_fixed, apply_ite Prod.snd, ite_self, State.zn_fixed] | split | with_reducible refine (State.foldl_fixed _ (fun _ _ => ?_) _ _).trans ?_)

@[simp] theorem State.slcMapped_fixed (s : State) (b : Nat) :
    (State.slcMapped s b).fixed = s.fixed := by
  unfold State.slcMapped
  repeat' (first | with_reducible rfl | with_reducible refine State.ite_fixed ?_ ?_ | simp only [State.mk_fixed, State.fold_fixed, apply_ite Prod.snd, ite_self, State.modSlc_fixed, State.retryCommits_fixed] | split | with_reducible refine (State.foldl_fixed _ (fun _ _ => ?_) _ _).trans ?_)

@[simp] theorem State.openSlcStripe_fixed (s : State) (of_ : StripeOf) (members : List Nat) (set : Nat) (verify bg : Bool) :
    (State.openSlcStripe s of_ members set verify bg).2.fixed = s.fixed := by
  unfold State.openSlcStripe
  repeat' (first | with_reducible rfl | with_reducible refine State.ite_fixed ?_ ?_ | simp only [State.mk_fixed, State.fold_fixed, apply_ite Prod.snd, ite_self, State.fresh_fixed, State.zn_fixed] | with_reducible refine (State.fresh_fixed_of (by assumption)).trans ?_ | split | with_reducible refine (State.foldl_fixed _ (fun _ _ => ?_) _ _).trans ?_)

theorem State.openSlcStripe_fixed_of {s : State} {of_ : StripeOf} {members : List Nat} {set : Nat} {verify bg : Bool} {x0} {t : State} (h : State.openSlcStripe s of_ members set verify bg = (x0, t)) : t.fixed = s.fixed := by
  have := State.openSlcStripe_fixed s of_ members set verify bg
  rw [h] at this
  exact this

@[simp] theorem State.nextStage_fixed (s : State) (set : Nat) (verify : Bool) :
    (State.nextStage s set verify).2.fixed = s.fixed := by
  unfold State.nextStage
  repeat' (first | with_reducible rfl | with_reducible refine State.ite_fixed ?_ ?_ | simp only [State.mk_fixed, State.fold_fixed, apply_ite Prod.snd, ite_self, State.modSlc_fixed, State.modStripe_fixed, State.openSlcStripe_fixed, State.setFld_fixed, State.showStage_fixed, State.zn_fixed, State.znePost_fixed] | with_reducible refine (State.allocSlc_fixed_of (by assumption)).trans ?_ | with_reducible refine (State.openSlcStripe_fixed_of (by assumption)).trans ?_ | split | with_reducible refine (State.foldl_fixed _ (fun _ _ => ?_) _ _).trans ?_)

theorem State.nextStage_fixed_of {s : State} {set : Nat} {verify : Bool} {x0} {t : State} (h : State.nextStage s set verify = (x0, t)) : t.fixed = s.fixed := by
  have := State.nextStage_fixed s set verify
  rw [h] at this
  exact this

@[simp] theorem State.wantStripe_fixed (s : State) (k : Nat) :
    (State.wantStripe s k).fixed = s.fixed := by
  unfold State.wantStripe
  repeat' (first | with_reducible rfl | with_reducible refine State.ite_fixed ?_ ?_ | simp only [State.mk_fixed, State.fold_fixed, apply_ite Prod.snd, ite_self, State.commitStripe_fixed, State.modStripe_fixed] | split | with_reducible refine (State.foldl_fixed _ (fun _ _ => ?_) _ _).trans ?_)

@[simp] theorem State.packInto_fixed (s : State) (k : Nat) (own : BufOwner) (buf src : Option Nat) (mv : Option Moved) :
    (State.packInto s k own buf src mv).fixed = s.fixed := by
  unfold State.packInto
  repeat' (first | with_reducible rfl | with_reducible refine State.ite_fixed ?_ ?_ | simp only [State.mk_fixed, State.fold_fixed, apply_ite Prod.snd, ite_self, State.modStripe_fixed, State.wantStripe_fixed] | split | with_reducible refine (State.foldl_fixed _ (fun _ _ => ?_) _ _).trans ?_)

@[simp] theorem State.stageCw_fixed (s : State) (set zmi off : Nat) (buf src : Option Nat) (verify : Bool) (mv : Option Moved) :
    (State.stageCw s set zmi off buf src verify mv).2.fixed = s.fixed := by
  unfold State.stageCw
  repeat' (first | with_reducible rfl | with_reducible refine State.ite_fixed ?_ ?_ | simp only [State.mk_fixed, State.fold_fixed, apply_ite Prod.snd, ite_self, State.nextStage_fixed, State.packInto_fixed, State.wantStripe_fixed] | with_reducible refine (State.nextStage_fixed_of (by assumption)).trans ?_ | split | with_reducible refine (State.foldl_fixed _ (fun _ _ => ?_) _ _).trans ?_)

theorem State.stageCw_fixed_of {s : State} {set zmi off : Nat} {buf src : Option Nat} {verify : Bool} {mv : Option Moved} {x0} {t : State} (h : State.stageCw s set zmi off buf src verify mv = (x0, t)) : t.fixed = s.fixed := by
  have := State.stageCw_fixed s set zmi off buf src verify mv
  rw [h] at this
  exact this

@[simp] theorem State.reapSeg_fixed (s : State) (b : Nat) :
    (State.reapSeg s b).fixed = s.fixed := by
  unfold State.reapSeg
  repeat' (first | with_reducible rfl | with_reducible refine State.ite_fixed ?_ ?_ | simp only [State.mk_fixed, State.fold_fixed, apply_ite Prod.snd, ite_self, State.releaseAll_fixed, State.showSegs_fixed, State.zn_fixed] | split | with_reducible refine (State.foldl_fixed _ (fun _ _ => ?_) _ _).trans ?_)

@[simp] theorem State.dropValid_fixed (s : State) (e : Option MapEntry) :
    (State.dropValid s e).fixed = s.fixed := by
  unfold State.dropValid
  repeat' (first | with_reducible rfl | with_reducible refine State.ite_fixed ?_ ?_ | simp only [State.mk_fixed, State.fold_fixed, apply_ite Prod.snd, ite_self, State.modSlc_fixed, State.reapSeg_fixed] | split | with_reducible refine (State.foldl_fixed _ (fun _ _ => ?_) _ _).trans ?_)

@[simp] theorem State.savePages_fixed (s : State) (ps : List Nat) :
    (State.savePages s ps).fixed = s.fixed := by
  unfold State.savePages
  repeat' (first | with_reducible rfl | with_reducible refine State.ite_fixed ?_ ?_ | simp only [State.mk_fixed, State.fold_fixed, apply_ite Prod.snd, ite_self, State.showDirty_fixed, State.zn_fixed] | split | with_reducible refine (State.foldl_fixed _ (fun _ _ => ?_) _ _).trans ?_)

@[simp] theorem State.pagesLanded_fixed (s : State) (pack : List PackCw) :
    (State.pagesLanded s pack).fixed = s.fixed := by
  unfold State.pagesLanded
  repeat' (first | with_reducible rfl | with_reducible refine State.ite_fixed ?_ ?_ | simp only [State.mk_fixed, State.fold_fixed, apply_ite Prod.snd, ite_self, State.savePages_fixed] | split | with_reducible refine (State.foldl_fixed _ (fun _ _ => ?_) _ _).trans ?_)

@[simp] theorem State.setEntry_fixed (s : State) (n lba : Nat) (e : Option MapEntry) :
    (State.setEntry s n lba e).fixed = s.fixed := by
  unfold State.setEntry
  repeat' (first | with_reducible rfl | with_reducible refine State.ite_fixed ?_ ?_ | simp only [State.mk_fixed, State.fold_fixed, apply_ite Prod.snd, ite_self, State.dropValid_fixed, State.modSlc_fixed, State.showDirty_fixed, State.zn_fixed] | split | with_reducible refine (State.foldl_fixed _ (fun _ _ => ?_) _ _).trans ?_)

@[simp] theorem State.segCheck_fixed (s : State) (set : Nat) :
    (State.segCheck s set).fixed = s.fixed := by
  unfold State.segCheck
  repeat' (first | with_reducible rfl | with_reducible refine State.ite_fixed ?_ ?_ | simp only [State.mk_fixed, State.fold_fixed, apply_ite Prod.snd, ite_self, State.setFld_fixed, State.zn_fixed, State.znePost_fixed] | split | with_reducible refine (State.foldl_fixed _ (fun _ _ => ?_) _ _).trans ?_)

@[simp] theorem State.nextConv_fixed (s : State) (ns ruh : Nat) (reclaim : Bool) :
    (State.nextConv s ns ruh reclaim).2.fixed = s.fixed := by
  unfold State.nextConv
  repeat' (first | with_reducible rfl | with_reducible refine State.ite_fixed ?_ ?_ | simp only [State.mk_fixed, State.fold_fixed, apply_ite Prod.snd, ite_self, State.fresh_fixed, State.modSlc_fixed, State.openSlcStripe_fixed, State.segCheck_fixed, State.zn_fixed] | with_reducible refine (State.allocSlc_fixed_of (by assumption)).trans ?_ | with_reducible refine (State.fresh_fixed_of (by assumption)).trans ?_ | with_reducible refine (State.openSlcStripe_fixed_of (by assumption)).trans ?_ | split | with_reducible refine (State.foldl_fixed _ (fun _ _ => ?_) _ _).trans ?_)

theorem State.nextConv_fixed_of {s : State} {ns ruh : Nat} {reclaim : Bool} {x0} {t : State} (h : State.nextConv s ns ruh reclaim = (x0, t)) : t.fixed = s.fixed := by
  have := State.nextConv_fixed s ns ruh reclaim
  rw [h] at this
  exact this

@[simp] theorem State.convCw_fixed (s : State) (ns lba ruh : Nat) (reclaim : Bool) (buf src : Option Nat) (mv : Option Moved) :
    (State.convCw s ns lba ruh reclaim buf src mv).2.fixed = s.fixed := by
  unfold State.convCw
  repeat' (first | with_reducible rfl | with_reducible refine State.ite_fixed ?_ ?_ | simp only [State.mk_fixed, State.fold_fixed, apply_ite Prod.snd, ite_self, State.nextConv_fixed, State.packInto_fixed] | with_reducible refine (State.nextConv_fixed_of (by assumption)).trans ?_ | split | with_reducible refine (State.foldl_fixed _ (fun _ _ => ?_) _ _).trans ?_)

theorem State.convCw_fixed_of {s : State} {ns lba ruh : Nat} {reclaim : Bool} {buf src : Option Nat} {mv : Option Moved} {x0} {t : State} (h : State.convCw s ns lba ruh reclaim buf src mv = (x0, t)) : t.fixed = s.fixed := by
  have := State.convCw_fixed s ns lba ruh reclaim buf src mv
  rw [h] at this
  exact this

@[simp] theorem State.segFull_fixed (s : State) (b : Nat) :
    (State.segFull s b).fixed = s.fixed := by
  unfold State.segFull
  repeat' (first | with_reducible rfl | with_reducible refine State.ite_fixed ?_ ?_ | simp only [State.mk_fixed, State.fold_fixed, apply_ite Prod.snd, ite_self, State.modSlc_fixed, State.reapSeg_fixed, State.zn_fixed] | split | with_reducible refine (State.foldl_fixed _ (fun _ _ => ?_) _ _).trans ?_)

@[simp] theorem State.addLost_fixed (s : State) (k st cw members : Nat) (slc : Bool) :
    (State.addLost s k st cw members slc).2.fixed = s.fixed := by
  unfold State.addLost
  repeat' (first | with_reducible rfl | with_reducible refine State.ite_fixed ?_ ?_ | simp only [State.mk_fixed, State.fold_fixed, apply_ite Prod.snd, ite_self, State.zn_fixed] | split | with_reducible refine (State.foldl_fixed _ (fun _ _ => ?_) _ _).trans ?_)

theorem State.addLost_fixed_of {s : State} {k st cw members : Nat} {slc : Bool} {x0} {t : State} (h : State.addLost s k st cw members slc = (x0, t)) : t.fixed = s.fixed := by
  have := State.addLost_fixed s k st cw members slc
  rw [h] at this
  exact this

@[simp] theorem State.publishEntry_fixed (s : State) (si : Nat) (c : PackCw) :
    (State.publishEntry s si c).fixed = s.fixed := by
  unfold State.publishEntry
  repeat' (first | with_reducible rfl | with_reducible refine State.ite_fixed ?_ ?_ | simp only [State.mk_fixed, State.fold_fixed, apply_ite Prod.snd, ite_self, State.addLost_fixed, State.setEntry_fixed] | with_reducible refine (State.addLost_fixed_of (by assumption)).trans ?_ | split | with_reducible refine (State.foldl_fixed _ (fun _ _ => ?_) _ _).trans ?_)

@[simp] theorem State.publishConv_fixed (s : State) (si : Nat) (c : PackCw) :
    (State.publishConv s si c).fixed = s.fixed := by
  unfold State.publishConv
  repeat' (first | with_reducible rfl | with_reducible refine State.ite_fixed ?_ ?_ | simp only [State.mk_fixed, State.fold_fixed, apply_ite Prod.snd, ite_self, State.bump_fixed, State.publishEntry_fixed] | split | with_reducible refine (State.foldl_fixed _ (fun _ _ => ?_) _ _).trans ?_)

end Sys2Proof.Machine
end

