-- ==== Sys2Proof/Laws/FixReadPath.lean ====
section
/-! SUPPORT. Operations of Machine/ReadPath.lean that keep the queue, memory, the straps and the OTP. -/

namespace Sys2Proof.Machine

set_option linter.all false

@[simp] theorem State.rowLost_fixed (s : State) (own : StripeOf) (row : List Nat) (cw erased : Nat) :
    (State.rowLost s own row cw erased).fixed = s.fixed := by
  unfold State.rowLost
  repeat' (first | with_reducible rfl | with_reducible refine State.ite_fixed ?_ ?_ | simp only [State.mk_fixed, State.fold_fixed, apply_ite Prod.snd, ite_self, State.addLost_fixed, State.bump_fixed, State.post_fixed, State.queueRefresh_fixed, State.readOnlyZone_fixed, State.zn_fixed] | with_reducible refine (State.addLost_fixed_of (by assumption)).trans ?_ | split | with_reducible refine (State.foldl_fixed _ (fun _ _ => ?_) _ _).trans ?_)

@[simp] theorem State.pruneLost_fixed (s : State) :
    (State.pruneLost s).fixed = s.fixed := by
  unfold State.pruneLost
  repeat' (first | with_reducible rfl | with_reducible refine State.ite_fixed ?_ ?_ | simp only [State.mk_fixed, State.fold_fixed, apply_ite Prod.snd, ite_self, State.zn_fixed] | split | with_reducible refine (State.foldl_fixed _ (fun _ _ => ?_) _ _).trans ?_)

@[simp] theorem State.ceBuffer_fixed (s : State) (pool i : Nat) :
    (State.ceBuffer s pool i).fixed = s.fixed := by
  unfold State.ceBuffer
  repeat' (first | with_reducible rfl | with_reducible refine State.ite_fixed ?_ ?_ | simp only [State.mk_fixed, State.fold_fixed, apply_ite Prod.snd, ite_self, State.drawFree_fixed, State.sc_fixed] | with_reducible refine (State.drawFree_fixed_of (by assumption)).trans ?_ | split | with_reducible refine (State.foldl_fixed _ (fun _ _ => ?_) _ _).trans ?_)

@[simp] theorem State.bufferFailed_fixed (s : State) (i : Nat) (program : Bool) :
    (State.bufferFailed s i program).fixed = s.fixed := by
  unfold State.bufferFailed
  repeat' (first | with_reducible rfl | with_reducible refine State.ite_fixed ?_ ?_ | simp only [State.mk_fixed, State.fold_fixed, apply_ite Prod.snd, ite_self, State.ceBuffer_fixed, State.modBuf_fixed, State.readOnlyZone_fixed, State.rowLost_fixed, State.zn_fixed, State.znePost_fixed] | split | with_reducible refine (State.foldl_fixed _ (fun _ _ => ?_) _ _).trans ?_)

@[simp] theorem State.modRecon_fixed (s : State) (k : Nat) (f : Recon → Recon) :
    (State.modRecon s k f).fixed = s.fixed := by
  unfold State.modRecon
  repeat' (first | with_reducible rfl | with_reducible refine State.ite_fixed ?_ ?_ | simp only [State.mk_fixed, State.fold_fixed, apply_ite Prod.snd, ite_self, State.zn_fixed] | split | with_reducible refine (State.foldl_fixed _ (fun _ _ => ?_) _ _).trans ?_)

@[simp] theorem State.postHelpers_fixed (s : State) (k : Nat) (r : Recon) (ms : List Nat) :
    (State.postHelpers s k r ms).fixed = s.fixed := by
  unfold State.postHelpers
  repeat' (first | with_reducible rfl | with_reducible refine State.ite_fixed ?_ ?_ | simp only [State.mk_fixed, State.fold_fixed, apply_ite Prod.snd, ite_self, State.enqueue_fixed, State.modRecon_fixed] | split | with_reducible refine (State.foldl_fixed _ (fun _ _ => ?_) _ _).trans ?_)

@[simp] theorem State.markDead_fixed (s : State) (k : Nat) (r : Recon) :
    (State.markDead s k r).fixed = s.fixed := by
  unfold State.markDead
  repeat' (first | with_reducible rfl | with_reducible refine State.ite_fixed ?_ ?_ | simp only [State.mk_fixed, State.fold_fixed, apply_ite Prod.snd, ite_self, State.modRecon_fixed] | split | with_reducible refine (State.foldl_fixed _ (fun _ _ => ?_) _ _).trans ?_)

@[simp] theorem State.advanceRecon_fixed (s : State) (k : Nat) :
    (State.advanceRecon s k).fixed = s.fixed := by
  unfold State.advanceRecon
  repeat' (first | with_reducible rfl | with_reducible refine State.ite_fixed ?_ ?_ | simp only [State.mk_fixed, State.fold_fixed, apply_ite Prod.snd, ite_self, State.markDead_fixed, State.modRecon_fixed, State.postHelpers_fixed] | split | with_reducible refine (State.foldl_fixed _ (fun _ _ => ?_) _ _).trans ?_)

@[simp] theorem State.eraseMember_fixed (s : State) (k m : Nat) (hard : Bool) :
    (State.eraseMember s k m hard).fixed = s.fixed := by
  unfold State.eraseMember
  repeat' (first | with_reducible rfl | with_reducible refine State.ite_fixed ?_ ?_ | simp only [State.mk_fixed, State.fold_fixed, apply_ite Prod.snd, ite_self, State.advanceRecon_fixed, State.modRecon_fixed] | split | with_reducible refine (State.foldl_fixed _ (fun _ _ => ?_) _ _).trans ?_)

@[simp] theorem State.startRecon_fixed (s : State) (for_ : ReconFor) (own : StripeOf) (row : List Nat) (slice cw : Nat) (slc : Bool) (target : Nat) (targetHard around degraded racing : Bool) (busy : List Nat) (cls ten : Nat) :
    (State.startRecon s for_ own row slice cw slc target targetHard around degraded racing busy cls ten).fixed = s.fixed := by
  unfold State.startRecon
  repeat' (first | with_reducible rfl | with_reducible refine State.ite_fixed ?_ ?_ | simp only [State.mk_fixed, State.fold_fixed, apply_ite Prod.snd, ite_self, State.advanceRecon_fixed, State.fresh_fixed, State.zn_fixed] | with_reducible refine (State.fresh_fixed_of (by assumption)).trans ?_ | split | with_reducible refine (State.foldl_fixed _ (fun _ _ => ?_) _ _).trans ?_)

@[simp] theorem State.withdrawOps_fixed (s : State) (p : DieOp → Bool) :
    (State.withdrawOps s p).fixed = s.fixed := by
  unfold State.withdrawOps
  repeat' (first | with_reducible rfl | with_reducible refine State.ite_fixed ?_ ?_ | simp only [State.mk_fixed, State.fold_fixed, apply_ite Prod.snd, ite_self, State.freeStaging_fixed, State.fresh_fixed, State.modDie_fixed, State.showPods_fixed, State.showPower_fixed, State.zn_fixed] | with_reducible refine (State.fresh_fixed_of (by assumption)).trans ?_ | split | with_reducible refine (State.foldl_fixed _ (fun _ _ => ?_) _ _).trans ?_)

@[simp] theorem State.dropHelpers_fixed (s : State) (k : Nat) :
    (State.dropHelpers s k).fixed = s.fixed := by
  unfold State.dropHelpers
  repeat' (first | with_reducible rfl | with_reducible refine State.ite_fixed ?_ ?_ | simp only [State.mk_fixed, State.fold_fixed, apply_ite Prod.snd, ite_self, State.withdrawOps_fixed] | split | with_reducible refine (State.foldl_fixed _ (fun _ _ => ?_) _ _).trans ?_)

@[simp] theorem State.endRecon_fixed (s : State) (k : Nat) :
    (State.endRecon s k).fixed = s.fixed := by
  unfold State.endRecon
  repeat' (first | with_reducible rfl | with_reducible refine State.ite_fixed ?_ ?_ | simp only [State.mk_fixed, State.fold_fixed, apply_ite Prod.snd, ite_self, State.advanceRecon_fixed, State.dropHelpers_fixed, State.modRecon_fixed, State.zn_fixed] | split | with_reducible refine (State.foldl_fixed _ (fun _ _ => ?_) _ _).trans ?_)

@[simp] theorem State.decideRead_fixed (s : State) (o : DieOp) :
    (State.decideRead s o).fixed = s.fixed := by
  unfold State.decideRead
  repeat' (first | with_reducible rfl | with_reducible refine State.ite_fixed ?_ ?_ | simp only [State.mk_fixed, State.fold_fixed, apply_ite Prod.snd, ite_self, State.bump_fixed, State.enqueue_fixed, State.requestSuspend_fixed, State.startRecon_fixed] | split | with_reducible refine (State.foldl_fixed _ (fun _ _ => ?_) _ _).trans ?_)

@[simp] theorem State.backRead_fixed (s : State) (o : DieOp) :
    (State.backRead s o).fixed = s.fixed := by
  unfold State.backRead
  repeat' (first | with_reducible rfl | with_reducible refine State.ite_fixed ?_ ?_ | simp only [State.mk_fixed, State.fold_fixed, apply_ite Prod.snd, ite_self, State.enqueue_fixed, State.startRecon_fixed] | split | with_reducible refine (State.foldl_fixed _ (fun _ _ => ?_) _ _).trans ?_)

@[simp] theorem State.issueReads_fixed (s : State) (cls ten : Nat) (p : Purpose) (cs : List CwRead) :
    (State.issueReads s cls ten p cs).fixed = s.fixed := by
  unfold State.issueReads
  repeat' (first | with_reducible rfl | with_reducible refine State.ite_fixed ?_ ?_ | simp only [State.mk_fixed, State.fold_fixed, apply_ite Prod.snd, ite_self, State.backRead_fixed, State.cs_fixed, State.decideRead_fixed] | split | with_reducible refine (State.foldl_fixed _ (fun _ _ => ?_) _ _).trans ?_)

end Sys2Proof.Machine
end

