-- ==== Sys2Proof/Laws/FixServe.lean ====
section
/-! SUPPORT. Operations of Machine/Serve.lean that keep the queue, memory, the straps and the OTP. -/

namespace Sys2Proof.Machine

set_option linter.all false

@[simp] theorem State.setBlock_fixed (s : State) (i key : Nat) (b : RBlk) :
    (State.setBlock s i key b).fixed = s.fixed := by
  unfold State.setBlock
  repeat' (first | with_reducible rfl | with_reducible refine State.ite_fixed ?_ ?_ | simp only [State.mk_fixed, State.fold_fixed, apply_ite Prod.snd, ite_self, State.modSlot_fixed] | split | with_reducible refine (State.foldl_fixed _ (fun _ _ => ?_) _ _).trans ?_)

@[simp] theorem State.openBlock_fixed (s : State) (i key n gen lba : Nat) (d : Blk) (h : Hmd) :
    (State.openBlock s i key n gen lba d h).fixed = s.fixed := by
  unfold State.openBlock
  repeat' (first | with_reducible rfl | with_reducible refine State.ite_fixed ?_ ?_ | simp only [State.mk_fixed, State.fold_fixed, apply_ite Prod.snd, ite_self, State.decryptBlk_fixed, State.setBlock_fixed] | with_reducible refine (State.decryptBlk_fixed_of (by assumption)).trans ?_ | split | with_reducible refine (State.foldl_fixed _ (fun _ _ => ?_) _ _).trans ?_)

@[simp] theorem State.lookup_fixed (s : State) (i n key lba : Nat) (bad : List Nat) :
    (State.lookup s i n key lba bad).2.fixed = s.fixed := by
  unfold State.lookup
  repeat' (first | with_reducible rfl | with_reducible refine State.ite_fixed ?_ ?_ | simp only [State.mk_fixed, State.fold_fixed, apply_ite Prod.snd, ite_self, State.bufferFailed_fixed, State.bump_fixed, State.modSlot_fixed, State.openBlock_fixed, State.setBlock_fixed] | split | with_reducible refine (State.foldl_fixed _ (fun _ _ => ?_) _ _).trans ?_)

theorem State.lookup_fixed_of {s : State} {i n key lba : Nat} {bad : List Nat} {x0} {t : State} (h : State.lookup s i n key lba bad = (x0, t)) : t.fixed = s.fixed := by
  have := State.lookup_fixed s i n key lba bad
  rw [h] at this
  exact this

@[simp] theorem State.lookupAll_fixed (s : State) (i n : Nat) (bad : List Nat) (rx : List (Nat × Nat)) :
    (State.lookupAll s i n bad rx).2.fixed = s.fixed := by
  induction rx generalizing s with
  | nil =>
    simp only [State.lookupAll]
    repeat' (first | with_reducible rfl | with_reducible refine State.ite_fixed ?_ ?_ | simp only [State.mk_fixed, State.fold_fixed, apply_ite Prod.snd, ite_self, State.cs_fixed, State.lookup_fixed] | with_reducible refine (State.lookup_fixed_of (by assumption)).trans ?_ | split | with_reducible refine (State.foldl_fixed _ (fun _ _ => ?_) _ _).trans ?_)
  | cons _ _ ih =>
    simp only [State.lookupAll]
    repeat' (first | with_reducible rfl | with_reducible refine State.ite_fixed ?_ ?_ | simp only [State.mk_fixed, State.fold_fixed, apply_ite Prod.snd, ite_self, State.cs_fixed, State.lookup_fixed, ih] | with_reducible refine (State.lookup_fixed_of (by assumption)).trans ?_ | split | with_reducible refine (State.foldl_fixed _ (fun _ _ => ?_) _ _).trans ?_)

theorem State.lookupAll_fixed_of {s : State} {i n : Nat} {bad : List Nat} {rx : List (Nat × Nat)} {x0} {t : State} (h : State.lookupAll s i n bad rx = (x0, t)) : t.fixed = s.fixed := by
  have := State.lookupAll_fixed s i n bad rx
  rw [h] at this
  exact this

@[simp] theorem State.reportLost_fixed (s : State) (x : Slot) :
    (State.reportLost s x).fixed = s.fixed := by
  unfold State.reportLost
  repeat' (first | with_reducible rfl | with_reducible refine State.ite_fixed ?_ ?_ | simp only [State.mk_fixed, State.fold_fixed, apply_ite Prod.snd, ite_self, State.znePost_fixed] | split | with_reducible refine (State.foldl_fixed _ (fun _ _ => ?_) _ _).trans ?_)

@[simp] theorem State.convWrite_fixed (s : State) (i : Nat) (x : Slot) :
    (State.convWrite s i x).fixed = s.fixed := by
  unfold State.convWrite
  repeat' (first | with_reducible rfl | with_reducible refine State.ite_fixed ?_ ?_ | simp only [State.mk_fixed, State.fold_fixed, apply_ite Prod.snd, ite_self, State.complete_fixed, State.fresh_fixed, State.modBuf_fixed, State.modSlot_fixed] | with_reducible refine (State.fresh_fixed_of (by assumption)).trans ?_ | split | with_reducible refine (State.foldl_fixed _ (fun _ _ => ?_) _ _).trans ?_)

@[simp] theorem State.fusedGoesOn_fixed (s : State) (i : Nat) (x : Slot) (w : Sqe) :
    (State.fusedGoesOn s i x w).fixed = s.fixed := by
  unfold State.fusedGoesOn
  repeat' (first | with_reducible rfl | with_reducible refine State.ite_fixed ?_ ?_ | simp only [State.mk_fixed, State.fold_fixed, apply_ite Prod.snd, ite_self, State.convWrite_fixed, State.modSlot_fixed, State.postCpl_fixed] | split | with_reducible refine (State.foldl_fixed _ (fun _ _ => ?_) _ _).trans ?_)

@[simp] theorem State.settleRead_fixed (s : State) (i : Nat) (x : Slot) :
    (State.settleRead s i x).fixed = s.fixed := by
  unfold State.settleRead
  repeat' (first | with_reducible rfl | with_reducible refine State.ite_fixed ?_ ?_ | simp only [State.mk_fixed, State.fold_fixed, apply_ite Prod.snd, ite_self, State.complete_fixed, State.fusedGoesOn_fixed, State.postCpl_fixed, State.reportLost_fixed] | split | with_reducible refine (State.foldl_fixed _ (fun _ _ => ?_) _ _).trans ?_)

@[simp] theorem State.copyReads_fixed (s : State) (i : Nat) (x : Slot) (ks : List Nat) :
    (State.copyReads s i x ks).fixed = s.fixed := by
  unfold State.copyReads
  repeat' (first | with_reducible rfl | with_reducible refine State.ite_fixed ?_ ?_ | simp only [State.mk_fixed, State.fold_fixed, apply_ite Prod.snd, ite_self, State.cs_fixed, State.issueReads_fixed, State.lookupAll_fixed] | with_reducible refine (State.lookupAll_fixed_of (by assumption)).trans ?_ | split | with_reducible refine (State.foldl_fixed _ (fun _ _ => ?_) _ _).trans ?_)

@[simp] theorem State.endCopy_fixed (s : State) (i : Nat) (x : Slot) (st : Status) :
    (State.endCopy s i x st).fixed = s.fixed := by
  unfold State.endCopy
  repeat' (first | with_reducible rfl | with_reducible refine State.ite_fixed ?_ ?_ | simp only [State.mk_fixed, State.fold_fixed, apply_ite Prod.snd, ite_self, State.complete_fixed, State.modZone_fixed] | split | with_reducible refine (State.foldl_fixed _ (fun _ _ => ?_) _ _).trans ?_)

theorem State.copyBuffer_fixed (s : State) (i : Nat) (x : Slot) :
    KeepsO (State.copyBuffer s i x) s := by
  unfold State.copyBuffer
  repeat' (first | with_reducible rfl | with_reducible refine State.ite_fixed ?_ ?_ | with_reducible exact KeepsO.none | with_reducible refine KeepsO.some ?_ | simp only [State.mk_fixed, State.fold_fixed, apply_ite Prod.snd, ite_self, State.reserveBuf_fixed] | with_reducible refine (State.reserveBuf_fixed_of (by assumption)).trans ?_ | split | with_reducible refine (State.foldl_fixed _ (fun _ _ => ?_) _ _).trans ?_)

theorem State.copyBuffer_fixed_of {s : State} {i : Nat} {x : Slot} {x0} {t : State} (h : State.copyBuffer s i x = some (x0, t)) : t.fixed = s.fixed := by
  have := State.copyBuffer_fixed s i x
  rw [h] at this
  exact this

@[simp] theorem State.copyLand_fixed (s : State) (i : Nat) (rx : Nat) :
    (State.copyLand s i rx).fixed = s.fixed := by
  induction rx generalizing s with
  | zero =>
    simp only [State.copyLand]
    repeat' (first | with_reducible rfl | with_reducible refine State.ite_fixed ?_ ?_ | simp only [State.mk_fixed, State.fold_fixed, apply_ite Prod.snd, ite_self, State.copyReads_fixed, State.countWritten_fixed, State.encryptBlk_fixed, State.endCopy_fixed, State.fullZone_fixed, State.modBuf_fixed, State.modSlot_fixed, State.modZone_fixed, State.tryCommitBody_fixed] | with_reducible refine (State.copyBuffer_fixed_of (by assumption)).trans ?_ | with_reducible refine (State.encryptBlk_fixed_of (by assumption)).trans ?_ | split | with_reducible refine (State.foldl_fixed _ (fun _ _ => ?_) _ _).trans ?_)
  | succ _ ih =>
    simp only [State.copyLand]
    repeat' (first | with_reducible rfl | with_reducible refine State.ite_fixed ?_ ?_ | simp only [State.mk_fixed, State.fold_fixed, apply_ite Prod.snd, ite_self, State.copyReads_fixed, State.countWritten_fixed, State.encryptBlk_fixed, State.endCopy_fixed, State.fullZone_fixed, State.modBuf_fixed, State.modSlot_fixed, State.modZone_fixed, State.tryCommitBody_fixed, ih] | with_reducible refine (State.copyBuffer_fixed_of (by assumption)).trans ?_ | with_reducible refine (State.encryptBlk_fixed_of (by assumption)).trans ?_ | split | with_reducible refine (State.foldl_fixed _ (fun _ _ => ?_) _ _).trans ?_)

@[simp] theorem State.retryCopies_fixed (s : State) :
    (State.retryCopies s).fixed = s.fixed := by
  unfold State.retryCopies
  repeat' (first | with_reducible rfl | with_reducible refine State.ite_fixed ?_ ?_ | simp only [State.mk_fixed, State.fold_fixed, apply_ite Prod.snd, ite_self, State.copyLand_fixed] | split | with_reducible refine (State.foldl_fixed _ (fun _ _ => ?_) _ _).trans ?_)

@[simp] theorem State.writeDone_fixed (s : State) (i : Nat) :
    (State.writeDone s i).fixed = s.fixed := by
  unfold State.writeDone
  repeat' (first | with_reducible rfl | with_reducible refine State.ite_fixed ?_ ?_ | simp only [State.mk_fixed, State.fold_fixed, apply_ite Prod.snd, ite_self, State.complete_fixed] | split | with_reducible refine (State.foldl_fixed _ (fun _ _ => ?_) _ _).trans ?_)

@[simp] theorem State.placeConv_fixed (s : State) (i : Nat) (x : Slot) :
    (State.placeConv s i x).fixed = s.fixed := by
  unfold State.placeConv
  repeat' (first | with_reducible rfl | with_reducible refine State.ite_fixed ?_ ?_ | simp only [State.mk_fixed, State.fold_fixed, apply_ite Prod.snd, ite_self, State.convCw_fixed, State.countWritten_fixed, State.modSlot_fixed, State.setEntry_fixed] | with_reducible refine (State.convCw_fixed_of (by assumption)).trans ?_ | split | with_reducible refine (State.foldl_fixed _ (fun _ _ => ?_) _ _).trans ?_)

@[simp] theorem State.deallocate_fixed (s : State) (i : Nat) (x : Slot) :
    (State.deallocate s i x).fixed = s.fixed := by
  unfold State.deallocate
  repeat' (first | with_reducible rfl | with_reducible refine State.ite_fixed ?_ ?_ | simp only [State.mk_fixed, State.fold_fixed, apply_ite Prod.snd, ite_self, State.complete_fixed, State.modSlot_fixed, State.setEntry_fixed] | split | with_reducible refine (State.foldl_fixed _ (fun _ _ => ?_) _ _).trans ?_)

@[simp] theorem State.advanceConv_fixed (s : State) (i : Nat) :
    (State.advanceConv s i).fixed = s.fixed := by
  unfold State.advanceConv
  repeat' (first | with_reducible rfl | with_reducible refine State.ite_fixed ?_ ?_ | simp only [State.mk_fixed, State.fold_fixed, apply_ite Prod.snd, ite_self, State.cs_fixed, State.deallocate_fixed, State.issueReads_fixed, State.lookupAll_fixed, State.placeConv_fixed, State.settleRead_fixed, State.writeDone_fixed] | with_reducible refine (State.lookupAll_fixed_of (by assumption)).trans ?_ | split | with_reducible refine (State.foldl_fixed _ (fun _ _ => ?_) _ _).trans ?_)

@[simp] theorem State.wakeConv_fixed (s : State) :
    (State.wakeConv s).fixed = s.fixed := by
  unfold State.wakeConv
  repeat' (first | with_reducible rfl | with_reducible refine State.ite_fixed ?_ ?_ | simp only [State.mk_fixed, State.fold_fixed, apply_ite Prod.snd, ite_self, State.advanceConv_fixed] | split | with_reducible refine (State.foldl_fixed _ (fun _ _ => ?_) _ _).trans ?_)

@[simp] theorem State.settle_fixed (s : State) (i : Nat) :
    (State.settle s i).fixed = s.fixed := by
  unfold State.settle
  repeat' (first | with_reducible rfl | with_reducible refine State.ite_fixed ?_ ?_ | simp only [State.mk_fixed, State.fold_fixed, apply_ite Prod.snd, ite_self, State.copyLand_fixed, State.settleRead_fixed, State.wakeConv_fixed] | split | with_reducible refine (State.foldl_fixed _ (fun _ _ => ?_) _ _).trans ?_)

@[simp] theorem State.serve_fixed (s : State) (i key : Nat) (b : RBlk) :
    (State.serve s i key b).fixed = s.fixed := by
  unfold State.serve
  repeat' (first | with_reducible rfl | with_reducible refine State.ite_fixed ?_ ?_ | simp only [State.mk_fixed, State.fold_fixed, apply_ite Prod.snd, ite_self, State.setBlock_fixed, State.settle_fixed] | split | with_reducible refine (State.foldl_fixed _ (fun _ _ => ?_) _ _).trans ?_)

@[simp] theorem State.releaseAssigned_fixed (s : State) (zmi off : Nat) :
    (State.releaseAssigned s zmi off).fixed = s.fixed := by
  unfold State.releaseAssigned
  repeat' (first | with_reducible rfl | with_reducible refine State.ite_fixed ?_ ?_ | simp only [State.mk_fixed, State.fold_fixed, apply_ite Prod.snd, ite_self, State.lookup_fixed, State.settle_fixed] | with_reducible refine (State.lookup_fixed_of (by assumption)).trans ?_ | split | with_reducible refine (State.foldl_fixed _ (fun _ _ => ?_) _ _).trans ?_)

@[simp] theorem State.placeZoned_fixed (s : State) (i k zmi off : Nat) :
    (State.placeZoned s i k zmi off).fixed = s.fixed := by
  unfold State.placeZoned
  repeat' (first | with_reducible rfl | with_reducible refine State.ite_fixed ?_ ?_ | simp only [State.mk_fixed, State.fold_fixed, apply_ite Prod.snd, ite_self, State.countWritten_fixed, State.modSlot_fixed, State.releaseAssigned_fixed, State.tryCommitBody_fixed, State.writeDone_fixed] | split | with_reducible refine (State.foldl_fixed _ (fun _ _ => ?_) _ _).trans ?_)

end Sys2Proof.Machine
end

