-- ==== Sys2Proof/Laws/FixReclaim.lean ====
section
/-! SUPPORT. Operations of Machine/Reclaim.lean that keep the queue, memory, the straps and the OTP. -/

namespace Sys2Proof.Machine

set_option linter.all false

@[simp] theorem State.collect_fixed (s : State) (locs : List Nat) :
    (State.collect s locs).fixed = s.fixed := by
  unfold State.collect
  repeat' (first | with_reducible rfl | with_reducible refine State.ite_fixed ?_ ?_ | simp only [State.mk_fixed, State.fold_fixed, apply_ite Prod.snd, ite_self, State.issueReads_fixed] | split | with_reducible refine (State.foldl_fixed _ (fun _ _ => ?_) _ _).trans ?_)

@[simp] theorem State.reclaimSeg_fixed (s : State) (b : Nat) :
    (State.reclaimSeg s b).fixed = s.fixed := by
  unfold State.reclaimSeg
  repeat' (first | with_reducible rfl | with_reducible refine State.ite_fixed ?_ ?_ | simp only [State.mk_fixed, State.fold_fixed, apply_ite Prod.snd, ite_self, State.collect_fixed, State.modSlc_fixed, State.reapSeg_fixed] | split | with_reducible refine (State.foldl_fixed _ (fun _ _ => ?_) _ _).trans ?_)

@[simp] theorem State.runReclaim_fixed (s : State) :
    (State.runReclaim s).fixed = s.fixed := by
  unfold State.runReclaim
  repeat' (first | with_reducible rfl | with_reducible refine State.ite_fixed ?_ ?_ | simp only [State.mk_fixed, State.fold_fixed, apply_ite Prod.snd, ite_self, State.reclaimSeg_fixed] | split | with_reducible refine (State.foldl_fixed _ (fun _ _ => ?_) _ _).trans ?_)

@[simp] theorem State.reclaimStep_fixed (s : State) :
    (State.reclaimStep s).fixed = s.fixed := by
  unfold State.reclaimStep
  repeat' (first | with_reducible rfl | with_reducible refine State.ite_fixed ?_ ?_ | simp only [State.mk_fixed, State.fold_fixed, apply_ite Prod.snd, ite_self, State.runReclaim_fixed, State.segCheck_fixed] | split | with_reducible refine (State.foldl_fixed _ (fun _ _ => ?_) _ _).trans ?_)

end Sys2Proof.Machine
end

