-- ==== Sys2Proof/Laws/FixHostWrite.lean ====
section
/-! SUPPORT. Operations of Machine/HostWrite.lean that keep the queue, memory, the straps and the OTP. -/

namespace Sys2Proof.Machine

set_option linter.all false

@[simp] theorem State.assignLba_fixed (s : State) (i : Nat) (x : Slot) (zmi nlb : Nat) :
    (State.assignLba s i x zmi nlb).fixed = s.fixed := by
  unfold State.assignLba
  repeat' (first | with_reducible rfl | with_reducible refine State.ite_fixed ?_ ?_ | simp only [State.mk_fixed, State.fold_fixed, apply_ite Prod.snd, ite_self, State.fullZone_fixed, State.modBuf_fixed, State.modSlot_fixed, State.modZone_fixed] | split | with_reducible refine (State.foldl_fixed _ (fun _ _ => ?_) _ _).trans ?_)

@[simp] theorem State.zonedWrite_fixed (s : State) (i : Nat) (x : Slot) (append : Bool) :
    (State.zonedWrite s i x append).fixed = s.fixed := by
  unfold State.zonedWrite
  repeat' (first | with_reducible rfl | with_reducible refine State.ite_fixed ?_ ?_ | simp only [State.mk_fixed, State.fold_fixed, apply_ite Prod.snd, ite_self, State.assignLba_fixed, State.complete_fixed, State.openForWrite_fixed] | split | with_reducible refine (State.foldl_fixed _ (fun _ _ => ?_) _ _).trans ?_)

theorem execWrite_fixed (i : Fin 65536) (s : State) :
    Keeps (execWrite i s) s := by
  unfold execWrite
  repeat' (first | with_reducible rfl | with_reducible refine State.ite_fixed ?_ ?_ | with_reducible refine Keeps.next ?_ | with_reducible refine Keeps.ite ?_ ?_ | simp only [State.mk_fixed, State.fold_fixed, apply_ite Prod.snd, ite_self, State.complete_fixed, State.convWrite_fixed, State.zonedWrite_fixed] | split | with_reducible refine (State.foldl_fixed _ (fun _ _ => ?_) _ _).trans ?_)

theorem execZoneAppend_fixed (i : Fin 65536) (s : State) :
    Keeps (execZoneAppend i s) s := by
  unfold execZoneAppend
  repeat' (first | with_reducible rfl | with_reducible refine State.ite_fixed ?_ ?_ | with_reducible refine Keeps.next ?_ | with_reducible refine Keeps.ite ?_ ?_ | simp only [State.mk_fixed, State.fold_fixed, apply_ite Prod.snd, ite_self, State.complete_fixed, State.zonedWrite_fixed] | split | with_reducible refine (State.foldl_fixed _ (fun _ _ => ?_) _ _).trans ?_)

theorem execCopy_fixed (c : CopyIn) (s : State) :
    Keeps (execCopy c s) s := by
  unfold execCopy
  repeat' (first | with_reducible rfl | with_reducible refine State.ite_fixed ?_ ?_ | with_reducible refine Keeps.next ?_ | with_reducible refine Keeps.ite ?_ ?_ | simp only [State.mk_fixed, State.fold_fixed, apply_ite Prod.snd, ite_self, State.complete_fixed, State.copyReads_fixed, State.modSlot_fixed, State.modZone_fixed, State.openForWrite_fixed, State.settle_fixed] | split | with_reducible refine (State.foldl_fixed _ (fun _ _ => ?_) _ _).trans ?_)

theorem execHostDataArrival_fixed (i : Fin 65536) (k : Fin 65536) (d : Blk) (h : Hmd) (s : State) :
    Keeps (execHostDataArrival i k d h s) s := by
  unfold execHostDataArrival
  repeat' (first | with_reducible rfl | with_reducible refine State.ite_fixed ?_ ?_ | with_reducible refine Keeps.next ?_ | with_reducible refine Keeps.ite ?_ ?_ | simp only [State.mk_fixed, State.fold_fixed, apply_ite Prod.snd, ite_self, State.encryptBlk_fixed, State.modBuf_fixed, State.modSlot_fixed, State.placeZoned_fixed, State.releaseBuf_fixed, State.wakeConv_fixed, State.writeDone_fixed] | with_reducible refine (State.encryptBlk_fixed_of (by assumption)).trans ?_ | split | with_reducible refine (State.foldl_fixed _ (fun _ _ => ?_) _ _).trans ?_)

theorem execDmcBufferAck_fixed (b : Fin 524288) (s : State) :
    Keeps (execDmcBufferAck b s) s := by
  unfold execDmcBufferAck
  repeat' (first | with_reducible rfl | with_reducible refine State.ite_fixed ?_ ?_ | with_reducible refine Keeps.next ?_ | with_reducible refine Keeps.ite ?_ ?_ | simp only [State.mk_fixed, State.fold_fixed, apply_ite Prod.snd, ite_self, State.modBuf_fixed, State.placeZoned_fixed, State.reclaimStep_fixed, State.releaseAssigned_fixed, State.tryCommitBody_fixed, State.wakeConv_fixed] | split | with_reducible refine (State.foldl_fixed _ (fun _ _ => ?_) _ _).trans ?_)

@[simp] theorem State.voidBuffers_fixed (s : State) (zmi : Nat) (rx : List (Nat × Nat)) :
    (State.voidBuffers s zmi rx).fixed = s.fixed := by
  induction rx generalizing s with
  | nil =>
    simp only [State.voidBuffers]
    repeat' (first | with_reducible rfl | with_reducible refine State.ite_fixed ?_ ?_ | simp only [State.mk_fixed, State.fold_fixed, apply_ite Prod.snd, ite_self, State.modBuf_fixed, State.zeroData_fixed] | with_reducible refine (State.zeroData_fixed_of (by assumption)).trans ?_ | split | with_reducible refine (State.foldl_fixed _ (fun _ _ => ?_) _ _).trans ?_)
  | cons _ _ ih =>
    simp only [State.voidBuffers]
    repeat' (first | with_reducible rfl | with_reducible refine State.ite_fixed ?_ ?_ | simp only [State.mk_fixed, State.fold_fixed, apply_ite Prod.snd, ite_self, State.modBuf_fixed, State.zeroData_fixed, ih] | with_reducible refine (State.zeroData_fixed_of (by assumption)).trans ?_ | split | with_reducible refine (State.foldl_fixed _ (fun _ _ => ?_) _ _).trans ?_)

@[simp] theorem State.voidFill_fixed (s : State) (i : Nat) :
    (State.voidFill s i).fixed = s.fixed := by
  unfold State.voidFill
  repeat' (first | with_reducible rfl | with_reducible refine State.ite_fixed ?_ ?_ | simp only [State.mk_fixed, State.fold_fixed, apply_ite Prod.snd, ite_self, State.releaseAssigned_fixed, State.tryCommitBody_fixed, State.voidBuffers_fixed, State.znePost_fixed] | split | with_reducible refine (State.foldl_fixed _ (fun _ _ => ?_) _ _).trans ?_)

@[simp] theorem State.giveUpConv_fixed (s : State) (i : Nat) :
    (State.giveUpConv s i).fixed = s.fixed := by
  unfold State.giveUpConv
  repeat' (first | with_reducible rfl | with_reducible refine State.ite_fixed ?_ ?_ | simp only [State.mk_fixed, State.fold_fixed, apply_ite Prod.snd, ite_self, State.modSlot_fixed, State.releaseBufs_fixed, State.wakeConv_fixed] | split | with_reducible refine (State.foldl_fixed _ (fun _ _ => ?_) _ _).trans ?_)

@[simp] theorem State.transferFail_fixed (s : State) (i : Nat) (st : Status) :
    (State.transferFail s i st).fixed = s.fixed := by
  unfold State.transferFail
  repeat' (first | with_reducible rfl | with_reducible refine State.ite_fixed ?_ ?_ | simp only [State.mk_fixed, State.fold_fixed, apply_ite Prod.snd, ite_self, State.giveUpConv_fixed, State.modSlot_fixed, State.voidFill_fixed, State.writeDone_fixed] | split | with_reducible refine (State.foldl_fixed _ (fun _ _ => ?_) _ _).trans ?_)

theorem execTransferFailure_fixed (x : XferIn) (s : State) :
    Keeps (execTransferFailure x s) s := by
  unfold execTransferFailure
  repeat' (first | with_reducible rfl | with_reducible refine State.ite_fixed ?_ ?_ | with_reducible refine Keeps.next ?_ | with_reducible refine Keeps.ite ?_ ?_ | simp only [State.mk_fixed, State.fold_fixed, apply_ite Prod.snd, ite_self, State.transferFail_fixed] | split | with_reducible refine (State.foldl_fixed _ (fun _ _ => ?_) _ _).trans ?_)

end Sys2Proof.Machine
end

