-- ==== Sys2Proof/Laws/FixHostRead.lean ====
section
/-! SUPPORT. Operations of Machine/HostRead.lean that keep the queue, memory, the straps and the OTP. -/

namespace Sys2Proof.Machine

set_option linter.all false

@[simp] theorem State.startRead_fixed (s : State) (i : Nat) (x : Slot) (bad : List Nat) :
    (State.startRead s i x bad).fixed = s.fixed := by
  unfold State.startRead
  repeat' (first | with_reducible rfl | with_reducible refine State.ite_fixed ?_ ?_ | simp only [State.mk_fixed, State.fold_fixed, apply_ite Prod.snd, ite_self, State.complete_fixed, State.cs_fixed, State.issueReads_fixed, State.lookupAll_fixed, State.modSlot_fixed, State.setBlock_fixed, State.settle_fixed] | with_reducible refine (State.lookupAll_fixed_of (by assumption)).trans ?_ | split | with_reducible refine (State.foldl_fixed _ (fun _ _ => ?_) _ _).trans ?_)

theorem execRead_fixed (i : Fin 65536) (bad : List Nat) (s : State) :
    Keeps (execRead i bad s) s := by
  unfold execRead
  repeat' (first | with_reducible rfl | with_reducible refine State.ite_fixed ?_ ?_ | with_reducible refine Keeps.next ?_ | with_reducible refine Keeps.ite ?_ ?_ | simp only [State.mk_fixed, State.fold_fixed, apply_ite Prod.snd, ite_self, State.startRead_fixed] | split | with_reducible refine (State.foldl_fixed _ (fun _ _ => ?_) _ _).trans ?_)

theorem execCompare_fixed (i : Fin 65536) (bad : List Nat) (s : State) :
    Keeps (execCompare i bad s) s := by
  unfold execCompare
  repeat' (first | with_reducible rfl | with_reducible refine State.ite_fixed ?_ ?_ | with_reducible refine Keeps.next ?_ | with_reducible refine Keeps.ite ?_ ?_ | simp only [State.mk_fixed, State.fold_fixed, apply_ite Prod.snd, ite_self, State.startRead_fixed] | split | with_reducible refine (State.foldl_fixed _ (fun _ _ => ?_) _ _).trans ?_)

theorem execFusedCompareWrite_fixed (i : Fin 65536) (bad : List Nat) (s : State) :
    Keeps (execFusedCompareWrite i bad s) s := by
  unfold execFusedCompareWrite
  repeat' (first | with_reducible rfl | with_reducible refine State.ite_fixed ?_ ?_ | with_reducible refine Keeps.next ?_ | with_reducible refine Keeps.ite ?_ ?_ | simp only [State.mk_fixed, State.fold_fixed, apply_ite Prod.snd, ite_self, State.complete_fixed, State.postCpl_fixed, State.startRead_fixed] | split | with_reducible refine (State.foldl_fixed _ (fun _ _ => ?_) _ _).trans ?_)

theorem execVerify_fixed (i : Fin 65536) (bad : List Nat) (s : State) :
    Keeps (execVerify i bad s) s := by
  unfold execVerify
  repeat' (first | with_reducible rfl | with_reducible refine State.ite_fixed ?_ ?_ | with_reducible refine Keeps.next ?_ | with_reducible refine Keeps.ite ?_ ?_ | simp only [State.mk_fixed, State.fold_fixed, apply_ite Prod.snd, ite_self, State.startRead_fixed] | split | with_reducible refine (State.foldl_fixed _ (fun _ _ => ?_) _ _).trans ?_)

@[simp] theorem State.zonedZeroes_fixed (s : State) (i : Nat) (x : Slot) :
    (State.zonedZeroes s i x).fixed = s.fixed := by
  unfold State.zonedZeroes
  repeat' (first | with_reducible rfl | with_reducible refine State.ite_fixed ?_ ?_ | simp only [State.mk_fixed, State.fold_fixed, apply_ite Prod.snd, ite_self, State.assignLba_fixed, State.complete_fixed, State.modBuf_fixed, State.openForWrite_fixed, State.placeZoned_fixed, State.reserveBufs_fixed, State.zeroData_fixed] | with_reducible refine (State.reserveBufs_fixed_of (by assumption)).trans ?_ | with_reducible refine (State.zeroData_fixed_of (by assumption)).trans ?_ | split | with_reducible refine (State.foldl_fixed _ (fun _ _ => ?_) _ _).trans ?_)

theorem execWriteZeroes_fixed (i : Fin 65536) (s : State) :
    Keeps (execWriteZeroes i s) s := by
  unfold execWriteZeroes
  repeat' (first | with_reducible rfl | with_reducible refine State.ite_fixed ?_ ?_ | with_reducible refine Keeps.next ?_ | with_reducible refine Keeps.ite ?_ ?_ | simp only [State.mk_fixed, State.fold_fixed, apply_ite Prod.snd, ite_self, State.advanceConv_fixed, State.complete_fixed, State.modSlot_fixed, State.wakeConv_fixed, State.zonedZeroes_fixed] | split | with_reducible refine (State.foldl_fixed _ (fun _ _ => ?_) _ _).trans ?_)

theorem execDatasetManagement_fixed (i : Fin 65536) (s : State) :
    Keeps (execDatasetManagement i s) s := by
  unfold execDatasetManagement
  repeat' (first | with_reducible rfl | with_reducible refine State.ite_fixed ?_ ?_ | with_reducible refine Keeps.next ?_ | with_reducible refine Keeps.ite ?_ ?_ | simp only [State.mk_fixed, State.fold_fixed, apply_ite Prod.snd, ite_self, State.advanceConv_fixed, State.complete_fixed, State.modSlot_fixed, State.wakeConv_fixed] | split | with_reducible refine (State.foldl_fixed _ (fun _ _ => ?_) _ _).trans ?_)

theorem execFlush_fixed (i : Fin 65536) (s : State) :
    Keeps (execFlush i s) s := by
  unfold execFlush
  repeat' (first | with_reducible rfl | with_reducible refine State.ite_fixed ?_ ?_ | with_reducible refine Keeps.next ?_ | with_reducible refine Keeps.ite ?_ ?_ | simp only [State.mk_fixed, State.fold_fixed, apply_ite Prod.snd, ite_self, State.complete_fixed] | split | with_reducible refine (State.foldl_fixed _ (fun _ _ => ?_) _ _).trans ?_)

@[simp] theorem State.endHandle_fixed (s : State) (n h : Nat) :
    (State.endHandle s n h).fixed = s.fixed := by
  unfold State.endHandle
  repeat' (first | with_reducible rfl | with_reducible refine State.ite_fixed ?_ ?_ | simp only [State.mk_fixed, State.fold_fixed, apply_ite Prod.snd, ite_self, State.hf_fixed, State.modSlc_fixed, State.segFull_fixed, State.wantStripe_fixed, State.zn_fixed, State.znePost_fixed] | split | with_reducible refine (State.foldl_fixed _ (fun _ _ => ?_) _ _).trans ?_)

theorem execIoManagementSend_fixed (i : Fin 65536) (s : State) :
    Keeps (execIoManagementSend i s) s := by
  unfold execIoManagementSend
  repeat' (first | with_reducible rfl | with_reducible refine State.ite_fixed ?_ ?_ | with_reducible refine Keeps.next ?_ | with_reducible refine Keeps.ite ?_ ?_ | simp only [State.mk_fixed, State.fold_fixed, apply_ite Prod.snd, ite_self, State.complete_fixed, State.drop_fixed, State.endHandle_fixed] | split | with_reducible refine (State.foldl_fixed _ (fun _ _ => ?_) _ _).trans ?_)

theorem execIoManagementReceive_fixed (i : Fin 65536) (s : State) :
    Keeps (execIoManagementReceive i s) s := by
  unfold execIoManagementReceive
  repeat' (first | with_reducible rfl | with_reducible refine State.ite_fixed ?_ ?_ | with_reducible refine Keeps.next ?_ | with_reducible refine Keeps.ite ?_ ?_ | simp only [State.mk_fixed, State.fold_fixed, apply_ite Prod.snd, ite_self, State.complete_fixed] | split | with_reducible refine (State.foldl_fixed _ (fun _ _ => ?_) _ _).trans ?_)

@[simp] theorem State.zoneAct_fixed (s : State) (zmi act : Nat) :
    (State.zoneAct s zmi act).2.fixed = s.fixed := by
  unfold State.zoneAct
  repeat' (first | with_reducible rfl | with_reducible refine State.ite_fixed ?_ ?_ | simp only [State.mk_fixed, State.fold_fixed, apply_ite Prod.snd, ite_self, State.bindGen_fixed, State.closeZone_fixed, State.finishActive_fixed, State.modZone_fixed, State.offlineZone_fixed, State.openZone_fixed, State.resetZone_fixed] | with_reducible refine (State.openZone_fixed_of (by assumption)).trans ?_ | split | with_reducible refine (State.foldl_fixed _ (fun _ _ => ?_) _ _).trans ?_)

theorem State.zoneAct_fixed_of {s : State} {zmi act : Nat} {x0} {t : State} (h : State.zoneAct s zmi act = (x0, t)) : t.fixed = s.fixed := by
  have := State.zoneAct_fixed s zmi act
  rw [h] at this
  exact this

@[simp] theorem State.actEach_fixed (s : State) (i : Nat) (x : Slot) (rx : List Nat) :
    (State.actEach s i x rx).fixed = s.fixed := by
  induction rx generalizing s with
  | nil =>
    simp only [State.actEach]
    repeat' (first | with_reducible rfl | with_reducible refine State.ite_fixed ?_ ?_ | simp only [State.mk_fixed, State.fold_fixed, apply_ite Prod.snd, ite_self, State.complete_fixed, State.modSlot_fixed, State.modZone_fixed, State.zoneAct_fixed] | with_reducible refine (State.zoneAct_fixed_of (by assumption)).trans ?_ | split | with_reducible refine (State.foldl_fixed _ (fun _ _ => ?_) _ _).trans ?_)
  | cons _ _ ih =>
    simp only [State.actEach]
    repeat' (first | with_reducible rfl | with_reducible refine State.ite_fixed ?_ ?_ | simp only [State.mk_fixed, State.fold_fixed, apply_ite Prod.snd, ite_self, State.complete_fixed, State.modSlot_fixed, State.modZone_fixed, State.zoneAct_fixed, ih] | with_reducible refine (State.zoneAct_fixed_of (by assumption)).trans ?_ | split | with_reducible refine (State.foldl_fixed _ (fun _ _ => ?_) _ _).trans ?_)

@[simp] theorem State.zoneSend_fixed (s : State) (i : Nat) (x : Slot) :
    (State.zoneSend s i x).fixed = s.fixed := by
  unfold State.zoneSend
  repeat' (first | with_reducible rfl | with_reducible refine State.ite_fixed ?_ ?_ | simp only [State.mk_fixed, State.fold_fixed, apply_ite Prod.snd, ite_self, State.actEach_fixed, State.complete_fixed] | split | with_reducible refine (State.foldl_fixed _ (fun _ _ => ?_) _ _).trans ?_)

theorem execZoneOpen_fixed (i : Fin 65536) (s : State) :
    Keeps (execZoneOpen i s) s := by
  unfold execZoneOpen
  repeat' (first | with_reducible rfl | with_reducible refine State.ite_fixed ?_ ?_ | with_reducible refine Keeps.next ?_ | with_reducible refine Keeps.ite ?_ ?_ | simp only [State.mk_fixed, State.fold_fixed, apply_ite Prod.snd, ite_self, State.zoneSend_fixed] | split | with_reducible refine (State.foldl_fixed _ (fun _ _ => ?_) _ _).trans ?_)

theorem execZoneClose_fixed (i : Fin 65536) (s : State) :
    Keeps (execZoneClose i s) s := by
  unfold execZoneClose
  repeat' (first | with_reducible rfl | with_reducible refine State.ite_fixed ?_ ?_ | with_reducible refine Keeps.next ?_ | with_reducible refine Keeps.ite ?_ ?_ | simp only [State.mk_fixed, State.fold_fixed, apply_ite Prod.snd, ite_self, State.zoneSend_fixed] | split | with_reducible refine (State.foldl_fixed _ (fun _ _ => ?_) _ _).trans ?_)

theorem execZoneFinish_fixed (i : Fin 65536) (s : State) :
    Keeps (execZoneFinish i s) s := by
  unfold execZoneFinish
  repeat' (first | with_reducible rfl | with_reducible refine State.ite_fixed ?_ ?_ | with_reducible refine Keeps.next ?_ | with_reducible refine Keeps.ite ?_ ?_ | simp only [State.mk_fixed, State.fold_fixed, apply_ite Prod.snd, ite_self, State.zoneSend_fixed] | split | with_reducible refine (State.foldl_fixed _ (fun _ _ => ?_) _ _).trans ?_)

theorem execZoneReset_fixed (i : Fin 65536) (s : State) :
    Keeps (execZoneReset i s) s := by
  unfold execZoneReset
  repeat' (first | with_reducible rfl | with_reducible refine State.ite_fixed ?_ ?_ | with_reducible refine Keeps.next ?_ | with_reducible refine Keeps.ite ?_ ?_ | simp only [State.mk_fixed, State.fold_fixed, apply_ite Prod.snd, ite_self, State.zoneSend_fixed] | split | with_reducible refine (State.foldl_fixed _ (fun _ _ => ?_) _ _).trans ?_)

theorem execZoneOffline_fixed (i : Fin 65536) (s : State) :
    Keeps (execZoneOffline i s) s := by
  unfold execZoneOffline
  repeat' (first | with_reducible rfl | with_reducible refine State.ite_fixed ?_ ?_ | with_reducible refine Keeps.next ?_ | with_reducible refine Keeps.ite ?_ ?_ | simp only [State.mk_fixed, State.fold_fixed, apply_ite Prod.snd, ite_self, State.zoneSend_fixed] | split | with_reducible refine (State.foldl_fixed _ (fun _ _ => ?_) _ _).trans ?_)

theorem execZoneMgmtEffect_fixed (i : Fin 65536) (s : State) :
    Keeps (execZoneMgmtEffect i s) s := by
  unfold execZoneMgmtEffect
  repeat' (first | with_reducible rfl | with_reducible refine State.ite_fixed ?_ ?_ | with_reducible refine Keeps.next ?_ | with_reducible refine Keeps.ite ?_ ?_ | simp only [State.mk_fixed, State.fold_fixed, apply_ite Prod.snd, ite_self, State.zoneSend_fixed] | split | with_reducible refine (State.foldl_fixed _ (fun _ _ => ?_) _ _).trans ?_)

theorem execZoneManagementReceive_fixed (i : Fin 65536) (s : State) :
    Keeps (execZoneManagementReceive i s) s := by
  unfold execZoneManagementReceive
  repeat' (first | with_reducible rfl | with_reducible refine State.ite_fixed ?_ ?_ | with_reducible refine Keeps.next ?_ | with_reducible refine Keeps.ite ?_ ?_ | simp only [State.mk_fixed, State.fold_fixed, apply_ite Prod.snd, ite_self, State.complete_fixed] | split | with_reducible refine (State.foldl_fixed _ (fun _ _ => ?_) _ _).trans ?_)

end Sys2Proof.Machine
end

