-- ==== Sys2Proof/Laws/FixCodeword.lean ====
section
/-! SUPPORT. Operations of Machine/Codeword.lean that keep the queue, memory, the straps and the OTP. -/

namespace Sys2Proof.Machine

set_option linter.all false

@[simp] theorem State.shelveStripe_fixed (s : State) (k : Nat) :
    (State.shelveStripe s k).fixed = s.fixed := by
  unfold State.shelveStripe
  repeat' (first | with_reducible rfl | with_reducible refine State.ite_fixed ?_ ?_ | simp only [State.mk_fixed, State.fold_fixed, apply_ite Prod.snd, ite_self, State.hk_fixed, State.shelve_fixed] | split | with_reducible refine (State.foldl_fixed _ (fun _ _ => ?_) _ _).trans ?_)

end Sys2Proof.Machine
end

