-- ==== Sys2Proof/Laws/FixHealth.lean ====
section
/-! SUPPORT. Operations of Machine/Health.lean that keep the queue, memory, the straps and the OTP. -/

namespace Sys2Proof.Machine

set_option linter.all false

theorem State.takeSubst_fixed (s : State) (set old : Nat) (slc : Bool) (used : List Nat) (st : BlkSt) :
    KeepsO (State.takeSubst s set old slc used st) s := by
  unfold State.takeSubst
  repeat' (first | with_reducible rfl | with_reducible refine State.ite_fixed ?_ ?_ | with_reducible exact KeepsO.none | with_reducible refine KeepsO.some ?_ | simp only [State.mk_fixed, State.fold_fixed, apply_ite Prod.snd, ite_self, State.endCheck_fixed, State.modBlk_fixed, State.spareCheck_fixed, State.takeEnt_fixed] | split | with_reducible refine (State.foldl_fixed _ (fun _ _ => ?_) _ _).trans ?_)

theorem State.takeSubst_fixed_of {s : State} {set old : Nat} {slc : Bool} {used : List Nat} {st : BlkSt} {x0} {t : State} (h : State.takeSubst s set old slc used st = some (x0, t)) : t.fixed = s.fixed := by
  have := State.takeSubst_fixed s set old slc used st
  rw [h] at this
  exact this

@[simp] theorem State.modJob_fixed (s : State) (j : Nat) (f : MJob → MJob) :
    (State.modJob s j f).fixed = s.fixed := by
  unfold State.modJob
  repeat' (first | with_reducible rfl | with_reducible refine State.ite_fixed ?_ ?_ | simp only [State.mk_fixed, State.fold_fixed, apply_ite Prod.snd, ite_self, State.zn_fixed] | split | with_reducible refine (State.foldl_fixed _ (fun _ _ => ?_) _ _).trans ?_)

@[simp] theorem State.endJob_fixed (s : State) (j : Nat) :
    (State.endJob s j).fixed = s.fixed := by
  unfold State.endJob
  repeat' (first | with_reducible rfl | with_reducible refine State.ite_fixed ?_ ?_ | simp only [State.mk_fixed, State.fold_fixed, apply_ite Prod.snd, ite_self, State.zn_fixed] | split | with_reducible refine (State.foldl_fixed _ (fun _ _ => ?_) _ _).trans ?_)

@[simp] theorem State.modReloc_fixed (s : State) (j : Nat) (f : Reloc → Reloc) :
    (State.modReloc s j f).fixed = s.fixed := by
  unfold State.modReloc
  repeat' (first | with_reducible rfl | with_reducible refine State.ite_fixed ?_ ?_ | simp only [State.mk_fixed, State.fold_fixed, apply_ite Prod.snd, ite_self, State.zn_fixed] | split | with_reducible refine (State.foldl_fixed _ (fun _ _ => ?_) _ _).trans ?_)

@[simp] theorem State.relocAbandon_fixed (s : State) (j : Nat) (cause : Nat) :
    (State.relocAbandon s j cause).fixed = s.fixed := by
  unfold State.relocAbandon
  repeat' (first | with_reducible rfl | with_reducible refine State.ite_fixed ?_ ?_ | simp only [State.mk_fixed, State.fold_fixed, apply_ite Prod.snd, ite_self, State.disownErases_fixed, State.dropStripe_fixed, State.releaseAll_fixed, State.zn_fixed, State.znePost_fixed] | split | with_reducible refine (State.foldl_fixed _ (fun _ _ => ?_) _ _).trans ?_)

@[simp] theorem State.setBodyMember_fixed (s : State) (j : MJob) (b : Nat) :
    (State.setBodyMember s j b).fixed = s.fixed := by
  unfold State.setBodyMember
  repeat' (first | with_reducible rfl | with_reducible refine State.ite_fixed ?_ ?_ | simp only [State.mk_fixed, State.fold_fixed, apply_ite Prod.snd, ite_self, State.modReloc_fixed, State.modSlc_fixed, State.modZone_fixed] | split | with_reducible refine (State.foldl_fixed _ (fun _ _ => ?_) _ _).trans ?_)

@[simp] theorem State.repackStripe_fixed (s : State) (k : Nat) :
    (State.repackStripe s k).fixed = s.fixed := by
  unfold State.repackStripe
  repeat' (first | with_reducible rfl | with_reducible refine State.ite_fixed ?_ ?_ | simp only [State.mk_fixed, State.fold_fixed, apply_ite Prod.snd, ite_self, State.convCw_fixed, State.dropStripe_fixed, State.modSlc_fixed, State.stageCw_fixed] | with_reducible refine (State.convCw_fixed_of (by assumption)).trans ?_ | with_reducible refine (State.stageCw_fixed_of (by assumption)).trans ?_ | split | with_reducible refine (State.foldl_fixed _ (fun _ _ => ?_) _ _).trans ?_)

@[simp] theorem State.noSubstitute_fixed (s : State) (j : MJob) :
    (State.noSubstitute s j).fixed = s.fixed := by
  unfold State.noSubstitute
  repeat' (first | with_reducible rfl | with_reducible refine State.ite_fixed ?_ ?_ | simp only [State.mk_fixed, State.fold_fixed, apply_ite Prod.snd, ite_self, State.finishByController_fixed, State.relocAbandon_fixed, State.repackStripe_fixed] | split | with_reducible refine (State.foldl_fixed _ (fun _ _ => ?_) _ _).trans ?_)

@[simp] theorem State.deferCheck_fixed (s : State) (d : Nat) :
    (State.deferCheck s d).fixed = s.fixed := by
  unfold State.deferCheck
  repeat' (first | with_reducible rfl | with_reducible refine State.ite_fixed ?_ ?_ | simp only [State.mk_fixed, State.fold_fixed, apply_ite Prod.snd, ite_self, State.setFld_fixed] | split | with_reducible refine (State.foldl_fixed _ (fun _ _ => ?_) _ _).trans ?_)

@[simp] theorem State.jobTake_fixed (s : State) (j : Nat) (x : MJob) :
    (State.jobTake s j x).fixed = s.fixed := by
  unfold State.jobTake
  repeat' (first | with_reducible rfl | with_reducible refine State.ite_fixed ?_ ?_ | simp only [State.mk_fixed, State.fold_fixed, apply_ite Prod.snd, ite_self, State.beginErase_fixed, State.deferCheck_fixed, State.endJob_fixed, State.finishByController_fixed, State.modJob_fixed, State.noSubstitute_fixed, State.post_fixed, State.setBodyMember_fixed, State.setFld_fixed] | with_reducible refine (State.takeSubst_fixed_of (by assumption)).trans ?_ | split | with_reducible refine (State.foldl_fixed _ (fun _ _ => ?_) _ _).trans ?_)

@[simp] theorem State.startSubst_fixed (s : State) (k m : Nat) :
    (State.startSubst s k m).fixed = s.fixed := by
  unfold State.startSubst
  repeat' (first | with_reducible rfl | with_reducible refine State.ite_fixed ?_ ?_ | simp only [State.mk_fixed, State.fold_fixed, apply_ite Prod.snd, ite_self, State.fresh_fixed, State.jobTake_fixed, State.modJob_fixed, State.zn_fixed] | with_reducible refine (State.fresh_fixed_of (by assumption)).trans ?_ | split | with_reducible refine (State.foldl_fixed _ (fun _ _ => ?_) _ _).trans ?_)

@[simp] theorem State.jobProgram_fixed (s : State) (j : Nat) (x : MJob) :
    (State.jobProgram s j x).fixed = s.fixed := by
  unfold State.jobProgram
  repeat' (first | with_reducible rfl | with_reducible refine State.ite_fixed ?_ ?_ | simp only [State.mk_fixed, State.fold_fixed, apply_ite Prod.snd, ite_self, State.enqueue_fixed, State.modJob_fixed, State.nextEpochs_fixed] | with_reducible refine (State.nextEpochs_fixed_of (by assumption)).trans ?_ | split | with_reducible refine (State.foldl_fixed _ (fun _ _ => ?_) _ _).trans ?_)

@[simp] theorem State.jobRecon_fixed (s : State) (j : Nat) (x : MJob) (cws : List Nat) :
    (State.jobRecon s j x cws).fixed = s.fixed := by
  unfold State.jobRecon
  repeat' (first | with_reducible rfl | with_reducible refine State.ite_fixed ?_ ?_ | simp only [State.mk_fixed, State.fold_fixed, apply_ite Prod.snd, ite_self, State.startRecon_fixed] | split | with_reducible refine (State.foldl_fixed _ (fun _ _ => ?_) _ _).trans ?_)

@[simp] theorem State.jobRead_fixed (s : State) (j : Nat) (x : MJob) :
    (State.jobRead s j x).fixed = s.fixed := by
  unfold State.jobRead
  repeat' (first | with_reducible rfl | with_reducible refine State.ite_fixed ?_ ?_ | simp only [State.mk_fixed, State.fold_fixed, apply_ite Prod.snd, ite_self, State.cs_fixed, State.enqueue_fixed, State.modJob_fixed, State.zn_fixed] | split | with_reducible refine (State.foldl_fixed _ (fun _ _ => ?_) _ _).trans ?_)

@[simp] theorem State.rebuildEnded_fixed (s : State) (d : Nat) :
    (State.rebuildEnded s d).fixed = s.fixed := by
  unfold State.rebuildEnded
  repeat' (first | with_reducible rfl | with_reducible refine State.ite_fixed ?_ ?_ | simp only [State.mk_fixed, State.fold_fixed, apply_ite Prod.snd, ite_self, State.post_fixed, State.setFld_fixed] | split | with_reducible refine (State.foldl_fixed _ (fun _ _ => ?_) _ _).trans ?_)

@[simp] theorem State.repoint_fixed (s : State) (m old new_ k : Nat) :
    (State.repoint s m old new_ k).fixed = s.fixed := by
  unfold State.repoint
  repeat' (first | with_reducible rfl | with_reducible refine State.ite_fixed ?_ ?_ | simp only [State.mk_fixed, State.fold_fixed, apply_ite Prod.snd, ite_self, State.enqueue_fixed, State.huskWrite_fixed, State.modStripe_fixed, State.nextEpochs_fixed] | with_reducible refine (State.nextEpochs_fixed_of (by assumption)).trans ?_ | split | with_reducible refine (State.foldl_fixed _ (fun _ _ => ?_) _ _).trans ?_)

@[simp] theorem State.substDone_fixed (s : State) (j : Nat) (x : MJob) :
    (State.substDone s j x).fixed = s.fixed := by
  unfold State.substDone
  repeat' (first | with_reducible rfl | with_reducible refine State.ite_fixed ?_ ?_ | simp only [State.mk_fixed, State.fold_fixed, apply_ite Prod.snd, ite_self, State.bump_fixed, State.endJob_fixed, State.hf_fixed, State.releaseBlk_fixed, State.repoint_fixed, State.setBodyMember_fixed, State.withdrawOps_fixed, State.znePost_fixed] | split | with_reducible refine (State.foldl_fixed _ (fun _ _ => ?_) _ _).trans ?_)

@[simp] theorem State.jobNext_fixed (s : State) (j : Nat) :
    (State.jobNext s j).fixed = s.fixed := by
  unfold State.jobNext
  repeat' (first | with_reducible rfl | with_reducible refine State.ite_fixed ?_ ?_ | simp only [State.mk_fixed, State.fold_fixed, apply_ite Prod.snd, ite_self, State.endJob_fixed, State.hf_fixed, State.jobRead_fixed, State.modDie_fixed, State.modJob_fixed, State.rebuildEnded_fixed, State.repoint_fixed, State.retryCommits_fixed, State.substDone_fixed] | split | with_reducible refine (State.foldl_fixed _ (fun _ _ => ?_) _ _).trans ?_)

@[simp] theorem State.wakeJobs_fixed (s : State) :
    (State.wakeJobs s).fixed = s.fixed := by
  unfold State.wakeJobs
  repeat' (first | with_reducible rfl | with_reducible refine State.ite_fixed ?_ ?_ | simp only [State.mk_fixed, State.fold_fixed, apply_ite Prod.snd, ite_self, State.jobNext_fixed] | split | with_reducible refine (State.foldl_fixed _ (fun _ _ => ?_) _ _).trans ?_)

@[simp] theorem State.jobSliceDone_fixed (s : State) (j : Nat) :
    (State.jobSliceDone s j).fixed = s.fixed := by
  unfold State.jobSliceDone
  repeat' (first | with_reducible rfl | with_reducible refine State.ite_fixed ?_ ?_ | simp only [State.mk_fixed, State.fold_fixed, apply_ite Prod.snd, ite_self, State.bump_fixed, State.jobNext_fixed, State.modBlk_fixed, State.modJob_fixed, State.retryCommits_fixed] | split | with_reducible refine (State.foldl_fixed _ (fun _ _ => ?_) _ _).trans ?_)

@[simp] theorem State.jobRestart_fixed (s : State) (j : Nat) (grown : Bool) :
    (State.jobRestart s j grown).fixed = s.fixed := by
  unfold State.jobRestart
  repeat' (first | with_reducible rfl | with_reducible refine State.ite_fixed ?_ ?_ | simp only [State.mk_fixed, State.fold_fixed, apply_ite Prod.snd, ite_self, State.growDefect_fixed, State.jobTake_fixed, State.modJob_fixed, State.releaseBlk_fixed, State.setBodyMember_fixed] | split | with_reducible refine (State.foldl_fixed _ (fun _ _ => ?_) _ _).trans ?_)

@[simp] theorem State.jobEvaluate_fixed (s : State) (j : Nat) :
    (State.jobEvaluate s j).fixed = s.fixed := by
  unfold State.jobEvaluate
  repeat' (first | with_reducible rfl | with_reducible refine State.ite_fixed ?_ ?_ | simp only [State.mk_fixed, State.fold_fixed, apply_ite Prod.snd, ite_self, State.bump_fixed, State.enqueue_fixed, State.jobProgram_fixed, State.modJob_fixed, State.rowLost_fixed, State.zn_fixed] | split | with_reducible refine (State.foldl_fixed _ (fun _ _ => ?_) _ _).trans ?_)

@[simp] theorem State.queueRebuild_fixed (s : State) (d : Nat) :
    (State.queueRebuild s d).fixed = s.fixed := by
  unfold State.queueRebuild
  repeat' (first | with_reducible rfl | with_reducible refine State.ite_fixed ?_ ?_ | simp only [State.mk_fixed, State.fold_fixed, apply_ite Prod.snd, ite_self, State.fresh_fixed, State.modDie_fixed, State.post_fixed, State.setFld_fixed, State.zn_fixed] | with_reducible refine (State.fresh_fixed_of (by assumption)).trans ?_ | split | with_reducible refine (State.foldl_fixed _ (fun _ _ => ?_) _ _).trans ?_)

@[simp] theorem State.replaceDest_fixed (s : State) (k b : Nat) :
    (State.replaceDest s k b).fixed = s.fixed := by
  unfold State.replaceDest
  repeat' (first | with_reducible rfl | with_reducible refine State.ite_fixed ?_ ?_ | simp only [State.mk_fixed, State.fold_fixed, apply_ite Prod.snd, ite_self, State.beginErase_fixed, State.dropErase_fixed, State.modBlk_fixed, State.modReloc_fixed, State.relocAbandon_fixed, State.takeEnt_fixed] | split | with_reducible refine (State.foldl_fixed _ (fun _ _ => ?_) _ _).trans ?_)

@[simp] theorem State.restartOnDie_fixed (s : State) (d : Nat) :
    (State.restartOnDie s d).fixed = s.fixed := by
  unfold State.restartOnDie
  repeat' (first | with_reducible rfl | with_reducible refine State.ite_fixed ?_ ?_ | simp only [State.mk_fixed, State.fold_fixed, apply_ite Prod.snd, ite_self, State.jobRestart_fixed] | split | with_reducible refine (State.foldl_fixed _ (fun _ _ => ?_) _ _).trans ?_)

@[simp] theorem State.replaceOnDie_fixed (s : State) (d : Nat) :
    (State.replaceOnDie s d).fixed = s.fixed := by
  unfold State.replaceOnDie
  repeat' (first | with_reducible rfl | with_reducible refine State.ite_fixed ?_ ?_ | simp only [State.mk_fixed, State.fold_fixed, apply_ite Prod.snd, ite_self, State.dropErase_fixed, State.jobRestart_fixed, State.modBlk_fixed, State.modSlc_fixed, State.replaceDest_fixed, State.replacePending_fixed, State.slcMapped_fixed, State.takeEnt_fixed, State.takeMember_fixed, State.zn_fixed] | split | with_reducible refine (State.foldl_fixed _ (fun _ _ => ?_) _ _).trans ?_)

@[simp] theorem State.abortQueue_fixed (s : State) (d : Nat) :
    (State.abortQueue s d).fixed = s.fixed := by
  unfold State.abortQueue
  repeat' (first | with_reducible rfl | with_reducible refine State.ite_fixed ?_ ?_ | simp only [State.mk_fixed, State.fold_fixed, apply_ite Prod.snd, ite_self, State.modDie_fixed, State.zn_fixed] | split | with_reducible refine (State.foldl_fixed _ (fun _ _ => ?_) _ _).trans ?_)

@[simp] theorem State.dieDead_fixed (s : State) (d new cause : Nat) :
    (State.dieDead s d new cause).fixed = s.fixed := by
  unfold State.dieDead
  repeat' (first | with_reducible rfl | with_reducible refine State.ite_fixed ?_ ?_ | simp only [State.mk_fixed, State.fold_fixed, apply_ite Prod.snd, ite_self, State.abortQueue_fixed, State.endCheck_fixed, State.endSuspended_fixed, State.listDefect_fixed, State.queueRebuild_fixed, State.replaceOnDie_fixed, State.restartOnDie_fixed, State.setFld_fixed, State.showMedia_fixed, State.spareCheck_fixed, State.zn_fixed, State.znePost_fixed] | split | with_reducible refine (State.foldl_fixed _ (fun _ _ => ?_) _ _).trans ?_)

@[simp] theorem State.suspectEntry_fixed (s : State) (d n : Nat) :
    (State.suspectEntry s d n).fixed = s.fixed := by
  unfold State.suspectEntry
  repeat' (first | with_reducible rfl | with_reducible refine State.ite_fixed ?_ ?_ | simp only [State.mk_fixed, State.fold_fixed, apply_ite Prod.snd, ite_self, State.dieDead_fixed, State.modDie_fixed, State.setFld_fixed, State.znePost_fixed] | split | with_reducible refine (State.foldl_fixed _ (fun _ _ => ?_) _ _).trans ?_)

@[simp] theorem State.countExpiry_fixed (s : State) (d : Nat) (o : DieOp) (p : Nat) :
    (State.countExpiry s d o p).fixed = s.fixed := by
  unfold State.countExpiry
  repeat' (first | with_reducible rfl | with_reducible refine State.ite_fixed ?_ ?_ | simp only [State.mk_fixed, State.fold_fixed, apply_ite Prod.snd, ite_self, State.bump_fixed, State.modDie_fixed, State.setFld_fixed, State.suspectEntry_fixed, State.znePost_fixed] | split | with_reducible refine (State.foldl_fixed _ (fun _ _ => ?_) _ _).trans ?_)

@[simp] theorem State.countReset_fixed (s : State) (d : Nat) (ok : Bool) :
    (State.countReset s d ok).fixed = s.fixed := by
  unfold State.countReset
  repeat' (first | with_reducible rfl | with_reducible refine State.ite_fixed ?_ ?_ | simp only [State.mk_fixed, State.fold_fixed, apply_ite Prod.snd, ite_self, State.dieDead_fixed, State.modDie_fixed] | split | with_reducible refine (State.foldl_fixed _ (fun _ _ => ?_) _ _).trans ?_)

theorem execSuspectPeriodExpiry_fixed (d : DieId) (s : State) :
    Keeps (execSuspectPeriodExpiry d s) s := by
  unfold execSuspectPeriodExpiry
  repeat' (first | with_reducible rfl | with_reducible refine State.ite_fixed ?_ ?_ | with_reducible refine Keeps.next ?_ | with_reducible refine Keeps.ite ?_ ?_ | simp only [State.mk_fixed, State.fold_fixed, apply_ite Prod.snd, ite_self, State.setFld_fixed] | split | with_reducible refine (State.foldl_fixed _ (fun _ _ => ?_) _ _).trans ?_)

theorem execDiecmdRetire_fixed (d : DieId) (s : State) :
    Keeps (execDiecmdRetire d s) s := by
  unfold execDiecmdRetire
  repeat' (first | with_reducible rfl | with_reducible refine State.ite_fixed ?_ ?_ | with_reducible refine Keeps.next ?_ | with_reducible refine Keeps.ite ?_ ?_ | simp only [State.mk_fixed, State.fold_fixed, apply_ite Prod.snd, ite_self, State.dieDead_fixed] | split | with_reducible refine (State.foldl_fixed _ (fun _ _ => ?_) _ _).trans ?_)

theorem execDiecmdFail_fixed (d : DieId) (s : State) :
    Keeps (execDiecmdFail d s) s := by
  unfold execDiecmdFail
  repeat' (first | with_reducible rfl | with_reducible refine State.ite_fixed ?_ ?_ | with_reducible refine Keeps.next ?_ | with_reducible refine Keeps.ite ?_ ?_ | simp only [State.mk_fixed, State.fold_fixed, apply_ite Prod.snd, ite_self, State.dieDead_fixed] | split | with_reducible refine (State.foldl_fixed _ (fun _ _ => ?_) _ _).trans ?_)

@[simp] theorem State.ageHealth_fixed (s : State) :
    (State.ageHealth s).fixed = s.fixed := by
  unfold State.ageHealth
  repeat' (first | with_reducible rfl | with_reducible refine State.ite_fixed ?_ ?_ | simp only [State.mk_fixed, State.fold_fixed, apply_ite Prod.snd, ite_self, State.modDie_fixed, State.setFld_fixed] | split | with_reducible refine (State.foldl_fixed _ (fun _ _ => ?_) _ _).trans ?_)

theorem execRebuildJobStart_fixed (s : State) :
    Keeps (execRebuildJobStart s) s := by
  unfold execRebuildJobStart
  repeat' (first | with_reducible rfl | with_reducible refine State.ite_fixed ?_ ?_ | with_reducible refine Keeps.next ?_ | with_reducible refine Keeps.ite ?_ ?_ | simp only [State.mk_fixed, State.fold_fixed, apply_ite Prod.snd, ite_self, State.jobRead_fixed, State.jobTake_fixed] | split | with_reducible refine (State.foldl_fixed _ (fun _ _ => ?_) _ _).trans ?_)

end Sys2Proof.Machine
end

