-- ==== Sys2Proof/Laws/FixBackground.lean ====
section
/-! SUPPORT. Operations of Machine/Background.lean that keep the queue, memory, the straps and the OTP. -/

namespace Sys2Proof.Machine

set_option linter.all false

@[simp] theorem State.stageBufs_fixed (s : State) (set zmi : Nat) (rx : List (Nat × Nat)) :
    (State.stageBufs s set zmi rx).fixed = s.fixed := by
  induction rx generalizing s with
  | nil =>
    simp only [State.stageBufs]
    repeat' (first | with_reducible rfl | with_reducible refine State.ite_fixed ?_ ?_ | simp only [State.mk_fixed, State.fold_fixed, apply_ite Prod.snd, ite_self, State.modBuf_fixed, State.stageCw_fixed] | with_reducible refine (State.stageCw_fixed_of (by assumption)).trans ?_ | split | with_reducible refine (State.foldl_fixed _ (fun _ _ => ?_) _ _).trans ?_)
  | cons _ _ ih =>
    simp only [State.stageBufs]
    repeat' (first | with_reducible rfl | with_reducible refine State.ite_fixed ?_ ?_ | simp only [State.mk_fixed, State.fold_fixed, apply_ite Prod.snd, ite_self, State.modBuf_fixed, State.stageCw_fixed, ih] | with_reducible refine (State.stageCw_fixed_of (by assumption)).trans ?_ | split | with_reducible refine (State.foldl_fixed _ (fun _ _ => ?_) _ _).trans ?_)

@[simp] theorem State.stageZone_fixed (s : State) (zmi : Nat) (pressure : Bool) :
    (State.stageZone s zmi pressure).fixed = s.fixed := by
  unfold State.stageZone
  repeat' (first | with_reducible rfl | with_reducible refine State.ite_fixed ?_ ?_ | simp only [State.mk_fixed, State.fold_fixed, apply_ite Prod.snd, ite_self, State.dropStripe_fixed, State.stageBufs_fixed, State.withdraw_fixed] | split | with_reducible refine (State.foldl_fixed _ (fun _ _ => ?_) _ _).trans ?_)

@[simp] theorem State.thruStage_fixed (s : State) :
    (State.thruStage s).fixed = s.fixed := by
  unfold State.thruStage
  repeat' (first | with_reducible rfl | with_reducible refine State.ite_fixed ?_ ?_ | simp only [State.mk_fixed, State.fold_fixed, apply_ite Prod.snd, ite_self, State.stageZone_fixed, State.wantStripe_fixed] | split | with_reducible refine (State.foldl_fixed _ (fun _ _ => ?_) _ _).trans ?_)

@[simp] theorem State.stageHigh_fixed (s : State) (rx : Nat) :
    (State.stageHigh s rx).fixed = s.fixed := by
  induction rx generalizing s with
  | zero =>
    simp only [State.stageHigh]
    repeat' (first | with_reducible rfl | with_reducible refine State.ite_fixed ?_ ?_ | simp only [State.mk_fixed, State.fold_fixed, apply_ite Prod.snd, ite_self, State.stageZone_fixed] | split | with_reducible refine (State.foldl_fixed _ (fun _ _ => ?_) _ _).trans ?_)
  | succ _ ih =>
    simp only [State.stageHigh]
    repeat' (first | with_reducible rfl | with_reducible refine State.ite_fixed ?_ ?_ | simp only [State.mk_fixed, State.fold_fixed, apply_ite Prod.snd, ite_self, State.stageZone_fixed, ih] | split | with_reducible refine (State.foldl_fixed _ (fun _ _ => ?_) _ _).trans ?_)

@[simp] theorem State.pressureStage_fixed (s : State) :
    (State.pressureStage s).fixed = s.fixed := by
  unfold State.pressureStage
  repeat' (first | with_reducible rfl | with_reducible refine State.ite_fixed ?_ ?_ | simp only [State.mk_fixed, State.fold_fixed, apply_ite Prod.snd, ite_self, State.stageHigh_fixed, State.thruStage_fixed] | split | with_reducible refine (State.foldl_fixed _ (fun _ _ => ?_) _ _).trans ?_)

theorem execStageAgeExpiry_fixed (zmi : Fin 2097152) (s : State) :
    Keeps (execStageAgeExpiry zmi s) s := by
  unfold execStageAgeExpiry
  repeat' (first | with_reducible rfl | with_reducible refine State.ite_fixed ?_ ?_ | with_reducible refine Keeps.next ?_ | with_reducible refine Keeps.ite ?_ ?_ | simp only [State.mk_fixed, State.fold_fixed, apply_ite Prod.snd, ite_self, State.stageZone_fixed] | split | with_reducible refine (State.foldl_fixed _ (fun _ _ => ?_) _ _).trans ?_)

theorem execStageFillTimeout_fixed (set : Fin 16) (s : State) :
    Keeps (execStageFillTimeout set s) s := by
  unfold execStageFillTimeout
  repeat' (first | with_reducible rfl | with_reducible refine State.ite_fixed ?_ ?_ | with_reducible refine Keeps.next ?_ | with_reducible refine Keeps.ite ?_ ?_ | simp only [State.mk_fixed, State.fold_fixed, apply_ite Prod.snd, ite_self, State.wantStripe_fixed] | split | with_reducible refine (State.foldl_fixed _ (fun _ _ => ?_) _ _).trans ?_)

@[simp] theorem State.convAge_fixed (s : State) (pair : Nat) :
    (State.convAge s pair).fixed = s.fixed := by
  unfold State.convAge
  repeat' (first | with_reducible rfl | with_reducible refine State.ite_fixed ?_ ?_ | simp only [State.mk_fixed, State.fold_fixed, apply_ite Prod.snd, ite_self, State.wantStripe_fixed] | split | with_reducible refine (State.foldl_fixed _ (fun _ _ => ?_) _ _).trans ?_)

theorem execConvStripeAgeExpiry_fixed (ns : Fin 1024) (ruh : Fin 8) (s : State) :
    Keeps (execConvStripeAgeExpiry ns ruh s) s := by
  unfold execConvStripeAgeExpiry
  repeat' (first | with_reducible rfl | with_reducible refine State.ite_fixed ?_ ?_ | with_reducible refine Keeps.next ?_ | with_reducible refine Keeps.ite ?_ ?_ | simp only [State.mk_fixed, State.fold_fixed, apply_ite Prod.snd, ite_self, State.convAge_fixed] | split | with_reducible refine (State.foldl_fixed _ (fun _ _ => ?_) _ _).trans ?_)

theorem execFoldStart_fixed (zmi : Fin 2097152) (bad : List Nat) (s : State) :
    Keeps (execFoldStart zmi bad s) s := by
  unfold execFoldStart
  repeat' (first | with_reducible rfl | with_reducible refine State.ite_fixed ?_ ?_ | with_reducible refine Keeps.next ?_ | with_reducible refine Keeps.ite ?_ ?_ | simp only [State.mk_fixed, State.fold_fixed, apply_ite Prod.snd, ite_self, State.bufferFailed_fixed, State.cs_fixed, State.issueReads_fixed, State.reserveBuf_fixed] | with_reducible refine (State.reserveBuf_fixed_of (by assumption)).trans ?_ | split | with_reducible refine (State.foldl_fixed _ (fun _ _ => ?_) _ _).trans ?_)

@[simp] theorem State.foldLand_fixed (s : State) (zmi off : Nat) (d : Blk) (h : Hmd) (lost : Bool) :
    (State.foldLand s zmi off d h lost).fixed = s.fixed := by
  unfold State.foldLand
  repeat' (first | with_reducible rfl | with_reducible refine State.ite_fixed ?_ ?_ | simp only [State.mk_fixed, State.fold_fixed, apply_ite Prod.snd, ite_self, State.modBuf_fixed, State.tryCommitBody_fixed] | split | with_reducible refine (State.foldl_fixed _ (fun _ _ => ?_) _ _).trans ?_)

@[simp] theorem State.relocStage_fixed (s : State) (b : Nat) :
    (State.relocStage s b).fixed = s.fixed := by
  unfold State.relocStage
  repeat' (first | with_reducible rfl | with_reducible refine State.ite_fixed ?_ ?_ | simp only [State.mk_fixed, State.fold_fixed, apply_ite Prod.snd, ite_self, State.collect_fixed, State.zn_fixed] | split | with_reducible refine (State.foldl_fixed _ (fun _ _ => ?_) _ _).trans ?_)

@[simp] theorem State.unstageConv_fixed (s : State) (set : Nat) :
    (State.unstageConv s set).fixed = s.fixed := by
  unfold State.unstageConv
  repeat' (first | with_reducible rfl | with_reducible refine State.ite_fixed ?_ ?_ | simp only [State.mk_fixed, State.fold_fixed, apply_ite Prod.snd, ite_self, State.collect_fixed] | split | with_reducible refine (State.foldl_fixed _ (fun _ _ => ?_) _ _).trans ?_)

theorem execStageReclaim_fixed (set : Fin 16) (s : State) :
    Keeps (execStageReclaim set s) s := by
  unfold execStageReclaim
  repeat' (first | with_reducible rfl | with_reducible refine State.ite_fixed ?_ ?_ | with_reducible refine Keeps.next ?_ | with_reducible refine Keeps.ite ?_ ?_ | simp only [State.mk_fixed, State.fold_fixed, apply_ite Prod.snd, ite_self, State.reapStage_fixed, State.relocStage_fixed, State.unstageConv_fixed] | split | with_reducible refine (State.foldl_fixed _ (fun _ _ => ?_) _ _).trans ?_)

@[simp] theorem State.collectLand_fixed (s : State) (loc : Nat) (mv : Moved) :
    (State.collectLand s loc mv).fixed = s.fixed := by
  unfold State.collectLand
  repeat' (first | with_reducible rfl | with_reducible refine State.ite_fixed ?_ ?_ | simp only [State.mk_fixed, State.fold_fixed, apply_ite Prod.snd, ite_self, State.collect_fixed, State.convCw_fixed, State.stageCw_fixed] | with_reducible refine (State.convCw_fixed_of (by assumption)).trans ?_ | with_reducible refine (State.stageCw_fixed_of (by assumption)).trans ?_ | split | with_reducible refine (State.foldl_fixed _ (fun _ _ => ?_) _ _).trans ?_)

@[simp] theorem State.thruDone_fixed (s : State) :
    (State.thruDone s).fixed = s.fixed := by
  unfold State.thruDone
  repeat' (first | with_reducible rfl | with_reducible refine State.ite_fixed ?_ ?_ | simp only [State.mk_fixed, State.fold_fixed, apply_ite Prod.snd, ite_self, State.complete_fixed, State.endCopy_fixed, State.modSlot_fixed, State.writeDone_fixed] | split | with_reducible refine (State.foldl_fixed _ (fun _ _ => ?_) _ _).trans ?_)

@[simp] theorem State.journalErase_fixed (s : State) (rows : List (List Nat)) :
    (State.journalErase s rows).fixed = s.fixed := by
  unfold State.journalErase
  repeat' (first | with_reducible rfl | with_reducible refine State.ite_fixed ?_ ?_ | simp only [State.mk_fixed, State.fold_fixed, apply_ite Prod.snd, ite_self, State.beginErase_fixed] | split | with_reducible refine (State.foldl_fixed _ (fun _ _ => ?_) _ _).trans ?_)

theorem execMapCheckpoint_fixed (s : State) :
    Keeps (execMapCheckpoint s) s := by
  unfold execMapCheckpoint
  repeat' (first | with_reducible rfl | with_reducible refine State.ite_fixed ?_ ?_ | with_reducible refine Keeps.next ?_ | with_reducible refine Keeps.ite ?_ ?_ | simp only [State.mk_fixed, State.fold_fixed, apply_ite Prod.snd, ite_self, State.fresh_fixed, State.journalErase_fixed, State.nextEpochs_fixed, State.zn_fixed] | with_reducible refine (State.fresh_fixed_of (by assumption)).trans ?_ | with_reducible refine (State.nextEpochs_fixed_of (by assumption)).trans ?_ | split | with_reducible refine (State.foldl_fixed _ (fun _ _ => ?_) _ _).trans ?_)

theorem execPreeraseStart_fixed (set : Fin 16) (s : State) :
    Keeps (execPreeraseStart set s) s := by
  unfold execPreeraseStart
  repeat' (first | with_reducible rfl | with_reducible refine State.ite_fixed ?_ ?_ | with_reducible refine Keeps.next ?_ | with_reducible refine Keeps.ite ?_ ?_ | simp only [State.mk_fixed, State.fold_fixed, apply_ite Prod.snd, ite_self, State.beginErase_fixed] | split | with_reducible refine (State.foldl_fixed _ (fun _ _ => ?_) _ _).trans ?_)

@[simp] theorem State.setClean_fixed (s : State) (b : Nat) :
    (State.setClean s b).fixed = s.fixed := by
  unfold State.setClean
  repeat' (first | with_reducible rfl | with_reducible refine State.ite_fixed ?_ ?_ | simp only [State.mk_fixed, State.fold_fixed, apply_ite Prod.snd, ite_self, State.setRing_fixed] | split | with_reducible refine (State.foldl_fixed _ (fun _ _ => ?_) _ _).trans ?_)

@[simp] theorem State.startReloc_fixed (s : State) (zmi : Nat) (refresh : Bool) :
    (State.startReloc s zmi refresh).fixed = s.fixed := by
  unfold State.startReloc
  repeat' (first | with_reducible rfl | with_reducible refine State.ite_fixed ?_ ?_ | simp only [State.mk_fixed, State.fold_fixed, apply_ite Prod.snd, ite_self, State.beginErase_fixed, State.fresh_fixed, State.zn_fixed, State.znePost_fixed] | with_reducible refine (State.allocBody_fixed_of (by assumption)).trans ?_ | with_reducible refine (State.fresh_fixed_of (by assumption)).trans ?_ | split | with_reducible refine (State.foldl_fixed _ (fun _ _ => ?_) _ _).trans ?_)

@[simp] theorem State.relocRead_fixed (s : State) (j : Nat) (r : Reloc) :
    (State.relocRead s j r).fixed = s.fixed := by
  unfold State.relocRead
  repeat' (first | with_reducible rfl | with_reducible refine State.ite_fixed ?_ ?_ | simp only [State.mk_fixed, State.fold_fixed, apply_ite Prod.snd, ite_self, State.issueReads_fixed, State.modReloc_fixed] | split | with_reducible refine (State.foldl_fixed _ (fun _ _ => ?_) _ _).trans ?_)

@[simp] theorem State.relocProgram_fixed (s : State) (j : Nat) (r : Reloc) :
    (State.relocProgram s j r).fixed = s.fixed := by
  unfold State.relocProgram
  repeat' (first | with_reducible rfl | with_reducible refine State.ite_fixed ?_ ?_ | simp only [State.mk_fixed, State.fold_fixed, apply_ite Prod.snd, ite_self, State.commitStripe_fixed, State.fresh_fixed, State.modReloc_fixed, State.zn_fixed] | with_reducible refine (State.fresh_fixed_of (by assumption)).trans ?_ | split | with_reducible refine (State.foldl_fixed _ (fun _ _ => ?_) _ _).trans ?_)

@[simp] theorem State.relocSwap_fixed (s : State) (j : Nat) (r : Reloc) :
    (State.relocSwap s j r).fixed = s.fixed := by
  unfold State.relocSwap
  repeat' (first | with_reducible rfl | with_reducible refine State.ite_fixed ?_ ?_ | simp only [State.mk_fixed, State.fold_fixed, apply_ite Prod.snd, ite_self, State.bump_fixed, State.modZone_fixed, State.releaseAll_fixed, State.zn_fixed, State.znePost_fixed] | split | with_reducible refine (State.foldl_fixed _ (fun _ _ => ?_) _ _).trans ?_)

@[simp] theorem State.relocNext_fixed (s : State) (j : Nat) :
    (State.relocNext s j).fixed = s.fixed := by
  unfold State.relocNext
  repeat' (first | with_reducible rfl | with_reducible refine State.ite_fixed ?_ ?_ | simp only [State.mk_fixed, State.fold_fixed, apply_ite Prod.snd, ite_self, State.modReloc_fixed, State.relocProgram_fixed, State.relocRead_fixed, State.relocSwap_fixed] | split | with_reducible refine (State.foldl_fixed _ (fun _ _ => ?_) _ _).trans ?_)

theorem execWearRelocationStart_fixed (set : Fin 16) (s : State) :
    Keeps (execWearRelocationStart set s) s := by
  unfold execWearRelocationStart
  repeat' (first | with_reducible rfl | with_reducible refine State.ite_fixed ?_ ?_ | with_reducible refine Keeps.next ?_ | with_reducible refine Keeps.ite ?_ ?_ | simp only [State.mk_fixed, State.fold_fixed, apply_ite Prod.snd, ite_self, State.startReloc_fixed] | split | with_reducible refine (State.foldl_fixed _ (fun _ _ => ?_) _ _).trans ?_)

@[simp] theorem State.refreshBlk_fixed (s : State) (b : Nat) :
    (State.refreshBlk s b).fixed = s.fixed := by
  unfold State.refreshBlk
  repeat' (first | with_reducible rfl | with_reducible refine State.ite_fixed ?_ ?_ | simp only [State.mk_fixed, State.fold_fixed, apply_ite Prod.snd, ite_self, State.bump_fixed, State.queueRefresh_fixed, State.reclaimSeg_fixed, State.relocStage_fixed, State.showMedia_fixed, State.startReloc_fixed, State.zn_fixed, State.znePost_fixed] | with_reducible refine (State.allocBody_fixed_of (by assumption)).trans ?_ | split | with_reducible refine (State.foldl_fixed _ (fun _ _ => ?_) _ _).trans ?_)

@[simp] theorem State.scrubRead_fixed (s : State) (b : Nat) (again : Bool) :
    (State.scrubRead s b again).fixed = s.fixed := by
  unfold State.scrubRead
  repeat' (first | with_reducible rfl | with_reducible refine State.ite_fixed ?_ ?_ | simp only [State.mk_fixed, State.fold_fixed, apply_ite Prod.snd, ite_self, State.enqueue_fixed, State.zn_fixed] | split | with_reducible refine (State.foldl_fixed _ (fun _ _ => ?_) _ _).trans ?_)

theorem execScrubVisit_fixed (s : State) :
    Keeps (execScrubVisit s) s := by
  unfold execScrubVisit
  repeat' (first | with_reducible rfl | with_reducible refine State.ite_fixed ?_ ?_ | with_reducible refine Keeps.next ?_ | with_reducible refine Keeps.ite ?_ ?_ | simp only [State.mk_fixed, State.fold_fixed, apply_ite Prod.snd, ite_self, State.bump_fixed, State.refreshBlk_fixed, State.scrubRead_fixed, State.zn_fixed] | split | with_reducible refine (State.foldl_fixed _ (fun _ _ => ?_) _ _).trans ?_)

end Sys2Proof.Machine
end

