-- ==== Sys2Proof/Laws/FixHostAdmit.lean ====
section
/-! SUPPORT. Operations of Machine/HostAdmit.lean that keep the queue, memory, the straps and the OTP. -/

namespace Sys2Proof.Machine

set_option linter.all false

@[simp] theorem State.doorbellError_fixed (s : State) (fn info : Nat) :
    (State.doorbellError s fn info).fixed = s.fixed := by
  unfold State.doorbellError
  repeat' (first | with_reducible rfl | with_reducible refine State.ite_fixed ?_ ?_ | simp only [State.mk_fixed, State.fold_fixed, apply_ite Prod.snd, ite_self, State.postAen_fixed] | split | with_reducible refine (State.foldl_fixed _ (fun _ _ => ?_) _ _).trans ?_)

theorem execSqTailDoorbell_fixed (fn : FnId) (qid : Fin 65) (tail : BitVec 16) (s : State) :
    Keeps (execSqTailDoorbell fn qid tail s) s := by
  unfold execSqTailDoorbell
  repeat' (first | with_reducible rfl | with_reducible refine State.ite_fixed ?_ ?_ | with_reducible refine Keeps.next ?_ | with_reducible refine Keeps.ite ?_ ?_ | simp only [State.mk_fixed, State.fold_fixed, apply_ite Prod.snd, ite_self, State.doorbellError_fixed, State.modFunc_fixed] | split | with_reducible refine (State.foldl_fixed _ (fun _ _ => ?_) _ _).trans ?_)

theorem execCqHeadDoorbell_fixed (fn : FnId) (qid : Fin 65) (head : BitVec 16) (s : State) :
    Keeps (execCqHeadDoorbell fn qid head s) s := by
  unfold execCqHeadDoorbell
  repeat' (first | with_reducible rfl | with_reducible refine State.ite_fixed ?_ ?_ | with_reducible refine Keeps.next ?_ | with_reducible refine Keeps.ite ?_ ?_ | simp only [State.mk_fixed, State.fold_fixed, apply_ite Prod.snd, ite_self, State.doorbellError_fixed, State.modFunc_fixed] | split | with_reducible refine (State.foldl_fixed _ (fun _ _ => ?_) _ _).trans ?_)

theorem execInterruptCoalescingTimeout_fixed (fn : FnId) (cq : Fin 65) (s : State) :
    Keeps (execInterruptCoalescingTimeout fn cq s) s := by
  unfold execInterruptCoalescingTimeout
  repeat' (first | with_reducible rfl | with_reducible refine State.ite_fixed ?_ ?_ | with_reducible refine Keeps.next ?_ | with_reducible refine Keeps.ite ?_ ?_ | simp only [State.mk_fixed, State.fold_fixed, apply_ite Prod.snd, ite_self, State.hf_fixed, State.modFunc_fixed] | split | with_reducible refine (State.foldl_fixed _ (fun _ _ => ?_) _ _).trans ?_)

@[simp] theorem State.modPort_fixed (s : State) (p : Nat) (f : PortSt → PortSt) :
    (State.modPort s p f).fixed = s.fixed := by
  unfold State.modPort
  repeat' (first | with_reducible rfl | with_reducible refine State.ite_fixed ?_ ?_ | simp only [State.mk_fixed, State.fold_fixed, apply_ite Prod.snd, ite_self, State.hf_fixed] | split | with_reducible refine (State.foldl_fixed _ (fun _ _ => ?_) _ _).trans ?_)

@[simp] theorem State.issuePeek_fixed (s : State) (fn qid : Nat) (f : Func) :
    (State.issuePeek s fn qid f).fixed = s.fixed := by
  unfold State.issuePeek
  repeat' (first | with_reducible rfl | with_reducible refine State.ite_fixed ?_ ?_ | simp only [State.mk_fixed, State.fold_fixed, apply_ite Prod.snd, ite_self, State.hf_fixed, State.modFunc_fixed] | split | with_reducible refine (State.foldl_fixed _ (fun _ _ => ?_) _ _).trans ?_)

theorem execArbiterTurn_fixed (p : Port) (s : State) :
    Keeps (execArbiterTurn p s) s := by
  unfold execArbiterTurn
  repeat' (first | with_reducible rfl | with_reducible refine State.ite_fixed ?_ ?_ | with_reducible refine Keeps.next ?_ | with_reducible refine Keeps.ite ?_ ?_ | simp only [State.mk_fixed, State.fold_fixed, apply_ite Prod.snd, ite_self, State.issuePeek_fixed, State.modPort_fixed] | split | with_reducible refine (State.foldl_fixed _ (fun _ _ => ?_) _ _).trans ?_)

@[simp] theorem State.admitCmd_fixed (s : State) (fn qid : Nat) (e : Sqe) (pair : Option Sqe) (err : Option Status) (n : Option (Nat × Ns)) (bufs : Nat) :
    (State.admitCmd s fn qid e pair err n bufs).fixed = s.fixed := by
  unfold State.admitCmd
  repeat' (first | with_reducible rfl | with_reducible refine State.ite_fixed ?_ ?_ | simp only [State.mk_fixed, State.fold_fixed, apply_ite Prod.snd, ite_self, State.addHazard_fixed, State.bump_fixed, State.complete_fixed, State.forward_fixed, State.hf_fixed, State.modFunc_fixed, State.modPort_fixed, State.postCpl_fixed, State.pressureStage_fixed, State.reserveBufs_fixed, State.setFld_fixed] | with_reducible refine (State.reserveBufs_fixed_of (by assumption)).trans ?_ | split | with_reducible refine (State.foldl_fixed _ (fun _ _ => ?_) _ _).trans ?_)

theorem execPeekEntryArrival_fixed (fn : FnId) (qid : Fin 65) (e : Sqe) (pair : Option Sqe) (s : State) :
    Keeps (execPeekEntryArrival fn qid e pair s) s := by
  unfold execPeekEntryArrival
  repeat' (first | with_reducible rfl | with_reducible refine State.ite_fixed ?_ ?_ | with_reducible refine Keeps.next ?_ | with_reducible refine Keeps.ite ?_ ?_ | simp only [State.mk_fixed, State.fold_fixed, apply_ite Prod.snd, ite_self, State.admitCmd_fixed, State.hf_fixed, State.modPort_fixed] | split | with_reducible refine (State.foldl_fixed _ (fun _ _ => ?_) _ _).trans ?_)

theorem execWbstarveExpiry_fixed (fn : FnId) (qid : Fin 65) (s : State) :
    Keeps (execWbstarveExpiry fn qid s) s := by
  unfold execWbstarveExpiry
  repeat' (first | with_reducible rfl | with_reducible refine State.ite_fixed ?_ ?_ | with_reducible refine Keeps.next ?_ | with_reducible refine Keeps.ite ?_ ?_ | simp only [State.mk_fixed, State.fold_fixed, apply_ite Prod.snd, ite_self, State.hf_fixed] | split | with_reducible refine (State.foldl_fixed _ (fun _ _ => ?_) _ _).trans ?_)

end Sys2Proof.Machine
end

