-- ==== Sys2Proof/Laws/FixRecorder.lean ====
section
/-! SUPPORT. Operations of Machine/Recorder.lean that keep the queue, memory, the straps and the OTP. -/

namespace Sys2Proof.Machine

set_option linter.all false

@[simp] theorem State.ev_fixed (s : State) (f : Recorder → Recorder) :
    (State.ev s f).fixed = s.fixed := by
  unfold State.ev
  repeat' (first | with_reducible rfl | with_reducible refine State.ite_fixed ?_ ?_ | simp only [State.mk_fixed, State.fold_fixed, apply_ite Prod.snd, ite_self] | split | with_reducible refine (State.foldl_fixed _ (fun _ _ => ?_) _ _).trans ?_)

@[simp] theorem State.showEvr_fixed (s : State) :
    (State.showEvr s).fixed = s.fixed := by
  unfold State.showEvr
  repeat' (first | with_reducible rfl | with_reducible refine State.ite_fixed ?_ ?_ | simp only [State.mk_fixed, State.fold_fixed, apply_ite Prod.snd, ite_self, State.setFld_fixed] | split | with_reducible refine (State.foldl_fixed _ (fun _ _ => ?_) _ _).trans ?_)

@[simp] theorem State.mgtPost_fixed (s : State) (id : Nat) (items : List (Nat × Nat)) :
    (State.mgtPost s id items).fixed = s.fixed := by
  unfold State.mgtPost
  repeat' (first | with_reducible rfl | with_reducible refine State.ite_fixed ?_ ?_ | simp only [State.mk_fixed, State.fold_fixed, apply_ite Prod.snd, ite_self, State.post_fixed] | split | with_reducible refine (State.foldl_fixed _ (fun _ _ => ?_) _ _).trans ?_)

@[simp] theorem State.startFlush_fixed (s : State) :
    (State.startFlush s).fixed = s.fixed := by
  unfold State.startFlush
  repeat' (first | with_reducible rfl | with_reducible refine State.ite_fixed ?_ ?_ | simp only [State.mk_fixed, State.fold_fixed, apply_ite Prod.snd, ite_self, State.ev_fixed] | split | with_reducible refine (State.foldl_fixed _ (fun _ _ => ?_) _ _).trans ?_)

@[simp] theorem State.flushDue_fixed (s : State) :
    (State.flushDue s).fixed = s.fixed := by
  unfold State.flushDue
  repeat' (first | with_reducible rfl | with_reducible refine State.ite_fixed ?_ ?_ | simp only [State.mk_fixed, State.fold_fixed, apply_ite Prod.snd, ite_self, State.startFlush_fixed] | split | with_reducible refine (State.foldl_fixed _ (fun _ _ => ?_) _ _).trans ?_)

@[simp] theorem State.placeRecs_fixed (s : State) (xs : List Rec) :
    (State.placeRecs s xs).fixed = s.fixed := by
  unfold State.placeRecs
  repeat' (first | with_reducible rfl | with_reducible refine State.ite_fixed ?_ ?_ | simp only [State.mk_fixed, State.fold_fixed, apply_ite Prod.snd, ite_self, State.dropEvents_fixed, State.ev_fixed] | split | with_reducible refine (State.foldl_fixed _ (fun _ _ => ?_) _ _).trans ?_)

@[simp] theorem State.takeSeq_fixed (s : State) (n : Nat) :
    (State.takeSeq s n).2.fixed = s.fixed := by
  unfold State.takeSeq
  repeat' (first | with_reducible rfl | with_reducible refine State.ite_fixed ?_ ?_ | simp only [State.mk_fixed, State.fold_fixed, apply_ite Prod.snd, ite_self, State.cfgWrite_fixed, State.ev_fixed, State.setFld_fixed] | split | with_reducible refine (State.foldl_fixed _ (fun _ _ => ?_) _ _).trans ?_)

theorem State.takeSeq_fixed_of {s : State} {n : Nat} {x0} {t : State} (h : State.takeSeq s n = (x0, t)) : t.fixed = s.fixed := by
  have := State.takeSeq_fixed s n
  rw [h] at this
  exact this

@[simp] theorem State.loadSeq_fixed (s : State) :
    (State.loadSeq s).fixed = s.fixed := by
  unfold State.loadSeq
  repeat' (first | with_reducible rfl | with_reducible refine State.ite_fixed ?_ ?_ | simp only [State.mk_fixed, State.fold_fixed, apply_ite Prod.snd, ite_self, State.cfgWrite_fixed, State.ev_fixed, State.setFld_fixed, State.showEvr_fixed] | split | with_reducible refine (State.foldl_fixed _ (fun _ _ => ?_) _ _).trans ?_)

@[simp] theorem State.acceptEvent_fixed (s : State) (e : Event) :
    (State.acceptEvent s e).fixed = s.fixed := by
  unfold State.acceptEvent
  repeat' (first | with_reducible rfl | with_reducible refine State.ite_fixed ?_ ?_ | simp only [State.mk_fixed, State.fold_fixed, apply_ite Prod.snd, ite_self, State.dropEvents_fixed, State.ev_fixed, State.placeRecs_fixed, State.showEvr_fixed, State.startFlush_fixed, State.takeSeq_fixed] | with_reducible refine (State.takeSeq_fixed_of (by assumption)).trans ?_ | split | with_reducible refine (State.foldl_fixed _ (fun _ _ => ?_) _ _).trans ?_)

theorem execEventRecordArrival_fixed (src : Isl) (s : State) :
    Keeps (execEventRecordArrival src s) s := by
  unfold execEventRecordArrival
  repeat' (first | with_reducible rfl | with_reducible refine State.ite_fixed ?_ ?_ | with_reducible refine Keeps.next ?_ | with_reducible refine Keeps.ite ?_ ?_ | simp only [State.mk_fixed, State.fold_fixed, apply_ite Prod.snd, ite_self, State.acceptEvent_fixed, State.bump_fixed, State.ev_fixed] | split | with_reducible refine (State.foldl_fixed _ (fun _ _ => ?_) _ _).trans ?_)

@[simp] theorem State.flushRecords_fixed (s : State) (bound : Nat) :
    (State.flushRecords s bound).fixed = s.fixed := by
  unfold State.flushRecords
  repeat' (first | with_reducible rfl | with_reducible refine State.ite_fixed ?_ ?_ | simp only [State.mk_fixed, State.fold_fixed, apply_ite Prod.snd, ite_self, State.dropEvents_fixed, State.ev_fixed, State.sgWrite_fixed] | split | with_reducible refine (State.foldl_fixed _ (fun _ _ => ?_) _ _).trans ?_)

theorem execEventFlushDone_fixed (s : State) :
    Keeps (execEventFlushDone s) s := by
  unfold execEventFlushDone
  repeat' (first | with_reducible rfl | with_reducible refine State.ite_fixed ?_ ?_ | with_reducible refine Keeps.next ?_ | with_reducible refine Keeps.ite ?_ ?_ | simp only [State.mk_fixed, State.fold_fixed, apply_ite Prod.snd, ite_self, State.flushDue_fixed, State.flushRecords_fixed, State.showEvr_fixed] | split | with_reducible refine (State.foldl_fixed _ (fun _ _ => ?_) _ _).trans ?_)

theorem execRateWindowEnd_fixed (s : State) :
    Keeps (execRateWindowEnd s) s := by
  unfold execRateWindowEnd
  repeat' (first | with_reducible rfl | with_reducible refine State.ite_fixed ?_ ?_ | with_reducible refine Keeps.next ?_ | with_reducible refine Keeps.ite ?_ ?_ | simp only [State.mk_fixed, State.fold_fixed, apply_ite Prod.snd, ite_self, State.ev_fixed, State.flushDue_fixed, State.mgtPost_fixed] | split | with_reducible refine (State.foldl_fixed _ (fun _ _ => ?_) _ _).trans ?_)

@[simp] theorem State.stageWord_fixed (s : State) (q : Requester) (w : Nat) (v : W32) :
    (State.stageWord s q w v).fixed = s.fixed := by
  unfold State.stageWord
  repeat' (first | with_reducible rfl | with_reducible refine State.ite_fixed ?_ ?_ | simp only [State.mk_fixed, State.fold_fixed, apply_ite Prod.snd, ite_self, State.ev_fixed] | split | with_reducible refine (State.foldl_fixed _ (fun _ _ => ?_) _ _).trans ?_)

@[simp] theorem State.evpost_fixed (s : State) (q : Requester) (v : W32) :
    (State.evpost s q v).fixed = s.fixed := by
  unfold State.evpost
  repeat' (first | with_reducible rfl | with_reducible refine State.ite_fixed ?_ ?_ | simp only [State.mk_fixed, State.fold_fixed, apply_ite Prod.snd, ite_self, State.dropEvents_fixed, State.ev_fixed, State.postEvent_fixed] | split | with_reducible refine (State.foldl_fixed _ (fun _ _ => ?_) _ _).trans ?_)

theorem execEvpostWrite_fixed (c : CoreId) (v : W32) (s : State) :
    Keeps (execEvpostWrite c v s) s := by
  unfold execEvpostWrite
  repeat' (first | with_reducible rfl | with_reducible refine State.ite_fixed ?_ ?_ | with_reducible refine Keeps.next ?_ | with_reducible refine Keeps.ite ?_ ?_ | simp only [State.mk_fixed, State.fold_fixed, apply_ite Prod.snd, ite_self, State.evpost_fixed] | split | with_reducible refine (State.foldl_fixed _ (fun _ _ => ?_) _ _).trans ?_)

@[simp] theorem State.assignCursor_fixed (s : State) (fn : Nat) :
    (State.assignCursor s fn).2.fixed = s.fixed := by
  unfold State.assignCursor
  repeat' (first | with_reducible rfl | with_reducible refine State.ite_fixed ?_ ?_ | simp only [State.mk_fixed, State.fold_fixed, apply_ite Prod.snd, ite_self, State.ev_fixed] | split | with_reducible refine (State.foldl_fixed _ (fun _ _ => ?_) _ _).trans ?_)

theorem State.assignCursor_fixed_of {s : State} {fn : Nat} {x0} {t : State} (h : State.assignCursor s fn = (x0, t)) : t.fixed = s.fixed := by
  have := State.assignCursor_fixed s fn
  rw [h] at this
  exact this

@[simp] theorem State.recorderAccess_fixed (s : State) (fn : Nat) :
    (State.recorderAccess s fn).2.2.fixed = s.fixed := by
  unfold State.recorderAccess
  repeat' (first | with_reducible rfl | with_reducible refine State.ite_fixed ?_ ?_ | simp only [State.mk_fixed, State.fold_fixed, apply_ite Prod.snd, ite_self, State.assignCursor_fixed, State.ev_fixed] | with_reducible refine (State.assignCursor_fixed_of (by assumption)).trans ?_ | split | with_reducible refine (State.foldl_fixed _ (fun _ _ => ?_) _ _).trans ?_)

theorem State.recorderAccess_fixed_of {s : State} {fn : Nat} {x0 x1} {t : State} (h : State.recorderAccess s fn = (x0, x1, t)) : t.fixed = s.fixed := by
  have := State.recorderAccess_fixed s fn
  rw [h] at this
  exact this

theorem execRecorderRead_fixed (fn : FnId) (e : Sqe) (s : State) :
    Keeps (execRecorderRead fn e s) s := by
  unfold execRecorderRead
  repeat' (first | with_reducible rfl | with_reducible refine State.ite_fixed ?_ ?_ | with_reducible refine Keeps.next ?_ | with_reducible refine Keeps.ite ?_ ?_ | simp only [State.mk_fixed, State.fold_fixed, apply_ite Prod.snd, ite_self, State.adminData_fixed, State.recorderAccess_fixed] | with_reducible refine State.admin_fixed (fun _ => ?_) | with_reducible refine (State.recorderAccess_fixed_of (by assumption)).trans ?_ | split | with_reducible refine (State.foldl_fixed _ (fun _ _ => ?_) _ _).trans ?_)

@[simp] theorem State.moveCursor_fixed (s : State) (k to_ : Nat) :
    (State.moveCursor s k to_).fixed = s.fixed := by
  unfold State.moveCursor
  repeat' (first | with_reducible rfl | with_reducible refine State.ite_fixed ?_ ?_ | simp only [State.mk_fixed, State.fold_fixed, apply_ite Prod.snd, ite_self, State.ev_fixed] | split | with_reducible refine (State.foldl_fixed _ (fun _ _ => ?_) _ _).trans ?_)

theorem execRecorderClearView_fixed (fn : FnId) (e : Sqe) (s : State) :
    Keeps (execRecorderClearView fn e s) s := by
  unfold execRecorderClearView
  repeat' (first | with_reducible rfl | with_reducible refine State.ite_fixed ?_ ?_ | with_reducible refine Keeps.next ?_ | with_reducible refine Keeps.ite ?_ ?_ | simp only [State.mk_fixed, State.fold_fixed, apply_ite Prod.snd, ite_self, State.adminDone_fixed, State.moveCursor_fixed, State.recorderAccess_fixed] | with_reducible refine State.admin_fixed (fun _ => ?_) | with_reducible refine (State.recorderAccess_fixed_of (by assumption)).trans ?_ | split | with_reducible refine (State.foldl_fixed _ (fun _ _ => ?_) _ _).trans ?_)

@[simp] theorem State.endFreeze_fixed (s : State) (cause : Nat) :
    (State.endFreeze s cause).fixed = s.fixed := by
  unfold State.endFreeze
  repeat' (first | with_reducible rfl | with_reducible refine State.ite_fixed ?_ ?_ | simp only [State.mk_fixed, State.fold_fixed, apply_ite Prod.snd, ite_self, State.ev_fixed, State.flushDue_fixed, State.mgtPost_fixed, State.placeRecs_fixed, State.showEvr_fixed] | split | with_reducible refine (State.foldl_fixed _ (fun _ _ => ?_) _ _).trans ?_)

@[simp] theorem State.endFreezeOf_fixed (s : State) (fn : Nat) :
    (State.endFreezeOf s fn).fixed = s.fixed := by
  unfold State.endFreezeOf
  repeat' (first | with_reducible rfl | with_reducible refine State.ite_fixed ?_ ?_ | simp only [State.mk_fixed, State.fold_fixed, apply_ite Prod.snd, ite_self, State.endFreeze_fixed] | split | with_reducible refine (State.foldl_fixed _ (fun _ _ => ?_) _ _).trans ?_)

theorem execRecorderFreeze_fixed (fn : FnId) (e : Sqe) (s : State) :
    Keeps (execRecorderFreeze fn e s) s := by
  unfold execRecorderFreeze
  repeat' (first | with_reducible rfl | with_reducible refine State.ite_fixed ?_ ?_ | with_reducible refine Keeps.next ?_ | with_reducible refine Keeps.ite ?_ ?_ | simp only [State.mk_fixed, State.fold_fixed, apply_ite Prod.snd, ite_self, State.adminDone_fixed, State.ev_fixed, State.mgtPost_fixed, State.recorderAccess_fixed, State.showEvr_fixed] | with_reducible refine State.admin_fixed (fun _ => ?_) | with_reducible refine (State.recorderAccess_fixed_of (by assumption)).trans ?_ | split | with_reducible refine (State.foldl_fixed _ (fun _ _ => ?_) _ _).trans ?_)

theorem execRecorderUnfreeze_fixed (fn : FnId) (e : Sqe) (s : State) :
    Keeps (execRecorderUnfreeze fn e s) s := by
  unfold execRecorderUnfreeze
  repeat' (first | with_reducible rfl | with_reducible refine State.ite_fixed ?_ ?_ | with_reducible refine Keeps.next ?_ | with_reducible refine Keeps.ite ?_ ?_ | simp only [State.mk_fixed, State.fold_fixed, apply_ite Prod.snd, ite_self, State.adminDone_fixed, State.endFreeze_fixed, State.recorderAccess_fixed] | with_reducible refine State.admin_fixed (fun _ => ?_) | with_reducible refine (State.recorderAccess_fixed_of (by assumption)).trans ?_ | split | with_reducible refine (State.foldl_fixed _ (fun _ _ => ?_) _ _).trans ?_)

theorem execFreezeTimeout_fixed (s : State) :
    Keeps (execFreezeTimeout s) s := by
  unfold execFreezeTimeout
  repeat' (first | with_reducible rfl | with_reducible refine State.ite_fixed ?_ ?_ | with_reducible refine Keeps.next ?_ | with_reducible refine Keeps.ite ?_ ?_ | simp only [State.mk_fixed, State.fold_fixed, apply_ite Prod.snd, ite_self, State.endFreeze_fixed] | split | with_reducible refine (State.foldl_fixed _ (fun _ _ => ?_) _ _).trans ?_)

@[simp] theorem State.recorderPowerLoss_fixed (s : State) :
    (State.recorderPowerLoss s).fixed = s.fixed := by
  unfold State.recorderPowerLoss
  repeat' (first | with_reducible rfl | with_reducible refine State.ite_fixed ?_ ?_ | simp only [State.mk_fixed, State.fold_fixed, apply_ite Prod.snd, ite_self, State.endFreeze_fixed] | split | with_reducible refine (State.foldl_fixed _ (fun _ _ => ?_) _ _).trans ?_)

end Sys2Proof.Machine
end

