-- ==== Sys2Proof/Laws/FixLpe.lean ====
section
/-! SUPPORT. Operations of Machine/Lpe.lean that keep the queue, memory, the straps and the OTP. -/

namespace Sys2Proof.Machine

set_option linter.all false

@[simp] theorem State.lp_fixed (s : State) (f : Lpe → Lpe) :
    (State.lp s f).fixed = s.fixed := by
  unfold State.lp
  repeat' (first | with_reducible rfl | with_reducible refine State.ite_fixed ?_ ?_ | simp only [State.mk_fixed, State.fold_fixed, apply_ite Prod.snd, ite_self] | split | with_reducible refine (State.foldl_fixed _ (fun _ _ => ?_) _ _).trans ?_)

@[simp] theorem State.modLpe_fixed (s : State) (k : Nat) (f : LpeSlot → LpeSlot) :
    (State.modLpe s k f).fixed = s.fixed := by
  unfold State.modLpe
  repeat' (first | with_reducible rfl | with_reducible refine State.ite_fixed ?_ ?_ | simp only [State.mk_fixed, State.fold_fixed, apply_ite Prod.snd, ite_self, State.lp_fixed] | split | with_reducible refine (State.foldl_fixed _ (fun _ _ => ?_) _ _).trans ?_)

@[simp] theorem State.lpePost_fixed (s : State) (k id : Nat) (items : List (Nat × Nat)) :
    (State.lpePost s k id items).fixed = s.fixed := by
  unfold State.lpePost
  repeat' (first | with_reducible rfl | with_reducible refine State.ite_fixed ?_ ?_ | simp only [State.mk_fixed, State.fold_fixed, apply_ite Prod.snd, ite_self, State.post_fixed] | split | with_reducible refine (State.foldl_fixed _ (fun _ _ => ?_) _ _).trans ?_)

@[simp] theorem State.lpeOut_fixed (s : State) (k u lvl ra : Nat) :
    (State.lpeOut s k u lvl ra).fixed = s.fixed := by
  unfold State.lpeOut
  repeat' (first | with_reducible rfl | with_reducible refine State.ite_fixed ?_ ?_ | simp only [State.mk_fixed, State.fold_fixed, apply_ite Prod.snd, ite_self, State.setFld_fixed, State.showPower_fixed] | split | with_reducible refine (State.foldl_fixed _ (fun _ _ => ?_) _ _).trans ?_)

@[simp] theorem State.setLpeState_fixed (s : State) (k v : Nat) :
    (State.setLpeState s k v).fixed = s.fixed := by
  unfold State.setLpeState
  repeat' (first | with_reducible rfl | with_reducible refine State.ite_fixed ?_ ?_ | simp only [State.mk_fixed, State.fold_fixed, apply_ite Prod.snd, ite_self, State.setFld_fixed] | split | with_reducible refine (State.foldl_fixed _ (fun _ _ => ?_) _ _).trans ?_)

@[simp] theorem State.setHold_fixed (s : State) (k u lvl ra : Nat) :
    (State.setHold s k u lvl ra).fixed = s.fixed := by
  unfold State.setHold
  repeat' (first | with_reducible rfl | with_reducible refine State.ite_fixed ?_ ?_ | simp only [State.mk_fixed, State.fold_fixed, apply_ite Prod.snd, ite_self, State.setFld_fixed] | split | with_reducible refine (State.foldl_fixed _ (fun _ _ => ?_) _ _).trans ?_)

@[simp] theorem State.applyCmd_fixed (s : State) (k : Nat) :
    (State.applyCmd s k).fixed = s.fixed := by
  unfold State.applyCmd
  repeat' (first | with_reducible rfl | with_reducible refine State.ite_fixed ?_ ?_ | simp only [State.mk_fixed, State.fold_fixed, apply_ite Prod.snd, ite_self, State.lpePost_fixed, State.modLpe_fixed, State.setFld_fixed, State.setHold_fixed, State.setLpeState_fixed] | split | with_reducible refine (State.foldl_fixed _ (fun _ _ => ?_) _ _).trans ?_)

@[simp] theorem State.islandsOn_fixed (s : State) :
    (State.islandsOn s).2.fixed = s.fixed := by
  unfold State.islandsOn
  repeat' (first | with_reducible rfl | with_reducible refine State.ite_fixed ?_ ?_ | simp only [State.mk_fixed, State.fold_fixed, apply_ite Prod.snd, ite_self, State.drawFree_fixed] | with_reducible refine (State.drawFree_fixed_of (by assumption)).trans ?_ | split | with_reducible refine (State.foldl_fixed _ (fun _ _ => ?_) _ _).trans ?_)

theorem State.islandsOn_fixed_of {s : State} {x0} {t : State} (h : State.islandsOn s = (x0, t)) : t.fixed = s.fixed := by
  have := State.islandsOn_fixed s
  rw [h] at this
  exact this

@[simp] theorem State.lpeModel_fixed (s : State) (k q : Nat) :
    (State.lpeModel s k q).2.fixed = s.fixed := by
  unfold State.lpeModel
  repeat' (first | with_reducible rfl | with_reducible refine State.ite_fixed ?_ ?_ | simp only [State.mk_fixed, State.fold_fixed, apply_ite Prod.snd, ite_self, State.islandsOn_fixed] | with_reducible refine (State.islandsOn_fixed_of (by assumption)).trans ?_ | split | with_reducible refine (State.foldl_fixed _ (fun _ _ => ?_) _ _).trans ?_)

theorem State.lpeModel_fixed_of {s : State} {k q : Nat} {x0} {t : State} (h : State.lpeModel s k q = (x0, t)) : t.fixed = s.fixed := by
  have := State.lpeModel_fixed s k q
  rw [h] at this
  exact this

@[simp] theorem State.lpeFault_fixed (s : State) (k : Nat) (yhat : Int) :
    (State.lpeFault s k yhat).fixed = s.fixed := by
  unfold State.lpeFault
  repeat' (first | with_reducible rfl | with_reducible refine State.ite_fixed ?_ ?_ | simp only [State.mk_fixed, State.fold_fixed, apply_ite Prod.snd, ite_self, State.bump_fixed, State.lpeOut_fixed, State.lpePost_fixed, State.setLpeState_fixed] | split | with_reducible refine (State.foldl_fixed _ (fun _ _ => ?_) _ _).trans ?_)

@[simp] theorem State.lpeCheck_fixed (s : State) (k : Nat) (stale : Bool) (q : Nat) :
    (State.lpeCheck s k stale q).fixed = s.fixed := by
  unfold State.lpeCheck
  repeat' (first | with_reducible rfl | with_reducible refine State.ite_fixed ?_ ?_ | simp only [State.mk_fixed, State.fold_fixed, apply_ite Prod.snd, ite_self, State.lpeFault_fixed, State.lpeModel_fixed, State.setFld_fixed] | with_reducible refine (State.lpeModel_fixed_of (by assumption)).trans ?_ | split | with_reducible refine (State.foldl_fixed _ (fun _ _ => ?_) _ _).trans ?_)

@[simp] theorem State.lpeStep_fixed (s : State) (k : Nat) :
    (State.lpeStep s k).fixed = s.fixed := by
  unfold State.lpeStep
  repeat' (first | with_reducible rfl | with_reducible refine State.ite_fixed ?_ ?_ | simp only [State.mk_fixed, State.fold_fixed, apply_ite Prod.snd, ite_self, State.lpeCheck_fixed, State.lpeOut_fixed, State.modLpe_fixed, State.setFld_fixed] | split | with_reducible refine (State.foldl_fixed _ (fun _ _ => ?_) _ _).trans ?_)

@[simp] theorem State.compTime_fixed (s : State) (n : Nat) :
    (State.compTime s n).2.fixed = s.fixed := by
  unfold State.compTime
  repeat' (first | with_reducible rfl | with_reducible refine State.ite_fixed ?_ ?_ | simp only [State.mk_fixed, State.fold_fixed, apply_ite Prod.snd, ite_self, State.drawFree_fixed] | with_reducible refine (State.drawFree_fixed_of (by assumption)).trans ?_ | split | with_reducible refine (State.foldl_fixed _ (fun _ _ => ?_) _ _).trans ?_)

theorem State.compTime_fixed_of {s : State} {n : Nat} {x0} {t : State} (h : State.compTime s n = (x0, t)) : t.fixed = s.fixed := by
  have := State.compTime_fixed s n
  rw [h] at this
  exact this

theorem execSampleBoundary_fixed (s : State) : Keeps (execSampleBoundary s) s := by
  unfold execSampleBoundary
  split
  · exact Keeps.next rfl
  · extract_lets ext gone new_ late s1 s2 s3 s4 s5
    have h2 : s2.fixed = s.fixed := (State.foldl_fixed _ (fun s k => by simp) _ _).trans (by simp [s1])
    have h : s4.fixed = s.fixed := by
      refine (State.foldl_fixed _ (fun s k => ?_) _ _).trans ?_
      · split <;> simp
      · simp [s3, h2]
    have h4 : s5.fixed = s.fixed := by simp [s5, h]
    clear_value s5 s4
    split
    · exact Keeps.next (by simp [h])
    · split
      · exact Keeps.next (by simp [h4])
      · split
        next t s6 h6 =>
          refine Keeps.next ((State.lp_fixed ..).trans ((State.foldl_fixed _ (fun s k => by simp) _ _).trans ?_))
          simpa [h4] using State.compTime_fixed_of h6

@[simp] theorem State.slotCmd_fixed (s : State) (k c : Nat) :
    (State.slotCmd s k c).fixed = s.fixed := by
  unfold State.slotCmd
  repeat' (first | with_reducible rfl | with_reducible refine State.ite_fixed ?_ ?_ | simp only [State.mk_fixed, State.fold_fixed, apply_ite Prod.snd, ite_self, State.modLpe_fixed, State.setFld_fixed] | split | with_reducible refine (State.foldl_fixed _ (fun _ _ => ?_) _ _).trans ?_)

theorem execSlotOpen_fixed (k : Fin 160) (s : State) :
    Keeps (execSlotOpen k s) s := by
  unfold execSlotOpen
  repeat' (first | with_reducible rfl | with_reducible refine State.ite_fixed ?_ ?_ | with_reducible refine Keeps.next ?_ | with_reducible refine Keeps.ite ?_ ?_ | simp only [State.mk_fixed, State.fold_fixed, apply_ite Prod.snd, ite_self, State.slotCmd_fixed] | split | with_reducible refine (State.foldl_fixed _ (fun _ _ => ?_) _ _).trans ?_)

theorem execSlotClose_fixed (k : Fin 160) (s : State) :
    Keeps (execSlotClose k s) s := by
  unfold execSlotClose
  repeat' (first | with_reducible rfl | with_reducible refine State.ite_fixed ?_ ?_ | with_reducible refine Keeps.next ?_ | with_reducible refine Keeps.ite ?_ ?_ | simp only [State.mk_fixed, State.fold_fixed, apply_ite Prod.snd, ite_self, State.slotCmd_fixed] | split | with_reducible refine (State.foldl_fixed _ (fun _ _ => ?_) _ _).trans ?_)

@[simp] theorem State.coefRefused_fixed (s : State) (k off : Nat) :
    (State.coefRefused s k off).fixed = s.fixed := by
  unfold State.coefRefused
  repeat' (first | with_reducible rfl | with_reducible refine State.ite_fixed ?_ ?_ | simp only [State.mk_fixed, State.fold_fixed, apply_ite Prod.snd, ite_self, State.lpePost_fixed] | split | with_reducible refine (State.foldl_fixed _ (fun _ _ => ?_) _ _).trans ?_)

theorem execLpeHoldWrite_fixed (k : Fin 160) (w : W32) (s : State) :
    Keeps (execLpeHoldWrite k w s) s := by
  unfold execLpeHoldWrite
  repeat' (first | with_reducible rfl | with_reducible refine State.ite_fixed ?_ ?_ | with_reducible refine Keeps.next ?_ | with_reducible refine Keeps.ite ?_ ?_ | simp only [State.mk_fixed, State.fold_fixed, apply_ite Prod.snd, ite_self, State.coefRefused_fixed, State.lpeOut_fixed, State.setHold_fixed] | split | with_reducible refine (State.foldl_fixed _ (fun _ _ => ?_) _ _).trans ?_)

theorem execLpeExtmeasWrite_fixed (i : Fin 15) (y : BitVec 16) (s : State) :
    Keeps (execLpeExtmeasWrite i y s) s := by
  unfold execLpeExtmeasWrite
  repeat' (first | with_reducible rfl | with_reducible refine State.ite_fixed ?_ ?_ | with_reducible refine Keeps.next ?_ | with_reducible refine Keeps.ite ?_ ?_ | simp only [State.mk_fixed, State.fold_fixed, apply_ite Prod.snd, ite_self, State.lp_fixed, State.setFld_fixed] | split | with_reducible refine (State.foldl_fixed _ (fun _ _ => ?_) _ _).trans ?_)

@[simp] theorem State.lpeDeleted_fixed (s : State) (t : Nat) :
    (State.lpeDeleted s t).fixed = s.fixed := by
  unfold State.lpeDeleted
  repeat' (first | with_reducible rfl | with_reducible refine State.ite_fixed ?_ ?_ | simp only [State.mk_fixed, State.fold_fixed, apply_ite Prod.snd, ite_self, State.lpeOut_fixed, State.modLpe_fixed, State.setFld_fixed, State.setHold_fixed, State.setLpeState_fixed] | split | with_reducible refine (State.foldl_fixed _ (fun _ _ => ?_) _ _).trans ?_)

@[simp] theorem State.lpeWake_fixed (s : State) :
    (State.lpeWake s).fixed = s.fixed := by
  unfold State.lpeWake
  repeat' (first | with_reducible rfl | with_reducible refine State.ite_fixed ?_ ?_ | simp only [State.mk_fixed, State.fold_fixed, apply_ite Prod.snd, ite_self, State.lp_fixed] | split | with_reducible refine (State.foldl_fixed _ (fun _ _ => ?_) _ _).trans ?_)

end Sys2Proof.Machine
end

