-- ==== Sys2Proof/Laws/FixMonitors.lean ====
section
/-! SUPPORT. Operations of Machine/Monitors.lean that keep the queue, memory, the straps and the OTP. -/

namespace Sys2Proof.Machine

set_option linter.all false

@[simp] theorem State.mg_fixed (s : State) (f : Mgt → Mgt) :
    (State.mg s f).fixed = s.fixed := by
  unfold State.mg
  repeat' (first | with_reducible rfl | with_reducible refine State.ite_fixed ?_ ?_ | simp only [State.mk_fixed, State.fold_fixed, apply_ite Prod.snd, ite_self] | split | with_reducible refine (State.foldl_fixed _ (fun _ _ => ?_) _ _).trans ?_)

@[simp] theorem State.claimRefused_fixed (s : State) (k : ResKind) (i id : Nat) :
    (State.claimRefused s k i id).fixed = s.fixed := by
  unfold State.claimRefused
  repeat' (first | with_reducible rfl | with_reducible refine State.ite_fixed ?_ ?_ | simp only [State.mk_fixed, State.fold_fixed, apply_ite Prod.snd, ite_self, State.mgtPost_fixed] | split | with_reducible refine (State.foldl_fixed _ (fun _ _ => ?_) _ _).trans ?_)

@[simp] theorem State.claimWrite_fixed (s : State) (k : ResKind) (i id : Nat) (release : Bool) :
    (State.claimWrite s k i id release).fixed = s.fixed := by
  unfold State.claimWrite
  repeat' (first | with_reducible rfl | with_reducible refine State.ite_fixed ?_ ?_ | simp only [State.mk_fixed, State.fold_fixed, apply_ite Prod.snd, ite_self, State.claimRefused_fixed, State.setFld_fixed] | split | with_reducible refine (State.foldl_fixed _ (fun _ _ => ?_) _ _).trans ?_)

theorem execClaimWrite_fixed (k : ResKind) (i : BitVec 8) (id : W32) (s : State) :
    Keeps (execClaimWrite k i id s) s := by
  unfold execClaimWrite
  repeat' (first | with_reducible rfl | with_reducible refine State.ite_fixed ?_ ?_ | with_reducible refine Keeps.next ?_ | with_reducible refine Keeps.ite ?_ ?_ | simp only [State.mk_fixed, State.fold_fixed, apply_ite Prod.snd, ite_self, State.claimWrite_fixed] | split | with_reducible refine (State.foldl_fixed _ (fun _ _ => ?_) _ _).trans ?_)

theorem execClaimRelease_fixed (k : ResKind) (i : BitVec 8) (id : W32) (s : State) :
    Keeps (execClaimRelease k i id s) s := by
  unfold execClaimRelease
  repeat' (first | with_reducible rfl | with_reducible refine State.ite_fixed ?_ ?_ | with_reducible refine Keeps.next ?_ | with_reducible refine Keeps.ite ?_ ?_ | simp only [State.mk_fixed, State.fold_fixed, apply_ite Prod.snd, ite_self, State.claimWrite_fixed] | split | with_reducible refine (State.foldl_fixed _ (fun _ _ => ?_) _ _).trans ?_)

theorem execResourceClaim_fixed (fn : FnId) (e : Sqe) (s : State) :
    Keeps (execResourceClaim fn e s) s := by
  unfold execResourceClaim
  repeat' (first | with_reducible rfl | with_reducible refine State.ite_fixed ?_ ?_ | with_reducible refine Keeps.next ?_ | with_reducible refine Keeps.ite ?_ ?_ | simp only [State.mk_fixed, State.fold_fixed, apply_ite Prod.snd, ite_self, State.adminDone_fixed, State.setFld_fixed] | with_reducible refine State.admin_fixed (fun _ => ?_) | split | with_reducible refine (State.foldl_fixed _ (fun _ _ => ?_) _ _).trans ?_)

theorem execResourceRelease_fixed (fn : FnId) (e : Sqe) (s : State) :
    Keeps (execResourceRelease fn e s) s := by
  unfold execResourceRelease
  repeat' (first | with_reducible rfl | with_reducible refine State.ite_fixed ?_ ?_ | with_reducible refine Keeps.next ?_ | with_reducible refine Keeps.ite ?_ ?_ | simp only [State.mk_fixed, State.fold_fixed, apply_ite Prod.snd, ite_self, State.adminDone_fixed, State.setFld_fixed] | with_reducible refine State.admin_fixed (fun _ => ?_) | split | with_reducible refine (State.foldl_fixed _ (fun _ _ => ?_) _ _).trans ?_)

@[simp] theorem State.takeSafe_fixed (s : State) (k : ResKind) (i sfn : Nat) :
    (State.takeSafe s k i sfn).fixed = s.fixed := by
  unfold State.takeSafe
  repeat' (first | with_reducible rfl | with_reducible refine State.ite_fixed ?_ ?_ | simp only [State.mk_fixed, State.fold_fixed, apply_ite Prod.snd, ite_self, State.mgtPost_fixed, State.setFld_fixed] | split | with_reducible refine (State.foldl_fixed _ (fun _ _ => ?_) _ _).trans ?_)

@[simp] theorem State.dropSafe_fixed (s : State) (k : ResKind) (i sfn : Nat) :
    (State.dropSafe s k i sfn).fixed = s.fixed := by
  unfold State.dropSafe
  repeat' (first | with_reducible rfl | with_reducible refine State.ite_fixed ?_ ?_ | simp only [State.mk_fixed, State.fold_fixed, apply_ite Prod.snd, ite_self, State.setFld_fixed] | split | with_reducible refine (State.foldl_fixed _ (fun _ _ => ?_) _ _).trans ?_)

@[simp] theorem State.driveTwarn_fixed (s : State) :
    (State.driveTwarn s).fixed = s.fixed := by
  unfold State.driveTwarn
  repeat' (first | with_reducible rfl | with_reducible refine State.ite_fixed ?_ ?_ | simp only [State.mk_fixed, State.fold_fixed, apply_ite Prod.snd, ite_self] | split | with_reducible refine (State.foldl_fixed _ (fun _ _ => ?_) _ _).trans ?_)

@[simp] theorem State.sampleTemp_fixed (s : State) (i : Nat) (t : Int) :
    (State.sampleTemp s i t).fixed = s.fixed := by
  unfold State.sampleTemp
  repeat' (first | with_reducible rfl | with_reducible refine State.ite_fixed ?_ ?_ | simp only [State.mk_fixed, State.fold_fixed, apply_ite Prod.snd, ite_self, State.mg_fixed, State.mgtPost_fixed, State.setWord_fixed] | split | with_reducible refine (State.foldl_fixed _ (fun _ _ => ?_) _ _).trans ?_)

theorem execTemperatureSample_fixed (ts : List (BitVec 32)) (s : State) :
    Keeps (execTemperatureSample ts s) s := by
  unfold execTemperatureSample
  repeat' (first | with_reducible rfl | with_reducible refine State.ite_fixed ?_ ?_ | with_reducible refine Keeps.next ?_ | with_reducible refine Keeps.ite ?_ ?_ | simp only [State.mk_fixed, State.fold_fixed, apply_ite Prod.snd, ite_self, State.driveTwarn_fixed, State.mgtPost_fixed, State.sampleTemp_fixed] | split | with_reducible refine (State.foldl_fixed _ (fun _ _ => ?_) _ _).trans ?_)

@[simp] theorem State.sampleRail_fixed (s : State) (r mv : Nat) :
    (State.sampleRail s r mv).fixed = s.fixed := by
  unfold State.sampleRail
  repeat' (first | with_reducible rfl | with_reducible refine State.ite_fixed ?_ ?_ | simp only [State.mk_fixed, State.fold_fixed, apply_ite Prod.snd, ite_self, State.mg_fixed, State.mgtPost_fixed, State.setFld_fixed] | split | with_reducible refine (State.foldl_fixed _ (fun _ _ => ?_) _ _).trans ?_)

theorem execVoltageSample_fixed (mvs : List (BitVec 12)) (s : State) :
    Keeps (execVoltageSample mvs s) s := by
  unfold execVoltageSample
  repeat' (first | with_reducible rfl | with_reducible refine State.ite_fixed ?_ ?_ | with_reducible refine Keeps.next ?_ | with_reducible refine Keeps.ite ?_ ?_ | simp only [State.mk_fixed, State.fold_fixed, apply_ite Prod.snd, ite_self, State.sampleRail_fixed] | split | with_reducible refine (State.foldl_fixed _ (fun _ _ => ?_) _ _).trans ?_)

theorem execRingOscGate_fixed (counts : List (BitVec 16)) (s : State) :
    Keeps (execRingOscGate counts s) s := by
  unfold execRingOscGate
  repeat' (first | with_reducible rfl | with_reducible refine State.ite_fixed ?_ ?_ | with_reducible refine Keeps.next ?_ | with_reducible refine Keeps.ite ?_ ?_ | simp only [State.mk_fixed, State.fold_fixed, apply_ite Prod.snd, ite_self, State.setFld_fixed, State.setWord_fixed] | split | with_reducible refine (State.foldl_fixed _ (fun _ _ => ?_) _ _).trans ?_)

theorem execGeneralTimerExpiry_fixed (t : Fin 64) (s : State) :
    Keeps (execGeneralTimerExpiry t s) s := by
  unfold execGeneralTimerExpiry
  repeat' (first | with_reducible rfl | with_reducible refine State.ite_fixed ?_ ?_ | with_reducible refine Keeps.next ?_ | with_reducible refine Keeps.ite ?_ ?_ | simp only [State.mk_fixed, State.fold_fixed, apply_ite Prod.snd, ite_self, State.mg_fixed] | split | with_reducible refine (State.foldl_fixed _ (fun _ _ => ?_) _ _).trans ?_)

end Sys2Proof.Machine
end

