-- ==== Sys2Proof/Laws/FixHostLink.lean ====
section
/-! SUPPORT. Operations of Machine/HostLink.lean that keep the queue, memory, the straps and the OTP. -/

namespace Sys2Proof.Machine

set_option linter.all false

@[simp] theorem State.cancelReads_fixed (s : State) (i : Nat) :
    (State.cancelReads s i).fixed = s.fixed := by
  unfold State.cancelReads
  repeat' (first | with_reducible rfl | with_reducible refine State.ite_fixed ?_ ?_ | simp only [State.mk_fixed, State.fold_fixed, apply_ite Prod.snd, ite_self, State.endRecon_fixed, State.withdrawOps_fixed, State.zn_fixed] | split | with_reducible refine (State.foldl_fixed _ (fun _ _ => ?_) _ _).trans ?_)

@[simp] theorem State.stopWrite_fixed (s : State) (i : Nat) (x : Slot) :
    (State.stopWrite s i x).fixed = s.fixed := by
  unfold State.stopWrite
  repeat' (first | with_reducible rfl | with_reducible refine State.ite_fixed ?_ ?_ | simp only [State.mk_fixed, State.fold_fixed, apply_ite Prod.snd, ite_self, State.giveUpConv_fixed, State.modSlot_fixed, State.voidFill_fixed, State.writeDone_fixed] | split | with_reducible refine (State.foldl_fixed _ (fun _ _ => ?_) _ _).trans ?_)

@[simp] theorem State.endSlotReset_fixed (s : State) (i : Nat) :
    (State.endSlotReset s i).fixed = s.fixed := by
  unfold State.endSlotReset
  repeat' (first | with_reducible rfl | with_reducible refine State.ite_fixed ?_ ?_ | simp only [State.mk_fixed, State.fold_fixed, apply_ite Prod.snd, ite_self, State.cancelReads_fixed, State.cs_fixed, State.endCopy_fixed, State.freeSlot_fixed, State.modSlot_fixed, State.stopWrite_fixed, State.wakeConv_fixed, State.zonedWrite_fixed] | split | with_reducible refine (State.foldl_fixed _ (fun _ _ => ?_) _ _).trans ?_)

@[simp] theorem State.closeDiag_fixed (s : State) (p : Nat) :
    (State.closeDiag s p).fixed = s.fixed := by
  unfold State.closeDiag
  repeat' (first | with_reducible rfl | with_reducible refine State.ite_fixed ?_ ?_ | simp only [State.mk_fixed, State.fold_fixed, apply_ite Prod.snd, ite_self, State.hifPost_fixed, State.setFld_fixed] | split | with_reducible refine (State.foldl_fixed _ (fun _ _ => ?_) _ _).trans ?_)

@[simp] theorem State.resetFunction_fixed (s : State) (fn : Nat) (nssro : Bool) :
    (State.resetFunction s fn nssro).fixed = s.fixed := by
  unfold State.resetFunction
  repeat' (first | with_reducible rfl | with_reducible refine State.ite_fixed ?_ ?_ | simp only [State.mk_fixed, State.fold_fixed, apply_ite Prod.snd, ite_self, State.closeDiag_fixed, State.cs_fixed, State.endFreezeOf_fixed, State.endSlotReset_fixed, State.fresh_fixed, State.hf_fixed, State.hifPost_fixed, State.sc_fixed, State.setFld_fixed] | with_reducible refine (State.fresh_fixed_of (by assumption)).trans ?_ | split | with_reducible refine (State.foldl_fixed _ (fun _ _ => ?_) _ _).trans ?_)

theorem execControllerReset_fixed (fn : FnId) (s : State) :
    Keeps (execControllerReset fn s) s := by
  unfold execControllerReset
  repeat' (first | with_reducible rfl | with_reducible refine State.ite_fixed ?_ ?_ | with_reducible refine Keeps.next ?_ | with_reducible refine Keeps.ite ?_ ?_ | simp only [State.mk_fixed, State.fold_fixed, apply_ite Prod.snd, ite_self, State.resetFunction_fixed] | split | with_reducible refine (State.foldl_fixed _ (fun _ _ => ?_) _ _).trans ?_)

theorem execFunctionLevelReset_fixed (fn : FnId) (s : State) :
    Keeps (execFunctionLevelReset fn s) s := by
  unfold execFunctionLevelReset
  repeat' (first | with_reducible rfl | with_reducible refine State.ite_fixed ?_ ?_ | with_reducible refine Keeps.next ?_ | with_reducible refine Keeps.ite ?_ ?_ | simp only [State.mk_fixed, State.fold_fixed, apply_ite Prod.snd, ite_self, State.resetFunction_fixed] | split | with_reducible refine (State.foldl_fixed _ (fun _ _ => ?_) _ _).trans ?_)

@[simp] theorem State.resetPortFns_fixed (s : State) (p : Nat) (nssro : Bool) :
    (State.resetPortFns s p nssro).fixed = s.fixed := by
  unfold State.resetPortFns
  repeat' (first | with_reducible rfl | with_reducible refine State.ite_fixed ?_ ?_ | simp only [State.mk_fixed, State.fold_fixed, apply_ite Prod.snd, ite_self, State.resetFunction_fixed] | split | with_reducible refine (State.foldl_fixed _ (fun _ _ => ?_) _ _).trans ?_)

@[simp] theorem State.linkEvent_fixed (s : State) (p cause : Nat) :
    (State.linkEvent s p cause).fixed = s.fixed := by
  unfold State.linkEvent
  repeat' (first | with_reducible rfl | with_reducible refine State.ite_fixed ?_ ?_ | simp only [State.mk_fixed, State.fold_fixed, apply_ite Prod.snd, ite_self, State.hifPost_fixed] | split | with_reducible refine (State.foldl_fixed _ (fun _ _ => ?_) _ _).trans ?_)

@[simp] theorem State.linkDown_fixed (s : State) (p : Nat) :
    (State.linkDown s p).fixed = s.fixed := by
  unfold State.linkDown
  repeat' (first | with_reducible rfl | with_reducible refine State.ite_fixed ?_ ?_ | simp only [State.mk_fixed, State.fold_fixed, apply_ite Prod.snd, ite_self, State.linkEvent_fixed, State.modPort_fixed, State.setFld_fixed] | split | with_reducible refine (State.foldl_fixed _ (fun _ _ => ?_) _ _).trans ?_)

@[simp] theorem State.startTraining_fixed (s : State) (p : Nat) :
    (State.startTraining s p).fixed = s.fixed := by
  unfold State.startTraining
  repeat' (first | with_reducible rfl | with_reducible refine State.ite_fixed ?_ ?_ | simp only [State.mk_fixed, State.fold_fixed, apply_ite Prod.snd, ite_self, State.modPort_fixed] | split | with_reducible refine (State.foldl_fixed _ (fun _ _ => ?_) _ _).trans ?_)

@[simp] theorem State.setPerst_fixed (s : State) (p : Nat) (high : Bool) :
    (State.setPerst s p high).fixed = s.fixed := by
  unfold State.setPerst
  repeat' (first | with_reducible rfl | with_reducible refine State.ite_fixed ?_ ?_ | simp only [State.mk_fixed, State.fold_fixed, apply_ite Prod.snd, ite_self] | split | with_reducible refine (State.foldl_fixed _ (fun _ _ => ?_) _ _).trans ?_)

theorem execPerstAssert_fixed (p : Port) (s : State) :
    Keeps (execPerstAssert p s) s := by
  unfold execPerstAssert
  repeat' (first | with_reducible rfl | with_reducible refine State.ite_fixed ?_ ?_ | with_reducible refine Keeps.next ?_ | with_reducible refine Keeps.ite ?_ ?_ | simp only [State.mk_fixed, State.fold_fixed, apply_ite Prod.snd, ite_self, State.linkDown_fixed, State.modPort_fixed, State.resetPortFns_fixed, State.setPerst_fixed] | split | with_reducible refine (State.foldl_fixed _ (fun _ _ => ?_) _ _).trans ?_)

theorem execPerstDeassert_fixed (p : Port) (s : State) :
    Keeps (execPerstDeassert p s) s := by
  unfold execPerstDeassert
  repeat' (first | with_reducible rfl | with_reducible refine State.ite_fixed ?_ ?_ | with_reducible refine Keeps.next ?_ | with_reducible refine Keeps.ite ?_ ?_ | simp only [State.mk_fixed, State.fold_fixed, apply_ite Prod.snd, ite_self, State.modPort_fixed, State.setPerst_fixed, State.startTraining_fixed] | split | with_reducible refine (State.foldl_fixed _ (fun _ _ => ?_) _ _).trans ?_)

theorem execSurpriseLinkDown_fixed (p : Port) (s : State) :
    Keeps (execSurpriseLinkDown p s) s := by
  unfold execSurpriseLinkDown
  repeat' (first | with_reducible rfl | with_reducible refine State.ite_fixed ?_ ?_ | with_reducible refine Keeps.next ?_ | with_reducible refine Keeps.ite ?_ ?_ | simp only [State.mk_fixed, State.fold_fixed, apply_ite Prod.snd, ite_self, State.bump_fixed, State.linkDown_fixed, State.resetPortFns_fixed, State.startTraining_fixed] | split | with_reducible refine (State.foldl_fixed _ (fun _ _ => ?_) _ _).trans ?_)

theorem execNvmSubsystemReset_fixed (here : Bool) (s : State) :
    Keeps (execNvmSubsystemReset here s) s := by
  unfold execNvmSubsystemReset
  repeat' (first | with_reducible rfl | with_reducible refine State.ite_fixed ?_ ?_ | with_reducible refine Keeps.next ?_ | with_reducible refine Keeps.ite ?_ ?_ | simp only [State.mk_fixed, State.fold_fixed, apply_ite Prod.snd, ite_self, State.linkDown_fixed, State.resetPortFns_fixed, State.sendVuk_fixed, State.startTraining_fixed] | split | with_reducible refine (State.foldl_fixed _ (fun _ _ => ?_) _ _).trans ?_)

@[simp] theorem State.linkEnable_fixed (s : State) (p : Nat) :
    (State.linkEnable s p).fixed = s.fixed := by
  unfold State.linkEnable
  repeat' (first | with_reducible rfl | with_reducible refine State.ite_fixed ?_ ?_ | simp only [State.mk_fixed, State.fold_fixed, apply_ite Prod.snd, ite_self, State.setFld_fixed, State.startTraining_fixed] | split | with_reducible refine (State.foldl_fixed _ (fun _ _ => ?_) _ _).trans ?_)

theorem execLinkEnable_fixed (p : Port) (s : State) :
    Keeps (execLinkEnable p s) s := by
  unfold execLinkEnable
  repeat' (first | with_reducible rfl | with_reducible refine State.ite_fixed ?_ ?_ | with_reducible refine Keeps.next ?_ | with_reducible refine Keeps.ite ?_ ?_ | simp only [State.mk_fixed, State.fold_fixed, apply_ite Prod.snd, ite_self, State.linkEnable_fixed] | split | with_reducible refine (State.foldl_fixed _ (fun _ _ => ?_) _ _).trans ?_)

theorem execLinkTrained_fixed (p : Port) (rate : BitVec 3) (width : BitVec 5) (s : State) :
    Keeps (execLinkTrained p rate width s) s := by
  unfold execLinkTrained
  repeat' (first | with_reducible rfl | with_reducible refine State.ite_fixed ?_ ?_ | with_reducible refine Keeps.next ?_ | with_reducible refine Keeps.ite ?_ ?_ | simp only [State.mk_fixed, State.fold_fixed, apply_ite Prod.snd, ite_self, State.bump_fixed, State.hifPost_fixed, State.linkEvent_fixed, State.modPort_fixed, State.setFld_fixed] | split | with_reducible refine (State.foldl_fixed _ (fun _ _ => ?_) _ _).trans ?_)

theorem execL0pWidthRequest_fixed (p : Port) (w : Fin 4) (s : State) :
    Keeps (execL0pWidthRequest p w s) s := by
  unfold execL0pWidthRequest
  repeat' (first | with_reducible rfl | with_reducible refine State.ite_fixed ?_ ?_ | with_reducible refine Keeps.next ?_ | with_reducible refine Keeps.ite ?_ ?_ | simp only [State.mk_fixed, State.fold_fixed, apply_ite Prod.snd, ite_self, State.modPort_fixed, State.setFld_fixed] | split | with_reducible refine (State.foldl_fixed _ (fun _ _ => ?_) _ _).trans ?_)

theorem execIdeIntegrityFail_fixed (p : Port) (stream : Fin 8) (rid : BitVec 16) (slots : List (Fin 65536)) (s : State) :
    Keeps (execIdeIntegrityFail p stream rid slots s) s := by
  unfold execIdeIntegrityFail
  repeat' (first | with_reducible rfl | with_reducible refine State.ite_fixed ?_ ?_ | with_reducible refine Keeps.next ?_ | with_reducible refine Keeps.ite ?_ ?_ | simp only [State.mk_fixed, State.fold_fixed, apply_ite Prod.snd, ite_self, State.bump_fixed, State.cancelReads_fixed, State.complete_fixed, State.hifPost_fixed, State.setFld_fixed, State.transferFail_fixed] | split | with_reducible refine (State.foldl_fixed _ (fun _ _ => ?_) _ _).trans ?_)

theorem execVfEnableWrite_fixed (p : Port) (enable : Bool) (num : Fin 128) (s : State) :
    Keeps (execVfEnableWrite p enable num s) s := by
  unfold execVfEnableWrite
  repeat' (first | with_reducible rfl | with_reducible refine State.ite_fixed ?_ ?_ | with_reducible refine Keeps.next ?_ | with_reducible refine Keeps.ite ?_ ?_ | simp only [State.mk_fixed, State.fold_fixed, apply_ite Prod.snd, ite_self, State.hf_fixed, State.modPort_fixed, State.resetFunction_fixed] | split | with_reducible refine (State.foldl_fixed _ (fun _ _ => ?_) _ _).trans ?_)

@[simp] theorem State.diagctlWrite_fixed (s : State) (p : Nat) (v : Nat) :
    (State.diagctlWrite s p v).fixed = s.fixed := by
  unfold State.diagctlWrite
  repeat' (first | with_reducible rfl | with_reducible refine State.ite_fixed ?_ ?_ | simp only [State.mk_fixed, State.fold_fixed, apply_ite Prod.snd, ite_self, State.closeDiag_fixed, State.setFld_fixed] | split | with_reducible refine (State.foldl_fixed _ (fun _ _ => ?_) _ _).trans ?_)

theorem execDiagctlWrite_fixed (p : Port) (v : W32) (s : State) :
    Keeps (execDiagctlWrite p v s) s := by
  unfold execDiagctlWrite
  repeat' (first | with_reducible rfl | with_reducible refine State.ite_fixed ?_ ?_ | with_reducible refine Keeps.next ?_ | with_reducible refine Keeps.ite ?_ ?_ | simp only [State.mk_fixed, State.fold_fixed, apply_ite Prod.snd, ite_self, State.diagctlWrite_fixed] | split | with_reducible refine (State.foldl_fixed _ (fun _ _ => ?_) _ _).trans ?_)

theorem execControllerEnable_fixed (fn : FnId) (wrr : Bool) (asqs acqs : BitVec 12) (s : State) :
    Keeps (execControllerEnable fn wrr asqs acqs s) s := by
  unfold execControllerEnable
  repeat' (first | with_reducible rfl | with_reducible refine State.ite_fixed ?_ ?_ | with_reducible refine Keeps.next ?_ | with_reducible refine Keeps.ite ?_ ?_ | simp only [State.mk_fixed, State.fold_fixed, apply_ite Prod.snd, ite_self, State.hk_fixed, State.modFunc_fixed] | split | with_reducible refine (State.foldl_fixed _ (fun _ _ => ?_) _ _).trans ?_)

@[simp] theorem State.stageConv_fixed (s : State) :
    (State.stageConv s).fixed = s.fixed := by
  unfold State.stageConv
  repeat' (first | with_reducible rfl | with_reducible refine State.ite_fixed ?_ ?_ | simp only [State.mk_fixed, State.fold_fixed, apply_ite Prod.snd, ite_self, State.dropStripe_fixed, State.modBuf_fixed, State.nextStage_fixed, State.packInto_fixed] | with_reducible refine (State.nextStage_fixed_of (by assumption)).trans ?_ | split | with_reducible refine (State.foldl_fixed _ (fun _ _ => ?_) _ _).trans ?_)

@[simp] theorem State.stageAll_fixed (s : State) :
    (State.stageAll s).fixed = s.fixed := by
  unfold State.stageAll
  repeat' (first | with_reducible rfl | with_reducible refine State.ite_fixed ?_ ?_ | simp only [State.mk_fixed, State.fold_fixed, apply_ite Prod.snd, ite_self, State.stageConv_fixed, State.stageZone_fixed, State.wantStripe_fixed] | split | with_reducible refine (State.foldl_fixed _ (fun _ _ => ?_) _ _).trans ?_)

@[simp] theorem State.sealAll_fixed (s : State) :
    (State.sealAll s).fixed = s.fixed := by
  unfold State.sealAll
  repeat' (first | with_reducible rfl | with_reducible refine State.ite_fixed ?_ ?_ | simp only [State.mk_fixed, State.fold_fixed, apply_ite Prod.snd, ite_self, State.hk_fixed, State.nextEpochs_fixed, State.savePages_fixed] | with_reducible refine (State.nextEpochs_fixed_of (by assumption)).trans ?_ | split | with_reducible refine (State.foldl_fixed _ (fun _ _ => ?_) _ _).trans ?_)

@[simp] theorem State.shutdownStep_fixed (s : State) (fn : Nat) :
    (State.shutdownStep s fn).fixed = s.fixed := by
  unfold State.shutdownStep
  repeat' (first | with_reducible rfl | with_reducible refine State.ite_fixed ?_ ?_ | simp only [State.mk_fixed, State.fold_fixed, apply_ite Prod.snd, ite_self, State.modFunc_fixed, State.sealAll_fixed, State.stageAll_fixed] | split | with_reducible refine (State.foldl_fixed _ (fun _ _ => ?_) _ _).trans ?_)

theorem execShutdownNotification_fixed (fn : FnId) (s : State) :
    Keeps (execShutdownNotification fn s) s := by
  unfold execShutdownNotification
  repeat' (first | with_reducible rfl | with_reducible refine State.ite_fixed ?_ ?_ | with_reducible refine Keeps.next ?_ | with_reducible refine Keeps.ite ?_ ?_ | simp only [State.mk_fixed, State.fold_fixed, apply_ite Prod.snd, ite_self, State.modFunc_fixed, State.shutdownStep_fixed] | split | with_reducible refine (State.foldl_fixed _ (fun _ _ => ?_) _ _).trans ?_)

end Sys2Proof.Machine
end

