-- ==== Sys2Proof/Laws/FixKeys.lean ====
section
/-! SUPPORT. Operations of Machine/Keys.lean that keep the queue, memory, the straps and the OTP. -/

namespace Sys2Proof.Machine

set_option linter.all false

@[simp] theorem State.kweRefused_fixed (s : State) (q : Requester) (off : Nat) :
    (State.kweRefused s q off).fixed = s.fixed := by
  unfold State.kweRefused
  repeat' (first | with_reducible rfl | with_reducible refine State.ite_fixed ?_ ?_ | simp only [State.mk_fixed, State.fold_fixed, apply_ite Prod.snd, ite_self, State.secPost_fixed] | split | with_reducible refine (State.foldl_fixed _ (fun _ _ => ?_) _ _).trans ?_)

@[simp] theorem State.kweLockRead_fixed (s : State) (q : Requester) :
    (State.kweLockRead s q).fixed = s.fixed := by
  unfold State.kweLockRead
  repeat' (first | with_reducible rfl | with_reducible refine State.ite_fixed ?_ ?_ | simp only [State.mk_fixed, State.fold_fixed, apply_ite Prod.snd, ite_self, State.setFld_fixed] | split | with_reducible refine (State.foldl_fixed _ (fun _ _ => ?_) _ _).trans ?_)

theorem execKweLockRead_fixed (c : CoreId) (s : State) :
    Keeps (execKweLockRead c s) s := by
  unfold execKweLockRead
  repeat' (first | with_reducible rfl | with_reducible refine State.ite_fixed ?_ ?_ | with_reducible refine Keeps.next ?_ | with_reducible refine Keeps.ite ?_ ?_ | simp only [State.mk_fixed, State.fold_fixed, apply_ite Prod.snd, ite_self, State.answer_fixed, State.kweLockRead_fixed] | split | with_reducible refine (State.foldl_fixed _ (fun _ _ => ?_) _ _).trans ?_)

@[simp] theorem State.kweEnd_fixed (s : State) (res : Nat) :
    (State.kweEnd s res).fixed = s.fixed := by
  unfold State.kweEnd
  repeat' (first | with_reducible rfl | with_reducible refine State.ite_fixed ?_ ?_ | simp only [State.mk_fixed, State.fold_fixed, apply_ite Prod.snd, ite_self, State.sc_fixed, State.setFld_fixed] | split | with_reducible refine (State.foldl_fixed _ (fun _ _ => ?_) _ _).trans ?_)

@[simp] theorem State.kweRelease_fixed (s : State) :
    (State.kweRelease s).fixed = s.fixed := by
  unfold State.kweRelease
  repeat' (first | with_reducible rfl | with_reducible refine State.ite_fixed ?_ ?_ | simp only [State.mk_fixed, State.fold_fixed, apply_ite Prod.snd, ite_self, State.kweEnd_fixed, State.setFld_fixed, State.zeroSlot_fixed] | split | with_reducible refine (State.foldl_fixed _ (fun _ _ => ?_) _ _).trans ?_)

@[simp] theorem State.kweLockWrite_fixed (s : State) (q : Requester) (v : Nat) :
    (State.kweLockWrite s q v).fixed = s.fixed := by
  unfold State.kweLockWrite
  repeat' (first | with_reducible rfl | with_reducible refine State.ite_fixed ?_ ?_ | simp only [State.mk_fixed, State.fold_fixed, apply_ite Prod.snd, ite_self, State.kweRefused_fixed, State.kweRelease_fixed] | split | with_reducible refine (State.foldl_fixed _ (fun _ _ => ?_) _ _).trans ?_)

theorem execKweLockWrite_fixed (c : CoreId) (v : W32) (s : State) :
    Keeps (execKweLockWrite c v s) s := by
  unfold execKweLockWrite
  repeat' (first | with_reducible rfl | with_reducible refine State.ite_fixed ?_ ?_ | with_reducible refine Keeps.next ?_ | with_reducible refine Keeps.ite ?_ ?_ | simp only [State.mk_fixed, State.fold_fixed, apply_ite Prod.snd, ite_self, State.kweLockWrite_fixed] | split | with_reducible refine (State.foldl_fixed _ (fun _ _ => ?_) _ _).trans ?_)

@[simp] theorem State.kweCmd_fixed (s : State) (q : Requester) (v : Nat) :
    (State.kweCmd s q v).fixed = s.fixed := by
  unfold State.kweCmd
  repeat' (first | with_reducible rfl | with_reducible refine State.ite_fixed ?_ ?_ | simp only [State.mk_fixed, State.fold_fixed, apply_ite Prod.snd, ite_self, State.kweRefused_fixed, State.sc_fixed, State.setFld_fixed, State.setWord_fixed] | split | with_reducible refine (State.foldl_fixed _ (fun _ _ => ?_) _ _).trans ?_)

theorem execKweGen_fixed (c : CoreId) (slot kek : BitVec 12) (s : State) :
    Keeps (execKweGen c slot kek s) s := by
  unfold execKweGen
  repeat' (first | with_reducible rfl | with_reducible refine State.ite_fixed ?_ ?_ | with_reducible refine Keeps.next ?_ | with_reducible refine Keeps.ite ?_ ?_ | simp only [State.mk_fixed, State.fold_fixed, apply_ite Prod.snd, ite_self, State.kweCmd_fixed] | split | with_reducible refine (State.foldl_fixed _ (fun _ _ => ?_) _ _).trans ?_)

theorem execKweWrap_fixed (c : CoreId) (slot kek : BitVec 12) (s : State) :
    Keeps (execKweWrap c slot kek s) s := by
  unfold execKweWrap
  repeat' (first | with_reducible rfl | with_reducible refine State.ite_fixed ?_ ?_ | with_reducible refine Keeps.next ?_ | with_reducible refine Keeps.ite ?_ ?_ | simp only [State.mk_fixed, State.fold_fixed, apply_ite Prod.snd, ite_self, State.kweCmd_fixed] | split | with_reducible refine (State.foldl_fixed _ (fun _ _ => ?_) _ _).trans ?_)

theorem execKweUnwrap_fixed (c : CoreId) (slot kek : BitVec 12) (s : State) :
    Keeps (execKweUnwrap c slot kek s) s := by
  unfold execKweUnwrap
  repeat' (first | with_reducible rfl | with_reducible refine State.ite_fixed ?_ ?_ | with_reducible refine Keeps.next ?_ | with_reducible refine Keeps.ite ?_ ?_ | simp only [State.mk_fixed, State.fold_fixed, apply_ite Prod.snd, ite_self, State.kweCmd_fixed] | split | with_reducible refine (State.foldl_fixed _ (fun _ _ => ?_) _ _).trans ?_)

theorem execKweZero_fixed (c : CoreId) (slot kek : BitVec 12) (s : State) :
    Keeps (execKweZero c slot kek s) s := by
  unfold execKweZero
  repeat' (first | with_reducible rfl | with_reducible refine State.ite_fixed ?_ ?_ | with_reducible refine Keeps.next ?_ | with_reducible refine Keeps.ite ?_ ?_ | simp only [State.mk_fixed, State.fold_fixed, apply_ite Prod.snd, ite_self, State.kweCmd_fixed] | split | with_reducible refine (State.foldl_fixed _ (fun _ _ => ?_) _ _).trans ?_)

theorem execKweSeal_fixed (c : CoreId) (slot kek : BitVec 12) (s : State) :
    Keeps (execKweSeal c slot kek s) s := by
  unfold execKweSeal
  repeat' (first | with_reducible rfl | with_reducible refine State.ite_fixed ?_ ?_ | with_reducible refine Keeps.next ?_ | with_reducible refine Keeps.ite ?_ ?_ | simp only [State.mk_fixed, State.fold_fixed, apply_ite Prod.snd, ite_self, State.kweCmd_fixed] | split | with_reducible refine (State.foldl_fixed _ (fun _ _ => ?_) _ _).trans ?_)

theorem execKweUnseal_fixed (c : CoreId) (slot kek : BitVec 12) (s : State) :
    Keeps (execKweUnseal c slot kek s) s := by
  unfold execKweUnseal
  repeat' (first | with_reducible rfl | with_reducible refine State.ite_fixed ?_ ?_ | with_reducible refine Keeps.next ?_ | with_reducible refine Keeps.ite ?_ ?_ | simp only [State.mk_fixed, State.fold_fixed, apply_ite Prod.snd, ite_self, State.kweCmd_fixed] | split | with_reducible refine (State.foldl_fixed _ (fun _ _ => ?_) _ _).trans ?_)

@[simp] theorem State.kweGen_fixed (s : State) (o : KweOp) :
    (State.kweGen s o).fixed = s.fixed := by
  unfold State.kweGen
  repeat' (first | with_reducible rfl | with_reducible refine State.ite_fixed ?_ ?_ | simp only [State.mk_fixed, State.fold_fixed, apply_ite Prod.snd, ite_self, State.genKey_fixed, State.kweEnd_fixed, State.sc_fixed, State.setWord_fixed] | split | with_reducible refine (State.foldl_fixed _ (fun _ _ => ?_) _ _).trans ?_)

@[simp] theorem State.kweUnwrap_fixed (s : State) (o : KweOp) :
    (State.kweUnwrap s o).fixed = s.fixed := by
  unfold State.kweUnwrap
  repeat' (first | with_reducible rfl | with_reducible refine State.ite_fixed ?_ ?_ | simp only [State.mk_fixed, State.fold_fixed, apply_ite Prod.snd, ite_self, State.drop_fixed, State.kweEnd_fixed, State.loadSlot_fixed, State.rotateDue_fixed, State.useCounter_fixed] | with_reducible refine (State.useCounter_fixed_of (by assumption)).trans ?_ | split | with_reducible refine (State.foldl_fixed _ (fun _ _ => ?_) _ _).trans ?_)

@[simp] theorem State.nskWrite_fixed (s : State) (n v : Nat) :
    (State.nskWrite s n v).fixed = s.fixed := by
  unfold State.nskWrite
  repeat' (first | with_reducible rfl | with_reducible refine State.ite_fixed ?_ ?_ | simp only [State.mk_fixed, State.fold_fixed, apply_ite Prod.snd, ite_self, State.post_fixed, State.setWord_fixed] | split | with_reducible refine (State.foldl_fixed _ (fun _ _ => ?_) _ _).trans ?_)

theorem execXtsNskWrite_fixed (n : Fin 1024) (v : W64) (s : State) :
    Keeps (execXtsNskWrite n v s) s := by
  unfold execXtsNskWrite
  repeat' (first | with_reducible rfl | with_reducible refine State.ite_fixed ?_ ?_ | with_reducible refine Keeps.next ?_ | with_reducible refine Keeps.ite ?_ ?_ | simp only [State.mk_fixed, State.fold_fixed, apply_ite Prod.snd, ite_self, State.nskWrite_fixed] | split | with_reducible refine (State.foldl_fixed _ (fun _ _ => ?_) _ _).trans ?_)

theorem execEntropyTestFail_fixed (adaptive : Bool) (samples : W32) (s : State) :
    Keeps (execEntropyTestFail adaptive samples s) s := by
  unfold execEntropyTestFail
  repeat' (first | with_reducible rfl | with_reducible refine State.ite_fixed ?_ ?_ | with_reducible refine Keeps.next ?_ | with_reducible refine Keeps.ite ?_ ?_ | simp only [State.mk_fixed, State.fold_fixed, apply_ite Prod.snd, ite_self, State.secPost_fixed, State.setFld_fixed] | split | with_reducible refine (State.foldl_fixed _ (fun _ _ => ?_) _ _).trans ?_)

@[simp] theorem State.replaceKeys_fixed (s : State) (n : Nat) :
    (State.replaceKeys s n).fixed = s.fixed := by
  unfold State.replaceKeys
  repeat' (first | with_reducible rfl | with_reducible refine State.ite_fixed ?_ ?_ | simp only [State.mk_fixed, State.fold_fixed, apply_ite Prod.snd, ite_self, State.genKey_fixed, State.setCur_fixed, State.setWord_fixed, State.wrapRecord_fixed, State.zn_fixed] | split | with_reducible refine (State.foldl_fixed _ (fun _ _ => ?_) _ _).trans ?_)

@[simp] theorem State.destroyKeys_fixed (s : State) (n : Nat) :
    (State.destroyKeys s n).fixed = s.fixed := by
  unfold State.destroyKeys
  repeat' (first | with_reducible rfl | with_reducible refine State.ite_fixed ?_ ?_ | simp only [State.mk_fixed, State.fold_fixed, apply_ite Prod.snd, ite_self, State.eraseRecord_fixed, State.sc_fixed, State.setFld_fixed, State.setWord_fixed, State.zeroSlot_fixed] | split | with_reducible refine (State.foldl_fixed _ (fun _ _ => ?_) _ _).trans ?_)

@[simp] theorem State.eraseData_fixed (s : State) (n : Nat) :
    (State.eraseData s n).fixed = s.fixed := by
  unfold State.eraseData
  repeat' (first | with_reducible rfl | with_reducible refine State.ite_fixed ?_ ?_ | simp only [State.mk_fixed, State.fold_fixed, apply_ite Prod.snd, ite_self, State.resetZone_fixed, State.segCheck_fixed, State.setEntry_fixed] | split | with_reducible refine (State.foldl_fixed _ (fun _ _ => ?_) _ _).trans ?_)

@[simp] theorem State.dropSlc_fixed (s : State) (b : Nat) (x : SlcBody) :
    (State.dropSlc s b x).fixed = s.fixed := by
  unfold State.dropSlc
  repeat' (first | with_reducible rfl | with_reducible refine State.ite_fixed ?_ ?_ | simp only [State.mk_fixed, State.fold_fixed, apply_ite Prod.snd, ite_self, State.dropStripe_fixed, State.releaseAll_fixed, State.zn_fixed] | split | with_reducible refine (State.foldl_fixed _ (fun _ _ => ?_) _ _).trans ?_)

@[simp] theorem State.eraseBlocksAll_fixed (s : State) :
    (State.eraseBlocksAll s).fixed = s.fixed := by
  unfold State.eraseBlocksAll
  repeat' (first | with_reducible rfl | with_reducible refine State.ite_fixed ?_ ?_ | simp only [State.mk_fixed, State.fold_fixed, apply_ite Prod.snd, ite_self, State.beginErase_fixed, State.dropSlc_fixed, State.hk_fixed, State.reapStage_fixed, State.segCheck_fixed] | split | with_reducible refine (State.foldl_fixed _ (fun _ _ => ?_) _ _).trans ?_)

@[simp] theorem State.cryptoErase_fixed (s : State) (e : EraseScope) (restart : Nat) :
    (State.cryptoErase s e restart).fixed = s.fixed := by
  unfold State.cryptoErase
  repeat' (first | with_reducible rfl | with_reducible refine State.ite_fixed ?_ ?_ | simp only [State.mk_fixed, State.fold_fixed, apply_ite Prod.snd, ite_self, State.cfgWrite_fixed, State.destroyKeys_fixed, State.eraseBlocksAll_fixed, State.eraseData_fixed, State.replaceKeys_fixed, State.rotateKek_fixed, State.secPost_fixed] | split | with_reducible refine (State.foldl_fixed _ (fun _ _ => ?_) _ _).trans ?_)

@[simp] theorem State.cryptoDone_fixed (s : State) (e : CryptoErase) :
    (State.cryptoDone s e).fixed = s.fixed := by
  unfold State.cryptoDone
  repeat' (first | with_reducible rfl | with_reducible refine State.ite_fixed ?_ ?_ | simp only [State.mk_fixed, State.fold_fixed, apply_ite Prod.snd, ite_self, State.hf_fixed, State.postCpl_fixed, State.sc_fixed] | split | with_reducible refine (State.foldl_fixed _ (fun _ _ => ?_) _ _).trans ?_)

@[simp] theorem State.setMeta_fixed (s : State) (e : CryptoErase) :
    (State.setMeta s e).fixed = s.fixed := by
  unfold State.setMeta
  repeat' (first | with_reducible rfl | with_reducible refine State.ite_fixed ?_ ?_ | simp only [State.mk_fixed, State.fold_fixed, apply_ite Prod.snd, ite_self, State.hf_fixed] | split | with_reducible refine (State.foldl_fixed _ (fun _ _ => ?_) _ _).trans ?_)

@[simp] theorem State.eraseStep_fixed (s : State) (e : CryptoErase) :
    (State.eraseStep s e).fixed = s.fixed := by
  unfold State.eraseStep
  repeat' (first | with_reducible rfl | with_reducible refine State.ite_fixed ?_ ?_ | simp only [State.mk_fixed, State.fold_fixed, apply_ite Prod.snd, ite_self, State.cryptoDone_fixed, State.cryptoErase_fixed, State.sc_fixed, State.setMeta_fixed] | split | with_reducible refine (State.foldl_fixed _ (fun _ _ => ?_) _ _).trans ?_)

@[simp] theorem State.askErase_fixed (s : State) (e : CryptoErase) :
    (State.askErase s e).fixed = s.fixed := by
  unfold State.askErase
  repeat' (first | with_reducible rfl | with_reducible refine State.ite_fixed ?_ ?_ | simp only [State.mk_fixed, State.fold_fixed, apply_ite Prod.snd, ite_self, State.eraseStep_fixed, State.sc_fixed] | split | with_reducible refine (State.foldl_fixed _ (fun _ _ => ?_) _ _).trans ?_)

@[simp] theorem State.formatNvm_fixed (s : State) (fn : Nat) (e : Sqe) :
    (State.formatNvm s fn e).fixed = s.fixed := by
  unfold State.formatNvm
  repeat' (first | with_reducible rfl | with_reducible refine State.ite_fixed ?_ ?_ | simp only [State.mk_fixed, State.fold_fixed, apply_ite Prod.snd, ite_self, State.adminDone_fixed, State.askErase_fixed, State.askNode_fixed, State.toMembers_fixed] | split | with_reducible refine (State.foldl_fixed _ (fun _ _ => ?_) _ _).trans ?_)

theorem execFormatNvm_fixed (fn : FnId) (e : Sqe) (s : State) :
    Keeps (execFormatNvm fn e s) s := by
  unfold execFormatNvm
  repeat' (first | with_reducible rfl | with_reducible refine State.ite_fixed ?_ ?_ | with_reducible refine Keeps.next ?_ | with_reducible refine Keeps.ite ?_ ?_ | simp only [State.mk_fixed, State.fold_fixed, apply_ite Prod.snd, ite_self, State.formatNvm_fixed] | with_reducible refine State.admin_fixed (fun _ => ?_) | split | with_reducible refine (State.foldl_fixed _ (fun _ _ => ?_) _ _).trans ?_)

@[simp] theorem State.sanitize_fixed (s : State) (fn : Nat) (e : Sqe) :
    (State.sanitize s fn e).fixed = s.fixed := by
  unfold State.sanitize
  repeat' (first | with_reducible rfl | with_reducible refine State.ite_fixed ?_ ?_ | simp only [State.mk_fixed, State.fold_fixed, apply_ite Prod.snd, ite_self, State.adminDone_fixed, State.askErase_fixed, State.toMembers_fixed] | split | with_reducible refine (State.foldl_fixed _ (fun _ _ => ?_) _ _).trans ?_)

theorem execSanitize_fixed (fn : FnId) (e : Sqe) (s : State) :
    Keeps (execSanitize fn e s) s := by
  unfold execSanitize
  repeat' (first | with_reducible rfl | with_reducible refine State.ite_fixed ?_ ?_ | with_reducible refine Keeps.next ?_ | with_reducible refine Keeps.ite ?_ ?_ | simp only [State.mk_fixed, State.fold_fixed, apply_ite Prod.snd, ite_self, State.sanitize_fixed] | with_reducible refine State.admin_fixed (fun _ => ?_) | split | with_reducible refine (State.foldl_fixed _ (fun _ _ => ?_) _ _).trans ?_)

end Sys2Proof.Machine
end

