-- ==== Sys2Proof/Laws/FixMramStore.lean ====
section
/-! SUPPORT. Operations of Machine/MramStore.lean that keep the queue, memory, the straps and the OTP. -/

namespace Sys2Proof.Machine

set_option linter.all false

@[simp] theorem State.mr_fixed (s : State) (f : Mram → Mram) :
    (State.mr s f).fixed = s.fixed := by
  unfold State.mr
  repeat' (first | with_reducible rfl | with_reducible refine State.ite_fixed ?_ ?_ | simp only [State.mk_fixed, State.fold_fixed, apply_ite Prod.snd, ite_self] | split | with_reducible refine (State.foldl_fixed _ (fun _ _ => ?_) _ _).trans ?_)

@[simp] theorem State.noHuskFlush_fixed (s : State) :
    (State.noHuskFlush s).fixed = s.fixed := by
  unfold State.noHuskFlush
  repeat' (first | with_reducible rfl | with_reducible refine State.ite_fixed ?_ ?_ | simp only [State.mk_fixed, State.fold_fixed, apply_ite Prod.snd, ite_self, State.dropStripe_fixed, State.hk_fixed, State.stageAll_fixed, State.stageConv_fixed] | split | with_reducible refine (State.foldl_fixed _ (fun _ _ => ?_) _ _).trans ?_)

@[simp] theorem State.bankFail_fixed (s : State) (b cause : Nat) :
    (State.bankFail s b cause).fixed = s.fixed := by
  unfold State.bankFail
  repeat' (first | with_reducible rfl | with_reducible refine State.ite_fixed ?_ ?_ | simp only [State.mk_fixed, State.fold_fixed, apply_ite Prod.snd, ite_self, State.cfgWrite_fixed, State.hk_fixed, State.loseLedger_fixed, State.mrmPost_fixed, State.noHuskFlush_fixed, State.setFld_fixed, State.zn_fixed, State.znePost_fixed] | split | with_reducible refine (State.foldl_fixed _ (fun _ _ => ?_) _ _).trans ?_)

@[simp] theorem State.remapWord_fixed (s : State) (b phys : Nat) :
    (State.remapWord s b phys).fixed = s.fixed := by
  unfold State.remapWord
  repeat' (first | with_reducible rfl | with_reducible refine State.ite_fixed ?_ ?_ | simp only [State.mk_fixed, State.fold_fixed, apply_ite Prod.snd, ite_self, State.bankFail_fixed, State.bump_fixed, State.mr_fixed, State.mrmPost_fixed, State.setFld_fixed] | split | with_reducible refine (State.foldl_fixed _ (fun _ _ => ?_) _ _).trans ?_)

@[simp] theorem State.mramUe_fixed (s : State) (b region word : Nat) :
    (State.mramUe s b region word).fixed = s.fixed := by
  unfold State.mramUe
  repeat' (first | with_reducible rfl | with_reducible refine State.ite_fixed ?_ ?_ | simp only [State.mk_fixed, State.fold_fixed, apply_ite Prod.snd, ite_self, State.bankFail_fixed, State.bump_fixed, State.mr_fixed, State.mrmPost_fixed] | split | with_reducible refine (State.foldl_fixed _ (fun _ _ => ?_) _ _).trans ?_)

end Sys2Proof.Machine
end

