-- ==== Sys2Proof/Laws/FixLadder.lean ====
section
/-! SUPPORT. Operations of Machine/Ladder.lean that keep the queue, memory, the straps and the OTP. -/

namespace Sys2Proof.Machine

set_option linter.all false

@[simp] theorem State.countLadder_fixed (s : State) (o : DieOp) (k : Nat) :
    (State.countLadder s o k).fixed = s.fixed := by
  unfold State.countLadder
  repeat' (first | with_reducible rfl | with_reducible refine State.ite_fixed ?_ ?_ | simp only [State.mk_fixed, State.fold_fixed, apply_ite Prod.snd, ite_self, State.bump_fixed] | split | with_reducible refine (State.foldl_fixed _ (fun _ _ => ?_) _ _).trans ?_)

@[simp] theorem State.genOf_fixed (s : State) (n lba : Nat) :
    (State.genOf s n lba).2.fixed = s.fixed := by
  unfold State.genOf
  repeat' (first | with_reducible rfl | with_reducible refine State.ite_fixed ?_ ?_ | simp only [State.mk_fixed, State.fold_fixed, apply_ite Prod.snd, ite_self, State.drawBool_fixed] | with_reducible refine (State.drawBool_fixed_of (by assumption)).trans ?_ | split | with_reducible refine (State.foldl_fixed _ (fun _ _ => ?_) _ _).trans ?_)

theorem State.genOf_fixed_of {s : State} {n lba : Nat} {x0} {t : State} (h : State.genOf s n lba = (x0, t)) : t.fixed = s.fixed := by
  have := State.genOf_fixed s n lba
  rw [h] at this
  exact this

@[simp] theorem State.serveHost_fixed (s : State) (i key : Nat) (gen : Option Nat) (d : Blk) (h : Hmd) :
    (State.serveHost s i key gen d h).fixed = s.fixed := by
  unfold State.serveHost
  repeat' (first | with_reducible rfl | with_reducible refine State.ite_fixed ?_ ?_ | simp only [State.mk_fixed, State.fold_fixed, apply_ite Prod.snd, ite_self, State.genOf_fixed, State.openBlock_fixed, State.settle_fixed] | with_reducible refine (State.genOf_fixed_of (by assumption)).trans ?_ | split | with_reducible refine (State.foldl_fixed _ (fun _ _ => ?_) _ _).trans ?_)

@[simp] theorem State.withdrawTarget_fixed (s : State) (i key : Nat) :
    (State.withdrawTarget s i key).fixed = s.fixed := by
  unfold State.withdrawTarget
  repeat' (first | with_reducible rfl | with_reducible refine State.ite_fixed ?_ ?_ | simp only [State.mk_fixed, State.fold_fixed, apply_ite Prod.snd, ite_self, State.withdrawOps_fixed, State.zn_fixed] | split | with_reducible refine (State.foldl_fixed _ (fun _ _ => ?_) _ _).trans ?_)

@[simp] theorem State.sweepFrom_fixed (s : State) (n lba : Nat) :
    (State.sweepFrom s n lba).fixed = s.fixed := by
  unfold State.sweepFrom
  repeat' (first | with_reducible rfl | with_reducible refine State.ite_fixed ?_ ?_ | simp only [State.mk_fixed, State.fold_fixed, apply_ite Prod.snd, ite_self, State.retireOld_fixed, State.sc_fixed, State.setFld_fixed] | split | with_reducible refine (State.foldl_fixed _ (fun _ _ => ?_) _ _).trans ?_)

@[simp] theorem State.sweepRead_fixed (s : State) (n lba : Nat) :
    (State.sweepRead s n lba).fixed = s.fixed := by
  unfold State.sweepRead
  repeat' (first | with_reducible rfl | with_reducible refine State.ite_fixed ?_ ?_ | simp only [State.mk_fixed, State.fold_fixed, apply_ite Prod.snd, ite_self, State.issueReads_fixed, State.sweepFrom_fixed] | split | with_reducible refine (State.foldl_fixed _ (fun _ _ => ?_) _ _).trans ?_)

@[simp] theorem State.sweepLand_fixed (s : State) (n lba gen : Nat) (d : Blk) (h : Hmd) :
    (State.sweepLand s n lba gen d h).fixed = s.fixed := by
  unfold State.sweepLand
  repeat' (first | with_reducible rfl | with_reducible refine State.ite_fixed ?_ ?_ | simp only [State.mk_fixed, State.fold_fixed, apply_ite Prod.snd, ite_self, State.convCw_fixed, State.decryptBlk_fixed, State.encryptBlk_fixed, State.modBuf_fixed, State.reserveBuf_fixed, State.setEntry_fixed, State.sweepFrom_fixed] | with_reducible refine (State.convCw_fixed_of (by assumption)).trans ?_ | with_reducible refine (State.decryptBlk_fixed_of (by assumption)).trans ?_ | with_reducible refine (State.encryptBlk_fixed_of (by assumption)).trans ?_ | with_reducible refine (State.reserveBuf_fixed_of (by assumption)).trans ?_ | split | with_reducible refine (State.foldl_fixed _ (fun _ _ => ?_) _ _).trans ?_)

@[simp] theorem State.moveOne_fixed (s : State) (j at_ : Nat) (x : Moved) :
    (State.moveOne s j at_ x).fixed = s.fixed := by
  unfold State.moveOne
  repeat' (first | with_reducible rfl | with_reducible refine State.ite_fixed ?_ ?_ | simp only [State.mk_fixed, State.fold_fixed, apply_ite Prod.snd, ite_self, State.modReloc_fixed, State.relocNext_fixed] | split | with_reducible refine (State.foldl_fixed _ (fun _ _ => ?_) _ _).trans ?_)

@[simp] theorem State.jobOne_fixed (s : State) (j cw : Nat) (y : Moved) :
    (State.jobOne s j cw y).fixed = s.fixed := by
  unfold State.jobOne
  repeat' (first | with_reducible rfl | with_reducible refine State.ite_fixed ?_ ?_ | simp only [State.mk_fixed, State.fold_fixed, apply_ite Prod.snd, ite_self, State.jobProgram_fixed, State.modJob_fixed] | split | with_reducible refine (State.foldl_fixed _ (fun _ _ => ?_) _ _).trans ?_)

@[simp] theorem State.jobHelperIn_fixed (s : State) (j m cw : Nat) (erased : Bool) (y : Moved) :
    (State.jobHelperIn s j m cw erased y).fixed = s.fixed := by
  unfold State.jobHelperIn
  repeat' (first | with_reducible rfl | with_reducible refine State.ite_fixed ?_ ?_ | simp only [State.mk_fixed, State.fold_fixed, apply_ite Prod.snd, ite_self, State.jobEvaluate_fixed, State.modJob_fixed] | split | with_reducible refine (State.foldl_fixed _ (fun _ _ => ?_) _ _).trans ?_)

@[simp] theorem State.verifyRead_fixed (s : State) (blk slice : Nat) (slc : Bool) (p : Purpose) (ten : Nat) :
    (State.verifyRead s blk slice slc p ten).fixed = s.fixed := by
  unfold State.verifyRead
  repeat' (first | with_reducible rfl | with_reducible refine State.ite_fixed ?_ ?_ | simp only [State.mk_fixed, State.fold_fixed, apply_ite Prod.snd, ite_self, State.enqueue_fixed] | split | with_reducible refine (State.foldl_fixed _ (fun _ _ => ?_) _ _).trans ?_)

@[simp] theorem State.closingDone_fixed (s : State) (zmi : Nat) :
    (State.closingDone s zmi).fixed = s.fixed := by
  unfold State.closingDone
  repeat' (first | with_reducible rfl | with_reducible refine State.ite_fixed ?_ ?_ | simp only [State.mk_fixed, State.fold_fixed, apply_ite Prod.snd, ite_self, State.hk_fixed] | split | with_reducible refine (State.foldl_fixed _ (fun _ _ => ?_) _ _).trans ?_)

@[simp] theorem State.closeBody_fixed (s : State) (zmi idx : Nat) (verified : Bool) :
    (State.closeBody s zmi idx verified).fixed = s.fixed := by
  unfold State.closeBody
  repeat' (first | with_reducible rfl | with_reducible refine State.ite_fixed ?_ ?_ | simp only [State.mk_fixed, State.fold_fixed, apply_ite Prod.snd, ite_self, State.closingDone_fixed, State.dropRuns_fixed, State.linkRuns_fixed, State.modZone_fixed, State.releaseBufs_fixed] | split | with_reducible refine (State.foldl_fixed _ (fun _ _ => ?_) _ _).trans ?_)

@[simp] theorem State.closeStage_fixed (s : State) (b idx : Nat) (pack : List PackCw) :
    (State.closeStage s b idx pack).fixed = s.fixed := by
  unfold State.closeStage
  repeat' (first | with_reducible rfl | with_reducible refine State.ite_fixed ?_ ?_ | simp only [State.mk_fixed, State.fold_fixed, apply_ite Prod.snd, ite_self, State.linkRuns_fixed, State.modZone_fixed, State.publishEntry_fixed, State.reapStage_fixed, State.releaseBufs_fixed, State.thruDone_fixed, State.zn_fixed] | split | with_reducible refine (State.foldl_fixed _ (fun _ _ => ?_) _ _).trans ?_)

@[simp] theorem State.closeConv_fixed (s : State) (b idx : Nat) (pack : List PackCw) :
    (State.closeConv s b idx pack).fixed = s.fixed := by
  unfold State.closeConv
  repeat' (first | with_reducible rfl | with_reducible refine State.ite_fixed ?_ ?_ | simp only [State.mk_fixed, State.fold_fixed, apply_ite Prod.snd, ite_self, State.bump_fixed, State.publishConv_fixed, State.reapSeg_fixed, State.releaseBufs_fixed, State.segCheck_fixed, State.segFull_fixed] | split | with_reducible refine (State.foldl_fixed _ (fun _ _ => ?_) _ _).trans ?_)

@[simp] theorem State.markCursors_fixed (s : State) (t : Stripe) :
    (State.markCursors s t).fixed = s.fixed := by
  unfold State.markCursors
  repeat' (first | with_reducible rfl | with_reducible refine State.ite_fixed ?_ ?_ | simp only [State.mk_fixed, State.fold_fixed, apply_ite Prod.snd, ite_self, State.modBlk_fixed] | split | with_reducible refine (State.foldl_fixed _ (fun _ _ => ?_) _ _).trans ?_)

@[simp] theorem State.publishStripe_fixed (s : State) (k : Nat) (t : Stripe) :
    (State.publishStripe s k t).fixed = s.fixed := by
  unfold State.publishStripe
  repeat' (first | with_reducible rfl | with_reducible refine State.ite_fixed ?_ ?_ | simp only [State.mk_fixed, State.fold_fixed, apply_ite Prod.snd, ite_self, State.closeBody_fixed, State.closeConv_fixed, State.closeStage_fixed, State.markCursors_fixed, State.pagesLanded_fixed, State.relocNext_fixed, State.zn_fixed] | split | with_reducible refine (State.foldl_fixed _ (fun _ _ => ?_) _ _).trans ?_)

@[simp] theorem State.closeWaiting_fixed (s : State) (zmi : Nat) (rx : Nat) :
    (State.closeWaiting s zmi rx).fixed = s.fixed := by
  induction rx generalizing s with
  | zero =>
    simp only [State.closeWaiting]
    repeat' (first | with_reducible rfl | with_reducible refine State.ite_fixed ?_ ?_ | simp only [State.mk_fixed, State.fold_fixed, apply_ite Prod.snd, ite_self, State.modZone_fixed, State.publishStripe_fixed] | split | with_reducible refine (State.foldl_fixed _ (fun _ _ => ?_) _ _).trans ?_)
  | succ _ ih =>
    simp only [State.closeWaiting]
    repeat' (first | with_reducible rfl | with_reducible refine State.ite_fixed ?_ ?_ | simp only [State.mk_fixed, State.fold_fixed, apply_ite Prod.snd, ite_self, State.modZone_fixed, State.publishStripe_fixed, ih] | split | with_reducible refine (State.foldl_fixed _ (fun _ _ => ?_) _ _).trans ?_)

@[simp] theorem State.closeStripe_fixed (s : State) (k : Nat) (t : Stripe) :
    (State.closeStripe s k t).fixed = s.fixed := by
  unfold State.closeStripe
  repeat' (first | with_reducible rfl | with_reducible refine State.ite_fixed ?_ ?_ | simp only [State.mk_fixed, State.fold_fixed, apply_ite Prod.snd, ite_self, State.closeWaiting_fixed, State.closingDone_fixed, State.freeShelf_fixed, State.huskWrite_fixed, State.markCursors_fixed, State.modStripe_fixed, State.publishStripe_fixed, State.retryCommits_fixed, State.retryCopies_fixed, State.thruDone_fixed, State.wakeConv_fixed, State.wakeJobs_fixed, State.zn_fixed] | split | with_reducible refine (State.foldl_fixed _ (fun _ _ => ?_) _ _).trans ?_)

@[simp] theorem State.memberPassed_fixed (s : State) (k m : Nat) :
    (State.memberPassed s k m).fixed = s.fixed := by
  unfold State.memberPassed
  repeat' (first | with_reducible rfl | with_reducible refine State.ite_fixed ?_ ?_ | simp only [State.mk_fixed, State.fold_fixed, apply_ite Prod.snd, ite_self, State.checkClose_fixed, State.closeStripe_fixed, State.setMember_fixed] | split | with_reducible refine (State.foldl_fixed _ (fun _ _ => ?_) _ _).trans ?_)

@[simp] theorem State.memberFailed_fixed (s : State) (k m : Nat) (grown : Bool) :
    (State.memberFailed s k m grown).fixed = s.fixed := by
  unfold State.memberFailed
  repeat' (first | with_reducible rfl | with_reducible refine State.ite_fixed ?_ ?_ | simp only [State.mk_fixed, State.fold_fixed, apply_ite Prod.snd, ite_self, State.dropStripe_fixed, State.growDefect_fixed, State.markCursors_fixed, State.setMember_fixed, State.startSubst_fixed] | split | with_reducible refine (State.foldl_fixed _ (fun _ _ => ?_) _ _).trans ?_)

@[simp] theorem State.dropReads_fixed (s : State) (p : Purpose) :
    (State.dropReads s p).fixed = s.fixed := by
  unfold State.dropReads
  repeat' (first | with_reducible rfl | with_reducible refine State.ite_fixed ?_ ?_ | simp only [State.mk_fixed, State.fold_fixed, apply_ite Prod.snd, ite_self, State.freeStaging_fixed, State.withdrawOps_fixed, State.zn_fixed] | split | with_reducible refine (State.foldl_fixed _ (fun _ _ => ?_) _ _).trans ?_)

@[simp] theorem State.landMove_fixed (s : State) (f : ReconFor) (lost : Nat) (gen : Option Nat) (d : Blk) (h : Hmd) :
    (State.landMove s f lost gen d h).fixed = s.fixed := by
  unfold State.landMove
  repeat' (first | with_reducible rfl | with_reducible refine State.ite_fixed ?_ ?_ | simp only [State.mk_fixed, State.fold_fixed, apply_ite Prod.snd, ite_self, State.collect_fixed, State.collectLand_fixed, State.foldLand_fixed, State.genOf_fixed, State.jobOne_fixed, State.modSlot_fixed, State.moveOne_fixed, State.serve_fixed, State.serveHost_fixed, State.setEntry_fixed, State.sweepFrom_fixed, State.sweepLand_fixed] | with_reducible refine (State.genOf_fixed_of (by assumption)).trans ?_ | split | with_reducible refine (State.foldl_fixed _ (fun _ _ => ?_) _ _).trans ?_)

@[simp] theorem State.countStep4_fixed (s : State) (r : Recon) (k : Nat) :
    (State.countStep4 s r k).fixed = s.fixed := by
  unfold State.countStep4
  repeat' (first | with_reducible rfl | with_reducible refine State.ite_fixed ?_ ?_ | simp only [State.mk_fixed, State.fold_fixed, apply_ite Prod.snd, ite_self, State.bump_fixed] | split | with_reducible refine (State.foldl_fixed _ (fun _ _ => ?_) _ _).trans ?_)

@[simp] theorem State.failRecon_fixed (s : State) (k : Nat) (r : Recon) :
    (State.failRecon s k r).fixed = s.fixed := by
  unfold State.failRecon
  repeat' (first | with_reducible rfl | with_reducible refine State.ite_fixed ?_ ?_ | simp only [State.mk_fixed, State.fold_fixed, apply_ite Prod.snd, ite_self, State.bump_fixed, State.countStep4_fixed, State.endRecon_fixed, State.enqueue_fixed, State.landMove_fixed, State.rowLost_fixed, State.startRecon_fixed, State.znePost_fixed] | split | with_reducible refine (State.foldl_fixed _ (fun _ _ => ?_) _ _).trans ?_)

@[simp] theorem State.sweepFailed_fixed (s : State) :
    (State.sweepFailed s).fixed = s.fixed := by
  unfold State.sweepFailed
  repeat' (first | with_reducible rfl | with_reducible refine State.ite_fixed ?_ ?_ | simp only [State.mk_fixed, State.fold_fixed, apply_ite Prod.snd, ite_self, State.failRecon_fixed] | split | with_reducible refine (State.foldl_fixed _ (fun _ _ => ?_) _ _).trans ?_)

@[simp] theorem State.markServed_fixed (s : State) (r : Recon) :
    (State.markServed s r).fixed = s.fixed := by
  unfold State.markServed
  repeat' (first | with_reducible rfl | with_reducible refine State.ite_fixed ?_ ?_ | simp only [State.mk_fixed, State.fold_fixed, apply_ite Prod.snd, ite_self, State.zn_fixed] | split | with_reducible refine (State.foldl_fixed _ (fun _ _ => ?_) _ _).trans ?_)

@[simp] theorem State.finishRecon_fixed (s : State) (k : Nat) (r : Recon) :
    (State.finishRecon s k r).fixed = s.fixed := by
  unfold State.finishRecon
  repeat' (first | with_reducible rfl | with_reducible refine State.ite_fixed ?_ ?_ | simp only [State.mk_fixed, State.fold_fixed, apply_ite Prod.snd, ite_self, State.bump_fixed, State.countStep4_fixed, State.endRecon_fixed, State.landMove_fixed, State.markServed_fixed, State.queueRefresh_fixed, State.withdrawTarget_fixed] | split | with_reducible refine (State.foldl_fixed _ (fun _ _ => ?_) _ _).trans ?_)

@[simp] theorem State.fnsReady_fixed (s : State) :
    (State.fnsReady s).fixed = s.fixed := by
  unfold State.fnsReady
  repeat' (first | with_reducible rfl | with_reducible refine State.ite_fixed ?_ ?_ | simp only [State.mk_fixed, State.fold_fixed, apply_ite Prod.snd, ite_self, State.hf_fixed] | split | with_reducible refine (State.foldl_fixed _ (fun _ _ => ?_) _ _).trans ?_)

@[simp] theorem State.scrubSeen_fixed (s : State) (b : Nat) (again : Bool) (level : Nat) :
    (State.scrubSeen s b again level).fixed = s.fixed := by
  unfold State.scrubSeen
  repeat' (first | with_reducible rfl | with_reducible refine State.ite_fixed ?_ ?_ | simp only [State.mk_fixed, State.fold_fixed, apply_ite Prod.snd, ite_self, State.queueRefresh_fixed, State.scrubRead_fixed, State.zn_fixed] | split | with_reducible refine (State.foldl_fixed _ (fun _ _ => ?_) _ _).trans ?_)

@[simp] theorem State.eraseCw_fixed (s : State) (o : DieOp) (c : Nat × Nat) (hard racing : Bool) :
    (State.eraseCw s o c hard racing).fixed = s.fixed := by
  unfold State.eraseCw
  repeat' (first | with_reducible rfl | with_reducible refine State.ite_fixed ?_ ?_ | simp only [State.mk_fixed, State.fold_fixed, apply_ite Prod.snd, ite_self, State.advanceRecon_fixed, State.dropReads_fixed, State.enqueue_fixed, State.eraseMember_fixed, State.jobHelperIn_fixed, State.jobRestart_fixed, State.memberFailed_fixed, State.modRecon_fixed, State.scrubSeen_fixed, State.startRecon_fixed, State.sweepFailed_fixed] | split | with_reducible refine (State.foldl_fixed _ (fun _ _ => ?_) _ _).trans ?_)

@[simp] theorem State.ladderFailed_fixed (s : State) (o : DieOp) (c : Nat × Nat) :
    (State.ladderFailed s o c).fixed = s.fixed := by
  unfold State.ladderFailed
  repeat' (first | with_reducible rfl | with_reducible refine State.ite_fixed ?_ ?_ | simp only [State.mk_fixed, State.fold_fixed, apply_ite Prod.snd, ite_self, State.eraseCw_fixed, State.modBlk_fixed, State.queueRefresh_fixed] | split | with_reducible refine (State.foldl_fixed _ (fun _ _ => ?_) _ _).trans ?_)

@[simp] theorem State.climb_fixed (s : State) (o : DieOp) (c : Nat × Nat) :
    (State.climb s o c).fixed = s.fixed := by
  unfold State.climb
  repeat' (first | with_reducible rfl | with_reducible refine State.ite_fixed ?_ ?_ | simp only [State.mk_fixed, State.fold_fixed, apply_ite Prod.snd, ite_self, State.enqueue_fixed, State.eraseCw_fixed, State.ladderFailed_fixed] | split | with_reducible refine (State.foldl_fixed _ (fun _ _ => ?_) _ _).trans ?_)

@[simp] theorem State.deliver_fixed (s : State) (o : DieOp) (c : Nat × Nat) (gen bits : Nat) (d : Blk) (h : Hmd) :
    (State.deliver s o c gen bits d h).fixed = s.fixed := by
  unfold State.deliver
  repeat' (first | with_reducible rfl | with_reducible refine State.ite_fixed ?_ ?_ | simp only [State.mk_fixed, State.fold_fixed, apply_ite Prod.snd, ite_self, State.collect_fixed, State.collectLand_fixed, State.dropReads_fixed, State.endRecon_fixed, State.foldLand_fixed, State.jobHelperIn_fixed, State.jobOne_fixed, State.jobRestart_fixed, State.jobSliceDone_fixed, State.memberFailed_fixed, State.memberPassed_fixed, State.modRecon_fixed, State.moveOne_fixed, State.scrubSeen_fixed, State.serveHost_fixed, State.sweepLand_fixed] | split | with_reducible refine (State.foldl_fixed _ (fun _ _ => ?_) _ _).trans ?_)

@[simp] theorem State.discard_fixed (s : State) (o : DieOp) (c : Nat × Nat) :
    (State.discard s o c).fixed = s.fixed := by
  unfold State.discard
  repeat' (first | with_reducible rfl | with_reducible refine State.ite_fixed ?_ ?_ | simp only [State.mk_fixed, State.fold_fixed, apply_ite Prod.snd, ite_self, State.bump_fixed] | split | with_reducible refine (State.foldl_fixed _ (fun _ _ => ?_) _ _).trans ?_)

theorem execLdcDecodeDone_fixed (u : Nat) (out : LdcOut) (s : State) :
    Keeps (execLdcDecodeDone u out s) s := by
  unfold execLdcDecodeDone
  repeat' (first | with_reducible rfl | with_reducible refine State.ite_fixed ?_ ?_ | with_reducible refine Keeps.next ?_ | with_reducible refine Keeps.ite ?_ ?_ | simp only [State.mk_fixed, State.fold_fixed, apply_ite Prod.snd, ite_self, State.climb_fixed, State.countLadder_fixed, State.deliver_fixed, State.discard_fixed, State.endRecon_fixed, State.enqueue_fixed, State.eraseCw_fixed, State.freeCw_fixed, State.jobSliceDone_fixed, State.ladderFailed_fixed, State.landMove_fixed, State.memberPassed_fixed, State.queueRefresh_fixed, State.setRdofs_fixed, State.zn_fixed, State.znePost_fixed] | split | with_reducible refine (State.foldl_fixed _ (fun _ _ => ?_) _ _).trans ?_)

theorem execReconstructionDone_fixed (k : Nat) (crcFail : Bool) (s : State) :
    Keeps (execReconstructionDone k crcFail s) s := by
  unfold execReconstructionDone
  repeat' (first | with_reducible rfl | with_reducible refine State.ite_fixed ?_ ?_ | with_reducible refine Keeps.next ?_ | with_reducible refine Keeps.ite ?_ ?_ | simp only [State.mk_fixed, State.fold_fixed, apply_ite Prod.snd, ite_self, State.ceBuffer_fixed, State.failRecon_fixed, State.finishRecon_fixed, State.modRecon_fixed, State.znePost_fixed] | split | with_reducible refine (State.foldl_fixed _ (fun _ _ => ?_) _ _).trans ?_)

end Sys2Proof.Machine
end

