-- ==== Sys2Proof/Laws/FixDone.lean ====
section
/-! SUPPORT. Operations of Machine/Done.lean that keep the queue, memory, the straps and the OTP. -/

namespace Sys2Proof.Machine

set_option linter.all false

@[simp] theorem State.eraseLost_fixed (s : State) (j : EraseJob) (cause : Nat) :
    (State.eraseLost s j cause).fixed = s.fixed := by
  unfold State.eraseLost
  repeat' (first | with_reducible rfl | with_reducible refine State.ite_fixed ?_ ?_ | simp only [State.mk_fixed, State.fold_fixed, apply_ite Prod.snd, ite_self, State.dropErase_fixed, State.growDefect_fixed, State.jobRestart_fixed, State.modBlk_fixed, State.modSlc_fixed, State.replaceDest_fixed, State.replacePending_fixed, State.setRing_fixed, State.slcMapped_fixed, State.takeEnt_fixed, State.takeMember_fixed, State.zn_fixed] | split | with_reducible refine (State.foldl_fixed _ (fun _ _ => ?_) _ _).trans ?_)

@[simp] theorem State.checkFailed_fixed (s : State) (j : EraseJob) (zeros : Nat) :
    (State.checkFailed s j zeros).fixed = s.fixed := by
  unfold State.checkFailed
  repeat' (first | with_reducible rfl | with_reducible refine State.ite_fixed ?_ ?_ | simp only [State.mk_fixed, State.fold_fixed, apply_ite Prod.snd, ite_self, State.bump_fixed, State.cfgWrite_fixed, State.eraseLost_fixed, State.issueErase_fixed, State.zn_fixed, State.znePost_fixed] | split | with_reducible refine (State.foldl_fixed _ (fun _ _ => ?_) _ _).trans ?_)

theorem execEraseLedgerClearAck_fixed (b : BitVec 25) (s : State) :
    Keeps (execEraseLedgerClearAck b s) s := by
  unfold execEraseLedgerClearAck
  repeat' (first | with_reducible rfl | with_reducible refine State.ite_fixed ?_ ?_ | with_reducible refine Keeps.next ?_ | with_reducible refine Keeps.ite ?_ ?_ | simp only [State.mk_fixed, State.fold_fixed, apply_ite Prod.snd, ite_self, State.bodyMapped_fixed, State.dropErase_fixed, State.jobNext_fixed, State.relocNext_fixed, State.setClean_fixed, State.showMedia_fixed, State.slcMapped_fixed, State.zn_fixed] | split | with_reducible refine (State.foldl_fixed _ (fun _ _ => ?_) _ _).trans ?_)

@[simp] theorem State.lateUsed_fixed (s : State) (x : Done) (row : Nat) :
    (State.lateUsed s x row).fixed = s.fixed := by
  unfold State.lateUsed
  repeat' (first | with_reducible rfl | with_reducible refine State.ite_fixed ?_ ?_ | simp only [State.mk_fixed, State.fold_fixed, apply_ite Prod.snd, ite_self, State.bump_fixed, State.znePost_fixed] | split | with_reducible refine (State.foldl_fixed _ (fun _ _ => ?_) _ _).trans ?_)

@[simp] theorem State.lateDropped_fixed (s : State) (x : Done) :
    (State.lateDropped s x).fixed = s.fixed := by
  unfold State.lateDropped
  repeat' (first | with_reducible rfl | with_reducible refine State.ite_fixed ?_ ?_ | simp only [State.mk_fixed, State.fold_fixed, apply_ite Prod.snd, ite_self, State.bump_fixed, State.znePost_fixed] | split | with_reducible refine (State.foldl_fixed _ (fun _ _ => ?_) _ _).trans ?_)

@[simp] theorem State.toLdc_fixed (s : State) (o : DieOp) (c : Nat × Nat) :
    (State.toLdc s o c).fixed = s.fixed := by
  unfold State.toLdc
  repeat' (first | with_reducible rfl | with_reducible refine State.ite_fixed ?_ ?_ | simp only [State.mk_fixed, State.fold_fixed, apply_ite Prod.snd, ite_self, State.fresh_fixed, State.zn_fixed] | with_reducible refine (State.fresh_fixed_of (by assumption)).trans ?_ | split | with_reducible refine (State.foldl_fixed _ (fun _ _ => ?_) _ _).trans ?_)

@[simp] theorem State.readData_fixed (s : State) (x : Done) (c : Nat × Nat) :
    (State.readData s x c).fixed = s.fixed := by
  unfold State.readData
  repeat' (first | with_reducible rfl | with_reducible refine State.ite_fixed ?_ ?_ | simp only [State.mk_fixed, State.fold_fixed, apply_ite Prod.snd, ite_self, State.discard_fixed, State.freeCw_fixed, State.lateDropped_fixed, State.lateUsed_fixed, State.toLdc_fixed] | split | with_reducible refine (State.foldl_fixed _ (fun _ _ => ?_) _ _).trans ?_)

@[simp] theorem State.readAborted_fixed (s : State) (o : DieOp) :
    (State.readAborted s o).fixed = s.fixed := by
  unfold State.readAborted
  repeat' (first | with_reducible rfl | with_reducible refine State.ite_fixed ?_ ?_ | simp only [State.mk_fixed, State.fold_fixed, apply_ite Prod.snd, ite_self, State.advanceRecon_fixed, State.enqueue_fixed, State.eraseCw_fixed, State.modRecon_fixed, State.sweepFailed_fixed] | split | with_reducible refine (State.foldl_fixed _ (fun _ _ => ?_) _ _).trans ?_)

@[simp] theorem State.verifyAborted_fixed (s : State) (o : DieOp) :
    (State.verifyAborted s o).fixed = s.fixed := by
  unfold State.verifyAborted
  repeat' (first | with_reducible rfl | with_reducible refine State.ite_fixed ?_ ?_ | simp only [State.mk_fixed, State.fold_fixed, apply_ite Prod.snd, ite_self, State.dropReads_fixed, State.enqueue_fixed, State.jobRestart_fixed, State.memberFailed_fixed] | split | with_reducible refine (State.foldl_fixed _ (fun _ _ => ?_) _ _).trans ?_)

@[simp] theorem State.readDone_fixed (s : State) (x : Done) (zeros : Nat) :
    (State.readDone s x zeros).fixed = s.fixed := by
  unfold State.readDone
  repeat' (first | with_reducible rfl | with_reducible refine State.ite_fixed ?_ ?_ | simp only [State.mk_fixed, State.fold_fixed, apply_ite Prod.snd, ite_self, State.checkFailed_fixed, State.climb_fixed, State.countRead_fixed, State.eraseClearing_fixed, State.eraseCw_fixed, State.freeOp_fixed, State.readAborted_fixed, State.readData_fixed, State.verifyAborted_fixed, State.zn_fixed] | split | with_reducible refine (State.foldl_fixed _ (fun _ _ => ?_) _ _).trans ?_)

@[simp] theorem State.mediaCount_fixed (s : State) (o : DieOp) (kind n : Nat) :
    (State.mediaCount s o kind n).fixed = s.fixed := by
  unfold State.mediaCount
  repeat' (first | with_reducible rfl | with_reducible refine State.ite_fixed ?_ ?_ | simp only [State.mk_fixed, State.fold_fixed, apply_ite Prod.snd, ite_self, State.smartAdd_fixed] | split | with_reducible refine (State.foldl_fixed _ (fun _ _ => ?_) _ _).trans ?_)

@[simp] theorem State.programDone_fixed (s : State) (x : Done) :
    (State.programDone s x).fixed = s.fixed := by
  unfold State.programDone
  repeat' (first | with_reducible rfl | with_reducible refine State.ite_fixed ?_ ?_ | simp only [State.mk_fixed, State.fold_fixed, apply_ite Prod.snd, ite_self, State.jobRestart_fixed, State.mediaCount_fixed, State.memberFailed_fixed, State.memberPassed_fixed, State.modJob_fixed, State.setMember_fixed, State.verifyRead_fixed] | split | with_reducible refine (State.foldl_fixed _ (fun _ _ => ?_) _ _).trans ?_)

@[simp] theorem State.eraseDone_fixed (s : State) (x : Done) :
    (State.eraseDone s x).fixed = s.fixed := by
  unfold State.eraseDone
  repeat' (first | with_reducible rfl | with_reducible refine State.ite_fixed ?_ ?_ | simp only [State.mk_fixed, State.fold_fixed, apply_ite Prod.snd, ite_self, State.eraseChecked_fixed, State.eraseLost_fixed, State.issueErase_fixed, State.mediaCount_fixed] | split | with_reducible refine (State.foldl_fixed _ (fun _ _ => ?_) _ _).trans ?_)

@[simp] theorem State.resumeAfter_fixed (s : State) (d : Nat) :
    (State.resumeAfter s d).fixed = s.fixed := by
  unfold State.resumeAfter
  repeat' (first | with_reducible rfl | with_reducible refine State.ite_fixed ?_ ?_ | simp only [State.mk_fixed, State.fold_fixed, apply_ite Prod.snd, ite_self, State.resumeOp_fixed] | split | with_reducible refine (State.foldl_fixed _ (fun _ _ => ?_) _ _).trans ?_)

theorem execDieOpDone_fixed (d : DieId) (zeros : BitVec 16) (s : State) :
    Keeps (execDieOpDone d zeros s) s := by
  unfold execDieOpDone
  repeat' (first | with_reducible rfl | with_reducible refine State.ite_fixed ?_ ?_ | with_reducible refine Keeps.next ?_ | with_reducible refine Keeps.ite ?_ ?_ | simp only [State.mk_fixed, State.fold_fixed, apply_ite Prod.snd, ite_self, State.countReset_fixed, State.eraseDone_fixed, State.modDie_fixed, State.programDone_fixed, State.readDone_fixed, State.resumeAfter_fixed, State.returnReleased_fixed, State.showPower_fixed, State.zn_fixed] | split | with_reducible refine (State.foldl_fixed _ (fun _ _ => ?_) _ _).trans ?_)

theorem execHuskCloseEntryAck_fixed (r : Fin 6400) (s : State) :
    Keeps (execHuskCloseEntryAck r s) s := by
  unfold execHuskCloseEntryAck
  repeat' (first | with_reducible rfl | with_reducible refine State.ite_fixed ?_ ?_ | with_reducible refine Keeps.next ?_ | with_reducible refine Keeps.ite ?_ ?_ | simp only [State.mk_fixed, State.fold_fixed, apply_ite Prod.snd, ite_self, State.closeStripe_fixed] | split | with_reducible refine (State.foldl_fixed _ (fun _ _ => ?_) _ _).trans ?_)

@[simp] theorem State.lateRead_fixed (s : State) (o : DieOp) :
    (State.lateRead s o).fixed = s.fixed := by
  unfold State.lateRead
  repeat' (first | with_reducible rfl | with_reducible refine State.ite_fixed ?_ ?_ | simp only [State.mk_fixed, State.fold_fixed, apply_ite Prod.snd, ite_self, State.eraseCw_fixed, State.eraseMember_fixed, State.sweepFailed_fixed] | split | with_reducible refine (State.foldl_fixed _ (fun _ _ => ?_) _ _).trans ?_)

theorem execWatchdogExpiry_fixed (d : DieId) (s : State) :
    Keeps (execWatchdogExpiry d s) s := by
  unfold execWatchdogExpiry
  repeat' (first | with_reducible rfl | with_reducible refine State.ite_fixed ?_ ?_ | with_reducible refine Keeps.next ?_ | with_reducible refine Keeps.ite ?_ ?_ | simp only [State.mk_fixed, State.fold_fixed, apply_ite Prod.snd, ite_self, State.countExpiry_fixed, State.lateRead_fixed, State.modDie_fixed] | split | with_reducible refine (State.foldl_fixed _ (fun _ _ => ?_) _ _).trans ?_)

theorem execHardLimitExpiry_fixed (d : DieId) (s : State) :
    Keeps (execHardLimitExpiry d s) s := by
  unfold execHardLimitExpiry
  repeat' (first | with_reducible rfl | with_reducible refine State.ite_fixed ?_ ?_ | with_reducible refine Keeps.next ?_ | with_reducible refine Keeps.ite ?_ ?_ | simp only [State.mk_fixed, State.fold_fixed, apply_ite Prod.snd, ite_self, State.lunReset_fixed, State.znePost_fixed] | split | with_reducible refine (State.foldl_fixed _ (fun _ _ => ?_) _ _).trans ?_)

theorem execAbortDoneTimeout_fixed (d : DieId) (s : State) :
    Keeps (execAbortDoneTimeout d s) s := by
  unfold execAbortDoneTimeout
  repeat' (first | with_reducible rfl | with_reducible refine State.ite_fixed ?_ ?_ | with_reducible refine Keeps.next ?_ | with_reducible refine Keeps.ite ?_ ?_ | simp only [State.mk_fixed, State.fold_fixed, apply_ite Prod.snd, ite_self, State.countReset_fixed, State.modDie_fixed] | split | with_reducible refine (State.foldl_fixed _ (fun _ _ => ?_) _ _).trans ?_)

end Sys2Proof.Machine
end

