-- ==== Sys2Proof/Laws/FixReplay.lean ====
section
/-! SUPPORT. Operations of Machine/Replay.lean that keep the queue, memory, the straps and the OTP. -/

namespace Sys2Proof.Machine

set_option linter.all false

@[simp] theorem State.failHdrs_fixed (s : State) (hdr : List (Fin 2)) :
    (State.failHdrs s hdr).fixed = s.fixed := by
  unfold State.failHdrs
  repeat' (first | with_reducible rfl | with_reducible refine State.ite_fixed ?_ ?_ | simp only [State.mk_fixed, State.fold_fixed, apply_ite Prod.snd, ite_self, State.hk_fixed] | split | with_reducible refine (State.foldl_fixed _ (fun _ _ => ?_) _ _).trans ?_)

@[simp] theorem State.syncRec_fixed (s : State) (bad : List (Fin 2 × Fin 6400)) (r : Nat) :
    (State.syncRec s bad r).fixed = s.fixed := by
  unfold State.syncRec
  repeat' (first | with_reducible rfl | with_reducible refine State.ite_fixed ?_ ?_ | simp only [State.mk_fixed, State.fold_fixed, apply_ite Prod.snd, ite_self, State.hk_fixed] | split | with_reducible refine (State.foldl_fixed _ (fun _ _ => ?_) _ _).trans ?_)

@[simp] theorem State.replayOne_fixed (s : State) (x : HuskIn) (r : Nat) :
    (State.replayOne s x r).2.fixed = s.fixed := by
  unfold State.replayOne
  repeat' (first | with_reducible rfl | with_reducible refine State.ite_fixed ?_ ?_ | simp only [State.mk_fixed, State.fold_fixed, apply_ite Prod.snd, ite_self, State.closeStripe_fixed, State.freeShelf_fixed, State.fresh_fixed, State.huskWrite_fixed, State.shelveStripe_fixed, State.zn_fixed] | with_reducible refine (State.fresh_fixed_of (by assumption)).trans ?_ | split | with_reducible refine (State.foldl_fixed _ (fun _ _ => ?_) _ _).trans ?_)

theorem State.replayOne_fixed_of {s : State} {x : HuskIn} {r : Nat} {x0} {t : State} (h : State.replayOne s x r = (x0, t)) : t.fixed = s.fixed := by
  have := State.replayOne_fixed s x r
  rw [h] at this
  exact this

theorem State.replay_fold_fixed (x : HuskIn) (xs : List Nat) (n : Nat) (s : State) :
    (xs.foldl (fun a r => (a.1 + b2n (a.2.replayOne x r).1, (a.2.replayOne x r).2)) (n, s)).2.fixed = s.fixed := by
  induction xs generalizing n s with
  | nil => rfl
  | cons x xs ih => simp only [List.foldl_cons, ih, State.replayOne_fixed]

@[simp] theorem State.replay_fixed (s : State) (x : HuskIn) : (s.replay x).fixed = s.fixed := by
  unfold State.replay
  extract_lets s1 s2 all s3 o
  have h1 : s1.fixed = s.fixed := State.ite_fixed rfl (State.znePost_fixed ..)
  have h2 : s2.fixed = s.fixed := (State.ite_fixed rfl (State.znePost_fixed ..) : s2.fixed = s1.fixed).trans h1
  have h3 : s3.fixed = s.fixed := (State.foldl_fixed _ (fun _ _ => by simp) _ _).trans h2
  clear_value s3
  simp only [State.znePost_fixed, State.replay_fold_fixed, h3]

@[simp] theorem State.tornFound_fixed (s : State) (inp : HuskIn) (found : Found) (x : BodyRef) (i : Nat) :
    (State.tornFound s inp found x i).fixed = s.fixed := by
  unfold State.tornFound
  repeat' (first | with_reducible rfl | with_reducible refine State.ite_fixed ?_ ?_ | simp only [State.mk_fixed, State.fold_fixed, apply_ite Prod.snd, ite_self, State.fresh_fixed, State.huskWrite_fixed, State.nextEpochs_fixed, State.nextHseq_fixed, State.shelveStripe_fixed, State.zn_fixed] | with_reducible refine (State.fresh_fixed_of (by assumption)).trans ?_ | with_reducible refine (State.nextEpochs_fixed_of (by assumption)).trans ?_ | with_reducible refine (State.nextHseq_fixed_of (by assumption)).trans ?_ | split | with_reducible refine (State.foldl_fixed _ (fun _ _ => ?_) _ _).trans ?_)

@[simp] theorem State.resync_fixed (s : State) (x : HuskIn) (listLost : Bool) (found : Found) :
    (State.resync s x listLost found).fixed = s.fixed := by
  unfold State.resync
  repeat' (first | with_reducible rfl | with_reducible refine State.ite_fixed ?_ ?_ | simp only [State.mk_fixed, State.fold_fixed, apply_ite Prod.snd, ite_self, State.cs_fixed, State.drawFree_fixed, State.hk_fixed, State.modZone_fixed, State.tornFound_fixed, State.znePost_fixed] | with_reducible refine (State.drawFree_fixed_of (by assumption)).trans ?_ | split | with_reducible refine (State.foldl_fixed _ (fun _ _ => ?_) _ _).trans ?_)

@[simp] theorem State.husksDone_fixed (s : State) :
    (State.husksDone s).fixed = s.fixed := by
  unfold State.husksDone
  repeat' (first | with_reducible rfl | with_reducible refine State.ite_fixed ?_ ?_ | simp only [State.mk_fixed, State.fold_fixed, apply_ite Prod.snd, ite_self, State.fnsReady_fixed, State.hk_fixed] | split | with_reducible refine (State.foldl_fixed _ (fun _ _ => ?_) _ _).trans ?_)

theorem execStartupHuskReplay_fixed (x : HuskIn) (listLost : Bool) (found : Found) (s : State) :
    Keeps (execStartupHuskReplay x listLost found s) s := by
  unfold execStartupHuskReplay
  repeat' (first | with_reducible rfl | with_reducible refine State.ite_fixed ?_ ?_ | with_reducible refine Keeps.next ?_ | with_reducible refine Keeps.ite ?_ ?_ | simp only [State.mk_fixed, State.fold_fixed, apply_ite Prod.snd, ite_self, State.failHdrs_fixed, State.husksDone_fixed, State.replay_fixed, State.resync_fixed] | split | with_reducible refine (State.foldl_fixed _ (fun _ _ => ?_) _ _).trans ?_)

theorem execTornRepair_fixed (r : Fin 6400) (s : State) :
    Keeps (execTornRepair r s) s := by
  unfold execTornRepair
  repeat' (first | with_reducible rfl | with_reducible refine State.ite_fixed ?_ ?_ | with_reducible refine Keeps.next ?_ | with_reducible refine Keeps.ite ?_ ?_ | simp only [State.mk_fixed, State.fold_fixed, apply_ite Prod.snd, ite_self, State.enqueue_fixed, State.modStripe_fixed, State.startSubst_fixed] | split | with_reducible refine (State.foldl_fixed _ (fun _ _ => ?_) _ _).trans ?_)

end Sys2Proof.Machine
end

