-- ==== Sys2Proof/Laws/FixKazino.lean ====
section
/-! SUPPORT. Operations of Machine/Kazino.lean that keep the queue, memory, the straps and the OTP. -/

namespace Sys2Proof.Machine

set_option linter.all false

@[simp] theorem State.modSeq_fixed (s : State) (n : Nat) (f : Seq → Seq) :
    (State.modSeq s n f).fixed = s.fixed := by
  unfold State.modSeq
  repeat' (first | with_reducible rfl | with_reducible refine State.ite_fixed ?_ ?_ | simp only [State.mk_fixed, State.fold_fixed, apply_ite Prod.snd, ite_self] | split | with_reducible refine (State.foldl_fixed _ (fun _ _ => ?_) _ _).trans ?_)

@[simp] theorem State.chCost_fixed (s : State) (n cycles : Nat) :
    (State.chCost s n cycles).fixed = s.fixed := by
  unfold State.chCost
  repeat' (first | with_reducible rfl | with_reducible refine State.ite_fixed ?_ ?_ | simp only [State.mk_fixed, State.fold_fixed, apply_ite Prod.snd, ite_self, State.modSeq_fixed] | split | with_reducible refine (State.foldl_fixed _ (fun _ _ => ?_) _ _).trans ?_)

@[simp] theorem State.setPc_fixed (s : State) (n pc : Nat) :
    (State.setPc s n pc).fixed = s.fixed := by
  unfold State.setPc
  repeat' (first | with_reducible rfl | with_reducible refine State.ite_fixed ?_ ?_ | simp only [State.mk_fixed, State.fold_fixed, apply_ite Prod.snd, ite_self, State.setFld_fixed] | split | with_reducible refine (State.foldl_fixed _ (fun _ _ => ?_) _ _).trans ?_)

@[simp] theorem State.nextPc_fixed (s : State) (n : Nat) :
    (State.nextPc s n).fixed = s.fixed := by
  unfold State.nextPc
  repeat' (first | with_reducible rfl | with_reducible refine State.ite_fixed ?_ ?_ | simp only [State.mk_fixed, State.fold_fixed, apply_ite Prod.snd, ite_self, State.setPc_fixed] | split | with_reducible refine (State.foldl_fixed _ (fun _ _ => ?_) _ _).trans ?_)

@[simp] theorem State.chPost_fixed (s : State) (n id : Nat) (items : List (Nat × Nat)) :
    (State.chPost s n id items).fixed = s.fixed := by
  unfold State.chPost
  repeat' (first | with_reducible rfl | with_reducible refine State.ite_fixed ?_ ?_ | simp only [State.mk_fixed, State.fold_fixed, apply_ite Prod.snd, ite_self, State.post_fixed] | split | with_reducible refine (State.foldl_fixed _ (fun _ _ => ?_) _ _).trans ?_)

@[simp] theorem State.podDone_fixed (s : State) (n rank : Nat) (susp : Bool) (p : Pod) (code detail : Nat) :
    (State.podDone s n rank susp p code detail).fixed = s.fixed := by
  unfold State.podDone
  repeat' (first | with_reducible rfl | with_reducible refine State.ite_fixed ?_ ?_ | simp only [State.mk_fixed, State.fold_fixed, apply_ite Prod.snd, ite_self, State.bump_fixed, State.modDie_fixed, State.modSeq_fixed, State.setFld_fixed, State.showPods_fixed, State.showPower_fixed, State.zn_fixed] | split | with_reducible refine (State.foldl_fixed _ (fun _ _ => ?_) _ _).trans ?_)

@[simp] theorem State.handDone_fixed (s : State) (n code detail : Nat) :
    (State.handDone s n code detail).fixed = s.fixed := by
  unfold State.handDone
  repeat' (first | with_reducible rfl | with_reducible refine State.ite_fixed ?_ ?_ | simp only [State.mk_fixed, State.fold_fixed, apply_ite Prod.snd, ite_self, State.modSeq_fixed, State.podDone_fixed] | split | with_reducible refine (State.foldl_fixed _ (fun _ _ => ?_) _ _).trans ?_)

@[simp] theorem State.seqFault_fixed (s : State) (n code : Nat) :
    (State.seqFault s n code).fixed = s.fixed := by
  unfold State.seqFault
  repeat' (first | with_reducible rfl | with_reducible refine State.ite_fixed ?_ ?_ | simp only [State.mk_fixed, State.fold_fixed, apply_ite Prod.snd, ite_self, State.bump_fixed, State.chPost_fixed, State.handDone_fixed, State.modSeq_fixed, State.setFld_fixed] | split | with_reducible refine (State.foldl_fixed _ (fun _ _ => ?_) _ _).trans ?_)

@[simp] theorem State.imemCe_fixed (s : State) (n : Nat) :
    (State.imemCe s n).fixed = s.fixed := by
  unfold State.imemCe
  repeat' (first | with_reducible rfl | with_reducible refine State.ite_fixed ?_ ?_ | simp only [State.mk_fixed, State.fold_fixed, apply_ite Prod.snd, ite_self, State.bump_fixed, State.chPost_fixed, State.modSeq_fixed] | split | with_reducible refine (State.foldl_fixed _ (fun _ _ => ?_) _ _).trans ?_)

theorem State.kz_fixed {s : State} {n : Nat} {f : Fetch} {w : Nat} {body : State → State} (hbody : ∀ v0, (body v0).fixed = v0.fixed) :
    (State.kz s n f w body).fixed = s.fixed := by
  unfold State.kz
  repeat' (first | with_reducible rfl | with_reducible refine State.ite_fixed ?_ ?_ | simp only [State.mk_fixed, State.fold_fixed, apply_ite Prod.snd, ite_self, hbody, State.imemCe_fixed, State.seqFault_fixed] | split | with_reducible refine (State.foldl_fixed _ (fun _ _ => ?_) _ _).trans ?_)

@[simp] theorem State.endBurst_fixed (s : State) (n : Nat) :
    (State.endBurst s n).fixed = s.fixed := by
  unfold State.endBurst
  repeat' (first | with_reducible rfl | with_reducible refine State.ite_fixed ?_ ?_ | simp only [State.mk_fixed, State.fold_fixed, apply_ite Prod.snd, ite_self, State.modSeq_fixed] | split | with_reducible refine (State.foldl_fixed _ (fun _ _ => ?_) _ _).trans ?_)

theorem State.onBus_fixed {s : State} {n : Nat} {body : State → State} (hbody : ∀ v0, (body v0).fixed = v0.fixed) :
    (State.onBus s n body).fixed = s.fixed := by
  unfold State.onBus
  repeat' (first | with_reducible rfl | with_reducible refine State.ite_fixed ?_ ?_ | simp only [State.mk_fixed, State.fold_fixed, apply_ite Prod.snd, ite_self, hbody, State.seqFault_fixed] | split | with_reducible refine (State.foldl_fixed _ (fun _ _ => ?_) _ _).trans ?_)

@[simp] theorem State.plain_fixed (s : State) (n cost : Nat) (f : Seq → Seq) :
    (State.plain s n cost f).fixed = s.fixed := by
  unfold State.plain
  repeat' (first | with_reducible rfl | with_reducible refine State.ite_fixed ?_ ?_ | simp only [State.mk_fixed, State.fold_fixed, apply_ite Prod.snd, ite_self, State.chCost_fixed, State.modSeq_fixed, State.nextPc_fixed] | split | with_reducible refine (State.foldl_fixed _ (fun _ _ => ?_) _ _).trans ?_)

theorem execLdi_fixed (n : Chan) (f : Fetch) (rd : BitVec 4) (imm : BitVec 18) (s : State) :
    Keeps (execLdi n f rd imm s) s := by
  unfold execLdi
  repeat' (first | with_reducible rfl | with_reducible refine State.ite_fixed ?_ ?_ | with_reducible refine Keeps.next ?_ | with_reducible refine Keeps.ite ?_ ?_ | simp only [State.mk_fixed, State.fold_fixed, apply_ite Prod.snd, ite_self, State.plain_fixed] | with_reducible refine (State.kz_fixed (fun _ => ?_)).trans ?_ | split | with_reducible refine (State.foldl_fixed _ (fun _ _ => ?_) _ _).trans ?_)

theorem execLdih_fixed (n : Chan) (f : Fetch) (rd : BitVec 4) (imm : BitVec 18) (s : State) :
    Keeps (execLdih n f rd imm s) s := by
  unfold execLdih
  repeat' (first | with_reducible rfl | with_reducible refine State.ite_fixed ?_ ?_ | with_reducible refine Keeps.next ?_ | with_reducible refine Keeps.ite ?_ ?_ | simp only [State.mk_fixed, State.fold_fixed, apply_ite Prod.snd, ite_self, State.plain_fixed] | with_reducible refine (State.kz_fixed (fun _ => ?_)).trans ?_ | split | with_reducible refine (State.foldl_fixed _ (fun _ _ => ?_) _ _).trans ?_)

theorem execMov_fixed (n : Chan) (f : Fetch) (rd rs : BitVec 4) (imm : BitVec 18) (s : State) :
    Keeps (execMov n f rd rs imm s) s := by
  unfold execMov
  repeat' (first | with_reducible rfl | with_reducible refine State.ite_fixed ?_ ?_ | with_reducible refine Keeps.next ?_ | with_reducible refine Keeps.ite ?_ ?_ | simp only [State.mk_fixed, State.fold_fixed, apply_ite Prod.snd, ite_self, State.plain_fixed] | with_reducible refine (State.kz_fixed (fun _ => ?_)).trans ?_ | split | with_reducible refine (State.foldl_fixed _ (fun _ _ => ?_) _ _).trans ?_)

@[simp] theorem State.aluOp_fixed (s : State) (n : Nat) (f : Fetch) (opc : Nat) (op : W32 → W32 → W32 × Bool) (rd rs imm : Nat) :
    (State.aluOp s n f opc op rd rs imm).fixed = s.fixed := by
  unfold State.aluOp
  repeat' (first | with_reducible rfl | with_reducible refine State.ite_fixed ?_ ?_ | simp only [State.mk_fixed, State.fold_fixed, apply_ite Prod.snd, ite_self, State.plain_fixed] | with_reducible refine (State.kz_fixed (fun _ => ?_)).trans ?_ | split | with_reducible refine (State.foldl_fixed _ (fun _ _ => ?_) _ _).trans ?_)

theorem execAdd_fixed (n : Chan) (f : Fetch) (rd rs : BitVec 4) (imm : BitVec 18) (s : State) :
    Keeps (execAdd n f rd rs imm s) s := by
  unfold execAdd
  repeat' (first | with_reducible rfl | with_reducible refine State.ite_fixed ?_ ?_ | with_reducible refine Keeps.next ?_ | with_reducible refine Keeps.ite ?_ ?_ | simp only [State.mk_fixed, State.fold_fixed, apply_ite Prod.snd, ite_self, State.aluOp_fixed] | split | with_reducible refine (State.foldl_fixed _ (fun _ _ => ?_) _ _).trans ?_)

theorem execSub_fixed (n : Chan) (f : Fetch) (rd rs : BitVec 4) (imm : BitVec 18) (s : State) :
    Keeps (execSub n f rd rs imm s) s := by
  unfold execSub
  repeat' (first | with_reducible rfl | with_reducible refine State.ite_fixed ?_ ?_ | with_reducible refine Keeps.next ?_ | with_reducible refine Keeps.ite ?_ ?_ | simp only [State.mk_fixed, State.fold_fixed, apply_ite Prod.snd, ite_self, State.aluOp_fixed] | split | with_reducible refine (State.foldl_fixed _ (fun _ _ => ?_) _ _).trans ?_)

theorem execAnd_fixed (n : Chan) (f : Fetch) (rd rs : BitVec 4) (imm : BitVec 18) (s : State) :
    Keeps (execAnd n f rd rs imm s) s := by
  unfold execAnd
  repeat' (first | with_reducible rfl | with_reducible refine State.ite_fixed ?_ ?_ | with_reducible refine Keeps.next ?_ | with_reducible refine Keeps.ite ?_ ?_ | simp only [State.mk_fixed, State.fold_fixed, apply_ite Prod.snd, ite_self, State.aluOp_fixed] | split | with_reducible refine (State.foldl_fixed _ (fun _ _ => ?_) _ _).trans ?_)

theorem execOr_fixed (n : Chan) (f : Fetch) (rd rs : BitVec 4) (imm : BitVec 18) (s : State) :
    Keeps (execOr n f rd rs imm s) s := by
  unfold execOr
  repeat' (first | with_reducible rfl | with_reducible refine State.ite_fixed ?_ ?_ | with_reducible refine Keeps.next ?_ | with_reducible refine Keeps.ite ?_ ?_ | simp only [State.mk_fixed, State.fold_fixed, apply_ite Prod.snd, ite_self, State.aluOp_fixed] | split | with_reducible refine (State.foldl_fixed _ (fun _ _ => ?_) _ _).trans ?_)

theorem execXor_fixed (n : Chan) (f : Fetch) (rd rs : BitVec 4) (imm : BitVec 18) (s : State) :
    Keeps (execXor n f rd rs imm s) s := by
  unfold execXor
  repeat' (first | with_reducible rfl | with_reducible refine State.ite_fixed ?_ ?_ | with_reducible refine Keeps.next ?_ | with_reducible refine Keeps.ite ?_ ?_ | simp only [State.mk_fixed, State.fold_fixed, apply_ite Prod.snd, ite_self, State.aluOp_fixed] | split | with_reducible refine (State.foldl_fixed _ (fun _ _ => ?_) _ _).trans ?_)

theorem execShl_fixed (n : Chan) (f : Fetch) (rd rs : BitVec 4) (imm : BitVec 18) (s : State) :
    Keeps (execShl n f rd rs imm s) s := by
  unfold execShl
  repeat' (first | with_reducible rfl | with_reducible refine State.ite_fixed ?_ ?_ | with_reducible refine Keeps.next ?_ | with_reducible refine Keeps.ite ?_ ?_ | simp only [State.mk_fixed, State.fold_fixed, apply_ite Prod.snd, ite_self, State.aluOp_fixed] | split | with_reducible refine (State.foldl_fixed _ (fun _ _ => ?_) _ _).trans ?_)

theorem execShr_fixed (n : Chan) (f : Fetch) (rd rs : BitVec 4) (imm : BitVec 18) (s : State) :
    Keeps (execShr n f rd rs imm s) s := by
  unfold execShr
  repeat' (first | with_reducible rfl | with_reducible refine State.ite_fixed ?_ ?_ | with_reducible refine Keeps.next ?_ | with_reducible refine Keeps.ite ?_ ?_ | simp only [State.mk_fixed, State.fold_fixed, apply_ite Prod.snd, ite_self, State.aluOp_fixed] | split | with_reducible refine (State.foldl_fixed _ (fun _ _ => ?_) _ _).trans ?_)

theorem execBr_fixed (n : Chan) (f : Fetch) (imm : BitVec 18) (s : State) :
    Keeps (execBr n f imm s) s := by
  unfold execBr
  repeat' (first | with_reducible rfl | with_reducible refine State.ite_fixed ?_ ?_ | with_reducible refine Keeps.next ?_ | with_reducible refine Keeps.ite ?_ ?_ | simp only [State.mk_fixed, State.fold_fixed, apply_ite Prod.snd, ite_self, State.chCost_fixed, State.setPc_fixed] | with_reducible refine (State.kz_fixed (fun _ => ?_)).trans ?_ | split | with_reducible refine (State.foldl_fixed _ (fun _ _ => ?_) _ _).trans ?_)

theorem execBrc_fixed (n : Chan) (f : Fetch) (imm : BitVec 18) (s : State) :
    Keeps (execBrc n f imm s) s := by
  unfold execBrc
  repeat' (first | with_reducible rfl | with_reducible refine State.ite_fixed ?_ ?_ | with_reducible refine Keeps.next ?_ | with_reducible refine Keeps.ite ?_ ?_ | simp only [State.mk_fixed, State.fold_fixed, apply_ite Prod.snd, ite_self, State.chCost_fixed, State.nextPc_fixed, State.setPc_fixed] | with_reducible refine (State.kz_fixed (fun _ => ?_)).trans ?_ | split | with_reducible refine (State.foldl_fixed _ (fun _ _ => ?_) _ _).trans ?_)

theorem execCall_fixed (n : Chan) (f : Fetch) (imm : BitVec 18) (s : State) :
    Keeps (execCall n f imm s) s := by
  unfold execCall
  repeat' (first | with_reducible rfl | with_reducible refine State.ite_fixed ?_ ?_ | with_reducible refine Keeps.next ?_ | with_reducible refine Keeps.ite ?_ ?_ | simp only [State.mk_fixed, State.fold_fixed, apply_ite Prod.snd, ite_self, State.chCost_fixed, State.modSeq_fixed, State.seqFault_fixed, State.setPc_fixed] | with_reducible refine (State.kz_fixed (fun _ => ?_)).trans ?_ | split | with_reducible refine (State.foldl_fixed _ (fun _ _ => ?_) _ _).trans ?_)

theorem execRet_fixed (n : Chan) (f : Fetch) (s : State) :
    Keeps (execRet n f s) s := by
  unfold execRet
  repeat' (first | with_reducible rfl | with_reducible refine State.ite_fixed ?_ ?_ | with_reducible refine Keeps.next ?_ | with_reducible refine Keeps.ite ?_ ?_ | simp only [State.mk_fixed, State.fold_fixed, apply_ite Prod.snd, ite_self, State.chCost_fixed, State.modSeq_fixed, State.seqFault_fixed, State.setPc_fixed] | with_reducible refine (State.kz_fixed (fun _ => ?_)).trans ?_ | split | with_reducible refine (State.foldl_fixed _ (fun _ _ => ?_) _ _).trans ?_)

theorem execHalt_fixed (n : Chan) (f : Fetch) (s : State) :
    Keeps (execHalt n f s) s := by
  unfold execHalt
  repeat' (first | with_reducible rfl | with_reducible refine State.ite_fixed ?_ ?_ | with_reducible refine Keeps.next ?_ | with_reducible refine Keeps.ite ?_ ?_ | simp only [State.mk_fixed, State.fold_fixed, apply_ite Prod.snd, ite_self, State.chPost_fixed, State.seqFault_fixed, State.setFld_fixed] | with_reducible refine (State.kz_fixed (fun _ => ?_)).trans ?_ | split | with_reducible refine (State.foldl_fixed _ (fun _ _ => ?_) _ _).trans ?_)

theorem execWait_fixed (n : Chan) (f : Fetch) (rs : BitVec 4) (imm : BitVec 18) (s : State) :
    Keeps (execWait n f rs imm s) s := by
  unfold execWait
  repeat' (first | with_reducible rfl | with_reducible refine State.ite_fixed ?_ ?_ | with_reducible refine Keeps.next ?_ | with_reducible refine Keeps.ite ?_ ?_ | simp only [State.mk_fixed, State.fold_fixed, apply_ite Prod.snd, ite_self, State.chCost_fixed, State.nextPc_fixed, State.seqFault_fixed] | with_reducible refine (State.kz_fixed (fun _ => ?_)).trans ?_ | split | with_reducible refine (State.foldl_fixed _ (fun _ _ => ?_) _ _).trans ?_)

theorem execTstart_fixed (n : Chan) (f : Fetch) (rs : BitVec 4) (imm : BitVec 18) (s : State) :
    Keeps (execTstart n f rs imm s) s := by
  unfold execTstart
  repeat' (first | with_reducible rfl | with_reducible refine State.ite_fixed ?_ ?_ | with_reducible refine Keeps.next ?_ | with_reducible refine Keeps.ite ?_ ?_ | simp only [State.mk_fixed, State.fold_fixed, apply_ite Prod.snd, ite_self, State.chCost_fixed, State.modSeq_fixed, State.nextPc_fixed, State.seqFault_fixed] | with_reducible refine (State.kz_fixed (fun _ => ?_)).trans ?_ | split | with_reducible refine (State.foldl_fixed _ (fun _ _ => ?_) _ _).trans ?_)

theorem execTwait_fixed (n : Chan) (f : Fetch) (s : State) :
    Keeps (execTwait n f s) s := by
  unfold execTwait
  repeat' (first | with_reducible rfl | with_reducible refine State.ite_fixed ?_ ?_ | with_reducible refine Keeps.next ?_ | with_reducible refine Keeps.ite ?_ ?_ | simp only [State.mk_fixed, State.fold_fixed, apply_ite Prod.snd, ite_self, State.chCost_fixed, State.modSeq_fixed, State.nextPc_fixed] | with_reducible refine (State.kz_fixed (fun _ => ?_)).trans ?_ | split | with_reducible refine (State.foldl_fixed _ (fun _ _ => ?_) _ _).trans ?_)

theorem execTimerExpiry_fixed (n : Chan) (s : State) :
    Keeps (execTimerExpiry n s) s := by
  unfold execTimerExpiry
  repeat' (first | with_reducible rfl | with_reducible refine State.ite_fixed ?_ ?_ | with_reducible refine Keeps.next ?_ | with_reducible refine Keeps.ite ?_ ?_ | simp only [State.mk_fixed, State.fold_fixed, apply_ite Prod.snd, ite_self, State.modSeq_fixed] | split | with_reducible refine (State.foldl_fixed _ (fun _ _ => ?_) _ _).trans ?_)

theorem execEvt_fixed (n : Chan) (f : Fetch) (rd rs : BitVec 4) (imm : BitVec 18) (s : State) :
    Keeps (execEvt n f rd rs imm s) s := by
  unfold execEvt
  repeat' (first | with_reducible rfl | with_reducible refine State.ite_fixed ?_ ?_ | with_reducible refine Keeps.next ?_ | with_reducible refine Keeps.ite ?_ ?_ | simp only [State.mk_fixed, State.fold_fixed, apply_ite Prod.snd, ite_self, State.chCost_fixed, State.chPost_fixed, State.nextPc_fixed, State.seqFault_fixed] | with_reducible refine (State.kz_fixed (fun _ => ?_)).trans ?_ | split | with_reducible refine (State.foldl_fixed _ (fun _ _ => ?_) _ _).trans ?_)

theorem execSel_fixed (n : Chan) (f : Fetch) (rs : BitVec 4) (imm : BitVec 18) (s : State) :
    Keeps (execSel n f rs imm s) s := by
  unfold execSel
  repeat' (first | with_reducible rfl | with_reducible refine State.ite_fixed ?_ ?_ | with_reducible refine Keeps.next ?_ | with_reducible refine Keeps.ite ?_ ?_ | simp only [State.mk_fixed, State.fold_fixed, apply_ite Prod.snd, ite_self, State.plain_fixed, State.seqFault_fixed] | with_reducible refine (State.kz_fixed (fun _ => ?_)).trans ?_ | split | with_reducible refine (State.foldl_fixed _ (fun _ _ => ?_) _ _).trans ?_)

@[simp] theorem State.latchRow_fixed (s : State) (n : Nat) :
    (State.latchRow s n).fixed = s.fixed := by
  unfold State.latchRow
  repeat' (first | with_reducible rfl | with_reducible refine State.ite_fixed ?_ ?_ | simp only [State.mk_fixed, State.fold_fixed, apply_ite Prod.snd, ite_self, State.drop_fixed, State.modSeq_fixed] | split | with_reducible refine (State.foldl_fixed _ (fun _ _ => ?_) _ _).trans ?_)

@[simp] theorem State.guardRefuse_fixed (s : State) (n b : Nat) (erase : Bool) :
    (State.guardRefuse s n b erase).fixed = s.fixed := by
  unfold State.guardRefuse
  repeat' (first | with_reducible rfl | with_reducible refine State.ite_fixed ?_ ?_ | simp only [State.mk_fixed, State.fold_fixed, apply_ite Prod.snd, ite_self, State.bump_fixed, State.chPost_fixed, State.modSeq_fixed] | split | with_reducible refine (State.foldl_fixed _ (fun _ _ => ?_) _ _).trans ?_)

@[simp] theorem State.guardCmd_fixed (s : State) (n b : Nat) :
    (State.guardCmd s n b).fixed = s.fixed := by
  unfold State.guardCmd
  repeat' (first | with_reducible rfl | with_reducible refine State.ite_fixed ?_ ?_ | simp only [State.mk_fixed, State.fold_fixed, apply_ite Prod.snd, ite_self, State.guardRefuse_fixed, State.latchRow_fixed, State.modSeq_fixed] | split | with_reducible refine (State.foldl_fixed _ (fun _ _ => ?_) _ _).trans ?_)

theorem execCmd_fixed (n : Chan) (f : Fetch) (rs : BitVec 4) (imm : BitVec 18) (s : State) :
    Keeps (execCmd n f rs imm s) s := by
  unfold execCmd
  repeat' (first | with_reducible rfl | with_reducible refine State.ite_fixed ?_ ?_ | with_reducible refine Keeps.next ?_ | with_reducible refine Keeps.ite ?_ ?_ | simp only [State.mk_fixed, State.fold_fixed, apply_ite Prod.snd, ite_self, State.chCost_fixed, State.endBurst_fixed, State.guardCmd_fixed, State.nextPc_fixed] | with_reducible refine (State.kz_fixed (fun _ => ?_)).trans ?_ | with_reducible refine (State.onBus_fixed (fun _ => ?_)).trans ?_ | split | with_reducible refine (State.foldl_fixed _ (fun _ _ => ?_) _ _).trans ?_)

theorem execAddr_fixed (n : Chan) (f : Fetch) (rs : BitVec 4) (imm : BitVec 18) (s : State) :
    Keeps (execAddr n f rs imm s) s := by
  unfold execAddr
  repeat' (first | with_reducible rfl | with_reducible refine State.ite_fixed ?_ ?_ | with_reducible refine Keeps.next ?_ | with_reducible refine Keeps.ite ?_ ?_ | simp only [State.mk_fixed, State.fold_fixed, apply_ite Prod.snd, ite_self, State.chCost_fixed, State.endBurst_fixed, State.modSeq_fixed, State.nextPc_fixed, State.seqFault_fixed] | with_reducible refine (State.kz_fixed (fun _ => ?_)).trans ?_ | with_reducible refine (State.onBus_fixed (fun _ => ?_)).trans ?_ | split | with_reducible refine (State.foldl_fixed _ (fun _ _ => ?_) _ _).trans ?_)

theorem State.dataCycles_fixed {s : State} {n rd rs bytes : Nat} {out : Bool} {move : Nat → Nat → Nat → State → State} (hmove : ∀ v0 v1 v2 v3, (move v0 v1 v2 v3).fixed = v3.fixed) :
    (State.dataCycles s n rd rs bytes out move).fixed = s.fixed := by
  unfold State.dataCycles
  repeat' (first | with_reducible rfl | with_reducible refine State.ite_fixed ?_ ?_ | simp only [State.mk_fixed, State.fold_fixed, apply_ite Prod.snd, ite_self, hmove, State.plain_fixed, State.seqFault_fixed] | with_reducible refine (State.onBus_fixed (fun _ => ?_)).trans ?_ | split | with_reducible refine (State.foldl_fixed _ (fun _ _ => ?_) _ _).trans ?_)

theorem execDin_fixed (n : Chan) (f : Fetch) (rd rs : BitVec 4) (imm : BitVec 18) (s : State) :
    Keeps (execDin n f rd rs imm s) s := by
  unfold execDin
  repeat' (first | with_reducible rfl | with_reducible refine State.ite_fixed ?_ ?_ | with_reducible refine Keeps.next ?_ | with_reducible refine Keeps.ite ?_ ?_ | simp only [State.mk_fixed, State.fold_fixed, apply_ite Prod.snd, ite_self, State.modSeq_fixed] | with_reducible refine (State.dataCycles_fixed (fun _ _ _ _ => ?_)).trans ?_ | with_reducible refine (State.kz_fixed (fun _ => ?_)).trans ?_ | split | with_reducible refine (State.foldl_fixed _ (fun _ _ => ?_) _ _).trans ?_)

theorem execPoll_fixed (n : Chan) (f : Fetch) (rd rs : BitVec 4) (imm : BitVec 18) (first : Byte) (more : List Byte) (s : State) :
    Keeps (execPoll n f rd rs imm first more s) s := by
  unfold execPoll
  repeat' (first | with_reducible rfl | with_reducible refine State.ite_fixed ?_ ?_ | with_reducible refine Keeps.next ?_ | with_reducible refine Keeps.ite ?_ ?_ | simp only [State.mk_fixed, State.fold_fixed, apply_ite Prod.snd, ite_self, State.plain_fixed] | with_reducible refine (State.kz_fixed (fun _ => ?_)).trans ?_ | with_reducible refine (State.onBus_fixed (fun _ => ?_)).trans ?_ | split | with_reducible refine (State.foldl_fixed _ (fun _ _ => ?_) _ _).trans ?_)

theorem execPgen_fixed (n : Chan) (f : Fetch) (rs : BitVec 4) (imm : BitVec 18) (s : State) :
    Keeps (execPgen n f rs imm s) s := by
  unfold execPgen
  repeat' (first | with_reducible rfl | with_reducible refine State.ite_fixed ?_ ?_ | with_reducible refine Keeps.next ?_ | with_reducible refine Keeps.ite ?_ ?_ | simp only [State.mk_fixed, State.fold_fixed, apply_ite Prod.snd, ite_self, State.plain_fixed, State.seqFault_fixed] | with_reducible refine (State.kz_fixed (fun _ => ?_)).trans ?_ | with_reducible refine (State.onBus_fixed (fun _ => ?_)).trans ?_ | split | with_reducible refine (State.foldl_fixed _ (fun _ _ => ?_) _ _).trans ?_)

theorem execPchk_fixed (n : Chan) (f : Fetch) (rd rs : BitVec 4) (imm : BitVec 18) (got : List Byte) (s : State) :
    Keeps (execPchk n f rd rs imm got s) s := by
  unfold execPchk
  repeat' (first | with_reducible rfl | with_reducible refine State.ite_fixed ?_ ?_ | with_reducible refine Keeps.next ?_ | with_reducible refine Keeps.ite ?_ ?_ | simp only [State.mk_fixed, State.fold_fixed, apply_ite Prod.snd, ite_self, State.plain_fixed, State.seqFault_fixed] | with_reducible refine (State.kz_fixed (fun _ => ?_)).trans ?_ | with_reducible refine (State.onBus_fixed (fun _ => ?_)).trans ?_ | split | with_reducible refine (State.foldl_fixed _ (fun _ _ => ?_) _ _).trans ?_)

theorem State.pickItem_fixed (s : State) (n : Nat) :
    KeepsO (State.pickItem s n) s := by
  unfold State.pickItem
  repeat' (first | with_reducible rfl | with_reducible refine State.ite_fixed ?_ ?_ | with_reducible exact KeepsO.none | with_reducible refine KeepsO.some ?_ | simp only [State.mk_fixed, State.fold_fixed, apply_ite Prod.snd, ite_self, State.drawFree_fixed] | with_reducible refine (State.drawFree_fixed_of (by assumption)).trans ?_ | split | with_reducible refine (State.foldl_fixed _ (fun _ _ => ?_) _ _).trans ?_)

theorem State.pickItem_fixed_of {s : State} {n : Nat} {x0} {t : State} (h : State.pickItem s n = some (x0, t)) : t.fixed = s.fixed := by
  have := State.pickItem_fixed s n
  rw [h] at this
  exact this

@[simp] theorem State.deliver__fixed (s : State) (n : Nat) (i : Item) (p : Pod) :
    (State.deliver_ s n i p).fixed = s.fixed := by
  unfold State.deliver_
  repeat' (first | with_reducible rfl | with_reducible refine State.ite_fixed ?_ ?_ | simp only [State.mk_fixed, State.fold_fixed, apply_ite Prod.snd, ite_self, State.chCost_fixed, State.drawFree_fixed, State.fresh_fixed, State.modDie_fixed, State.modSeq_fixed, State.setFld_fixed, State.setPc_fixed] | with_reducible refine (State.drawFree_fixed_of (by assumption)).trans ?_ | with_reducible refine (State.fresh_fixed_of (by assumption)).trans ?_ | split | with_reducible refine (State.foldl_fixed _ (fun _ _ => ?_) _ _).trans ?_)

@[simp] theorem State.popLoop_fixed (s : State) (n : Nat) (rx : Nat) :
    (State.popLoop s n rx).fixed = s.fixed := by
  induction rx generalizing s with
  | zero =>
    simp only [State.popLoop]
    repeat' (first | with_reducible rfl | with_reducible refine State.ite_fixed ?_ ?_ | simp only [State.mk_fixed, State.fold_fixed, apply_ite Prod.snd, ite_self, State.chPost_fixed, State.deliver__fixed, State.podDone_fixed, State.setFld_fixed] | with_reducible refine (State.pickItem_fixed_of (by assumption)).trans ?_ | split | with_reducible refine (State.foldl_fixed _ (fun _ _ => ?_) _ _).trans ?_)
  | succ _ ih =>
    simp only [State.popLoop]
    repeat' (first | with_reducible rfl | with_reducible refine State.ite_fixed ?_ ?_ | simp only [State.mk_fixed, State.fold_fixed, apply_ite Prod.snd, ite_self, State.chPost_fixed, State.deliver__fixed, State.podDone_fixed, State.setFld_fixed, ih] | with_reducible refine (State.pickItem_fixed_of (by assumption)).trans ?_ | split | with_reducible refine (State.foldl_fixed _ (fun _ _ => ?_) _ _).trans ?_)

theorem execPop_fixed (n : Chan) (f : Fetch) (s : State) :
    Keeps (execPop n f s) s := by
  unfold execPop
  repeat' (first | with_reducible rfl | with_reducible refine State.ite_fixed ?_ ?_ | with_reducible refine Keeps.next ?_ | with_reducible refine Keeps.ite ?_ ?_ | simp only [State.mk_fixed, State.fold_fixed, apply_ite Prod.snd, ite_self, State.modSeq_fixed, State.popLoop_fixed, State.seqFault_fixed] | with_reducible refine (State.kz_fixed (fun _ => ?_)).trans ?_ | split | with_reducible refine (State.foldl_fixed _ (fun _ _ => ?_) _ _).trans ?_)

@[simp] theorem State.posted_fixed (s : State) (n : Nat) :
    (State.posted s n).fixed = s.fixed := by
  unfold State.posted
  repeat' (first | with_reducible rfl | with_reducible refine State.ite_fixed ?_ ?_ | simp only [State.mk_fixed, State.fold_fixed, apply_ite Prod.snd, ite_self, State.plain_fixed] | split | with_reducible refine (State.foldl_fixed _ (fun _ _ => ?_) _ _).trans ?_)

theorem execPostDone_fixed (n : Chan) (f : Fetch) (rd rs : BitVec 4) (imm : BitVec 18) (s : State) :
    Keeps (execPostDone n f rd rs imm s) s := by
  unfold execPostDone
  repeat' (first | with_reducible rfl | with_reducible refine State.ite_fixed ?_ ?_ | with_reducible refine Keeps.next ?_ | with_reducible refine Keeps.ite ?_ ?_ | simp only [State.mk_fixed, State.fold_fixed, apply_ite Prod.snd, ite_self, State.podDone_fixed, State.posted_fixed, State.seqFault_fixed] | with_reducible refine (State.kz_fixed (fun _ => ?_)).trans ?_ | split | with_reducible refine (State.foldl_fixed _ (fun _ _ => ?_) _ _).trans ?_)

theorem execPostPark_fixed (n : Chan) (f : Fetch) (rd rs : BitVec 4) (imm : BitVec 18) (s : State) :
    Keeps (execPostPark n f rd rs imm s) s := by
  unfold execPostPark
  repeat' (first | with_reducible rfl | with_reducible refine State.ite_fixed ?_ ?_ | with_reducible refine Keeps.next ?_ | with_reducible refine Keeps.ite ?_ ?_ | simp only [State.mk_fixed, State.fold_fixed, apply_ite Prod.snd, ite_self, State.modDie_fixed, State.posted_fixed, State.seqFault_fixed] | with_reducible refine (State.kz_fixed (fun _ => ?_)).trans ?_ | split | with_reducible refine (State.foldl_fixed _ (fun _ _ => ?_) _ _).trans ?_)

theorem execPostSusp_fixed (n : Chan) (f : Fetch) (rd rs : BitVec 4) (imm : BitVec 18) (s : State) :
    Keeps (execPostSusp n f rd rs imm s) s := by
  unfold execPostSusp
  repeat' (first | with_reducible rfl | with_reducible refine State.ite_fixed ?_ ?_ | with_reducible refine Keeps.next ?_ | with_reducible refine Keeps.ite ?_ ?_ | simp only [State.mk_fixed, State.fold_fixed, apply_ite Prod.snd, ite_self, State.modDie_fixed, State.posted_fixed, State.seqFault_fixed, State.suspendDone_fixed] | with_reducible refine (State.kz_fixed (fun _ => ?_)).trans ?_ | split | with_reducible refine (State.foldl_fixed _ (fun _ _ => ?_) _ _).trans ?_)

theorem execParkDelayExpiry_fixed (d : DieId) (s : State) :
    Keeps (execParkDelayExpiry d s) s := by
  unfold execParkDelayExpiry
  repeat' (first | with_reducible rfl | with_reducible refine State.ite_fixed ?_ ?_ | with_reducible refine Keeps.next ?_ | with_reducible refine Keeps.ite ?_ ?_ | simp only [State.mk_fixed, State.fold_fixed, apply_ite Prod.snd, ite_self, State.modDie_fixed] | split | with_reducible refine (State.foldl_fixed _ (fun _ _ => ?_) _ _).trans ?_)

@[simp] theorem State.abortPods_fixed (s : State) (n : Nat) :
    (State.abortPods s n).fixed = s.fixed := by
  unfold State.abortPods
  repeat' (first | with_reducible rfl | with_reducible refine State.ite_fixed ?_ ?_ | simp only [State.mk_fixed, State.fold_fixed, apply_ite Prod.snd, ite_self, State.fresh_fixed, State.modDie_fixed] | with_reducible refine (State.fresh_fixed_of (by assumption)).trans ?_ | split | with_reducible refine (State.foldl_fixed _ (fun _ _ => ?_) _ _).trans ?_)

@[simp] theorem State.seqRun_fixed (s : State) (n : Nat) :
    (State.seqRun s n).fixed = s.fixed := by
  unfold State.seqRun
  repeat' (first | with_reducible rfl | with_reducible refine State.ite_fixed ?_ ?_ | simp only [State.mk_fixed, State.fold_fixed, apply_ite Prod.snd, ite_self, State.abortPods_fixed, State.chPost_fixed, State.modSeq_fixed, State.setFld_fixed, State.setPc_fixed] | split | with_reducible refine (State.foldl_fixed _ (fun _ _ => ?_) _ _).trans ?_)

theorem execSeqRun_fixed (n : Chan) (s : State) :
    Keeps (execSeqRun n s) s := by
  unfold execSeqRun
  repeat' (first | with_reducible rfl | with_reducible refine State.ite_fixed ?_ ?_ | with_reducible refine Keeps.next ?_ | with_reducible refine Keeps.ite ?_ ?_ | simp only [State.mk_fixed, State.fold_fixed, apply_ite Prod.snd, ite_self, State.seqRun_fixed] | split | with_reducible refine (State.foldl_fixed _ (fun _ _ => ?_) _ _).trans ?_)

@[simp] theorem State.seqStop_fixed (s : State) (n : Nat) :
    (State.seqStop s n).fixed = s.fixed := by
  unfold State.seqStop
  repeat' (first | with_reducible rfl | with_reducible refine State.ite_fixed ?_ ?_ | simp only [State.mk_fixed, State.fold_fixed, apply_ite Prod.snd, ite_self, State.popLoop_fixed, State.setFld_fixed] | split | with_reducible refine (State.foldl_fixed _ (fun _ _ => ?_) _ _).trans ?_)

theorem execSeqStop_fixed (n : Chan) (s : State) :
    Keeps (execSeqStop n s) s := by
  unfold execSeqStop
  repeat' (first | with_reducible rfl | with_reducible refine State.ite_fixed ?_ ?_ | with_reducible refine Keeps.next ?_ | with_reducible refine Keeps.ite ?_ ?_ | simp only [State.mk_fixed, State.fold_fixed, apply_ite Prod.snd, ite_self, State.seqStop_fixed] | split | with_reducible refine (State.foldl_fixed _ (fun _ _ => ?_) _ _).trans ?_)

theorem execChannelFaultTimeout_fixed (n : Chan) (s : State) :
    Keeps (execChannelFaultTimeout n s) s := by
  unfold execChannelFaultTimeout
  repeat' (first | with_reducible rfl | with_reducible refine State.ite_fixed ?_ ?_ | with_reducible refine Keeps.next ?_ | with_reducible refine Keeps.ite ?_ ?_ | simp only [State.mk_fixed, State.fold_fixed, apply_ite Prod.snd, ite_self, State.dieDead_fixed] | split | with_reducible refine (State.foldl_fixed _ (fun _ _ => ?_) _ _).trans ?_)

@[simp] theorem State.directGo_fixed (s : State) (n : Nat) :
    (State.directGo s n).fixed = s.fixed := by
  unfold State.directGo
  repeat' (first | with_reducible rfl | with_reducible refine State.ite_fixed ?_ ?_ | simp only [State.mk_fixed, State.fold_fixed, apply_ite Prod.snd, ite_self, State.fresh_fixed, State.modDie_fixed, State.setFld_fixed, State.showPods_fixed] | with_reducible refine (State.fresh_fixed_of (by assumption)).trans ?_ | split | with_reducible refine (State.foldl_fixed _ (fun _ _ => ?_) _ _).trans ?_)

theorem execDirectOpGo_fixed (n : Chan) (s : State) :
    Keeps (execDirectOpGo n s) s := by
  unfold execDirectOpGo
  repeat' (first | with_reducible rfl | with_reducible refine State.ite_fixed ?_ ?_ | with_reducible refine Keeps.next ?_ | with_reducible refine Keeps.ite ?_ ?_ | simp only [State.mk_fixed, State.fold_fixed, apply_ite Prod.snd, ite_self, State.directGo_fixed] | split | with_reducible refine (State.foldl_fixed _ (fun _ _ => ?_) _ _).trans ?_)

end Sys2Proof.Machine
end

