-- ==== Sys2Proof/Laws/FixSlots.lean ====
section
/-! SUPPORT. Operations of Machine/Slots.lean that keep the queue, memory, the straps and the OTP. -/

namespace Sys2Proof.Machine

set_option linter.all false

@[simp] theorem State.bt_fixed (s : State) (f : Boot → Boot) :
    (State.bt s f).fixed = (s.pending, s.mem, s.straps, s.xb, (f s.boot).otp) := (rfl)

@[simp] theorem State.measureBoot_fixed (s : State) (slot : Option Nat) :
    (State.measureBoot s slot).fixed = s.fixed := by
  unfold State.measureBoot
  repeat' (first | with_reducible rfl | with_reducible refine State.ite_fixed ?_ ?_ | simp only [State.mk_fixed, State.fold_fixed, apply_ite Prod.snd, ite_self, State.bt_fixed] | split | with_reducible refine (State.foldl_fixed _ (fun _ _ => ?_) _ _).trans ?_)

@[simp] theorem State.measureActivation_fixed (s : State) (slot : Nat) :
    (State.measureActivation s slot).fixed = s.fixed := by
  unfold State.measureActivation
  repeat' (first | with_reducible rfl | with_reducible refine State.ite_fixed ?_ ?_ | simp only [State.mk_fixed, State.fold_fixed, apply_ite Prod.snd, ite_self, State.bt_fixed] | split | with_reducible refine (State.foldl_fixed _ (fun _ _ => ?_) _ _).trans ?_)

end Sys2Proof.Machine
end

