-- ==== Sys2Proof/Laws/FixBundle.lean ====
section
/-! SUPPORT. Operations of Machine/Bundle.lean that keep the queue, memory, the straps and the OTP. -/

namespace Sys2Proof.Machine

set_option linter.all false

@[simp] theorem State.loadChannel_fixed (s : State) (slot d n : Nat) :
    (State.loadChannel s slot d n).fixed = s.fixed := by
  unfold State.loadChannel
  repeat' (first | with_reducible rfl | with_reducible refine State.ite_fixed ?_ ?_ | simp only [State.mk_fixed, State.fold_fixed, apply_ite Prod.snd, ite_self, State.setFld_fixed, State.setWord_fixed] | split | with_reducible refine (State.foldl_fixed _ (fun _ _ => ?_) _ _).trans ?_)

@[simp] theorem State.loadOf_fixed (s : State) (slot d : Nat) (cs : List Nat) :
    (State.loadOf s slot d cs).fixed = s.fixed := by
  unfold State.loadOf
  repeat' (first | with_reducible rfl | with_reducible refine State.ite_fixed ?_ ?_ | simp only [State.mk_fixed, State.fold_fixed, apply_ite Prod.snd, ite_self, State.cs_fixed, State.loadChannel_fixed, State.seqRun_fixed] | split | with_reducible refine (State.foldl_fixed _ (fun _ _ => ?_) _ _).trans ?_)

@[simp] theorem State.loadAll_fixed (s : State) (slot d : Nat) :
    (State.loadAll s slot d).fixed = s.fixed := by
  unfold State.loadAll
  repeat' (first | with_reducible rfl | with_reducible refine State.ite_fixed ?_ ?_ | simp only [State.mk_fixed, State.fold_fixed, apply_ite Prod.snd, ite_self, State.loadOf_fixed] | split | with_reducible refine (State.foldl_fixed _ (fun _ _ => ?_) _ _).trans ?_)

@[simp] theorem State.identifyDies_fixed (s : State) (slot d channels : Nat) :
    (State.identifyDies s slot d channels).fixed = s.fixed := by
  unfold State.identifyDies
  repeat' (first | with_reducible rfl | with_reducible refine State.ite_fixed ?_ ?_ | simp only [State.mk_fixed, State.fold_fixed, apply_ite Prod.snd, ite_self, State.chPost_fixed, State.cs_fixed, State.loadOf_fixed, State.setFld_fixed] | split | with_reducible refine (State.foldl_fixed _ (fun _ _ => ?_) _ _).trans ?_)

@[simp] theorem State.setRates_fixed (s : State) (r d dpc : Nat) :
    (State.setRates s r d dpc).fixed = s.fixed := by
  unfold State.setRates
  repeat' (first | with_reducible rfl | with_reducible refine State.ite_fixed ?_ ?_ | simp only [State.mk_fixed, State.fold_fixed, apply_ite Prod.snd, ite_self, State.setFld_fixed] | split | with_reducible refine (State.foldl_fixed _ (fun _ _ => ?_) _ _).trans ?_)

@[simp] theorem State.loseKazino_fixed (s : State) :
    (State.loseKazino s).fixed = s.fixed := by
  unfold State.loseKazino
  repeat' (first | with_reducible rfl | with_reducible refine State.ite_fixed ?_ ?_ | simp only [State.mk_fixed, State.fold_fixed, apply_ite Prod.snd, ite_self] | split | with_reducible refine (State.foldl_fixed _ (fun _ _ => ?_) _ _).trans ?_)

@[simp] theorem State.reloadKazino_fixed (s : State) :
    (State.reloadKazino s).fixed = s.fixed := by
  unfold State.reloadKazino
  repeat' (first | with_reducible rfl | with_reducible refine State.ite_fixed ?_ ?_ | simp only [State.mk_fixed, State.fold_fixed, apply_ite Prod.snd, ite_self, State.loadOf_fixed, State.setFld_fixed] | split | with_reducible refine (State.foldl_fixed _ (fun _ _ => ?_) _ _).trans ?_)

end Sys2Proof.Machine
end

