-- ==== Sys2Proof/Laws/FixPower.lean ====
section
/-! SUPPORT. Operations of Machine/Power.lean that keep the queue, memory, the straps and the OTP. -/

namespace Sys2Proof.Machine

set_option linter.all false

@[simp] theorem State.pw_fixed (s : State) (f : Power → Power) :
    (State.pw s f).fixed = s.fixed := by
  unfold State.pw
  repeat' (first | with_reducible rfl | with_reducible refine State.ite_fixed ?_ ?_ | simp only [State.mk_fixed, State.fold_fixed, apply_ite Prod.snd, ite_self] | split | with_reducible refine (State.foldl_fixed _ (fun _ _ => ?_) _ _).trans ?_)

@[simp] theorem State.aonPost_fixed (s : State) (id : Nat) (items : List (Nat × Nat)) :
    (State.aonPost s id items).fixed = s.fixed := by
  unfold State.aonPost
  repeat' (first | with_reducible rfl | with_reducible refine State.ite_fixed ?_ ?_ | simp only [State.mk_fixed, State.fold_fixed, apply_ite Prod.snd, ite_self, State.post_fixed] | split | with_reducible refine (State.foldl_fixed _ (fun _ _ => ?_) _ _).trans ?_)

@[simp] theorem State.beginMode_fixed (s : State) (tgt : Nat) (wake : Bool) :
    (State.beginMode s tgt wake).fixed = s.fixed := by
  unfold State.beginMode
  repeat' (first | with_reducible rfl | with_reducible refine State.ite_fixed ?_ ?_ | simp only [State.mk_fixed, State.fold_fixed, apply_ite Prod.snd, ite_self, State.pw_fixed, State.setFld_fixed, State.setWord_fixed, State.stageAll_fixed] | split | with_reducible refine (State.foldl_fixed _ (fun _ _ => ?_) _ _).trans ?_)

@[simp] theorem State.startMode_fixed (s : State) :
    (State.startMode s).fixed = s.fixed := by
  unfold State.startMode
  repeat' (first | with_reducible rfl | with_reducible refine State.ite_fixed ?_ ?_ | simp only [State.mk_fixed, State.fold_fixed, apply_ite Prod.snd, ite_self, State.aonPost_fixed, State.beginMode_fixed, State.bump_fixed, State.bumpSat_fixed, State.setFld_fixed] | split | with_reducible refine (State.foldl_fixed _ (fun _ _ => ?_) _ _).trans ?_)

@[simp] theorem State.pstateRequest_fixed (s : State) (mode : Nat) :
    (State.pstateRequest s mode).fixed = s.fixed := by
  unfold State.pstateRequest
  repeat' (first | with_reducible rfl | with_reducible refine State.ite_fixed ?_ ?_ | simp only [State.mk_fixed, State.fold_fixed, apply_ite Prod.snd, ite_self, State.bump_fixed, State.setFld_fixed, State.startMode_fixed] | split | with_reducible refine (State.foldl_fixed _ (fun _ _ => ?_) _ _).trans ?_)

theorem execPstateRequest_fixed (mode : Fin 4) (s : State) :
    Keeps (execPstateRequest mode s) s := by
  unfold execPstateRequest
  repeat' (first | with_reducible rfl | with_reducible refine State.ite_fixed ?_ ?_ | with_reducible refine Keeps.next ?_ | with_reducible refine Keeps.ite ?_ ?_ | simp only [State.mk_fixed, State.fold_fixed, apply_ite Prod.snd, ite_self, State.pstateRequest_fixed] | split | with_reducible refine (State.foldl_fixed _ (fun _ _ => ?_) _ _).trans ?_)

@[simp] theorem State.leaveMode_fixed (s : State) (cur : Nat) :
    (State.leaveMode s cur).fixed = s.fixed := by
  unfold State.leaveMode
  repeat' (first | with_reducible rfl | with_reducible refine State.ite_fixed ?_ ?_ | simp only [State.mk_fixed, State.fold_fixed, apply_ite Prod.snd, ite_self, State.ev_fixed, State.hk_fixed, State.lpeWake_fixed, State.reloadKazino_fixed, State.setWord_fixed] | split | with_reducible refine (State.foldl_fixed _ (fun _ _ => ?_) _ _).trans ?_)

@[simp] theorem State.wakeUp_fixed (s : State) :
    (State.wakeUp s).fixed = s.fixed := by
  unfold State.wakeUp
  repeat' (first | with_reducible rfl | with_reducible refine State.ite_fixed ?_ ?_ | simp only [State.mk_fixed, State.fold_fixed, apply_ite Prod.snd, ite_self, State.beginMode_fixed, State.pw_fixed, State.setFld_fixed] | split | with_reducible refine (State.foldl_fixed _ (fun _ _ => ?_) _ _).trans ?_)

@[simp] theorem State.checkSeals_fixed (s : State) (bad : Nat) :
    (State.checkSeals s bad).fixed = s.fixed := by
  unfold State.checkSeals
  repeat' (first | with_reducible rfl | with_reducible refine State.ite_fixed ?_ ?_ | simp only [State.mk_fixed, State.fold_fixed, apply_ite Prod.snd, ite_self, State.aonPost_fixed, State.setFld_fixed] | split | with_reducible refine (State.foldl_fixed _ (fun _ _ => ?_) _ _).trans ?_)

theorem execLinkPowerStateChange_fixed (p : Port) (lps : Fin 6) (s : State) :
    Keeps (execLinkPowerStateChange p lps s) s := by
  unfold execLinkPowerStateChange
  repeat' (first | with_reducible rfl | with_reducible refine State.ite_fixed ?_ ?_ | with_reducible refine Keeps.next ?_ | with_reducible refine Keeps.ite ?_ ?_ | simp only [State.mk_fixed, State.fold_fixed, apply_ite Prod.snd, ite_self, State.modPort_fixed, State.setFld_fixed, State.wakeUp_fixed] | split | with_reducible refine (State.foldl_fixed _ (fun _ _ => ?_) _ _).trans ?_)

theorem execWakeTimerExpiry_fixed (s : State) :
    Keeps (execWakeTimerExpiry s) s := by
  unfold execWakeTimerExpiry
  repeat' (first | with_reducible rfl | with_reducible refine State.ite_fixed ?_ ?_ | with_reducible refine Keeps.next ?_ | with_reducible refine Keeps.ite ?_ ?_ | simp only [State.mk_fixed, State.fold_fixed, apply_ite Prod.snd, ite_self, State.wakeUp_fixed] | split | with_reducible refine (State.foldl_fixed _ (fun _ _ => ?_) _ _).trans ?_)

theorem execAvsStep_fixed (mv : BitVec 10) (acked : Bool) (s : State) :
    Keeps (execAvsStep mv acked s) s := by
  unfold execAvsStep
  repeat' (first | with_reducible rfl | with_reducible refine State.ite_fixed ?_ ?_ | with_reducible refine Keeps.next ?_ | with_reducible refine Keeps.ite ?_ ?_ | simp only [State.mk_fixed, State.fold_fixed, apply_ite Prod.snd, ite_self, State.aonPost_fixed, State.pw_fixed, State.setFld_fixed] | split | with_reducible refine (State.foldl_fixed _ (fun _ _ => ?_) _ _).trans ?_)

@[simp] theorem State.setPwrcap_fixed (s : State) (high : Bool) :
    (State.setPwrcap s high).fixed = s.fixed := by
  unfold State.setPwrcap
  repeat' (first | with_reducible rfl | with_reducible refine State.ite_fixed ?_ ?_ | simp only [State.mk_fixed, State.fold_fixed, apply_ite Prod.snd, ite_self, State.setFld_fixed, State.showPower_fixed, State.znePost_fixed] | split | with_reducible refine (State.foldl_fixed _ (fun _ _ => ?_) _ _).trans ?_)

theorem execPwrcapAssert_fixed (s : State) :
    Keeps (execPwrcapAssert s) s := by
  unfold execPwrcapAssert
  repeat' (first | with_reducible rfl | with_reducible refine State.ite_fixed ?_ ?_ | with_reducible refine Keeps.next ?_ | with_reducible refine Keeps.ite ?_ ?_ | simp only [State.mk_fixed, State.fold_fixed, apply_ite Prod.snd, ite_self, State.setPwrcap_fixed] | split | with_reducible refine (State.foldl_fixed _ (fun _ _ => ?_) _ _).trans ?_)

theorem execPwrcapRelease_fixed (s : State) :
    Keeps (execPwrcapRelease s) s := by
  unfold execPwrcapRelease
  repeat' (first | with_reducible rfl | with_reducible refine State.ite_fixed ?_ ?_ | with_reducible refine Keeps.next ?_ | with_reducible refine Keeps.ite ?_ ?_ | simp only [State.mk_fixed, State.fold_fixed, apply_ite Prod.snd, ite_self, State.setPwrcap_fixed] | split | with_reducible refine (State.foldl_fixed _ (fun _ _ => ?_) _ _).trans ?_)

@[simp] theorem State.stageDown_fixed (s : State) (rx : Nat) :
    (State.stageDown s rx).fixed = s.fixed := by
  induction rx generalizing s with
  | zero =>
    simp only [State.stageDown]
    repeat' (first | with_reducible rfl | with_reducible refine State.ite_fixed ?_ ?_ | simp only [State.mk_fixed, State.fold_fixed, apply_ite Prod.snd, ite_self, State.stageZone_fixed] | split | with_reducible refine (State.foldl_fixed _ (fun _ _ => ?_) _ _).trans ?_)
  | succ _ ih =>
    simp only [State.stageDown]
    repeat' (first | with_reducible rfl | with_reducible refine State.ite_fixed ?_ ?_ | simp only [State.mk_fixed, State.fold_fixed, apply_ite Prod.snd, ite_self, State.stageZone_fixed, ih] | split | with_reducible refine (State.foldl_fixed _ (fun _ _ => ?_) _ _).trans ?_)

@[simp] theorem State.holdupRecompute_fixed (s : State) :
    (State.holdupRecompute s).fixed = s.fixed := by
  unfold State.holdupRecompute
  repeat' (first | with_reducible rfl | with_reducible refine State.ite_fixed ?_ ?_ | simp only [State.mk_fixed, State.fold_fixed, apply_ite Prod.snd, ite_self, State.aonPost_fixed, State.setFld_fixed, State.showEff_fixed, State.stageDown_fixed] | split | with_reducible refine (State.foldl_fixed _ (fun _ _ => ?_) _ _).trans ?_)

@[simp] theorem State.hucfgWrite_fixed (s : State) (v : Nat) :
    (State.hucfgWrite s v).fixed = s.fixed := by
  unfold State.hucfgWrite
  repeat' (first | with_reducible rfl | with_reducible refine State.ite_fixed ?_ ?_ | simp only [State.mk_fixed, State.fold_fixed, apply_ite Prod.snd, ite_self, State.holdupRecompute_fixed, State.setWord_fixed] | split | with_reducible refine (State.foldl_fixed _ (fun _ _ => ?_) _ _).trans ?_)

theorem execHucfgWrite_fixed (v : W32) (s : State) :
    Keeps (execHucfgWrite v s) s := by
  unfold execHucfgWrite
  repeat' (first | with_reducible rfl | with_reducible refine State.ite_fixed ?_ ?_ | with_reducible refine Keeps.next ?_ | with_reducible refine Keeps.ite ?_ ?_ | simp only [State.mk_fixed, State.fold_fixed, apply_ite Prod.snd, ite_self, State.hucfgWrite_fixed] | split | with_reducible refine (State.foldl_fixed _ (fun _ _ => ?_) _ _).trans ?_)

@[simp] theorem State.lossSlots_fixed (s : State) :
    (State.lossSlots s).fixed = s.fixed := by
  unfold State.lossSlots
  repeat' (first | with_reducible rfl | with_reducible refine State.ite_fixed ?_ ?_ | simp only [State.mk_fixed, State.fold_fixed, apply_ite Prod.snd, ite_self, State.cancelReads_fixed, State.hf_fixed, State.stopWrite_fixed] | split | with_reducible refine (State.foldl_fixed _ (fun _ _ => ?_) _ _).trans ?_)

@[simp] theorem State.lossShelf_fixed (s : State) (dropped : List DieOp) :
    (State.lossShelf s dropped).fixed = s.fixed := by
  unfold State.lossShelf
  repeat' (first | with_reducible rfl | with_reducible refine State.ite_fixed ?_ ?_ | simp only [State.mk_fixed, State.fold_fixed, apply_ite Prod.snd, ite_self, State.shelveStripe_fixed] | split | with_reducible refine (State.foldl_fixed _ (fun _ _ => ?_) _ _).trans ?_)

@[simp] theorem State.lossDies_fixed (s : State) :
    (State.lossDies s).fixed = s.fixed := by
  unfold State.lossDies
  repeat' (first | with_reducible rfl | with_reducible refine State.ite_fixed ?_ ?_ | simp only [State.mk_fixed, State.fold_fixed, apply_ite Prod.snd, ite_self, State.endSuspended_fixed, State.freeStaging_fixed, State.lossShelf_fixed, State.postAbort_fixed, State.resumeOp_fixed, State.zn_fixed] | split | with_reducible refine (State.foldl_fixed _ (fun _ _ => ?_) _ _).trans ?_)

@[simp] theorem State.drivePlo_fixed (s : State) :
    (State.drivePlo s).fixed = s.fixed := by
  unfold State.drivePlo
  repeat' (first | with_reducible rfl | with_reducible refine State.ite_fixed ?_ ?_ | simp only [State.mk_fixed, State.fold_fixed, apply_ite Prod.snd, ite_self] | split | with_reducible refine (State.foldl_fixed _ (fun _ _ => ?_) _ _).trans ?_)

@[simp] theorem State.dropTest_fixed (s : State) :
    (State.dropTest s).fixed = s.fixed := by
  unfold State.dropTest
  repeat' (first | with_reducible rfl | with_reducible refine State.ite_fixed ?_ ?_ | simp only [State.mk_fixed, State.fold_fixed, apply_ite Prod.snd, ite_self, State.lunReset_fixed, State.mgtPost_fixed, State.seqRun_fixed, State.setFld_fixed] | split | with_reducible refine (State.foldl_fixed _ (fun _ _ => ?_) _ _).trans ?_)

@[simp] theorem State.smartLoss_fixed (s : State) :
    (State.smartLoss s).fixed = s.fixed := by
  unfold State.smartLoss
  repeat' (first | with_reducible rfl | with_reducible refine State.ite_fixed ?_ ?_ | simp only [State.mk_fixed, State.fold_fixed, apply_ite Prod.snd, ite_self, State.smartAdd_fixed] | split | with_reducible refine (State.foldl_fixed _ (fun _ _ => ?_) _ _).trans ?_)

end Sys2Proof.Machine
end

