-- ==== Sys2Proof/Laws/FixAdmin.lean ====
section
/-! SUPPORT. Operations of Machine/Admin.lean that keep the queue, memory, the straps and the OTP. -/

namespace Sys2Proof.Machine

set_option linter.all false

@[simp] theorem State.createCq_fixed (s : State) (fn : Nat) (e : Sqe) :
    (State.createCq s fn e).fixed = s.fixed := by
  unfold State.createCq
  repeat' (first | with_reducible rfl | with_reducible refine State.ite_fixed ?_ ?_ | simp only [State.mk_fixed, State.fold_fixed, apply_ite Prod.snd, ite_self, State.adminDone_fixed, State.modFunc_fixed] | split | with_reducible refine (State.foldl_fixed _ (fun _ _ => ?_) _ _).trans ?_)

theorem execCreateIoCq_fixed (fn : FnId) (e : Sqe) (s : State) :
    Keeps (execCreateIoCq fn e s) s := by
  unfold execCreateIoCq
  repeat' (first | with_reducible rfl | with_reducible refine State.ite_fixed ?_ ?_ | with_reducible refine Keeps.next ?_ | with_reducible refine Keeps.ite ?_ ?_ | simp only [State.mk_fixed, State.fold_fixed, apply_ite Prod.snd, ite_self, State.createCq_fixed] | with_reducible refine State.admin_fixed (fun _ => ?_) | split | with_reducible refine (State.foldl_fixed _ (fun _ _ => ?_) _ _).trans ?_)

@[simp] theorem State.createSq_fixed (s : State) (fn : Nat) (e : Sqe) :
    (State.createSq s fn e).fixed = s.fixed := by
  unfold State.createSq
  repeat' (first | with_reducible rfl | with_reducible refine State.ite_fixed ?_ ?_ | simp only [State.mk_fixed, State.fold_fixed, apply_ite Prod.snd, ite_self, State.adminDone_fixed, State.modFunc_fixed] | split | with_reducible refine (State.foldl_fixed _ (fun _ _ => ?_) _ _).trans ?_)

theorem execCreateIoSq_fixed (fn : FnId) (e : Sqe) (s : State) :
    Keeps (execCreateIoSq fn e s) s := by
  unfold execCreateIoSq
  repeat' (first | with_reducible rfl | with_reducible refine State.ite_fixed ?_ ?_ | with_reducible refine Keeps.next ?_ | with_reducible refine Keeps.ite ?_ ?_ | simp only [State.mk_fixed, State.fold_fixed, apply_ite Prod.snd, ite_self, State.createSq_fixed] | with_reducible refine State.admin_fixed (fun _ => ?_) | split | with_reducible refine (State.foldl_fixed _ (fun _ _ => ?_) _ _).trans ?_)

theorem execDeleteIoCq_fixed (fn : FnId) (e : Sqe) (s : State) :
    Keeps (execDeleteIoCq fn e s) s := by
  unfold execDeleteIoCq
  repeat' (first | with_reducible rfl | with_reducible refine State.ite_fixed ?_ ?_ | with_reducible refine Keeps.next ?_ | with_reducible refine Keeps.ite ?_ ?_ | simp only [State.mk_fixed, State.fold_fixed, apply_ite Prod.snd, ite_self, State.adminDone_fixed, State.modFunc_fixed] | with_reducible refine State.admin_fixed (fun _ => ?_) | split | with_reducible refine (State.foldl_fixed _ (fun _ _ => ?_) _ _).trans ?_)

theorem execDeleteIoSq_fixed (fn : FnId) (e : Sqe) (s : State) :
    Keeps (execDeleteIoSq fn e s) s := by
  unfold execDeleteIoSq
  repeat' (first | with_reducible rfl | with_reducible refine State.ite_fixed ?_ ?_ | with_reducible refine Keeps.next ?_ | with_reducible refine Keeps.ite ?_ ?_ | simp only [State.mk_fixed, State.fold_fixed, apply_ite Prod.snd, ite_self, State.adminDone_fixed, State.hf_fixed, State.modFunc_fixed] | with_reducible refine State.admin_fixed (fun _ => ?_) | split | with_reducible refine (State.foldl_fixed _ (fun _ _ => ?_) _ _).trans ?_)

theorem execAbort_fixed (fn : FnId) (e : Sqe) (s : State) :
    Keeps (execAbort fn e s) s := by
  unfold execAbort
  repeat' (first | with_reducible rfl | with_reducible refine State.ite_fixed ?_ ?_ | with_reducible refine Keeps.next ?_ | with_reducible refine Keeps.ite ?_ ?_ | simp only [State.mk_fixed, State.fold_fixed, apply_ite Prod.snd, ite_self, State.adminDone_fixed, State.cancelReads_fixed, State.complete_fixed, State.modFunc_fixed, State.postCpl_fixed, State.wakeConv_fixed] | with_reducible refine State.admin_fixed (fun _ => ?_) | split | with_reducible refine (State.foldl_fixed _ (fun _ _ => ?_) _ _).trans ?_)

theorem execAsyncEventRequest_fixed (fn : FnId) (e : Sqe) (s : State) :
    Keeps (execAsyncEventRequest fn e s) s := by
  unfold execAsyncEventRequest
  repeat' (first | with_reducible rfl | with_reducible refine State.ite_fixed ?_ ?_ | with_reducible refine Keeps.next ?_ | with_reducible refine Keeps.ite ?_ ?_ | simp only [State.mk_fixed, State.fold_fixed, apply_ite Prod.snd, ite_self, State.adminDone_fixed, State.modFunc_fixed] | with_reducible refine State.admin_fixed (fun _ => ?_) | split | with_reducible refine (State.foldl_fixed _ (fun _ _ => ?_) _ _).trans ?_)

@[simp] theorem State.setPs_fixed (s : State) (ps : Nat) :
    (State.setPs s ps).fixed = s.fixed := by
  unfold State.setPs
  repeat' (first | with_reducible rfl | with_reducible refine State.ite_fixed ?_ ?_ | simp only [State.mk_fixed, State.fold_fixed, apply_ite Prod.snd, ite_self, State.pstateRequest_fixed, State.setFld_fixed, State.showPower_fixed] | split | with_reducible refine (State.foldl_fixed _ (fun _ _ => ?_) _ _).trans ?_)

@[simp] theorem State.setFdp_fixed (s : State) (fn : Nat) (e : Sqe) :
    (State.setFdp s fn e).fixed = s.fixed := by
  unfold State.setFdp
  repeat' (first | with_reducible rfl | with_reducible refine State.ite_fixed ?_ ?_ | simp only [State.mk_fixed, State.fold_fixed, apply_ite Prod.snd, ite_self, State.adminDone_fixed, State.zn_fixed] | split | with_reducible refine (State.foldl_fixed _ (fun _ _ => ?_) _ _).trans ?_)

@[simp] theorem State.setFdpEvents_fixed (s : State) (fn : Nat) (e : Sqe) :
    (State.setFdpEvents s fn e).fixed = s.fixed := by
  unfold State.setFdpEvents
  repeat' (first | with_reducible rfl | with_reducible refine State.ite_fixed ?_ ?_ | simp only [State.mk_fixed, State.fold_fixed, apply_ite Prod.snd, ite_self, State.adminDone_fixed, State.hf_fixed] | split | with_reducible refine (State.foldl_fixed _ (fun _ _ => ?_) _ _).trans ?_)

@[simp] theorem State.setTimestamp_fixed (s : State) (v : Nat) :
    (State.setTimestamp s v).fixed = s.fixed := by
  unfold State.setTimestamp
  repeat' (first | with_reducible rfl | with_reducible refine State.ite_fixed ?_ ?_ | simp only [State.mk_fixed, State.fold_fixed, apply_ite Prod.snd, ite_self, State.hf_fixed] | split | with_reducible refine (State.foldl_fixed _ (fun _ _ => ?_) _ _).trans ?_)

@[simp] theorem State.setQueues_fixed (s : State) (fn : Nat) (e : Sqe) :
    (State.setQueues s fn e).fixed = s.fixed := by
  unfold State.setQueues
  repeat' (first | with_reducible rfl | with_reducible refine State.ite_fixed ?_ ?_ | simp only [State.mk_fixed, State.fold_fixed, apply_ite Prod.snd, ite_self, State.adminDone_fixed, State.modFunc_fixed, State.setFld_fixed] | split | with_reducible refine (State.foldl_fixed _ (fun _ _ => ?_) _ _).trans ?_)

@[simp] theorem State.setOrdering_fixed (s : State) (fn : Nat) (e : Sqe) :
    (State.setOrdering s fn e).fixed = s.fixed := by
  unfold State.setOrdering
  repeat' (first | with_reducible rfl | with_reducible refine State.ite_fixed ?_ ?_ | simp only [State.mk_fixed, State.fold_fixed, apply_ite Prod.snd, ite_self, State.adminDone_fixed, State.modFunc_fixed] | split | with_reducible refine (State.foldl_fixed _ (fun _ _ => ?_) _ _).trans ?_)

@[simp] theorem State.setFeatures_fixed (s : State) (fn : Nat) (e : Sqe) :
    (State.setFeatures s fn e).fixed = s.fixed := by
  unfold State.setFeatures
  repeat' (first | with_reducible rfl | with_reducible refine State.ite_fixed ?_ ?_ | simp only [State.mk_fixed, State.fold_fixed, apply_ite Prod.snd, ite_self, State.adminDone_fixed, State.hf_fixed, State.modFunc_fixed, State.setFdp_fixed, State.setFdpEvents_fixed, State.setOrdering_fixed, State.setPs_fixed, State.setQueues_fixed, State.setTimestamp_fixed, State.toMembers_fixed] | split | with_reducible refine (State.foldl_fixed _ (fun _ _ => ?_) _ _).trans ?_)

theorem execSetFeatures_fixed (fn : FnId) (e : Sqe) (s : State) :
    Keeps (execSetFeatures fn e s) s := by
  unfold execSetFeatures
  repeat' (first | with_reducible rfl | with_reducible refine State.ite_fixed ?_ ?_ | with_reducible refine Keeps.next ?_ | with_reducible refine Keeps.ite ?_ ?_ | simp only [State.mk_fixed, State.fold_fixed, apply_ite Prod.snd, ite_self, State.setFeatures_fixed] | with_reducible refine State.admin_fixed (fun _ => ?_) | split | with_reducible refine (State.foldl_fixed _ (fun _ _ => ?_) _ _).trans ?_)

@[simp] theorem State.giveFeature_fixed (s : State) (fn : Nat) (e : Sqe) (now dflt : Nat) (data : List Byte) :
    (State.giveFeature s fn e now dflt data).fixed = s.fixed := by
  unfold State.giveFeature
  repeat' (first | with_reducible rfl | with_reducible refine State.ite_fixed ?_ ?_ | simp only [State.mk_fixed, State.fold_fixed, apply_ite Prod.snd, ite_self, State.adminDone_fixed] | split | with_reducible refine (State.foldl_fixed _ (fun _ _ => ?_) _ _).trans ?_)

@[simp] theorem State.getFeatures_fixed (s : State) (fn : Nat) (e : Sqe) :
    (State.getFeatures s fn e).fixed = s.fixed := by
  unfold State.getFeatures
  repeat' (first | with_reducible rfl | with_reducible refine State.ite_fixed ?_ ?_ | simp only [State.mk_fixed, State.fold_fixed, apply_ite Prod.snd, ite_self, State.adminDone_fixed, State.giveFeature_fixed] | split | with_reducible refine (State.foldl_fixed _ (fun _ _ => ?_) _ _).trans ?_)

theorem execGetFeatures_fixed (fn : FnId) (e : Sqe) (s : State) :
    Keeps (execGetFeatures fn e s) s := by
  unfold execGetFeatures
  repeat' (first | with_reducible rfl | with_reducible refine State.ite_fixed ?_ ?_ | with_reducible refine Keeps.next ?_ | with_reducible refine Keeps.ite ?_ ?_ | simp only [State.mk_fixed, State.fold_fixed, apply_ite Prod.snd, ite_self, State.getFeatures_fixed] | with_reducible refine State.admin_fixed (fun _ => ?_) | split | with_reducible refine (State.foldl_fixed _ (fun _ _ => ?_) _ _).trans ?_)

end Sys2Proof.Machine
end

