-- ==== Sys2Proof/Laws/FixLogs.lean ====
section
/-! SUPPORT. Operations of Machine/Logs.lean that keep the queue, memory, the straps and the OTP. -/

namespace Sys2Proof.Machine

set_option linter.all false

@[simp] theorem State.smartLog_fixed (s : State) (fn : Nat) :
    (State.smartLog s fn).2.fixed = s.fixed := by
  unfold State.smartLog
  repeat' (first | with_reducible rfl | with_reducible refine State.ite_fixed ?_ ?_ | simp only [State.mk_fixed, State.fold_fixed, apply_ite Prod.snd, ite_self] | split | with_reducible refine (State.foldl_fixed _ (fun _ _ => ?_) _ _).trans ?_)

theorem State.smartLog_fixed_of {s : State} {fn : Nat} {x0} {t : State} (h : State.smartLog s fn = (x0, t)) : t.fixed = s.fixed := by
  have := State.smartLog_fixed s fn
  rw [h] at this
  exact this

@[simp] theorem State.groupLog_fixed (s : State) (g : Nat) :
    (State.groupLog s g).2.fixed = s.fixed := by
  unfold State.groupLog
  repeat' (first | with_reducible rfl | with_reducible refine State.ite_fixed ?_ ?_ | simp only [State.mk_fixed, State.fold_fixed, apply_ite Prod.snd, ite_self] | split | with_reducible refine (State.foldl_fixed _ (fun _ _ => ?_) _ _).trans ?_)

theorem State.groupLog_fixed_of {s : State} {g : Nat} {x0} {t : State} (h : State.groupLog s g = (x0, t)) : t.fixed = s.fixed := by
  have := State.groupLog_fixed s g
  rw [h] at this
  exact this

@[simp] theorem State.groupEvents_fixed (s : State) :
    (State.groupEvents s).fixed = s.fixed := by
  unfold State.groupEvents
  repeat' (first | with_reducible rfl | with_reducible refine State.ite_fixed ?_ ?_ | simp only [State.mk_fixed, State.fold_fixed, apply_ite Prod.snd, ite_self, State.hf_fixed, State.notify_fixed] | split | with_reducible refine (State.foldl_fixed _ (fun _ _ => ?_) _ _).trans ?_)

@[simp] theorem State.givePage_fixed (s : State) (fn : Nat) (e : Sqe) (p : List Byte) :
    (State.givePage s fn e p).fixed = s.fixed := by
  unfold State.givePage
  repeat' (first | with_reducible rfl | with_reducible refine State.ite_fixed ?_ ?_ | simp only [State.mk_fixed, State.fold_fixed, apply_ite Prod.snd, ite_self, State.adminData_fixed] | split | with_reducible refine (State.foldl_fixed _ (fun _ _ => ?_) _ _).trans ?_)

theorem State.giveGroup_fixed {s : State} {fn : Nat} {e : Sqe} {f : Nat → State → List Byte × State} {fdp : Bool} (hf : ∀ v0 v1, (f v0 v1).2.fixed = v1.fixed) :
    (State.giveGroup s fn e f fdp).fixed = s.fixed := by
  unfold State.giveGroup
  repeat' (first | with_reducible rfl | with_reducible refine State.ite_fixed ?_ ?_ | simp only [State.mk_fixed, State.fold_fixed, apply_ite Prod.snd, ite_self, hf, State.adminDone_fixed, State.givePage_fixed] | split | with_reducible refine (State.foldl_fixed _ (fun _ _ => ?_) _ _).trans ?_)

@[simp] theorem State.giveTens_fixed (s : State) (fn : Nat) (e : Sqe) (f : List Nat → List Byte) :
    (State.giveTens s fn e f).fixed = s.fixed := by
  unfold State.giveTens
  repeat' (first | with_reducible rfl | with_reducible refine State.ite_fixed ?_ ?_ | simp only [State.mk_fixed, State.fold_fixed, apply_ite Prod.snd, ite_self, State.adminDone_fixed, State.givePage_fixed] | split | with_reducible refine (State.foldl_fixed _ (fun _ _ => ?_) _ _).trans ?_)

@[simp] theorem State.getLogPage_fixed (s : State) (fn : Nat) (e : Sqe) :
    (State.getLogPage s fn e).fixed = s.fixed := by
  unfold State.getLogPage
  repeat' (first | with_reducible rfl | with_reducible refine State.ite_fixed ?_ ?_ | simp only [State.mk_fixed, State.fold_fixed, apply_ite Prod.snd, ite_self, State.adminDone_fixed, State.drawFree_fixed, State.givePage_fixed, State.giveTens_fixed, State.groupLog_fixed, State.hf_fixed, State.modFunc_fixed, State.recorderAccess_fixed, State.smartLog_fixed] | with_reducible refine (State.drawFree_fixed_of (by assumption)).trans ?_ | with_reducible refine (State.giveGroup_fixed (fun _ _ => ?_)).trans ?_ | with_reducible refine (State.groupLog_fixed_of (by assumption)).trans ?_ | with_reducible refine (State.recorderAccess_fixed_of (by assumption)).trans ?_ | with_reducible refine (State.smartLog_fixed_of (by assumption)).trans ?_ | split | with_reducible refine (State.foldl_fixed _ (fun _ _ => ?_) _ _).trans ?_)

theorem execGetLogPage_fixed (fn : FnId) (e : Sqe) (s : State) :
    Keeps (execGetLogPage fn e s) s := by
  unfold execGetLogPage
  repeat' (first | with_reducible rfl | with_reducible refine State.ite_fixed ?_ ?_ | with_reducible refine Keeps.next ?_ | with_reducible refine Keeps.ite ?_ ?_ | simp only [State.mk_fixed, State.fold_fixed, apply_ite Prod.snd, ite_self, State.getLogPage_fixed] | with_reducible refine State.adminTunnel_fixed (fun _ => ?_) | split | with_reducible refine (State.foldl_fixed _ (fun _ _ => ?_) _ _).trans ?_)

end Sys2Proof.Machine
end

