-- ==== Sys2Proof/Laws/FixIdentify.lean ====
section
/-! SUPPORT. Operations of Machine/Identify.lean that keep the queue, memory, the straps and the OTP. -/

namespace Sys2Proof.Machine

set_option linter.all false

@[simp] theorem State.give4k_fixed (s : State) (fn : Nat) (e : Sqe) (p : List Byte) :
    (State.give4k s fn e p).fixed = s.fixed := by
  unfold State.give4k
  repeat' (first | with_reducible rfl | with_reducible refine State.ite_fixed ?_ ?_ | simp only [State.mk_fixed, State.fold_fixed, apply_ite Prod.snd, ite_self, State.adminData_fixed] | split | with_reducible refine (State.foldl_fixed _ (fun _ _ => ?_) _ _).trans ?_)

@[simp] theorem State.identify_fixed (s : State) (fn : Nat) (e : Sqe) :
    (State.identify s fn e).fixed = s.fixed := by
  unfold State.identify
  repeat' (first | with_reducible rfl | with_reducible refine State.ite_fixed ?_ ?_ | simp only [State.mk_fixed, State.fold_fixed, apply_ite Prod.snd, ite_self, State.adminDone_fixed, State.give4k_fixed] | split | with_reducible refine (State.foldl_fixed _ (fun _ _ => ?_) _ _).trans ?_)

theorem execIdentify_fixed (fn : FnId) (e : Sqe) (s : State) :
    Keeps (execIdentify fn e s) s := by
  unfold execIdentify
  repeat' (first | with_reducible rfl | with_reducible refine State.ite_fixed ?_ ?_ | with_reducible refine Keeps.next ?_ | with_reducible refine Keeps.ite ?_ ?_ | simp only [State.mk_fixed, State.fold_fixed, apply_ite Prod.snd, ite_self, State.identify_fixed] | with_reducible refine State.adminTunnel_fixed (fun _ => ?_) | split | with_reducible refine (State.foldl_fixed _ (fun _ _ => ?_) _ _).trans ?_)

end Sys2Proof.Machine
end

