-- ==== Sys2Proof/Laws/FixNsAdmin.lean ====
section
/-! SUPPORT. Operations of Machine/NsAdmin.lean that keep the queue, memory, the straps and the OTP. -/

namespace Sys2Proof.Machine

set_option linter.all false

@[simp] theorem State.needTwk_fixed (s : State) (ten : Nat) :
    (State.needTwk s ten).fixed = s.fixed := by
  unfold State.needTwk
  repeat' (first | with_reducible rfl | with_reducible refine State.ite_fixed ?_ ?_ | simp only [State.mk_fixed, State.fold_fixed, apply_ite Prod.snd, ite_self, State.genKey_fixed, State.sc_fixed, State.wrapRecord_fixed] | split | with_reducible refine (State.foldl_fixed _ (fun _ _ => ?_) _ _).trans ?_)

@[simp] theorem State.firstKey_fixed (s : State) (n ten : Nat) :
    (State.firstKey s n ten).fixed = s.fixed := by
  unfold State.firstKey
  repeat' (first | with_reducible rfl | with_reducible refine State.ite_fixed ?_ ?_ | simp only [State.mk_fixed, State.fold_fixed, apply_ite Prod.snd, ite_self, State.genKey_fixed, State.needTwk_fixed, State.setCur_fixed, State.setWord_fixed, State.wrapRecord_fixed] | split | with_reducible refine (State.foldl_fixed _ (fun _ _ => ?_) _ _).trans ?_)

@[simp] theorem State.makeNs_fixed (s : State) (nsid : Nat) (a : NsAsk) :
    (State.makeNs s nsid a).fixed = s.fixed := by
  unfold State.makeNs
  repeat' (first | with_reducible rfl | with_reducible refine State.ite_fixed ?_ ?_ | simp only [State.mk_fixed, State.fold_fixed, apply_ite Prod.snd, ite_self, State.firstKey_fixed, State.hf_fixed, State.setWord_fixed, State.zn_fixed] | split | with_reducible refine (State.foldl_fixed _ (fun _ _ => ?_) _ _).trans ?_)

@[simp] theorem State.noteNs_fixed (s : State) (nsid : Nat) (a : NsAsk) :
    (State.noteNs s nsid a).fixed = s.fixed := by
  unfold State.noteNs
  repeat' (first | with_reducible rfl | with_reducible refine State.ite_fixed ?_ ?_ | simp only [State.mk_fixed, State.fold_fixed, apply_ite Prod.snd, ite_self, State.hf_fixed] | split | with_reducible refine (State.foldl_fixed _ (fun _ _ => ?_) _ _).trans ?_)

@[simp] theorem State.createNs_fixed (s : State) (fn : Nat) (e : Sqe) :
    (State.createNs s fn e).fixed = s.fixed := by
  unfold State.createNs
  repeat' (first | with_reducible rfl | with_reducible refine State.ite_fixed ?_ ?_ | simp only [State.mk_fixed, State.fold_fixed, apply_ite Prod.snd, ite_self, State.adminDone_fixed, State.askNode_fixed, State.hf_fixed, State.makeNs_fixed, State.noteNs_fixed] | split | with_reducible refine (State.foldl_fixed _ (fun _ _ => ?_) _ _).trans ?_)

@[simp] theorem State.nsNotice_fixed (s : State) (fns : List Nat) (nsid : Nat) :
    (State.nsNotice s fns nsid).fixed = s.fixed := by
  unfold State.nsNotice
  repeat' (first | with_reducible rfl | with_reducible refine State.ite_fixed ?_ ?_ | simp only [State.mk_fixed, State.fold_fixed, apply_ite Prod.snd, ite_self, State.modFunc_fixed, State.notify_fixed] | split | with_reducible refine (State.foldl_fixed _ (fun _ _ => ?_) _ _).trans ?_)

@[simp] theorem State.dropNs_fixed (s : State) (n : Nat) :
    (State.dropNs s n).fixed = s.fixed := by
  unfold State.dropNs
  repeat' (first | with_reducible rfl | with_reducible refine State.ite_fixed ?_ ?_ | simp only [State.mk_fixed, State.fold_fixed, apply_ite Prod.snd, ite_self, State.cs_fixed, State.destroyKeys_fixed, State.eraseData_fixed, State.hf_fixed, State.nsNotice_fixed, State.setWord_fixed, State.zn_fixed] | split | with_reducible refine (State.foldl_fixed _ (fun _ _ => ?_) _ _).trans ?_)

@[simp] theorem State.dropAll_fixed (s : State) (ns : List Nat) :
    (State.dropAll s ns).fixed = s.fixed := by
  unfold State.dropAll
  repeat' (first | with_reducible rfl | with_reducible refine State.ite_fixed ?_ ?_ | simp only [State.mk_fixed, State.fold_fixed, apply_ite Prod.snd, ite_self, State.dropNs_fixed] | split | with_reducible refine (State.foldl_fixed _ (fun _ _ => ?_) _ _).trans ?_)

@[simp] theorem State.deleteNs_fixed (s : State) (fn : Nat) (e : Sqe) :
    (State.deleteNs s fn e).fixed = s.fixed := by
  unfold State.deleteNs
  repeat' (first | with_reducible rfl | with_reducible refine State.ite_fixed ?_ ?_ | simp only [State.mk_fixed, State.fold_fixed, apply_ite Prod.snd, ite_self, State.adminDone_fixed, State.askNode_fixed, State.dropAll_fixed, State.sendAdmin_fixed] | split | with_reducible refine (State.foldl_fixed _ (fun _ _ => ?_) _ _).trans ?_)

theorem execNamespaceManagement_fixed (fn : FnId) (e : Sqe) (s : State) :
    Keeps (execNamespaceManagement fn e s) s := by
  unfold execNamespaceManagement
  repeat' (first | with_reducible rfl | with_reducible refine State.ite_fixed ?_ ?_ | with_reducible refine Keeps.next ?_ | with_reducible refine Keeps.ite ?_ ?_ | simp only [State.mk_fixed, State.fold_fixed, apply_ite Prod.snd, ite_self, State.adminDone_fixed, State.createNs_fixed, State.deleteNs_fixed] | with_reducible refine State.admin_fixed (fun _ => ?_) | split | with_reducible refine (State.foldl_fixed _ (fun _ _ => ?_) _ _).trans ?_)

@[simp] theorem State.putAttach_fixed (s : State) (n : Nat) (x : Ns) (ents : List Nat) (attach : Bool) :
    (State.putAttach s n x ents attach).fixed = s.fixed := by
  unfold State.putAttach
  repeat' (first | with_reducible rfl | with_reducible refine State.ite_fixed ?_ ?_ | simp only [State.mk_fixed, State.fold_fixed, apply_ite Prod.snd, ite_self, State.hf_fixed, State.nsNotice_fixed] | split | with_reducible refine (State.foldl_fixed _ (fun _ _ => ?_) _ _).trans ?_)

@[simp] theorem State.attachNs_fixed (s : State) (fn : Nat) (e : Sqe) (attach : Bool) :
    (State.attachNs s fn e attach).fixed = s.fixed := by
  unfold State.attachNs
  repeat' (first | with_reducible rfl | with_reducible refine State.ite_fixed ?_ ?_ | simp only [State.mk_fixed, State.fold_fixed, apply_ite Prod.snd, ite_self, State.adminDone_fixed, State.askNode_fixed, State.putAttach_fixed] | split | with_reducible refine (State.foldl_fixed _ (fun _ _ => ?_) _ _).trans ?_)

@[simp] theorem State.afterAdmin_fixed (s : State) (a : AdmFwd) (st : Status) :
    (State.afterAdmin s a st).fixed = s.fixed := by
  unfold State.afterAdmin
  repeat' (first | with_reducible rfl | with_reducible refine State.ite_fixed ?_ ?_ | simp only [State.mk_fixed, State.fold_fixed, apply_ite Prod.snd, ite_self, State.dropAll_fixed, State.hf_fixed, State.putAttach_fixed] | split | with_reducible refine (State.foldl_fixed _ (fun _ _ => ?_) _ _).trans ?_)

theorem execNamespaceAttachment_fixed (fn : FnId) (e : Sqe) (s : State) :
    Keeps (execNamespaceAttachment fn e s) s := by
  unfold execNamespaceAttachment
  repeat' (first | with_reducible rfl | with_reducible refine State.ite_fixed ?_ ?_ | with_reducible refine Keeps.next ?_ | with_reducible refine Keeps.ite ?_ ?_ | simp only [State.mk_fixed, State.fold_fixed, apply_ite Prod.snd, ite_self, State.adminDone_fixed, State.attachNs_fixed] | with_reducible refine State.admin_fixed (fun _ => ?_) | split | with_reducible refine (State.foldl_fixed _ (fun _ _ => ?_) _ _).trans ?_)

@[simp] theorem State.serveEntropy_fixed (s : State) :
    (State.serveEntropy s).fixed = s.fixed := by
  unfold State.serveEntropy
  repeat' (first | with_reducible rfl | with_reducible refine State.ite_fixed ?_ ?_ | simp only [State.mk_fixed, State.fold_fixed, apply_ite Prod.snd, ite_self, State.createNs_fixed, State.eraseStep_fixed, State.hf_fixed, State.tryRoll_fixed] | split | with_reducible refine (State.foldl_fixed _ (fun _ _ => ?_) _ _).trans ?_)

theorem execEntropyRestartTestPass_fixed (s : State) :
    Keeps (execEntropyRestartTestPass s) s := by
  unfold execEntropyRestartTestPass
  repeat' (first | with_reducible rfl | with_reducible refine State.ite_fixed ?_ ?_ | with_reducible refine Keeps.next ?_ | with_reducible refine Keeps.ite ?_ ?_ | simp only [State.mk_fixed, State.fold_fixed, apply_ite Prod.snd, ite_self, State.serveEntropy_fixed, State.setFld_fixed] | split | with_reducible refine (State.foldl_fixed _ (fun _ _ => ?_) _ _).trans ?_)

theorem execEntropyWaitTimeout_fixed (s : State) :
    Keeps (execEntropyWaitTimeout s) s := by
  unfold execEntropyWaitTimeout
  repeat' (first | with_reducible rfl | with_reducible refine State.ite_fixed ?_ ?_ | with_reducible refine Keeps.next ?_ | with_reducible refine Keeps.ite ?_ ?_ | simp only [State.mk_fixed, State.fold_fixed, apply_ite Prod.snd, ite_self, State.adminDone_fixed, State.hf_fixed] | split | with_reducible refine (State.foldl_fixed _ (fun _ _ => ?_) _ _).trans ?_)

theorem execDirectiveSend_fixed (fn : FnId) (e : Sqe) (s : State) :
    Keeps (execDirectiveSend fn e s) s := by
  unfold execDirectiveSend
  repeat' (first | with_reducible rfl | with_reducible refine State.ite_fixed ?_ ?_ | with_reducible refine Keeps.next ?_ | with_reducible refine Keeps.ite ?_ ?_ | simp only [State.mk_fixed, State.fold_fixed, apply_ite Prod.snd, ite_self, State.adminDone_fixed] | with_reducible refine State.admin_fixed (fun _ => ?_) | split | with_reducible refine (State.foldl_fixed _ (fun _ _ => ?_) _ _).trans ?_)

theorem execDirectiveReceive_fixed (fn : FnId) (e : Sqe) (s : State) :
    Keeps (execDirectiveReceive fn e s) s := by
  unfold execDirectiveReceive
  repeat' (first | with_reducible rfl | with_reducible refine State.ite_fixed ?_ ?_ | with_reducible refine Keeps.next ?_ | with_reducible refine Keeps.ite ?_ ?_ | simp only [State.mk_fixed, State.fold_fixed, apply_ite Prod.snd, ite_self, State.adminData_fixed, State.adminDone_fixed] | with_reducible refine State.admin_fixed (fun _ => ?_) | split | with_reducible refine (State.foldl_fixed _ (fun _ _ => ?_) _ _).trans ?_)

theorem execVirtualizationManagement_fixed (fn : FnId) (e : Sqe) (s : State) :
    Keeps (execVirtualizationManagement fn e s) s := by
  unfold execVirtualizationManagement
  repeat' (first | with_reducible rfl | with_reducible refine State.ite_fixed ?_ ?_ | with_reducible refine Keeps.next ?_ | with_reducible refine Keeps.ite ?_ ?_ | simp only [State.mk_fixed, State.fold_fixed, apply_ite Prod.snd, ite_self, State.adminDone_fixed, State.modFunc_fixed, State.resetFunction_fixed] | with_reducible refine State.admin_fixed (fun _ => ?_) | split | with_reducible refine (State.foldl_fixed _ (fun _ _ => ?_) _ _).trans ?_)

end Sys2Proof.Machine
end

