-- ==== Sys2Proof/Laws/FixFirmware.lean ====
section
/-! SUPPORT. Operations of Machine/Firmware.lean that keep the queue, memory, the straps and the OTP. -/

namespace Sys2Proof.Machine

set_option linter.all false

@[simp] theorem State.usePll_fixed (s : State) (i : Nat) :
    (State.usePll s i).fixed = s.fixed := by
  unfold State.usePll
  repeat' (first | with_reducible rfl | with_reducible refine State.ite_fixed ?_ ?_ | simp only [State.mk_fixed, State.fold_fixed, apply_ite Prod.snd, ite_self, State.setFld_fixed] | split | with_reducible refine (State.foldl_fixed _ (fun _ _ => ?_) _ _).trans ?_)

@[simp] theorem State.imageDownload_fixed (s : State) (fn : Nat) (e : Sqe) :
    (State.imageDownload s fn e).fixed = s.fixed := by
  unfold State.imageDownload
  repeat' (first | with_reducible rfl | with_reducible refine State.ite_fixed ?_ ?_ | simp only [State.mk_fixed, State.fold_fixed, apply_ite Prod.snd, ite_self, State.adminDone_fixed, State.bt_fixed] | split | with_reducible refine (State.foldl_fixed _ (fun _ _ => ?_) _ _).trans ?_)

theorem execFirmwareImageDownload_fixed (fn : FnId) (e : Sqe) (s : State) :
    Keeps (execFirmwareImageDownload fn e s) s := by
  unfold execFirmwareImageDownload
  repeat' (first | with_reducible rfl | with_reducible refine State.ite_fixed ?_ ?_ | with_reducible refine Keeps.next ?_ | with_reducible refine Keeps.ite ?_ ?_ | simp only [State.mk_fixed, State.fold_fixed, apply_ite Prod.snd, ite_self, State.imageDownload_fixed] | with_reducible refine State.adminTunnel_fixed (fun _ => ?_) | split | with_reducible refine (State.foldl_fixed _ (fun _ _ => ?_) _ _).trans ?_)

@[simp] theorem State.slotEvent_fixed (s : State) (k ca : Nat) :
    (State.slotEvent s k ca).fixed = s.fixed := by
  unfold State.slotEvent
  repeat' (first | with_reducible rfl | with_reducible refine State.ite_fixed ?_ ?_ | simp only [State.mk_fixed, State.fold_fixed, apply_ite Prod.snd, ite_self, State.post_fixed] | split | with_reducible refine (State.foldl_fixed _ (fun _ _ => ?_) _ _).trans ?_)

@[simp] theorem State.activationNotice_fixed (s : State) :
    (State.activationNotice s).fixed = s.fixed := by
  unfold State.activationNotice
  repeat' (first | with_reducible rfl | with_reducible refine State.ite_fixed ?_ ?_ | simp only [State.mk_fixed, State.fold_fixed, apply_ite Prod.snd, ite_self, State.notify_fixed] | split | with_reducible refine (State.foldl_fixed _ (fun _ _ => ?_) _ _).trans ?_)

end Sys2Proof.Machine
end

