-- ==== Sys2Proof/Laws/FixDram.lean ====
section
/-! SUPPORT. Operations of Machine/Dram.lean that keep the queue, memory, the straps and the OTP. -/

namespace Sys2Proof.Machine

set_option linter.all false

@[simp] theorem State.dr_fixed (s : State) (f : Dram → Dram) :
    (State.dr s f).fixed = s.fixed := by
  unfold State.dr
  repeat' (first | with_reducible rfl | with_reducible refine State.ite_fixed ?_ ?_ | simp only [State.mk_fixed, State.fold_fixed, apply_ite Prod.snd, ite_self] | split | with_reducible refine (State.foldl_fixed _ (fun _ _ => ?_) _ _).trans ?_)

@[simp] theorem State.portError_fixed (s : State) (isl : Nat) :
    (State.portError s isl).fixed = s.fixed := by
  unfold State.portError
  repeat' (first | with_reducible rfl | with_reducible refine State.ite_fixed ?_ ?_ | simp only [State.mk_fixed, State.fold_fixed, apply_ite Prod.snd, ite_self] | split | with_reducible refine (State.foldl_fixed _ (fun _ _ => ?_) _ _).trans ?_)

@[simp] theorem State.blockedTrap_fixed (s : State) (c a : Nat) (k : TrapKind) :
    (State.blockedTrap s c a k).fixed = s.fixed := by
  unfold State.blockedTrap
  repeat' (first | with_reducible rfl | with_reducible refine State.ite_fixed ?_ ?_ | simp only [State.mk_fixed, State.fold_fixed, apply_ite Prod.snd, ite_self, State.portError_fixed, State.trap_fixed] | split | with_reducible refine (State.foldl_fixed _ (fun _ _ => ?_) _ _).trans ?_)

@[simp] theorem State.dmcPost_fixed (s : State) (sc id : Nat) (items : List (Nat × Nat)) :
    (State.dmcPost s sc id items).fixed = s.fixed := by
  unfold State.dmcPost
  repeat' (first | with_reducible rfl | with_reducible refine State.ite_fixed ?_ ?_ | simp only [State.mk_fixed, State.fold_fixed, apply_ite Prod.snd, ite_self, State.post_fixed, State.sc_fixed] | split | with_reducible refine (State.foldl_fixed _ (fun _ _ => ?_) _ _).trans ?_)

@[simp] theorem State.dramUe_fixed (s : State) (a isl : Nat) :
    (State.dramUe s a isl).fixed = s.fixed := by
  unfold State.dramUe
  repeat' (first | with_reducible rfl | with_reducible refine State.ite_fixed ?_ ?_ | simp only [State.mk_fixed, State.fold_fixed, apply_ite Prod.snd, ite_self, State.bump_fixed, State.dmcPost_fixed, State.sc_fixed] | split | with_reducible refine (State.foldl_fixed _ (fun _ _ => ?_) _ _).trans ?_)

@[simp] theorem State.markDevice_fixed (s : State) (sc rank dev : Nat) :
    (State.markDevice s sc rank dev).fixed = s.fixed := by
  unfold State.markDevice
  repeat' (first | with_reducible rfl | with_reducible refine State.ite_fixed ?_ ?_ | simp only [State.mk_fixed, State.fold_fixed, apply_ite Prod.snd, ite_self, State.dmcPost_fixed, State.dr_fixed, State.sc_fixed, State.setFld_fixed] | split | with_reducible refine (State.foldl_fixed _ (fun _ _ => ?_) _ _).trans ?_)

@[simp] theorem State.dramCorrect_fixed (s : State) (a rank dev syms : Nat) :
    (State.dramCorrect s a rank dev syms).fixed = s.fixed := by
  unfold State.dramCorrect
  repeat' (first | with_reducible rfl | with_reducible refine State.ite_fixed ?_ ?_ | simp only [State.mk_fixed, State.fold_fixed, apply_ite Prod.snd, ite_self, State.bump_fixed, State.dr_fixed, State.markDevice_fixed, State.sc_fixed] | split | with_reducible refine (State.foldl_fixed _ (fun _ _ => ?_) _ _).trans ?_)

@[simp] theorem State.unpoison_fixed (s : State) (a n : Nat) :
    (State.unpoison s a n).fixed = s.fixed := by
  unfold State.unpoison
  repeat' (first | with_reducible rfl | with_reducible refine State.ite_fixed ?_ ?_ | simp only [State.mk_fixed, State.fold_fixed, apply_ite Prod.snd, ite_self, State.dr_fixed] | split | with_reducible refine (State.foldl_fixed _ (fun _ _ => ?_) _ _).trans ?_)

@[simp] theorem State.dropResv_fixed (s : State) (a n : Nat) :
    (State.dropResv s a n).fixed = s.fixed := by
  unfold State.dropResv
  repeat' (first | with_reducible rfl | with_reducible refine State.ite_fixed ?_ ?_ | simp only [State.mk_fixed, State.fold_fixed, apply_ite Prod.snd, ite_self] | split | with_reducible refine (State.foldl_fixed _ (fun _ _ => ?_) _ _).trans ?_)

theorem execMergeWritebackTimeout_fixed (d : Fin 2) (line : BitVec 40) (s : State) :
    Keeps (execMergeWritebackTimeout d line s) s := by
  unfold execMergeWritebackTimeout
  repeat' (first | with_reducible rfl | with_reducible refine State.ite_fixed ?_ ?_ | with_reducible refine Keeps.next ?_ | with_reducible refine Keeps.ite ?_ ?_ | simp only [State.mk_fixed, State.fold_fixed, apply_ite Prod.snd, ite_self, State.dr_fixed] | split | with_reducible refine (State.foldl_fixed _ (fun _ _ => ?_) _ _).trans ?_)

@[simp] theorem State.atomicUe_fixed (s : State) (c a : Nat) :
    (State.atomicUe s c a).fixed = s.fixed := by
  unfold State.atomicUe
  repeat' (first | with_reducible rfl | with_reducible refine State.ite_fixed ?_ ?_ | simp only [State.mk_fixed, State.fold_fixed, apply_ite Prod.snd, ite_self, State.dramUe_fixed, State.post_fixed, State.trap_fixed] | split | with_reducible refine (State.foldl_fixed _ (fun _ _ => ?_) _ _).trans ?_)

theorem execLoadReserved_fixed (c : CoreId) (a : BitVec 40) (wide : Bool) (ue : Bool) (s : State) :
    Keeps (execLoadReserved c a wide ue s) s := by
  unfold execLoadReserved
  repeat' (first | with_reducible rfl | with_reducible refine State.ite_fixed ?_ ?_ | with_reducible refine Keeps.next ?_ | with_reducible refine Keeps.ite ?_ ?_ | simp only [State.mk_fixed, State.fold_fixed, apply_ite Prod.snd, ite_self, State.answer_fixed, State.atomicUe_fixed, State.trap_fixed] | split | with_reducible refine (State.foldl_fixed _ (fun _ _ => ?_) _ _).trans ?_)

theorem execFenceI_fixed (c : CoreId) (s : State) :
    Keeps (execFenceI c s) s := by
  unfold execFenceI
  repeat' (first | with_reducible rfl | with_reducible refine State.ite_fixed ?_ ?_ | with_reducible refine Keeps.next ?_ | with_reducible refine Keeps.ite ?_ ?_ | simp only [State.mk_fixed, State.fold_fixed, apply_ite Prod.snd, ite_self] | split | with_reducible refine (State.foldl_fixed _ (fun _ _ => ?_) _ _).trans ?_)

@[simp] theorem State.dmcCfgWrite_fixed (s : State) (d v : Nat) :
    (State.dmcCfgWrite s d v).fixed = s.fixed := by
  unfold State.dmcCfgWrite
  repeat' (first | with_reducible rfl | with_reducible refine State.ite_fixed ?_ ?_ | simp only [State.mk_fixed, State.fold_fixed, apply_ite Prod.snd, ite_self, State.setWord_fixed] | split | with_reducible refine (State.foldl_fixed _ (fun _ _ => ?_) _ _).trans ?_)

theorem execDmcCfgLock_fixed (d : Fin 2) (v : BitVec 4) (s : State) :
    Keeps (execDmcCfgLock d v s) s := by
  unfold execDmcCfgLock
  repeat' (first | with_reducible rfl | with_reducible refine State.ite_fixed ?_ ?_ | with_reducible refine Keeps.next ?_ | with_reducible refine Keeps.ite ?_ ?_ | simp only [State.mk_fixed, State.fold_fixed, apply_ite Prod.snd, ite_self, State.dmcCfgWrite_fixed] | split | with_reducible refine (State.foldl_fixed _ (fun _ _ => ?_) _ _).trans ?_)

@[simp] theorem State.dmaCtl_fixed (s : State) (d c v : Nat) :
    (State.dmaCtl s d c v).fixed = s.fixed := by
  unfold State.dmaCtl
  repeat' (first | with_reducible rfl | with_reducible refine State.ite_fixed ?_ ?_ | simp only [State.mk_fixed, State.fold_fixed, apply_ite Prod.snd, ite_self, State.dr_fixed, State.setFld_fixed] | split | with_reducible refine (State.foldl_fixed _ (fun _ _ => ?_) _ _).trans ?_)

theorem execDmaCopy_fixed (d : Fin 2) (c : Fin 4) (s : State) :
    Keeps (execDmaCopy d c s) s := by
  unfold execDmaCopy
  repeat' (first | with_reducible rfl | with_reducible refine State.ite_fixed ?_ ?_ | with_reducible refine Keeps.next ?_ | with_reducible refine Keeps.ite ?_ ?_ | simp only [State.mk_fixed, State.fold_fixed, apply_ite Prod.snd, ite_self, State.dmaCtl_fixed] | split | with_reducible refine (State.foldl_fixed _ (fun _ _ => ?_) _ _).trans ?_)

theorem execDmaFill_fixed (d : Fin 2) (c : Fin 4) (s : State) :
    Keeps (execDmaFill d c s) s := by
  unfold execDmaFill
  repeat' (first | with_reducible rfl | with_reducible refine State.ite_fixed ?_ ?_ | with_reducible refine Keeps.next ?_ | with_reducible refine Keeps.ite ?_ ?_ | simp only [State.mk_fixed, State.fold_fixed, apply_ite Prod.snd, ite_self, State.dmaCtl_fixed] | split | with_reducible refine (State.foldl_fixed _ (fun _ _ => ?_) _ _).trans ?_)

theorem execDmaCheck_fixed (d : Fin 2) (c : Fin 4) (s : State) :
    Keeps (execDmaCheck d c s) s := by
  unfold execDmaCheck
  repeat' (first | with_reducible rfl | with_reducible refine State.ite_fixed ?_ ?_ | with_reducible refine Keeps.next ?_ | with_reducible refine Keeps.ite ?_ ?_ | simp only [State.mk_fixed, State.fold_fixed, apply_ite Prod.snd, ite_self, State.dmaCtl_fixed] | split | with_reducible refine (State.foldl_fixed _ (fun _ _ => ?_) _ _).trans ?_)

@[simp] theorem State.dmaEnd_fixed (s : State) (d c status faddr : Nat) :
    (State.dmaEnd s d c status faddr).fixed = s.fixed := by
  unfold State.dmaEnd
  repeat' (first | with_reducible rfl | with_reducible refine State.ite_fixed ?_ ?_ | simp only [State.mk_fixed, State.fold_fixed, apply_ite Prod.snd, ite_self, State.dr_fixed, State.setFld_fixed, State.setWord_fixed] | split | with_reducible refine (State.foldl_fixed _ (fun _ _ => ?_) _ _).trans ?_)

@[simp] theorem State.clearCounts_fixed (s : State) (a : Nat) :
    (State.clearCounts s a).fixed = s.fixed := by
  unfold State.clearCounts
  repeat' (first | with_reducible rfl | with_reducible refine State.ite_fixed ?_ ?_ | simp only [State.mk_fixed, State.fold_fixed, apply_ite Prod.snd, ite_self, State.zn_fixed] | split | with_reducible refine (State.foldl_fixed _ (fun _ _ => ?_) _ _).trans ?_)

end Sys2Proof.Machine
end

