-- ==== Sys2Proof/Laws/FixSprout.lean ====
section
/-! SUPPORT. Operations of Machine/Sprout.lean that keep the queue, memory, the straps and the OTP. -/

namespace Sys2Proof.Machine

set_option linter.all false

@[simp] theorem State.setSlotFail_fixed (s : State) (k code : Nat) :
    (State.setSlotFail s k code).fixed = s.fixed := by
  unfold State.setSlotFail
  repeat' (first | with_reducible rfl | with_reducible refine State.ite_fixed ?_ ?_ | simp only [State.mk_fixed, State.fold_fixed, apply_ite Prod.snd, ite_self, State.setFld_fixed] | split | with_reducible refine (State.foldl_fixed _ (fun _ _ => ?_) _ _).trans ?_)

@[simp] theorem State.trySlots_fixed (s : State) (bad : BitVec 2) (rx : List Nat) :
    (State.trySlots s bad rx).2.fixed = s.fixed := by
  induction rx generalizing s with
  | nil =>
    simp only [State.trySlots]
    repeat' (first | with_reducible rfl | with_reducible refine State.ite_fixed ?_ ?_ | simp only [State.mk_fixed, State.fold_fixed, apply_ite Prod.snd, ite_self, State.setSlotFail_fixed] | split | with_reducible refine (State.foldl_fixed _ (fun _ _ => ?_) _ _).trans ?_)
  | cons _ _ ih =>
    simp only [State.trySlots]
    repeat' (first | with_reducible rfl | with_reducible refine State.ite_fixed ?_ ?_ | simp only [State.mk_fixed, State.fold_fixed, apply_ite Prod.snd, ite_self, State.setSlotFail_fixed, ih] | split | with_reducible refine (State.foldl_fixed _ (fun _ _ => ?_) _ _).trans ?_)

theorem State.trySlots_fixed_of {s : State} {bad : BitVec 2} {rx : List Nat} {x0} {t : State} (h : State.trySlots s bad rx = (x0, t)) : t.fixed = s.fixed := by
  have := State.trySlots_fixed s bad rx
  rw [h] at this
  exact this

@[simp] theorem State.enterRecovery_fixed (s : State) :
    (State.enterRecovery s).fixed = s.fixed := by
  unfold State.enterRecovery
  repeat' (first | with_reducible rfl | with_reducible refine State.ite_fixed ?_ ?_ | simp only [State.mk_fixed, State.fold_fixed, apply_ite Prod.snd, ite_self, State.measureBoot_fixed, State.setFld_fixed] | split | with_reducible refine (State.foldl_fixed _ (fun _ _ => ?_) _ _).trans ?_)

@[simp] theorem State.armWatchdog_fixed (s : State) :
    (State.armWatchdog s).fixed = s.fixed := by
  unfold State.armWatchdog
  repeat' (first | with_reducible rfl | with_reducible refine State.ite_fixed ?_ ?_ | simp only [State.mk_fixed, State.fold_fixed, apply_ite Prod.snd, ite_self, State.bt_fixed, State.setFld_fixed] | split | with_reducible refine (State.foldl_fixed _ (fun _ _ => ?_) _ _).trans ?_)

@[simp] theorem State.bootwdWrite_fixed (s : State) (v : Nat) :
    (State.bootwdWrite s v).fixed = s.fixed := by
  unfold State.bootwdWrite
  repeat' (first | with_reducible rfl | with_reducible refine State.ite_fixed ?_ ?_ | simp only [State.mk_fixed, State.fold_fixed, apply_ite Prod.snd, ite_self, State.bt_fixed, State.setFld_fixed] | split | with_reducible refine (State.foldl_fixed _ (fun _ _ => ?_) _ _).trans ?_)

theorem execBootWatchdogStop_fixed (s : State) :
    Keeps (execBootWatchdogStop s) s := by
  unfold execBootWatchdogStop
  repeat' (first | with_reducible rfl | with_reducible refine State.ite_fixed ?_ ?_ | with_reducible refine Keeps.next ?_ | with_reducible refine Keeps.ite ?_ ?_ | simp only [State.mk_fixed, State.fold_fixed, apply_ite Prod.snd, ite_self, State.bootwdWrite_fixed] | split | with_reducible refine (State.foldl_fixed _ (fun _ _ => ?_) _ _).trans ?_)

@[simp] theorem State.otpcmdWrite_fixed (s : State) (v : Nat) :
    (State.otpcmdWrite s v).fixed = s.fixed := by
  unfold State.otpcmdWrite
  repeat' (first | with_reducible rfl | with_reducible refine State.ite_fixed ?_ ?_ | simp only [State.mk_fixed, State.fold_fixed, apply_ite Prod.snd, ite_self, State.bt_fixed, State.setFld_fixed] | split | with_reducible refine (State.foldl_fixed _ (fun _ _ => ?_) _ _).trans ?_)

theorem execOtpCommandGo_fixed (target : BitVec 7) (rrev srev : BitVec 4) (s : State) :
    Keeps (execOtpCommandGo target rrev srev s) s := by
  unfold execOtpCommandGo
  repeat' (first | with_reducible rfl | with_reducible refine State.ite_fixed ?_ ?_ | with_reducible refine Keeps.next ?_ | with_reducible refine Keeps.ite ?_ ?_ | simp only [State.mk_fixed, State.fold_fixed, apply_ite Prod.snd, ite_self, State.otpcmdWrite_fixed] | split | with_reducible refine (State.foldl_fixed _ (fun _ _ => ?_) _ _).trans ?_)

end Sys2Proof.Machine
end

