-- ==== Sys2Proof/Laws/FixReset.lean ====
section
/-! SUPPORT. Operations of Machine/Reset.lean that keep the queue, memory, the straps and the OTP. -/

namespace Sys2Proof.Machine

set_option linter.all false

end Sys2Proof.Machine
end

