-- ==== Sys2Proof/Laws/FixFormation.lean ====
section
/-! SUPPORT. Operations of Machine/Formation.lean that keep the queue, memory, the straps and the OTP. -/

namespace Sys2Proof.Machine

set_option linter.all false

@[simp] theorem State.selectProfile_fixed (s : State) (slot : Nat) (ids : List DieIdent) :
    (State.selectProfile s slot ids).2.fixed = s.fixed := by
  unfold State.selectProfile
  repeat' (first | with_reducible rfl | with_reducible refine State.ite_fixed ?_ ?_ | simp only [State.mk_fixed, State.fold_fixed, apply_ite Prod.snd, ite_self, State.znePost_fixed] | split | with_reducible refine (State.foldl_fixed _ (fun _ _ => ?_) _ _).trans ?_)

theorem State.selectProfile_fixed_of {s : State} {slot : Nat} {ids : List DieIdent} {x0} {t : State} (h : State.selectProfile s slot ids = (x0, t)) : t.fixed = s.fixed := by
  have := State.selectProfile_fixed s slot ids
  rw [h] at this
  exact this

@[simp] theorem State.loadProfile_fixed (s : State) (r : Nat) :
    (State.loadProfile s r).fixed = s.fixed := by
  unfold State.loadProfile
  repeat' (first | with_reducible rfl | with_reducible refine State.ite_fixed ?_ ?_ | simp only [State.mk_fixed, State.fold_fixed, apply_ite Prod.snd, ite_self, State.setFld_fixed, State.setWord_fixed, State.zn_fixed] | split | with_reducible refine (State.foldl_fixed _ (fun _ _ => ?_) _ _).trans ?_)

@[simp] theorem State.geomWrite_fixed (s : State) (v : Nat) :
    (State.geomWrite s v).fixed = s.fixed := by
  unfold State.geomWrite
  repeat' (first | with_reducible rfl | with_reducible refine State.ite_fixed ?_ ?_ | simp only [State.mk_fixed, State.fold_fixed, apply_ite Prod.snd, ite_self, State.setFld_fixed, State.setWord_fixed, State.znePost_fixed] | split | with_reducible refine (State.foldl_fixed _ (fun _ _ => ?_) _ _).trans ?_)

theorem State.writeBases_fold_fixed (xs : List (Fld × Nat)) (a : Nat) (s : State) :
    (xs.foldl (fun (a : Nat × State) x => (a.1 + x.2 / 2, a.2.setFld x.1 a.1)) (a, s)).2.fixed = s.fixed := by
  induction xs generalizing a s with
  | nil => rfl
  | cons x xs ih => simp only [List.foldl_cons, ih, State.setFld_fixed]

@[simp] theorem State.writeBases_fixed (s : State) : s.writeBases.fixed = s.fixed := State.writeBases_fold_fixed ..

@[simp] theorem State.failDie_fixed (s : State) (d cause : Nat) :
    (State.failDie s d cause).fixed = s.fixed := by
  unfold State.failDie
  repeat' (first | with_reducible rfl | with_reducible refine State.ite_fixed ?_ ?_ | simp only [State.mk_fixed, State.fold_fixed, apply_ite Prod.snd, ite_self, State.listDefect_fixed, State.setFld_fixed, State.zn_fixed, State.znePost_fixed] | split | with_reducible refine (State.foldl_fixed _ (fun _ _ => ?_) _ _).trans ?_)

@[simp] theorem State.failMarked_fixed (s : State) (factory : List Nat) (maxFbb : Nat) :
    (State.failMarked s factory maxFbb).fixed = s.fixed := by
  unfold State.failMarked
  repeat' (first | with_reducible rfl | with_reducible refine State.ite_fixed ?_ ?_ | simp only [State.mk_fixed, State.fold_fixed, apply_ite Prod.snd, ite_self, State.failDie_fixed] | split | with_reducible refine (State.foldl_fixed _ (fun _ _ => ?_) _ _).trans ?_)

@[simp] theorem State.markFactory_fixed (s : State) (factory : List Nat) :
    (State.markFactory s factory).fixed = s.fixed := by
  unfold State.markFactory
  repeat' (first | with_reducible rfl | with_reducible refine State.ite_fixed ?_ ?_ | simp only [State.mk_fixed, State.fold_fixed, apply_ite Prod.snd, ite_self, State.modBlk_fixed, State.zn_fixed] | split | with_reducible refine (State.foldl_fixed _ (fun _ _ => ?_) _ _).trans ?_)

@[simp] theorem State.writeTables_fixed (s : State) (cd : Nat × Nat) (fs : List (Nat × Nat × Nat)) (es : List (Nat × BlkEnt)) :
    (State.writeTables s cd fs es).fixed = s.fixed := by
  unfold State.writeTables
  repeat' (first | with_reducible rfl | with_reducible refine State.ite_fixed ?_ ?_ | simp only [State.mk_fixed, State.fold_fixed, apply_ite Prod.snd, ite_self, State.hf_fixed, State.rowLost_fixed, State.zn_fixed] | split | with_reducible refine (State.foldl_fixed _ (fun _ _ => ?_) _ _).trans ?_)

@[simp] theorem State.drawIds_fixed (s : State) :
    (State.drawIds s).fixed = s.fixed := by
  unfold State.drawIds
  repeat' (first | with_reducible rfl | with_reducible refine State.ite_fixed ?_ ?_ | simp only [State.mk_fixed, State.fold_fixed, apply_ite Prod.snd, ite_self, State.drawFree_fixed, State.hf_fixed] | with_reducible refine (State.drawFree_fixed_of (by assumption)).trans ?_ | split | with_reducible refine (State.foldl_fixed _ (fun _ _ => ?_) _ _).trans ?_)

@[simp] theorem State.form_fixed (s : State) (r : Nat) (ids : List DieIdent) (markers : List (BitVec 25 × Bool × Byte)) :
    (State.form s r ids markers).2.fixed = s.fixed := by
  unfold State.form
  repeat' (first | with_reducible rfl | with_reducible refine State.ite_fixed ?_ ?_ | simp only [State.mk_fixed, State.fold_fixed, apply_ite Prod.snd, ite_self, State.bt_fixed, State.cfgWrite_fixed, State.drawIds_fixed, State.failMarked_fixed, State.hf_fixed, State.loadProfile_fixed, State.markFactory_fixed, State.writeTables_fixed, State.znePost_fixed] | split | with_reducible refine (State.foldl_fixed _ (fun _ _ => ?_) _ _).trans ?_)

theorem State.form_fixed_of {s : State} {r : Nat} {ids : List DieIdent} {markers : List (BitVec 25 × Bool × Byte)} {x0} {t : State} (h : State.form s r ids markers = (x0, t)) : t.fixed = s.fixed := by
  have := State.form_fixed s r ids markers
  rw [h] at this
  exact this

end Sys2Proof.Machine
end

