-- ==== Sys2Proof/Laws/FixTenancy.lean ====
section
/-! SUPPORT. Operations of Machine/Tenancy.lean that keep the queue, memory, the straps and the OTP. -/

namespace Sys2Proof.Machine

set_option linter.all false

@[simp] theorem State.putQuotas_fixed (s : State) (t : Nat) (d : TenDesc) :
    (State.putQuotas s t d).fixed = s.fixed := by
  unfold State.putQuotas
  repeat' (first | with_reducible rfl | with_reducible refine State.ite_fixed ?_ ?_ | simp only [State.mk_fixed, State.fold_fixed, apply_ite Prod.snd, ite_self, State.hf_fixed, State.setFld_fixed] | split | with_reducible refine (State.foldl_fixed _ (fun _ _ => ?_) _ _).trans ?_)

@[simp] theorem State.applyDesc_fixed (s : State) (fn : Nat) (e : Sqe) (t : Nat) :
    (State.applyDesc s fn e t).fixed = s.fixed := by
  unfold State.applyDesc
  repeat' (first | with_reducible rfl | with_reducible refine State.ite_fixed ?_ ?_ | simp only [State.mk_fixed, State.fold_fixed, apply_ite Prod.snd, ite_self, State.adminDone_fixed, State.hifPost_fixed, State.putQuotas_fixed, State.toMembers_fixed, State.znePost_fixed] | split | with_reducible refine (State.foldl_fixed _ (fun _ _ => ?_) _ _).trans ?_)

theorem execTenancyCreate_fixed (fn : FnId) (e : Sqe) (s : State) :
    Keeps (execTenancyCreate fn e s) s := by
  unfold execTenancyCreate
  repeat' (first | with_reducible rfl | with_reducible refine State.ite_fixed ?_ ?_ | with_reducible refine Keeps.next ?_ | with_reducible refine Keeps.ite ?_ ?_ | simp only [State.mk_fixed, State.fold_fixed, apply_ite Prod.snd, ite_self, State.adminDone_fixed, State.applyDesc_fixed] | with_reducible refine State.admin_fixed (fun _ => ?_) | split | with_reducible refine (State.foldl_fixed _ (fun _ _ => ?_) _ _).trans ?_)

@[simp] theorem State.dropTenancy_fixed (s : State) (t : Nat) :
    (State.dropTenancy s t).fixed = s.fixed := by
  unfold State.dropTenancy
  repeat' (first | with_reducible rfl | with_reducible refine State.ite_fixed ?_ ?_ | simp only [State.mk_fixed, State.fold_fixed, apply_ite Prod.snd, ite_self, State.cfgWrite_fixed, State.eraseRecord_fixed, State.hf_fixed, State.lpeDeleted_fixed, State.sc_fixed, State.setFld_fixed, State.setWord_fixed, State.zeroSlot_fixed] | split | with_reducible refine (State.foldl_fixed _ (fun _ _ => ?_) _ _).trans ?_)

theorem execTenancyDelete_fixed (fn : FnId) (e : Sqe) (s : State) :
    Keeps (execTenancyDelete fn e s) s := by
  unfold execTenancyDelete
  repeat' (first | with_reducible rfl | with_reducible refine State.ite_fixed ?_ ?_ | with_reducible refine Keeps.next ?_ | with_reducible refine Keeps.ite ?_ ?_ | simp only [State.mk_fixed, State.fold_fixed, apply_ite Prod.snd, ite_self, State.adminDone_fixed, State.dropTenancy_fixed, State.toMembers_fixed] | with_reducible refine State.admin_fixed (fun _ => ?_) | split | with_reducible refine (State.foldl_fixed _ (fun _ _ => ?_) _ _).trans ?_)

theorem execSetQuotas_fixed (fn : FnId) (e : Sqe) (s : State) :
    Keeps (execSetQuotas fn e s) s := by
  unfold execSetQuotas
  repeat' (first | with_reducible rfl | with_reducible refine State.ite_fixed ?_ ?_ | with_reducible refine Keeps.next ?_ | with_reducible refine Keeps.ite ?_ ?_ | simp only [State.mk_fixed, State.fold_fixed, apply_ite Prod.snd, ite_self, State.adminDone_fixed, State.applyDesc_fixed] | with_reducible refine State.admin_fixed (fun _ => ?_) | split | with_reducible refine (State.foldl_fixed _ (fun _ _ => ?_) _ _).trans ?_)

theorem execReadDescriptor_fixed (fn : FnId) (e : Sqe) (s : State) :
    Keeps (execReadDescriptor fn e s) s := by
  unfold execReadDescriptor
  repeat' (first | with_reducible rfl | with_reducible refine State.ite_fixed ?_ ?_ | with_reducible refine Keeps.next ?_ | with_reducible refine Keeps.ite ?_ ?_ | simp only [State.mk_fixed, State.fold_fixed, apply_ite Prod.snd, ite_self, State.adminData_fixed, State.adminDone_fixed] | with_reducible refine State.admin_fixed (fun _ => ?_) | split | with_reducible refine (State.foldl_fixed _ (fun _ _ => ?_) _ _).trans ?_)

@[simp] theorem State.mapVf_fixed (s : State) (fn : Nat) (e : Sqe) :
    (State.mapVf s fn e).fixed = s.fixed := by
  unfold State.mapVf
  repeat' (first | with_reducible rfl | with_reducible refine State.ite_fixed ?_ ?_ | simp only [State.mk_fixed, State.fold_fixed, apply_ite Prod.snd, ite_self, State.adminDone_fixed, State.askNode_fixed, State.setFld_fixed] | split | with_reducible refine (State.foldl_fixed _ (fun _ _ => ?_) _ _).trans ?_)

theorem execMapVf_fixed (fn : FnId) (e : Sqe) (s : State) :
    Keeps (execMapVf fn e s) s := by
  unfold execMapVf
  repeat' (first | with_reducible rfl | with_reducible refine State.ite_fixed ?_ ?_ | with_reducible refine Keeps.next ?_ | with_reducible refine Keeps.ite ?_ ?_ | simp only [State.mk_fixed, State.fold_fixed, apply_ite Prod.snd, ite_self, State.mapVf_fixed] | with_reducible refine State.admin_fixed (fun _ => ?_) | split | with_reducible refine (State.foldl_fixed _ (fun _ _ => ?_) _ _).trans ?_)

@[simp] theorem State.setRankSets_fixed (s : State) (fn : Nat) (e : Sqe) :
    (State.setRankSets s fn e).fixed = s.fixed := by
  unfold State.setRankSets
  repeat' (first | with_reducible rfl | with_reducible refine State.ite_fixed ?_ ?_ | simp only [State.mk_fixed, State.fold_fixed, apply_ite Prod.snd, ite_self, State.adminDone_fixed, State.hf_fixed, State.reapStage_fixed, State.showSegs_fixed, State.toMembers_fixed, State.zn_fixed] | split | with_reducible refine (State.foldl_fixed _ (fun _ _ => ?_) _ _).trans ?_)

theorem execSetRankSets_fixed (fn : FnId) (e : Sqe) (s : State) :
    Keeps (execSetRankSets fn e s) s := by
  unfold execSetRankSets
  repeat' (first | with_reducible rfl | with_reducible refine State.ite_fixed ?_ ?_ | with_reducible refine Keeps.next ?_ | with_reducible refine Keeps.ite ?_ ?_ | simp only [State.mk_fixed, State.fold_fixed, apply_ite Prod.snd, ite_self, State.setRankSets_fixed] | with_reducible refine State.admin_fixed (fun _ => ?_) | split | with_reducible refine (State.foldl_fixed _ (fun _ _ => ?_) _ _).trans ?_)

@[simp] theorem State.destroyAll_fixed (s : State) :
    (State.destroyAll s).fixed = s.fixed := by
  unfold State.destroyAll
  repeat' (first | with_reducible rfl | with_reducible refine State.ite_fixed ?_ ?_ | simp only [State.mk_fixed, State.fold_fixed, apply_ite Prod.snd, ite_self, State.cryptoErase_fixed, State.dropNs_fixed] | split | with_reducible refine (State.foldl_fixed _ (fun _ _ => ?_) _ _).trans ?_)

@[simp] theorem State.formStep_fixed (s : State) :
    (State.formStep s).fixed = s.fixed := by
  unfold State.formStep
  repeat' (first | with_reducible rfl | with_reducible refine State.ite_fixed ?_ ?_ | simp only [State.mk_fixed, State.fold_fixed, apply_ite Prod.snd, ite_self, State.cfgWrite_fixed, State.destroyAll_fixed, State.hf_fixed, State.postCpl_fixed] | split | with_reducible refine (State.foldl_fixed _ (fun _ _ => ?_) _ _).trans ?_)

@[simp] theorem State.formGeometry_fixed (s : State) (fn : Nat) (e : Sqe) :
    (State.formGeometry s fn e).fixed = s.fixed := by
  unfold State.formGeometry
  repeat' (first | with_reducible rfl | with_reducible refine State.ite_fixed ?_ ?_ | simp only [State.mk_fixed, State.fold_fixed, apply_ite Prod.snd, ite_self, State.formStep_fixed, State.hf_fixed, State.toMembers_fixed] | split | with_reducible refine (State.foldl_fixed _ (fun _ _ => ?_) _ _).trans ?_)

theorem execFormGeometry_fixed (fn : FnId) (e : Sqe) (s : State) :
    Keeps (execFormGeometry fn e s) s := by
  unfold execFormGeometry
  repeat' (first | with_reducible rfl | with_reducible refine State.ite_fixed ?_ ?_ | with_reducible refine Keeps.next ?_ | with_reducible refine Keeps.ite ?_ ?_ | simp only [State.mk_fixed, State.fold_fixed, apply_ite Prod.snd, ite_self, State.formGeometry_fixed] | with_reducible refine State.admin_fixed (fun _ => ?_) | split | with_reducible refine (State.foldl_fixed _ (fun _ _ => ?_) _ _).trans ?_)

@[simp] theorem State.lpeWrite_fixed (s : State) (k off v : Nat) :
    (State.lpeWrite s k off v).fixed = s.fixed := by
  unfold State.lpeWrite
  repeat' (first | with_reducible rfl | with_reducible refine State.ite_fixed ?_ ?_ | simp only [State.mk_fixed, State.fold_fixed, apply_ite Prod.snd, ite_self, State.coefRefused_fixed, State.lp_fixed, State.lpeOut_fixed, State.setHold_fixed, State.setWord_fixed, State.slotCmd_fixed] | split | with_reducible refine (State.foldl_fixed _ (fun _ _ => ?_) _ _).trans ?_)

theorem execGovernorRead_fixed (fn : FnId) (e : Sqe) (s : State) :
    Keeps (execGovernorRead fn e s) s := by
  unfold execGovernorRead
  repeat' (first | with_reducible rfl | with_reducible refine State.ite_fixed ?_ ?_ | with_reducible refine Keeps.next ?_ | with_reducible refine Keeps.ite ?_ ?_ | simp only [State.mk_fixed, State.fold_fixed, apply_ite Prod.snd, ite_self, State.adminData_fixed, State.adminDone_fixed] | with_reducible refine State.admin_fixed (fun _ => ?_) | split | with_reducible refine (State.foldl_fixed _ (fun _ _ => ?_) _ _).trans ?_)

theorem execGovernorWrite_fixed (fn : FnId) (e : Sqe) (s : State) :
    Keeps (execGovernorWrite fn e s) s := by
  unfold execGovernorWrite
  repeat' (first | with_reducible rfl | with_reducible refine State.ite_fixed ?_ ?_ | with_reducible refine Keeps.next ?_ | with_reducible refine Keeps.ite ?_ ?_ | simp only [State.mk_fixed, State.fold_fixed, apply_ite Prod.snd, ite_self, State.adminDone_fixed, State.lpeWrite_fixed] | with_reducible refine State.admin_fixed (fun _ => ?_) | split | with_reducible refine (State.foldl_fixed _ (fun _ _ => ?_) _ _).trans ?_)

theorem execGeometryReport_fixed (fn : FnId) (e : Sqe) (s : State) :
    Keeps (execGeometryReport fn e s) s := by
  unfold execGeometryReport
  repeat' (first | with_reducible rfl | with_reducible refine State.ite_fixed ?_ ?_ | with_reducible refine Keeps.next ?_ | with_reducible refine Keeps.ite ?_ ?_ | simp only [State.mk_fixed, State.fold_fixed, apply_ite Prod.snd, ite_self, State.adminData_fixed, State.adminDone_fixed, State.askNode_fixed] | with_reducible refine State.admin_fixed (fun _ => ?_) | split | with_reducible refine (State.foldl_fixed _ (fun _ _ => ?_) _ _).trans ?_)

theorem execDiagWindowOpen_fixed (fn : FnId) (e : Sqe) (s : State) :
    Keeps (execDiagWindowOpen fn e s) s := by
  unfold execDiagWindowOpen
  repeat' (first | with_reducible rfl | with_reducible refine State.ite_fixed ?_ ?_ | with_reducible refine Keeps.next ?_ | with_reducible refine Keeps.ite ?_ ?_ | simp only [State.mk_fixed, State.fold_fixed, apply_ite Prod.snd, ite_self, State.adminDone_fixed, State.hifPost_fixed, State.setFld_fixed] | with_reducible refine State.admin_fixed (fun _ => ?_) | split | with_reducible refine (State.foldl_fixed _ (fun _ _ => ?_) _ _).trans ?_)

theorem execDiagWindowClose_fixed (fn : FnId) (e : Sqe) (s : State) :
    Keeps (execDiagWindowClose fn e s) s := by
  unfold execDiagWindowClose
  repeat' (first | with_reducible rfl | with_reducible refine State.ite_fixed ?_ ?_ | with_reducible refine Keeps.next ?_ | with_reducible refine Keeps.ite ?_ ?_ | simp only [State.mk_fixed, State.fold_fixed, apply_ite Prod.snd, ite_self, State.adminDone_fixed, State.closeDiag_fixed] | with_reducible refine State.admin_fixed (fun _ => ?_) | split | with_reducible refine (State.foldl_fixed _ (fun _ _ => ?_) _ _).trans ?_)

end Sys2Proof.Machine
end

