-- ==== Sys2Proof/Laws/FixStartup.lean ====
section
/-! SUPPORT. Operations of Machine/Startup.lean that keep the queue, memory, the straps and the OTP. -/

namespace Sys2Proof.Machine

set_option linter.all false

theorem State.unwrapAt_fixed (s : State) (k : Nat) (b : List Byte) :
    KeepsS (State.unwrapAt s k b) s := by
  unfold State.unwrapAt
  repeat' (first | with_reducible rfl | with_reducible refine State.ite_fixed ?_ ?_ | with_reducible exact KeepsS.none | with_reducible refine KeepsS.some ?_ | simp only [State.mk_fixed, State.fold_fixed, apply_ite Prod.snd, ite_self, State.drop_fixed, State.loadSlot_fixed, State.useCounter_fixed] | with_reducible refine (State.useCounter_fixed_of (by assumption)).trans ?_ | split | with_reducible refine (State.foldl_fixed _ (fun _ _ => ?_) _ _).trans ?_)

theorem State.unwrapAt_fixed_of {s : State} {k : Nat} {b : List Byte} {t : State} (h : State.unwrapAt s k b = some t) : t.fixed = s.fixed := by
  have := State.unwrapAt_fixed s k b
  rw [h] at this
  exact this

@[simp] theorem State.loseData_fixed (s : State) (n : Nat) :
    (State.loseData s n).fixed = s.fixed := by
  unfold State.loseData
  repeat' (first | with_reducible rfl | with_reducible refine State.ite_fixed ?_ ?_ | simp only [State.mk_fixed, State.fold_fixed, apply_ite Prod.snd, ite_self, State.eraseData_fixed, State.offlineZone_fixed, State.zoneAen_fixed] | split | with_reducible refine (State.foldl_fixed _ (fun _ _ => ?_) _ _).trans ?_)

@[simp] theorem State.loseSlot_fixed (s : State) (k : Nat) :
    (State.loseSlot s k).fixed = s.fixed := by
  unfold State.loseSlot
  repeat' (first | with_reducible rfl | with_reducible refine State.ite_fixed ?_ ?_ | simp only [State.mk_fixed, State.fold_fixed, apply_ite Prod.snd, ite_self, State.eraseRecord_fixed, State.loseData_fixed, State.secPost_fixed] | split | with_reducible refine (State.foldl_fixed _ (fun _ _ => ?_) _ _).trans ?_)

@[simp] theorem State.recoverSlot_fixed (s : State) (k : Nat) : (s.recoverSlot k).fixed = s.fixed := by
  unfold State.recoverSlot
  extract_lets m
  have h : ∀ t, m = some t → t.fixed = s.fixed := by
    intro t ht
    simp only [m] at ht
    split at ht
    · cases ht
    · obtain ⟨b, _, hb⟩ := Option.bind_eq_some_iff.mp ht
      exact State.unwrapAt_fixed_of hb
  clear_value m
  split
  · exact h _ rfl
  · split
    · split
      · rename_i hb
        simp [State.unwrapAt_fixed_of hb]
      · simp
    · simp

@[simp] theorem State.recoverKeys_fixed (s : State) :
    (State.recoverKeys s).fixed = s.fixed := by
  unfold State.recoverKeys
  repeat' (first | with_reducible rfl | with_reducible refine State.ite_fixed ?_ ?_ | simp only [State.mk_fixed, State.fold_fixed, apply_ite Prod.snd, ite_self, State.recoverSlot_fixed, State.setFld_fixed] | split | with_reducible refine (State.foldl_fixed _ (fun _ _ => ?_) _ _).trans ?_)

@[simp] theorem State.resumeErases_fixed (s : State) :
    (State.resumeErases s).fixed = s.fixed := by
  unfold State.resumeErases
  repeat' (first | with_reducible rfl | with_reducible refine State.ite_fixed ?_ ?_ | simp only [State.mk_fixed, State.fold_fixed, apply_ite Prod.snd, ite_self, State.cryptoErase_fixed, State.sc_fixed] | split | with_reducible refine (State.foldl_fixed _ (fun _ _ => ?_) _ _).trans ?_)

@[simp] theorem State.ledgerRecovery_fixed (s : State) (lost : Option Bool) :
    (State.ledgerRecovery s lost).fixed = s.fixed := by
  unfold State.ledgerRecovery
  repeat' (first | with_reducible rfl | with_reducible refine State.ite_fixed ?_ ?_ | simp only [State.mk_fixed, State.fold_fixed, apply_ite Prod.snd, ite_self, State.loseLedger_fixed, State.releaseAll_fixed, State.showMedia_fixed, State.zn_fixed] | split | with_reducible refine (State.foldl_fixed _ (fun _ _ => ?_) _ _).trans ?_)

@[simp] theorem State.reconcile_fixed (s : State) :
    (State.reconcile s).fixed = s.fixed := by
  unfold State.reconcile
  repeat' (first | with_reducible rfl | with_reducible refine State.ite_fixed ?_ ?_ | simp only [State.mk_fixed, State.fold_fixed, apply_ite Prod.snd, ite_self, State.modBlk_fixed, State.releaseAll_fixed, State.znePost_fixed] | split | with_reducible refine (State.foldl_fixed _ (fun _ _ => ?_) _ _).trans ?_)

@[simp] theorem State.resumeRebuild_fixed (s : State) (cls : List (BitVec 25 × MClass)) (dirty : List Nat) (j : Nat) :
    (State.resumeRebuild s cls dirty j).fixed = s.fixed := by
  unfold State.resumeRebuild
  repeat' (first | with_reducible rfl | with_reducible refine State.ite_fixed ?_ ?_ | simp only [State.mk_fixed, State.fold_fixed, apply_ite Prod.snd, ite_self, State.jobNext_fixed, State.modJob_fixed, State.releaseBlk_fixed, State.setBodyMember_fixed, State.verifyRead_fixed] | split | with_reducible refine (State.foldl_fixed _ (fun _ _ => ?_) _ _).trans ?_)

@[simp] theorem State.restoreSaved_fixed (s : State) :
    (State.restoreSaved s).fixed = s.fixed := by
  unfold State.restoreSaved
  repeat' (first | with_reducible rfl | with_reducible refine State.ite_fixed ?_ ?_ | simp only [State.mk_fixed, State.fold_fixed, apply_ite Prod.snd, ite_self, State.setWord_fixed] | split | with_reducible refine (State.foldl_fixed _ (fun _ _ => ?_) _ _).trans ?_)

@[simp] theorem State.restoreCounts_fixed (s : State) :
    (State.restoreCounts s).fixed = s.fixed := by
  unfold State.restoreCounts
  repeat' (first | with_reducible rfl | with_reducible refine State.ite_fixed ?_ ?_ | simp only [State.mk_fixed, State.fold_fixed, apply_ite Prod.snd, ite_self, State.activeUp_fixed, State.openUp_fixed, State.reapStage_fixed, State.setFld_fixed, State.showDirty_fixed, State.showMedia_fixed, State.showSegs_fixed] | split | with_reducible refine (State.foldl_fixed _ (fun _ _ => ?_) _ _).trans ?_)

@[simp] theorem State.restoreDies_fixed (s : State) :
    (State.restoreDies s).fixed = s.fixed := by
  unfold State.restoreDies
  repeat' (first | with_reducible rfl | with_reducible refine State.ite_fixed ?_ ?_ | simp only [State.mk_fixed, State.fold_fixed, apply_ite Prod.snd, ite_self, State.setFld_fixed, State.znePost_fixed] | split | with_reducible refine (State.foldl_fixed _ (fun _ _ => ?_) _ _).trans ?_)

@[simp] theorem State.bootEvents_fixed (s : State) :
    (State.bootEvents s).fixed = s.fixed := by
  unfold State.bootEvents
  repeat' (first | with_reducible rfl | with_reducible refine State.ite_fixed ?_ ?_ | simp only [State.mk_fixed, State.fold_fixed, apply_ite Prod.snd, ite_self, State.secPost_fixed] | split | with_reducible refine (State.foldl_fixed _ (fun _ _ => ?_) _ _).trans ?_)

@[simp] theorem State.startBase_fixed (s : State) (x : StartIn) :
    (State.startBase s x).fixed = s.fixed := by
  unfold State.startBase
  repeat' (first | with_reducible rfl | with_reducible refine State.ite_fixed ?_ ?_ | simp only [State.mk_fixed, State.fold_fixed, apply_ite Prod.snd, ite_self, State.bankFail_fixed, State.bootEvents_fixed, State.dmcCfgWrite_fixed, State.hucfgWrite_fixed, State.loadSeq_fixed, State.restoreSaved_fixed, State.usePll_fixed, State.writeBases_fixed] | split | with_reducible refine (State.foldl_fixed _ (fun _ _ => ?_) _ _).trans ?_)

@[simp] theorem State.closeThermal_fixed (s : State) :
    (State.closeThermal s).fixed = s.fixed := by
  unfold State.closeThermal
  repeat' (first | with_reducible rfl | with_reducible refine State.ite_fixed ?_ ?_ | simp only [State.mk_fixed, State.fold_fixed, apply_ite Prod.snd, ite_self, State.applyCmd_fixed, State.setFld_fixed, State.slotCmd_fixed] | split | with_reducible refine (State.foldl_fixed _ (fun _ _ => ?_) _ _).trans ?_)

@[simp] theorem State.countValid_fixed (s : State) :
    (State.countValid s).fixed = s.fixed := by
  unfold State.countValid
  repeat' (first | with_reducible rfl | with_reducible refine State.ite_fixed ?_ ?_ | simp only [State.mk_fixed, State.fold_fixed, apply_ite Prod.snd, ite_self, State.zn_fixed] | split | with_reducible refine (State.foldl_fixed _ (fun _ _ => ?_) _ _).trans ?_)

end Sys2Proof.Machine
end

