-- ==== Sys2Proof/Laws/FixSpdm.lean ====
section
/-! SUPPORT. Operations of Machine/Spdm.lean that keep the queue, memory, the straps and the OTP. -/

namespace Sys2Proof.Machine

set_option linter.all false

@[simp] theorem State.modEp_fixed (s : State) (e : EpId) (f : SpdmEp → SpdmEp) :
    (State.modEp s e f).fixed = s.fixed := by
  unfold State.modEp
  repeat' (first | with_reducible rfl | with_reducible refine State.ite_fixed ?_ ?_ | simp only [State.mk_fixed, State.fold_fixed, apply_ite Prod.snd, ite_self, State.bt_fixed, State.fresh_fixed] | with_reducible refine (State.fresh_fixed_of (by assumption)).trans ?_ | split | with_reducible refine (State.foldl_fixed _ (fun _ _ => ?_) _ _).trans ?_)

@[simp] theorem State.spdm_fixed (s : State) (e : EpId) (r : SpdmRsp) (p1 p2 : Nat) (data : List Byte) :
    (State.spdm s e r p1 p2 data).fixed = s.fixed := by
  unfold State.spdm
  repeat' (first | with_reducible rfl | with_reducible refine State.ite_fixed ?_ ?_ | simp only [State.mk_fixed, State.fold_fixed, apply_ite Prod.snd, ite_self, State.bt_fixed] | split | with_reducible refine (State.foldl_fixed _ (fun _ _ => ?_) _ _).trans ?_)

@[simp] theorem State.spdmInvalid_fixed (s : State) (e : EpId) :
    (State.spdmInvalid s e).fixed = s.fixed := by
  unfold State.spdmInvalid
  repeat' (first | with_reducible rfl | with_reducible refine State.ite_fixed ?_ ?_ | simp only [State.mk_fixed, State.fold_fixed, apply_ite Prod.snd, ite_self, State.spdm_fixed] | split | with_reducible refine (State.foldl_fixed _ (fun _ _ => ?_) _ _).trans ?_)

@[simp] theorem State.spdmUnexpected_fixed (s : State) (e : EpId) :
    (State.spdmUnexpected s e).fixed = s.fixed := by
  unfold State.spdmUnexpected
  repeat' (first | with_reducible rfl | with_reducible refine State.ite_fixed ?_ ?_ | simp only [State.mk_fixed, State.fold_fixed, apply_ite Prod.snd, ite_self, State.spdm_fixed] | split | with_reducible refine (State.foldl_fixed _ (fun _ _ => ?_) _ _).trans ?_)

@[simp] theorem State.spdmUnsupported_fixed (s : State) (e : EpId) :
    (State.spdmUnsupported s e).fixed = s.fixed := by
  unfold State.spdmUnsupported
  repeat' (first | with_reducible rfl | with_reducible refine State.ite_fixed ?_ ?_ | simp only [State.mk_fixed, State.fold_fixed, apply_ite Prod.snd, ite_self, State.spdm_fixed] | split | with_reducible refine (State.foldl_fixed _ (fun _ _ => ?_) _ _).trans ?_)

theorem State.negotiated_fixed {s : State} {e : EpId} {f : State → State} (hf : ∀ v0, (f v0).fixed = v0.fixed) :
    Keeps (State.negotiated s e f) s := by
  unfold State.negotiated
  repeat' (first | with_reducible rfl | with_reducible refine State.ite_fixed ?_ ?_ | with_reducible refine Keeps.next ?_ | with_reducible refine Keeps.ite ?_ ?_ | simp only [State.mk_fixed, State.fold_fixed, apply_ite Prod.snd, ite_self, hf, State.spdmUnexpected_fixed] | split | with_reducible refine (State.foldl_fixed _ (fun _ _ => ?_) _ _).trans ?_)

theorem execGetVersion_fixed (e : EpId) (s : State) :
    Keeps (execGetVersion e s) s := by
  unfold execGetVersion
  repeat' (first | with_reducible rfl | with_reducible refine State.ite_fixed ?_ ?_ | with_reducible refine Keeps.next ?_ | with_reducible refine Keeps.ite ?_ ?_ | simp only [State.mk_fixed, State.fold_fixed, apply_ite Prod.snd, ite_self, State.modEp_fixed, State.spdm_fixed] | split | with_reducible refine (State.foldl_fixed _ (fun _ _ => ?_) _ _).trans ?_)

theorem execGetCapabilities_fixed (e : EpId) (s : State) :
    Keeps (execGetCapabilities e s) s := by
  unfold execGetCapabilities
  repeat' (first | with_reducible rfl | with_reducible refine State.ite_fixed ?_ ?_ | with_reducible refine Keeps.next ?_ | with_reducible refine Keeps.ite ?_ ?_ | simp only [State.mk_fixed, State.fold_fixed, apply_ite Prod.snd, ite_self, State.modEp_fixed, State.spdm_fixed, State.spdmUnexpected_fixed] | split | with_reducible refine (State.foldl_fixed _ (fun _ _ => ?_) _ _).trans ?_)

theorem execNegotiateAlgorithms_fixed (e : EpId) (asym hash : W32) (s : State) :
    Keeps (execNegotiateAlgorithms e asym hash s) s := by
  unfold execNegotiateAlgorithms
  repeat' (first | with_reducible rfl | with_reducible refine State.ite_fixed ?_ ?_ | with_reducible refine Keeps.next ?_ | with_reducible refine Keeps.ite ?_ ?_ | simp only [State.mk_fixed, State.fold_fixed, apply_ite Prod.snd, ite_self, State.modEp_fixed, State.spdm_fixed, State.spdmInvalid_fixed, State.spdmUnexpected_fixed] | split | with_reducible refine (State.foldl_fixed _ (fun _ _ => ?_) _ _).trans ?_)

theorem execGetDigests_fixed (e : EpId) (s : State) :
    Keeps (execGetDigests e s) s := by
  unfold execGetDigests
  repeat' (first | with_reducible rfl | with_reducible refine State.ite_fixed ?_ ?_ | with_reducible refine Keeps.next ?_ | with_reducible refine Keeps.ite ?_ ?_ | simp only [State.mk_fixed, State.fold_fixed, apply_ite Prod.snd, ite_self, State.spdm_fixed] | with_reducible refine State.negotiated_fixed (fun _ => ?_) | split | with_reducible refine (State.foldl_fixed _ (fun _ _ => ?_) _ _).trans ?_)

theorem execGetCertificate_fixed (e : EpId) (slot : Fin 8) (off len : BitVec 16) (s : State) :
    Keeps (execGetCertificate e slot off len s) s := by
  unfold execGetCertificate
  repeat' (first | with_reducible rfl | with_reducible refine State.ite_fixed ?_ ?_ | with_reducible refine Keeps.next ?_ | with_reducible refine Keeps.ite ?_ ?_ | simp only [State.mk_fixed, State.fold_fixed, apply_ite Prod.snd, ite_self, State.drop_fixed, State.spdm_fixed, State.spdmInvalid_fixed] | with_reducible refine State.negotiated_fixed (fun _ => ?_) | split | with_reducible refine (State.foldl_fixed _ (fun _ _ => ?_) _ _).trans ?_)

@[simp] theorem State.startSlh_fixed (s : State) (e : EpId) (hash : Nat) :
    (State.startSlh s e hash).fixed = s.fixed := by
  unfold State.startSlh
  repeat' (first | with_reducible rfl | with_reducible refine State.ite_fixed ?_ ?_ | simp only [State.mk_fixed, State.fold_fixed, apply_ite Prod.snd, ite_self, State.bt_fixed, State.modEp_fixed] | split | with_reducible refine (State.foldl_fixed _ (fun _ _ => ?_) _ _).trans ?_)

theorem execChallenge_fixed (e : EpId) (slot : Fin 8) (hash : BitVec 384) (s : State) :
    Keeps (execChallenge e slot hash s) s := by
  unfold execChallenge
  repeat' (first | with_reducible rfl | with_reducible refine State.ite_fixed ?_ ?_ | with_reducible refine Keeps.next ?_ | with_reducible refine Keeps.ite ?_ ?_ | simp only [State.mk_fixed, State.fold_fixed, apply_ite Prod.snd, ite_self, State.spdm_fixed, State.spdmInvalid_fixed, State.startSlh_fixed] | with_reducible refine State.negotiated_fixed (fun _ => ?_) | split | with_reducible refine (State.foldl_fixed _ (fun _ _ => ?_) _ _).trans ?_)

theorem execGetMeasurements_fixed (e : EpId) (index : BitVec 8) (sign : Bool) (hash : BitVec 384) (s : State) :
    Keeps (execGetMeasurements e index sign hash s) s := by
  unfold execGetMeasurements
  repeat' (first | with_reducible rfl | with_reducible refine State.ite_fixed ?_ ?_ | with_reducible refine Keeps.next ?_ | with_reducible refine Keeps.ite ?_ ?_ | simp only [State.mk_fixed, State.fold_fixed, apply_ite Prod.snd, ite_self, State.spdm_fixed, State.spdmInvalid_fixed, State.startSlh_fixed] | with_reducible refine State.negotiated_fixed (fun _ => ?_) | split | with_reducible refine (State.foldl_fixed _ (fun _ _ => ?_) _ _).trans ?_)

theorem execSlhDsaSignDone_fixed (e : EpId) (s : State) :
    Keeps (execSlhDsaSignDone e s) s := by
  unfold execSlhDsaSignDone
  repeat' (first | with_reducible rfl | with_reducible refine State.ite_fixed ?_ ?_ | with_reducible refine Keeps.next ?_ | with_reducible refine Keeps.ite ?_ ?_ | simp only [State.mk_fixed, State.fold_fixed, apply_ite Prod.snd, ite_self, State.modEp_fixed] | split | with_reducible refine (State.foldl_fixed _ (fun _ _ => ?_) _ _).trans ?_)

theorem execSlhDsaSignatureRequest_fixed (e : EpId) (op : BitVec 16) (off len : W32) (hash : BitVec 384) (s : State) :
    Keeps (execSlhDsaSignatureRequest e op off len hash s) s := by
  unfold execSlhDsaSignatureRequest
  repeat' (first | with_reducible rfl | with_reducible refine State.ite_fixed ?_ ?_ | with_reducible refine Keeps.next ?_ | with_reducible refine Keeps.ite ?_ ?_ | simp only [State.mk_fixed, State.fold_fixed, apply_ite Prod.snd, ite_self, State.drop_fixed, State.modEp_fixed, State.spdm_fixed] | with_reducible refine State.negotiated_fixed (fun _ => ?_) | split | with_reducible refine (State.foldl_fixed _ (fun _ _ => ?_) _ _).trans ?_)

theorem execKeyExchange_fixed (e : EpId) (hash : BitVec 384) (s : State) :
    Keeps (execKeyExchange e hash s) s := by
  unfold execKeyExchange
  repeat' (first | with_reducible rfl | with_reducible refine State.ite_fixed ?_ ?_ | with_reducible refine Keeps.next ?_ | with_reducible refine Keeps.ite ?_ ?_ | simp only [State.mk_fixed, State.fold_fixed, apply_ite Prod.snd, ite_self, State.bt_fixed, State.modEp_fixed, State.spdm_fixed, State.spdmUnsupported_fixed] | with_reducible refine State.negotiated_fixed (fun _ => ?_) | split | with_reducible refine (State.foldl_fixed _ (fun _ _ => ?_) _ _).trans ?_)

theorem execFinish_fixed (e : EpId) (session : W32) (s : State) :
    Keeps (execFinish e session s) s := by
  unfold execFinish
  repeat' (first | with_reducible rfl | with_reducible refine State.ite_fixed ?_ ?_ | with_reducible refine Keeps.next ?_ | with_reducible refine Keeps.ite ?_ ?_ | simp only [State.mk_fixed, State.fold_fixed, apply_ite Prod.snd, ite_self, State.modEp_fixed, State.spdm_fixed, State.spdmUnexpected_fixed] | with_reducible refine State.negotiated_fixed (fun _ => ?_) | split | with_reducible refine (State.foldl_fixed _ (fun _ _ => ?_) _ _).trans ?_)

theorem execEndSession_fixed (e : EpId) (session : W32) (s : State) :
    Keeps (execEndSession e session s) s := by
  unfold execEndSession
  repeat' (first | with_reducible rfl | with_reducible refine State.ite_fixed ?_ ?_ | with_reducible refine Keeps.next ?_ | with_reducible refine Keeps.ite ?_ ?_ | simp only [State.mk_fixed, State.fold_fixed, apply_ite Prod.snd, ite_self, State.modEp_fixed, State.spdm_fixed, State.spdmUnexpected_fixed] | with_reducible refine State.negotiated_fixed (fun _ => ?_) | split | with_reducible refine (State.foldl_fixed _ (fun _ _ => ?_) _ _).trans ?_)

theorem execIdeKmKeyProgram_fixed (p : Port) (eid : BitVec 8) (session : W32) (stream : Fin 8) (set : Fin 2) (keys : Vector (BitVec 256) 6) (s : State) :
    Keeps (execIdeKmKeyProgram p eid session stream set keys s) s := by
  unfold execIdeKmKeyProgram
  repeat' (first | with_reducible rfl | with_reducible refine State.ite_fixed ?_ ?_ | with_reducible refine Keeps.next ?_ | with_reducible refine Keeps.ite ?_ ?_ | simp only [State.mk_fixed, State.fold_fixed, apply_ite Prod.snd, ite_self, State.modPort_fixed, State.setFld_fixed] | split | with_reducible refine (State.foldl_fixed _ (fun _ _ => ?_) _ _).trans ?_)

end Sys2Proof.Machine
end

