-- ==== Sys2Proof/Laws/FixCascade.lean ====
section
/-! SUPPORT. Operations of Machine/Cascade.lean that keep the queue, memory, the straps and the OTP. -/

namespace Sys2Proof.Machine

set_option linter.all false

@[simp] theorem State.modVp_fixed (s : State) (v : Nat) (f : VukPort → VukPort) :
    (State.modVp s v f).fixed = s.fixed := by
  unfold State.modVp
  repeat' (first | with_reducible rfl | with_reducible refine State.ite_fixed ?_ ?_ | simp only [State.mk_fixed, State.fold_fixed, apply_ite Prod.snd, ite_self, State.cs_fixed, State.fresh_fixed] | with_reducible refine (State.fresh_fixed_of (by assumption)).trans ?_ | split | with_reducible refine (State.foldl_fixed _ (fun _ _ => ?_) _ _).trans ?_)

@[simp] theorem State.vukPost_fixed (s : State) (v id : Nat) (items : List (Nat × Nat)) :
    (State.vukPost s v id items).fixed = s.fixed := by
  unfold State.vukPost
  repeat' (first | with_reducible rfl | with_reducible refine State.ite_fixed ?_ ?_ | simp only [State.mk_fixed, State.fold_fixed, apply_ite Prod.snd, ite_self, State.post_fixed] | split | with_reducible refine (State.foldl_fixed _ (fun _ _ => ?_) _ _).trans ?_)

@[simp] theorem State.vukEvent_fixed (s : State) (v : Nat) :
    (State.vukEvent s v).fixed = s.fixed := by
  unfold State.vukEvent
  repeat' (first | with_reducible rfl | with_reducible refine State.ite_fixed ?_ ?_ | simp only [State.mk_fixed, State.fold_fixed, apply_ite Prod.snd, ite_self, State.vukPost_fixed] | split | with_reducible refine (State.foldl_fixed _ (fun _ _ => ?_) _ _).trans ?_)

@[simp] theorem State.vukTrain_fixed (s : State) (v : Nat) :
    (State.vukTrain s v).fixed = s.fixed := by
  unfold State.vukTrain
  repeat' (first | with_reducible rfl | with_reducible refine State.ite_fixed ?_ ?_ | simp only [State.mk_fixed, State.fold_fixed, apply_ite Prod.snd, ite_self, State.modVp_fixed] | split | with_reducible refine (State.foldl_fixed _ (fun _ _ => ?_) _ _).trans ?_)

@[simp] theorem State.modNode_fixed (s : State) (n : Nat) (f : Node → Node) :
    (State.modNode s n f).fixed = s.fixed := by
  unfold State.modNode
  repeat' (first | with_reducible rfl | with_reducible refine State.ite_fixed ?_ ?_ | simp only [State.mk_fixed, State.fold_fixed, apply_ite Prod.snd, ite_self, State.cs_fixed] | split | with_reducible refine (State.foldl_fixed _ (fun _ _ => ?_) _ _).trans ?_)

@[simp] theorem State.resendAdm_fixed (s : State) (n : Nat) :
    (State.resendAdm s n).fixed = s.fixed := by
  unfold State.resendAdm
  repeat' (first | with_reducible rfl | with_reducible refine State.ite_fixed ?_ ?_ | simp only [State.mk_fixed, State.fold_fixed, apply_ite Prod.snd, ite_self, State.sendAdmin_fixed] | split | with_reducible refine (State.foldl_fixed _ (fun _ _ => ?_) _ _).trans ?_)

@[simp] theorem State.resend_fixed (s : State) (n d : Nat) (tags : List (Nat × Fwd)) :
    (State.resend s n d tags).fixed = s.fixed := by
  unfold State.resend
  repeat' (first | with_reducible rfl | with_reducible refine State.ite_fixed ?_ ?_ | simp only [State.mk_fixed, State.fold_fixed, apply_ite Prod.snd, ite_self, State.bump_fixed, State.cs_fixed, State.post_fixed, State.resendAdm_fixed, State.sendVuk_fixed] | split | with_reducible refine (State.foldl_fixed _ (fun _ _ => ?_) _ _).trans ?_)

@[simp] theorem State.pathFail_fixed (s : State) (n d : Nat) :
    (State.pathFail s n d).fixed = s.fixed := by
  unfold State.pathFail
  repeat' (first | with_reducible rfl | with_reducible refine State.ite_fixed ?_ ?_ | simp only [State.mk_fixed, State.fold_fixed, apply_ite Prod.snd, ite_self, State.cs_fixed, State.modNode_fixed, State.resend_fixed] | split | with_reducible refine (State.foldl_fixed _ (fun _ _ => ?_) _ _).trans ?_)

@[simp] theorem State.pathBack_fixed (s : State) (n : Nat) :
    (State.pathBack s n).fixed = s.fixed := by
  unfold State.pathBack
  repeat' (first | with_reducible rfl | with_reducible refine State.ite_fixed ?_ ?_ | simp only [State.mk_fixed, State.fold_fixed, apply_ite Prod.snd, ite_self, State.resend_fixed, State.resendAdm_fixed] | split | with_reducible refine (State.foldl_fixed _ (fun _ _ => ?_) _ _).trans ?_)

@[simp] theorem State.vukDown_fixed (s : State) (v : Nat) :
    (State.vukDown s v).fixed = s.fixed := by
  unfold State.vukDown
  repeat' (first | with_reducible rfl | with_reducible refine State.ite_fixed ?_ ?_ | simp only [State.mk_fixed, State.fold_fixed, apply_ite Prod.snd, ite_self, State.pathFail_fixed, State.setFld_fixed, State.vukPost_fixed] | split | with_reducible refine (State.foldl_fixed _ (fun _ _ => ?_) _ _).trans ?_)

@[simp] theorem State.vukLinkCfg_fixed (s : State) (v w : Nat) :
    (State.vukLinkCfg s v w).fixed = s.fixed := by
  unfold State.vukLinkCfg
  repeat' (first | with_reducible rfl | with_reducible refine State.ite_fixed ?_ ?_ | simp only [State.mk_fixed, State.fold_fixed, apply_ite Prod.snd, ite_self, State.fresh_fixed, State.modVp_fixed, State.setFld_fixed, State.vukDown_fixed, State.vukTrain_fixed] | with_reducible refine (State.fresh_fixed_of (by assumption)).trans ?_ | split | with_reducible refine (State.foldl_fixed _ (fun _ _ => ?_) _ _).trans ?_)

theorem execVukLinkEnable_fixed (v : Fin 2) (w4ok : Bool) (s : State) :
    Keeps (execVukLinkEnable v w4ok s) s := by
  unfold execVukLinkEnable
  repeat' (first | with_reducible rfl | with_reducible refine State.ite_fixed ?_ ?_ | with_reducible refine Keeps.next ?_ | with_reducible refine Keeps.ite ?_ ?_ | simp only [State.mk_fixed, State.fold_fixed, apply_ite Prod.snd, ite_self, State.vukLinkCfg_fixed] | split | with_reducible refine (State.foldl_fixed _ (fun _ _ => ?_) _ _).trans ?_)

theorem execVukTrainingRetry_fixed (v : Fin 2) (s : State) :
    Keeps (execVukTrainingRetry v s) s := by
  unfold execVukTrainingRetry
  repeat' (first | with_reducible rfl | with_reducible refine State.ite_fixed ?_ ?_ | with_reducible refine Keeps.next ?_ | with_reducible refine Keeps.ite ?_ ?_ | simp only [State.mk_fixed, State.fold_fixed, apply_ite Prod.snd, ite_self, State.vukTrain_fixed] | split | with_reducible refine (State.foldl_fixed _ (fun _ _ => ?_) _ _).trans ?_)

theorem execHello_fixed (v : Fin 2) (peerMaster : Bool) (node : Fin 4) (casc serial : W64) (lanes4 : Option (BitVec 8)) (s : State) :
    Keeps (execHello v peerMaster node casc serial lanes4 s) s := by
  unfold execHello
  repeat' (first | with_reducible rfl | with_reducible refine State.ite_fixed ?_ ?_ | with_reducible refine Keeps.next ?_ | with_reducible refine Keeps.ite ?_ ?_ | simp only [State.mk_fixed, State.fold_fixed, apply_ite Prod.snd, ite_self, State.modVp_fixed, State.sendVuk_fixed, State.setFld_fixed, State.vukPost_fixed] | split | with_reducible refine (State.foldl_fixed _ (fun _ _ => ?_) _ _).trans ?_)

@[simp] theorem State.enumerate_fixed (s : State) :
    (State.enumerate s).fixed = s.fixed := by
  unfold State.enumerate
  repeat' (first | with_reducible rfl | with_reducible refine State.ite_fixed ?_ ?_ | simp only [State.mk_fixed, State.fold_fixed, apply_ite Prod.snd, ite_self, State.sendBoth_fixed, State.setFld_fixed] | split | with_reducible refine (State.foldl_fixed _ (fun _ _ => ?_) _ _).trans ?_)

theorem execLinkAuthentication_fixed (v : Fin 2) (ok : Bool) (s : State) :
    Keeps (execLinkAuthentication v ok s) s := by
  unfold execLinkAuthentication
  repeat' (first | with_reducible rfl | with_reducible refine State.ite_fixed ?_ ?_ | with_reducible refine Keeps.next ?_ | with_reducible refine Keeps.ite ?_ ?_ | simp only [State.mk_fixed, State.fold_fixed, apply_ite Prod.snd, ite_self, State.enumerate_fixed, State.modVp_fixed, State.reportReady_fixed, State.setFld_fixed, State.vukDown_fixed, State.vukEvent_fixed, State.vukPost_fixed] | split | with_reducible refine (State.foldl_fixed _ (fun _ _ => ?_) _ _).trans ?_)

theorem execLinkKeyRenewal_fixed (v : Fin 2) (s : State) :
    Keeps (execLinkKeyRenewal v s) s := by
  unfold execLinkKeyRenewal
  repeat' (first | with_reducible rfl | with_reducible refine State.ite_fixed ?_ ?_ | with_reducible refine Keeps.next ?_ | with_reducible refine Keeps.ite ?_ ?_ | simp only [State.mk_fixed, State.fold_fixed, apply_ite Prod.snd, ite_self, State.modVp_fixed, State.sendVuk_fixed] | split | with_reducible refine (State.foldl_fixed _ (fun _ _ => ?_) _ _).trans ?_)

theorem execVukoroFrame_fixed (v : Fin 2) (seq : W32) (fec : Fin 3) (auth : Bool) (s : State) :
    Keeps (execVukoroFrame v seq fec auth s) s := by
  unfold execVukoroFrame
  repeat' (first | with_reducible rfl | with_reducible refine State.ite_fixed ?_ ?_ | with_reducible refine Keeps.next ?_ | with_reducible refine Keeps.ite ?_ ?_ | simp only [State.mk_fixed, State.fold_fixed, apply_ite Prod.snd, ite_self, State.bump_fixed, State.modVp_fixed] | split | with_reducible refine (State.foldl_fixed _ (fun _ _ => ?_) _ _).trans ?_)

theorem execVukoroLinkDown_fixed (v : Fin 2) (s : State) :
    Keeps (execVukoroLinkDown v s) s := by
  unfold execVukoroLinkDown
  repeat' (first | with_reducible rfl | with_reducible refine State.ite_fixed ?_ ?_ | with_reducible refine Keeps.next ?_ | with_reducible refine Keeps.ite ?_ ?_ | simp only [State.mk_fixed, State.fold_fixed, apply_ite Prod.snd, ite_self, State.vukDown_fixed, State.vukTrain_fixed] | split | with_reducible refine (State.foldl_fixed _ (fun _ _ => ?_) _ _).trans ?_)

theorem execPathFailureReroute_fixed (node : Fin 4) (dir : Fin 2) (s : State) :
    Keeps (execPathFailureReroute node dir s) s := by
  unfold execPathFailureReroute
  repeat' (first | with_reducible rfl | with_reducible refine State.ite_fixed ?_ ?_ | with_reducible refine Keeps.next ?_ | with_reducible refine Keeps.ite ?_ ?_ | simp only [State.mk_fixed, State.fold_fixed, apply_ite Prod.snd, ite_self, State.pathFail_fixed] | split | with_reducible refine (State.foldl_fixed _ (fun _ _ => ?_) _ _).trans ?_)

@[simp] theorem State.setCfs_fixed (s : State) :
    (State.setCfs s).fixed = s.fixed := by
  unfold State.setCfs
  repeat' (first | with_reducible rfl | with_reducible refine State.ite_fixed ?_ ?_ | simp only [State.mk_fixed, State.fold_fixed, apply_ite Prod.snd, ite_self, State.hf_fixed] | split | with_reducible refine (State.foldl_fixed _ (fun _ _ => ?_) _ _).trans ?_)

@[simp] theorem State.grant_fixed (s : State) (v id n : Nat) :
    (State.grant s v id n).fixed = s.fixed := by
  unfold State.grant
  repeat' (first | with_reducible rfl | with_reducible refine State.ite_fixed ?_ ?_ | simp only [State.mk_fixed, State.fold_fixed, apply_ite Prod.snd, ite_self, State.cfgWrite_fixed, State.cs_fixed, State.hf_fixed, State.modNode_fixed, State.reportReady_fixed, State.setFld_fixed] | split | with_reducible refine (State.foldl_fixed _ (fun _ _ => ?_) _ _).trans ?_)

@[simp] theorem State.notAdmitted_fixed (s : State) (v cause : Nat) :
    (State.notAdmitted s v cause).fixed = s.fixed := by
  unfold State.notAdmitted
  repeat' (first | with_reducible rfl | with_reducible refine State.ite_fixed ?_ ?_ | simp only [State.mk_fixed, State.fold_fixed, apply_ite Prod.snd, ite_self, State.cs_fixed, State.post_fixed, State.setCfs_fixed] | split | with_reducible refine (State.foldl_fixed _ (fun _ _ => ?_) _ _).trans ?_)

theorem execEnum_fixed (v : Fin 2) (id : W64) (claims : List (Fin 4 × W64)) (s : State) :
    Keeps (execEnum v id claims s) s := by
  unfold execEnum
  repeat' (first | with_reducible rfl | with_reducible refine State.ite_fixed ?_ ?_ | with_reducible refine Keeps.next ?_ | with_reducible refine Keeps.ite ?_ ?_ | simp only [State.mk_fixed, State.fold_fixed, apply_ite Prod.snd, ite_self, State.cs_fixed, State.grant_fixed, State.notAdmitted_fixed, State.sendVuk_fixed, State.setFld_fixed, State.vukPost_fixed] | split | with_reducible refine (State.foldl_fixed _ (fun _ _ => ?_) _ _).trans ?_)

theorem execDupmaster_fixed (v : Fin 2) (s : State) :
    Keeps (execDupmaster v s) s := by
  unfold execDupmaster
  repeat' (first | with_reducible rfl | with_reducible refine State.ite_fixed ?_ ?_ | with_reducible refine Keeps.next ?_ | with_reducible refine Keeps.ite ?_ ?_ | simp only [State.mk_fixed, State.fold_fixed, apply_ite Prod.snd, ite_self, State.modVp_fixed, State.vukDown_fixed, State.vukPost_fixed] | split | with_reducible refine (State.foldl_fixed _ (fun _ _ => ?_) _ _).trans ?_)

@[simp] theorem State.showNodes_fixed (s : State) :
    (State.showNodes s).fixed = s.fixed := by
  unfold State.showNodes
  repeat' (first | with_reducible rfl | with_reducible refine State.ite_fixed ?_ ?_ | simp only [State.mk_fixed, State.fold_fixed, apply_ite Prod.snd, ite_self, State.setFld_fixed] | split | with_reducible refine (State.foldl_fixed _ (fun _ _ => ?_) _ _).trans ?_)

@[simp] theorem State.foundNode_fixed (s : State) (x : NodeInfo) :
    (State.foundNode s x).fixed = s.fixed := by
  unfold State.foundNode
  repeat' (first | with_reducible rfl | with_reducible refine State.ite_fixed ?_ ?_ | simp only [State.mk_fixed, State.fold_fixed, apply_ite Prod.snd, ite_self, State.modNode_fixed] | split | with_reducible refine (State.foldl_fixed _ (fun _ _ => ?_) _ _).trans ?_)

@[simp] theorem State.offlineNs_fixed (s : State) (nsid : Nat) :
    (State.offlineNs s nsid).fixed = s.fixed := by
  unfold State.offlineNs
  repeat' (first | with_reducible rfl | with_reducible refine State.ite_fixed ?_ ?_ | simp only [State.mk_fixed, State.fold_fixed, apply_ite Prod.snd, ite_self, State.cs_fixed, State.offlineZone_fixed, State.zoneAen_fixed] | split | with_reducible refine (State.foldl_fixed _ (fun _ _ => ?_) _ _).trans ?_)

theorem execNodeList_fixed (nodes : List NodeInfo) (ring : Bool) (lost : List (Fin 1024)) (s : State) :
    Keeps (execNodeList nodes ring lost s) s := by
  unfold execNodeList
  repeat' (first | with_reducible rfl | with_reducible refine State.ite_fixed ?_ ?_ | with_reducible refine Keeps.next ?_ | with_reducible refine Keeps.ite ?_ ?_ | simp only [State.mk_fixed, State.fold_fixed, apply_ite Prod.snd, ite_self, State.cs_fixed, State.foundNode_fixed, State.hf_fixed, State.notify_fixed, State.offlineNs_fixed, State.pathBack_fixed, State.reportEnum_fixed, State.sendBoth_fixed, State.setFld_fixed, State.showNodes_fixed] | split | with_reducible refine (State.foldl_fixed _ (fun _ _ => ?_) _ _).trans ?_)

theorem execMemberReady_fixed (node : Fin 4) (linkUp : Bool) (s : State) :
    Keeps (execMemberReady node linkUp s) s := by
  unfold execMemberReady
  repeat' (first | with_reducible rfl | with_reducible refine State.ite_fixed ?_ ?_ | with_reducible refine Keeps.next ?_ | with_reducible refine Keeps.ite ?_ ?_ | simp only [State.mk_fixed, State.fold_fixed, apply_ite Prod.snd, ite_self, State.enumerate_fixed, State.modNode_fixed, State.showNodes_fixed] | split | with_reducible refine (State.foldl_fixed _ (fun _ _ => ?_) _ _).trans ?_)

theorem execCsyncPulse_fixed (sec : W32) (err : Fin 101) (s : State) :
    Keeps (execCsyncPulse sec err s) s := by
  unfold execCsyncPulse
  repeat' (first | with_reducible rfl | with_reducible refine State.ite_fixed ?_ ?_ | with_reducible refine Keeps.next ?_ | with_reducible refine Keeps.ite ?_ ?_ | simp only [State.mk_fixed, State.fold_fixed, apply_ite Prod.snd, ite_self, State.cs_fixed] | split | with_reducible refine (State.foldl_fixed _ (fun _ _ => ?_) _ _).trans ?_)

theorem execTimeOrderedSet_fixed (t : W64) (err : Fin 2001) (s : State) :
    Keeps (execTimeOrderedSet t err s) s := by
  unfold execTimeOrderedSet
  repeat' (first | with_reducible rfl | with_reducible refine State.ite_fixed ?_ ?_ | with_reducible refine Keeps.next ?_ | with_reducible refine Keeps.ite ?_ ?_ | simp only [State.mk_fixed, State.fold_fixed, apply_ite Prod.snd, ite_self, State.sendBoth_fixed] | split | with_reducible refine (State.foldl_fixed _ (fun _ _ => ?_) _ _).trans ?_)

@[simp] theorem State.noteTag_fixed (s : State) (key : Nat) :
    (State.noteTag s key).fixed = s.fixed := by
  unfold State.noteTag
  repeat' (first | with_reducible rfl | with_reducible refine State.ite_fixed ?_ ?_ | simp only [State.mk_fixed, State.fold_fixed, apply_ite Prod.snd, ite_self, State.cs_fixed, State.drop_fixed] | split | with_reducible refine (State.foldl_fixed _ (fun _ _ => ?_) _ _).trans ?_)

@[simp] theorem State.admitFwd_fixed (s : State) (tag ten : Nat) (e : Sqe) (pair : Option Sqe) (n : Nat) (x : Ns) :
    (State.admitFwd s tag ten e pair n x).fixed = s.fixed := by
  unfold State.admitFwd
  repeat' (first | with_reducible rfl | with_reducible refine State.ite_fixed ?_ ?_ | simp only [State.mk_fixed, State.fold_fixed, apply_ite Prod.snd, ite_self, State.addHazard_fixed, State.bump_fixed, State.hf_fixed, State.pressureStage_fixed, State.reserveBufs_fixed] | with_reducible refine (State.reserveBufs_fixed_of (by assumption)).trans ?_ | split | with_reducible refine (State.foldl_fixed _ (fun _ _ => ?_) _ _).trans ?_)

@[simp] theorem State.takeFwd_fixed (s : State) (tag ten : Nat) (e : Sqe) (pair : Option Sqe) :
    (State.takeFwd s tag ten e pair).fixed = s.fixed := by
  unfold State.takeFwd
  repeat' (first | with_reducible rfl | with_reducible refine State.ite_fixed ?_ ?_ | simp only [State.mk_fixed, State.fold_fixed, apply_ite Prod.snd, ite_self, State.admitFwd_fixed, State.noteTag_fixed, State.postFwd_fixed] | split | with_reducible refine (State.foldl_fixed _ (fun _ _ => ?_) _ _).trans ?_)

@[simp] theorem State.orphanStep_fixed (s : State) :
    (State.orphanStep s).fixed = s.fixed := by
  unfold State.orphanStep
  repeat' (first | with_reducible rfl | with_reducible refine State.ite_fixed ?_ ?_ | simp only [State.mk_fixed, State.fold_fixed, apply_ite Prod.snd, ite_self, State.sealAll_fixed, State.stageAll_fixed] | split | with_reducible refine (State.foldl_fixed _ (fun _ _ => ?_) _ _).trans ?_)

theorem execOrphanTimeout_fixed (s : State) :
    Keeps (execOrphanTimeout s) s := by
  unfold execOrphanTimeout
  repeat' (first | with_reducible rfl | with_reducible refine State.ite_fixed ?_ ?_ | with_reducible refine Keeps.next ?_ | with_reducible refine Keeps.ite ?_ ?_ | simp only [State.mk_fixed, State.fold_fixed, apply_ite Prod.snd, ite_self, State.cs_fixed, State.endSlotReset_fixed, State.orphanStep_fixed, State.post_fixed, State.setCfs_fixed] | split | with_reducible refine (State.foldl_fixed _ (fun _ _ => ?_) _ _).trans ?_)

end Sys2Proof.Machine
end

