-- ==== Sys2Proof/Laws/FixRegisters.lean ====
section
/-! SUPPORT. Operations of Machine/Registers.lean that keep the queue, memory, the straps and the OTP. -/

namespace Sys2Proof.Machine

set_option linter.all false

@[simp] theorem State.clkWrite_fixed (s : State) (isl v : Nat) :
    (State.clkWrite s isl v).fixed = s.fixed := by
  unfold State.clkWrite
  repeat' (first | with_reducible rfl | with_reducible refine State.ite_fixed ?_ ?_ | simp only [State.mk_fixed, State.fold_fixed, apply_ite Prod.snd, ite_self, State.setFld_fixed] | split | with_reducible refine (State.foldl_fixed _ (fun _ _ => ?_) _ _).trans ?_)

theorem execPllLock_fixed (isl : Isl) (s : State) :
    Keeps (execPllLock isl s) s := by
  unfold execPllLock
  repeat' (first | with_reducible rfl | with_reducible refine State.ite_fixed ?_ ?_ | with_reducible refine Keeps.next ?_ | with_reducible refine Keeps.ite ?_ ?_ | simp only [State.mk_fixed, State.fold_fixed, apply_ite Prod.snd, ite_self, State.setFld_fixed] | split | with_reducible refine (State.foldl_fixed _ (fun _ _ => ?_) _ _).trans ?_)

theorem execPllLossOfLock_fixed (isl : Isl) (s : State) :
    Keeps (execPllLossOfLock isl s) s := by
  unfold execPllLossOfLock
  repeat' (first | with_reducible rfl | with_reducible refine State.ite_fixed ?_ ?_ | with_reducible refine Keeps.next ?_ | with_reducible refine Keeps.ite ?_ ?_ | simp only [State.mk_fixed, State.fold_fixed, apply_ite Prod.snd, ite_self, State.mgtPost_fixed, State.setFld_fixed] | split | with_reducible refine (State.foldl_fixed _ (fun _ _ => ?_) _ _).trans ?_)

@[simp] theorem State.accessError_fixed (s : State) (q : Requester) (store : Bool) (a : Nat) :
    (State.accessError s q store a).fixed = s.fixed := by
  unfold State.accessError
  repeat' (first | with_reducible rfl | with_reducible refine State.ite_fixed ?_ ?_ | simp only [State.mk_fixed, State.fold_fixed, apply_ite Prod.snd, ite_self, State.answer_fixed, State.dmaEnd_fixed, State.drawFree_fixed, State.trap_fixed] | with_reducible refine (State.drawFree_fixed_of (by assumption)).trans ?_ | split | with_reducible refine (State.foldl_fixed _ (fun _ _ => ?_) _ _).trans ?_)

theorem State.access_fixed {s : State} {q : Requester} {store : Bool} {isl off size : Nat} {run : State → State} (hrun : ∀ v0, (run v0).fixed = v0.fixed) :
    (State.access s q store isl off size run).fixed = s.fixed := by
  unfold State.access
  repeat' (first | with_reducible rfl | with_reducible refine State.ite_fixed ?_ ?_ | simp only [State.mk_fixed, State.fold_fixed, apply_ite Prod.snd, ite_self, hrun, State.accessError_fixed, State.portError_fixed] | split | with_reducible refine (State.foldl_fixed _ (fun _ _ => ?_) _ _).trans ?_)

theorem execHandshakeTimeout_fixed (q : Requester) (isl : Isl) (store : Bool) (a : BitVec 40) (s : State) :
    Keeps (execHandshakeTimeout q isl store a s) s := by
  unfold execHandshakeTimeout
  repeat' (first | with_reducible rfl | with_reducible refine State.ite_fixed ?_ ?_ | with_reducible refine Keeps.next ?_ | with_reducible refine Keeps.ite ?_ ?_ | simp only [State.mk_fixed, State.fold_fixed, apply_ite Prod.snd, ite_self, State.accessError_fixed, State.mgtPost_fixed, State.portError_fixed] | split | with_reducible refine (State.foldl_fixed _ (fun _ _ => ?_) _ _).trans ?_)

theorem execFabPortctlWrite_fixed (c : CoreId) (isl : Isl) (s : State) :
    Keeps (execFabPortctlWrite c isl s) s := by
  unfold execFabPortctlWrite
  repeat' (first | with_reducible rfl | with_reducible refine State.ite_fixed ?_ ?_ | with_reducible refine Keeps.next ?_ | with_reducible refine Keeps.ite ?_ ?_ | simp only [State.mk_fixed, State.fold_fixed, apply_ite Prod.snd, ite_self] | split | with_reducible refine (State.foldl_fixed _ (fun _ _ => ?_) _ _).trans ?_)

theorem execPowerGatedAccess_fixed (q : Requester) (isl : Isl) (off : BitVec 20) (store : Bool) (s : State) :
    Keeps (execPowerGatedAccess q isl off store s) s := by
  unfold execPowerGatedAccess
  repeat' (first | with_reducible rfl | with_reducible refine State.ite_fixed ?_ ?_ | with_reducible refine Keeps.next ?_ | with_reducible refine Keeps.ite ?_ ?_ | simp only [State.mk_fixed, State.fold_fixed, apply_ite Prod.snd, ite_self, State.accessError_fixed, State.portError_fixed] | split | with_reducible refine (State.foldl_fixed _ (fun _ _ => ?_) _ _).trans ?_)

@[simp] theorem State.follow_fixed (s : State) (d : RegDef) :
    (State.follow s d).fixed = s.fixed := by
  unfold State.follow
  repeat' (first | with_reducible rfl | with_reducible refine State.ite_fixed ?_ ?_ | simp only [State.mk_fixed, State.fold_fixed, apply_ite Prod.snd, ite_self, State.holdupRecompute_fixed, State.showEff_fixed, State.showPower_fixed] | split | with_reducible refine (State.foldl_fixed _ (fun _ _ => ?_) _ _).trans ?_)

@[simp] theorem State.linkcfgWrite_fixed (s : State) (d : RegDef) (p v : Nat) :
    (State.linkcfgWrite s d p v).fixed = s.fixed := by
  unfold State.linkcfgWrite
  repeat' (first | with_reducible rfl | with_reducible refine State.ite_fixed ?_ ?_ | simp only [State.mk_fixed, State.fold_fixed, apply_ite Prod.snd, ite_self, State.linkDown_fixed, State.linkEnable_fixed, State.modPort_fixed, State.resetPortFns_fixed, State.setFld_fixed, State.setWord_fixed] | split | with_reducible refine (State.foldl_fixed _ (fun _ _ => ?_) _ _).trans ?_)

@[simp] theorem State.fnmapWrite_fixed (s : State) (p f v : Nat) :
    (State.fnmapWrite s p f v).fixed = s.fixed := by
  unfold State.fnmapWrite
  repeat' (first | with_reducible rfl | with_reducible refine State.ite_fixed ?_ ?_ | simp only [State.mk_fixed, State.fold_fixed, apply_ite Prod.snd, ite_self, State.hifPost_fixed, State.setFld_fixed] | split | with_reducible refine (State.foldl_fixed _ (fun _ _ => ?_) _ _).trans ?_)

@[simp] theorem State.tzqWrite_fixed (s : State) (t v : Nat) :
    (State.tzqWrite s t v).fixed = s.fixed := by
  unfold State.tzqWrite
  repeat' (first | with_reducible rfl | with_reducible refine State.ite_fixed ?_ ?_ | simp only [State.mk_fixed, State.fold_fixed, apply_ite Prod.snd, ite_self, State.setFld_fixed, State.znePost_fixed] | split | with_reducible refine (State.foldl_fixed _ (fun _ _ => ?_) _ _).trans ?_)

@[simp] theorem State.tcredWrite_fixed (s : State) (t v : Nat) :
    (State.tcredWrite s t v).fixed = s.fixed := by
  unfold State.tcredWrite
  repeat' (first | with_reducible rfl | with_reducible refine State.ite_fixed ?_ ?_ | simp only [State.mk_fixed, State.fold_fixed, apply_ite Prod.snd, ite_self, State.hifPost_fixed, State.setFld_fixed] | split | with_reducible refine (State.foldl_fixed _ (fun _ _ => ?_) _ _).trans ?_)

@[simp] theorem State.diecmdWrite_fixed (s : State) (v : Nat) :
    (State.diecmdWrite s v).fixed = s.fixed := by
  unfold State.diecmdWrite
  repeat' (first | with_reducible rfl | with_reducible refine State.ite_fixed ?_ ?_ | simp only [State.mk_fixed, State.fold_fixed, apply_ite Prod.snd, ite_self, State.dieDead_fixed] | split | with_reducible refine (State.foldl_fixed _ (fun _ _ => ?_) _ _).trans ?_)

@[simp] theorem State.modelvWrite_fixed (s : State) (v : Nat) :
    (State.modelvWrite s v).fixed = s.fixed := by
  unfold State.modelvWrite
  repeat' (first | with_reducible rfl | with_reducible refine State.ite_fixed ?_ ?_ | simp only [State.mk_fixed, State.fold_fixed, apply_ite Prod.snd, ite_self, State.setWord_fixed] | split | with_reducible refine (State.foldl_fixed _ (fun _ _ => ?_) _ _).trans ?_)

@[simp] theorem State.extmeasWrite_fixed (s : State) (e v : Nat) :
    (State.extmeasWrite s e v).fixed = s.fixed := by
  unfold State.extmeasWrite
  repeat' (first | with_reducible rfl | with_reducible refine State.ite_fixed ?_ ?_ | simp only [State.mk_fixed, State.fold_fixed, apply_ite Prod.snd, ite_self, State.lp_fixed, State.setFld_fixed] | split | with_reducible refine (State.foldl_fixed _ (fun _ _ => ?_) _ _).trans ?_)

@[simp] theorem State.seqctlWrite_fixed (s : State) (n v : Nat) :
    (State.seqctlWrite s n v).fixed = s.fixed := by
  unfold State.seqctlWrite
  repeat' (first | with_reducible rfl | with_reducible refine State.ite_fixed ?_ ?_ | simp only [State.mk_fixed, State.fold_fixed, apply_ite Prod.snd, ite_self, State.seqRun_fixed, State.seqStop_fixed, State.setFld_fixed] | split | with_reducible refine (State.foldl_fixed _ (fun _ _ => ?_) _ _).trans ?_)

@[simp] theorem State.dctlWrite_fixed (s : State) (n v : Nat) :
    (State.dctlWrite s n v).fixed = s.fixed := by
  unfold State.dctlWrite
  repeat' (first | with_reducible rfl | with_reducible refine State.ite_fixed ?_ ?_ | simp only [State.mk_fixed, State.fold_fixed, apply_ite Prod.snd, ite_self, State.directGo_fixed, State.setFld_fixed] | split | with_reducible refine (State.foldl_fixed _ (fun _ _ => ?_) _ _).trans ?_)

@[simp] theorem State.fwcurWrite_fixed (s : State) (v : Nat) :
    (State.fwcurWrite s v).fixed = s.fixed := by
  unfold State.fwcurWrite
  repeat' (first | with_reducible rfl | with_reducible refine State.ite_fixed ?_ ?_ | simp only [State.mk_fixed, State.fold_fixed, apply_ite Prod.snd, ite_self, State.setWord_fixed] | split | with_reducible refine (State.foldl_fixed _ (fun _ _ => ?_) _ _).trans ?_)

@[simp] theorem State.safecfgWrite_fixed (s : State) (v : Nat) :
    (State.safecfgWrite s v).fixed = s.fixed := by
  unfold State.safecfgWrite
  repeat' (first | with_reducible rfl | with_reducible refine State.ite_fixed ?_ ?_ | simp only [State.mk_fixed, State.fold_fixed, apply_ite Prod.snd, ite_self, State.driveTwarn_fixed, State.dropSafe_fixed, State.setWord_fixed, State.takeSafe_fixed] | split | with_reducible refine (State.foldl_fixed _ (fun _ _ => ?_) _ _).trans ?_)

@[simp] theorem State.mbistctlWrite_fixed (s : State) (q : Requester) (v : Nat) :
    (State.mbistctlWrite s q v).fixed = s.fixed := by
  unfold State.mbistctlWrite
  repeat' (first | with_reducible rfl | with_reducible refine State.ite_fixed ?_ ?_ | simp only [State.mk_fixed, State.fold_fixed, apply_ite Prod.snd, ite_self, State.mbistGo_fixed, State.setFld_fixed] | split | with_reducible refine (State.foldl_fixed _ (fun _ _ => ?_) _ _).trans ?_)

@[simp] theorem State.plainWrite_fixed (s : State) (d : RegDef) (isl i key v mask : Nat) :
    (State.plainWrite s d isl i key v mask).fixed = s.fixed := by
  unfold State.plainWrite
  repeat' (first | with_reducible rfl | with_reducible refine State.ite_fixed ?_ ?_ | simp only [State.mk_fixed, State.fold_fixed, apply_ite Prod.snd, ite_self, State.follow_fixed, State.setWord_fixed] | split | with_reducible refine (State.foldl_fixed _ (fun _ _ => ?_) _ _).trans ?_)

@[simp] theorem State.wordReadAt_fixed (s : State) (q : Requester) (isl off : Nat) (r : Option (RegDef × Nat × Nat)) :
    (s.wordReadAt q isl off r).2.fixed = s.fixed := by
  unfold State.wordReadAt
  split
  · exact State.ite_snd_fixed rfl (State.ite_snd_fixed rfl rfl)
  · extract_lets key s1 v
    have h : s1.fixed = s.fixed := State.ite_fixed (State.kweLockRead_fixed ..) rfl
    clear_value s1 v
    refine State.ite_snd_fixed h (State.ite_snd_fixed ((State.mk_fixed ..).trans h) ?_)
    split
    · exact (State.mk_fixed ..).trans h
    · exact h

theorem State.wordReadAt_fixed_of {s : State} {q : Requester} {isl off : Nat} {r : Option (RegDef × Nat × Nat)} {v : Nat} {t : State}
    (h : s.wordReadAt q isl off r = (v, t)) : t.fixed = s.fixed := by
  have := State.wordReadAt_fixed s q isl off r
  rw [h] at this
  exact this

@[simp] theorem State.wordRead_fixed (s : State) (q : Requester) (isl off : Nat) :
    (State.wordRead s q isl off).2.fixed = s.fixed := by
  unfold State.wordRead
  repeat' (first | with_reducible rfl | with_reducible refine State.ite_fixed ?_ ?_ | simp only [State.mk_fixed, State.fold_fixed, apply_ite Prod.snd, ite_self, State.wordReadAt_fixed] | with_reducible refine (State.wordReadAt_fixed_of (by assumption)).trans ?_ | split | with_reducible refine (State.foldl_fixed _ (fun _ _ => ?_) _ _).trans ?_)

theorem State.wordRead_fixed_of {s : State} {q : Requester} {isl off : Nat} {x0} {t : State} (h : State.wordRead s q isl off = (x0, t)) : t.fixed = s.fixed := by
  have := State.wordRead_fixed s q isl off
  rw [h] at this
  exact this

theorem execBar2Write_fixed (_p : Port) (_off : BitVec 20) (_v : W32) (s : State) :
    Keeps (execBar2Write _p _off _v s) s := by
  unfold execBar2Write
  repeat' (first | with_reducible rfl | with_reducible refine State.ite_fixed ?_ ?_ | with_reducible refine Keeps.next ?_ | with_reducible refine Keeps.ite ?_ ?_ | simp only [State.mk_fixed, State.fold_fixed, apply_ite Prod.snd, ite_self] | split | with_reducible refine (State.foldl_fixed _ (fun _ _ => ?_) _ _).trans ?_)

theorem execJtagMbist_fixed (v : W64) (s : State) :
    Keeps (execJtagMbist v s) s := by
  unfold execJtagMbist
  repeat' (first | with_reducible rfl | with_reducible refine State.ite_fixed ?_ ?_ | with_reducible refine Keeps.next ?_ | with_reducible refine Keeps.ite ?_ ?_ | simp only [State.mk_fixed, State.fold_fixed, apply_ite Prod.snd, ite_self, State.answer_fixed, State.mbistctlWrite_fixed, State.tapTest_fixed] | split | with_reducible refine (State.foldl_fixed _ (fun _ _ => ?_) _ _).trans ?_)

end Sys2Proof.Machine
end

