-- ==== Sys2Proof/Laws/FixIdle.lean ====
section
/-! SUPPORT. Operations of Machine/Idle.lean that keep the queue, memory, the straps and the OTP. -/

namespace Sys2Proof.Machine

set_option linter.all false

@[simp] theorem State.smartTime_fixed (s : State) :
    (State.smartTime s).fixed = s.fixed := by
  unfold State.smartTime
  repeat' (first | with_reducible rfl | with_reducible refine State.ite_fixed ?_ ?_ | simp only [State.mk_fixed, State.fold_fixed, apply_ite Prod.snd, ite_self, State.smartAdd_fixed] | split | with_reducible refine (State.foldl_fixed _ (fun _ _ => ?_) _ _).trans ?_)

@[simp] theorem State.passTime_fixed (s : State) :
    (State.passTime s).fixed = s.fixed := by
  unfold State.passTime
  repeat' (first | with_reducible rfl | with_reducible refine State.ite_fixed ?_ ?_ | simp only [State.mk_fixed, State.fold_fixed, apply_ite Prod.snd, ite_self, State.bump_fixed, State.smartTime_fixed] | split | with_reducible refine (State.foldl_fixed _ (fun _ _ => ?_) _ _).trans ?_)

@[simp] theorem State.noHuskStep_fixed (s : State) :
    (State.noHuskStep s).fixed = s.fixed := by
  unfold State.noHuskStep
  repeat' (first | with_reducible rfl | with_reducible refine State.ite_fixed ?_ ?_ | simp only [State.mk_fixed, State.fold_fixed, apply_ite Prod.snd, ite_self, State.hk_fixed, State.makeReadOnly_fixed, State.nextStage_fixed, State.packInto_fixed, State.wantStripe_fixed] | with_reducible refine (State.nextStage_fixed_of (by assumption)).trans ?_ | split | with_reducible refine (State.foldl_fixed _ (fun _ _ => ?_) _ _).trans ?_)

@[simp] theorem State.sweepStep_fixed (s : State) :
    (State.sweepStep s).fixed = s.fixed := by
  unfold State.sweepStep
  repeat' (first | with_reducible rfl | with_reducible refine State.ite_fixed ?_ ?_ | simp only [State.mk_fixed, State.fold_fixed, apply_ite Prod.snd, ite_self, State.sweepRead_fixed] | split | with_reducible refine (State.foldl_fixed _ (fun _ _ => ?_) _ _).trans ?_)

@[simp] theorem State.keyStep_fixed (s : State) :
    (State.keyStep s).fixed = s.fixed := by
  unfold State.keyStep
  repeat' (first | with_reducible rfl | with_reducible refine State.ite_fixed ?_ ?_ | simp only [State.mk_fixed, State.fold_fixed, apply_ite Prod.snd, ite_self, State.eraseStep_fixed, State.serveEntropy_fixed] | split | with_reducible refine (State.foldl_fixed _ (fun _ _ => ?_) _ _).trans ?_)

@[simp] theorem State.shutdownAll_fixed (s : State) :
    (State.shutdownAll s).fixed = s.fixed := by
  unfold State.shutdownAll
  repeat' (first | with_reducible rfl | with_reducible refine State.ite_fixed ?_ ?_ | simp only [State.mk_fixed, State.fold_fixed, apply_ite Prod.snd, ite_self, State.shutdownStep_fixed] | split | with_reducible refine (State.foldl_fixed _ (fun _ _ => ?_) _ _).trans ?_)

@[simp] theorem State.rebuildsEnded_fixed (s : State) :
    (State.rebuildsEnded s).fixed = s.fixed := by
  unfold State.rebuildsEnded
  repeat' (first | with_reducible rfl | with_reducible refine State.ite_fixed ?_ ?_ | simp only [State.mk_fixed, State.fold_fixed, apply_ite Prod.snd, ite_self, State.rebuildEnded_fixed] | split | with_reducible refine (State.foldl_fixed _ (fun _ _ => ?_) _ _).trans ?_)

@[simp] theorem State.repackConv_fixed (s : State) :
    (State.repackConv s).fixed = s.fixed := by
  unfold State.repackConv
  repeat' (first | with_reducible rfl | with_reducible refine State.ite_fixed ?_ ?_ | simp only [State.mk_fixed, State.fold_fixed, apply_ite Prod.snd, ite_self, State.convCw_fixed] | with_reducible refine (State.convCw_fixed_of (by assumption)).trans ?_ | split | with_reducible refine (State.foldl_fixed _ (fun _ _ => ?_) _ _).trans ?_)

@[simp] theorem State.idle_fixed (s : State) :
    (State.idle s).fixed = s.fixed := by
  unfold State.idle
  repeat' (first | with_reducible rfl | with_reducible refine State.ite_fixed ?_ ?_ | simp only [State.mk_fixed, State.fold_fixed, apply_ite Prod.snd, ite_self, State.ageHealth_fixed, State.formStep_fixed, State.groupEvents_fixed, State.keyStep_fixed, State.noHuskStep_fixed, State.orphanStep_fixed, State.passTime_fixed, State.pressureStage_fixed, State.pruneLost_fixed, State.rebuildsEnded_fixed, State.reclaimStep_fixed, State.repackConv_fixed, State.returnReleased_fixed, State.shutdownAll_fixed, State.sweepStep_fixed, State.testBegin_fixed, State.wakeConv_fixed] | split | with_reducible refine (State.foldl_fixed _ (fun _ _ => ?_) _ _).trans ?_)

end Sys2Proof.Machine
end

