-- ==== Sys2Proof/Laws/Holds.lean ====
section
/-! SUPPORT. Operations that may write memory: they keep its canonical form, the queue, the straps and the OTP. -/

namespace Sys2Proof.Machine

/-- From s to t the queue, the straps, the ordering code and the OTP stay, and memory keeps its canonical form. -/
structure Holds (s t : State) : Prop where
  pending : t.pending = s.pending
  straps : t.straps = s.straps
  xb : t.xb = s.xb
  otp : t.boot.otp = s.boot.otp
  wf : Memory.wf s.mem = true → Memory.wf t.mem = true

theorem Holds.refl (s : State) : Holds s s := ⟨rfl, rfl, rfl, rfl, id⟩

theorem Holds.trans {s t u : State} (h : Holds s t) (k : Holds t u) : Holds s u :=
  ⟨k.pending.trans h.pending, k.straps.trans h.straps, k.xb.trans h.xb, k.otp.trans h.otp, k.wf ∘ h.wf⟩

theorem Holds.after {s t u : State} (k : Holds t u) (h : Holds s t) : Holds s u := h.trans k

theorem Holds.of_fixed {s t : State} (h : t.fixed = s.fixed) : Holds s t :=
  ⟨State.fixed_pending h, State.fixed_straps h, State.fixed_xb h, State.fixed_otp h, fun k => by rwa [State.fixed_mem h]⟩

theorem Holds.ite {c : Prop} [Decidable c] {s a b : State} (ha : Holds s a) (hb : Holds s b) : Holds s (if c then a else b) := by
  split
  · exact ha
  · exact hb

/-- A record that differs in other parts only. -/
theorem Holds.mk_of {s t : State} (h : Holds s t) {b c d e h' j k l m n o p q r t' u v w x z aa} {g : Boot}
    (hg : g.otp = t.boot.otp) : Holds s (State.mk t.pending b c d e t.mem t.straps h' t.xb j k l m n o p q r t' u v w x g z aa) :=
  ⟨h.pending, h.straps, h.xb, hg.trans h.otp, h.wf⟩

theorem Holds.foldl {α : Type} (f : State → α → State) (h : ∀ s x, Holds s (f s x)) (xs : List α) (s : State) :
    Holds s (xs.foldl f s) := by
  induction xs generalizing s with
  | nil => exact Holds.refl s
  | cons x xs ih => exact (h s x).trans (ih (f s x))

/-- An answer whose next state, if it is one, stands so to the state before. -/
def Holding (o : Host.Outcome State Fault Refusal) (s : State) : Prop :=
  match o with
  | .next t => Holds s t
  | _ => True

theorem Holding.next {s t : State} (h : Holds s t) : Holding (.next t) s := h

theorem Holding.ite {c : Prop} [Decidable c] {a b : Host.Outcome State Fault Refusal} {s : State} (ha : Holding a s)
    (hb : Holding b s) : Holding (if c then a else b) s := by
  split
  · exact ha
  · exact hb

theorem Keeps.holding {o : Host.Outcome State Fault Refusal} {s : State} (h : Keeps o s) : Holding o s := by
  cases o with
  | next t => exact Holds.of_fixed h
  | fault r => trivial
  | refused r => trivial

theorem State.store_holds (s : State) (a : Nat) (bs : List Byte) : Holds s (s.store a bs) :=
  ⟨rfl, rfl, rfl, rfl, fun h => Memory.writeBytes_wf h a bs⟩

end Sys2Proof.Machine
end

