-- ==== Sys2Proof/Laws/HoldsOps.lean ====
section
/-! SUPPORT. The operations that may write memory keep its canonical form, the queue, the straps and the OTP. -/

namespace Sys2Proof.Machine

set_option linter.all false

theorem State.admin_holds {s : State} {fn : Nat} {e : Sqe} {n : AdminNeeds} {run : State → State} (hrun : ∀ v0, Holds v0 (run v0)) :
    Holding (State.admin s fn e n run) s := by
  unfold State.admin
  repeat' (first | with_reducible exact Holds.refl _ | dsimp only | with_reducible refine Holds.ite ?_ ?_ | with_reducible refine Holding.next ?_ | with_reducible refine Holding.ite ?_ ?_ | with_reducible apply hrun | with_reducible apply (hrun ..).after | with_reducible apply (Holds.of_fixed (State.adminDone_fixed ..)).after | split | with_reducible apply (Holds.foldl _ (fun _ _ => ?_) _ _).after)

theorem State.adminTunnel_holds {s : State} {fn : Nat} {e : Sqe} {n : AdminNeeds} {ok : Bool} {run : State → State} (hrun : ∀ v0, Holds v0 (run v0)) :
    Holding (State.adminTunnel s fn e n ok run) s := by
  unfold State.adminTunnel
  repeat' (first | with_reducible exact Holds.refl _ | dsimp only | with_reducible refine Holds.ite ?_ ?_ | with_reducible refine Holding.next ?_ | with_reducible refine Holding.ite ?_ ?_ | with_reducible apply hrun | with_reducible apply (hrun ..).after | with_reducible intro _ | with_reducible apply State.admin_holds ?_ | split | with_reducible apply (Holds.foldl _ (fun _ _ => ?_) _ _).after)

theorem State.kweWrap_holds (s : State) (o : KweOp) :
    Holds s (State.kweWrap s o) := by
  unfold State.kweWrap
  repeat' (first | with_reducible exact Holds.refl _ | dsimp only | with_reducible refine Holds.ite ?_ ?_ | with_reducible apply (State.store_holds ..).after | with_reducible apply (Holds.of_fixed (State.kweEnd_fixed ..)).after | with_reducible apply (Holds.of_fixed (State.rotateDue_fixed ..)).after | with_reducible refine Holds.after (Holds.of_fixed (State.wrapBlob_fixed_of (by assumption))) ?_ | with_reducible apply (Holds.of_fixed (State.wrapBlob_fixed ..)).after | split | with_reducible apply (Holds.foldl _ (fun _ _ => ?_) _ _).after)

theorem State.kweSeal_holds (s : State) (o : KweOp) :
    Holds s (State.kweSeal s o) := by
  unfold State.kweSeal
  repeat' (first | with_reducible exact Holds.refl _ | dsimp only | with_reducible refine Holds.ite ?_ ?_ | with_reducible apply (State.store_holds ..).after | with_reducible apply (Holds.of_fixed (State.drop_fixed ..)).after | with_reducible apply (Holds.of_fixed (State.kweEnd_fixed ..)).after | with_reducible refine Holds.after (Holds.of_fixed (State.useCounter_fixed_of (by assumption))) ?_ | with_reducible apply (Holds.of_fixed (State.useCounter_fixed ..)).after | split | with_reducible apply (Holds.foldl _ (fun _ _ => ?_) _ _).after)

theorem State.kweUnseal_holds (s : State) (o : KweOp) :
    Holds s (State.kweUnseal s o) := by
  unfold State.kweUnseal
  repeat' (first | with_reducible exact Holds.refl _ | dsimp only | with_reducible refine Holds.ite ?_ ?_ | with_reducible apply (State.store_holds ..).after | with_reducible apply (Holds.of_fixed (State.drop_fixed ..)).after | with_reducible apply (Holds.of_fixed (State.kweEnd_fixed ..)).after | with_reducible refine Holds.after (Holds.of_fixed (State.useCounter_fixed_of (by assumption))) ?_ | with_reducible apply (Holds.of_fixed (State.useCounter_fixed ..)).after | split | with_reducible apply (Holds.foldl _ (fun _ _ => ?_) _ _).after)

theorem execKweOperationDone_holds (s : State) :
    Holding (execKweOperationDone s) s := by
  unfold execKweOperationDone
  repeat' (first | with_reducible exact Holds.refl _ | dsimp only | with_reducible refine Holds.ite ?_ ?_ | with_reducible refine Holding.next ?_ | with_reducible refine Holding.ite ?_ ?_ | with_reducible apply (State.kweSeal_holds ..).after | with_reducible apply (State.kweUnseal_holds ..).after | with_reducible apply (State.kweWrap_holds ..).after | with_reducible apply (Holds.of_fixed (State.kweEnd_fixed ..)).after | with_reducible apply (Holds.of_fixed (State.kweGen_fixed ..)).after | with_reducible apply (Holds.of_fixed (State.kweUnwrap_fixed ..)).after | with_reducible apply (Holds.of_fixed (State.zeroSlot_fixed ..)).after | split | with_reducible apply (Holds.foldl _ (fun _ _ => ?_) _ _).after)

theorem State.flushGather_holds (s : State) (w : MramWrite) :
    Holds s (State.flushGather s w) := by
  unfold State.flushGather
  repeat' (first | with_reducible exact Holds.refl _ | dsimp only | with_reducible refine Holds.ite ?_ ?_ | with_reducible apply (State.store_holds ..).after | with_reducible apply (Holds.of_fixed (State.bump_fixed ..)).after | with_reducible apply (Holds.of_fixed (State.cfgWrite_fixed ..)).after | with_reducible apply (Holds.of_fixed (State.mr_fixed ..)).after | with_reducible apply (Holds.of_fixed (State.mramUe_fixed ..)).after | with_reducible apply (Holds.of_fixed (State.remapWord_fixed ..)).after | with_reducible apply (Holds.of_fixed (State.trap_fixed ..)).after | split | with_reducible apply (Holds.foldl _ (fun _ _ => ?_) _ _).after)

theorem State.mramStore_holds (s : State) (c a size v : Nat) (w : MramWrite) :
    Holds s (State.mramStore s c a size v w) := by
  unfold State.mramStore
  repeat' (first | with_reducible exact Holds.refl _ | dsimp only | with_reducible refine Holds.ite ?_ ?_ | with_reducible apply (State.flushGather_holds ..).after | with_reducible apply (State.store_holds ..).after | with_reducible apply (Holds.of_fixed (State.mr_fixed ..)).after | with_reducible apply (Holds.of_fixed (State.trap_fixed ..)).after | split | with_reducible apply (Holds.foldl _ (fun _ _ => ?_) _ _).after)

theorem execMramCoreStore_holds (c : CoreId) (a : BitVec 40) (size : Fin 4) (v : W64) (w : MramWrite) (s : State) :
    Holding (execMramCoreStore c a size v w s) s := by
  unfold execMramCoreStore
  repeat' (first | with_reducible exact Holds.refl _ | dsimp only | with_reducible refine Holds.ite ?_ ?_ | with_reducible refine Holding.next ?_ | with_reducible refine Holding.ite ?_ ?_ | with_reducible apply (State.mramStore_holds ..).after | with_reducible apply (State.store_holds ..).after | with_reducible apply (Holds.of_fixed (State.trap_fixed ..)).after | split | with_reducible apply (Holds.foldl _ (fun _ _ => ?_) _ _).after)

theorem State.kz_holds {s : State} {n : Nat} {f : Fetch} {w : Nat} {body : State → State} (hbody : ∀ v0, Holds v0 (body v0)) :
    Holds s (State.kz s n f w body) := by
  unfold State.kz
  repeat' (first | with_reducible exact Holds.refl _ | dsimp only | with_reducible refine Holds.ite ?_ ?_ | with_reducible apply hbody | with_reducible apply (hbody ..).after | with_reducible apply (Holds.of_fixed (State.imemCe_fixed ..)).after | with_reducible apply (Holds.of_fixed (State.seqFault_fixed ..)).after | split | with_reducible apply (Holds.foldl _ (fun _ _ => ?_) _ _).after)

theorem State.onBus_holds {s : State} {n : Nat} {body : State → State} (hbody : ∀ v0, Holds v0 (body v0)) :
    Holds s (State.onBus s n body) := by
  unfold State.onBus
  repeat' (first | with_reducible exact Holds.refl _ | dsimp only | with_reducible refine Holds.ite ?_ ?_ | with_reducible apply hbody | with_reducible apply (hbody ..).after | with_reducible apply (Holds.of_fixed (State.seqFault_fixed ..)).after | split | with_reducible apply (Holds.foldl _ (fun _ _ => ?_) _ _).after)

theorem State.dataCycles_holds {s : State} {n rd rs bytes : Nat} {out : Bool} {move : Nat → Nat → Nat → State → State} (hmove : ∀ v0 v1 v2 v3, Holds v3 (move v0 v1 v2 v3)) :
    Holds s (State.dataCycles s n rd rs bytes out move) := by
  unfold State.dataCycles
  repeat' (first | with_reducible exact Holds.refl _ | dsimp only | with_reducible refine Holds.ite ?_ ?_ | with_reducible apply hmove | with_reducible apply (hmove ..).after | with_reducible intro _ | with_reducible apply (State.onBus_holds ?_).after | with_reducible apply (Holds.of_fixed (State.plain_fixed ..)).after | with_reducible apply (Holds.of_fixed (State.seqFault_fixed ..)).after | split | with_reducible apply (Holds.foldl _ (fun _ _ => ?_) _ _).after)

theorem execDout_holds (n : Chan) (f : Fetch) (rd rs : BitVec 4) (imm : BitVec 18) (data : List Byte) (s : State) :
    Holding (execDout n f rd rs imm data s) s := by
  unfold execDout
  repeat' (first | with_reducible exact Holds.refl _ | dsimp only | with_reducible refine Holds.ite ?_ ?_ | with_reducible refine Holding.next ?_ | with_reducible refine Holding.ite ?_ ?_ | with_reducible intro _ | with_reducible apply (State.dataCycles_holds ?_).after | with_reducible apply (State.kz_holds ?_).after | with_reducible apply (State.store_holds ..).after | with_reducible apply (Holds.of_fixed (State.fillStaging_fixed ..)).after | split | with_reducible apply (Holds.foldl _ (fun _ _ => ?_) _ _).after)

theorem State.writeActive_holds (s : State) (active pending tries : Nat) :
    Holds s (State.writeActive s active pending tries) := by
  unfold State.writeActive
  repeat' (first | with_reducible exact Holds.refl _ | dsimp only | with_reducible refine Holds.ite ?_ ?_ | with_reducible apply (State.store_holds ..).after | with_reducible apply (Holds.of_fixed (State.cfgWrite_fixed ..)).after | split | with_reducible apply (Holds.foldl _ (fun _ _ => ?_) _ _).after)

theorem Memory.foldl_clear_wf (on : List Nat) (xs : List Nat) {m : List Host.Cell} (h : Memory.wf m = true) :
    Memory.wf (xs.foldl (fun m n => if on.contains n then m else Memory.clear m (retBase n) (retBase n + 0x10000)) m) = true := by
  induction xs generalizing m with
  | nil => exact h
  | cons x xs ih =>
    refine ih ?_
    dsimp only
    split
    · exact h
    · exact Memory.clear_wf h ..

theorem State.sealBanks_holds (s : State) : Holds s s.sealBanks :=
  ⟨rfl, rfl, rfl, rfl, fun h => Memory.clear_wf (Memory.foldl_clear_wf _ _ h) ..⟩

theorem State.enterMode_holds (s : State) (tgt : Nat) :
    Holds s (State.enterMode s tgt) := by
  unfold State.enterMode
  repeat' (first | with_reducible exact Holds.refl _ | dsimp only | with_reducible refine Holds.ite ?_ ?_ | with_reducible apply (State.sealBanks_holds ..).after | with_reducible apply (Holds.of_fixed (State.flushRecords_fixed ..)).after | with_reducible apply (Holds.of_fixed (State.kweRelease_fixed ..)).after | with_reducible apply (Holds.of_fixed (State.loseKazino_fixed ..)).after | with_reducible apply (Holds.of_fixed (State.sc_fixed ..)).after | with_reducible apply (Holds.of_fixed (State.sealAll_fixed ..)).after | with_reducible apply (Holds.of_fixed (State.secPost_fixed ..)).after | with_reducible apply (Holds.of_fixed (State.startFlush_fixed ..)).after | (with_reducible refine Holds.mk_of ?_ ?_; swap; (with_reducible rfl)) | split | with_reducible apply (Holds.foldl _ (fun _ _ => ?_) _ _).after)

theorem execModeTransitionDone_holds (s : State) :
    Holding (execModeTransitionDone s) s := by
  unfold execModeTransitionDone
  repeat' (first | with_reducible exact Holds.refl _ | dsimp only | with_reducible refine Holds.ite ?_ ?_ | with_reducible refine Holding.next ?_ | with_reducible refine Holding.ite ?_ ?_ | with_reducible apply (State.enterMode_holds ..).after | with_reducible apply (Holds.of_fixed (State.aonPost_fixed ..)).after | with_reducible apply (Holds.of_fixed (State.beginMode_fixed ..)).after | with_reducible apply (Holds.of_fixed (State.bump_fixed ..)).after | with_reducible apply (Holds.of_fixed (State.leaveMode_fixed ..)).after | with_reducible apply (Holds.of_fixed (State.pw_fixed ..)).after | with_reducible apply (Holds.of_fixed (State.setFld_fixed ..)).after | with_reducible apply (Holds.of_fixed (State.startMode_fixed ..)).after | split | with_reducible apply (Holds.foldl _ (fun _ _ => ?_) _ _).after)

theorem State.startLoss_holds (s : State) (c : PlCause) :
    Holds s (State.startLoss s c) := by
  unfold State.startLoss
  repeat' (first | with_reducible exact Holds.refl _ | dsimp only | with_reducible refine Holds.ite ?_ ?_ | with_reducible apply (State.flushGather_holds ..).after | with_reducible apply (Holds.of_fixed (State.bump_fixed ..)).after | with_reducible apply (Holds.of_fixed (State.dropTest_fixed ..)).after | with_reducible apply (Holds.of_fixed (State.leaveMode_fixed ..)).after | with_reducible apply (Holds.of_fixed (State.lossDies_fixed ..)).after | with_reducible apply (Holds.of_fixed (State.lossSlots_fixed ..)).after | with_reducible apply (Holds.of_fixed (State.pw_fixed ..)).after | with_reducible apply (Holds.of_fixed (State.recorderPowerLoss_fixed ..)).after | with_reducible apply (Holds.of_fixed (State.setFld_fixed ..)).after | with_reducible apply (Holds.of_fixed (State.showPower_fixed ..)).after | with_reducible apply (Holds.of_fixed (State.smartLoss_fixed ..)).after | with_reducible apply (Holds.of_fixed (State.stageAll_fixed ..)).after | (with_reducible refine Holds.mk_of ?_ ?_; swap; (with_reducible rfl)) | split | with_reducible apply (Holds.foldl _ (fun _ _ => ?_) _ _).after)

theorem execPowerLoss_holds (s : State) :
    Holding (execPowerLoss s) s := by
  unfold execPowerLoss
  repeat' (first | with_reducible exact Holds.refl _ | dsimp only | with_reducible refine Holds.ite ?_ ?_ | with_reducible refine Holding.next ?_ | with_reducible refine Holding.ite ?_ ?_ | with_reducible apply (State.startLoss_holds ..).after | with_reducible apply (Holds.of_fixed (State.drivePlo_fixed ..)).after | with_reducible apply (Holds.of_fixed (State.pw_fixed ..)).after | (with_reducible refine Holds.mk_of ?_ ?_; swap; (with_reducible rfl)) | split | with_reducible apply (Holds.foldl _ (fun _ _ => ?_) _ _).after)

theorem execThermalTrip_holds (s : State) :
    Holding (execThermalTrip s) s := by
  unfold execThermalTrip
  repeat' (first | with_reducible exact Holds.refl _ | dsimp only | with_reducible refine Holds.ite ?_ ?_ | with_reducible refine Holding.next ?_ | with_reducible refine Holding.ite ?_ ?_ | with_reducible apply (State.startLoss_holds ..).after | with_reducible apply (Holds.of_fixed (State.mgtPost_fixed ..)).after | (with_reducible refine Holds.mk_of ?_ ?_; swap; (with_reducible rfl)) | split | with_reducible apply (Holds.foldl _ (fun _ _ => ?_) _ _).after)

theorem Memory.foldl_write_wf (b : Nat) (xs : List Host.Cell) {m : List Host.Cell} (h : Memory.wf m = true) :
    Memory.wf (xs.foldl (fun m c => Memory.write m (b + c.1) c.2) m) = true := by
  induction xs generalizing m with
  | nil => exact h
  | cons x xs ih => exact ih (Memory.write_wf h ..)

theorem State.writeSlot_holds (s : State) (k : Nat) : Holds s (s.writeSlot k) :=
  ⟨rfl, rfl, rfl, rfl, fun h => Memory.foldl_write_wf _ _ (Memory.clear_wf h ..)⟩

theorem State.finishCommit_holds (s : State) (fn : Nat) (e : Sqe) (k ca : Nat) :
    Holds s (State.finishCommit s fn e k ca) := by
  unfold State.finishCommit
  repeat' (first | with_reducible exact Holds.refl _ | dsimp only | with_reducible refine Holds.ite ?_ ?_ | with_reducible apply (State.writeActive_holds ..).after | with_reducible apply (Holds.of_fixed (State.activationNotice_fixed ..)).after | with_reducible apply (Holds.of_fixed (State.adminDone_fixed ..)).after | with_reducible apply (Holds.of_fixed (State.bt_fixed ..)).after | with_reducible apply (Holds.of_fixed (State.hf_fixed ..)).after | with_reducible apply (Holds.of_fixed (State.slotEvent_fixed ..)).after | split | with_reducible apply (Holds.foldl _ (fun _ _ => ?_) _ _).after)

theorem State.stageCommit_holds (s : State) (k ca : Nat) (bad : Bool) :
    Holds s (State.stageCommit s k ca bad).2 := by
  unfold State.stageCommit
  repeat' (first | with_reducible exact Holds.refl _ | dsimp only | with_reducible refine Holds.ite ?_ ?_ | with_reducible apply (State.writeSlot_holds ..).after | split | with_reducible apply (Holds.foldl _ (fun _ _ => ?_) _ _).after)

theorem State.stageCommit_holds_of {s : State} {k ca : Nat} {bad : Bool} {x0} {t : State} {u : State} (h : State.stageCommit s k ca bad = (x0, t)) (hk_ : Holds u s) : Holds u t := by
  have := State.stageCommit_holds s k ca bad
  rw [h] at this
  exact hk_.trans this

theorem State.commit_holds (s : State) (fn : Nat) (e : Sqe) (bad : Bool) :
    Holds s (State.commit s fn e bad) := by
  unfold State.commit
  repeat' (first | with_reducible exact Holds.refl _ | dsimp only | with_reducible refine Holds.ite ?_ ?_ | with_reducible apply (State.finishCommit_holds ..).after | with_reducible apply (State.stageCommit_holds ..).after | (with_reducible apply State.stageCommit_holds_of; assumption) | with_reducible apply (Holds.of_fixed (State.adminDone_fixed ..)).after | with_reducible apply (Holds.of_fixed (State.askNode_fixed ..)).after | split | with_reducible apply (Holds.foldl _ (fun _ _ => ?_) _ _).after)

theorem execFirmwareCommit_holds (fn : FnId) (e : Sqe) (bad : Bool) (s : State) :
    Holding (execFirmwareCommit fn e bad s) s := by
  unfold execFirmwareCommit
  repeat' (first | with_reducible exact Holds.refl _ | dsimp only | with_reducible refine Holds.ite ?_ ?_ | with_reducible refine Holding.next ?_ | with_reducible refine Holding.ite ?_ ?_ | with_reducible intro _ | with_reducible apply State.adminTunnel_holds ?_ | with_reducible apply (State.commit_holds ..).after | with_reducible apply (Holds.of_fixed (State.adminDone_fixed ..)).after | split | with_reducible apply (Holds.foldl _ (fun _ _ => ?_) _ _).after)

theorem State.memberCommit_holds (s : State) (e : Sqe) (bad : Bool) :
    Holds s (State.memberCommit s e bad) := by
  unfold State.memberCommit
  repeat' (first | with_reducible exact Holds.refl _ | dsimp only | with_reducible refine Holds.ite ?_ ?_ | with_reducible apply (State.commit_holds ..).after | with_reducible apply (Holds.of_fixed (State.bt_fixed ..)).after | split | with_reducible apply (Holds.foldl _ (fun _ _ => ?_) _ _).after)

theorem State.commitAnswered_holds (s : State) (a : AdmFwd) (st : Status) :
    Holds s (State.commitAnswered s a st) := by
  unfold State.commitAnswered
  repeat' (first | with_reducible exact Holds.refl _ | dsimp only | with_reducible refine Holds.ite ?_ ?_ | with_reducible apply (State.finishCommit_holds ..).after | with_reducible apply (Holds.of_fixed (State.adminDone_fixed ..)).after | with_reducible apply (Holds.of_fixed (State.cs_fixed ..)).after | with_reducible apply (Holds.of_fixed (State.drop_fixed ..)).after | split | with_reducible apply (Holds.foldl _ (fun _ _ => ?_) _ _).after)

theorem execActivationDrainTimeout_holds (s : State) :
    Holding (execActivationDrainTimeout s) s := by
  unfold execActivationDrainTimeout
  repeat' (first | with_reducible exact Holds.refl _ | dsimp only | with_reducible refine Holds.ite ?_ ?_ | with_reducible refine Holding.next ?_ | with_reducible refine Holding.ite ?_ ?_ | with_reducible apply (State.writeActive_holds ..).after | with_reducible apply (Holds.of_fixed (State.hf_fixed ..)).after | with_reducible apply (Holds.of_fixed (State.hifPost_fixed ..)).after | with_reducible apply (Holds.of_fixed (State.postCpl_fixed ..)).after | split | with_reducible apply (Holds.foldl _ (fun _ _ => ?_) _ _).after)

theorem State.activate_holds (s : State) (a : Activation) :
    Holds s (State.activate s a) := by
  unfold State.activate
  repeat' (first | with_reducible exact Holds.refl _ | dsimp only | with_reducible refine Holds.ite ?_ ?_ | with_reducible apply (State.writeActive_holds ..).after | with_reducible apply (Holds.of_fixed (State.bumpSat_fixed ..)).after | with_reducible apply (Holds.of_fixed (State.hf_fixed ..)).after | with_reducible apply (Holds.of_fixed (State.measureActivation_fixed ..)).after | with_reducible apply (Holds.of_fixed (State.postCpl_fixed ..)).after | with_reducible apply (Holds.of_fixed (State.slotEvent_fixed ..)).after | split | with_reducible apply (Holds.foldl _ (fun _ _ => ?_) _ _).after)

theorem execActivationSwitch_holds (s : State) :
    Holding (execActivationSwitch s) s := by
  unfold execActivationSwitch
  repeat' (first | with_reducible exact Holds.refl _ | dsimp only | with_reducible refine Holds.ite ?_ ?_ | with_reducible refine Holding.next ?_ | with_reducible refine Holding.ite ?_ ?_ | with_reducible apply (State.activate_holds ..).after | with_reducible apply (Holds.of_fixed (State.loadAll_fixed ..)).after | with_reducible apply (Holds.of_fixed (State.seqStop_fixed ..)).after | split | with_reducible apply (Holds.foldl _ (fun _ _ => ?_) _ _).after)

theorem State.dramWrite_holds (s : State) (c a size v : Nat) (ue : Bool) :
    Holds s (State.dramWrite s c a size v ue) := by
  unfold State.dramWrite
  repeat' (first | with_reducible exact Holds.refl _ | dsimp only | with_reducible refine Holds.ite ?_ ?_ | with_reducible apply (State.store_holds ..).after | with_reducible apply (Holds.of_fixed (State.dr_fixed ..)).after | with_reducible apply (Holds.of_fixed (State.dramUe_fixed ..)).after | with_reducible apply (Holds.of_fixed (State.dropResv_fixed ..)).after | with_reducible apply (Holds.of_fixed (State.trap_fixed ..)).after | with_reducible apply (Holds.of_fixed (State.unpoison_fixed ..)).after | split | with_reducible apply (Holds.foldl _ (fun _ _ => ?_) _ _).after)

theorem execRemoteTcmWrite_holds (c t : CoreId) (dtcm : Bool) (off : BitVec 13) (v : W64) (s : State) :
    Holding (execRemoteTcmWrite c t dtcm off v s) s := by
  unfold execRemoteTcmWrite
  repeat' (first | with_reducible exact Holds.refl _ | dsimp only | with_reducible refine Holds.ite ?_ ?_ | with_reducible refine Holding.next ?_ | with_reducible refine Holding.ite ?_ ?_ | with_reducible apply (State.store_holds ..).after | with_reducible apply (Holds.of_fixed (State.portError_fixed ..)).after | with_reducible apply (Holds.of_fixed (State.trap_fixed ..)).after | split | with_reducible apply (Holds.foldl _ (fun _ _ => ?_) _ _).after)

theorem State.atomicWrite_holds (s : State) (c a n v : Nat) :
    Holds s (State.atomicWrite s c a n v) := by
  unfold State.atomicWrite
  repeat' (first | with_reducible exact Holds.refl _ | dsimp only | with_reducible refine Holds.ite ?_ ?_ | with_reducible apply (State.dramWrite_holds ..).after | with_reducible apply (State.store_holds ..).after | with_reducible apply (Holds.of_fixed (State.dropResv_fixed ..)).after | split | with_reducible apply (Holds.foldl _ (fun _ _ => ?_) _ _).after)

theorem execAmo_holds (c : CoreId) (a : BitVec 40) (wide : Bool) (op : AmoOp) (v : W64) (ue : Bool) (s : State) :
    Holding (execAmo c a wide op v ue s) s := by
  unfold execAmo
  repeat' (first | with_reducible exact Holds.refl _ | dsimp only | with_reducible refine Holds.ite ?_ ?_ | with_reducible refine Holding.next ?_ | with_reducible refine Holding.ite ?_ ?_ | with_reducible apply (State.atomicWrite_holds ..).after | with_reducible apply (Holds.of_fixed (State.answer_fixed ..)).after | with_reducible apply (Holds.of_fixed (State.atomicUe_fixed ..)).after | with_reducible apply (Holds.of_fixed (State.trap_fixed ..)).after | split | with_reducible apply (Holds.foldl _ (fun _ _ => ?_) _ _).after)

theorem execStoreConditional_holds (c : CoreId) (a : BitVec 40) (wide : Bool) (v : W64) (s : State) :
    Holding (execStoreConditional c a wide v s) s := by
  unfold execStoreConditional
  repeat' (first | with_reducible exact Holds.refl _ | dsimp only | with_reducible refine Holds.ite ?_ ?_ | with_reducible refine Holding.next ?_ | with_reducible refine Holding.ite ?_ ?_ | with_reducible apply (State.atomicWrite_holds ..).after | with_reducible apply (Holds.of_fixed (State.answer_fixed ..)).after | with_reducible apply (Holds.of_fixed (State.trap_fixed ..)).after | (with_reducible refine Holds.mk_of ?_ ?_; swap; (with_reducible rfl)) | split | with_reducible apply (Holds.foldl _ (fun _ _ => ?_) _ _).after)

theorem execFence_holds (c : CoreId) (w : MramWrite) (s : State) :
    Holding (execFence c w s) s := by
  unfold execFence
  repeat' (first | with_reducible exact Holds.refl _ | dsimp only | with_reducible refine Holds.ite ?_ ?_ | with_reducible refine Holding.next ?_ | with_reducible refine Holding.ite ?_ ?_ | with_reducible apply (State.flushGather_holds ..).after | split | with_reducible apply (Holds.foldl _ (fun _ _ => ?_) _ _).after)

theorem State.dmaLines_holds (s : State) (d c : Nat) (r : DmaRun) (bad : List Nat) (rx : Nat) :
    Holds s (State.dmaLines s d c r bad rx) := by
  induction rx generalizing s with
  | zero =>
    simp only [State.dmaLines]
    repeat' (first | with_reducible exact Holds.refl _ | dsimp only | with_reducible refine Holds.ite ?_ ?_ | with_reducible apply (State.store_holds ..).after | with_reducible apply (Holds.of_fixed (State.dmaEnd_fixed ..)).after | with_reducible apply (Holds.of_fixed (State.dramUe_fixed ..)).after | with_reducible apply (Holds.of_fixed (State.dropResv_fixed ..)).after | with_reducible apply (Holds.of_fixed (State.unpoison_fixed ..)).after | split | with_reducible apply (Holds.foldl _ (fun _ _ => ?_) _ _).after)
  | succ _ ih =>
    simp only [State.dmaLines]
    repeat' (first | with_reducible apply (ih ..).after | with_reducible exact Holds.refl _ | dsimp only | with_reducible refine Holds.ite ?_ ?_ | with_reducible apply (State.store_holds ..).after | with_reducible apply (Holds.of_fixed (State.dmaEnd_fixed ..)).after | with_reducible apply (Holds.of_fixed (State.dramUe_fixed ..)).after | with_reducible apply (Holds.of_fixed (State.dropResv_fixed ..)).after | with_reducible apply (Holds.of_fixed (State.unpoison_fixed ..)).after | split | with_reducible apply (Holds.foldl _ (fun _ _ => ?_) _ _).after)

theorem execDmaDone_holds (d : Fin 2) (c : Fin 4) (bad : List (BitVec 40)) (s : State) :
    Holding (execDmaDone d c bad s) s := by
  unfold execDmaDone
  repeat' (first | with_reducible exact Holds.refl _ | dsimp only | with_reducible refine Holds.ite ?_ ?_ | with_reducible refine Holding.next ?_ | with_reducible refine Holding.ite ?_ ?_ | with_reducible apply (State.dmaLines_holds ..).after | split | with_reducible apply (Holds.foldl _ (fun _ _ => ?_) _ _).after)

theorem State.recoverTable_holds (s : State) (table page : Nat) (dirty : Bool) :
    Holds s (State.recoverTable s table page dirty) := by
  unfold State.recoverTable
  repeat' (first | with_reducible exact Holds.refl _ | dsimp only | with_reducible refine Holds.ite ?_ ?_ | with_reducible apply (State.startLoss_holds ..).after | with_reducible apply (Holds.of_fixed (State.hf_fixed ..)).after | with_reducible apply (Holds.of_fixed (State.znePost_fixed ..)).after | split | with_reducible apply (Holds.foldl _ (fun _ _ => ?_) _ _).after)

theorem execDramPatrolScrub_holds (a : BitVec 40) (rank : Fin 2) (dev : Fin 10) (syms : Fin 5) (ue dirty : Bool) (s : State) :
    Holding (execDramPatrolScrub a rank dev syms ue dirty s) s := by
  unfold execDramPatrolScrub
  repeat' (first | with_reducible exact Holds.refl _ | dsimp only | with_reducible refine Holds.ite ?_ ?_ | with_reducible refine Holding.next ?_ | with_reducible refine Holding.ite ?_ ?_ | with_reducible apply (State.recoverTable_holds ..).after | with_reducible apply (Holds.of_fixed (State.clearCounts_fixed ..)).after | with_reducible apply (Holds.of_fixed (State.dramCorrect_fixed ..)).after | with_reducible apply (Holds.of_fixed (State.dramUe_fixed ..)).after | split | with_reducible apply (Holds.foldl _ (fun _ _ => ?_) _ _).after)

theorem State.copyStem_holds (s : State) (slot : Nat) :
    Holds s (State.copyStem s slot) := by
  unfold State.copyStem
  repeat' (first | with_reducible exact Holds.refl _ | dsimp only | with_reducible refine Holds.ite ?_ ?_ | with_reducible apply (State.store_holds ..).after | split | with_reducible apply (Holds.foldl _ (fun _ _ => ?_) _ _).after)

theorem State.bootSlot_holds (s : State) (slot path : Nat) :
    Holds s (State.bootSlot s slot path) := by
  unfold State.bootSlot
  repeat' (first | with_reducible exact Holds.refl _ | dsimp only | with_reducible refine Holds.ite ?_ ?_ | with_reducible apply (State.copyStem_holds ..).after | with_reducible apply (Holds.of_fixed (State.measureBoot_fixed ..)).after | with_reducible apply (Holds.of_fixed (State.setFld_fixed ..)).after | split | with_reducible apply (Holds.foldl _ (fun _ _ => ?_) _ _).after)

theorem State.bootOrder_holds (s : State) (bad : BitVec 2) (first second : Nat) :
    Holds s (State.bootOrder s bad first second) := by
  unfold State.bootOrder
  repeat' (first | with_reducible exact Holds.refl _ | dsimp only | with_reducible refine Holds.ite ?_ ?_ | with_reducible apply (State.bootSlot_holds ..).after | with_reducible apply (Holds.of_fixed (State.enterRecovery_fixed ..)).after | with_reducible refine Holds.after (Holds.of_fixed (State.trySlots_fixed_of (by assumption))) ?_ | with_reducible apply (Holds.of_fixed (State.trySlots_fixed ..)).after | split | with_reducible apply (Holds.foldl _ (fun _ _ => ?_) _ _).after)

theorem State.bootTrial_holds (s : State) (bad : BitVec 2) (active pending tries : Nat) :
    Holds s (State.bootTrial s bad active pending tries) := by
  unfold State.bootTrial
  repeat' (first | with_reducible exact Holds.refl _ | dsimp only | with_reducible refine Holds.ite ?_ ?_ | with_reducible apply (State.bootOrder_holds ..).after | with_reducible apply (State.bootSlot_holds ..).after | with_reducible apply (State.writeActive_holds ..).after | with_reducible apply (Holds.of_fixed (State.armWatchdog_fixed ..)).after | with_reducible refine Holds.after (Holds.of_fixed (State.trySlots_fixed_of (by assumption))) ?_ | with_reducible apply (Holds.of_fixed (State.trySlots_fixed ..)).after | split | with_reducible apply (Holds.foldl _ (fun _ _ => ?_) _ _).after)

theorem State.sprout_holds (s : State) (bad : BitVec 2) :
    Holds s (State.sprout s bad) := by
  unfold State.sprout
  repeat' (first | with_reducible exact Holds.refl _ | dsimp only | with_reducible refine Holds.ite ?_ ?_ | with_reducible apply (State.bootOrder_holds ..).after | with_reducible apply (State.bootTrial_holds ..).after | with_reducible apply (State.writeActive_holds ..).after | with_reducible apply (Holds.of_fixed (State.enterRecovery_fixed ..)).after | with_reducible apply (Holds.of_fixed (State.setFld_fixed ..)).after | with_reducible apply (Holds.of_fixed (State.usePll_fixed ..)).after | split | with_reducible apply (Holds.foldl _ (fun _ _ => ?_) _ _).after)

theorem execBootWatchdogExpiry_holds (s : State) :
    Holding (execBootWatchdogExpiry s) s := by
  unfold execBootWatchdogExpiry
  repeat' (first | with_reducible exact Holds.refl _ | dsimp only | with_reducible refine Holds.ite ?_ ?_ | with_reducible refine Holding.next ?_ | with_reducible refine Holding.ite ?_ ?_ | with_reducible apply (State.startLoss_holds ..).after | with_reducible apply (Holds.of_fixed (State.bt_fixed ..)).after | with_reducible apply (Holds.of_fixed (State.setFld_fixed ..)).after | split | with_reducible apply (Holds.foldl _ (fun _ _ => ?_) _ _).after)

theorem State.confirmTrial_holds (s : State) :
    Holds s (State.confirmTrial s) := by
  unfold State.confirmTrial
  repeat' (first | with_reducible exact Holds.refl _ | dsimp only | with_reducible refine Holds.ite ?_ ?_ | with_reducible apply (State.writeActive_holds ..).after | with_reducible apply (Holds.of_fixed (State.bootwdWrite_fixed ..)).after | split | with_reducible apply (Holds.foldl _ (fun _ _ => ?_) _ _).after)

theorem State.rstctlWrite_holds (s : State) (v : Nat) :
    Holds s (State.rstctlWrite s v) := by
  unfold State.rstctlWrite
  repeat' (first | with_reducible exact Holds.refl _ | dsimp only | with_reducible refine Holds.ite ?_ ?_ | with_reducible apply (State.startLoss_holds ..).after | split | with_reducible apply (Holds.foldl _ (fun _ _ => ?_) _ _).after)

theorem execResetRequest_holds (s : State) :
    Holding (execResetRequest s) s := by
  unfold execResetRequest
  repeat' (first | with_reducible exact Holds.refl _ | dsimp only | with_reducible refine Holds.ite ?_ ?_ | with_reducible refine Holding.next ?_ | with_reducible refine Holding.ite ?_ ?_ | with_reducible apply (State.rstctlWrite_holds ..).after | split | with_reducible apply (Holds.foldl _ (fun _ _ => ?_) _ _).after)

theorem execFormationResetDelay_holds (s : State) :
    Holding (execFormationResetDelay s) s := by
  unfold execFormationResetDelay
  repeat' (first | with_reducible exact Holds.refl _ | dsimp only | with_reducible refine Holds.ite ?_ ?_ | with_reducible refine Holding.next ?_ | with_reducible refine Holding.ite ?_ ?_ | with_reducible apply (State.startLoss_holds ..).after | with_reducible apply (Holds.of_fixed (State.hf_fixed ..)).after | split | with_reducible apply (Holds.foldl _ (fun _ _ => ?_) _ _).after)

theorem execRecoveryResetDelay_holds (s : State) :
    Holding (execRecoveryResetDelay s) s := by
  unfold execRecoveryResetDelay
  repeat' (first | with_reducible exact Holds.refl _ | dsimp only | with_reducible refine Holds.ite ?_ ?_ | with_reducible refine Holding.next ?_ | with_reducible refine Holding.ite ?_ ?_ | with_reducible apply (State.startLoss_holds ..).after | with_reducible apply (Holds.of_fixed (State.bt_fixed ..)).after | with_reducible apply (Holds.of_fixed (State.secPost_fixed ..)).after | split | with_reducible apply (Holds.foldl _ (fun _ _ => ?_) _ _).after)

theorem State.lossSeal_holds (s : State) (l : PowerLoss) :
    Holds s (State.lossSeal s l) := by
  unfold State.lossSeal
  repeat' (first | with_reducible exact Holds.refl _ | dsimp only | with_reducible refine Holds.ite ?_ ?_ | with_reducible apply (State.flushGather_holds ..).after | with_reducible apply (Holds.of_fixed (State.acceptEvent_fixed ..)).after | with_reducible apply (Holds.of_fixed (State.ev_fixed ..)).after | with_reducible apply (Holds.of_fixed (State.flushRecords_fixed ..)).after | with_reducible apply (Holds.of_fixed (State.sealAll_fixed ..)).after | with_reducible apply (Holds.of_fixed (State.startFlush_fixed ..)).after | with_reducible apply (Holds.of_fixed (State.znePost_fixed ..)).after | split | with_reducible apply (Holds.foldl _ (fun _ _ => ?_) _ _).after)

theorem execPowerLossSequenceEnd_holds (pliHigh : Bool) (s : State) :
    Holding (execPowerLossSequenceEnd pliHigh s) s := by
  unfold execPowerLossSequenceEnd
  repeat' (first | with_reducible exact Holds.refl _ | dsimp only | with_reducible refine Holds.ite ?_ ?_ | with_reducible refine Holding.next ?_ | with_reducible refine Holding.ite ?_ ?_ | with_reducible apply (State.lossSeal_holds ..).after | with_reducible apply (Holds.of_fixed (State.pw_fixed ..)).after | (with_reducible refine Holds.mk_of ?_ ?_; swap; (with_reducible rfl)) | split | with_reducible apply (Holds.foldl _ (fun _ _ => ?_) _ _).after)

theorem State.warmRestart_holds (s : State) (check : Nat) :
    Holds s (State.warmRestart s check) := by
  unfold State.warmRestart
  repeat' (first | with_reducible exact Holds.refl _ | dsimp only | with_reducible refine Holds.ite ?_ ?_ | with_reducible apply (State.startLoss_holds ..).after | with_reducible apply (Holds.of_fixed (State.aonPost_fixed ..)).after | with_reducible apply (Holds.of_fixed (State.setFld_fixed ..)).after | split | with_reducible apply (Holds.foldl _ (fun _ _ => ?_) _ _).after)

theorem State.wakeBoot_holds (s : State) (slotBad : Bool) :
    Holds s (State.wakeBoot s slotBad) := by
  unfold State.wakeBoot
  repeat' (first | with_reducible exact Holds.refl _ | dsimp only | with_reducible refine Holds.ite ?_ ?_ | with_reducible apply (State.bootSlot_holds ..).after | split | with_reducible apply (Holds.foldl _ (fun _ _ => ?_) _ _).after)

theorem execWakeEvent_holds (src : WakeSource) (bad : BitVec 24) (dramFail : Option Bool) (slotBad : Bool) (s : State) :
    Holding (execWakeEvent src bad dramFail slotBad s) s := by
  unfold execWakeEvent
  repeat' (first | with_reducible exact Holds.refl _ | dsimp only | with_reducible refine Holds.ite ?_ ?_ | with_reducible refine Holding.next ?_ | with_reducible refine Holding.ite ?_ ?_ | with_reducible apply (State.wakeBoot_holds ..).after | with_reducible apply (State.warmRestart_holds ..).after | with_reducible apply (Holds.of_fixed (State.checkSeals_fixed ..)).after | with_reducible apply (Holds.of_fixed (State.wakeUp_fixed ..)).after | split | with_reducible apply (Holds.foldl _ (fun _ _ => ?_) _ _).after)

theorem State.readyAll_holds (s : State) :
    Holds s (State.readyAll s) := by
  unfold State.readyAll
  repeat' (first | with_reducible exact Holds.refl _ | dsimp only | with_reducible refine Holds.ite ?_ ?_ | with_reducible apply (State.confirmTrial_holds ..).after | with_reducible apply (Holds.of_fixed (State.bt_fixed ..)).after | with_reducible apply (Holds.of_fixed (State.fnsReady_fixed ..)).after | with_reducible apply (Holds.of_fixed (State.reportEnum_fixed ..)).after | with_reducible apply (Holds.of_fixed (State.reportReady_fixed ..)).after | split | with_reducible apply (Holds.foldl _ (fun _ _ => ?_) _ _).after)

theorem State.startBare_holds (s : State) (geom : Option Nat) :
    Holds s (State.startBare s geom) := by
  unfold State.startBare
  repeat' (first | with_reducible exact Holds.refl _ | dsimp only | with_reducible refine Holds.ite ?_ ?_ | with_reducible apply (State.readyAll_holds ..).after | with_reducible apply (Holds.of_fixed (State.geomWrite_fixed ..)).after | with_reducible apply (Holds.of_fixed (State.hk_fixed ..)).after | split | with_reducible apply (Holds.foldl _ (fun _ _ => ?_) _ _).after)

theorem State.copyProfile_holds (s : State) (r : Nat) :
    Holds s (State.copyProfile s r) := by
  unfold State.copyProfile
  repeat' (first | with_reducible exact Holds.refl _ | dsimp only | with_reducible refine Holds.ite ?_ ?_ | with_reducible apply (State.store_holds ..).after | split | with_reducible apply (Holds.foldl _ (fun _ _ => ?_) _ _).after)

theorem State.startFormed_holds (s : State) (x : StartIn) (r g slot : Nat) :
    Holds s (State.startFormed s x r g slot) := by
  unfold State.startFormed
  repeat' (first | with_reducible exact Holds.refl _ | dsimp only | with_reducible refine Holds.ite ?_ ?_ | with_reducible apply (State.copyProfile_holds ..).after | with_reducible apply (State.readyAll_holds ..).after | with_reducible apply (Holds.of_fixed (State.allocPending_fixed ..)).after | with_reducible apply (Holds.of_fixed (State.closeThermal_fixed ..)).after | with_reducible apply (Holds.of_fixed (State.countValid_fixed ..)).after | with_reducible apply (Holds.of_fixed (State.dieDead_fixed ..)).after | with_reducible apply (Holds.of_fixed (State.geomWrite_fixed ..)).after | with_reducible apply (Holds.of_fixed (State.ledgerRecovery_fixed ..)).after | with_reducible apply (Holds.of_fixed (State.loadAll_fixed ..)).after | with_reducible apply (Holds.of_fixed (State.reconcile_fixed ..)).after | with_reducible apply (Holds.of_fixed (State.recoverKeys_fixed ..)).after | with_reducible apply (Holds.of_fixed (State.restoreCounts_fixed ..)).after | with_reducible apply (Holds.of_fixed (State.restoreDies_fixed ..)).after | with_reducible apply (Holds.of_fixed (State.resumeErases_fixed ..)).after | with_reducible apply (Holds.of_fixed (State.resumeRebuild_fixed ..)).after | with_reducible apply (Holds.of_fixed (State.setRates_fixed ..)).after | split | with_reducible apply (Holds.foldl _ (fun _ _ => ?_) _ _).after)

theorem State.form_some_fixed {s : State} {r : Nat} {ids : List DieIdent} {factory : List (BitVec 25 × Bool × Byte)} {t u : State}
    (h : s.form r ids factory = (some t, u)) : t.fixed = s.fixed := by
  unfold State.form at h
  extract_lets cd fac s1 s2 fs tabs es g s3 at h
  have h3 : s3.fixed = s.fixed := by simp [s3, s2, s1]
  clear_value s3 s2
  split at h
  · cases h
  · simp only [Prod.mk.injEq, Option.some.injEq] at h
    rw [← h.1]
    simp only [State.bt_fixed, State.hf_fixed, State.cfgWrite_fixed, State.writeTables_fixed]
    exact ((State.fold_fixed _).trans (by simp only [State.hf_fixed, State.cfgWrite_fixed, State.writeTables_fixed])).trans h3

theorem State.startForm_holds (s : State) (x : StartIn) (r slot : Nat) : Holds s (s.startForm x r slot) := by
  unfold State.startForm
  extract_lets s1 g good
  have h1 : Holds s s1 := Holds.ite (Holds.refl s) (Holds.of_fixed (by simp))
  clear_value s1
  split
  rename_i c d hp
  extract_lets gone s2
  have h2 : Holds s s2 := h1.trans (Holds.of_fixed (by
    refine (State.foldl_fixed _ (fun _ _ => ?_) _ _).trans ?_ <;> simp))
  clear_value s2
  split
  · rename_i t u hf
    exact (h2.trans (Holds.of_fixed (State.form_some_fixed hf))).trans (State.startFormed_holds ..)
  · rename_i t hf
    exact (h2.trans (Holds.of_fixed (State.form_fixed_of hf))).trans (State.startBare_holds ..)

theorem State.startProfile_holds (s : State) (x : StartIn) (slot : Nat) (profile : Option Nat) :
    Holds s (State.startProfile s x slot profile) := by
  unfold State.startProfile
  repeat' (first | with_reducible exact Holds.refl _ | dsimp only | with_reducible refine Holds.ite ?_ ?_ | with_reducible apply (State.startBare_holds ..).after | with_reducible apply (State.startForm_holds ..).after | with_reducible apply (State.startFormed_holds ..).after | with_reducible apply (Holds.of_fixed (State.loadProfile_fixed ..)).after | split | with_reducible apply (Holds.foldl _ (fun _ _ => ?_) _ _).after)

theorem State.startEntry_holds (s : State) (x : StartIn) (slot : Nat) (entry : Option Nat) :
    Holds s (State.startEntry s x slot entry) := by
  unfold State.startEntry
  repeat' (first | with_reducible exact Holds.refl _ | dsimp only | with_reducible refine Holds.ite ?_ ?_ | with_reducible apply (State.startBare_holds ..).after | with_reducible apply (State.startProfile_holds ..).after | with_reducible apply (Holds.of_fixed (State.identifyDies_fixed ..)).after | with_reducible refine Holds.after (Holds.of_fixed (State.selectProfile_fixed_of (by assumption))) ?_ | with_reducible apply (Holds.of_fixed (State.selectProfile_fixed ..)).after | with_reducible apply (Holds.of_fixed (State.znePost_fixed ..)).after | split | with_reducible apply (Holds.foldl _ (fun _ _ => ?_) _ _).after)

theorem execStartUp_holds (x : StartIn) (s : State) : Holding (execStartUp x s) s := by
  unfold execStartUp
  refine Holding.ite (Holding.next (Holds.refl s)) (Holding.next ?_)
  exact (Holds.of_fixed (State.startBase_fixed ..)).trans (State.startEntry_holds ..)

theorem State.memberAdmin_holds (s : State) (e : Sqe) (ten : Nat) (bad : Bool) :
    Holds s (State.memberAdmin s e ten bad) := by
  unfold State.memberAdmin
  repeat' (first | with_reducible exact Holds.refl _ | dsimp only | with_reducible refine Holds.ite ?_ ?_ | with_reducible apply (State.memberCommit_holds ..).after | with_reducible apply (Holds.of_fixed (State.adminData_fixed ..)).after | with_reducible apply (Holds.of_fixed (State.adminDone_fixed ..)).after | with_reducible apply (Holds.of_fixed (State.applyDesc_fixed ..)).after | with_reducible apply (Holds.of_fixed (State.attachNs_fixed ..)).after | with_reducible apply (Holds.of_fixed (State.createNs_fixed ..)).after | with_reducible apply (Holds.of_fixed (State.deleteNs_fixed ..)).after | with_reducible apply (Holds.of_fixed (State.dropTenancy_fixed ..)).after | with_reducible apply (Holds.of_fixed (State.formGeometry_fixed ..)).after | with_reducible apply (Holds.of_fixed (State.formatNvm_fixed ..)).after | with_reducible apply (Holds.of_fixed (State.mapVf_fixed ..)).after | with_reducible apply (Holds.of_fixed (State.sanitize_fixed ..)).after | with_reducible apply (Holds.of_fixed (State.setFeatures_fixed ..)).after | with_reducible apply (Holds.of_fixed (State.setRankSets_fixed ..)).after | split | with_reducible apply (Holds.foldl _ (fun _ _ => ?_) _ _).after)

theorem execForwardedCommand_holds (k : FwdKind) (tag : W32) (ten : Ten) (e : Sqe) (pair : Option Sqe) (bad : Bool) (s : State) :
    Holding (execForwardedCommand k tag ten e pair bad s) s := by
  unfold execForwardedCommand
  repeat' (first | with_reducible exact Holds.refl _ | dsimp only | with_reducible refine Holds.ite ?_ ?_ | with_reducible refine Holding.next ?_ | with_reducible refine Holding.ite ?_ ?_ | with_reducible intro _ | with_reducible apply State.admin_holds ?_ | with_reducible apply (State.memberAdmin_holds ..).after | with_reducible apply (Holds.of_fixed (State.answer_fixed ..)).after | with_reducible apply (Holds.of_fixed (State.noteTag_fixed ..)).after | with_reducible apply (Holds.of_fixed (State.sendBoth_fixed ..)).after | with_reducible apply (Holds.of_fixed (State.takeFwd_fixed ..)).after | split | with_reducible apply (Holds.foldl _ (fun _ _ => ?_) _ _).after)

theorem State.admAnswer_holds (s : State) (a : AdmFwd) (st : Status) (dw0 : Nat) (data : List Byte) :
    Holds s (State.admAnswer s a st dw0 data) := by
  unfold State.admAnswer
  repeat' (first | with_reducible exact Holds.refl _ | dsimp only | with_reducible refine Holds.ite ?_ ?_ | with_reducible apply (State.commitAnswered_holds ..).after | with_reducible apply (Holds.of_fixed (State.adminDone_fixed ..)).after | with_reducible apply (Holds.of_fixed (State.afterAdmin_fixed ..)).after | split | with_reducible apply (Holds.foldl _ (fun _ _ => ?_) _ _).after)

theorem execForwardedCompletion_holds (admin : Bool) (tag : W32) (st : Status) (dw0 dw1 : W32) (data : List Byte) (blocks : List (W64 × Blk × Hmd)) (s : State) :
    Holding (execForwardedCompletion admin tag st dw0 dw1 data blocks s) s := by
  unfold execForwardedCompletion
  repeat' (first | with_reducible exact Holds.refl _ | dsimp only | with_reducible refine Holds.ite ?_ ?_ | with_reducible refine Holding.next ?_ | with_reducible refine Holding.ite ?_ ?_ | with_reducible intro _ | with_reducible apply (State.admAnswer_holds ..).after | with_reducible apply State.admin_holds ?_ | with_reducible apply (Holds.of_fixed (State.complete_fixed ..)).after | with_reducible apply (Holds.of_fixed (State.cs_fixed ..)).after | with_reducible apply (Holds.of_fixed (State.modSlot_fixed ..)).after | split | with_reducible apply (Holds.foldl _ (fun _ _ => ?_) _ _).after)

theorem State.declareLost_holds (s : State) (n : Nat) : Holds s (s.declareLost n) := by
  unfold State.declareLost
  extract_lets ids new_ s1 s2 s3 s4
  have h4 : Holds s s4 := Holds.of_fixed (by
    refine (State.foldl_fixed _ (fun _ _ => ?_) _ _).trans ?_ <;> simp [s1, s2, s3])
  clear_value s4
  exact h4.trans (Holds.foldl _ (fun s e => (Holds.of_fixed (State.cs_fixed ..)).trans (State.admAnswer_holds ..)) _ _)

theorem execMemberLossTimeout_holds (node : Fin 4) (s : State) :
    Holding (execMemberLossTimeout node s) s := by
  unfold execMemberLossTimeout
  repeat' (first | with_reducible exact Holds.refl _ | dsimp only | with_reducible refine Holds.ite ?_ ?_ | with_reducible refine Holding.next ?_ | with_reducible refine Holding.ite ?_ ?_ | with_reducible apply (State.declareLost_holds ..).after | split | with_reducible apply (Holds.foldl _ (fun _ _ => ?_) _ _).after)

theorem execMemberFaultReport_holds (node : Fin 4) (s : State) :
    Holding (execMemberFaultReport node s) s := by
  unfold execMemberFaultReport
  repeat' (first | with_reducible exact Holds.refl _ | dsimp only | with_reducible refine Holds.ite ?_ ?_ | with_reducible refine Holding.next ?_ | with_reducible refine Holding.ite ?_ ?_ | with_reducible apply (State.declareLost_holds ..).after | split | with_reducible apply (Holds.foldl _ (fun _ _ => ?_) _ _).after)

theorem State.mbistZero_holds (s : State) (isl mem bank : Nat) : Holds s (s.mbistZero isl mem bank) := by
  have hc (a n : Nat) : Holds s { s with mem := Memory.clear s.mem a (a + n) } :=
    ⟨rfl, rfl, rfl, rfl, fun h => Memory.clear_wf h ..⟩
  unfold State.mbistZero
  split
  · exact hc ..
  · exact hc ..
  · exact hc ..
  · exact ⟨rfl, rfl, rfl, rfl, id⟩
  · exact ⟨rfl, rfl, rfl, rfl, id⟩
  · exact hc ..
  · exact Holds.refl s

theorem execMbistDone_holds (failAt : Option W32) (s : State) :
    Holding (execMbistDone failAt s) s := by
  unfold execMbistDone
  repeat' (first | with_reducible exact Holds.refl _ | dsimp only | with_reducible refine Holds.ite ?_ ?_ | with_reducible refine Holding.next ?_ | with_reducible refine Holding.ite ?_ ?_ | with_reducible apply (State.mbistZero_holds ..).after | with_reducible apply (Holds.of_fixed (State.mgtPost_fixed ..)).after | with_reducible apply (Holds.of_fixed (State.setFld_fixed ..)).after | (with_reducible refine Holds.mk_of ?_ ?_; swap; (with_reducible rfl)) | split | with_reducible apply (Holds.foldl _ (fun _ _ => ?_) _ _).after)

theorem State.access_holds {s : State} {q : Requester} {store : Bool} {isl off size : Nat} {run : State → State} (hrun : ∀ v0, Holds v0 (run v0)) :
    Holds s (State.access s q store isl off size run) := by
  unfold State.access
  repeat' (first | with_reducible exact Holds.refl _ | dsimp only | with_reducible refine Holds.ite ?_ ?_ | with_reducible apply hrun | with_reducible apply (hrun ..).after | with_reducible apply (State.store_holds ..).after | with_reducible apply (Holds.of_fixed (State.accessError_fixed ..)).after | with_reducible apply (Holds.of_fixed (State.portError_fixed ..)).after | split | with_reducible apply (Holds.foldl _ (fun _ _ => ?_) _ _).after)

theorem State.regWrite_holds (s : State) (q : Requester) (d : RegDef) (isl i key v mask : Nat) :
    Holds s (State.regWrite s q d isl i key v mask) := by
  unfold State.regWrite
  repeat' (first | with_reducible exact Holds.refl _ | dsimp only | with_reducible refine Holds.ite ?_ ?_ | with_reducible apply (State.rstctlWrite_holds ..).after | with_reducible apply (Holds.of_fixed (State.bootwdWrite_fixed ..)).after | with_reducible apply (Holds.of_fixed (State.claimWrite_fixed ..)).after | with_reducible apply (Holds.of_fixed (State.clkWrite_fixed ..)).after | with_reducible apply (Holds.of_fixed (State.dctlWrite_fixed ..)).after | with_reducible apply (Holds.of_fixed (State.diagctlWrite_fixed ..)).after | with_reducible apply (Holds.of_fixed (State.diecmdWrite_fixed ..)).after | with_reducible apply (Holds.of_fixed (State.dmaCtl_fixed ..)).after | with_reducible apply (Holds.of_fixed (State.dmcCfgWrite_fixed ..)).after | with_reducible apply (Holds.of_fixed (State.evpost_fixed ..)).after | with_reducible apply (Holds.of_fixed (State.extmeasWrite_fixed ..)).after | with_reducible apply (Holds.of_fixed (State.fnmapWrite_fixed ..)).after | with_reducible apply (Holds.of_fixed (State.fwcurWrite_fixed ..)).after | with_reducible apply (Holds.of_fixed (State.geomWrite_fixed ..)).after | with_reducible apply (Holds.of_fixed (State.hucfgWrite_fixed ..)).after | with_reducible apply (Holds.of_fixed (State.kweCmd_fixed ..)).after | with_reducible apply (Holds.of_fixed (State.kweLockWrite_fixed ..)).after | with_reducible apply (Holds.of_fixed (State.kweRefused_fixed ..)).after | with_reducible apply (Holds.of_fixed (State.linkcfgWrite_fixed ..)).after | with_reducible apply (Holds.of_fixed (State.lpeWrite_fixed ..)).after | with_reducible apply (Holds.of_fixed (State.mbistctlWrite_fixed ..)).after | with_reducible apply (Holds.of_fixed (State.modelvWrite_fixed ..)).after | with_reducible apply (Holds.of_fixed (State.nskWrite_fixed ..)).after | with_reducible apply (Holds.of_fixed (State.otpcmdWrite_fixed ..)).after | with_reducible apply (Holds.of_fixed (State.plainWrite_fixed ..)).after | with_reducible apply (Holds.of_fixed (State.pstateRequest_fixed ..)).after | with_reducible apply (Holds.of_fixed (State.safecfgWrite_fixed ..)).after | with_reducible apply (Holds.of_fixed (State.seqctlWrite_fixed ..)).after | with_reducible apply (Holds.of_fixed (State.stageWord_fixed ..)).after | with_reducible apply (Holds.of_fixed (State.tcredWrite_fixed ..)).after | with_reducible apply (Holds.of_fixed (State.tzqWrite_fixed ..)).after | with_reducible apply (Holds.of_fixed (State.vukLinkCfg_fixed ..)).after | split | with_reducible apply (Holds.foldl _ (fun _ _ => ?_) _ _).after)

theorem State.wordWriteAt_holds (s : State) (q : Requester) (isl off v : Nat) (r : Option (RegDef × Nat × Nat)) :
    Holds s (s.wordWriteAt q isl off v r) := by
  unfold State.wordWriteAt
  split
  · exact Holds.ite (State.store_holds ..) (Holds.refl s)
  · refine Holds.ite (State.regWrite_holds ..) (Holds.ite ⟨rfl, rfl, rfl, rfl, id⟩ ?_)
    split
    · exact Holds.after (State.regWrite_holds ..) ⟨rfl, rfl, rfl, rfl, id⟩
    · exact State.regWrite_holds ..

theorem State.wordWrite_holds (s : State) (q : Requester) (isl off v : Nat) : Holds s (s.wordWrite q isl off v) :=
  State.wordWriteAt_holds ..

theorem State.csrRead_holds (s : State) (q : Requester) (isl off size : Nat) : Holds s (s.csrRead q isl off size) := by
  unfold State.csrRead
  refine State.access_holds fun s => ?_
  generalize hw : s.wordRead q isl off = w
  obtain ⟨lo, t⟩ := w
  have h := State.wordRead_fixed_of hw
  clear hw
  refine Holds.ite (Holds.of_fixed ((State.answer_fixed ..).trans h)) ?_
  generalize hw : t.wordRead q isl (off + 4) = w
  obtain ⟨hi, u⟩ := w
  have h' := State.wordRead_fixed_of hw
  clear hw
  exact Holds.of_fixed ((State.answer_fixed ..).trans (h'.trans h))

theorem State.csrWrite_holds (s : State) (q : Requester) (isl off size v : Nat) : Holds s (s.csrWrite q isl off size v) := by
  unfold State.csrWrite
  extract_lets put
  have hp : ∀ s a b, Holds s (put s a b) := fun s a b =>
    Holds.ite (State.wordWrite_holds ..) ((State.wordWrite_holds ..).trans (State.wordWrite_holds ..))
  clear_value put
  refine State.access_holds fun s => ?_
  refine Holds.ite ?_ (hp ..)
  extract_lets cnt
  exact Holds.foldl _ (fun _ _ => hp ..) _ _

theorem execRegisterWrite_holds (q : Requester) (isl : Isl) (off : BitVec 20) (size : Fin 4) (v : W64) (s : State) :
    Holding (execRegisterWrite q isl off size v s) s := by
  unfold execRegisterWrite
  repeat' (first | with_reducible exact Holds.refl _ | dsimp only | with_reducible refine Holds.ite ?_ ?_ | with_reducible refine Holding.next ?_ | with_reducible refine Holding.ite ?_ ?_ | with_reducible apply (State.csrWrite_holds ..).after | split | with_reducible apply (Holds.foldl _ (fun _ _ => ?_) _ _).after)

theorem execLowWordRead_holds (q : Requester) (isl : Isl) (off : BitVec 20) (size : Fin 4) (s : State) :
    Holding (execLowWordRead q isl off size s) s := by
  unfold execLowWordRead
  repeat' (first | with_reducible exact Holds.refl _ | dsimp only | with_reducible refine Holds.ite ?_ ?_ | with_reducible refine Holding.next ?_ | with_reducible refine Holding.ite ?_ ?_ | with_reducible apply (State.csrRead_holds ..).after | split | with_reducible apply (Holds.foldl _ (fun _ _ => ?_) _ _).after)

theorem execLowWordWrite_holds (q : Requester) (isl : Isl) (off : BitVec 20) (v : W32) (s : State) :
    Holding (execLowWordWrite q isl off v s) s := by
  unfold execLowWordWrite
  repeat' (first | with_reducible exact Holds.refl _ | dsimp only | with_reducible refine Holds.ite ?_ ?_ | with_reducible refine Holding.next ?_ | with_reducible refine Holding.ite ?_ ?_ | with_reducible apply (State.csrWrite_holds ..).after | split | with_reducible apply (Holds.foldl _ (fun _ _ => ?_) _ _).after)

theorem execHighWordWrite_holds (q : Requester) (isl : Isl) (off : BitVec 20) (v : W32) (s : State) :
    Holding (execHighWordWrite q isl off v s) s := by
  unfold execHighWordWrite
  repeat' (first | with_reducible exact Holds.refl _ | dsimp only | with_reducible refine Holds.ite ?_ ?_ | with_reducible refine Holding.next ?_ | with_reducible refine Holding.ite ?_ ?_ | with_reducible apply (State.csrWrite_holds ..).after | split | with_reducible apply (Holds.foldl _ (fun _ _ => ?_) _ _).after)

theorem State.coreStore_holds (s : State) (c a size v : Nat) (ue : Bool) :
    Holds s (State.coreStore s c a size v ue) := by
  unfold State.coreStore
  repeat' (first | with_reducible exact Holds.refl _ | dsimp only | with_reducible refine Holds.ite ?_ ?_ | with_reducible apply (State.csrWrite_holds ..).after | with_reducible apply (State.dramWrite_holds ..).after | with_reducible apply (State.mramStore_holds ..).after | with_reducible apply (State.store_holds ..).after | with_reducible apply (Holds.of_fixed (State.blockedTrap_fixed ..)).after | with_reducible apply (Holds.of_fixed (State.dropResv_fixed ..)).after | with_reducible apply (Holds.of_fixed (State.trap_fixed ..)).after | split | with_reducible apply (Holds.foldl _ (fun _ _ => ?_) _ _).after)

theorem execCoreStore_holds (c : CoreId) (a : BitVec 40) (size : Fin 4) (v : W64) (ue : Bool) (s : State) :
    Holding (execCoreStore c a size v ue s) s := by
  unfold execCoreStore
  repeat' (first | with_reducible exact Holds.refl _ | dsimp only | with_reducible refine Holds.ite ?_ ?_ | with_reducible refine Holding.next ?_ | with_reducible refine Holding.ite ?_ ?_ | with_reducible apply (State.coreStore_holds ..).after | split | with_reducible apply (Holds.foldl _ (fun _ _ => ?_) _ _).after)

theorem execIslClkctlWrite_holds (q : Requester) (isl : Isl) (v : W32) (s : State) :
    Holding (execIslClkctlWrite q isl v s) s := by
  unfold execIslClkctlWrite
  repeat' (first | with_reducible exact Holds.refl _ | dsimp only | with_reducible refine Holds.ite ?_ ?_ | with_reducible refine Holding.next ?_ | with_reducible refine Holding.ite ?_ ?_ | with_reducible apply (State.csrWrite_holds ..).after | split | with_reducible apply (Holds.foldl _ (fun _ _ => ?_) _ _).after)

theorem execBroadcastWrite_holds (q : Requester) (x : BitVec 19) (v : W32) (s : State) :
    Holding (execBroadcastWrite q x v s) s := by
  unfold execBroadcastWrite
  repeat' (first | with_reducible exact Holds.refl _ | dsimp only | with_reducible refine Holds.ite ?_ ?_ | with_reducible refine Holding.next ?_ | with_reducible refine Holding.ite ?_ ?_ | with_reducible apply (State.csrWrite_holds ..).after | split | with_reducible apply (Holds.foldl _ (fun _ _ => ?_) _ _).after)

theorem execBar2Read_holds (p : Port) (off : BitVec 20) (n : BitVec 10) (s : State) :
    Holding (execBar2Read p off n s) s := by
  unfold execBar2Read
  repeat' (first | with_reducible exact Holds.refl _ | dsimp only | with_reducible refine Holds.ite ?_ ?_ | with_reducible refine Holding.next ?_ | with_reducible refine Holding.ite ?_ ?_ | with_reducible apply (State.csrRead_holds ..).after | with_reducible apply (Holds.of_fixed (State.answer_fixed ..)).after | split | with_reducible apply (Holds.foldl _ (fun _ _ => ?_) _ _).after)

theorem State.dbgMemory_holds (s : State) (a size : Nat) (w : Option W64) :
    Holds s (State.dbgMemory s a size w) := by
  unfold State.dbgMemory
  repeat' (first | with_reducible exact Holds.refl _ | dsimp only | with_reducible refine Holds.ite ?_ ?_ | with_reducible apply (State.store_holds ..).after | with_reducible apply (Holds.of_fixed (State.answer_fixed ..)).after | with_reducible apply (Holds.of_fixed (State.dramUe_fixed ..)).after | with_reducible apply (Holds.of_fixed (State.dropResv_fixed ..)).after | split | with_reducible apply (Holds.foldl _ (fun _ _ => ?_) _ _).after)

theorem execDbgaccess_holds (a : BitVec 40) (size : Fin 4) (w : Option W64) (s : State) :
    Holding (execDbgaccess a size w s) s := by
  unfold execDbgaccess
  repeat' (first | with_reducible exact Holds.refl _ | dsimp only | with_reducible refine Holds.ite ?_ ?_ | with_reducible refine Holding.next ?_ | with_reducible refine Holding.ite ?_ ?_ | with_reducible apply (State.csrRead_holds ..).after | with_reducible apply (State.csrWrite_holds ..).after | with_reducible apply (State.dbgMemory_holds ..).after | with_reducible apply (Holds.of_fixed (State.tapTest_fixed ..)).after | split | with_reducible apply (Holds.foldl _ (fun _ _ => ?_) _ _).after)

end Sys2Proof.Machine
end

