-- ==== Sys2Proof/Laws/Kazino.lean ====
section
/-! SUPPORT. Kazino words: each field reads back from the packed word. -/

namespace Sys2Proof

theorem kzPack_op (op : BitVec 6) (rd rs : BitVec 4) (imm : BitVec 18) : (kzPack op rd rs imm).extractLsb' 26 6 = op := by
  apply BitVec.eq_of_getLsbD_eq
  intro i hi
  simp only [kzPack, BitVec.getLsbD_extractLsb', BitVec.getLsbD_append, hi, decide_true, Bool.true_and]
  rw [if_neg (by omega), if_neg (by omega), if_neg (by omega)]
  congr 1
  omega

theorem kzPack_rd (op : BitVec 6) (rd rs : BitVec 4) (imm : BitVec 18) : (kzPack op rd rs imm).extractLsb' 22 4 = rd := by
  apply BitVec.eq_of_getLsbD_eq
  intro i hi
  simp only [kzPack, BitVec.getLsbD_extractLsb', BitVec.getLsbD_append, hi, decide_true, Bool.true_and]
  rw [if_neg (by omega), if_neg (by omega), if_pos (by omega)]
  congr 1
  omega

theorem kzPack_rs (op : BitVec 6) (rd rs : BitVec 4) (imm : BitVec 18) : (kzPack op rd rs imm).extractLsb' 18 4 = rs := by
  apply BitVec.eq_of_getLsbD_eq
  intro i hi
  simp only [kzPack, BitVec.getLsbD_extractLsb', BitVec.getLsbD_append, hi, decide_true, Bool.true_and]
  rw [if_neg (by omega), if_pos (by omega)]
  congr 1
  omega

theorem kzPack_imm (op : BitVec 6) (rd rs : BitVec 4) (imm : BitVec 18) : (kzPack op rd rs imm).extractLsb' 0 18 = imm := by
  apply BitVec.eq_of_getLsbD_eq
  intro i hi
  simp only [kzPack, BitVec.getLsbD_extractLsb', BitVec.getLsbD_append, hi, decide_true, Bool.true_and]
  rw [if_pos (by omega)]
  simp

/-- A packed word decodes to the instruction its fields spell, where that is well formed. -/
theorem kzDecode_pack (n : Chan) (f : Machine.Fetch) (op : BitVec 6) (rd rs : BitVec 4) (imm : BitVec 18) :
    kzDecode n f (kzPack op rd rs imm) = (kzFields n f op rd rs imm).filter Instr.wf := by
  rw [kzDecode, kzPack_op, kzPack_rd, kzPack_rs, kzPack_imm]

/-- A word is the packing of its fields. -/
theorem kzPack_fields (w : W32) :
    kzPack (w.extractLsb' 26 6) (w.extractLsb' 22 4) (w.extractLsb' 18 4) (w.extractLsb' 0 18) = w := by
  apply BitVec.eq_of_getLsbD_eq
  intro i hi
  simp only [kzPack, BitVec.getLsbD_append, BitVec.getLsbD_extractLsb']
  split
  · rename_i h
    simp [h]
  · split
    · rename_i h0 h
      simp only [h, decide_true, Bool.true_and]
      congr 1
      omega
    · split
      · rename_i h1 h0 h
        simp only [h, decide_true, Bool.true_and]
        congr 1
        omega
      · have h : i - 18 - 4 - 4 < 6 := by omega
        simp only [h, decide_true, Bool.true_and]
        congr 1
        omega

end Sys2Proof
end

