-- ==== Sys2Proof/Laws/Resets.lean ====
section
/-! SUPPORT. What the resets and an OTP command's end do to the queue, memory, the straps and the OTP. -/

namespace Sys2Proof.Machine

/-- From s to t the queue and the ordering code stay, and memory keeps its canonical form. -/
structure Sound (s t : State) : Prop where
  pending : t.pending = s.pending
  xb : t.xb = s.xb
  wf : Memory.wf s.mem = true → Memory.wf t.mem = true

theorem Sound.refl (s : State) : Sound s s := ⟨rfl, rfl, id⟩

theorem Sound.trans {s t u : State} (h : Sound s t) (k : Sound t u) : Sound s u :=
  ⟨k.pending.trans h.pending, k.xb.trans h.xb, k.wf ∘ h.wf⟩

theorem Holds.sound {s t : State} (h : Holds s t) : Sound s t := ⟨h.pending, h.xb, h.wf⟩

/-- An answer whose next state, if it is one, stands so to the state before. -/
def Sounds (o : Host.Outcome State Fault Refusal) (s : State) : Prop :=
  match o with
  | .next t => Sound s t
  | _ => True

theorem Holding.sounds {o : Host.Outcome State Fault Refusal} {s : State} (h : Holding o s) : Sounds o s := by
  cases o with
  | next t => exact Holds.sound h
  | fault r => trivial
  | refused r => trivial

theorem Keeps.sounds {o : Host.Outcome State Fault Refusal} {s : State} (h : Keeps o s) : Sounds o s := h.holding.sounds

/-- A cut OTP command changes no more than the OTP, and keeps memory and the straps. -/
theorem State.cutOtp_sound (s : State) : Sound s s.cutOtp := by
  unfold State.cutOtp
  generalize s.boot.otpRun = o
  cases o with
  | none => exact Sound.refl s
  | some r =>
    dsimp only
    generalize hb : s.drawBool = b
    obtain ⟨all, t⟩ := b
    have h := (Holds.of_fixed (State.drawBool_fixed_of hb)).sound
    dsimp only
    split
    · exact h.trans ⟨rfl, rfl, id⟩
    · exact h

/-- Sampling sets the straps. -/
theorem State.sampleStraps_sound (s : State) (x : Straps) : Sound s (s.sampleStraps x) ∧ (s.sampleStraps x).straps = x := by
  have h : Holds { s with straps := x } (s.sampleStraps x) := by
    unfold State.sampleStraps
    extract_lets s0 cfg s1 s2 s3 s4 role s5 s6 s7
    have h1 : s1.fixed = s0.fixed := by
      refine (State.foldl_fixed _ (fun _ _ => ?_) _ _).trans rfl
      simp
    have h2 : s2.fixed = s0.fixed := by simp [s2, h1]
    have h3 : s3.fixed = s0.fixed := (State.ite_fixed (State.hifPost_fixed ..) rfl : s3.fixed = s2.fixed).trans h2
    have h4 : s4.fixed = s0.fixed := by
      refine (State.ite_fixed ?_ rfl : s4.fixed = s3.fixed).trans h3
      refine (State.foldl_fixed _ (fun _ _ => ?_) _ _)
      simp
    have h5 : s5.fixed = s0.fixed := by simp [s5, h4]
    have h6 : s6.fixed = s0.fixed := (State.ite_fixed (State.post_fixed ..) rfl : s6.fixed = s5.fixed).trans h5
    have h7 : s7.fixed = s0.fixed := (State.ite_fixed rfl (by simp) : s7.fixed = s6.fixed).trans h6
    exact Holds.of_fixed ((State.setFld_fixed ..).trans h7)
  exact ⟨⟨h.pending, h.xb, h.wf⟩, h.straps⟩

theorem resetMem_wf {m : List Host.Cell} (h : Memory.wf m = true) (cold : Bool) : Memory.wf (resetMem m cold) = true := by
  unfold resetMem
  dsimp only
  split
  · exact Memory.clear_wf (Memory.clear_wf (Memory.clear_wf h ..) ..) ..
  · exact Memory.clear_wf h ..

/-- A reset keeps memory's canonical form and the queue; after it the straps read as sampled. -/
theorem State.deviceReset_sound (s : State) (cold : Bool) (cause : Nat) (x : Straps) (bad : BitVec 2) :
    Sound s (s.deviceReset cold cause x bad) ∧ (s.deviceReset cold cause x bad).straps = x := by
  have h0 := s.cutOtp_sound
  unfold State.deviceReset
  extract_lets s1 banks p m z s2 s3 s4
  have h2 : Sound s1 s2 := ⟨rfl, rfl, fun h => resetMem_wf h cold⟩
  have h3 : Sound s2 s3 := (Holds.of_fixed (by simp [s3])).sound
  have h4 : Sound s3 s4 := (Holds.of_fixed (by
    refine State.foldl_fixed _ (fun _ _ => ?_) _ _
    simp)).sound
  have h := (((h0.trans h2).trans h3).trans h4).trans (State.sampleStraps_sound s4 x).1
  have hs := (State.sampleStraps_sound s4 x).2
  have k := State.sprout_holds (s4.sampleStraps x) bad
  have r : Holds ((s4.sampleStraps x).sprout bad) ((s4.sampleStraps x).sprout bad).returnReleased := Holds.of_fixed (State.returnReleased_fixed ..)
  exact ⟨(h.trans k.sound).trans r.sound, (r.straps.trans k.straps).trans hs⟩

theorem execColdReset_sound (portcfg cascmode : Fin 4) (bootsel : Bool) (bad : BitVec 2) (s : State) :
    Sounds (execColdReset portcfg cascmode bootsel bad s) s := (State.deviceReset_sound ..).1

theorem execBrownOut_sound (portcfg cascmode : Fin 4) (bootsel : Bool) (bad : BitVec 2) (s : State) :
    Sounds (execBrownOut portcfg cascmode bootsel bad s) s := (State.deviceReset_sound ..).1

theorem execWarmReset_sound (portcfg cascmode : Fin 4) (bootsel : Bool) (bad : BitVec 2) (s : State) :
    Sounds (execWarmReset portcfg cascmode bootsel bad s) s := by
  unfold execWarmReset
  split
  · split
    · exact (State.deviceReset_sound ..).1
    · exact Sound.refl s
  · exact Sound.refl s

/-- An OTP command's end keeps memory, the queue and the straps. -/
theorem execOtpProgramDone_sound (failed : Option (BitVec 6)) (s : State) : Sounds (execOtpProgramDone failed s) s := by
  unfold execOtpProgramDone
  generalize s.boot.otpRun = o
  cases o with
  | none => exact Sound.refl s
  | some r =>
    dsimp only
    generalize s.otpSkips r = k
    refine Sound.trans ?_ (Holds.of_fixed (State.secPost_fixed ..)).sound
    refine Sound.trans ?_ (Holds.of_fixed (State.setFld_fixed ..)).sound
    refine Sound.trans ?_ (Holds.of_fixed (State.setFld_fixed ..)).sound
    refine Sound.trans ?_ (Holds.of_fixed (State.setFld_fixed ..)).sound
    refine Sound.trans ?_ (Holds.of_fixed (State.setFld_fixed ..)).sound
    exact ⟨rfl, rfl, id⟩

end Sys2Proof.Machine
end

