-- ==== Sys2Proof/Machine/Bar0.lean ====
section
/-! DEFINITION. BAR0 of a function by offset (R28, R261): the controller registers that the spec gives values for, and the decoding of a
doorbell's offset. The table's commands reach them by name (doorbells, controller enable and shutdown). -/

namespace Sys2Proof.Machine

/-- CAP (R261): MQES 0x0FFF, CQR 1, AMS round robin with weighted and urgent classes, TO 40, DSTRD 0, and the I/O command sets of NVMe 2.0
(NSSRS, CSS with the I/O command set bit: DEDUCED from R285 and R89; the other fields 0, assumption 71). -/
def capWord : Nat := 0x0FFF + 2 ^ 16 + 2 ^ 17 + 40 * 2 ^ 24 + 2 ^ 36 + 2 ^ 43

/-- CSTS of a function (R273, R286): RDY, CFS, SHST, NSSRO. -/
def State.cstsWord (s : State) (fn : Nat) : Nat :=
  let x := s.func fn
  b2n (x.ctl = .ready) + b2n x.cfs * 2 + x.shst % 4 * 4 + b2n x.nssro * 16

/-- CC.EN of a function. -/
def State.ccEnable (s : State) (fn : Nat) : Nat := b2n ((s.func fn).ctl ≠ .disabled)

/-- AQA of a function: the sizes of its admin queues, 0's based; 0 while it has none. -/
def State.aqaWord (s : State) (fn : Nat) : Nat :=
  let x := s.func fn
  (((Tab.find x.sqs 0).map (·.size)).getD 1 - 1) % 4096 + (((Tab.find x.cqs 0).map (·.size)).getD 1 - 1) % 4096 * 2 ^ 16

/-- A doubleword of a function's controller registers: CAP, VS (2.0), CC with EN, AMS and SHN, CSTS, AQA; offsets the model holds no register
for read 0. -/
def State.bar0Word (s : State) (fn off : Nat) : Nat :=
  match off with
  | 0x00 => capWord % 2 ^ 32
  | 0x04 => capWord / 2 ^ 32
  | 0x08 => 0x00020000
  | 0x14 => s.ccEnable fn + (s.func fn).ams % 8 * 2 ^ 11 + b2n ((s.func fn).shst ≠ 0) * 2 ^ 14
  | 0x1C => s.cstsWord fn
  | 0x24 => s.aqaWord fn
  | _ => 0

/-- Which doorbell of BAR0 an offset names (R28): from 0x1000 with a 4-byte stride, a queue's submission tail and then its completion
head. -/
inductive Doorbell
  | sqTail (qid : Nat)
  | cqHead (qid : Nat)
  deriving DecidableEq, Repr

/-- The doorbell at an offset of BAR0, none outside them or misaligned (R28, R261). -/
def doorbellAt (off : Nat) : Option Doorbell :=
  if off < 0x1000 ∨ off % 4 ≠ 0 ∨ 0x1000 + 65 * 8 ≤ off then none
  else some (if (off - 0x1000) / 4 % 2 = 0 then .sqTail ((off - 0x1000) / 8) else .cqHead ((off - 0x1000) / 8))

end Sys2Proof.Machine
end

