-- ==== Sys2Proof/Machine/Pins.lean ====
section
/-! DEFINITION. The states of pins (R33, R418, R421, R423) as State gives them: what an observer at the balls sees. No command reads them. -/

namespace Sys2Proof.Machine

/-- Groups of pins (R418, R421): a channel's chip and write enables, its other outputs and IO, and its ready/busy; a DDR5 channel's reset and
its clocks, addresses and selects; a PCIe port's and a Vukoro port's pairs; a GPIO; THERMTRIP_N, FAULT_N; TDO; the AVSBus outputs. -/
inductive PinGroup
  | flashControl (n : Nat)
  | flashOther (n : Nat)
  | flashReady (n : Nat)
  | dramReset (d : Nat)
  | dramClock (d : Nat)
  | pciePair (p : Nat)
  | vukoroPair (v : Nat)
  | gpio (i : Nat)
  | thermtrip
  | fault
  | tdo
  | avs
  deriving DecidableEq, Repr

/-- What a pin does: held by its pull-up, high-impedance, low, held at its level, at self-refresh levels, in electrical idle, the same with wake
detection, an input, released, or driven by the unit behind it. -/
inductive PinLevel
  | pulledHigh | highZ | low | held | selfRefresh | idle | wakeDetect | input | released | driven
  deriving DecidableEq, Repr

/-- An island's PHY is in reset: the island runs from its RC oscillator, or is held in reset after the power-loss sequence (R15, R373). -/
def State.phyReset (s : State) (isl : Nat) : Bool := s.power.heldReset || !s.flag (F.ISL_CLKSTAT_SRCACT isl)

/-- The level of a pin whose island's PHY is in reset, whose island is power-gated in DEEP, or that runs (R421). -/
def pinByPhase (deep reset : Bool) (inDeep inReset running : PinLevel) : PinLevel :=
  if deep then inDeep else if reset then inReset else running

/-- GPIO pins: the power-loss and thermal outputs are driven by Marrow and MGT, cascade sync by the master; any other is an input until its
claimant configures it, which the spec gives no register for; in DEEP the pads hold their levels (R387, R411, R421). -/
def State.gpioLevel (s : State) (deep : Bool) (i : Nat) : PinLevel :=
  if s.holdsSafe i 1 then (if s.pins.ploLow then .low else .driven)
  else if deep then .held
  else if s.holdsSafe i 2 then (if s.pins.twarnLow then .low else .driven)
  else if s.holdsSafe i 3 && s.isMaster then .driven
  else .input

/-- The state of a group of pins (R421, R423). -/
def State.pinLevel (s : State) (g : PinGroup) : PinLevel :=
  let deep := s.fld F.AON_PSSTAT_CUR == 3
  match g with
  | .flashControl n => pinByPhase deep (s.phyReset (0x30 + n)) .pulledHigh .pulledHigh .driven
  | .flashOther n => pinByPhase deep (s.phyReset (0x30 + n)) .highZ .highZ .driven
  | .flashReady _ => .pulledHigh
  | .dramReset d => pinByPhase deep (s.phyReset (0x0A + d)) .held .low .driven
  | .dramClock d => pinByPhase deep (s.phyReset (0x0A + d)) .selfRefresh .highZ .driven
  | .pciePair p => pinByPhase deep (s.phyReset (0x0C + p) || !s.flag (F.HIF_LINKCFG_LTEN p)) .driven .idle .driven
  | .vukoroPair v => pinByPhase deep (s.phyReset (0x0E + v) || (s.vp v).st == .reset) (if v = 0 then .wakeDetect else .idle) .idle .driven
  | .gpio i => s.gpioLevel deep i
  | .thermtrip => if s.pins.thermtripN then .released else .low
  | .fault => if s.faultLow then .low else .released
  | .tdo => .highZ
  | .avs => if deep then .idle else .driven

end Sys2Proof.Machine
end

