-- ==== Sys2Proof/Machine/Rs.lean ====
section
/-! DEFINITION. The DRAM code (R337): a 64-byte line as two RS(40,32) codewords over GF(2^8) with polynomial 0x11D, and where each symbol
travels among the ten devices and sixteen beats of a burst. -/

namespace Sys2Proof.Machine

/-- The generator's coefficients below the leading one, lowest degree first: the product of (x - g^(r + i)) for i below n. The exponent r
of its first root is left open (Config.rsFirst, assumption 70). -/
def rsGen (r : Nat) : Nat → List Byte
  | 0 => []
  | n + 1 =>
    let q := rsGen r n
    let a := gfPow ((r + n) % 255)
    (List.range (n + 1)).map fun i => gfMul a ((q ++ [1]).getD i 0) ^^^ (if i = 0 then 0 else (q ++ [1]).getD (i - 1) 0)

/-- One step of the division by the generator: the remainder so far takes the next symbol. -/
def rsStep (gen rem : List Byte) (d : Byte) : List Byte :=
  let f := d ^^^ rem.getLastD 0
  (List.range 8).map fun i => (if i = 0 then 0 else rem.getD (i - 1) 0) ^^^ gfMul f (gen.getD i 0)

/-- The eight check symbols of 32 data symbols, the one of the highest degree first. -/
def rsCheck (data : List Byte) : List Byte :=
  (data.foldl (rsStep (rsGen Config.rsFirst 8)) (List.replicate 8 0)).reverse

/-- Codeword h (0 or 1) of a line: symbol 4j + k is byte 32h + 4j + k for a data device j (0 to 7); devices 8 and 9 hold the check
symbols (R337). -/
def lineCodeword (line : List Byte) (h : Nat) : List Byte :=
  let data := (line.drop (32 * h)).take 32
  data ++ rsCheck data

/-- Symbol s (0 to 7) of device j in the burst of a line: symbol 2k + h is symbol 4j + k of codeword h (R337). -/
def deviceSymbol (line : List Byte) (j s : Nat) : Byte := (lineCodeword line (s % 2)).getD (4 * j + s / 2) 0

/-- The four bits a device drives on a beat (0 to 15): symbol s is its bits on beats 2s and 2s + 1, the low half first (the order of the
halves is DESIGN CHOICE, assumption 70). -/
def deviceBeat (line : List Byte) (j beat : Nat) : BitVec 4 :=
  let x := deviceSymbol line j (beat / 2)
  if beat % 2 = 0 then x.extractLsb' 0 4 else x.extractLsb' 4 4

/-- The device that carries a byte of a line (R337). -/
def deviceOfByte (i : Nat) : Nat := i % 32 / 4

/-- The codeword of a line a byte belongs to (R337). -/
def codewordOfByte (i : Nat) : Nat := i / 32

/-- A codeword is corrected (R338): at most four symbols in error, or with a device marked failed its four symbols and at most two more. -/
def rsCorrects (failed : Bool) (wrong : Nat) : Bool := decide (wrong ≤ if failed then 2 else 4)

end Sys2Proof.Machine
end

