-- ==== Sys2Proof/Tests/Slice0.lean ====
section
/-! SUPPORT. Tests: for each statement with hypotheses a witness, a state and operands that meet the hypotheses of each of its clauses; ill-formed
terms that the well-formedness check refuses; published vectors; single steps. -/

open Sys2Proof Sys2Proof.Machine

namespace Sys2Proof.Tests

set_option linter.unusedVariables false
set_option Elab.async false

/-- The reset state with one function's controller ready and an admin queue of 64 entries. -/
def adm : State := { State.reset with hif := { State.reset.hif with fns :=
  [(0, { Func.initial with ctl := .ready, sqs := [(0, ⟨0, 64, .medium, false, 0, 0, 0⟩)], cqs := [(0, ⟨64, 0, 0, 0, 0⟩)] })] } }

/-- adm with its first function changed. -/
def admF (f : Func → Func) : State := adm.modFunc 0 f

/-- An entry of nothing but an opcode and its dwords 10 and 11. -/
def ent (opc : BitVec 8) (d10 d11 : W32) : Sqe := ⟨opc, 0, 7, 1, d10, d11, 0, 0, 0, 0, []⟩

/-- A slot of command 0 of function 0 that has been admitted. -/
def slotOf (e : Sqe) : Slot where
  fn := 0
  qid := 1
  ten := 0
  sqe := e
  at_ := 0
  urgent := false
  st := .admitted
  zmi := none
  ns := 0
  slba := 0
  nlb := 1
  taken := []
  bufs := []
  blocks := []
  err := none
  thru := false
  started := false
  order := 0
  fused := none
  lack := none
  cursor := 0
  silent := false
  hard := []
  bad := []
  zst := none

/-- adm with one slot. -/
def io (x : Slot) : State := { adm with hif := { adm.hif with slots := [(0, x)] } }

/-- A state in which channel 0's sequencer stands at an instruction. -/
def kz (i : Instr) : State := (State.reset.setFld (F.CH_SEQSTAT_STATE 0) 1).setFld (F.CH_IMEM_WORD 0 0) ((kzEncode i).getD 0).toNat

/-- kz with its registers changed. -/
def kzS (i : Instr) (g : Seq → Seq) : State := (kz i).modSeq 0 g

/-- An operation of die 0. -/
def op0 : DieOp where
  id := 1
  cls := 2
  kind := .program
  slc := false
  blk := 0
  slice := 0
  cws := []
  purpose := .collect
  ten := 0
  helper := false
  bg := false
  lad := 0
  suspends := 0
  queued := 0
  start := 0
  ran := 0
  late := false
  reissued := false
  granted := false
  row := []
  own := .body 0 0
  counted := false
  again := false
  rset := none
  gone := []

/-- A pod that holds it. -/
def pod0 : Pod where
  op := op0
  desc := [0x82, 0, 0, 0, 0, 0, 0, 0]
  ctx := [1, 2, 3, 4]
  fresh := false
  resumed := false
  resume := 5
  due := none
  sw := false
  parked := false
  abort := false
  suspReq := false
  hand := false
  abortAt := 0
  suspAt := 0
  suspLate := false
  ripe := false

/-- The reset state with die 0 as given. -/
def die0 (d : Die) : State := { State.reset with zne := { State.reset.zne with dies := [(0, d)] } }

/-- A state with die 0 as given. -/
def withDie (d : Die) (s : State) : State := { s with zne := { s.zne with dies := [(0, d)] } }

/-- A zone in a given state with its write pointer at w. -/
def zn (z : ZState) (w : Nat) : Zone := { Zone.unused with zs := z, wp := w, body := (List.range 18) }

/-- The reset state with namespace 1 (zoned, zones from 0), namespace 2 (conventional), a zone 0 and a command slot 0. -/
def media (z : Zone) (x : Slot) : State := { io x with
  zne := { State.reset.zne with zones := [(0, z)], conv := [(2, ⟨2048, 256, 256, 0, true, 0, 0, 1, 0, []⟩)] }
  hif := { (io x).hif with nss := [(1, ⟨1, false, 0, 0, 0, 4, 262144, 262144, 0, [0], 0⟩), (2, ⟨2, true, 0, 0, 0, 0, 256, 256, 0, [0], 0⟩)] } }

/-- A slot of a command of namespace 1 on zone 0. -/
def zslot (opc : BitVec 8) : Slot := { slotOf (ent opc 0 0) with ns := 1, zmi := some 0 }

/-- A slot of a command of namespace 2. -/
def cslot (opc : BitVec 8) : Slot := { slotOf (ent opc 1 0) with ns := 2 }

/-- A written write buffer of offset 0 of zone 0 for command slot 0. -/
def buf0 : Buf where
  own := .zone 0 0
  st := .written
  data := 0
  hmd := 0
  ns := 1
  gen := 0
  ten := 0
  slot := 0
  at_ := 0
  void := false
  staging := false
  bad := false
  moved := false

/-- An open stripe of zone 0 with Husk record 0. -/
def stripe0 : Stripe where
  of_ := .body 0 0
  st := .filling
  record := some 0
  hseq := 1
  members := List.replicate 18 ⟨0, .idle, false, 0⟩
  acked := 0
  closing := false
  verify := false
  withdrawn := false
  order := 0
  pack := []
  opened := 0
  set := 0
  want := false
  bg := false
  closed := false
  src := []

/-- media with more of the Zone Engine's state. -/
def mz (s : State) (f : Zne → Zne) : State := { s with zne := f s.zne }

/-- The register of a key. -/
def defAt (k : Nat) : RegDef := ((regFind k).map (·.1)).getD ⟨.ISL_ID, 0, 0, 0, 0, 0, false, []⟩

/-- The reset state with every core running. -/
def allRun : State := { State.reset with cores := { State.reset.cores with halted := 0 } }

/-- allRun in the mode that gates the most islands, with DMA channel 7 busy. -/
def gatedS : State := (allRun.setFld F.AON_PSSTAT_CUR 3).setFld (F.DMC_DMACTL_BUSY 1 3) 1

/-- allRun with the PLL of island 1 on and locked. -/
def pllS : State := (allRun.setFld (F.ISL_CLKCTL_PLLEN 1) 1).setFld (F.ISL_CLKSTAT_LOCK 1) 1

/-- allRun with a register field set. -/
def withF (f : Fld) (v : Nat) : State := allRun.setFld f v

/-- A state in which channel 0's sequencer stands at an instruction with a pod of die 0 in hand. -/
def kzPod (i : Instr) (p : Pod) (g : Seq → Seq := id) : State :=
  withDie { Die.empty with active := some p } (kzS i fun q => g { q with hand := some ⟨0, false⟩ })

/-- A state whose sequencer of channel 0 has latched row bytes in the burst before a confirm. -/
def guardS (p : Pod) (erase : Bool) (rows : List Nat) : State :=
  kzPod (.cmd 0 .ok 1 0x10) p fun q => { q with gset := some erase, gaddr := rows }

/-- Media with a zone 0, a slot 0 and a write buffer 0 that waits for its data, the key slots naming namespace 1. -/
def keyed (z : Zone) (x : Slot) : State :=
  ((((mz (media z x) fun z => { z with bufs := [(0, { buf0 with st := .reserved })] }).setFld (F.XTS_NSK_CURV 1) 1).setFld
    (F.SEC_KSATTR_STATE 0) 1).setFld (F.SEC_KSATTR_KIND 0) 1).setFld (F.SEC_KSATTR_NSIDX 0) 1

/-- The reset state with one stripe. -/
def strS (t : Stripe) : State := mz State.reset fun z => { z with stripes := [(3, t)] }

/-- State.reset after a time, with die 0 as given. -/
def dieAt (t : Nat) (d : Die) : State :=
  { ((die0 d).setFld F.ZNE_GEOM_LOCK 1).setFld (F.CH_SEQSTAT_STATE 0) 1 with now := t }

/-- The reset state with a geometry of one channel and one die. -/
def oneDie : State := (State.reset.setFld F.ZNE_GEOM_CHANNELS 1).setFld F.ZNE_GEOM_DPC 1

/-- Media with other commands in the slots. -/
def slots (z : Zone) (xs : Tab Slot) : State :=
  let s := media z (zslot 1)
  { s with hif := { s.hif with slots := xs } }

/-- A write buffer 0 of zone 0 that waits to be staged. -/
def stageable (age : Nat) : State :=
  { mz (media (zn .iopen 1) (zslot 1)) fun z => { z with bufs := [(0, { buf0 with st := .held })] } with now := age }

/-- An open conventional stripe of namespace 2, handle 7, with one write buffer. -/
def convS (t : Nat) : State :=
  { mz State.reset fun z => { z with
      stripes := [(3, { stripe0 with of_ := .conv 0 0, pack := [⟨0, .conv 2 0 0, some 0, none, none⟩] })], openConv := [(pairKey 2 7 false, 3)],
      bufs := [(0, buf0)] } with now := t }

/-- An open stage stripe of rank set 0. -/
def stageS (t : Nat) : State :=
  { strS { stripe0 with of_ := .stage 0 0, pack := [⟨0, .zone 0 0, none, none, none⟩] } with now := t }

/-- A stage body with one member on die 0. -/
def slc0 : SlcBody := ⟨0, [1, 2], .stage, 0, 5, 0, 0, 1, true⟩

/-- A reconstruction of zone 0's first row with all of its members read. -/
def recon0 : Recon where
  for_ := .host 0 0
  own := .body 0 0
  row := List.range 18
  slice := 0
  cw := 0
  slc := false
  target := 17
  members := (List.range 17).map fun m => (m, .got 0 0)
  around := false
  degraded := false
  racing := false
  failed := false
  waiting := false
  cls := 2
  ten := 0
  crcRetry := false

/-- The reset state with one reconstruction. -/
def recS (r : Recon) : State := mz State.reset fun z => { z with recons := [(1, r)] }

/-- A decode at a step of the ladder for a purpose. -/
def dec (lad : Nat) (p : Purpose) (again : Bool := false) : Decode :=
  ⟨{ op0 with kind := .read, purpose := p, cws := [(0, 0)], lad := lad, again := again }, 0, 0, false⟩

/-- The reset state with one decode. -/
def decS (x : Decode) : State := mz State.reset fun z => { z with decodes := [(7, x)] }

/-- An erase job of block 1. -/
def erase0 : EraseJob := ⟨1, .pre, .ledger, false, 4095, 0⟩

/-- The reset state with one erase job. -/
def eraS (j : EraseJob) : State := mz State.reset fun z => { z with erases := [(1, j)] }

/-- A rebuild job that waits. -/
def job0 : MJob where
  kind := .rebuild
  zmi := 0
  slcBody := none
  member := 0
  old := 1
  new_ := none
  done := 0
  upto := 1
  stripe := none
  st := .wait
  set := 0
  left := 1
  bad := []
  restart := false
  got := []
  epoch := 0

/-- The reset state with one rebuild job and background tokens. -/
def jobS (x : MJob) : State := (mz State.reset fun z => { z with jobs := [(1, x)] }).setFld (F.ZNE_SGOV_BGTOK 0) 65535

/-- Zone 0, Full, whose one group of codewords is staged, with folding possible. -/
def foldS : State := mz (media (zn .full 16) (zslot 1)) fun z => { z with bufs := [], srd := [(4, [⟨0, 0, 16, 0, true, none⟩])] }

/-- A rank set 0 with 64 free stage bodies. -/
def stageFree : State :=
  (mz State.reset fun z => { z with
    profile := { z.profile with bDie := 16384 }, sets := [(0, { RankSet.empty with ranks := 1 })],
    blks := (List.range 1152).map fun b => (b, ⟨0, .free, false, true, none, 0, 0⟩) }).setFld F.ZNE_GEOM_CHANNELS 9

/-- Eighteen erased blocks of the map journal, one a channel, with a map page to write. -/
def journalS : State :=
  ((mz State.reset fun z => { z with
    mapDirty := [0], sysUse := (List.range 18).map fun b => (b, .journal),
    blks := (List.range 18).map fun b => (b, ⟨0, .system, false, true, none, 0, 0⟩) }).setFld F.ZNE_GEOM_CHANNELS 18).setFld
      (F.ZNE_SGOV_BGTOK 0) 65535

/-- An SPDM endpoint of port 0 with one session. -/
def epS : State := (State.reset.setFld (F.HIF_PORTSTAT_LINKUP 0) 1).modEp (0, 9) fun _ => ⟨3, [(5, true)], [], 0⟩

/-- adm with its functions' controllers and queues served as given. -/
def admQ (sq : Tab Sq) (cq : Tab Cq) : State := admF fun f => { f with sqs := sq, cqs := cq }

/-- A submission queue of 64 entries with one entry waiting. -/
def sq1 (c : QClass) : Sq := ⟨1, 64, c, false, 1, 0, 0⟩

/-- Function 1's controller, a virtual function's, ready beside function 0's. -/
def admV : State := adm.modFunc 1 fun f => { f with ctl := .ready }

/-- adm with tenancy 5. -/
def admT : State := adm.hf fun h => { h with tens := [(5, ⟨0xFFFF, 0⟩)] }

/-- A namespace of a tenancy in rank set 4, zoned, attached to function 0. -/
def ns1 (ten : Nat) : Ns := ⟨1, false, ten, 0, 0, 4, 262144, 262144, 0, [0], 0⟩

/-- adm with its link test as given. -/
def tstS (f : LinkTest → LinkTest) : State := { adm with mgt := { adm.mgt with test := f adm.mgt.test } }

/-- adm with an activation of slot 0 in progress. -/
def actS (t : Nat) : State := { (adm.hf fun h => { h with activation := some ⟨0, 0, 7, 0⟩ }) with now := t }

/-- A port's link up, its SPDM endpoint fresh. -/
def linkS : State := State.reset.setFld (F.HIF_PORTSTAT_LINKUP 0) 1

/-- linkS with the endpoint of MCTP identifier 9 at a stage. -/
def epT (k : Nat) (xs : List SlhSig) : State := linkS.modEp (0, 9) fun _ => ⟨k, [(5, false)], xs, 0⟩

/-- The key engine held by core 1, with its operation. -/
def kweS (busy : Nat) (o : Option KweOp) : State :=
  let s := ((State.reset.setFld F.KWE_LOCK_HELD 1).setFld F.KWE_LOCK_OWNER 1).setFld F.KWE_STAT_BUSY busy
  { s with sec := { s.sec with op := o } }

/-- Sixteen GiB of DRAM configured, with a transfer on DMA channel 0 of controller 0. -/
def dmaS (r : DmaRun) : State :=
  let s := (((State.reset.setWord (R.DMC_CFG 0) 0x80000001).setWord (R.DMC_CFG 1) 0x80000001).setFld
    (F.ISL_CLKSTAT_SRCACT 0x0A) 1).setFld (F.ISL_CLKSTAT_SRCACT 0x0B) 1
  { s with dram := { s.dram with dma := [(0, r)] } }

/-- The reset state in a cascade role, with its cascade state as given. -/
def casS (role : Nat) (f : Casc → Casc) : State :=
  let s := (State.reset.setFld F.VUK_CASC_ROLE role).setFld (F.VUK_LINKSTAT_UP 0) 1
  { s with casc := f s.casc }

/-- casS with Vukoro port 0 in a state. -/
def vukS (st : VukSt) (t : Nat) : State :=
  { casS 0 fun c => { c with ports := [(0, { VukPort.fresh with st := st })] } with now := t }

/-- A master with member 1 admitted and reached over some of its ports. -/
def nodeS (reach t : Nat) : State :=
  { casS 1 fun c => { c with nodes := [(1, { Node.unknown with admitted := true, reach := reach })] } with now := t }

/-- An admitted member that has started up and holds a tag record. -/
def tagS (ts : List TagRec) : State :=
  let s := casS 2 fun c => { c with admitted := true, tags := ts }
  { s with boot := { s.boot with started := true } }

/-- The reset state with its recorder as given, at a time. -/
def evS (t : Nat) (f : Recorder → Recorder) : State := { State.reset.ev f with now := t }

/-- An event of source 1. -/
def event0 (sev : Nat) : Event := ⟨0, 0x0901, 1, sev, 0xFF, 0, 0⟩

/-- The part in test mode: on the recovery path with the strap set. -/
def testS : State := (State.reset.setFld F.SEC_BOOTSTAT_PATH 3).setFld F.SEC_BOOTSTAT_BOOTSEL 1

theorem mem_of_fixed {a b : State} (h : a.fixed = b.fixed) : a.mem = b.mem := congrArg (·.2.1) h

theorem bundleEntry_of_empty (s : State) (slot pr : Nat) (h : s.mem = []) : s.bundleEntry slot pr = none := by
  have e : imgNat s.mem (s.bundleAt slot) 6 2 = 0 := by rw [h]; rfl
  unfold State.bundleEntry
  simp [e]

/-- The reset state with its boot records as given, at a time. -/
def bootS (t : Nat) (f : Boot → Boot) : State := { State.reset with boot := f State.reset.boot, now := t }

/-- The reset state with the Husk's first header valid or not. -/
def huskS (v : Bool) : State := mz State.reset fun z => { z with husk := { z.husk with hdr0 := ⟨v, 0, true, 0, 0⟩, hdr1 := ⟨v, 1, true, 0, 0⟩ } }

/-! ### Well-formedness: an ill-formed term for each check -/

theorem test_wf_sel_field_too_wide : (Instr.sel 0 .ok 0 32).wf = false := by decide
theorem test_wf_cmd_field_too_wide : (Instr.cmd 0 .ok 0 512).wf = false := by decide
theorem test_wf_addr_past_register : (Instr.addr 0 .ok 0 (3 * 8 + 2)).wf = false := by decide
theorem test_wf_din_odd_count : (Instr.din 0 .ok 0 0 3).wf = false := by decide
theorem test_wf_dout_data_too_short : (Instr.dout 0 .ok 0 0 2 [0]).wf = false := by decide
theorem test_wf_mov_unused_bits : (Instr.mov 0 .ok 0 0 0x100).wf = false := by decide
theorem test_wf_br_past_memory : (Instr.br 0 .ok 4096).wf = false := by decide
theorem test_wf_post_wrong_kind : (Instr.postDone 0 .ok 0 0 0x1000).wf = false := by decide
theorem test_wf_temperature_samples_missing : (Instr.temperatureSample []).wf = false := by decide
theorem test_wf_node_list_too_long : (Instr.nodeList (List.replicate 5 ⟨0, 0, 0, 0, false, false⟩) false []).wf = false := by decide
theorem test_wf_link_rate_zero : (Instr.linkTrained 0 0 16).wf = false := by decide
theorem test_wf_link_width_three : (Instr.linkTrained 0 6 3).wf = false := by decide
theorem test_wf_second_entry_without_fuse : (Instr.peekEntryArrival 0 1 (ent 1 0 0) (some (ent 1 0 0))).wf = false := by decide
theorem test_wf_good_addr : (Instr.addr 0 .ok 0 (4 * 8 + 0)).wf = false ∧ (Instr.addr 0 .ok 0 (0 * 8 + 4)).wf = true := by decide

/-! ### The arithmetic of named standards, on their published vectors -/

/-- FIPS 197: the worked product, and an entry of the S-box. -/
theorem test_aes_field : aesMul 0x57 0x83 = 0xC1 ∧ aesSub 0x53 = 0xED := by decide +kernel
/-- The check value of CRC-32C. -/
theorem test_crc32c : crc32c [0x31, 0x32, 0x33, 0x34, 0x35, 0x36, 0x37, 0x38, 0x39] = 0xE3069283 := by decide +kernel

/-! ### Words and single steps -/

/-- An idle step that changes nothing but time's bookkeeping answers a next state. -/
theorem test_idle_answers : ∃ t, step State.reset = .next t := ⟨_, rfl⟩
/-- R203: HALT's word. -/
theorem test_halt_word : kzDecode 127 .ok 0 = some (.halt 127 .ok) := by decide +kernel
/-- A command at the front of the queue runs: BYPASS leaves the queue empty. -/
theorem test_bypass_taken : ∃ t, step { State.reset with pending := [.bypass] } = .next t ∧ t.pending = [] := ⟨_, rfl, rfl⟩

/-! ### Witnesses: the hypotheses of each clause can be met -/

theorem witness_idle_step :
  (let s : State := State.reset; s.pending = []) := by decide +kernel

theorem witness_reset_registers :
  (let key : Nat := 0x30100C; key ≠ 0x301000 ∧ key ≠ 0x301004 ∧ key ≠ 0x301008) := by decide +kernel

theorem witness_step_keeps_invariant :
  (let s : State := State.reset; (s.Inv) ∧ (∃ t, step s = .next t)) := ⟨by decide +kernel, _, rfl⟩

theorem witness_exec_keeps_queue :
  (let c : Instr := .bypass; let s : State := State.reset; (∃ t, exec c s = .next t)) := ⟨_, rfl⟩

theorem witness_memory_frame :
  (let c : Instr := .bypass; let s : State := State.reset; (c.mayStore = false) ∧ (∃ t, exec c s = .next t)) := ⟨by decide +kernel, _, rfl⟩

theorem witness_straps_and_otp_isolated :
  (let c : Instr := .bypass; let s : State := State.reset; (c.samplesStraps = false) ∧ (∃ t, exec c s = .next t)) ∧
  (let c : Instr := .bypass; let s : State := State.reset; (c.programsOtp = false) ∧ (∃ t, exec c s = .next t)) := by
  refine ⟨?c1, ?c2⟩
  case c1 => exact ⟨by decide +kernel, _, rfl⟩
  case c2 => exact ⟨by decide +kernel, _, rfl⟩

theorem witness_kazino_words_round_trip :
  (let n : Chan := 127; let f : Fetch := .single; let i : Instr := .add 127 .single 15 0 0x3FFFF; let w : W32 := (kzEncode i).getD 0; i.wf = true ∧ i.site = some (n, f) ∧ kzEncode i = some w) := by decide +kernel

theorem witness_kazino_words :
  (let n : Chan := 127; let f : Fetch := .ok; let i : Instr := .halt 127 .ok; let w : W32 := 0; kzDecode n f w = some i) := by decide +kernel

theorem witness_register_accesses :
  (let q : Requester := .core 31; let s : State := allRun; let isl : Isl := 0x30; let off : BitVec 20 := 0x7FFFC; q.isHif = false ∧ s.reaches q isl.val off.toNat 2 ∧ (¬(isl.val = 0x30 ∧ 0x80000 ≤ off.toNat))) ∧
  (let q : Requester := .core 31; let s : State := allRun; let isl : Isl := 175; let off : BitVec 20 := 0xFFFF8; q.isHif = false ∧ s.reaches q isl.val off.toNat 3 ∧ (¬(isl.val = 0x30 ∧ 0x80000 ≤ off.toNat))) ∧
  (let s : State := allRun; let q : Requester := .core 31; let isl : Isl := 3; let off : BitVec 20 := 0xFFFFC; (q.isHif = true → hifHidden isl.val off.toNat = false) ∧ s.reaches q isl.val off.toNat 2) ∧
  (let q : Requester := .core 31; let s : State := allRun; let isl : Isl := 3; let off : BitVec 20 := 0xFFFF8; (q.isHif = true → hifHidden isl.val off.toNat = false) ∧ s.reaches q isl.val off.toNat 3) ∧
  (let q : Requester := .core 31; let s : State := allRun; let x : BitVec 19 := 0x7FFFC; q.isHif = false ∧ s.reaches q 0x30 (0x80000 + x.toNat) 2) ∧
  (let p : Port := 1; let off : BitVec 20 := 0xFFFFF; let s : State := (State.reset.setFld (F.HIF_DIAGCTL_OPEN 1) 1).setFld (F.HIF_DIAGCTL_ISEL 1) 175; s.flag (F.HIF_DIAGCTL_OPEN p.val) = true ∧ hifHidden (s.fld (F.HIF_DIAGCTL_ISEL p.val)) (off.toNat / 4 * 4) = false ∧ s.gated (s.fld (F.HIF_DIAGCTL_ISEL p.val)) = false ∧ s.fld (F.HIF_DIAGCTL_ISEL p.val) < 176) ∧
  (let p : Port := 1; let off : BitVec 20 := 0; let n : BitVec 10 := 1022; let s : State := State.reset; (n.toNat < 1023 ∧ off.toNat / 4 * 4 + 4 * (n.toNat + 1) < 0x100000) ∧ (∃ t, exec (.bar2Read p off n) s = .next t)) := by
  refine ⟨?c1, ?c2, ?c3, ?c4, ?c5, ?c6, ?c7⟩
  case c7 => exact ⟨by decide +kernel, _, rfl⟩
  all_goals decide +kernel

theorem witness_words_of_wide_registers :
  (let q : Requester := .core 0; let isl : Isl := 3; let off : BitVec 20 := 0x110; let hoff : BitVec 20 := 0x114; let d : RegDef := defAt (regKey 3 0x110); let k : Nat := 0; let s : State := State.reset; q.isHif = false ∧ regFind (regKey isl.val off.toNat) = some (d, k, 0) ∧ regFind (regKey isl.val hoff.toNat) = some (d, k, 4) ∧ hoff.toNat = off.toNat + 4 ∧ d.wide = true ∧ d.id ≠ .KWE_LOCK ∧ (¬(isl.val = 0x30 ∧ 0x80000 ≤ hoff.toNat)) ∧ s.reaches q isl.val off.toNat 2) ∧
  (let q : Requester := .core 0; let isl : Isl := 3; let off : BitVec 20 := 0x110; let hoff : BitVec 20 := 0x114; let d : RegDef := defAt (regKey 3 0x110); let k : Nat := 0; let h : W32 := 1; let s : State := { State.reset with latch := [(latchKey (.core 0) (regKey 3 0x110), 1)] }; let key := regKey isl.val off.toNat; q.isHif = false ∧ regFind (regKey isl.val off.toNat) = some (d, k, 0) ∧ regFind (regKey isl.val hoff.toNat) = some (d, k, 4) ∧ hoff.toNat = off.toNat + 4 ∧ d.wide = true ∧ d.id ≠ .KWE_LOCK ∧ (¬(isl.val = 0x30 ∧ 0x80000 ≤ hoff.toNat)) ∧ s.reaches q isl.val hoff.toNat 2 ∧ Tab.find s.latch (latchKey q key) = some h) ∧
  (let q : Requester := .core 0; let isl : Isl := 3; let off : BitVec 20 := 0x110; let hoff : BitVec 20 := 0x114; let d : RegDef := defAt (regKey 3 0x110); let k : Nat := 0; let s : State := State.reset; let key := regKey isl.val off.toNat; q.isHif = false ∧ regFind (regKey isl.val off.toNat) = some (d, k, 0) ∧ regFind (regKey isl.val hoff.toNat) = some (d, k, 4) ∧ hoff.toNat = off.toNat + 4 ∧ d.wide = true ∧ d.id ≠ .KWE_LOCK ∧ (¬(isl.val = 0x30 ∧ 0x80000 ≤ hoff.toNat)) ∧ s.reaches q isl.val hoff.toNat 2 ∧ Tab.find s.latch (latchKey q key) = none) ∧
  (let q : Requester := .core 0; let isl : Isl := 3; let off : BitVec 20 := 0x110; let hoff : BitVec 20 := 0x114; let d : RegDef := defAt (regKey 3 0x110); let k : Nat := 0; let lo : W32 := 1; let s : State := { State.reset with shadow := [(latchKey (.core 0) (regKey 3 0x110), 1)] }; let key := regKey isl.val off.toNat; q.isHif = false ∧ regFind (regKey isl.val off.toNat) = some (d, k, 0) ∧ regFind (regKey isl.val hoff.toNat) = some (d, k, 4) ∧ hoff.toNat = off.toNat + 4 ∧ d.wide = true ∧ d.id ≠ .KWE_LOCK ∧ (¬(isl.val = 0x30 ∧ 0x80000 ≤ hoff.toNat)) ∧ s.reaches q isl.val hoff.toNat 2 ∧ Tab.find s.shadow (latchKey q key) = some lo) ∧
  (let q : Requester := .core 0; let isl : Isl := 3; let off : BitVec 20 := 0x110; let hoff : BitVec 20 := 0x114; let d : RegDef := defAt (regKey 3 0x110); let k : Nat := 0; let s : State := State.reset; let key := regKey isl.val off.toNat; q.isHif = false ∧ regFind (regKey isl.val off.toNat) = some (d, k, 0) ∧ regFind (regKey isl.val hoff.toNat) = some (d, k, 4) ∧ hoff.toNat = off.toNat + 4 ∧ d.wide = true ∧ d.id ≠ .KWE_LOCK ∧ (¬(isl.val = 0x30 ∧ 0x80000 ≤ hoff.toNat)) ∧ s.reaches q isl.val hoff.toNat 2 ∧ Tab.find s.shadow (latchKey q key) = none) ∧
  (let q : Requester := .core 0; let isl : Isl := 3; let off : BitVec 20 := 0x110; let hoff : BitVec 20 := 0x114; let d : RegDef := defAt (regKey 3 0x110); let k : Nat := 0; let q' : Requester := .jtag; let key' : Nat := 0; let key := regKey isl.val off.toNat; q.isHif = false ∧ regFind (regKey isl.val off.toNat) = some (d, k, 0) ∧ regFind (regKey isl.val hoff.toNat) = some (d, k, 4) ∧ hoff.toNat = off.toNat + 4 ∧ d.wide = true ∧ d.id ≠ .KWE_LOCK ∧ (¬(isl.val = 0x30 ∧ 0x80000 ≤ hoff.toNat)) ∧ q' ≠ q ∧ key' < 2 ^ 40 ∧ key < 2 ^ 40) := by
  refine ⟨?c1, ?c2, ?c3, ?c4, ?c5, ?c6⟩
  all_goals decide +kernel

theorem witness_access_types :
  (let d : RegDef := defAt (F.ZNE_GEOM_LOCK).addr; let b : Nat := 63; (∀ f ∈ d.fields, b < f.lo ∨ f.lo + f.w ≤ b)) ∧
  (let s : State := State.reset; let d : RegDef := defAt (F.ZNE_PWRRES_PGMCAP).addr; let isl : Nat := 0; let k : Nat := 0; let key : Nat := (F.ZNE_PWRRES_PGMCAP).addr; let v : Nat := 0; let mask : Nat := 2 ^ 64 - 1; s.validWord d k (mergeWord d (s.locked d isl) (s.word key).toNat v mask) = false) ∧
  (let s : State := State.reset; let d : RegDef := defAt 0x200300; let isl : Nat := 2; let k : Nat := 0; let key : Nat := 0x200300; let v : Nat := 0; let mask : Nat := 2 ^ 64 - 1; s.validWord d k (mergeWord d (s.locked d isl) (s.word key).toNat v mask) = true ∧ d.id ∉ [.ZNE_DIRTYCFG, .ZNE_TPRED1, .ZNE_PWRRES, .ZNE_PWRBUD, .ZNE_PCAP]) := by
  refine ⟨?c1, ?c2, ?c3⟩
  all_goals decide +kernel

theorem witness_misaligned_and_empty_offsets :
  (let c : CoreId := 31; let s : State := allRun; let size : Fin 4 := 2; let off : BitVec 20 := 0xFFFFE; s.coreRuns c ∧ (size.val < 2 ∨ off.toNat % 2 ^ size.val ≠ 0)) ∧
  (let c : CoreId := 31; let s : State := allRun; let isl : Isl := 3; let off : BitVec 20 := 0xFFFFC; s.reaches (.core c) isl.val off.toNat 2 ∧ emptyAt isl.val off.toNat) ∧
  (let c : CoreId := 31; let s : State := allRun; let isl : Isl := 3; let off : BitVec 20 := 0xFFFF8; s.reaches (.core c) isl.val off.toNat 3 ∧ emptyAt isl.val off.toNat ∧ emptyAt isl.val (off.toNat + 4)) := by
  refine ⟨?c1, ?c2, ?c3⟩
  all_goals decide +kernel

theorem witness_gated_islands :
  (let s : State := gatedS; let isl : Isl := 175; s.gated isl.val = true) ∧
  (let s : State := gatedS; let c : CoreId := 31; let isl : Isl := 175; s.coreRuns c ∧ s.gated isl.val = true) ∧
  (let s : State := gatedS; let n : Fin 8 := 7; let isl : Isl := 175; s.gated isl.val = true ∧ s.flag (F.DMC_DMACTL_BUSY (n.val / 4) (n.val % 4)) = true) := by
  refine ⟨?c1, ?c2, ?c3⟩
  all_goals decide +kernel

theorem witness_clocks_and_fabric :
  (let q : Requester := .core 0; let isl : Isl := 1; let s : State := pllS; let v : W32 := 3; q.isHif = false ∧ s.reaches q isl.val 8 2 ∧ isl.val ≠ 0 ∧ v.getLsbD 0 = true ∧ v.getLsbD 1 = true ∧ s.flag (F.ISL_CLKCTL_PLLEN isl.val) = true ∧ s.flag (F.ISL_CLKSTAT_LOCK isl.val) = true ∧ (s.flag (F.ISL_CLKSTAT_SRCACT isl.val) = true ∨ s.phyOk isl.val = true)) ∧
  (let q : Requester := .core 0; let isl : Isl := 1; let s : State := pllS; let v : W32 := 0; q.isHif = false ∧ s.reaches q isl.val 8 2 ∧ isl.val ≠ 0 ∧ v.getLsbD 0 = false ∧ v.getLsbD 1 = false ∧ s.flag (F.ISL_CLKCTL_PLLEN isl.val) = true) ∧
  (let isl : Isl := 1; let s : State := pllS; s.flag (F.ISL_CLKCTL_PLLEN isl.val) = true) ∧
  (let isl : Isl := 1; let s : State := pllS.setFld (F.ISL_CLKSTAT_SRCACT 1) 1; s.flag (F.ISL_CLKSTAT_LOCK isl.val) = true ∧ s.flag (F.ISL_CLKSTAT_SRCACT isl.val) = true) ∧
  (let s : State := pllS; s.gated 2 = false) ∧
  (let n : Fin 8 := 7; let s : State := withF (F.DMC_DMACTL_BUSY 1 3) 1; s.flag (F.DMC_DMACTL_BUSY (n.val / 4) (n.val % 4)) = true ∧ s.gated 2 = false) ∧
  (let s : State := pllS; let c : CoreId := 31; s.coreRuns c) := by
  refine ⟨?c1, ?c2, ?c3, ?c4, ?c5, ?c6, ?c7⟩
  all_goals decide +kernel

theorem witness_atomics :
  (let c : CoreId := 31; let a : BitVec 40 := 0x107FFFF8; let wide : Bool := true; let s : State := allRun; let n := if wide then 8 else 4; s.coreRuns c ∧ s.atomicOk a.toNat n = true ∧ s.guarded a.toNat = false ∧ s.atomicBad a.toNat n false = false) ∧
  (let c : CoreId := 31; let a : BitVec 40 := 0x107FFFF8; let wide : Bool := true; let s : State := allRun; let n := if wide then 8 else 4; s.coreRuns c ∧ s.atomicOk a.toNat n = true ∧ s.atomicBad a.toNat n false = false) ∧
  (let c : CoreId := 31; let a : BitVec 40 := 0x107FFFF8; let wide : Bool := true; let s : State := { allRun with cores := { allRun.cores with resv := [(31, 0x107FFFF8 / 64)] } }; let n := if wide then 8 else 4; s.coreRuns c ∧ s.atomicOk a.toNat n = true ∧ s.guarded a.toNat = false ∧ Tab.find s.cores.resv c.val = some (a.toNat / 64)) ∧
  (let c : CoreId := 31; let a : BitVec 40 := 0x107FFFF8; let wide : Bool := true; let s : State := allRun; s.coreRuns c ∧ s.atomicOk a.toNat (if wide then 8 else 4) = true ∧ s.guarded a.toNat = false ∧ Tab.find s.cores.resv c.val ≠ some (a.toNat / 64)) ∧
  (let c : CoreId := 31; let s : State := allRun; let a : BitVec 40 := 0x10800000; s.coreRuns c ∧ s.region a.toNat ≠ .sram ∧ s.region a.toNat ≠ .dram) ∧
  (let c : CoreId := 31; let a : BitVec 40 := 0x107FFFF8; let wide : Bool := true; let op : AmoOp := .add; let v : W64 := 1; let ue : Bool := false; let s : State := allRun; let x : Nat := 0x10800000; ((x < a.toNat ∨ a.toNat + (if wide then 8 else 4) ≤ x)) ∧ (∃ t, exec (.amo c a wide op v ue) s = .next t)) ∧
  (let c : CoreId := 31; let a : BitVec 40 := 0x107FFFF8; let wide : Bool := true; let op : AmoOp := .add; let v : W64 := 1; let ue : Bool := false; let s : State := allRun; let key : Nat := 0; (s.gated 2 = false ∧ (∀ d < 2, ∀ i < 2, key ≠ (F.DMC_UECNT_COUNT d i).addr)) ∧ (∃ t, exec (.amo c a wide op v ue) s = .next t)) ∧
  (let c : CoreId := 31; let a : BitVec 40 := 0x107FFFF8; let wide : Bool := true; let v : W64 := 1; let s : State := allRun; let x : Nat := 0x10800000; ((x < a.toNat ∨ a.toNat + (if wide then 8 else 4) ≤ x)) ∧ (∃ t, exec (.storeConditional c a wide v) s = .next t)) ∧
  (let c : CoreId := 31; let a : BitVec 40 := 0x107FFFF8; let wide : Bool := true; let v : W64 := 1; let s : State := allRun; let key : Nat := 0; (s.gated 2 = false ∧ (∀ d < 2, ∀ i < 2, key ≠ (F.DMC_UECNT_COUNT d i).addr)) ∧ (∃ t, exec (.storeConditional c a wide v) s = .next t)) ∧
  (let c : CoreId := 31; let a : BitVec 40 := 0x107FFFF8; let wide : Bool := true; let ue : Bool := false; let s : State := allRun; (∃ t, exec (.loadReserved c a wide ue) s = .next t)) := by
  refine ⟨?c1, ?c2, ?c3, ?c4, ?c5, ?c6, ?c7, ?c8, ?c9, ?c10⟩
  case c6 => exact ⟨by decide +kernel, _, rfl⟩
  case c7 => exact ⟨by decide +kernel, _, rfl⟩
  case c8 => exact ⟨by decide +kernel, _, rfl⟩
  case c9 => exact ⟨by decide +kernel, _, rfl⟩
  case c10 => exact ⟨_, rfl⟩
  all_goals decide +kernel

theorem witness_core_stores :
  (let c : CoreId := 31; let size : Fin 4 := 3; let s : State := allRun; let a : BitVec 40 := 0x107FFFF8; s.Inv ∧ s.coreRuns c ∧ a.toNat % 2 ^ size.val = 0 ∧ s.blocked a.toNat = false ∧ (s.region a.toNat = .itcm ∨ s.region a.toNat = .dtcm ∨ s.region a.toNat = .sram ∨ s.region a.toNat = .ret ∨ (s.region a.toNat = .dram ∧ s.guarded a.toNat = false))) ∧
  (let c : CoreId := 31; let size : Fin 4 := 3; let s : State := allRun; let a : BitVec 40 := 0x107FFFF9; s.coreRuns c ∧ ((a.toNat % 2 ^ size.val ≠ 0 ∧ s.region a.toNat ≠ .csr) ∨ s.region a.toNat = .rom ∨ s.region a.toNat = .outside ∨ (s.region a.toNat = .dram ∧ s.blocked a.toNat = false ∧ s.guarded a.toNat = true))) ∧
  (let c : CoreId := 31; let size : Fin 4 := 3; let a : BitVec 40 := 0x107FFFF8; let s : State := { allRun with fab := { allRun.fab with isolated := List.range 176 } }; s.coreRuns c ∧ a.toNat % 2 ^ size.val = 0 ∧ s.region a.toNat ≠ .csr ∧ s.blocked a.toNat = true) ∧
  (let c : CoreId := 31; let s : State := allRun; let isl : Isl := 0; let off : BitVec 20 := 0; let a : BitVec 40 := 0x0100000000; s.coreRuns c ∧ a.toNat = csrAddr isl.val off.toNat ∧ s.region a.toNat = .csr) ∧
  (let c : CoreId := 31; let size : Fin 4 := 3; let s : State := allRun; let a : BitVec 40 := 0x21FFFFF8; s.coreRuns c ∧ a.toNat % 2 ^ size.val = 0 ∧ s.blocked a.toNat = false ∧ s.region a.toNat = .mram) ∧
  (let c : CoreId := 31; let s : State := allRun; let a : BitVec 40 := 0x20000001; let size : Fin 4 := 1; s.coreRuns c ∧ s.region a.toNat = .mram ∧ a.toNat % 2 ^ size.val ≠ 0) := by
  refine ⟨?c1, ?c2, ?c3, ?c4, ?c5, ?c6⟩
  all_goals decide +kernel

theorem witness_tcm_windows :
  (let o : Nat := 0xFFFF; o < 0x10000) ∧
  (let c : CoreId := 0; let t : CoreId := 31; let s : State := allRun; let isl : Isl := 0x2F; let off : BitVec 20 := 0x9FFFC; isl.val = 0x10 + t.val ∧ 0x80000 ≤ off.toNat ∧ off.toNat < 0xA0000 ∧ s.reaches (.core c) isl.val off.toNat 2) ∧
  (let c : CoreId := 0; let t : CoreId := 31; let s : State := allRun; let isl : Isl := 0x2F; let off : BitVec 20 := 0x80000; isl.val = 0x10 + t.val ∧ 0x80000 ≤ off.toNat ∧ off.toNat < 0xA0000 ∧ s.reaches (.core c) isl.val off.toNat 2) ∧
  (let c : CoreId := 0; let t : CoreId := 31; let s : State := allRun; s.coreRuns c ∧ s.portDown (0x10 + t.val) = false) ∧
  (let c : CoreId := 0; let t : CoreId := 31; let s : State := { allRun with fab := { allRun.fab with isolated := [0x2F] } }; s.coreRuns c ∧ s.portDown (0x10 + t.val) = true) ∧
  (let c : CoreId := 0; let t : CoreId := 31; let s : State := allRun; let dtcm : Bool := true; let off : BitVec 13 := 0x1FFF; let v : W64 := 1; let x : Nat := 0; ((x < tcmAddr t.val dtcm (off.toNat * 8) ∨ tcmAddr t.val dtcm (off.toNat * 8) + 8 ≤ x)) ∧ (∃ u, exec (.remoteTcmWrite c t dtcm off v) s = .next u)) := by
  refine ⟨?c1, ?c2, ?c3, ?c4, ?c5, ?c6⟩
  case c6 => exact ⟨by decide +kernel, _, rfl⟩
  all_goals decide +kernel

theorem witness_fences_and_mram_stores :
  (let c : CoreId := 31; let s : State := allRun; s.coreRuns c ∧ s.unacked c.val = false) ∧
  (let c : CoreId := 31; let s : State := { allRun with mram := { allRun.mram with gather := some ⟨cfgBase, [(0, 1)], [31]⟩ } }; s.coreRuns c ∧ s.unacked c.val = true) ∧
  (let c : CoreId := 31; let s : State := allRun; let a : BitVec 40 := BitVec.ofNat 40 (cfgBase + 0xFFFF0); s.coreRuns c ∧ s.region a.toNat = .mram ∧ s.blocked a.toNat = false ∧ cfgBase ≤ a.toNat ∧ a.toNat < cfgBase + 0x100000 ∧ a.toNat % 8 = 0 ∧ s.mram.gather = none ∧ a.toNat % 32 ≠ 24) ∧
  (let c : CoreId := 31; let s : State := allRun; let a : BitVec 40 := BitVec.ofNat 40 (cfgBase + 24); s.coreRuns c ∧ s.region a.toNat = .mram ∧ s.blocked a.toNat = false ∧ cfgBase ≤ a.toNat ∧ a.toNat < cfgBase + 0x100000 ∧ a.toNat % 32 = 24 ∧ s.mram.gather = none) ∧
  (let c : CoreId := 31; let size : Fin 4 := 3; let s : State := allRun; let a : BitVec 40 := 0x20000000; s.coreRuns c ∧ s.region a.toNat = .mram ∧ (s.blocked a.toNat = true ∨ size ≠ 3 ∨ a.toNat % 8 ≠ 0 ∨ a.toNat < cfgBase ∨ cfgBase + 0x100000 ≤ a.toNat)) ∧
  (let c : CoreId := 31; let size : Fin 4 := 3; let v : W64 := 1; let w : MramWrite := .done; let s : State := allRun; let a : BitVec 40 := 0x20000000; let x : Nat := 0; ((x < a.toNat / 32 * 32 ∨ a.toNat / 32 * 32 + 32 ≤ x) ∧ (∀ g, s.mram.gather = some g → ∀ d ∈ g.dws, x < g.word + d.1 * 8 ∨ g.word + d.1 * 8 + 8 ≤ x)) ∧ (∃ t, exec (.mramCoreStore c a size v w) s = .next t)) := by
  refine ⟨?c1, ?c2, ?c3, ?c4, ?c5, ?c6⟩
  case c6 => exact ⟨⟨by decide +kernel, by intro g h; cases h⟩, _, rfl⟩
  all_goals decide +kernel

theorem witness_kazino_fetch :
  (let n : Chan := 0; let i : Instr := .add 0 .double 1 2 5; let s : State := kz (.add 0 .double 1 2 5); i.wf = true ∧ i.site = some (n, .double) ∧ s.fld (F.CH_SEQSTAT_STATE n) = 1) ∧
  (let n : Chan := 0; let i : Instr := .add 0 .single 1 2 5; let s : State := kz (.add 0 .single 1 2 5); i.wf = true ∧ i.site = some (n, .single) ∧ s.runsKz n .single i) ∧
  (let n : Chan := 0; let s : State := kzS (.add 0 .single 1 2 5) fun q => { q with ceSeen := [0] }; s.gated 2 = false ∧ s.fld (F.CH_SEQSTAT_PC n) ∈ (s.seq n).ceSeen) ∧
  (let n : Chan := 0; let s : State := kz (.add 0 .single 1 2 5); s.gated 2 = false ∧ s.fld (F.CH_SEQSTAT_PC n) ∉ (s.seq n).ceSeen) := by
  refine ⟨?c1, ?c2, ?c3, ?c4⟩
  all_goals decide +kernel

theorem witness_kazino_other_words :
  (let n : Chan := 0; let f : Fetch := .ok; let i : Instr := .add 0 .ok 1 2 5; let s : State := State.reset; i.site = some (n, f) ∧ s.fld (F.CH_SEQSTAT_STATE n) ≠ 1 ∧ s.fld (F.CH_SEQSTAT_STATE n) ≠ 2) ∧
  (let n : Chan := 0; let f : Fetch := .ok; let i : Instr := .add 0 .ok 1 2 5; let s : State := (kz (.add 0 .ok 1 2 5)).setFld (F.CH_IMEM_WORD 0 0) 0xFFFFFFFF; let x := s.fld (F.CH_IMEM_WORD n (s.fld (F.CH_SEQSTAT_PC n))); i.wf = true ∧ i.site = some (n, f) ∧ f ≠ .double ∧ s.fld (F.CH_SEQSTAT_STATE n) = 1 ∧ x / 2 ^ 26 ∉ kzOpcodes) ∧
  (let n : Chan := 0; let f : Fetch := .ok; let i : Instr := .add 0 .ok 1 2 5; let s : State := (kz (.add 0 .ok 1 2 5)).setFld (F.CH_IMEM_WORD 0 0) (0x29 * 2 ^ 26 + 3 * 2 ^ 12); let x := s.fld (F.CH_IMEM_WORD n (s.fld (F.CH_SEQSTAT_PC n))); i.wf = true ∧ i.site = some (n, f) ∧ f ≠ .double ∧ s.fld (F.CH_SEQSTAT_STATE n) = 1 ∧ x / 2 ^ 26 = 0x29 ∧ x / 2 ^ 12 % 4 = 3) ∧
  (let n : Chan := 0; let f : Fetch := .ok; let i : Instr := .add 0 .ok 1 2 5; let s : State := (kz (.add 0 .ok 1 2 5)).setFld (F.CH_IMEM_WORD 0 0) 0; let x := s.fld (F.CH_IMEM_WORD n (s.fld (F.CH_SEQSTAT_PC n))); i.wf = true ∧ i.site = some (n, f) ∧ f ≠ .double ∧ s.fld (F.CH_SEQSTAT_STATE n) = 1 ∧ x / 2 ^ 26 ∈ kzOpcodes ∧ (¬(x / 2 ^ 26 = 0x29 ∧ x / 2 ^ 12 % 4 = 3)) ∧ kzEncode i ≠ some (BitVec.ofNat 32 x)) := by
  refine ⟨?c1, ?c2, ?c3, ?c4⟩
  all_goals decide +kernel

theorem witness_kazino_arithmetic :
  (let n : Chan := 0; let f : Fetch := .ok; let rd : BitVec 4 := 15; let rs : BitVec 4 := 0; let imm : BitVec 18 := 0x3FFFF; let s : State := kz (.add n f rd rs imm); s.runsKz n f (.add n f rd rs imm)) ∧
  (let n : Chan := 0; let f : Fetch := .ok; let rd : BitVec 4 := 15; let rs : BitVec 4 := 0; let imm : BitVec 18 := 0x3FFFF; let s : State := kz (.sub n f rd rs imm); s.runsKz n f (.sub n f rd rs imm)) ∧
  (let n : Chan := 0; let f : Fetch := .ok; let rd : BitVec 4 := 15; let rs : BitVec 4 := 0; let imm : BitVec 18 := 0x3FFFF; let s : State := kz (.and n f rd rs imm); s.runsKz n f (.and n f rd rs imm)) ∧
  (let n : Chan := 0; let f : Fetch := .ok; let rd : BitVec 4 := 15; let rs : BitVec 4 := 0; let imm : BitVec 18 := 0x3FFFF; let s : State := kz (.or n f rd rs imm); s.runsKz n f (.or n f rd rs imm)) ∧
  (let n : Chan := 0; let f : Fetch := .ok; let rd : BitVec 4 := 15; let rs : BitVec 4 := 0; let imm : BitVec 18 := 0x3FFFF; let s : State := kz (.xor n f rd rs imm); s.runsKz n f (.xor n f rd rs imm)) ∧
  (let n : Chan := 0; let f : Fetch := .ok; let rd : BitVec 4 := 15; let rs : BitVec 4 := 0; let imm : BitVec 18 := 0x3FFFF; let s : State := kz (.shl n f rd rs imm); s.runsKz n f (.shl n f rd rs imm)) ∧
  (let n : Chan := 0; let f : Fetch := .ok; let rd : BitVec 4 := 15; let rs : BitVec 4 := 0; let imm : BitVec 18 := 0x3FFFF; let s : State := kz (.shr n f rd rs imm); s.runsKz n f (.shr n f rd rs imm)) ∧
  (let n : Chan := 0; let f : Fetch := .ok; let rd : BitVec 4 := 15; let rs : BitVec 4 := 0; let imm : BitVec 18 := 0x3FFFF; let s : State := kz (.ldi n f rd imm); s.runsKz n f (.ldi n f rd imm)) ∧
  (let n : Chan := 0; let f : Fetch := .ok; let rd : BitVec 4 := 15; let rs : BitVec 4 := 0; let imm : BitVec 18 := 0x3FFF; let s : State := kz (.ldih n f rd imm); s.runsKz n f (.ldih n f rd imm)) ∧
  (let n : Chan := 0; let f : Fetch := .ok; let rd : BitVec 4 := 15; let rs : BitVec 4 := 0; let imm : BitVec 18 := 0; let s : State := kz (.mov n f rd rs imm); s.runsKz n f (.mov n f rd rs imm) ∧ imm.getLsbD 17 = false) ∧
  (let n : Chan := 0; let f : Fetch := .ok; let rd : BitVec 4 := 15; let rs : BitVec 4 := 0; let imm : BitVec 18 := 0x20007; let s : State := kz (.mov n f rd rs imm); s.runsKz n f (.mov n f rd rs imm) ∧ imm.getLsbD 17 = true) ∧
  (let q : Seq := Seq.empty; let r : Nat := 15; let x : Nat := 1; q.k.length = 16 ∧ 0 < r ∧ r < 16 ∧ x ≠ r) ∧
  (let r : Nat := 3; let x : Nat := 0; r < 4 ∧ x < 4 ∧ x ≠ r) ∧
  (let n : Chan := 0; let g : Seq → Seq := id; let m : Nat := 127; (∀ q, (g q).till = q.till) ∧ m ≠ n.val) ∧
  (let n : Chan := 0; let g : Seq → Seq := id; let key : Nat := 0; (∀ q, (g q).till = q.till) ∧ key ≠ (F.CH_SEQSTAT_PC n).addr) := by
  refine ⟨?c1, ?c2, ?c3, ?c4, ?c5, ?c6, ?c7, ?c8, ?c9, ?c10, ?c11, ?c12, ?c13, ?c14, ?c15⟩
  case c14 => exact ⟨fun _ => rfl, by decide⟩
  case c15 => exact ⟨fun _ => rfl, by decide +kernel⟩
  all_goals decide +kernel

theorem witness_kazino_control_flow :
  (let n : Chan := 0; let f : Fetch := .ok; let rs : BitVec 4 := 1; let imm : BitVec 18 := 0xFFF; let s : State := kz (.br n f imm); s.runsKz n f (.br n f imm)) ∧
  (let n : Chan := 0; let f : Fetch := .ok; let rs : BitVec 4 := 1; let imm : BitVec 18 := 0x3FFF; let s : State := kz (.brc n f imm); let u := s.fetched n f; s.runsKz n f (.brc n f imm) ∧ (u.seq n).pred (imm.toNat / 2 ^ 12 % 4) = imm.getLsbD 14) ∧
  (let n : Chan := 0; let f : Fetch := .ok; let rs : BitVec 4 := 1; let imm : BitVec 18 := 0x7FFF; let s : State := kz (.brc n f imm); let u := s.fetched n f; s.runsKz n f (.brc n f imm) ∧ (u.seq n).pred (imm.toNat / 2 ^ 12 % 4) ≠ imm.getLsbD 14) ∧
  (let n : Chan := 0; let f : Fetch := .ok; let rs : BitVec 4 := 1; let imm : BitVec 18 := 0xFFF; let s : State := kzS (.call n f imm) fun q => { q with stack := List.replicate 7 0 }; let u := s.fetched n f; s.runsKz n f (.call n f imm) ∧ (u.seq n).stack.length < 8) ∧
  (let n : Chan := 0; let f : Fetch := .ok; let rs : BitVec 4 := 1; let imm : BitVec 18 := 0xFFF; let s : State := kzS (.call n f imm) fun q => { q with stack := List.replicate 8 0 }; let u := s.fetched n f; s.runsKz n f (.call n f imm) ∧ 8 ≤ (u.seq n).stack.length) ∧
  (let n : Chan := 0; let f : Fetch := .ok; let rs : BitVec 4 := 1; let imm : BitVec 18 := 0; let ra : Nat := 4095; let t : List Nat := []; let s : State := kzS (.ret n f) fun q => { q with stack := [4095] }; let u := s.fetched n f; s.runsKz n f (.ret n f) ∧ (u.seq n).stack = ra :: t) ∧
  (let n : Chan := 0; let f : Fetch := .ok; let rs : BitVec 4 := 1; let imm : BitVec 18 := 0; let s : State := kz (.ret n f); let u := s.fetched n f; s.runsKz n f (.ret n f) ∧ (u.seq n).stack = []) ∧
  (let n : Chan := 0; let f : Fetch := .ok; let rs : BitVec 4 := 1; let imm : BitVec 18 := 0; let s : State := kz (.halt n f); let u := s.fetched n f; s.runsKz n f (.halt n f) ∧ (u.seq n).hand = none) ∧
  (let n : Chan := 0; let f : Fetch := .ok; let rs : BitVec 4 := 1; let imm : BitVec 18 := 0; let s : State := kzS (.halt n f) fun q => { q with hand := some ⟨0, false⟩ }; let u := s.fetched n f; s.runsKz n f (.halt n f) ∧ (u.seq n).hand ≠ none) ∧
  (let n : Chan := 0; let f : Fetch := .ok; let rs : BitVec 4 := 1; let imm : BitVec 18 := 0; let c : Nat := ((kz (.wait 0 .ok 1 0)).fetched 0 .ok |>.toCycles 0 0 0).getD 0; let s : State := kz (.wait n f rs imm); let u := s.fetched n f; let count := ((u.seq n).reg rs.toNat).toNat + imm.toNat % 2 ^ 16; s.runsKz n f (.wait n f rs imm) ∧ u.toCycles n count (imm.toNat / 2 ^ 16) = some c) ∧
  (let n : Chan := 0; let f : Fetch := .ok; let rs : BitVec 4 := 1; let imm : BitVec 18 := 0x30000; let s : State := kz (.wait n f rs imm); s.runsKz n f (.wait n f rs imm) ∧ imm.toNat / 2 ^ 16 = 3) ∧
  (let n : Chan := 0; let f : Fetch := .ok; let rs : BitVec 4 := 1; let imm : BitVec 18 := 0; let c : Nat := ((kz (.tstart 0 .ok 1 0)).fetched 0 .ok |>.toCycles 0 0 0).getD 0; let s : State := kz (.tstart n f rs imm); let u := s.fetched n f; let count := ((u.seq n).reg rs.toNat).toNat + imm.toNat % 2 ^ 16; s.runsKz n f (.tstart n f rs imm) ∧ u.toCycles n count (imm.toNat / 2 ^ 16) = some c) ∧
  (let n : Chan := 0; let f : Fetch := .ok; let rs : BitVec 4 := 1; let imm : BitVec 18 := 0x30000; let s : State := kz (.tstart n f rs imm); s.runsKz n f (.tstart n f rs imm) ∧ imm.toNat / 2 ^ 16 = 3) ∧
  (let n : Chan := 0; let f : Fetch := .ok; let rs : BitVec 4 := 1; let imm : BitVec 18 := 0; let s : State := kz (.twait n f); s.runsKz n f (.twait n f)) := by
  refine ⟨?c1, ?c2, ?c3, ?c4, ?c5, ?c6, ?c7, ?c8, ?c9, ?c10, ?c11, ?c12, ?c13, ?c14⟩
  all_goals decide +kernel

theorem witness_kazino_event :
  (let n : Chan := 0; let f : Fetch := .ok; let rd : BitVec 4 := 1; let rs : BitVec 4 := 2; let imm : BitVec 18 := 0x0480; let s : State := kz (.evt n f rd rs imm); let id := imm.toNat % 2 ^ 16; s.runsKz n f (.evt n f rd rs imm) ∧ (id < 0x0460 ∨ 0x047F < id)) ∧
  (let n : Chan := 0; let f : Fetch := .ok; let rd : BitVec 4 := 1; let rs : BitVec 4 := 2; let imm : BitVec 18 := 0x047F; let s : State := kz (.evt n f rd rs imm); let id := imm.toNat % 2 ^ 16; s.runsKz n f (.evt n f rd rs imm) ∧ 0x0460 ≤ id ∧ id ≤ 0x047F) := by
  refine ⟨?c1, ?c2⟩
  all_goals decide +kernel

theorem witness_kazino_bus :
  (let n : Chan := 0; let f : Fetch := .ok; let rs : BitVec 4 := 2; let imm : BitVec 18 := 0; let s : State := kz (.sel n f rs imm); let u := s.fetched n f; let r := ((u.seq n).reg rs.toNat).toNat; s.runsKz n f (.sel n f rs imm) ∧ bits r (imm.toNat % 32) 4 < u.chanDies) ∧
  (let n : Chan := 0; let f : Fetch := .ok; let rs : BitVec 4 := 2; let imm : BitVec 18 := 0; let s : State := (kzS (.sel n f rs imm) fun q => q.setReg 2 8).setFld F.ZNE_GEOM_DPC 8; let u := s.fetched n f; let r := ((u.seq n).reg rs.toNat).toNat; s.runsKz n f (.sel n f rs imm) ∧ u.chanDies ≤ bits r (imm.toNat % 32) 4) ∧
  (let n : Chan := 0; let f : Fetch := .ok; let rs : BitVec 4 := 2; let imm : BitVec 18 := 2; let s : State := kz (.cmd n f rs imm); let u := s.fetched n f; (u.seq n).sel = none ∧ s.runsKz n f (.cmd n f rs imm)) ∧
  (let n : Chan := 0; let f : Fetch := .ok; let rs : BitVec 4 := 2; let imm : BitVec 18 := 2; let s : State := kz (.addr n f rs imm); let u := s.fetched n f; (u.seq n).sel = none ∧ s.runsKz n f (.addr n f rs imm)) ∧
  (let n : Chan := 0; let f : Fetch := .ok; let rd : BitVec 4 := 1; let rs : BitVec 4 := 2; let imm : BitVec 18 := 2; let s : State := kz (.din n f rd rs imm); let u := s.fetched n f; (u.seq n).sel = none ∧ s.runsKz n f (.din n f rd rs imm)) ∧
  (let n : Chan := 0; let f : Fetch := .ok; let rd : BitVec 4 := 1; let rs : BitVec 4 := 2; let imm : BitVec 18 := 2; let data : List Byte := [7, 8]; let s : State := kz (.dout n f rd rs imm data); let u := s.fetched n f; (u.seq n).sel = none ∧ s.runsKz n f (.dout n f rd rs imm data)) ∧
  (let n : Chan := 0; let f : Fetch := .ok; let rd : BitVec 4 := 1; let rs : BitVec 4 := 2; let imm : BitVec 18 := 2; let x : Byte := 0; let xs : List Byte := []; let s : State := kz (.poll n f rd rs imm x xs); let u := s.fetched n f; (u.seq n).sel = none ∧ s.runsKz n f (.poll n f rd rs imm x xs)) ∧
  (let n : Chan := 0; let f : Fetch := .ok; let rs : BitVec 4 := 2; let imm : BitVec 18 := 2; let s : State := kz (.pgen n f rs imm); let u := s.fetched n f; (u.seq n).sel = none ∧ s.runsKz n f (.pgen n f rs imm)) ∧
  (let n : Chan := 0; let f : Fetch := .ok; let rd : BitVec 4 := 1; let rs : BitVec 4 := 2; let imm : BitVec 18 := 2; let got : List Byte := []; let s : State := kz (.pchk n f rd rs imm got); let u := s.fetched n f; (u.seq n).sel = none ∧ s.runsKz n f (.pchk n f rd rs imm got)) ∧
  (let n : Chan := 0; let f : Fetch := .ok; let rs : BitVec 4 := 2; let imm : BitVec 18 := 2; let s : State := kzS (.cmd n f rs imm) fun q => { q with sel := some 0 }; let u := s.fetched n f; (u.seq n).sel ≠ none ∧ s.runsKz n f (.cmd n f rs imm)) ∧
  (let n : Chan := 0; let f : Fetch := .ok; let rs : BitVec 4 := 2; let imm : BitVec 18 := 4; let s : State := kzS (.addr n f rs imm) fun q => { q with sel := some 0 }; let u := s.fetched n f; (u.seq n).sel ≠ none ∧ s.runsKz n f (.addr n f rs imm) ∧ 1 ≤ imm.toNat % 8 ∧ imm.toNat % 8 + imm.toNat / 8 % 4 ≤ 4) ∧
  (let n : Chan := 0; let f : Fetch := .ok; let rd : BitVec 4 := 1; let rs : BitVec 4 := 2; let imm : BitVec 18 := 2; let s : State := kzS (.din n f rd rs imm) fun q => { q with sel := some 0 }; let u := s.fetched n f; let r := ((u.seq n).reg rs.toNat).toNat; (u.seq n).sel ≠ none ∧ s.runsKz n f (.din n f rd rs imm) ∧ 2 ≤ imm.toNat ∧ imm.toNat % 2 = 0 ∧ bits r 20 4 < 5 ∧ (∀ l, u.streamLen n (bits r 20 4) = some l → ((u.seq n).reg rd.toNat).toNat + imm.toNat ≤ l)) ∧
  (let n : Chan := 0; let f : Fetch := .ok; let rd : BitVec 4 := 1; let rs : BitVec 4 := 2; let imm : BitVec 18 := 2; let data : List Byte := [7, 8]; let s : State := withDie { Die.empty with active := some { pod0 with desc := [0x88] } } (kzS (.dout n f rd rs imm data) fun q => { q.setReg 2 0x400000 with sel := some 0, hand := some ⟨0, false⟩ }); let u := s.fetched n f; let r := ((u.seq n).reg rs.toNat).toNat; (u.seq n).sel ≠ none ∧ s.runsKz n f (.dout n f rd rs imm data) ∧ 2 ≤ imm.toNat ∧ imm.toNat % 2 = 0 ∧ bits r 20 4 < 5 ∧ (∀ l, u.streamLen n (bits r 20 4) = some l → ((u.seq n).reg rd.toNat).toNat + imm.toNat ≤ l)) ∧
  (let n : Chan := 0; let f : Fetch := .ok; let rd : BitVec 4 := 1; let rs : BitVec 4 := 2; let xs : List Byte := []; let x := 0x41; let imm : BitVec 18 := 0x4040; let s : State := kzS (.poll n f rd rs imm x xs) fun q => { q with sel := some 0 }; let u := s.fetched n f; (u.seq n).sel ≠ none ∧ s.runsKz n f (.poll n f rd rs imm x xs) ∧ x.toNat &&& (imm.toNat % 256) = imm.toNat / 256 % 256) ∧
  (let n : Chan := 0; let f : Fetch := .ok; let rd : BitVec 4 := 1; let x := 0; let imm : BitVec 18 := 0x4040; let rs : BitVec 4 := 0; let s : State := kzS (.poll n f rd rs imm x []) fun q => { q with sel := some 0 }; let u := s.fetched n f; let r := ((u.seq n).reg rs.toNat).toNat; (u.seq n).sel ≠ none ∧ s.runsKz n f (.poll n f rd rs imm x []) ∧ x.toNat &&& (imm.toNat % 256) ≠ imm.toNat / 256 % 256 ∧ r = 0) ∧
  (let n : Chan := 0; let f : Fetch := .ok; let rs : BitVec 4 := 2; let imm : BitVec 18 := 12; let s : State := kzS (.addr n f rs imm) fun q => { q with sel := some 0 }; let u := s.fetched n f; (u.seq n).sel ≠ none ∧ s.runsKz n f (.addr n f rs imm) ∧ (imm.toNat % 8 = 0 ∨ 4 < imm.toNat % 8 + imm.toNat / 8 % 4)) ∧
  (let n : Chan := 0; let f : Fetch := .ok; let rd : BitVec 4 := 1; let rs : BitVec 4 := 2; let imm : BitVec 18 := 1; let s : State := kzS (.din n f rd rs imm) fun q => { q with sel := some 0 }; let u := s.fetched n f; (u.seq n).sel ≠ none ∧ s.runsKz n f (.din n f rd rs imm) ∧ (imm.toNat < 2 ∨ imm.toNat % 2 = 1)) ∧
  (let n : Chan := 0; let f : Fetch := .ok; let rd : BitVec 4 := 1; let rs : BitVec 4 := 2; let imm : BitVec 18 := 2; let s : State := kzS (.din n f rd rs imm) fun q => { q.setReg 2 0x500000 with sel := some 0 }; let u := s.fetched n f; let r := ((u.seq n).reg rs.toNat).toNat; (u.seq n).sel ≠ none ∧ s.runsKz n f (.din n f rd rs imm) ∧ 2 ≤ imm.toNat ∧ imm.toNat % 2 = 0 ∧ 5 ≤ bits r 20 4) ∧
  (let n : Chan := 0; let f : Fetch := .ok; let rd : BitVec 4 := 1; let rs : BitVec 4 := 2; let imm : BitVec 18 := 2; let s : State := withDie { Die.empty with active := some { pod0 with desc := [0x88] } } (kzS (.din n f rd rs imm) fun q => { (q.setReg 1 0xFFFFFFFF).setReg 2 0x400000 with sel := some 0, hand := some ⟨0, false⟩ }); let l : Nat := ((s.fetched n f).streamLen n 4).getD 0; let u := s.fetched n f; let r := ((u.seq n).reg rs.toNat).toNat; (u.seq n).sel ≠ none ∧ s.runsKz n f (.din n f rd rs imm) ∧ 2 ≤ imm.toNat ∧ imm.toNat % 2 = 0 ∧ u.streamLen n (bits r 20 4) = some l ∧ l < ((u.seq n).reg rd.toNat).toNat + imm.toNat) ∧
  (let n : Chan := 0; let f : Fetch := .ok; let rs : BitVec 4 := 2; let imm : BitVec 18 := 1; let s : State := kzS (.pgen n f rs imm) fun q => { q with sel := some 0 }; let u := s.fetched n f; (u.seq n).sel ≠ none ∧ s.runsKz n f (.pgen n f rs imm) ∧ imm.toNat % 2 = 1) ∧
  (let n : Chan := 0; let f : Fetch := .ok; let rs : BitVec 4 := 2; let imm : BitVec 18 := 2; let s : State := kzS (.pgen n f rs imm) fun q => { q with sel := some 0 }; let u := s.fetched n f; (u.seq n).sel ≠ none ∧ s.runsKz n f (.pgen n f rs imm) ∧ imm.toNat % 2 = 0) ∧
  (let n : Chan := 0; let f : Fetch := .ok; let rd : BitVec 4 := 1; let rs : BitVec 4 := 2; let got : List Byte := []; let imm : BitVec 18 := 2; let s : State := kzS (.pchk n f rd rs imm got) fun q => { q with sel := some 0 }; let u := s.fetched n f; (u.seq n).sel ≠ none ∧ s.runsKz n f (.pchk n f rd rs imm got) ∧ imm.toNat % 2 = 0) ∧
  (let n : Chan := 0; let f : Fetch := .ok; let rd : BitVec 4 := 1; let rs : BitVec 4 := 2; let got : List Byte := []; let imm : BitVec 18 := 1; let s : State := kzS (.pchk n f rd rs imm got) fun q => { q with sel := some 0 }; let u := s.fetched n f; (u.seq n).sel ≠ none ∧ s.runsKz n f (.pchk n f rd rs imm got) ∧ imm.toNat % 2 = 1) ∧
  (let n : Chan := 0; let f : Fetch := .ok; let rd : BitVec 4 := 1; let rs : BitVec 4 := 2; let data : List Byte := [7, 8]; let imm : BitVec 18 := 1; let s : State := kzS (.dout n f rd rs imm data) fun q => { q with sel := some 0 }; let u := s.fetched n f; (u.seq n).sel ≠ none ∧ s.runsKz n f (.dout n f rd rs imm data) ∧ (imm.toNat < 2 ∨ imm.toNat % 2 = 1)) ∧
  (let n : Chan := 0; let f : Fetch := .ok; let rd : BitVec 4 := 1; let rs : BitVec 4 := 2; let imm : BitVec 18 := 2; let data : List Byte := [7, 8]; let s : State := kzS (.dout n f rd rs imm data) fun q => { q.setReg 2 0x500000 with sel := some 0 }; let u := s.fetched n f; let r := ((u.seq n).reg rs.toNat).toNat; (u.seq n).sel ≠ none ∧ s.runsKz n f (.dout n f rd rs imm data) ∧ 2 ≤ imm.toNat ∧ imm.toNat % 2 = 0 ∧ 5 ≤ bits r 20 4) ∧
  (let n : Chan := 0; let f : Fetch := .ok; let rd : BitVec 4 := 1; let rs : BitVec 4 := 2; let imm : BitVec 18 := 2; let data : List Byte := [7, 8]; let s : State := withDie { Die.empty with active := some { pod0 with desc := [0x88] } } (kzS (.dout n f rd rs imm data) fun q => { (q.setReg 1 0xFFFFFFFF).setReg 2 0x400000 with sel := some 0, hand := some ⟨0, false⟩ }); let l : Nat := ((s.fetched n f).streamLen n 4).getD 0; let u := s.fetched n f; let r := ((u.seq n).reg rs.toNat).toNat; (u.seq n).sel ≠ none ∧ s.runsKz n f (.dout n f rd rs imm data) ∧ 2 ≤ imm.toNat ∧ imm.toNat % 2 = 0 ∧ u.streamLen n (bits r 20 4) = some l ∧ l < ((u.seq n).reg rd.toNat).toNat + imm.toNat) ∧
  (let n : Chan := 0; let f : Fetch := .ok; let rd : BitVec 4 := 1; let rs : BitVec 4 := 2; let imm : BitVec 18 := 2; let data : List Byte := [7, 8]; let x : Nat := diagBuf + 0 + 2; let s : State := kzS (.dout n f rd rs imm data) fun q => { q with sel := some 0 }; ((x < diagBuf + (((s.fetched n f).seq n).reg rd.toNat).toNat ∨ diagBuf + (((s.fetched n f).seq n).reg rd.toNat).toNat + imm.toNat ≤ x)) ∧ (∃ t, exec (.dout n f rd rs imm data) s = .next t)) ∧
  (let n : Chan := 0; let f : Fetch := .ok; let rd : BitVec 4 := 1; let rs : BitVec 4 := 2; let imm : BitVec 18 := 2; let data : List Byte := [7, 8]; let s : State := kzS (.dout n f rd rs imm data) fun q => { q with sel := some 0 }; (bits (((s.fetched n f).seq n).reg rs.toNat).toNat 20 4 ≠ 4) ∧ (∃ t, exec (.dout n f rd rs imm data) s = .next t)) := by
  refine ⟨?c1, ?c2, ?c3, ?c4, ?c5, ?c6, ?c7, ?c8, ?c9, ?c10, ?c11, ?c12, ?c13, ?c14, ?c15, ?c16, ?c17, ?c18, ?c19, ?c20, ?c21, ?c22, ?c23, ?c24, ?c25, ?c26, ?c27, ?c28⟩
  case c27 => exact ⟨Or.inr (Nat.le_refl _), _, rfl⟩
  case c28 => exact ⟨by decide +kernel, _, rfl⟩
  all_goals decide +kernel

theorem witness_program_guard :
  (let n : Chan := 0; let b : Nat := 0x10; let p : Pod := { pod0 with desc := [0x82, 0, 0] }; let s : State := guardS p false [0, 0, 0, 0, 0]; let l := s.latchRow n; (l.isPconf n b = true ∨ l.isEconf n b = true) ∧ s.flag (F.CH_GUARDCTL_DIS n) = false ∧ (((l.isPconf n b = true → l.programAllowed n = true) ∧ (l.isEconf n b = true → l.eraseAllowed n = true)))) ∧
  (let n : Chan := 0; let b : Nat := 0x10; let p : Pod := pod0; let s : State := guardS p false [1, 2, 3, 4, 5]; let l := s.latchRow n; (l.isPconf n b = true ∨ l.isEconf n b = true) ∧ s.flag (F.CH_GUARDCTL_DIS n) = false ∧ (¬((l.isPconf n b = true → l.programAllowed n = true) ∧ (l.isEconf n b = true → l.eraseAllowed n = true))) ∧ l.handPod n = some p) ∧
  (let n : Chan := 0; let b : Nat := 0x10; let p : Pod := { pod0 with desc := [0x82, 0, 0] }; let s : State := guardS p false [0, 0, 0, 0, 0]; let l := s.latchRow n; (l.isPconf n b = true ∨ l.isEconf n b = true) ∧ s.flag (F.CH_GUARDCTL_DIS n) = false ∧ l.programAllowed n = true ∧ l.handPod n = some p) ∧
  (let n : Chan := 0; let p : Pod := { pod0 with desc := [0x84, 0, 0] }; let b : Nat := 0xD0; let s : State := guardS p true [0, 0, 0, 0, 0]; let l := s.latchRow n; (l.isPconf n b = true ∨ l.isEconf n b = true) ∧ s.flag (F.CH_GUARDCTL_DIS n) = false ∧ l.eraseAllowed n = true ∧ l.handPod n = some p) := by
  refine ⟨?c1, ?c2, ?c3, ?c4⟩
  all_goals decide +kernel

theorem witness_kazino_pods :
  (let n : Chan := 0; let f : Fetch := .ok; let rd : BitVec 4 := 1; let s : State := kzS (.pop n f) fun q => { q with hand := some ⟨0, false⟩ }; let u := s.fetched n f; s.runsKz n f (.pop n f) ∧ (u.seq n).hand ≠ none) ∧
  (let n : Chan := 0; let f : Fetch := .ok; let rd : BitVec 4 := 1; let s : State := kz (.pop n f); let u := s.fetched n f; let idle := u.modSeq n fun q => { q with sel := none, burst := none }; s.runsKz n f (.pop n f) ∧ (u.seq n).hand = none ∧ idle.items n = [] ∧ (u.flag (F.CH_SEQCTL_STOP n) = false ∨ u.podsEmpty n = false)) ∧
  (let n : Chan := 0; let f : Fetch := .ok; let rd : BitVec 4 := 1; let s : State := (kz (.pop n f)).setFld (F.CH_SEQCTL_STOP 0) 1; let u := s.fetched n f; let idle := u.modSeq n fun q => { q with sel := none, burst := none }; s.runsKz n f (.pop n f) ∧ (u.seq n).hand = none ∧ idle.items n = [] ∧ u.flag (F.CH_SEQCTL_STOP n) = true ∧ u.podsEmpty n = true) ∧
  (let n : Chan := 0; let f : Fetch := .ok; let rd : BitVec 4 := 1; let p : Pod := { pod0 with fresh := true, desc := [0x82, 1, 2, 3, 4, 5, 6, 7] }; let s : State := (withDie { Die.empty with active := some p } (kz (.pop n f))).setFld (F.CH_ENTRY_VALID 0 2) 1; let it : Item := (((s.fetched n f).modSeq n fun q => { q with sel := none, burst := none }).items n).headD ⟨0, false, 0, 0⟩; let u := s.fetched n f; let idle := u.modSeq n fun q => { q with sel := none, burst := none }; s.runsKz n f (.pop n f) ∧ (u.seq n).hand = none ∧ idle.items n = [it] ∧ (if it.susp then (u.die (n.val * 16 + it.rank)).susp else (u.die (n.val * 16 + it.rank)).active) = some p ∧ (¬(it.kind = 0 ∧ u.flag (F.CH_ENTRY_VALID n p.opc) = false))) ∧
  (let n : Chan := 0; let f : Fetch := .ok; let rd : BitVec 4 := 1; let rs : BitVec 4 := 2; let imm : BitVec 18 := 0; let h : Hand := ⟨0, false⟩; let p : Pod := pod0; let s : State := kzPod (.postDone n f rd rs imm) p fun q => q.setReg 1 5; let u := s.fetched n f; let status := ((u.seq n).reg rd.toNat).toNat; s.runsKz n f (.postDone n f rd rs imm) ∧ (u.seq n).hand = some h ∧ u.handPod n = some p ∧ codeAllowed p.opc (status % 256) = true ∧ imm.toNat / 2 ^ 12 % 4 = 0) ∧
  (let n : Chan := 0; let f : Fetch := .ok; let rd : BitVec 4 := 1; let rs : BitVec 4 := 2; let imm : BitVec 18 := 0; let h : Hand := ⟨0, false⟩; let p : Pod := pod0; let s : State := kzPod (.postDone n f rd rs imm) p fun q => q.setReg 1 0x80; let u := s.fetched n f; let status := ((u.seq n).reg rd.toNat).toNat; s.runsKz n f (.postDone n f rd rs imm) ∧ (u.seq n).hand = some h ∧ u.handPod n = some p ∧ codeAllowed p.opc (status % 256) = false ∧ imm.toNat / 2 ^ 12 % 4 = 0) ∧
  (let n : Chan := 0; let f : Fetch := .ok; let rd : BitVec 4 := 1; let d : Nat := 2047; n.val * 16 + d < 2048) ∧
  (let n : Chan := 0; let f : Fetch := .ok; let rd : BitVec 4 := 1; let rs : BitVec 4 := 2; let h : Hand := ⟨0, false⟩; let p : Pod := pod0; let imm : BitVec 18 := 0x1FFF; let s : State := kzPod (.postPark n f rd rs imm) p; let c : Nat := ((s.fetched n f).toCycles n 0 0).getD 0; let u := s.fetched n f; s.runsKz n f (.postPark n f rd rs imm) ∧ (u.seq n).hand = some h ∧ u.handPod n = some p ∧ imm.toNat / 2 ^ 12 % 4 = 1 ∧ u.toCycles n ((u.seq n).reg rs.toNat).toNat (imm.toNat / 2 ^ 14 % 4) = some c) ∧
  (let n : Chan := 0; let f : Fetch := .ok; let rd : BitVec 4 := 1; let rs : BitVec 4 := 2; let h : Hand := ⟨0, false⟩; let p : Pod := { pod0 with suspReq := true }; let imm : BitVec 18 := 0x2FFF; let s : State := kzPod (.postSusp n f rd rs imm) p; let u := s.fetched n f; s.runsKz n f (.postSusp n f rd rs imm) ∧ (u.seq n).hand = some h ∧ u.handPod n = some p ∧ imm.toNat / 2 ^ 12 % 4 = 2 ∧ p.suspReq = true ∧ h.susp = false ∧ bit (p.desc.getD 0 0).toNat 7 = true) ∧
  (let n : Chan := 0; let f : Fetch := .ok; let rd : BitVec 4 := 1; let rs : BitVec 4 := 2; let imm : BitVec 18 := 0; let s : State := kz (.postDone n f rd rs imm); let u := s.fetched n f; (u.seq n).hand = none ∧ s.runsKz n f (.postDone n f rd rs imm) ∧ imm.toNat / 2 ^ 12 % 4 = 0) ∧
  (let n : Chan := 0; let f : Fetch := .ok; let rd : BitVec 4 := 1; let rs : BitVec 4 := 2; let imm : BitVec 18 := 0x1FFF; let s : State := kz (.postPark n f rd rs imm); let u := s.fetched n f; (u.seq n).hand = none ∧ s.runsKz n f (.postPark n f rd rs imm) ∧ imm.toNat / 2 ^ 12 % 4 = 1) ∧
  (let n : Chan := 0; let f : Fetch := .ok; let rd : BitVec 4 := 1; let rs : BitVec 4 := 2; let imm : BitVec 18 := 0x2FFF; let s : State := kz (.postSusp n f rd rs imm); let u := s.fetched n f; (u.seq n).hand = none ∧ s.runsKz n f (.postSusp n f rd rs imm) ∧ imm.toNat / 2 ^ 12 % 4 = 2) := by
  refine ⟨?c1, ?c2, ?c3, ?c4, ?c5, ?c6, ?c7, ?c8, ?c9, ?c10, ?c11, ?c12⟩
  all_goals decide +kernel

theorem witness_sequencer_control :
  (let n : Chan := 15; let s : State := State.reset; s.fld (F.CH_SEQSTAT_STATE n) = 0 ∧ s.gated 2 = false) ∧
  (let n : Chan := 15; let s : State := State.reset; s.fld (F.CH_SEQSTAT_STATE n) ≠ 2) ∧
  (let n : Chan := 15; let s : State := State.reset.setFld (F.CH_SEQSTAT_STATE 15) 2; s.fld (F.CH_SEQSTAT_STATE n) = 2 ∧ s.items n = [] ∧ s.podsEmpty n = true) ∧
  (let n : Chan := 15; let s : State := State.reset; s.timer n = 0) ∧
  (let d : DieId := 0; let p : Pod := { pod0 with parked := true, due := some 0 }; let due : Nat := 0; let s : State := die0 { Die.empty with active := some p }; (s.die d.val).active = some p ∧ p.due = some due ∧ p.parked = true ∧ due ≤ s.chNow (d.val / 16)) ∧
  (let n : Chan := 15; let s : State := { State.reset.setFld (F.CH_SEQSTAT_STATE 15) 3 with now := 100000000 }; s.fld (F.CH_SEQSTAT_STATE n) = 3 ∧ (s.seq n).faultAt + 100000000 ≤ s.now) ∧
  (let n : Chan := 15; let s : State := State.reset; s.flag F.ZNE_GEOM_LOCK = false ∧ s.flag (F.CH_DCTL_BUSY n) = false ∧ (s.die (n.val * 16 + bits (s.fld (F.CH_DDESC_WORD n 0)) 8 4)).active = none ∧ (∀ t, hottest s.temps = some t → t ≤ s16 (s.lpe.tgt.getD (s.fld (F.LPE_SP_TARGET 144))))) := by
  refine ⟨?c1, ?c2, ?c3, ?c4, ?c5, ?c6, ?c7⟩
  all_goals decide +kernel

theorem witness_resets_and_starting_up :
  (let k : Nat := 2; let t0 : Nat := 0; let d : Nat := 0; let s : State := { State.reset with power := { State.reset.power with loss := some ⟨.reset 2, 0, 0⟩, heldReset := true } }; s.power.loss = some ⟨.reset k, t0, d⟩ ∧ s.power.heldReset = true) ∧
  (let b := false; let t : Nat := 0; let s : State := bootS 300000000000 fun b => { b with wdSince := some 0 }; s.boot.wdSince = some t ∧ t + s.fld F.SEC_BOOTWD_TIMEOUT * 1000000000 ≤ s.now) ∧
  (let b := false; let t : Nat := 0; let s : State := bootS 1 fun b => { b with recAt := some 0 }; s.boot.recAt = some t ∧ t ≤ s.now ∧ s.flag F.SEC_BOOTSTAT_BOOTSEL = false) ∧
  (let t : Nat := 0; let s : State := { (State.reset.hf fun h => { h with formAt := some 0 }) with now := 1 }; s.hif.formAt = some t ∧ t ≤ s.now) ∧
  (let g : BitVec 7 := 0; let s : State := State.reset; g.toNat ≤ 64 ∧ s.flag F.SEC_OTPCMD_BUSY = false) ∧
  (let g : BitVec 7 := 0; let s : State := State.reset.setFld F.SEC_OTPCMD_BUSY 1; g.toNat ≤ 64 ∧ s.flag F.SEC_OTPCMD_BUSY = true) ∧
  (let g : BitVec 7 := 65; 64 < g.toNat) ∧
  (let b := false; let r : OtpRun := ⟨0, 0, 0⟩; let s : State := bootS 0 fun b => { b with otpRun := some ⟨0, 0, 0⟩ }; s.boot.otpRun = some r) ∧
  (let x : StartIn := ⟨[], [], [], none, 0, 0, 0, 0, []⟩; let s : State := State.reset; let u := s.startBase x; let slot := u.fld F.SEC_BOOTSTAT_SLOT; s.recovery = false ∧ s.boot.started = false ∧ s.power.loss = none ∧ u.bundleEntry slot 0 = none) ∧
  (let x : HuskIn := ⟨[], [], [], [], [], []⟩; let s : State := huskS true; let u := s.failHdrs x.hdr; s.zne.husk.replayed = false ∧ u.replayable x.bad = true) ∧
  (let x : HuskIn := ⟨[], [], [], [], [], []⟩; let s : State := huskS false; let u := s.failHdrs x.hdr; s.zne.husk.replayed = false ∧ u.replayable x.bad = false) ∧
  (let x : HuskIn := ⟨[], [(0, 0)], [], [], [], []⟩; let y := (0, 0); let s : State := huskS true; s.zne.husk.replayed = false ∧ y ∈ x.bad) ∧
  (let s : State := mz State.reset fun z => { z with husk := { z.husk with replayed := true } }; s.zne.husk.replayed = true) := by
  refine ⟨?c1, ?c2, ?c3, ?c4, ?c5, ?c6, ?c7, ?c8, ?c9, ?c10, ?c11, ?c12, ?c13⟩
  case c9 => exact ⟨by decide +kernel, by decide +kernel, by decide +kernel, bundleEntry_of_empty _ _ 0 ((mem_of_fixed (State.startBase_fixed _ _)).trans rfl)⟩
  all_goals decide +kernel

theorem witness_doorbells_and_arbitration :
  (let fn : FnId := 0; let qid : Fin 65 := 0; let v : BitVec 16 := 5; let s : State := adm; let q : Sq := ⟨0, 64, .medium, false, 0, 0, 0⟩; (s.func fn.val).ctl = .ready ∧ Tab.find (s.func fn.val).sqs qid.val = some q ∧ v.toNat < q.size) ∧
  (let fn : FnId := 0; let qid : Fin 65 := 0; let v : BitVec 16 := 5; let s : State := adm; let q : Cq := ⟨64, 0, 0, 0, 0⟩; (s.func fn.val).ctl = .ready ∧ Tab.find (s.func fn.val).cqs qid.val = some q ∧ v.toNat < q.size) ∧
  (let fn : FnId := 0; let s : State := adm; let qid : Fin 65 := 1; (s.func fn.val).ctl = .ready ∧ Tab.find (s.func fn.val).sqs qid.val = none) ∧
  (let fn : FnId := 0; let s : State := adm; let qid : Fin 65 := 1; (s.func fn.val).ctl = .ready ∧ Tab.find (s.func fn.val).cqs qid.val = none) ∧
  (let fn : FnId := 0; let qid : Fin 65 := 0; let s : State := adm; let v : BitVec 16 := 64; let q : Sq := ⟨0, 64, .medium, false, 0, 0, 0⟩; (s.func fn.val).ctl = .ready ∧ Tab.find (s.func fn.val).sqs qid.val = some q ∧ q.size ≤ v.toNat) ∧
  (let fn : FnId := 0; let qid : Fin 65 := 0; let s : State := adm; let v : BitVec 16 := 64; let q : Cq := ⟨64, 0, 0, 0, 0⟩; (s.func fn.val).ctl = .ready ∧ Tab.find (s.func fn.val).cqs qid.val = some q ∧ q.size ≤ v.toNat) ∧
  (let fn : FnId := 0; let cq : Fin 65 := 1; let q : Cq := ⟨64, 0, 0, 0, 1⟩; let s : State := admQ [] [(1, ⟨64, 0, 0, 0, 1⟩)]; Tab.find (s.func fn.val).cqs cq.val = some q ∧ q.pendingInt ≠ 0) ∧
  (let p : Port := 0; let f : Nat := 0; let q : Nat := 1; let s : State := (admF fun f => { f with sqs := [(1, sq1 .urgent)], ams := 1 }).setFld (F.HIF_TCRED_URGEN 0) 1; s.noFetch = false ∧ s.portTested p.val = false ∧ (∀ e, e ∈ s.hif.peeks → e.1 / 128 ≠ p.val) ∧ nextAfter (s.port p.val).lastUrg (s.serving p.val true) = some f ∧ nextAfter (s.func (p.val * 128 + f)).lastq (s.ioQueues (p.val * 128 + f) true) = some q) ∧
  (let p : Port := 0; let s : State := admQ [(1, sq1 .medium)] []; let q : Nat := 1; let y : Func := s.func 0; s.noFetch = false ∧ s.portTested p.val = false ∧ (∀ e, e ∈ s.hif.peeks → e.1 / 128 ≠ p.val) ∧ nextAfter (s.port p.val).lastUrg (s.serving p.val true) = none ∧ (s.port p.val).rr ∈ s.serving p.val false ∧ (s.port p.val).burst < s.fld (F.HIF_ARBCFG_FNBURST p.val) ∧ s.pickQueue (p.val * 128 + (s.port p.val).rr) = some (q, y)) ∧
  (let fn : FnId := 0; let pair : Option Sqe := none; let qid : Fin 65 := 1; let e : Sqe := ent 0x55 0 0; let st : Status := .invalidOpcode; let s : State := (admQ [(1, sq1 .medium)] []).hf fun h => { h with peeks := [(0, 1)] }; let u : State := { s with hif := { s.hif with peeks := s.hif.peeks.filter (· != (fn.val, qid.val)) } }; s.hif.peeks.contains (fn.val, qid.val) = true ∧ u.noFetch = false ∧ u.peekable fn.val qid.val = true ∧ u.portTested (fn.val / 128) = false ∧ fuseError e pair = none ∧ u.decodeError fn.val e = some st ∧ e.fuse.toNat ≠ 1 ∧ u.creditsOk fn.val qid.val e none = true) ∧
  (let fn : FnId := 0; let pair : Option Sqe := none; let qid : Fin 65 := 1; let e : Sqe := ent 0x55 0 0; let st : Status := .invalidOpcode; let s : State := (admQ [(1, { sq1 .medium with ordered := true, live := 1 })] []).hf fun h => { h with peeks := [(0, 1)] }; let u : State := { s with hif := { s.hif with peeks := s.hif.peeks.filter (· != (fn.val, qid.val)) } }; s.hif.peeks.contains (fn.val, qid.val) = true ∧ u.noFetch = false ∧ u.peekable fn.val qid.val = true ∧ u.portTested (fn.val / 128) = false ∧ fuseError e pair = none ∧ u.decodeError fn.val e = some st ∧ e.fuse.toNat ≠ 1 ∧ u.creditsOk fn.val qid.val e none = false) ∧
  (let fn : FnId := 0; let qid : Fin 65 := 1; let e : Sqe := ent 0 0 0; let s : State := (admQ [(1, sq1 .medium)] []).hf fun h => { h with peeks := [(0, 1)] }; let u : State := { s with hif := { s.hif with peeks := s.hif.peeks.filter (· != (fn.val, qid.val)) } }; s.hif.peeks.contains (fn.val, qid.val) = true ∧ u.noFetch = false ∧ u.peekable fn.val qid.val = true ∧ u.portTested (fn.val / 128) = false ∧ fuseError e none = none ∧ u.decodeError fn.val e = none ∧ e.opc.toNat = 0x00 ∧ e.fuse.toNat ≠ 1 ∧ u.creditsOk fn.val qid.val e none = true) ∧
  (let fn : FnId := 0; let qid : Fin 65 := 1; let t : Nat := 0; let s : State := { (adm.hf fun h => { h with held := [(queueKey 0 1, 0)] }) with now := 1000000000000 }; Tab.find s.hif.held (queueKey fn.val qid.val) = some t ∧ t + s.fld (F.HIF_ARBCFG_WBSTARVE (fn.val / 128)) * 1000 ≤ s.now ∧ Tab.find s.hif.starved (s.fnTen fn.val) = none) := by
  refine ⟨?c1, ?c2, ?c3, ?c4, ?c5, ?c6, ?c7, ?c8, ?c9, ?c10, ?c11, ?c12, ?c13⟩
  all_goals decide +kernel

theorem witness_write_data_path :
  (let i : Fin 65536 := 0; let k : Fin 65536 := 0; let d : Blk := 0; let b : Nat := 0; let y : Buf := { buf0 with st := .reserved }; let x : Slot := { zslot 1 with bufs := [(0, 0)], started := true }; let s : State := keyed (zn .iopen 0) x; let c : Blk := xtsEnc ((s.mediaKey 1 0 0).1.getD 0) 0 d; s.slot i.val = some x ∧ Tab.find x.bufs k.val = some b ∧ Tab.find s.zne.bufs b = some y ∧ y.st = .reserved ∧ (s.encryptBlk y.ns y.gen x.ten (x.slba + k.val) d).1 = some c) ∧
  (let b : Fin 524288 := 0; let y : Buf := buf0; let z : Nat := 0; let o : Nat := 0; let x : Slot := zslot 1; let s : State := ((mz (media (zn .iopen 0) (zslot 1)) fun z => { z with bufs := [(0, buf0)] }).setFld (F.ISL_CLKSTAT_SRCACT 0x0A) 1).setFld (F.ISL_CLKSTAT_SRCACT 0x0B) 1; Tab.find s.zne.bufs b.val = some y ∧ y.st = .written ∧ s.portDown 0x0A = false ∧ s.portDown 0x0B = false ∧ y.own = .zone z o ∧ s.slot y.slot = some x) ∧
  (let m : Fin 18 := 17; let r : Fin 6400 := 0; let k : Nat := 3; let t : Stripe := stripe0; let s : State := strS t; s.zne.stripes.find? (fun e => e.2.record = some r.val) = some (k, t) ∧ t.st = .filling ∧ bit t.acked m.val = false ∧ setBit t.acked m.val ≠ 0x3FFFF) ∧
  (let h := 0; let m : Fin 18 := 17; let r : Fin 6400 := 0; let k : Nat := 3; let t : Stripe := { stripe0 with acked := 0x1FFFF }; let s : State := strS t; s.zne.stripes.find? (fun e => e.2.record = some r.val) = some (k, t) ∧ t.st = .filling ∧ bit t.acked m.val = false ∧ setBit t.acked m.val = 0x3FFFF) ∧
  (let k : Nat := 3; let t : Stripe := { stripe0 with st := .committed }; let s : State := strS t; let os := s.stripePrograms k t t.background (s.stripeTen t); minBy (fun e => e.2.order) (Tab.keep s.zne.stripes fun _ t => t.st = .committed && !t.withdrawn && !s.stripeHeld t) = some (k, t) ∧ s.powerAdmits os = true ∧ s.bgAdmits os = true) ∧
  (let k : Nat := 3; let t : Stripe := { stripe0 with st := .committed }; let s : State := (strS t).setFld F.ZNE_PWRBUD_FLASHBUD 0; let os := s.stripePrograms k t t.background (s.stripeTen t); minBy (fun e => e.2.order) (Tab.keep s.zne.stripes fun _ t => t.st = .committed && !t.withdrawn && !s.stripeHeld t) = some (k, t) ∧ (s.powerAdmits os = false ∨ s.bgAdmits os = false)) ∧
  (let r : Fin 6400 := 0; let k : Nat := 3; let t : Stripe := { stripe0 with closing := true }; let s : State := strS t; s.zne.stripes.find? (fun e => e.2.record = some r.val) = some (k, t) ∧ t.closing = true) ∧
  (let i : Fin 65536 := 0; let x : Slot := { cslot 1 with started := true }; let s : State := media (zn .iopen 0) x; s.slot i.val = some x ∧ x.started = true ∧ x.opc = 0x01 ∧ s.isConv x.ns = true) := by
  refine ⟨?c1, ?c2, ?c3, ?c4, ?c5, ?c6, ?c7, ?c8⟩
  case c1 => exact ⟨by decide +kernel, by decide +kernel, by decide +kernel, by decide +kernel, by rfl⟩
  all_goals decide +kernel

theorem witness_operations_of_dies :
  (let d : DieId := 0; let o : DieOp := { op0 with cls := 3, granted := true }; let s : State := dieAt 1000000000 { Die.empty with queue := [o], readSince := some 0 }; (s.die d.val).active = none ∧ s.resumeDue d.val = false ∧ s.power.loss = none ∧ s.mayPost d.val = true ∧ s.heldProgram (s.die d.val) = some o) ∧
  (let d : DieId := 0; let o : DieOp := { op0 with cls := 1, kind := .read, granted := true }; let s : State := dieAt 0 { Die.empty with queue := [o] }; (s.die d.val).active = none ∧ s.resumeDue d.val = false ∧ s.power.loss = none ∧ s.mayPost d.val = true ∧ s.heldProgram (s.die d.val) = none ∧ s.burstRead (s.die d.val) = none ∧ s.firstAdmitted (s.die d.val) [1, 2, 3, 4, 5] = some o) ∧
  (let d : DieId := 0; let x : Done := ⟨0, op0, 0, 0, 0⟩; let s : State := mz State.reset fun z => { z with dones := [x] }; s.zne.dones.find? (fun x => x.die == d.val) = some x) ∧
  (let d : DieId := 0; let p : Pod := pod0; let s : State := dieAt 1000000000 { Die.empty with susp := some p }; (s.die d.val).susp = some p ∧ s.fld F.ZNE_PODCFG_SUSPHOLD * 1000 ≤ s.now - (s.die d.val).heldSince) ∧
  (let d : DieId := 0; let o : DieOp := { op0 with cls := 1, kind := .read }; let os : List DieOp := []; let s : State := (dieAt 1000000000 { Die.empty with queue := [o], active := some { pod0 with op := { op0 with suspends := 1, start := 1 } } }).setFld (F.ZNE_TGOV_SUSPLVL 0) 3; s.leftQueued d.val = o :: os ∧ s.canSuspend d.val o.ten = true) ∧
  (let d : DieId := 0; let s : State := { State.reset.setFld (F.ZNE_DHS_STATE 0) 1 with now := 10000000000000 }; s.health d.val = 1 ∧ s.fld F.ZNE_HEALTHCFG_SUSPECTDUR * 1000000000 ≤ s.now - (s.die d.val).suspectSince) ∧
  (let d : DieId := 0; let s : State := oneDie; s.populated d.val = true ∧ s.health d.val < 2) ∧
  (let d : DieId := 0; let s : State := oneDie.setFld (F.ZNE_DHS_STATE 0) 2; s.populated d.val = true ∧ s.health d.val < 3) ∧
  (let d : DieId := 255; let s : State := oneDie; (s.populated d.val = false ∨ 2 ≤ s.health d.val)) ∧
  (let d : DieId := 0; let s : State := oneDie.setFld (F.ZNE_DHS_STATE 0) 3; (s.populated d.val = false ∨ 3 ≤ s.health d.val)) ∧
  (let d : DieId := 0; let p : Pod := pod0; let s : State := dieAt 10000000000 { Die.empty with active := some p }; (s.die d.val).active = some p ∧ p.op.isDirect = false ∧ p.suspReq = false ∧ p.op.late = false ∧ s.opWatch p.op ≤ s.podTime p ∧ p.op.kind ≠ .read) ∧
  (let d : DieId := 0; let p : Pod := { pod0 with op := { op0 with kind := .read } }; let s : State := dieAt 10000000000 { Die.empty with active := some p }; (s.die d.val).active = some p ∧ p.op.isDirect = false ∧ p.suspReq = false ∧ p.op.late = false ∧ s.opWatch p.op ≤ s.podTime p ∧ p.op.kind = .read) ∧
  (let d : DieId := 0; let p : Pod := { pod0 with suspReq := true }; let s : State := dieAt 10000000000 { Die.empty with active := some p }; (s.die d.val).active = some p ∧ p.op.isDirect = false ∧ p.suspReq = true ∧ p.suspLate = false ∧ s.watchNs (s.suspNs p.op) ≤ s.now - p.suspAt) ∧
  (let d : DieId := 0; let p : Pod := { pod0 with op := { op0 with late := true } }; let s : State := dieAt 0 { Die.empty with active := some p }; (s.die d.val).active = some p ∧ p.op.isDirect = false ∧ p.suspReq = false ∧ p.op.late = true) ∧
  (let d : DieId := 0; let p : Pod := pod0; let s : State := dieAt 100000000000 { Die.empty with active := some p }; (s.die d.val).active = some p ∧ p.abort = false ∧ p.op.isDirect = false ∧ s.opHard p.op ≤ s.podTime p) ∧
  (let d : DieId := 0; let p : Pod := pod0; let s : State := dieAt 999999 { Die.empty with active := some p }; (s.die d.val).active = some p ∧ p.abort = false ∧ p.op.isDirect = false ∧ s.podTime p < s.opHard p.op ∧ p.suspReq = false) ∧
  (let d : DieId := 0; let p : Pod := { pod0 with abort := true }; let s : State := dieAt 10000000 { Die.empty with active := some p }; (s.die d.val).active = some p ∧ p.abort = true ∧ p.op.counted = false ∧ 10000000 ≤ s.now - p.abortAt) ∧
  (let d : DieId := 0; let p : Pod := { pod0 with op := { op0 with counted := true } }; let s : State := dieAt 0 { Die.empty with active := some p }; (s.die d.val).active = some p ∧ p.op.counted = true) := by
  refine ⟨?c1, ?c2, ?c3, ?c4, ?c5, ?c6, ?c7, ?c8, ?c9, ?c10, ?c11, ?c12, ?c13, ?c14, ?c15, ?c16, ?c17, ?c18⟩
  all_goals decide +kernel

theorem witness_flush_completes :
  (let i : Fin 65536 := 0; let x : Slot := slotOf (ent 0 0 0); let s : State := io x; s.startable i.val 0x00 = some x) := by decide +kernel

theorem witness_writes_and_appends :
  (let i : Fin 65536 := 0; let z : Nat := 0; let x : Slot := zslot 1; let s : State := media (zn .readOnly 0) x; let st : Status := .zoneIsReadOnly; s.isConv x.ns = false ∧ x.zmi = some z ∧ s.zoneBusy i.val z x.order = false ∧ s.serves i.val 0x01 x ∧ s.writeCheck z x.nlb x.slba false = some st) ∧
  (let i : Fin 65536 := 0; let z : Nat := 0; let x : Slot := zslot 0x7D; let s : State := media (zn .iopen 65536) x; let st : Status := .zoneBoundary; s.isConv x.ns = false ∧ x.zmi = some z ∧ s.zoneBusy i.val z x.order = false ∧ s.serves i.val 0x7D x ∧ s.writeCheck z x.nlb x.slba true = some st) ∧
  (let i : Fin 65536 := 0; let z : Nat := 0; let x : Slot := zslot 0x08; let s : State := (media (zn .iopen 5) x).setFld F.ZNE_DIRTYCFG_EFF 1; let st : Status := .zoneInvalidWrite; s.isConv x.ns = false ∧ x.zmi = some z ∧ s.zoneBusy i.val z x.order = false ∧ s.serves i.val 0x08 x ∧ x.nlb + s.fld F.ZNE_DIRTY_CUR ≤ s.effBufs ∧ s.writeCheck z x.nlb x.slba false = some st) ∧
  (let i : Fin 65536 := 0; let z : Nat := 0; let v : Option Nat := none; let x : Slot := { zslot 1 with slba := 65535 }; let s : State := media (zn .iopen 65535) x; s.isConv x.ns = false ∧ x.zmi = some z ∧ s.zoneBusy i.val z x.order = false ∧ s.writeQuota z = (none, v) ∧ ((s.openForWrite z v).zone z).zs ≠ .full ∧ s.serves i.val 0x01 x ∧ s.writeCheck z x.nlb x.slba false = none) ∧
  (let i : Fin 65536 := 0; let z : Nat := 0; let v : Option Nat := none; let x : Slot := zslot 0x7D; let s : State := media (zn .iopen 65535) x; s.isConv x.ns = false ∧ x.zmi = some z ∧ s.zoneBusy i.val z x.order = false ∧ s.writeQuota z = (none, v) ∧ ((s.openForWrite z v).zone z).zs ≠ .full ∧ s.serves i.val 0x7D x ∧ s.writeCheck z x.nlb x.slba true = none) ∧
  (let i : Fin 65536 := 0; let z : Nat := 0; let v : Option Nat := none; let x : Slot := zslot 1; let s : State := media (zn .iopen 0) x; s.isConv x.ns = false ∧ x.zmi = some z ∧ s.zoneBusy i.val z x.order = false ∧ s.writeQuota z = (none, v) ∧ ((s.openForWrite z v).zone z).zs ≠ .full ∧ ((s.openForWrite z v).zone z).wp + x.nlb < (s.openForWrite z v).zLba ∧ s.serves i.val 0x01 x ∧ s.writeCheck z x.nlb x.slba false = none) ∧
  (let i : Fin 65536 := 0; let z : Nat := 0; let v : Option Nat := none; let x : Slot := zslot 0x7D; let s : State := media (zn .iopen 0) x; s.isConv x.ns = false ∧ x.zmi = some z ∧ s.zoneBusy i.val z x.order = false ∧ s.writeQuota z = (none, v) ∧ ((s.openForWrite z v).zone z).zs ≠ .full ∧ ((s.openForWrite z v).zone z).wp + x.nlb < (s.openForWrite z v).zLba ∧ s.serves i.val 0x7D x ∧ s.writeCheck z x.nlb x.slba true = none) ∧
  (let i : Fin 65536 := 0; let z : Nat := 0; let v : Option Nat := none; let x : Slot := zslot 0x08; let s : State := (media (zn .iopen 0) x).setFld F.ZNE_DIRTYCFG_EFF 1; s.isConv x.ns = false ∧ x.zmi = some z ∧ s.zoneBusy i.val z x.order = false ∧ s.writeQuota z = (none, v) ∧ ((s.openForWrite z v).zone z).zs ≠ .full ∧ x.nlb + s.fld F.ZNE_DIRTY_CUR ≤ s.effBufs ∧ s.serves i.val 0x08 x ∧ s.writeCheck z x.nlb x.slba false = none) ∧
  (let z : Nat := 0; let s : State := media (zn .iopen 0) (zslot 1); (s.rset (s.zone z).set).readOnly = false ∧ (s.zone z).zs ≠ .offline ∧ (s.zone z).zs ≠ .readOnly ∧ (s.zone z).zs ≠ .full ∧ (s.zone z).active = true) ∧
  (let i : Fin 65536 := 0; let z : Nat := 0; let x : Slot := cslot 1; let s : State := mz (media (zn .iopen 0) x) fun z => { z with sets := [(0, { RankSet.empty with readOnly := true })] }; let c : ConvNs := (s.cns 2).getD ⟨0, 0, 0, 0, false, 0, 0, 0, 0, []⟩; s.serves i.val 0x01 x ∧ s.isConv x.ns = true ∧ s.cns x.ns = some c ∧ (s.rset c.set).readOnly = true) ∧
  (let i : Fin 65536 := 0; let x : Slot := { cslot 1 with sqe := { ent 1 1 0 with cdw12 := 0x00200000, cdw13 := 0x00010000 } }; let s : State := media (zn .iopen 0) x; let c : ConvNs := (s.cns 2).getD ⟨0, 0, 0, 0, false, 0, 0, 0, 0, []⟩; s.serves i.val 0x01 x ∧ s.isConv x.ns = true ∧ s.cns x.ns = some c ∧ (s.rset c.set).readOnly = false ∧ s.convRefuses x.ns = false ∧ c.nruh ≤ s.handleOf x.ns x.sqe) ∧
  (let i : Fin 65536 := 0; let z : Nat := 0; let x : Slot := cslot 1; let s : State := mz (media (zn .iopen 0) x) fun z => { z with conv := [(2, ⟨2048, 256, 256, 256, true, 0, 0, 1, 0, []⟩)] }; let c : ConvNs := (s.cns 2).getD ⟨0, 0, 0, 0, false, 0, 0, 0, 0, []⟩; let fresh : Nat := 1; s.serves i.val 0x01 x ∧ s.isConv x.ns = true ∧ s.cns x.ns = some c ∧ fresh = ((List.range x.nlb).filter fun k => (s.mapAt x.ns (x.slba + k)).isNone).length ∧ (s.rset c.set).readOnly = false ∧ s.convRefuses x.ns = false ∧ s.handleOf x.ns x.sqe < c.nruh ∧ c.ncap < c.nuse + fresh) ∧
  (let i : Fin 65536 := 0; let x : Slot := cslot 1; let s : State := media (zn .iopen 0) x; let c : ConvNs := (s.cns 2).getD ⟨0, 0, 0, 0, false, 0, 0, 0, 0, []⟩; let fresh : Nat := 1; s.serves i.val 0x01 x ∧ s.isConv x.ns = true ∧ s.cns x.ns = some c ∧ fresh = ((List.range x.nlb).filter fun k => (s.mapAt x.ns (x.slba + k)).isNone).length ∧ (s.rset c.set).readOnly = false ∧ s.convRefuses x.ns = false ∧ s.handleOf x.ns x.sqe < c.nruh ∧ c.nuse + fresh ≤ c.ncap) ∧
  (let i : Fin 65536 := 0; let x : Slot := cslot 8; let s : State := media (zn .iopen 0) x; s.serves i.val 0x08 x ∧ s.isConv x.ns = true) ∧
  (let i : Fin 65536 := 0; let x : Slot := { cslot 0x09 with sqe := { ent 0x09 0 4 with data := leBytes 4 0 ++ leBytes 4 256 ++ leBytes 8 0 } }; let s : State := media (zn .iopen 0) x; let n : Ns := (s.nsAt 2).getD ⟨0, false, 0, 0, 0, 0, 0, 0, 0, [], 0⟩; s.serves i.val 0x09 x ∧ s.nsAt x.ns = some n ∧ (∀ r, r ∈ x.ranges → r.1 + r.2 ≤ n.nsze)) ∧
  (let i : Fin 65536 := 0; let x : Slot := { cslot 0x09 with sqe := { ent 0x09 0 4 with data := leBytes 4 0 ++ leBytes 4 256 ++ leBytes 8 1 } }; let s : State := media (zn .iopen 0) x; let n : Ns := (s.nsAt 2).getD ⟨0, false, 0, 0, 0, 0, 0, 0, 0, [], 0⟩; s.serves i.val 0x09 x ∧ s.nsAt x.ns = some n ∧ (∃ r, r ∈ x.ranges ∧ n.nsze < r.1 + r.2)) ∧
  (let z : Nat := 0; let v : Option Nat := none; let c : CopyIn := ⟨0, []⟩; let x : Slot := { zslot 0x19 with sqe := { ent 0x19 0 0 with data := leBytes 8 0 ++ leBytes 8 0 ++ leBytes 16 0 } }; let s : State := media (zn .iopen 0) x; let n : Ns := (s.nsAt 1).getD ⟨0, false, 0, 0, 0, 0, 0, 0, 0, [], 0⟩; s.serves c.slot.val 0x19 x ∧ x.zmi = some z ∧ s.nsAt x.ns = some n ∧ s.zoneBusy c.slot.val z x.order = false ∧ bits x.sqe.cdw12.toNat 8 4 = 0 ∧ x.sqe.ranges.length ≤ 128 ∧ x.sqe.copyLen ≤ 131072 ∧ (∀ r, r ∈ x.sqe.ranges → r.2 ≤ 131072 ∧ r.1 + r.2 ≤ n.nsze) ∧ s.writeCheck z x.sqe.copyLen x.slba false = none ∧ s.writeQuota z = (none, v) ∧ ((s.openForWrite z v).zone z).zs ≠ .full) := by
  refine ⟨?c1, ?c2, ?c3, ?c4, ?c5, ?c6, ?c7, ?c8, ?c9, ?c10, ?c11, ?c12, ?c13, ?c14, ?c15, ?c16, ?c17⟩
  all_goals decide +kernel

theorem witness_reads_and_reports :
  (let i : Fin 65536 := 0; let x : Slot := { zslot 0x02 with order := 1 }; let s : State := slots (zn .iopen 1) [(0, x), (1, zslot 1)]; x.err = none ∧ s.readHeld i.val x = true ∧ s.startable i.val 0x02 = some x) ∧
  (let i : Fin 65536 := 0; let x : Slot := { zslot 0x05 with order := 1 }; let s : State := slots (zn .iopen 1) [(0, x), (1, zslot 1)]; x.err = none ∧ s.readHeld i.val x = true ∧ s.startable i.val 0x05 = some x ∧ x.fused = none) ∧
  (let i : Fin 65536 := 0; let x : Slot := { zslot 0x0C with order := 1 }; let s : State := slots (zn .iopen 1) [(0, x), (1, zslot 1)]; x.err = none ∧ s.readHeld i.val x = true ∧ s.startable i.val 0x0C = some x) ∧
  (let i : Fin 65536 := 0; let bad : List Nat := []; let x : Slot := zslot 0x02; let s : State := media (zn .iopen 1) x; x.err = none ∧ s.readHeld i.val x = false ∧ s.isConv x.ns = false ∧ s.startable i.val 0x02 = some x) ∧
  (let i : Fin 65536 := 0; let bad : List Nat := []; let x : Slot := zslot 0x05; let s : State := media (zn .iopen 1) x; x.err = none ∧ s.readHeld i.val x = false ∧ s.isConv x.ns = false ∧ s.startable i.val 0x05 = some x ∧ x.fused = none) ∧
  (let i : Fin 65536 := 0; let bad : List Nat := []; let x : Slot := zslot 0x0C; let s : State := media (zn .iopen 1) x; x.err = none ∧ s.readHeld i.val x = false ∧ s.isConv x.ns = false ∧ s.startable i.val 0x0C = some x) ∧
  (let i : Fin 65536 := 0; let x : Slot := { cslot 0x05 with fused := some (ent 1 1 0), sqe := ent 5 1 0 }; let w : Sqe := ent 1 1 0; let s : State := media (zn .iopen 0) x; s.startable i.val 0x05 = some x ∧ x.fused = some w ∧ s.isConv x.ns = true ∧ x.nlb ≤ 16 ∧ w.slba = x.sqe.slba ∧ w.nlb = x.nlb) ∧
  (let i : Fin 65536 := 0; let x : Slot := { cslot 0x05 with fused := some (ent 1 2 0), sqe := ent 5 1 0 }; let w : Sqe := ent 1 2 0; let s : State := media (zn .iopen 0) x; s.startable i.val 0x05 = some x ∧ x.fused = some w ∧ (s.isConv x.ns = false ∨ 16 < x.nlb ∨ w.slba ≠ x.sqe.slba ∨ w.nlb ≠ x.nlb)) ∧
  (let i : Fin 65536 := 0; let x : Slot := { cslot 0x1D with sqe := { ent 0x1D 1 0 with data := [0, 0] } }; let s : State := media (zn .iopen 0) x; let c : ConvNs := (s.cns 2).getD ⟨0, 0, 0, 0, false, 0, 0, 0, 0, []⟩; let hs := (List.range (x.sqe.cdw10.toNat / 2 ^ 16 + 1)).map fun k => ofLe ((x.sqe.data.drop (2 * k)).take 2); s.serves i.val 0x1D x ∧ s.cns x.ns = some c ∧ x.sqe.cdw10.toNat % 256 = 1 ∧ (∀ h, h ∈ hs → h < c.nruh)) ∧
  (let i : Fin 65536 := 0; let x : Slot := { cslot 0x1D with sqe := { ent 0x1D 2 0 with data := [0, 0] } }; let s : State := media (zn .iopen 0) x; let c : ConvNs := (s.cns 2).getD ⟨0, 0, 0, 0, false, 0, 0, 0, 0, []⟩; let hs := (List.range (x.sqe.cdw10.toNat / 2 ^ 16 + 1)).map fun k => ofLe ((x.sqe.data.drop (2 * k)).take 2); s.serves i.val 0x1D x ∧ s.cns x.ns = some c ∧ (x.sqe.cdw10.toNat % 256 ≠ 1 ∨ ∃ h, h ∈ hs ∧ c.nruh ≤ h)) ∧
  (let i : Fin 65536 := 0; let x : Slot := cslot 0x12; let s : State := media (zn .iopen 0) x; let c : ConvNs := (s.cns 2).getD ⟨0, 0, 0, 0, false, 0, 0, 0, 0, []⟩; s.serves i.val 0x12 x ∧ s.cns x.ns = some c ∧ x.sqe.cdw10.toNat % 256 = 1) ∧
  (let i : Fin 65536 := 0; let z : Nat := 0; let x : Slot := { zslot 0x7A with order := 1 }; let s : State := slots (zn .iopen 1) [(0, x), (1, zslot 1)]; let n : Ns := (s.nsAt 1).getD ⟨0, false, 0, 0, 0, 0, 0, 0, 0, [], 0⟩; let c := x.sqe.cdw13.toNat; s.serves i.val 0x7A x ∧ x.zmi = some z ∧ s.nsAt x.ns = some n ∧ c % 256 = 0 ∧ bits c 8 8 ≤ 7 ∧ (∃ k, z ≤ k ∧ k < n.zbase + n.zones ∧ s.zoneBusy i.val k x.order = true)) ∧
  (let i : Fin 65536 := 0; let z : Nat := 0; let x : Slot := zslot 0x7A; let s : State := media (zn .iopen 1) x; let n : Ns := (s.nsAt 1).getD ⟨0, false, 0, 0, 0, 0, 0, 0, 0, [], 0⟩; let c := x.sqe.cdw13.toNat; s.serves i.val 0x7A x ∧ x.zmi = some z ∧ s.nsAt x.ns = some n ∧ c % 256 = 0 ∧ bits c 8 8 ≤ 7 ∧ (∀ k, z ≤ k → k < n.zbase + n.zones → s.zoneBusy i.val k x.order = false)) ∧
  (let i : Fin 65536 := 0; let z : Nat := 0; let x : Slot := { zslot 0x7A with sqe := { ent 0x7A 0 0 with cdw13 := 1 } }; let s : State := media (zn .iopen 1) x; let n : Ns := (s.nsAt 1).getD ⟨0, false, 0, 0, 0, 0, 0, 0, 0, [], 0⟩; let c := x.sqe.cdw13.toNat; s.serves i.val 0x7A x ∧ x.zmi = some z ∧ s.nsAt x.ns = some n ∧ (c % 256 ≠ 0 ∨ 7 < bits c 8 8)) := by
  refine ⟨?c1, ?c2, ?c3, ?c4, ?c5, ?c6, ?c7, ?c8, ?c9, ?c10, ?c11, ?c12, ?c13, ?c14⟩
  case c12 => exact ⟨by decide +kernel, by decide, by decide +kernel, by decide, by decide, 0, by decide, by decide +kernel, by decide +kernel⟩
  case c13 => exact ⟨by decide +kernel, by decide, by decide +kernel, by decide, by decide, fun k _ h => by have h : k < 4 := h; interval_cases k <;> decide +kernel⟩
  all_goals decide +kernel

theorem witness_zone_commands :
  (let i : Fin 65536 := 0; let z : Nat := 0; let x : Slot := { zslot 0x79 with sqe := { ent 0x79 0 0 with cdw13 := 3 } }; let s : State := media (zn .closed 1) x; x.err = none ∧ x.selectAll = false ∧ x.zmi = some z ∧ x.cursor ≤ z ∧ s.actWaits i.val x z = false ∧ s.zoneCmd i.val 3 = some x) ∧
  (let i : Fin 65536 := 0; let z : Nat := 0; let x : Slot := { zslot 0x79 with sqe := { ent 0x79 0 0 with cdw13 := 1 } }; let s : State := media (zn .closed 1) x; x.err = none ∧ x.selectAll = false ∧ x.zmi = some z ∧ x.cursor ≤ z ∧ s.actWaits i.val x z = false ∧ s.zoneCmd i.val 1 = some x) ∧
  (let i : Fin 65536 := 0; let z : Nat := 0; let x : Slot := { zslot 0x79 with sqe := { ent 0x79 0 0 with cdw13 := 2 } }; let s : State := media (zn .closed 1) x; x.err = none ∧ x.selectAll = false ∧ x.zmi = some z ∧ x.cursor ≤ z ∧ s.actWaits i.val x z = false ∧ s.zoneCmd i.val 2 = some x) ∧
  (let i : Fin 65536 := 0; let z : Nat := 0; let x : Slot := { zslot 0x79 with sqe := { ent 0x79 0 0 with cdw13 := 4 } }; let s : State := media (zn .closed 1) x; x.err = none ∧ x.selectAll = false ∧ x.zmi = some z ∧ x.cursor ≤ z ∧ s.actWaits i.val x z = false ∧ s.zoneCmd i.val 4 = some x) ∧
  (let i : Fin 65536 := 0; let z : Nat := 0; let x : Slot := { zslot 0x79 with sqe := { ent 0x79 0 0 with cdw13 := 5 } }; let s : State := media (zn .closed 1) x; x.err = none ∧ x.selectAll = false ∧ x.zmi = some z ∧ x.cursor ≤ z ∧ s.actWaits i.val x z = false ∧ s.zoneCmd i.val 5 = some x) ∧
  (let i : Fin 65536 := 0; let z : Nat := 0; let x : Slot := { zslot 0x79 with sqe := { ent 0x79 0 0 with cdw13 := 4 }, st := .waiting }; let s : State := media (zn .closed 1) x; x.err = none ∧ x.selectAll = false ∧ x.zmi = some z ∧ x.cursor ≤ z ∧ s.actWaits i.val x z = false ∧ s.startable i.val 0x79 = some x ∧ x.st = .waiting) ∧
  (let i : Fin 65536 := 0; let z : Nat := 0; let a : Nat := 1; let y : Slot := zslot 0x79; let s : State := media (zn .closed 1) (zslot 0x79); (s.zoneAct z a).2.slot i.val = some y ∧ y.zst = none) ∧
  (let i : Fin 65536 := 0; let z : Nat := 0; let x : Slot := { zslot 0x79 with sqe := { ent 0x79 0 0 with cdw13 := 4 }, order := 1 }; let s : State := slots (zn .closed 1) [(0, x), (1, zslot 1)]; x.err = none ∧ x.selectAll = false ∧ x.zmi = some z ∧ s.actWaits i.val x z = true ∧ s.zoneCmd i.val 4 = some x ∧ x.cursor ≤ z) ∧
  (let i : Fin 65536 := 0; let z : Nat := 0; let x : Slot := { zslot 0x79 with sqe := { ent 0x79 0 0 with cdw13 := 1 }, order := 1 }; let s : State := slots (zn .closed 1) [(0, x), (1, zslot 1)]; x.err = none ∧ x.selectAll = false ∧ x.zmi = some z ∧ s.actWaits i.val x z = true ∧ s.zoneCmd i.val 1 = some x ∧ x.cursor ≤ z) ∧
  (let z : Nat := 0; let s : State := media { zn .full 0 with resv := true } (zslot 0x79); (s.zone z).zs = .full ∧ (s.zone z).resv = true) ∧
  (let z : Nat := 0; let s : State := media (zn .readOnly 0) (zslot 0x79); (s.zone z).zs = .readOnly) ∧
  (let z : Nat := 0; let a : Nat := 4; let s : State := media (zn .offline 0) (zslot 0x79); (s.zone z).zs = .offline ∧ a ≠ 5) ∧
  (let z : Nat := 0; let s : State := media (zn .full 0) (zslot 0x79); (s.zone z).zs ≠ .readOnly) ∧
  (let z : Nat := 0; let s : State := media (zn .eopen 0) (zslot 0x79); let k : Nat := 1; ((s.zone z).zs = .iopen ∨ (s.zone z).zs = .eopen) ∧ k ≠ z) ∧
  (let z : Nat := 0; let s : State := media (zn .iopen 0) (zslot 0x79); let k : Nat := 1; (s.zone z).zs = .iopen ∧ k ≠ z) ∧
  (let z : Nat := 0; let s : State := (media (zn .empty 0) (zslot 0x79)).setFld (F.XTS_NSK_CURV 0) 1; (s.zone z).zs = .empty ∧ s.genAllows (s.zone z).ns = true) := by
  refine ⟨?c1, ?c2, ?c3, ?c4, ?c5, ?c6, ?c7, ?c8, ?c9, ?c10, ?c11, ?c12, ?c13, ?c14, ?c15, ?c16⟩
  all_goals decide +kernel

theorem witness_staging_and_folding :
  (let z : Fin 2097152 := 0; let e : Nat × Buf := (0, { buf0 with st := .held }); let s : State := stageable 1000000000000; minBy (fun e => e.2.at_) ((s.zoneBufs z.val).filter fun e => e.2.st = .held && !e.2.staging) = some e ∧ s.fld F.ZNE_STAGECFG_AGE * 1000000 ≤ s.now - e.2.at_) ∧
  (let z : Fin 2097152 := 0; let e : Nat × Buf := (0, { buf0 with st := .held }); let s : State := stageable 0; minBy (fun e => e.2.at_) ((s.zoneBufs z.val).filter fun e => e.2.st = .held && !e.2.staging) = some e ∧ s.now - e.2.at_ < s.fld F.ZNE_STAGECFG_AGE * 1000000) ∧
  (let n : Fin 16 := 0; let k : Nat := 3; let t : Stripe := { stripe0 with of_ := .stage 0 0, pack := [⟨0, .zone 0 0, none, none, none⟩] }; let s : State := stageS 1000000000; s.stageStripe n.val = some (k, t) ∧ t.pack ≠ [] ∧ s.fld F.ZNE_STAGECFG_FILLUS * 1000 ≤ s.now - t.opened) ∧
  (let n : Fin 16 := 0; let k : Nat := 3; let t : Stripe := { stripe0 with of_ := .stage 0 0, pack := [⟨0, .zone 0 0, none, none, none⟩] }; let s : State := stageS 0; s.stageStripe n.val = some (k, t) ∧ t.pack ≠ [] ∧ s.now - t.opened < s.fld F.ZNE_STAGECFG_FILLUS * 1000) ∧
  (let k : Nat := 3; let p : Nat := pairKey 2 7 false; let a : Nat := 0; let t : Stripe := { stripe0 with of_ := .conv 0 0, pack := [⟨0, .conv 2 0 0, some 0, none, none⟩] }; let s : State := convS 1000000000000; s.convStripe p = some (k, t) ∧ t.pack ≠ [] ∧ minBy id (t.pack.filterMap fun c => c.buf.bind fun b => (Tab.find s.zne.bufs b).map (·.at_)) = some a ∧ s.fld F.ZNE_STAGECFG_AGE * 1000000 ≤ s.now - a) ∧
  (let k : Nat := 3; let p : Nat := pairKey 2 7 false; let a : Nat := 0; let t : Stripe := { stripe0 with of_ := .conv 0 0, pack := [⟨0, .conv 2 0 0, some 0, none, none⟩] }; let s : State := convS 0; s.convStripe p = some (k, t) ∧ t.pack ≠ [] ∧ minBy id (t.pack.filterMap fun c => c.buf.bind fun b => (Tab.find s.zne.bufs b).map (·.at_)) = some a ∧ s.now - a < s.fld F.ZNE_STAGECFG_AGE * 1000000) ∧
  (let p : Nat := pairKey 2 7 true; let s : State := State.reset; s.convStripe p = none) ∧
  (let z : Fin 2097152 := 0; let s : State := foldS; let i := (s.zone z.val).bstripes + (s.bodyStripes z.val).length; let offs := s.stagedOffsets z.val i; (s.zone z.val).body.length = 18 ∧ (s.zone z.val).fbc = false ∧ offs ≠ [] ∧ s.foldable z.val i = true ∧ s.fld F.ZNE_DIRTY_CUR + offs.length ≤ s.effBufs ∧ (∀ e, e ∈ s.zne.bufs → e.2.own ≠ .fold z.val)) ∧
  (let z := 0; let n : Fin 16 := 0; let e : Nat × SlcBody := (4, slc0); let s : State := (mz State.reset fun z => { z with slc := [(4, slc0)] }).setFld (F.ZNE_DHS_STATE (blkDie 1)) 3; let bs := s.zne.slc.filter fun e => e.2.set = n.val && e.2.st = .stage && e.2.ready && decide (0 < e.2.used); minBy (fun e => e.2.seq) (bs.filter fun e => s.hasDead e.2) = some e) ∧
  (let z := 0; let n : Fin 16 := 0; let e : Nat × SlcBody := (4, slc0); let s : State := mz State.reset fun z => { z with slc := [(4, slc0)] }; let bs := s.zne.slc.filter fun e => e.2.set = n.val && e.2.st = .stage && e.2.ready && decide (0 < e.2.used); bs.filter (fun e => s.hasDead e.2) = [] ∧ s.freeStageBodies n.val < 64 ∧ minBy (fun e => e.2.seq) (bs.filter fun e => Tab.find s.zne.openStage n.val != some e.1) = some e) ∧
  (let n : Fin 16 := 0; let s : State := stageFree; let bs := s.zne.slc.filter fun e => e.2.set = n.val && e.2.st = .stage && e.2.ready && decide (0 < e.2.used); bs.filter (fun e => s.hasDead e.2) = [] ∧ 64 ≤ s.freeStageBodies n.val) ∧
  (let z := 0; let p : Nat := 0; let ps : List Nat := [5]; let s : State := (mz State.reset fun z => { z with mapDirty := [0, 5] }).setFld (F.ZNE_SGOV_BGTOK 0) 0; let set := ((s.zne.conv.find? fun c => decide (c.2.mapBase / 1024 ≤ p) && decide (p ≤ (c.2.mapBase + c.2.nsze) / 1024)).map (·.2.set)).getD 0; s.pagesLeft = p :: ps ∧ s.setTokens set < 18 * s.fld F.ZNE_SCHEDCFG_PGMCOST) ∧
  (let z := 0; let p : Nat := 0; let ps : List Nat := [5]; let s : State := (mz State.reset fun z => { z with mapDirty := [0, 5] }).setFld (F.ZNE_SGOV_BGTOK 0) 65535; let set := ((s.zne.conv.find? fun c => decide (c.2.mapBase / 1024 ≤ p) && decide (p ≤ (c.2.mapBase + c.2.nsze) / 1024)).map (·.2.set)).getD 0; let u := s.journalErase s.journalRows; let free := s.journalRows.find? fun r => decide (u.journalUsed r < u.stageSpb) && r.all fun b => (Tab.find u.zne.erases b).isNone; s.pagesLeft = p :: ps ∧ 18 * s.fld F.ZNE_SCHEDCFG_PGMCOST ≤ s.setTokens set ∧ free = none) ∧
  (let p : Nat := 0; let ps : List Nat := []; let row : List Nat := List.range 18; let s : State := journalS; let set := ((s.zne.conv.find? fun c => decide (c.2.mapBase / 1024 ≤ p) && decide (p ≤ (c.2.mapBase + c.2.nsze) / 1024)).map (·.2.set)).getD 0; let u := s.journalErase s.journalRows; let free := s.journalRows.find? fun r => decide (u.journalUsed r < u.stageSpb) && r.all fun b => (Tab.find u.zne.erases b).isNone; s.pagesLeft = p :: ps ∧ 18 * s.fld F.ZNE_SCHEDCFG_PGMCOST ≤ s.setTokens set ∧ free = some row) := by
  refine ⟨?c1, ?c2, ?c3, ?c4, ?c5, ?c6, ?c7, ?c8, ?c9, ?c10, ?c11, ?c12, ?c13, ?c14⟩
  all_goals decide +kernel

theorem witness_decode_outcomes :
  (let k : Nat := 1; let r : Recon := { recon0 with failed := true }; let s : State := recS r; s.recon k = some r ∧ r.failed = true) ∧
  (let k : Nat := 1; let r : Recon := recon0; let s : State := recS r; s.recon k = some r ∧ r.failed = false ∧ r.ready = true ∧ r.crcRetry = false) ∧
  (let k : Nat := 1; let r : Recon := { recon0 with crcRetry := true }; let s : State := recS r; s.recon k = some r ∧ r.failed = false ∧ r.ready = true ∧ r.crcRetry = true) ∧
  (let k : Nat := 1; let r : Recon := { recon0 with members := [] }; let s : State := recS r; s.recon k = some r ∧ r.failed = false ∧ r.ready = false) ∧
  (let u : Nat := 7; let x : Decode := dec 0 .collect; let s : State := decS x; let w := State.freeCw { s with zne := { s.zne with decodes := Tab.erase s.zne.decodes u } } x.op x.cw; Tab.find s.zne.decodes u = some x ∧ x.op.lad = 0 ∧ (w.countLadder x.op (ladderStep 0)).wanted x.op x.tag = true) ∧
  (let u : Nat := 7; let x : Decode := dec 0 (.host 0); let s : State := decS x; let w := State.freeCw { s with zne := { s.zne with decodes := Tab.erase s.zne.decodes u } } x.op x.cw; Tab.find s.zne.decodes u = some x ∧ x.op.lad = 0 ∧ (w.countLadder x.op (ladderStep 0)).wanted x.op x.tag = false) ∧
  (let u : Nat := 7; let e : W32 := 0; let f : W32 := 0; let x : Decode := dec 0 (.host 0); let s : State := decS x; let w := State.freeCw { s with zne := { s.zne with decodes := Tab.erase s.zne.decodes u } } x.op x.cw; let v := w.znePost 0x0206 [(32, x.op.blk), (16, x.op.slice), (32, e.toNat), (32, f.toNat)] x.op.ten; Tab.find s.zne.decodes u = some x ∧ x.op.lad = 0 ∧ v.wanted x.op x.tag = false) ∧
  (let u : Nat := 7; let e : W32 := 0; let f : W32 := 0; let x : Decode := dec 0 .collect; let s : State := decS x; let w := State.freeCw { s with zne := { s.zne with decodes := Tab.erase s.zne.decodes u } } x.op x.cw; let v := w.znePost 0x0206 [(32, x.op.blk), (16, x.op.slice), (32, e.toNat), (32, f.toNat)] x.op.ten; Tab.find s.zne.decodes u = some x ∧ x.op.lad = 0 ∧ v.wanted x.op x.tag = true) ∧
  (let u : Nat := 7; let x : Decode := dec 1 (.host 0); let s : State := decS x; let w := State.freeCw { s with zne := { s.zne with decodes := Tab.erase s.zne.decodes u } } x.op x.cw; Tab.find s.zne.decodes u = some x ∧ x.op.lad ≠ 0 ∧ w.wanted x.op x.tag = false) ∧
  (let u : Nat := 7; let x : Decode := dec 1 .collect; let s : State := decS x; let w := State.freeCw { s with zne := { s.zne with decodes := Tab.erase s.zne.decodes u } } x.op x.cw; Tab.find s.zne.decodes u = some x ∧ x.op.lad ≠ 0 ∧ w.wanted x.op x.tag = true) ∧
  (let u : Nat := 7; let a : Nat := 1; let b : Nat := 3; let x : Decode := dec 1 (.helper 1 3); let s : State := mz (decS x) fun z => { z with recons := [(1, { recon0 with members := [(3, .pending)] })] }; let w := State.freeCw { s with zne := { s.zne with decodes := Tab.erase s.zne.decodes u } } x.op x.cw; Tab.find s.zne.decodes u = some x ∧ w.wanted x.op x.tag = true ∧ x.op.purpose = .helper a b) ∧
  (let u : Nat := 7; let x : Decode := dec 1 (.host 0); let s : State := decS x; let w := State.freeCw { s with zne := { s.zne with decodes := Tab.erase s.zne.decodes u } } x.op x.cw; Tab.find s.zne.decodes u = some x ∧ w.wanted x.op x.tag = false) ∧
  (let u : Nat := 7; let x : Decode := dec 1 .collect true; let s : State := decS x; let w := State.freeCw { s with zne := { s.zne with decodes := Tab.erase s.zne.decodes u } } x.op x.cw; Tab.find s.zne.decodes u = some x ∧ w.wanted x.op x.tag = true ∧ x.op.again = true) ∧
  (let u : Nat := 7; let b : Nat := 0; let x : Decode := dec 5 .collect; let s : State := decS x; let w := State.freeCw { s with zne := { s.zne with decodes := Tab.erase s.zne.decodes u } } x.op x.cw; Tab.find s.zne.decodes u = some x ∧ w.wanted x.op x.tag = true ∧ (∀ a b, x.op.purpose ≠ .verify a b) ∧ (∀ a, x.op.purpose ≠ .jobVerify a) ∧ w.nextLad x.op.blk x.op.lad = none) ∧
  (let u : Nat := 7; let b : Nat := 0; let l : Nat := 1; let x : Decode := dec 0 .collect; let s : State := (decS x).setFld (F.ZNE_DHS_STATE 0) 3; let w := State.freeCw { s with zne := { s.zne with decodes := Tab.erase s.zne.decodes u } } x.op x.cw; Tab.find s.zne.decodes u = some x ∧ w.wanted x.op x.tag = true ∧ (∀ a b, x.op.purpose ≠ .verify a b) ∧ (∀ a, x.op.purpose ≠ .jobVerify a) ∧ w.nextLad x.op.blk x.op.lad = some l ∧ w.deadDie (blkDie x.op.blk) = true) ∧
  (let u : Nat := 7; let b : Nat := 0; let l : Nat := 1; let x : Decode := dec 0 .collect; let s : State := decS x; let w := State.freeCw { s with zne := { s.zne with decodes := Tab.erase s.zne.decodes u } } x.op x.cw; Tab.find s.zne.decodes u = some x ∧ w.wanted x.op x.tag = true ∧ (∀ a b, x.op.purpose ≠ .verify a b) ∧ (∀ a, x.op.purpose ≠ .jobVerify a) ∧ w.nextLad x.op.blk x.op.lad = some l ∧ w.deadDie (blkDie x.op.blk) = false) := by
  refine ⟨?c1, ?c2, ?c3, ?c4, ?c5, ?c6, ?c7, ?c8, ?c9, ?c10, ?c11, ?c12, ?c13, ?c14, ?c15, ?c16⟩
  case c14 => exact ⟨by decide +kernel, by decide +kernel, fun _ _ h => Purpose.noConfusion h, fun _ h => Purpose.noConfusion h, by decide +kernel⟩
  case c15 => exact ⟨by decide +kernel, by decide +kernel, fun _ _ h => Purpose.noConfusion h, fun _ h => Purpose.noConfusion h, by decide +kernel, by decide +kernel⟩
  case c16 => exact ⟨by decide +kernel, by decide +kernel, fun _ _ h => Purpose.noConfusion h, fun _ h => Purpose.noConfusion h, by decide +kernel, by decide +kernel⟩
  all_goals decide +kernel

theorem witness_erase_and_upkeep :
  (let b : BitVec 25 := 1; let j : EraseJob := erase0; let s : State := eraS j; Tab.find s.zne.erases b.toNat = some j ∧ j.st = .ledger ∧ j.entry < 4096) ∧
  (let b : BitVec 25 := 1; let j : EraseJob := { erase0 with st := .clearing }; let s : State := eraS j; Tab.find s.zne.erases b.toNat = some j ∧ j.st ≠ .ledger) ∧
  (let b : BitVec 25 := 1; let j : EraseJob := { erase0 with st := .clearing }; let s : State := eraS j; Tab.find s.zne.erases b.toNat = some j ∧ j.st = .clearing ∧ j.for_ = .pre) ∧
  (let b : BitVec 25 := 1; let z : Nat := 9; let j : EraseJob := { erase0 with st := .clearing, for_ := .zone 9 }; let s : State := eraS j; Tab.find s.zne.erases b.toNat = some j ∧ j.st = .clearing ∧ j.for_ = .zone z) ∧
  (let b : BitVec 25 := 1; let k : Nat := 3; let j : EraseJob := { erase0 with st := .clearing, for_ := .slc 3 }; let s : State := eraS j; Tab.find s.zne.erases b.toNat = some j ∧ j.st = .clearing ∧ j.for_ = .slc k) ∧
  (let b : BitVec 25 := 1; let k : Nat := 3; let j : EraseJob := { erase0 with st := .clearing, for_ := .job 3 }; let s : State := eraS j; Tab.find s.zne.erases b.toNat = some j ∧ j.st = .clearing ∧ j.for_ = .job k) ∧
  (let b : BitVec 25 := 1; let k : Nat := 3; let j : EraseJob := { erase0 with st := .clearing, for_ := .reloc 3 }; let s : State := eraS j; Tab.find s.zne.erases b.toNat = some j ∧ j.st = .clearing ∧ j.for_ = .reloc k) ∧
  (let b : BitVec 25 := 1; let j : EraseJob := erase0; let s : State := eraS j; Tab.find s.zne.erases b.toNat = some j ∧ j.st ≠ .clearing) ∧
  (let n : Fin 16 := 0; let s : State := State.reset; let unc := (s.slcEntries n.val).any (·.uncertain); (unc = true ∨ s.erasedFresh n.val < s.preeraseNeed n.val)) ∧
  (let n : Fin 16 := 0; let s : State := (mz State.reset fun z => { z with slc := [(4, { slc0 with used := 0 })], openStage := [(0, 4)] }).setFld F.ZNE_WEARCFG_PREERASE 0; let unc := (s.slcEntries n.val).any (·.uncertain); unc = false ∧ s.preeraseNeed n.val ≤ s.erasedFresh n.val) ∧
  (let b := 1; let n : Fin 16 := 0; let l : Nat := 0; let z : Nat := 0; let x : Zone := zn .full 5; let s : State := mz (media x (zslot 1)) fun z => { z with blks := [(40, ⟨9000, .free, false, false, none, 0, 0⟩)] }; let full := s.zne.zones.filter fun e => e.2.set = n.val && e.2.zs = .full && e.2.body.length = 18; minBy (fun e => s.sumPe e.2.body) (full.filter fun e => !e.2.staged && !(s.zne.relocs.any fun r => r.2.zmi = e.1)) = some (z, x) ∧ minBy id (full.map fun e => s.sumPe e.2.body) = some l ∧ (s.zne.relocs.filter fun r => (s.zone r.2.zmi).set = n.val && !r.2.refresh).length < s.fld F.ZNE_WEARCFG_WLMAX ∧ l + 18 * s.fld F.ZNE_WEARCFG_WLDELTA < 18 * (s.blocksOf n.val fun _ e => !e.slc && (e.st = .free || e.st = .body)).foldl (fun m b => max m (s.blk b).pe) 0) ∧
  (let b : Nat := 7; let s : State := mz State.reset fun z => { z with refreshQ := [7, 8] }; s.zne.refreshQ.find? s.refreshable = some b) ∧
  (let s : State := State.reset.setFld F.ZNE_SCRUBCFG_SCRUBEN 0; s.zne.refreshQ.find? s.refreshable = none ∧ s.flag F.ZNE_SCRUBCFG_SCRUBEN = false) ∧
  (let b : Nat := 40; let s : State := mz State.reset fun z => { z with blks := [(40, ⟨1, .body, false, false, none, 0, 0⟩)] }; s.zne.refreshQ.find? s.refreshable = none ∧ s.flag F.ZNE_SCRUBCFG_SCRUBEN = true ∧ (((s.zne.blks.filter fun e => (e.2.st = .body || e.2.st = .stage || e.2.st = .conv || e.2.st = .system) && !s.deadDie (blkDie e.1)).map (·.1)).find? fun b => decide (s.zne.scrubAt ≤ b)) = some b) ∧
  (let j : Nat := 1; let x : MJob := job0; let s : State := (jobS x).setFld F.ZNE_RBCFG_PAUSE 1; minBy (fun e => s.rebuildRank e.2 * 2 ^ 40 + e.2.zmi) (s.zne.jobs.filter fun e => s.rebuildReady e.2 && s.jobRoom e.2) = some (j, x) ∧ s.flag F.ZNE_RBCFG_PAUSE = true) ∧
  (let j : Nat := 1; let x : MJob := { job0 with st := .slice }; let s : State := jobS x; minBy (fun e => s.rebuildRank e.2 * 2 ^ 40 + e.2.zmi) (s.zne.jobs.filter fun e => s.rebuildReady e.2 && s.jobRoom e.2) = some (j, x) ∧ s.flag F.ZNE_RBCFG_PAUSE = false ∧ s.recentBytes + 16 * s.jobCps x * 4544 ≤ s.fld F.ZNE_RBCFG_SHARE * 3072000000 / 1000 ∧ s.sliceReads x ≤ s.setTokens x.set ∧ x.st = .slice) ∧
  (let j : Nat := 1; let x : MJob := job0; let s : State := jobS x; minBy (fun e => s.rebuildRank e.2 * 2 ^ 40 + e.2.zmi) (s.zne.jobs.filter fun e => s.rebuildReady e.2 && s.jobRoom e.2) = some (j, x) ∧ s.flag F.ZNE_RBCFG_PAUSE = false ∧ s.recentBytes + 16 * s.jobCps x * 4544 ≤ s.fld F.ZNE_RBCFG_SHARE * 3072000000 / 1000 ∧ s.sliceReads x ≤ s.setTokens x.set ∧ x.st ≠ .slice) ∧
  (let r : Fin 6400 := 0; let k : Nat := 3; let t : Stripe := { stripe0 with st := .torn }; let s : State := strS t; s.zne.stripes.find? (fun e => e.2.record = some r.val && e.2.st = .torn) = some (k, t)) := by
  refine ⟨?c1, ?c2, ?c3, ?c4, ?c5, ?c6, ?c7, ?c8, ?c9, ?c10, ?c11, ?c12, ?c13, ?c14, ?c15, ?c16, ?c17, ?c18⟩
  all_goals decide +kernel

theorem witness_loop_engine :
  (let k : Fin 160 := 159; let s : State := State.reset; s.lpeState k.val = 0) ∧
  (let k : Fin 160 := 159; let s : State := State.reset.setFld (F.LPE_SCTL_STATE 159) 1; s.lpeState k.val ≠ 0) ∧
  (let s : State := State.reset; s.now < s.lpe.last + s.lpe.per * 1000) ∧
  (let k := 159; let s : State := { State.reset.setFld F.LPE_CFG_RUN 0 with now := 100000 }; s.lpe.last + s.lpe.per * 1000 ≤ s.now ∧ s.flag F.LPE_CFG_RUN = false ∧ (∀ k, k ∈ slotOrder → (s.lpeSlot k).pend = 0)) := by
  refine ⟨?c1, ?c2, ?c3, ?c4⟩
  all_goals decide +kernel

theorem witness_pcie_links :
  (let p : Port := 0; let s : State := (State.reset.setFld (F.ISL_CLKSTAT_SRCACT 0x0C) 1).setFld (F.MGT_VMON_MV 5) (State.reset.fld (F.MGT_VLIM_LO 5)); s.flag (F.ISL_CLKSTAT_SRCACT (0x0C + p.val)) = true ∧ s.flag (F.HIF_LINKCFG_LTEN p.val) = false ∧ s.railOk 5 = true) ∧
  (let s : State := State.reset; let p : Port := 1; (s.flag (F.ISL_CLKSTAT_SRCACT (0x0C + p.val)) = false ∨ s.flag (F.HIF_LINKCFG_LTEN p.val) = true ∨ s.railOk 5 = false)) ∧
  (let p : Port := 0; let rate : BitVec 3 := 6; let width : BitVec 5 := 16; let s : State := (State.reset.modPort 0 fun x => { x with training := true }).setFld (F.HIF_LINKCFG_MAXRATE 0) 6; ((s.port p.val).training = true ∨ s.flag (F.HIF_PORTSTAT_LINKUP p.val) = true) ∧ rate.toNat ≠ 0 ∧ rate.toNat ≤ s.fld (F.HIF_LINKCFG_MAXRATE p.val) ∧ width.toNat ≤ s.portWidth p.val ∧ width.toNat ∈ [1, 2, 4, 8, 16]) ∧
  (let p : Port := 0; let s : State := State.reset; let rate : BitVec 3 := 0; let width : BitVec 5 := 16; (rate.toNat = 0 ∨ s.fld (F.HIF_LINKCFG_MAXRATE p.val) < rate.toNat ∨ s.portWidth p.val < width.toNat)) ∧
  (let p : Port := 1; let s : State := State.reset.setFld (F.HIF_PORTSTAT_INUSE 1) 1; s.portUsed p.val = true) ∧
  (let s : State := State.reset; let p : Port := 1; s.portUsed p.val = false) ∧
  (let s : State := State.reset; let p : Port := 1; s.flag (F.HIF_PORTSTAT_LINKUP p.val) = false) ∧
  (let p : Port := 1; let s : State := State.reset.setFld (F.HIF_PORTSTAT_LINKUP 1) 1; s.flag (F.HIF_PORTSTAT_LINKUP p.val) = true) ∧
  (let p : Port := 0; let w : Fin 4 := 3; let s : State := { (((State.reset.setFld (F.HIF_LINKCFG_L0PEN 0) 1).setFld (F.HIF_PORTSTAT_RATE 0) 6).setFld (F.HIF_PORTSTAT_WIDTH 0) 16).setFld (F.HIF_PORTSTAT_LPS 0) 0 with now := 20000 }; s.flag (F.HIF_LINKCFG_L0PEN p.val) = true ∧ s.fld (F.HIF_PORTSTAT_RATE p.val) = 6 ∧ s.fld (F.HIF_PORTSTAT_LPS p.val) ≤ 1 ∧ s.fld (F.HIF_LINKCFG_L0PMIN p.val) ≤ w.val ∧ 2 ^ w.val < (((s.port p.val).l0pReq.map (2 ^ ·)).getD (s.fld (F.HIF_PORTSTAT_WIDTH p.val))) ∧ (s.port p.val).idle + 20000 ≤ s.now) ∧
  (let p : Port := 0; let s : State := State.reset; let w : Fin 4 := 3; (s.flag (F.HIF_LINKCFG_L0PEN p.val) = false ∨ s.fld (F.HIF_PORTSTAT_RATE p.val) ≠ 6 ∨ w.val < s.fld (F.HIF_LINKCFG_L0PMIN p.val) ∨ s.now < (s.port p.val).idle + 20000)) ∧
  (let p : Port := 0; let l : Fin 6 := 5; let s : State := State.reset.setFld (F.HIF_PORTSTAT_LINKUP 0) 1; s.flag (F.HIF_PORTSTAT_LINKUP p.val) = true ∧ l.val ≠ 1 ∧ s.fld F.AON_PSSTAT_CUR = 0) ∧
  (let p : Port := 1; let k : Fin 8 := 7; let s : State := State.reset.setFld (F.HIF_IDESTAT_SECURE 1) 0x80; bit (s.fld (F.HIF_IDESTAT_SECURE p.val)) k.val = true) ∧
  (let p : Port := 0; let eid : BitVec 8 := 9; let h : W32 := 5; let s : State := epS; let e : EpId := (⟨p.val, by omega⟩, eid); s.hears e = true ∧ Tab.find (s.ep e).sessions h.toNat = some true) ∧
  (let p : Port := 0; let eid : BitVec 8 := 9; let h : W32 := 6; let s : State := epS; let e : EpId := (⟨p.val, by omega⟩, eid); (s.hears e = false ∨ Tab.find (s.ep e).sessions h.toNat ≠ some true)) ∧
  (let p : Port := 1; let s : State := State.reset.setFld (F.HIF_PORTSTAT_INUSE 1) 1; s.portUsed p.val = true ∧ (s.port p.val).perst = false ∧ (s.port p.val).vfen = false) ∧
  (let p : Port := 1; let s : State := (State.reset.setFld (F.HIF_PORTSTAT_INUSE 1) 1).modPort 1 fun x => { x with vfen := true }; s.portUsed p.val = true ∧ (s.port p.val).perst = false ∧ (s.port p.val).vfen = true) ∧
  (let s : State := State.reset; let p : Port := 1; s.flag (F.HIF_DIAGCTL_LOCK p.val) = false) ∧
  (let p : Port := 1; let s : State := State.reset.setFld (F.HIF_DIAGCTL_LOCK 1) 1; s.flag (F.HIF_DIAGCTL_LOCK p.val) = true) := by
  refine ⟨?c1, ?c2, ?c3, ?c4, ?c5, ?c6, ?c7, ?c8, ?c9, ?c10, ?c11, ?c12, ?c13, ?c14, ?c15, ?c16, ?c17, ?c18⟩
  all_goals decide +kernel

theorem witness_admin_queues :
  (let fn : FnId := 0; let e : Sqe := ent 1 0x003F0001 0x00020001; let s : State := admQ [] [(2, ⟨64, 0, 0, 0, 0⟩)]; s.adminGo fn anyCtl ∧ e.qid ≠ 0 ∧ e.qid ≤ (s.queueLimit fn.val).1 ∧ Tab.find (s.func fn.val).sqs e.qid = none ∧ 2 ≤ e.qsize ∧ e.qsize ≤ 4096 ∧ bit e.cdw11.toNat 0 = true ∧ bits e.cdw11.toNat 16 16 ≠ 0 ∧ (Tab.find (s.func fn.val).cqs (bits e.cdw11.toNat 16 16)).isSome = true) ∧
  (let fn : FnId := 0; let s : State := adm; let e : Sqe := ent 5 0x003F0001 1; s.adminGo fn anyCtl ∧ e.qid ≠ 0 ∧ e.qid ≤ (s.queueLimit fn.val).2 ∧ Tab.find (s.func fn.val).cqs e.qid = none ∧ 2 ≤ e.qsize ∧ e.qsize ≤ 4096 ∧ bit e.cdw11.toNat 0 = true ∧ (bit e.cdw11.toNat 1 = false ∨ bits e.cdw11.toNat 16 16 < 65)) ∧
  (let fn : FnId := 0; let s : State := adm; let e : Sqe := ent 1 0 0; s.adminGo fn anyCtl ∧ (e.qid = 0 ∨ (s.queueLimit fn.val).1 < e.qid ∨ (Tab.find (s.func fn.val).sqs e.qid).isSome = true)) ∧
  (let fn : FnId := 0; let s : State := adm; let e : Sqe := ent 1 0 0; s.adminGo fn anyCtl ∧ (e.qid = 0 ∨ (s.queueLimit fn.val).2 < e.qid ∨ (Tab.find (s.func fn.val).cqs e.qid).isSome = true)) ∧
  (let fn : FnId := 0; let e : Sqe := ent 0 1 0; let q : Sq := sq1 .medium; let s : State := admQ [(1, sq1 .medium)] []; s.adminGo fn anyCtl ∧ e.qid ≠ 0 ∧ Tab.find (s.func fn.val).sqs e.qid = some q ∧ q.live = 0) ∧
  (let fn : FnId := 0; let e : Sqe := ent 0 1 0; let q : Sq := { sq1 .medium with live := 1 }; let s : State := admQ [(1, { sq1 .medium with live := 1 })] []; s.adminGo fn anyCtl ∧ e.qid ≠ 0 ∧ Tab.find (s.func fn.val).sqs e.qid = some q ∧ q.live ≠ 0) ∧
  (let fn : FnId := 0; let e : Sqe := ent 4 1 0; let q : Cq := ⟨64, 0, 0, 0, 0⟩; let s : State := admQ [] [(1, ⟨64, 0, 0, 0, 0⟩)]; s.adminGo fn anyCtl ∧ e.qid ≠ 0 ∧ Tab.find (s.func fn.val).cqs e.qid = some q ∧ (∀ x, x ∈ (s.func fn.val).sqs → x.1 ≠ 0 → x.2.cq ≠ e.qid)) ∧
  (let fn : FnId := 0; let e : Sqe := ent 4 1 0; let q : Cq := ⟨64, 0, 0, 0, 0⟩; let s : State := admQ [(1, sq1 .medium)] [(1, ⟨64, 0, 0, 0, 0⟩)]; s.adminGo fn anyCtl ∧ e.qid ≠ 0 ∧ Tab.find (s.func fn.val).cqs e.qid = some q ∧ (∃ x, x ∈ (s.func fn.val).sqs ∧ x.1 ≠ 0 ∧ x.2.cq = e.qid)) ∧
  (let fn : FnId := 0; let e : Sqe := ent 8 0x00050000 0; let s : State := admF fun f => { f with aers := [5] }; s.adminGo fn anyCtl ∧ bits e.cdw10.toNat 0 16 = 0 ∧ bits e.cdw10.toNat 16 16 ∈ (s.func fn.val).aers) ∧
  (let fn : FnId := 0; let s : State := adm; let e : Sqe := ent 1 0 0; let cmd := s.hif.slots.find? fun t => t.2.fn == fn.val && t.2.qid == bits e.cdw10.toNat 0 16 && t.2.sqe.cid.toNat == bits e.cdw10.toNat 16 16 && !t.2.silent; s.adminGo fn anyCtl ∧ (¬(bits e.cdw10.toNat 0 16 = 0 ∧ bits e.cdw10.toNat 16 16 ∈ (s.func fn.val).aers)) ∧ cmd = none) ∧
  (let fn : FnId := 0; let i : Nat := 0; let x := zslot 1; let e : Sqe := ent 8 0x00070001 0; let s : State := io (zslot 1); let cmd := s.hif.slots.find? fun t => t.2.fn == fn.val && t.2.qid == bits e.cdw10.toNat 0 16 && t.2.sqe.cid.toNat == bits e.cdw10.toNat 16 16 && !t.2.silent; s.adminGo fn anyCtl ∧ (¬(bits e.cdw10.toNat 0 16 = 0 ∧ bits e.cdw10.toNat 16 16 ∈ (s.func fn.val).aers)) ∧ cmd = some (i, x) ∧ (x.reads = false ∨ s.unstarted i x = false)) ∧
  (let fn : FnId := 0; let i : Nat := 0; let x := zslot 2; let e : Sqe := ent 8 0x00070001 0; let s : State := io (zslot 2); let cmd := s.hif.slots.find? fun t => t.2.fn == fn.val && t.2.qid == bits e.cdw10.toNat 0 16 && t.2.sqe.cid.toNat == bits e.cdw10.toNat 16 16 && !t.2.silent; s.adminGo fn anyCtl ∧ (¬(bits e.cdw10.toNat 0 16 = 0 ∧ bits e.cdw10.toNat 16 16 ∈ (s.func fn.val).aers)) ∧ cmd = some (i, x) ∧ x.reads = true ∧ s.unstarted i x = true) ∧
  (let fn : FnId := 0; let s : State := admF fun f => { f with aers := List.replicate 16 1 }; s.adminGo fn anyCtl ∧ 16 ≤ (s.func fn.val).aers.length) ∧
  (let fn : FnId := 0; let s : State := adm; s.adminGo fn anyCtl ∧ (s.func fn.val).aers.length < 16 ∧ (s.func fn.val).events = []) ∧
  (let fn : FnId := 0; let d := 3; let ds := []; let s : State := admF fun f => { f with events := [3] }; s.adminGo fn anyCtl ∧ (s.func fn.val).aers.length < 16 ∧ (s.func fn.val).events = d :: ds) := by
  refine ⟨?c1, ?c2, ?c3, ?c4, ?c5, ?c6, ?c7, ?c8, ?c9, ?c10, ?c11, ?c12, ?c13, ?c14, ?c15⟩
  all_goals decide +kernel

theorem witness_admin_denials :
  (let fn : FnId := 1; let s : State := admV; s.recovery = false ∧ s.adminRuns fn.val = true ∧ isPf fn.val = false) ∧
  (let fn : FnId := 0; let s : State := adm.setFld F.VUK_CASC_ROLE 2; s.recovery = false ∧ s.adminRuns fn.val = true ∧ s.isMember = true) ∧
  (let fn : FnId := 0; let s : State := adm.setFld (F.HIF_FNMAP_TEN 0 0) 5; s.recovery = false ∧ s.adminRuns fn.val = true ∧ s.tenExists (s.fnTen fn.val) = false) ∧
  (let fn : FnId := 0; let s : State := State.reset; s.recovery = false ∧ (s.func fn.val).ctl ≠ .ready) := by
  refine ⟨?c1, ?c2, ?c3, ?c4⟩
  all_goals decide +kernel

theorem witness_features_and_logs :
  (let fn : FnId := 0; let s : State := adm; let e : Sqe := ent 9 0x80000001 0; s.adminGo fn anyCtl ∧ bit e.cdw10.toNat 31 = true) ∧
  (let fn : FnId := 0; let s : State := adm; let e : Sqe := ent 9 1 0; s.adminGo fn anyCtl ∧ bit e.cdw10.toNat 31 = false ∧ bits e.cdw10.toNat 0 8 ∈ ctlFeatures ∧ bits e.cdw10.toNat 0 8 ≠ 0x09) ∧
  (let fn : FnId := 0; let s : State := adm; let e : Sqe := ent 0xA 1 0; s.adminGo fn ⟨false, false, false⟩ ∧ bits e.cdw10.toNat 8 3 ≠ 2 ∧ bits e.cdw10.toNat 8 3 ≤ 2 ∧ bits e.cdw10.toNat 0 8 ∈ ctlFeatures ∧ bits e.cdw10.toNat 0 8 ≠ 0x09 ∧ bits e.cdw10.toNat 0 8 ≠ 0x16 ∧ bits e.cdw10.toNat 0 8 ≠ 0x07) ∧
  (let fn : FnId := 0; let s : State := adm; let e : Sqe := ent 0xA 0x201 0; s.adminGo fn ⟨false, false, false⟩ ∧ bits e.cdw10.toNat 8 3 = 2) ∧
  (let fn : FnId := 0; let s : State := adm; let e : Sqe := { ent 2 0 0 with cdw12 := 1 }; s.adminGo fn ⟨false, false, false⟩ ∧ e.logOff % 4 ≠ 0) ∧
  (let fn : FnId := 0; let s : State := adm; let e : Sqe := ent 2 0 0; s.adminGo fn ⟨false, false, false⟩ ∧ e.logOff % 4 = 0 ∧ e.lid = 0) ∧
  (let fn : FnId := 0; let s : State := adm; let e : Sqe := ent 2 3 0; s.adminGo fn ⟨false, false, false⟩ ∧ e.logOff % 4 = 0 ∧ e.lid = 0x03) ∧
  (let fn : FnId := 0; let s : State := adm; let e : Sqe := ent 2 0x81 0; s.adminGo fn ⟨false, false, false⟩ ∧ e.logOff % 4 = 0 ∧ e.lid = 0x81) ∧
  (let fn : FnId := 1; let e : Sqe := ent 2 0xC6 0; let s : State := admV; s.adminGo fn ⟨false, false, false⟩ ∧ e.logOff % 4 = 0 ∧ e.lid = 0xC6 ∧ isPf fn.val = false) ∧
  (let fn : FnId := 0; let x : Ns := ns1 0; let e : Sqe := { ent 0x19 0 1 with cdw12 := 0x200 }; let s : State := adm.hf fun h => { h with nss := [(1, ns1 0)] }; s.adminGo fn anyCtl ∧ s.directiveNs fn.val e = some x ∧ bits e.cdw11.toNat 8 8 = 0 ∧ bits e.cdw11.toNat 0 8 = 1 ∧ bits e.cdw12.toNat 8 8 = 2 ∧ bits e.cdw12.toNat 0 1 = b2n (s.rset x.set).fdp) ∧
  (let fn : FnId := 0; let x : Ns := ns1 0; let e : Sqe := ent 0x19 0 0x100; let s : State := adm.hf fun h => { h with nss := [(1, ns1 0)] }; s.adminGo fn anyCtl ∧ s.directiveNs fn.val e = some x ∧ bits e.cdw11.toNat 8 8 ≠ 0) ∧
  (let fn : FnId := 0; let s : State := adm; let e : Sqe := ent 0x19 0 0; s.adminGo fn anyCtl ∧ s.directiveNs fn.val e = none) := by
  refine ⟨?c1, ?c2, ?c3, ?c4, ?c5, ?c6, ?c7, ?c8, ?c9, ?c10, ?c11, ?c12⟩
  all_goals decide +kernel

theorem witness_quotas_whole_or_not :
  (let fn : FnId := 0; let s : State := adm; let e : Sqe := { ent 0xC0 0 0 with data := leBytes 2 1 ++ leBytes 2 2 ++ leBytes 16 0 }; let d := tenDesc (e.withAct 2); let n := (e.withAct 2).ten; s.adminGo fn masterCtl ∧ s.tenExists (e.withAct 2).ten = true ∧ (s.quotaBad n d.aq d.oq = true ∨ s.tsqBad n d.tsq = true ∨ s.ksqBad n d.ksq = true ∨ s.rsetsBad n d.rsets = true ∨ 524288 < d.wbq)) ∧
  (let fn : FnId := 0; let s : State := adm; let e : Sqe := { ent 0xC0 0 0 with data := leBytes 2 100 ++ leBytes 2 100 ++ leBytes 4 0 ++ leBytes 4 0 ++ leBytes 8 0 }; let d := tenDesc (e.withAct 2); let n := (e.withAct 2).ten; s.adminGo fn masterCtl ∧ s.tenExists (e.withAct 2).ten = true ∧ s.quotaBad n d.aq d.oq = false ∧ s.tsqBad n d.tsq = false ∧ s.ksqBad n d.ksq = false ∧ s.rsetsBad n d.rsets = false ∧ d.wbq ≤ 524288 ∧ s.isMaster = false) := by
  refine ⟨?c1, ?c2⟩
  all_goals decide +kernel

theorem witness_tenancies :
  (let fn : FnId := 0; let s : State := adm; let e : Sqe := ent 0xC0 0 0; let n := (e.withAct 0).ten; s.adminGo fn masterCtl ∧ s.tenExists n = true) ∧
  (let fn : FnId := 0; let s : State := adm; let e : Sqe := ent 0xC0 0x50000 0; let n := (e.withAct 0).ten; s.adminGo fn masterCtl ∧ s.tenExists n = false) ∧
  (let fn : FnId := 0; let s : State := adm; let e : Sqe := ent 0xC0 0 0; let n := (e.withAct 1).ten; s.adminGo fn masterCtl ∧ (n = 0 ∨ s.tenExists n = false)) ∧
  (let fn : FnId := 0; let e : Sqe := ent 0xC0 0x50000 0; let s : State := admT.hf fun h => { h with nss := [(1, ns1 5)] }; let n := (e.withAct 1).ten; s.adminGo fn masterCtl ∧ n ≠ 0 ∧ s.tenExists n = true ∧ (∃ x, x ∈ s.hif.nss ∧ x.2.ten = n)) ∧
  (let fn : FnId := 0; let e : Sqe := ent 0xC0 0x50000 0; let s : State := admT; let n := (e.withAct 1).ten; s.adminGo fn masterCtl ∧ n ≠ 0 ∧ s.tenExists n = true ∧ (∀ x, x ∈ s.hif.nss → x.2.ten ≠ n)) ∧
  (let fn : FnId := 0; let s : State := adm; let e : Sqe := ent 0xC0 0 0; s.adminGo fn masterCtl ∧ s.tenExists (e.withAct 6).ten = true) ∧
  (let fn : FnId := 0; let s : State := adm; let e : Sqe := ent 0xC0 0 0; let p := bits (e.withAct 3).cdw11.toNat 0 1; let f := bits (e.withAct 3).cdw11.toNat 1 7; s.adminGo fn masterCtl ∧ bits (e.withAct 3).cdw11.toNat 8 2 = s.ownNode ∧ s.nodeDenies s.ownNode = none ∧ s.mapBad p f (e.withAct 3).ten = true) ∧
  (let fn : FnId := 0; let e : Sqe := ent 0xC0 0x50000 10; let s : State := admT; let p := bits (e.withAct 3).cdw11.toNat 0 1; let f := bits (e.withAct 3).cdw11.toNat 1 7; s.adminGo fn masterCtl ∧ bits (e.withAct 3).cdw11.toNat 8 2 = s.ownNode ∧ s.nodeDenies s.ownNode = none ∧ s.mapBad p f (e.withAct 3).ten = false) ∧
  (let fn : FnId := 0; let s : State := adm; let e : Sqe := { ent 0xC0 0 0 with data := [1] }; s.adminGo fn masterCtl ∧ s.geomOk (e.withAct 4) = false) ∧
  (let fn : FnId := 0; let s : State := adm.zn fun z => { z with jobs := [(1, job0)], sets := [(0, { RankSet.empty with ranks := 1 })] }; let e : Sqe := ent 0xC0 0 0; s.adminGo fn masterCtl ∧ s.geomOk (e.withAct 4) = true ∧ s.rebuilding (s.geomChanges (e.withAct 4)).contains = true) ∧
  (let fn : FnId := 0; let s : State := (adm.zn fun z => { z with sets := [(0, { RankSet.empty with ranks := 1 })] }).hf fun h => { h with nss := [(1, { ns1 0 with set := 0 })] }; let e : Sqe := ent 0xC0 0 0; s.adminGo fn masterCtl ∧ s.geomOk (e.withAct 4) = true ∧ s.rebuilding (s.geomChanges (e.withAct 4)).contains = false ∧ (∃ x, x ∈ s.hif.nss ∧ x.2.node = s.ownNode ∧ x.2.set ∈ s.geomChanges (e.withAct 4))) ∧
  (let fn : FnId := 0; let s : State := adm; let e : Sqe := ent 0xC0 0 0; s.adminGo fn masterCtl ∧ s.geomOk (e.withAct 4) = true ∧ s.rebuilding (s.geomChanges (e.withAct 4)).contains = false ∧ s.isMaster = false ∧ (∀ x, x ∈ s.hif.nss → x.2.node = s.ownNode → x.2.set ∉ s.geomChanges (e.withAct 4))) := by
  refine ⟨?c1, ?c2, ?c3, ?c4, ?c5, ?c6, ?c7, ?c8, ?c9, ?c10, ?c11, ?c12⟩
  all_goals decide +kernel

theorem witness_governor_and_recorder_commands :
  (let fn : FnId := 0; let s : State := adm; let e : Sqe := ent 0xC1 200 0; let k := bits e.cdw10.toNat 0 8; s.adminGo fn anyCtl ∧ (145 < k ∨ (isPf fn.val = false ∧ k ≠ s.fnTen fn.val))) ∧
  (let fn : FnId := 0; let s : State := adm; let e : Sqe := ent 0xC1 0 0; let k := bits e.cdw10.toNat 0 8; s.adminGo fn anyCtl ∧ k ≤ 145 ∧ (isPf fn.val = true ∨ k = s.fnTen fn.val)) ∧
  (let fn : FnId := 0; let s : State := adm; let e : Sqe := ent 0xC1 200 0; let k := bits e.cdw10.toNat 0 8; s.adminGo fn anyCtl ∧ (145 < k ∨ isPf fn.val = false)) ∧
  (let fn : FnId := 0; let s : State := adm; let e : Sqe := ent 0xC1 0 0; let k := bits e.cdw10.toNat 0 8; s.adminGo fn anyCtl ∧ k ≤ 145 ∧ isPf fn.val = true ∧ s.lpeState k = 0) ∧
  (let fn : FnId := 0; let e : Sqe := { ent 0xC1 0 0x200 with data := List.replicate 36 0 ++ [5, 0, 1, 0] }; let s : State := adm.setFld (F.LPE_SCTL_STATE 0) 1; let k := bits e.cdw10.toNat 0 8; s.adminGo fn anyCtl ∧ k ≤ 145 ∧ isPf fn.val = true ∧ s.lpeState k ≠ 0 ∧ bit e.cdw11.toNat 9 = true ∧ e.field 36 4 % 2 ^ 19 ≠ (s.word (R.LPE_SCTL k + 36)).toNat) ∧
  (let fn : FnId := 1; let s : State := admV.setFld (F.HIF_FNMAP_TEN 0 1) 0; s.adminGo fn anyCtl ∧ isPf fn.val = false) ∧
  (let fn : FnId := 0; let s : State := adm; let u := (s.recorderAccess fn.val).2.2; s.adminGo fn anyCtl ∧ isPf fn.val = true ∧ u.evr.freeze = none) ∧
  (let fn : FnId := 0; let s : State := adm.ev fun r => { r with freeze := some ⟨5, 0⟩ }; let f := ⟨5, 0⟩; let u := (s.recorderAccess fn.val).2.2; s.adminGo fn anyCtl ∧ isPf fn.val = true ∧ u.evr.freeze = some f ∧ f.holder ≠ fn.val) ∧
  (let fn : FnId := 0; let s : State := adm.ev fun r => { r with freeze := some ⟨0, 0⟩ }; let f := ⟨0, 0⟩; let u := (s.recorderAccess fn.val).2.2; s.adminGo fn anyCtl ∧ isPf fn.val = true ∧ u.evr.freeze = some f ∧ f.holder = fn.val) ∧
  (let fn : FnId := 0; let s : State := adm; let e : Sqe := ent 0xC1 0 0; let c : Cursor := Tab.getD (s.recorderAccess fn.val).2.2.evr.cursors (s.recorderAccess fn.val).1 ⟨0, 0, 0⟩; let k := (s.recorderAccess fn.val).1; let u := (s.recorderAccess fn.val).2.2; s.adminGo fn anyCtl ∧ Tab.find u.evr.cursors k = some c) := by
  refine ⟨?c1, ?c2, ?c3, ?c4, ?c5, ?c6, ?c7, ?c8, ?c9, ?c10⟩
  all_goals decide +kernel

theorem witness_claims_and_windows :
  (let fn : FnId := 0; let s : State := adm; let k : ResKind := .gpio; let i : Nat := 0; let e : Sqe := ent 0xC3 0 7; s.adminGo fn ownerCtl ∧ claimTarget e = some (k, i) ∧ e.cdw11.toNat ≠ 0 ∧ s.fld (F.MGT_CLAIM_ID (k.elem i)) = 0 ∧ s.flag (F.MGT_CLAIM_SAFE (k.elem i)) = false) ∧
  (let fn : FnId := 0; let k : ResKind := .gpio; let i : Nat := 0; let e : Sqe := ent 0xC3 0 7; let s : State := adm.setFld (F.MGT_CLAIM_ID 0) 9; s.adminGo fn ownerCtl ∧ claimTarget e = some (k, i) ∧ e.cdw11.toNat ≠ 0 ∧ s.fld (F.MGT_CLAIM_ID (k.elem i)) ≠ 0) ∧
  (let fn : FnId := 0; let k : ResKind := .gpio; let i : Nat := 0; let e : Sqe := ent 0xC3 0 7; let s : State := adm.setFld (F.MGT_CLAIM_ID 0) 7; s.adminGo fn ownerCtl ∧ claimTarget e = some (k, i) ∧ e.cdw11.toNat ≠ 0 ∧ s.fld (F.MGT_CLAIM_ID (k.elem i)) = e.cdw11.toNat) ∧
  (let fn : FnId := 0; let s : State := adm; let k : ResKind := .gpio; let i : Nat := 0; let e : Sqe := ent 0xC3 0 7; s.adminGo fn ownerCtl ∧ claimTarget e = some (k, i) ∧ s.fld (F.MGT_CLAIM_ID (k.elem i)) ≠ e.cdw11.toNat) ∧
  (let s : State := adm; let k : ResKind := .gpio; let i : BitVec 8 := 0; let id : W32 := 7; i.toNat < k.count ∧ id.toNat ≠ 0 ∧ s.fld (F.MGT_CLAIM_ID (k.elem i.toNat)) = 0 ∧ s.flag (F.MGT_CLAIM_SAFE (k.elem i.toNat)) = false) ∧
  (let k : ResKind := .gpio; let i : BitVec 8 := 0; let id : W32 := 7; let s : State := adm.setFld (F.MGT_CLAIM_ID 0) 7; i.toNat < k.count ∧ id.toNat ≠ 0 ∧ s.fld (F.MGT_CLAIM_ID (k.elem i.toNat)) = id.toNat) ∧
  (let s : State := adm; let k : ResKind := .gpio; let i : BitVec 8 := 0; let id : W32 := 7; i.toNat < k.count ∧ (id.toNat = 0 ∨ s.fld (F.MGT_CLAIM_ID (k.elem i.toNat)) ≠ id.toNat)) ∧
  (let k : ResKind := .gpio; let i : BitVec 8 := 200; k.count ≤ i.toNat) ∧
  (let fn : FnId := 0; let i := 0; let e : Sqe := ent 0xC3 0 7; let s : State := adm.setFld (F.HIF_DIAGCTL_ALLOW 0) 1; let i := bits (e.withAct 0).cdw10.toNat 8 8; s.adminGo fn ownerCtl ∧ s.flag (F.HIF_DIAGCTL_ALLOW (fn.val / 128)) = true ∧ i < 176) ∧
  (let fn : FnId := 0; let s : State := adm; let i := 0; let e : Sqe := ent 0xC3 0 7; let i := bits (e.withAct 0).cdw10.toNat 8 8; s.adminGo fn ownerCtl ∧ (s.flag (F.HIF_DIAGCTL_ALLOW (fn.val / 128)) = false ∨ 176 ≤ i)) ∧
  (let fn : FnId := 0; let s : State := adm; s.adminGo fn ownerCtl ∧ s.mgt.test.st ≠ .running) ∧
  (let fn : FnId := 0; let s : State := tstS fun x => { x with st := .running, link := 4 }; s.adminGo fn ownerCtl ∧ s.mgt.test.st = .running) ∧
  (let fn : FnId := 0; let s : State := adm; let e : Sqe := ent 0xC4 0 0; s.adminGo fn ownerCtl ∧ (bits (e.withAct 2).cdw11.toNat 16 16 = 0 ∨ modeAllowed (bits (e.withAct 2).cdw11.toNat 0 4) (bits (e.withAct 2).cdw12.toNat 2 2) = false)) ∧
  (let fn : FnId := 0; let s : State := adm; let e : Sqe := { ent 0xC4 0 0x00010005 with cdw12 := 0x00010000 }; let c := (e.withAct 2).cdw11.toNat; let d := (e.withAct 2).cdw12.toNat; s.adminGo fn ownerCtl ∧ s.linkExists (bits c 0 4) (bits c 4 8) (bits d 4 4) = true ∧ modeAllowed (bits c 0 4) (bits d 2 2) = true ∧ bits c 16 16 ≠ 0 ∧ bits c 16 16 < 2 ^ s.testLanes (bits c 0 4) ∧ bits d 16 16 ≠ 0 ∧ s.mgt.test.st ≠ .running ∧ 4 ≤ bits c 0 4) ∧
  (let s : State := { (tstS fun x => { x with st := .running, begun := true, duration := 1 }) with now := 1000000000 }; s.mgt.test.st = .running ∧ s.mgt.test.begun = true ∧ s.mgt.test.duration ≠ 0 ∧ s.mgt.test.start + s.mgt.test.duration * 1000000 ≤ s.now) ∧
  (let s : State := { (tstS fun x => { x with st := .running, begun := true, duration := 1 }) with now := 0 }; s.mgt.test.st = .running ∧ s.mgt.test.begun = true ∧ s.mgt.test.duration ≠ 0 ∧ s.now < s.mgt.test.start + s.mgt.test.duration * 1000000) ∧
  (let lanes : List LaneIn := []; let l : Fin 16 := 0; let x : Lane := ⟨0, 0, true, false, false⟩; let s : State := tstS fun x => { x with st := .running, begun := true, lanes := 1, lane := [(0, ⟨0, 0, true, false, false⟩)] }; s.mgt.test.st = .running ∧ s.mgt.test.begun = true ∧ bit s.mgt.test.lanes l.val = true ∧ Tab.find s.mgt.test.lane l.val = some x) := by
  refine ⟨?c1, ?c2, ?c3, ?c4, ?c5, ?c6, ?c7, ?c8, ?c9, ?c10, ?c11, ?c12, ?c13, ?c14, ?c15, ?c16, ?c17⟩
  all_goals decide +kernel

theorem witness_namespaces_and_firmware :
  (let fn : FnId := 0; let s : State := adm; let a : NsAsk := ⟨65536, 65536, 0, 0, false, 1, 0, 0⟩; let k : Nat := 1; let e : Sqe := { ent 0x0D 0 0x02000000 with data := leBytes 8 65536 ++ leBytes 8 65536 ++ List.replicate 84 0 ++ [1] }; let st := .nsInsufficientCapacity; s.adminGo fn masterCtl ∧ bits e.cdw10.toNat 0 4 = 0 ∧ nsAsk e = some a ∧ s.freeNsid = some k ∧ s.nodeDenies a.node = none ∧ a.node = s.ownNode ∧ s.nsRefused a = some st) ∧
  (let fn : FnId := 0; let a : NsAsk := ⟨1000, 1000, 0, 0, true, 1, 0, 0⟩; let k : Nat := 1; let e : Sqe := { ent 0x0D 0 0 with data := leBytes 8 1000 ++ leBytes 8 1000 ++ List.replicate 84 0 ++ [1] }; let s : State := ((adm.setFld F.ZNE_GEOM_LOCK 1).setFld F.SEC_TRNGSTAT_KEYBLK 0).zn fun z => { z with sets := [(0, { RankSet.empty with conv := 1000 })] }; s.adminGo fn masterCtl ∧ bits e.cdw10.toNat 0 4 = 0 ∧ nsAsk e = some a ∧ s.freeNsid = some k ∧ s.nodeDenies a.node = none ∧ a.node = s.ownNode ∧ s.nsRefused a = none ∧ s.flag F.SEC_TRNGSTAT_KEYBLK = false) ∧
  (let fn : FnId := 0; let s : State := adm; let e : Sqe := ent 0x0D 1 0; s.adminGo fn masterCtl ∧ e.nsid.toNat ≠ 0xFFFFFFFF ∧ s.nsOfId e.nsid.toNat = none ∧ bits e.cdw10.toNat 0 4 = 1) ∧
  (let fn : FnId := 0; let n : Nat := 1; let e : Sqe := ent 0x0D 1 0; let x : Ns := ns1 0; let s : State := adm.hf fun h => { h with nss := [(1, ns1 0)], slots := [(0, zslot 1)] }; s.adminGo fn masterCtl ∧ bits e.cdw10.toNat 0 4 = 1 ∧ e.nsid.toNat ≠ 0xFFFFFFFF ∧ s.nsOfId e.nsid.toNat = some n ∧ s.nsAt n = some x ∧ x.node = s.ownNode ∧ s.nsBusy n = true) ∧
  (let fn : FnId := 0; let n : Nat := 1; let e : Sqe := ent 0x0D 1 0; let x : Ns := ns1 0; let s : State := adm.hf fun h => { h with nss := [(1, ns1 0)] }; s.adminGo fn masterCtl ∧ bits e.cdw10.toNat 0 4 = 1 ∧ e.nsid.toNat ≠ 0xFFFFFFFF ∧ s.nsOfId e.nsid.toNat = some n ∧ s.nsAt n = some x ∧ x.node = s.ownNode ∧ s.nsBusy n = false) ∧
  (let fn : FnId := 0; let n : Nat := 1; let e : Sqe := { ent 0x15 0 0 with data := leBytes 2 1 ++ leBytes 2 1 }; let ids : List Nat := [1]; let x : Ns := { ns1 0 with fns := [], conv := true }; let s : State := adm.hf fun h => { h with nss := [(1, { ns1 0 with fns := [], conv := true })] }; s.adminGo fn masterCtl ∧ s.nsOfId e.nsid.toNat = some n ∧ s.nsAt n = some x ∧ e.ctlIds = some ids ∧ (∀ i, i ∈ ids → s.ctlExists i = true) ∧ s.nodeDenies x.node = none ∧ x.node = s.ownNode ∧ bits e.cdw10.toNat 0 4 = 0 ∧ s.attachRefused x ids = none) ∧
  (let fn : FnId := 0; let n : Nat := 1; let e : Sqe := { ent 0x15 1 0 with data := leBytes 2 1 ++ leBytes 2 1 }; let ids : List Nat := [1]; let x : Ns := { ns1 0 with fns := [] }; let s : State := adm.hf fun h => { h with nss := [(1, { ns1 0 with fns := [] })] }; s.adminGo fn masterCtl ∧ s.nsOfId e.nsid.toNat = some n ∧ s.nsAt n = some x ∧ e.ctlIds = some ids ∧ (∀ i, i ∈ ids → s.ctlExists i = true) ∧ s.nodeDenies x.node = none ∧ x.node = s.ownNode ∧ bits e.cdw10.toNat 0 4 = 1 ∧ (∀ i, i ∈ ids → s.ctlEntry i ∉ x.fns) ∧ ids ≠ []) ∧
  (let fn : FnId := 0; let s : State := adm; let e : Sqe := ent 0x80 5 0; s.adminGo fn masterCtl ∧ lbaFormat (bits e.cdw10.toNat 0 4) = none) ∧
  (let fn : FnId := 0; let n := 1; let e : Sqe := ent 0x80 0 0; let m : Nat := 0; let x := ns1 0; let s : State := adm.hf fun h => { h with nss := [(1, ns1 0)] }; s.adminGo fn masterCtl ∧ lbaFormat (bits e.cdw10.toNat 0 4) = some m ∧ bits e.cdw10.toNat 5 3 = 0 ∧ bits e.cdw10.toNat 12 2 = 0 ∧ e.nsid.toNat ≠ 0xFFFFFFFF ∧ s.nsOfId e.nsid.toNat = some n ∧ s.nsAt n = some x ∧ s.pathDenies x = none ∧ x.node = s.ownNode) ∧
  (let fn : FnId := 0; let s : State := adm; let e : Sqe := ent 0x84 1 0; s.adminGo fn masterCtl ∧ bits e.cdw10.toNat 0 3 = 1) ∧
  (let fn : FnId := 0; let s : State := adm; let e : Sqe := ent 0x84 4 0; s.adminGo fn masterCtl ∧ bits e.cdw10.toNat 0 3 = 4 ∧ s.rebuilding (fun _ => true) = false) ∧
  (let fn : FnId := 0; let s : State := adm; let e : Sqe := ent 0x84 7 0; s.adminGo fn masterCtl ∧ bits e.cdw10.toNat 0 3 ∉ [1, 2, 4]) ∧
  (let fn : FnId := 0; let s : State := adm; let n := 1; let e : Sqe := ent 0x11 0 0x00300000; let n := (e.cdw10.toNat + 1) * 4; s.adminGo fn masterCtl ∧ 8388608 < e.cdw11.toNat * 4 + n) ∧
  (let fn : FnId := 0; let s : State := adm; let n := 1; let e : Sqe := ent 0x11 0 0; let n := (e.cdw10.toNat + 1) * 4; s.adminGo fn masterCtl ∧ e.cdw11.toNat * 4 + n ≤ 8388608 ∧ s.adminBufs 0 n = true) ∧
  (let fn : FnId := 0; let s : State := adm; let e : Sqe := ent 0x10 0x20 0; s.adminGo fn masterCtl ∧ s.hif.activation = none ∧ 3 < bits e.cdw10.toNat 3 3) ∧
  (let fn : FnId := 0; let s : State := adm; let e : Sqe := ent 0x10 3 0; s.adminGo fn masterCtl ∧ s.hif.activation = none ∧ bits e.cdw10.toNat 3 3 ≤ 3 ∧ s.commitSlot (bits e.cdw10.toNat 0 3) (bits e.cdw10.toNat 3 3) = none) ∧
  (let fn : FnId := 0; let s : State := actS 0; s.hif.activation.isSome = true ∧ (s.func fn.val).ctl = .ready ∧ isPf fn.val = true) ∧
  (let a : Activation := ⟨0, 0, 7, 0⟩; let s : State := (actS 0).hf fun h => { h with slots := [(0, zslot 1)] }; s.hif.activation = some a ∧ s.hif.slots ≠ [] ∧ s.now < a.since + 500000000) ∧
  (let a : Activation := ⟨0, 0, 7, 0⟩; let s : State := actS 0; s.hif.activation = some a ∧ s.hif.slots = [] ∧ s.bundleEntry a.slot s.zne.profile.name = none) ∧
  (let a : Activation := ⟨0, 0, 7, 0⟩; let s : State := (actS 1000000000).hf fun h => { h with slots := [(0, zslot 1)] }; s.hif.activation = some a ∧ s.hif.slots ≠ [] ∧ a.since + 500000000 ≤ s.now) ∧
  (let fn : FnId := 0; let s : State := adm; let e : Sqe := ent 0x1C 0 0; s.adminGo fn masterCtl ∧ bits e.cdw10.toNat 0 4 ∉ [7, 9]) ∧
  (let fn : FnId := 0; let e : Sqe := ent 0x1C 0x00020009 0; let s : State := adm.modPort 0 fun x => { x with vfen := true, numVfs := 4 }; let c := bits e.cdw10.toNat 16 16; s.adminGo fn masterCtl ∧ bits e.cdw10.toNat 0 4 = 9 ∧ c ≠ 0 ∧ (c - 1) / 256 = s.ownNode ∧ isPf ((c - 1) % 256) = false ∧ (c - 1) % 256 / 128 = fn.val / 128 ∧ s.fnEnabled ((c - 1) % 256) = true) ∧
  (let fn : FnId := 0; let s : State := adm; s.adminGo fn anyCtl ∧ s.isMaster = false) := by
  refine ⟨?c1, ?c2, ?c3, ?c4, ?c5, ?c6, ?c7, ?c8, ?c9, ?c10, ?c11, ?c12, ?c13, ?c14, ?c15, ?c16, ?c17, ?c18, ?c19, ?c20, ?c21, ?c22, ?c23⟩
  all_goals decide +kernel

theorem witness_controllers :
  (let fn : FnId := 0; let s : State := linkS; (s.func fn.val).ctl = .disabled ∧ (s.func fn.val).fetchOff = false ∧ s.fnEnabled fn.val = true ∧ s.flag (F.HIF_PORTSTAT_LINKUP (fn.val / 128)) = true) ∧
  (let fn : FnId := 0; let s : State := State.reset; ((s.func fn.val).ctl ≠ .disabled ∨ s.flag (F.HIF_PORTSTAT_LINKUP (fn.val / 128)) = false)) ∧
  (let fn : FnId := 0; let s : State := adm; (s.func fn.val).ctl ≠ .disabled) ∧
  (let fn : FnId := 0; let s : State := State.reset; (s.func fn.val).ctl = .disabled) ∧
  (let s : State := State.reset; (∃ t, exec (.nvmSubsystemReset false) s = .next t)) ∧
  (let fn : FnId := 0; let s : State := io (zslot 1); (s.func fn.val).ctl = .ready ∧ (s.func fn.val).shst = 0 ∧ s.busyFn fn.val = true) ∧
  (let fn : FnId := 0; let s : State := admV; let u := s.modFunc fn.val fun f => { f with shst := 1 }; (s.func fn.val).ctl = .ready ∧ (s.func fn.val).shst = 0 ∧ s.busyFn fn.val = false ∧ u.othersUp fn.val = true) ∧
  (let fn : FnId := 0; let s : State := State.reset; (s.func fn.val).ctl ≠ .ready) := by
  refine ⟨?c1, ?c2, ?c3, ?c4, ?c5, ?c6, ?c7, ?c8⟩
  case c5 => exact ⟨_, rfl⟩
  all_goals decide +kernel

theorem witness_attestation :
  (let e : EpId := (0, 9); let s : State := linkS; s.hears e = true ∧ (s.ep e).stage = 0) ∧
  (let e : EpId := (0, 9); let s : State := epS; s.hears e = true ∧ (s.ep e).stage ≠ 0) ∧
  (let e : EpId := (0, 9); let s : State := linkS; s.hears e = true ∧ (s.ep e).stage < 2) ∧
  (let e : EpId := (0, 9); let s : State := epS; let a : W32 := 8; let h : W32 := 2; s.hears e = true ∧ 2 ≤ (s.ep e).stage ∧ a.getLsbD 3 = true ∧ h.getLsbD 1 = true) ∧
  (let e : EpId := (0, 9); let s : State := epS; let a : W32 := 0; let h : W32 := 2; s.hears e = true ∧ 2 ≤ (s.ep e).stage ∧ (a.getLsbD 3 = false ∨ h.getLsbD 1 = false)) ∧
  (let e : EpId := (0, 9); let s : State := linkS; s.hears e = true ∧ (s.ep e).stage < 3) ∧
  (let e : EpId := (0, 9); let s : State := linkS; s.hears e = true ∧ (s.ep e).stage < 3) ∧
  (let e : EpId := (0, 9); let s : State := State.reset; s.hears e = false) ∧
  (let e : EpId := (0, 9); let s : State := epS; let k : Fin 8 := 2; s.spdmGo e ∧ 2 ≤ k.val) ∧
  (let e : EpId := (0, 9); let i : BitVec 8 := 1; let m := (1, []); let s : State := { epS with boot := { epS.boot with meas := [(1, [])] } }; s.spdmGo e ∧ m ∈ s.boot.meas ∧ m.1 = i.toNat ∧ i.toNat ≠ 0 ∧ i.toNat ≠ 0xFF) ∧
  (let e : EpId := (0, 9); let s : State := epS; let i : BitVec 8 := 5; s.spdmGo e ∧ i.toNat ≠ 0 ∧ (∀ m, m ∈ s.boot.meas → m.1 ≠ i.toNat) ∧ i.toNat ≠ 0xFF) ∧
  (let e : EpId := (0, 9); let s : State := { epS with boot := { epS.boot with meas := [(1, [])] } }; s.spdmGo e ∧ s.boot.meas ≠ []) ∧
  (let e : EpId := (0, 9); let s : State := epS; s.spdmGo e ∧ e.1.val < 2) ∧
  (let e : EpId := (2, 9); let s : State := State.reset.modEp (2, 9) fun _ => ⟨3, [], [], 0⟩; s.spdmGo e ∧ 2 ≤ e.1.val) ∧
  (let e : EpId := (0, 9); let k : W32 := 5; let s : State := epT 3 []; s.spdmGo e ∧ Tab.find (s.ep e).sessions k.toNat = some false) ∧
  (let e : EpId := (0, 9); let s : State := epS; let k : W32 := 6; s.spdmGo e ∧ Tab.find (s.ep e).sessions k.toNat ≠ some false) ∧
  (let e : EpId := (0, 9); let s : State := epS; let k : W32 := 5; s.spdmGo e ∧ (Tab.find (s.ep e).sessions k.toNat).isSome = true) ∧
  (let e : EpId := (0, 9); let s : State := epS; let op : BitVec 16 := 1; let off : W32 := 0; let len : W32 := 10; s.spdmGo e ∧ op.toNat = 1 ∧ 0 < len.toNat ∧ len.toNat ≤ 4096 ∧ off.toNat < slhBytes ∧ (s.ep e).sigs = []) ∧
  (let e : EpId := (0, 9); let x : SlhSig := ⟨0, false, 0⟩; let xs : List SlhSig := []; let s : State := epT 3 [⟨0, false, 0⟩]; (s.ep e).sigs = xs ++ [x] ∧ x.done = false) ∧
  (let ty : BitVec 8 := 0; let port : BitVec 8 := 0; let ctl : BitVec 16 := 0; let b : Fin 4 := 0; let s : State := linkS; let d : List Byte := pageOf 32 [(0, 1, s.miPorts.length), (1, 1, 1), (2, 1, 2)]; s.bindingUp b.val = true ∧ s.miStructure ty.toNat port.toNat ctl.toNat = some d) ∧
  (let port : BitVec 8 := 0; let ctl : BitVec 16 := 0; let b : Fin 4 := 0; let s : State := linkS; let ty : BitVec 8 := 9; s.bindingUp b.val = true ∧ s.miStructure ty.toNat port.toNat ctl.toNat = none) ∧
  (let fn : FnId := 0; let s : State := adm; let e : Sqe := ent 0x1E 0 1; s.adminGo fn ownerCtl ∧ bits e.cdw11.toNat 0 8 = 1) := by
  refine ⟨?c1, ?c2, ?c3, ?c4, ?c5, ?c6, ?c7, ?c8, ?c9, ?c10, ?c11, ?c12, ?c13, ?c14, ?c15, ?c16, ?c17, ?c18, ?c19, ?c20, ?c21, ?c22⟩
  all_goals decide +kernel

theorem witness_key_engine :
  (let c : CoreId := 1; let k := 0; let w := 0; let s : State := State.reset; s.flag F.KWE_LOCK_HELD = false) ∧
  (let c : CoreId := 1; let k := 0; let w := 0; let s : State := kweS 0 none; s.flag F.KWE_LOCK_HELD = true) ∧
  (let c : CoreId := 1; let k := 0; let w := 0; let v : W32 := 1; let s : State := kweS 0 none; s.flag F.KWE_LOCK_HELD = true ∧ v.toNat % 32 = s.fld F.KWE_LOCK_OWNER ∧ s.sec.op = none) ∧
  (let c : CoreId := 1; let k := 0; let w := 0; let v : W32 := 1; let o : KweOp := ⟨1, 0, 0, 0, 0, 1⟩; let s : State := kweS 1 (some ⟨1, 0, 0, 0, 0, 1⟩); s.flag F.KWE_LOCK_HELD = true ∧ v.toNat % 32 = s.fld F.KWE_LOCK_OWNER ∧ s.sec.op = some o) ∧
  (let c : CoreId := 1; let k := 0; let w := 0; let v : W32 := 1; let s : State := State.reset; (s.flag F.KWE_LOCK_HELD = false ∨ v.toNat % 32 ≠ s.fld F.KWE_LOCK_OWNER)) ∧
  (let c : CoreId := 1; let k : BitVec 12 := 0; let w : BitVec 12 := 0; let s : State := State.reset; (s.flag F.KWE_LOCK_HELD = false ∨ s.fld F.KWE_LOCK_OWNER ≠ c.val)) ∧
  (let c : CoreId := 1; let k : BitVec 12 := 0; let w : BitVec 12 := 0; let i : Instr := .kweGen c k w; let n : Nat := 1; let s : State := kweS 1 none; s.flag F.KWE_LOCK_HELD = true ∧ s.fld F.KWE_LOCK_OWNER = c.val ∧ s.flag F.KWE_STAT_BUSY = true ∧ (i, n) ∈ [(Instr.kweGen c k w, 1), (.kweWrap c k w, 2), (.kweUnwrap c k w, 3), (.kweZero c k w, 4), (.kweSeal c k w, 5), (.kweUnseal c k w, 6)]) ∧
  (let c : CoreId := 1; let k : BitVec 12 := 0; let w : BitVec 12 := 0; let i : Instr := .kweGen c k w; let n : Nat := 1; let s : State := kweS 0 none; s.flag F.KWE_LOCK_HELD = true ∧ s.fld F.KWE_LOCK_OWNER = c.val ∧ s.flag F.KWE_STAT_BUSY = false ∧ (i, n) ∈ [(Instr.kweGen c k w, 1), (.kweWrap c k w, 2), (.kweUnwrap c k w, 3), (.kweZero c k w, 4), (.kweSeal c k w, 5), (.kweUnseal c k w, 6)]) ∧
  (let c : CoreId := 1; let k := 0; let w := 0; let o : KweOp := ⟨1, 0, 0, 0, 0, 1⟩; let s : State := kweS 1 (some ⟨1, 0, 0, 0, 0, 1⟩); s.sec.op = some o ∧ o.slot < 4096 ∧ o.op = 1) ∧
  (let c : CoreId := 1; let k := 0; let w := 0; let o : KweOp := ⟨2, 0, 0, 0, 0, 1⟩; let s : State := kweS 1 (some ⟨2, 0, 0, 0, 0, 1⟩); s.sec.op = some o ∧ o.slot < 4096 ∧ o.op = 2) ∧
  (let c : CoreId := 1; let k := 0; let w := 0; let o : KweOp := ⟨3, 0, 0, 0, 0, 1⟩; let s : State := kweS 1 (some ⟨3, 0, 0, 0, 0, 1⟩); s.sec.op = some o ∧ o.slot < 4096 ∧ o.op = 3) ∧
  (let c : CoreId := 1; let k := 0; let w := 0; let o : KweOp := ⟨5, 0, 0, 0, 0, 1⟩; let s : State := kweS 1 (some ⟨5, 0, 0, 0, 0, 1⟩); s.sec.op = some o ∧ o.slot < 4096 ∧ o.op = 5) ∧
  (let c : CoreId := 1; let k := 0; let w := 0; let o : KweOp := ⟨6, 0, 0, 0, 0, 1⟩; let s : State := kweS 1 (some ⟨6, 0, 0, 0, 0, 1⟩); s.sec.op = some o ∧ o.slot < 4096 ∧ o.op = 6) ∧
  (let c : CoreId := 1; let k := 0; let w := 0; let o : KweOp := ⟨4, 0, 0, 0, 0, 1⟩; let s : State := kweS 1 (some ⟨4, 0, 0, 0, 0, 1⟩); s.sec.op = some o ∧ o.slot < 4096 ∧ o.op = 4) ∧
  (let c : CoreId := 1; let k := 0; let w := 0; let o : KweOp := ⟨1, 0, 0, 0, 0, 1⟩; let s : State := ((fun (s : State) => ({ s with sec := { s.sec with keys := [(0, 5)] } } : State)) (kweS 1 (some ⟨1, 0, 0, 0, 0, 1⟩))); s.sec.op = some o ∧ s.slotFull o.slot = true ∧ o.op = 1 ∧ s.huskLost = false) ∧
  (let c : CoreId := 1; let k := 0; let w := 0; let o : KweOp := ⟨1, 0, 0, 0, 0, 1⟩; let s : State := ((fun (s : State) => ({ s with sec := { s.sec with keys := [(0, 5)] } } : State)) (kweS 1 (some ⟨1, 0, 0, 0, 0, 1⟩))).setFld F.MRM_BANKSTAT_FAILED 12; s.sec.op = some o ∧ s.slotFull o.slot = true ∧ (o.op = 1 ∨ o.op = 2) ∧ s.huskLost = true) ∧
  (let c : CoreId := 1; let k := 0; let w := 0; let o : KweOp := ⟨3, 0, 0, 0, 0, 1⟩; let s : State := ((fun (s : State) => ({ s with sec := { s.sec with keys := [(0, 5)] } } : State)) (kweS 1 (some ⟨3, 0, 0, 0, 0, 1⟩))); s.sec.op = some o ∧ s.slotFull o.slot = true ∧ o.op = 3) ∧
  (let c : CoreId := 1; let k := 0; let w := 0; let v : W64 := 0; v.getLsbD 20 = false ∧ v.getLsbD 52 = false) ∧
  (let c : CoreId := 1; let k := 0; let w := 0; let v : W64 := 0x100000; let n : Fin 1024 := 1; let s : State := keyed (zn .iopen 0) (zslot 1); (v.getLsbD 20 = true → s.ownerCheck (bits v.toNat 0 12) (bits v.toNat 21 7) n.val (bits v.toNat 12 8) = true) ∧ (v.getLsbD 52 = true → s.ownerCheck (bits v.toNat 32 12) (bits v.toNat 21 7) n.val (bits v.toNat 44 8) = true)) ∧
  (let c : CoreId := 1; let k := 0; let w := 0; let s : State := State.reset; let n : Fin 1024 := 0; let v : W64 := 0x100000; v.getLsbD 20 = true ∧ s.ownerCheck (bits v.toNat 0 12) (bits v.toNat 21 7) n.val (bits v.toNat 12 8) = false) ∧
  (let c : CoreId := 1; let k := 0; let w := 0; let s : State := State.reset.setFld F.SEC_TRNGSTAT_KEYBLK 0; s.flag F.SEC_TRNGSTAT_KEYBLK = false) ∧
  (let c : CoreId := 1; let k := 0; let w := 0; let s : State := State.reset.setFld F.SEC_TRNGSTAT_KEYBLK 1; s.flag F.SEC_TRNGSTAT_KEYBLK = true) ∧
  (let c : CoreId := 1; let k := 0; let w := 0; let s : State := State.reset; (∀ w, w ∈ s.hif.nmWait → s.now < w.since + 1000000000)) := by
  refine ⟨?c1, ?c2, ?c3, ?c4, ?c5, ?c6, ?c7, ?c8, ?c9, ?c10, ?c11, ?c12, ?c13, ?c14, ?c15, ?c16, ?c17, ?c18, ?c19, ?c20, ?c21, ?c22, ?c23⟩
  all_goals decide +kernel

theorem witness_dram_and_dma :
  (let d : Fin 2 := 0; let c : Fin 4 := 0; let i : Instr := .dmaCopy d c; let s : State := State.reset; let n : Nat := 0; s.flag (F.DMC_DMACTL_BUSY d.val c.val) = false ∧ s.flag (F.DMC_DMACTL_HALT d.val c.val) = false ∧ (i, n) ∈ [(Instr.dmaCopy d c, 0), (.dmaFill d c, 1), (.dmaCheck d c, 2)]) ∧
  (let d : Fin 2 := 0; let c : Fin 4 := 0; let s : State := State.reset.setFld (F.DMC_DMACTL_BUSY 0 0) 1; (s.flag (F.DMC_DMACTL_BUSY d.val c.val) = true ∨ s.flag (F.DMC_DMACTL_HALT d.val c.val) = true)) ∧
  (let d : Fin 2 := 0; let c : Fin 4 := 0; let r : DmaRun := ⟨0, 0, 0, 0⟩; let s : State := dmaS ⟨0, 0, 0, 0⟩; Tab.find s.dram.dma (d.val * 4 + c.val) = some r ∧ r.len < 64) ∧
  (let d : Fin 2 := 0; let c : Fin 4 := 0; let r : DmaRun := ⟨0, 0, 0, 64⟩; let s : State := dmaS ⟨0, 0, 0, 64⟩; Tab.find s.dram.dma (d.val * 4 + c.val) = some r ∧ 64 ≤ r.len ∧ r.op ≠ 1 ∧ s.region r.src ≠ .dram) ∧
  (let d : Fin 2 := 0; let c : Fin 4 := 0; let r : DmaRun := ⟨1, 0, 0, 64⟩; let s : State := dmaS ⟨1, 0, 0, 64⟩; Tab.find s.dram.dma (d.val * 4 + c.val) = some r ∧ 64 ≤ r.len ∧ r.op = 1 ∧ s.region r.dst ≠ .dram) ∧
  (let d : Fin 2 := 0; let c : Fin 4 := 0; let bad : List (BitVec 40) := []; let r : DmaRun := ⟨0, 0x1010000000, 0x1000000000, 64⟩; let s : State := ((dmaS ⟨0, 0x1010000000, 0x1000000000, 64⟩).setFld F.ZNE_GEOM_LOCK 1).setFld F.ZNE_ZMBASE_BASE 0x8000; Tab.find s.dram.dma (d.val * 4 + c.val) = some r ∧ 64 ≤ r.len ∧ r.op = 0 ∧ s.region r.src = .dram ∧ s.region r.dst = .dram ∧ s.blocked r.src = false ∧ s.blocked r.dst = false ∧ bad = [] ∧ s.poisoned r.src 64 = false ∧ s.guarded r.dst = true) ∧
  (let d : Fin 2 := 0; let c : Fin 4 := 0; let r : DmaRun := ⟨0, 0x1010000000, 0x1000000000, 64⟩; let s : State := dmaS ⟨0, 0x1010000000, 0x1000000000, 64⟩; Tab.find s.dram.dma (d.val * 4 + c.val) = some r ∧ s.Inv ∧ r.op = 0 ∧ 64 ≤ r.len ∧ r.len < 128 ∧ s.region r.src = .dram ∧ s.region r.dst = .dram ∧ s.blocked r.src = false ∧ s.blocked r.dst = false ∧ s.poisoned r.src 64 = false ∧ s.guarded r.src = false ∧ s.guarded r.dst = false) ∧
  (let d : Fin 2 := 0; let c : Fin 4 := 0; let r : DmaRun := ⟨1, 0, 0x1000000000, 64⟩; let s : State := dmaS ⟨1, 0, 0x1000000000, 64⟩; Tab.find s.dram.dma (d.val * 4 + c.val) = some r ∧ s.Inv ∧ r.op = 1 ∧ 64 ≤ r.len ∧ r.len < 128 ∧ s.region r.dst = .dram ∧ s.blocked r.dst = false) ∧
  (let d := 0; let c : CoreId := 0; let a : BitVec 40 := 0x1000000000; let n : Fin 5 := 0; let s : State := dmaS ⟨0, 0, 0, 0⟩; s.region (a.toNat / 64 * 64) = .dram ∧ s.fld F.AON_PSSTAT_CUR < 2 ∧ s.blocked (a.toNat / 64 * 64) = false ∧ s.poisoned (a.toNat / 64 * 64) 64 = false ∧ n = 0) ∧
  (let d := 0; let c : CoreId := 0; let a : BitVec 40 := 0x1000000000; let n : Fin 5 := 1; let s : State := dmaS ⟨0, 0, 0, 0⟩; s.region (a.toNat / 64 * 64) = .dram ∧ s.fld F.AON_PSSTAT_CUR < 2 ∧ s.blocked (a.toNat / 64 * 64) = false ∧ s.poisoned (a.toNat / 64 * 64) 64 = false ∧ n ≠ 0) ∧
  (let d := 0; let c : CoreId := 0; let a : BitVec 40 := 0x1000000000; let s : State := dmaS ⟨0, 0, 0, 0⟩; s.region (a.toNat / 64 * 64) = .dram ∧ s.fld F.AON_PSSTAT_CUR < 2 ∧ s.blocked (a.toNat / 64 * 64) = false ∧ s.poisoned (a.toNat / 64 * 64) 64 = false ∧ s.inTable (a.toNat / 64 * 64) = false) ∧
  (let d : Fin 2 := 0; let c : CoreId := 0; let v : BitVec 4 := 1; let s : State := State.reset; s.flag (F.DMC_CFG_LOCK d.val) = false ∧ cfgPart d.val v.toNat = true ∧ s.flag (F.DMC_CFG_LOCK (1 - d.val)) = false) ∧
  (let d : Fin 2 := 0; let c : CoreId := 0; let s : State := dmaS ⟨0, 0, 0, 0⟩; let v : BitVec 4 := 15; (s.flag (F.DMC_CFG_LOCK d.val) = true ∨ cfgPart d.val v.toNat = false)) ∧
  (let d : Fin 2 := 0; let c : CoreId := 0; let ms : List MergeLine := []; let s : State := { dmaS ⟨0, 0, 0, 0⟩ with dram := { (dmaS ⟨0, 0, 0, 0⟩).dram with merge := [(0, [])] } }; Tab.find s.dram.merge d.val = some ms) := by
  refine ⟨?c1, ?c2, ?c3, ?c4, ?c5, ?c6, ?c7, ?c8, ?c9, ?c10, ?c11, ?c12, ?c13, ?c14⟩
  all_goals decide +kernel

theorem witness_power_modes :
  (let m : Fin 4 := 0; let s : State := State.reset; s.flag F.AON_PSSTAT_BUSY = false ∧ m.val = s.fld F.AON_PSSTAT_CUR) ∧
  (let s : State := State.reset.setFld F.AON_PSSTAT_BUSY 1; s.flag F.AON_PSSTAT_BUSY = true ∧ s.fld F.AON_PSTATE_REQ_MODE = s.fld F.AON_PSSTAT_TGT) ∧
  (let s : State := (State.reset.setFld F.AON_PSSTAT_BUSY 1).setFld F.AON_PSTATE_REQ_MODE 1; s.flag F.AON_PSSTAT_BUSY = true ∧ s.fld F.AON_PSTATE_REQ_MODE ≠ s.fld F.AON_PSSTAT_TGT) ∧
  (let s : State := State.reset; let m : Fin 4 := 1; s.flag F.AON_PSSTAT_BUSY = false ∧ m.val < 2 ∧ m.val ≠ s.fld F.AON_PSSTAT_CUR ∧ s.fld F.AON_PSSTAT_CUR < 2) ∧
  (let m : Fin 4 := 2; let s : State := State.reset.setFld F.AON_VETO_CORE 1; let r : Nat := (((s.setFld F.AON_PSTATE_REQ_MODE m.val).bump F.AON_PS_ATTEMPT_COUNT).refusers m.val).headD 0; let rs : List Nat := (((s.setFld F.AON_PSTATE_REQ_MODE m.val).bump F.AON_PS_ATTEMPT_COUNT).refusers m.val).tail; s.flag F.AON_PSSTAT_BUSY = false ∧ s.fld F.AON_PSSTAT_CUR < m.val ∧ ((s.setFld F.AON_PSTATE_REQ_MODE m.val).bump F.AON_PS_ATTEMPT_COUNT).refusers m.val = r :: rs) ∧
  (let s : State := State.reset; s.flag F.AON_PSSTAT_BUSY = false) ∧
  (let s : State := ((mz State.reset fun z => { z with bufs := [(0, buf0)] }).setFld F.AON_PSSTAT_BUSY 1).setFld F.AON_PSSTAT_TGT 3; s.flag F.AON_PSSTAT_BUSY = true ∧ s.fld F.AON_PSSTAT_TGT = 3 ∧ s.deepReady = false) ∧
  (let s : State := ((State.reset.setFld F.AON_PSSTAT_BUSY 1).setFld F.AON_PSSTAT_TGT 2).setFld F.AON_PSTATE_REQ_MODE 2; s.flag F.AON_PSSTAT_BUSY = true ∧ s.fld F.AON_PSSTAT_TGT = 2 ∧ s.fld F.AON_PSTATE_REQ_MODE = 2 ∧ s.fld F.AON_PSSTAT_CUR < 3 ∧ s.power.exiting = false ∧ s.power.wake = false) ∧
  (let s : State := (State.reset.setFld F.AON_PSSTAT_BUSY 1).setFld F.AON_PSSTAT_CUR 2; s.flag F.AON_PSSTAT_BUSY = true ∧ s.fld F.AON_PSSTAT_TGT = 0 ∧ s.fld F.AON_PSTATE_REQ_MODE = 0 ∧ s.fld F.AON_PSSTAT_CUR = 2) ∧
  (let s : State := ((State.reset.setFld F.AON_PSSTAT_BUSY 1).setFld F.AON_PSSTAT_TGT 1).setFld F.AON_PSTATE_REQ_MODE 1; s.flag F.AON_PSSTAT_BUSY = true ∧ s.fld F.AON_PSSTAT_TGT = 1 ∧ s.fld F.AON_PSTATE_REQ_MODE = 1 ∧ s.fld F.AON_PSSTAT_CUR < 2 ∧ s.power.exiting = false) ∧
  (let src : WakeSource := .timer; let s : State := State.reset.setFld F.AON_PSSTAT_CUR 2; (¬(src = .vukoro ∧ s.isMember = false)) ∧ s.flag F.AON_PSSTAT_BUSY = false ∧ s.fld F.AON_PSSTAT_CUR = 2) ∧
  (let s : State := State.reset; let src : WakeSource := .timer; (¬(src = .vukoro ∧ s.isMember = false)) ∧ s.flag F.AON_PSSTAT_BUSY = false ∧ s.fld F.AON_PSSTAT_CUR < 2) ∧
  (let src : WakeSource := .timer; let s : State := (State.reset.setFld F.AON_PSSTAT_BUSY 1).setFld F.AON_PSSTAT_TGT 2; (¬(src = .vukoro ∧ s.isMember = false)) ∧ s.flag F.AON_PSSTAT_BUSY = true ∧ 2 ≤ s.fld F.AON_PSSTAT_TGT) ∧
  (let src : WakeSource := .timer; let s : State := State.reset.setFld F.AON_PSSTAT_CUR 3; let df : Option Bool := some true; let c : Bool := true; (¬(src = .vukoro ∧ s.isMember = false)) ∧ s.flag F.AON_PSSTAT_BUSY = false ∧ s.fld F.AON_PSSTAT_CUR = 3 ∧ df = some c) ∧
  (let s : State := { State.reset.setWord R.AON_WAKEAT 5 with now := 10 }; (s.word R.AON_WAKEAT).toNat ≠ 0 ∧ (s.word R.AON_WAKEAT).toNat ≤ s.now) ∧
  (let s : State := { (State.reset.setWord R.AON_WAKEAT 5).setWord R.AON_AGEAT 5 with now := 0 }; s.now < (s.word R.AON_WAKEAT).toNat ∧ s.now < (s.word R.AON_AGEAT).toNat) ∧
  (let s : State := State.reset; let v : BitVec 10 := 0; (v.toNat < 650 ∨ 850 < v.toNat ∨ s.fld F.AON_AVSSTAT_VCUR + 5 < v.toNat ∨ v.toNat + 5 < s.fld F.AON_AVSSTAT_VCUR ∨ s.now < s.power.avsLast + 100000)) ∧
  (let v : BitVec 10 := 701; let s : State := { (State.reset.setFld F.AON_AVSSTAT_VCUR 700).setFld F.AON_AVSCFG_EN 1 with now := 1000000000 }; 650 ≤ v.toNat ∧ v.toNat ≤ 850 ∧ s.fld F.AON_AVSSTAT_VCUR < v.toNat ∧ v.toNat ≤ s.fld F.AON_AVSSTAT_VCUR + 5 ∧ s.power.avsLast + 100000 ≤ s.now ∧ s.flag F.AON_AVSCFG_EN = true) ∧
  (let m := 0; let v : BitVec 10 := 699; let s : State := { ((State.reset.setFld F.AON_AVSSTAT_VCUR 700).setFld F.AON_AVSCFG_EN 0).setFld F.AON_AVSCFG_VFIX 690 with now := 1000000000 }; 650 ≤ v.toNat ∧ v.toNat ≤ 850 ∧ v.toNat < s.fld F.AON_AVSSTAT_VCUR ∧ s.fld F.AON_AVSSTAT_VCUR ≤ v.toNat + 5 ∧ s.power.avsLast + 100000 ≤ s.now ∧ s.fld F.AON_PSSTAT_CUR < 2 ∧ ((s.flag F.AON_AVSCFG_EN = true ∧ ∀ m, s.roscMargin = some m → 0 ≤ m) ∨ (s.flag F.AON_AVSCFG_EN = false ∧ s.fld F.AON_AVSCFG_VFIX ≤ v.toNat))) ∧
  (let v : BitVec 10 := 701; let s : State := ((State.reset.setFld F.AON_AVSSTAT_VCUR 700).setFld F.AON_AVSCFG_EN 0).setFld F.AON_AVSCFG_VFIX 690; s.flag F.AON_AVSCFG_EN = false ∧ ((s.fld F.AON_AVSSTAT_VCUR < v.toNat ∧ s.fld F.AON_AVSCFG_VFIX < v.toNat) ∨ (v.toNat < s.fld F.AON_AVSSTAT_VCUR ∧ v.toNat < s.fld F.AON_AVSCFG_VFIX))) ∧
  (let s : State := { State.reset with pins := { State.reset.pins with pwrcap := true } }; s.pins.pwrcap = true) ∧
  (let s : State := { State.reset with pins := { State.reset.pins with pwrcap := false } }; s.pins.pwrcap = false) ∧
  (let i : Nat := 0; let n : Nat := 3; let s : State := { State.reset with mgt := { State.reset.mgt with hot := [(0, 3)] } }; s.mgt.hot.find? (fun e => decide (3 ≤ e.2)) = some (i, n)) ∧
  (let s : State := State.reset.setFld F.AON_PSSTAT_CUR 3; s.fld F.AON_PSSTAT_CUR = 3) ∧
  (let s : State := State.reset; s.fld F.AON_PSSTAT_CUR ≠ 3) ∧
  (let l : PowerLoss := ⟨.pli, 0, 0⟩; let s : State := (fun (s : State) => ({ s with power := { s.power with loss := some ⟨.pli, 0, 0⟩ } } : State)) (die0 { Die.empty with queue := [op0] }); s.power.loss = some l ∧ s.power.heldReset = false ∧ s.programsLeft = true) ∧
  (let l : PowerLoss := ⟨.pli, 0, 0⟩; let s : State := { State.reset with power := { State.reset.power with loss := some ⟨.pli, 0, 0⟩ } }; s.power.loss = some l ∧ s.power.heldReset = false ∧ s.programsLeft = false) ∧
  (let v : W32 := 0; (bits v.toNat 24 8 = 0 ∨ 168 < bits v.toNat 24 8)) ∧
  (let v : W32 := 0x01000000; bits v.toNat 24 8 ≠ 0 ∧ bits v.toNat 24 8 ≤ 168) := by
  refine ⟨?c1, ?c2, ?c3, ?c4, ?c5, ?c6, ?c7, ?c8, ?c9, ?c10, ?c11, ?c12, ?c13, ?c14, ?c15, ?c16, ?c17, ?c18, ?c19, ?c20, ?c21, ?c22, ?c23, ?c24, ?c25, ?c26, ?c27, ?c28, ?c29⟩
  case c19 => exact ⟨by decide +kernel, by decide +kernel, by decide +kernel, by decide +kernel, by decide +kernel, by decide +kernel, Or.inr (by decide +kernel)⟩
  all_goals decide +kernel

theorem witness_cascade_links :
  (let v : Fin 2 := 0; let s : State := (((casS 1 fun c => c).setFld (F.ISL_CLKSTAT_SRCACT 0x0E) 1).setFld (F.MGT_VMON_MV 6)) ((casS 1 fun c => c).fld (F.MGT_VLIM_LO 6)); s.flag (F.ISL_CLKSTAT_SRCACT (0x0E + v.val)) = true ∧ s.flag (F.VUK_LINKCFG_LTEN v.val) = false ∧ s.inCascade = true ∧ s.railOk 6 = true) ∧
  (let v : Fin 2 := 0; let s : State := State.reset.setFld (F.VUK_LINKCFG_LTEN 0) 1; s.flag (F.VUK_LINKCFG_LTEN v.val) = true) ∧
  (let v : Fin 2 := 0; let s : State := vukS .training 1000000000; ((((s.vp v.val).st = .training ∨ (s.vp v.val).st = .hello) ∧ (s.vp v.val).since + 100000000 ≤ s.now) ∨ ((s.vp v.val).st = .retry ∧ (s.vp v.val).since + 1000000000 ≤ s.now))) ∧
  (let v : Fin 2 := 0; let s : State := vukS .retry 0; (s.vp v.val).st = .retry ∧ s.now < (s.vp v.val).since + 1000000000) ∧
  (let v : Fin 2 := 0; let s : State := vukS .training 0; (s.vp v.val).st = .training) ∧
  (let v : Fin 2 := 0; let s : State := (vukS .training 0).setFld (F.VUK_LINKCFG_W4OK 0) 0; (s.vp v.val).st = .training ∧ s.flag (F.VUK_LINKCFG_W4OK v.val) = false) ∧
  (let v : Fin 2 := 0; let s : State := (vukS .training 0).setFld (F.VUK_LINKCFG_W4OK 0) 1; (s.vp v.val).st = .training ∧ s.flag (F.VUK_LINKCFG_W4OK v.val) = true) ∧
  (let v : Fin 2 := 0; let s : State := State.reset; (s.vp v.val).st ≠ .training) ∧
  (let v : Fin 2 := 0; let s : State := State.reset; (s.vp v.val).st ≠ .hello) ∧
  (let v : Fin 2 := 0; let s : State := vukS .hello 0; (s.vp v.val).st = .hello) ∧
  (let v : Fin 2 := 0; let s : State := vukS .hello 0; (s.vp v.val).st = .hello) ∧
  (let v : Fin 2 := 0; let s : State := vukS .hello 0; (s.vp v.val).st = .hello ∧ s.isMaster = false ∧ s.isMember = false) ∧
  (let v : Fin 2 := 0; let s : State := (vukS .hello 0).setFld (F.VUK_LINKSTAT_UP 0) 0; (s.vp v.val).st = .hello ∧ s.flag (F.VUK_LINKSTAT_UP v.val) = false) ∧
  (let v : Fin 2 := 0; let s : State := vukS .up 3600000000000; (s.vp v.val).st = .up ∧ (s.vp v.val).keyed + 3600000000000 ≤ s.now) ∧
  (let v : Fin 2 := 0; let q : W32 := 0; let s : State := vukS .up 0; (s.vp v.val).st = .up ∧ q.toNat = (s.vp v.val).rxSeq) ∧
  (let v : Fin 2 := 0; let q : W32 := 1; let s : State := vukS .up 0; (s.vp v.val).st = .up ∧ q.toNat ≠ (s.vp v.val).rxSeq) ∧
  (let v : Fin 2 := 0; let s : State := State.reset; (s.vp v.val).st ≠ .up) ∧
  (let v : Fin 2 := 0; let s : State := vukS .up 0; s.flag (F.VUK_LINKSTAT_UP v.val) = true) ∧
  (let v : Fin 2 := 0; let s : State := State.reset; s.flag (F.VUK_LINKSTAT_UP v.val) = false) := by
  refine ⟨?c1, ?c2, ?c3, ?c4, ?c5, ?c6, ?c7, ?c8, ?c9, ?c10, ?c11, ?c12, ?c13, ?c14, ?c15, ?c16, ?c17, ?c18, ?c19⟩
  all_goals decide +kernel

theorem witness_cascade_protocol :
  (let v : Fin 2 := 0; let id : W64 := 0; let cs : List (Fin 4 × W64) := []; let s : State := casS 1 fun c => c; s.flag (F.VUK_LINKSTAT_UP v.val) = true ∧ s.isMaster = true ∧ id.toNat = s.casc.id) ∧
  (let v : Fin 2 := 0; let cs : List (Fin 4 × W64) := []; let id : W64 := 1; let s : State := casS 1 fun c => { c with id := 0 }; s.flag (F.VUK_LINKSTAT_UP v.val) = true ∧ s.isMaster = true ∧ id.toNat ≠ s.casc.id) ∧
  (let v : Fin 2 := 0; let cs : List (Fin 4 × W64) := []; let id : W64 := 1; let s : State := casS 2 fun c => { c with id := 0 }; let n : Nat := 1; let c := cs.map fun c => (c.1.val, c.2.toNat); s.flag (F.VUK_LINKSTAT_UP v.val) = true ∧ s.isMember = true ∧ s.isMaster = false ∧ s.enumId id.toNat c = some n) ∧
  (let id : Nat := 0; let s : State := casS 0 fun c => { c with id := 5 }; s.casc.id ≠ id) ∧
  (let nodes : List NodeInfo := []; let x := 1000; let s : State := casS 2 fun c => { c with admitted := true }; s.isMaster = false ∧ s.isMember = true ∧ s.casc.admitted = true) ∧
  (let s : State := State.reset; s.isMaster = false ∧ (s.isMember = false ∨ s.casc.admitted = false)) ∧
  (let s : State := State.reset; let n : Fin 4 := 1; (s.isMaster = false ∨ (s.node n.val).admitted = false)) ∧
  (let n : Fin 4 := 1; let s : State := nodeS 0 0; s.isMaster = true ∧ (s.node n.val).admitted = true) ∧
  (let s : State := nodeS 0 1000000000; s.isMaster = true ∧ s.casc.csync / 1000000000 < s.now / 1000000000) ∧
  (let sec : W32 := 1; let s : State := casS 2 fun c => c; s.isMaster = false ∧ s.isMember = true ∧ 1 ≤ sec.toNat) ∧
  (let s : State := casS 1 fun c => c; s.isMaster = true) ∧
  (let x : W64 := 1000; let s : State := casS 2 fun c => c; s.isMaster = false ∧ s.isMember = true ∧ 1000 ≤ x.toNat) ∧
  (let s : State := State.reset; (s.isMember = false ∨ s.casc.admitted = false)) ∧
  (let tag : W32 := 0; let m : Nat := 0; let s : State := tagS [⟨0, none⟩]; s.isMember = true ∧ s.casc.admitted = true ∧ s.boot.started = true ∧ s.noFetch = false ∧ s.casc.tags.find? (fun t => t.tag == fwdKey .io tag.toNat) = some ⟨m, none⟩) ∧
  (let tag : W32 := 0; let m : Nat := 0; let c : Cpl := ⟨0, 0, 0, .success, 0, 0, [], []⟩; let s : State := tagS [⟨0, some ⟨0, 0, 0, .success, 0, 0, [], []⟩⟩]; s.isMember = true ∧ s.casc.admitted = true ∧ s.boot.started = true ∧ s.noFetch = false ∧ s.casc.tags.find? (fun t => t.tag == fwdKey .io tag.toNat) = some ⟨m, some c⟩) ∧
  (let tag : W32 := 0; let s : State := tagS []; s.isMember = true ∧ s.casc.admitted = true ∧ s.boot.started = true ∧ s.noFetch = false ∧ s.casc.tags.find? (fun t => t.tag == fwdKey .io tag.toNat) = none) ∧
  (let tag : W32 := 0; let a : AdmFwd := ⟨0, ent 0 0 0, 1⟩; let s : State := casS 1 fun c => { c with adm := [(0, ⟨0, ent 0 0 0, 1⟩)] }; Tab.find s.casc.adm (tag.toNat % 65536) = some a) ∧
  (let x := 1000; let tag : W32 := 0; let bl : List (W64 × Blk × Hmd) := []; let f : Fwd := ⟨0, 0, 0⟩; let s : State := casS 1 fun c => { c with fwd := [(0, ⟨0, 0, 0⟩)] }; Tab.find s.casc.fwd tag.toNat = some f) ∧
  (let tag : W32 := 0; let f : Fwd := ⟨0, 0, 0⟩; let s : State := casS 1 fun c => { c with fwd := [(0, ⟨0, 0, 0⟩)] }; Tab.find s.casc.fwd tag.toNat = some f) ∧
  (let s : State := State.reset; s.casc.fwd = [] ∧ s.casc.adm = []) ∧
  (let n : Fin 4 := 1; let d : Fin 2 := 0; let s : State := nodeS 0 0; bit (s.node n.val).reach d.val = false) ∧
  (let n : Fin 4 := 1; let d : Fin 2 := 0; let s : State := nodeS 1 0; bit (s.node n.val).reach d.val = true ∧ clrBit (s.node n.val).reach d.val = 0 ∧ s.isMember = false) ∧
  (let n : Fin 4 := 1; let s : State := nodeS 0 1000000000000; s.isMaster = true ∧ n ≠ 0 ∧ (s.node n.val).admitted = true ∧ (s.node n.val).lost = false ∧ (s.node n.val).reach = 0 ∧ (s.node n.val).since + s.lossTime ≤ s.now) ∧
  (let n : Fin 4 := 1; let s : State := nodeS 1 0; s.isMaster = true ∧ n ≠ 0 ∧ (s.node n.val).admitted = true ∧ (s.node n.val).lost = false ∧ (s.node n.val).reach ≠ 0) ∧
  (let t0 : Nat := 0; let s : State := { casS 2 fun c => { c with cutSince := some 0 } with now := 1000000000000 }; s.casc.cutSince = some t0 ∧ s.isMember = true ∧ s.casc.orphan = false ∧ t0 + s.lossTime ≤ s.now) ∧
  (let t0 : Nat := 0; let s : State := { (casS 2 fun c => { c with cutSince := some 0 }).setFld F.VUK_CASCCFG_LOSSTO 100 with now := 0 }; s.casc.cutSince = some t0 ∧ s.now < t0 + s.lossTime) := by
  refine ⟨?c1, ?c2, ?c3, ?c4, ?c5, ?c6, ?c7, ?c8, ?c9, ?c10, ?c11, ?c12, ?c13, ?c14, ?c15, ?c16, ?c17, ?c18, ?c19, ?c20, ?c21, ?c22, ?c23, ?c24, ?c25, ?c26⟩
  all_goals decide +kernel

theorem witness_management_bus_and_recorder :
  (let s : State := State.reset.setFld F.MGT_MBCFG_I3CEN 1; s.flag F.MGT_MBCFG_I3CEN = true ∧ s.fld F.MGT_MBSTAT_MODE = 0) ∧
  (let s : State := State.reset.setFld F.MGT_MBCFG_I3CEN 0; (s.flag F.MGT_MBCFG_I3CEN = false ∨ s.fld F.MGT_MBSTAT_MODE ≠ 0)) ∧
  (let s : State := State.reset.setFld F.MGT_MBCFG_I3CEN 1; s.flag F.MGT_MBCFG_I3CEN = true ∧ s.fld F.MGT_MBSTAT_MODE ≠ 2) ∧
  (let s : State := (State.reset.setFld F.MGT_MBCFG_SMBEN 1).setFld F.MGT_MBCFG_ARPEN 1; s.flag F.MGT_MBCFG_SMBEN = true ∧ s.flag F.MGT_MBCFG_ARPEN = true ∧ s.fld F.MGT_MBSTAT_MODE ≠ 1) ∧
  (let s : State := State.reset.setFld F.MGT_MBCFG_SMBEN 1; s.flag F.MGT_MBCFG_SMBEN = true ∧ s.fld F.MGT_MBSTAT_MODE = 0) ∧
  (let b : Fin 4 := 0; let e : BitVec 8 := 9; let s : State := linkS; s.bindingUp b.val = true ∧ e ≠ 0 ∧ e ≠ 0xFF) ∧
  (let s : State := State.reset; let c : CoreId := 0; let w := fun i => Tab.getD s.evr.stage (stageKey (.core c) i) 0; bits (w 0) 0 16 = 0) ∧
  (let c : CoreId := 0; let s : State := evS 0 fun r => { r with stage := [(stageKey (.core 0) 0, 5)] }; let w := fun i => Tab.getD s.evr.stage (stageKey (.core c) i) 0; bits (w 0) 0 16 ≠ 0 ∧ s.gated 2 = false) ∧
  (let isl : Isl := 1; let e : Event := event0 4; let rest : List Event := []; let s : State := evS 0 fun r => { r with ready := true, transit := [event0 4] }; s.evr.ready = true ∧ s.gated 2 = false ∧ takeFrom isl.val s.evr.transit = some (e, rest) ∧ e.bits ≤ 88 ∧ (e.exempt = true ∨ Tab.getD s.evr.placed e.src 0 + 1 ≤ s.fld F.MGT_EVCFG_RLIM)) ∧
  (let isl : Isl := 1; let e : Event := event0 1; let rest : List Event := []; let s : State := (evS 0 fun r => { r with ready := true, transit := [event0 1] }).setFld F.MGT_EVCFG_RLIM 0; s.evr.ready = true ∧ s.gated 2 = false ∧ takeFrom isl.val s.evr.transit = some (e, rest) ∧ e.bits ≤ 88 ∧ e.exempt = false ∧ s.fld F.MGT_EVCFG_RLIM < Tab.getD s.evr.placed e.src 0 + 1) ∧
  (let isl : Isl := 1; let e : Event := event0 4; let rest : List Event := []; let ts : List Event := [event0 4]; takeFrom isl.val ts = some (e, rest)) ∧
  (let b : Nat := 0; let s : State := evS 0 fun r => { r with flushTo := some 0 }; s.evr.flushTo = some b) ∧
  (let s : State := State.reset; s.evr.flushTo = none) ∧
  (let f : Freeze := ⟨0, 0⟩; let s : State := evS 100000000000000 fun r => { r with freeze := some ⟨0, 0⟩ }; s.evr.freeze = some f ∧ f.since + s.fld F.MGT_EVCFG_FRZTO * 1000000000 ≤ s.now) ∧
  (let f : Freeze := ⟨0, 0⟩; let s : State := (evS 0 fun r => { r with freeze := some ⟨0, 0⟩ }).setFld F.MGT_EVCFG_FRZTO 1; s.evr.freeze = some f ∧ s.now < f.since + s.fld F.MGT_EVCFG_FRZTO * 1000000000) ∧
  (let s : State := evS 5000000 id; s.gated 2 = false ∧ s.evr.win < s.now / 1000000) ∧
  (let s : State := State.reset; (s.gated 2 = true ∨ s.now / 1000000 ≤ s.evr.win)) := by
  refine ⟨?c1, ?c2, ?c3, ?c4, ?c5, ?c6, ?c7, ?c8, ?c9, ?c10, ?c11, ?c12, ?c13, ?c14, ?c15, ?c16, ?c17⟩
  all_goals decide +kernel

theorem witness_monitors_and_test :
  (let s : State := State.reset.setFld F.AON_PSSTAT_CUR 3; s.gated 2 = true) ∧
  (let s : State := State.reset; let ts : List (BitVec 32) := []; s.gated 2 = false) ∧
  (let s : State := State.reset; s.gated 2 = false) ∧
  (let r : Nat := 0; let v : BitVec 12 := 0; let s : State := State.reset.setFld (F.MGT_VLIM_LO 0) 5; r < 7 ∧ v.toNat < s.fld (F.MGT_VLIM_LO r)) ∧
  (let r : Nat := 0; let v : BitVec 12 := 7; let s : State := (State.reset.setFld (F.MGT_VLIM_LO 0) 5).setFld (F.MGT_VLIM_HI 0) 10; r < 7 ∧ s.fld (F.MGT_VLIM_LO r) ≤ v.toNat ∧ v.toNat ≤ s.fld (F.MGT_VLIM_HI r)) ∧
  (let s : State := State.reset; s.gated 2 = false) ∧
  (let s : State := testS; s.testMode = true) ∧
  (let s : State := testS; let i : Instr := .highz; let n : Nat := 3; s.testMode = true ∧ (i, n) ∈ [(Instr.highz, 3), (.clamp, 4), (.extestPulse, 5), (.extestTrain, 6)]) ∧
  (let s : State := State.reset; let i : Instr := .highz; s.testMode = false ∧ s.gated 2 = false ∧ i ∈ [Instr.highz, .clamp, .extestPulse, .extestTrain, .extest 0, .jtagMbist 0, .dbgaccess 0 3 none]) ∧
  (let a : BitVec 40 := 0x10000000; let s : State := testS; s.Inv ∧ s.testMode = true ∧ s.region a.toNat = .sram ∧ s.blocked a.toNat = false ∧ a.toNat % 8 = 0) ∧
  (let s : State := testS; s.testMode = true) ∧
  (let s : State := State.reset; let q : Requester := .jtag; let isl : BitVec 8 := 2; let m : BitVec 4 := 3; let b : BitVec 5 := 0; let u := ((s.setFld F.MGT_MBISTCTL_ISL isl.toNat).setFld F.MGT_MBISTCTL_MEM m.toNat).setFld F.MGT_MBISTCTL_BANK b.toNat; m.toNat ≤ 5 ∧ b.toNat ≤ 23 ∧ s.flag F.MGT_MBISTCTL_BUSY = false ∧ u.mbistOk q isl.toNat m.toNat b.toNat = true) ∧
  (let s : State := State.reset; let q : Requester := .jtag; let isl : BitVec 8 := 2; let b : BitVec 5 := 0; let m : BitVec 4 := 2; let u := ((s.setFld F.MGT_MBISTCTL_ISL isl.toNat).setFld F.MGT_MBISTCTL_MEM m.toNat).setFld F.MGT_MBISTCTL_BANK b.toNat; m.toNat ≤ 5 ∧ b.toNat ≤ 23 ∧ s.flag F.MGT_MBISTCTL_BUSY = false ∧ u.mbistOk q isl.toNat m.toNat b.toNat = false) ∧
  (let m : BitVec 4 := 3; let b : BitVec 5 := 0; let s : State := State.reset.setFld F.MGT_MBISTCTL_BUSY 1; m.toNat ≤ 5 ∧ b.toNat ≤ 23 ∧ s.flag F.MGT_MBISTCTL_BUSY = true) ∧
  (let b : BitVec 5 := 0; let m : BitVec 4 := 6; (5 < m.toNat ∨ 23 < b.toNat)) ∧
  (let s : State := State.reset.setFld F.MGT_MBISTCTL_BUSY 1; s.flag F.MGT_MBISTCTL_BUSY = true ∧ s.fld F.MGT_MBISTCTL_MEM ≠ 4) := by
  refine ⟨?c1, ?c2, ?c3, ?c4, ?c5, ?c6, ?c7, ?c8, ?c9, ?c10, ?c11, ?c12, ?c13, ?c14, ?c15, ?c16⟩
  all_goals decide +kernel

end Sys2Proof.Tests
end

section
/-! Accesses that R12 does not allow, and accesses of offsets where nothing lies. -/

namespace Sys2Proof.Machine

@[simp] theorem State.accessError_core (s : State) (c : CoreId) (store : Bool) (a : Nat) :
    s.accessError (.core c) store a = s.trap c.val (if store then .store else .load) a := rfl

@[simp] theorem State.portError_csr (s : State) (isl : Nat) : (s.portError isl).csr = s.csr := rfl

@[simp] theorem State.portError_traps (s : State) (isl : Nat) : (s.portError isl).traps = s.traps := rfl

/-- A core that runs may access every island. -/
theorem State.mayAccess_core {s : State} {c : CoreId} (isl : Nat) (hrun : s.coreRuns c) : s.mayAccess (.core c) isl = true :=
  congrArg (!·) hrun

/-- A running core's access of a wrong width or alignment traps, whether it fails for the island's power (R23), for its port (R22)
or for the access itself (R12), and no register changes. -/
theorem State.access_core_wrong_width_or_alignment {s : State} {c : CoreId} {isl off size : Nat} (store : Bool) (run : State → State)
    (hrun : s.coreRuns c) (hbad : size < 2 ∨ off % 2 ^ size ≠ 0) :
    (s.access (.core c) store isl off size run).csr = s.csr ∧
      (s.access (.core c) store isl off size run).traps =
        s.traps ++ [⟨c.val, if store then .store else .load, csrAddr isl off⟩] := by
  unfold State.access
  rw [if_neg (ne_false_of_eq_true (State.mayAccess_core isl hrun))]
  by_cases hgated : s.gated isl
  · simp only [if_pos hgated, accessError_core, trap_csr, trap_traps, portError_csr, portError_traps, and_self]
  · by_cases hisolated : s.fab.isolated.contains isl
    · simp only [if_neg hgated, if_pos hisolated, accessError_core, trap_csr, trap_traps, and_self]
    · simp only [if_neg hgated, if_neg hisolated, if_pos hbad, accessError_core, trap_csr, trap_traps, and_self]

/-- A write of two words that reaches its island, elsewhere than in the broadcast window. -/
theorem State.csrWrite_doubleword {s : State} {q : Requester} {isl off : Nat} (v : Nat) (h : s.reaches q isl off 3)
    (hb : ¬(isl = 0x30 ∧ 0x80000 ≤ off)) : s.csrWrite q isl off 3 v =
      (s.wordWrite q isl off (v % 2 ^ 32)).wordWrite q isl (off + 4) (v / 2 ^ 32 % 2 ^ 32) := by
  unfold State.csrWrite
  rw [State.access_run _ _ h]
  simp only [if_neg hb, if_neg (by decide : ¬(3 = 2))]

/-- A read of two words that reaches its island: the second word is read in the state the first one's read leaves. -/
theorem State.csrRead_doubleword {s t u : State} {q : Requester} {isl off lo hi : Nat} (h : s.reaches q isl off 3)
    (hlow : s.wordRead q isl off = (lo, t)) (hhigh : t.wordRead q isl (off + 4) = (hi, u)) :
    s.csrRead q isl off 3 = u.answer q (BitVec.ofNat 64 (lo + hi * 2 ^ 32)) := by
  unfold State.csrRead
  rw [State.access_run _ _ h]
  -- By rewriting alone: a `dsimp only` of the two matches costs the kernel a deep recursion.
  rw [hlow]
  refine (if_neg (by decide : ¬(3 = 2))).trans ?_
  rw [hhigh]

/-- A word read where nothing lies answers 0 and leaves the state (R12). -/
theorem State.wordRead_empty (s : State) (q : Requester) {isl off : Nat} (h : emptyAt isl off) :
    s.wordRead q isl off = (0, s) := by
  obtain ⟨hnone, hbuffer, htcm, -⟩ := h
  unfold State.wordRead
  rw [hnone]
  exact (if_neg hbuffer).trans (if_neg htcm)

/-- A word write where nothing lies is ignored (R12). -/
theorem State.wordWrite_empty (s : State) (q : Requester) {isl off : Nat} (v : Nat) (h : emptyAt isl off) :
    s.wordWrite q isl off v = s := by
  obtain ⟨hnone, -, htcm, -⟩ := h
  unfold State.wordWrite
  rw [hnone]
  exact if_neg fun ⟨hlo, hhi, hfrom, hto, _⟩ => htcm ⟨hlo, hhi, hfrom, hto⟩

/-- The command REGISTER_WRITE of a core is the fabric's write. -/
theorem exec_registerWrite_core (c : CoreId) (isl : Isl) (off : BitVec 20) (size : Fin 4) (v : W64) (s : State) :
    exec (.registerWrite (.core c) isl off size v) s = .next (s.csrWrite (.core c) isl.val off.toNat size.val v.toNat) := rfl

/-- The command LOW_WORD_READ of a core is the fabric's read. -/
theorem exec_lowWordRead_core (c : CoreId) (isl : Isl) (off : BitVec 20) (size : Fin 4) (s : State) :
    exec (.lowWordRead (.core c) isl off size) s = .next (s.csrRead (.core c) isl.val off.toNat size.val) := rfl

/-- Settles O15: a core's access of a wrong width or alignment fails in `State.access` before any word is touched, and one that
reaches an empty offset is made of word accesses that change nothing. -/
theorem misalignedAndEmptyOffsets : Obligations.misaligned_and_empty_offsets := by
  unfold Obligations.misaligned_and_empty_offsets
  refine ⟨fun c isl off size v s hrun hbad => ⟨?badWrite, ?badRead⟩, fun c isl off v s hreach hempty => ⟨?wordRead, ?wordWrite⟩,
    fun c isl off v s hreach hlow hhigh => ⟨?doublewordRead, ?doublewordWrite⟩⟩
  case badWrite => exact ⟨_, exec_registerWrite_core .., State.access_core_wrong_width_or_alignment true _ hrun hbad⟩
  case badRead => exact ⟨_, exec_lowWordRead_core .., State.access_core_wrong_width_or_alignment false _ hrun hbad⟩
  case wordRead =>
    rw [exec_lowWordRead_core]
    refine congrArg _ ((State.csrRead_word hreach).trans ?_)
    rw [State.wordRead_empty s _ hempty]
    rfl
  case wordWrite =>
    have ⟨_, _, _, hbroadcast⟩ := hempty
    rw [exec_registerWrite_core]
    exact congrArg _ ((State.csrWrite_word _ hreach hbroadcast).trans (State.wordWrite_empty s _ _ hempty))
  case doublewordRead =>
    rw [exec_lowWordRead_core]
    refine congrArg _ ((State.csrRead_doubleword hreach (State.wordRead_empty s _ hlow)
      (State.wordRead_empty s _ hhigh)).trans ?_)
    rw [Nat.zero_mul]
    rfl
  case doublewordWrite =>
    have ⟨_, _, _, hbroadcast⟩ := hlow
    rw [exec_registerWrite_core]
    refine congrArg _ ((State.csrWrite_doubleword _ hreach hbroadcast).trans ?_)
    rw [State.wordWrite_empty s _ _ hlow, State.wordWrite_empty s _ _ hhigh]

end Sys2Proof.Machine
end

section
/-! Accesses of the window of a power-gated island (R23), and the DMA channel that an error halts (R342). -/

namespace Sys2Proof.Machine

/-- An access that its requester may make fails at once where the island is power-gated, whatever its width and alignment. -/
theorem State.access_gated {s : State} {q : Requester} {isl off size : Nat} (store : Bool) (run : State → State)
    (hmay : s.mayAccess q isl = true) (hgated : s.gated isl = true) :
    s.access q store isl off size run = (s.portError isl).accessError q store (csrAddr isl off) := by
  unfold State.access
  rw [if_neg (ne_false_of_eq_true hmay), if_pos hgated]

/-- A running core's write to a power-gated island. -/
theorem State.csrWrite_gated {s : State} {c : CoreId} {isl : Nat} (off size v : Nat) (hrun : s.coreRuns c)
    (hgated : s.gated isl = true) :
    s.csrWrite (.core c) isl off size v = (s.portError isl).accessError (.core c) true (csrAddr isl off) := by
  unfold State.csrWrite
  exact State.access_gated true _ (State.mayAccess_core isl hrun) hgated

/-- A running core's read of a power-gated island. -/
theorem State.csrRead_gated {s : State} {c : CoreId} {isl : Nat} (off size : Nat) (hrun : s.coreRuns c)
    (hgated : s.gated isl = true) :
    s.csrRead (.core c) isl off size = (s.portError isl).accessError (.core c) false (csrAddr isl off) := by
  unfold State.csrRead
  exact State.access_gated false _ (State.mayAccess_core isl hrun) hgated

/-- The command POWER_GATED_ACCESS, where the island is power-gated. -/
theorem exec_powerGatedAccess_of_gated {q : Requester} {isl : Isl} {off : BitVec 20} {store : Bool} {s : State}
    (hgated : s.gated isl.val = true) : exec (.powerGatedAccess q isl off store) s =
      .next ((s.portError isl.val).accessError q store (csrAddr isl.val off.toNat)) := by
  rw [exec_powerGatedAccess, execPowerGatedAccess, if_pos hgated]

/-- What a core's access of a power-gated island leaves: the trap and the recorded island, and no register, event or byte of memory
changed. -/
theorem State.accessError_core_portError (s : State) (c : CoreId) (store : Bool) (isl a : Nat) :
    let t := (s.portError isl).accessError (.core c) store a
    t.traps = s.traps ++ [⟨c.val, if store then .store else .load, a⟩] ∧ t.csr = s.csr ∧ t.fab.portErr = isl ∧
      t.evr = s.evr ∧ t.mem = s.mem :=
  ⟨rfl, rfl, rfl, rfl, rfl⟩

/-- A busy DMA channel whose access fails ends with a status from 1 to 255 (assumption 35). -/
theorem State.accessError_dma_busy {s : State} {n : Fin 8} (store : Bool) (a : Nat)
    (hbusy : s.flag (F.DMC_DMACTL_BUSY (n.val / 4) (n.val % 4)) = true) : s.accessError (.dma n) store a =
      s.drawFree.2.dmaEnd (n.val / 4) (n.val % 4) (1 + s.drawFree.1 % 255) a :=
  if_pos hbusy

/-- A field of one register does not see another register's write. -/
theorem State.fld_setWord_ne (s : State) {f : Fld} {k : Nat} (w : W64) (h : f.addr ≠ k) : (s.setWord k w).fld f = s.fld f := by
  simp only [State.fld, State.word_setWord_ne s w h]

/-- Registers do not see a change of what DMC holds. -/
theorem State.fld_dr (s : State) (g : Dram → Dram) (f : Fld) : (s.dr g).fld f = s.fld f := rfl

theorem State.setFld_dr (s : State) (g : Dram → Dram) (f : Fld) (v : Nat) : (s.dr g).setFld f v = (s.setFld f v).dr g := rfl

/-- What a halt of a DMA channel leaves in a field of its DMC_DMACTL. -/
theorem State.fld_dmaEnd_halt (s : State) {d c status : Nat} (faddr : Nat) {f : Fld} (hstatus : status ≠ 0)
    (hf : f.addr = R.DMC_DMACTL d c) : (s.dmaEnd d c status faddr).fld f =
      (((s.setFld (F.DMC_DMACTL_BUSY d c) 0).setFld (F.DMC_DMACTL_STATUS d c) status).setFld (F.DMC_DMACTL_HALT d c) 1).fld f := by
  have hfaddr : f.addr ≠ R.DMC_DMAFADDR d c := by
    rw [hf]
    unfold R.DMC_DMACTL R.DMC_DMAFADDR
    omega
  unfold State.dmaEnd
  rw [if_neg hstatus, State.fld_setWord_ne _ _ hfaddr, State.setFld_dr, State.fld_dr]

theorem State.dmaEnd_halt_halt (s : State) {d c status : Nat} (faddr : Nat) (hstatus : status ≠ 0) :
    (s.dmaEnd d c status faddr).flag (F.DMC_DMACTL_HALT d c) = true := by
  rw [State.flag, s.fld_dmaEnd_halt faddr hstatus rfl, State.fld_setFld_self _ _ _ (by decide : 5 + 1 ≤ 64)]
  rfl

theorem State.dmaEnd_halt_busy (s : State) {d c status : Nat} (faddr : Nat) (hstatus : status ≠ 0) :
    (s.dmaEnd d c status faddr).flag (F.DMC_DMACTL_BUSY d c) = false := by
  have hbits : 3 + 1 ≤ 64 := by decide
  refine bne_eq_false_iff_eq.mpr ?_
  calc (s.dmaEnd d c status faddr).fld (F.DMC_DMACTL_BUSY d c)
    _ = _ := s.fld_dmaEnd_halt faddr hstatus rfl
    _ = ((s.setFld (F.DMC_DMACTL_BUSY d c) 0).setFld (F.DMC_DMACTL_STATUS d c) status).fld (F.DMC_DMACTL_BUSY d c) :=
      State.fld_setFld_disjoint _ _ hbits (.inl (by decide : 3 + 1 ≤ 5))
    _ = (s.setFld (F.DMC_DMACTL_BUSY d c) 0).fld (F.DMC_DMACTL_BUSY d c) :=
      State.fld_setFld_disjoint _ _ hbits (.inl (by decide : 3 + 1 ≤ 8))
    _ = 0 := State.fld_setFld_self s _ 0 hbits

theorem State.dmaEnd_halt_status (s : State) {d c status : Nat} (faddr : Nat) (hstatus : status ≠ 0) :
    (s.dmaEnd d c status faddr).fld (F.DMC_DMACTL_STATUS d c) = status % 2 ^ 8 := by
  have hbits : 8 + 8 ≤ 64 := by decide
  calc (s.dmaEnd d c status faddr).fld (F.DMC_DMACTL_STATUS d c)
    _ = _ := s.fld_dmaEnd_halt faddr hstatus rfl
    _ = ((s.setFld (F.DMC_DMACTL_BUSY d c) 0).setFld (F.DMC_DMACTL_STATUS d c) status).fld (F.DMC_DMACTL_STATUS d c) :=
      State.fld_setFld_disjoint _ _ hbits (.inr (by decide : 5 + 1 ≤ 8))
    _ = status % 2 ^ 8 := State.fld_setFld_self _ _ status hbits

theorem State.dmaEnd_fab (s : State) (d c status faddr : Nat) : (s.dmaEnd d c status faddr).fab = s.fab := by
  unfold State.dmaEnd
  split <;> rfl

theorem State.dmaEnd_evr (s : State) (d c status faddr : Nat) : (s.dmaEnd d c status faddr).evr = s.evr := by
  unfold State.dmaEnd
  split <;> rfl

/-- Settles O16: an access of a power-gated island ends in `State.accessError` with the island recorded, for a core as the trap
alone, for a busy DMA channel as a halt. -/
theorem gatedIslands : Obligations.gated_islands := by
  unfold Obligations.gated_islands
  refine ⟨fun c isl off store s hgated => ?core, fun c isl off size v s hrun hgated => ⟨?coreWrite, ?coreRead⟩,
    fun n isl off store s hgated hbusy => ?dma⟩
  case core => exact ⟨_, exec_powerGatedAccess_of_gated hgated, s.accessError_core_portError c store isl.val _⟩
  case coreWrite =>
    obtain ⟨htraps, hcsr, hport, hevr, -⟩ := s.accessError_core_portError c true isl.val (csrAddr isl.val off.toNat)
    exact ⟨_, (exec_registerWrite_core ..).trans (congrArg _ (State.csrWrite_gated _ _ _ hrun hgated)), htraps, hcsr, hport, hevr⟩
  case coreRead =>
    obtain ⟨htraps, hcsr, hport, hevr, -⟩ := s.accessError_core_portError c false isl.val (csrAddr isl.val off.toNat)
    exact ⟨_, (exec_lowWordRead_core ..).trans (congrArg _ (State.csrRead_gated _ _ hrun hgated)), htraps, hcsr, hport, hevr⟩
  case dma =>
    have herror := State.accessError_dma_busy (s := s.portError isl.val) store (csrAddr isl.val off.toNat) hbusy
    have hstatus : ∀ x, 1 + x % 255 ≠ 0 := by omega
    refine ⟨_, (exec_powerGatedAccess_of_gated hgated).trans (congrArg _ herror), ?halt, ?busy, ?status, ?port, ?events⟩
    case halt => exact State.dmaEnd_halt_halt _ _ (hstatus _)
    case busy => exact State.dmaEnd_halt_busy _ _ (hstatus _)
    case status =>
      rw [State.dmaEnd_halt_status _ _ (hstatus _)]
      omega
    case port => exact congrArg Fab.portErr (State.dmaEnd_fab ..)
    case events => exact State.dmaEnd_evr ..

end Sys2Proof.Machine
end

section
/-! The cores' TCM in the windows of their islands (R27). -/

namespace Sys2Proof

/-- Bytes from one element of a register to the next. -/
def RegDef.pitch (d : RegDef) : Nat := if d.stride = 0 then (if d.wide then 8 else 4) else d.stride

theorem RegDef.pitch_pos (d : RegDef) : 0 < d.pitch := by
  unfold RegDef.pitch
  split
  · split <;> decide
  · exact Nat.pos_of_ne_zero ‹_›

namespace Machine

/-- A register holds nothing on an island that does not have it, nor past its last element. -/
theorem regIndex_eq_none {d : RegDef} {isl off : Nat}
    (h : d.islHi < isl ∨ isl < d.islLo ∨ d.off + d.count * d.pitch ≤ off) : regIndex d isl off = none := by
  unfold regIndex
  split
  case isFalse => rfl
  case isTrue hin =>
    have hend : d.count ≤ (off - d.off) / d.pitch := (Nat.le_div_iff_mul_le d.pitch_pos).mpr (by omega)
    exact if_neg fun hlt => absurd hlt.1 (Nat.not_lt.mpr hend)

theorem regFindIn_eq_none {isl off : Nat} {ds : List RegDef} (h : ∀ d ∈ ds, regIndex d isl off = none) :
    regFindIn isl off ds = none := by
  induction ds with
  | nil => rfl
  | cons d ds ih =>
    obtain ⟨hd, hds⟩ := List.forall_mem_cons.mp h
    rw [regFindIn, hd]
    exact ih hds

/-- Every register of a CPU island lies below its TCM. -/
theorem regTable_below_tcm : ∀ d ∈ RegTable.all, d.islHi < 0x10 ∨ 0x30 ≤ d.islLo ∨ d.off + d.count * d.pitch ≤ 0x80000 := by
  decide +kernel

/-- An offset lies in the TCM of a CPU island's window (R27). -/
abbrev inTcmWindow (isl off : Nat) : Prop := 0x10 ≤ isl ∧ isl < 0x30 ∧ 0x80000 ≤ off ∧ off < 0xA0000

theorem inTcmWindow_of_core {t : CoreId} {isl off : Nat} (hisl : isl = 0x10 + t.val) (hlo : 0x80000 ≤ off) (hhi : off < 0xA0000) :
    inTcmWindow isl off := by
  have := t.isLt
  exact ⟨by omega, by omega, hlo, hhi⟩

theorem regFind_tcm {isl off : Nat} (h : inTcmWindow isl off) : regFind (regKey isl off) = none := by
  obtain ⟨hfirst, hlast, hlo, hhi⟩ := h
  have hdiv : regKey isl off / 0x100000 = isl := by unfold regKey; omega
  have hmod : regKey isl off % 0x100000 = off := by unfold regKey; omega
  unfold regFind
  rw [hdiv, hmod]
  refine regFindIn_eq_none fun d hd => regIndex_eq_none ?_
  have := regTable_below_tcm d hd
  omega

/-- A word of a core's TCM reads as memory holds it, and the read changes nothing. -/
theorem State.wordRead_tcm (s : State) (q : Requester) {isl off : Nat} (h : inTcmWindow isl off) :
    s.wordRead q isl off = (Memory.readNat s.mem (csrAddr isl off) 4, s) := by
  have hbuffer : ¬(isl = 2 ∧ 0x40000 ≤ off ∧ off < 0x80000) := by omega
  unfold State.wordRead
  rw [regFind_tcm h]
  exact (if_neg hbuffer).trans (if_pos h)

/-- A word of a core's TCM is written while that core is halted, and else the write is ignored. -/
theorem State.wordWrite_tcm (s : State) (q : Requester) (t : CoreId) {off : Nat} (v : Nat) (h : inTcmWindow (0x10 + t.val) off) :
    s.wordWrite q (0x10 + t.val) off v =
      if s.cores.halted.getLsbD t.val then s.store (csrAddr (0x10 + t.val) off) (leBytes 4 v) else s := by
  obtain ⟨hfirst, hlast, hlo, hhi⟩ := h
  unfold State.wordWrite
  rw [regFind_tcm ⟨hfirst, hlast, hlo, hhi⟩]
  simp only [State.wordWriteAt, hfirst, hlast, hlo, hhi, Nat.add_sub_cancel_left, true_and]

theorem tcmAddr_eq_csrAddr (t : CoreId) (dtcm : Bool) (o : Nat) :
    tcmAddr t.val dtcm o = csrAddr (0x10 + t.val) ((if dtcm then 0x90000 else 0x80000) + o) := by
  unfold tcmAddr csrAddr regKey
  omega

@[simp] theorem leBytes_length (n v : Nat) : (leBytes n v).length = n := by
  induction n generalizing v with
  | zero => rfl
  | succ n ih => rw [leBytes, List.length_cons, ih]

/-- A running core's write of a doubleword of another core's TCM, through a port that takes it. -/
theorem exec_remoteTcmWrite_portUp {c t : CoreId} {s : State} (dtcm : Bool) (off : BitVec 13) (v : W64) (hrun : s.coreRuns c)
    (hport : s.portDown (0x10 + t.val) = false) : exec (.remoteTcmWrite c t dtcm off v) s =
      .next (if s.cores.halted.getLsbD t.val then s.store (tcmAddr t.val dtcm (off.toNat * 8)) (leBytes 8 v.toNat) else s) := by
  rw [exec_remoteTcmWrite, execRemoteTcmWrite, if_neg (ne_true_of_eq_false hrun), if_neg (ne_true_of_eq_false hport)]
  cases s.cores.halted.getLsbD t.val <;> rfl

/-- A running core's write of a doubleword of another core's TCM, through a port that does not take it. -/
theorem exec_remoteTcmWrite_portDown {c t : CoreId} {s : State} (dtcm : Bool) (off : BitVec 13) (v : W64) (hrun : s.coreRuns c)
    (hport : s.portDown (0x10 + t.val) = true) : exec (.remoteTcmWrite c t dtcm off v) s =
      .next ((if s.gated (0x10 + t.val) then s.portError (0x10 + t.val) else s).trap c.val .store
        (tcmAddr t.val dtcm (off.toNat * 8))) := by
  rw [exec_remoteTcmWrite, execRemoteTcmWrite, if_neg (ne_true_of_eq_false hrun), if_pos hport]

/-- A halted core writes no other core's TCM. -/
theorem exec_remoteTcmWrite_halted {c t : CoreId} {s : State} (dtcm : Bool) (off : BitVec 13) (v : W64)
    (hhalted : s.cores.halted.getLsbD c.val = true) : exec (.remoteTcmWrite c t dtcm off v) s = .next s := by
  rw [exec_remoteTcmWrite, execRemoteTcmWrite, if_pos hhalted]

/-- What REMOTE_TCM_WRITE does to memory: nothing, or it stores its doubleword. -/
theorem exec_remoteTcmWrite_mem {c t : CoreId} {dtcm : Bool} {off : BitVec 13} {v : W64} {s u : State}
    (h : exec (.remoteTcmWrite c t dtcm off v) s = .next u) :
    u.mem = s.mem ∨ u.mem = Memory.writeBytes s.mem (tcmAddr t.val dtcm (off.toNat * 8)) (leBytes 8 v.toNat) := by
  cases hrun : s.cores.halted.getLsbD c.val with
  | true =>
    rw [exec_remoteTcmWrite_halted dtcm off v hrun] at h
    cases h
    exact .inl rfl
  | false =>
    cases hport : s.portDown (0x10 + t.val) with
    | true =>
      rw [exec_remoteTcmWrite_portDown dtcm off v hrun hport] at h
      cases h
      exact .inl (by split <;> rfl)
    | false =>
      rw [exec_remoteTcmWrite_portUp dtcm off v hrun hport] at h
      cases h
      split
      · exact .inr rfl
      · exact .inl rfl

/-- Settles O20: no register of a CPU island lies in its TCM window, so its words are the bytes of memory at their own addresses,
which REMOTE_TCM_WRITE writes by the doubleword. -/
theorem tcmWindows : Obligations.tcm_windows := by
  unfold Obligations.tcm_windows
  refine ⟨fun t o _ => ⟨tcmAddr_eq_csrAddr t false o, tcmAddr_eq_csrAddr t true o⟩,
    fun c t isl off s hisl hlo hhi hreach => ?read, fun c t isl off v s hisl hlo hhi hreach => ?write,
    fun c t dtcm off v s => exec_remoteTcmWrite_portUp dtcm off v,
    fun c t dtcm off v s => exec_remoteTcmWrite_portDown dtcm off v, fun c t dtcm off v s u hexec x hout => ?frame⟩
  case read =>
    rw [exec_lowWordRead_core]
    refine congrArg _ ((State.csrRead_word hreach).trans ?_)
    rw [s.wordRead_tcm _ (inTcmWindow_of_core hisl hlo hhi)]
  case write =>
    have htcm := inTcmWindow_of_core hisl hlo hhi
    rw [exec_registerWrite_core]
    refine congrArg _ ((State.csrWrite_word _ hreach (by omega)).trans ?_)
    rw [hisl] at htcm ⊢
    exact s.wordWrite_tcm _ t _ htcm
  case frame =>
    rcases exec_remoteTcmWrite_mem hexec with hmem | hmem
    · rw [hmem]
    · rw [hmem]
      exact Memory.read_writeBytes_out _ _ _ (by rwa [leBytes_length])

end Machine
end Sys2Proof
end

section
/-! The fetch of an instruction word by a channel's sequencer, and the errors of the word (R199). -/

namespace Sys2Proof.Machine

/-! ### Events: what posting one leaves -/

theorem State.fld_modSeq (s : State) (n : Nat) (g : Seq → Seq) (f : Fld) : (s.modSeq n g).fld f = s.fld f := rfl

theorem State.seq_modSeq_self (s : State) (n : Nat) (g : Seq → Seq) : (s.modSeq n g).seq n = g (s.seq n) :=
  Tab.getD_set_self ..

theorem State.fld_bump_ne (s : State) {f g : Fld} (v : Nat) (h : g.addr ≠ f.addr) : (s.bump f v).fld g = s.fld g :=
  s.fld_setFld_ne _ h

/-- An event of a channel island changes no register but MGT's count of dropped events. -/
theorem State.fld_chPost (s : State) (n id : Nat) (items : List (Nat × Nat)) {f : Fld} (h : f.addr ≠ R.MGT_EVDROP) :
    (s.chPost n id items).fld f = s.fld f := by
  unfold State.chPost State.post State.postEvent
  split
  · split
    · rfl
    · exact s.fld_bump_ne (f := F.MGT_EVDROP_COUNT) 1 h
  · rfl

theorem State.seq_chPost (s : State) (n id : Nat) (items : List (Nat × Nat)) (m : Nat) :
    (s.chPost n id items).seq m = s.seq m := by
  unfold State.chPost State.post State.postEvent
  split
  · split <;> rfl
  · rfl

/-- While MGT has power, an event of a channel island goes on its way. -/
theorem State.chPost_transit {s : State} (n id : Nat) (items : List (Nat × Nat)) (h : s.gated 2 = false) :
    ∃ e, (s.chPost n id items).evr.transit = s.evr.transit ++ [e] ∧ e.id = id ∧ e.src = 0x30 + n := by
  unfold State.chPost State.post State.postEvent
  rw [if_neg (ne_true_of_eq_false h)]
  exact ⟨_, rfl, rfl, rfl⟩

/-! ### A corrected word -/

/-- The word at a sequencer's PC was corrected before. -/
abbrev State.ceReported (s : State) (n : Nat) : Prop := s.fld (F.CH_SEQSTAT_PC n) ∈ (s.seq n).ceSeen

/-- A sequencer that remembers that the word at its PC was corrected. -/
def State.ceMark (s : State) (n : Nat) : State :=
  s.modSeq n fun q => { q with ceSeen := s.fld (F.CH_SEQSTAT_PC n) :: q.ceSeen }

theorem chSeqstat_ne_counts (n : Nat) : R.CH_SEQSTAT n ≠ R.CH_IMEMCE n ∧ R.CH_SEQSTAT n ≠ R.MGT_EVDROP := by
  unfold R.CH_SEQSTAT R.CH_IMEMCE R.MGT_EVDROP
  omega

theorem chImem_ne_counts (n i : Nat) : R.CH_IMEM n i ≠ R.CH_IMEMCE n ∧ R.CH_IMEM n i ≠ R.MGT_EVDROP := by
  unfold R.CH_IMEM R.CH_IMEMCE R.MGT_EVDROP
  omega

theorem State.bump_imemCe_pc (s : State) (n : Nat) :
    (s.bump (F.CH_IMEMCE_COUNT n)).fld (F.CH_SEQSTAT_PC n) = s.fld (F.CH_SEQSTAT_PC n) :=
  s.fld_bump_ne 1 (chSeqstat_ne_counts n).1

theorem State.bump_imemCe_gated (s : State) (n isl : Nat) : (s.bump (F.CH_IMEMCE_COUNT n)).gated isl = s.gated isl := by
  have haddr : R.AON_PSSTAT ≠ R.CH_IMEMCE n := by
    unfold R.AON_PSSTAT R.CH_IMEMCE
    omega
  unfold State.gated
  rw [s.fld_bump_ne (f := F.CH_IMEMCE_COUNT n) (g := F.AON_PSSTAT_CUR) 1 haddr]

theorem State.imemCe_of_reported {s : State} {n : Nat} (h : s.ceReported n) : s.imemCe n = s.bump (F.CH_IMEMCE_COUNT n) :=
  if_pos h

theorem State.imemCe_of_not_reported {s : State} {n : Nat} (h : ¬ s.ceReported n) :
    s.imemCe n = ((s.bump (F.CH_IMEMCE_COUNT n)).ceMark n).chPost n 0x0442 [(12, s.fld (F.CH_SEQSTAT_PC n))] := by
  unfold State.ceMark
  rw [s.bump_imemCe_pc]
  exact if_neg h

/-- But for MGT's count of dropped events, the registers change by the count alone. -/
theorem State.fld_imemCe_eq_bump (s : State) (n : Nat) {f : Fld} (hdrop : f.addr ≠ R.MGT_EVDROP) :
    (s.imemCe n).fld f = (s.bump (F.CH_IMEMCE_COUNT n)).fld f := by
  by_cases hseen : s.ceReported n
  · rw [State.imemCe_of_reported hseen]
  · rw [State.imemCe_of_not_reported hseen, State.fld_chPost _ _ _ _ hdrop, State.ceMark, State.fld_modSeq]

theorem State.fld_imemCe (s : State) (n : Nat) {f : Fld} (h : f.addr ≠ R.CH_IMEMCE n ∧ f.addr ≠ R.MGT_EVDROP) :
    (s.imemCe n).fld f = s.fld f :=
  (s.fld_imemCe_eq_bump n h.2).trans (s.fld_bump_ne 1 h.1)

theorem State.imemCe_state (s : State) (n : Nat) : (s.imemCe n).fld (F.CH_SEQSTAT_STATE n) = s.fld (F.CH_SEQSTAT_STATE n) :=
  s.fld_imemCe n (chSeqstat_ne_counts n)

theorem State.imemCe_pc (s : State) (n : Nat) : (s.imemCe n).fld (F.CH_SEQSTAT_PC n) = s.fld (F.CH_SEQSTAT_PC n) :=
  s.fld_imemCe n (chSeqstat_ne_counts n)

theorem State.imemCe_imem (s : State) (n i : Nat) : (s.imemCe n).fld (F.CH_IMEM_WORD n i) = s.fld (F.CH_IMEM_WORD n i) :=
  s.fld_imemCe n (chImem_ne_counts n i)

theorem State.imemCe_count (s : State) (n : Nat) :
    (s.imemCe n).fld (F.CH_IMEMCE_COUNT n) = (s.fld (F.CH_IMEMCE_COUNT n) + 1) % 2 ^ 64 := by
  have hdrop : R.CH_IMEMCE n ≠ R.MGT_EVDROP := by
    unfold R.CH_IMEMCE R.MGT_EVDROP
    omega
  exact (s.fld_imemCe_eq_bump n hdrop).trans (s.fld_setFld_self _ _ (by decide : 0 + 64 ≤ 64))

theorem State.imemCe_evr_of_reported {s : State} {n : Nat} (h : s.ceReported n) : (s.imemCe n).evr = s.evr := by
  rw [State.imemCe_of_reported h]
  rfl

/-- A word corrected for the first time is reported and remembered. -/
theorem State.imemCe_reports {s : State} {n : Nat} (hpower : s.gated 2 = false) (hfirst : ¬ s.ceReported n) :
    ∃ e, (s.imemCe n).evr.transit = s.evr.transit ++ [e] ∧ e.id = 0x0442 ∧ e.src = 0x30 + n ∧
      s.fld (F.CH_SEQSTAT_PC n) ∈ ((s.imemCe n).seq n).ceSeen := by
  have hgated : ((s.bump (F.CH_IMEMCE_COUNT n)).ceMark n).gated 2 = false := (s.bump_imemCe_gated n 2).trans hpower
  obtain ⟨e, htransit, hid, hsrc⟩ := State.chPost_transit n 0x0442 [(12, s.fld (F.CH_SEQSTAT_PC n))] hgated
  rw [State.imemCe_of_not_reported hfirst]
  refine ⟨e, htransit, hid, hsrc, ?_⟩
  rw [State.seq_chPost, State.ceMark, State.seq_modSeq_self, s.bump_imemCe_pc]
  exact List.mem_cons_self

/-! ### The fetch of a running sequencer -/

/-- The word at a sequencer's PC. -/
abbrev State.kzFetched (s : State) (n : Nat) : Nat := s.fld (F.CH_IMEM_WORD n (s.fld (F.CH_SEQSTAT_PC n)))

theorem State.kzFetched_lt (s : State) (n : Nat) : s.kzFetched n < 2 ^ 32 := Nat.mod_lt _ (Nat.two_pow_pos 32)

theorem State.imemCe_kzFetched (s : State) (n : Nat) : (s.imemCe n).kzFetched n = s.kzFetched n := by
  rw [State.kzFetched, State.imemCe_pc, State.imemCe_imem]

theorem State.kz_double {s : State} {n : Nat} (w : Nat) (body : State → State) (hrun : s.fld (F.CH_SEQSTAT_STATE n) = 1) :
    s.kz n .double w body = s.seqFault n 2 :=
  if_neg (not_not_intro (.inl hrun))

/-- What a running sequencer does with a word that came intact or corrected. -/
theorem State.kz_running {s : State} {n : Chan} {f : Fetch} (w : Nat) (body : State → State)
    (hrun : s.fld (F.CH_SEQSTAT_STATE n) = 1) (hf : f ≠ .double) : s.kz n f w body =
      if s.kzFetched n / 2 ^ 26 ∉ kzOpcodes then (s.fetched n f).seqFault n 1
      else if s.kzFetched n / 2 ^ 26 = 0x29 ∧ bits (s.kzFetched n) 12 2 = 3 then (s.fetched n f).seqFault n 9
      else if s.kzFetched n ≠ w then s
      else body (s.fetched n f) := by
  cases f with
  | double => exact absurd rfl hf
  | ok | single => exact if_neg (not_not_intro (.inl hrun))

/-- A corrected word runs as it would intact, once it is counted. -/
theorem State.kz_single {s : State} {n : Chan} {w : Nat} (body : State → State) (hrun : s.fld (F.CH_SEQSTAT_STATE n) = 1)
    (hword : s.kzFetched n = w) : s.kz n .single w body = (s.imemCe n).kz n .ok w body := by
  have hrun' : (s.imemCe n).fld (F.CH_SEQSTAT_STATE n) = 1 := (s.imemCe_state n).trans hrun
  rw [State.kz_running w body hrun (by decide), State.kz_running w body hrun' (by decide), s.imemCe_kzFetched, hword,
    if_neg (not_not_intro rfl), if_neg (not_not_intro rfl)]
  rfl

end Sys2Proof.Machine

namespace Sys2Proof

open Machine

/-! ### Every instruction of a sequencer is a fetch of its word -/

/-- A packed word is the number its fields spell. -/
theorem kzPack_toNat (op : BitVec 6) (rd rs : BitVec 4) (imm : BitVec 18) :
    (kzPack op rd rs imm).toNat = kzWord op.toNat rd.toNat rs.toNat imm.toNat := by
  have hcons {m k : Nat} (x : BitVec m) (y : BitVec k) : (x ++ y).toNat = x.toNat * 2 ^ k + y.toNat := by
    rw [BitVec.toNat_append, ← Nat.shiftLeft_add_eq_or_of_lt y.isLt, Nat.shiftLeft_eq]
  simp only [kzPack, hcons, kzWord]
  omega

theorem postImm_kind {imm : BitVec 18} {kind : Nat} (h : postImm imm kind = true) : bits imm.toNat 12 2 = kind :=
  beq_iff_eq.mp (Bool.and_eq_true_iff.mp h).2

theorem Instr.kzOk_of_wf {i : Instr} (h : i.wf = true) : i.kzOk = true := by
  simp only [Instr.wf, Bool.and_eq_true] at h
  obtain ⟨⟨⟨hok, -⟩, -⟩, -⟩ := h
  exact hok

theorem Instr.refetched_self {i : Instr} {n : Chan} {f : Fetch} (hsite : i.site = some (n, f)) : i.refetched f = i := by
  cases i <;> cases hsite <;> rfl

/-- However its word comes out of the instruction memory, the instruction is executed as a fetch of the word w on channel n that is
followed by body. -/
def Instr.FetchedBy (i : Instr) (n : Chan) (w : W32) (body : State → State) : Prop :=
  kzEncode i = some w ∧ ∀ g s, exec (i.refetched g) s = .next (s.kz n g w.toNat body)

theorem Instr.fetchedBy_kzPack {i : Instr} {n : Chan} {op : BitVec 6} {rd rs : BitVec 4} {imm : BitVec 18} {body : State → State}
    (hword : kzEncode i = some (kzPack op rd rs imm))
    (hexec : ∀ g s, exec (i.refetched g) s = .next (s.kz n g (kzWord op.toNat rd.toNat rs.toNat imm.toNat) body)) :
    ∃ w body, i.FetchedBy n w body := by
  rw [← kzPack_toNat] at hexec
  exact ⟨_, body, hword, hexec⟩

/-- Each instruction of a sequencer is fetched by its word; a POST only where its immediate has the kind its command names. -/
theorem Instr.exists_fetchedBy {i : Instr} {n : Chan} {f : Fetch} (hwf : i.wf = true) (hsite : i.site = some (n, f)) :
    ∃ w body, i.FetchedBy n w body := by
  have hok := Instr.kzOk_of_wf hwf
  cases i with
  | postDone | postPark | postSusp =>
    cases hsite
    exact Instr.fetchedBy_kzPack rfl fun _ _ => congrArg _ (if_neg (not_not_intro (postImm_kind hok)))
  | halt | sel | cmd | addr | din | dout | wait | poll | ldi | ldih | mov | add | sub | and | or | xor | shl | shr | br | brc
  | call | ret | pop | tstart | twait | evt | pgen | pchk =>
    cases hsite
    exact Instr.fetchedBy_kzPack rfl fun _ _ => rfl
  | _ => cases hsite

theorem Instr.FetchedBy.exec_eq {i : Instr} {n : Chan} {f : Fetch} {w : W32} {body : State → State} (h : i.FetchedBy n w body)
    (hsite : i.site = some (n, f)) (s : State) : exec i s = .next (s.kz n f w.toNat body) := by
  have hexec := h.2 f s
  rwa [Instr.refetched_self hsite] at hexec

/-- The word at the PC of a sequencer that runs an instruction is the instruction's. -/
theorem Instr.FetchedBy.kzFetched_eq {i : Instr} {n : Chan} {f : Fetch} {w : W32} {body : State → State} {s : State}
    (h : i.FetchedBy n w body) (hrun : s.runsKz n f i) : s.kzFetched n = w.toNat := by
  obtain ⟨-, -, hword⟩ := hrun
  have hw : w = BitVec.ofNat 32 (s.kzFetched n) := Option.some.inj (h.1.symm.trans hword)
  rw [hw, BitVec.toNat_ofNat, Nat.mod_eq_of_lt (s.kzFetched_lt n)]

/-- Settles O22: every instruction of a sequencer is a fetch of its word, and counting a corrected word leaves the registers that the
fetch reads. -/
theorem kazinoFetch : Obligations.kazino_fetch := by
  unfold Obligations.kazino_fetch
  refine ⟨fun i n s hwf hsite hstate => ?double, fun i n s hwf hsite hrun => ?single, fun n s => ⟨s.imemCe_count n, fun hpower =>
    ⟨State.imemCe_evr_of_reported, State.imemCe_reports hpower⟩⟩⟩
  case double =>
    obtain ⟨w, body, hfetch⟩ := Instr.exists_fetchedBy hwf hsite
    rw [hfetch.exec_eq hsite, State.kz_double _ body hstate]
  case single =>
    obtain ⟨w, body, hfetch⟩ := Instr.exists_fetchedBy hwf hsite
    rw [hfetch.exec_eq hsite, State.kz_single body hrun.1 (hfetch.kzFetched_eq hrun), hfetch.2]

end Sys2Proof
end

section
/-! PROOFS. Flush (R283): one that may be executed waits for nothing and checks nothing, its NSID included. -/

namespace Sys2Proof.Machine

/-- The only thing FLUSH asks of its slot is that it holds an admitted Flush. -/
theorem execFlush_of_startable {i : Fin 65536} {x : Slot} {s : State} (h : s.startable i.val 0x00 = some x) :
    execFlush i s = .next (s.complete i.val .success) := by
  rw [execFlush, h]

/-- Settles O35: neither the command's contents nor the rest of the state enters its answer once its slot is startable. -/
theorem flushCompletes : Obligations.flush_completes := by
  unfold Obligations.flush_completes
  intro i x s hstart
  rw [exec_flush, execFlush_of_startable hstart]

end Sys2Proof.Machine
end

section
/-! PROOFS. What every command leaves as it was, from the laws of the commands one by one. -/

namespace Sys2Proof.Machine

/-- A command that can neither store, nor sample the straps, nor program the OTP keeps memory, the queue, the straps, the ordering
code and the OTP. -/
theorem exec_keeps {c : Instr} (h : c.mayStore = false) (s : State) : Keeps (exec c s) s := by
  cases c with
  | pllLock => exact execPllLock_fixed ..
  | pllLossOfLock => exact execPllLossOfLock_fixed ..
  | handshakeTimeout => exact execHandshakeTimeout_fixed ..
  | fabPortctlWrite => exact execFabPortctlWrite_fixed ..
  | powerGatedAccess => exact execPowerGatedAccess_fixed ..
  | fenceI => exact execFenceI_fixed ..
  | loadReserved => exact execLoadReserved_fixed ..
  | bar2Write p off v => exact execBar2Write_fixed p off v s
  | sqTailDoorbell => exact execSqTailDoorbell_fixed ..
  | cqHeadDoorbell => exact execCqHeadDoorbell_fixed ..
  | arbiterTurn => exact execArbiterTurn_fixed ..
  | peekEntryArrival => exact execPeekEntryArrival_fixed ..
  | wbstarveExpiry => exact execWbstarveExpiry_fixed ..
  | hostDataArrival => exact execHostDataArrival_fixed ..
  | dmcBufferAck => exact execDmcBufferAck_fixed ..
  | huskSliceEntryAck => exact execHuskSliceEntryAck_fixed ..
  | powerTokenGrant => exact execPowerTokenGrant_fixed ..
  | podDispatch => exact execPodDispatch_fixed ..
  | dieOpDone => exact execDieOpDone_fixed ..
  | huskCloseEntryAck => exact execHuskCloseEntryAck_fixed ..
  | transferFailure => exact execTransferFailure_fixed ..
  | stageAgeExpiry => exact execStageAgeExpiry_fixed ..
  | stageFillTimeout => exact execStageFillTimeout_fixed ..
  | foldStart => exact execFoldStart_fixed ..
  | stageReclaim => exact execStageReclaim_fixed ..
  | convStripeAgeExpiry => exact execConvStripeAgeExpiry_fixed ..
  | mapCheckpoint => exact execMapCheckpoint_fixed ..
  | write => exact execWrite_fixed ..
  | zoneAppend => exact execZoneAppend_fixed ..
  | copy => exact execCopy_fixed ..
  | read => exact execRead_fixed ..
  | compare => exact execCompare_fixed ..
  | fusedCompareWrite => exact execFusedCompareWrite_fixed ..
  | verify => exact execVerify_fixed ..
  | writeZeroes => exact execWriteZeroes_fixed ..
  | datasetManagement => exact execDatasetManagement_fixed ..
  | flush => exact execFlush_fixed ..
  | ioManagementSend => exact execIoManagementSend_fixed ..
  | ioManagementReceive => exact execIoManagementReceive_fixed ..
  | zoneOpen => exact execZoneOpen_fixed ..
  | zoneClose => exact execZoneClose_fixed ..
  | zoneFinish => exact execZoneFinish_fixed ..
  | zoneReset => exact execZoneReset_fixed ..
  | zoneOffline => exact execZoneOffline_fixed ..
  | zoneMgmtEffect => exact execZoneMgmtEffect_fixed ..
  | zoneManagementReceive => exact execZoneManagementReceive_fixed ..
  | reconstructionDone => exact execReconstructionDone_fixed ..
  | suspholdExpiry => exact execSuspholdExpiry_fixed ..
  | ldcDecodeDone => exact execLdcDecodeDone_fixed ..
  | watchdogExpiry => exact execWatchdogExpiry_fixed ..
  | hardLimitExpiry => exact execHardLimitExpiry_fixed ..
  | abortDoneTimeout => exact execAbortDoneTimeout_fixed ..
  | suspectPeriodExpiry => exact execSuspectPeriodExpiry_fixed ..
  | diecmdRetire => exact execDiecmdRetire_fixed ..
  | diecmdFail => exact execDiecmdFail_fixed ..
  | rebuildJobStart => exact execRebuildJobStart_fixed ..
  | startupHuskReplay => exact execStartupHuskReplay_fixed ..
  | tornRepair => exact execTornRepair_fixed ..
  | sampleBoundary => exact execSampleBoundary_fixed ..
  | slotOpen => exact execSlotOpen_fixed ..
  | slotClose => exact execSlotClose_fixed ..
  | lpeHoldWrite => exact execLpeHoldWrite_fixed ..
  | lpeExtmeasWrite => exact execLpeExtmeasWrite_fixed ..
  | halt => exact execHalt_fixed ..
  | sel => exact execSel_fixed ..
  | cmd => exact execCmd_fixed ..
  | addr => exact execAddr_fixed ..
  | din => exact execDin_fixed ..
  | wait => exact execWait_fixed ..
  | poll => exact execPoll_fixed ..
  | ldi => exact execLdi_fixed ..
  | ldih => exact execLdih_fixed ..
  | mov => exact execMov_fixed ..
  | add => exact execAdd_fixed ..
  | sub => exact execSub_fixed ..
  | and => exact execAnd_fixed ..
  | or => exact execOr_fixed ..
  | xor => exact execXor_fixed ..
  | shl => exact execShl_fixed ..
  | shr => exact execShr_fixed ..
  | br => exact execBr_fixed ..
  | brc => exact execBrc_fixed ..
  | call => exact execCall_fixed ..
  | ret => exact execRet_fixed ..
  | pop => exact execPop_fixed ..
  | postDone => exact execPostDone_fixed ..
  | postPark => exact execPostPark_fixed ..
  | postSusp => exact execPostSusp_fixed ..
  | parkDelayExpiry => exact execParkDelayExpiry_fixed ..
  | tstart => exact execTstart_fixed ..
  | twait => exact execTwait_fixed ..
  | timerExpiry => exact execTimerExpiry_fixed ..
  | evt => exact execEvt_fixed ..
  | pgen => exact execPgen_fixed ..
  | pchk => exact execPchk_fixed ..
  | seqRun => exact execSeqRun_fixed ..
  | seqStop => exact execSeqStop_fixed ..
  | channelFaultTimeout => exact execChannelFaultTimeout_fixed ..
  | directOpGo => exact execDirectOpGo_fixed ..
  | eraseLedgerWriteAck => exact execEraseLedgerWriteAck_fixed ..
  | eraseLedgerClearAck => exact execEraseLedgerClearAck_fixed ..
  | preeraseStart => exact execPreeraseStart_fixed ..
  | wearRelocationStart => exact execWearRelocationStart_fixed ..
  | scrubVisit => exact execScrubVisit_fixed ..
  | linkEnable => exact execLinkEnable_fixed ..
  | linkTrained => exact execLinkTrained_fixed ..
  | perstAssert => exact execPerstAssert_fixed ..
  | perstDeassert => exact execPerstDeassert_fixed ..
  | surpriseLinkDown => exact execSurpriseLinkDown_fixed ..
  | l0pWidthRequest => exact execL0pWidthRequest_fixed ..
  | ideIntegrityFail => exact execIdeIntegrityFail_fixed ..
  | ideKmKeyProgram => exact execIdeKmKeyProgram_fixed ..
  | vfEnableWrite => exact execVfEnableWrite_fixed ..
  | diagctlWrite => exact execDiagctlWrite_fixed ..
  | createIoSq => exact execCreateIoSq_fixed ..
  | createIoCq => exact execCreateIoCq_fixed ..
  | deleteIoSq => exact execDeleteIoSq_fixed ..
  | deleteIoCq => exact execDeleteIoCq_fixed ..
  | getLogPage => exact execGetLogPage_fixed ..
  | identify => exact execIdentify_fixed ..
  | abort => exact execAbort_fixed ..
  | setFeatures => exact execSetFeatures_fixed ..
  | getFeatures => exact execGetFeatures_fixed ..
  | asyncEventRequest => exact execAsyncEventRequest_fixed ..
  | namespaceManagement => exact execNamespaceManagement_fixed ..
  | namespaceAttachment => exact execNamespaceAttachment_fixed ..
  | firmwareImageDownload => exact execFirmwareImageDownload_fixed ..
  | directiveSend => exact execDirectiveSend_fixed ..
  | directiveReceive => exact execDirectiveReceive_fixed ..
  | virtualizationManagement => exact execVirtualizationManagement_fixed ..
  | nvmeMiSend => exact execNvmeMiSend_fixed ..
  | nvmeMiReceive => exact execNvmeMiReceive_fixed ..
  | formatNvm => exact execFormatNvm_fixed ..
  | sanitize => exact execSanitize_fixed ..
  | tenancyCreate => exact execTenancyCreate_fixed ..
  | tenancyDelete => exact execTenancyDelete_fixed ..
  | setQuotas => exact execSetQuotas_fixed ..
  | mapVf => exact execMapVf_fixed ..
  | setRankSets => exact execSetRankSets_fixed ..
  | formGeometry => exact execFormGeometry_fixed ..
  | readDescriptor => exact execReadDescriptor_fixed ..
  | governorRead => exact execGovernorRead_fixed ..
  | governorWrite => exact execGovernorWrite_fixed ..
  | recorderFreeze => exact execRecorderFreeze_fixed ..
  | recorderUnfreeze => exact execRecorderUnfreeze_fixed ..
  | recorderRead => exact execRecorderRead_fixed ..
  | recorderClearView => exact execRecorderClearView_fixed ..
  | geometryReport => exact execGeometryReport_fixed ..
  | resourceClaim => exact execResourceClaim_fixed ..
  | resourceRelease => exact execResourceRelease_fixed ..
  | diagWindowOpen => exact execDiagWindowOpen_fixed ..
  | diagWindowClose => exact execDiagWindowClose_fixed ..
  | linkTestStart => exact execLinkTestStart_fixed ..
  | linkTestStop => exact execLinkTestStop_fixed ..
  | linkTestStatus => exact execLinkTestStatus_fixed ..
  | linkTestDurationExpiry => exact execLinkTestDurationExpiry_fixed ..
  | controllerReset => exact execControllerReset_fixed ..
  | controllerEnable => exact execControllerEnable_fixed ..
  | functionLevelReset => exact execFunctionLevelReset_fixed ..
  | nvmSubsystemReset => exact execNvmSubsystemReset_fixed ..
  | shutdownNotification => exact execShutdownNotification_fixed ..
  | kweLockRead => exact execKweLockRead_fixed ..
  | kweLockWrite => exact execKweLockWrite_fixed ..
  | kweGen => exact execKweGen_fixed ..
  | kweWrap => exact execKweWrap_fixed ..
  | kweUnwrap => exact execKweUnwrap_fixed ..
  | kweZero => exact execKweZero_fixed ..
  | kweSeal => exact execKweSeal_fixed ..
  | kweUnseal => exact execKweUnseal_fixed ..
  | xtsNskWrite => exact execXtsNskWrite_fixed ..
  | entropyTestFail => exact execEntropyTestFail_fixed ..
  | bootWatchdogStop => exact execBootWatchdogStop_fixed ..
  | otpCommandGo => exact execOtpCommandGo_fixed ..
  | getVersion => exact execGetVersion_fixed ..
  | getCapabilities => exact execGetCapabilities_fixed ..
  | negotiateAlgorithms => exact execNegotiateAlgorithms_fixed ..
  | getDigests => exact execGetDigests_fixed ..
  | getCertificate => exact execGetCertificate_fixed ..
  | challenge => exact execChallenge_fixed ..
  | getMeasurements => exact execGetMeasurements_fixed ..
  | keyExchange => exact execKeyExchange_fixed ..
  | finish => exact execFinish_fixed ..
  | slhDsaSignatureRequest => exact execSlhDsaSignatureRequest_fixed ..
  | slhDsaSignDone => exact execSlhDsaSignDone_fixed ..
  | readNvmeMiDataStructure => exact execReadNvmeMiDataStructure_fixed ..
  | subsystemHealthStatusPoll => exact execSubsystemHealthStatusPoll_fixed ..
  | dmcCfgLock => exact execDmcCfgLock_fixed ..
  | dmaCopy => exact execDmaCopy_fixed ..
  | dmaFill => exact execDmaFill_fixed ..
  | dmaCheck => exact execDmaCheck_fixed ..
  | mergeWritebackTimeout => exact execMergeWritebackTimeout_fixed ..
  | pstateRequest => exact execPstateRequest_fixed ..
  | wakeTimerExpiry => exact execWakeTimerExpiry_fixed ..
  | avsStep => exact execAvsStep_fixed ..
  | pwrcapAssert => exact execPwrcapAssert_fixed ..
  | pwrcapRelease => exact execPwrcapRelease_fixed ..
  | hucfgWrite => exact execHucfgWrite_fixed ..
  | vukLinkEnable => exact execVukLinkEnable_fixed ..
  | vukTrainingRetry => exact execVukTrainingRetry_fixed ..
  | hello => exact execHello_fixed ..
  | linkAuthentication => exact execLinkAuthentication_fixed ..
  | linkKeyRenewal => exact execLinkKeyRenewal_fixed ..
  | vukoroFrame => exact execVukoroFrame_fixed ..
  | enum => exact execEnum_fixed ..
  | dupmaster => exact execDupmaster_fixed ..
  | nodeList => exact execNodeList_fixed ..
  | memberReady => exact execMemberReady_fixed ..
  | csyncPulse => exact execCsyncPulse_fixed ..
  | timeOrderedSet => exact execTimeOrderedSet_fixed ..
  | pathFailureReroute => exact execPathFailureReroute_fixed ..
  | orphanTimeout => exact execOrphanTimeout_fixed ..
  | entdaa => exact execEntdaa_fixed ..
  | setdasa => exact execSetdasa_fixed ..
  | rstdaa => exact execRstdaa_fixed ..
  | arpAssignAddress => exact execArpAssignAddress_fixed ..
  | smbusTransaction => exact execSmbusTransaction_fixed ..
  | setEndpointId => exact execSetEndpointId_fixed ..
  | evpostWrite => exact execEvpostWrite_fixed ..
  | eventRecordArrival => exact execEventRecordArrival_fixed ..
  | eventFlushDone => exact execEventFlushDone_fixed ..
  | rateWindowEnd => exact execRateWindowEnd_fixed ..
  | freezeTimeout => exact execFreezeTimeout_fixed ..
  | temperatureSample => exact execTemperatureSample_fixed ..
  | voltageSample => exact execVoltageSample_fixed ..
  | ringOscGate => exact execRingOscGate_fixed ..
  | claimWrite => exact execClaimWrite_fixed ..
  | claimRelease => exact execClaimRelease_fixed ..
  | tapReset => exact execTapReset_fixed ..
  | extest => exact execExtest_fixed ..
  | idcode => exact execIdcode_fixed ..
  | samplePreload => exact execSamplePreload_fixed ..
  | highz => exact execHighz_fixed ..
  | clamp => exact execClamp_fixed ..
  | extestPulse => exact execExtestPulse_fixed ..
  | extestTrain => exact execExtestTrain_fixed ..
  | jtagMbist => exact execJtagMbist_fixed ..
  | bypass => exact execBypass_fixed ..
  | mbistGo => exact execMbistGo_fixed ..
  | minimumRunTimeElapsed => exact execMinimumRunTimeElapsed_fixed ..
  | entropyRestartTestPass => exact execEntropyRestartTestPass_fixed ..
  | entropyWaitTimeout => exact execEntropyWaitTimeout_fixed ..
  | patternCheckerLostLock => exact execPatternCheckerLostLock_fixed ..
  | linkPowerStateChange => exact execLinkPowerStateChange_fixed ..
  | interruptCoalescingTimeout => exact execInterruptCoalescingTimeout_fixed ..
  | generalTimerExpiry => exact execGeneralTimerExpiry_fixed ..
  | endSession => exact execEndSession_fixed ..
  | vukoroLinkDown => exact execVukoroLinkDown_fixed ..
  | _ => cases h

/-- A command that neither samples the straps nor programs the OTP keeps memory's canonical form, the queue, the straps, the ordering
code and the OTP. -/
theorem exec_holding {c : Instr} (hstraps : c.samplesStraps = false) (hotp : c.programsOtp = false) (s : State) :
    Holding (exec c s) s := by
  cases hstore : c.mayStore with
  | false => exact (exec_keeps hstore s).holding
  | true =>
    cases c with
    | registerWrite => exact execRegisterWrite_holds ..
    | lowWordRead => exact execLowWordRead_holds ..
    | lowWordWrite => exact execLowWordWrite_holds ..
    | highWordWrite => exact execHighWordWrite_holds ..
    | resetRequest => exact execResetRequest_holds ..
    | startUp => exact execStartUp_holds ..
    | islClkctlWrite => exact execIslClkctlWrite_holds ..
    | fence => exact execFence_holds ..
    | amo => exact execAmo_holds ..
    | storeConditional => exact execStoreConditional_holds ..
    | remoteTcmWrite => exact execRemoteTcmWrite_holds ..
    | bar2Read => exact execBar2Read_holds ..
    | dout => exact execDout_holds ..
    | broadcastWrite => exact execBroadcastWrite_holds ..
    | firmwareCommit => exact execFirmwareCommit_holds ..
    | activationDrainTimeout => exact execActivationDrainTimeout_holds ..
    | activationSwitch => exact execActivationSwitch_holds ..
    | kweOperationDone => exact execKweOperationDone_holds ..
    | bootWatchdogExpiry => exact execBootWatchdogExpiry_holds ..
    | recoveryResetDelay => exact execRecoveryResetDelay_holds ..
    | dmaDone => exact execDmaDone_holds ..
    | dramPatrolScrub => exact execDramPatrolScrub_holds ..
    | mramCoreStore => exact execMramCoreStore_holds ..
    | modeTransitionDone => exact execModeTransitionDone_holds ..
    | wakeEvent => exact execWakeEvent_holds ..
    | thermalTrip => exact execThermalTrip_holds ..
    | powerLoss => exact execPowerLoss_holds ..
    | powerLossSequenceEnd => exact execPowerLossSequenceEnd_holds ..
    | forwardedCommand => exact execForwardedCommand_holds ..
    | forwardedCompletion => exact execForwardedCompletion_holds ..
    | memberLossTimeout => exact execMemberLossTimeout_holds ..
    | memberFaultReport => exact execMemberFaultReport_holds ..
    | dbgaccess => exact execDbgaccess_holds ..
    | mbistDone => exact execMbistDone_holds ..
    | formationResetDelay => exact execFormationResetDelay_holds ..
    | coreStore => exact execCoreStore_holds ..
    | coldReset => cases hotp
    | warmReset => cases hotp
    | brownOut => cases hotp
    | otpProgramDone => cases hotp
    | _ => cases hstore

theorem execOtpProgramDone_straps (failed : Option (BitVec 6)) {s t : State} (h : exec (.otpProgramDone failed) s = .next t) :
    t.straps = s.straps := by
  rw [exec_otpProgramDone, execOtpProgramDone] at h
  cases hrun : s.boot.otpRun with
  | none =>
    rw [hrun] at h
    cases h
    rfl
  | some r =>
    rw [hrun] at h
    cases h
    exact (State.fixed_straps (State.secPost_fixed ..)).trans rfl

/-- Every command that samples the straps can change the OTP. -/
theorem Instr.samplesStraps_of_programsOtp {c : Instr} (h : c.programsOtp = false) : c.samplesStraps = false := by
  cases c with
  | coldReset | brownOut | warmReset => cases h
  | _ => rfl

/-- The queue, the ordering code and the canonical form of memory outlast every command. -/
theorem exec_sounds (c : Instr) (s : State) : Sounds (exec c s) s := by
  cases hotp : c.programsOtp with
  | false =>
    exact (exec_holding (Instr.samplesStraps_of_programsOtp hotp) hotp s).sounds
  | true =>
    cases c with
    | coldReset => exact execColdReset_sound ..
    | brownOut => exact execBrownOut_sound ..
    | warmReset => exact execWarmReset_sound ..
    | otpProgramDone => exact execOtpProgramDone_sound ..
    | _ => cases hotp

/-- Each law of an answer, read off where the answer is known. -/
theorem Keeps.of_next {o : Host.Outcome State Fault Refusal} {s t : State} (h : Keeps o s) (ho : o = .next t) : t.fixed = s.fixed := by
  subst ho
  exact h

theorem Holding.of_next {o : Host.Outcome State Fault Refusal} {s t : State} (h : Holding o s) (ho : o = .next t) : Holds s t := by
  subst ho
  exact h

theorem Sounds.of_next {o : Host.Outcome State Fault Refusal} {s t : State} (h : Sounds o s) (ho : o = .next t) : Sound s t := by
  subst ho
  exact h

/-! ### Every command answers -/

/-- An answer that is a next state. -/
def Answers (o : Host.Outcome State Fault Refusal) : Prop := ∃ t, o = .next t

theorem Answers.next (t : State) : Answers (.next t) := ⟨t, rfl⟩

theorem Answers.ite {c : Prop} [Decidable c] {a b : Host.Outcome State Fault Refusal} (ha : Answers a) (hb : Answers b) :
    Answers (if c then a else b) := by
  split
  · exact ha
  · exact hb

theorem State.admin_answers (s : State) (fn : Nat) (e : Sqe) (n : AdminNeeds) (run : State → State) :
    Answers (s.admin fn e n run) := by
  refine Answers.ite (Answers.next _) (Answers.ite ?_ (Answers.next _))
  cases s.adminDenies fn n <;> exact Answers.next _

theorem State.adminTunnel_answers (s : State) (fn : Nat) (e : Sqe) (n : AdminNeeds) (ok : Bool) (run : State → State) :
    Answers (s.adminTunnel fn e n ok run) :=
  Answers.ite (Answers.next _) (s.admin_answers ..)

theorem State.negotiated_answers (s : State) (e : EpId) (run : State → State) : Answers (s.negotiated e run) :=
  Answers.ite (Answers.next _) (Answers.ite (Answers.next _) (Answers.next _))

/-- The meanings that always go on to a next state are so by their form; admin commands and SPDM requests are so by their guards; every
branch of the rest is a next state. -/
theorem exec_answers (c : Instr) (s : State) : Answers (exec c s) := by
  cases c with
  | coldReset | brownOut | resetRequest | fenceI | bar2Write | podDispatch | transferFailure | convStripeAgeExpiry | slotOpen |
  slotClose | halt | sel | cmd | addr | din | dout | wait | poll | ldi | ldih | mov | add | sub | and | or | xor | shl | shr |
  br | brc | call | ret | pop | postDone | postPark | postSusp | tstart | twait | timerExpiry | evt | pgen | pchk | seqRun |
  seqStop | directOpGo | linkEnable | diagctlWrite | functionLevelReset | kweLockWrite | kweGen | kweWrap | kweUnwrap | kweZero
  | kweSeal | kweUnseal | xtsNskWrite | bootWatchdogStop | otpCommandGo | dmcCfgLock | dmaCopy | dmaFill | dmaCheck |
  pstateRequest | pwrcapAssert | pwrcapRelease | hucfgWrite | vukLinkEnable | pathFailureReroute | setdasa | evpostWrite |
  tapReset | idcode | samplePreload | highz | clamp | extestPulse | extestTrain | bypass | mbistGo | generalTimerExpiry => exact Answers.next _
  | _ =>
    dsimp only [exec]
    delta
      execRegisterWrite execLowWordRead execLowWordWrite execHighWordWrite execWarmReset execStartUp execIslClkctlWrite
      execPllLock execPllLossOfLock execHandshakeTimeout execFabPortctlWrite execPowerGatedAccess execFence execAmo
      execLoadReserved execStoreConditional execRemoteTcmWrite execBar2Read execSqTailDoorbell execCqHeadDoorbell
      execArbiterTurn execPeekEntryArrival execWbstarveExpiry execHostDataArrival execDmcBufferAck execHuskSliceEntryAck
      execPowerTokenGrant execDieOpDone execHuskCloseEntryAck execStageAgeExpiry execStageFillTimeout execFoldStart
      execStageReclaim execMapCheckpoint execWrite execZoneAppend execCopy execRead execCompare execFusedCompareWrite
      execVerify execWriteZeroes execDatasetManagement execFlush execIoManagementSend execIoManagementReceive execZoneOpen
      execZoneClose execZoneFinish execZoneReset execZoneOffline execZoneMgmtEffect execZoneManagementReceive
      execReconstructionDone execSuspholdExpiry execLdcDecodeDone execWatchdogExpiry execHardLimitExpiry execAbortDoneTimeout
      execSuspectPeriodExpiry execDiecmdRetire execDiecmdFail execRebuildJobStart execStartupHuskReplay execTornRepair
      execSampleBoundary execLpeHoldWrite execLpeExtmeasWrite execParkDelayExpiry execChannelFaultTimeout execBroadcastWrite
      execEraseLedgerWriteAck execEraseLedgerClearAck execPreeraseStart execWearRelocationStart execScrubVisit execLinkTrained
      execPerstAssert execPerstDeassert execSurpriseLinkDown execL0pWidthRequest execIdeIntegrityFail execIdeKmKeyProgram
      execVfEnableWrite execCreateIoSq execCreateIoCq execDeleteIoSq execDeleteIoCq execGetLogPage execIdentify execAbort
      execSetFeatures execGetFeatures execAsyncEventRequest execNamespaceManagement execNamespaceAttachment
      execFirmwareImageDownload execFirmwareCommit execActivationDrainTimeout execActivationSwitch execDirectiveSend
      execDirectiveReceive execVirtualizationManagement execNvmeMiSend execNvmeMiReceive execFormatNvm execSanitize
      execTenancyCreate execTenancyDelete execSetQuotas execMapVf execSetRankSets execFormGeometry execReadDescriptor
      execGovernorRead execGovernorWrite execRecorderFreeze execRecorderUnfreeze execRecorderRead execRecorderClearView
      execGeometryReport execResourceClaim execResourceRelease execDiagWindowOpen execDiagWindowClose execLinkTestStart
      execLinkTestStop execLinkTestStatus execLinkTestDurationExpiry execControllerReset execControllerEnable
      execNvmSubsystemReset execShutdownNotification execKweLockRead execKweOperationDone execEntropyTestFail
      execBootWatchdogExpiry execOtpProgramDone execGetVersion execGetCapabilities execNegotiateAlgorithms execGetDigests
      execGetCertificate execChallenge execGetMeasurements execKeyExchange execFinish execSlhDsaSignatureRequest
      execSlhDsaSignDone execRecoveryResetDelay execReadNvmeMiDataStructure execSubsystemHealthStatusPoll execDmaDone
      execDramPatrolScrub execMergeWritebackTimeout execMramCoreStore execModeTransitionDone execWakeEvent execWakeTimerExpiry
      execAvsStep execThermalTrip execPowerLoss execPowerLossSequenceEnd execVukTrainingRetry execHello execLinkAuthentication
      execLinkKeyRenewal execVukoroFrame execEnum execDupmaster execNodeList execMemberReady execCsyncPulse execTimeOrderedSet
      execForwardedCommand execForwardedCompletion execMemberLossTimeout execMemberFaultReport execOrphanTimeout execEntdaa
      execRstdaa execArpAssignAddress execSmbusTransaction execSetEndpointId execEventRecordArrival execEventFlushDone
      execRateWindowEnd execFreezeTimeout execTemperatureSample execVoltageSample execRingOscGate execClaimWrite
      execClaimRelease execExtest execDbgaccess execJtagMbist execMbistDone execMinimumRunTimeElapsed execFormationResetDelay
      execEntropyRestartTestPass execEntropyWaitTimeout execPatternCheckerLostLock execLinkPowerStateChange
      execInterruptCoalescingTimeout execEndSession execVukoroLinkDown execCoreStore
    repeat' first
      | with_reducible exact Answers.next _
      | with_reducible exact State.admin_answers ..
      | with_reducible exact State.adminTunnel_answers ..
      | with_reducible exact State.negotiated_answers ..
      | with_reducible refine Answers.ite ?_ ?_
      | split
      | dsimp only

/-! ### Steps -/

theorem step_of_pending_nil {s : State} (h : s.pending = []) : step s = .next s.idle := by
  rw [step, h]

theorem step_of_pending_cons {s : State} {c : Instr} {cs : List Instr} (h : s.pending = c :: cs) :
    step s = exec c { s with pending := cs } := by
  rw [step, h]

/-- Settles O1. -/
theorem stepRunsFront : Obligations.step_runs_front := by
  unfold Obligations.step_runs_front
  exact fun s c cs => step_of_pending_cons rfl

/-- Settles O2: the idle step keeps all that `State.fixed` lists. -/
theorem idleStep : Obligations.idle_step := by
  unfold Obligations.idle_step
  intro s hempty
  have hfixed := s.idle_fixed
  refine ⟨s.idle, step_of_pending_nil hempty, (State.fixed_pending hfixed).trans hempty, fun a => ?_, State.fixed_straps hfixed,
    State.fixed_xb hfixed, State.fixed_otp hfixed⟩
  rw [State.fixed_mem hfixed]

/-- Settles O3: no byte is listed at reset. -/
theorem resetInvariant : Obligations.reset_invariant := by
  unfold Obligations.reset_invariant
  rfl

/-- Settles O5. -/
theorem everyCommandAnswers : Obligations.every_command_answers := by
  unfold Obligations.every_command_answers
  exact exec_answers

/-- Settles O6: an idle step leaves memory alone, and every command keeps its canonical form. -/
theorem stepKeepsInvariant : Obligations.step_keeps_invariant := by
  unfold Obligations.step_keeps_invariant
  intro s t hinv hstep
  cases hqueue : s.pending with
  | nil =>
    rw [step_of_pending_nil hqueue] at hstep
    obtain rfl := Host.Outcome.next.inj hstep
    exact (Holds.of_fixed s.idle_fixed).wf hinv
  | cons c cs =>
    rw [step_of_pending_cons hqueue] at hstep
    exact ((exec_sounds c _).of_next hstep).wf hinv

/-- Settles O7. -/
theorem execKeepsQueue : Obligations.exec_keeps_queue := by
  unfold Obligations.exec_keeps_queue
  intro c s t hexec
  have hsound := (exec_sounds c s).of_next hexec
  exact ⟨hsound.pending, hsound.xb⟩

/-- Settles O8. -/
theorem memoryFrame : Obligations.memory_frame := by
  unfold Obligations.memory_frame
  intro c s t hstore hexec
  have hfixed := (exec_keeps hstore s).of_next hexec
  refine ⟨fun a => ?_, State.fixed_straps hfixed, State.fixed_otp hfixed⟩
  rw [State.fixed_mem hfixed]

/-- Settles O9: but for the resets and the end of an OTP programming every command keeps both, the end of a programming keeps the
straps, and a cold reset samples them. -/
theorem strapsAndOtpIsolated : Obligations.straps_and_otp_isolated := by
  unfold Obligations.straps_and_otp_isolated
  refine ⟨fun c s t hstraps hexec => ?straps, fun c s t hotp hexec => ?otp, fun p m b bad s => ⟨_, rfl, ?cold⟩,
    fun p m b bad s => ⟨_, rfl, ?brownOut⟩⟩
  case straps =>
    cases hotp : c.programsOtp with
    | false => exact ((exec_holding hstraps hotp s).of_next hexec).straps
    | true =>
      cases c with
      | otpProgramDone failed => exact execOtpProgramDone_straps failed hexec
      | coldReset | brownOut | warmReset => cases hstraps
      | _ => cases hotp
  case otp => exact ((exec_holding (Instr.samplesStraps_of_programsOtp hotp) hotp s).of_next hexec).otp
  case cold | brownOut => exact (State.deviceReset_sound ..).2

end Sys2Proof.Machine
end

section
/-! PROOFS. The registers at reset. -/

namespace Sys2Proof.Machine

theorem State.reset_word {key : Nat} (h0 : key ≠ 0x301000) (h1 : key ≠ 0x301004) (h2 : key ≠ 0x301008) :
    State.reset.word key = resetWord key := by
  have hfind : Tab.find State.reset.csr key = none := by
    simp only [State.reset, Tab.find, if_neg h0.symm, if_neg h1.symm, if_neg h2.symm]
  rw [State.word, hfind]

theorem State.reset_islands (isl : Isl) : State.reset.fld (F.ISL_ID_INDEX isl.val) = isl.val ∧
    State.reset.flag (F.ISL_CLKCTL_PLLEN isl.val) = false ∧ State.reset.flag (F.ISL_CLKSTAT_SRCACT isl.val) = false ∧
    State.reset.flag (F.ISL_CLKSTAT_LOCK isl.val) = false := by
  revert isl
  decide +kernel

theorem State.reset_seqstat (n : Chan) : State.reset.fld (F.CH_SEQSTAT_STATE n.val) = 0 := by
  revert n
  decide +kernel

/-- Settles O4: only the key slot attributes are listed at reset, and the other values are those of the table. -/
theorem resetRegisters : Obligations.reset_registers := by
  unfold Obligations.reset_registers
  have hloops : State.reset.fld (F.LPE_SP_TARGET 144) = 0x5F00 ∧ State.reset.flag F.KWE_LOCK_HELD = false := by decide +kernel
  exact ⟨fun _ => State.reset_word, State.reset_islands, hloops.1, hloops.2, State.reset_seqstat⟩

end Sys2Proof.Machine
end

section
/-! PROOFS. Kazino words (R203): encoding and decoding agree. -/

namespace Sys2Proof

open Machine

theorem filter_wf_of_wf {i : Instr} (h : i.wf = true) : (some i).filter Instr.wf = some i := if_pos h

/-- Well-formedness asks nothing of a die's bytes but their number. -/
theorem Instr.wf_bare {i : Instr} (h : i.wf = true) : i.bare.wf = true := by
  cases i with
  | dout | pchk =>
    simp only [Instr.wf, Instr.kzOk, Instr.bare, List.length_replicate] at h ⊢
    exact h
  | _ => exact h

/-- The fields of an instruction's own word spell the instruction, without the bytes a die gives it. -/
theorem kzDecode_of_kzFields {n : Chan} {f : Fetch} {i : Instr} {op : BitVec 6} {rd rs : BitVec 4} {imm : BitVec 18} {w : W32}
    (hwf : i.wf = true) (hfields : kzFields n f op rd rs imm = some i.bare) (hword : some (kzPack op rd rs imm) = some w) :
    kzDecode n f w = some i.bare := by
  cases hword
  rw [kzDecode_pack, hfields, filter_wf_of_wf (Instr.wf_bare hwf)]

/-- Settles O10: each instruction's fields are those its opcode uses; a POST's kind stands in its immediate, and DOUT and PCHK hold as many
bytes as theirs says. -/
theorem kazinoWordsRoundTrip : Obligations.kazino_words_round_trip := by
  unfold Obligations.kazino_words_round_trip
  intro n f i w hwf hsite hword
  have hok := Instr.kzOk_of_wf hwf
  cases i with
  | postDone _ _ _ _ imm | postPark _ _ _ _ imm | postSusp _ _ _ _ imm =>
    cases hsite
    have hkind : imm.toNat / 4096 % 4 = _ := postImm_kind hok
    exact kzDecode_of_kzFields hwf (by simp [kzFields, Instr.bare, hkind]) hword
  | dout | pchk =>
    cases hsite
    simp only [Instr.kzOk, Bool.and_eq_true, beq_iff_eq] at hok
    exact kzDecode_of_kzFields hwf (by simp [kzFields, Instr.bare, hok.2]) hword
  | halt | sel | cmd | addr | din | wait | poll | ldi | ldih | mov | add | sub | and | or | xor | shl | shr | br | brc | call | ret
  | pop | tstart | twait | evt | pgen =>
    cases hsite
    exact kzDecode_of_kzFields hwf rfl hword
  | _ => cases hsite

/-- The instruction that fields spell has the word of those fields. -/
theorem kzEncode_of_kzFields {n : Chan} {f : Fetch} {op : BitVec 6} {rd rs : BitVec 4} {imm : BitVec 18} {i : Instr}
    (h : kzFields n f op rd rs imm = some i) : kzEncode i = some (kzPack op rd rs imm) ∧ i.site = some (n, f) := by
  have hop : BitVec.ofNat 6 op.toNat = op := by simp
  unfold kzFields at h
  repeat' split at h
  all_goals cases h
  all_goals grind [kzEncode, Instr.site]

/-- The example of R203 decodes, its bytes not yet given. -/
theorem kzDecode_dout_example :
    kzDecode 0 .ok 0x21AC11C0 = some (.dout 0 .ok 6 11 0x11C0 (List.replicate 0x11C0 0)) := by
  have hwf : (Instr.dout 0 .ok 6 11 0x11C0 (List.replicate 0x11C0 0)).wf = true := by
    simp only [Instr.wf, Instr.kzOk, List.length_replicate]
    decide +kernel
  have hdecode := kazinoWordsRoundTrip _ _ _ 0x21AC11C0 hwf rfl (by decide +kernel)
  rwa [Instr.bare, List.length_replicate] at hdecode

/-- Settles O11: the word's fields are the packed ones, and the examples are evaluated. -/
theorem kazinoWords : Obligations.kazino_words := by
  unfold Obligations.kazino_words
  refine ⟨fun n f i w hdecode => ?_, fun _ => congrArg some (by decide +kernel : kzPack 0x08 6 11 0x11C0 = 0x21AC11C0), kzDecode_dout_example, by decide +kernel⟩
  obtain ⟨hfields, hwf⟩ := Option.filter_eq_some_iff.mp hdecode
  obtain ⟨hword, hsite⟩ := kzEncode_of_kzFields hfields
  rw [kzPack_fields] at hword
  exact ⟨hword, hwf, hsite⟩

end Sys2Proof
end

section
/-! PROOFS. Accesses of registers through the fabric, and the words of 64-bit registers (R12, R13, R220, R263). -/

namespace Sys2Proof.Machine

/-! ### Writes and reads of one word and of two -/

/-- A write by a requester other than HIF is the fabric's write. -/
theorem exec_registerWrite_of_not_hif {q : Requester} {isl : Isl} {off : BitVec 20} {size : Fin 4} {v : W64} {s : State}
    (h : q.isHif = false) :
    exec (.registerWrite q isl off size v) s = .next (s.csrWrite q isl.val off.toNat size.val v.toNat) := by
  cases q with
  | hif => cases h
  | _ => rfl

/-- A read of an offset that HIF may see is the fabric's read. -/
theorem exec_lowWordRead_of_seen {q : Requester} {isl : Isl} {off : BitVec 20} {size : Fin 4} {s : State}
    (h : q.isHif = true → hifHidden isl.val off.toNat = false) :
    exec (.lowWordRead q isl off size) s = .next (s.csrRead q isl.val off.toNat size.val) := by
  cases q with
  | hif => exact if_neg (ne_true_of_eq_false (h rfl))
  | _ => rfl

/-- A broadcast write that reaches CH000 is the write of one word in every populated channel that is stopped and whose port takes it. -/
theorem State.csrWrite_broadcast {s : State} {q : Requester} {x : Nat} (v : W32) (h : s.reaches q 0x30 (0x80000 + x) 2) :
    s.csrWrite q 0x30 (0x80000 + x) 2 v.toNat =
      ((List.range (if s.fld F.ZNE_GEOM_CHANNELS = 0 then 128 else s.fld F.ZNE_GEOM_CHANNELS)).filter
        fun n => s.fld (F.CH_SEQSTAT_STATE n) == 0 && !s.portDown (0x30 + n)).foldl
          (fun s n => s.wordWrite q (0x30 + n) x v.toNat) s := by
  unfold State.csrWrite
  rw [State.access_run _ _ h]
  simp only [Nat.le_add_right, and_self, if_true, Nat.add_sub_cancel_left, word_mod]

theorem exec_broadcastWrite_of_not_hif {q : Requester} {x : BitVec 19} {v : W32} {s : State} (h : q.isHif = false) :
    exec (.broadcastWrite q x v) s = .next (s.csrWrite q 0x30 (0x80000 + x.toNat) 2 v.toNat) := by
  cases q with
  | hif => cases h
  | _ => rfl

/-! ### BAR2 -/

/-- What BAR2_READ does for the doubleword at offset o: HIF reads it where the window shows it, and else answers 0. -/
def State.bar2Word (s : State) (p : Port) (isl o : Nat) : State :=
  if s.flag (F.HIF_DIAGCTL_OPEN p.val) = false ∨ hifHidden isl o = true ∨ s.gated isl = true ∨ 0x100000 ≤ o ∨ 176 ≤ isl then
    s.answer (.hif p) 0
  else s.csrRead (.hif p) isl o 2

theorem exec_bar2Read_eq (p : Port) (off : BitVec 20) (n : BitVec 10) (s : State) : exec (.bar2Read p off n) s =
    .next ((List.range (n.toNat + 1)).foldl
      (fun t k => t.bar2Word p (s.fld (F.HIF_DIAGCTL_ISEL p.val)) (off.toNat / 4 * 4 + 4 * k)) s) := rfl

theorem exec_bar2Read_zero (p : Port) (off : BitVec 20) (s : State) : exec (.bar2Read p off 0) s =
    .next (s.bar2Word p (s.fld (F.HIF_DIAGCTL_ISEL p.val)) (off.toNat / 4 * 4)) := rfl

/-- HIF's read of a word changes no register: the key engine's lock is granted to cores alone. -/
theorem State.wordReadAt_hif_csr (s : State) (p : Port) (isl off : Nat) (x : Option (RegDef × Nat × Nat)) :
    (s.wordReadAt (.hif p) isl off x).2.csr = s.csr := by
  cases x with
  | none =>
    simp only [State.wordReadAt]
    split
    · rfl
    · split <;> rfl
  | some x =>
    obtain ⟨d, i, sub⟩ := x
    have hlock : (if d.id = .KWE_LOCK then s.kweLockRead (.hif p) else s) = s := ite_self s
    simp only [State.wordReadAt, hlock]
    split
    · rfl
    · split
      · rfl
      · split <;> rfl

/-- A read by HIF that does not reach its island changes no register. -/
theorem State.access_csr_of_not_reaches {s : State} {p : Port} {isl off size : Nat} (run : State → State)
    (h : ¬ s.reaches (.hif p) isl off size) : (s.access (.hif p) false isl off size run).csr = s.csr := by
  unfold State.access
  split
  case isTrue => rfl
  case isFalse hmay =>
  split
  case isTrue => rfl
  case isFalse hgated =>
  split
  case isTrue => rfl
  case isFalse hisolated =>
  split
  case isTrue => rfl
  case isFalse hshape =>
  refine absurd ⟨?_, ?_, ?_, ?_, ?_⟩ h
  · exact eq_true_of_ne_false hmay
  · exact eq_false_of_ne_true hgated
  · exact eq_false_of_ne_true hisolated
  · omega
  · omega

theorem State.csrRead_hif_csr (s : State) (p : Port) (isl off : Nat) : (s.csrRead (.hif p) isl off 2).csr = s.csr := by
  by_cases hreach : s.reaches (.hif p) isl off 2
  · rw [State.csrRead_word hreach, State.answer_csr, State.wordRead]
    exact s.wordReadAt_hif_csr p isl off _
  · exact State.access_csr_of_not_reaches _ hreach

theorem State.bar2Word_csr (s : State) (p : Port) (isl o : Nat) : (s.bar2Word p isl o).csr = s.csr := by
  unfold State.bar2Word
  split
  · rfl
  · exact s.csrRead_hif_csr p isl o

theorem State.foldl_bar2Word_csr (s : State) (p : Port) (isl : Nat) (o : Nat → Nat) (ks : List Nat) :
    (ks.foldl (fun t k => t.bar2Word p isl (o k)) s).csr = s.csr := by
  induction ks generalizing s with
  | nil => rfl
  | cons k ks ih => exact (ih _).trans (s.bar2Word_csr p isl (o k))

theorem State.fld_of_csr {s t : State} (h : t.csr = s.csr) (f : Fld) : t.fld f = s.fld f := by
  unfold State.fld State.word
  rw [h]

/-- A read of one doubleword more is the shorter read and then the read of that doubleword: the window's island stays selected. -/
theorem exec_bar2Read_succ {p : Port} {off : BitVec 20} {n : BitVec 10} {s t : State} (hn : n.toNat < 1023)
    (hoff : off.toNat / 4 * 4 + 4 * (n.toNat + 1) < 0x100000) (h : exec (.bar2Read p off n) s = .next t) :
    exec (.bar2Read p off (n + 1)) s = exec (.bar2Read p (BitVec.ofNat 20 (off.toNat / 4 * 4 + 4 * (n.toNat + 1))) 0) t := by
  rw [exec_bar2Read_eq] at h
  obtain rfl := Host.Outcome.next.inj h
  have hcount : (n + 1).toNat = n.toNat + 1 := by
    rw [BitVec.toNat_add]
    exact Nat.mod_eq_of_lt (by change n.toNat + 1 < 1024; omega)
  have hstart : (BitVec.ofNat 20 (off.toNat / 4 * 4 + 4 * (n.toNat + 1))).toNat / 4 * 4 =
      off.toNat / 4 * 4 + 4 * (n.toNat + 1) := by
    rw [BitVec.toNat_ofNat, Nat.mod_eq_of_lt hoff]
    omega
  rw [exec_bar2Read_eq, exec_bar2Read_zero, hcount, hstart, List.range_succ, List.foldl_append,
    State.fld_of_csr (s.foldl_bar2Word_csr p _ _ _)]
  rfl

/-- Settles O12: an access that reaches its island is made of accesses of words. -/
theorem registerAccesses : Obligations.register_accesses := by
  unfold Obligations.register_accesses
  refine ⟨fun q isl off v s hq hreach hwindow => ?write, fun q isl off v s hq hreach hwindow => ?writeTwo, fun _ _ _ _ _ _ => rfl,
    fun q isl off s hseen hreach => ?read, fun q isl off s hseen hreach => ?readTwo, fun q x v s hq hreach => ?broadcast,
    fun p off s hopen hhidden hgated hisl => ?bar2, fun p off n s t hn hoff => exec_bar2Read_succ hn hoff, fun _ _ _ _ => rfl⟩
  case write =>
    rw [exec_registerWrite_of_not_hif hq]
    exact congrArg _ (State.csrWrite_word _ hreach hwindow)
  case writeTwo =>
    have hhigh : v.toNat / 2 ^ 32 % 2 ^ 32 = v.toNat / 2 ^ 32 := Nat.mod_eq_of_lt (by omega)
    rw [exec_registerWrite_of_not_hif hq]
    refine congrArg _ ((State.csrWrite_doubleword _ hreach hwindow).trans ?_)
    rw [hhigh]
  case read =>
    rw [exec_lowWordRead_of_seen hseen]
    exact congrArg _ (State.csrRead_word hreach)
  case readTwo =>
    rw [exec_lowWordRead_of_seen hseen]
    exact congrArg _ (State.csrRead_doubleword hreach Prod.mk.eta.symm Prod.mk.eta.symm)
  case broadcast =>
    rw [exec_broadcastWrite_of_not_hif hq]
    exact congrArg _ (State.csrWrite_broadcast v hreach)
  case bar2 =>
    rw [exec_bar2Read_zero, State.bar2Word, if_neg]
    simp only [hopen, hhidden, hgated, Bool.true_eq_false, Bool.false_eq_true, false_or]
    omega

/-! ### 64-bit registers by words (R13) -/

/-- The low word of a 64-bit register that stands at an offset is read, and the high word latched. -/
theorem State.wordRead_low {s : State} {q : Requester} {isl off k : Nat} {d : RegDef}
    (hfind : regFind (regKey isl off) = some (d, k, 0)) (hwide : d.wide = true) (hlock : d.id ≠ .KWE_LOCK) :
    s.wordRead q isl off = (s.shown d isl k (regKey isl off) % 2 ^ 32, { s with
      latch := Tab.set s.latch (latchKey q (regKey isl off)) (BitVec.ofNat 32 (s.shown d isl k (regKey isl off) / 2 ^ 32)) }) := by
  unfold State.wordRead
  rw [hfind]
  simp only [State.wordReadAt, if_neg hlock, hwide, Bool.true_eq_false, if_false, if_true, Nat.sub_zero]

/-- The high word is the latched one, and the latch is emptied. -/
theorem State.wordRead_high_latched {s : State} {q : Requester} {isl off k : Nat} {d : RegDef} {h : W32}
    (hfind : regFind (regKey isl off) = some (d, k, 4)) (hwide : d.wide = true) (hlock : d.id ≠ .KWE_LOCK)
    (hlatch : Tab.find s.latch (latchKey q (regKey isl off - 4)) = some h) :
    s.wordRead q isl off = (h.toNat, { s with latch := Tab.erase s.latch (latchKey q (regKey isl off - 4)) }) := by
  unfold State.wordRead
  rw [hfind]
  simp only [State.wordReadAt, if_neg hlock, hwide, Bool.true_eq_false, if_false, Nat.reduceEqDiff, hlatch]

/-- With an empty latch the high word is the current one. -/
theorem State.wordRead_high_current {s : State} {q : Requester} {isl off k : Nat} {d : RegDef}
    (hfind : regFind (regKey isl off) = some (d, k, 4)) (hwide : d.wide = true) (hlock : d.id ≠ .KWE_LOCK)
    (hlatch : Tab.find s.latch (latchKey q (regKey isl off - 4)) = none) :
    s.wordRead q isl off = (s.shown d isl k (regKey isl off - 4) / 2 ^ 32, s) := by
  unfold State.wordRead
  rw [hfind]
  simp only [State.wordReadAt, if_neg hlock, hwide, Bool.true_eq_false, if_false, Nat.reduceEqDiff, hlatch]

/-- A write of the low word is held in the writer's shadow. -/
theorem State.wordWrite_low {s : State} {q : Requester} {isl off k v : Nat} {d : RegDef}
    (hfind : regFind (regKey isl off) = some (d, k, 0)) (hwide : d.wide = true) : s.wordWrite q isl off v =
      { s with shadow := Tab.set s.shadow (latchKey q (regKey isl off)) (BitVec.ofNat 32 v) } := by
  unfold State.wordWrite
  rw [hfind]
  simp only [State.wordWriteAt, hwide, Bool.true_eq_false, if_false, if_true, Nat.sub_zero]

/-- A write of the high word commits the shadow with it. -/
theorem State.wordWrite_high_shadowed {s : State} {q : Requester} {isl off k v : Nat} {d : RegDef} {lo : W32}
    (hfind : regFind (regKey isl off) = some (d, k, 4)) (hwide : d.wide = true)
    (hshadow : Tab.find s.shadow (latchKey q (regKey isl off - 4)) = some lo) : s.wordWrite q isl off v =
      State.regWrite { s with shadow := Tab.erase s.shadow (latchKey q (regKey isl off - 4)) } q d isl k
        (regKey isl off - 4) (lo.toNat + v * 2 ^ 32) (2 ^ 64 - 1) := by
  unfold State.wordWrite
  rw [hfind]
  simp only [State.wordWriteAt, hwide, Bool.true_eq_false, if_false, Nat.reduceEqDiff, hshadow]

/-- With an empty shadow the high word is written alone. -/
theorem State.wordWrite_high_alone {s : State} {q : Requester} {isl off k v : Nat} {d : RegDef}
    (hfind : regFind (regKey isl off) = some (d, k, 4)) (hwide : d.wide = true)
    (hshadow : Tab.find s.shadow (latchKey q (regKey isl off - 4)) = none) :
    s.wordWrite q isl off v = s.regWrite q d isl k (regKey isl off - 4) (v * 2 ^ 32) (2 ^ 64 - 2 ^ 32) := by
  unfold State.wordWrite
  rw [hfind]
  simp only [State.wordWriteAt, hwide, Bool.true_eq_false, if_false, Nat.reduceEqDiff, hshadow]

theorem isWord_of_regFind {isl off k sub : Nat} {d : RegDef} (hfind : regFind (regKey isl off) = some (d, k, sub))
    (hwide : d.wide = true) : isWord isl off sub = true := by
  unfold isWord
  rw [hfind]
  simp only [Option.any_some, hwide, beq_self_eq_true, Bool.and_self]

theorem exec_lowWordWrite_of_isWord {q : Requester} {isl : Isl} {off : BitVec 20} {v : W32} {s : State} (hq : q.isHif = false)
    (h : isWord isl.val off.toNat 0 = true) : exec (.lowWordWrite q isl off v) s = .next (s.csrWrite q isl.val off.toNat 2 v.toNat) := by
  cases q with
  | hif => cases hq
  | _ => exact if_pos h

theorem exec_highWordWrite_of_isWord {q : Requester} {isl : Isl} {off : BitVec 20} {v : W32} {s : State} (hq : q.isHif = false)
    (h : isWord isl.val off.toNat 4 = true) : exec (.highWordWrite q isl off v) s = .next (s.csrWrite q isl.val off.toNat 2 v.toNat) := by
  cases q with
  | hif => cases hq
  | _ => exact if_pos h

theorem Requester.index_injective {q q' : Requester} (h : q.index = q'.index) : q = q' := by
  cases q <;> cases q' <;> simp only [Requester.index] at h <;> grind

/-- Latches and shadows of two requesters never share a place. -/
theorem latchKey_ne {q q' : Requester} {key key' : Nat} (hq : q' ≠ q) (hkey' : key' < 2 ^ 40) (hkey : key < 2 ^ 40) :
    latchKey q' key' ≠ latchKey q key := by
  intro h
  unfold latchKey at h
  exact hq (Requester.index_injective (by omega))

/-- Settles O13: both words lie in one register, whose latches and shadows are kept by reader and writer. -/
theorem wordsOfWideRegisters : Obligations.words_of_wide_registers := by
  unfold Obligations.words_of_wide_registers
  intro q isl off hoff d k s hq hlow hhigh hnext hwide hlock hwindow key
  have hkey : regKey isl.val hoff.toNat - 4 = key := by
    unfold key regKey
    omega
  have hwindowLow : ¬(isl.val = 0x30 ∧ 0x80000 ≤ off.toNat) := by omega
  have hread {o : BitVec 20} : exec (.lowWordRead q isl o 2) s = .next (s.csrRead q isl.val o.toNat 2) :=
    exec_lowWordRead_of_seen fun h => absurd (hq.symm.trans h) Bool.false_ne_true
  refine ⟨fun hreach => ⟨?readLow, fun v => ?writeLow⟩,
    fun hreach => ⟨fun h hlatch => ?readLatched, fun hlatch => ?readCurrent, fun v lo hshadow => ?writeBoth, fun v hshadow => ?writeHigh⟩,
    fun q' key' hne hkey' hlt => latchKey_ne hne hkey' hlt⟩
  case readLow => rw [hread, State.csrRead_word hreach, State.wordRead_low hlow hwide hlock]
  case writeLow =>
    rw [exec_lowWordWrite_of_isWord hq (isWord_of_regFind hlow hwide), State.csrWrite_word _ hreach hwindowLow, word_mod,
      State.wordWrite_low hlow hwide, BitVec.ofNat_toNat, BitVec.setWidth_eq]
  case readLatched =>
    rw [← hkey] at hlatch ⊢
    rw [hread, State.csrRead_word hreach, State.wordRead_high_latched hhigh hwide hlock hlatch]
  case readCurrent =>
    rw [← hkey] at hlatch ⊢
    rw [hread, State.csrRead_word hreach, State.wordRead_high_current hhigh hwide hlock hlatch]
  case writeBoth =>
    rw [← hkey] at hshadow ⊢
    rw [exec_highWordWrite_of_isWord hq (isWord_of_regFind hhigh hwide), State.csrWrite_word _ hreach hwindow, word_mod,
      State.wordWrite_high_shadowed hhigh hwide hshadow]
  case writeHigh =>
    rw [← hkey] at hshadow ⊢
    rw [exec_highWordWrite_of_isWord hq (isWord_of_regFind hhigh hwide), State.csrWrite_word _ hreach hwindow, word_mod,
      State.wordWrite_high_alone hhigh hwide hshadow]

end Sys2Proof.Machine
end

section
/-! PROOFS. Access types (R8, R11, R439): the word a write leaves, field by field. -/

namespace Sys2Proof.Machine

/-! ### Words put together from fields -/

/-- Fields rise from bit L up without sharing a bit, within 64 bits. -/
def fieldsFrom : Nat → List FieldDef → Bool
  | _, [] => true
  | L, f :: fs => decide (L ≤ f.lo) && decide (f.lo + f.w ≤ 64) && fieldsFrom (f.lo + f.w) fs

theorem fieldsFrom_cons {L : Nat} {f : FieldDef} {fs : List FieldDef} :
    fieldsFrom L (f :: fs) = true ↔ L ≤ f.lo ∧ f.lo + f.w ≤ 64 ∧ fieldsFrom (f.lo + f.w) fs = true := by
  simp only [fieldsFrom, Bool.and_eq_true, decide_eq_true_eq, and_assoc]

theorem fieldsFrom_mem {L : Nat} {fs : List FieldDef} (h : fieldsFrom L fs = true) {f : FieldDef} (hf : f ∈ fs) :
    L ≤ f.lo ∧ f.lo + f.w ≤ 64 := by
  induction fs generalizing L with
  | nil => cases hf
  | cons g gs ih =>
    obtain ⟨hlo, hhi, hrest⟩ := fieldsFrom_cons.mp h
    rcases List.mem_cons.mp hf with rfl | hmem
    · exact ⟨hlo, hhi⟩
    · have := ih hrest hmem
      omega

/-- The fields of every register of the table rise so. -/
theorem regTable_fieldsFrom : ∀ d ∈ RegTable.all, fieldsFrom 0 d.fields = true := by
  decide +kernel

/-- The word whose fields hold the values P, above the bits of a. -/
def putFields (P : FieldDef → Nat) (fs : List FieldDef) (a : Nat) : Nat := fs.foldl (fun a f => a + P f * 2 ^ f.lo) a

theorem putFields_cons (P : FieldDef → Nat) (f : FieldDef) (fs : List FieldDef) (a : Nat) :
    putFields P (f :: fs) a = putFields P fs (a + P f * 2 ^ f.lo) := rfl

theorem add_field_lt {a lo w x : Nat} (ha : a < 2 ^ lo) (hx : x < 2 ^ w) : a + x * 2 ^ lo < 2 ^ (lo + w) := by
  calc a + x * 2 ^ lo < (x + 1) * 2 ^ lo := by rw [Nat.add_mul]; omega
    _ ≤ 2 ^ w * 2 ^ lo := Nat.mul_le_mul_right _ hx
    _ = 2 ^ (lo + w) := by rw [Nat.mul_comm, Nat.pow_add]

theorem testBit_add_field {a lo x b : Nat} (ha : a < 2 ^ lo) :
    (a + x * 2 ^ lo).testBit b = if b < lo then a.testBit b else x.testBit (b - lo) := by
  rw [Nat.add_comm, Nat.mul_comm]
  exact Nat.testBit_two_pow_mul_add x ha b

section

variable {P : FieldDef → Nat} (hP : ∀ f, P f < 2 ^ f.w)

include hP in
/-- A bit of no field is as it was below the fields. -/
theorem testBit_putFields_of_not_mem {L b : Nat} {fs : List FieldDef} {a : Nat} (hfs : fieldsFrom L fs = true) (ha : a < 2 ^ L)
    (hb : ∀ f ∈ fs, b < f.lo ∨ f.lo + f.w ≤ b) : (putFields P fs a).testBit b = a.testBit b := by
  induction fs generalizing L a with
  | nil => rfl
  | cons f fs ih =>
    obtain ⟨hlo, -, hrest⟩ := fieldsFrom_cons.mp hfs
    obtain ⟨hbf, hbfs⟩ := List.forall_mem_cons.mp hb
    have ha' : a < 2 ^ f.lo := Nat.lt_of_lt_of_le ha (Nat.pow_le_pow_right (by decide) hlo)
    rw [putFields_cons, ih hrest (add_field_lt ha' (hP f)) hbfs, testBit_add_field ha']
    split
    · rfl
    · have hbw : f.w ≤ b - f.lo := by omega
      rw [Nat.testBit_lt_two_pow (Nat.lt_of_lt_of_le (hP f) (Nat.pow_le_pow_right (by decide) hbw)),
        Nat.testBit_lt_two_pow (Nat.lt_of_lt_of_le ha' (Nat.pow_le_pow_right (by decide) (by omega)))]

include hP in
/-- A bit of a field is the value's. -/
theorem testBit_putFields_of_mem {L b : Nat} {fs : List FieldDef} {a : Nat} (hfs : fieldsFrom L fs = true) (ha : a < 2 ^ L)
    {f : FieldDef} (hf : f ∈ fs) (hlo : f.lo ≤ b) (hhi : b < f.lo + f.w) :
    (putFields P fs a).testBit b = (P f).testBit (b - f.lo) := by
  induction fs generalizing L a with
  | nil => cases hf
  | cons g gs ih =>
    obtain ⟨hL, -, hrest⟩ := fieldsFrom_cons.mp hfs
    have ha' : a < 2 ^ g.lo := Nat.lt_of_lt_of_le ha (Nat.pow_le_pow_right (by decide) hL)
    have hacc := add_field_lt ha' (hP g)
    rw [putFields_cons]
    rcases List.mem_cons.mp hf with rfl | hmem
    · have hout : ∀ g ∈ gs, b < g.lo ∨ g.lo + g.w ≤ b := fun g hg => by
        have := (fieldsFrom_mem hrest hg).1
        omega
      rw [testBit_putFields_of_not_mem hP hrest hacc hout, testBit_add_field ha', if_neg (by omega)]
    · exact ih hrest hacc hmem

include hP in
theorem bits_putFields {fs : List FieldDef} (hfs : fieldsFrom 0 fs = true) {f : FieldDef} (hf : f ∈ fs) :
    bits (putFields P fs 0) f.lo f.w = P f := by
  apply Nat.eq_of_testBit_eq
  intro i
  rw [bits, Nat.testBit_mod_two_pow, Nat.testBit_div_two_pow]
  by_cases hi : i < f.w
  · have hbit := testBit_putFields_of_mem hP hfs (by decide : 0 < 2 ^ 0) hf (b := i + f.lo) (by omega) (by omega)
    rw [hbit]
    simp [hi]
  · rw [Nat.testBit_lt_two_pow (Nat.lt_of_lt_of_le (hP f) (Nat.pow_le_pow_right (by decide) (Nat.not_lt.mp hi)))]
    simp [hi]

end

/-! ### What a write leaves in a field -/

theorem bits_lt (v lo w : Nat) : bits v lo w < 2 ^ w := Nat.mod_lt _ (Nat.two_pow_pos w)

theorem bits_toNat (x : W64) (lo w : Nat) : bits x.toNat lo w = (x.extractLsb' lo w).toNat := by
  rw [BitVec.extractLsb'_toNat, Nat.shiftRight_eq_div_pow, bits]

theorem bits_full_mask {lo w : Nat} (h : lo + w ≤ 64) : bits (2 ^ 64 - 1) lo w = 2 ^ w - 1 := by
  apply Nat.eq_of_testBit_eq
  intro i
  rw [bits, Nat.testBit_mod_two_pow, Nat.testBit_div_two_pow, Nat.testBit_two_pow_sub_one, Nat.testBit_two_pow_sub_one]
  by_cases hi : i < w
  · simp [hi, show i + lo < 64 by omega]
  · simp [hi]

/-- Clearing the bits of y in x takes away those that both have. -/
theorem toNat_and_not {w : Nat} (x y : BitVec w) : (x &&& ~~~y).toNat = x.toNat - (x.toNat &&& y.toNat) := by
  have hle : x &&& y ≤ x := by
    rw [BitVec.le_def, BitVec.toNat_and]
    exact Nat.and_le_left
  have hsplit : (x &&& y) + (x &&& ~~~y) = x := by
    have hdisjoint : (x &&& y) &&& (x &&& ~~~y) = 0#w := by
      ext i hi
      simp only [BitVec.getElem_and, BitVec.getElem_not, BitVec.getElem_zero]
      cases x[i] <;> cases y[i] <;> rfl
    rw [BitVec.add_eq_or_of_and_eq_zero _ _ hdisjoint, ← BitVec.and_or_distrib_left, BitVec.or_not_self, BitVec.and_allOnes]
  have hsub : x &&& ~~~y = x - (x &&& y) := (BitVec.sub_eq_iff_eq_add.mpr ((BitVec.add_comm _ _).trans hsplit).symm).symm
  rw [hsub, BitVec.toNat_sub_of_le hle, BitVec.toNat_and]

/-- A full write replaces, holds or clears a field by its type (R8). -/
theorem putField_full {t : FTy} {locked : Bool} {o n w : Nat} (ho : o < 2 ^ w) (hn : n < 2 ^ w) :
    putField t locked o n (2 ^ w - 1) =
      match t with
      | .rw | .rs => n
      | .ro => o
      | .rwl => if locked then o else n
      | .w1c => o - (o &&& n)
      | .wo => 0 := by
  have ho' : Nat.land o (2 ^ w - 1) = o := Nat.and_two_pow_sub_one_of_lt_two_pow ho
  have hn' : Nat.land n (2 ^ w - 1) = n := Nat.and_two_pow_sub_one_of_lt_two_pow hn
  have hrepl : Nat.lor (o - o) n = n := by
    rw [Nat.sub_self]
    exact Nat.zero_or n
  cases t with
  | w1c =>
    simp only [putField, hn']
    rfl
  | _ => simp only [putField, ho', hn', hrepl]

theorem putField_lt {t : FTy} {locked : Bool} {o n m w : Nat} (ho : o < 2 ^ w) (hn : n < 2 ^ w) :
    putField t locked o n m < 2 ^ w := by
  have hrepl : Nat.lor (o - Nat.land o m) (Nat.land n m) < 2 ^ w :=
    Nat.or_lt_two_pow (by omega) (Nat.lt_of_le_of_lt Nat.and_le_left hn)
  cases t with
  | ro => exact ho
  | rw | rs => exact hrepl
  | rwl =>
    cases locked with
    | true => exact ho
    | false => exact hrepl
  | w1c => exact Nat.lt_of_le_of_lt (Nat.sub_le ..) ho
  | wo => exact Nat.two_pow_pos w

/-- A word after a write is put together from its fields. -/
theorem mergeWord_eq_putFields (d : RegDef) (locked : Bool) (old v mask : Nat) : mergeWord d locked old v mask =
    putFields (fun f => putField f.ty locked (bits old f.lo f.w) (bits v f.lo f.w) (bits mask f.lo f.w)) d.fields 0 := rfl

/-- A write without hardware that follows the register leaves the merged word, and nothing where that breaks a range. -/
theorem State.plainWrite_of_invalid {s : State} {d : RegDef} {isl k key v mask : Nat}
    (h : s.validWord d k (mergeWord d (s.locked d isl) (s.word key).toNat v mask) = false) : s.plainWrite d isl k key v mask = s :=
  if_neg (ne_true_of_eq_false h)

theorem State.plainWrite_of_valid {s : State} {d : RegDef} {isl k key v mask : Nat}
    (h : s.validWord d k (mergeWord d (s.locked d isl) (s.word key).toNat v mask) = true) : s.plainWrite d isl k key v mask =
      (s.setWord key (BitVec.ofNat 64 (mergeWord d (s.locked d isl) (s.word key).toNat v mask))).follow d :=
  if_pos h

theorem State.follow_of_not_mem {s : State} {d : RegDef}
    (h : d.id ∉ [.ZNE_DIRTYCFG, .ZNE_TPRED1, .ZNE_PWRRES, .ZNE_PWRBUD, .ZNE_PCAP]) : s.follow d = s := by
  simp only [List.mem_cons, List.not_mem_nil, or_false, not_or] at h
  obtain ⟨hdirty, htpred, hpwrres, hpwrbud, hpcap⟩ := h
  unfold State.follow
  split
  iterate 5 contradiction
  rfl

/-- Settles O14: a word after a write is put together from its fields, each of which takes what its type says. -/
theorem accessTypes : Obligations.access_types := by
  unfold Obligations.access_types
  have hlt (locked : Bool) (old v : Nat) (f : FieldDef) :
      putField f.ty locked (bits old f.lo f.w) (bits v f.lo f.w) (bits (2 ^ 64 - 1) f.lo f.w) < 2 ^ f.w :=
    putField_lt (bits_lt ..) (bits_lt ..)
  refine ⟨fun d hd f hf locked old v => ?field, fun d hd locked old v b hb => ?gap, fun s d isl k key v mask =>
    ⟨State.plainWrite_of_invalid, fun hvalid hfollow => ?plain⟩⟩
  case field =>
    have hfields := regTable_fieldsFrom d hd
    rw [mergeWord_eq_putFields, bits_putFields (hlt locked old.toNat v.toNat) hfields hf, bits_full_mask (fieldsFrom_mem hfields hf).2,
      putField_full (bits_lt ..) (bits_lt ..)]
    cases f.ty with
    | w1c =>
      have hclear : (old &&& ~~~v).extractLsb' f.lo f.w = old.extractLsb' f.lo f.w &&& ~~~(v.extractLsb' f.lo f.w) := by
        ext i hi
        have := (fieldsFrom_mem hfields hf).2
        simp [show f.lo + i < 64 by omega]
      change bits old.toNat f.lo f.w - (bits old.toNat f.lo f.w &&& bits v.toNat f.lo f.w) = bits (old &&& ~~~v).toNat f.lo f.w
      rw [bits_toNat, bits_toNat, bits_toNat, hclear, toNat_and_not]
    | _ => rfl
  case gap =>
    rw [mergeWord_eq_putFields, testBit_putFields_of_not_mem (hlt locked old.toNat v.toNat) (regTable_fieldsFrom d hd) Nat.one_pos hb, Nat.zero_testBit]
  case plain => rw [State.plainWrite_of_valid hvalid, State.follow_of_not_mem hfollow]

end Sys2Proof.Machine
end

section
/-! PROOFS. Facts that several parts share: events that are posted, flags after their writes, bits of operands. -/

namespace Sys2Proof.Machine

/-! ### Events -/

/-- The event that an island posts (R398). -/
def State.eventOf (s : State) (src id : Nat) (items : List (Nat × Nat)) (ten : Nat) : Event :=
  ⟨s.now, id, src, sevOf id, ten, (packBits items).1, (packBits items).2⟩

/-- An event on its way to MGT. -/
def State.send (s : State) (e : Event) : State := { s with evr := { s.evr with transit := s.evr.transit ++ [e] } }

/-- While MGT has power an event goes on its way, and nothing else changes. -/
theorem State.post_of_powered {s : State} (src id : Nat) (items : List (Nat × Nat)) (ten : Nat) (h : s.gated 2 = false) :
    s.post src id items ten = s.send (s.eventOf src id items ten) :=
  if_neg (ne_true_of_eq_false h)

/-- An event changes no register but MGT's count of dropped events. -/
theorem State.word_post (s : State) (src id : Nat) (items : List (Nat × Nat)) (ten : Nat) {key : Nat} (h : key ≠ R.MGT_EVDROP) :
    (s.post src id items ten).word key = s.word key := by
  unfold State.post State.postEvent
  split
  · split
    · rfl
    · exact s.word_setWord_ne _ h
  · rfl

theorem State.fld_post (s : State) (src id : Nat) (items : List (Nat × Nat)) (ten : Nat) {f : Fld} (h : f.addr ≠ R.MGT_EVDROP) :
    (s.post src id items ten).fld f = s.fld f := by
  rw [State.fld, s.word_post src id items ten h, State.fld]

/-- An event changes neither memory nor any engine's data. -/
theorem State.post_keeps (s : State) (src id : Nat) (items : List (Nat × Nat)) (ten : Nat) :
    let t := s.post src id items ten
    t.mem = s.mem ∧ t.zne = s.zne ∧ t.hif = s.hif ∧ t.seqs = s.seqs ∧ t.boot = s.boot ∧ t.casc = s.casc ∧ t.power = s.power ∧
      t.fab = s.fab ∧ t.traps = s.traps ∧ t.sec = s.sec ∧ t.mgt = s.mgt ∧ t.lpe = s.lpe ∧ t.dram = s.dram ∧ t.now = s.now := by
  unfold State.post State.postEvent
  split
  · split <;> exact ⟨rfl, rfl, rfl, rfl, rfl, rfl, rfl, rfl, rfl, rfl, rfl, rfl, rfl, rfl⟩
  · exact ⟨rfl, rfl, rfl, rfl, rfl, rfl, rfl, rfl, rfl, rfl, rfl, rfl, rfl, rfl⟩

/-! ### Flags and operand bits -/

theorem State.flag_setFld_self (s : State) {f : Fld} (v : Nat) (hw : f.w = 1) (hlo : f.lo + 1 ≤ 64) :
    (s.setFld f v).flag f = decide (v % 2 = 1) := by
  rw [State.flag, State.fld_setFld_self _ _ _ (by omega), hw]
  rcases Nat.mod_two_eq_zero_or_one v with h | h <;> simp [h]

theorem State.flag_setFld_ne (s : State) {f g : Fld} (v : Nat) (h : g.addr ≠ f.addr) : (s.setFld f v).flag g = s.flag g := by
  rw [State.flag, State.fld_setFld_ne _ _ h, State.flag]

theorem bit_eq_testBit (v i : Nat) : bit v i = v.testBit i := by
  rw [Nat.testBit_eq_decide_div_mod_eq]
  rfl

theorem bit_toNat {w : Nat} (x : BitVec w) (i : Nat) : bit x.toNat i = x.getLsbD i := bit_eq_testBit _ _

theorem bits_one (v i : Nat) : bits v i 1 = b2n (bit v i) := by
  unfold bits bit b2n
  rcases Nat.mod_two_eq_zero_or_one (v / 2 ^ i) with h | h <;> simp [h]

/-! ### Writes of registers by their definition -/

/-- A write of the word of a 32-bit register is the write of the register. -/
theorem State.wordWrite_narrow {s : State} {q : Requester} {isl off k v : Nat} {d : RegDef}
    (hfind : regFind (regKey isl off) = some (d, k, 0)) (hnarrow : d.wide = false) :
    s.wordWrite q isl off v = s.regWrite q d isl k (regKey isl off) v (2 ^ 32 - 1) := by
  unfold State.wordWrite
  rw [hfind]
  simp only [State.wordWriteAt, hnarrow, if_true, Nat.sub_zero]

end Sys2Proof.Machine
end

section
/-! PROOFS. Island clocks and fabric ports (R15 to R17, R22). -/

namespace Sys2Proof.Machine

/-- ISL_CLKCTL stands at offset 8 of every island. -/
theorem regFind_islClkctl (isl : Isl) :
    ∃ d, regFind (regKey isl.val 8) = some (d, 0, 0) ∧ d.id = .ISL_CLKCTL ∧ d.wide = false := by
  have hfind : ∀ isl : Isl, (regFind (regKey isl.val 8)).map (fun x => (x.1.id, x.1.wide, x.2)) = some (.ISL_CLKCTL, false, 0, 0) := by
    decide +kernel
  obtain ⟨⟨d, i, sub⟩, hsome, heq⟩ := Option.map_eq_some_iff.mp (hfind isl)
  simp only [Prod.mk.injEq] at heq
  obtain ⟨hid, hwide, rfl, rfl⟩ := heq
  exact ⟨d, hsome, hid, hwide⟩

theorem exec_islClkctlWrite_of_reaches {q : Requester} {isl : Isl} {v : W32} {s : State} (hq : q.isHif = false)
    (hreach : s.reaches q isl.val 8 2) : exec (.islClkctlWrite q isl v) s = .next (s.clkWrite isl.val v.toNat) := by
  have hwrite : s.csrWrite q isl.val 8 2 v.toNat = s.clkWrite isl.val v.toNat := by
    obtain ⟨d, hfind, hid, hnarrow⟩ := regFind_islClkctl isl
    rw [State.csrWrite_word _ hreach (by omega), word_mod, State.wordWrite_narrow hfind hnarrow, State.regWrite, hid]
  cases q with
  | hif => cases hq
  | _ => exact congrArg _ hwrite

/-- An island moves to its PLL. -/
theorem State.clkWrite_pll {s : State} {isl v : Nat} (hisl : isl ≠ 0) (hen : bit v 0 = true) (hsrc : bit v 1 = true)
    (hpll : s.flag (F.ISL_CLKCTL_PLLEN isl) = true) (hlock : s.flag (F.ISL_CLKSTAT_LOCK isl) = true)
    (hphy : s.flag (F.ISL_CLKSTAT_SRCACT isl) = true ∨ s.phyOk isl = true) : s.clkWrite isl v =
      ((s.setFld (F.ISL_CLKCTL_PLLEN isl) 1).setFld (F.ISL_CLKCTL_SRC isl) 1).setFld (F.ISL_CLKSTAT_SRCACT isl) 1 := by
  unfold State.clkWrite
  have hblocked : ¬(s.flag (F.ISL_CLKSTAT_SRCACT isl) = false ∧ s.phyOk isl = false) := by
    rcases hphy with h | h <;> simp [h]
  rw [if_neg (by simp [hisl, hen, hpll, hlock, hsrc, hblocked])]
  simp only [bits_one, hen, hsrc, hpll, if_true]
  rfl

/-- An island moves back to its RC oscillator, its PLL off. -/
theorem State.clkWrite_rc {s : State} {isl v : Nat} (hisl : isl ≠ 0) (hen : bit v 0 = false) (hsrc : bit v 1 = false)
    (hpll : s.flag (F.ISL_CLKCTL_PLLEN isl) = true) : s.clkWrite isl v =
      (((s.setFld (F.ISL_CLKCTL_PLLEN isl) 0).setFld (F.ISL_CLKCTL_SRC isl) 0).setFld (F.ISL_CLKSTAT_SRCACT isl) 0).setFld
        (F.ISL_CLKSTAT_LOCK isl) 0 := by
  unfold State.clkWrite
  rw [if_neg (by simp [hisl, hsrc, hpll])]
  simp only [bits_one, hen, hsrc, hpll, if_true, Bool.false_eq_true, if_false]
  rfl

/-- The registers of an island whose selected PLL has lost lock (R16). -/
def State.lostLock (s : State) (isl : Nat) : State :=
  ((s.setFld (F.ISL_CLKSTAT_LOCK isl) 0).setFld (F.ISL_CLKSTAT_SRCACT isl) 0).setFld (F.ISL_CLKSTAT_LOSSLOCK isl) 1

theorem exec_pllLossOfLock_selected {isl : Isl} {s : State} (hlock : s.flag (F.ISL_CLKSTAT_LOCK isl.val) = true)
    (hact : s.flag (F.ISL_CLKSTAT_SRCACT isl.val) = true) :
    exec (.pllLossOfLock isl) s = .next ((s.lostLock isl.val).mgtPost 0x0A0D [(8, isl.val)]) := by
  rw [exec_pllLossOfLock, execPllLossOfLock, if_neg (ne_false_of_eq_true hlock)]
  exact if_pos hact

theorem State.lostLock_flds (s : State) (isl : Nat) : (s.lostLock isl).fld (F.ISL_CLKSTAT_LOCK isl) = 0 ∧
    (s.lostLock isl).fld (F.ISL_CLKSTAT_SRCACT isl) = 0 ∧ (s.lostLock isl).fld (F.ISL_CLKSTAT_LOSSLOCK isl) = 1 := by
  refine ⟨?lock, ?act, State.fld_setFld_self _ _ 1 (by decide : 2 + 1 ≤ 64)⟩
  case lock =>
    calc (s.lostLock isl).fld (F.ISL_CLKSTAT_LOCK isl)
      _ = _ := State.fld_setFld_disjoint _ _ (by decide : 0 + 1 ≤ 64) (.inl (by decide : 0 + 1 ≤ 2))
      _ = _ := State.fld_setFld_disjoint _ _ (by decide : 0 + 1 ≤ 64) (.inl (by decide : 0 + 1 ≤ 1))
      _ = 0 := State.fld_setFld_self _ _ 0 (by decide : 0 + 1 ≤ 64)
  case act =>
    calc (s.lostLock isl).fld (F.ISL_CLKSTAT_SRCACT isl)
      _ = _ := State.fld_setFld_disjoint _ _ (by decide : 1 + 1 ≤ 64) (.inl (by decide : 1 + 1 ≤ 2))
      _ = 0 := State.fld_setFld_self _ _ 0 (by decide : 1 + 1 ≤ 64)

/-- A port that FAB has isolated. -/
def State.isolate (s : State) (isl : Nat) : State :=
  { s with fab := { s.fab with isolated := if s.fab.isolated.contains isl then s.fab.isolated else isl :: s.fab.isolated } }

theorem State.isolate_contains (s : State) (isl : Nat) : (s.isolate isl).fab.isolated.contains isl = true := by
  unfold State.isolate
  by_cases h : s.fab.isolated.contains isl = true
  · simp only [h, if_true]
  · simp only [if_neg h, List.contains_cons, beq_self_eq_true, Bool.true_or]

theorem exec_handshakeTimeout_eq (q : Requester) (isl : Isl) (store : Bool) (a : BitVec 40) (s : State) :
    exec (.handshakeTimeout q isl store a) s = .next ((((s.isolate isl.val).portError isl.val).mgtPost 0x0A0E
      [(8, isl.val), (8, q.island)]).accessError q store a.toNat) := rfl

/-- Settles O17. -/
theorem clocksAndFabric : Obligations.clocks_and_fabric := by
  unfold Obligations.clocks_and_fabric
  refine ⟨fun q isl v s hq hreach hisl hen hsrc hpll hlock hphy => ?pll, fun q isl v s hq hreach hisl hen hsrc hpll => ?rc,
    fun isl s hen => ?lock, fun isl s hlock hact => ?loss, fun c isl store a s hpower => ?core,
    fun n isl store a s hbusy hpower => ?dma, fun c isl s hrun => ?enable⟩
  case pll =>
    rw [exec_islClkctlWrite_of_reaches hq hreach,
      State.clkWrite_pll hisl ((bit_toNat v 0).trans hen) ((bit_toNat v 1).trans hsrc) hpll hlock hphy]
  case rc =>
    rw [exec_islClkctlWrite_of_reaches hq hreach,
      State.clkWrite_rc hisl ((bit_toNat v 0).trans hen) ((bit_toNat v 1).trans hsrc) hpll]
  case lock => exact ⟨_, if_pos hen, rfl, State.fld_setFld_self s _ 1 (by decide : 0 + 1 ≤ 64)⟩
  case loss => exact ⟨_, _, exec_pllLossOfLock_selected hlock hact, rfl, rfl, s.lostLock_flds isl.val⟩
  case core =>
    refine ⟨_, exec_handshakeTimeout_eq .., ?_⟩
    have hpost := State.post_of_powered (s := (s.isolate isl.val).portError isl.val) 0x02 0x0A0E
      [(8, isl.val), (8, Requester.island (.core c))] 0xFF hpower
    rw [State.mgtPost, hpost]
    exact ⟨s.isolate_contains isl.val, rfl, rfl, rfl, _, rfl, rfl, rfl⟩
  case dma =>
    have hpost := State.post_of_powered (s := (s.isolate isl.val).portError isl.val) 0x02 0x0A0E
      [(8, isl.val), (8, Requester.island (.dma n))] 0xFF hpower
    have hstatus : ∀ x, 1 + x % 255 ≠ 0 := by omega
    refine ⟨_, (exec_handshakeTimeout_eq ..).trans (congrArg _ ((congrArg (State.accessError · _ _ _) hpost).trans
      (State.accessError_dma_busy store _ hbusy))), ?_, ?_, State.dmaEnd_halt_halt _ _ (hstatus _), ?_⟩
    · rw [State.dmaEnd_fab]
      exact s.isolate_contains isl.val
    · rw [State.dmaEnd_fab]
      rfl
    · rw [State.dmaEnd_halt_status _ _ (hstatus _)]
      omega
  case enable =>
    refine ⟨_, if_neg (ne_true_of_eq_false hrun), ?_, fun j hj => ?_, rfl, rfl⟩
    · simp
    · simp [hj]

end Sys2Proof.Machine
end

section
/-! PROOFS. Atomic accesses (R25). A LOAD_RESERVED of the Read Count Table (R243), which DMC does not guard (R43), answers what ZNE holds
there, and not the bytes last stored: O18 says the bytes stored of every address that is not guarded. -/

namespace Sys2Proof.Machine

/-- A part whose Read Count Table stands at the start of 8 GiB of DRAM and counts 5 reads of block 0, where nothing has been stored. -/
def State.countingReads : State :=
  (((((State.reset.setFld F.ZNE_GEOM_LOCK 1).setFld F.ZNE_RCTBASE_BASE 0x8000).setWord (R.DMC_CFG 0) 0x80000001).setWord
    (R.DMC_CFG 1) 0x80000000).setFld (F.ISL_CLKSTAT_SRCACT 0x0A) 1).modBlk 0 fun b => { b with reads := 5 }

/-- A core may access its first word with an atomic, and nothing guards it. -/
theorem State.countingReads_atomicOk : State.countingReads.coreRuns 0 ∧ State.countingReads.atomicOk 0x1000000000 4 = true ∧
    State.countingReads.atomicBad 0x1000000000 4 false = false ∧ State.countingReads.guarded 0x1000000000 = false := by
  decide +kernel

/-- A reader finds the count there, and memory holds 0. -/
theorem State.countingReads_readNat : State.countingReads.readNat 0x1000000000 4 = 5 ∧
    Memory.readNat State.countingReads.mem 0x1000000000 4 = 0 := by
  decide +kernel

/-- Refutes O18: LOAD_RESERVED of the first word of `State.countingReads` answers the count 5 of a table that is not guarded, where
memory holds 0. -/
theorem not_atomics : ¬ Obligations.atomics := by
  unfold Obligations.atomics
  intro h
  obtain ⟨⟨-, hload, -⟩, -⟩ := h
  obtain ⟨hrun, hok, hgood, hguarded⟩ := State.countingReads_atomicOk
  obtain ⟨hcount, hmem⟩ := State.countingReads_readNat
  obtain ⟨t, -, -, -, hread, -⟩ := hload 0 0x1000000000 false State.countingReads hrun hok hgood
  have heq : State.countingReads.readNat 0x1000000000 4 = Memory.readNat State.countingReads.mem 0x1000000000 4 := hread hguarded
  rw [hcount, hmem] at heq
  exact absurd heq (by decide)

end Sys2Proof.Machine
end

section
/-! PROOFS. Stores of cores (R12, R22, R26, R27, R43). -/

namespace Sys2Proof.Machine

theorem leBytes_getElem {n v k : Nat} (h : k < (leBytes n v).length) : (leBytes n v)[k] = BitVec.ofNat 8 (v / 2 ^ (8 * k)) := by
  induction n generalizing v k with
  | zero => exact absurd h (Nat.not_lt_zero k)
  | succ n ih =>
    cases k with
    | zero => simp [leBytes]
    | succ k =>
      have hk : k < (leBytes n (v / 256)).length := Nat.lt_of_succ_lt_succ h
      have hdiv : v / 256 / 2 ^ (8 * k) = v / 2 ^ (8 * (k + 1)) := by
        rw [Nat.div_div_eq_div_mul, show 8 * (k + 1) = 8 + 8 * k by omega, Nat.pow_add]
      calc (leBytes (n + 1) v)[k + 1] = (leBytes n (v / 256))[k] := rfl
        _ = _ := (ih hk).trans (by rw [hdiv])

/-- What writing n bytes of a value leaves in memory. -/
theorem Memory.read_writeLe {m : List Host.Cell} (hm : Memory.wf m = true) (a n v : Nat) :
    (∀ k, k < n → Memory.read (Memory.writeBytes m a (leBytes n v)) (a + k) = BitVec.ofNat 8 (v / 2 ^ (8 * k))) ∧
      ∀ x, x < a ∨ a + n ≤ x → Memory.read (Memory.writeBytes m a (leBytes n v)) x = Memory.read m x := by
  refine ⟨fun k hk => ?_, fun x hx => Memory.read_writeBytes_out m a _ (by rwa [leBytes_length])⟩
  rw [Memory.read_writeBytes_in hm a (leBytes n v) (by rwa [leBytes_length]), leBytes_getElem]

/-- The parts of the state that no store changes. -/
def State.engines (s : State) : Pins × Hif × Zne × Sec × Lpe × Tab Seq := (s.pins, s.hif, s.zne, s.sec, s.lpe, s.seqs)

theorem State.engines_eq {s t : State} (h : t.engines = s.engines) :
    t.pins = s.pins ∧ t.hif = s.hif ∧ t.zne = s.zne ∧ t.sec = s.sec ∧ t.lpe = s.lpe ∧ t.seqs = s.seqs := by
  simp only [State.engines, Prod.mk.injEq] at h
  exact h

theorem State.dramUe_mem_engines (s : State) (a isl : Nat) : (s.dramUe a isl).mem = s.mem ∧ (s.dramUe a isl).engines = s.engines := by
  unfold State.dramUe State.dmcPost State.post State.postEvent
  dsimp only
  split
  · split <;> exact ⟨rfl, rfl⟩
  · exact ⟨rfl, rfl⟩

/-- A core's write to DRAM leaves its bytes in memory, and changes none of the engines. -/
theorem State.dramWrite_mem_engines (s : State) (c a size v : Nat) (ue : Bool) :
    (s.dramWrite c a size v ue).mem = Memory.writeBytes s.mem a (leBytes (2 ^ size) v) ∧
      (s.dramWrite c a size v ue).engines = s.engines := by
  have hite {P : Prop} [Decidable P] {x y : State} (hx : x.mem = y.mem ∧ x.engines = y.engines) :
      (if P then y else x).mem = y.mem ∧ (if P then y else x).engines = y.engines := by
    split
    · exact ⟨rfl, rfl⟩
    · exact hx
  unfold State.dramWrite
  extract_lets n line d ms held bad mask ms' s1 s2 s3 s4
  have h3 : s3.mem = s2.mem ∧ s3.engines = s2.engines := hite ⟨rfl, rfl⟩
  have h4 : s3.mem = Memory.writeBytes s.mem a (leBytes (2 ^ size) v) ∧ s3.engines = s.engines := ⟨h3.1.trans rfl, h3.2.trans rfl⟩
  split
  · obtain ⟨hmem, heng⟩ := s4.dramUe_mem_engines a (0x10 + c)
    exact ⟨hmem.trans h4.1, heng.trans h4.2⟩
  · exact h4

/-! ### Where a store goes -/

theorem exec_coreStore_of_runs {c : CoreId} {a : BitVec 40} {size : Fin 4} {v : W64} {ue : Bool} {s : State} (hrun : s.coreRuns c) :
    exec (.coreStore c a size v ue) s = .next (s.coreStore c.val a.toNat size.val v.toNat ue) :=
  if_neg (ne_true_of_eq_false hrun)

theorem State.coreStore_misaligned {s : State} {c a size v : Nat} {ue : Bool} (hcsr : s.region a ≠ .csr) (h : a % 2 ^ size ≠ 0) :
    s.coreStore c a size v ue = s.trap c .store a := by
  rw [State.coreStore, if_neg hcsr, if_pos h]

theorem State.coreStore_blocked {s : State} {c a size v : Nat} {ue : Bool} (hcsr : s.region a ≠ .csr) (halign : a % 2 ^ size = 0)
    (h : s.blocked a = true) : s.coreStore c a size v ue = s.blockedTrap c a .store := by
  rw [State.coreStore, if_neg hcsr, if_neg (not_not_intro halign), if_pos h]

theorem State.coreStore_csr {s : State} {c : CoreId} {a size v : Nat} {ue : Bool} (h : s.region a = .csr) : s.coreStore c.val a size v ue =
    s.csrWrite (.core c) ((a - 0x0100000000) / 0x100000) (a % 0x100000) size v := by
  have hc : (⟨c.val % 32, Nat.mod_lt _ (by decide)⟩ : CoreId) = c := Fin.ext (Nat.mod_eq_of_lt c.isLt)
  rw [State.coreStore, if_pos h, hc]

/-- An aligned store that its port takes goes where its region says. -/
theorem State.coreStore_taken {s : State} {c a size v : Nat} {ue : Bool} (hcsr : s.region a ≠ .csr) (halign : a % 2 ^ size = 0)
    (hblocked : s.blocked a = false) :
    (s.region a = .itcm → s.coreStore c a size v ue = s.store (tcmAddr c false (a - 0x08000000)) (leBytes (2 ^ size) v)) ∧
    (s.region a = .dtcm → s.coreStore c a size v ue = s.store (tcmAddr c true (a - 0x08010000)) (leBytes (2 ^ size) v)) ∧
    (s.region a = .sram → s.coreStore c a size v ue = (s.store a (leBytes (2 ^ size) v)).dropResv a (2 ^ size)) ∧
    (s.region a = .ret → s.coreStore c a size v ue = s.store a (leBytes (2 ^ size) v)) ∧
    (s.region a = .dram → s.coreStore c a size v ue = if s.guarded a then s.trap c .store a else s.dramWrite c a size v ue) ∧
    (s.region a = .mram → s.coreStore c a size v ue = s.mramStore c a size v .done) ∧
    (s.region a = .rom ∨ s.region a = .outside → s.coreStore c a size v ue = s.trap c .store a) := by
  unfold State.coreStore
  rw [if_neg hcsr, if_neg (not_not_intro halign), if_neg (ne_true_of_eq_false hblocked)]
  refine ⟨fun h => ?_, fun h => ?_, fun h => ?_, fun h => ?_, fun h => ?_, fun h => ?_, fun h => ?_⟩
  iterate 6 simp only [h]
  rcases h with h | h <;> simp only [h]

/-- No island serves ROM or what lies outside every region. -/
theorem State.blocked_rom_outside {s : State} {a : Nat} (h : s.region a = .rom ∨ s.region a = .outside) : s.blocked a = false := by
  unfold State.blocked State.servedBy
  rcases h with h | h <;> rw [h] <;> rfl

/-- The bytes of a value stand at an address of memory, every other byte is as before, and so are the engines. -/
def Stored (s t : State) (a n v : Nat) : Prop :=
  t.mem = Memory.writeBytes s.mem a (leBytes n v) ∧ t.engines = s.engines

theorem State.coreStore_stored {s : State} {c : CoreId} {a size v : Nat} {ue : Bool} (halign : a % 2 ^ size = 0)
    (hblocked : s.blocked a = false) (hregion : s.region a = .itcm ∨ s.region a = .dtcm ∨ s.region a = .sram ∨ s.region a = .ret ∨
      (s.region a = .dram ∧ s.guarded a = false)) :
    Stored s (s.coreStore c.val a size v ue) (s.storeAt c a) (2 ^ size) v := by
  have hcsr : s.region a ≠ .csr := by
    rcases hregion with h | h | h | h | ⟨h, -⟩ <;> rw [h] <;> decide
  obtain ⟨hitcm, hdtcm, hsram, hret, hdram, -⟩ := State.coreStore_taken (c := c.val) (v := v) (ue := ue) hcsr halign hblocked
  unfold State.storeAt
  rcases hregion with h | h | h | h | ⟨h, hguarded⟩ <;> simp only [h]
  · rw [hitcm h]
    exact ⟨rfl, rfl⟩
  · rw [hdtcm h]
    exact ⟨rfl, rfl⟩
  · rw [hsram h]
    exact ⟨rfl, rfl⟩
  · rw [hret h]
    exact ⟨rfl, rfl⟩
  · rw [hdram h, if_neg (ne_true_of_eq_false hguarded)]
    exact s.dramWrite_mem_engines c.val a size v ue

/-- A blocked access ends in a trap, and changes neither memory nor a register. -/
theorem State.blockedTrap_keeps (s : State) (c a : Nat) (k : TrapKind) : (s.blockedTrap c a k).mem = s.mem ∧
    (s.blockedTrap c a k).csr = s.csr ∧ (s.blockedTrap c a k).traps = s.traps ++ [⟨c, k, a⟩] := by
  unfold State.blockedTrap
  split
  · split <;> exact ⟨rfl, rfl, rfl⟩
  · exact ⟨rfl, rfl, rfl⟩

/-- An address of the CSR windows names an island and an offset. -/
theorem csrAddr_split {isl off : Nat} (hoff : off < 0x100000) :
    (csrAddr isl off - 0x0100000000) / 0x100000 = isl ∧ csrAddr isl off % 0x100000 = off := by
  unfold csrAddr regKey
  omega

/-- Settles O19. -/
theorem coreStores : Obligations.core_stores := by
  unfold Obligations.core_stores
  refine ⟨fun c a size v ue s hinv hrun halign hblocked hregion => ?stored, fun c a size v ue s hrun hbad => ?trapped,
    fun c a size v ue s hrun halign hcsr hblocked => ?blocked, fun c isl off a size v ue s hrun haddr hregion => ?csr,
    fun c a size v ue s hrun halign hblocked hregion => ?mram, fun c a size v ue s hrun hregion halign => ?mramMisaligned⟩
  case stored =>
    obtain ⟨hmem, heng⟩ := State.coreStore_stored (c := c) (v := v.toNat) (ue := ue) halign hblocked hregion
    obtain ⟨hin, hout⟩ := Memory.read_writeLe hinv (s.storeAt c a.toNat) (2 ^ size.val) v.toNat
    rw [← hmem] at hin hout
    exact ⟨_, exec_coreStore_of_runs hrun, hin, hout, State.engines_eq heng⟩
  case trapped =>
    rw [exec_coreStore_of_runs hrun]
    refine congrArg _ ?_
    by_cases halign : a.toNat % 2 ^ size.val = 0
    · rcases hbad with ⟨hmis, -⟩ | hrom | houtside | ⟨hdram, hblocked, hguarded⟩
      · exact absurd halign hmis
      · obtain ⟨-, -, -, -, -, -, htrap⟩ := State.coreStore_taken (c := c.val) (v := v.toNat) (ue := ue) (by rw [hrom]; decide)
          halign (State.blocked_rom_outside (.inl hrom))
        exact htrap (.inl hrom)
      · obtain ⟨-, -, -, -, -, -, htrap⟩ := State.coreStore_taken (c := c.val) (v := v.toNat) (ue := ue) (by rw [houtside]; decide)
          halign (State.blocked_rom_outside (.inr houtside))
        exact htrap (.inr houtside)
      · obtain ⟨-, -, -, -, hstore, -⟩ := State.coreStore_taken (c := c.val) (v := v.toNat) (ue := ue) (by rw [hdram]; decide)
          halign hblocked
        rw [hstore hdram, if_pos hguarded]
    · refine State.coreStore_misaligned ?_ halign
      rcases hbad with ⟨-, h⟩ | h | h | ⟨h, -⟩
      · exact h
      all_goals rw [h]; decide
  case blocked =>
    obtain ⟨hmem, hregs, htraps⟩ := s.blockedTrap_keeps c.val a.toNat .store
    exact ⟨_, (exec_coreStore_of_runs hrun).trans (congrArg _ (State.coreStore_blocked hcsr halign hblocked)), hmem, hregs, htraps⟩
  case csr =>
    obtain ⟨hisl, hoff⟩ := csrAddr_split (isl := isl.val) off.isLt
    rw [exec_coreStore_of_runs hrun, State.coreStore_csr hregion, haddr, hisl, hoff, exec_registerWrite_core]
  case mram =>
    obtain ⟨-, -, -, -, -, hstore, -⟩ := State.coreStore_taken (c := c.val) (v := v.toNat) (ue := ue) (by rw [hregion]; decide)
      halign hblocked
    have hgo : ¬(s.cores.halted.getLsbD c.val || s.region a.toNat != .mram) = true := by
      rw [show s.cores.halted.getLsbD c.val = false from hrun, hregion]
      decide
    rw [exec_coreStore_of_runs hrun, hstore hregion, exec_mramCoreStore, execMramCoreStore, if_neg hgo,
      if_neg (ne_true_of_eq_false hblocked)]
  case mramMisaligned =>
    rw [exec_coreStore_of_runs hrun, State.coreStore_misaligned (by rw [hregion]; decide) halign]

end Sys2Proof.Machine
end

section
/-! PROOFS. Sequencers: when an instruction acts (R199, R203), and what a plain one changes. -/

namespace Sys2Proof

open Machine

/-! ### When an instruction acts -/

namespace Machine

/-- A sequencer that neither runs nor waits fetches nothing. -/
theorem State.kz_stopped {s : State} {n : Nat} {f : Fetch} {w : Nat} {body : State → State}
    (h1 : s.fld (F.CH_SEQSTAT_STATE n) ≠ 1) (h2 : s.fld (F.CH_SEQSTAT_STATE n) ≠ 2) : s.kz n f w body = s :=
  if_pos fun h => h.elim h1 fun h => h2 h.1

theorem kzWord_lt_op (op : BitVec 6) (rd rs : BitVec 4) (imm : BitVec 18) :
    kzWord op.toNat rd.toNat rs.toNat imm.toNat / 2 ^ 26 = op.toNat := by
  unfold kzWord
  omega

theorem kzWord_kind (op : BitVec 6) (rd rs : BitVec 4) (imm : BitVec 18) :
    bits (kzWord op.toNat rd.toNat rs.toNat imm.toNat) 12 2 = bits imm.toNat 12 2 := by
  unfold bits kzWord
  omega

/-- A running sequencer runs the instruction whose legal word it fetches. -/
theorem State.kz_matching {s : State} {n : Chan} {f : Fetch} {op : BitVec 6} {rd rs : BitVec 4} {imm : BitVec 18}
    {body : State → State} (hrun : s.fld (F.CH_SEQSTAT_STATE n) = 1) (hf : f ≠ .double)
    (hword : s.kzFetched n = kzWord op.toNat rd.toNat rs.toNat imm.toNat) (hop : op.toNat ∈ kzOpcodes)
    (hkind : ¬(op.toNat = 0x29 ∧ bits imm.toNat 12 2 = 3)) :
    s.kz n f (kzWord op.toNat rd.toNat rs.toNat imm.toNat) body = body (s.fetched n f) := by
  rw [State.kz_running _ _ hrun hf, hword, kzWord_lt_op, kzWord_kind, if_neg (not_not_intro hop), if_neg hkind,
    if_neg (not_not_intro rfl)]

end Machine

/-- An instruction whose word stands at the program counter of a running sequencer is executed in the state its fetch leaves. -/
theorem Instr.exec_of_runsKz {i : Instr} {n : Chan} {f : Fetch} {s : State} {op : BitVec 6} {rd rs : BitVec 4} {imm : BitVec 18}
    {body : State → State} (hrun : s.runsKz n f i) (hword : kzEncode i = some (kzPack op rd rs imm)) (hop : op.toNat ∈ kzOpcodes)
    (hkind : ¬(op.toNat = 0x29 ∧ bits imm.toNat 12 2 = 3))
    (hexec : exec i s = .next (s.kz n f (kzWord op.toNat rd.toNat rs.toNat imm.toNat) body)) :
    exec i s = .next (body (s.fetched n f)) := by
  obtain ⟨hstate, hf, hfetch⟩ := hrun
  have hnat := congrArg BitVec.toNat (Option.some.inj (hfetch.symm.trans hword))
  rw [BitVec.toNat_ofNat, Nat.mod_eq_of_lt (s.kzFetched_lt n), kzPack_toNat] at hnat
  rw [hexec, State.kz_matching hstate hf hnat hop hkind]

/-- The same of an instruction other than a POST. -/
theorem Instr.exec_of_runs {i : Instr} {n : Chan} {f : Fetch} {s : State} {op : BitVec 6} {rd rs : BitVec 4} {imm : BitVec 18}
    {body : State → State} (hrun : s.runsKz n f i) (hop : op.toNat ∈ kzOpcodes ∧ op.toNat ≠ 0x29)
    (hword : kzEncode i = some (kzPack op rd rs imm))
    (hexec : exec i s = .next (s.kz n f (kzWord op.toNat rd.toNat rs.toNat imm.toNat) body)) :
    exec i s = .next (body (s.fetched n f)) :=
  Instr.exec_of_runsKz hrun hword hop.1 (fun h => hop.2 h.1) hexec

/-- A POST of a sequencer that neither runs nor waits does nothing, whatever its kind. -/
theorem post_stopped {s : State} {n : Chan} {f : Fetch} {w : Nat} {body : State → State} {c : Prop} [Decidable c]
    (h1 : s.fld (F.CH_SEQSTAT_STATE n) ≠ 1) (h2 : s.fld (F.CH_SEQSTAT_STATE n) ≠ 2) :
    (Host.Outcome.next (if c then s else s.kz n f w body) : Host.Outcome State Fault Refusal) = .next s := by
  rw [State.kz_stopped h1 h2, ite_self]

/-- Settles O23: each instruction is a fetch of its word, and a POST with the kind of another one does nothing. -/
theorem kazinoOtherWords : Obligations.kazino_other_words := by
  unfold Obligations.kazino_other_words
  refine ⟨fun i n f s hsite h1 h2 => ?stopped, fun i n f s hwf hsite hf hrun => ?running⟩
  case stopped =>
    cases i with
    | postDone | postPark | postSusp =>
      cases hsite
      exact post_stopped h1 h2
    | halt | sel | cmd | addr | din | dout | wait | poll | ldi | ldih | mov | add | sub | and | or | xor | shl | shr | br | brc
    | call | ret | pop | tstart | twait | evt | pgen | pchk =>
      cases hsite
      exact congrArg _ (State.kz_stopped h1 h2)
    | _ => cases hsite
  case running =>
    obtain ⟨w, body, hfetch⟩ := Instr.exists_fetchedBy hwf hsite
    rw [hfetch.exec_eq hsite, State.kz_running _ body hrun hf]
    refine ⟨fun hop => ?_, fun hop hkind => ?_, fun hop hkind hother => ?_⟩
    · rw [if_pos hop]
    · have hlisted : (0x29 : Nat) ∈ kzOpcodes := by decide
      rw [if_neg (not_not_intro (hop ▸ hlisted)), if_pos ⟨hop, hkind⟩]
    · have hne : s.kzFetched n ≠ w.toNat := fun h => hother (hfetch.1.trans (congrArg some (BitVec.eq_of_toNat_eq
        (by rw [BitVec.toNat_ofNat, Nat.mod_eq_of_lt (s.kzFetched_lt n)]; exact h.symm))))
      have hkind' : ¬(s.kzFetched n / 2 ^ 26 = 0x29 ∧ bits (s.kzFetched n) 12 2 = 3) := hkind
      rw [if_neg (not_not_intro hop), if_neg hkind', if_pos hne]

namespace Machine

/-! ### Registers and predicates of a sequencer (R195) -/

theorem listSet_length {α : Type} (xs : List α) (i : Nat) (a : α) : (listSet xs i a).length = xs.length := by
  induction xs generalizing i with
  | nil => rfl
  | cons x xs ih =>
    cases i with
    | zero => rfl
    | succ i => exact congrArg (· + 1) (ih i)

theorem listSet_getElem? {α : Type} (xs : List α) (i j : Nat) (a : α) :
    (listSet xs i a)[j]? = if j = i ∧ i < xs.length then some a else xs[j]? := by
  induction xs generalizing i j with
  | nil => simp [listSet]
  | cons x xs ih =>
    cases i with
    | zero => cases j <;> simp [listSet]
    | succ i =>
      cases j with
      | zero => simp [listSet]
      | succ j => simp [listSet, ih]

theorem Seq.reg_zero (q : Seq) : q.reg 0 = 0 := rfl

theorem Seq.setReg_zero (q : Seq) (v : W32) : q.setReg 0 v = q := rfl

theorem Seq.setReg_pos {q : Seq} {r : Nat} (v : W32) (h : 0 < r) : q.setReg r v = { q with k := listSet q.k r v } :=
  if_neg (by omega)

/-- A register other than k0 that the sequencer has takes a value, and no other register changes. -/
theorem Seq.reg_setReg {q : Seq} {r : Nat} (x : Nat) (v : W32) (hr : 0 < r) (hlen : r < q.k.length) :
    (q.setReg r v).reg x = if x = r then v else q.reg x := by
  rw [Seq.setReg_pos v hr]
  unfold Seq.reg
  simp only [List.getD_eq_getElem?_getD, listSet_getElem?, hlen, and_true]
  by_cases h : x = r
  · simp [h, show ¬ r = 0 by omega]
  · simp [h]

/-- The four predicates, one written. -/
theorem pred_written : ∀ (p : BitVec 4) (r x : Fin 4) (b : Bool),
    bit (BitVec.ofNat 4 (if b then setBit p.toNat r.val else clrBit p.toNat r.val)).toNat x.val =
      if x = r then b else bit p.toNat x.val := by
  decide

theorem Seq.pred_setPred (q : Seq) {r x : Nat} (b : Bool) (hr : r < 4) (hx : x < 4) :
    (q.setPred r b).pred x = if x = r then b else q.pred x := by
  refine (pred_written q.p ⟨r, hr⟩ ⟨x, hx⟩ b).trans ?_
  by_cases h : x = r
  · subst h
    rw [if_pos rfl, if_pos rfl]
  · rw [if_neg h, if_neg (Fin.ne_of_val_ne h)]
    rfl

/-! ### A plain instruction (R203) -/

theorem State.seq_modSeq_ne (s : State) {n m : Nat} (g : Seq → Seq) (h : m ≠ n) : (s.modSeq n g).seq m = s.seq m :=
  Tab.getD_set_ne _ _ _ h

theorem State.seq_setFld (s : State) (f : Fld) (v n : Nat) : (s.setFld f v).seq n = s.seq n := rfl

theorem State.word_setFld_ne (s : State) {f : Fld} (v : Nat) {key : Nat} (h : key ≠ f.addr) : (s.setFld f v).word key = s.word key :=
  s.word_setWord_ne _ h

theorem State.pc_nextPc (s : State) (n : Nat) : (s.nextPc n).fld (F.CH_SEQSTAT_PC n) = (s.fld (F.CH_SEQSTAT_PC n) + 1) % 4096 := by
  refine (State.fld_setFld_self _ _ _ (show 0 + 12 ≤ 64 by decide)).trans ?_
  exact Nat.mod_mod _ _

theorem State.plain_eq (s : State) (n c : Nat) (f : Seq → Seq) : s.plain n c f =
    (((s.modSeq n f).modSeq n fun q => { q with till := (s.modSeq n f).chNow n + c }).nextPc n) := rfl

theorem State.seq_plain (s : State) (n c : Nat) (f : Seq → Seq) : (s.plain n c f).seq n =
    { f (s.seq n) with till := (s.modSeq n f).chNow n + c } := by
  rw [State.plain_eq, State.nextPc, State.setPc, State.seq_setFld, State.seq_modSeq_self, State.seq_modSeq_self]

theorem State.chNow_modSeq {s : State} {n : Nat} {f : Seq → Seq} (h : (f (s.seq n)).till = (s.seq n).till) :
    (s.modSeq n f).chNow n = s.chNow n := by
  rw [State.chNow, State.seq_modSeq_self, h]
  rfl

/-- Only what the register change makes of the sequencer as it stands counts. -/
theorem State.plain_congr {s : State} {n c : Nat} {f g : Seq → Seq} (h : f (s.seq n) = g (s.seq n)) :
    s.plain n c f = s.plain n c g := by
  have hmod : s.modSeq n f = s.modSeq n g := by rw [State.modSeq, h]; rfl
  rw [State.plain_eq, State.plain_eq, hmod]

/-! ### Arithmetic (R204) -/

/-- What the words of the model say of an ALU instruction is what R204 says of its fields. -/
theorem Seq.alu_eq (q : Seq) (op : W32 → W32 → W32 × Bool) (rd rs : BitVec 4) (imm : BitVec 18) :
    q.alu op rd.toNat rs.toNat imm.toNat =
      q.aluEnd rd imm (op (q.aluArgs rd rs imm).1 (q.aluArgs rd rs imm).2).1 (op (q.aluArgs rd rs imm).1 (q.aluArgs rd rs imm).2).2 := by
  have himm : BitVec.ofNat 32 (bits imm.toNat 0 12) = (imm.extractLsb' 0 12).zeroExtend 32 := by
    apply BitVec.eq_of_toNat_eq
    simp [bits]
  have hpd : bits imm.toNat 14 2 = (imm.extractLsb' 14 2).toNat := by simp [bits, Nat.shiftRight_eq_div_pow]
  have hcond : bits imm.toNat 12 2 = (imm.extractLsb' 12 2).toNat := by simp [bits, Nat.shiftRight_eq_div_pow]
  unfold Seq.alu Seq.aluEnd Seq.aluArgs
  simp only [bit_toNat, himm, hpd, hcond]
  cases imm.getLsbD 17 <;> rfl

/-- LDIH puts 14 bits above the 18 of the register. -/
theorem ldih_value (v : W32) (imm : BitVec 18) :
    BitVec.ofNat 32 (bits v.toNat 0 18 + bits imm.toNat 0 14 * 2 ^ 18) = imm.extractLsb' 0 14 ++ v.extractLsb' 0 18 := by
  apply BitVec.eq_of_toNat_eq
  rw [BitVec.toNat_append, ← Nat.shiftLeft_add_eq_or_of_lt (BitVec.isLt _), BitVec.toNat_ofNat, Nat.shiftLeft_eq]
  simp only [BitVec.extractLsb'_toNat, Nat.shiftRight_zero, bits]
  omega

end Machine

/-- Settles O24. -/
theorem kazinoArithmetic : Obligations.kazino_arithmetic := by
  unfold Obligations.kazino_arithmetic
  refine ⟨fun n f rd rs imm s => ?ops, ⟨fun q v => ⟨q.reg_zero, q.setReg_zero v⟩, ?regs, ?preds, ?plain⟩⟩
  case ops =>
    have hshr (a b : W32) : (a.toNat % 2 ^ (b.toNat % 32) != 0) = decide (a.toNat % 2 ^ (b.toNat % 32) ≠ 0) := by
      rw [Bool.eq_iff_iff, bne_iff_ne, decide_eq_true_iff]
    refine ⟨fun hrun => ?_, fun hrun => ?_, fun hrun => ?_, fun hrun => ?_, fun hrun => ?_, fun hrun => ?_, fun hrun => ?_,
      fun hrun => ?_, fun hrun => ?_, fun hrun hspr => ?_, fun hrun hspr => ?_⟩
    · rw [Instr.exec_of_runs (op := 0x13) hrun (by decide) rfl rfl]
      exact congrArg _ (State.plain_congr (Seq.alu_eq _ aluAdd rd rs imm))
    · rw [Instr.exec_of_runs (op := 0x14) hrun (by decide) rfl rfl]
      exact congrArg _ (State.plain_congr (Seq.alu_eq _ aluSub rd rs imm))
    · rw [Instr.exec_of_runs (op := 0x15) hrun (by decide) rfl rfl]
      exact congrArg _ (State.plain_congr (Seq.alu_eq _ aluAnd rd rs imm))
    · rw [Instr.exec_of_runs (op := 0x16) hrun (by decide) rfl rfl]
      exact congrArg _ (State.plain_congr (Seq.alu_eq _ aluOr rd rs imm))
    · rw [Instr.exec_of_runs (op := 0x17) hrun (by decide) rfl rfl]
      exact congrArg _ (State.plain_congr (Seq.alu_eq _ aluXor rd rs imm))
    · rw [Instr.exec_of_runs (op := 0x18) hrun (by decide) rfl rfl]
      exact congrArg _ (State.plain_congr (Seq.alu_eq _ aluShl rd rs imm))
    · rw [Instr.exec_of_runs (op := 0x19) hrun (by decide) rfl rfl]
      refine congrArg _ (State.plain_congr ((Seq.alu_eq _ aluShr rd rs imm).trans ?_))
      rw [← hshr]
      rfl
    · exact Instr.exec_of_runs (op := 0x10) (rs := 0) hrun (by decide) rfl rfl
    · rw [Instr.exec_of_runs (op := 0x11) (rs := 0) hrun (by decide) rfl rfl]
      exact congrArg _ (State.plain_congr (congrArg (Seq.setReg _ rd.toNat) (ldih_value _ imm)))
    · rw [Instr.exec_of_runs (op := 0x12) hrun (by decide) rfl rfl]
      refine congrArg _ (State.plain_congr (congrArg _ ?_))
      rw [bit_toNat, hspr]
      rfl
    · rw [Instr.exec_of_runs (op := 0x12) hrun (by decide) rfl rfl]
      refine congrArg _ (State.plain_congr (congrArg _ ?_))
      rw [bit_toNat, hspr, if_pos rfl, show bits imm.toNat 0 8 = imm.toNat % 256 from congrArg (· % 256) (Nat.div_one _)]
      unfold State.spr
      split <;> simp_all [b2n]
  case regs =>
    intro q r x v hlen hr hlt
    have hsame := fun y => Seq.reg_setReg (q := q) y v hr (by omega)
    refine ⟨?_, by rw [hsame, if_pos rfl], fun hx => by rw [hsame, if_neg hx], ?_, ?_⟩
    · rw [Seq.setReg_pos v hr]
      exact (listSet_length _ _ _).trans hlen
    · rw [Seq.setReg_pos v hr]
    · rw [Seq.setReg_pos v hr]
  case preds =>
    intro q r x b hr hx
    exact ⟨by rw [Seq.pred_setPred q b hr hr, if_pos rfl], fun h => by rw [Seq.pred_setPred q b hr hx, if_neg h], rfl⟩
  case plain =>
    intro s n c g hg
    rw [State.seq_plain, State.chNow_modSeq (hg _)]
    refine ⟨State.pc_nextPc _ n, rfl, rfl, rfl, fun m hm => ?_, rfl, rfl, rfl, fun key hkey => ?_⟩
    · rw [State.plain_eq, State.nextPc, State.setPc, State.seq_setFld, State.seq_modSeq_ne _ _ hm, State.seq_modSeq_ne _ _ hm]
    · rw [State.plain_eq, State.nextPc, State.setPc]
      exact State.word_setFld_ne _ _ hkey

end Sys2Proof
end

section
/-! PROOFS. Sequencers: control flow, events and the program guard (R203 to R216). -/

namespace Sys2Proof

open Machine

namespace Machine

theorem bits_zero (v w : Nat) : bits v 0 w = v % 2 ^ w := congrArg (· % 2 ^ w) (Nat.div_one v)

theorem bits_top (imm : BitVec 18) : bits imm.toNat 16 2 = imm.toNat / 2 ^ 16 := by
  have h := imm.isLt
  unfold bits
  omega

/-! ### What the helpers of the sequencers leave (R203) -/

theorem State.now_post (s : State) (src id : Nat) (items : List (Nat × Nat)) (ten : Nat) : (s.post src id items ten).now = s.now := by
  obtain ⟨-, -, -, -, -, -, -, -, -, -, -, -, -, h⟩ := s.post_keeps src id items ten
  exact h

theorem State.fetched_mem (s : State) (n : Chan) (f : Fetch) : (s.fetched n f).mem = s.mem := by
  unfold State.fetched
  split
  · exact State.fixed_mem (State.imemCe_fixed s n)
  · rfl

theorem State.gated_of_fld {s t : State} (h : t.fld F.AON_PSSTAT_CUR = s.fld F.AON_PSSTAT_CUR) (isl : Nat) : t.gated isl = s.gated isl := by
  unfold State.gated
  rw [h]

theorem State.fld_setPc_ne (s : State) (n pc : Nat) {f : Fld} (h : f.addr ≠ R.CH_SEQSTAT n) : (s.setPc n pc).fld f = s.fld f :=
  s.fld_setFld_ne _ h

theorem State.pc_setPc (s : State) (n pc : Nat) : (s.setPc n pc).fld (F.CH_SEQSTAT_PC n) = pc % 4096 :=
  (State.fld_setFld_self _ _ _ (show 0 + 12 ≤ 64 by decide)).trans (Nat.mod_mod _ _)

theorem State.state_setPc (s : State) (n pc : Nat) : (s.setPc n pc).fld (F.CH_SEQSTAT_STATE n) = s.fld (F.CH_SEQSTAT_STATE n) :=
  State.fld_setFld_disjoint _ _ (show 12 + 2 ≤ 64 by decide) (.inr (show 0 + 12 ≤ 12 by decide))

theorem State.seq_setPc (s : State) (n pc m : Nat) : (s.setPc n pc).seq m = s.seq m := rfl

theorem State.seq_nextPc (s : State) (n m : Nat) : (s.nextPc n).seq m = s.seq m := rfl

theorem State.seq_chCost (s : State) (n c : Nat) : (s.chCost n c).seq n = { s.seq n with till := s.chNow n + c } :=
  s.seq_modSeq_self _ _

theorem State.fld_chCost (s : State) (n c : Nat) (f : Fld) : (s.chCost n c).fld f = s.fld f := rfl

/-- The clock of a channel is read from the sequencer, the time and the register TICK. -/
theorem State.chNow_congr {s t : State} {n : Nat} (hseq : t.seq n = s.seq n) (hnow : t.now = s.now)
    (htick : t.fld (F.CH_TICK_TICK n) = s.fld (F.CH_TICK_TICK n)) : t.chNow n = s.chNow n := by
  rw [State.chNow, hseq, hnow, htick, State.chNow]

theorem State.chNow_nextPc (s : State) (n : Nat) : (s.nextPc n).chNow n = s.chNow n := by
  refine State.chNow_congr rfl rfl (s.fld_setPc_ne _ _ ?_)
  show R.CH_TICK n ≠ R.CH_SEQSTAT n
  unfold R.CH_TICK R.CH_SEQSTAT
  omega

end Machine

/-- Settles O25. -/
theorem kazinoControlFlow : Obligations.kazino_control_flow := by
  unfold Obligations.kazino_control_flow
  intro n f rs imm s u count
  have hb0 : bits imm.toNat 0 12 = imm.toNat % 4096 := bits_zero _ _
  have hcount : ((u.seq n).reg rs.toNat).toNat + bits imm.toNat 0 16 = count := congrArg _ (bits_zero _ _)
  refine ⟨fun h => ?br, fun h htaken => ?taken, fun h hnot => ?nottaken, fun h hfree => ?call, fun h hfull => ?full,
    fun ra t h hstack => ?ret, fun h hstack => ?empty, fun h hhand => ?halt, fun h hhand => ?inHand, fun c h hc => ?wait,
    fun h hunit => ?waitUnit, fun c h hc => ?tstart, fun h hunit => ?tstartUnit, fun h => ?twait⟩
  case br =>
    rw [Instr.exec_of_runs (op := 0x20) (rd := 0) (rs := 0) h (by decide) rfl rfl, hb0]
  case taken =>
    rw [Instr.exec_of_runs (op := 0x21) (rd := 0) (rs := 0) h (by decide) rfl rfl, bit_toNat,
      show (s.fetched n f) = u from rfl, show bits imm.toNat 12 2 = imm.toNat / 2 ^ 12 % 4 from rfl, if_pos htaken, hb0]
  case nottaken =>
    rw [Instr.exec_of_runs (op := 0x21) (rd := 0) (rs := 0) h (by decide) rfl rfl, bit_toNat,
      show (s.fetched n f) = u from rfl, show bits imm.toNat 12 2 = imm.toNat / 2 ^ 12 % 4 from rfl, if_neg hnot]
  case call =>
    rw [Instr.exec_of_runs (op := 0x22) (rd := 0) (rs := 0) h (by decide) rfl rfl, if_neg (Nat.not_le_of_lt hfree), hb0]
  case full =>
    rw [Instr.exec_of_runs (op := 0x22) (rd := 0) (rs := 0) h (by decide) rfl rfl, if_pos hfull]
  case ret =>
    rw [Instr.exec_of_runs (op := 0x23) (rd := 0) (rs := 0) (imm := 0) h (by decide) rfl rfl, show (s.fetched n f).seq n = u.seq n from rfl, hstack]
  case empty =>
    rw [Instr.exec_of_runs (op := 0x23) (rd := 0) (rs := 0) (imm := 0) h (by decide) rfl rfl, show (s.fetched n f).seq n = u.seq n from rfl, hstack]
  case halt =>
    refine ⟨_, (Instr.exec_of_runs (op := 0x00) (rd := 0) (rs := 0) (imm := 0) h (by decide) rfl rfl).trans
      (congrArg _ (if_neg ?_)), ?_, rfl⟩
    · rw [show (s.fetched n f).seq n = u.seq n from rfl, hhand]
      decide
    · rw [State.fld_chPost _ _ _ _ (chSeqstat_ne_counts n).2]
      exact State.fld_setFld_self _ _ _ (show 12 + 2 ≤ 64 by decide)
  case inHand =>
    rw [Instr.exec_of_runs (op := 0x00) (rd := 0) (rs := 0) (imm := 0) h (by decide) rfl rfl, if_pos (Option.isSome_iff_ne_none.mpr hhand)]
  case wait =>
    rw [Instr.exec_of_runs (op := 0x09) (rd := 0) h (by decide) rfl rfl]
    rw [show (s.fetched n f) = u from rfl, hcount, bits_top, hc]
  case waitUnit =>
    rw [Instr.exec_of_runs (op := 0x09) (rd := 0) h (by decide) rfl rfl, bits_top, hunit]
    rfl
  case tstart =>
    refine ⟨((u.chCost n 1).modSeq n fun q => { q with timerAt := some ((u.chCost n 1).chNow n + c) }).nextPc n, ?_, ?_,
      State.pc_nextPc _ _, ?_, ?_⟩
    · rw [Instr.exec_of_runs (op := 0x2C) (rd := 0) h (by decide) rfl rfl, show (s.fetched n f) = u from rfl, hcount, bits_top, hc]
    · rw [State.timer, State.chNow_nextPc, State.seq_nextPc, State.chNow_modSeq rfl, State.seq_modSeq_self]
      exact Nat.add_sub_cancel_left _ _
    · rw [State.seq_nextPc, State.seq_modSeq_self, State.seq_chCost]
    · exact s.fetched_mem n f
  case tstartUnit =>
    rw [Instr.exec_of_runs (op := 0x2C) (rd := 0) h (by decide) rfl rfl, bits_top, hunit]
    rfl
  case twait =>
    refine ⟨_, Instr.exec_of_runs (op := 0x2D) (rd := 0) (rs := 0) (imm := 0) h (by decide) rfl rfl, ?_, ?_, State.pc_nextPc _ _, ?_,
      s.fetched_mem n f⟩
    · rw [State.timer, State.seq_nextPc, State.seq_modSeq_self]
    · rw [State.seq_nextPc, State.seq_modSeq_self, State.seq_chCost]
    · rw [State.seq_nextPc, State.seq_modSeq_self, State.seq_chCost]

/-- A part that stands at an EVT of event 0x047F on channel 0. -/
def Machine.State.atEvt : State :=
  (State.reset.setFld (F.CH_SEQSTAT_STATE 0) 1).setFld (F.CH_IMEM_WORD 0 0) (kzPack 0x30 1 2 0x047F).toNat

/-- Refutes O26: the events 0x0478 to 0x047F have severity 4 (R212), which the recorder exempts from its limits, so that the event which
EVT posts with ID 0x047F is exempt. -/
theorem not_kazinoEvent : ¬ Obligations.kazino_event := by
  unfold Obligations.kazino_event
  intro hclaim
  have hruns : State.atEvt.runsKz 0 .ok (.evt 0 .ok 1 2 0x047F) := by decide +kernel
  have hpower : State.atEvt.gated 2 = false := by decide +kernel
  obtain ⟨t, hexec, -, -, -, -, hevent⟩ := (hclaim 0 .ok 1 2 0x047F _ hruns).2 (by decide) (by decide)
  obtain ⟨e, htransit, -, -, -, -, hexempt, -⟩ := hevent hpower
  rw [Instr.exec_of_runs (op := 0x30) hruns (by decide) rfl rfl, if_neg (by decide)] at hexec
  obtain rfl := Host.Outcome.next.inj hexec
  have hposted := (congrArg (·.evr.transit) (State.post_of_powered 0x30 0x047F [(32, 0), (32, 0), (4, 0xF), (16, 0)] 0xFF hpower)).symm.trans htransit
  rw [← List.singleton_inj.mp (List.append_cancel_left hposted)] at hexempt
  exact absurd hexempt (by decide)

namespace Machine

/-! ### The program guard (R214, R215) -/

/-- What the guard wants of a confirm byte. -/
def State.guardAllows (l : State) (n b : Nat) : Prop :=
  (l.isPconf n b = true → l.programAllowed n = true) ∧ (l.isEconf n b = true → l.eraseAllowed n = true)

theorem State.guardAllows_iff (l : State) (n b : Nat) : l.guardAllows n b ↔
    ((!l.isPconf n b || l.programAllowed n) && (!l.isEconf n b || l.eraseAllowed n)) = true := by
  unfold State.guardAllows
  cases l.isPconf n b <;> cases l.isEconf n b <;> simp

/-- A confirm that the guard checks. -/
theorem State.guardCmd_confirm {s : State} {n b : Nat}
    (hconf : (s.latchRow n).isPconf n b = true ∨ (s.latchRow n).isEconf n b = true) (hdis : s.flag (F.CH_GUARDCTL_DIS n) = false) :
    ((s.latchRow n).guardAllows n b → s.guardCmd n b =
      (s.latchRow n).modSeq n fun q => { q.setPred 0 true with refused := false, grows := [], gerase := [] }) ∧
    (¬ (s.latchRow n).guardAllows n b → s.guardCmd n b =
      (s.latchRow n).guardRefuse n b (!(s.latchRow n).isPconf n b)) := by
  have hcheck : ((s.latchRow n).isPconf n b || (s.latchRow n).isEconf n b) = true ∧ (s.latchRow n).flag (F.CH_GUARDCTL_DIS n) = false :=
    ⟨Bool.or_eq_true_iff.mpr hconf, hdis⟩
  rw [State.guardAllows_iff]
  unfold State.guardCmd
  exact ⟨fun h => (if_pos hcheck).trans (if_pos h), fun h => (if_pos hcheck).trans (if_neg h)⟩

/-- What a sequencer keeps of a confirm that is refused, for the op in hand. -/
def Seq.refuse (q : Seq) (b : Nat) (hand : Option Nat) : Seq :=
  let q := { q.setPred 0 false with refused := true, grows := [], gerase := [] }
  match hand with
  | some i => { q with guarded := if (Tab.find q.guarded i).isSome then q.guarded else Tab.set q.guarded i b }
  | none => q

theorem Seq.refuse_clears (q : Seq) (b : Nat) (hand : Option Nat) : (q.refuse b hand).p = (q.setPred 0 false).p ∧
    (q.refuse b hand).refused = true ∧ (q.refuse b hand).grows = [] ∧ (q.refuse b hand).gerase = [] := by
  cases hand <;> exact ⟨rfl, rfl, rfl, rfl⟩

/-- The byte of the first refusal stays. -/
theorem Seq.refuse_guarded (q : Seq) (b i : Nat) : Tab.find (q.refuse b (some i)).guarded i = some (Tab.getD q.guarded i b) := by
  change Tab.find (if (Tab.find q.guarded i).isSome then q.guarded else Tab.set q.guarded i b) i = _
  unfold Tab.getD
  cases hfind : Tab.find q.guarded i with
  | some c => simpa using hfind
  | none => simp [Tab.find_set_self]

theorem State.handPod_chPost (s : State) (n id : Nat) (items : List (Nat × Nat)) : (s.chPost n id items).handPod n = s.handPod n := by
  obtain ⟨-, hzne, -⟩ := s.post_keeps (0x30 + n) id items 0xFF
  have hdie : ∀ d, (s.chPost n id items).die d = s.die d := fun d => by rw [State.die, show (s.chPost n id items).zne = s.zne from hzne, State.die]
  simp only [State.handPod, State.seq_chPost, hdie]

theorem State.guardRefuse_seq (l : State) (n b : Nat) (erase : Bool) :
    (l.guardRefuse n b erase).seq n = (l.seq n).refuse b ((l.handPod n).map fun p => p.op.id) := by
  unfold State.guardRefuse
  rw [State.seq_modSeq_self, State.seq_chPost, State.handPod_chPost]
  rfl

theorem State.guardRefuse_count (l : State) (n b : Nat) (erase : Bool) :
    (l.guardRefuse n b erase).fld (F.CH_GUARDREF_COUNT n) = (l.fld (F.CH_GUARDREF_COUNT n) + 1) % 2 ^ 64 := by
  have hdrop : R.CH_GUARDREF n ≠ R.MGT_EVDROP := by
    unfold R.CH_GUARDREF R.MGT_EVDROP
    omega
  unfold State.guardRefuse
  rw [State.fld_modSeq, State.fld_chPost _ _ _ _ hdrop]
  exact State.fld_setFld_self _ _ _ (show 0 + 64 ≤ 64 by decide)

/-- An op whose program confirm is allowed. -/
theorem State.programAllowed_some {l : State} {n : Nat} {p : Pod} (h : l.programAllowed n = true) (hp : l.handPod n = some p) :
    (p.opc = 2 ∨ p.opc = 3) ∧ (l.seq n).grows ++ (l.seq n).gerase ≠ [] ∧
      ∀ row ∈ (l.seq n).grows ++ (l.seq n).gerase, l.rowAllowed n row p = true := by
  unfold State.programAllowed at h
  rw [hp] at h
  simp only [Bool.and_eq_true, Bool.or_eq_true, decide_eq_true_eq, List.all_eq_true, Bool.not_eq_true', List.isEmpty_eq_false_iff] at h
  obtain ⟨⟨hopc, hrows⟩, hall⟩ := h
  exact ⟨hopc, hrows, hall⟩

theorem State.eraseAllowed_some {l : State} {n : Nat} {p : Pod} (h : l.eraseAllowed n = true) (hp : l.handPod n = some p) :
    (p.opc = 4 ∨ p.opc = 5) ∧ ∀ row ∈ (l.seq n).gerase, l.sameBlock n row p = true := by
  unfold State.eraseAllowed at h
  rw [hp] at h
  simpa only [Bool.and_eq_true, Bool.or_eq_true, decide_eq_true_eq, List.all_eq_true] using h

end Machine

/-- Settles O28. -/
theorem programGuard : Obligations.program_guard := by
  unfold Obligations.program_guard
  intro n s b l ok hconf hdis
  obtain ⟨hallowed, hrefused⟩ := State.guardCmd_confirm hconf hdis
  refine ⟨fun hok => ?allowed, fun hbad => ?refused, ?grows, ?gerase, fun p hp hhand => ?program, fun p hp hhand => ?erase⟩
  case allowed =>
    rw [hallowed hok, State.seq_modSeq_self]
    refine ⟨?_, rfl, rfl⟩
    exact Seq.pred_setPred _ true (by decide) (by decide)
  case refused =>
    rw [hrefused hbad, State.guardRefuse_seq, State.guardRefuse_count]
    obtain ⟨hp, hflag, -, -⟩ := (l.seq n).refuse_clears b ((l.handPod n).map fun p => p.op.id)
    refine ⟨?_, hflag, rfl, fun p hhand => ?_⟩
    · rw [Seq.pred, hp]
      exact Seq.pred_setPred _ false (by decide) (by decide)
    · rw [show (s.latchRow n).handPod n = some p from hhand]
      exact Seq.refuse_guarded _ _ _
  case grows =>
    by_cases hok : ok
    · rw [hallowed hok, State.seq_modSeq_self]
    · obtain ⟨-, -, hgrows, -⟩ := (l.seq n).refuse_clears b ((l.handPod n).map fun p => p.op.id)
      rw [hrefused hok, State.guardRefuse_seq]
      exact hgrows
  case gerase =>
    by_cases hok : ok
    · rw [hallowed hok, State.seq_modSeq_self]
    · obtain ⟨-, -, -, hgerase⟩ := (l.seq n).refuse_clears b ((l.handPod n).map fun p => p.op.id)
      rw [hrefused hok, State.guardRefuse_seq]
      exact hgerase
  case program =>
    obtain ⟨hopc, hrows, hall⟩ := State.programAllowed_some hp hhand
    refine ⟨hopc, hrows, fun row hrow => ?_⟩
    obtain ⟨hblock, hguard⟩ := Bool.and_eq_true_iff.mp (hall row hrow)
    exact ⟨hblock, of_decide_eq_true hguard⟩
  case erase => exact State.eraseAllowed_some hp hhand

end Sys2Proof
end

section
/-! PROOFS. Sequencers: the pods (R207 to R210), starting and stopping them (R198, R217, R218). -/

namespace Sys2Proof

open Machine

namespace Machine

/-! ### Register addresses of a channel -/

theorem chSeqstat_ne_chSeqctl (n m : Nat) : R.CH_SEQSTAT n ≠ R.CH_SEQCTL m := by
  unfold R.CH_SEQSTAT R.CH_SEQCTL
  omega

theorem chSeqctl_ne_evdrop (n : Nat) : R.CH_SEQCTL n ≠ R.MGT_EVDROP := by
  unfold R.CH_SEQCTL R.MGT_EVDROP
  omega

/-! ### POP (R207) -/

theorem State.die_modDie_self (s : State) (d : Nat) (g : Die → Die) : (s.modDie d g).die d = g (s.die d) := Tab.getD_set_self ..

theorem State.die_modDie_ne (s : State) {d e : Nat} (g : Die → Die) (h : e ≠ d) : (s.modDie d g).die e = s.die e :=
  Tab.getD_set_ne _ _ _ h

theorem State.pickItem_nil {s : State} {n : Nat} (h : s.items n = []) : s.pickItem n = none := by
  unfold State.pickItem
  rw [h]
  rfl

theorem State.pickItem_singleton {s : State} {n : Nat} {i : Item} (h : s.items n = [i]) : s.pickItem n = some (i, s) := by
  unfold State.pickItem
  rw [h]
  simp [minBy]

/-- A sequencer that stops at POP, before its event (R198). -/
def State.popStop (s : State) (n : Nat) : State :=
  ((s.setFld (F.CH_SEQSTAT_STATE n) 0).setFld (F.CH_SEQCTL_RUN n) 0).setFld (F.CH_SEQCTL_STOP n) 0

theorem State.popLoop_waits {s : State} {n k : Nat} (h : s.items n = [])
    (hgo : s.flag (F.CH_SEQCTL_STOP n) = false ∨ s.podsEmpty n = false) :
    s.popLoop n (k + 1) = s.setFld (F.CH_SEQSTAT_STATE n) 2 := by
  rw [State.popLoop, State.pickItem_nil h]
  refine if_neg fun ⟨hstop, hempty⟩ => ?_
  rcases hgo with hgo | hgo
  · exact absurd hstop (ne_true_of_eq_false hgo)
  · exact absurd hempty (ne_true_of_eq_false hgo)

theorem State.popLoop_stops {s : State} {n k : Nat} (h : s.items n = []) (hstop : s.flag (F.CH_SEQCTL_STOP n) = true)
    (hempty : s.podsEmpty n = true) : ∃ v, s.popLoop n (k + 1) = (s.popStop n).chPost n 0x0443 v := by
  rw [State.popLoop, State.pickItem_nil h]
  exact ⟨_, if_pos ⟨hstop, hempty⟩⟩

/-- What a sequencer that stops at POP shows and leaves. -/
theorem State.popStop_shows (s : State) (n : Nat) (v : List (Nat × Nat)) :
    let t := (s.popStop n).chPost n 0x0443 v
    t.fld (F.CH_SEQSTAT_STATE n) = 0 ∧ t.fld (F.CH_SEQCTL_RUN n) = 0 ∧ t.fld (F.CH_SEQCTL_STOP n) = 0 ∧ t.zne = s.zne ∧ t.mem = s.mem := by
  obtain ⟨hmem, hzne, -⟩ := State.post_keeps (s.popStop n) (0x30 + n) 0x0443 v 0xFF
  refine ⟨?_, ?_, ?_, hzne, hmem⟩
  · rw [State.fld_chPost _ _ _ _ (chSeqstat_ne_counts n).2, State.popStop, State.fld_setFld_ne _ _ (chSeqstat_ne_chSeqctl n n),
      State.fld_setFld_ne _ _ (chSeqstat_ne_chSeqctl n n)]
    exact State.fld_setFld_self _ _ _ (show 12 + 2 ≤ 64 by decide)
  · rw [State.fld_chPost _ _ _ _ (chSeqctl_ne_evdrop n), State.popStop,
      State.fld_setFld_disjoint _ _ (show 0 + 1 ≤ 64 by decide) (.inl (show 0 + 1 ≤ 1 by decide))]
    exact State.fld_setFld_self _ _ _ (show 0 + 1 ≤ 64 by decide)
  · rw [State.fld_chPost _ _ _ _ (chSeqctl_ne_evdrop n)]
    exact State.fld_setFld_self _ _ _ (show 1 + 1 ≤ 64 by decide)

theorem State.popLoop_delivers {s : State} {n k : Nat} {it : Item} {p : Pod} (h : s.items n = [it])
    (hpod : (if it.susp then (s.die (n * 16 + it.rank)).susp else (s.die (n * 16 + it.rank)).active) = some p)
    (hentry : ¬(it.kind = 0 ∧ s.flag (F.CH_ENTRY_VALID n p.opc) = false)) :
    s.popLoop n (k + 1) = s.deliver_ n it p := by
  rw [State.popLoop, State.pickItem_singleton h]
  dsimp only
  rw [hpod]
  exact if_neg hentry

/-- What POP makes of the sequencer when it delivers an item, with the values k1 to k3 are left at. -/
def Seq.delivered (q : Seq) (it : Item) (p : Pod) (a b c : Nat) : Seq :=
  { q with
    k := 0 :: ([a, b, c].map (BitVec.ofNat 32) ++ p.ctx ++ p.desc),
    p := BitVec.ofNat 4 (b2n p.abort * 2 + b2n (it.kind = 3) * 4 + b2n p.suspReq * 8), stack := [],
    hand := some ⟨it.rank, it.susp⟩, item := it.rank + it.kind * 16, sel := none, burst := none }

/-- What POP makes of the pod. -/
def Die.delivered (x : Die) (it : Item) (p : Pod) : Die :=
  let q := { p with hand := true, parked := false, fresh := false, resumed := false, ripe := false, due := none }
  if it.susp then { x with susp := some q } else { x with active := some q }

theorem State.deliver_eq (s : State) (n : Nat) (it : Item) (p : Pod) : s.deliver_ n it p =
    ((((({ s with free := s.free + 3 }).modDie (n * 16 + it.rank) fun x => x.delivered it p).modSeq n fun q =>
      q.delivered it p (Config.freeNat s.free) (Config.freeNat (s.free + 1)) (Config.freeNat (s.free + 2))).setFld
        (F.CH_SEQSTAT_STATE n) 1).chCost n 4).setPc n (if it.kind = 0 then s.fld (F.CH_ENTRY_ADDR n p.opc) else p.resume) := rfl

/-- What POP leaves once it delivers a work item (R196, R207). -/
theorem State.deliver_shows (s : State) (n : Nat) (it : Item) (p : Pod) :
    let t := s.deliver_ n it p
    t.fld (F.CH_SEQSTAT_STATE n) = 1 ∧ (t.seq n).hand = some ⟨it.rank, it.susp⟩ ∧
      (t.seq n).item = it.rank + it.kind * 16 ∧ (t.seq n).stack = [] ∧ (t.seq n).sel = none ∧
      (t.seq n).k.drop 4 = p.ctx ++ p.desc ∧
      t.fld (F.CH_SEQSTAT_PC n) = (if it.kind = 0 then s.fld (F.CH_ENTRY_ADDR n p.opc) else p.resume) % 4096 ∧ t.mem = s.mem := by
  rw [State.deliver_eq]
  dsimp only
  rw [State.state_setPc, State.pc_setPc, State.seq_setPc, State.seq_chCost, State.fld_chCost, State.seq_setFld, State.seq_modSeq_self]
  exact ⟨State.fld_setFld_self _ _ _ (show 12 + 2 ≤ 64 by decide), rfl, rfl, rfl, rfl, rfl, rfl, rfl⟩

theorem State.zne_post (s : State) (src id : Nat) (items : List (Nat × Nat)) (ten : Nat) : (s.post src id items ten).zne = s.zne := by
  obtain ⟨-, h, -⟩ := s.post_keeps src id items ten
  exact h

theorem State.fetched_zne (s : State) (n : Chan) (f : Fetch) : (s.fetched n f).zne = s.zne := by
  unfold State.fetched
  split
  · by_cases hseen : s.ceReported n
    · rw [State.imemCe_of_reported hseen]
      rfl
    · rw [State.imemCe_of_not_reported hseen]
      exact State.zne_post ..
  · rfl

/-! ### DONE, PARK and SUSP (R208, R210) -/

theorem State.posted_modDie_mem (s : State) (n d : Nat) (g : Die → Die) : ((s.modDie d g).posted n).mem = s.mem := rfl

theorem State.posted_hand (s : State) (n : Nat) : ((s.posted n).seq n).hand = none := by
  rw [State.posted, State.seq_plain]

theorem State.die_posted (s : State) (n d : Nat) : (s.posted n).die d = s.die d := rfl

theorem State.die_showPods (s : State) (d e : Nat) : (s.showPods d).die e = s.die e := rfl

/-- What shows the pods and the power changes no register but theirs. -/
theorem State.fld_showPods_showPower (s : State) (d : Nat) {f : Fld} (h : f.addr ≠ R.CH_PODSTAT (d / 16) ∧ f.addr ≠ R.ZNE_PWREFF ∧
    f.addr ≠ R.ZNE_PWRSTAT ∧ f.addr ≠ R.ZNE_PWRPGM) : (s.showPods d).showPower.fld f = s.fld f := by
  obtain ⟨hpod, heff, hstat, hpgm⟩ := h
  rw [State.showPower, State.fld_setFld_ne _ _ hpgm, State.fld_setFld_ne _ _ hstat, State.fld_setFld_ne _ _ heff, State.showPods,
    State.fld_setFld_ne _ _ hpod, State.fld_setFld_ne _ _ hpod]

theorem chDctl_ne_shown (n d : Nat) : R.CH_DCTL n ≠ R.CH_PODSTAT d ∧ R.CH_DCTL n ≠ R.ZNE_PWREFF ∧ R.CH_DCTL n ≠ R.ZNE_PWRSTAT ∧
    R.CH_DCTL n ≠ R.ZNE_PWRPGM ∧ R.CH_DCTL n ≠ R.CH_DSTAT n := by
  unfold R.CH_DCTL R.CH_PODSTAT R.ZNE_PWREFF R.ZNE_PWRSTAT R.ZNE_PWRPGM R.CH_DSTAT
  omega

theorem chDstat_ne_shown (n d : Nat) : R.CH_DSTAT n ≠ R.CH_PODSTAT d ∧ R.CH_DSTAT n ≠ R.ZNE_PWREFF ∧ R.CH_DSTAT n ≠ R.ZNE_PWRSTAT ∧
    R.CH_DSTAT n ≠ R.ZNE_PWRPGM := by
  unfold R.CH_PODSTAT R.ZNE_PWREFF R.ZNE_PWRSTAT R.ZNE_PWRPGM R.CH_DSTAT
  omega

/-- The pod of a die that a DONE frees. -/
def Die.freed (x : Die) (susp : Bool) : Die := if susp then { x with susp := none } else { x with active := none }

/-- A channel once the pod of an op is freed, before its DONE goes on its way. -/
def State.podFreed (s : State) (n r : Nat) (susp : Bool) (p : Pod) : State :=
  ((s.modDie (n * 16 + r) fun x => x.freed susp).bump (F.CH_OPS_COUNT n)).modSeq n fun q =>
    { q with guarded := Tab.erase q.guarded p.op.id }

theorem State.zne_podFreed (s : State) (n r : Nat) (susp : Bool) (p : Pod) :
    (s.podFreed n r susp p).zne = (s.modDie (n * 16 + r) fun x => x.freed susp).zne := rfl

/-- The DONE of a direct op in the registers of its channel (R218). -/
def State.directDone (s : State) (n opid status : Nat) : State :=
  (((s.setFld (F.CH_DCTL_BUSY n) 0).setFld (F.CH_DCTL_DONE n) 1).setFld (F.CH_DSTAT_STATUS n) status).setFld (F.CH_DSTAT_OPID n) opid

theorem State.zne_directDone (s : State) (n opid status : Nat) : (s.directDone n opid status).zne = s.zne := rfl

theorem State.podDone_direct_eq {v : State} {n r : Nat} {susp : Bool} {p : Pod} {code detail : Nat} (h : p.op.isDirect = true) :
    v.podDone n r susp p code detail =
      (((v.podFreed n r susp p).directDone n p.opid (code + detail * 256)).showPods (n * 16 + r)).showPower := by
  unfold State.podDone
  exact congrArg (fun u => (State.showPods u (n * 16 + r)).showPower) (if_pos h)

theorem State.podDone_zne_eq {v : State} {n r : Nat} {susp : Bool} {p : Pod} {code detail : Nat} (h : p.op.isDirect = false) :
    v.podDone n r susp p code detail =
      (((v.podFreed n r susp p).zn fun z =>
        { z with dones := z.dones ++ [⟨n * 16 + r, p.op, code, detail, v.podTime p - v.opWatch p.op⟩] }).showPods (n * 16 + r)).showPower := by
  unfold State.podDone
  exact congrArg (fun u => (State.showPods u (n * 16 + r)).showPower) (if_neg (ne_true_of_eq_false h))

theorem State.zne_showPods_showPower (s : State) (d : Nat) : (s.showPods d).showPower.zne = s.zne := rfl

/-- A DONE frees the pod. -/
theorem State.podDone_active (v : State) (n r : Nat) (p : Pod) (code detail : Nat) :
    ((v.podDone n r false p code detail).die (n * 16 + r)).active = none := by
  have hfreed : ((v.podFreed n r false p).die (n * 16 + r)).active = none := by
    rw [State.die, State.zne_podFreed]
    exact (congrArg Die.active (v.die_modDie_self (n * 16 + r) fun x => x.freed false)).trans rfl
  by_cases hdirect : p.op.isDirect = true
  · rw [State.podDone_direct_eq hdirect, State.die, State.zne_showPods_showPower, State.zne_directDone]
    exact hfreed
  · rw [State.podDone_zne_eq (eq_false_of_ne_true hdirect), State.die, State.zne_showPods_showPower]
    exact hfreed

/-- The DONE of an op of ZNE goes to ZNE. -/
theorem State.podDone_dones {v : State} {n r : Nat} {susp : Bool} {p : Pod} {code detail : Nat} (h : p.op.isDirect = false) :
    ∃ late, (v.podDone n r susp p code detail).zne.dones = v.zne.dones ++ [⟨n * 16 + r, p.op, code, detail, late⟩] := by
  rw [State.podDone_zne_eq h, State.zne_showPods_showPower]
  exact ⟨_, rfl⟩

/-- The DONE of a direct op goes to CH_DSTAT (R218). -/
theorem State.podDone_direct {v : State} {n r : Nat} {susp : Bool} {p : Pod} {code detail : Nat} (h : p.op.isDirect = true)
    (hcode : code < 256) (hdetail : detail < 256) : let o := v.podDone n r susp p code detail
    o.zne.dones = v.zne.dones ∧ o.fld (F.CH_DSTAT_STATUS n) = code + detail * 256 ∧ o.flag (F.CH_DCTL_DONE n) = true := by
  obtain ⟨c1, c2, c3, c4, c5⟩ := chDctl_ne_shown n ((n * 16 + r) / 16)
  rw [State.podDone_direct_eq h]
  dsimp only
  rw [State.fld_showPods_showPower _ _ (chDstat_ne_shown n _), State.flag, State.fld_showPods_showPower _ _ ⟨c1, c2, c3, c4⟩,
    State.zne_showPods_showPower, State.directDone]
  refine ⟨rfl, ?_, ?_⟩
  · rw [State.fld_setFld_disjoint _ _ (show 0 + 16 ≤ 64 by decide) (.inl (show 0 + 16 ≤ 16 by decide)),
      State.fld_setFld_self _ _ _ (show 0 + 16 ≤ 64 by decide)]
    exact Nat.mod_eq_of_lt (show code + detail * 256 < 2 ^ 16 by omega)
  · rw [State.fld_setFld_ne _ _ c5, State.fld_setFld_ne _ _ c5, State.fld_setFld_self _ _ _ (show 2 + 1 ≤ 64 by decide)]
    rfl

/-- An op's pod once PARK has left it (R208): due after c cycles from its end, or at once. -/
def Pod.park (p : Pod) (ctx : List W32) (imm : BitVec 18) (end_ c : Nat) : Pod :=
  let now := decide (c = 0) || p.abort || (p.suspReq && imm.getLsbD 16)
  { p with
    ctx := ctx, resume := imm.toNat % 4096, sw := imm.getLsbD 16, hand := false, parked := true,
    due := some (end_ + if now then 0 else c), ripe := now }

theorem Pod.park_due (p : Pod) (ctx : List W32) (imm : BitVec 18) (end_ c : Nat) : (p.park ctx imm end_ c).due =
    some (end_ + if c = 0 ∨ p.abort = true ∨ (p.suspReq = true ∧ imm.getLsbD 16 = true) then 0 else c) := by
  unfold Pod.park
  simp only [Bool.or_eq_true, Bool.and_eq_true, decide_eq_true_eq, or_assoc]

/-- A die with the pod that holds its op in hand replaced. -/
def Die.setPod (x : Die) (susp : Bool) (p : Pod) : Die := if susp then { x with susp := some p } else { x with active := some p }

theorem Die.pod_setPod (x : Die) (susp : Bool) (p : Pod) :
    (if susp then (x.setPod susp p).susp else (x.setPod susp p).active) = some p := by
  cases susp <;> rfl

/-- The word of a POST runs where its kind is the command's. -/
theorem Instr.exec_of_runsPost {i : Instr} {n : Chan} {f : Fetch} {s : State} {rd rs : BitVec 4} {imm : BitVec 18} {k : Nat}
    {body : State → State} (hrun : s.runsKz n f i) (hk : imm.toNat / 2 ^ 12 % 4 = k) (hk3 : k ≠ 3)
    (hword : kzEncode i = some (kzPack 0x29 rd rs imm))
    (hexec : exec i s = .next (if bits imm.toNat 12 2 ≠ k then s else s.kz n f (kzWord 0x29 rd.toNat rs.toNat imm.toNat) body)) :
    exec i s = .next (body (s.fetched n f)) :=
  Instr.exec_of_runsKz (op := 0x29) hrun hword (by decide) (fun h => hk3 (hk.symm.trans h.2))
    (hexec.trans (congrArg _ (if_neg (not_not_intro hk))))

end Machine

/-- Settles O29. -/
theorem kazinoPods : Obligations.kazino_pods := by
  unfold Obligations.kazino_pods
  intro n f rd rs imm s u status idle
  have hpop (h : s.runsKz n f (.pop n f)) (hhand : (u.seq n).hand = none) : exec (.pop n f) s = .next (idle.popLoop n 33) := by
    rw [Instr.exec_of_runs (op := 0x28) (rd := 0) (rs := 0) (imm := 0) h (by decide) rfl rfl]
    refine congrArg _ (if_neg ?_)
    rw [show (s.fetched n f) = u from rfl, hhand]
    decide
  have hstatus : bits status 0 8 = status % 256 := bits_zero _ _
  refine ⟨fun h hhand => ?inHand, fun h hhand hnone hgo => ?waits, fun h hhand hnone hstop hempty => ?stops,
    fun it p h hhand hone hpod hentry => ?delivers, fun h p hrun hhand hpod hcode hk => ?done, fun h p hrun hhand hpod hcode hk => ?refused,
    fun v d p code detail hd => ?podDone, fun h p c hrun hhand hpod hk hc => ?park, fun h p hrun hhand hpod hk hreq hsusp hable => ?susp,
    fun hhand => ?noHand⟩
  case inHand =>
    rw [Instr.exec_of_runs (op := 0x28) (rd := 0) (rs := 0) (imm := 0) h (by decide) rfl rfl, if_pos (Option.isSome_iff_ne_none.mpr hhand)]
  case waits => rw [hpop h hhand, State.popLoop_waits hnone hgo]
  case stops =>
    obtain ⟨v, hv⟩ := State.popLoop_stops (k := 32) hnone hstop hempty
    obtain ⟨hstate, hrun, hstopped, hzne, hmem⟩ := idle.popStop_shows n v
    rw [hpop h hhand, hv]
    exact ⟨_, rfl, hstate, hrun, hstopped, hzne.trans (s.fetched_zne n f), hmem.trans (s.fetched_mem n f)⟩
  case delivers =>
    obtain ⟨hstate, hhand', hitem, hstack, hsel, hk, hpc, hmem⟩ := idle.deliver_shows n it p
    rw [hpop h hhand, State.popLoop_delivers hone hpod hentry]
    exact ⟨_, rfl, hstate, hhand', hitem, hstack, hsel, hk, hpc, hmem.trans (s.fetched_mem n f)⟩
  case done =>
    rw [Instr.exec_of_runsPost hrun hk (by decide) rfl rfl, show (s.fetched n f) = u from rfl, hhand, hpod]
    dsimp only
    rw [hstatus, if_neg (by rw [hcode]; decide)]
    rfl
  case refused =>
    rw [Instr.exec_of_runsPost hrun hk (by decide) rfl rfl, show (s.fetched n f) = u from rfl, hhand, hpod]
    dsimp only
    rw [hstatus, if_pos hcode]
  case podDone =>
    refine ⟨_, rfl, v.podDone_active n d p code detail, fun h => ?_, fun h hcode hdetail => State.podDone_direct h hcode hdetail⟩
    obtain ⟨late, hdones⟩ := State.podDone_dones (v := v) (n := n) (r := d) (susp := false) (code := code) (detail := detail) h
    exact ⟨_, hdones, rfl, rfl, rfl⟩
  case park =>
    have hunit : bits imm.toNat 14 2 = imm.toNat / 2 ^ 14 % 4 := rfl
    refine ⟨(u.modDie (n * 16 + h.rank) fun x =>
      x.setPod h.susp (p.park (u.seq n).context imm (u.chNow n + 2) c)).posted n, p.park (u.seq n).context imm (u.chNow n + 2) c, ?_, ?_,
      rfl, rfl, rfl, rfl, rfl, p.park_due _ _ _ _, rfl, rfl, State.posted_hand _ n,
      (u.posted_modDie_mem n _ _).trans (s.fetched_mem n f)⟩
    · rw [Instr.exec_of_runsPost hrun hk (by decide) rfl rfl, show (s.fetched n f) = u from rfl, hhand, hpod]
      dsimp only
      rw [hunit, hc]
      dsimp only
      rw [bits_zero, bit_toNat]
      rfl
    · rw [State.die_posted, State.die_modDie_self]
      exact Die.pod_setPod _ _ _
  case susp =>
    rw [Instr.exec_of_runsPost hrun hk (by decide) rfl rfl, show (s.fetched n f) = u from rfl, hhand, hpod]
    dsimp only
    rw [if_neg (fun h => by rw [hreq] at h; exact absurd h.2.1 (by decide)), if_pos ⟨hreq, hsusp, hable⟩, bits_zero]
    rfl
  case noHand =>
    refine ⟨fun hrun hk => ?_, fun hrun hk => ?_, fun hrun hk => ?_⟩
    · rw [Instr.exec_of_runsPost hrun hk (by decide) rfl rfl, show (s.fetched n f) = u from rfl, hhand]
    · rw [Instr.exec_of_runsPost hrun hk (by decide) rfl rfl, show (s.fetched n f) = u from rfl, hhand]
    · rw [Instr.exec_of_runsPost hrun hk (by decide) rfl rfl, show (s.fetched n f) = u from rfl, hhand]

end Sys2Proof
end

section
/-! PROOFS. Sequencers: starting, stopping and timing them (R198, R208, R211, R217, R218). -/

namespace Sys2Proof

open Machine

namespace Machine

/-! ### RUN (R198, R217) -/

/-- A sequencer started at word 0, before its event. -/
def State.started (s : State) (n : Nat) : State :=
  (((s.setFld (F.CH_SEQSTAT_STATE n) 1).setPc n 0).setFld (F.CH_SEQCTL_RUN n) 1).modSeq n fun q =>
    { q with sel := none, burst := none,
             till := (((s.setFld (F.CH_SEQSTAT_STATE n) 1).setPc n 0).setFld (F.CH_SEQCTL_RUN n) 1).chNow n }

theorem State.seqRun_stopped {s : State} {n : Nat} (h : s.fld (F.CH_SEQSTAT_STATE n) = 0) :
    ∃ v, s.seqRun n = (s.started n).chPost n 0x0443 [(2, 1), (32, v)] := by
  unfold State.seqRun
  dsimp only
  rw [h, if_pos (.inl rfl), if_neg (by decide)]
  exact ⟨_, rfl⟩

theorem State.seqRun_faulted {s : State} {n : Nat} (h : s.fld (F.CH_SEQSTAT_STATE n) = 3) :
    ∃ v, s.seqRun n = ((s.abortPods n).started n).chPost n 0x0443 [(2, 1), (32, v)] := by
  unfold State.seqRun
  dsimp only
  rw [h, if_pos (.inr rfl), if_pos rfl]
  exact ⟨_, rfl⟩

/-- What a sequencer that has been started shows. -/
theorem State.started_shows (s : State) (n : Nat) (v : List (Nat × Nat)) :
    let t := (s.started n).chPost n 0x0443 v
    t.fld (F.CH_SEQSTAT_STATE n) = 1 ∧ t.fld (F.CH_SEQSTAT_PC n) = 0 ∧ t.fld (F.CH_SEQCTL_RUN n) = 1 := by
  dsimp only
  rw [State.fld_chPost _ _ _ _ (chSeqstat_ne_counts n).2, State.fld_chPost _ _ _ _ (chSeqstat_ne_counts n).2,
    State.fld_chPost _ _ _ _ (chSeqctl_ne_evdrop n), State.started, State.fld_modSeq, State.fld_modSeq, State.fld_modSeq]
  refine ⟨?_, ?_, State.fld_setFld_self _ _ _ (show 0 + 1 ≤ 64 by decide)⟩
  · rw [State.fld_setFld_ne _ _ (chSeqstat_ne_chSeqctl n n), State.state_setPc]
    exact State.fld_setFld_self _ _ _ (show 12 + 2 ≤ 64 by decide)
  · rw [State.fld_setFld_ne _ _ (chSeqstat_ne_chSeqctl n n), State.pc_setPc]

theorem State.seq_started (s : State) (n : Nat) : ((s.started n).seq n).sel = none ∧ ((s.started n).seq n).k = (s.seq n).k := by
  rw [State.started, State.seq_modSeq_self]
  exact ⟨rfl, rfl⟩

theorem State.zne_started (s : State) (n : Nat) : (s.started n).zne = s.zne := rfl

theorem State.evr_started (s : State) (n : Nat) : (s.started n).evr = s.evr := rfl

theorem State.gated_started (s : State) (n isl : Nat) : (s.started n).gated isl = s.gated isl := by
  refine State.gated_of_fld ?_ isl
  have h1 : R.AON_PSSTAT ≠ R.CH_SEQCTL n := by
    unfold R.AON_PSSTAT R.CH_SEQCTL
    omega
  have h2 : R.AON_PSSTAT ≠ R.CH_SEQSTAT n := by
    unfold R.AON_PSSTAT R.CH_SEQSTAT
    omega
  rw [State.started, State.fld_modSeq, State.fld_setFld_ne _ _ h1, State.fld_setPc_ne _ _ _ h2, State.fld_setFld_ne _ _ h2]

/-! ### The aborts that a start after a fault brings (R217) -/

/-- The mark of an abort on an op that has begun. -/
def Pod.aborted (p : Pod) (now : Nat) : Pod := if p.fresh || p.abort then p else { p with abort := true, abortAt := now }

theorem Pod.aborted_keeps {p : Pod} (h : p.fresh = false) (now : Nat) :
    (p.aborted now).abort = true ∧ (p.aborted now).op = p.op ∧ (p.aborted now).resume = p.resume := by
  unfold Pod.aborted
  rw [h, Bool.false_or]
  cases habort : p.abort with
  | true => exact ⟨habort, rfl, rfl⟩
  | false => exact ⟨rfl, rfl, rfl⟩

/-- A die whose ops that have begun are to abort. -/
def Die.aborted (x : Die) (now : Nat) : Die :=
  { x with active := x.active.map fun p => p.aborted now, susp := x.susp.map fun p => { p.aborted now with ripe := true } }

theorem Die.aborted_of_none {x : Die} (now : Nat) (h : ¬(x.active.isSome || x.susp.isSome) = true) : x.aborted now = x := by
  rw [Bool.or_eq_true, not_or, Option.not_isSome_iff_eq_none, Option.not_isSome_iff_eq_none] at h
  obtain ⟨hactive, hsusp⟩ := h
  unfold Die.aborted
  cases x
  simp_all

/-- The aborts of one rank of a channel. -/
def State.abortRank (n : Nat) (s : State) (r : Nat) : State :=
  if (s.die (n * 16 + r)).active.isSome || (s.die (n * 16 + r)).susp.isSome then
    s.modDie (n * 16 + r) fun x => x.aborted s.now
  else s

theorem State.abortPods_eq (s : State) (n : Nat) : s.abortPods n = (List.range 16).foldl (State.abortRank n) s := by
  unfold State.abortPods
  congr 1
  funext s r
  unfold State.abortRank
  simp [Die.aborted, Pod.aborted, Option.map_map, Function.comp_def]

theorem State.abortRank_now (n : Nat) (s : State) (r : Nat) : (s.abortRank n r).now = s.now := by
  unfold State.abortRank
  split <;> rfl

theorem State.abortRank_die (n : Nat) (s : State) (r x : Nat) : (State.abortRank n s r).die (n * 16 + x) =
    if x = r then (s.die (n * 16 + x)).aborted s.now else s.die (n * 16 + x) := by
  unfold State.abortRank
  by_cases hx : x = r
  · subst hx
    rw [if_pos rfl]
    split
    case isTrue => exact State.die_modDie_self _ _ _
    case isFalse h => exact (Die.aborted_of_none _ h).symm
  · rw [if_neg hx]
    split
    · exact State.die_modDie_ne _ _ (by omega)
    · rfl

theorem State.foldl_abortRank_die (n : Nat) (rs : List Nat) (hrs : rs.Nodup) (s : State) (x : Nat) :
    (rs.foldl (State.abortRank n) s).die (n * 16 + x) =
      if x ∈ rs then (s.die (n * 16 + x)).aborted s.now else s.die (n * 16 + x) := by
  induction rs generalizing s with
  | nil => rfl
  | cons r rs ih =>
    obtain ⟨hr, hrs⟩ := List.nodup_cons.mp hrs
    rw [List.foldl_cons, ih hrs, State.abortRank_die, State.abortRank_now]
    by_cases hx : x = r
    · subst hx
      simp [hr]
    · simp [hx]

theorem State.abortPods_die (s : State) (n : Nat) (r : Fin 16) :
    (s.abortPods n).die (n * 16 + r.val) = (s.die (n * 16 + r.val)).aborted s.now := by
  rw [State.abortPods_eq, State.foldl_abortRank_die n _ List.nodup_range, if_pos (List.mem_range.mpr r.isLt)]

/-! ### Direct operations (R218) -/

/-- The part is hotter than its set point. -/
def State.tooHot (s : State) : Bool :=
  match hottest s.temps with
  | some t => decide (s16 (s.lpe.tgt.getD (s.fld (F.LPE_SP_TARGET 144))) < t)
  | none => false

theorem State.tooHot_eq_false {s : State} (h : ∀ t, hottest s.temps = some t → t ≤ s16 (s.lpe.tgt.getD (s.fld (F.LPE_SP_TARGET 144)))) :
    s.tooHot = false := by
  unfold State.tooHot
  cases ht : hottest s.temps with
  | none => rfl
  | some t => exact decide_eq_false (not_lt.mpr (h t ht))

/-- The descriptor of a direct op. -/
def State.directDesc (s : State) (n : Nat) : List W32 := (List.range 8).map fun i => BitVec.ofNat 32 (s.fld (F.CH_DDESC_WORD n i))

theorem State.directDesc_first (s : State) (n : Nat) : ((s.directDesc n).getD 0 0).toNat = s.fld (F.CH_DDESC_WORD n 0) :=
  (BitVec.toNat_ofNat _ _).trans (Nat.mod_eq_of_lt (Nat.mod_lt _ (Nat.two_pow_pos 32)))

theorem State.directDesc_rank (s : State) (n : Nat) :
    bits ((s.directDesc n).getD 0 0).toNat 8 4 = bits (s.fld (F.CH_DDESC_WORD n 0)) 8 4 :=
  congrArg (bits · 8 4) (s.directDesc_first n)

/-- The pod that a direct op's start fills. -/
def State.directPod (s : State) (n : Nat) : Pod :=
  let w := ((s.directDesc n).getD 0 0).toNat
  let k := directKind (bits w 0 4)
  { s.fresh.2.newPod { plainOp (bits w 4 3) k.1 k.2 (mkBlk n (bits w 8 4) 0) 0 [] (.direct (bits w 0 4)) 0xFF with
      id := s.fresh.1, start := s.fresh.2.now } with desc := s.directDesc n }

/-- What a direct op's start leaves. -/
theorem State.directGo_posts {s : State} {n : Nat} (hlock : s.flag F.ZNE_GEOM_LOCK = false) (hbusy : s.flag (F.CH_DCTL_BUSY n) = false)
    (hfree : (s.die (n * 16 + bits (s.fld (F.CH_DDESC_WORD n 0)) 8 4)).active = none) (hcool : s.tooHot = false) :
    s.directGo n = ((s.fresh.2.modDie (n * 16 + bits ((s.directDesc n).getD 0 0).toNat 8 4) fun x =>
      { x with active := some (s.directPod n) }).setFld (F.CH_DCTL_BUSY n) 1).showPods
        (n * 16 + bits ((s.directDesc n).getD 0 0).toNat 8 4) := by
  have hgo : ¬(s.flag F.ZNE_GEOM_LOCK = true ∨ s.flag (F.CH_DCTL_BUSY n) = true ∨
      (s.die (n * 16 + bits ((s.directDesc n).getD 0 0).toNat 8 4)).active.isSome = true ∨ s.tooHot = true) := by
    rw [s.directDesc_rank, hlock, hbusy, hfree, hcool]
    decide
  exact if_neg hgo

end Machine

/-- Settles O30. -/
theorem sequencerControl : Obligations.sequencer_control := by
  unfold Obligations.sequencer_control
  refine ⟨fun n s h hpower => ?run, fun n s h => ?rerun, fun n s h => ?stop, fun n s h hnone hempty => ?stopWaiting,
    fun n s h => congrArg Host.Outcome.next (if_pos h), fun d p due s hpod hdue hparked hnow => ?parked, fun n s h hlate => if_pos ⟨h, hlate⟩,
    fun n s hlock hbusy hfree hcool => ?direct⟩
  case run =>
    obtain ⟨v, hv⟩ := State.seqRun_stopped h
    obtain ⟨hstate, hpc, hrun⟩ := s.started_shows n [(2, 1), (32, v)]
    obtain ⟨hsel, hk⟩ := s.seq_started n
    have hsent := State.post_of_powered (0x30 + n.val) 0x0443 [(2, 1), (32, v)] 0xFF ((s.gated_started n 2).trans hpower)
    refine ⟨_, (s.started n).eventOf (0x30 + n.val) 0x0443 [(2, 1), (32, v)] 0xFF, congrArg Host.Outcome.next hv, hstate, hpc, hrun, ?_, ?_,
      State.zne_post .., ?_, rfl, ?_⟩
    · rw [State.seq_chPost, hsel]
    · rw [State.seq_chPost, hk]
    · exact (congrArg (·.evr.transit) hsent).trans (congrArg (·.transit ++ _) (s.evr_started n))
    · show (1 % 2 ^ 2 + (v % 2 ^ 32 + 0 * 2 ^ 32) * 2 ^ 2) % 4 = 1
      omega
  case rerun =>
    obtain ⟨v, hv⟩ := State.seqRun_faulted h
    obtain ⟨hstate, hpc, -⟩ := (s.abortPods n).started_shows n [(2, 1), (32, v)]
    have hdie (r : Fin 16) : (((s.abortPods n).started n).chPost n 0x0443 [(2, 1), (32, v)]).die (n * 16 + r.val) =
        (s.die (n * 16 + r.val)).aborted s.now := by
      rw [State.die, State.chPost, State.zne_post, State.zne_started]
      exact s.abortPods_die n r
    refine ⟨_, congrArg Host.Outcome.next hv, hstate, hpc, fun r => ⟨fun p hp hbegun => ?_, fun p hp hbegun => ?_⟩⟩
    · rw [hdie, Die.aborted, hp]
      exact ⟨_, rfl, Pod.aborted_keeps hbegun _⟩
    · rw [hdie, Die.aborted, hp]
      exact ⟨_, rfl, Pod.aborted_keeps hbegun _⟩
  case stop =>
    refine ⟨_, congrArg Host.Outcome.next (if_neg ?_), rfl, State.fld_setFld_self _ _ _ (show 1 + 1 ≤ 64 by decide)⟩
    rwa [State.fld_setFld_ne _ _ (chSeqstat_ne_chSeqctl n n)]
  case stopWaiting =>
    have hstate : (s.setFld (F.CH_SEQCTL_STOP n) 1).fld (F.CH_SEQSTAT_STATE n) = 2 := by
      rwa [State.fld_setFld_ne _ _ (chSeqstat_ne_chSeqctl n n)]
    obtain ⟨v, hv⟩ := State.popLoop_stops (s := s.setFld (F.CH_SEQCTL_STOP n) 1) (k := 32) hnone
      (State.flag_setFld_self _ _ rfl (show 1 + 1 ≤ 64 by decide)) hempty
    obtain ⟨hshown, hrun, hstop, hzne, hmem⟩ := (s.setFld (F.CH_SEQCTL_STOP n) 1).popStop_shows n v
    exact ⟨_, congrArg Host.Outcome.next ((if_pos hstate).trans hv), hshown, hstop, hrun, hzne, hmem⟩
  case parked =>
    rw [exec_parkDelayExpiry, execParkDelayExpiry, hpod]
    dsimp only
    rw [hdue]
    exact if_pos ⟨hparked, hnow⟩
  case direct =>
    have hposts := State.directGo_posts hlock hbusy hfree (State.tooHot_eq_false hcool)
    have hne : R.CH_DCTL n ≠ R.CH_PODSTAT ((n.val * 16 + bits ((s.directDesc n).getD 0 0).toNat 8 4) / 16) := (chDctl_ne_shown n _).1
    refine ⟨_, s.directPod n, congrArg Host.Outcome.next hposts, ?_, ?_, rfl, rfl⟩
    · rw [State.showPods, State.flag_setFld_ne _ _ hne, State.flag_setFld_ne _ _ hne]
      exact State.flag_setFld_self _ _ rfl (show 1 + 1 ≤ 64 by decide)
    · rw [State.die_showPods, ← s.directDesc_rank]
      exact congrArg Die.active (State.die_modDie_self _ _ fun x => { x with active := some (s.directPod n) })

end Sys2Proof
end

section
/-! PROOFS. Sequencers: the channel bus (R203, R205, R206, R213). -/

namespace Sys2Proof

open Machine

namespace Machine

theorem State.onBus_none {s : State} {n : Nat} (h : (s.seq n).sel = none) (body : State → State) : s.onBus n body = s.seqFault n 5 :=
  if_pos (Option.isNone_iff_eq_none.mpr h)

theorem State.onBus_some {s : State} {n : Nat} (h : (s.seq n).sel ≠ none) (body : State → State) : s.onBus n body = body s :=
  if_neg fun h' => h (Option.isNone_iff_eq_none.mp h')

/-! ### Data cycles -/

/-- The op's stream holds the range (R202). -/
def State.streamFits (s : State) (n kind last : Nat) : Bool :=
  match s.streamLen n kind with
  | none => true
  | some l => decide (last ≤ l)

theorem State.streamFits_of_le {s : State} {n kind last : Nat} (h : ∀ l, s.streamLen n kind = some l → last ≤ l) :
    s.streamFits n kind last = true := by
  unfold State.streamFits
  cases hlen : s.streamLen n kind with
  | none => rfl
  | some l => exact decide_eq_true (h l hlen)

theorem State.streamFits_of_lt {s : State} {n kind last l : Nat} (hlen : s.streamLen n kind = some l) (h : l < last) :
    s.streamFits n kind last = false := by
  unfold State.streamFits
  rw [hlen]
  exact decide_eq_false (Nat.not_le_of_lt h)

section
variable {s : State} {n rd rs bytes : Nat} {out : Bool} {move : Nat → Nat → Nat → State → State}

theorem State.dataCycles_count (hsel : (s.seq n).sel ≠ none) (h : bytes < 2 ∨ bytes % 2 = 1) :
    s.dataCycles n rd rs bytes out move = s.seqFault n 6 :=
  (State.onBus_some hsel _).trans (if_pos h)

theorem State.dataCycles_range (hsel : (s.seq n).sel ≠ none) (h : ¬(bytes < 2 ∨ bytes % 2 = 1))
    (hbad : 5 ≤ bits ((s.seq n).reg rs).toNat 20 4 ∨
      s.streamFits n (bits ((s.seq n).reg rs).toNat 20 4) (((s.seq n).reg rd).toNat + bytes) = false) :
    s.dataCycles n rd rs bytes out move = s.seqFault n 7 :=
  (State.onBus_some hsel _).trans ((if_neg h).trans (if_pos hbad))

theorem State.dataCycles_moves (hsel : (s.seq n).sel ≠ none) (h : ¬(bytes < 2 ∨ bytes % 2 = 1))
    (hkind : bits ((s.seq n).reg rs).toNat 20 4 < 5)
    (hfits : s.streamFits n (bits ((s.seq n).reg rs).toNat 20 4) (((s.seq n).reg rd).toNat + bytes) = true) :
    s.dataCycles n rd rs bytes out move =
      (move (bits ((s.seq n).reg rs).toNat 20 4) (bits ((s.seq n).reg rs).toNat 0 20) ((s.seq n).reg rd).toNat s).plain n
        (s.burstCost n bytes out) fun q =>
          { q.setReg rd (BitVec.ofNat 32 (((s.seq n).reg rd).toNat + bytes)) with burst := some out } := by
  refine (State.onBus_some hsel _).trans ((if_neg h).trans (if_neg fun hbad => ?_))
  rcases hbad with hbad | hbad
  · omega
  · exact absurd hfits (ne_true_of_eq_false hbad)

end

/-! ### POLL and the patterns -/

theorem pollRun_hit {mask want step timeout x : Nat} (xs : List Nat) (h : x &&& mask = want) :
    pollRun mask want step timeout 0 0 (x :: xs) = (0, x, true) := by
  rw [pollRun, if_pos h]

theorem pollRun_timeout {mask want step x : Nat} (xs : List Nat) (h : x &&& mask ≠ want) :
    pollRun mask want step 0 0 0 (x :: xs) = (0, x, false) := by
  rw [pollRun, if_neg h, if_pos (Nat.zero_le _)]

theorem State.toCycles_zero_ns (s : State) (n : Nat) : (s.toCycles n 0 1).getD 0 = 0 := by
  show min ((0 * s.fld (F.CH_TICK_TICK n) + 999) / 1000) 0xFFFFFFFF = 0
  rw [Nat.zero_mul]
  rfl

theorem State.plain_mem (s : State) (n c : Nat) (g : Seq → Seq) : (s.plain n c g).mem = s.mem := rfl

/-- Address cycles store nothing. -/
theorem State.modSeq_endBurst_mem (s : State) (n c : Nat) (g : Seq → Seq) :
    ((((s.modSeq n g).endBurst n).chCost n c).nextPc n).mem = s.mem := rfl

theorem State.seqFault_mem (s : State) (n code : Nat) : (s.seqFault n code).mem = s.mem := State.fixed_mem (State.seqFault_fixed s n code)

/-- An instruction that stores only in its body stores nothing, or its body has run. -/
theorem State.kz_mem (s : State) (n : Chan) (f : Fetch) (w : Nat) (body : State → State) :
    (s.kz n f w body).mem = s.mem ∨ s.kz n f w body = body (s.fetched n f) := by
  have hmem := s.fetched_mem n f
  unfold State.kz
  dsimp only
  split
  case isTrue => exact .inl rfl
  case isFalse =>
    cases f
    case double => exact .inl (s.seqFault_mem n 2)
    all_goals
      change (if _ then (s.fetched n _).seqFault n 1 else if _ then (s.fetched n _).seqFault n 9 else if _ then s else
        body (s.fetched n _)).mem = s.mem ∨ (if _ then (s.fetched n _).seqFault n 1 else if _ then (s.fetched n _).seqFault n 9 else
          if _ then s else body (s.fetched n _)) = body (s.fetched n _)
      split
      · exact .inl ((State.seqFault_mem _ n 1).trans hmem)
      split
      · exact .inl ((State.seqFault_mem _ n 9).trans hmem)
      split
      · exact .inl rfl
      · exact .inr rfl

/-- Data cycles store nothing but what the move of their bytes stores. -/
theorem State.dataCycles_mem (s : State) (n rd rs bytes : Nat) (out : Bool) (move : Nat → Nat → Nat → State → State) :
    (s.dataCycles n rd rs bytes out move).mem = s.mem ∨ (s.dataCycles n rd rs bytes out move).mem =
      (move (bits ((s.seq n).reg rs).toNat 20 4) (bits ((s.seq n).reg rs).toNat 0 20) ((s.seq n).reg rd).toNat s).mem := by
  by_cases hsel : (s.seq n).sel = none
  · exact .inl ((congrArg State.mem (State.onBus_none hsel _)).trans (s.seqFault_mem n 5))
  by_cases hcount : bytes < 2 ∨ bytes % 2 = 1
  · exact .inl ((congrArg State.mem (State.dataCycles_count hsel hcount)).trans (s.seqFault_mem n 6))
  by_cases hbad : 5 ≤ bits ((s.seq n).reg rs).toNat 20 4 ∨
      s.streamFits n (bits ((s.seq n).reg rs).toNat 20 4) (((s.seq n).reg rd).toNat + bytes) = false
  · exact .inl ((congrArg State.mem (State.dataCycles_range hsel hcount hbad)).trans (s.seqFault_mem n 7))
  · obtain ⟨hkind, hfits⟩ := not_or.mp hbad
    rw [State.dataCycles_moves hsel hcount (Nat.lt_of_not_le hkind) (eq_true_of_ne_false hfits)]
    exact .inr (State.plain_mem _ _ _ _)

/-- Where the bytes of a DOUT go (R202). -/
def State.doutMove (n : Nat) (data : List Byte) (kind first off : Nat) (s : State) : State :=
  if kind = 4 then s.store (diagBuf + off) (data.take n)
  else if kind = 1 then s.fillStaging first off (data.take n)
  else s

theorem State.doutMove_mem_of_ne {n : Nat} {data : List Byte} {kind first off : Nat} {s : State} (h : kind ≠ 4) :
    (State.doutMove n data kind first off s).mem = s.mem := by
  unfold State.doutMove
  rw [if_neg h]
  split
  · exact State.fixed_mem (State.fillStaging_fixed ..)
  · rfl

theorem State.doutMove_read {n : Nat} {data : List Byte} {kind first off : Nat} {s : State} {x : Nat}
    (h : x < diagBuf + off ∨ diagBuf + off + n ≤ x) : Memory.read (State.doutMove n data kind first off s).mem x = Memory.read s.mem x := by
  by_cases hkind : kind = 4
  · have hlen : (data.take n).length ≤ n := List.length_take_le _ _
    unfold State.doutMove
    rw [if_pos hkind, State.store_mem]
    exact Memory.read_writeBytes_out _ _ _ (by omega)
  · rw [State.doutMove_mem_of_ne hkind]

theorem exec_dout_eq (n : Chan) (f : Fetch) (rd rs : BitVec 4) (imm : BitVec 18) (data : List Byte) (s : State) :
    exec (.dout n f rd rs imm data) s = .next (s.kz n f (kzWord 0x08 rd.toNat rs.toNat imm.toNat) fun s =>
      s.dataCycles n rd.toNat rs.toNat imm.toNat true (State.doutMove imm.toNat data)) := rfl

/-- A DOUT stores nothing but what the move of its bytes stores. -/
theorem exec_dout_mem {n : Chan} {f : Fetch} {rd rs : BitVec 4} {imm : BitVec 18} {data : List Byte} {s t : State}
    (h : exec (.dout n f rd rs imm data) s = .next t) : t.mem = s.mem ∨
      t.mem = (State.doutMove imm.toNat data (bits (((s.fetched n f).seq n).reg rs.toNat).toNat 20 4)
        (bits (((s.fetched n f).seq n).reg rs.toNat).toNat 0 20) (((s.fetched n f).seq n).reg rd.toNat).toNat (s.fetched n f)).mem := by
  obtain rfl := Host.Outcome.next.inj ((exec_dout_eq n f rd rs imm data s).symm.trans h)
  rcases s.kz_mem n f (kzWord 0x08 rd.toNat rs.toNat imm.toNat)
    (fun s => s.dataCycles n rd.toNat rs.toNat imm.toNat true (State.doutMove imm.toNat data)) with hmem | hbody
  · exact .inl hmem
  · rw [hbody]
    refine ((s.fetched n f).dataCycles_mem n rd.toNat rs.toNat imm.toNat true _).imp (fun hmem => hmem.trans (s.fetched_mem n f)) id

end Machine

/-- Settles O27. -/
theorem kazinoBus : Obligations.kazino_bus := by
  unfold Obligations.kazino_bus
  refine ⟨fun n f rd rs imm s => ?_, fun n f rd rs imm data s t h => ⟨fun x hx => ?_, fun hkind x => ?_⟩⟩
  rotate_left
  · rcases exec_dout_mem h with hmem | hmem
    · rw [hmem]
    · rw [hmem, State.doutMove_read hx, s.fetched_mem]
  · rcases exec_dout_mem h with hmem | hmem
    · rw [hmem]
    · rw [hmem, State.doutMove_mem_of_ne hkind, s.fetched_mem]
  intro u r from_
  have hu : s.fetched n f = u := rfl
  have hsel5 : bits imm.toNat 0 5 = imm.toNat % 32 := bits_zero _ _
  have h16 : bits imm.toNat 0 16 = imm.toNat % 2 ^ 16 := bits_zero _ _
  refine ⟨fun h hr => ?sel, fun h hr => ?lacking, fun hnone => ?unselected, fun hsel => ⟨fun h => ?cmd, fun h hcount hrange => ?addr,
    fun h hlo heven hkind hfits => ?din, fun data h hlo heven hkind hfits => ?dout, fun x xs h hhit => ?hit, fun x h hmiss hr => ?miss,
    fun x xs h => ?poll, fun h hbad => ?addrBad, fun h hbad => ?dinCount, fun h hlo heven hkind => ?dinKind,
    fun l h hlo heven hlen hlt => ?dinRange, fun h hodd => ?pgenOdd, fun h heven => ?pgen, fun got h heven => ?pchk,
    fun got h hodd => ?pchkOdd, fun data h hbad => ?doutCount, fun data h hlo heven hkind => ?doutKind,
    fun l data h hlo heven hlen hlt => ?doutRange⟩⟩
  case sel =>
    rw [Instr.exec_of_runs (op := 0x04) (rd := 0) h (by decide) rfl rfl, hu, hsel5]
    exact congrArg Host.Outcome.next (if_neg (Nat.not_le_of_lt hr))
  case lacking =>
    rw [Instr.exec_of_runs (op := 0x04) (rd := 0) h (by decide) rfl rfl, hu, hsel5]
    exact congrArg Host.Outcome.next (if_pos hr)
  case unselected =>
    refine ⟨fun h => ?_, fun h => ?_, fun h => ?_, fun data h => ?_, fun x xs h => ?_, fun h => ?_, fun got h => ?_⟩
    · rw [Instr.exec_of_runs (op := 0x05) (rd := 0) h (by decide) rfl rfl, hu, State.onBus_none hnone]
    · rw [Instr.exec_of_runs (op := 0x06) (rd := 0) h (by decide) rfl rfl, hu, State.onBus_none hnone]
    · rw [Instr.exec_of_runs (op := 0x07) h (by decide) rfl rfl, hu, State.dataCycles, State.onBus_none hnone]
    · rw [Instr.exec_of_runs (op := 0x08) h (by decide) rfl rfl, hu, State.dataCycles, State.onBus_none hnone]
    · rw [Instr.exec_of_runs (op := 0x0A) h (by decide) rfl rfl, hu, State.onBus_none hnone]
    · rw [Instr.exec_of_runs (op := 0x34) (rd := 0) h (by decide) rfl rfl, hu, State.onBus_none hnone]
    · rw [Instr.exec_of_runs (op := 0x35) h (by decide) rfl rfl, hu, State.onBus_none hnone]
  case cmd =>
    rw [Instr.exec_of_runs (op := 0x05) (rd := 0) h (by decide) rfl rfl, hu, State.onBus_some hsel]
    dsimp only
    rw [bit_toNat, bits_zero, bits_zero]
    rfl
  case addr =>
    have h3 : bits imm.toNat 0 3 = imm.toNat % 8 := bits_zero _ _
    have hfirst : bits imm.toNat 3 2 = imm.toNat / 8 % 4 := rfl
    have hok : ¬(imm.toNat % 8 = 0 ∨ 4 < imm.toNat / 8 % 4 + imm.toNat % 8) := by omega
    rw [Instr.exec_of_runs (op := 0x06) (rd := 0) h (by decide) rfl rfl, hu, State.onBus_some hsel]
    dsimp only
    rw [h3, hfirst, if_neg hok]
    refine ⟨_, rfl, State.pc_nextPc _ n, ?_, fun hset => ?_, fun hset => ?_, ?_,
      (u.modSeq_endBurst_mem n _ _).trans (s.fetched_mem n f)⟩
    · rw [State.seq_nextPc, State.seq_chCost, State.endBurst, State.chNow_modSeq rfl, State.chNow_modSeq (by split <;> rfl)]
      rfl
    · rw [State.seq_nextPc, State.seq_chCost, State.endBurst, State.seq_modSeq_self, State.seq_modSeq_self,
        if_pos (Option.isSome_iff_ne_none.mpr hset)]
      rfl
    · rw [State.seq_nextPc, State.seq_chCost, State.endBurst, State.seq_modSeq_self, State.seq_modSeq_self,
        if_neg (by rw [hset]; decide)]
    · rw [State.seq_nextPc, State.seq_chCost, State.endBurst, State.seq_modSeq_self, State.seq_modSeq_self]
      split <;> rfl
  case din =>
    rw [Instr.exec_of_runs (op := 0x07) h (by decide) rfl rfl, hu,
      State.dataCycles_moves hsel (by omega) hkind (State.streamFits_of_le hfits)]
  case dout =>
    rw [Instr.exec_of_runs (op := 0x08) h (by decide) rfl rfl, hu,
      State.dataCycles_moves hsel (by omega) hkind (State.streamFits_of_le hfits)]
  case hit =>
    rw [Instr.exec_of_runs (op := 0x0A) h (by decide) rfl rfl, hu, State.onBus_some hsel]
    have hrun := fun step limit => pollRun_hit (step := step) (timeout := limit) (xs.map BitVec.toNat)
      (show x.toNat &&& bits imm.toNat 0 8 = bits imm.toNat 8 8 by rw [bits_zero]; exact hhit)
    dsimp only
    rw [List.map_cons, hrun, Nat.zero_mul, Nat.zero_add, BitVec.ofNat_toNat, bits_top]
  case miss =>
    rw [Instr.exec_of_runs (op := 0x0A) h (by decide) rfl rfl, hu, State.onBus_some hsel]
    have hrun := fun step => pollRun_timeout (step := step) []
      (show x.toNat &&& bits imm.toNat 0 8 ≠ bits imm.toNat 8 8 by rw [bits_zero]; exact hmiss)
    dsimp only
    rw [show ((u.seq n).reg rs.toNat).toNat = 0 from hr, State.toCycles_zero_ns, List.map_singleton, hrun, Nat.zero_mul, Nat.zero_add,
      BitVec.ofNat_toNat, bits_top]
  case poll =>
    rw [Instr.exec_of_runs (op := 0x0A) h (by decide) rfl rfl, hu, State.onBus_some hsel]
    refine ⟨_, rfl, State.pc_nextPc _ n, ?_, (State.plain_mem ..).trans (s.fetched_mem n f), ?_⟩
    · rw [State.seq_plain]
    · rw [State.seq_plain]
      rfl
  case addrBad =>
    rw [Instr.exec_of_runs (op := 0x06) (rd := 0) h (by decide) rfl rfl, hu, State.onBus_some hsel]
    exact congrArg Host.Outcome.next (if_pos (by rw [bits_zero]; exact hbad.imp id (fun h => by rw [Nat.add_comm]; exact h)))
  case dinCount =>
    rw [Instr.exec_of_runs (op := 0x07) h (by decide) rfl rfl, hu, State.dataCycles_count hsel hbad]
  case dinKind =>
    rw [Instr.exec_of_runs (op := 0x07) h (by decide) rfl rfl, hu, State.dataCycles_range hsel (by omega) (.inl hkind)]
  case dinRange =>
    rw [Instr.exec_of_runs (op := 0x07) h (by decide) rfl rfl, hu,
      State.dataCycles_range hsel (by omega) (.inr (State.streamFits_of_lt hlen hlt))]
  case pgenOdd =>
    rw [Instr.exec_of_runs (op := 0x34) (rd := 0) h (by decide) rfl rfl, hu, State.onBus_some hsel]
    exact congrArg Host.Outcome.next (if_pos (by rw [h16]; omega))
  case pgen =>
    rw [Instr.exec_of_runs (op := 0x34) (rd := 0) h (by decide) rfl rfl, hu, State.onBus_some hsel]
    refine congrArg Host.Outcome.next ((if_neg (by rw [h16]; omega)).trans ?_)
    rw [h16, bits_top]
    rfl
  case pchk =>
    rw [Instr.exec_of_runs (op := 0x35) h (by decide) rfl rfl, hu, State.onBus_some hsel]
    refine ⟨_, congrArg Host.Outcome.next (if_neg (by rw [h16]; omega)), ?_, State.pc_nextPc _ n, ?_, (State.plain_mem ..).trans (s.fetched_mem n f)⟩
    · rw [State.seq_plain, bits_top]
      rfl
    · rw [State.seq_plain]
  case pchkOdd =>
    rw [Instr.exec_of_runs (op := 0x35) h (by decide) rfl rfl, hu, State.onBus_some hsel]
    exact congrArg Host.Outcome.next (if_pos (by rw [h16]; omega))
  case doutCount =>
    rw [Instr.exec_of_runs (op := 0x08) h (by decide) rfl rfl, hu, State.dataCycles_count hsel hbad]
  case doutKind =>
    rw [Instr.exec_of_runs (op := 0x08) h (by decide) rfl rfl, hu, State.dataCycles_range hsel (by omega) (.inl hkind)]
  case doutRange =>
    rw [Instr.exec_of_runs (op := 0x08) h (by decide) rfl rfl, hu,
      State.dataCycles_range hsel (by omega) (.inr (State.streamFits_of_lt hlen hlt))]

end Sys2Proof
end

section
/-! PROOFS. Admin commands: what executing one, refusing one and completing one do (R260, R271, R275), and the queues. -/

namespace Sys2Proof

open Machine

namespace Machine

/-! ### Execution and refusal -/

section
variable {s : State} {fn : FnId} {n : AdminNeeds} (e : Sqe) (run : State → State)

theorem State.admin_of_go (h : s.adminGo fn n) : s.admin fn.val e n run = .next (run s) := by
  obtain ⟨hrec, hruns, hdenies⟩ := h
  unfold State.admin
  rw [if_neg (by rw [hrec]; decide), if_pos hruns, hdenies]

theorem State.adminTunnel_of_go (ok : Bool) (h : s.adminGo fn n) : s.adminTunnel fn.val e n ok run = .next (run s) := by
  unfold State.adminTunnel
  rw [h.1]
  exact State.admin_of_go e run h

theorem State.admin_of_denied {st : Status} (hrec : s.recovery = false) (hruns : s.adminRuns fn.val = true)
    (hdenies : s.adminDenies fn.val n = some st) : s.admin fn.val e n run = .next (s.adminDone fn.val e st) := by
  unfold State.admin
  rw [if_neg (by rw [hrec]; decide), if_pos hruns, hdenies]

theorem State.admin_of_not_runs (hrec : s.recovery = false) (hruns : s.adminRuns fn.val = false) :
    s.admin fn.val e n run = .next s := by
  unfold State.admin
  rw [if_neg (by rw [hrec]; decide), if_neg (by rw [hruns]; decide)]

theorem State.adminTunnel_of_not_runs (ok : Bool) (hrec : s.recovery = false) (hruns : s.adminRuns fn.val = false) :
    s.adminTunnel fn.val e n ok run = .next s := by
  unfold State.adminTunnel
  rw [hrec]
  exact State.admin_of_not_runs e run hrec hruns

end

theorem State.adminDone_withAct (s : State) (fn : Nat) (e : Sqe) (act : Nat) (st : Status) (dw0 : Nat) (data : List Byte) :
    s.adminDone fn (e.withAct act) st dw0 data = s.adminDone fn e st dw0 data := rfl

theorem State.adminDone_withDir (s : State) (fn : Nat) (e : Sqe) (dir : Nat) (st : Status) (dw0 : Nat) (data : List Byte) :
    s.adminDone fn (e.withDir dir) st dw0 data = s.adminDone fn e st dw0 data := rfl

theorem State.adminDenies_owner {s : State} {fn : Nat} {n : AdminNeeds} (hn : n.owner = true) (h : isPf fn = false) :
    s.adminDenies fn n = some .invalidOpcode :=
  if_pos (by rw [hn, h]; rfl)

theorem State.adminDenies_master {s : State} {fn : Nat} {n : AdminNeeds} (hn : n.master = true) (h : s.isMember = true) :
    s.adminDenies fn n = some .invalidOpcode := by
  unfold State.adminDenies
  rw [hn, h]
  split <;> rfl

theorem State.adminDenies_tenancy {s : State} {fn : Nat} (h : s.tenExists (s.fnTen fn) = false) :
    s.adminDenies fn anyCtl = some .commandSequenceError := by
  unfold State.adminDenies
  rw [h]
  rfl

theorem State.adminGo_of_anyone {s : State} {fn : FnId} (hrec : s.recovery = false) (hruns : s.adminRuns fn.val = true) :
    s.adminGo fn ⟨false, false, false⟩ := ⟨hrec, hruns, rfl⟩

theorem State.adminRuns_of_not_ready {s : State} {fn : Nat} (h : (s.func fn).ctl ≠ .ready) : s.adminRuns fn = false := by
  unfold State.adminRuns
  rw [decide_eq_false h]
  rfl

end Machine

/-- Settles O45. -/
theorem adminDenials : Obligations.admin_denials := by
  unfold Obligations.admin_denials
  refine ⟨fun fn e s hrec hruns hvf => ?_, fun fn e s hrec hruns hmember => ?_, fun fn e s hrec hruns hten => ?_,
    fun fn e s hrec hready => ?_⟩
  · have hdenied (n : AdminNeeds) (hn : n.owner = true) := State.adminDenies_owner (s := s) hn hvf
    exact ⟨exec_resourceClaim.trans (State.admin_of_denied e _ hrec hruns (hdenied ownerCtl rfl)),
      exec_formatNvm.trans (State.admin_of_denied e _ hrec hruns (hdenied masterCtl rfl)),
      exec_namespaceManagement.trans (State.admin_of_denied e _ hrec hruns (hdenied masterCtl rfl)),
      by
        rw [exec_diagWindowOpen, execDiagWindowOpen, State.admin_of_denied (e.withAct 0) _ hrec hruns (hdenied ownerCtl rfl), State.adminDone_withAct]⟩
  · have hdenied : s.adminDenies fn.val masterCtl = some .invalidOpcode := State.adminDenies_master rfl hmember
    exact ⟨exec_sanitize.trans (State.admin_of_denied e _ hrec hruns hdenied),
      exec_namespaceAttachment.trans (State.admin_of_denied e _ hrec hruns hdenied),
      by
        rw [exec_setQuotas, execSetQuotas, State.admin_of_denied (e.withAct 2) _ hrec hruns hdenied, State.adminDone_withAct]⟩
  · have hdenied := State.adminDenies_tenancy hten
    have hgo := State.adminGo_of_anyone hrec hruns
    exact ⟨exec_createIoSq.trans (State.admin_of_denied e _ hrec hruns hdenied),
      exec_setFeatures.trans (State.admin_of_denied e _ hrec hruns hdenied),
      by
        rw [exec_governorRead, execGovernorRead, State.admin_of_denied (e.withDir 0) _ hrec hruns hdenied, State.adminDone_withDir],
      exec_identify.trans (State.adminTunnel_of_go e _ _ hgo),
      exec_getLogPage.trans (State.adminTunnel_of_go e _ _ hgo), exec_getFeatures.trans (State.admin_of_go e _ hgo)⟩
  · have hruns := State.adminRuns_of_not_ready hready
    exact ⟨exec_createIoSq.trans (State.admin_of_not_runs e _ hrec hruns), exec_identify.trans (State.adminTunnel_of_not_runs e _ _ hrec hruns),
      exec_sanitize.trans (State.admin_of_not_runs e _ hrec hruns), exec_abort.trans (State.admin_of_not_runs e _ hrec hruns),
      exec_resourceClaim.trans (State.admin_of_not_runs e _ hrec hruns)⟩

namespace Machine

/-! ### Completions -/

/-- Two tables of functions that differ in their completion queues alone. -/
def sameButCqs (t u : Tab Func) : Prop :=
  ∀ g, { Tab.getD t g Func.initial with cqs := [] } = { Tab.getD u g Func.initial with cqs := [] }

theorem sameButCqs.refl (t : Tab Func) : sameButCqs t t := fun _ => rfl

theorem sameButCqs.trans {t u v : Tab Func} (h : sameButCqs t u) (h' : sameButCqs u v) : sameButCqs t v := fun g => (h g).trans (h' g)

theorem sameButCqs_set (t : Tab Func) (fn : Nat) (c : Tab Cq) :
    sameButCqs (Tab.set t fn { Tab.getD t fn Func.initial with cqs := c }) t := by
  intro g
  by_cases hg : g = fn
  · subst hg
    rw [Tab.getD_set_self]
  · rw [Tab.getD_set_ne _ _ _ hg]

/-- A state that differs from another in the completions written since, and in what their queues and interrupts show. -/
structure State.Completes (s : State) (cs : List Cpl) (t : State) : Prop where
  hif : ∃ fns ints, t = { s with hif := { s.hif with fns := fns, ints := ints, cpls := s.hif.cpls ++ cs } } ∧ sameButCqs fns s.hif.fns

theorem State.Completes.trans {s t u : State} {cs ds : List Cpl} (h : s.Completes cs t) (h' : t.Completes ds u) :
    s.Completes (cs ++ ds) u := by
  obtain ⟨fns, ints, rfl, hfns⟩ := h.hif
  obtain ⟨fns', ints', rfl, hfns'⟩ := h'.hif
  refine ⟨fns', ints', ?_, hfns'.trans hfns⟩
  rw [← List.append_assoc]

theorem State.raiseInt_completes (s : State) (fn cq : Nat) : s.Completes [] (s.raiseInt fn cq) := by
  unfold State.raiseInt
  split
  · exact ⟨_, _, by rw [List.append_nil]; rfl, .refl _⟩
  · dsimp only
    split
    · exact ⟨_, _, by rw [List.append_nil]; rfl, sameButCqs_set s.hif.fns fn _⟩
    · exact ⟨_, _, by rw [List.append_nil]; rfl, sameButCqs_set s.hif.fns fn _⟩

/-- A completion of a function of this node is written to its queue, and nothing else of the part changes (R271). -/
theorem State.postCpl_completes {s : State} {c : Cpl} (hfn : c.fn ≠ fwdFn) (hrec : s.recovery = false) :
    s.Completes [c] (s.postCpl c) := by
  unfold State.postCpl
  rw [if_neg hfn, if_neg (by rw [hrec]; decide)]
  exact .trans (cs := [c]) ⟨_, _, rfl, sameButCqs_set s.hif.fns c.fn _⟩ (State.raiseInt_completes _ _ _)

section
variable {s t : State} {cs : List Cpl} (h : s.Completes cs t)
include h

theorem State.Completes.cpls : t.hif.cpls = s.hif.cpls ++ cs := by
  obtain ⟨fns, ints, rfl, -⟩ := h.hif
  rfl

theorem State.Completes.func (g : Nat) : { t.func g with cqs := [] } = { s.func g with cqs := [] } := by
  obtain ⟨fns, ints, rfl, hfns⟩ := h.hif
  exact hfns g

theorem State.Completes.keeps : t.csr = s.csr ∧ t.mem = s.mem ∧ t.zne = s.zne ∧ t.evr = s.evr ∧ t.hif.peeks = s.hif.peeks ∧
    t.hif.tens = s.hif.tens ∧ t.hif.partition = s.hif.partition := by
  obtain ⟨fns, ints, rfl, -⟩ := h.hif
  exact ⟨rfl, rfl, rfl, rfl, rfl, rfl, rfl⟩

end

theorem fnId_ne_fwdFn (fn : FnId) : fn.val ≠ fwdFn := Nat.ne_of_lt fn.isLt

/-- The completion of an admin command. -/
theorem State.adminDone_completes {s : State} {fn : FnId} (e : Sqe) (st : Status) (dw0 : Nat) (data : List Byte)
    (hrec : s.recovery = false) : s.Completes [adminCpl fn e st dw0 data] (s.adminDone fn.val e st dw0 data) := by
  unfold State.adminDone
  rw [if_neg (fnId_ne_fwdFn fn)]
  exact State.postCpl_completes (c := adminCpl fn e st dw0 data) (fnId_ne_fwdFn fn) hrec

end Machine

end Sys2Proof
end

section
/-! PROOFS. Admin commands: queues, Abort, asynchronous events, features, log pages and directives (R275 to R278, R282). -/

namespace Sys2Proof

open Machine

namespace Machine

/-! ### What a completion leaves -/

section
variable {s t : State} {cs : List Cpl} (h : s.Completes cs t)
include h

theorem State.Completes.func_keeps (g : Nat) : (t.func g).sqs = (s.func g).sqs ∧ (t.func g).feats = (s.func g).feats ∧
    (t.func g).aers = (s.func g).aers ∧ (t.func g).events = (s.func g).events := by
  have hsqs := congrArg Func.sqs (h.func g)
  have hfeats := congrArg Func.feats (h.func g)
  have haers := congrArg Func.aers (h.func g)
  have hevents := congrArg Func.events (h.func g)
  exact ⟨hsqs, hfeats, haers, hevents⟩

theorem State.Completes.recovery : t.recovery = s.recovery := by
  obtain ⟨hcsr, -⟩ := h.keeps
  rw [State.recovery, State.fld_of_csr hcsr, State.recovery]

end

theorem State.func_modFunc_self (s : State) (fn : Nat) (g : Func → Func) : (s.modFunc fn g).func fn = g (s.func fn) :=
  Tab.getD_set_self ..

/-! ### Queues (R261, R262) -/

/-- The submission queue that a creation makes (R192, R262). -/
def State.newSq (s : State) (fn : Nat) (e : Sqe) : Sq :=
  ⟨bits e.cdw11.toNat 16 16, e.qsize, (s.func fn).classOf (bits e.cdw11.toNat 1 2), (s.func fn).orderReq.contains e.qid, 0, 0, 0⟩

theorem State.createSq_of_bad {s : State} {fn : Nat} {e : Sqe}
    (h : e.qid = 0 ∨ (s.queueLimit fn).1 < e.qid ∨ (Tab.find (s.func fn).sqs e.qid).isSome = true) :
    s.createSq fn e = s.adminDone fn e .invalidQueueId := if_pos h

theorem State.createCq_of_bad {s : State} {fn : Nat} {e : Sqe}
    (h : e.qid = 0 ∨ (s.queueLimit fn).2 < e.qid ∨ (Tab.find (s.func fn).cqs e.qid).isSome = true) :
    s.createCq fn e = s.adminDone fn e .invalidQueueId := if_pos h

section
variable {s : State} {fn : Nat} {e : Sqe} (hid : e.qid ≠ 0) (hlo : 2 ≤ e.qsize) (hhi : e.qsize ≤ 4096) (hpc : bit e.cdw11.toNat 0 = true)
include hid hlo hhi hpc

theorem State.createSq_of_ok (hlimit : e.qid ≤ (s.queueLimit fn).1) (hnew : Tab.find (s.func fn).sqs e.qid = none)
    (hcq : bits e.cdw11.toNat 16 16 ≠ 0) (hexists : (Tab.find (s.func fn).cqs (bits e.cdw11.toNat 16 16)).isSome = true) :
    s.createSq fn e = (s.modFunc fn fun f => { f with sqs := Tab.set f.sqs e.qid (s.newSq fn e) }).adminDone fn e .success := by
  have hgood : ¬(e.qid = 0 ∨ (s.queueLimit fn).1 < e.qid ∨ (Tab.find (s.func fn).sqs e.qid).isSome = true) := by
    rw [hnew]
    rintro (h | h | h)
    · exact hid h
    · omega
    · cases h
  have hused : ¬(bits e.cdw11.toNat 16 16 = 0 ∨ (Tab.find (s.func fn).cqs (bits e.cdw11.toNat 16 16)).isNone = true) := by
    rw [Option.isNone_eq_false_iff.mpr hexists]
    exact fun h => h.elim hcq (by decide)
  unfold State.createSq
  dsimp only
  rw [if_neg hgood, if_neg (by omega), if_neg (by rw [hpc]; decide), if_neg hused]
  rfl

theorem State.createCq_of_ok (hlimit : e.qid ≤ (s.queueLimit fn).2) (hnew : Tab.find (s.func fn).cqs e.qid = none)
    (hvector : bit e.cdw11.toNat 1 = false ∨ bits e.cdw11.toNat 16 16 < 65) :
    s.createCq fn e = (s.modFunc fn fun f => { f with
      cqs := Tab.set f.cqs e.qid ⟨e.qsize, bits e.cdw11.toNat 16 16, 0, 0, 0⟩ }).adminDone fn e .success := by
  have hgood : ¬(e.qid = 0 ∨ (s.queueLimit fn).2 < e.qid ∨ (Tab.find (s.func fn).cqs e.qid).isSome = true) := by
    rw [hnew]
    rintro (h | h | h)
    · exact hid h
    · omega
    · cases h
  have hvec : ¬(bit e.cdw11.toNat 1 = true ∧ 65 ≤ bits e.cdw11.toNat 16 16) := by
    rintro ⟨hint, hv⟩
    rcases hvector with h | h
    · rw [h] at hint
      cases hint
    · omega
  unfold State.createCq
  dsimp only
  rw [if_neg hgood, if_neg (by omega), if_neg (by rw [hpc]; decide), if_neg hvec]

end

/-- A submission queue goes, with its entries not admitted and its order requirement (R192). -/
def State.dropSq (s : State) (fn : Nat) (e : Sqe) : State :=
  (s.modFunc fn fun f => { f with sqs := Tab.erase f.sqs e.qid, orderReq := f.orderReq.filter (· != e.qid) }).hf fun h => { h with
    peeks := h.peeks.filter (· != (fn, e.qid)), held := Tab.erase h.held (fn * 65 + e.qid),
    starved := Tab.keep h.starved fun _ x => x != fn * 65 + e.qid }

theorem State.dropSq_sqs (s : State) (fn : Nat) (e : Sqe) : ((s.dropSq fn e).func fn).sqs = Tab.erase (s.func fn).sqs e.qid :=
  congrArg Func.sqs (s.func_modFunc_self fn fun f =>
    { f with sqs := Tab.erase f.sqs e.qid, orderReq := f.orderReq.filter (· != e.qid) })

theorem State.dropSq_peeks (s : State) (fn : Nat) (e : Sqe) : (fn, e.qid) ∉ (s.dropSq fn e).hif.peeks := by
  intro h
  have hne := (List.mem_filter.mp h).2
  exact bne_iff_ne.mp hne rfl

/-- A submission queue names a completion queue. -/
theorem any_sqs_eq_true_iff {sqs : Tab Sq} {cq : Nat} :
    (sqs.any fun q => q.1 != 0 && q.2.cq == cq) = true ↔ ∃ x, x ∈ sqs ∧ x.1 ≠ 0 ∧ x.2.cq = cq := by
  simp only [List.any_eq_true, Bool.and_eq_true, bne_iff_ne, beq_iff_eq]

end Machine

/-- Settles O44. -/
theorem adminQueues : Obligations.admin_queues := by
  unfold Obligations.admin_queues
  refine ⟨fun fn e s hgo hid hlimit hnew hlo hhi hpc hcq hexists => ?createSq, fun fn e s hgo hid hlimit hnew hlo hhi hpc hvec => ?createCq,
    fun fn e s hgo => ⟨fun hbad => ?badSq, fun hbad => ?badCq⟩, fun fn e q s hgo hid hq => ⟨fun hlive => ?deleteSq, fun hlive => ?waitSq⟩,
    fun fn e q s hgo hid hq => ⟨fun hfree => ?deleteCq, fun hused => ?usedCq⟩, fun fn e s hgo hq hmem => ?abortAer,
    fun fn e s hgo hother => ?abort, fun fn e s hgo => ⟨fun hfull => ?aerFull, fun hroom hnone => ?aerWaits, fun d ds hroom hev => ?aerReports⟩⟩
  case createSq =>
    have hdone := State.adminDone_completes (s := s.modFunc fn.val fun f =>
      { f with sqs := Tab.set f.sqs e.qid (s.newSq fn.val e) }) (fn := fn) e .success 0 [] hgo.1
    obtain ⟨hsqs, -⟩ := hdone.func_keeps fn.val
    obtain ⟨hcsr, hmem, -⟩ := hdone.keeps
    rw [State.func_modFunc_self] at hsqs
    rw [exec_createIoSq, execCreateIoSq, State.admin_of_go _ _ hgo, State.createSq_of_ok hid hlo hhi hpc hlimit hnew hcq hexists]
    refine ⟨_, rfl, hdone.cpls, ?_, fun k hk => ?_, hcsr, hmem⟩
    · rw [hsqs, Tab.find_set_self]
      rfl
    · rw [hsqs, Tab.find_set_ne _ _ hk]
  case createCq =>
    rw [exec_createIoCq, execCreateIoCq, State.admin_of_go _ _ hgo, State.createCq_of_ok hid hlo hhi hpc hlimit hnew hvec]
  case badSq => rw [exec_createIoSq, execCreateIoSq, State.admin_of_go _ _ hgo, State.createSq_of_bad hbad]
  case badCq => rw [exec_createIoCq, execCreateIoCq, State.admin_of_go _ _ hgo, State.createCq_of_bad hbad]
  case deleteSq =>
    rw [exec_deleteIoSq, execDeleteIoSq, State.admin_of_go _ _ hgo, if_neg hid, hq]
    dsimp only
    rw [if_neg (not_not_intro hlive)]
    have hdone := State.adminDone_completes (s := s.dropSq fn.val e) (fn := fn) e .success 0 [] hgo.1
    obtain ⟨hsqs, -⟩ := hdone.func_keeps fn.val
    obtain ⟨hcsr, -, hzne, -, hpeeks, -⟩ := hdone.keeps
    exact ⟨_, rfl, hdone.cpls, hsqs.trans (s.dropSq_sqs fn.val e), fun h => s.dropSq_peeks fn.val e (hpeeks ▸ h), hcsr, hzne⟩
  case waitSq =>
    rw [exec_deleteIoSq, execDeleteIoSq, State.admin_of_go _ _ hgo, if_neg hid, hq]
    exact congrArg Host.Outcome.next (if_pos hlive)
  case deleteCq =>
    have hexists : ¬(e.qid = 0 ∨ (Tab.find (s.func fn.val).cqs e.qid).isNone = true) := by
      rw [hq]
      exact fun h => h.elim hid Bool.false_ne_true
    rw [exec_deleteIoCq, execDeleteIoCq, State.admin_of_go _ _ hgo]
    dsimp only
    rw [if_neg hexists, if_neg fun h => ?_]
    obtain ⟨x, hx, hx0, hcq⟩ := any_sqs_eq_true_iff.mp h
    exact hfree x hx hx0 hcq
  case usedCq =>
    have hexists : ¬(e.qid = 0 ∨ (Tab.find (s.func fn.val).cqs e.qid).isNone = true) := by
      rw [hq]
      exact fun h => h.elim hid Bool.false_ne_true
    rw [exec_deleteIoCq, execDeleteIoCq, State.admin_of_go _ _ hgo]
    dsimp only
    rw [if_neg hexists, if_pos (any_sqs_eq_true_iff.mpr hused)]
  case abortAer =>
    have hmem' : bits e.cdw10.toNat 0 16 = 0 ∧ (s.func fn.val).aers.contains (bits e.cdw10.toNat 16 16) = true :=
      ⟨hq, List.contains_iff_mem.mpr hmem⟩
    have hposted := State.postCpl_completes (s := s.modFunc fn.val fun f => { f with aers := f.aers.erase (bits e.cdw10.toNat 16 16) })
      (c := ⟨fn.val, 0, bits e.cdw10.toNat 16 16, .abortRequested, 0, 0, [], []⟩) (fnId_ne_fwdFn fn) hgo.1
    have hdone := hposted.trans (State.adminDone_completes (fn := fn) e .success 0 [] (hposted.recovery.trans hgo.1))
    obtain ⟨-, -, haers, -⟩ := hdone.func_keeps fn.val
    rw [State.func_modFunc_self] at haers
    rw [exec_abort, execAbort, State.admin_of_go _ _ hgo]
    exact ⟨_, congrArg Host.Outcome.next (if_pos hmem'), hdone.cpls, haers⟩
  case abort =>
    have hother' : ¬(bits e.cdw10.toNat 0 16 = 0 ∧ (s.func fn.val).aers.contains (bits e.cdw10.toNat 16 16) = true) :=
      fun h => hother ⟨h.1, List.contains_iff_mem.mp h.2⟩
    intro cmd
    rw [exec_abort, execAbort, State.admin_of_go _ _ hgo]
    dsimp only
    rw [if_neg hother']
    refine ⟨fun hcmd => ?_, fun i x hcmd hstarted => ?_, fun i x hcmd hreads hunstarted => ?_⟩
    · rw [show (s.hif.slots.find? _) = none from hcmd]
    · rw [show (s.hif.slots.find? _) = some (i, x) from hcmd]
      dsimp only
      rw [if_neg]
      rcases hstarted with h | h <;> simp [h]
    · rw [show (s.hif.slots.find? _) = some (i, x) from hcmd]
      dsimp only
      rw [hreads, hunstarted]
      rfl
  case aerFull =>
    rw [exec_asyncEventRequest, execAsyncEventRequest, State.admin_of_go _ _ hgo]
    exact congrArg Host.Outcome.next (if_pos hfull)
  case aerWaits =>
    rw [exec_asyncEventRequest, execAsyncEventRequest, State.admin_of_go _ _ hgo]
    dsimp only
    rw [if_neg (Nat.not_le_of_lt hroom), hnone]
  case aerReports =>
    have hdone := State.adminDone_completes (s := s.modFunc fn.val fun f => { f with events := ds }) (fn := fn) e .success d [] hgo.1
    obtain ⟨-, -, -, hevents⟩ := hdone.func_keeps fn.val
    rw [State.func_modFunc_self] at hevents
    rw [exec_asyncEventRequest, execAsyncEventRequest, State.admin_of_go _ _ hgo]
    dsimp only
    rw [if_neg (Nat.not_le_of_lt hroom), hev]
    exact ⟨_, rfl, hdone.cpls, hevents⟩

namespace Machine

/-! ### Features, log pages, directives (R190, R277, R278) -/

section
variable {s : State} {fn : Nat} {e : Sqe}

theorem State.setFeatures_saved (h : bit e.cdw10.toNat 31 = true) : s.setFeatures fn e = s.adminDone fn e .featureNotSaveable :=
  if_pos h

theorem State.setFeatures_kept (hsave : bit e.cdw10.toNat 31 = false) (hctl : bits e.cdw10.toNat 0 8 ∈ ctlFeatures)
    (hvector : bits e.cdw10.toNat 0 8 ≠ 0x09) : s.setFeatures fn e = (s.modFunc fn fun f => { f with
      feats := Tab.set f.feats (featKey (bits e.cdw10.toNat 0 8) e.cdw11.toNat)
        (e.featValue (bits e.cdw10.toNat 0 8)) }).adminDone fn e .success := by
  unfold State.setFeatures
  dsimp only
  rw [if_neg (by rw [hsave]; decide), if_pos hctl, if_neg fun h => hvector h.1]

theorem State.getFeatures_saved (h : bits e.cdw10.toNat 8 3 = 2) : s.getFeatures fn e = s.adminDone fn e .featureNotSaveable :=
  if_pos h

theorem State.getFeatures_kept (hsel : bits e.cdw10.toNat 8 3 < 2) (hctl : bits e.cdw10.toNat 0 8 ∈ ctlFeatures)
    (hvector : bits e.cdw10.toNat 0 8 ≠ 0x09) (hhost : bits e.cdw10.toNat 0 8 ≠ 0x16) (hqueues : bits e.cdw10.toNat 0 8 ≠ 0x07) :
    s.getFeatures fn e = s.giveFeature fn e
      (Tab.getD (s.func fn).feats (featKey (bits e.cdw10.toNat 0 8) e.cdw11.toNat) (featDefault (bits e.cdw10.toNat 0 8) e.cdw11.toNat))
      (featDefault (bits e.cdw10.toNat 0 8) e.cdw11.toNat) := by
  unfold State.getFeatures
  dsimp only
  rw [if_neg (by omega), if_neg (fun h => h.elim (fun h => h (.inl hctl)) (by omega)), if_neg (by omega), if_neg hqueues,
    if_neg (fun h => hvector h.1), if_pos hctl, if_neg hhost]

theorem State.getLogPage_offset (h : e.logOff % 4 ≠ 0) : s.getLogPage fn e = s.adminDone fn e .invalidField := if_pos h

end

end Machine

/-- Settles O46. -/
theorem featuresAndLogs : Obligations.features_and_logs := by
  unfold Obligations.features_and_logs
  refine ⟨fun fn e s hgo hsave => ?saved, fun fn e s hgo hsave hctl hvec => ?set, fun fn e s hgo hsel hsel' hctl hvec hhost hq => ?get,
    fun fn e s hgo hsel => ?getSaved, fun fn e s hgo => ⟨fun h => ?offset, fun h hlid => ?l00, fun h hlid => ?l03, fun h hlid => ?l81,
      fun h hlid hvf => ?lC6, ?identify⟩, fun fn e x s hgo hns => ⟨fun hop htype => ?receive, fun hop htype hdir hen => ?send,
        fun htype => ?other⟩, fun fn e s hgo hns => ?unattached⟩
  case saved => rw [exec_setFeatures, execSetFeatures, State.admin_of_go _ _ hgo, State.setFeatures_saved hsave]
  case set =>
    have hdone := State.adminDone_completes (s := s.modFunc fn.val fun f => { f with
      feats := Tab.set f.feats (featKey (bits e.cdw10.toNat 0 8) e.cdw11.toNat) (e.featValue (bits e.cdw10.toNat 0 8)) })
      (fn := fn) e .success 0 [] hgo.1
    obtain ⟨-, hfeats, -⟩ := hdone.func_keeps fn.val
    obtain ⟨hcsr, hmem, hzne, -⟩ := hdone.keeps
    rw [State.func_modFunc_self] at hfeats
    rw [exec_setFeatures, execSetFeatures, State.admin_of_go _ _ hgo, State.setFeatures_kept hsave hctl hvec]
    refine ⟨_, rfl, hdone.cpls, ?_, hcsr, hmem, hzne⟩
    rw [hfeats, Tab.find_set_self]
  case get =>
    rw [exec_getFeatures, execGetFeatures, State.admin_of_go _ _ hgo, State.getFeatures_kept (by omega) hctl hvec hhost hq]
  case getSaved => rw [exec_getFeatures, execGetFeatures, State.admin_of_go _ _ hgo, State.getFeatures_saved hsel]
  case offset => rw [exec_getLogPage, execGetLogPage, State.adminTunnel_of_go _ _ _ hgo, State.getLogPage_offset h]
  case l00 | l03 | l81 =>
    rw [exec_getLogPage, execGetLogPage, State.adminTunnel_of_go _ _ _ hgo, State.getLogPage, if_neg (not_not_intro h), hlid]
    rfl
  case lC6 =>
    rw [exec_getLogPage, execGetLogPage, State.adminTunnel_of_go _ _ _ hgo, State.getLogPage, if_neg (not_not_intro h), hlid]
    exact congrArg Host.Outcome.next (if_neg (ne_true_of_eq_false hvf))
  case identify => rw [exec_identify, execIdentify, State.adminTunnel_of_go _ _ _ hgo]
  case receive =>
    rw [exec_directiveReceive, execDirectiveReceive, State.admin_of_go _ _ hgo]
    dsimp only
    rw [hns]
    exact congrArg Host.Outcome.next (if_pos ⟨hop, htype⟩)
  case send =>
    rw [exec_directiveSend, execDirectiveSend, State.admin_of_go _ _ hgo]
    dsimp only
    rw [hns]
    exact congrArg Host.Outcome.next (if_pos ⟨hop, htype, hdir, hen⟩)
  case other =>
    rw [exec_directiveSend, execDirectiveSend, State.admin_of_go _ _ hgo, exec_directiveReceive, execDirectiveReceive,
      State.admin_of_go _ _ hgo]
    dsimp only
    rw [hns]
    exact ⟨congrArg Host.Outcome.next (if_neg fun h => htype h.1), congrArg Host.Outcome.next (if_neg fun h => htype h.1)⟩
  case unattached =>
    rw [exec_directiveSend, execDirectiveSend, State.admin_of_go _ _ hgo, exec_directiveReceive, execDirectiveReceive,
      State.admin_of_go _ _ hgo]
    dsimp only
    rw [hns]
    exact ⟨rfl, rfl⟩

end Sys2Proof
end

section
/-! PROOFS. Admin commands of the owner: quotas and tenancies (R289, R290), the geometry (R47, R52). -/

namespace Sys2Proof

open Machine

namespace Machine

/-! ### Quotas (R290) -/

theorem State.toMembers_of_not_master {s : State} (e : Sqe) (h : s.isMaster = false) : s.toMembers e = s :=
  if_neg (ne_true_of_eq_false h)

theorem evdrop_ne_quotas (k : Nat) (hk : k < 128) : R.ZNE_TZQ k ≠ R.MGT_EVDROP ∧ R.HIF_TCRED k ≠ R.MGT_EVDROP ∧
    R.HIF_TWBQ k ≠ R.MGT_EVDROP := by
  unfold R.ZNE_TZQ R.HIF_TCRED R.HIF_TWBQ R.MGT_EVDROP
  omega

/-- The registers that hold the quotas of the tenancies, and their rank sets and key slots. -/
def State.sameQuotas (s t : State) : Prop :=
  (∀ k, k < 128 → t.fld (F.ZNE_TZQ_AQ k) = s.fld (F.ZNE_TZQ_AQ k) ∧ t.fld (F.ZNE_TZQ_OQ k) = s.fld (F.ZNE_TZQ_OQ k) ∧
    t.fld (F.HIF_TCRED_TSQ k) = s.fld (F.HIF_TCRED_TSQ k) ∧ t.fld (F.HIF_TWBQ_WBQ k) = s.fld (F.HIF_TWBQ_WBQ k)) ∧
  t.hif.tens = s.hif.tens

theorem State.sameQuotas_post (s : State) (src id : Nat) (items : List (Nat × Nat)) (ten : Nat) :
    s.sameQuotas (s.post src id items ten) := by
  obtain ⟨-, -, hhif, -⟩ := s.post_keeps src id items ten
  refine ⟨fun k hk => ?_, congrArg Hif.tens hhif⟩
  obtain ⟨hzq, hcred, hwbq⟩ := evdrop_ne_quotas k hk
  exact ⟨State.fld_post _ _ _ _ _ hzq, State.fld_post _ _ _ _ _ hzq, State.fld_post _ _ _ _ _ hcred, State.fld_post _ _ _ _ _ hwbq⟩

theorem State.Completes.sameQuotas {s t u : State} {cs : List Cpl} (h : t.Completes cs u) (hs : s.sameQuotas t) : s.sameQuotas u := by
  obtain ⟨hcsr, -, -, -, -, htens, -⟩ := h.keeps
  refine ⟨fun k hk => ?_, htens.trans hs.2⟩
  simp only [State.fld_of_csr hcsr]
  exact hs.1 k hk

theorem State.recovery_post (s : State) (src id : Nat) (items : List (Nat × Nat)) (ten : Nat) :
    (s.post src id items ten).recovery = s.recovery := by
  rw [State.recovery, State.fld_post _ _ _ _ _ (by decide), State.recovery]

theorem State.cpls_post (s : State) (src id : Nat) (items : List (Nat × Nat)) (ten : Nat) :
    (s.post src id items ten).hif.cpls = s.hif.cpls := by
  obtain ⟨-, -, hhif, -⟩ := s.post_keeps src id items ten
  rw [hhif]

/-- A descriptor that breaks a rule is refused, with an event where it is a quota or a credit, and writes nothing (R62, R274). -/
theorem State.applyDesc_refused {s : State} {fn : FnId} {e : Sqe} {n : Nat} (hrec : s.recovery = false)
    (hbad : s.quotaBad n (tenDesc e).aq (tenDesc e).oq = true ∨ s.tsqBad n (tenDesc e).tsq = true ∨ s.ksqBad n (tenDesc e).ksq = true ∨
      s.rsetsBad n (tenDesc e).rsets = true ∨ 524288 < (tenDesc e).wbq) :
    (s.applyDesc fn.val e n).hif.cpls = s.hif.cpls ++ [adminCpl fn e .invalidField] ∧ s.sameQuotas (s.applyDesc fn.val e n) := by
  have hposted (src id : Nat) (items : List (Nat × Nat)) (ten : Nat) :
      ((s.post src id items ten).adminDone fn.val e .invalidField).hif.cpls = s.hif.cpls ++ [adminCpl fn e .invalidField] ∧
        s.sameQuotas ((s.post src id items ten).adminDone fn.val e .invalidField) := by
    have hdone := State.adminDone_completes (fn := fn) e .invalidField 0 [] ((s.recovery_post src id items ten).trans hrec)
    exact ⟨hdone.cpls.trans (congrArg (· ++ _) (s.cpls_post src id items ten)), hdone.sameQuotas (s.sameQuotas_post src id items ten)⟩
  have hplain := State.adminDone_completes (fn := fn) e .invalidField 0 [] hrec
  unfold State.applyDesc
  dsimp only
  by_cases hquota : s.quotaBad n (tenDesc e).aq (tenDesc e).oq = true
  · rw [if_pos hquota]
    exact hposted _ _ _ _
  by_cases htsq : s.tsqBad n (tenDesc e).tsq = true
  · rw [if_neg hquota, if_pos htsq]
    exact hposted _ _ _ _
  · have hrest : (s.ksqBad n (tenDesc e).ksq || s.rsetsBad n (tenDesc e).rsets || decide (524288 < (tenDesc e).wbq)) = true := by
      simpa [hquota, htsq, or_assoc] using hbad
    rw [if_neg hquota, if_neg htsq, if_pos hrest]
    exact ⟨hplain.cpls, hplain.sameQuotas ⟨fun _ _ => ⟨rfl, rfl, rfl, rfl⟩, rfl⟩⟩

theorem State.fld_hf (s : State) (g : Hif → Hif) (f : Fld) : (s.hf g).fld f = s.fld f := rfl

/-- The registers that a descriptor's quotas are put in. -/
theorem State.fld_putQuotas (s : State) (n : Nat) (d : TenDesc) (f : Fld) : (s.putQuotas n d).fld f =
    (((((s.setFld (F.ZNE_TZQ_AQ n) d.aq).setFld (F.ZNE_TZQ_OQ n) d.oq).setFld (F.HIF_TCRED_TSQ n) d.tsq).setFld
      (F.HIF_TCRED_URGEN n) d.urgen).setFld (F.HIF_TWBQ_WBQ n) d.wbq).fld f := by
  rw [State.putQuotas, State.fld_hf]

theorem quota_addresses {n k : Nat} (hn : n < 128) (hk : k < 128) : R.ZNE_TZQ k ≠ R.HIF_TWBQ n ∧ R.ZNE_TZQ k ≠ R.HIF_TCRED n ∧
    R.HIF_TCRED k ≠ R.HIF_TWBQ n ∧ (k ≠ n → R.ZNE_TZQ k ≠ R.ZNE_TZQ n) := by
  unfold R.ZNE_TZQ R.HIF_TCRED R.HIF_TWBQ
  omega

/-- The quotas of a descriptor once they are in force. -/
theorem State.putQuotas_shows (s : State) {n : Nat} {d : TenDesc} (hn : n < 128) (haq : d.aq < 2 ^ 14) (hoq : d.oq < 2 ^ 14)
    (htsq : d.tsq < 2 ^ 16) (hurgen : d.urgen < 2) (hwbq : d.wbq < 2 ^ 20) : let t := s.putQuotas n d
    t.fld (F.ZNE_TZQ_AQ n) = d.aq ∧ t.fld (F.ZNE_TZQ_OQ n) = d.oq ∧ t.fld (F.HIF_TCRED_TSQ n) = d.tsq ∧
      t.fld (F.HIF_TCRED_URGEN n) = d.urgen ∧ t.fld (F.HIF_TWBQ_WBQ n) = d.wbq ∧ Tab.find t.hif.tens n = some ⟨d.rsets, d.ksq⟩ ∧
      (∀ k, k < 128 → k ≠ n → t.fld (F.ZNE_TZQ_AQ k) = s.fld (F.ZNE_TZQ_AQ k)) := by
  obtain ⟨hzw, hzc, hcw, -⟩ := quota_addresses hn hn
  dsimp only
  simp only [State.fld_putQuotas]
  refine ⟨?_, ?_, ?_, ?_, ?_, Tab.find_set_self _ _ _, fun k hk hne => ?_⟩
  · rw [State.fld_setFld_ne _ _ hzw, State.fld_setFld_ne _ _ hzc, State.fld_setFld_ne _ _ hzc,
      State.fld_setFld_disjoint _ _ (show 0 + 14 ≤ 64 by decide) (.inl (show 0 + 14 ≤ 16 by decide)),
      State.fld_setFld_self _ _ _ (show 0 + 14 ≤ 64 by decide)]
    exact Nat.mod_eq_of_lt haq
  · rw [State.fld_setFld_ne _ _ hzw, State.fld_setFld_ne _ _ hzc, State.fld_setFld_ne _ _ hzc,
      State.fld_setFld_self _ _ _ (show 16 + 14 ≤ 64 by decide)]
    exact Nat.mod_eq_of_lt hoq
  · rw [State.fld_setFld_ne _ _ hcw, State.fld_setFld_disjoint _ _ (show 0 + 16 ≤ 64 by decide) (.inl (show 0 + 16 ≤ 16 by decide)),
      State.fld_setFld_self _ _ _ (show 0 + 16 ≤ 64 by decide)]
    exact Nat.mod_eq_of_lt htsq
  · rw [State.fld_setFld_ne _ _ hcw, State.fld_setFld_self _ _ _ (show 16 + 1 ≤ 64 by decide)]
    exact Nat.mod_eq_of_lt hurgen
  · rw [State.fld_setFld_self _ _ _ (show 0 + 20 ≤ 64 by decide)]
    exact Nat.mod_eq_of_lt hwbq
  · obtain ⟨hzw', hzc', -, hzz⟩ := quota_addresses hn hk
    rw [State.fld_setFld_ne _ _ hzw', State.fld_setFld_ne _ _ hzc', State.fld_setFld_ne _ _ hzc', State.fld_setFld_ne _ _ (hzz hne),
      State.fld_setFld_ne _ _ (hzz hne)]

theorem State.recovery_putQuotas (s : State) {n : Nat} (hn : n < 128) (d : TenDesc) : (s.putQuotas n d).recovery = s.recovery := by
  have h : R.SEC_BOOTSTAT ≠ R.ZNE_TZQ n ∧ R.SEC_BOOTSTAT ≠ R.HIF_TCRED n ∧ R.SEC_BOOTSTAT ≠ R.HIF_TWBQ n := by
    unfold R.SEC_BOOTSTAT R.ZNE_TZQ R.HIF_TCRED R.HIF_TWBQ
    omega
  obtain ⟨hz, hc, hw⟩ := h
  rw [State.recovery, State.fld_putQuotas, State.fld_setFld_ne _ _ hw, State.fld_setFld_ne _ _ hc, State.fld_setFld_ne _ _ hc,
    State.fld_setFld_ne _ _ hz, State.fld_setFld_ne _ _ hz, State.recovery]

/-- A good descriptor is applied whole. -/
theorem State.applyDesc_applied {s : State} {fn : FnId} {e : Sqe} {n : Nat} (hquota : s.quotaBad n (tenDesc e).aq (tenDesc e).oq = false)
    (htsq : s.tsqBad n (tenDesc e).tsq = false) (hksq : s.ksqBad n (tenDesc e).ksq = false) (hrsets : s.rsetsBad n (tenDesc e).rsets = false)
    (hwbq : (tenDesc e).wbq ≤ 524288) (hmaster : s.isMaster = false) :
    s.applyDesc fn.val e n = (s.putQuotas n (tenDesc e)).adminDone fn.val e .success := by
  unfold State.applyDesc
  dsimp only
  rw [if_neg (by rw [hquota]; decide), if_neg (by rw [htsq]; decide),
    if_neg (by rw [hksq, hrsets, decide_eq_false (Nat.not_lt_of_le hwbq)]; decide), State.toMembers_of_not_master _ hmaster]

theorem State.quotaBad_bounds {s : State} {t aq oq : Nat} (h : s.quotaBad t aq oq = false) : oq ≤ aq ∧ aq ≤ 8192 := by
  simp only [State.quotaBad, Bool.or_eq_false_iff, decide_eq_false_iff_not] at h
  omega

theorem State.tsqBad_bound {s : State} {t tsq : Nat} (h : s.tsqBad t tsq = false) : tsq ≤ 64512 := by
  simp only [State.tsqBad, decide_eq_false_iff_not] at h
  omega

end Machine

/-- Settles O47. -/
theorem quotasWholeOrNot : Obligations.quotas_whole_or_not := by
  unfold Obligations.quotas_whole_or_not
  intro fn e s hgo hexists d n
  have hn : n < 128 := bits_lt _ _ _
  have hrun : exec (.setQuotas fn e) s = .next (s.applyDesc fn.val (e.withAct 2) n) := by
    rw [exec_setQuotas, execSetQuotas, State.admin_of_go _ _ hgo]
    exact congrArg Host.Outcome.next (if_pos hexists)
  rw [hrun]
  refine ⟨fun hbad => ?_, fun hquota htsq hksq hrsets hwbq hmaster => ?_⟩
  · obtain ⟨hcpls, hsame, htens⟩ := State.applyDesc_refused (fn := fn) hgo.1 hbad
    exact ⟨_, rfl, hcpls, hsame, htens⟩
  · have hdone := State.adminDone_completes (fn := fn) (e.withAct 2) .success 0 [] ((s.recovery_putQuotas hn d).trans hgo.1)
    have haq := State.quotaBad_bounds hquota
    have hts := State.tsqBad_bound htsq
    obtain ⟨h1, h2, h3, h4, h5, h6, h7⟩ := s.putQuotas_shows (d := d) hn (by omega) (by omega) (by omega)
      (Nat.mod_lt _ (by decide)) (by omega)
    obtain ⟨hcsr, -, -, -, -, htens, -⟩ := hdone.keeps
    rw [State.applyDesc_applied hquota htsq hksq hrsets hwbq hmaster]
    have hfld := State.fld_of_csr hcsr
    exact ⟨_, rfl, hdone.cpls, (hfld _).trans h1, (hfld _).trans h2, (hfld _).trans h3, (hfld _).trans h4, (hfld _).trans h5,
      (congrArg (Tab.find · n) htens).trans h6, fun k hk hne => (hfld _).trans (h7 k hk hne)⟩

end Sys2Proof
end

section
/-! PROOFS. Admin commands of the owner: tenancies, the functions they own and the partition (R47, R52, R289). -/

namespace Sys2Proof

open Machine

namespace Machine

/-! ### What the release of blocks leaves of the host side -/

/-- The host interface, the zones, the time and the register that tells the recovery path. -/
def State.hostSide (s : State) : Hif × (Tab Zone × Nat) × Nat := (s.hif, (s.zne.zones, s.now), s.fld F.SEC_BOOTSTAT_PATH)

theorem State.hostSide_setFld (s : State) {f : Fld} (v : Nat) (h : R.SEC_BOOTSTAT ≠ f.addr) : (s.setFld f v).hostSide = s.hostSide :=
  congrArg (s.hif, (s.zne.zones, s.now), ·) (s.fld_setFld_ne v h)

theorem State.hostSide_post (s : State) (src id : Nat) (items : List (Nat × Nat)) (ten : Nat) :
    (s.post src id items ten).hostSide = s.hostSide := by
  obtain ⟨-, hzne, hhif, -⟩ := s.post_keeps src id items ten
  rw [State.hostSide, hhif, hzne, State.now_post, State.fld_post _ _ _ _ _ (by decide), State.hostSide]

theorem State.hostSide_znePost (s : State) (id : Nat) (items : List (Nat × Nat)) (ten : Nat) :
    (s.znePost id items ten).hostSide = s.hostSide := s.hostSide_post _ _ _ _

theorem State.hostSide_spareCheck (s : State) (set : Nat) : (s.spareCheck set).hostSide = s.hostSide := by
  unfold State.spareCheck
  dsimp only
  split
  · exact State.hostSide_znePost _ _ _ _
  · rfl

theorem State.hostSide_endCheck (s : State) (set : Nat) : (s.endCheck set).hostSide = s.hostSide := by
  unfold State.endCheck State.makeReadOnly
  dsimp only
  split
  · split
    · rfl
    · exact State.hostSide_znePost _ _ _ _
  · rfl

theorem State.hostSide_replaceSpare (s : State) (set lost : Nat) (slc : Bool) : (s.replaceSpare set lost slc).hostSide = s.hostSide := by
  unfold State.replaceSpare
  split <;> rfl

theorem State.hostSide_bumped (s : State) {f : Fld} (h : R.SEC_BOOTSTAT ≠ f.addr) (b : Nat) (slc : Bool) (cause : Nat) :
    ((s.bump f).listDefect b slc cause).hostSide = s.hostSide := State.hostSide_setFld s _ h

theorem State.hostSide_growDefect (s : State) (b cause : Nat) : (s.growDefect b cause).hostSide = s.hostSide := by
  unfold State.growDefect
  dsimp only
  split
  · rfl
  · rw [State.hostSide_endCheck, State.hostSide_spareCheck, State.hostSide_replaceSpare, State.hostSide_znePost]
    exact State.hostSide_bumped (s.modBlk b _) (by decide) _ _ _

theorem State.hostSide_limitRetire (s : State) (b : Nat) : (s.limitRetire b).hostSide = s.hostSide := by
  unfold State.limitRetire
  dsimp only
  rw [State.hostSide_endCheck, State.hostSide_spareCheck, State.hostSide_replaceSpare, State.hostSide_znePost]
  exact State.hostSide_setFld (f := F.ZNE_MH_LIMIT_COUNT) (s.modBlk b _) _ (by decide)

theorem State.hostSide_releaseBlk (s : State) (b : Nat) : (s.releaseBlk b).hostSide = s.hostSide := by
  unfold State.releaseBlk
  dsimp only
  split
  · rfl
  split
  · exact State.hostSide_growDefect _ _ _
  split
  · exact State.hostSide_limitRetire _ _
  split
  · rfl
  split <;> rfl

theorem State.hostSide_foldl {α : Type} {f : State → α → State} (h : ∀ s a, (f s a).hostSide = s.hostSide) (s : State) (xs : List α) :
    (xs.foldl f s).hostSide = s.hostSide := by
  induction xs generalizing s with
  | nil => rfl
  | cons x xs ih => rw [List.foldl_cons, ih, h]

theorem State.hostSide_releaseAll (s : State) (bs : List Nat) : (s.releaseAll bs).hostSide = s.hostSide :=
  State.hostSide_foldl (fun s b => s.hostSide_releaseBlk b) s bs

theorem State.hostSide_reapStage (s : State) : s.reapStage.hostSide = s.hostSide := by
  unfold State.reapStage
  dsimp only
  split
  · rw [State.showStage, State.hostSide_setFld _ _ (by decide)]
    refine State.hostSide_foldl (fun s e => ?_) s _
    exact State.hostSide_releaseAll _ _
  · rw [State.hostSide_setFld _ _ (by decide), State.showStage, State.hostSide_setFld _ _ (by decide)]
    refine State.hostSide_foldl (fun s e => ?_) s _
    exact State.hostSide_releaseAll _ _

theorem State.hostSide_showSegs (s : State) : s.showSegs.hostSide = s.hostSide := State.hostSide_setFld _ _ (by decide)

theorem State.recovery_of_hostSide {s t : State} (h : t.hostSide = s.hostSide) : t.recovery = s.recovery := by
  have hfld := congrArg (·.2.2) h
  unfold State.recovery
  exact congrArg (· == 3) hfld

/-! ### The partition (R47, R50) -/

section
variable {s : State} {fn : Nat} {e : Sqe}

theorem State.setRankSets_bad (h : s.geomOk e = false) : s.setRankSets fn e = s.adminDone fn e .invalidField := if_pos h

theorem State.setRankSets_rebuilding (hok : s.geomOk e = true) (h : s.rebuilding (s.geomChanges e).contains = true) :
    s.setRankSets fn e = s.adminDone fn e .rebuildInProgress := by
  unfold State.setRankSets
  dsimp only
  rw [if_neg (by rw [hok]; decide), if_pos h]

theorem State.holdsNs_iff : (s.hif.nss.any fun n => n.2.node == s.ownNode && (s.geomChanges e).contains n.2.set) = true ↔
    ∃ x, x ∈ s.hif.nss ∧ x.2.node = s.ownNode ∧ x.2.set ∈ s.geomChanges e := by
  simp only [List.any_eq_true, Bool.and_eq_true, beq_iff_eq, List.contains_iff_mem]

theorem State.setRankSets_inUse (hok : s.geomOk e = true) (hidle : s.rebuilding (s.geomChanges e).contains = false)
    (h : ∃ x, x ∈ s.hif.nss ∧ x.2.node = s.ownNode ∧ x.2.set ∈ s.geomChanges e) :
    s.setRankSets fn e = s.adminDone fn e .geometryOffline := by
  unfold State.setRankSets
  dsimp only
  rw [if_neg (by rw [hok]; decide), if_neg (by rw [hidle]; decide), if_pos (State.holdsNs_iff.mpr h)]

/-- What a request for a partition records, before what the media show of it. -/
def State.partitioned (s : State) (e : Sqe) : State :=
  (s.hf fun h => { h with partition := (s.geomChanges e).foldl (fun t n => Tab.set t n (e.geomEntry n)) h.partition }).zn fun z =>
    { z with sets := z.sets.map fun x =>
        if (e.geomEntry x.1).1 = x.2.ranks then (x.1, { x.2 with conv := (e.geomEntry x.1).2 }) else x }

theorem State.setRankSets_recorded (hok : s.geomOk e = true) (hidle : s.rebuilding (s.geomChanges e).contains = false)
    (hmaster : s.isMaster = false) (h : ∀ x, x ∈ s.hif.nss → x.2.node = s.ownNode → x.2.set ∉ s.geomChanges e) :
    s.setRankSets fn e = ((s.partitioned e).showSegs.reapStage).adminDone fn e .success := by
  have hfree : ¬ (s.hif.nss.any fun n => n.2.node == s.ownNode && (s.geomChanges e).contains n.2.set) = true := fun hany =>
    (State.holdsNs_iff.mp hany).elim fun x hx => h x hx.1 hx.2.1 hx.2.2
  unfold State.setRankSets
  dsimp only
  rw [if_neg (by rw [hok]; decide), if_neg (by rw [hidle]; decide), if_neg hfree, State.toMembers_of_not_master _ hmaster]
  rfl

end

theorem find_foldl_set {α : Type} (g : Nat → α) (ns : List Nat) (t : Tab α) (k : Nat) :
    Tab.find (ns.foldl (fun t n => Tab.set t n (g n)) t) k = if k ∈ ns then some (g k) else Tab.find t k := by
  induction ns generalizing t with
  | nil => rfl
  | cons n ns ih =>
    rw [List.foldl_cons, ih]
    by_cases hk : k = n
    · subst hk
      simp
    · simp [hk, Tab.find_set_ne]

/-! ### Bytes of a descriptor -/

theorem ofLe_leBytes (n v : Nat) : ofLe (leBytes n v) = v % 256 ^ n := by
  induction n generalizing v with
  | zero => simp [leBytes, ofLe, Nat.mod_one]
  | succ n ih =>
    rw [leBytes, ofLe, ih, BitVec.toNat_ofNat]
    exact (Nat.pow_succ' (n := n) (m := 256) ▸ (Nat.mod_mul (a := 256) (b := 256 ^ n) (x := v))).symm

theorem ofLe_leBytes_of_lt {n v : Nat} (h : v < 256 ^ n) : ofLe (leBytes n v) = v := (ofLe_leBytes n v).trans (Nat.mod_eq_of_lt h)

theorem State.fld_lt (s : State) {f : Fld} {n : Nat} (h : 2 ^ f.w ≤ n) : s.fld f < n :=
  Nat.lt_of_lt_of_le (Nat.mod_lt _ (Nat.two_pow_pos _)) h

theorem State.mapVf_of_own {s : State} (fn : Nat) (e : Sqe) (hnode : bits e.cdw11.toNat 8 2 = s.ownNode)
    (hdenies : s.nodeDenies s.ownNode = none) : s.mapVf fn e =
      if s.mapBad (bits e.cdw11.toNat 0 1) (bits e.cdw11.toNat 1 7) e.ten = true then s.adminDone fn e .invalidField
      else (s.setFld (F.HIF_FNMAP_TEN (bits e.cdw11.toNat 0 1) (bits e.cdw11.toNat 1 7)) e.ten).adminDone fn e .success := by
  unfold State.mapVf
  dsimp only
  rw [hnode, hdenies]
  exact if_neg (not_not_intro rfl)

end Machine

/-- Settles O48. -/
theorem tenancies : Obligations.tenancies := by
  unfold Obligations.tenancies
  refine ⟨fun fn e s hgo => ?create, fun fn e s hgo => ?delete, fun fn e s hgo hexists => ?read, fun fn e s hgo hnode hdenies => ?map,
    fun fn e s hgo => ?geometry⟩
  case create =>
    rw [exec_tenancyCreate, execTenancyCreate, State.admin_of_go _ _ hgo]
    exact ⟨fun hexists => congrArg Host.Outcome.next (if_pos hexists),
      fun hnone => congrArg Host.Outcome.next (if_neg (ne_true_of_eq_false hnone))⟩
  case delete =>
    intro n
    rw [exec_tenancyDelete, execTenancyDelete, State.admin_of_go _ _ hgo]
    have hexisting (hn : n ≠ 0) (hexists : s.tenExists n = true) : ¬(n = 0 ∨ s.tenExists n = false) := by simp [hn, hexists]
    refine ⟨fun hbad => congrArg Host.Outcome.next (if_pos hbad), fun hn hexists ⟨x, hx, hten⟩ => ?_, fun hn hexists hns => ?_⟩
    · have hany : s.hif.nss.any (fun x => x.2.ten == n) = true := List.any_eq_true.mpr ⟨x, hx, beq_iff_eq.mpr hten⟩
      exact congrArg Host.Outcome.next ((if_neg (hexisting hn hexists)).trans (if_pos hany))
    · have hnone : ¬ s.hif.nss.any (fun x => x.2.ten == n) = true := fun hany =>
        (List.any_eq_true.mp hany).elim fun x hx => hns x hx.1 (beq_iff_eq.mp hx.2)
      exact congrArg Host.Outcome.next ((if_neg (hexisting hn hexists)).trans (if_neg hnone))
  case read =>
    rw [exec_readDescriptor, execReadDescriptor, State.admin_of_go _ _ hgo]
    refine ⟨_, congrArg Host.Outcome.next (if_neg (ne_false_of_eq_true hexists)), ?_, ?_, ?_, ?_⟩
    · exact ofLe_leBytes_of_lt (n := 2) (s.fld_lt (show 2 ^ 14 ≤ 256 ^ 2 by decide))
    · exact ofLe_leBytes_of_lt (n := 2) (s.fld_lt (show 2 ^ 14 ≤ 256 ^ 2 by decide))
    · exact ofLe_leBytes_of_lt (n := 4) (s.fld_lt (show 2 ^ 16 ≤ 256 ^ 4 by decide))
    · exact ofLe_leBytes_of_lt (n := 4) (s.fld_lt (show 2 ^ 20 ≤ 256 ^ 4 by decide))
  case map =>
    intro p f
    rw [exec_mapVf, execMapVf, State.admin_of_go _ _ hgo, State.mapVf_of_own _ _ hnode hdenies]
    refine ⟨fun hbad => congrArg Host.Outcome.next (if_pos hbad), fun hgood => ?_⟩
    have haddr : R.SEC_BOOTSTAT ≠ R.HIF_FNMAP p f := by
      unfold R.SEC_BOOTSTAT R.HIF_FNMAP
      omega
    have hdone := State.adminDone_completes (fn := fn) (e.withAct 3) .success 0 []
      ((State.recovery_of_hostSide (s.hostSide_setFld (f := F.HIF_FNMAP_TEN p f) (e.withAct 3).ten haddr)).trans hgo.1)
    obtain ⟨hcsr, hmem, -⟩ := hdone.keeps
    refine ⟨_, congrArg Host.Outcome.next (if_neg (ne_true_of_eq_false hgood)), ?_, hdone.cpls, hmem⟩
    exact (State.fld_of_csr hcsr _).trans ((s.fld_setFld_self _ _ (show 0 + 7 ≤ 64 by decide)).trans (Nat.mod_eq_of_lt (bits_lt _ _ _)))
  case geometry =>
    rw [exec_setRankSets, execSetRankSets, State.admin_of_go _ _ hgo]
    refine ⟨fun hbad => congrArg Host.Outcome.next (State.setRankSets_bad hbad),
      fun hok hbusy => congrArg Host.Outcome.next (State.setRankSets_rebuilding hok hbusy),
      fun hok hidle hns => congrArg Host.Outcome.next (State.setRankSets_inUse hok hidle hns), fun hok hidle hmaster hns => ?_, ?_⟩
    · have hside : ((s.partitioned (e.withAct 4)).showSegs.reapStage).hostSide = (s.partitioned (e.withAct 4)).hostSide :=
        (State.hostSide_reapStage _).trans (State.hostSide_showSegs _)
      have hdone := State.adminDone_completes (fn := fn) (e.withAct 4) .success 0 [] ((State.recovery_of_hostSide hside).trans hgo.1)
      have hpart (n : Nat) : Tab.find (((s.partitioned (e.withAct 4)).showSegs.reapStage).adminDone fn.val (e.withAct 4) .success
          ).hif.partition n = if n ∈ s.geomChanges (e.withAct 4) then some ((e.withAct 4).geomEntry n) else Tab.find s.hif.partition n := by
        obtain ⟨-, -, -, -, -, -, hpartition⟩ := hdone.keeps
        exact (congrArg (Tab.find · n) (hpartition.trans (congrArg (fun x => x.1.partition) hside))).trans (find_foldl_set _ _ _ _)
      refine ⟨_, congrArg Host.Outcome.next (State.setRankSets_recorded hok hidle hmaster hns),
        hdone.cpls.trans (congrArg (fun x => x.1.cpls ++ _) hside), fun n hn => (hpart n).trans (if_pos hn),
        fun n hn => (hpart n).trans (if_neg hn)⟩
    · rw [exec_formGeometry, execFormGeometry, State.admin_of_go _ _ hgo]
      rfl

end Sys2Proof
end

section
/-! PROOFS. Governor Access and Event Recorder Control (R291, R292, R404 to R406). -/

namespace Sys2Proof

open Machine

namespace Machine

/-! ### Governor Access -/

theorem Sqe.withDir_slot (e : Sqe) (d : Nat) : bits (e.withDir d).cdw10.toNat 0 8 = bits e.cdw10.toNat 0 8 := by
  unfold Sqe.withDir bits
  rw [BitVec.toNat_ofNat]
  have := e.cdw10.isLt
  omega

/-! ### The recorder -/

/-- What an access of the recorder leaves of the state. -/
theorem State.recorderAccess_keeps (s : State) (fn : Nat) : ∃ r, (s.recorderAccess fn).2.2 = { s with evr := r } := by
  unfold State.recorderAccess State.assignCursor
  dsimp only
  split
  · exact ⟨_, rfl⟩
  · split
    · exact ⟨_, rfl⟩
    · split <;> exact ⟨_, rfl⟩

theorem State.recovery_recorderAccess (s : State) (fn : Nat) : (s.recorderAccess fn).2.2.recovery = s.recovery := by
  obtain ⟨r, h⟩ := s.recorderAccess_keeps fn
  rw [h]
  rfl

theorem State.freeze_post (s : State) (src id : Nat) (items : List (Nat × Nat)) (ten : Nat) :
    (s.post src id items ten).evr.freeze = s.evr.freeze := by
  unfold State.post State.postEvent
  split
  · split <;> rfl
  · rfl

theorem State.showEvr_evr (s : State) : s.showEvr.evr = s.evr := by
  unfold State.showEvr
  dsimp only
  split <;> rfl

theorem State.recovery_setFld (s : State) {f : Fld} (v : Nat) (h : R.SEC_BOOTSTAT ≠ f.addr) : (s.setFld f v).recovery = s.recovery :=
  State.recovery_of_hostSide (s.hostSide_setFld v h)

theorem State.recovery_showEvr (s : State) : s.showEvr.recovery = s.recovery := by
  have hstat (n m k : Nat) : (((s.setFld F.MGT_EVSTAT_UNFL n).setFld F.MGT_EVSTAT_FROZEN m).setFld F.MGT_EVSTAT_SIDE k).recovery =
      s.recovery := by
    rw [State.recovery_setFld _ _ (by decide), State.recovery_setFld _ _ (by decide), State.recovery_setFld _ _ (by decide)]
  unfold State.showEvr
  dsimp only
  split
  · exact (State.recovery_setFld _ _ (by decide)).trans (hstat _ _ _)
  · exact hstat _ _ _

theorem State.flag_of_csr {s t : State} (h : t.csr = s.csr) (f : Fld) : t.flag f = s.flag f := congrArg (· != 0) (State.fld_of_csr h f)

theorem State.showEvr_frozen (s : State) : s.showEvr.flag F.MGT_EVSTAT_FROZEN = s.evr.freeze.isSome := by
  have hself (t : State) (n : Nat) : ((t.setFld F.MGT_EVSTAT_FROZEN (b2n s.evr.freeze.isSome)).setFld F.MGT_EVSTAT_SIDE n).flag
      F.MGT_EVSTAT_FROZEN = s.evr.freeze.isSome := by
    rw [State.flag, State.fld_setFld_disjoint _ _ (show 14 + 1 ≤ 64 by decide) (.inl (show 14 + 1 ≤ 16 by decide)), ← State.flag,
      State.flag_setFld_self _ _ rfl (by decide)]
    cases s.evr.freeze <;> rfl
  unfold State.showEvr
  dsimp only
  split
  · rw [State.flag_setFld_ne _ _ (by decide)]
    exact hself _ _
  · exact hself _ _

theorem find_adjust_self {α : Type} {t : Tab α} {k : Nat} {a : α} (f : α → α) (h : Tab.find t k = some a) :
    Tab.find (Tab.adjust t k f) k = some (f a) := by
  rw [Tab.adjust, h]
  exact Tab.find_set_self _ _ _

theorem find_adjust_ne {α : Type} (t : Tab α) {k j : Nat} (f : α → α) (h : j ≠ k) : Tab.find (Tab.adjust t k f) j = Tab.find t j := by
  unfold Tab.adjust
  split
  · exact Tab.find_set_ne _ _ h
  · rfl

end Machine

/-- Settles O49. -/
theorem governorAndRecorderCommands : Obligations.governor_and_recorder_commands := by
  unfold Obligations.governor_and_recorder_commands
  refine ⟨fun fn e s hgo => ?governor, fun fn e s hgo hvf => ?owner, fun fn e s hgo hpf => ?freeze, fun fn e s hgo => ?view⟩
  case governor =>
    intro k
    rw [exec_governorRead, execGovernorRead, State.admin_of_go _ _ hgo, exec_governorWrite, execGovernorWrite, State.admin_of_go _ _ hgo]
    dsimp only
    simp only [Sqe.withDir_slot]
    have howns (hk : k ≤ 145) (hpf : isPf fn.val = true) : ¬ (145 < k ∨ isPf fn.val = false) := by simp [hpf, hk]
    refine ⟨fun hbad => congrArg Host.Outcome.next (if_pos hbad), fun hk hmay => congrArg Host.Outcome.next (if_neg ?_),
      fun hbad => congrArg Host.Outcome.next (if_pos hbad), fun hk hpf hopen => congrArg Host.Outcome.next ((if_neg (howns hk hpf)).trans
        ((if_neg fun h => h.1 hopen).trans ?_)), fun hk hpf hclosed hbit hne => congrArg Host.Outcome.next ((if_neg (howns hk hpf)).trans
        (if_pos ⟨hclosed, ?_⟩))⟩
    · rintro (hlt | ⟨hvf, hother⟩)
      · exact Nat.not_lt_of_le hk hlt
      · exact hmay.elim (fun hpf => absurd hpf (ne_true_of_eq_false hvf)) hother
    · have hall : (fun w => decide (s.lpeState k = 0) || !decide ((w * 4) ∈ (0x24 :: coefOffs))) = fun _ : Nat => true := by
        funext w
        rw [decide_eq_true hopen, Bool.true_or]
      show ((List.filter (fun w => decide (s.lpeState k = 0) || !decide ((w * 4) ∈ (0x24 :: coefOffs))) _).foldl _ s).adminDone _ _ _ = _
      rw [hall, List.filter_true]
      rfl
    · refine List.any_eq_true.mpr ⟨9, List.mem_filter.mpr ⟨by decide, hbit⟩, ?_⟩
      rw [Bool.and_eq_true]
      exact ⟨by decide, decide_eq_true ((Nat.and_two_pow_sub_one_eq_mod (e.field 36 4) 19).trans_ne hne)⟩
  case owner =>
    rw [exec_recorderFreeze, execRecorderFreeze, State.admin_of_go _ _ hgo, exec_recorderUnfreeze, execRecorderUnfreeze,
      State.admin_of_go _ _ hgo]
    exact ⟨congrArg Host.Outcome.next (if_pos hvf), congrArg Host.Outcome.next (if_pos hvf)⟩
  case freeze =>
    intro u
    have howner : ¬ isPf fn.val = false := ne_false_of_eq_true hpf
    rw [exec_recorderFreeze, execRecorderFreeze, State.admin_of_go _ _ hgo, exec_recorderUnfreeze, execRecorderUnfreeze,
      State.admin_of_go _ _ hgo]
    dsimp only
    rw [if_neg howner, if_neg howner]
    refine ⟨fun hnone => ?_, fun f hf hother => ?_, fun f hf hmine => ?_⟩
    · rw [show (s.recorderAccess fn.val).2.2.evr.freeze = none from hnone]
      refine ⟨_, rfl, ?_⟩
      have hrec : ((((s.recorderAccess fn.val).2.2.ev fun r => { r with freeze := some ⟨fn.val, u.now⟩ }).mgtPost 0x0A13
          [(8, (s.recorderAccess fn.val).1), (8, 0)]).showEvr).recovery = false :=
        (State.recovery_showEvr _).trans ((State.recovery_post _ _ _ _ _).trans ((s.recovery_recorderAccess fn.val).trans hgo.1))
      have hfreeze : ((((s.recorderAccess fn.val).2.2.ev fun r => { r with freeze := some ⟨fn.val, u.now⟩ }).mgtPost 0x0A13
          [(8, (s.recorderAccess fn.val).1), (8, 0)]).showEvr).evr.freeze = some ⟨fn.val, u.now⟩ :=
        (congrArg Recorder.freeze (State.showEvr_evr _)).trans (State.freeze_post _ _ _ _ _)
      obtain ⟨hcsr, -, -, hevr, -⟩ := (State.adminDone_completes (fn := fn) e .success 0 [] hrec).keeps
      exact ⟨(congrArg Recorder.freeze hevr).trans hfreeze, (State.flag_of_csr hcsr _).trans
        ((State.showEvr_frozen _).trans (congrArg Option.isSome (State.freeze_post _ _ _ _ _)))⟩
    · rw [show (s.recorderAccess fn.val).2.2.evr.freeze = some f from hf]
      exact ⟨congrArg Host.Outcome.next (congrArg (u.adminDone fn.val e ·) (if_neg hother)), congrArg Host.Outcome.next (if_neg hother)⟩
    · rw [show (s.recorderAccess fn.val).2.2.evr.freeze = some f from hf]
      exact ⟨congrArg Host.Outcome.next (congrArg (u.adminDone fn.val e ·) (if_pos hmine)), congrArg Host.Outcome.next (if_pos hmine)⟩
  case view =>
    intro k u d
    rw [exec_recorderRead, execRecorderRead, State.admin_of_go _ _ hgo, exec_recorderClearView, execRecorderClearView,
      State.admin_of_go _ _ hgo]
    have hrec : (u.moveCursor k (e.cdw12.toNat + e.cdw13.toNat * 2 ^ 32)).recovery = false := (s.recovery_recorderAccess fn.val).trans hgo.1
    obtain ⟨-, -, -, hevr, -⟩ := (State.adminDone_completes (fn := fn) e .success 0 [] hrec).keeps
    refine ⟨rfl, fun c hc => ⟨_, rfl, ?_, fun j hj => ?_⟩⟩
    · exact (congrArg (fun r => Tab.find r.cursors k) hevr).trans (find_adjust_self _ hc)
    · exact (congrArg (fun r => Tab.find r.cursors j) hevr).trans (find_adjust_ne _ _ hj)

end Sys2Proof
end

section
/-! PROOFS. Claims of resources, the diagnostic window and link tests (R263, R264, R294, R295, R410 to R413). -/

namespace Sys2Proof

open Machine

namespace Machine

/-! ### Claims -/

theorem claimTarget_lt {e : Sqe} {k : ResKind} {i : Nat} (h : claimTarget e = some (k, i)) : i < k.count := by
  unfold claimTarget at h
  split at h
  · split at h
    · cases h
      assumption
    · cases h
  · cases h

theorem claim_addr_ne {k : ResKind} {i : Nat} (h : i < k.count) : R.SEC_BOOTSTAT ≠ R.MGT_CLAIM (k.elem i) := by
  unfold R.SEC_BOOTSTAT R.MGT_CLAIM
  cases k <;> dsimp only [ResKind.count, ResKind.elem] at * <;> omega

theorem State.claimFree_of {s : State} {e id : Nat} (hid : id ≠ 0) (hfree : s.fld (F.MGT_CLAIM_ID e) = 0)
    (hsafe : s.flag (F.MGT_CLAIM_SAFE e) = false) : s.claimFree e id = true := by
  rw [State.claimFree, hfree, hsafe, bne_iff_ne.mpr hid]
  rfl

theorem State.not_claimFree {s : State} {e id : Nat} (hheld : s.fld (F.MGT_CLAIM_ID e) ≠ 0) : ¬ s.claimFree e id = true := by
  simp [State.claimFree, hheld]

/-! ### The diagnostic window -/

theorem diagctl_addr_ne {p : Nat} : R.SEC_BOOTSTAT ≠ R.HIF_DIAGCTL p ∧ R.HIF_DIAGCTL p ≠ R.MGT_EVDROP ∧
    R.AON_PSSTAT ≠ R.HIF_DIAGCTL p := by
  unfold R.SEC_BOOTSTAT R.HIF_DIAGCTL R.MGT_EVDROP R.AON_PSSTAT
  omega

/-- The diagnostic window of a port as the register says: open on an island, or closed. -/
def State.diagSet (s : State) (p isOpen isl : Nat) : State := (s.setFld (F.HIF_DIAGCTL_OPEN p) isOpen).setFld (F.HIF_DIAGCTL_ISEL p) isl

theorem State.diagSet_flag (s : State) (p isl : Nat) {v : Nat} : (s.diagSet p v isl).flag (F.HIF_DIAGCTL_OPEN p) = decide (v % 2 = 1) := by
  rw [State.diagSet, State.flag, State.fld_setFld_disjoint _ _ (show 2 + 1 ≤ 64 by decide) (.inl (show 2 + 1 ≤ 8 by decide)), ← State.flag,
    State.flag_setFld_self _ _ rfl (show 2 + 1 ≤ 64 by decide)]

theorem State.diagSet_isel (s : State) (p v : Nat) {isl : Nat} (h : isl < 176) : (s.diagSet p v isl).fld (F.HIF_DIAGCTL_ISEL p) = isl :=
  (State.fld_setFld_self _ _ _ (show 8 + 8 ≤ 64 by decide)).trans (Nat.mod_eq_of_lt (show isl < 2 ^ 8 by omega))

theorem State.diagSet_fld (s : State) (p v isl : Nat) {f : Fld} (h : f.addr ≠ R.HIF_DIAGCTL p) : (s.diagSet p v isl).fld f = s.fld f := by
  rw [State.diagSet, State.fld_setFld_ne _ _ h, State.fld_setFld_ne _ _ h]

theorem State.recovery_diagPost (s : State) (p v isl id : Nat) (items : List (Nat × Nat)) :
    ((s.diagSet p v isl).hifPost p id items).recovery = s.recovery := by
  rw [State.hifPost, State.recovery_post, State.recovery, State.diagSet_fld _ _ _ _ diagctl_addr_ne.1, State.recovery]

/-! ### Link tests -/

/-- The host side, the monitors and the time: what the operations of dies and sequencers leave. -/
def State.monitors (s : State) : Hif × Mgt × Nat := (s.hif, s.mgt, s.now)

theorem State.monitors_post (s : State) (src id : Nat) (items : List (Nat × Nat)) (ten : Nat) :
    (s.post src id items ten).monitors = s.monitors := by
  obtain ⟨-, -, hhif, -, -, -, -, -, -, -, hmgt, -, -, hnow⟩ := s.post_keeps src id items ten
  rw [State.monitors, hhif, hmgt, hnow, State.monitors]

theorem State.monitors_setFld (s : State) (f : Fld) (v : Nat) : (s.setFld f v).monitors = s.monitors := rfl

theorem State.monitors_showPods (s : State) (d : Nat) : (s.showPods d).monitors = s.monitors := rfl

theorem State.monitors_showPower (s : State) : s.showPower.monitors = s.monitors := rfl

theorem State.monitors_podDone (s : State) (n rank : Nat) (susp : Bool) (p : Pod) (code detail : Nat) :
    (s.podDone n rank susp p code detail).monitors = s.monitors := by
  unfold State.podDone
  dsimp only
  rw [State.monitors_showPower, State.monitors_showPods]
  split
  · rw [State.monitors_setFld, State.monitors_setFld, State.monitors_setFld, State.monitors_setFld]
    rfl
  · rfl

theorem State.monitors_pickItem {s t : State} {n : Nat} {i : Item} (h : s.pickItem n = some (i, t)) : t.monitors = s.monitors := by
  unfold State.pickItem at h
  split at h
  · cases h
  · dsimp only at h
    split at h
    · cases h
      rfl
    · cases h
      rfl

theorem State.monitors_popLoop (s : State) (n fuel : Nat) : (s.popLoop n fuel).monitors = s.monitors := by
  induction fuel generalizing s with
  | zero => rfl
  | succ fuel ih =>
    rw [State.popLoop]
    split
    · split
      · exact State.monitors_post _ _ _ _ _
      · rfl
    · rename_i i t hpick
      have ht := State.monitors_pickItem hpick
      dsimp only
      split
      · exact ht
      · split
        · exact (ih _).trans ((State.monitors_podDone _ _ _ _ _ _ _).trans ht)
        · exact ht

theorem State.monitors_seqStop (s : State) (n : Nat) : (s.seqStop n).monitors = s.monitors := by
  unfold State.seqStop
  dsimp only
  split
  · exact State.monitors_popLoop _ _ _
  · rfl

/-- A test of a channel or a subchannel begins at once. -/
theorem State.testBegin_of_local {s : State} (hrun : s.mgt.test.st = .running) (hnew : s.mgt.test.begun = false) (hlink : 4 ≤ s.mgt.test.link) :
    (s.testBegin).monitors = (s.hif, { s.mgt with test := { s.mgt.test with begun := true, start := s.now } }, s.now) := by
  have hbegin (u : State) (h : u.monitors = s.monitors) : (u.mg fun m => { m with test := { m.test with begun := true, start := u.now } }).monitors =
      (s.hif, { s.mgt with test := { s.mgt.test with begun := true, start := s.now } }, s.now) := by
    have hhif : u.hif = s.hif := congrArg (·.1) h
    have hmgt : u.mgt = s.mgt := congrArg (·.2.1) h
    have hnow : u.now = s.now := congrArg (·.2.2) h
    show (u.hif, { u.mgt with test := { u.mgt.test with begun := true, start := u.now } }, u.now) = _
    rw [hhif, hmgt, hnow]
  unfold State.testBegin
  dsimp only
  rw [if_neg (by simp [hrun, hnew]), if_neg (fun h => absurd h.1 (by omega)), if_neg (by omega), if_neg (by omega)]
  split
  · exact hbegin _ (State.monitors_seqStop _ _)
  · exact hbegin _ rfl

/-- A link test of a given kind begins once its command has completed. -/
theorem State.testStart_of_free {s : State} {fn : Nat} {e : Sqe}
    (hgood : ¬ (s.linkExists (bits e.cdw11.toNat 0 4) (bits e.cdw11.toNat 4 8) (bits e.cdw12.toNat 4 4) = false ∨
      modeAllowed (bits e.cdw11.toNat 0 4) (bits e.cdw12.toNat 2 2) = false ∨ bits e.cdw11.toNat 16 16 = 0 ∨
      2 ^ s.testLanes (bits e.cdw11.toNat 0 4) ≤ bits e.cdw11.toNat 16 16 ∨ (bits e.cdw11.toNat 0 4 = fn / 128 ∧ bits e.cdw12.toNat 16 16 = 0)))
    (hfree : ¬ (s.mgt.test.st = .running ∨ (2 ≤ bits e.cdw11.toNat 0 4 ∧ bits e.cdw11.toNat 0 4 < 4 ∧
      s.wouldCut (bits e.cdw11.toNat 0 4 - 2) = true))) :
    ∃ t : LinkTest, s.testStart fn e = (((s.adminDone fn e .success).mg fun m => { m with test := t }).testEvent).testBegin ∧
      t.st = .running ∧ t.begun = false ∧ t.link = bits e.cdw11.toNat 0 4 ∧ t.lanes = bits e.cdw11.toNat 16 16 ∧
      t.duration = bits e.cdw12.toNat 16 16 := by
  unfold State.testStart
  dsimp only
  rw [if_neg hgood, if_neg hfree]
  exact ⟨_, rfl, rfl, rfl, rfl, rfl, rfl⟩

theorem State.testBegin_of_test (s : State) {t : LinkTest} (hrun : t.st = .running) (hnew : t.begun = false) (hlink : 4 ≤ t.link) :
    (((s.mg fun m => { m with test := t }).testEvent).testBegin).monitors =
      (s.hif, { s.mgt with test := { t with begun := true, start := s.now } }, s.now) := by
  have hevent : ((s.mg fun m => { m with test := t }).testEvent).monitors = (s.hif, { s.mgt with test := t }, s.now) :=
    State.monitors_post _ _ _ _ _
  have hhif := congrArg (·.1) hevent
  have hmgt := congrArg (·.2.1) hevent
  have hnow := congrArg (·.2.2) hevent
  dsimp only [State.monitors] at hhif hmgt hnow
  rw [State.testBegin_of_local (by rw [hmgt]; exact hrun) (by rw [hmgt]; exact hnew) (by rw [hmgt]; exact hlink), hhif, hmgt, hnow]

end Machine

/-- Settles O50. -/
theorem claimsAndWindows : Obligations.claims_and_windows := by
  unfold Obligations.claims_and_windows
  refine ⟨fun fn e k i s hgo htarget => ?host, fun k i id s hi => ?core, fun k i id s hi => ?none, fun fn e s hgo => ?window,
    fun fn e lanes s hgo => ?report, fun fn e s hgo => ?start, fun lanes s hrun hbegun hdur => ?expiry, fun l x s hrun hbegun hbit hx => ?lost⟩
  case host =>
    rw [exec_resourceClaim, execResourceClaim, State.admin_of_go _ _ hgo, exec_resourceRelease, execResourceRelease, State.admin_of_go _ _ hgo,
      htarget]
    dsimp only
    have hset (v : Nat) := State.adminDone_completes (fn := fn) e .success 0 []
      ((s.recovery_setFld (f := F.MGT_CLAIM_ID (k.elem i)) v (claim_addr_ne (claimTarget_lt htarget))).trans hgo.1)
    have hshows (v : Nat) := (State.fld_of_csr (hset v).keeps.1 (F.MGT_CLAIM_ID (k.elem i))).trans (State.fld_setFld_self _ _ _ (show 0 + 32 ≤ 64 by decide))
    refine ⟨fun hid hfree hsafe => ?_, fun hid hheld => congrArg Host.Outcome.next ?_, fun hid hmine => ?_, fun hother => congrArg Host.Outcome.next ?_⟩
    · rw [if_neg hid, if_pos (State.claimFree_of hid hfree hsafe)]
      obtain ⟨-, hmem, -⟩ := (hset e.cdw11.toNat).keeps
      exact ⟨_, rfl, hshows _, (hset _).cpls, hmem⟩
    · rw [if_neg hid, if_neg (State.not_claimFree hheld)]
    · rw [if_pos ⟨hid, hmine⟩]
      exact ⟨_, rfl, hshows _, (hset _).cpls⟩
    · exact if_neg fun h => hother h.2
  case core =>
    rw [exec_claimWrite, execClaimWrite, if_pos hi, exec_claimRelease, execClaimRelease, if_pos hi]
    refine ⟨fun hid hfree hsafe => congrArg Host.Outcome.next (if_pos (State.claimFree_of hid hfree hsafe)),
      fun hid hmine => congrArg Host.Outcome.next (if_pos ⟨hid, hmine⟩), fun hbad => congrArg Host.Outcome.next (if_neg ?_)⟩
    rintro ⟨hid, hmine⟩
    exact hbad.elim hid fun h => h hmine
  case none =>
    have hout : ¬ i.toNat < k.count := Nat.not_lt_of_le hi
    exact ⟨exec_claimWrite.trans (if_neg hout), exec_claimRelease.trans (if_neg hout)⟩
  case window =>
    intro i
    rw [exec_diagWindowOpen, execDiagWindowOpen, State.admin_of_go _ _ hgo, exec_diagWindowClose, execDiagWindowClose, State.admin_of_go _ _ hgo]
    have hdone (p v isl id : Nat) (items : List (Nat × Nat)) (act : Nat) := State.adminDone_completes (fn := fn) (e.withAct act) .success 0 []
      ((s.recovery_diagPost p v isl id items).trans hgo.1)
    have hcpls (p v isl id : Nat) (items : List (Nat × Nat)) : ((s.diagSet p v isl).hifPost p id items).hif.cpls = s.hif.cpls :=
      State.cpls_post _ _ _ _ _
    refine ⟨fun hallow hi => ⟨_, congrArg Host.Outcome.next (if_neg ?_), fun hpower => ?_, ?_, ?_, ?_⟩,
      fun hbad => congrArg Host.Outcome.next (if_pos hbad), ?_⟩
    · exact fun h => h.elim (fun hno => absurd hallow (ne_true_of_eq_false hno)) (Nat.not_le_of_lt hi)
    · obtain ⟨-, -, -, hevr, -⟩ := (hdone (fn.val / 128) 1 i 0x0604 [(8, fn.val / 128), (8, i), (8, 1)] 0).keeps
      have hgated : (s.diagSet (fn.val / 128) 1 i).gated 2 = false :=
        (State.gated_of_fld (s.diagSet_fld _ _ _ diagctl_addr_ne.2.2) 2).trans hpower
      refine ⟨_, ?_, (congrArg Recorder.transit hevr).trans (congrArg (fun u => u.evr.transit) (State.post_of_powered _ _ _ _ hgated))⟩
      rfl
    · exact (State.flag_of_csr (hdone _ _ _ _ _ 0).keeps.1 _).trans ((congrArg (· != 0) (State.fld_post _ _ _ _ _ diagctl_addr_ne.2.1)).trans
        (s.diagSet_flag _ _))
    · exact (State.fld_of_csr (hdone _ _ _ _ _ 0).keeps.1 _).trans ((State.fld_post _ _ _ _ _ diagctl_addr_ne.2.1).trans
        (s.diagSet_isel _ _ hi))
    · exact (hdone _ _ _ _ _ 0).cpls.trans (congrArg (· ++ _) (hcpls _ _ _ _ _))
    · refine ⟨_, rfl, ?_⟩
      unfold State.closeDiag
      dsimp only
      split
      next hopen =>
        exact ⟨(State.flag_of_csr (hdone _ _ _ _ _ 1).keeps.1 _).trans
          ((congrArg (· != 0) (State.fld_post _ _ _ _ _ diagctl_addr_ne.2.1)).trans (s.diagSet_flag _ _)),
          (hdone _ _ _ _ _ 1).cpls.trans (congrArg (· ++ _) (hcpls _ _ _ _ _))⟩
      next hclosed =>
        have hplain := State.adminDone_completes (fn := fn) (e.withAct 1) .success 0 [] hgo.1
        exact ⟨(State.flag_of_csr hplain.keeps.1 _).trans (Bool.eq_false_iff.mpr hclosed), hplain.cpls⟩
  case report =>
    rw [exec_linkTestStop, execLinkTestStop, State.admin_of_go _ _ hgo, exec_linkTestStatus, execLinkTestStatus, State.admin_of_go _ _ hgo,
      exec_linkTestStart, execLinkTestStart, State.admin_of_go _ _ hgo]
    dsimp only
    refine ⟨rfl, fun hidle => ?_, fun hrun => ?_, fun hbad => congrArg Host.Outcome.next (if_pos ?_)⟩
    · rw [if_neg hidle]
    · rw [if_pos hrun]
    · exact hbad.elim (fun h => .inr (.inr (.inl h))) fun h => .inr (.inl h)
  case start =>
    intro c d hexists hmode hnone hlanes hdur hidle hlink
    rw [exec_linkTestStart, execLinkTestStart, State.admin_of_go _ _ hgo]
    have hport : ¬ bits c 0 4 = fn.val / 128 := by
      have := fn.isLt
      omega
    have hgood : ¬ (s.linkExists (bits c 0 4) (bits c 4 8) (bits d 4 4) = false ∨ modeAllowed (bits c 0 4) (bits d 2 2) = false ∨
        bits c 16 16 = 0 ∨ 2 ^ s.testLanes (bits c 0 4) ≤ bits c 16 16 ∨ (bits c 0 4 = fn.val / 128 ∧ bits d 16 16 = 0)) := by
      simp [hexists, hmode, hnone, Nat.not_le_of_lt hlanes, hport]
    have hfree : ¬ (s.mgt.test.st = .running ∨ (2 ≤ bits c 0 4 ∧ bits c 0 4 < 4 ∧ s.wouldCut (bits c 0 4 - 2) = true)) := fun h =>
      h.elim hidle fun h => absurd h.2.1 (Nat.not_lt_of_le hlink)
    have hdone := State.adminDone_completes (fn := fn) (e.withAct 2) .success 0 [] hgo.1
    obtain ⟨test, hstart, hst, hbegun, htest, hlane, hduration⟩ := State.testStart_of_free (fn := fn.val) (e := e.withAct 2) hgood hfree
    have hnow : (s.adminDone fn.val (e.withAct 2) .success).now = s.now := by
      obtain ⟨fns, ints, hadmin, -⟩ := hdone.hif
      rw [hadmin]
    have hbegin := State.testBegin_of_test (s.adminDone fn.val (e.withAct 2) .success) hst hbegun (htest ▸ hlink)
    have hmgt := congrArg (·.2.1.test) hbegin
    have hhif := congrArg (·.1) hbegin
    dsimp only [State.monitors] at hmgt hhif
    rw [hstart]
    refine ⟨_, rfl, ?_⟩
    rw [hmgt, hhif]
    exact ⟨hst, rfl, htest, hlane, hduration, hnow, hdone.cpls⟩
  case expiry =>
    rw [exec_linkTestDurationExpiry, execLinkTestDurationExpiry]
    exact ⟨fun hdue => if_pos ⟨hrun, hbegun, hdur, hdue⟩, fun hearly => if_neg fun h => Nat.not_lt_of_le h.2.2.2 hearly⟩
  case lost =>
    rw [exec_patternCheckerLostLock, execPatternCheckerLostLock]
    dsimp only
    rw [if_pos ⟨hrun, hbegun, hbit⟩]
    have hkeeps (u : State) (items : List (Nat × Nat)) : (u.mgtPost 0x0B02 items).mgt = u.mgt ∧ (u.mgtPost 0x0B02 items).zne = u.zne ∧
        (u.mgtPost 0x0B02 items).mem = u.mem := by
      obtain ⟨hmem, hzne, -, -, -, -, -, -, -, -, hmgt, -⟩ := u.post_keeps 0x02 0x0B02 items 0xFF
      exact ⟨hmgt, hzne, hmem⟩
    refine ⟨_, rfl, ?_, (hkeeps _ _).2.1, (hkeeps _ _).2.2⟩
    rw [(hkeeps _ _).1]
    exact find_adjust_self _ hx

end Sys2Proof
end

section
/-! PROOFS. Controllers: enable, resets and shutdown (R284 to R286). -/

namespace Sys2Proof

open Machine

namespace Machine

theorem State.func_modFunc_ne (s : State) {fn g : Nat} (k : Func → Func) (h : g ≠ fn) : (s.modFunc fn k).func g = s.func g :=
  Tab.getD_set_ne _ _ _ h

theorem State.shutdownStep_of_busy {s : State} {fn : Nat} (hbusy : s.busyFn fn = true) : s.shutdownStep fn = s := if_pos (.inr hbusy)

theorem State.shutdownStep_of_others {s : State} {fn : Nat} (hshst : (s.func fn).shst = 1) (hidle : s.busyFn fn = false) (hothers : s.othersUp fn = true) :
    s.shutdownStep fn = s.modFunc fn fun f => { f with shst := 2 } := by
  have hgo : ¬ ((s.func fn).shst ≠ 1 ∨ s.busyFn fn = true) := by simp [hshst, hidle]
  exact (if_neg hgo).trans (if_pos hothers)

end Machine

/-- Settles O52. -/
theorem controllers : Obligations.controllers := by
  unfold Obligations.controllers
  refine ⟨fun fn wrr a c s hctl hfetch hfn hlink => ?enable, fun fn wrr a c s hno => ?stays, fun fn s => ?resets, fun s => ⟨rfl, ?subsystem⟩,
    fun fn s hctl hshst => ?shutdown, fun fn s hctl => exec_shutdownNotification.trans (if_pos (.inl hctl))⟩
  case enable =>
    rw [exec_controllerEnable, execControllerEnable, if_neg (by simp [hctl, hfetch, hfn, hlink])]
    refine ⟨_, rfl, ?_, ?_, ?_, ?_, rfl, rfl, rfl, fun f hf => State.func_modFunc_ne _ _ hf⟩
    · exact congrArg Func.ctl (s.func_modFunc_self fn.val _)
    · exact congrArg Func.shst (s.func_modFunc_self fn.val _)
    · exact congrArg Func.sqs (s.func_modFunc_self fn.val _)
    · exact congrArg Func.cqs (s.func_modFunc_self fn.val _)
  case stays =>
    refine exec_controllerEnable.trans (if_pos ?_)
    exact hno.elim .inl fun hlink => .inr (.inr (.inr hlink))
  case resets =>
    exact ⟨fun hctl => exec_controllerReset.trans (if_neg hctl), fun hctl => exec_controllerReset.trans (if_pos hctl), rfl⟩
  case subsystem =>
    intro t ht
    cases ht
    rfl
  case shutdown =>
    intro u
    have hnotified : exec (.shutdownNotification fn) s = .next (u.shutdownStep fn.val) :=
      exec_shutdownNotification.trans (if_neg (by simp [hctl, hshst]))
    have hu : (u.func fn.val).shst = 1 := congrArg Func.shst (s.func_modFunc_self fn.val _)
    rw [hnotified]
    refine ⟨fun hbusy => congrArg Host.Outcome.next (State.shutdownStep_of_busy hbusy), fun hidle hothers => ?_⟩
    rw [State.shutdownStep_of_others hu hidle hothers]
    exact ⟨_, rfl, congrArg Func.shst (u.func_modFunc_self fn.val _), rfl, rfl⟩

end Sys2Proof
end

section
/-! PROOFS. Doorbells, arbitration and admission (R271 to R274). -/

namespace Sys2Proof

open Machine

namespace Machine

/-! ### Arbitration and admission -/

section
variable {s : State} {p : Port} (hfetch : s.noFetch = false) (htest : s.portTested p.val = false)
  (hpeeks : ∀ e, e ∈ s.hif.peeks → e.1 / 128 ≠ p.val)
include hfetch htest hpeeks

theorem State.arbiter_turns : ¬ (s.noFetch ∨ s.portTested p.val = true ∨ s.hif.peeks.any (fun e => e.1 / 128 = p.val) = true) := by
  rw [hfetch, htest]
  rintro (h | h | h)
  · cases h
  · cases h
  · obtain ⟨e, he, heq⟩ := List.any_eq_true.mp h
    exact hpeeks e he (of_decide_eq_true heq)

theorem exec_arbiterTurn_urgent {f q : Nat} (hurgent : nextAfter (s.port p.val).lastUrg (s.serving p.val true) = some f)
    (hqueue : nextAfter (s.func (p.val * 128 + f)).lastq (s.ioQueues (p.val * 128 + f) true) = some q) :
    exec (.arbiterTurn p) s = .next ((s.modPort p.val fun x => { x with lastUrg := f }).issuePeek (p.val * 128 + f) q
      (s.func (p.val * 128 + f))) := by
  rw [exec_arbiterTurn, execArbiterTurn, if_neg (State.arbiter_turns hfetch htest hpeeks)]
  dsimp only
  rw [hurgent]
  dsimp only
  rw [hqueue]

theorem exec_arbiterTurn_stays {q : Nat} {y : Func} (hurgent : nextAfter (s.port p.val).lastUrg (s.serving p.val true) = none)
    (hserved : (s.port p.val).rr ∈ s.serving p.val false) (hburst : (s.port p.val).burst < s.fld (F.HIF_ARBCFG_FNBURST p.val))
    (hqueue : s.pickQueue (p.val * 128 + (s.port p.val).rr) = some (q, y)) :
    exec (.arbiterTurn p) s = .next (s.issuePeek (p.val * 128 + (s.port p.val).rr) q y) := by
  have hstay : ((s.serving p.val false).contains (s.port p.val).rr && decide ((s.port p.val).burst < s.fld (F.HIF_ARBCFG_FNBURST p.val))) =
      true := by
    rw [List.contains_iff_mem.mpr hserved, decide_eq_true hburst]
    rfl
  rw [exec_arbiterTurn, execArbiterTurn, if_neg (State.arbiter_turns hfetch htest hpeeks)]
  dsimp only
  rw [hurgent]
  dsimp only
  rw [hstay, if_pos rfl]
  dsimp only
  rw [if_pos rfl, hqueue]

end

/-- The state once a peek has been taken. -/
def State.unpeeked (s : State) (fn qid : Nat) : State :=
  s.hf fun h => { h with peeks := h.peeks.filter (· != (fn, qid)) }

/-- The queue is passed over for the rest of this turn. -/
def State.passOver (s : State) (fn qid : Nat) : State :=
  s.modPort (fn / 128) fun p => { p with tried := p.tried ++ [(fn, qid)] }

theorem State.peek_goes_on {u : State} {fn qid : Nat} (hfetch : u.noFetch = false) (hpeekable : u.peekable fn qid = true)
    (htest : u.portTested (fn / 128) = false) :
    ¬ (u.noFetch ∨ u.peekable fn qid = false ∨ u.portTested (fn / 128) = true) := by
  simp [hfetch, hpeekable, htest]

section
variable {s : State} {fn : FnId} {qid : Fin 65} {e : Sqe} {pair : Option Sqe} (hpeek : s.hif.peeks.contains (fn.val, qid.val) = true)
  (hfetch : (s.unpeeked fn.val qid.val).noFetch = false) (hpeekable : (s.unpeeked fn.val qid.val).peekable fn.val qid.val = true)
  (htest : (s.unpeeked fn.val qid.val).portTested (fn.val / 128) = false) (hfuse : fuseError e pair = none)
include hpeek hfetch hpeekable htest hfuse

theorem exec_peekEntryArrival_of_error {st : Status} (herr : (s.unpeeked fn.val qid.val).decodeError fn.val e = some st) :
    exec (.peekEntryArrival fn qid e pair) s = .next (
      if (s.unpeeked fn.val qid.val).creditsOk fn.val qid.val e none = false then (s.unpeeked fn.val qid.val).passOver fn.val qid.val
      else (s.unpeeked fn.val qid.val).admitCmd fn.val qid.val e pair (some st) none 0) := by
  rw [exec_peekEntryArrival, execPeekEntryArrival, if_neg (ne_false_of_eq_true hpeek)]
  dsimp only
  rw [← State.unpeeked, if_neg (State.peek_goes_on hfetch hpeekable htest), hfuse]
  dsimp only
  rw [herr]
  simp only [Option.isSome_some, Option.isNone_some, if_true, Bool.false_and, Bool.false_eq_true, if_false]
  split <;> rfl

theorem exec_peekEntryArrival_of_flush (herr : (s.unpeeked fn.val qid.val).decodeError fn.val e = none) (hopc : e.opc.toNat = 0)
    (hfirst : e.fuse.toNat ≠ 1) (hcredits : (s.unpeeked fn.val qid.val).creditsOk fn.val qid.val e none = true) :
    exec (.peekEntryArrival fn qid e pair) s = .next ((s.unpeeked fn.val qid.val).admitCmd fn.val qid.val e pair none none (buffersFor e false)) := by
  rw [exec_peekEntryArrival, execPeekEntryArrival, if_neg (ne_false_of_eq_true hpeek)]
  dsimp only
  rw [← State.unpeeked, if_neg (State.peek_goes_on hfetch hpeekable htest), hfuse]
  dsimp only
  rw [herr]
  dsimp only [Option.isSome, Option.isNone]
  rw [hopc, if_pos rfl, decide_eq_false hfirst]
  exact if_neg (ne_false_of_eq_true hcredits)

end

end Machine

/-- Settles O32. -/
theorem doorbellsAndArbitration : Obligations.doorbells_and_arbitration := by
  unfold Obligations.doorbells_and_arbitration
  refine ⟨⟨fun fn qid v q s hctl hq hv => ?tail, fun fn qid v q s hctl hq hv => ?head, fun fn qid v s hctl => ?wrong, fun fn cq q s hq hpend => ?coalesce⟩,
    fun p f q s hfetch htest hpeeks hurgent hqueue => exec_arbiterTurn_urgent hfetch htest hpeeks hurgent hqueue,
    fun p q y s hfetch htest hpeeks hurgent hserved hburst hqueue => exec_arbiterTurn_stays hfetch htest hpeeks hurgent hserved hburst hqueue,
    fun fn qid e pair st s hpeek => ?refused, fun fn qid e s hpeek => ?flush, fun fn qid t s hheld hdue hfree => ?starve⟩
  case tail =>
    have hself {α : Type} (h : Func → α) (g : Func → Func) : h ((s.modFunc fn.val g).func fn.val) = h (g (s.func fn.val)) :=
      congrArg h (s.func_modFunc_self fn.val g)
    rw [exec_sqTailDoorbell, execSqTailDoorbell, if_neg (not_not_intro hctl), hq]
    dsimp only
    rw [if_neg (Nat.not_le_of_lt hv)]
    refine ⟨_, rfl, ?_, fun k hk => ?_, hself Func.cqs _, fun f hf => State.func_modFunc_ne _ _ hf, rfl, rfl, rfl, rfl⟩
    · exact (hself (fun x => Tab.find x.sqs qid.val) _).trans (Tab.find_set_self _ _ _)
    · exact (hself (fun x => Tab.find x.sqs k) _).trans (Tab.find_set_ne _ _ hk)
  case head =>
    have hself {α : Type} (h : Func → α) (g : Func → Func) : h ((s.modFunc fn.val g).func fn.val) = h (g (s.func fn.val)) :=
      congrArg h (s.func_modFunc_self fn.val g)
    rw [exec_cqHeadDoorbell, execCqHeadDoorbell, if_neg (not_not_intro hctl), hq]
    dsimp only
    rw [if_neg (Nat.not_le_of_lt hv)]
    refine ⟨_, rfl, ?_, fun k hk => ?_, hself Func.sqs _, fun f hf => State.func_modFunc_ne _ _ hf, rfl, rfl, rfl, rfl⟩
    · exact (hself (fun x => Tab.find x.cqs qid.val) _).trans (Tab.find_set_self _ _ _)
    · exact (hself (fun x => Tab.find x.cqs k) _).trans (Tab.find_set_ne _ _ hk)
  case wrong =>
    rw [exec_sqTailDoorbell, execSqTailDoorbell, if_neg (not_not_intro hctl), exec_cqHeadDoorbell, execCqHeadDoorbell,
      if_neg (not_not_intro hctl)]
    refine ⟨fun hnone => ?_, fun hnone => ?_, fun q hq hv => ?_, fun q hq hv => ?_⟩
    · rw [hnone]
    · rw [hnone]
    · rw [hq]
      exact if_pos hv
    · rw [hq]
      exact if_pos hv
  case coalesce =>
    rw [exec_interruptCoalescingTimeout, execInterruptCoalescingTimeout, hq]
    refine ⟨_, if_neg hpend, rfl, ?_, rfl, rfl⟩
    have hself := congrArg (fun x => Tab.find x.cqs cq.val)
      (s.func_modFunc_self fn.val fun x => { x with cqs := Tab.set x.cqs cq.val { q with pendingInt := 0 } })
    exact hself.trans (Tab.find_set_self _ _ _)
  case starve =>
    rw [exec_wbstarveExpiry, execWbstarveExpiry, hheld]
    refine ⟨_, if_pos ⟨hdue, by rw [hfree]; rfl⟩, Tab.find_set_self _ _ _, rfl, rfl, rfl⟩
  case refused =>
    intro u hfetch hpeekable htest hfuse herr hfirst
    rw [exec_peekEntryArrival_of_error hpeek hfetch hpeekable htest hfuse herr]
    exact ⟨fun hcredits => congrArg Host.Outcome.next (if_neg (ne_false_of_eq_true hcredits)),
      fun hlack => ⟨_, congrArg Host.Outcome.next (if_pos hlack), rfl, rfl, rfl, rfl, rfl⟩⟩
  case flush =>
    intro u hfetch hpeekable htest hfuse herr hopc hfirst hcredits
    exact exec_peekEntryArrival_of_flush hpeek hfetch hpeekable htest hfuse herr hopc hfirst hcredits

end Sys2Proof
end

section
/-! PROOFS. Data of a write on its way to the media (R124). O33 is said of every state, those whose table of stripes lists a key twice
among them: the acknowledgement of a slice entry finds the stripe by its record, and changes the stripe that the key finds. -/

namespace Sys2Proof.Machine

/-- A stripe that fills, with no member yet. -/
def Stripe.filling (record : Option Nat) (acked : Nat) : Stripe :=
  ⟨.journal 0, .filling, record, 0, [], acked, false, false, false, 0, [], 0, 0, false, false, false, []⟩

/-- A part whose table of stripes lists key 0 twice: a stripe with no record, whose member 1 is acknowledged, before one of record 0. -/
def State.keyListedTwice : State :=
  State.reset.zn fun z => { z with stripes := [(0, .filling none 2), (0, .filling (some 0) 0)] }

/-- The members acknowledged of the stripe that key 0 finds. -/
def ackedOf : Host.Outcome State Fault Refusal → Option Nat
  | .next t => (Tab.find t.zne.stripes 0).map (·.acked)
  | _ => none

theorem State.keyListedTwice_found : State.keyListedTwice.zne.stripes.find? (fun e => e.2.record = some (0 : Fin 6400).val) =
    some (0, Stripe.filling (some 0) 0) := by
  decide +kernel

/-- The acknowledgement of member 0's entry of record 0 writes the set of the record's stripe. -/
theorem State.keyListedTwice_acked : ackedOf (exec (.huskSliceEntryAck 0 0) State.keyListedTwice) = some 1 := by
  decide +kernel

/-- Refutes O33: of the two stripes under one key in `State.keyListedTwice`, the one the key finds takes the acknowledged members of the
other, and not its own with member 0 added. -/
theorem not_writeDataPath : ¬ Obligations.write_data_path := by
  unfold Obligations.write_data_path
  intro h
  obtain ⟨-, -, hentry, -⟩ := h
  have hnext := hentry 0 0 0 (.filling (some 0) 0) State.keyListedTwice State.keyListedTwice_found rfl (by decide) (by decide)
  have hacked := (congrArg ackedOf hnext).symm.trans State.keyListedTwice_acked
  exact absurd hacked (by decide +kernel)

end Sys2Proof.Machine
end

section
/-! PROOFS. Operations of dies: dispatch, completion, suspension and lateness (R98 to R101, R113, R114, R120, R210). -/

namespace Sys2Proof

open Machine

namespace Machine

/-! ### Dispatch -/

section
variable {s : State} {d : DieId} {o : DieOp} (hfree : (s.die d.val).active = none) (hresume : s.resumeDue d.val = false)
  (hpower : s.power.loss = none) (hpost : s.mayPost d.val = true)
include hfree hresume hpower hpost

theorem State.fillPod_held (hheld : s.heldProgram (s.die d.val) = some o) : s.fillPod d.val = s.dispatchOp d.val o := by
  unfold State.fillPod
  simp [hfree, hresume, hpower, hpost, hheld]

theorem State.fillPod_first (hheld : s.heldProgram (s.die d.val) = none) (hburst : s.burstRead (s.die d.val) = none)
    (hfirst : s.firstAdmitted (s.die d.val) [1, 2, 3, 4, 5] = some o) : s.fillPod d.val = s.dispatchOp d.val o := by
  unfold State.fillPod
  simp [hfree, hresume, hpower, hpost, hheld, hburst, hfirst]

end

/-- A die that is asked to suspend has the request in its active pod. -/
theorem State.requestSuspend_asked {s : State} {d : Nat} {p : Pod} (h : ((s.requestSuspend d).die d).active = some p) : p.suspReq = true := by
  rw [State.requestSuspend, State.die_modDie_self, Option.map_eq_some_iff] at h
  obtain ⟨q, -, rfl⟩ := h
  split
  · assumption
  · rfl

end Machine

/-- Settles O34. -/
theorem operationsOfDies : Obligations.operations_of_dies := by
  unfold Obligations.operations_of_dies
  refine ⟨⟨fun d o s hfree hresume hpower hpost hheld => congrArg Host.Outcome.next (State.fillPod_held hfree hresume hpower hpost hheld),
    fun d o s hfree hresume hpower hpost hheld hburst hfirst => congrArg Host.Outcome.next
      (State.fillPod_first hfree hresume hpower hpost hheld hburst hfirst), fun d zeros x s hx => ?done, fun d p s hp hheld => ?hold,
    fun d o os s hleft hcan => ?minimum, fun d s hsuspect hdue => ?suspect, fun d s hpop hhealth => exec_diecmdRetire.trans (if_pos ⟨hpop, hhealth⟩),
    fun d s hpop hhealth => exec_diecmdFail.trans (if_pos ⟨hpop, hhealth⟩), fun d s hno => exec_diecmdRetire.trans (if_neg fun h => ?retire),
    fun d s hno => exec_diecmdFail.trans (if_neg fun h => ?fail)⟩, fun d p s hp hdirect hreq hlate hdue hkind => ?lateWrite,
    fun d p s hp hdirect hreq hlate hdue hkind => ?lateRead, fun d p s hp hdirect hreq hlate hdue => ?lateSuspend,
    fun d p s hp hdirect hreq hlate => ?known, fun d p s hp habort hdirect hdue => ?hard, fun d p s hp habort hdirect hearly hreq => ?early,
    fun d p s hp habort hcounted hdue => ?abort, fun d p s hp hcounted => ?counted⟩
  case done =>
    intro v u w
    rw [exec_dieOpDone, execDieOpDone, hx]
    rfl
  case hold =>
    rw [exec_suspholdExpiry, execSuspholdExpiry]
    exact if_pos ⟨by rw [hp]; rfl, hheld⟩
  case minimum =>
    rw [exec_minimumRunTimeElapsed, execMinimumRunTimeElapsed, hleft]
    exact ⟨_, congrArg Host.Outcome.next (if_pos hcan), fun p hp => State.requestSuspend_asked hp, rfl, rfl, rfl⟩
  case suspect =>
    rw [exec_suspectPeriodExpiry, execSuspectPeriodExpiry]
    exact ⟨_, if_pos ⟨hsuspect, hdue⟩, s.fld_setFld_self _ _ (show 0 + 2 ≤ 64 by decide), rfl, rfl⟩
  case retire => exact hno.elim (ne_false_of_eq_true h.1) fun h' => Nat.not_lt_of_le h' h.2
  case fail => exact hno.elim (ne_false_of_eq_true h.1) fun h' => Nat.not_lt_of_le h' h.2
  case lateWrite =>
    rw [exec_watchdogExpiry, execWatchdogExpiry, hp]
    dsimp only
    rw [if_neg (ne_true_of_eq_false hdirect), if_neg (by simp [hreq]), if_pos ⟨hlate, hdue⟩, if_neg hkind]
  case lateRead =>
    rw [exec_watchdogExpiry, execWatchdogExpiry, hp]
    dsimp only
    rw [if_neg (ne_true_of_eq_false hdirect), if_neg (by simp [hreq]), if_pos ⟨hlate, hdue⟩, if_pos hkind]
  case lateSuspend =>
    rw [exec_watchdogExpiry, execWatchdogExpiry, hp]
    dsimp only
    rw [if_neg (ne_true_of_eq_false hdirect), if_pos ⟨hreq, hlate, hdue⟩]
  case known =>
    rw [exec_watchdogExpiry, execWatchdogExpiry, hp]
    dsimp only
    rw [if_neg (ne_true_of_eq_false hdirect), if_neg (by simp [hreq]), if_neg (by simp [hlate])]
  case hard =>
    rw [exec_hardLimitExpiry, execHardLimitExpiry, hp]
    dsimp only
    rw [if_neg (by simp [habort, hdirect]), if_pos (.inl hdue)]
  case early =>
    rw [exec_hardLimitExpiry, execHardLimitExpiry, hp]
    dsimp only
    rw [if_neg (by simp [habort, hdirect]), if_neg (by simp [hreq, Nat.not_le_of_lt hearly])]
  case abort =>
    rw [exec_abortDoneTimeout, execAbortDoneTimeout, hp]
    dsimp only
    rw [if_pos ⟨habort, hcounted, hdue⟩]
  case counted =>
    rw [exec_abortDoneTimeout, execAbortDoneTimeout, hp]
    dsimp only
    rw [if_neg (by simp [hcounted])]

end Sys2Proof
end

section
/-! PROOFS. Write Zeroes of a zone (R177, R183) waits until the erased stage of its rank set covers its blocks: O36 has it complete with
the first check it fails whether the stage covers them or not. -/

namespace Sys2Proof.Machine

/-- An admitted Write Zeroes of one block of zone 0 of namespace 1. -/
def Slot.writeZeroes : Slot where
  fn := 0
  qid := 1
  ten := 0
  sqe := ⟨0x08, 0, 7, 1, 0, 0, 0, 0, 0, 0, []⟩
  at_ := 0
  urgent := false
  st := .admitted
  zmi := some 0
  ns := 1
  slba := 0
  nlb := 1
  taken := []
  bufs := []
  blocks := []
  err := none
  thru := false
  started := false
  order := 0
  fused := none
  lack := none
  cursor := 0
  silent := false
  hard := []
  bad := []
  zst := none

/-- A part with buffers to spare and no erased stage, whose zone 0 is Read Only. -/
def State.stageless : State :=
  ((State.reset.setFld F.ZNE_DIRTYCFG_EFF 1).zn fun z => { z with zones := [(0, { Zone.unused with zs := .readOnly })] }).hf fun h =>
    { h with slots := [(0, Slot.writeZeroes)] }

theorem State.stageless_refuses : State.stageless.isConv 1 = false ∧ State.stageless.zoneBusy 0 0 0 = false ∧
    1 + State.stageless.fld F.ZNE_DIRTY_CUR ≤ State.stageless.effBufs ∧
    State.stageless.writeCheck 0 1 0 false = some .zoneIsReadOnly := by
  decide +kernel

/-- The command slots that an answer leaves in use. -/
def slotsLeft : Host.Outcome State Fault Refusal → Nat
  | .next t => t.hif.slots.length
  | _ => 0

theorem State.stageless_waits : slotsLeft (exec (.writeZeroes 0) State.stageless) = 1 := by
  decide +kernel

theorem State.stageless_completed : slotsLeft (.next (State.stageless.complete 0 .zoneIsReadOnly)) = 0 := by
  decide +kernel

/-- Refutes O36: in `State.stageless`, where the stage covers nothing, a Write Zeroes of a Read Only zone waits and does not complete. -/
theorem not_writesAndAppends : ¬ Obligations.writes_and_appends := by
  unfold Obligations.writes_and_appends
  intro h
  obtain ⟨hrefused, -⟩ := h
  obtain ⟨hconv, hbusy, hroom, hcheck⟩ := State.stageless_refuses
  obtain ⟨-, -, hzeroes⟩ := hrefused 0 Slot.writeZeroes 0 .zoneIsReadOnly State.stageless hconv rfl hbusy
  have hnext := hzeroes ⟨rfl, rfl⟩ hroom hcheck
  have hslots := (congrArg slotsLeft hnext).symm.trans State.stageless_waits
  exact absurd (State.stageless_completed.symm.trans hslots) (by decide)

end Sys2Proof.Machine
end

section
/-! PROOFS. Read, Compare, Verify, reclaim unit handles and Report Zones (R83, R92 to R95, R105, R189, R190, R193, R275). -/

namespace Sys2Proof

open Machine

namespace Machine

/-! ### Reads -/

section
variable {s : State} {i : Nat} {x : Slot} {bad : List Nat} (herr : x.err = none)
include herr

theorem State.startRead_held (hheld : s.readHeld i x = true) : s.startRead i x bad = s := by
  unfold State.startRead
  rw [herr]
  exact if_pos hheld

theorem State.startRead_zoned (hfree : s.readHeld i x = false) (hzoned : s.isConv x.ns = false) :
    s.startRead i x bad =
      let u := s.modSlot i fun x => { x with st := .running, started := true, bad := bad }
      let r := u.lookupAll i x.ns bad ((List.range x.nlb).map fun k => (x.slba + k, x.slba + k))
      (r.2.issueReads (if x.urgent then 1 else 2) x.ten (.host i) r.1).settle i := by
  have hu : (s.modSlot i fun x => { x with st := .running, started := true, bad := bad }).isConv x.ns = false := hzoned
  have hmap : ((List.range x.nlb).map (x.slba + ·)).map (fun l => (l, l)) = (List.range x.nlb).map fun k => (x.slba + k, x.slba + k) :=
    List.map_map ..
  unfold State.startRead
  rw [herr]
  dsimp only
  rw [if_neg (ne_true_of_eq_false hfree), hu]
  simp only [Bool.false_eq_true, if_false, List.foldl_nil, List.contains_nil, Bool.not_false, List.filter_true, hmap]

end

/-! ### Reports -/

theorem ofLe_take_leBytes (n v : Nat) (l : List Byte) : ofLe ((leBytes n v ++ l).take n) = v % 256 ^ n := by
  rw [List.take_append_of_le_length (leBytes_length n v).ge, List.take_of_length_le (leBytes_length n v).le, ofLe_leBytes]

/-- The descriptor of a reclaim unit handle with blocks left in its unit (R190). -/
def ruhDesc (left : Nat → Nat) (h : Nat) : List Byte :=
  leBytes 2 h ++ leBytes 2 h ++ leBytes 4 0 ++ leBytes 8 (left h) ++ leBytes 16 0

theorem ruhDesc_length (left : Nat → Nat) (h : Nat) : (ruhDesc left h).length = 32 := by simp [ruhDesc]

theorem drop_flatMap_range {α : Type} {f : Nat → List α} {m : Nat} (hf : ∀ k, (f k).length = m) {n h : Nat} (hh : h < n) :
    ∃ l, ((List.range n).flatMap f).drop (m * h) = f h ++ l := by
  obtain ⟨k, rfl⟩ := Nat.exists_eq_add_of_lt hh
  have hlen : ((List.range h).flatMap f).length = m * h := by simp [hf, Nat.mul_comm]
  rw [Nat.add_assoc, List.range_add, List.flatMap_append, List.drop_left' hlen, List.range_succ_eq_map, List.map_cons, List.flatMap_cons]
  exact ⟨_, rfl⟩

end Machine

/-- Settles O37. -/
theorem readsAndReports : Obligations.reads_and_reports := by
  unfold Obligations.reads_and_reports
  refine ⟨⟨fun i bad x s herr hheld => ?held, fun i bad x s herr hfree hzoned => ?zoned, fun i bad x w s hx hw => ?fused⟩,
    fun i x c s ⟨hx, herr⟩ hc => ?send, fun i x c s ⟨hx, herr⟩ hc hmo => ?receive, fun i x z n s ⟨hx, herr⟩ hz hn => ?report⟩
  case held =>
    have hstay := State.startRead_held (bad := bad) herr hheld
    rw [exec_read, execRead, exec_compare, execCompare, exec_verify, execVerify]
    refine ⟨fun hx => ?_, fun hx hfused => ?_, fun hx => ?_⟩
    · rw [hx]
      exact congrArg Host.Outcome.next hstay
    · rw [hx]
      exact (if_neg (by rw [hfused]; decide)).trans (congrArg Host.Outcome.next hstay)
    · rw [hx]
      exact congrArg Host.Outcome.next hstay
  case zoned =>
    have hstart := State.startRead_zoned (bad := bad) herr hfree hzoned
    rw [exec_read, execRead, exec_compare, execCompare, exec_verify, execVerify]
    refine ⟨fun hx => ?_, fun hx hfused => ?_, fun hx => ?_⟩
    · rw [hx]
      exact congrArg Host.Outcome.next hstart
    · rw [hx]
      exact (if_neg (by rw [hfused]; decide)).trans (congrArg Host.Outcome.next hstart)
    · rw [hx]
      exact congrArg Host.Outcome.next hstart
  case fused =>
    rw [exec_fusedCompareWrite, execFusedCompareWrite, hx]
    dsimp only
    rw [hw]
    refine ⟨fun hconv hlen hslba hnlb => if_neg ?_, fun hbad => if_pos hbad⟩
    simp [hconv, Nat.not_lt_of_le hlen, hslba, hnlb]
  case send =>
    intro hs
    rw [exec_ioManagementSend, execIoManagementSend, hx]
    dsimp only
    rw [herr, hc]
    refine ⟨fun hmo hall => if_neg ?_, fun hbad => if_pos (hbad.imp_right fun ⟨h, hh, hlt⟩ => ?_)⟩
    · rintro (hne | hany)
      · exact hne hmo
      · obtain ⟨h, hh, hge⟩ := List.any_eq_true.mp hany
        exact Nat.not_le_of_lt (hall h hh) (of_decide_eq_true hge)
    · exact List.any_eq_true.mpr ⟨h, hh, decide_eq_true hlt⟩
  case receive =>
    rw [exec_ioManagementReceive, execIoManagementReceive, hx]
    dsimp only
    rw [herr, hc]
    refine ⟨leBytes 14 0 ++ leBytes 2 c.nruh ++ (List.range c.nruh).flatMap (ruhDesc _), if_neg (not_not_intro hmo), ?_, ?_, fun h hh => ?_⟩
    · simp only [List.length_append, leBytes_length, List.length_flatMap, ruhDesc_length, List.map_const', List.length_range,
        List.sum_replicate, smul_eq_mul]
      omega
    · rw [List.append_assoc, List.drop_left' (leBytes_length 14 0)]
      exact ofLe_take_leBytes 2 _ _
    · obtain ⟨l, hl⟩ := drop_flatMap_range (ruhDesc_length _) hh
      rw [← List.drop_drop, List.drop_left' (by simp), hl, ruhDesc]
      simp only [List.append_assoc]
      exact ofLe_take_leBytes 2 _ _
  case report =>
    intro cdw zs room
    rw [exec_zoneManagementReceive, execZoneManagementReceive, hx]
    dsimp only
    rw [herr, hz, hn]
    have hgood (h0 : cdw % 256 = 0) (h7 : bits cdw 8 8 ≤ 7) : ¬ (cdw % 256 ≠ 0 ∨ 7 < bits cdw 8 8) := by omega
    refine ⟨fun h0 h7 ⟨k, hzk, hk, hbusy⟩ => (if_neg (hgood h0 h7)).trans (if_pos ?_),
      fun h0 h7 hfree => (if_neg (hgood h0 h7)).trans (if_neg fun hany => ?_), fun hbad => if_pos hbad⟩
    · refine List.any_eq_true.mpr ⟨k, List.mem_map.mpr ⟨k - z, List.mem_range.mpr (by omega), by omega⟩, hbusy⟩
    · obtain ⟨k, hk, hbusy⟩ := List.any_eq_true.mp hany
      obtain ⟨j, hj, rfl⟩ := List.mem_map.mp hk
      have := List.mem_range.mp hj
      exact ne_true_of_eq_false (hfree (z + j) (by omega) (by omega)) hbusy

end Sys2Proof
end

section
/-! PROOFS. What the release of a zone leaves of the zones' table: the keys of its namespace, its stripes, buffers and blocks are
other parts of the state (R54, R55, R305, R308). -/

namespace Sys2Proof

open Machine

namespace Machine

/-- The table of zones, and the time. -/
def State.zones (s : State) : Tab Zone × Nat := (s.zne.zones, s.now)

theorem State.zone_of_zones {s t : State} (h : t.zones = s.zones) (z : Nat) : t.zone z = s.zone z :=
  congrArg (fun x : Tab Zone × Nat => Tab.getD x.1 z Zone.unused) h

theorem State.zones_foldl {α : Type} {f : State → α → State} (h : ∀ s a, (f s a).zones = s.zones) (s : State) (xs : List α) :
    (xs.foldl f s).zones = s.zones := by
  induction xs generalizing s with
  | nil => rfl
  | cons x xs ih => rw [List.foldl_cons, ih, h]

theorem State.zones_of_hostSide {s t : State} (h : t.hostSide = s.hostSide) : t.zones = s.zones := congrArg (·.2.1) h

theorem State.zones_post (s : State) (src id : Nat) (items : List (Nat × Nat)) (ten : Nat) : (s.post src id items ten).zones = s.zones := by
  obtain ⟨-, hzne, -⟩ := s.post_keeps src id items ten
  rw [State.zones, hzne, State.now_post, State.zones]

theorem State.zones_setFld (s : State) (f : Fld) (v : Nat) : (s.setFld f v).zones = s.zones := rfl

theorem State.zones_sc (s : State) (f : Sec → Sec) : (s.sc f).zones = s.zones := rfl

/-! ### Keys (R305, R308) -/

theorem State.zones_sgWrite (s : State) (r n : Nat) : (s.sgWrite r n).zones = s.zones := by
  induction n generalizing s with
  | zero => rfl
  | succ n ih =>
    rw [State.sgWrite, ih]
    split <;> rfl

theorem State.zones_cfgWrite (s : State) (mirrored : Bool) : (s.cfgWrite mirrored).zones = s.zones := by
  unfold State.cfgWrite
  split
  · exact (State.zones_sgWrite _ _ _).trans (State.zones_sgWrite _ _ _)
  · exact State.zones_sgWrite _ _ _

theorem State.zones_drawMedia (s : State) (n : Nat) : (s.drawMedia n).2.zones = s.zones := by
  induction n generalizing s with
  | zero => rfl
  | succ n ih =>
    rw [State.drawMedia]
    split
    · exact ih _
    · rfl

theorem State.zones_genKey (s : State) (k kind ten nsidx gen : Nat) : (s.genKey k kind ten nsidx gen).zones = s.zones := by
  unfold State.genKey
  by_cases hk : kind = 1
  · simp only [if_pos hk]
    exact s.zones_drawMedia 8
  · simp only [if_neg hk]
    rfl

theorem State.zones_wrapUnder (s : State) (slot kek : Nat) : (s.wrapUnder slot kek).zones = s.zones := by
  have hcounter : (s.useCounter kek).2.zones = s.zones := by
    unfold State.useCounter
    dsimp only
    rw [State.zones_sc]
    split
    · exact State.zones_cfgWrite _ _
    · rfl
  exact hcounter

theorem State.zones_wrapOthers (s : State) (k succ : Nat) (xs : List Nat) :
    (xs.foldl (fun s x => if x = k then s else s.wrapUnder x succ) s).zones = s.zones := by
  refine State.zones_foldl (fun t x => ?_) s xs
  split
  · rfl
  · exact State.zones_wrapUnder _ _ _

theorem State.zones_zeroSlot (s : State) (k : Nat) : (s.zeroSlot k).zones = s.zones := rfl

theorem State.zones_eraseRecord (s : State) (k : Nat) : (s.eraseRecord k).zones = s.zones := rfl

theorem State.zones_rotateKek (s : State) (kek : Nat) : (s.rotateKek kek).zones = s.zones := by
  unfold State.rotateKek State.secPost
  simp only [apply_ite State.zones, State.zones_post, State.zones_sc, State.zones_eraseRecord, State.zones_zeroSlot, State.zones_wrapUnder,
    State.zones_wrapOthers, State.zones_genKey, ite_self]

theorem State.zones_wrapRecord (s : State) (slot kek : Nat) : (s.wrapRecord slot kek).zones = s.zones := by
  unfold State.wrapRecord State.rotateDue
  split
  · exact (State.zones_rotateKek _ _).trans (State.zones_wrapUnder _ _ _)
  · exact State.zones_wrapUnder _ _ _

theorem State.zones_retireKey (s : State) (n : Nat) : (s.retireKey n).zones = s.zones := State.zones_post _ _ _ _ _

theorem State.zones_setCur (s : State) (n slot gen ten : Nat) : (s.setCur n slot gen ten).zones = s.zones := rfl

theorem State.zones_rolled (s : State) (n gen : Nat) :
    (s.zn fun z => { z with conv := Tab.adjust z.conv n fun c => { c with kgen := gen } }).zones = s.zones := rfl

theorem State.zones_tryRoll (s : State) (n : Nat) : (s.tryRoll n).zones = s.zones := by
  unfold State.tryRoll
  split
  · rfl
  dsimp only
  split
  · split
    · rfl
    · exact State.zones_post _ _ _ _ _
  next k _ =>
    have hretire (u : State) : (if u.fld (F.ZNE_KGREF_OLDREF n) = 0 ∧ u.isConv n = false then u.retireKey n else u).zones = u.zones := by
      split
      · exact State.zones_retireKey _ _
      · rfl
    rw [hretire, State.znePost, State.zones_post, apply_ite State.zones, State.zones_sc]
    simp only [State.zones_setFld, ite_self, State.zones_rolled, State.zones_setCur, State.zones_wrapRecord, State.zones_genKey]

theorem State.zones_unbindGen (s : State) (z : Nat) : (s.unbindGen z).zones = s.zones := by
  unfold State.unbindGen State.retireOld
  dsimp only
  split
  · rfl
  split
  · split
    · exact (State.zones_tryRoll _ _).trans (State.zones_retireKey _ _)
    · rfl
  · rfl

/-! ### What a zone holds -/

theorem State.zones_releaseAll (s : State) (bs : List Nat) : (s.releaseAll bs).zones = s.zones := State.zones_of_hostSide (s.hostSide_releaseAll bs)

theorem State.zones_abandonJobs (s : State) (z : Nat) : (s.abandonJobs z).zones = s.zones := State.zones_releaseAll _ _

theorem State.zones_huskWrite (s : State) (r : Nat) (f : HuskRec → HuskRec) : (s.huskWrite r f).zones = s.zones :=
  (State.zones_sgWrite _ _ _).trans (State.zones_sgWrite _ _ _)

theorem State.zones_dropStripe (s : State) (k : Nat) : (s.dropStripe k).zones = s.zones := by
  unfold State.dropStripe
  split
  · rfl
  · dsimp only
    split
    · exact State.zones_huskWrite _ _ _
    · rfl

theorem State.zones_releaseBuf (s : State) (i : Nat) : (s.releaseBuf i).zones = s.zones := by
  unfold State.releaseBuf
  split <;> rfl

theorem State.zones_clearLost (s : State) (z : Nat) : (s.clearLost z).zones = s.zones := by
  unfold State.clearLost
  dsimp only
  split <;> rfl

theorem State.zone_modZone_self (s : State) (z : Nat) (f : Zone → Zone) : (s.modZone z f).zone z = f (s.zone z) := Tab.getD_set_self ..

theorem State.zone_modZone_ne (s : State) {z k : Nat} (f : Zone → Zone) (h : k ≠ z) : (s.modZone z f).zone k = s.zone k :=
  Tab.getD_set_ne _ _ _ h

theorem State.zones_releaseBufs (s : State) (is : List Nat) : (s.releaseBufs is).zones = s.zones :=
  State.zones_foldl (fun s i => s.zones_releaseBuf i) s is

theorem State.zs_modZone (s : State) (z : Nat) {f : Zone → Zone} (h : ∀ x, (f x).zs = x.zs) : ((s.modZone z f).zone z).zs = (s.zone z).zs := by
  rw [State.zone_modZone_self, h]

theorem State.zones_zn (s : State) {f : Zne → Zne} (h : ∀ z, (f z).zones = z.zones) : (s.zn f).zones = s.zones :=
  congrArg (·, s.now) (h s.zne)

theorem State.zones_hk (s : State) (f : Husk → Husk) : (s.hk f).zones = s.zones := rfl

/-- A zone that is released keeps its state. -/
theorem State.releaseZone_zs (s : State) (z : Nat) : ((s.releaseZone z).zone z).zs = (s.zone z).zs := by
  unfold State.releaseZone
  extract_lets body s1 s2 s3 s4 s5 s6
  have h1 : s1.zones = s.zones := State.zones_abandonJobs _ _
  have h2 : s2.zones = s1.zones := State.zones_foldl (fun s k => s.zones_dropStripe k) _ _
  have h3 : s3.zones = s2.zones := State.zones_releaseBufs _ _
  have h4 : s4.zones = s3.zones := State.zones_zn _ fun _ => rfl
  have h5 : s5.zones = s4.zones := (State.zones_hk _ _).trans (State.zones_clearLost _ _)
  have h6 : (s6.zone z).zs = (s5.zone z).zs := State.zs_modZone s5 z fun _ => rfl
  clear_value s6 s5 s4 s3 s2 s1
  have hend : (s6.releaseAll body).reapStage.zones = s6.zones :=
    (State.zones_of_hostSide (State.hostSide_reapStage _)).trans (State.zones_releaseAll _ _)
  rw [State.zone_of_zones hend, h6, State.zone_of_zones (h5.trans (h4.trans (h3.trans (h2.trans h1))))]

end Machine

end Sys2Proof
end

section
/-! PROOFS. Zone management of one zone (R54, R55, R81, R82). -/

namespace Sys2Proof

open Machine

namespace Machine

theorem State.slot_modSlot_self {s : State} {i : Nat} {x : Slot} (f : Slot → Slot) (h : s.slot i = some x) :
    (s.modSlot i f).slot i = some (f x) := find_adjust_self f h

theorem State.zoneCmd_zsa {s : State} {i act : Nat} {x : Slot} (h : s.zoneCmd i act = some x) : x.zsa = act := by
  unfold State.zoneCmd at h
  obtain ⟨y, -, hy⟩ := Option.bind_eq_some_iff.mp h
  split at hy
  · cases hy
    assumption
  · cases hy

/-! ### A command that names one zone (R81) -/

section
variable {s : State} {i z : Nat} {x : Slot} (herr : x.err = none) (hall : x.selectAll = false) (hz : x.zmi = some z) (hcur : x.cursor ≤ z)
include herr hall hz hcur

theorem State.zoneSend_one : s.zoneSend i x = s.actEach i x [z] := by
  have htargets : (s.actTargets x).filter (fun z => decide (x.cursor ≤ z)) = [z] := by
    rw [State.actTargets, if_neg (ne_true_of_eq_false hall), hz]
    simp [hcur]
  unfold State.zoneSend
  rw [herr]
  dsimp only
  rw [if_neg (by simp [hz]), htargets]

theorem State.zoneSend_acts (hgo : s.actWaits i x z = false) : s.zoneSend i x = s.zoneDone i z x.zsa := by
  rw [State.zoneSend_one herr hall hz hcur, State.actEach, if_neg (ne_true_of_eq_false hgo)]
  rfl

theorem State.zoneSend_waits (hwait : s.actWaits i x z = true) (hfinish : x.zsa ≠ 2) :
    s.zoneSend i x = s.modSlot i fun y => { y with st := .waiting, started := true, cursor := z } := by
  rw [State.zoneSend_one herr hall hz hcur, State.actEach, if_pos hwait]
  exact if_neg hfinish

end

theorem State.zoneDone_completes {s : State} {i z a : Nat} {y : Slot} (hy : (s.zoneAct z a).2.slot i = some y) (hzst : y.zst = none) :
    s.zoneDone i z a = ((s.zoneAct z a).2.modSlot i fun y => { y with
      zst := y.zst.or (if (s.zoneAct z a).1 = .success then none else some (s.zoneAct z a).1) }).complete i (s.zoneAct z a).1 := by
  unfold State.zoneDone
  dsimp only
  rw [State.slot_modSlot_self _ hy]
  dsimp only [Option.bind]
  rw [hzst, Option.none_or]
  by_cases h : (s.zoneAct z a).1 = .success
  · rw [if_pos h, h]
    rfl
  · rw [if_neg h]
    rfl

/-! ### The transitions of R54 -/

theorem zone_reported_of {x : Zone} {v : ZState} (h : x.zs = v) (hv : v ≠ .pending) : x.reported = v := by
  rw [Zone.reported, if_neg (by rw [h]; exact hv), h]

theorem State.zones_releaseCounts (s : State) (x : Zone) : (s.releaseCounts x).zones = s.zones := by
  unfold State.releaseCounts
  dsimp only
  split <;> split <;> rfl

section
variable {s : State} {z : Nat}

theorem State.zoneAct_of_live {a : Nat} (h : (s.zone z).zs ≠ .offline) : s.zoneAct z a = match a with
    | 1 => if (s.zone z).isOpen then (.success, s.closeZone z) else (.invalidZoneTransition, s)
    | 2 =>
      if (s.zone z).zs = .empty then
        if s.genAllows (s.zone z).ns then (.success, (s.bindGen z).modZone z fun z => { z with zs := .full, wp := 0 })
        else (.keyRotationPending, s)
      else if (s.zone z).active then (.success, s.finishActive z false)
      else (.invalidZoneTransition, s)
    | 3 => s.openZone z
    | 4 =>
      if (s.zone z).zs = .readOnly then (.zoneIsReadOnly, s)
      else if (s.zone z).active ∨ (s.zone z).zs = .full ∨ (s.zone z).zs = .empty then (.success, s.resetZone z)
      else (.invalidZoneTransition, s)
    | 5 => if (s.zone z).zs = .readOnly then (.success, s.offlineZone z) else (.invalidZoneTransition, s)
    | _ => (.invalidField, s) := if_neg fun h' => h h'.1

theorem State.zoneAct_close (hopen : (s.zone z).zs = .iopen ∨ (s.zone z).zs = .eopen) :
    s.zoneAct z 1 = (.success, s.closeZone z) := by
  have hisOpen : (s.zone z).isOpen = true := by
    rcases hopen with h | h <;> rw [Zone.isOpen, zone_reported_of h (by decide)] <;> decide
  rw [State.zoneAct_of_live (by rcases hopen with h | h <;> rw [h] <;> decide)]
  exact if_pos hisOpen

theorem State.zoneAct_notOpen {v : ZState} (hv : (s.zone z).zs = v) (hoff : v ≠ .offline) (hpend : v ≠ .pending) (hopen : v ∉ [.iopen, .eopen]) :
    s.zoneAct z 1 = (.invalidZoneTransition, s) := by
  have hclosed : ¬ (s.zone z).isOpen = true := by
    rw [Zone.isOpen, zone_reported_of hv hpend]
    exact fun h => hopen (of_decide_eq_true h)
  rw [State.zoneAct_of_live (by rw [hv]; exact hoff)]
  exact if_neg hclosed

theorem State.zoneAct_ended {v : ZState} (hv : (s.zone z).zs = v) (hfixed : v = .full ∨ v = .readOnly) :
    s.zoneAct z 1 = (.invalidZoneTransition, s) ∧ s.zoneAct z 2 = (.invalidZoneTransition, s) ∧
      s.zoneAct z 3 = (.invalidZoneTransition, s) := by
  have hlive : v ≠ .offline ∧ v ≠ .pending ∧ v ∉ [ZState.iopen, .eopen] ∧ v ≠ .empty ∧ v ∉ [ZState.iopen, .eopen, .closed, .pending] := by
    rcases hfixed with rfl | rfl <;> decide
  obtain ⟨hoff, hpend, hopen, hempty, hactive⟩ := hlive
  refine ⟨State.zoneAct_notOpen hv hoff hpend hopen, ?_, ?_⟩
  · rw [State.zoneAct_of_live (by rw [hv]; exact hoff)]
    refine (if_neg (by rw [hv]; exact hempty)).trans (if_neg ?_)
    rw [Zone.active, hv]
    exact fun h => hactive (of_decide_eq_true h)
  · rw [State.zoneAct_of_live (by rw [hv]; exact hoff)]
    show s.openZone z = _
    unfold State.openZone
    dsimp only
    rw [zone_reported_of hv hpend]
    rcases hfixed with rfl | rfl <;> rfl

theorem State.zoneAct_open (hopen : (s.zone z).zs = .iopen) : s.zoneAct z 3 =
    (.success, s.modZone z fun z => if z.zs = .pending then { z with rstate := .eopen } else { z with zs := .eopen }) := by
  rw [State.zoneAct_of_live (by rw [hopen]; decide)]
  show s.openZone z = _
  unfold State.openZone
  dsimp only
  rw [zone_reported_of hopen (by decide)]

/-- The reset of a zone with a body reserved for it leaves it Empty (R54). -/
theorem State.resetZone_reserved (hused : (s.zone z).zs ≠ .empty) (hresv : (s.zone z).resv = true) :
    ∃ u : State, s.resetZone z = u.modZone z fun x => { x with zs := .empty, wp := 0 } := by
  unfold State.resetZone
  dsimp only
  rw [if_neg hused, if_pos hresv]
  exact ⟨_, rfl⟩

theorem State.offlineZone_zs : ((s.offlineZone z).zone z).zs = .offline := by
  unfold State.offlineZone
  extract_lets x s1 s2 s3
  have h2 : (s2.zone z).zs = .offline := congrArg Zone.zs (State.zone_modZone_self s1 z _)
  have h3 : (s3.zone z).zs = .offline := (State.releaseZone_zs s2 z).trans h2
  clear_value s3
  split
  · exact h3
  · rw [State.zone_of_zones (State.zones_unbindGen _ _), h3]

end

end Machine

/-- Settles O38. -/
theorem zoneCommands : Obligations.zone_commands := by
  unfold Obligations.zone_commands
  refine ⟨fun i x z s herr hall hz hcur hgo => ?acts, fun i z a y s hy hzst => State.zoneDone_completes hy hzst,
    fun i x z s herr hall hz hwait => ?waits, fun z s hfull hresv => ?reset, fun z s hro => ?offline, fun z a s hoff ha => if_pos ⟨hoff, ha⟩,
    fun z s hro => ?notReadOnly, fun z s hro => ?readOnly, fun z s hfull => State.zoneAct_ended hfull (.inl rfl),
    fun z s hempty => State.zoneAct_notOpen hempty (by decide) (by decide) (by decide), fun z s hopen => ?close, fun z s hopen => ?opened,
    fun z s hempty hgen => ?finish⟩
  case acts =>
    have hacts := State.zoneSend_acts herr hall hz hcur hgo
    rw [exec_zoneOpen, execZoneOpen, exec_zoneClose, execZoneClose, exec_zoneFinish, execZoneFinish, exec_zoneReset, execZoneReset,
      exec_zoneOffline, execZoneOffline, exec_zoneMgmtEffect, execZoneMgmtEffect]
    have hcmd {act : Nat} (hx : s.zoneCmd i.val act = some x) : s.zoneSend i.val x = s.zoneDone i.val z act :=
      hacts.trans (congrArg _ (State.zoneCmd_zsa hx))
    refine ⟨fun hx => ?_, fun hx => ?_, fun hx => ?_, fun hx => ?_, fun hx => ?_, fun hx hst => ?_⟩
    iterate 5
      · rw [hx]
        exact congrArg Host.Outcome.next (hcmd hx)
    · rw [hx]
      exact (if_pos hst).trans (congrArg Host.Outcome.next hacts)
  case waits =>
    rw [exec_zoneReset, execZoneReset, exec_zoneClose, execZoneClose]
    refine ⟨fun hx hcur => ?_, fun hx hcur => ?_⟩
    iterate 2
      · rw [hx]
        exact congrArg Host.Outcome.next (State.zoneSend_waits herr hall hz hcur hwait (by rw [State.zoneCmd_zsa hx]; decide))
  case reset =>
    have hused : ¬ (s.zone z).zs = .empty := by rw [hfull]; decide
    have hact : s.zoneAct z 4 = (.success, s.resetZone z) := (State.zoneAct_of_live (by rw [hfull]; decide)).trans
      ((if_neg (by rw [hfull]; decide)).trans (if_pos (.inr (.inl hfull))))
    obtain ⟨u, hu⟩ := State.resetZone_reserved hused hresv
    rw [hact, hu, State.zone_modZone_self]
    exact ⟨rfl, rfl, rfl⟩
  case offline =>
    have hact : s.zoneAct z 5 = (.success, s.offlineZone z) := (State.zoneAct_of_live (by rw [hro]; decide)).trans (if_pos hro)
    rw [hact]
    exact ⟨rfl, State.offlineZone_zs⟩
  case notReadOnly =>
    unfold State.zoneAct
    dsimp only
    rw [if_neg (fun h => h.2 rfl)]
    exact if_neg hro
  case readOnly =>
    obtain ⟨hclose, hfinish, hopen⟩ := State.zoneAct_ended hro (.inr rfl)
    refine ⟨?_, hclose, hfinish, hopen⟩
    rw [State.zoneAct_of_live (by rw [hro]; decide)]
    exact if_pos hro
  case close =>
    have hnot : ¬ (s.zone z).zs = .pending := by rcases hopen with h | h <;> rw [h] <;> decide
    have hself : (s.closeZone z).zone z = { s.zone z with zs := .closed } := (State.zone_modZone_self _ _ _).trans (if_neg hnot)
    rw [State.zoneAct_close hopen]
    dsimp only
    rw [hself]
    exact ⟨rfl, rfl, rfl, fun k hk => State.zone_modZone_ne _ _ hk⟩
  case opened =>
    have hnot : ¬ (s.zone z).zs = .pending := by rw [hopen]; decide
    rw [State.zoneAct_open hopen]
    refine ⟨rfl, ?_, ?_, fun k hk => State.zone_modZone_ne _ _ hk⟩
    · rw [State.zone_modZone_self, if_neg hnot]
    · rw [State.zone_modZone_self, if_neg hnot]
  case finish =>
    have hact : s.zoneAct z 2 = (.success, (s.bindGen z).modZone z fun z => { z with zs := .full, wp := 0 }) :=
      (State.zoneAct_of_live (by rw [hempty]; decide)).trans ((if_pos hempty).trans (if_pos hgen))
    rw [hact]
    exact ⟨rfl, congrArg Zone.zs (State.zone_modZone_self _ _ _), congrArg Zone.wp (State.zone_modZone_self _ _ _)⟩

end Sys2Proof
end

section
/-! PROOFS. Staging, folding and reclaim (R75, R78 to R80, R99, R176, R178, R182). -/

namespace Sys2Proof

open Machine

namespace Machine

/-! ### The journal -/

/-- Memory, the host interface and the cost of a program in tokens. -/
def State.outside (s : State) : List Host.Cell × Hif × Nat := (s.mem, s.hif, s.fld F.ZNE_SCHEDCFG_PGMCOST)

theorem State.mem_of_outside {s t : State} (h : t.outside = s.outside) : t.mem = s.mem := congrArg (·.1) h

theorem State.hif_of_outside {s t : State} (h : t.outside = s.outside) : t.hif = s.hif := congrArg (·.2.1) h

theorem State.outside_foldl {α : Type} {f : State → α → State} (h : ∀ s a, (f s a).outside = s.outside) (s : State) (xs : List α) :
    (xs.foldl f s).outside = s.outside := by
  induction xs generalizing s with
  | nil => rfl
  | cons x xs ih => rw [List.foldl_cons, ih, h]

theorem State.outside_setFld (s : State) {f : Fld} (v : Nat) (h : R.ZNE_SCHEDCFG ≠ f.addr) : (s.setFld f v).outside = s.outside :=
  congrArg (s.mem, s.hif, ·) (s.fld_setFld_ne v h)

theorem State.outside_showMedia (s : State) : s.showMedia.outside = s.outside := by
  unfold State.showMedia
  dsimp only
  rw [State.outside_setFld _ _ (by decide), State.outside_setFld _ _ (by decide), State.outside_setFld _ _ (by decide),
    State.outside_setFld _ _ (by decide)]

theorem State.outside_beginErase (s : State) (b : Nat) (f : EraseFor) : (s.beginErase b f).outside = s.outside := by
  unfold State.beginErase
  dsimp only
  rw [State.outside_showMedia]
  split <;> rfl

theorem State.outside_journalErase (s : State) (rows : List (List Nat)) : (s.journalErase rows).outside = s.outside := by
  unfold State.journalErase
  dsimp only
  split
  · rfl
  split
  · exact State.outside_foldl (fun s b => s.outside_beginErase b .pre) _ _
  · rfl

theorem State.outside_sgWrite (s : State) (r n : Nat) : (s.sgWrite r n).outside = s.outside := by
  induction n generalizing s with
  | zero => rfl
  | succ n ih =>
    rw [State.sgWrite, ih]
    split <;> rfl

theorem State.outside_fresh (s : State) : s.fresh.2.outside = s.outside := rfl

theorem State.outside_nextEpochs (s : State) (n : Nat) : (s.nextEpochs n).2.outside = s.outside := by
  have hreserve : s.reserveBlock.outside = s.outside := by
    unfold State.reserveBlock State.cfgWrite
    split
    · rfl
    · exact (State.outside_sgWrite _ _ _).trans (State.outside_sgWrite _ _ _)
  have hhusk (u : State) (f : Husk → Husk) : (u.hk f).outside = u.outside := rfl
  unfold State.nextEpochs
  dsimp only
  rw [hhusk]
  split
  · exact hreserve
  · rfl

/-- The first row of the journal with a slice left and no erase under way. -/
def State.freeRow (u : State) (rows : List (List Nat)) : Option (List Nat) :=
  rows.find? fun r => decide (u.journalUsed r < u.stageSpb) && r.all fun b => (Tab.find u.zne.erases b).isNone

/-- A state with a journal stripe under its key, and the tokens its programs leave of their rank set. -/
def State.checkpointed (s : State) (k set tok : Nat) (x : Stripe) : State :=
  s.zn fun z => { z with setTok := Tab.set z.setTok set tok, stripes := Tab.set z.stripes k x }

theorem State.checkpointed_stripe (s : State) (k set tok : Nat) (x : Stripe) : Tab.find (s.checkpointed k set tok x).zne.stripes k = some x :=
  Tab.find_set_self _ _ _

theorem State.checkpointed_tokens (s : State) (k set tok : Nat) (x : Stripe) : Tab.find (s.checkpointed k set tok x).zne.setTok set = some tok :=
  Tab.find_set_self _ _ _

theorem State.outside_checkpointed (s : State) (k set tok : Nat) (x : Stripe) : (s.checkpointed k set tok x).outside = s.outside := rfl

/-- The pages of a checkpoint, each a codeword of the stripe. -/
theorem pages_of_pack (ps : List Nat) (f : Nat × Nat → PackCw) (h : ∀ x, (f x).page = some x.1) :
    (ps.zipIdx.map f).filterMap (·.page) = ps := by
  have hpages : (ps.zipIdx.map f).filterMap (·.page) = ps.zipIdx.filterMap (some ∘ Prod.fst) := by
    rw [List.filterMap_map]
    exact congrArg (List.filterMap · _) (funext h)
  rw [hpages, List.filterMap_eq_map, List.zipIdx_map_fst]

end Machine

/-- Settles O39. -/
theorem stagingAndFolding : Obligations.staging_and_folding := by
  unfold Obligations.staging_and_folding
  refine ⟨fun z e s he => ?age, fun n k t s hk hpack => ?fill, fun ns h s => rfl, fun p k a t s hk hpack ha => ?conv, fun p s hnone => ?closed,
    fun z s => ?fold, fun n s => ?reclaim, fun p ps s hleft => ?checkpoint⟩
  case age =>
    rw [exec_stageAgeExpiry, execStageAgeExpiry, he]
    exact ⟨fun hdue => if_pos hdue, fun hearly => if_neg (Nat.not_le_of_lt hearly)⟩
  case fill =>
    have hsome : t.pack.isEmpty = false := List.isEmpty_eq_false_iff.mpr hpack
    rw [exec_stageFillTimeout, execStageFillTimeout, hk]
    exact ⟨fun hdue => if_pos ⟨hsome, hdue⟩, fun hearly => if_neg fun h => Nat.not_le_of_lt hearly h.2⟩
  case conv =>
    have hsome : t.pack.isEmpty = false := List.isEmpty_eq_false_iff.mpr hpack
    unfold State.convAge
    rw [hk]
    dsimp only
    rw [ha]
    exact ⟨fun hdue => if_pos ⟨hsome, hdue⟩, fun hearly => if_neg fun h => Nat.not_le_of_lt hearly h.2⟩
  case closed =>
    unfold State.convAge
    rw [hnone]
  case fold =>
    intro i offs u hbody hfbc hoffs hfold hroom hfree
    rw [exec_foldStart, execFoldStart]
    have hgo : ¬ ((s.zone z.val).body.length ≠ 18 ∨ (s.zone z.val).fbc = true ∨ offs.isEmpty = true ∨ s.foldable z.val i = false ∨
        s.effBufs < s.fld F.ZNE_DIRTY_CUR + offs.length ∨ s.zne.bufs.any (fun e => e.2.own == .fold z.val) = true) := by
      rintro (h | h | h | h | h | h)
      · exact h hbody
      · exact ne_true_of_eq_false hfbc h
      · exact hoffs (List.isEmpty_iff.mp h)
      · exact ne_false_of_eq_true hfold h
      · exact Nat.not_lt_of_le hroom h
      · obtain ⟨e, he, hown⟩ := List.any_eq_true.mp h
        exact hfree e he (beq_iff_eq.mp hown)
    exact if_neg hgo
  case reclaim =>
    intro bs
    rw [exec_stageReclaim, execStageReclaim]
    refine ⟨fun e he => ?_, fun hdead hlow e he => ?_, fun hdead henough => ?_⟩
    · rw [show minBy (fun e => e.2.seq) (bs.filter fun e => s.hasDead e.2) = some e from he]
    · rw [show minBy (fun e => e.2.seq) (bs.filter fun e => s.hasDead e.2) = none from congrArg (minBy _) hdead]
      refine (if_pos hlow).trans ?_
      rw [show minBy (fun e => e.2.seq) (bs.filter fun e => Tab.find s.zne.openStage n.val != some e.1) = some e from he]
    · rw [show minBy (fun e => e.2.seq) (bs.filter fun e => s.hasDead e.2) = none from congrArg (minBy _) hdead]
      exact if_neg (Nat.not_lt_of_le henough)
  case checkpoint =>
    intro set u free
    have hu : u.outside = s.outside := s.outside_journalErase s.journalRows
    rw [exec_mapCheckpoint, execMapCheckpoint, hleft]
    dsimp only
    refine ⟨fun hlow => if_pos hlow, fun hcost hnone => (if_neg (Nat.not_lt_of_le hcost)).trans ?_, fun row hcost hrow => ?_⟩
    · have hfree : State.freeRow (s.journalErase s.journalRows) s.journalRows = none := hnone
      unfold State.freeRow at hfree
      rw [hfree]
    · have hfree : State.freeRow (s.journalErase s.journalRows) s.journalRows = some row := hrow
      unfold State.freeRow at hfree
      rw [if_neg (Nat.not_lt_of_le hcost), hfree]
      have hcost' : 18 * u.fld F.ZNE_SCHEDCFG_PGMCOST = 18 * s.fld F.ZNE_SCHEDCFG_PGMCOST := congrArg (18 * ·) (congrArg (·.2.2) hu)
      have hend (k set tok : Nat) (x : Stripe) : (State.checkpointed (u.fresh.2.fresh.2.nextEpochs 18).2 k set tok x).outside = s.outside :=
        (State.outside_checkpointed _ _ _ _ _).trans ((State.outside_nextEpochs _ _).trans ((State.outside_fresh _).trans
          ((State.outside_fresh _).trans hu)))
      rw [hcost']
      refine ⟨State.checkpointed (u.fresh.2.fresh.2.nextEpochs 18).2 u.fresh.1 set (Tab.getD u.zne.setTok set 0 + 18 * s.fld F.ZNE_SCHEDCFG_PGMCOST)
        _, u.fresh.1, _, rfl, State.checkpointed_stripe _ _ _ _ _, rfl, rfl, rfl, rfl, pages_of_pack _ _ fun _ => rfl,
        State.checkpointed_tokens _ _ _ _ _, ?_, ?_⟩
      · exact State.mem_of_outside (hend _ _ _ _)
      · exact State.hif_of_outside (hend _ _ _ _)

end Sys2Proof
end

section
/-! PROOFS. What becomes of a codeword that LDC has decoded, and of a reconstruction (R107, R110, R111, R340). -/

namespace Sys2Proof

open Machine

namespace Machine

/-- LDC has taken a codeword: its decode goes from the table and its buffer is free. -/
def State.decoded (s : State) (u : Nat) (x : Decode) : State :=
  State.freeCw { s with zne := { s.zne with decodes := Tab.erase s.zne.decodes u } } x.op x.cw

theorem State.climb_last {s : State} {o : DieOp} {c : Nat × Nat} (h : s.nextLad o.blk o.lad = none) : s.climb o c = s.ladderFailed o c := by
  rw [State.climb, h]

theorem State.climb_next {s : State} {o : DieOp} {c : Nat × Nat} {l : Nat} (h : s.nextLad o.blk o.lad = some l) : s.climb o c =
    if s.deadDie (blkDie o.blk) then s.eraseCw o c true false
    else s.enqueue { o with cws := [c], lad := l, late := false, granted := false, suspends := 0, gone := [] } := by
  rw [State.climb, h]

section
variable {s : State} {u : Nat} {x : Decode} (hx : Tab.find s.zne.decodes u = some x)
include hx

theorem exec_ldcDecodeDone_pass {d : Blk} {h : Hmd} {g : BitVec 8} {b : BitVec 12} (hlad : x.op.lad = 0) :
    exec (.ldcDecodeDone u (.pass d h g b)) s = .next (
      let v := (s.decoded u x).countLadder x.op (ladderStep 0)
      if v.wanted x.op x.tag then v.deliver x.op (x.cw, x.tag) g.toNat b.toNat d h else v.discard x.op (x.cw, x.tag)) := by
  rw [exec_ldcDecodeDone, execLdcDecodeDone, hx]
  dsimp only
  rw [hlad]
  rfl

theorem exec_ldcDecodeDone_mismatch {e f : BitVec 32} : exec (.ldcDecodeDone u (.mismatch e f)) s = .next (
      let w := s.decoded u x
      if x.op.lad = 0 then
        let v := w.znePost 0x0206 [(32, x.op.blk), (16, x.op.slice), (32, e.toNat), (32, f.toNat)] x.op.ten
        if v.wanted x.op x.tag then v.eraseCw x.op (x.cw, x.tag) true false else v
      else if w.wanted x.op x.tag then w.climb x.op (x.cw, x.tag) else w) := by
  rw [exec_ldcDecodeDone, execLdcDecodeDone, hx]
  rfl

theorem exec_ldcDecodeDone_unwanted (hno : (s.decoded u x).wanted x.op x.tag = false) :
    exec (.ldcDecodeDone u .fail) s = .next (s.decoded u x) ∧ exec (.ldcDecodeDone u .lostRow) s = .next (s.decoded u x) ∧
      exec (.ldcDecodeDone u .doubleBit) s = .next (s.decoded u x) := by
  rw [exec_ldcDecodeDone, exec_ldcDecodeDone, exec_ldcDecodeDone, execLdcDecodeDone, execLdcDecodeDone, execLdcDecodeDone, hx]
  have hnot : ¬ (s.decoded u x).wanted x.op x.tag = true := ne_true_of_eq_false hno
  exact ⟨congrArg Host.Outcome.next (if_neg hnot), congrArg Host.Outcome.next (if_neg hnot), congrArg Host.Outcome.next (if_neg hnot)⟩

section
variable (hwanted : (s.decoded u x).wanted x.op x.tag = true)
include hwanted

theorem exec_ldcDecodeDone_lostHelper {a b : Nat} (hhelper : x.op.purpose = .helper a b) :
    exec (.ldcDecodeDone u .lostRow) s = .next ((s.decoded u x).eraseCw x.op (x.cw, x.tag) true false) := by
  rw [exec_ldcDecodeDone, execLdcDecodeDone, hx]
  refine congrArg Host.Outcome.next ((if_pos hwanted).trans ?_)
  rw [hhelper]
  rfl

theorem exec_ldcDecodeDone_again (hagain : x.op.again = true) :
    exec (.ldcDecodeDone u .doubleBit) s = .next ((s.decoded u x).ladderFailed x.op (x.cw, x.tag)) := by
  rw [exec_ldcDecodeDone, execLdcDecodeDone, hx]
  exact congrArg Host.Outcome.next ((if_pos hwanted).trans (if_pos hagain))

theorem exec_ldcDecodeDone_climbs (hverify : ∀ a b, x.op.purpose ≠ .verify a b) (hjob : ∀ a, x.op.purpose ≠ .jobVerify a) :
    exec (.ldcDecodeDone u .fail) s = .next ((s.decoded u x).climb x.op (x.cw, x.tag)) := by
  rw [exec_ldcDecodeDone, execLdcDecodeDone, hx]
  refine congrArg Host.Outcome.next ((if_pos hwanted).trans (if_neg ?_))
  split
  · exact absurd ‹_› (hverify _ _)
  · exact absurd ‹_› (hjob _)
  · decide

end

end

end Machine

/-- Settles O40. -/
theorem decodeOutcomes : Obligations.decode_outcomes := by
  unfold Obligations.decode_outcomes
  refine ⟨fun k r s hr => ?recon, fun u x s hx => ?decode⟩
  case recon =>
    have hdone (b : Bool) : exec (.reconstructionDone k b) s = execReconstructionDone k b s := exec_reconstructionDone
    have hlive {α : Type} (a b : α) (h : r.failed = false) : (if r.failed = true then a else b) = b := if_neg (ne_true_of_eq_false h)
    have hfull {α : Type} (a b : α) (h : r.ready = true) : (if r.ready = false then a else b) = b := if_neg (ne_false_of_eq_true h)
    rw [hdone, hdone, execReconstructionDone, execReconstructionDone, hr]
    refine ⟨fun hfailed b => ?_, fun hfailed hready => (hlive _ _ hfailed).trans (hfull _ _ hready),
      fun hfailed hready hretry => (hlive _ _ hfailed).trans ((hfull _ _ hready).trans (if_neg (ne_true_of_eq_false hretry))),
      fun hfailed hready hretry => (hlive _ _ hfailed).trans ((hfull _ _ hready).trans (if_pos hretry)), fun hfailed hready b => ?_⟩
    · rw [hdone, execReconstructionDone, hr]
      exact if_pos hfailed
    · rw [hdone, execReconstructionDone, hr]
      exact (hlive _ _ hfailed).trans (if_pos hready)
  case decode =>
    intro w
    refine ⟨fun h d g b hlad => ?_, fun e f hlad => ?_, fun e f hlad => ?_, fun a b hwanted hhelper => exec_ldcDecodeDone_lostHelper hx hwanted hhelper,
      fun hno => exec_ldcDecodeDone_unwanted hx hno, fun hwanted hagain => exec_ldcDecodeDone_again hx hwanted hagain,
      fun hwanted hverify hjob => ?_⟩
    · rw [exec_ldcDecodeDone_pass hx hlad]
      exact ⟨fun hwanted => congrArg Host.Outcome.next (if_pos hwanted), fun hno => congrArg Host.Outcome.next (if_neg (ne_true_of_eq_false hno))⟩
    · intro v
      rw [exec_ldcDecodeDone_mismatch hx]
      exact ⟨fun hno => congrArg Host.Outcome.next ((if_pos hlad).trans (if_neg (ne_true_of_eq_false hno))),
        fun hwanted => congrArg Host.Outcome.next ((if_pos hlad).trans (if_pos hwanted))⟩
    · rw [exec_ldcDecodeDone_mismatch hx]
      exact ⟨fun hno => congrArg Host.Outcome.next ((if_neg hlad).trans (if_neg (ne_true_of_eq_false hno))),
        fun hwanted => congrArg Host.Outcome.next ((if_neg hlad).trans (if_pos hwanted))⟩
    · rw [exec_ldcDecodeDone_climbs hx hwanted hverify hjob]
      refine ⟨fun hlast => congrArg Host.Outcome.next ?_, fun l hl hdead => congrArg Host.Outcome.next ?_,
        fun l hl hlive => congrArg Host.Outcome.next ?_⟩
      · exact State.climb_last hlast
      · exact (State.climb_next hl).trans (if_pos hdead)
      · exact (State.climb_next hl).trans (if_neg (ne_true_of_eq_false hlive))

end Sys2Proof
end

section
/-! PROOFS. Erases, wear, scrubbing and rebuild (R57, R135, R140, R145, R147, R231, R232, R238, R241, R244). -/

namespace Sys2Proof

open Machine

/-- Settles O41. -/
theorem eraseAndUpkeep : Obligations.erase_and_upkeep := by
  unfold Obligations.erase_and_upkeep
  refine ⟨fun b j s hj => ?ledger, fun n s => ?preerase, fun n z l x s => ?wear, fun b s hfirst => ?refresh, fun s hnone hoff => ?idle,
    fun b s hnone hon hb => ?scrub, fun j x s hfirst => ?rebuild, fun r k t s hk => ?torn⟩
  case ledger =>
    have hcleared (hst : j.st = .clearing) : exec (.eraseLedgerClearAck b) s = .next (
        let u := (s.zn fun z => { z with erases := Tab.adjust z.erases j.blk fun j => { j with st := .verified } }).dropErase j.blk
        match j.for_ with
        | .zone z => u.bodyMapped z
        | .slc k => u.slcMapped k
        | .pre => (u.setClean j.blk).showMedia
        | .job k => u.jobNext k
        | .reloc k => u.relocNext k) := by
      rw [exec_eraseLedgerClearAck, execEraseLedgerClearAck, hj]
      exact if_neg (not_not_intro hst)
    have hwrite : exec (.eraseLedgerWriteAck b) s =
        if j.st = .ledger ∧ j.entry < 4096 then .next ((s.cfgWrite false).issueErase j) else .next s := by
      rw [exec_eraseLedgerWriteAck, execEraseLedgerWriteAck, hj]
    refine ⟨fun hst hentry => hwrite.trans (if_pos ⟨hst, hentry⟩), fun hst => hwrite.trans (if_neg fun h => hst h.1), fun hst hfor => ?_,
      fun z hst hfor => ?_, fun k hst => ⟨fun hfor => ?_, fun hfor => ?_, fun hfor => ?_⟩, fun hst => ?_⟩
    iterate 5
      · rw [hcleared hst, hfor]
        rfl
    · rw [exec_eraseLedgerClearAck, execEraseLedgerClearAck, hj]
      exact if_pos hst
  case preerase =>
    intro unc es
    rw [exec_preeraseStart, execPreeraseStart]
    refine ⟨fun hneed => if_neg fun h => ?_, fun hunc henough => if_pos ⟨hunc, henough⟩, List.length_take_le _ _⟩
    exact hneed.elim (ne_true_of_eq_false h.1) (Nat.not_lt_of_le h.2)
  case wear =>
    intro full hz hl hrunning hworn
    rw [exec_wearRelocationStart, execWearRelocationStart]
    rw [show minBy (fun e => s.sumPe e.2.body) (full.filter _) = some (z, x) from hz, show minBy id (full.map _) = some l from hl]
    exact if_pos ⟨hrunning, hworn⟩
  case refresh =>
    rw [exec_scrubVisit, execScrubVisit, hfirst]
  case idle =>
    rw [exec_scrubVisit, execScrubVisit, hnone]
    exact if_pos hoff
  case scrub =>
    rw [exec_scrubVisit, execScrubVisit, hnone]
    dsimp only
    rw [if_neg (ne_false_of_eq_true hon), hb]
    rfl
  case rebuild =>
    rw [exec_rebuildJobStart, execRebuildJobStart, hfirst]
    dsimp only
    refine ⟨fun hpause => if_pos (.inl hpause), fun hgo hshare htokens => ?_⟩
    rw [if_neg (by simp [hgo, Nat.not_lt_of_le hshare, Nat.not_lt_of_le htokens])]
    exact ⟨fun hslice => congrArg Host.Outcome.next (if_pos hslice), fun hrow => congrArg Host.Outcome.next (if_neg hrow)⟩
  case torn =>
    rw [exec_tornRepair, execTornRepair, hk]

end Sys2Proof
end

section
/-! PROOFS. The Loop Engine's slots and samples (R99, R158, R166, R168, R171). -/

namespace Sys2Proof

open Machine

namespace Machine

/-! ### Slot commands and LPE_HOLD -/

theorem lpe_addresses {k : Nat} (hk : k < 160) : R.LPE_HOLD k ≠ R.LPE_OUT k ∧
    (k < 128 → R.LPE_HOLD k ≠ R.ZNE_TGOV k ∧ R.LPE_OUT k ≠ R.ZNE_TGOV k) ∧
    (R.LPE_HOLD k ≠ R.ZNE_SGOV (k - 128) ∧ R.LPE_OUT k ≠ R.ZNE_SGOV (k - 128)) ∧
    (R.LPE_HOLD k ≠ R.ZNE_PWREFF ∧ R.LPE_HOLD k ≠ R.ZNE_PWRSTAT ∧ R.LPE_HOLD k ≠ R.ZNE_PWRPGM) ∧
    R.LPE_OUT k ≠ R.ZNE_PWREFF ∧ R.LPE_OUT k ≠ R.ZNE_PWRSTAT ∧ R.LPE_OUT k ≠ R.ZNE_PWRPGM := by
  unfold R.LPE_HOLD R.LPE_OUT R.ZNE_TGOV R.ZNE_SGOV R.ZNE_PWREFF R.ZNE_PWRSTAT R.ZNE_PWRPGM
  omega

theorem State.fld_showPower (s : State) {f : Fld} (h1 : f.addr ≠ R.ZNE_PWREFF) (h2 : f.addr ≠ R.ZNE_PWRSTAT) (h3 : f.addr ≠ R.ZNE_PWRPGM) :
    s.showPower.fld f = s.fld f := by
  unfold State.showPower
  dsimp only
  rw [State.fld_setFld_ne _ _ h3, State.fld_setFld_ne _ _ h2, State.fld_setFld_ne _ _ h1]

/-- Three fields of one register, written in order: value, level and read-around (R157, R164). -/
def State.put3 (s : State) (a u lvl ra : Nat) : State := ((s.setFld ⟨a, 0, 16⟩ u).setFld ⟨a, 16, 2⟩ lvl).setFld ⟨a, 18, 1⟩ ra

theorem State.put3_fld (s : State) (a u lvl ra : Nat) : (s.put3 a u lvl ra).fld ⟨a, 0, 16⟩ = u % 2 ^ 16 ∧
    (s.put3 a u lvl ra).fld ⟨a, 16, 2⟩ = lvl % 2 ^ 2 ∧ (s.put3 a u lvl ra).fld ⟨a, 18, 1⟩ = ra % 2 ^ 1 := by
  refine ⟨?_, ?_, State.fld_setFld_self _ _ _ (show 18 + 1 ≤ 64 by decide)⟩
  · rw [State.put3, State.fld_setFld_disjoint _ _ (show 0 + 16 ≤ 64 by decide) (.inl (show 0 + 16 ≤ 18 by decide)),
      State.fld_setFld_disjoint _ _ (show 0 + 16 ≤ 64 by decide) (.inl (show 0 + 16 ≤ 16 by decide)),
      State.fld_setFld_self _ _ _ (show 0 + 16 ≤ 64 by decide)]
  · rw [State.put3, State.fld_setFld_disjoint _ _ (show 16 + 2 ≤ 64 by decide) (.inl (show 16 + 2 ≤ 18 by decide)),
      State.fld_setFld_self _ _ _ (show 16 + 2 ≤ 64 by decide)]

theorem State.put3_ne (s : State) (a u lvl ra : Nat) {f : Fld} (h : f.addr ≠ a) : (s.put3 a u lvl ra).fld f = s.fld f := by
  rw [State.put3, State.fld_setFld_ne _ _ h, State.fld_setFld_ne _ _ h, State.fld_setFld_ne _ _ h]

theorem State.lpeOut_eq (s : State) (k u lvl ra : Nat) : s.lpeOut k u lvl ra =
    let t := s.put3 (R.LPE_OUT k) u lvl ra
    if k < 128 then t.put3 (R.ZNE_TGOV k) u lvl ra
    else if k < 144 then t.setFld (F.ZNE_SGOV_BGTOK (k - 128)) u
    else if k < 146 then t.showPower
    else t := rfl

theorem State.setHold_eq (s : State) (k u lvl ra : Nat) : s.setHold k u lvl ra = s.put3 (R.LPE_HOLD k) u lvl ra := rfl

/-- An output reaches its destination and leaves the registers that are none of its own. -/
theorem State.fld_lpeOut (s : State) {k : Nat} (hk : k < 160) (u lvl ra : Nat) {f : Fld} (h : f.addr = R.LPE_HOLD k ∨ f.addr = R.LPE_OUT k) :
    (s.lpeOut k u lvl ra).fld f = (s.put3 (R.LPE_OUT k) u lvl ra).fld f := by
  obtain ⟨-, htgov, ⟨hs1, hs2⟩, ⟨h1, h2, h3⟩, h4, h5, h6⟩ := lpe_addresses hk
  rw [State.lpeOut_eq]
  dsimp only
  split
  next hlt => exact State.put3_ne _ _ _ _ _ (by rcases h with h | h <;> rw [h]; exacts [(htgov hlt).1, (htgov hlt).2])
  split
  · exact State.fld_setFld_ne _ _ (by rcases h with h | h <;> rw [h]; exacts [hs1, hs2])
  split
  · rcases h with h | h
    · exact State.fld_showPower _ (h ▸ h1) (h ▸ h2) (h ▸ h3)
    · exact State.fld_showPower _ (h ▸ h4) (h ▸ h5) (h ▸ h6)
  · rfl

theorem State.lpeOut_keeps (s : State) (k u lvl ra : Nat) :
    (s.lpeOut k u lvl ra).lpe = s.lpe ∧ (s.lpeOut k u lvl ra).zne = s.zne ∧ (s.lpeOut k u lvl ra).mem = s.mem ∧
      (s.lpeOut k u lvl ra).hif = s.hif := by
  rw [State.lpeOut_eq]
  dsimp only
  split
  · exact ⟨rfl, rfl, rfl, rfl⟩
  split
  · exact ⟨rfl, rfl, rfl, rfl⟩
  split <;> exact ⟨rfl, rfl, rfl, rfl⟩

/-! ### Sample boundaries -/

/-- What a boundary settles before the slots are computed: the sampling grid, the temperature target, the token accounts; and what it
leaves of the rest. -/
def State.steady (s : State) : (Nat × Option Nat × Nat) × Zne × List Host.Cell × Hif := ((s.lpe.last, s.lpe.tgt, s.lpe.per), s.zne, s.mem, s.hif)

theorem State.steady_foldl {α : Type} {f : State → α → State} (h : ∀ s a, (f s a).steady = s.steady) (s : State) (xs : List α) :
    (xs.foldl f s).steady = s.steady := by
  induction xs generalizing s with
  | nil => rfl
  | cons x xs ih => rw [List.foldl_cons, ih, h]

theorem State.steady_post (s : State) (src id : Nat) (items : List (Nat × Nat)) (ten : Nat) : (s.post src id items ten).steady = s.steady := by
  obtain ⟨hmem, hzne, hhif, -, -, -, -, -, -, -, -, hlpe, -⟩ := s.post_keeps src id items ten
  rw [State.steady, hmem, hzne, hhif, hlpe, State.steady]

theorem State.steady_lpePost (s : State) (k id : Nat) (items : List (Nat × Nat)) : (s.lpePost k id items).steady = s.steady := s.steady_post _ _ _ _

theorem State.steady_lpeOut (s : State) (k u lvl ra : Nat) : (s.lpeOut k u lvl ra).steady = s.steady := by
  obtain ⟨hlpe, hzne, hmem, hhif⟩ := s.lpeOut_keeps k u lvl ra
  rw [State.steady, hlpe, hzne, hmem, hhif, State.steady]

theorem State.steady_applyCmd (s : State) (k : Nat) : (s.applyCmd k).steady = s.steady := by
  unfold State.applyCmd
  dsimp only
  split
  · split
    · exact State.steady_lpePost _ _ _ _
    · exact State.steady_lpePost _ _ _ _
  split
  · split
    · exact State.steady_lpePost _ _ _ _
    · exact State.steady_lpePost _ _ _ _
  · rfl

theorem State.steady_lpeModel (s : State) (k q : Nat) : (s.lpeModel k q).2.steady = s.steady := by
  unfold State.lpeModel State.islandsOn
  dsimp only
  split
  · rfl
  split
  · rfl
  split
  · split <;> rfl
  · rfl

theorem State.steady_lpeFault (s : State) (k : Nat) (yhat : Int) : (s.lpeFault k yhat).steady = s.steady := by
  unfold State.lpeFault
  dsimp only
  rw [State.steady_lpePost, State.steady_lpeOut]
  rfl

theorem State.steady_lpeCheck (s : State) (k : Nat) (stale : Bool) (q : Nat) : (s.lpeCheck k stale q).steady = s.steady := by
  unfold State.lpeCheck
  have hmodel := s.steady_lpeModel k q
  dsimp only
  split
  · exact hmodel
  split
  · split
    · exact (State.steady_lpeFault _ _ _).trans hmodel
    · exact hmodel
  · exact hmodel

theorem State.steady_lpeStep (s : State) (k : Nat) : (s.lpeStep k).steady = s.steady := by
  unfold State.lpeStep
  split
  · rfl
  dsimp only
  split
  · exact State.steady_lpeCheck _ _ _ _
  · exact (State.steady_lpeCheck _ _ _ _).trans (State.steady_lpeOut _ _ _ _ _)

/-- How long each external measurement has not been written, after one boundary more (R171). -/
def State.aged (s : State) : Tab Nat := (List.range 15).foldl (fun t i => Tab.modify t (145 + i) 0 (· + 1)) s.lpe.ext

/-- The external measurements that are stale after the boundary. -/
def State.staleThen (s : State) : List Nat := (List.range 15).filter fun i => decide (s.fld F.LPE_CFG_STALE ≤ Tab.getD s.aged (145 + i) 0)

/-- Those that go stale there. -/
def State.newlyStale (s : State) : List Nat := s.staleThen.filter fun i => !s.lpe.gone.contains i

/-- The sampling grid and the external measurements move on. -/
def State.lpeAged (s : State) : State :=
  s.lp fun l => { l with
    last := l.last + (s.now - s.lpe.last) / (s.lpe.per * 1000) * (l.per * 1000), per := s.fld F.LPE_CFG_PERIOD, thr := [], tgt := none,
    ext := s.aged, gone := s.staleThen }

def State.stalePosts (s : State) (xs : List Nat) : State := xs.foldl (fun (s : State) i => s.lpePost (145 + i) 0x0506 []) s

/-- What a boundary does before the commands of the slots. -/
def State.atBoundary (s : State) : State := (s.lpeAged.stalePosts s.newlyStale).zn fun z => { z with tenTok := [], setTok := [] }

def State.slotCommands (s : State) : State := slotOrder.foldl (fun s k => if (s.lpeSlot k).pend = 0 then s else s.applyCmd k) s

/-- The counts of the period that has ended start again. -/
def State.lpeCleared (s : State) : State := s.lp fun l => { l with n := [], a := [] }

/-- A computation of the CLOSED slots (R160). -/
def State.lpeComputed (s : State) : State :=
  let (t, s) := s.compTime (s.fld F.LPE_STAT_CLOSED)
  let s := (s.lp fun l => { l with busyTill := s.now + t }).setFld F.LPE_STAT_CTIME (t / 100)
  (slotOrder.foldl (fun s k => s.lpeStep k) s).lpeCleared

/-- What a boundary does after them. -/
def State.lpeSampled (s : State) : State :=
  if s.flag F.LPE_CFG_RUN = false ∨ 2 ≤ s.fld F.AON_PSSTAT_CUR then s.lpeCleared
  else
    let s := s.bump F.LPE_SAMPLES_COUNT
    if s.now < s.lpe.busyTill then
      (s.bump F.LPE_MERGED_COUNT).post 0x09 0x0505 [(12, s.fld F.LPE_STAT_CTIME), (8, s.fld F.LPE_STAT_CLOSED)]
    else s.lpeComputed

theorem exec_sampleBoundary_due {s : State} (hdue : s.lpe.last + s.lpe.per * 1000 ≤ s.now) :
    exec .sampleBoundary s = .next s.atBoundary.slotCommands.lpeSampled := by
  refine exec_sampleBoundary.trans ((if_neg (Nat.not_lt.mpr hdue)).trans ?_)
  unfold State.lpeSampled State.lpeComputed State.slotCommands
  generalize slotOrder = ks
  dsimp only
  rw [apply_ite Host.Outcome.next, apply_ite Host.Outcome.next]
  rfl

theorem State.steady_slotCommands (s : State) : s.slotCommands.steady = s.steady :=
  State.steady_foldl (fun s k => by split; exacts [rfl, s.steady_applyCmd k]) _ _

theorem State.steady_compTime (s : State) (n : Nat) : (s.compTime n).2.steady = s.steady := by
  unfold State.compTime
  split <;> rfl

theorem State.steady_lpeComputed (s : State) : s.lpeComputed.steady = s.steady := by
  have htime := s.steady_compTime (s.fld F.LPE_STAT_CLOSED)
  unfold State.lpeComputed
  generalize slotOrder = ks
  exact (State.steady_foldl (fun s k => s.steady_lpeStep k) _ ks).trans htime

theorem State.steady_lpeSampled (s : State) : s.lpeSampled.steady = s.steady := by
  unfold State.lpeSampled
  dsimp only
  split
  · rfl
  split
  · exact State.steady_post _ _ _ _ _
  · exact State.steady_lpeComputed _

theorem State.steady_stalePosts (s : State) (xs : List Nat) : (s.stalePosts xs).steady = s.steady :=
  State.steady_foldl (fun s _ => s.steady_lpePost _ _ _) _ _

theorem State.steady_atBoundary (s : State) : s.atBoundary.steady =
    ((s.lpe.last + (s.now - s.lpe.last) / (s.lpe.per * 1000) * (s.lpe.per * 1000), none, s.fld F.LPE_CFG_PERIOD),
      { s.zne with tenTok := [], setTok := [] }, s.mem, s.hif) := by
  have h := s.lpeAged.steady_stalePosts s.newlyStale
  simp only [State.steady, Prod.mk.injEq] at h ⊢
  obtain ⟨⟨hlast, htgt, hper⟩, hzne, hmem, hhif⟩ := h
  exact ⟨⟨hlast, htgt, hper⟩, congrArg (fun z : Zne => { z with tenTok := [], setTok := [] }) hzne, hmem, hhif⟩

/-! ### External measurements -/

theorem ext_foldl (t : Tab Nat) {xs : List Nat} (hnodup : xs.Nodup) {i : Nat} (hi : i ∈ xs) :
    Tab.getD (xs.foldl (fun t i => Tab.modify t (145 + i) 0 (· + 1)) t) (145 + i) 0 = Tab.getD t (145 + i) 0 + 1 := by
  have hother (xs : List Nat) (hi : i ∉ xs) (t : Tab Nat) :
      Tab.getD (xs.foldl (fun t i => Tab.modify t (145 + i) 0 (· + 1)) t) (145 + i) 0 = Tab.getD t (145 + i) 0 := by
    induction xs generalizing t with
    | nil => rfl
    | cons x xs ih =>
      obtain ⟨hx, hxs⟩ := not_or.mp (mt List.mem_cons.mpr hi)
      exact (ih hxs _).trans (Tab.getD_set_ne _ _ _ (by omega))
  induction xs generalizing t with
  | nil => cases hi
  | cons x xs ih =>
    obtain ⟨hx, hxs⟩ := List.nodup_cons.mp hnodup
    rcases List.mem_cons.mp hi with rfl | h
    · exact (hother xs hx _).trans (Tab.getD_set_self ..)
    · refine (ih _ hxs h).trans (congrArg (· + 1) (Tab.getD_set_ne _ _ _ ?_))
      rintro heq
      exact hx (Nat.add_left_cancel heq ▸ h)

theorem State.mem_staleThen (s : State) (i : Fin 15) :
    i.val ∈ s.staleThen ↔ s.fld F.LPE_CFG_STALE ≤ Tab.getD s.lpe.ext (145 + i.val) 0 + 1 := by
  have haged : Tab.getD s.aged (145 + i.val) 0 = Tab.getD s.lpe.ext (145 + i.val) 0 + 1 :=
    ext_foldl _ List.nodup_range (List.mem_range.mpr i.isLt)
  rw [State.staleThen, List.mem_filter, decide_eq_true_eq, haged, and_iff_right (List.mem_range.mpr i.isLt)]

theorem State.mem_newlyStale (s : State) (i : Fin 15) : i.val ∈ s.newlyStale ↔
    s.fld F.LPE_CFG_STALE ≤ Tab.getD s.lpe.ext (145 + i.val) 0 + 1 ∧ i.val ∉ s.lpe.gone := by
  rw [State.newlyStale, List.mem_filter, s.mem_staleThen]
  simp

/-- The events of stale measurements leave the Loop Engine and the registers that posting does not count in. -/
theorem State.stalePosts_keeps (s : State) (xs : List Nat) : (s.stalePosts xs).lpe = s.lpe ∧
    ∀ f : Fld, f.addr ≠ R.MGT_EVDROP → (s.stalePosts xs).fld f = s.fld f := by
  induction xs generalizing s with
  | nil => exact ⟨rfl, fun _ _ => rfl⟩
  | cons x xs ih =>
    obtain ⟨hlpe, hfld⟩ := ih (s.lpePost (145 + x) 0x0506 [])
    obtain ⟨-, -, -, -, -, -, -, -, -, -, -, hl, -⟩ := s.post_keeps 0x09 0x0506 ((8, 145 + x) :: []) (if 145 + x < 128 then 145 + x else 0xFF)
    exact ⟨hlpe.trans hl, fun f hf => (hfld f hf).trans (s.fld_post _ _ _ _ hf)⟩

theorem State.lpePost_ext_of_powered {s : State} (h : s.gated 2 = false) (i : Nat) :
    s.lpePost (145 + i) 0x0506 [] = s.send (s.eventOf 0x09 0x0506 [(8, 145 + i)] 0xFF) := by
  refine (s.post_of_powered _ _ _ _ h).trans ?_
  rw [if_neg (by omega)]

/-- With power each of them posts its event and nothing else changes. -/
theorem State.stalePosts_of_powered (xs : List Nat) {s : State} (h : s.gated 2 = false) : (s.stalePosts xs).csr = s.csr ∧
    (∀ e ∈ s.evr.transit, e ∈ (s.stalePosts xs).evr.transit) ∧
    ∀ i : Fin 15, i.val ∈ xs → ∃ e, e ∈ (s.stalePosts xs).evr.transit ∧ e.id = 0x0506 ∧ e.src = 0x09 ∧ e.payload = 145 + i.val := by
  induction xs generalizing s with
  | nil => exact ⟨rfl, fun _ he => he, fun _ hi => absurd hi List.not_mem_nil⟩
  | cons x xs ih =>
    obtain ⟨hcsr, hkept, hposted⟩ := ih (s := s.send (s.eventOf 0x09 0x0506 [(8, 145 + x)] 0xFF)) h
    rw [show s.stalePosts (x :: xs) = (s.lpePost (145 + x) 0x0506 []).stalePosts xs from rfl, State.lpePost_ext_of_powered h]
    refine ⟨hcsr, fun e he => hkept e (List.mem_append_left _ he), fun i hi => ?_⟩
    rcases List.mem_cons.mp hi with rfl | hin
    · refine ⟨_, hkept _ (List.mem_append_right _ (List.mem_singleton.mpr rfl)), rfl, rfl, ?_⟩
      exact Nat.mod_eq_of_lt (show 145 + i.val < 2 ^ 8 by omega)
    · exact hposted i hin

/-- With no command waiting the slots stay as they are. -/
theorem State.slotCommands_of_idle {s : State} (h : ∀ k, k ∈ slotOrder → (s.lpeSlot k).pend = 0) : s.slotCommands = s := by
  unfold State.slotCommands
  generalize slotOrder = ks at h
  induction ks with
  | nil => rfl
  | cons k ks ih =>
    rw [List.foldl_cons, if_pos (h k List.mem_cons_self)]
    exact ih fun j hj => h j (List.mem_cons_of_mem _ hj)

/-- A boundary with sampling off and no command waiting. -/
theorem exec_sampleBoundary_off {s : State} (hdue : s.lpe.last + s.lpe.per * 1000 ≤ s.now) (hoff : s.flag F.LPE_CFG_RUN = false)
    (hidle : ∀ k, k ∈ slotOrder → (s.lpeSlot k).pend = 0) : exec .sampleBoundary s = .next s.atBoundary.lpeCleared := by
  obtain ⟨hlpe, hfld⟩ := s.lpeAged.stalePosts_keeps s.newlyStale
  have hslots : s.atBoundary.slotCommands = s.atBoundary := State.slotCommands_of_idle fun k hk =>
    (congrArg (fun l : Lpe => (Tab.getD l.slots k LpeSlot.empty).pend) hlpe).trans (hidle k hk)
  have hrun : s.atBoundary.flag F.LPE_CFG_RUN = false :=
    (congrArg (· != 0) (hfld F.LPE_CFG_RUN (by decide))).trans hoff
  rw [exec_sampleBoundary_due hdue, hslots, State.lpeSampled, if_pos (.inl hrun)]

end Machine

/-- Settles O42. -/
theorem loopEngine : Obligations.loop_engine := by
  unfold Obligations.loop_engine
  have hcmd (k : Nat) (c : Nat) (s : State) : ((s.slotCmd k c).lpeSlot k).pend = c ∧ (s.slotCmd k c).flag (F.LPE_SCTL_PEND k) = true ∧
      (s.slotCmd k c).lpeState k = s.lpeState k ∧ (∀ j, j ≠ k → (s.slotCmd k c).lpeSlot j = s.lpeSlot j) ∧
      (s.slotCmd k c).zne = s.zne ∧ (s.slotCmd k c).mem = s.mem := by
    refine ⟨congrArg LpeSlot.pend (Tab.getD_set_self ..), State.flag_setFld_self _ _ rfl (show 4 + 1 ≤ 64 by decide), ?_,
      fun j hj => Tab.getD_set_ne _ _ _ hj, rfl, rfl⟩
    exact State.fld_setFld_disjoint _ _ (show 0 + 2 ≤ 64 by decide) (.inl (show 0 + 2 ≤ 4 by decide))
  refine ⟨fun k s => ⟨⟨_, rfl, hcmd k.val 1 s⟩, ⟨_, rfl, hcmd k.val 2 s⟩⟩, fun k w s hopen => ?hold, fun k w s hclosed => exec_lpeHoldWrite.trans (if_neg hclosed),
    fun i y s => ?ext, fun s hearly => exec_sampleBoundary.trans (if_pos hearly), fun s hdue => ?boundary, fun s hdue hoff hidle => ?off⟩
  case hold =>
    obtain ⟨hlpe, hzne, hmem, -⟩ := (s.setHold k.val (bits w.toNat 0 16) (bits w.toNat 16 2) (bits w.toNat 18 1)).lpeOut_keeps k.val
      (bits w.toNat 0 16) (bits w.toNat 16 2) (bits w.toNat 18 1)
    have hne : R.LPE_HOLD k.val ≠ R.LPE_OUT k.val := (lpe_addresses k.isLt).1
    have hu : bits w.toNat 0 16 % 2 ^ 16 = w.toNat % 2 ^ 16 := by
      rw [bits, Nat.mod_mod, Nat.pow_zero, Nat.div_one]
    have hlvl : bits w.toNat 16 2 % 2 ^ 2 = w.toNat / 2 ^ 16 % 4 := Nat.mod_mod _ _
    refine ⟨_, exec_lpeHoldWrite.trans (if_pos hopen), ?_, ?_, ?_, ?_, ?_, fun hlt => ⟨?_, ?_⟩, hlpe.trans rfl, hzne.trans rfl, hmem.trans rfl⟩
    · rw [State.fld_lpeOut _ k.isLt _ _ _ (.inl rfl), State.put3_ne _ _ _ _ _ hne, State.setHold_eq]
      exact (State.put3_fld _ _ _ _ _).1.trans hu
    · rw [State.fld_lpeOut _ k.isLt _ _ _ (.inr rfl)]
      exact (State.put3_fld _ _ _ _ _).1.trans hu
    · rw [State.fld_lpeOut _ k.isLt _ _ _ (.inl rfl), State.put3_ne _ _ _ _ _ hne, State.setHold_eq]
      exact (State.put3_fld _ _ _ _ _).2.1.trans hlvl
    · rw [State.fld_lpeOut _ k.isLt _ _ _ (.inr rfl)]
      exact (State.put3_fld _ _ _ _ _).2.1.trans hlvl
    · rw [State.fld_lpeOut _ k.isLt _ _ _ (.inr rfl)]
      exact (State.put3_fld _ _ _ _ _).2.2.trans (Nat.mod_mod _ _)
    · rw [State.lpeOut_eq]
      dsimp only
      rw [if_pos hlt]
      exact (State.put3_fld _ _ _ _ _).1.trans hu
    · rw [State.lpeOut_eq]
      dsimp only
      rw [if_pos hlt]
      exact (State.put3_fld _ _ _ _ _).2.1.trans hlvl
  case ext =>
    refine ⟨_, exec_lpeExtmeasWrite, ?_, Tab.find_set_self _ _ _, fun h => ?_, rfl, rfl⟩
    · exact (State.fld_setFld_self _ _ _ (show 0 + 16 ≤ 64 by decide)).trans (Nat.mod_eq_of_lt y.isLt)
    · exact absurd (List.mem_filter.mp h).2 (by simp)
  case boundary =>
    have h := (State.steady_lpeSampled _).trans ((State.steady_slotCommands _).trans s.steady_atBoundary)
    simp only [State.steady, Prod.mk.injEq] at h
    obtain ⟨⟨hlast, htgt, hper⟩, hzne, hmem, hhif⟩ := h
    have hzones : s.atBoundary.slotCommands.lpeSampled.zne.zones = s.zne.zones := by rw [hzne]
    exact ⟨_, exec_sampleBoundary_due hdue, congrArg Zne.tenTok hzne, congrArg Zne.setTok hzne, hlast, htgt, hper, hmem, hzones, hhif⟩
  case off =>
    obtain ⟨hlpe, -⟩ := s.lpeAged.stalePosts_keeps s.newlyStale
    refine ⟨_, exec_sampleBoundary_off hdue hoff hidle, fun hpow => ?_, fun i => ?_, fun hnone => ?_, fun hpow i hnew hstale => ?_⟩
    · exact (State.stalePosts_of_powered s.newlyStale (s := s.lpeAged) hpow).1
    · rw [show s.atBoundary.lpeCleared.lpe.gone = s.staleThen from congrArg Lpe.gone hlpe]
      exact s.mem_staleThen i
    · have hnil : s.newlyStale = [] := List.eq_nil_iff_forall_not_mem.mpr fun j hj => by
        have hlt : j < 15 := List.mem_range.mp (List.mem_filter.mp (List.mem_filter.mp hj).1).1
        obtain ⟨hstale, hnot⟩ := (s.mem_newlyStale ⟨j, hlt⟩).mp hj
        rcases hnone ⟨j, hlt⟩ with hg | hlt
        · exact hnot hg
        · exact absurd hstale (Nat.not_le.mpr hlt)
      rw [State.atBoundary, hnil]
      exact ⟨rfl, rfl⟩
    · exact (State.stalePosts_of_powered s.newlyStale (s := s.lpeAged) hpow).2.2 i ((s.mem_newlyStale i).mpr ⟨hstale, hnew⟩)

end Sys2Proof
end

section
/-! PROOFS. Links of the PCIe ports: training, power states, security and virtual functions (R251 to R269). -/

namespace Sys2Proof

open Machine

namespace Machine

/-! ### The record and the registers of a port -/

theorem State.port_modPort_self (s : State) (p : Nat) (f : PortSt → PortSt) : (s.modPort p f).port p = f (s.port p) :=
  Tab.getD_set_self ..

theorem State.fld_modPort (s : State) (p : Nat) (f : PortSt → PortSt) (g : Fld) : (s.modPort p f).fld g = s.fld g := rfl

theorem State.port_post (s : State) (src id : Nat) (items : List (Nat × Nat)) (ten p : Nat) : (s.post src id items ten).port p = s.port p := by
  obtain ⟨-, -, hhif, -⟩ := s.post_keeps src id items ten
  rw [State.port, hhif, State.port]

/-- One of the eight stream flags of HIF_IDESTAT, written. -/
theorem stream_set : ∀ (v : BitVec 8) (k j : Fin 8), bit (setBit v.toNat k.val % 2 ^ 8) j.val = (j == k || bit v.toNat j.val) := by
  decide +kernel

theorem stream_cleared : ∀ (v : BitVec 8) (k j : Fin 8), bit (clrBit v.toNat k.val % 2 ^ 8) j.val = (j != k && bit v.toNat j.val) := by
  decide +kernel

theorem bit_setBit_stream {v : Nat} (hv : v < 2 ^ 8) (k j : Fin 8) : bit (setBit v k.val % 2 ^ 8) j.val = (j == k || bit v j.val) := by
  have h := stream_set (BitVec.ofNat 8 v) k j
  rwa [BitVec.toNat_ofNat, Nat.mod_eq_of_lt hv] at h

theorem bit_clrBit_stream {v : Nat} (hv : v < 2 ^ 8) (k j : Fin 8) : bit (clrBit v k.val % 2 ^ 8) j.val = (j != k && bit v j.val) := by
  have h := stream_cleared (BitVec.ofNat 8 v) k j
  rwa [BitVec.toNat_ofNat, Nat.mod_eq_of_lt hv] at h

/-- HIF_PORTSTAT of a port and MGT's count of dropped events are different registers. -/
theorem portstat_ne_evdrop (p : Nat) : R.HIF_PORTSTAT p ≠ R.MGT_EVDROP := by
  unfold R.HIF_PORTSTAT R.MGT_EVDROP
  omega

theorem idestat_ne_evdrop (p : Nat) : R.HIF_IDESTAT p ≠ R.MGT_EVDROP := by
  unfold R.HIF_IDESTAT R.MGT_EVDROP
  omega

theorem idedrop_ne (p : Nat) : R.HIF_IDEDROP p ≠ R.MGT_EVDROP ∧ R.HIF_IDEDROP p ≠ R.HIF_IDESTAT p := by
  unfold R.HIF_IDEDROP R.MGT_EVDROP R.HIF_IDESTAT
  omega

/-! ### Training -/

/-- What a link that has trained shows (R252, R253). -/
def State.linkShown (s : State) (p rate width : Nat) : State :=
  ((((s.setFld (F.HIF_PORTSTAT_LINKUP p) 1).setFld (F.HIF_PORTSTAT_FLIT p) (if rate = 6 then 1 else 0)).setFld (F.HIF_PORTSTAT_RATE p) rate).setFld
    (F.HIF_PORTSTAT_WIDTH p) width).setFld (F.HIF_PORTSTAT_LPS p) 0

theorem State.linkShown_flds (s : State) (p : Nat) {rate width : Nat} (hrate : rate < 2 ^ 3) (hwidth : width < 2 ^ 5) :
    let t := s.linkShown p rate width
    t.fld (F.HIF_PORTSTAT_LINKUP p) = 1 ∧ t.fld (F.HIF_PORTSTAT_RATE p) = rate ∧ t.fld (F.HIF_PORTSTAT_WIDTH p) = width ∧
      t.fld (F.HIF_PORTSTAT_FLIT p) = (if rate = 6 then 1 else 0) ∧ t.fld (F.HIF_PORTSTAT_LPS p) = 0 := by
  dsimp only
  unfold State.linkShown
  refine ⟨?up, ?rate, ?width, ?flit, State.fld_setFld_self _ _ 0 (show 13 + 3 ≤ 64 by decide)⟩
  case up =>
    rw [State.fld_setFld_disjoint _ _ (show 3 + 1 ≤ 64 by decide) (.inl (show 3 + 1 ≤ 13 by decide)),
      State.fld_setFld_disjoint _ _ (show 3 + 1 ≤ 64 by decide) (.inl (show 3 + 1 ≤ 8 by decide)),
      State.fld_setFld_disjoint _ _ (show 3 + 1 ≤ 64 by decide) (.inl (show 3 + 1 ≤ 5 by decide)),
      State.fld_setFld_disjoint _ _ (show 3 + 1 ≤ 64 by decide) (.inl (show 3 + 1 ≤ 4 by decide)),
      State.fld_setFld_self _ _ _ (show 3 + 1 ≤ 64 by decide)]
    rfl
  case rate =>
    rw [State.fld_setFld_disjoint _ _ (show 5 + 3 ≤ 64 by decide) (.inl (show 5 + 3 ≤ 13 by decide)),
      State.fld_setFld_disjoint _ _ (show 5 + 3 ≤ 64 by decide) (.inl (show 5 + 3 ≤ 8 by decide)),
      State.fld_setFld_self _ _ _ (show 5 + 3 ≤ 64 by decide)]
    exact Nat.mod_eq_of_lt hrate
  case width =>
    rw [State.fld_setFld_disjoint _ _ (show 8 + 5 ≤ 64 by decide) (.inl (show 8 + 5 ≤ 13 by decide)),
      State.fld_setFld_self _ _ _ (show 8 + 5 ≤ 64 by decide)]
    exact Nat.mod_eq_of_lt hwidth
  case flit =>
    rw [State.fld_setFld_disjoint _ _ (show 4 + 1 ≤ 64 by decide) (.inl (show 4 + 1 ≤ 13 by decide)),
      State.fld_setFld_disjoint _ _ (show 4 + 1 ≤ 64 by decide) (.inl (show 4 + 1 ≤ 8 by decide)),
      State.fld_setFld_disjoint _ _ (show 4 + 1 ≤ 64 by decide) (.inl (show 4 + 1 ≤ 5 by decide)),
      State.fld_setFld_self _ _ _ (show 4 + 1 ≤ 64 by decide)]
    split <;> rfl

/-- The part that a training posts: the events of a link that is up, and of one below what is configured (R269). -/
def State.linkPosts (s : State) (p cause rate width : Nat) : State :=
  let t := s.linkEvent p cause
  if rate < t.fld (F.HIF_LINKCFG_MAXRATE p) ∨ width < t.portWidth p then t.hifPost p 0x0602 [(8, p), (3, rate), (5, width)] else t

theorem State.linkPosts_keeps (s : State) (p cause rate width : Nat) :
    let t := s.linkPosts p cause rate width
    (∀ f : Fld, f.addr ≠ R.MGT_EVDROP → t.fld f = s.fld f) ∧ t.port p = s.port p ∧ t.zne = s.zne ∧ t.mem = s.mem := by
  have hposts (s : State) (id : Nat) (items : List (Nat × Nat)) : (∀ f : Fld, f.addr ≠ R.MGT_EVDROP → (s.hifPost p id items).fld f = s.fld f) ∧
      (s.hifPost p id items).port p = s.port p ∧ (s.hifPost p id items).zne = s.zne ∧ (s.hifPost p id items).mem = s.mem := by
    obtain ⟨hmem, hzne, -⟩ := s.post_keeps (0x0C + p) id items 0xFF
    exact ⟨fun f hf => s.fld_post _ _ _ _ hf, s.port_post _ _ _ _ _, hzne, hmem⟩
  obtain ⟨hfld, hport, hzne, hmem⟩ := hposts s 0x0601 [(8, p), (3, s.fld (F.HIF_PORTSTAT_RATE p)), (5, s.fld (F.HIF_PORTSTAT_WIDTH p)), (8, cause)]
  unfold State.linkPosts
  dsimp only
  split
  · obtain ⟨hfld', hport', hzne', hmem'⟩ := hposts (s.linkEvent p cause) 0x0602 [(8, p), (3, rate), (5, width)]
    exact ⟨fun f hf => (hfld' f hf).trans (hfld f hf), hport'.trans hport, hzne'.trans hzne, hmem'.trans hmem⟩
  · exact ⟨hfld, hport, hzne, hmem⟩

/-- The state of a link that trains, before its events. -/
def State.linkUp (s : State) (p rate width : Nat) : State :=
  ((if (s.port p).wasUp then s.bump (F.HIF_RETRAIN_COUNT p) else s).linkShown p rate width).modPort p fun y => { y with
    training := false, wasUp := true, idle := s.now, l0pReq := none }

theorem State.linkUp_flds (s : State) (p : Nat) {rate width : Nat} (hrate : rate < 2 ^ 3) (hwidth : width < 2 ^ 5) :
    let t := s.linkUp p rate width
    t.fld (F.HIF_PORTSTAT_LINKUP p) = 1 ∧ t.fld (F.HIF_PORTSTAT_RATE p) = rate ∧ t.fld (F.HIF_PORTSTAT_WIDTH p) = width ∧
      t.fld (F.HIF_PORTSTAT_FLIT p) = (if rate = 6 then 1 else 0) ∧ t.fld (F.HIF_PORTSTAT_LPS p) = 0 := by
  have hbase := (if (s.port p).wasUp then s.bump (F.HIF_RETRAIN_COUNT p) else s).linkShown_flds p hrate hwidth
  dsimp only at hbase ⊢
  rw [State.linkUp, State.fld_modPort, State.fld_modPort, State.fld_modPort, State.fld_modPort, State.fld_modPort]
  exact hbase

theorem State.linkUp_keeps (s : State) (p rate width : Nat) :
    let t := s.linkUp p rate width
    (t.port p).training = false ∧ (t.port p).wasUp = true ∧ t.zne = s.zne ∧ t.mem = s.mem := by
  have hself := State.port_modPort_self ((if (s.port p).wasUp then s.bump (F.HIF_RETRAIN_COUNT p) else s).linkShown p rate width)
    p fun y => { y with training := false, wasUp := true, idle := s.now, l0pReq := none }
  refine ⟨congrArg PortSt.training hself, congrArg PortSt.wasUp hself, ?_⟩
  unfold State.linkUp
  split <;> exact ⟨rfl, rfl⟩

theorem exec_linkTrained_ok {p : Port} {rate : BitVec 3} {width : BitVec 5} {s : State}
    (htrain : (s.port p.val).training = true ∨ s.flag (F.HIF_PORTSTAT_LINKUP p.val) = true) (hrate : rate.toNat ≠ 0)
    (hmax : rate.toNat ≤ s.fld (F.HIF_LINKCFG_MAXRATE p.val)) (hlanes : width.toNat ≤ s.portWidth p.val)
    (hwidth : width.toNat ∈ [1, 2, 4, 8, 16]) : exec (.linkTrained p rate width) s =
      .next ((s.linkUp p.val rate.toNat width.toNat).linkPosts p.val (if (s.port p.val).wasUp then 2 else 0) rate.toNat width.toNat) := by
  rw [exec_linkTrained, execLinkTrained]
  dsimp only
  rw [if_neg (by
    rintro (⟨h1, h2⟩ | h | h | h | h)
    · rcases htrain with h | h
      · exact absurd (h.symm.trans h1) (by decide)
      · exact absurd (h.symm.trans h2) (by decide)
    · exact hrate h
    · exact Nat.not_lt.mpr hmax h
    · exact h hwidth
    · exact Nat.not_lt.mpr hlanes h), State.linkPosts]
  rw [apply_ite Host.Outcome.next, State.linkUp]
  split <;> rfl

/-- The state of a link whose power state has changed (R255, R256). -/
def State.linkState (s : State) (p lps : Nat) : State :=
  (s.setFld (F.HIF_PORTSTAT_LPS p) lps).modPort p fun x => { x with idle := s.now, l0pReq := none }

theorem State.linkState_lps (s : State) (p : Nat) (l : Fin 6) : (s.linkState p l.val).fld (F.HIF_PORTSTAT_LPS p) = l.val :=
  (State.fld_setFld_self _ _ _ (show 13 + 3 ≤ 64 by decide)).trans (Nat.mod_eq_of_lt (show l.val < 2 ^ 3 by omega))

theorem exec_linkPowerStateChange_up {p : Port} {l : Fin 6} {s : State} (hup : s.flag (F.HIF_PORTSTAT_LINKUP p.val) = true) (hl : l.val ≠ 1) :
    exec (.linkPowerStateChange p l) s = if (s.linkState p.val l.val).linkAllows p.val (s.fld F.AON_PSSTAT_CUR) then .next (s.linkState p.val l.val)
      else .next (s.linkState p.val l.val).wakeUp := by
  have hcur : (s.setFld (F.HIF_PORTSTAT_LPS p.val) l.val).fld F.AON_PSSTAT_CUR = s.fld F.AON_PSSTAT_CUR := State.fld_setFld_ne _ _ (by
    unfold F.AON_PSSTAT_CUR F.HIF_PORTSTAT_LPS R.AON_PSSTAT R.HIF_PORTSTAT
    dsimp only
    omega)
  rw [← hcur]
  exact exec_linkPowerStateChange.trans (if_neg (by simp [hup, hl]))

/-! ### Security of a link -/

/-- A failed IDE check of a secure stream, before the commands that it met end (R266). -/
def State.ideFailed (s : State) (p k rid : Nat) : State :=
  let s := s.bump (F.HIF_IDEDROP_COUNT p)
  let s := s.setFld (F.HIF_IDESTAT_SECURE p) (clrBit (s.fld (F.HIF_IDESTAT_SECURE p)) k)
  let s := s.setFld (F.HIF_IDESTAT_FAIL p) (setBit (s.fld (F.HIF_IDESTAT_FAIL p)) k)
  s.hifPost p 0x0603 [(8, p), (8, k), (16, rid)]

theorem State.fld_bump_idedrop (s : State) (p : Nat) {f : Fld} (h : f.addr = R.HIF_IDESTAT p) :
    (s.bump (F.HIF_IDEDROP_COUNT p)).fld f = s.fld f :=
  State.fld_setFld_ne _ _ (h ▸ (idedrop_ne p).2.symm)

theorem State.ideFailed_secure (s : State) (p rid : Nat) (k j : Fin 8) :
    bit ((s.ideFailed p k.val rid).fld (F.HIF_IDESTAT_SECURE p)) j.val = (j != k && bit (s.fld (F.HIF_IDESTAT_SECURE p)) j.val) := by
  have hne : (F.HIF_IDESTAT_SECURE p).addr ≠ R.MGT_EVDROP := idestat_ne_evdrop p
  rw [State.ideFailed]
  rw [State.hifPost, State.fld_post _ _ _ _ _ hne,
    State.fld_setFld_disjoint _ _ (show 0 + 8 ≤ 64 by decide) (.inl (show 0 + 8 ≤ 8 by decide)),
    State.fld_setFld_self _ _ _ (show 0 + 8 ≤ 64 by decide), State.fld_bump_idedrop _ _ rfl]
  exact bit_clrBit_stream (State.fld_lt _ (Nat.le_refl (2 ^ 8))) k j

theorem State.ideFailed_fail (s : State) (p rid : Nat) (k : Fin 8) :
    bit ((s.ideFailed p k.val rid).fld (F.HIF_IDESTAT_FAIL p)) k.val = true := by
  have hne : (F.HIF_IDESTAT_FAIL p).addr ≠ R.MGT_EVDROP := idestat_ne_evdrop p
  rw [State.ideFailed]
  rw [State.hifPost, State.fld_post _ _ _ _ _ hne, State.fld_setFld_self _ _ _ (show 8 + 8 ≤ 64 by decide)]
  refine (bit_setBit_stream (State.fld_lt _ (Nat.le_refl (2 ^ 8))) k k).trans ?_
  rw [beq_self_eq_true, Bool.true_or]

theorem State.ideFailed_count (s : State) (p rid : Nat) (k : Fin 8) :
    (s.ideFailed p k.val rid).fld (F.HIF_IDEDROP_COUNT p) = (s.fld (F.HIF_IDEDROP_COUNT p) + 1) % 2 ^ 64 := by
  obtain ⟨hdrop, hstat⟩ := idedrop_ne p
  rw [State.ideFailed]
  rw [State.hifPost, State.fld_post _ _ _ _ _ hdrop, State.fld_setFld_ne _ _ hstat, State.fld_setFld_ne _ _ hstat]
  exact State.fld_setFld_self _ _ _ (show 0 + 64 ≤ 64 by decide)

theorem exec_ideIntegrityFail_secure {p : Port} {k : Fin 8} {rid : BitVec 16} {s : State}
    (h : bit (s.fld (F.HIF_IDESTAT_SECURE p.val)) k.val = true) (slots : List (Fin 65536)) :
    exec (.ideIntegrityFail p k rid slots) s = .next (slots.foldl (fun u i => match u.slot i.val with
      | some x =>
        if x.fn / 128 ≠ p.val then u
        else if x.reads then (u.cancelReads i.val).complete i.val .dataTransferError
        else u.transferFail i.val .dataTransferError
      | none => u) (s.ideFailed p.val k.val rid.toNat)) := by
  refine exec_ideIntegrityFail.trans (if_neg ?_)
  rw [State.fld_bump_idedrop _ _ rfl, h]
  decide

/-- The six keys of a stream's set stand at places of their own (R266). -/
theorem ideKey_injective (stream set : Nat) {i j : Fin 6} (h : ideKey stream set (i.val / 2) (i.val % 2) = ideKey stream set (j.val / 2) (j.val % 2)) :
    i = j := by
  unfold ideKey at h
  omega

theorem find_foldl_put (t : Tab Nat) (key : Fin 6 → Nat) (hinj : ∀ i j, key i = key j → i = j) (val : Fin 6 → Nat) {xs : List (Fin 6)} {i : Fin 6}
    (hi : i ∈ xs) : Tab.find (xs.foldl (fun t j => Tab.set t (key j) (val j)) t) (key i) = some (val i) := by
  have hset (xs : List (Fin 6)) (t : Tab Nat) (ht : Tab.find t (key i) = some (val i)) :
      Tab.find (xs.foldl (fun t j => Tab.set t (key j) (val j)) t) (key i) = some (val i) := by
    induction xs generalizing t with
    | nil => exact ht
    | cons x xs ih =>
      refine ih _ ?_
      by_cases h : key i = key x
      · rw [h, hinj _ _ h, Tab.find_set_self]
      · rw [Tab.find_set_ne _ _ h, ht]
  induction xs generalizing t with
  | nil => cases hi
  | cons x xs ih =>
    rcases List.mem_cons.mp hi with rfl | h
    · exact hset xs _ (Tab.find_set_self ..)
    · exact ih _ h

/-! ### The diagnostic window's register -/

theorem State.diagctl_written (s : State) (p v : Nat) :
    let t := (s.setFld (F.HIF_DIAGCTL_ALLOW p) (v % 2)).setFld (F.HIF_DIAGCTL_LOCK p) (v / 2 % 2)
    t.flag (F.HIF_DIAGCTL_ALLOW p) = bit v 0 ∧ t.flag (F.HIF_DIAGCTL_LOCK p) = bit v 1 := by
  refine ⟨?_, ?_⟩
  · rw [State.flag, State.fld_setFld_disjoint _ _ (show 0 + 1 ≤ 64 by decide) (.inl (show 0 + 1 ≤ 1 by decide)), ← State.flag,
      State.flag_setFld_self _ _ rfl (show 0 + 1 ≤ 64 by decide), Nat.mod_mod, bit, Nat.pow_zero, Nat.div_one]
    rfl
  · rw [State.flag_setFld_self _ _ rfl (show 1 + 1 ≤ 64 by decide), Nat.mod_mod, bit, Nat.pow_one]
    rfl

theorem State.closeDiag_keeps (s : State) (p : Nat) :
    let t := s.closeDiag p
    t.flag (F.HIF_DIAGCTL_ALLOW p) = s.flag (F.HIF_DIAGCTL_ALLOW p) ∧ t.flag (F.HIF_DIAGCTL_LOCK p) = s.flag (F.HIF_DIAGCTL_LOCK p) ∧
      t.flag (F.HIF_DIAGCTL_OPEN p) = false ∧ t.zne = s.zne ∧ t.mem = s.mem := by
  have hne : R.HIF_DIAGCTL p ≠ R.MGT_EVDROP := by
    unfold R.HIF_DIAGCTL R.MGT_EVDROP
    omega
  unfold State.closeDiag
  dsimp only
  split
  next hopen =>
    obtain ⟨hmem, hzne, -⟩ := ((s.setFld (F.HIF_DIAGCTL_OPEN p) 0).setFld (F.HIF_DIAGCTL_ISEL p) 0).post_keeps (0x0C + p) 0x0604
      [(8, p), (8, s.fld (F.HIF_DIAGCTL_ISEL p)), (8, 0)] 0xFF
    have hfld {f : Fld} (hf : f.addr = R.HIF_DIAGCTL p) := ((s.setFld (F.HIF_DIAGCTL_OPEN p) 0).setFld (F.HIF_DIAGCTL_ISEL p) 0).fld_post (0x0C + p) 0x0604
      [(8, p), (8, s.fld (F.HIF_DIAGCTL_ISEL p)), (8, 0)] 0xFF (hf ▸ hne)
    refine ⟨?_, ?_, ?_, hzne, hmem⟩
    · rw [State.flag, State.hifPost, hfld rfl, State.fld_setFld_disjoint _ _ (show 0 + 1 ≤ 64 by decide) (.inl (show 0 + 1 ≤ 8 by decide)),
        State.fld_setFld_disjoint _ _ (show 0 + 1 ≤ 64 by decide) (.inl (show 0 + 1 ≤ 2 by decide)), State.flag]
    · rw [State.flag, State.hifPost, hfld rfl, State.fld_setFld_disjoint _ _ (show 1 + 1 ≤ 64 by decide) (.inl (show 1 + 1 ≤ 8 by decide)),
        State.fld_setFld_disjoint _ _ (show 1 + 1 ≤ 64 by decide) (.inl (show 1 + 1 ≤ 2 by decide)), State.flag]
    · rw [State.flag, State.hifPost, hfld rfl, State.fld_setFld_disjoint _ _ (show 2 + 1 ≤ 64 by decide) (.inl (show 2 + 1 ≤ 8 by decide)),
        State.fld_setFld_self _ _ _ (show 2 + 1 ≤ 64 by decide)]
      rfl
  next hclosed => exact ⟨rfl, rfl, eq_false_of_ne_true hclosed, rfl, rfl⟩

end Machine

/-- Settles O43. -/
theorem pcieLinks : Obligations.pcie_links := by
  unfold Obligations.pcie_links
  refine ⟨⟨fun p s hact hlten hrail => ?enable, fun p s h => exec_linkEnable.trans (congrArg Host.Outcome.next (if_pos h)),
      fun p rate width s htrain hrate hmax hlanes hwidth => ?trained, fun p rate width s h => exec_linkTrained.trans (if_pos ?notTrained),
      fun p s hused => ?perst, fun p s hused => exec_perstAssert.trans (if_pos hused), fun p s hup => ?release,
      fun p s hup => exec_surpriseLinkDown.trans (if_neg (ne_false_of_eq_true hup)), fun p s hdown => exec_surpriseLinkDown.trans (if_pos hdown)⟩,
    fun p w s hen hrate hlps hmin hnarrow hidle => ?l0p, fun p w s h => exec_l0pWidthRequest.trans (if_neg ?noL0p), fun p l s hup hl => ?state,
    fun p l s hup hl hcur => ?active, fun p k rid s hsec => ?integrity, fun p eid h k n keys s => ?keys, fun p en n s hused hperst => ?vfs,
    fun p v s hlock => ?diag, fun p v s hlock => exec_diagctlWrite.trans (congrArg Host.Outcome.next (if_pos hlock))⟩
  case enable =>
    have hgo : s.linkEnable p.val = (s.setFld (F.HIF_LINKCFG_LTEN p.val) 1).startTraining p.val :=
      if_neg (by rw [hact, hlten, hrail]; decide)
    have hlten' : (s.setFld (F.HIF_LINKCFG_LTEN p.val) 1).flag (F.HIF_LINKCFG_LTEN p.val) = true :=
      State.flag_setFld_self _ _ rfl (show 16 + 1 ≤ 64 by decide)
    have hused : (s.setFld (F.HIF_LINKCFG_LTEN p.val) 1).portUsed p.val = s.portUsed p.val :=
      State.flag_setFld_ne _ _ (by unfold F.HIF_PORTSTAT_INUSE F.HIF_LINKCFG_LTEN R.HIF_PORTSTAT R.HIF_LINKCFG; dsimp only; omega)
    refine ⟨_, exec_linkEnable.trans (congrArg Host.Outcome.next hgo), hlten', ?_, rfl, rfl⟩
    refine (congrArg PortSt.training (State.port_modPort_self _ _ _)).trans ?_
    dsimp only
    rw [hlten', hused, Bool.and_true]
    rfl
  case trained =>
    obtain ⟨hup, hr, hw, hflit, hlps⟩ := s.linkUp_flds p.val rate.isLt width.isLt
    obtain ⟨htraining, hwas, hzne, hmem⟩ := s.linkUp_keeps p.val rate.toNat width.toNat
    have hrun := exec_linkTrained_ok htrain hrate hmax hlanes hwidth
    generalize s.linkUp p.val rate.toNat width.toNat = u at *
    obtain ⟨hfld, hport, hzne', hmem'⟩ := u.linkPosts_keeps p.val (if (s.port p.val).wasUp then 2 else 0) rate.toNat width.toNat
    generalize u.linkPosts p.val (if (s.port p.val).wasUp then 2 else 0) rate.toNat width.toNat = t at *
    have hshown {f : Fld} (hf : f.addr = R.HIF_PORTSTAT p.val) := hfld f (hf ▸ portstat_ne_evdrop p.val)
    refine ⟨t, hrun, ?_, (hshown rfl).trans hr, (hshown rfl).trans hw, ?_, (hshown rfl).trans hlps,
      (congrArg PortSt.training hport).trans htraining, (congrArg PortSt.wasUp hport).trans hwas, hzne'.trans hzne, hmem'.trans hmem⟩
    · rw [State.flag, hshown rfl, hup]
      rfl
    · rw [State.flag, hshown rfl, hflit]
      split
      next h => rw [decide_eq_true h]; rfl
      next h => rw [decide_eq_false h]; rfl
  case notTrained =>
    rcases h with h | h | h
    · exact .inr (.inl h)
    · exact .inr (.inr (.inl h))
    · exact .inr (.inr (.inr (.inr h)))
  case perst =>
    have hself := State.port_modPort_self (((s.setPerst p.val false).resetPortFns p.val false).linkDown p.val) p.val fun x => { x with
      training := false, perst := true, vfen := false, numVfs := 0, streams := [], wasUp := false }
    exact ⟨_, exec_perstAssert.trans (if_neg (ne_false_of_eq_true hused)), rfl, congrArg PortSt.perst hself, congrArg PortSt.vfen hself,
      congrArg PortSt.numVfs hself, congrArg PortSt.streams hself, congrArg PortSt.training hself⟩
  case release =>
    have hhigh : (s.setPerst p.val true).perstHigh p.val = true := by
      unfold State.setPerst State.perstHigh
      split <;> rfl
    have hrest := State.port_modPort_self (s.setPerst p.val true) p.val fun x => { x with perst := false }
    have hself := State.port_modPort_self ((s.setPerst p.val true).modPort p.val fun x => { x with perst := false }) p.val fun x => { x with
      training := s.portUsed p.val && s.flag (F.HIF_LINKCFG_LTEN p.val) && (s.setPerst p.val true).perstHigh p.val }
    refine ⟨_, exec_perstDeassert.trans (if_neg (ne_true_of_eq_false hup)), hhigh, ?_, ?_, rfl, rfl⟩
    · exact (congrArg PortSt.perst hself).trans (congrArg PortSt.perst hrest)
    · refine (congrArg PortSt.training hself).trans ?_
      dsimp only
      rw [hhigh, Bool.and_true]
  case l0p =>
    refine ⟨_, exec_l0pWidthRequest.trans (if_pos ⟨hen, hrate, hlps, hmin, ?_, hidle⟩), State.fld_setFld_self _ _ _ (show 13 + 3 ≤ 64 by decide),
      congrArg PortSt.l0pReq (State.port_modPort_self _ _ _), rfl, rfl⟩
    cases hreq : (s.port p.val).l0pReq with
    | none => rwa [hreq] at hnarrow
    | some v => rwa [hreq] at hnarrow
  case noL0p =>
    rintro ⟨hen, hrate, -, hmin, -, hidle⟩
    rcases h with h | h | h | h
    · exact absurd (hen.symm.trans h) (by decide)
    · exact h hrate
    · exact Nat.not_lt.mpr hmin h
    · exact Nat.not_lt.mpr hidle h
  case state =>
    have hself := State.port_modPort_self (s.setFld (F.HIF_PORTSTAT_LPS p.val) l.val) p.val fun x => { x with idle := s.now, l0pReq := none }
    exact ⟨s.linkState p.val l.val, s.linkState_lps p.val l, congrArg PortSt.idle hself, congrArg PortSt.l0pReq hself, rfl, rfl,
      fun hok => (exec_linkPowerStateChange_up hup hl).trans (if_pos hok),
      fun hno => (exec_linkPowerStateChange_up hup hl).trans (if_neg (ne_true_of_eq_false hno))⟩
  case active =>
    refine ⟨_, (exec_linkPowerStateChange_up hup hl).trans (if_pos ?_), s.linkState_lps p.val l, rfl, rfl⟩
    rw [hcur, State.linkAllows, decide_eq_true (show 0 < 2 by decide), Bool.or_true, Bool.true_or, Bool.true_or]
  case integrity =>
    refine ⟨s.ideFailed p.val k.val rid.toNat, exec_ideIntegrityFail_secure hsec [], ?_, s.ideFailed_count _ _ k, exec_ideIntegrityFail_secure hsec,
      s.ideFailed_fail _ _ k, fun j hj => ?_, ?_⟩
    · rw [s.ideFailed_secure p.val rid.toNat k k, bne_self_eq_false, Bool.false_and]
    · rw [s.ideFailed_secure p.val rid.toNat k j, bne_iff_ne.mpr hj, Bool.true_and]
    · obtain ⟨hmem, hzne, -⟩ := State.post_keeps _ (0x0C + p.val) 0x0603 [(8, p.val), (8, k.val), (16, rid.toNat)] 0xFF
      exact ⟨hzne, hmem⟩
  case keys =>
    intro e
    refine ⟨fun hhears hsession => ?_, fun hno => exec_ideKmKeyProgram.trans (if_pos hno)⟩
    have hself := State.port_modPort_self s p.val fun x => { x with streams := (List.finRange 6).foldl (fun (t : Tab Nat) (i : Fin 6) =>
      Tab.set t (ideKey k.val n.val (i.val / 2) (i.val % 2)) keys[i].toNat) x.streams }
    refine ⟨_, exec_ideKmKeyProgram.trans (if_neg (not_or.mpr ⟨ne_false_of_eq_true hhears, not_not.mpr hsession⟩)), ?_, fun i => ?_, rfl, rfl⟩
    · rw [State.fld_setFld_self _ _ _ (show 0 + 8 ≤ 64 by decide)]
      exact (bit_setBit_stream (State.fld_lt _ (Nat.le_refl (2 ^ 8))) k k).trans (by rw [beq_self_eq_true, Bool.true_or])
    · refine (congrArg (fun x : PortSt => Tab.find x.streams _) hself).trans ?_
      exact find_foldl_put _ (fun i : Fin 6 => ideKey k.val n.val (i.val / 2) (i.val % 2)) (fun i j => ideKey_injective k.val n.val)
        (fun i => keys[i].toNat) (List.mem_finRange i)
  case vfs =>
    have hgo : ¬(s.portUsed p.val = false ∨ (s.port p.val).perst = true) := by rw [hused, hperst]; decide
    refine ⟨fun hvf => ⟨_, exec_vfEnableWrite.trans ((if_neg hgo).trans (if_neg (ne_true_of_eq_false hvf))), ?_, ?_, rfl, rfl⟩, fun hvf => ?_, fun hvf => ?_⟩
    · exact congrArg PortSt.vfen (State.port_modPort_self _ _ _)
    · exact congrArg PortSt.numVfs (State.port_modPort_self _ _ _)
    · exact exec_vfEnableWrite.trans ((if_neg hgo).trans ((if_pos hvf).trans (if_pos rfl)))
    · exact ⟨_, exec_vfEnableWrite.trans ((if_neg hgo).trans ((if_pos hvf).trans (if_neg (by decide)))),
        congrArg PortSt.vfen (State.port_modPort_self _ _ _)⟩
  case diag =>
    obtain ⟨hallow, hlock'⟩ := s.diagctl_written p.val v.toNat
    rw [bit_toNat] at hallow hlock'
    obtain ⟨ha, hl, hopen, hzne, hmem⟩ := ((s.setFld (F.HIF_DIAGCTL_ALLOW p.val) (v.toNat % 2)).setFld (F.HIF_DIAGCTL_LOCK p.val) (v.toNat / 2 % 2)).closeDiag_keeps p.val
    have hlow : v.getLsbD 0 = decide (v.toNat % 2 = 1) := by
      rw [← bit_toNat, bit, Nat.pow_zero, Nat.div_one]
      rfl
    by_cases hv : v.toNat % 2 = 0
    · refine ⟨_, exec_diagctlWrite.trans (congrArg Host.Outcome.next ((if_neg (ne_true_of_eq_false hlock)).trans (if_pos hv))), ha.trans hallow,
        hl.trans hlock', fun _ => hopen, hzne.trans rfl, hmem.trans rfl⟩
    · refine ⟨_, exec_diagctlWrite.trans (congrArg Host.Outcome.next ((if_neg (ne_true_of_eq_false hlock)).trans (if_neg hv))), hallow,
        hlock', fun h => ?_, rfl, rfl⟩
      rw [hlow] at h
      exact absurd (Nat.mod_two_eq_zero_or_one v.toNat) (by simp [hv] at h)

end Sys2Proof
end

section
/-! PROOFS. Device resets, boot timers, OTP programming and the start-up (R52, R133, R221, R314 to R333, R365). -/

namespace Sys2Proof

open Machine

namespace Machine

/-! ### OTP programming -/

/-- The bits that an OTP command writes. -/
theorem otpcmd_bits (g : BitVec 7) (rr sr : BitVec 4) :
    let v := g.toNat + rr.toNat * 2 ^ 8 + sr.toNat * 2 ^ 12 + 2 ^ 31
    bits v 0 7 = g.toNat ∧ bits v 8 4 = rr.toNat ∧ bits v 12 4 = sr.toNat ∧ bit v 31 = true := by
  have hg := g.isLt
  have hr := rr.isLt
  have hs := sr.isLt
  unfold bits bit
  refine ⟨by omega, by omega, by omega, beq_iff_eq.mpr (by omega)⟩

/-- The fields that an OTP command writes. -/
def State.otpFields (s : State) (g rr sr : Nat) : State :=
  ((s.setFld F.SEC_OTPCMD_TARGET g).setFld F.SEC_OTPCMD_RREV rr).setFld F.SEC_OTPCMD_SREV sr

theorem State.otpFields_busy (s : State) (g rr sr : Nat) : (s.otpFields g rr sr).flag F.SEC_OTPCMD_BUSY = s.flag F.SEC_OTPCMD_BUSY := by
  rw [State.flag, State.otpFields, State.fld_setFld_disjoint _ _ (show 24 + 1 ≤ 64 by decide) (.inr (show 12 + 4 ≤ 24 by decide)),
    State.fld_setFld_disjoint _ _ (show 24 + 1 ≤ 64 by decide) (.inr (show 8 + 4 ≤ 24 by decide)),
    State.fld_setFld_disjoint _ _ (show 24 + 1 ≤ 64 by decide) (.inr (show 0 + 7 ≤ 24 by decide)), State.flag]

theorem State.otpFields_flds (s : State) (g : BitVec 7) (rr sr : BitVec 4) :
    let t := (s.otpFields g.toNat rr.toNat sr.toNat).setFld F.SEC_OTPCMD_BUSY 1
    t.fld F.SEC_OTPCMD_TARGET = g.toNat ∧ t.fld F.SEC_OTPCMD_RREV = rr.toNat ∧ t.fld F.SEC_OTPCMD_SREV = sr.toNat := by
  dsimp only
  unfold State.otpFields
  refine ⟨?_, ?_, ?_⟩
  · rw [State.fld_setFld_disjoint _ _ (show 0 + 7 ≤ 64 by decide) (.inl (show 0 + 7 ≤ 24 by decide)),
      State.fld_setFld_disjoint _ _ (show 0 + 7 ≤ 64 by decide) (.inl (show 0 + 7 ≤ 12 by decide)),
      State.fld_setFld_disjoint _ _ (show 0 + 7 ≤ 64 by decide) (.inl (show 0 + 7 ≤ 8 by decide)),
      State.fld_setFld_self _ _ _ (show 0 + 7 ≤ 64 by decide)]
    exact Nat.mod_eq_of_lt g.isLt
  · rw [State.fld_setFld_disjoint _ _ (show 8 + 4 ≤ 64 by decide) (.inl (show 8 + 4 ≤ 24 by decide)),
      State.fld_setFld_disjoint _ _ (show 8 + 4 ≤ 64 by decide) (.inl (show 8 + 4 ≤ 12 by decide)),
      State.fld_setFld_self _ _ _ (show 8 + 4 ≤ 64 by decide)]
    exact Nat.mod_eq_of_lt rr.isLt
  · rw [State.fld_setFld_disjoint _ _ (show 12 + 4 ≤ 64 by decide) (.inl (show 12 + 4 ≤ 24 by decide)),
      State.fld_setFld_self _ _ _ (show 12 + 4 ≤ 64 by decide)]
    exact Nat.mod_eq_of_lt sr.isLt

theorem exec_otpCommandGo_valid {g : BitVec 7} {rr sr : BitVec 4} {s : State} (hg : g.toNat ≤ 64) : exec (.otpCommandGo g rr sr) s =
    .next (if s.flag F.SEC_OTPCMD_BUSY = false then ((s.otpFields g.toNat rr.toNat sr.toNat).setFld F.SEC_OTPCMD_BUSY 1).bt fun b => { b with
        otpRun := some ⟨g.toNat, rr.toNat, sr.toNat⟩ }
      else s.otpFields g.toNat rr.toNat sr.toNat) := by
  obtain ⟨hb0, hb8, hb12, hb31⟩ := otpcmd_bits g rr sr
  have hbusy := s.otpFields_busy g.toNat rr.toNat sr.toNat
  rw [exec_otpCommandGo, execOtpCommandGo, State.otpcmdWrite, hb0, hb8, hb12, hb31, if_neg (Nat.not_lt.mpr hg), ← hbusy]
  refine congrArg Host.Outcome.next (if_congr ?_ rfl rfl)
  exact and_iff_right rfl

/-- The state after an OTP programming that no fault has met. -/
def State.otpProgrammed (s : State) (r : OtpRun) : State :=
  let s' := s.bt fun b => { b with otp := s.boot.otp.apply r (s.otpSkips r).1 (s.otpSkips r).2, otpRun := none }
  (((s'.setFld F.SEC_OTPCMD_BUSY 0).setFld F.SEC_OTPCMD_SKIP ((s.otpSkips r).1 + (s.otpSkips r).2 * 16)).setFld F.SEC_OTPCMD_ERR 0).setFld
    F.SEC_BOOTSTAT_OTPSVN (s.boot.otp.apply r (s.otpSkips r).1 (s.otpSkips r).2).svn

theorem exec_otpProgramDone_ok {r : OtpRun} {s : State} (hrun : s.boot.otpRun = some r) :
    ∃ items, exec (.otpProgramDone none) s = .next ((s.otpProgrammed r).secPost 0x070D items) := by
  have herr : decide (s.boot.otp.apply r (s.otpSkips r).1 (s.otpSkips r).2 ≠ s.boot.otp.apply r (s.otpSkips r).1 (s.otpSkips r).2) = false :=
    decide_eq_false (not_not.mpr rfl)
  rw [exec_otpProgramDone, execOtpProgramDone, hrun]
  dsimp only
  rw [herr]
  exact ⟨_, rfl⟩

theorem State.otpProgrammed_flags (s : State) (r : OtpRun) :
    (s.otpProgrammed r).flag F.SEC_OTPCMD_BUSY = false ∧ (s.otpProgrammed r).flag F.SEC_OTPCMD_ERR = false := by
  have hbusy : F.SEC_OTPCMD_BUSY.addr ≠ F.SEC_BOOTSTAT_OTPSVN.addr := by decide
  have herr : F.SEC_OTPCMD_ERR.addr ≠ F.SEC_BOOTSTAT_OTPSVN.addr := by decide
  unfold State.otpProgrammed State.flag
  dsimp only
  refine ⟨?_, ?_⟩
  · rw [State.fld_setFld_ne _ _ hbusy, State.fld_setFld_disjoint _ _ (show 24 + 1 ≤ 64 by decide) (.inl (show 24 + 1 ≤ 25 by decide)),
      State.fld_setFld_disjoint _ _ (show 24 + 1 ≤ 64 by decide) (.inr (show 16 + 8 ≤ 24 by decide)),
      State.fld_setFld_self _ _ _ (show 24 + 1 ≤ 64 by decide)]
    rfl
  · rw [State.fld_setFld_ne _ _ herr, State.fld_setFld_self _ _ _ (show 25 + 1 ≤ 64 by decide)]
    rfl

/-! ### The start-up -/

theorem exec_startUp_runs {x : StartIn} {s : State} (hrec : s.recovery = false) (hstarted : s.boot.started = false) (hloss : s.power.loss = none) :
    exec (.startUp x) s = .next ((s.startBase x).startEntry x ((s.startBase x).fld F.SEC_BOOTSTAT_SLOT)
      ((s.startBase x).bundleEntry ((s.startBase x).fld F.SEC_BOOTSTAT_SLOT) 0)) :=
  exec_startUp.trans (if_neg (by simp [hrec, hstarted, hloss]))

theorem State.startProfile_forming (s : State) (x : StartIn) (slot r : Nat) (h : s.hif.formReq = true) :
    s.startProfile x slot (some r) = s.startForm x r slot :=
  if_pos h

theorem State.startProfile_formed (s : State) (x : StartIn) (slot r : Nat) {g : Nat} (h : s.hif.formReq = false) (hgeom : s.boot.formed = some g) :
    s.startProfile x slot (some r) = (s.loadProfile r).startFormed x r g slot := by
  refine (if_neg (ne_true_of_eq_false h)).trans ?_
  rw [hgeom]

theorem State.startProfile_unformed (s : State) (x : StartIn) (slot r : Nat) (h : s.hif.formReq = false) (hgeom : s.boot.formed = none) :
    s.startProfile x slot (some r) = s.startBare (some (s.geomOf r (popOf x.ids))) := by
  refine (if_neg (ne_true_of_eq_false h)).trans ?_
  rw [hgeom]

theorem exec_startupHuskReplay_first {x : HuskIn} {l : Bool} {f : Found} {s : State} (h : s.zne.husk.replayed = false) :
    exec (.startupHuskReplay x l f) s = .next (if (s.failHdrs x.hdr).replayable x.bad then (s.failHdrs x.hdr).replay x
      else (s.failHdrs x.hdr).resync x l f).husksDone :=
  exec_startupHuskReplay.trans (if_neg (ne_true_of_eq_false h))

theorem State.replayable_iff (s : State) (bad : List (Fin 2 × Fin 6400)) : s.replayable bad = true ↔
    (s.copyDown 0 = false ∨ s.copyDown 1 = false) ∧ ∀ y, y ∈ bad → s.recGood bad 0 y.2.val = true ∨ s.recGood bad 1 y.2.val = true := by
  simp only [State.replayable, Bool.and_eq_true, Bool.or_eq_true, Bool.not_eq_true', List.all_eq_true]

end Machine

/-- Settles O31. -/
theorem resetsAndStartingUp : Obligations.resets_and_starting_up := by
  unfold Obligations.resets_and_starting_up
  refine ⟨⟨fun pc cm b bad k t0 d s hloss hheld => ?warm, fun s => rfl, fun t s hsince hdue => ?watchdog, fun s => ?stop,
      fun t s hat hdue hsel => ?recovery, fun t s hat hdue => ?formation, fun g rr sr s hg hidle => ?otpGo, fun g rr sr s hg hbusy => ?otpBusy,
      fun g rr sr s hg => ?otpHigh, fun r s hrun => ?otpDone⟩,
    fun x s hrec hstarted hloss => ?startUp, fun x l f s hnot => ?replay, fun x l f s hdone => exec_startupHuskReplay.trans (if_pos hdone)⟩
  case warm =>
    rw [exec_warmReset, execWarmReset, hloss]
    exact if_pos hheld
  case watchdog =>
    rw [exec_bootWatchdogExpiry, execBootWatchdogExpiry, hsince]
    exact if_pos hdue
  case stop => exact ⟨_, rfl, State.flag_setFld_self s 0 rfl (show 8 + 1 ≤ 64 by decide), rfl, rfl, rfl⟩
  case recovery =>
    dsimp only
    rw [exec_recoveryResetDelay, execRecoveryResetDelay, hat]
    dsimp only
    rw [if_pos ⟨hdue, hsel⟩]
    cases s.activeWord <;> rfl
  case formation =>
    rw [exec_formationResetDelay, execFormationResetDelay, hat]
    exact if_pos hdue
  case otpGo =>
    obtain ⟨htarget, hrrev, hsrev⟩ := s.otpFields_flds g rr sr
    exact ⟨_, (exec_otpCommandGo_valid hg).trans (congrArg Host.Outcome.next (if_pos hidle)),
      State.flag_setFld_self _ _ rfl (show 24 + 1 ≤ 64 by decide), htarget, hrrev, hsrev, rfl, rfl, rfl⟩
  case otpBusy =>
    exact (exec_otpCommandGo_valid hg).trans (congrArg Host.Outcome.next (if_neg (ne_false_of_eq_true hbusy)))
  case otpHigh =>
    obtain ⟨hb0, -⟩ := otpcmd_bits g rr sr
    rw [exec_otpCommandGo, execOtpCommandGo, State.otpcmdWrite, hb0, if_pos hg]
  case otpDone =>
    obtain ⟨items, hexec⟩ := exec_otpProgramDone_ok hrun
    obtain ⟨hbusy, herr⟩ := s.otpProgrammed_flags r
    obtain ⟨hmem, hzne, -, -, hboot, -⟩ := (s.otpProgrammed r).post_keeps 0x03 0x070D items 0xFF
    refine ⟨_, hexec, congrArg Boot.otp hboot, congrArg Boot.otpRun hboot, ?_, ?_, hmem, hzne⟩
    · rwa [State.flag, State.secPost, State.fld_post _ _ _ _ _ (show F.SEC_OTPCMD_BUSY.addr ≠ R.MGT_EVDROP by decide)]
    · rwa [State.flag, State.secPost, State.fld_post _ _ _ _ _ (show F.SEC_OTPCMD_ERR.addr ≠ R.MGT_EVDROP by decide)]
  case startUp =>
    intro u slot
    have hrun : exec (.startUp x) s = .next (u.startEntry x slot (u.bundleEntry slot 0)) := exec_startUp_runs hrec hstarted hloss
    clear_value slot u
    refine ⟨fun hnone => ?_, fun b hentry => ?_⟩
    · rw [hrun, hnone, State.startEntry]
    · intro v
      have hprofile : exec (.startUp x) s = .next (v.2.startProfile x slot v.1) := by
        rw [hrun, hentry, State.startEntry]
      clear_value v
      obtain ⟨profile, t⟩ := v
      refine ⟨fun hv => ?_, fun r g hv hform hgeom => ?_, fun r hv hform => ?_, fun r hv hform hgeom => ?_⟩ <;> subst hv
      · exact hprofile
      · rw [hprofile, t.startProfile_formed x slot r hform hgeom]
      · rw [hprofile, t.startProfile_forming x slot r hform]
      · rw [hprofile, t.startProfile_unformed x slot r hform hgeom]
  case replay =>
    intro u
    refine ⟨fun h => ?_, fun h => ?_, u.replayable_iff x.bad⟩
    · rw [exec_startupHuskReplay_first hnot, if_pos h]
    · rw [exec_startupHuskReplay_first hnot, if_neg (ne_true_of_eq_false h)]

end Sys2Proof
end

section
/-! PROOFS. The SPDM responder and NVMe-MI (R276, R328 to R332, R396). -/

namespace Sys2Proof

open Machine

namespace Machine

/-! ### What an answer leaves -/

theorem State.boot_spdm (s : State) (e : EpId) (r : SpdmRsp) (p1 p2 : Nat) (data : List Byte) :
    (s.spdm e r p1 p2 data).boot = { s.boot with msgs := s.boot.msgs ++ [⟨epKey e, r.code, p1, p2, data⟩] } := by
  unfold State.spdm
  dsimp only
  split <;> rfl

theorem State.ep_spdm (s : State) (e : EpId) (r : SpdmRsp) (p1 p2 : Nat) (data : List Byte) (g : EpId) :
    (s.spdm e r p1 p2 data).ep g = s.ep g := by
  rw [State.ep, s.boot_spdm, State.ep]

theorem State.msgs_spdm_length (s : State) (e : EpId) (r : SpdmRsp) (p1 p2 : Nat) (data : List Byte) :
    (s.spdm e r p1 p2 data).boot.msgs.length = s.boot.msgs.length + 1 := by
  rw [s.boot_spdm]
  exact List.length_append

theorem State.ep_modEp_self (s : State) (e : EpId) (f : SpdmEp → SpdmEp) : (s.modEp e f).ep e = f (s.ep e) := Tab.getD_set_self ..

/-! ### Requests that are heard -/

theorem State.negotiated_of_go {s : State} {e : EpId} (h : s.spdmGo e) (f : State → State) : s.negotiated e f = .next (f s) := by
  obtain ⟨hhears, hstage⟩ := h
  rw [State.negotiated, if_neg (ne_false_of_eq_true hhears), if_neg (Nat.not_lt.mpr hstage)]

theorem State.negotiated_early {s : State} {e : EpId} (hhears : s.hears e = true) (hstage : (s.ep e).stage < 3) (f : State → State) :
    s.negotiated e f = .next (s.spdmUnexpected e) := by
  rw [State.negotiated, if_neg (ne_false_of_eq_true hhears), if_pos hstage]

theorem exec_getVersion_heard {e : EpId} {s : State} (h : s.hears e = true) : exec (.getVersion e) s =
    .next ((s.modEp e fun x => { x with stage := 1, sessions := [] }).spdm e .version 0 0 (leBytes 1 1 ++ leBytes 2 0x1200)) :=
  exec_getVersion.trans (if_neg (ne_false_of_eq_true h))

theorem exec_getCapabilities_heard {e : EpId} {s : State} (h : s.hears e = true) : exec (.getCapabilities e) s =
    if (s.ep e).stage = 0 then .next (s.spdmUnexpected e)
    else .next ((s.modEp e fun x => { x with stage := 2 }).spdm e .capabilities 0 0 (leBytes 4 spdmCaps ++ leBytes 4 4608 ++ leBytes 4 4608)) :=
  exec_getCapabilities.trans (if_neg (ne_false_of_eq_true h))

/-- The algorithms that the responder answers (R330). -/
def spdmAlgorithms : List Byte :=
  leBytes 4 (2 ^ 3) ++ leBytes 4 (2 ^ 1) ++ leBytes 4 (2 ^ 2) ++ leBytes 2 (2 ^ 4) ++ leBytes 2 (2 ^ 1) ++ leBytes 2 1

theorem exec_negotiateAlgorithms_heard {e : EpId} {s : State} (h : s.hears e = true) (asym hash : W32) :
    exec (.negotiateAlgorithms e asym hash) s = if (s.ep e).stage < 2 then .next (s.spdmUnexpected e)
      else if asym.getLsbD 3 = false ∨ hash.getLsbD 1 = false then .next (s.spdmInvalid e)
      else .next ((s.modEp e fun x => { x with stage := 3 }).spdm e .algorithms 0 0 spdmAlgorithms) := by
  rw [← bit_toNat, ← bit_toNat]
  exact exec_negotiateAlgorithms.trans (if_neg (ne_false_of_eq_true h))

/-! ### Measurements -/

theorem exec_getMeasurements_unsigned {e : EpId} {i : BitVec 8} {h : BitVec 384} {s : State} (hgo : s.spdmGo e) (ms : List (Nat × List Byte))
    (hms : (if i.toNat = 0xFF then s.boot.meas else s.boot.meas.filter fun m => m.1 == i.toNat) = ms) : exec (.getMeasurements e i false h) s =
    .next (if i.toNat ≠ 0 ∧ ms.isEmpty = true then s.spdmInvalid e
      else s.spdm e .measurements (if i = 0 then s.boot.meas.length else ms.length) 0 (ms.map fun m => measBlock m.1 m.2).flatten) := by
  rw [← hms]
  exact exec_getMeasurements.trans (State.negotiated_of_go hgo _)

/-- The oldest of the signatures under way is the last of them. -/
theorem getLast?_filter_append {α : Type} (p : α → Bool) (xs : List α) {x : α} (h : p x = true) : ((xs ++ [x]).filter p).getLast? = some x := by
  rw [List.filter_append, List.filter_cons_of_pos h]
  exact List.getLast?_concat

end Machine

/-- Settles O53. -/
theorem attestation : Obligations.attestation := by
  unfold Obligations.attestation
  refine ⟨fun e s hhears => ?connect, fun e s hdeaf => ⟨exec_getVersion.trans (if_pos hdeaf), exec_getDigests.trans (if_pos hdeaf)⟩,
    fun e s hgo => ?go, fun e x xs s hsigs hunder => ?done, fun b ty port ctl s hup => ?mi, fun fn e s hgo => ?tunnel⟩
  case connect =>
    refine ⟨⟨_, exec_getVersion_heard hhears, ?_, ?_, ?_⟩, fun hnew => ?_, fun hold => ?_, fun a h hearly => ?_,
      fun a h hlate ha hh => ?_, fun a h hlate hno => ?_, fun hearly => ⟨?_, fun h => ?_, fun i g h => ?_⟩⟩
    · rw [State.ep_spdm, State.ep_modEp_self]
    · rw [State.ep_spdm, State.ep_modEp_self]
    · rw [State.boot_spdm]
      rfl
    · exact (exec_getCapabilities_heard hhears).trans (if_pos hnew)
    · refine ⟨_, (exec_getCapabilities_heard hhears).trans (if_neg hold), ?_, State.msgs_spdm_length _ _ _ _ _ _⟩
      rw [State.ep_spdm, State.ep_modEp_self]
    · exact (exec_negotiateAlgorithms_heard hhears a h).trans (if_pos hearly)
    · refine ⟨_, (exec_negotiateAlgorithms_heard hhears a h).trans ((if_neg (Nat.not_lt.mpr hlate)).trans
        (if_neg (not_or.mpr ⟨ne_false_of_eq_true ha, ne_false_of_eq_true hh⟩))), ?_⟩
      rw [State.ep_spdm, State.ep_modEp_self]
    · exact (exec_negotiateAlgorithms_heard hhears a h).trans ((if_neg (Nat.not_lt.mpr hlate)).trans (if_pos hno))
    · exact exec_getDigests.trans (State.negotiated_early hhears hearly _)
    · exact exec_keyExchange.trans (State.negotiated_early hhears hearly _)
    · exact exec_getMeasurements.trans (State.negotiated_early hhears hearly _)
  case go =>
    refine ⟨exec_getDigests.trans (State.negotiated_of_go hgo _), fun k off len hk hoff => ?chain,
      fun k off len hk => exec_getCertificate.trans ((State.negotiated_of_go hgo _).trans (congrArg Host.Outcome.next (if_pos (.inl hk)))),
      fun h => exec_challenge.trans (State.negotiated_of_go hgo _), fun h => ?count, fun i h m hm hi h0 hFF => ?one, fun i h h0 hnone hFF => ?noIndex,
      fun h hmeas => ?all, fun h hpcie => ?key, fun h hbus => exec_keyExchange.trans ((State.negotiated_of_go hgo _).trans
        (congrArg Host.Outcome.next (if_pos hbus))), fun k hk => ?finish, fun k hk => ?noFinish, fun k hk => ?endSession,
      fun op off len h hop hpos hmax hoff hsigs => ?sign⟩
    case chain =>
      intro n
      refine exec_getCertificate.trans ((State.negotiated_of_go hgo _).trans (congrArg Host.Outcome.next (if_neg ?_)))
      exact not_or.mpr ⟨Nat.not_le.mpr hk, Nat.not_le.mpr hoff⟩
    case count =>
      refine (exec_getMeasurements_unsigned hgo _ rfl).trans ?_
      rw [if_neg (fun hc => hc.1 rfl), if_pos rfl, if_neg (by decide)]
      rfl
    case one =>
      refine ⟨_, (exec_getMeasurements_unsigned hgo _ (if_neg hFF)).trans (congrArg Host.Outcome.next (if_neg ?_)), State.msgs_spdm_length _ _ _ _ _ _⟩
      rintro ⟨-, hempty⟩
      have hmem : m ∈ s.boot.meas.filter fun m => m.1 == i.toNat := List.mem_filter.mpr ⟨hm, beq_iff_eq.mpr hi⟩
      rw [List.isEmpty_iff.mp hempty] at hmem
      exact absurd hmem List.not_mem_nil
    case noIndex =>
      refine (exec_getMeasurements_unsigned hgo [] ((if_neg hFF).trans ?_)).trans (congrArg Host.Outcome.next (if_pos ⟨h0, rfl⟩))
      exact List.filter_eq_nil_iff.mpr fun m hm heq => hnone m hm (beq_iff_eq.mp heq)
    case all =>
      refine (exec_getMeasurements_unsigned hgo _ (if_pos rfl)).trans (congrArg Host.Outcome.next (if_neg ?_))
      exact fun hc => hmeas (List.isEmpty_iff.mp hc.2)
    case key =>
      refine ⟨_, exec_keyExchange.trans ((State.negotiated_of_go hgo _).trans (congrArg Host.Outcome.next (if_neg (Nat.not_le.mpr hpcie)))), ?_, ?_⟩
      · rw [State.ep_spdm, State.ep_modEp_self]
        exact Tab.find_set_self ..
      · rw [State.boot_spdm]
        rfl
    case finish =>
      refine ⟨_, exec_finish.trans ((State.negotiated_of_go hgo _).trans (congrArg Host.Outcome.next (by rw [hk]))), ?_⟩
      rw [State.ep_spdm, State.ep_modEp_self]
      exact Tab.find_set_self ..
    case noFinish =>
      refine exec_finish.trans ((State.negotiated_of_go hgo _).trans (congrArg Host.Outcome.next ?_))
      split
      next h => exact absurd h hk
      next => rfl
    case endSession =>
      obtain ⟨x, hx⟩ := Option.isSome_iff_exists.mp hk
      have hexec : exec (.endSession e k) s = .next ((s.modEp e fun y => { y with sessions := Tab.erase y.sessions k.toNat }).spdm e .endSession
          k.toNat 0 []) := by
        rw [exec_endSession, execEndSession, State.negotiated_of_go hgo, hx]
      refine ⟨_, hexec, ?_, State.msgs_spdm_length _ _ _ _ _ _⟩
      rw [State.ep_spdm, State.ep_modEp_self]
    case sign =>
      refine exec_slhDsaSignatureRequest.trans ((State.negotiated_of_go hgo _).trans (congrArg Host.Outcome.next ((if_neg ?_).trans ?_)))
      · rintro (h | h | h | h)
        · exact h hop
        · omega
        · omega
        · omega
      · rw [hsigs]
        exact congrArg (s.spdm e .vendor 2 0) (List.append_nil _)
  case done =>
    have hexec : exec (.slhDsaSignDone e) s = .next (s.modEp e fun y => { y with
        sigs := (s.ep e).sigs.map fun z => if z = x then { z with done := true } else z }) := by
      rw [exec_slhDsaSignDone, execSlhDsaSignDone, hsigs, getLast?_filter_append _ xs (by rw [hunder]; rfl)]
    refine ⟨_, hexec, ?_, rfl, rfl⟩
    rw [State.ep_modEp_self, hsigs]
    exact List.mem_map.mpr ⟨x, List.mem_append_right _ (List.mem_singleton.mpr rfl), if_pos rfl⟩
  case mi =>
    refine ⟨fun d hd => ?_, fun hnone => ?_, exec_subsystemHealthStatusPoll.trans (if_neg (ne_false_of_eq_true hup))⟩
    · rw [exec_readNvmeMiDataStructure, execReadNvmeMiDataStructure, if_neg (ne_false_of_eq_true hup), hd]
    · rw [exec_readNvmeMiDataStructure, execReadNvmeMiDataStructure, if_neg (ne_false_of_eq_true hup), hnone]
  case tunnel =>
    refine ⟨exec_nvmeMiSend.trans (State.admin_of_go e _ hgo), fun hop => exec_nvmeMiReceive.trans ((State.admin_of_go e _ hgo).trans ?_)⟩
    rw [hop]
    rfl

end Sys2Proof
end

section
/-! PROOFS. The key-wrap engine, the namespaces' keys and the entropy source (R302 to R308, R312, R314). -/

namespace Sys2Proof

open Machine

namespace Machine

/-! ### Commands of the engine -/

/-- The fields of the word that starts an operation. -/
theorem kweWord_bits {n : Nat} (hn : n < 16) (k w : BitVec 12) : bits (kweWord n k w) 0 4 = n ∧ bits (kweWord n k w) 4 12 = k.toNat ∧
    bits (kweWord n k w) 16 12 = w.toNat ∧ bits (kweWord n k w) 0 28 = n + k.toNat * 2 ^ 4 + w.toNat * 2 ^ 16 ∧ bit (kweWord n k w) 31 = true := by
  have hk := k.isLt
  have hw := w.isLt
  unfold kweWord bits bit
  refine ⟨by omega, by omega, by omega, by omega, beq_iff_eq.mpr (by omega)⟩

/-- The six commands write KWE_CMD with their numbers. -/
theorem exec_kwe {c : CoreId} {k w : BitVec 12} {i : Instr} {n : Nat} (s : State)
    (h : (i, n) ∈ [(Instr.kweGen c k w, 1), (.kweWrap c k w, 2), (.kweUnwrap c k w, 3), (.kweZero c k w, 4), (.kweSeal c k w, 5), (.kweUnseal c k w, 6)]) :
    (1 ≤ n ∧ n ≤ 6) ∧ exec i s = .next (s.kweCmd (.core c) (kweWord n k w)) := by
  simp only [List.mem_cons, Prod.mk.injEq, List.not_mem_nil, or_false] at h
  rcases h with ⟨rfl, rfl⟩ | ⟨rfl, rfl⟩ | ⟨rfl, rfl⟩ | ⟨rfl, rfl⟩ | ⟨rfl, rfl⟩ | ⟨rfl, rfl⟩ <;> exact ⟨by decide, rfl⟩

theorem State.kweCmd_of_other {s : State} {c : CoreId} (h : s.flag F.KWE_LOCK_HELD = false ∨ s.fld F.KWE_LOCK_OWNER ≠ c.val) (v : Nat) :
    s.kweCmd (.core c) v = s.kweRefused (.core c) 0x108 := by
  refine if_pos (Bool.and_eq_false_iff.mpr ?_)
  exact h.imp_right beq_eq_false_iff_ne.mpr

/-- The operation that a command of the holder starts. -/
def State.kweStarted (s : State) (n : Nat) (c : CoreId) (k w : BitVec 12) : State :=
  let s := (s.setWord R.KWE_CMD (BitVec.ofNat 64 (n + k.toNat * 2 ^ 4 + w.toNat * 2 ^ 16))).setFld F.KWE_STAT_BUSY 1
  s.sc fun x => { x with op := some ⟨n, k.toNat, w.toNat, (s.word R.KWE_ADDR).toNat, s.fld F.KWE_LEN_LEN, c.val⟩, since := s.now }

theorem State.kweCmd_of_holder {s : State} {c : CoreId} (hheld : s.flag F.KWE_LOCK_HELD = true) (hown : s.fld F.KWE_LOCK_OWNER = c.val) {n : Nat}
    (hn : 1 ≤ n ∧ n ≤ 6) (k w : BitVec 12) : s.kweCmd (.core c) (kweWord n k w) =
      if s.flag F.KWE_STAT_BUSY = false then s.kweStarted n c k w
      else s.setWord R.KWE_CMD (BitVec.ofNat 64 (n + k.toNat * 2 ^ 4 + w.toNat * 2 ^ 16)) := by
  obtain ⟨hop, hslot, hkek, hall, hgo⟩ := kweWord_bits (show n < 16 by omega) k w
  have hby : s.kweHeldBy (.core c) = true := Bool.and_eq_true_iff.mpr ⟨hheld, beq_iff_eq.mpr hown⟩
  have hbusy : (s.setWord R.KWE_CMD (BitVec.ofNat 64 (n + k.toNat * 2 ^ 4 + w.toNat * 2 ^ 16))).flag F.KWE_STAT_BUSY = s.flag F.KWE_STAT_BUSY := by
    rw [State.flag, State.fld, State.word_setWord_ne _ _ (show F.KWE_STAT_BUSY.addr ≠ R.KWE_CMD by decide), State.flag, State.fld]
  rw [State.kweCmd, hop, hslot, hkek, hall, hgo, if_neg (ne_false_of_eq_true hby), if_neg (by omega)]
  dsimp only
  rw [hbusy]
  exact if_congr (and_iff_right rfl) rfl rfl

theorem State.kweStarted_op (s : State) (n : Nat) (c : CoreId) (k w : BitVec 12) : (s.kweStarted n c k w).sec.op =
    some ⟨n, k.toNat, w.toNat, (s.word R.KWE_ADDR).toNat, s.fld F.KWE_LEN_LEN, c.val⟩ := by
  have haddr : ((s.setWord R.KWE_CMD (BitVec.ofNat 64 (n + k.toNat * 2 ^ 4 + w.toNat * 2 ^ 16))).setFld F.KWE_STAT_BUSY 1).word R.KWE_ADDR = s.word R.KWE_ADDR := by
    rw [State.word_setFld_ne _ _ (show R.KWE_ADDR ≠ F.KWE_STAT_BUSY.addr by decide), State.word_setWord_ne _ _ (show R.KWE_ADDR ≠ R.KWE_CMD by decide)]
  have hlen : ((s.setWord R.KWE_CMD (BitVec.ofNat 64 (n + k.toNat * 2 ^ 4 + w.toNat * 2 ^ 16))).setFld F.KWE_STAT_BUSY 1).fld F.KWE_LEN_LEN = s.fld F.KWE_LEN_LEN := by
    rw [State.fld_setFld_ne _ _ (show F.KWE_LEN_LEN.addr ≠ F.KWE_STAT_BUSY.addr by decide), State.fld,
      State.word_setWord_ne _ _ (show F.KWE_LEN_LEN.addr ≠ R.KWE_CMD by decide), State.fld]
  rw [← haddr, ← hlen]
  rfl

theorem exec_kwe_started {c : CoreId} {k w : BitVec 12} {i : Instr} {n : Nat} {s : State} (hheld : s.flag F.KWE_LOCK_HELD = true)
    (hown : s.fld F.KWE_LOCK_OWNER = c.val) (hidle : s.flag F.KWE_STAT_BUSY = false)
    (h : (i, n) ∈ [(Instr.kweGen c k w, 1), (.kweWrap c k w, 2), (.kweUnwrap c k w, 3), (.kweZero c k w, 4), (.kweSeal c k w, 5), (.kweUnseal c k w, 6)]) :
    exec i s = .next (s.kweStarted n c k w) := by
  obtain ⟨hn, hexec⟩ := exec_kwe s h
  rw [hexec, State.kweCmd_of_holder hheld hown hn, if_pos hidle]

/-! ### The end of an operation, and the release -/

theorem State.kweEnd_keeps (s : State) {res : Nat} (hres : res < 16) : let t := s.kweEnd res
    t.fld F.KWE_STAT_RES = res ∧ t.flag F.KWE_STAT_DONE = true ∧ t.flag F.KWE_STAT_BUSY = false ∧ t.sec = { s.sec with op := none } ∧
      t.mem = s.mem ∧ ∀ key, key ≠ R.KWE_STAT → t.word key = s.word key := by
  have hbusy : (s.kweEnd res).fld F.KWE_STAT_BUSY = 0 := by
    refine (State.fld_setFld_disjoint _ _ (show 0 + 1 ≤ 64 by decide) (.inl (show 0 + 1 ≤ 2 by decide))).trans ?_
    rw [State.fld_setFld_disjoint _ _ (show 0 + 1 ≤ 64 by decide) (.inl (show 0 + 1 ≤ 1 by decide)), State.fld_setFld_self _ _ _ (show 0 + 1 ≤ 64 by decide)]
    rfl
  have hdone : (s.kweEnd res).fld F.KWE_STAT_DONE = 1 := by
    refine (State.fld_setFld_disjoint _ _ (show 1 + 1 ≤ 64 by decide) (.inl (show 1 + 1 ≤ 2 by decide))).trans ?_
    rw [State.fld_setFld_self _ _ _ (show 1 + 1 ≤ 64 by decide)]
    rfl
  refine ⟨(State.fld_setFld_self _ _ _ (show 2 + 4 ≤ 64 by decide)).trans (Nat.mod_eq_of_lt hres), bne_iff_ne.mpr (by rw [hdone]; decide),
    bne_eq_false_iff_eq.mpr hbusy, rfl, rfl, fun key hkey => ?_⟩
  refine (State.word_setFld_ne _ _ hkey).trans ?_
  rw [State.word_setFld_ne _ _ hkey, State.word_setFld_ne _ _ hkey]

/-- What the release of a running operation leaves of its slot (R302). -/
def State.kweAbandoned (s : State) (o : KweOp) : State := if o.op = 1 ∨ o.op = 3 ∨ o.op = 4 then s.zeroSlot o.slot else s

theorem State.kweRelease_running {s : State} {o : KweOp} (h : s.sec.op = some o) :
    s.kweRelease = ((s.setFld F.KWE_LOCK_HELD 0).kweAbandoned o).kweEnd 5 := by
  have hop : (s.setFld F.KWE_LOCK_HELD 0).sec.op = some o := h
  rw [State.kweRelease, hop, State.kweAbandoned]

theorem State.kweAbandoned_keeps (s : State) (o : KweOp) : (s.kweAbandoned o).mem = s.mem ∧
    ∀ key, key < 0x301000 → (s.kweAbandoned o).word key = s.word key := by
  unfold State.kweAbandoned
  split
  · exact ⟨rfl, fun key hkey => s.word_setWord_ne _ (by unfold R.SEC_KSATTR; omega)⟩
  · exact ⟨rfl, fun key _ => rfl⟩

section

variable {s : State} {o : KweOp} (hop : s.sec.op = some o)
include hop

theorem exec_kweOperationDone_gen (h : o.op = 1) : exec .kweOperationDone s = .next (s.kweGen o) := by
  rw [exec_kweOperationDone, execKweOperationDone, hop]
  dsimp only
  rw [h]
  rfl

theorem exec_kweOperationDone_wrap (h : o.op = 2) : exec .kweOperationDone s = .next (s.kweWrap o) := by
  rw [exec_kweOperationDone, execKweOperationDone, hop]
  dsimp only
  rw [h]
  rfl

theorem exec_kweOperationDone_unwrap (h : o.op = 3) : exec .kweOperationDone s = .next (s.kweUnwrap o) := by
  rw [exec_kweOperationDone, execKweOperationDone, hop]
  dsimp only
  rw [h]
  rfl

end

/-! ### Completions of creations that waited -/

theorem State.raiseInt_keeps (s : State) (fn cq : Nat) : (s.raiseInt fn cq).csr = s.csr ∧ (s.raiseInt fn cq).sec = s.sec := by
  unfold State.raiseInt
  split
  · exact ⟨rfl, rfl⟩
  · dsimp only
    split <;> exact ⟨rfl, rfl⟩

/-- A completion of any function changes no register and no key. -/
theorem State.adminDone_keeps (s : State) (fn : Nat) (e : Sqe) (st : Status) :
    (s.adminDone fn e st).csr = s.csr ∧ (s.adminDone fn e st).sec = s.sec := by
  unfold State.adminDone State.postCpl
  split
  · exact ⟨rfl, rfl⟩
  split
  · exact ⟨rfl, rfl⟩
  · dsimp only
    exact State.raiseInt_keeps _ _ _

theorem State.adminDone_foldl_keeps (ws : List NmWait) (s : State) :
    (ws.foldl (fun s w => s.adminDone w.fn w.sqe .internalError) s).csr = s.csr ∧
      (ws.foldl (fun s w => s.adminDone w.fn w.sqe .internalError) s).sec = s.sec := by
  induction ws generalizing s with
  | nil => exact ⟨rfl, rfl⟩
  | cons w ws ih =>
    obtain ⟨hcsr, hsec⟩ := s.adminDone_keeps w.fn w.sqe .internalError
    obtain ⟨hcsr', hsec'⟩ := ih (s.adminDone w.fn w.sqe .internalError)
    exact ⟨hcsr'.trans hcsr, hsec'.trans hsec⟩

/-! ### Entropy -/

/-- The registers of a failed entropy test (R314). -/
def State.entropyFailed (s : State) (a : Bool) : State :=
  ((s.setFld F.SEC_TRNGSTAT_HEALTHY 0).setFld F.SEC_TRNGSTAT_KEYBLK 1).setFld (if a then F.SEC_TRNGSTAT_APTFAIL else F.SEC_TRNGSTAT_RCTFAIL) 1

theorem State.entropyFailed_flds (s : State) (a : Bool) : (s.entropyFailed a).fld F.SEC_TRNGSTAT_HEALTHY = 0 ∧
    (s.entropyFailed a).fld F.SEC_TRNGSTAT_KEYBLK = 1 ∧
    (s.entropyFailed a).fld (if a then F.SEC_TRNGSTAT_APTFAIL else F.SEC_TRNGSTAT_RCTFAIL) = 1 := by
  unfold State.entropyFailed
  cases a
  · refine ⟨?_, ?_, State.fld_setFld_self _ _ _ (show 1 + 1 ≤ 64 by decide)⟩
    · refine (State.fld_setFld_disjoint _ _ (show 0 + 1 ≤ 64 by decide) (.inl (show 0 + 1 ≤ 1 by decide))).trans ?_
      rw [State.fld_setFld_disjoint _ _ (show 0 + 1 ≤ 64 by decide) (.inl (show 0 + 1 ≤ 3 by decide)), State.fld_setFld_self _ _ _ (show 0 + 1 ≤ 64 by decide)]
      rfl
    · refine (State.fld_setFld_disjoint _ _ (show 3 + 1 ≤ 64 by decide) (.inr (show 1 + 1 ≤ 3 by decide))).trans ?_
      exact State.fld_setFld_self _ _ _ (show 3 + 1 ≤ 64 by decide)
  · refine ⟨?_, ?_, State.fld_setFld_self _ _ _ (show 2 + 1 ≤ 64 by decide)⟩
    · refine (State.fld_setFld_disjoint _ _ (show 0 + 1 ≤ 64 by decide) (.inl (show 0 + 1 ≤ 2 by decide))).trans ?_
      rw [State.fld_setFld_disjoint _ _ (show 0 + 1 ≤ 64 by decide) (.inl (show 0 + 1 ≤ 3 by decide)), State.fld_setFld_self _ _ _ (show 0 + 1 ≤ 64 by decide)]
      rfl
    · refine (State.fld_setFld_disjoint _ _ (show 3 + 1 ≤ 64 by decide) (.inr (show 2 + 1 ≤ 3 by decide))).trans ?_
      exact State.fld_setFld_self _ _ _ (show 3 + 1 ≤ 64 by decide)

end Machine

/-- Settles O54. -/
theorem keyEngine : Obligations.key_engine := by
  unfold Obligations.key_engine
  refine ⟨fun c s hfree => ?grant, fun c s hheld => ?held, fun c v s hheld hown => ?release, fun c v s h => ?notOwner, fun c k w s h => ?other,
    fun c k w s hheld hown => ⟨fun hbusy i n hin => ?busy, fun hidle i n hin => ?started⟩, fun o s hop hslot => ?done, fun o s hop hfull => ?full,
    fun n v s hcur hold => ?plain, fun n v s hcur hold => ?checked, fun n v s hcur hbad => ?failed, fun a n s => ?entropy,
    fun s hblk => exec_entropyRestartTestPass.trans (if_neg (ne_true_of_eq_false hblk)), fun s hblk => exec_entropyRestartTestPass.trans (if_pos hblk),
    fun s hnone => ?noWait, fun s => ?wait, fun c k w s hheld hown hidle => ?six⟩
  case grant =>
    have hread : s.kweLockRead (.core c) = (s.setFld F.KWE_LOCK_HELD 1).setFld F.KWE_LOCK_OWNER c.val := if_neg (ne_true_of_eq_false hfree)
    refine ⟨_, congrArg Host.Outcome.next (congrArg (fun t : State => t.answer (.core c) (t.word R.KWE_LOCK)) hread), ?_, ?_, Tab.find_set_self .., rfl, rfl⟩
    · refine bne_iff_ne.mpr (ne_of_eq_of_ne ?_ Nat.one_ne_zero)
      refine (State.fld_setFld_disjoint _ _ (show 5 + 1 ≤ 64 by decide) (.inr (show 0 + 5 ≤ 5 by decide))).trans ?_
      exact State.fld_setFld_self _ _ _ (show 5 + 1 ≤ 64 by decide)
    · exact (State.fld_setFld_self _ _ _ (show 0 + 5 ≤ 64 by decide)).trans (Nat.mod_eq_of_lt c.isLt)
  case held =>
    have hread : s.kweLockRead (.core c) = s := if_pos hheld
    exact congrArg Host.Outcome.next (congrArg (fun t : State => t.answer (.core c) (t.word R.KWE_LOCK)) hread)
  case release =>
    have hexec : exec (.kweLockWrite c v) s = .next s.kweRelease := congrArg Host.Outcome.next (if_pos ⟨hheld, hown⟩)
    refine ⟨fun hnone => ?_, fun o ho => ⟨_, hexec.trans (congrArg Host.Outcome.next (State.kweRelease_running ho)), ?_⟩⟩
    · have hop : (s.setFld F.KWE_LOCK_HELD 0).sec.op = none := hnone
      rw [hexec, State.kweRelease, hop]
    · obtain ⟨hmem, hword⟩ := (s.setFld F.KWE_LOCK_HELD 0).kweAbandoned_keeps o
      obtain ⟨hres, -, hidle, hsec, hmem', hword'⟩ := ((s.setFld F.KWE_LOCK_HELD 0).kweAbandoned o).kweEnd_keeps (show 5 < 16 by decide)
      refine ⟨?_, congrArg Sec.op hsec, hres, hidle, hmem'.trans hmem⟩
      rw [State.flag, State.fld, hword' _ (by decide), hword _ (by decide), ← State.fld, State.fld_setFld_self _ _ _ (show 5 + 1 ≤ 64 by decide)]
      rfl
  case notOwner =>
    refine congrArg Host.Outcome.next (if_neg ?_)
    rintro ⟨h1, h2⟩
    rcases h with h | h
    · exact absurd (h1.symm.trans h) (by decide)
    · exact h h2
  case other =>
    have hno (v : Nat) : (.next (s.kweCmd (.core c) v) : Host.Outcome State Fault Refusal) = .next (s.kweRefused (.core c) 0x108) :=
      congrArg Host.Outcome.next (State.kweCmd_of_other h v)
    exact ⟨hno _, hno _, hno _, hno _, hno _, hno _⟩
  case busy =>
    obtain ⟨hn, hexec⟩ := exec_kwe s hin
    rw [hexec, State.kweCmd_of_holder hheld hown hn, if_neg (ne_false_of_eq_true hbusy)]
  case started =>
    exact ⟨_, _, exec_kwe_started hheld hown hidle hin, s.kweStarted_op n c k w, rfl, rfl, rfl, rfl, rfl,
      State.flag_setFld_self _ _ rfl (show 0 + 1 ≤ 64 by decide), rfl, rfl⟩
  case done =>
    refine ⟨exec_kweOperationDone_gen hop, exec_kweOperationDone_wrap hop, exec_kweOperationDone_unwrap hop, fun h => ?_, fun h => ?_, fun h => ?_⟩
    · rw [exec_kweOperationDone, execKweOperationDone, hop]
      dsimp only
      rw [h]
      rfl
    · rw [exec_kweOperationDone, execKweOperationDone, hop]
      dsimp only
      rw [h]
      rfl
    · rw [exec_kweOperationDone, execKweOperationDone, hop]
      dsimp only
      rw [h]
      obtain ⟨hres, hdone, hidle, hsec, hmem, hword⟩ := (s.zeroSlot o.slot).kweEnd_keeps (show 0 < 16 by decide)
      refine ⟨_, rfl, hword _ (by unfold R.SEC_KSATTR R.KWE_STAT; omega), congrArg Sec.keys hsec, ?_, hres, hdone, hidle, congrArg Sec.op hsec, hmem⟩
      rw [hsec]
      intro hin
      exact absurd rfl (bne_iff_ne.mp (List.mem_filter.mp hin).2)
  case full =>
    refine ⟨fun h hhusk => ?_, fun h hhusk => ?_, fun h => ?_⟩
    · rw [exec_kweOperationDone_gen hop h, State.kweGen]
      dsimp only
      rw [if_neg (ne_true_of_eq_false hhusk), if_pos hfull]
    · rcases h with h | h
      · exact (exec_kweOperationDone_gen hop h).trans (congrArg Host.Outcome.next (if_pos hhusk))
      · exact (exec_kweOperationDone_wrap hop h).trans (congrArg Host.Outcome.next (if_pos hhusk))
    · exact (exec_kweOperationDone_unwrap hop h).trans (congrArg Host.Outcome.next (if_pos (.inl hfull)))
  case plain =>
    rw [← bit_toNat] at hcur hold
    refine congrArg Host.Outcome.next ?_
    rw [State.nskWrite]
    dsimp only
    rw [hcur, hold, if_neg (fun h => Bool.noConfusion h.1), if_neg (fun h => Bool.noConfusion h.1)]
  case checked =>
    rw [← bit_toNat] at hcur hold
    refine congrArg Host.Outcome.next ?_
    rw [State.nskWrite]
    dsimp only
    rw [if_neg (fun h => absurd (hcur h.1) (ne_true_of_eq_false h.2)), if_neg (fun h => absurd (hold h.1) (ne_true_of_eq_false h.2))]
  case failed =>
    rw [← bit_toNat] at hcur
    exact congrArg Host.Outcome.next (if_pos ⟨hcur, hbad⟩)
  case entropy =>
    obtain ⟨hhealthy, hblk, hfail⟩ := s.entropyFailed_flds a
    have hpost {f : Fld} (hf : f.addr = R.SEC_TRNGSTAT) := (s.entropyFailed a).fld_post 0x03 0x0707 [(8, b2n a), (32, n.toNat)] 0xFF
      (f := f) (hf ▸ (by decide : R.SEC_TRNGSTAT ≠ R.MGT_EVDROP))
    obtain ⟨hmem, -, -, -, -, -, -, -, -, hsec, -⟩ := (s.entropyFailed a).post_keeps 0x03 0x0707 [(8, b2n a), (32, n.toNat)] 0xFF
    refine ⟨_, rfl, ?_, ?_, ?_, hsec, hmem⟩
    · exact bne_eq_false_iff_eq.mpr ((hpost rfl).trans hhealthy)
    · exact bne_iff_ne.mpr (ne_of_eq_of_ne ((hpost rfl).trans hblk) Nat.one_ne_zero)
    · exact bne_iff_ne.mpr (ne_of_eq_of_ne ((hpost (by cases a <;> rfl)).trans hfail) Nat.one_ne_zero)
  case noWait =>
    have hlate : (s.hif.nmWait.filter fun w => decide (w.since + 1000000000 ≤ s.now)) = [] :=
      List.filter_eq_nil_iff.mpr fun w hw h => Nat.not_le.mpr (hnone w hw) (decide_eq_true_eq.mp h)
    have hkept : (s.hif.nmWait.filter fun w => !decide (w.since + 1000000000 ≤ s.now)) = s.hif.nmWait :=
      List.filter_eq_self.mpr fun w hw => by rw [decide_eq_false (Nat.not_le.mpr (hnone w hw))]; rfl
    rw [exec_entropyWaitTimeout, execEntropyWaitTimeout, hlate, State.hf, hkept]
    rfl
  case wait =>
    obtain ⟨hcsr, hsec⟩ := State.adminDone_foldl_keeps (s.hif.nmWait.filter fun w => decide (w.since + 1000000000 ≤ s.now))
      { s with hif := { s.hif with nmWait := s.hif.nmWait.filter fun w => !decide (w.since + 1000000000 ≤ s.now) } }
    exact ⟨_, rfl, hsec, hcsr, rfl⟩
  case six =>
    have hop {i : Instr} {n : Nat} (h : (i, n) ∈ [(Instr.kweGen c k w, 1), (.kweWrap c k w, 2), (.kweUnwrap c k w, 3), (.kweZero c k w, 4),
        (.kweSeal c k w, 5), (.kweUnseal c k w, 6)]) : ∃ t, exec i s = .next t ∧ t.sec.op.map (·.op) = some n :=
      ⟨_, exec_kwe_started hheld hown hidle h, by rw [s.kweStarted_op n c k w]; rfl⟩
    exact ⟨hop (by simp), hop (by simp), hop (by simp), hop (by simp), hop (by simp), hop (by simp)⟩

end Sys2Proof
end

section
/-! PROOFS. Copies of the DMA channels (R243, R342). -/

namespace Sys2Proof.Machine

/-- A part with 16 GiB of DRAM and both DMCs on their PLLs. -/
def State.withDram : State :=
  (((State.reset.setWord (R.DMC_CFG 0) 0x80000001).setWord (R.DMC_CFG 1) 0x80000001).setFld (F.ISL_CLKSTAT_SRCACT 0x0A) 1).setFld
    (F.ISL_CLKSTAT_SRCACT 0x0B) 1

/-- A DMA copy whose source line holds counts of the Read Count Table, of which block 0's is 1. -/
def State.copiesCounts : State :=
  (((State.withDram.setFld F.ZNE_RCTBASE_BASE 0x8000).setFld F.ZNE_GEOM_LOCK 1).zn fun z =>
    { z with blks := [(0, { BlkEnt.absent with reads := 1 })] }).dr fun x => { x with dma := [(0, ⟨0, 0x1000000000, 0x1010000000, 64⟩)] }

/-- The byte of memory at an address after a command. -/
def byteAfter (a : Nat) : Host.Outcome State Fault Refusal → Option Byte
  | .next t => some (Memory.read t.mem a)
  | _ => none

/-- The copy takes the count that a reader of the table finds (R243), not the byte that memory holds there. -/
theorem State.copiesCounts_copied : byteAfter 0x1010000000 (exec (.dmaDone 0 0 []) State.copiesCounts) = some 1 := by
  decide +kernel

/-- Refutes O55: `State.copiesCounts` copies from a line of the Read Count Table, which no guard covers (R43) and whose bytes are the
counts, while memory holds 0 there. -/
theorem not_dramAndDma : ¬ Obligations.dram_and_dma := by
  unfold Obligations.dram_and_dma
  intro h
  obtain ⟨-, -, -, -, hcopy, -⟩ := h
  obtain ⟨t, hexec, hbytes, -⟩ := hcopy 0 0 ⟨0, 0x1000000000, 0x1010000000, 64⟩ State.copiesCounts (by decide +kernel) (by decide +kernel) rfl (by decide)
    (by decide) (by decide +kernel) (by decide +kernel) (by decide +kernel) (by decide +kernel) (by decide +kernel) (by decide +kernel)
    (by decide +kernel)
  have hbyte : byteAfter 0x1010000000 (.next t) = some (Memory.read State.copiesCounts.mem 0x1000000000) :=
    congrArg some (hbytes 0x1010000000 (by decide) (by decide))
  rw [← hexec, State.copiesCounts_copied] at hbyte
  exact absurd hbyte (by decide +kernel)

end Sys2Proof.Machine
end

section
/-! PROOFS. Power modes, the core voltage, PWRCAP_N and the loss of power (R354 to R377). -/

namespace Sys2Proof

open Machine

namespace Machine

/-! ### Fields that share no bit -/

/-- A field keeps its value when a field that shares no bit with it is written. -/
theorem State.fld_setFld_apart (s : State) {f g : Fld} (v : Nat)
    (h : f.lo + f.w ≤ 64 ∧ (f.addr ≠ g.addr ∨ f.lo + f.w ≤ g.lo ∨ g.lo + g.w ≤ f.lo)) : (s.setFld g v).fld f = s.fld f := by
  obtain ⟨hf, haddr | hbits⟩ := h
  · exact State.fld_setFld_ne _ _ haddr
  · exact State.fld_setFld_disjoint _ _ hf hbits

theorem State.cores_post (s : State) (src id : Nat) (items : List (Nat × Nat)) (ten : Nat) : (s.post src id items ten).cores = s.cores := by
  unfold State.post State.postEvent
  split
  · split <;> rfl
  · rfl

theorem State.pins_post (s : State) (src id : Nat) (items : List (Nat × Nat)) (ten : Nat) : (s.post src id items ten).pins = s.pins := by
  unfold State.post State.postEvent
  split
  · split <;> rfl
  · rfl

/-! ### Requests of a mode (R355, R356) -/

theorem State.startMode_of_latched {s : State} (h : s.fld F.AON_PSTATE_REQ_MODE = s.fld F.AON_PSSTAT_CUR) : s.startMode = s := if_pos h

theorem State.latched_flds (s : State) (m : Fin 4) : (s.setFld F.AON_PSTATE_REQ_MODE m.val).fld F.AON_PSTATE_REQ_MODE = m.val ∧
    (s.setFld F.AON_PSTATE_REQ_MODE m.val).fld F.AON_PSSTAT_CUR = s.fld F.AON_PSSTAT_CUR :=
  ⟨(State.fld_setFld_self _ _ _ (show 0 + 2 ≤ 64 by decide)).trans (Nat.mod_eq_of_lt m.isLt), State.fld_setFld_apart _ _ (by decide)⟩

/-- A request with no transition running. -/
theorem exec_pstateRequest_idle {m : Fin 4} {s : State} (h : s.flag F.AON_PSSTAT_BUSY = false) :
    exec (.pstateRequest m) s = .next (s.setFld F.AON_PSTATE_REQ_MODE m.val).startMode :=
  congrArg Host.Outcome.next (if_neg (ne_true_of_eq_false h))

/-- A request while a transition runs. -/
theorem exec_pstateRequest_busy {m : Fin 4} {s : State} (h : s.flag F.AON_PSSTAT_BUSY = true) : exec (.pstateRequest m) s =
    .next ((if s.fld F.AON_PSTATE_REQ_MODE ≠ s.fld F.AON_PSSTAT_TGT then s.bump F.AON_PS_COLLAPSED_COUNT else s).setFld F.AON_PSTATE_REQ_MODE m.val) :=
  congrArg Host.Outcome.next (if_pos h)

/-- The latched request, counted as an attempt. -/
def State.attempted (s : State) (m : Nat) : State := (s.setFld F.AON_PSTATE_REQ_MODE m).bump F.AON_PS_ATTEMPT_COUNT

/-- A request of ACTIVE or COAST starts its transition at once. -/
theorem exec_pstateRequest_light {m : Fin 4} {s : State} (hidle : s.flag F.AON_PSSTAT_BUSY = false) (hm : m.val < 2)
    (hne : m.val ≠ s.fld F.AON_PSSTAT_CUR) (hlight : s.fld F.AON_PSSTAT_CUR < 2) :
    exec (.pstateRequest m) s = .next ((s.attempted m.val).beginMode m.val false) := by
  obtain ⟨hreq, hcur⟩ := s.latched_flds m
  rw [exec_pstateRequest_idle hidle, State.startMode, hreq, hcur, if_neg hne]
  dsimp only
  split
  next h =>
    have hactive : m.val = 0 := by omega
    rw [hactive]
    rfl
  next h =>
    rw [State.refusers, if_pos hm]
    rfl

/-- The registers of a refused request. -/
def State.refusedMode (s : State) (m r : Nat) (rs : List Nat) : State :=
  let u := ((s.attempted m).setFld F.AON_PSTATE_REQ_MODE (s.fld F.AON_PSSTAT_CUR)).bump F.AON_PS_REFUSED_COUNT
  (r :: rs).foldl (fun s i => s.bumpSat (F.AON_REFCNT_COUNT i)) (u.setFld F.AON_PSSTAT_LASTREF r)

theorem exec_pstateRequest_refused {m : Fin 4} {r : Nat} {rs : List Nat} {s : State} (hidle : s.flag F.AON_PSSTAT_BUSY = false)
    (hdeeper : s.fld F.AON_PSSTAT_CUR < m.val) (href : (s.attempted m.val).refusers m.val = r :: rs) :
    exec (.pstateRequest m) s = .next ((s.refusedMode m.val r rs).aonPost 0x0902 [(2, m.val), (8, r), (8, rs.length + 1)]) := by
  obtain ⟨hreq, hcur⟩ := s.latched_flds m
  rw [exec_pstateRequest_idle hidle, State.startMode, hreq, hcur, if_neg (Nat.ne_of_gt hdeeper)]
  dsimp only
  rw [if_neg (by omega), show ((s.setFld F.AON_PSTATE_REQ_MODE m.val).bump F.AON_PS_ATTEMPT_COUNT).refusers m.val = r :: rs from href]
  rfl

theorem State.bumpSat_foldl_keeps (is : List Nat) (s : State) :
    let t := is.foldl (fun s i => s.bumpSat (F.AON_REFCNT_COUNT i)) s
    (∀ f : Fld, f.addr < 0x400 → t.fld f = s.fld f) ∧ t.power = s.power ∧ t.zne = s.zne ∧ t.evr = s.evr := by
  induction is generalizing s with
  | nil => exact ⟨fun _ _ => rfl, rfl, rfl, rfl⟩
  | cons i is ih =>
    obtain ⟨hfld, hpower, hzne, hevr⟩ := ih (s.bumpSat (F.AON_REFCNT_COUNT i))
    refine ⟨fun f hf => (hfld f hf).trans (State.fld_setFld_ne _ _ ?_), hpower, hzne, hevr⟩
    exact Nat.ne_of_lt (Nat.lt_of_lt_of_le hf (Nat.le_add_right _ _))

theorem State.refusedMode_keeps (s : State) (m r : Nat) (rs : List Nat) : let t := s.refusedMode m r rs
    t.fld F.AON_PSTATE_REQ_MODE = s.fld F.AON_PSSTAT_CUR ∧ t.fld F.AON_PSSTAT_CUR = s.fld F.AON_PSSTAT_CUR ∧
      t.fld F.AON_PSSTAT_BUSY = s.fld F.AON_PSSTAT_BUSY ∧ t.power = s.power ∧ t.zne = s.zne ∧ t.evr = s.evr := by
  obtain ⟨hfld, hpower, hzne, hevr⟩ := State.bumpSat_foldl_keeps (r :: rs)
    ((((s.attempted m).setFld F.AON_PSTATE_REQ_MODE (s.fld F.AON_PSSTAT_CUR)).bump F.AON_PS_REFUSED_COUNT).setFld F.AON_PSSTAT_LASTREF r)
  refine ⟨(hfld _ (by decide)).trans ?_, (hfld _ (by decide)).trans ?_, (hfld _ (by decide)).trans ?_, hpower, hzne, hevr⟩
  · simp (disch := decide) only [State.bump, State.fld_setFld_apart, State.fld_setFld_self]
    exact Nat.mod_eq_of_lt (State.fld_lt _ (Nat.le_refl (2 ^ 2)))
  · simp (disch := decide) only [State.attempted, State.bump, State.fld_setFld_apart]
  · simp (disch := decide) only [State.attempted, State.bump, State.fld_setFld_apart]

/-! ### The end of a transition (R356, R357) -/

/-- The registers at the end of a transition, with event 0x0901 where DOZE or DEEP was entered or left. -/
def State.modeShown (s : State) (cur tgt us : Nat) : State :=
  let s := (s.setFld F.AON_PSSTAT_BUSY 0).setFld F.AON_PSSTAT_CUR tgt
  if 2 ≤ max cur tgt then s.aonPost 0x0901 [(2, max cur tgt), (32, us)] else s

theorem State.modeShown_keeps (s : State) {cur tgt : Nat} (htgt : tgt < 2 ^ 2) (us : Nat) {req : Nat} (hreq : s.fld F.AON_PSTATE_REQ_MODE = req) :
    let t := s.modeShown cur tgt us
    t.fld F.AON_PSSTAT_CUR = tgt ∧ t.flag F.AON_PSSTAT_BUSY = false ∧ t.fld F.AON_PSTATE_REQ_MODE = req ∧ t.cores = s.cores ∧
      t.power = s.power ∧ t.mem = s.mem ∧ t.zne = s.zne := by
  have hbase : ((s.setFld F.AON_PSSTAT_BUSY 0).setFld F.AON_PSSTAT_CUR tgt).fld F.AON_PSSTAT_CUR = tgt ∧
      ((s.setFld F.AON_PSSTAT_BUSY 0).setFld F.AON_PSSTAT_CUR tgt).flag F.AON_PSSTAT_BUSY = false ∧
      ((s.setFld F.AON_PSSTAT_BUSY 0).setFld F.AON_PSSTAT_CUR tgt).fld F.AON_PSTATE_REQ_MODE = req := by
    refine ⟨(State.fld_setFld_self _ _ _ (show 0 + 2 ≤ 64 by decide)).trans (Nat.mod_eq_of_lt htgt), ?_, ?_⟩
    · simp (disch := decide) only [State.flag, State.fld_setFld_apart, State.fld_setFld_self]
      rfl
    · simp (disch := decide) only [State.fld_setFld_apart, hreq]
  obtain ⟨hcur, hidle, hlatched⟩ := hbase
  unfold State.modeShown
  dsimp only
  split
  · obtain ⟨hmem, hzne, -, -, -, -, hpower, -⟩ := ((s.setFld F.AON_PSSTAT_BUSY 0).setFld F.AON_PSSTAT_CUR tgt).post_keeps 0x00 0x0901
      [(2, max cur tgt), (32, us)] 0xFF
    refine ⟨?_, ?_, ?_, State.cores_post _ _ _ _ _, hpower, hmem, hzne⟩
    · exact (State.fld_post _ _ _ _ _ (by decide)).trans hcur
    · exact (congrArg (· != 0) (State.fld_post _ _ _ _ _ (by decide))).trans hidle
    · exact (State.fld_post _ _ _ _ _ (by decide)).trans hlatched
  · exact ⟨hcur, hidle, hlatched, rfl, rfl, rfl, rfl⟩

/-- A transition that ends in the latched mode, `v` being the state that entering or leaving makes. -/
theorem exec_modeTransitionDone_latched {s v : State} (hbusy : s.flag F.AON_PSSTAT_BUSY = true)
    (hdeep : ¬(s.fld F.AON_PSSTAT_TGT = 3 ∧ s.deepReady = false))
    (hv : (if s.fld F.AON_PSSTAT_TGT = 0 then (if s.power.exiting then s else s.bump F.AON_PS_DONE_COUNT).leaveMode (s.fld F.AON_PSSTAT_CUR)
      else (if s.power.exiting then s else s.bump F.AON_PS_DONE_COUNT).enterMode (s.fld F.AON_PSSTAT_TGT)) = v)
    (hreq : v.fld F.AON_PSTATE_REQ_MODE = s.fld F.AON_PSSTAT_TGT) (hwake : ¬(v.power.wake = true ∧ 2 ≤ s.fld F.AON_PSSTAT_TGT)) :
    ∃ t, exec .modeTransitionDone s = .next t ∧ t.fld F.AON_PSSTAT_CUR = s.fld F.AON_PSSTAT_TGT ∧ t.flag F.AON_PSSTAT_BUSY = false ∧
      t.cores = v.cores ∧ t.power = { v.power with wake := false } ∧ t.mem = v.mem ∧ t.zne = v.zne := by
  obtain ⟨hcur, hidle, hlatched, hcores, hpower, hmem, hzne⟩ := v.modeShown_keeps (cur := s.fld F.AON_PSSTAT_CUR) (State.fld_lt s (f := F.AON_PSSTAT_TGT) (Nat.le_refl (2 ^ 2)))
    ((s.now - s.power.since) / 1000) hreq
  rw [exec_modeTransitionDone, execModeTransitionDone, if_neg (not_or.mpr ⟨ne_false_of_eq_true hbusy, hdeep⟩)]
  dsimp only
  rw [hv]
  change ∃ t, (if (v.modeShown (s.fld F.AON_PSSTAT_CUR) (s.fld F.AON_PSSTAT_TGT) ((s.now - s.power.since) / 1000)).power.wake = true ∧
    2 ≤ s.fld F.AON_PSSTAT_TGT then _ else _) = _ ∧ _
  rw [hpower, if_neg hwake]
  refine ⟨_, congrArg Host.Outcome.next (State.startMode_of_latched (hlatched.trans hcur.symm)), hcur, hidle, hcores, ?_, hmem, hzne⟩
  exact congrArg (fun p : Power => { p with wake := false }) hpower

/-- The state that leaving DOZE makes. -/
def State.woken (s : State) : State :=
  let u := if s.power.exiting then s else s.bump F.AON_PS_DONE_COUNT
  (({ u with cores := { u.cores with halted := 0 } } : State).setWord R.AON_AGEAT 0).lpeWake

theorem State.woken_keeps (s : State) : s.woken.fld F.AON_PSTATE_REQ_MODE = s.fld F.AON_PSTATE_REQ_MODE ∧ s.woken.cores.halted = 0 ∧
    s.woken.mem = s.mem ∧ s.woken.zne = s.zne := by
  have hword (u : State) : (u.setWord R.AON_AGEAT 0).fld F.AON_PSTATE_REQ_MODE = u.fld F.AON_PSTATE_REQ_MODE := by
    rw [State.fld, State.word_setWord_ne _ _ (show F.AON_PSTATE_REQ_MODE.addr ≠ R.AON_AGEAT by decide), State.fld]
  unfold State.woken
  split
  · exact ⟨hword _, rfl, rfl, rfl⟩
  · exact ⟨(hword _).trans (State.fld_setFld_apart s _ (by decide)), rfl, rfl, rfl⟩

/-! ### The core voltage (R366) -/

/-- The direction of a step that R366 opens. -/
def State.avsOpen (s : State) (v : Nat) : Bool :=
  let cur := s.fld F.AON_AVSSTAT_VCUR
  let fix := s.fld F.AON_AVSCFG_VFIX
  let short : Bool := match s.roscMargin with
    | some m => decide (m < 0)
    | none => false
  if s.flag F.AON_AVSCFG_EN then cur < v || (v < cur && !short && decide (s.fld F.AON_PSSTAT_CUR < 2))
  else (cur < v && decide (v ≤ fix)) || (v < cur && decide (fix ≤ v) && decide (s.fld F.AON_PSSTAT_CUR < 2))

theorem exec_avsStep_closed {v : BitVec 10} {acked : Bool} {s : State} (h : s.avsOpen v.toNat = false) : exec (.avsStep v acked) s = .next s :=
  exec_avsStep.trans (if_pos (.inr (.inr (.inr (.inr (.inl h))))))

/-- A step of the voltage that R366 allows. -/
theorem exec_avsStep_ok {v : BitVec 10} {acked : Bool} {s : State} (hlo : 650 ≤ v.toNat) (hhi : v.toNat ≤ 850)
    (hup : v.toNat ≤ s.fld F.AON_AVSSTAT_VCUR + 5) (hdown : s.fld F.AON_AVSSTAT_VCUR ≤ v.toNat + 5) (hlast : s.power.avsLast + 100000 ≤ s.now)
    (hok : s.avsOpen v.toNat = true) : exec (.avsStep v acked) s =
      if acked then .next ((s.pw fun p => { p with avsLast := s.now }).setFld F.AON_AVSSTAT_VCUR v.toNat)
      else .next (((s.pw fun p => { p with avsLast := s.now }).setFld F.AON_AVSSTAT_ERR 1).aonPost 0x0909
        [(10, v.toNat), (10, s.fld F.AON_AVSSTAT_VCUR)]) := by
  refine exec_avsStep.trans (if_neg ?_)
  rintro (h | h | h | h | h | h)
  · omega
  · omega
  · omega
  · omega
  · exact ne_false_of_eq_true hok h
  · omega

theorem State.avsSet_vcur (s : State) (v : BitVec 10) :
    ((s.pw fun p => { p with avsLast := s.now }).setFld F.AON_AVSSTAT_VCUR v.toNat).fld F.AON_AVSSTAT_VCUR = v.toNat :=
  (State.fld_setFld_self _ _ _ (show 0 + 10 ≤ 64 by decide)).trans (Nat.mod_eq_of_lt v.isLt)

/-! ### PWRCAP_N (R369) -/

theorem State.setPwrcap_changed {s : State} {high : Bool} (h : s.pins.pwrcap ≠ high) : let t := s.setPwrcap high
    t.pins.pwrcap = high ∧ t.flag F.ZNE_PWRSTAT_PCAP = !high ∧ t.zne = s.zne ∧ t.mem = s.mem := by
  let u := (({ s with pins := { s.pins with pwrcap := high } } : State).setFld F.ZNE_PWRSTAT_PCAP (b2n !high)).showPower
  have hset : s.setPwrcap high = u.znePost 0x090A [(20, u.fld F.ZNE_PCAP_PCAPBUD), (20, u.fld F.ZNE_PWREFF_EFF)] := if_neg h
  have hflag : u.fld F.ZNE_PWRSTAT_PCAP = b2n !high := by
    simp (disch := decide) only [u, State.showPower, State.fld_setFld_apart, State.fld_setFld_self]
    cases high <;> rfl
  have hpins : u.pins.pwrcap = high := rfl
  have hkept : u.zne = s.zne ∧ u.mem = s.mem := ⟨rfl, rfl⟩
  clear_value u
  obtain ⟨hmem, hzne, -⟩ := u.post_keeps 0x08 0x090A [(20, u.fld F.ZNE_PCAP_PCAPBUD), (20, u.fld F.ZNE_PWREFF_EFF)] 0xFF
  rw [hset]
  refine ⟨?_, ?_, hzne.trans hkept.1, hmem.trans hkept.2⟩
  · exact (congrArg Pins.pwrcap (u.pins_post _ _ _ _)).trans hpins
  · rw [State.flag, State.znePost, State.fld_post _ _ _ _ _ (by decide), hflag]
    cases high <;> rfl

/-! ### The end of the power-loss sequence (R375) -/

theorem exec_powerLossSequenceEnd_done {l : PowerLoss} (high : Bool) {s : State} (hloss : s.power.loss = some l) (hheld : s.power.heldReset = false)
    (hdone : s.programsLeft = false) : exec (.powerLossSequenceEnd high) s =
      .next (({ s.lossSeal l with pins := { (s.lossSeal l).pins with pli := high } } : State).pw fun p => { p with
        heldReset := true, loss := some ⟨if l.cause = .pli ∧ high = true then .reset 6 else l.cause, l.since, l.dirty⟩ }) := by
  rw [exec_powerLossSequenceEnd, execPowerLossSequenceEnd, hloss]
  exact if_neg (not_or.mpr ⟨ne_true_of_eq_false hheld, ne_true_of_eq_false hdone⟩)

end Machine

/-- Settles O56. -/
theorem powerModes : Obligations.power_modes := by
  unfold Obligations.power_modes
  refine ⟨fun m s hidle hcur => ?same, fun m s hbusy hreq => ?follows, fun m s hbusy hreq => ?collapses, fun m s hidle hm hne hlight => ?light,
    fun m r rs s hidle hdeeper href => ?refused, fun s hidle => exec_modeTransitionDone.trans (if_pos (.inl hidle)),
    fun s hbusy htgt hdeep => exec_modeTransitionDone.trans (if_pos (.inr ⟨htgt, hdeep⟩)), fun s hbusy htgt hreq hcur hexit hwake => ?doze,
    fun s hbusy htgt hreq hcur => ?active, fun s hbusy htgt hreq hcur hexit => ?coast, fun src bad df sb s hsrc => ?wake,
    fun s hset hdue => ?timer, fun s hwake hage => ?noTimer, fun v ok s h => ?avsClosed, fun v s hlo hhi hup hstep hlast hen => ?avsUp,
    fun v s hlo hhi hdown hstep hlast hcur hmode => ?avsDown, fun v ok s hen h => ?avsFix, fun s hhigh => ?capped, fun s hlow => ?uncapped,
    fun i n s hhot => ?trip, fun s => ?loss, fun l high s hloss hheld => ?lossEnd, fun v s h => congrArg Host.Outcome.next (if_pos h),
    fun v s h0 h168 => congrArg Host.Outcome.next (if_neg (not_or.mpr ⟨h0, Nat.not_lt.mpr h168⟩))⟩
  case same =>
    obtain ⟨hreq, hc⟩ := s.latched_flds m
    rw [exec_pstateRequest_idle hidle, State.startMode_of_latched (hreq.trans (hcur.trans hc.symm))]
  case follows => rw [exec_pstateRequest_busy hbusy, if_neg (not_not.mpr hreq)]
  case collapses => rw [exec_pstateRequest_busy hbusy, if_pos hreq]
  case light =>
    refine ⟨_, exec_pstateRequest_light hidle hm hne hlight, ?_⟩
    rw [State.beginMode, if_neg (by omega), if_neg (by omega)]
    refine ⟨?_, ?_, ?_, rfl, rfl, rfl⟩
    · refine bne_iff_ne.mpr (ne_of_eq_of_ne ?_ Nat.one_ne_zero)
      exact (State.fld_setFld_apart _ _ (by decide)).trans (State.fld_setFld_self _ _ _ (show 2 + 1 ≤ 64 by decide))
    · exact (State.fld_setFld_self _ _ _ (show 3 + 2 ≤ 64 by decide)).trans (Nat.mod_eq_of_lt m.isLt)
    · refine (State.fld_setFld_apart _ _ (by decide)).trans ((State.fld_setFld_apart _ _ (by decide)).trans ?_)
      exact (State.fld_setFld_apart _ _ (by decide)).trans (State.fld_setFld_apart _ _ (by decide))
  case refused =>
    obtain ⟨hreq, hcur, hbusy, hpower, hzne, hevr⟩ := s.refusedMode_keeps m.val r rs
    have hrun := exec_pstateRequest_refused hidle hdeeper href
    generalize s.refusedMode m.val r rs = u at *
    obtain ⟨-, hzne', -, -, -, -, hpower', -⟩ := u.post_keeps 0x00 0x0902 [(2, m.val), (8, r), (8, rs.length + 1)] 0xFF
    have hpost {f : Fld} (hf : f.addr ≠ R.MGT_EVDROP) := u.fld_post 0x00 0x0902 [(2, m.val), (8, r), (8, rs.length + 1)] 0xFF hf
    refine ⟨_, u.eventOf 0x00 0x0902 [(2, m.val), (8, r), (8, rs.length + 1)] 0xFF, hrun, (hpost (by decide)).trans hreq,
      (hpost (by decide)).trans hcur, ?_, hpower'.trans hpower, hzne'.trans hzne, fun hpow => ⟨?_, rfl⟩⟩
    · exact (congrArg (· != 0) ((hpost (by decide)).trans hbusy)).trans hidle
    · have hgated : u.gated 2 = false := (State.gated_of_fld hcur 2).trans hpow
      rw [State.aonPost, State.post_of_powered _ _ _ _ hgated, ← hevr]
      rfl
  case doze =>
    have hv : (if s.fld F.AON_PSSTAT_TGT = 0 then (if s.power.exiting then s else s.bump F.AON_PS_DONE_COUNT).leaveMode (s.fld F.AON_PSSTAT_CUR)
        else (if s.power.exiting then s else s.bump F.AON_PS_DONE_COUNT).enterMode (s.fld F.AON_PSSTAT_TGT)) =
        { s.bump F.AON_PS_DONE_COUNT with cores := { s.cores with halted := BitVec.allOnes 32 } } := by
      rw [htgt, hexit]
      rfl
    obtain ⟨t, hexec, hc, hb, hcores, -, hmem, hzne⟩ := exec_modeTransitionDone_latched hbusy (fun h => absurd (htgt.symm.trans h.1) (by decide)) hv
      ((State.fld_setFld_apart s _ (by decide)).trans (hreq.trans htgt.symm)) (fun h => absurd (hwake.symm.trans h.1) (by decide))
    exact ⟨t, hexec, hc.trans htgt, hb, congrArg Cores.halted hcores, hmem, hzne⟩
  case active =>
    obtain ⟨hlatched, hcleared, hm, hz⟩ := s.woken_keeps
    have hv : (if s.fld F.AON_PSSTAT_TGT = 0 then (if s.power.exiting then s else s.bump F.AON_PS_DONE_COUNT).leaveMode (s.fld F.AON_PSSTAT_CUR)
        else (if s.power.exiting then s else s.bump F.AON_PS_DONE_COUNT).enterMode (s.fld F.AON_PSSTAT_TGT)) = s.woken := by
      rw [if_pos htgt, hcur]
      rfl
    obtain ⟨t, hexec, hc, hb, hcores, hpower, hmem, hzne⟩ := exec_modeTransitionDone_latched hbusy
      (fun h => absurd (htgt.symm.trans h.1) (by decide)) hv (hlatched.trans (hreq.trans htgt.symm)) (fun h => absurd (htgt ▸ h.2) (by decide))
    exact ⟨t, hexec, hc.trans htgt, hb, (congrArg Cores.halted hcores).trans hcleared, congrArg Power.wake hpower, hmem.trans hm, hzne.trans hz⟩
  case coast =>
    have hv : (if s.fld F.AON_PSSTAT_TGT = 0 then (if s.power.exiting then s else s.bump F.AON_PS_DONE_COUNT).leaveMode (s.fld F.AON_PSSTAT_CUR)
        else (if s.power.exiting then s else s.bump F.AON_PS_DONE_COUNT).enterMode (s.fld F.AON_PSSTAT_TGT)) = s.bump F.AON_PS_DONE_COUNT := by
      rw [htgt, hexit]
      rfl
    obtain ⟨t, hexec, hc, hb, hcores, hpower, hmem, -⟩ := exec_modeTransitionDone_latched hbusy (fun h => absurd (htgt.symm.trans h.1) (by decide)) hv
      ((State.fld_setFld_apart s _ (by decide)).trans (hreq.trans htgt.symm)) (fun h => absurd (htgt ▸ h.2) (by decide))
    exact ⟨t, hexec, hc.trans htgt, hb, hcores, hmem, congrArg Power.wake hpower⟩
  case wake =>
    refine ⟨fun hidle hcur => ?_, fun hidle hcur => ?_, fun hbusy htgt => ?_, fun c hidle hcur hdf => ?_⟩
    · rw [exec_wakeEvent, execWakeEvent, if_neg hsrc, if_neg (by rw [hcur]; exact fun h => absurd h.1 (by decide)), State.wakeUp,
        if_neg (ne_true_of_eq_false hidle), if_pos (Nat.le_of_eq hcur.symm)]
    · rw [exec_wakeEvent, execWakeEvent, if_neg hsrc, if_neg (by omega), State.wakeUp, if_neg (ne_true_of_eq_false hidle), if_neg (by omega)]
    · rw [exec_wakeEvent, execWakeEvent, if_neg hsrc, if_neg (fun h => ne_false_of_eq_true hbusy h.2), State.wakeUp, if_pos hbusy, if_pos htgt]
      rfl
    · rw [exec_wakeEvent, execWakeEvent, if_neg hsrc, if_pos ⟨hcur, hidle⟩, hdf]
  case timer =>
    have hdue' : ((s.word R.AON_WAKEAT).toNat != 0 && decide ((s.word R.AON_WAKEAT).toNat ≤ s.now)) = true :=
      Bool.and_eq_true_iff.mpr ⟨bne_iff_ne.mpr hset, decide_eq_true hdue⟩
    exact exec_wakeTimerExpiry.trans (if_pos (Bool.or_eq_true_iff.mpr (.inl hdue')))
  case noTimer =>
    refine exec_wakeTimerExpiry.trans (if_neg ?_)
    simp [hwake, hage]
  case avsClosed =>
    rcases h with h | h | h | h | h
    · exact exec_avsStep.trans (if_pos (.inl h))
    · exact exec_avsStep.trans (if_pos (.inr (.inl h)))
    · exact exec_avsStep.trans (if_pos (.inr (.inr (.inl h))))
    · exact exec_avsStep.trans (if_pos (.inr (.inr (.inr (.inl h)))))
    · exact exec_avsStep.trans (if_pos (.inr (.inr (.inr (.inr (.inr h))))))
  case avsUp =>
    have hopen : s.avsOpen v.toNat = true := by
      rw [State.avsOpen, if_pos hen, decide_eq_true hup]
      rfl
    have hrun (acked : Bool) := exec_avsStep_ok (acked := acked) hlo hhi hstep (by omega) hlast hopen
    refine ⟨⟨_, hrun true, s.avsSet_vcur v, rfl, rfl⟩, ⟨_, hrun false, ?_, ?_⟩⟩
    · exact (State.fld_post _ _ _ _ _ (by decide)).trans (State.fld_setFld_apart _ _ (by decide))
    · refine (congrArg (· != 0) (State.fld_post _ _ _ _ _ (by decide))).trans ?_
      exact State.flag_setFld_self _ _ rfl (show 10 + 1 ≤ 64 by decide)
  case avsDown =>
    have hopen : s.avsOpen v.toNat = true := by
      rcases hmode with ⟨hen, hmargin⟩ | ⟨hen, hfix⟩
      · rw [State.avsOpen, if_pos hen, decide_eq_true hdown, decide_eq_true hcur]
        cases hm : s.roscMargin with
        | none => exact Bool.or_true _
        | some m =>
          dsimp only
          rw [decide_eq_false (Int.not_lt.mpr (hmargin m hm))]
          exact Bool.or_true _
      · rw [State.avsOpen, if_neg (ne_true_of_eq_false hen), decide_eq_true hdown, decide_eq_true hcur, decide_eq_true hfix]
        exact Bool.or_true _
    exact ⟨_, exec_avsStep_ok hlo hhi (by omega) hstep hlast hopen, s.avsSet_vcur v, rfl, rfl⟩
  case avsFix =>
    refine exec_avsStep_closed ?_
    rw [State.avsOpen, if_neg (ne_true_of_eq_false hen)]
    rcases h with ⟨hup, hfix⟩ | ⟨hdown, hfix⟩
    · rw [decide_eq_false (Nat.not_le.mpr hfix), decide_eq_false (Nat.not_lt.mpr (Nat.le_of_lt hup)), Bool.and_false]
      rfl
    · rw [decide_eq_false (Nat.not_le.mpr hfix), decide_eq_false (Nat.not_lt.mpr (Nat.le_of_lt hdown)), Bool.and_false]
      rfl
  case capped =>
    obtain ⟨hpin, hflag, hzne, hmem⟩ := State.setPwrcap_changed (s := s) (high := false) (by rw [hhigh]; decide)
    exact ⟨_, exec_pwrcapAssert, hpin, hflag, hzne, hmem⟩
  case uncapped =>
    obtain ⟨hpin, hflag, hzne, hmem⟩ := State.setPwrcap_changed (s := s) (high := true) (by rw [hlow]; decide)
    exact ⟨exec_pwrcapAssert.trans (congrArg Host.Outcome.next (if_pos hlow)), _, exec_pwrcapRelease, hpin, hflag, hzne, hmem⟩
  case trip =>
    intro u
    rw [exec_thermalTrip, execThermalTrip, hhot]
  case loss =>
    intro u
    exact ⟨fun h => exec_powerLoss.trans (if_pos h), fun h => exec_powerLoss.trans (if_neg h)⟩
  case lossEnd =>
    refine ⟨fun hleft => ?_, fun hdone => ⟨_, exec_powerLossSequenceEnd_done high hloss hheld hdone, rfl, rfl, ?_⟩⟩
    · rw [exec_powerLossSequenceEnd, execPowerLossSequenceEnd, hloss]
      exact if_pos (.inr hleft)
    · rfl

end Sys2Proof
end

section
/-! PROOFS. Vukoro links (R382 to R385). -/

namespace Sys2Proof

open Machine

namespace Machine

/-! ### The record of a port -/

theorem State.vp_modVp_self (s : State) (v : Nat) (f : VukPort → VukPort) : (s.modVp v f).vp v = f (s.vp v) := Tab.getD_set_self ..

theorem State.vp_post (s : State) (src id : Nat) (items : List (Nat × Nat)) (ten v : Nat) : (s.post src id items ten).vp v = s.vp v := by
  obtain ⟨-, -, -, -, -, hcasc, -⟩ := s.post_keeps src id items ten
  rw [State.vp, hcasc, State.vp]

theorem State.fld_sendVuk (s : State) (port : Nat) (k : MsgKind) (p1 p2 : Nat) (data : List Byte) (g : Fld) :
    (s.sendVuk port k p1 p2 data).fld g = s.fld g := rfl

theorem State.vp_sendVuk (s : State) (port : Nat) (k : MsgKind) (p1 p2 : Nat) (data : List Byte) (v : Nat) :
    (s.sendVuk port k p1 p2 data).vp v = s.vp v := rfl

theorem State.vp_setFld (s : State) (f : Fld) (x v : Nat) : (s.setFld f x).vp v = s.vp v := rfl

theorem State.fld_modVp (s : State) (v : Nat) (f : VukPort → VukPort) (g : Fld) : (s.modVp v f).fld g = s.fld g := rfl

/-- The registers of a port's island are none of those that the rest of the cascade looks at. -/
theorem vuk_addresses (v : Fin 2) : R.VUK_LINKCFG v.val ≠ R.ISL_CLKSTAT (0x0E + v.val) ∧ R.VUK_LINKCFG v.val ≠ R.VUK_CASC ∧
    R.VUK_LINKSTAT v.val ≠ R.VUK_CASC ∧ R.VUK_LINKSTAT v.val ≠ R.MGT_EVDROP ∧ R.VUK_LINKSTAT v.val ≠ R.AON_PSSTAT ∧
    R.VUK_LINKCFG v.val ≠ R.VUK_LINKSTAT v.val ∧ ∀ r < 8, R.MGT_VLIM r ≠ R.VUK_LINKCFG v.val ∧ R.MGT_VMON r ≠ R.VUK_LINKCFG v.val := by
  unfold R.VUK_LINKCFG R.ISL_CLKSTAT R.VUK_CASC R.VUK_LINKSTAT R.MGT_EVDROP R.AON_PSSTAT R.MGT_VLIM R.MGT_VMON
  refine ⟨by omega, by omega, by omega, by omega, by omega, by omega, fun r hr => ⟨?_, ?_⟩⟩ <;> omega

/-! ### LTEN (R383) -/

/-- The word that sets LTEN, with W4OK beside it. -/
theorem ltenWord_bits (w : Bool) : bit (1 + b2n w * 2) 0 = true := by
  cases w <;> rfl

/-- A port whose LTEN has been set. -/
def State.vukEnabled (s : State) (v : Nat) (w : Bool) : State :=
  ((s.setFld (F.VUK_LINKCFG_W4OK v) (b2n w)).setFld (F.VUK_LINKCFG_LTEN v) 1).vukTrain v

theorem exec_vukLinkEnable_ok {v : Fin 2} {w : Bool} {s : State} (hact : s.flag (F.ISL_CLKSTAT_SRCACT (0x0E + v.val)) = true)
    (hlten : s.flag (F.VUK_LINKCFG_LTEN v.val) = false) (hcasc : s.inCascade = true) (hrail : s.railOk 6 = true) :
    exec (.vukLinkEnable v w) s = .next (s.vukEnabled v.val w) := by
  obtain ⟨hclk, hrole, -, -, -, -, hrails⟩ := vuk_addresses v
  obtain ⟨hlim, hmon⟩ := hrails 6 (by decide)
  have hbit : (1 + b2n w * 2) / 2 % 2 = b2n w := by
    cases w <;> rfl
  have hact' : (s.setFld (F.VUK_LINKCFG_W4OK v.val) (b2n w)).flag (F.ISL_CLKSTAT_SRCACT (0x0E + v.val)) = true :=
    (State.flag_setFld_ne _ _ hclk.symm).trans hact
  have hcasc' : (s.setFld (F.VUK_LINKCFG_W4OK v.val) (b2n w)).inCascade = true := by
    rw [State.inCascade, State.isMaster, State.isMember, State.fld_setFld_ne _ _ hrole.symm]
    exact hcasc
  have hrail' : (s.setFld (F.VUK_LINKCFG_W4OK v.val) (b2n w)).railOk 6 = true := by
    rw [State.railOk, State.fld_setFld_ne _ _ hlim, State.fld_setFld_ne _ _ hmon, State.fld_setFld_ne _ _ hlim]
    exact hrail
  refine congrArg Host.Outcome.next ?_
  rw [State.vukLinkCfg, hlten, ltenWord_bits, hbit]
  rw [if_neg Bool.false_ne_true, if_neg (by simp [hact']), if_pos rfl, if_neg (ne_false_of_eq_true hcasc'), if_pos hrail']
  rfl

theorem State.vukEnabled_keeps (s : State) (v : Fin 2) (w : Bool) : let t := s.vukEnabled v.val w
    t.flag (F.VUK_LINKCFG_W4OK v.val) = w ∧ t.flag (F.VUK_LINKCFG_LTEN v.val) = true ∧
      t.vp v.val = { s.vp v.val with st := .training, since := s.now } := by
  dsimp only
  rw [State.vukEnabled, State.vukTrain, State.flag, State.flag, State.fld_modVp, State.fld_modVp, State.vp_modVp_self]
  refine ⟨?_, ?_, rfl⟩
  · rw [State.fld_setFld_disjoint _ _ (show 1 + 1 ≤ 64 by decide) (.inr (show 0 + 1 ≤ 1 by decide)), State.fld_setFld_self _ _ _ (show 1 + 1 ≤ 64 by decide)]
    cases w <;> rfl
  · exact State.flag_setFld_self _ _ rfl (show 0 + 1 ≤ 64 by decide)

/-! ### HELLO (R383) -/

/-- The registers in which an end shows its peer. -/
def State.helloRegs (s : State) (v : Nat) (m : Bool) (n : Nat) : State :=
  (s.setFld (F.VUK_LINKSTAT_PEER v) (if m then 1 else 2)).setFld (F.VUK_LINKSTAT_PEERNODE v) n

/-- What an end learns from HELLO, and sends back. -/
def State.helloed (s : State) (v : Nat) (m : Bool) (n id ser : Nat) : State :=
  let s := (s.modVp v fun y => { y with st := .hello, peerCasc := id, peerSerial := ser }).helloRegs v m n
  s.sendVuk v .hello (s.fld F.VUK_CASC_ROLE + s.ownNode * 4) s.casc.id (leBytes 8 Config.serial)

/-- An end after HELLO, its width shown. -/
def State.helloWide (s : State) (v : Nat) (m : Bool) (n id ser width : Nat) : State :=
  (s.helloed v m n id ser).setFld (F.VUK_LINKSTAT_WIDTH v) width

theorem State.vp_helloWide (s : State) (v : Nat) (m : Bool) (n id ser width : Nat) :
    (s.helloWide v m n id ser width).vp v = { s.vp v with st := .hello, peerCasc := id, peerSerial := ser } := by
  rw [State.helloWide, State.vp_setFld, State.helloed, State.vp_sendVuk, State.helloRegs, State.vp_setFld, State.vp_setFld, State.vp_modVp_self]

theorem State.helloWide_keeps (s : State) (v : Nat) (m : Bool) (n id ser width : Nat) : let t := s.helloWide v m n id ser width
    t.casc.msgs.length = s.casc.msgs.length + 1 ∧ t.zne = s.zne ∧ t.evr = s.evr :=
  ⟨List.length_append, rfl, rfl⟩

theorem State.helloWide_flds (s : State) (v : Fin 2) (m : Bool) (n : Fin 4) (id ser width : Nat) :
    let t := s.helloWide v.val m n.val id ser width
    t.fld (F.VUK_LINKSTAT_PEER v.val) = (if m then 1 else 2) ∧ t.fld (F.VUK_LINKSTAT_PEERNODE v.val) = n.val ∧
      t.fld (F.VUK_LINKSTAT_WIDTH v.val) = width % 2 ^ 4 ∧ t.fld F.AON_PSSTAT_CUR = s.fld F.AON_PSSTAT_CUR := by
  obtain ⟨-, -, -, -, hps, -⟩ := vuk_addresses v
  dsimp only
  rw [State.helloWide]
  refine ⟨?_, ?_, State.fld_setFld_self _ _ _ (show 2 + 4 ≤ 64 by decide), ?_⟩
  · rw [State.fld_setFld_disjoint _ _ (show 6 + 2 ≤ 64 by decide) (.inr (show 2 + 4 ≤ 6 by decide)), State.helloed, State.fld_sendVuk, State.helloRegs,
      State.fld_setFld_disjoint _ _ (show 6 + 2 ≤ 64 by decide) (.inl (show 6 + 2 ≤ 8 by decide)), State.fld_setFld_self _ _ _ (show 6 + 2 ≤ 64 by decide)]
    cases m <;> rfl
  · rw [State.fld_setFld_disjoint _ _ (show 8 + 2 ≤ 64 by decide) (.inr (show 2 + 4 ≤ 8 by decide)), State.helloed, State.fld_sendVuk, State.helloRegs,
      State.fld_setFld_self _ _ _ (show 8 + 2 ≤ 64 by decide)]
    exact Nat.mod_eq_of_lt n.isLt
  · rw [State.fld_setFld_ne _ _ hps.symm, State.helloed, State.fld_sendVuk, State.helloRegs, State.fld_setFld_ne _ _ hps.symm,
      State.fld_setFld_ne _ _ hps.symm, State.fld_modVp]

theorem exec_hello_training {v : Fin 2} {m : Bool} {n : Fin 4} {id ser : W64} {l : Option (BitVec 8)} {s : State}
    (ht : (s.vp v.val).st = .training) (hw : ¬(l.isSome = true ∧ s.flag (F.VUK_LINKCFG_W4OK v.val) = false)) :
    exec (.hello v m n id ser l) s = match l with
      | some l => .next ((s.helloWide v.val m n.val id.toNat ser.toNat 4).vukPost v.val 0x0A02
          [(8, v.val), (8, l.toNat)])
      | none => .next (s.helloWide v.val m n.val id.toNat ser.toNat 8) := by
  rw [exec_hello, execHello, if_neg (not_or.mpr ⟨not_not.mpr ht, hw⟩)]
  cases l <;> rfl

/-! ### Authentication (R384) -/

/-- A link whose ends have checked each other. -/
def State.vukSecured (s : State) (v : Nat) : State :=
  ((s.setFld (F.VUK_LINKSTAT_UP v) 1).setFld (F.VUK_LINKSTAT_SECURE v) 1).modVp v fun y =>
    { y with st := .up, since := s.now, frames := 0, keyed := s.now, rxSeq := 0 }

theorem State.vukSecured_flds (s : State) (v : Nat) :
    (s.vukSecured v).fld (F.VUK_LINKSTAT_UP v) = 1 ∧ (s.vukSecured v).fld (F.VUK_LINKSTAT_SECURE v) = 1 := by
  rw [State.vukSecured, State.fld_modVp, State.fld_modVp]
  refine ⟨?_, State.fld_setFld_self _ _ _ (show 1 + 1 ≤ 64 by decide)⟩
  refine (State.fld_setFld_disjoint _ _ (show 0 + 1 ≤ 64 by decide) (.inl (show 0 + 1 ≤ 1 by decide))).trans ?_
  exact State.fld_setFld_self _ _ _ (show 0 + 1 ≤ 64 by decide)

theorem State.vukSecured_role (s : State) (v : Fin 2) : (s.vukSecured v.val).fld F.VUK_CASC_ROLE = s.fld F.VUK_CASC_ROLE := by
  obtain ⟨-, -, hcasc, -⟩ := vuk_addresses v
  rw [State.vukSecured, State.fld_modVp, State.fld_setFld_ne _ _ hcasc.symm, State.fld_setFld_ne _ _ hcasc.symm]

theorem exec_linkAuthentication_ok {v : Fin 2} {s : State} (h : (s.vp v.val).st = .hello) :
    exec (.linkAuthentication v true) s = .next ((((s.vukSecured v.val).vukEvent v.val).enumerate).reportReady true) :=
  exec_linkAuthentication.trans (if_neg (not_not.mpr h))

theorem exec_linkAuthentication_bad {v : Fin 2} {s : State} (h : (s.vp v.val).st = .hello) :
    exec (.linkAuthentication v false) s = .next (((s.vukDown v.val).modVp v.val fun y =>
      { y with st := .retry, since := (s.vukDown v.val).now }).vukPost v.val 0x0A03 [(8, v.val), (64, (s.vp v.val).peerSerial)]) :=
  exec_linkAuthentication.trans (if_neg (not_not.mpr h))

theorem State.enumerate_of_not_master {s : State} (h : s.isMaster = false) : s.enumerate = s := if_neg (ne_true_of_eq_false h)

theorem State.reportReady_of_not_member {s : State} (h : s.isMember = false) (up : Bool) : s.reportReady up = s :=
  if_neg (by rw [h]; exact fun h => Bool.noConfusion h)

theorem State.role_vukEvent (s : State) (v : Nat) : (s.vukEvent v).fld F.VUK_CASC_ROLE = s.fld F.VUK_CASC_ROLE :=
  State.fld_post _ _ _ _ _ (by decide)

/-- What a link shows that goes down without having been up. -/
def State.vukCleared (s : State) (v : Nat) : State :=
  ((((s.setFld (F.VUK_LINKSTAT_UP v) 0).setFld (F.VUK_LINKSTAT_SECURE v) 0).setFld (F.VUK_LINKSTAT_WIDTH v) 0).setFld
    (F.VUK_LINKSTAT_PEER v) 0).setFld (F.VUK_LINKSTAT_PEERNODE v) 0

theorem State.vukDown_of_down {s : State} {v : Nat} (h : s.flag (F.VUK_LINKSTAT_UP v) = false) : s.vukDown v = s.vukCleared v := if_pos h

theorem State.vukCleared_flds (s : State) (v : Nat) :
    (s.vukCleared v).fld (F.VUK_LINKSTAT_UP v) = 0 ∧ (s.vukCleared v).fld (F.VUK_LINKSTAT_SECURE v) = 0 := by
  unfold State.vukCleared
  refine ⟨?_, ?_⟩
  · rw [State.fld_setFld_disjoint _ _ (show 0 + 1 ≤ 64 by decide) (.inl (show 0 + 1 ≤ 8 by decide)),
      State.fld_setFld_disjoint _ _ (show 0 + 1 ≤ 64 by decide) (.inl (show 0 + 1 ≤ 6 by decide)),
      State.fld_setFld_disjoint _ _ (show 0 + 1 ≤ 64 by decide) (.inl (show 0 + 1 ≤ 2 by decide)),
      State.fld_setFld_disjoint _ _ (show 0 + 1 ≤ 64 by decide) (.inl (show 0 + 1 ≤ 1 by decide)),
      State.fld_setFld_self _ _ _ (show 0 + 1 ≤ 64 by decide)]
    rfl
  · rw [State.fld_setFld_disjoint _ _ (show 1 + 1 ≤ 64 by decide) (.inl (show 1 + 1 ≤ 8 by decide)),
      State.fld_setFld_disjoint _ _ (show 1 + 1 ≤ 64 by decide) (.inl (show 1 + 1 ≤ 6 by decide)),
      State.fld_setFld_disjoint _ _ (show 1 + 1 ≤ 64 by decide) (.inl (show 1 + 1 ≤ 2 by decide)),
      State.fld_setFld_self _ _ _ (show 1 + 1 ≤ 64 by decide)]
    rfl

/-! ### Frames (R382, R384) -/

theorem exec_vukoroFrame_up {v : Fin 2} {q : W32} {fec : Fin 3} {auth : Bool} {s : State} (h : (s.vp v.val).st = .up) :
    exec (.vukoroFrame v q fec auth) s =
      let u := if fec = 1 then s.bump (F.VUK_FECCOR_COUNT v.val) else if fec = 2 then s.bump (F.VUK_FECUNC_COUNT v.val) else s
      if fec = 2 ∨ auth = false ∨ q.toNat ≠ (s.vp v.val).rxSeq then .next u
      else .next (u.modVp v.val fun y => { y with rxSeq := (y.rxSeq + 1) % 2 ^ 32, frames := y.frames + 1 }) :=
  exec_vukoroFrame.trans (if_neg (not_not.mpr h))

end Machine

/-- Settles O57. -/
theorem cascadeLinks : Obligations.cascade_links := by
  unfold Obligations.cascade_links
  refine ⟨fun v w s hact hlten hcasc hrail => ?enable, fun v w s hlten => ?again, fun v s h => ?retry, fun v s hst hearly => ?early,
    fun v m n id ser s ht => ?hello, fun v m n id ser l s ht => ⟨fun hno => ?noFour, fun hyes => ?four⟩,
    fun v m n id ser l s ht => exec_hello.trans (if_pos (.inl ht)), fun v ok s h => exec_linkAuthentication.trans (if_pos h),
    fun v s hst => ?auth, fun v s hup hdue => ?keys, fun v q a s hup => ?frames, fun v q f a s hup => exec_vukoroFrame.trans (if_pos hup),
    fun v s hup => ⟨exec_vukoroLinkDown.trans (if_neg (ne_false_of_eq_true hup)), exec_dupmaster.trans (if_neg (ne_false_of_eq_true hup))⟩,
    fun v s hdown => ⟨exec_vukoroLinkDown.trans (if_pos hdown), exec_dupmaster.trans (if_pos hdown)⟩⟩
  case enable =>
    obtain ⟨hw, hl, hvp⟩ := s.vukEnabled_keeps v w
    exact ⟨_, exec_vukLinkEnable_ok hact hlten hcasc hrail, hl, hw, congrArg VukPort.st hvp, congrArg VukPort.since hvp, rfl, rfl⟩
  case again =>
    refine congrArg Host.Outcome.next ?_
    rw [State.vukLinkCfg, hlten, ltenWord_bits]
    exact if_pos (.inr rfl)
  case retry =>
    refine ⟨_, exec_vukTrainingRetry.trans (if_pos ?_), congrArg VukPort.st (s.vp_modVp_self _ _), congrArg VukPort.since (s.vp_modVp_self _ _), rfl, rfl⟩
    rcases h with ⟨h, hdue⟩ | ⟨h, hdue⟩
    · refine ⟨h.elim .inl (fun h => .inr (.inl h)), ?_⟩
      rwa [if_neg]
      rcases h with h | h <;> rw [h] <;> decide
    · refine ⟨.inr (.inr h), ?_⟩
      rwa [if_pos h]
  case early =>
    refine exec_vukTrainingRetry.trans (if_neg fun h => ?_)
    rw [if_pos hst] at h
    exact Nat.not_le.mpr hearly h.2
  case hello =>
    obtain ⟨hrole, hnode, hwidth, -⟩ := s.helloWide_flds v m n id.toNat ser.toNat 8
    obtain ⟨hmsgs, hzne, -⟩ := s.helloWide_keeps v.val m n.val id.toNat ser.toNat 8
    have hvp := s.vp_helloWide v.val m n.val id.toNat ser.toNat 8
    exact ⟨_, exec_hello_training ht (fun h => Bool.noConfusion h.1), congrArg VukPort.st hvp, congrArg VukPort.peerCasc hvp,
      congrArg VukPort.peerSerial hvp, hrole, hnode, hwidth, hmsgs, hzne⟩
  case noFour => exact exec_hello.trans (if_pos (.inr ⟨rfl, hno⟩))
  case four =>
    obtain ⟨-, hnode, hwidth, hcur⟩ := s.helloWide_flds v m n id.toNat ser.toNat 4
    obtain ⟨-, hzne, hevr⟩ := s.helloWide_keeps v.val m n.val id.toNat ser.toNat 4
    have hhello := s.vp_helloWide v.val m n.val id.toNat ser.toNat 4
    have hrun : exec (.hello v m n id ser (some l)) s = .next ((s.helloWide v.val m n.val id.toNat ser.toNat 4).vukPost
        v.val 0x0A02 [(8, v.val), (8, l.toNat)]) := exec_hello_training ht (fun h => ne_false_of_eq_true hyes h.2)
    obtain ⟨-, -, -, hdrop, -⟩ := vuk_addresses v
    generalize s.helloWide v.val m n.val id.toNat ser.toNat 4 = u at *
    obtain ⟨-, hzne', -⟩ := u.post_keeps (0x0E + v.val) 0x0A02 [(8, v.val), (8, l.toNat)] 0xFF
    have hvp := u.vp_post (0x0E + v.val) 0x0A02 [(8, v.val), (8, l.toNat)] 0xFF v.val
    refine ⟨_, hrun, congrArg VukPort.st (hvp.trans hhello), congrArg VukPort.peerCasc (hvp.trans hhello), (State.fld_post _ _ _ _ _ hdrop).trans hnode,
      (State.fld_post _ _ _ _ _ hdrop).trans hwidth, hzne'.trans hzne, fun hpow => ⟨u.eventOf (0x0E + v.val) 0x0A02 [(8, v.val), (8, l.toNat)] 0xFF, ?_, rfl, ?_⟩⟩
    · rw [State.vukPost, State.post_of_powered _ _ _ _ ((State.gated_of_fld hcur 2).trans hpow), ← hevr]
      rfl
    · have hl := l.isLt
      have hv := v.isLt
      show v.val % 2 ^ 8 + (l.toNat % 2 ^ 8 + 0 * 2 ^ 8) * 2 ^ 8 = v.val + l.toNat * 2 ^ 8
      omega
  case auth =>
    refine ⟨exec_linkAuthentication_ok hst, exec_linkAuthentication_bad hst, fun hmaster hmember => ?up, fun hdown => ?down⟩
    case up =>
      obtain ⟨hup, hsec⟩ := s.vukSecured_flds v.val
      have hrole := (State.role_vukEvent _ v.val).trans (s.vukSecured_role v)
      have hrun : exec (.linkAuthentication v true) s = .next ((s.vukSecured v.val).vukEvent v.val) := by
        rw [exec_linkAuthentication_ok hst, State.enumerate_of_not_master ((congrArg (· == 1) hrole).trans hmaster),
          State.reportReady_of_not_member ((congrArg (· == 2) hrole).trans hmember)]
      have hvp : ((s.vukSecured v.val).vukEvent v.val).vp v.val = { s.vp v.val with st := .up, since := s.now, frames := 0, keyed := s.now, rxSeq := 0 } := by
        rw [State.vukEvent, State.vukPost, State.vp_post, State.vukSecured, State.vp_modVp_self, State.vp_setFld, State.vp_setFld]
      obtain ⟨-, -, -, hdrop, -⟩ := vuk_addresses v
      refine ⟨_, hrun, ?_, ?_, congrArg VukPort.st hvp, congrArg VukPort.keyed hvp, congrArg VukPort.rxSeq hvp⟩
      · exact bne_iff_ne.mpr (ne_of_eq_of_ne ((State.fld_post _ _ _ _ _ hdrop).trans hup) Nat.one_ne_zero)
      · exact bne_iff_ne.mpr (ne_of_eq_of_ne ((State.fld_post _ _ _ _ _ hdrop).trans hsec) Nat.one_ne_zero)
    case down =>
      obtain ⟨hup, hsec⟩ := s.vukCleared_flds v.val
      obtain ⟨-, -, -, hdrop, -⟩ := vuk_addresses v
      have hrun := exec_linkAuthentication_bad hst
      rw [State.vukDown_of_down hdown] at hrun
      have hvp : ((s.vukCleared v.val).modVp v.val fun y => { y with st := .retry, since := (s.vukCleared v.val).now }).vp v.val =
          { s.vp v.val with st := .retry, since := s.now } := by
        rw [State.vp_modVp_self]
        rfl
      refine ⟨_, hrun, ?_, ?_, ?_, ?_⟩
      · exact bne_eq_false_iff_eq.mpr ((State.fld_post _ _ _ _ _ hdrop).trans ((State.fld_modVp _ _ _ _).trans hup))
      · exact bne_eq_false_iff_eq.mpr ((State.fld_post _ _ _ _ _ hdrop).trans ((State.fld_modVp _ _ _ _).trans hsec))
      · exact (congrArg VukPort.st (State.vp_post _ _ _ _ _ _)).trans (congrArg VukPort.st hvp)
      · exact (congrArg VukPort.since (State.vp_post _ _ _ _ _ _)).trans (congrArg VukPort.since hvp)
  case keys =>
    have hvp := s.vp_modVp_self v.val fun y => { y with frames := 0, keyed := s.now }
    exact ⟨_, exec_linkKeyRenewal.trans (if_pos ⟨hup, .inr hdue⟩), congrArg VukPort.keyed hvp, congrArg VukPort.frames hvp, rfl, List.length_append⟩
  case frames =>
    have hvp (u : State) := u.vp_modVp_self v.val fun y => { y with rxSeq := (y.rxSeq + 1) % 2 ^ 32, frames := y.frames + 1 }
    refine ⟨fun hq => ?_, fun hq => ?_, ?_, ?_, fun hq => ?_⟩
    · refine ⟨_, (exec_vukoroFrame_up hup).trans (if_neg (by simp [hq])), ?_, congrArg VukPort.frames (hvp s), rfl⟩
      rw [hq]
      exact congrArg VukPort.rxSeq (hvp s)
    · refine ⟨_, (exec_vukoroFrame_up hup).trans (if_neg (by simp [hq])), ?_, rfl, rfl⟩
      rw [hq]
      exact congrArg VukPort.rxSeq (hvp (s.bump (F.VUK_FECCOR_COUNT v.val)))
    · exact (exec_vukoroFrame_up hup).trans (if_pos (.inl rfl))
    · exact (exec_vukoroFrame_up hup).trans (if_pos (.inr (.inl rfl)))
    · exact (exec_vukoroFrame_up hup).trans (if_pos (.inr (.inr hq)))

end Sys2Proof
end

section
/-! PROOFS. Enumeration, time and forwarding in a cascade (R385 to R393). -/

namespace Sys2Proof

open Machine

namespace Machine

/-! ### What leaves the time -/

theorem State.now_of_zones {s t : State} (h : t.zones = s.zones) : t.now = s.now := congrArg Prod.snd h

theorem State.now_foldl {α : Type} {f : State → α → State} (h : ∀ s a, (f s a).now = s.now) (s : State) (xs : List α) :
    (xs.foldl f s).now = s.now := by
  induction xs generalizing s with
  | nil => rfl
  | cons x xs ih => rw [List.foldl_cons, ih, h]

theorem State.now_raiseInt (s : State) (fn cq : Nat) : (s.raiseInt fn cq).now = s.now := by
  unfold State.raiseInt
  split
  · rfl
  · dsimp only
    split <;> rfl

theorem State.now_postCpl (s : State) (c : Cpl) : (s.postCpl c).now = s.now := by
  unfold State.postCpl
  split
  · rfl
  split
  · rfl
  · exact State.now_raiseInt _ _ _

theorem State.now_postAen (s : State) (fn dw0 : Nat) : (s.postAen fn dw0).now = s.now := by
  unfold State.postAen
  split
  · exact State.now_postCpl _ _
  · rfl

theorem State.now_notify (s : State) (fns : List Nat) (cfgBit dw0 : Nat) : (s.notify fns cfgBit dw0).now = s.now := by
  refine State.now_foldl (fun t fn => ?_) s fns
  split
  · exact State.now_postAen _ _ _
  · rfl

theorem State.now_sendBoth (s : State) (k : MsgKind) (p1 p2 : Nat) (data : List Byte) : (s.sendBoth k p1 p2 data).now = s.now := by
  refine State.now_foldl (fun t v => ?_) s _
  split <;> rfl

theorem State.now_reportEnum (s : State) : s.reportEnum.now = s.now := by
  unfold State.reportEnum
  split
  · dsimp only
    split
    · exact State.now_post _ _ _ _ _
    · exact (State.now_post _ _ _ _ _).trans (State.now_post _ _ _ _ _)
  · rfl

theorem State.now_resendAdm (s : State) (n : Nat) : (s.resendAdm n).now = s.now := by
  refine State.now_foldl (fun t e => ?_) s _
  unfold State.sendAdmin
  split <;> rfl

theorem State.now_resend (s : State) (n d : Nat) (tags : List (Nat × Fwd)) : (s.resend n d tags).now = s.now := by
  unfold State.resend
  extract_lets s1 s2
  have h1 : s1.now = s.now := State.now_foldl (fun t e => by dsimp only; split <;> rfl) s tags
  have h2 : s2.now = s.now := (State.now_resendAdm _ _).trans h1
  split
  · exact h2
  · exact (State.now_post _ _ _ _ _).trans h2

theorem State.now_pathBack (s : State) (n : Nat) : (s.pathBack n).now = s.now := by
  unfold State.pathBack
  split
  · rfl
  dsimp only
  split
  · exact State.now_resendAdm _ _
  · exact State.now_resend _ _ _ _

theorem State.now_modZone (s : State) (z : Nat) (f : Zone → Zone) : (s.modZone z f).now = s.now := rfl

theorem State.now_releaseZone (s : State) (z : Nat) : (s.releaseZone z).now = s.now := by
  unfold State.releaseZone
  extract_lets body s1 s2 s3 s4 s5 s6
  have h1 : s1.zones = s.zones := State.zones_abandonJobs _ _
  have h2 : s2.zones = s1.zones := State.zones_foldl (fun s k => s.zones_dropStripe k) _ _
  have h3 : s3.zones = s2.zones := State.zones_releaseBufs _ _
  have h4 : s4.zones = s3.zones := State.zones_zn _ fun _ => rfl
  have h5 : s5.zones = s4.zones := (State.zones_hk _ _).trans (State.zones_clearLost _ _)
  have h6 : s6.now = s5.now := s5.now_modZone z _
  clear_value s6 s5 s4 s3 s2 s1
  have hend : (s6.releaseAll body).reapStage.now = s6.now :=
    State.now_of_zones ((State.zones_of_hostSide (State.hostSide_reapStage _)).trans (State.zones_releaseAll _ _))
  rw [hend, h6, State.now_of_zones (h5.trans (h4.trans (h3.trans (h2.trans h1))))]

theorem State.now_offlineZone (s : State) (z : Nat) : (s.offlineZone z).now = s.now := by
  unfold State.offlineZone
  extract_lets x s1 s2 s3
  have h1 : s1.now = s.now := State.now_of_zones (State.zones_releaseCounts _ _)
  have h3 : s3.now = s.now := (State.now_releaseZone s2 z).trans h1
  split
  · exact h3
  · exact (State.now_of_zones (State.zones_unbindGen _ _)).trans h3

theorem State.now_zoneAen (s : State) (z : Nat) : (s.zoneAen z).now = s.now := by
  unfold State.zoneAen
  split
  · refine (State.now_notify _ _ _ _).trans (State.now_foldl (fun t fn => ?_) _ _)
    rfl
  · rfl

theorem State.now_offlineNs (s : State) (nsid : Nat) : (s.offlineNs nsid).now = s.now := by
  unfold State.offlineNs
  split
  · dsimp only
    split
    · rfl
    · refine State.now_foldl (fun t k => ?_) _ _
      split
      · rfl
      · exact (State.now_zoneAen _ _).trans (State.now_offlineZone _ _)
  · rfl

theorem exec_nodeList_now (nodes : List NodeInfo) (ring : Bool) (lost : List (Fin 1024)) (s : State) :
    ∃ t, exec (.nodeList nodes ring lost) s = .next t ∧ t.now = s.now := by
  rw [exec_nodeList]
  unfold execNodeList
  extract_lets others before s1 s2 s3 after s4 s5 joined s6
  split
  · refine ⟨_, rfl, ?_⟩
    have h1 : s1.now = s.now := by
      refine State.now_foldl (fun t x => ?_) _ _
      rfl
    have h4 : s4.now = s1.now := by
      unfold s4
      split
      · rfl
      · exact State.now_notify _ _ _ _
    have h5 : s5.now = s4.now := (State.now_reportEnum _).trans (State.now_sendBoth _ _ _ _ _)
    exact (State.now_foldl (fun t x => t.now_pathBack _) _ _).trans (h5.trans (h4.trans h1))
  split
  · exact ⟨_, rfl, State.now_foldl (fun t k => t.now_offlineNs _) _ _⟩
  · exact ⟨_, rfl, rfl⟩

theorem State.node_modNode_self (s : State) (n : Nat) (f : Node → Node) : (s.modNode n f).node n = f (s.node n) := Tab.getD_set_self ..

/-- What the failure of the last path to a node notes: when, and that its outstanding commands wait. -/
def State.pathCut (s : State) (n d : Nat) : State :=
  (s.modNode n fun y => { y with reach := clrBit (s.node n).reach d, since := if clrBit (s.node n).reach d = 0 then s.now else y.since }).cs
    fun c => { c with fwd := c.fwd.map fun e => (e.1, if e.2.node = n ∧ e.2.dir = d then { e.2 with dir := 2 } else e.2) }

/-- A member that was admitted, has started and fetches takes forwarded commands. -/
theorem State.takesFwd {s : State} (hmember : s.isMember = true) (hadm : s.casc.admitted = true) (hstart : s.boot.started = true)
    (hfetch : s.noFetch = false) : ¬ (s.isMember = false ∨ s.casc.admitted = false ∨ s.boot.started = false ∨ s.noFetch = true) := by
  simp [hmember, hadm, hstart, hfetch]

theorem fld_casc_ring_joined (s : State) (n r j : Nat) : let t := ((s.setFld F.VUK_CASC_NNODES n).setFld F.VUK_CASC_RING r).setFld F.VUK_CASC_JOINED j
    t.fld F.VUK_CASC_RING = r % 2 ∧ t.fld F.VUK_CASC_JOINED = j % 2 ^ F.VUK_CASC_JOINED.w := by
  dsimp only
  constructor
  · simp (disch := decide) only [State.fld_setFld_apart, State.fld_setFld_self]
    rfl
  · exact State.fld_setFld_self _ _ _ (by decide)

end Machine

/-- Settles O58: the commands of the cascade, unfolded branch by branch; a list of nodes sends, notes and offlines what it names
without touching the time. -/
theorem cascadeProtocol : Obligations.cascade_protocol := by
  unfold Obligations.cascade_protocol
  refine ⟨fun v id cs s hup => ⟨fun hm hid => ?_, fun hm hid => ?_, fun n hmem hm hid => ?_, fun hmem hm hid => ?_⟩,
    fun id n s hid => ⟨?_, ?_⟩, fun nodes ring s hm hmem hadm => ?list, fun nodes ring lost s hm hnot => ?_, exec_nodeList_now,
    fun n up s h => exec_memberReady.trans (if_pos h), fun n s hm hadm => ?_, fun n s hm hadm => ?_,
    fun sec err s => ⟨fun hm hlt => ?_, fun hm hmem hsec => ?csync⟩, fun x err s => ⟨fun hm => ?_, fun hm hmem hx => ?time⟩,
    fun k tag ten e p bad s h => exec_forwardedCommand.trans (if_pos (h.imp_right .inl)),
    fun tag ten e p bad s hmem hadm hstart hfetch => ⟨fun m hfind => ?_, fun m c hfind => ?_, fun hfind => ?_⟩,
    fun tag ten e p bad s hmem hadm hstart hfetch => exec_forwardedCommand.trans (if_neg (State.takesFwd hmem hadm hstart hfetch)),
    fun tag st d0 d1 data bl a s hfind => ?_, fun tag st d0 d1 data bl f s hfind => ?_, fun tag st d0 d1 data f s hfind => ?_,
    fun admin tag st d0 d1 data bl s hfwd hadm => ?_, fun n d s hbit => ?_, fun n d s hbit hleft hmem => ?path,
    fun n s hm hn hadm hlost => ⟨?_, fun hreach hdue => ?_, fun hreach => ?_⟩, fun t0 s hcut hmem horph hdue => ?_, fun t0 s hcut hdue => ?_⟩
  · rw [exec_enum, execEnum, if_neg (ne_false_of_eq_true hup), if_pos hm, if_pos hid]
  · rw [exec_enum, execEnum, if_neg (ne_false_of_eq_true hup), if_pos hm, if_neg hid]
  · rw [exec_enum, execEnum, if_neg (ne_false_of_eq_true hup), if_neg (ne_true_of_eq_false hm), if_pos hmem]
    dsimp only
    rw [hid]
  · rw [exec_enum, execEnum, if_neg (ne_false_of_eq_true hup), if_neg (ne_true_of_eq_false hm), if_pos hmem]
    dsimp only
    rw [hid]
  · rw [State.enumId, if_neg hid]
    rfl
  · rw [State.enumId, if_neg hid]
    by_cases hn : n = Config.serial
    · simp [hn]
    · simp [hn, bne_iff_ne.mpr hn]
  case list =>
    have htake : (s.isMember && s.casc.admitted) = true := Bool.and_eq_true_iff.mpr ⟨hmem, hadm⟩
    refine ⟨_, exec_nodeList.trans ((if_neg (ne_true_of_eq_false hm)).trans (if_pos htake)), ?_, ?_, rfl, rfl⟩
    · obtain ⟨hring, -⟩ := fld_casc_ring_joined s (1 + (nodes.filter fun x => x.node.val != s.ownNode).length) (b2n ring)
        ((nodes.filter fun x => x.node.val != s.ownNode).foldl (fun a x => if x.ready then setBit a x.node.val else a) (2 ^ s.ownNode))
      refine (congrArg (· != 0) hring).trans ?_
      cases ring <;> rfl
    · exact (fld_casc_ring_joined s _ _ _).2
  · rw [exec_nodeList, execNodeList, if_neg (ne_true_of_eq_false hm)]
    refine if_neg fun h => ?_
    obtain ⟨hmem, hadm⟩ := Bool.and_eq_true_iff.mp h
    exact hnot.elim (ne_false_of_eq_true hmem) (ne_false_of_eq_true hadm)
  · exact exec_memberReady.trans (if_neg (by simp [hm, hadm]))
  · refine ⟨_, exec_memberReady.trans (if_neg (by simp [hm, hadm])), ?_, rfl, rfl⟩
    exact congrArg Node.ready (State.node_modNode_self s n.val fun x => { x with ready := true })
  · rw [exec_csyncPulse, execCsyncPulse, if_pos hm, if_pos hlt]
    rfl
  case csync =>
    have herr := err.isLt
    refine ⟨_, exec_csyncPulse.trans ((if_neg (ne_true_of_eq_false hm)).trans (if_pos hmem)), ?_, ?_, rfl, rfl⟩
    · show sec.toNat * 1000000000 ≤ sec.toNat * 1000000000 + err.val - 50 + 50
      omega
    · show sec.toNat * 1000000000 + err.val - 50 ≤ sec.toNat * 1000000000 + 50
      omega
  · rw [exec_timeOrderedSet, execTimeOrderedSet, if_pos hm]
  case time =>
    have herr := err.isLt
    have hmod := Nat.mod_lt err.val (show 101 > 0 by decide)
    refine ⟨_, exec_timeOrderedSet.trans ((if_neg (ne_true_of_eq_false hm)).trans (if_pos hmem)), ?_, ?_, fun hsync hrecent => ?_⟩
    · dsimp only
      split <;> omega
    · dsimp only
      split <;> omega
    · dsimp only
      rw [if_pos ⟨hsync, hrecent⟩]
      omega
  · rw [exec_forwardedCommand, execForwardedCommand, if_neg (State.takesFwd hmem hadm hstart hfetch)]
    dsimp only
    rw [if_neg (by decide), hfind]
  · rw [exec_forwardedCommand, execForwardedCommand, if_neg (State.takesFwd hmem hadm hstart hfetch)]
    dsimp only
    rw [if_neg (by decide), hfind]
  · rw [exec_forwardedCommand, execForwardedCommand, if_neg (State.takesFwd hmem hadm hstart hfetch)]
    dsimp only
    rw [if_neg (by decide), hfind]
    exact if_pos rfl
  · rw [exec_forwardedCompletion, execForwardedCompletion, if_pos rfl]
    dsimp only
    rw [hfind]
    rfl
  · rw [exec_forwardedCompletion, execForwardedCompletion, if_neg Bool.false_ne_true, hfind]
    rfl
  · rw [exec_forwardedCompletion, execForwardedCompletion, if_neg Bool.false_ne_true, hfind]
    rfl
  · rw [exec_forwardedCompletion, execForwardedCompletion, hfwd, hadm]
    cases admin <;> rfl
  · rw [exec_pathFailureReroute, execPathFailureReroute, State.pathFail]
    dsimp only
    rw [if_pos hbit]
  case path =>
    have hrun : s.pathFail n.val d.val = s.pathCut n.val d.val := by
      rw [State.pathFail]
      dsimp only
      rw [if_neg (ne_false_of_eq_true hbit), if_pos hleft]
      exact if_neg fun h => ne_true_of_eq_false hmem h.1
    have hnode := State.node_modNode_self s n.val fun y => { y with reach := clrBit (s.node n.val).reach d.val, since :=
      (if clrBit (s.node n.val).reach d.val = 0 then s.now else y.since) }
    refine ⟨_, exec_pathFailureReroute.trans (congrArg Host.Outcome.next hrun), (congrArg Node.reach hnode).trans hleft, (congrArg Node.since hnode).trans (if_pos hleft), rfl, rfl, rfl⟩
  · exact exec_memberFaultReport.trans (if_pos ⟨hm, hn, hadm, hlost⟩)
  · exact exec_memberLossTimeout.trans (if_pos ⟨hm, hn, hadm, hlost, hreach, hdue⟩)
  · exact exec_memberLossTimeout.trans (if_neg fun h => hreach h.2.2.2.2.1)
  · rw [exec_orphanTimeout, execOrphanTimeout, hcut]
    dsimp only
    rw [if_neg (by simp [hmem, horph, hdue])]
    rfl
  · rw [exec_orphanTimeout, execOrphanTimeout, hcut]
    exact if_pos (.inr (.inr hdue))

end Sys2Proof
end

section
/-! PROOFS. The management bus (R394, R395) and the recorder's records on their way (R399 to R405). -/

namespace Sys2Proof

open Machine

namespace Machine

/-- A bus that has been fixed shows its mode and address; the event beside it touches neither the engines nor memory. -/
theorem State.fixMode_keeps (s : State) {mode addr : Nat} (hmode : mode < 4) (haddr : addr < 128) : let t := s.fixMode mode addr
    t.fld F.MGT_MBSTAT_MODE = mode ∧ t.fld F.MGT_MBSTAT_ADDR = addr ∧ t.zne = s.zne ∧ t.casc = s.casc := by
  unfold State.fixMode
  extract_lets u t
  obtain ⟨-, hzne, -, -, -, hcasc, -⟩ := u.post_keeps 0x02 0x0A0B [(2, mode), (7, addr), (8, u.fld F.MGT_MBSTAT_EID)] 0xFF
  refine ⟨(State.fld_post _ _ _ _ _ (by decide)).trans ?_, (State.fld_post _ _ _ _ _ (by decide)).trans ?_, hzne, hcasc⟩
  · unfold u
    simp (disch := decide) only [State.fld_setFld_apart, State.fld_setFld_self]
    exact Nat.mod_eq_of_lt hmode
  · unfold u
    simp (disch := decide) only [State.fld_setFld_self]
    exact Nat.mod_eq_of_lt haddr

theorem State.i3cAssign_free {s : State} (hen : s.flag F.MGT_MBCFG_I3CEN = true) (hfree : s.fld F.MGT_MBSTAT_MODE = 0) (a : Nat) :
    s.i3cAssign a = s.fixMode 1 a := if_pos (by rw [hen, hfree]; rfl)

theorem takeFrom_spec {src : Nat} {e : Event} {rest ts : List Event} (h : takeFrom src ts = some (e, rest)) :
    e.src = src ∧ rest.length + 1 = ts.length := by
  induction ts generalizing e rest with
  | nil => cases h
  | cons x xs ih =>
    rw [takeFrom] at h
    split at h
    next hsrc =>
      obtain ⟨rfl, rfl⟩ := Prod.mk.inj (Option.some.inj h)
      exact ⟨hsrc, rfl⟩
    next =>
      split at h
      next y r hrest =>
        obtain ⟨rfl, rfl⟩ := Prod.mk.inj (Option.some.inj h)
        obtain ⟨hsrc, hlen⟩ := ih hrest
        exact ⟨hsrc, congrArg Nat.succ hlen⟩
      next => cases h

/-- The arrival of a source's oldest record of one entry. -/
theorem exec_eventRecordArrival_taken {isl : Isl} {e : Event} {rest : List Event} {s : State} (hready : s.evr.ready = true)
    (hpow : s.gated 2 = false) (htake : takeFrom isl.val s.evr.transit = some (e, rest)) (hone : e.bits ≤ 88) :
    exec (.eventRecordArrival isl) s =
      if e.exempt = false ∧ s.fld F.MGT_EVCFG_RLIM < Tab.getD s.evr.placed e.src 0 + 1 then
        .next (((s.ev fun r => { r with transit := rest }).bump F.MGT_EVSUPP_COUNT 1).ev fun r =>
          { r with refused := Tab.set r.refused e.src (Tab.getD r.refused e.src 0 + 1) })
      else .next ((s.ev fun r => { r with transit := rest }).acceptEvent e) := by
  rw [exec_eventRecordArrival, execEventRecordArrival, if_neg (by simp [hready, hpow]), htake]
  dsimp only
  rw [if_pos hone]
  rfl

end Machine

/-- Settles O59: the bus commands by what fixing a bus shows, the recorder's by the branch that their conditions name. -/
theorem managementBusAndRecorder : Obligations.management_bus_and_recorder := by
  unfold Obligations.management_bus_and_recorder
  refine ⟨fun a s hen hfree => ⟨?_, ?_⟩, fun a s hnot => ?_, fun s hen hmode => ?_, fun a s hen => ⟨fun harp hmode => ?_, fun hmode => ?_⟩,
    fun b e s hup hzero hall => ?eid, fun c v s => ⟨fun hid => ?_, fun hid hpow => ?_⟩,
    fun isl e rest s hready hpow htake hone => ⟨fun hok => ?_, fun hex hfull => ?_⟩, fun isl e rest ts htake => takeFrom_spec htake,
    fun b s hflush => ?_, fun s hflush => ?_, fun f s hfreeze => ⟨fun hdue => ?_, fun hdue => ?_⟩, fun s hpow hwin => ?_, fun s h => ?_⟩
  · obtain ⟨hmode, haddr, hzne, hcasc⟩ := s.fixMode_keeps (show 1 < 4 by decide) a.isLt
    exact ⟨_, exec_setdasa.trans (congrArg Host.Outcome.next (State.i3cAssign_free hen hfree _)), hmode, haddr, hzne, hcasc⟩
  · obtain ⟨hmode, haddr, -, hcasc⟩ := (s.mctp 2 0 s.provisionedId []).fixMode_keeps (show 1 < 4 by decide) a.isLt
    refine ⟨_, exec_entdaa.trans (if_pos (by rw [hen, hfree]; rfl)), ?_⟩
    rw [State.i3cAssign_free (s := s.mctp 2 0 s.provisionedId []) hen hfree]
    exact ⟨hmode, haddr, congrArg Casc.msgs hcasc⟩
  · have hcond : ¬ (s.flag F.MGT_MBCFG_I3CEN && s.fld F.MGT_MBSTAT_MODE == 0) = true := by
      simpa [imp_iff_not_or] using hnot
    exact ⟨exec_setdasa.trans (congrArg Host.Outcome.next (if_neg hcond)), exec_entdaa.trans (if_neg hcond)⟩
  · refine ⟨_, exec_rstdaa.trans (if_pos (by simp [hen, hmode])), ?_, ?_, rfl, rfl⟩
    · exact (State.fld_setFld_apart _ _ (by decide)).trans (State.fld_setFld_self _ _ _ (by decide))
    · exact State.fld_setFld_self _ _ _ (by decide)
  · obtain ⟨hmode', haddr, hzne, -⟩ := s.fixMode_keeps (show 2 < 4 by decide) a.isLt
    exact ⟨_, exec_arpAssignAddress.trans (if_pos (by simp [hen, harp, hmode])), hmode', haddr, hzne⟩
  · obtain ⟨hmode', haddr, hzne, -⟩ := s.fixMode_keeps (show 2 < 4 by decide) (State.fld_lt s (f := F.MGT_MBCFG_SMBADDR) (show 2 ^ 7 ≤ 128 by decide))
    exact ⟨_, exec_smbusTransaction.trans (if_pos (by rw [hen, hmode]; rfl)), hmode', haddr, hzne⟩
  case eid =>
    have hgo : ¬ (s.bindingUp b.val = false ∨ e = 0 ∨ e = 0xFF) := by
      rintro (h | h | h)
      · exact ne_true_of_eq_false h hup
      · exact hzero h
      · exact hall h
    have hfind : Tab.find (Tab.set s.casc.eids b.val e.toNat) b.val = some e.toNat := Tab.find_set_self ..
    by_cases hbus : 2 ≤ b.val
    · refine ⟨_, exec_setEndpointId.trans ((if_neg hgo).trans (congrArg (fun t : State => Host.Outcome.next (t.mctp b.val 0 e.toNat [])) (if_pos hbus))),
        hfind, fun _ => ?_, rfl⟩
      exact (State.fld_setFld_self _ _ _ (show 16 + 8 ≤ 64 by decide)).trans (Nat.mod_eq_of_lt e.isLt)
    · exact ⟨_, exec_setEndpointId.trans ((if_neg hgo).trans (congrArg (fun t : State => Host.Outcome.next (t.mctp b.val 0 e.toNat [])) (if_neg hbus))),
        hfind, fun h => absurd h hbus, rfl⟩
  · exact exec_evpostWrite.trans (congrArg Host.Outcome.next (if_pos hid))
  · refine ⟨_, exec_evpostWrite.trans (congrArg Host.Outcome.next ((if_neg hid).trans (if_neg (ne_true_of_eq_false hpow)))), rfl, rfl, rfl⟩
  · rw [exec_eventRecordArrival_taken hready hpow htake hone]
    refine if_neg fun h => ?_
    obtain ⟨hex, hfull⟩ := h
    exact hok.elim (ne_true_of_eq_false hex) (Nat.not_le.mpr hfull)
  · exact ⟨_, (exec_eventRecordArrival_taken hready hpow htake hone).trans (if_pos ⟨hex, hfull⟩), rfl, rfl, Tab.find_set_self .., rfl⟩
  · rw [exec_eventFlushDone, execEventFlushDone, hflush]
  · rw [exec_eventFlushDone, execEventFlushDone, hflush]
  · rw [exec_freezeTimeout, execFreezeTimeout, hfreeze]
    exact if_pos hdue
  · rw [exec_freezeTimeout, execFreezeTimeout, hfreeze]
    exact if_neg (Nat.not_le.mpr hdue)
  · refine exec_rateWindowEnd.trans (if_neg fun h => ?_)
    exact h.elim (ne_true_of_eq_false hpow) (Nat.not_le.mpr hwin)
  · exact exec_rateWindowEnd.trans (if_pos h)

end Sys2Proof
end

section
/-! PROOFS. The end of a memory test (R415). -/

namespace Sys2Proof.Machine

/-- A part whose MGT_MBISTCTL shows BUSY while no test is noted: BUSY and the record of the test are two places of the state. -/
def State.busyUntested : State := State.reset.setFld F.MGT_MBISTCTL_BUSY 1

theorem State.busyUntested_busy : State.busyUntested.flag F.MGT_MBISTCTL_BUSY = true ∧ State.busyUntested.fld F.MGT_MBISTCTL_MEM ≠ 4 := by
  decide +kernel

/-- With no test noted the end of a test does nothing. -/
theorem exec_mbistDone_none {s : State} (x : Option W32) (h : s.mgt.mbist = none) : exec (.mbistDone x) s = .next s := by
  rw [exec_mbistDone, execMbistDone, h]

/-- Refutes O60: `State.busyUntested` shows BUSY and MEM 0, but no test is noted, so the end of a test leaves BUSY set. -/
theorem not_monitorsAndTest : ¬ Obligations.monitors_and_test := by
  unfold Obligations.monitors_and_test
  intro h
  obtain ⟨-, -, -, -, -, -, -, -, -, -, -, -, -, -, hdone, -⟩ := h
  obtain ⟨hbusy, hmem⟩ := State.busyUntested_busy
  obtain ⟨t, hexec, hidle, -⟩ := hdone none State.busyUntested hbusy hmem
  have hsame : State.busyUntested = t := Host.Outcome.next.inj ((exec_mbistDone_none none rfl).symm.trans hexec)
  rw [← hsame, hbusy] at hidle
  exact Bool.noConfusion hidle

end Sys2Proof.Machine
end

section
/-! PROOFS. Fences and the stores that a core gathers to a word of MRAM (R24, R348). A write of the word may fail its bank, which
flushes the dirty data (R131, R352); nothing of that gathers a store. -/

namespace Sys2Proof

open Machine

namespace Machine

/-! ### What leaves the gathered stores -/

/-- The stores gathered to a word and not written yet. -/
def State.gathered (s : State) : Option Gather := s.mram.gather

theorem State.gathered_foldl {α : Type} {f : State → α → State} (h : ∀ s a, (f s a).gathered = s.gathered) (s : State) (xs : List α) :
    (xs.foldl f s).gathered = s.gathered := by
  induction xs generalizing s with
  | nil => rfl
  | cons x xs ih => rw [List.foldl_cons, ih, h]

theorem State.gathered_post (s : State) (src id : Nat) (items : List (Nat × Nat)) (ten : Nat) : (s.post src id items ten).gathered = s.gathered := by
  unfold State.post State.postEvent
  split
  · split <;> rfl
  · rfl

theorem State.gathered_bump (s : State) (f : Fld) (n : Nat) : (s.bump f n).gathered = s.gathered := rfl

theorem State.gathered_sgWrite (s : State) (r n : Nat) : (s.sgWrite r n).gathered = s.gathered := by
  induction n generalizing s with
  | zero => rfl
  | succ n ih =>
    rw [State.sgWrite, ih]
    split <;> rfl

theorem State.gathered_cfgWrite (s : State) (mirrored : Bool) : (s.cfgWrite mirrored).gathered = s.gathered := by
  unfold State.cfgWrite
  split
  · exact (State.gathered_sgWrite _ _ _).trans (State.gathered_sgWrite _ _ _)
  · exact State.gathered_sgWrite _ _ _

theorem State.gathered_huskWrite (s : State) (r : Nat) (f : HuskRec → HuskRec) : (s.huskWrite r f).gathered = s.gathered :=
  (State.gathered_sgWrite _ _ _).trans (State.gathered_sgWrite _ _ _)

theorem State.gathered_dropStripe (s : State) (k : Nat) : (s.dropStripe k).gathered = s.gathered := by
  unfold State.dropStripe
  split
  · rfl
  · dsimp only
    split
    · exact State.gathered_huskWrite _ _ _
    · rfl

theorem State.gathered_reserveBlock (s : State) : s.reserveBlock.gathered = s.gathered := by
  unfold State.reserveBlock
  split
  · rfl
  · exact State.gathered_cfgWrite _ _

theorem State.gathered_nextEpochs (s : State) (n : Nat) : (s.nextEpochs n).2.gathered = s.gathered := by
  have hresv : (if s.zne.husk.epochResv ≤ s.zne.husk.epoch + n then s.reserveBlock else s).gathered = s.gathered := by
    split
    · exact State.gathered_reserveBlock _
    · rfl
  exact hresv

theorem State.gathered_nextHseq (s : State) : s.nextHseq.2.gathered = s.gathered := by
  have hresv : (if s.zne.husk.hseqResv ≤ s.zne.husk.hseq + 1 then s.reserveBlock else s).gathered = s.gathered := by
    split
    · exact State.gathered_reserveBlock _
    · rfl
  exact hresv

theorem State.gathered_commitStripe (s : State) (k : Nat) : (s.commitStripe k).gathered = s.gathered := by
  unfold State.commitStripe
  split
  · rfl
  split
  · rfl
  split
  · split
    · rfl
    · exact State.gathered_nextEpochs _ _
  split
  · rfl
  · exact (State.gathered_nextEpochs _ _).trans (State.gathered_nextHseq _)

theorem State.gathered_wantStripe (s : State) (k : Nat) : (s.wantStripe k).gathered = s.gathered := State.gathered_commitStripe _ _

theorem State.gathered_packInto (s : State) (k : Nat) (own : BufOwner) (buf src : Option Nat) (mv : Option Moved) :
    (s.packInto k own buf src mv).gathered = s.gathered := by
  unfold State.packInto
  dsimp only
  split
  · split
    · exact State.gathered_wantStripe _ _
    · rfl
  · rfl

theorem State.gathered_takeMember (s : State) (f : EraseFor) (e : RingEnt) : (s.takeMember f e).gathered = s.gathered := by
  unfold State.takeMember
  split
  · rfl
  · unfold State.beginErase
    dsimp only
    split <;> rfl

theorem State.gathered_allocBody {s t : State} {set : Nat} {slc wear : Bool} {st : BlkSt} {es : List RingEnt}
    (h : s.allocBody set slc wear st = some (es, t)) : t.gathered = s.gathered := by
  unfold State.allocBody at h
  dsimp only at h
  split at h
  · obtain ⟨-, rfl⟩ := Prod.mk.inj (Option.some.inj h)
    refine State.gathered_foldl (fun u e => ?_) s _
    rfl
  · cases h

theorem State.gathered_allocSlc {s t : State} {set b ns ruh : Nat} {st : SegSt} (h : s.allocSlc set st ns ruh = some (b, t)) :
    t.gathered = s.gathered := by
  unfold State.allocSlc at h
  generalize (if st = .stage then s.stageLeft set else s.freeSegs set) = room at h
  split at h
  · cases h
  split at h
  · cases h
  next es u hbody =>
    obtain ⟨-, rfl⟩ := Prod.mk.inj (Option.some.inj h)
    have hbody := State.gathered_allocBody hbody
    exact (State.gathered_foldl (fun u e => u.gathered_takeMember _ e) _ es).trans hbody

theorem State.gathered_stageFull (s : State) (set : Nat) : (if s.flag F.ZNE_STAGESTAT_FULL then s
    else (s.setFld F.ZNE_STAGESTAT_FULL 1).znePost 0x0106 [(8, set + 1)]).gathered = s.gathered := by
  split
  · rfl
  · exact State.gathered_post _ _ _ _ _

theorem State.gathered_nextStage (s : State) (set : Nat) (verify : Bool) : (s.nextStage set verify).2.gathered = s.gathered := by
  unfold State.nextStage
  split
  · dsimp only
    split <;> rfl
  dsimp only
  split
  · split
    · rfl
    split
    next halloc =>
      have halloc := State.gathered_allocSlc halloc
      exact halloc
    · exact State.gathered_stageFull _ _
  split
  next halloc =>
    have halloc := State.gathered_allocSlc halloc
    exact halloc
  · exact State.gathered_stageFull _ _

theorem State.gathered_nextStage_of {s t : State} {set : Nat} {verify : Bool} {k : Option Nat} (h : s.nextStage set verify = (k, t)) :
    t.gathered = s.gathered := by
  have hkeep := s.gathered_nextStage set verify
  rwa [h] at hkeep

theorem State.gathered_stageCw (s : State) (set zmi off : Nat) (buf src : Option Nat) (verify : Bool) (mv : Option Moved) :
    (s.stageCw set zmi off buf src verify mv).2.gathered = s.gathered := by
  unfold State.stageCw
  extract_lets u
  have hu : u.gathered = s.gathered := by
    unfold u
    split
    · split
      · rfl
      · exact State.gathered_wantStripe _ _
    · rfl
  clear_value u
  split
  next hnext => exact (State.gathered_packInto _ _ _ _ _ _).trans ((State.gathered_nextStage_of hnext).trans hu)
  next hnext => exact (State.gathered_nextStage_of hnext).trans hu

theorem State.gathered_stageBufs (s : State) (set zmi : Nat) (bs : List (Nat × Nat)) : (s.stageBufs set zmi bs).gathered = s.gathered := by
  induction bs generalizing s with
  | nil => rfl
  | cons b bs ih =>
    rw [State.stageBufs]
    have hcw := s.gathered_stageCw set zmi b.1 (some b.2) none (s.flag F.ZNE_DIRTYCFG_THRU || s.bufThru b.2) none
    split
    next hstage =>
      rw [hstage] at hcw
      exact (ih _).trans hcw
    next hstage =>
      rw [hstage] at hcw
      exact hcw

theorem State.gathered_stageZone (s : State) (zmi : Nat) (pressure : Bool) : (s.stageZone zmi pressure).gathered = s.gathered := by
  unfold State.stageZone
  refine (State.gathered_stageBufs _ _ _ _).trans (State.gathered_foldl (fun u k => ?_) _ _)
  split
  · split
    · rfl
    · exact State.gathered_dropStripe _ _
  · rfl

theorem State.gathered_stageConv (s : State) : s.stageConv.gathered = s.gathered := by
  unfold State.stageConv
  refine (State.gathered_foldl (fun u e => ?_) _ _).trans (State.gathered_foldl (fun u k => u.gathered_dropStripe k) _ _)
  split
  · split
    · split
      next hnext => exact (State.gathered_packInto _ _ _ _ _ _).trans (State.gathered_nextStage_of hnext)
      next hnext => exact State.gathered_nextStage_of hnext
    · rfl
  · rfl

theorem State.gathered_stageAll (s : State) : s.stageAll.gathered = s.gathered := by
  unfold State.stageAll
  refine (State.gathered_foldl (fun u k => u.gathered_wantStripe k) _ _).trans
    ((State.gathered_foldl (fun u z => u.gathered_stageZone z true) _ _).trans ?_)
  split
  · exact State.gathered_stageConv _
  · rfl

theorem State.gathered_noHuskFlush (s : State) : s.noHuskFlush.gathered = s.gathered :=
  (State.gathered_stageAll _).trans ((State.gathered_stageConv _).trans (State.gathered_foldl (fun u k => u.gathered_dropStripe k) _ _))

theorem State.gathered_loseLedger (s : State) (cause : Nat) : (s.loseLedger cause).gathered = s.gathered := State.gathered_post _ _ _ _ _

theorem State.gathered_bankFail (s : State) (b cause : Nat) : (s.bankFail b cause).gathered = s.gathered := by
  unfold State.bankFail
  split
  · rfl
  extract_lets s1 s2 s3 s4 s5
  have h2 : s2.gathered = s.gathered := (State.gathered_post _ _ _ _ _).trans (State.gathered_cfgWrite _ _)
  have h3 : s3.gathered = s2.gathered := State.gathered_post _ _ _ _ _
  clear_value s3 s2
  have h4 : s4.gathered = s3.gathered := rfl
  have h5 : s5.gathered = s3.gathered := by
    unfold s5
    clear_value s4
    split
    · split
      · exact (State.gathered_loseLedger _ _).trans h4
      · exact h4
    · rfl
  clear_value s5
  split
  · exact h2
  split
  · exact (State.gathered_noHuskFlush _).trans (h5.trans (h3.trans h2))
  · exact h5.trans (h3.trans h2)

theorem State.gathered_remapWord (s : State) (b phys : Nat) : (s.remapWord b phys).gathered = s.gathered := by
  unfold State.remapWord
  extract_lets left s1 s2 s3
  have h2 : s2.gathered = s.gathered := by
    unfold s2
    split <;> rfl
  have h3 : s3.gathered = s2.gathered := State.gathered_post _ _ _ _ _
  clear_value s3 s2
  split
  · exact (State.gathered_bankFail _ _ _).trans (h3.trans h2)
  · exact h3.trans h2

theorem State.gathered_mramUe (s : State) (b region word : Nat) : (s.mramUe b region word).gathered = s.gathered := by
  unfold State.mramUe
  extract_lets day ts s1 s2
  have h2 : s2.gathered = s.gathered := State.gathered_post _ _ _ _ _
  clear_value s2
  split
  · exact (State.gathered_bankFail _ _ _).trans h2
  · exact h2

/-! ### The write of a gathered word -/

/-- Every core that gathered to a word traps. -/
def State.trapAll (s : State) (g : Gather) : State := g.cores.foldl (fun s c => s.trap c .imprecise g.word) s

/-- The doublewords gathered reach memory. -/
def State.storeDws (s : State) (g : Gather) : State := g.dws.foldl (fun s d => s.store (g.word + d.1 * 8) (leBytes 8 d.2.toNat)) s

/-- The word of a gather is written, where a bank holds it, and counted for the region's gap. -/
def State.wordWritten (s : State) (g : Gather) : State :=
  (if !s.bankFailed 2 || (cfgMirrored (g.word - cfgBase) && !s.bankFailed 3) then s.storeDws g else s).cfgWrite (cfgMirrored (g.word - cfgBase))

theorem State.flushGather_none {s : State} (h : s.mram.gather = none) (w : MramWrite) : s.flushGather w = s := by
  unfold State.flushGather
  rw [h]

/-- How the write of a gathered word ends. -/
theorem State.flushGather_cases {s : State} {g : Gather} (h : s.mram.gather = some g) (w : MramWrite) :
    let u := s.mr fun m => { m with gather := none }
    s.flushGather w = u.trapAll g ∨ (∃ word, s.flushGather w = (u.mramUe 2 2 word).trapAll g) ∨
      (∃ phys, s.flushGather w = (u.wordWritten g).remapWord 2 phys) ∨ s.flushGather w = (u.wordWritten g).bump F.MRM_CE_COUNT ∨
      s.flushGather w = u.wordWritten g := by
  intro u
  unfold State.flushGather
  rw [h]
  dsimp only
  split
  · exact .inl rfl
  split
  · exact .inr (.inl ⟨_, rfl⟩)
  split
  · exact .inr (.inr (.inl ⟨_, rfl⟩))
  split
  · exact .inr (.inr (.inr (.inl rfl)))
  · exact .inr (.inr (.inr (.inr rfl)))

theorem State.gathered_trapAll (s : State) (g : Gather) : (s.trapAll g).gathered = s.gathered := by
  refine State.gathered_foldl (fun u c => ?_) s _
  rfl

theorem State.gathered_wordWritten (s : State) (g : Gather) : (s.wordWritten g).gathered = s.gathered := by
  refine (State.gathered_cfgWrite _ _).trans ?_
  split
  · refine State.gathered_foldl (fun u d => ?_) s _
    rfl
  · rfl

/-- After its word is written, or given up, nothing is gathered. -/
theorem State.gathered_flushGather (s : State) (w : MramWrite) : (s.flushGather w).gathered = none := by
  match hg : s.mram.gather with
  | none =>
    rw [State.flushGather_none hg]
    exact hg
  | some g =>
    have hcases := State.flushGather_cases hg w
    have hu : (s.mr fun m => { m with gather := none }).gathered = none := rfl
    generalize s.mr (fun m => { m with gather := none }) = u at hcases hu
    obtain h | ⟨word, h⟩ | ⟨phys, h⟩ | h | h := hcases
    · rw [h, State.gathered_trapAll, hu]
    · rw [h, State.gathered_trapAll, State.gathered_mramUe, hu]
    · rw [h, State.gathered_remapWord, State.gathered_wordWritten, hu]
    · rw [h, State.gathered_bump, State.gathered_wordWritten, hu]
    · rw [h, State.gathered_wordWritten, hu]

section
variable {g : Gather} {x : Nat} (h : ∀ d ∈ g.dws, x < g.word + d.1 * 8 ∨ g.word + d.1 * 8 + 8 ≤ x)
include h

/-- Stores to the doublewords of a word leave the bytes outside them. -/
theorem State.read_storeDws (s : State) : Memory.read (s.storeDws g).mem x = Memory.read s.mem x := by
  unfold State.storeDws
  generalize g.dws = ds at h
  induction ds generalizing s with
  | nil => rfl
  | cons d ds ih =>
    rw [List.foldl_cons, ih _ (fun e he => h e (List.mem_cons_of_mem _ he)), State.store_mem]
    exact Memory.read_writeBytes_out _ _ _ (by rw [leBytes_length]; exact h d List.mem_cons_self)

theorem State.read_wordWritten (s : State) : Memory.read (s.wordWritten g).mem x = Memory.read s.mem x := by
  rw [State.wordWritten, State.fixed_mem (State.cfgWrite_fixed _ _)]
  split
  · exact State.read_storeDws h s
  · rfl

end

theorem State.trapAll_mem (s : State) (g : Gather) : (s.trapAll g).mem = s.mem := by
  refine State.fixed_mem (State.foldl_fixed _ (fun u c => ?_) _ s)
  rfl

/-- The write of a word changes no byte outside the doublewords gathered. -/
theorem State.read_flushGather (s : State) (w : MramWrite) (x : Nat)
    (h : ∀ g, s.mram.gather = some g → ∀ d ∈ g.dws, x < g.word + d.1 * 8 ∨ g.word + d.1 * 8 + 8 ≤ x) :
    Memory.read (s.flushGather w).mem x = Memory.read s.mem x := by
  match hg : s.mram.gather with
  | none => rw [State.flushGather_none hg]
  | some g =>
    have hcases := State.flushGather_cases hg w
    have hout := h g hg
    have hu : (s.mr fun m => { m with gather := none }).mem = s.mem := rfl
    generalize s.mr (fun m => { m with gather := none }) = u at hcases hu
    obtain h | ⟨word, h⟩ | ⟨phys, h⟩ | h | h := hcases
    · rw [h, State.trapAll_mem, hu]
    · rw [h, State.trapAll_mem, State.fixed_mem (State.mramUe_fixed _ _ _ _), hu]
    · rw [h, State.fixed_mem (State.remapWord_fixed _ _ _), State.read_wordWritten hout, hu]
    · rw [h, State.fixed_mem (State.bump_fixed _ _ _), State.read_wordWritten hout, hu]
    · rw [h, State.read_wordWritten hout, hu]

/-! ### Stores of cores to MRAM -/

/-- Stores gathered to another word than `word` are still to be written. -/
def State.gathersOther (s : State) (word : Nat) : Bool :=
  match s.mram.gather with
  | some g => g.word != word
  | none => false

/-- The gather of a word with one more doubleword. -/
def Gather.add (g : Option Gather) (word dw : Nat) (v : W64) (c : Nat) : Gather :=
  let g := g.getD ⟨word, [], []⟩
  ⟨word, g.dws.filter (fun d => d.1 != dw) ++ [(dw, v)], if g.cores.contains c then g.cores else g.cores ++ [c]⟩

/-- A doubleword joins the word gathered, which is written with its last one. -/
def State.gatherStore (s : State) (c a : Nat) (v : W64) (w : MramWrite) : State :=
  let u := s.mr fun m => { m with gather := some (Gather.add s.mram.gather (a / 32 * 32) (a % 32 / 8) v c) }
  if a % 32 / 8 = 3 then u.flushGather w else u

/-- A store that the config region takes. -/
theorem State.mramStore_taken (s : State) (c : Nat) {a : Nat} (v : W64) (w : MramWrite) (halign : a % 8 = 0) (hlo : cfgBase ≤ a)
    (hhi : a < cfgBase + 0x100000) : s.mramStore c a 3 v.toNat w =
      (if s.gathersOther (a / 32 * 32) then s.flushGather w else s).gatherStore c a v w := by
  have hok : ¬ (3 ≠ 3 ∨ a % 8 ≠ 0 ∨ a < cfgBase ∨ cfgBase + 0x100000 ≤ a) := by omega
  rw [State.mramStore, if_neg hok, BitVec.ofNat_toNat, BitVec.setWidth_eq]
  rfl

/-- The first doubleword of a word, with nothing gathered before. -/
theorem State.gatherStore_first {s : State} (hnone : s.mram.gather = none) (c a : Nat) (v : W64) (w : MramWrite) :
    (if s.gathersOther (a / 32 * 32) then s.flushGather w else s).gatherStore c a v w =
      let u := s.mr fun m => { m with gather := some ⟨a / 32 * 32, [(a % 32 / 8, v)], [c]⟩ }
      if a % 32 / 8 = 3 then u.flushGather w else u := by
  have hother : s.gathersOther (a / 32 * 32) = false := by
    rw [State.gathersOther, hnone]
  rw [if_neg (ne_true_of_eq_false hother), State.gatherStore, hnone]
  rfl

/-- A running core's store to MRAM is not passed over. -/
theorem mram_taken {c : CoreId} {a : Nat} {s : State} (hrun : s.coreRuns c) (hreg : s.region a = .mram) :
    ¬ (s.cores.halted.getLsbD c.val || s.region a != .mram) = true := by
  rw [show s.cores.halted.getLsbD c.val = false from hrun, hreg]
  decide

theorem exec_mramCoreStore_taken {c : CoreId} {a : BitVec 40} {size : Fin 4} {v : W64} {w : MramWrite} {s : State} (hrun : s.coreRuns c)
    (hreg : s.region a.toNat = .mram) (hup : s.blocked a.toNat = false) :
    exec (.mramCoreStore c a size v w) s = .next (s.mramStore c.val a.toNat size.val v.toNat w) := by
  rw [exec_mramCoreStore, execMramCoreStore, if_neg (mram_taken hrun hreg), if_neg (ne_true_of_eq_false hup)]

theorem State.mramStore_refused (s : State) (c : Nat) {a size : Nat} (v : Nat) (w : MramWrite)
    (h : size ≠ 3 ∨ a % 8 ≠ 0 ∨ a < cfgBase ∨ cfgBase + 0x100000 ≤ a) : s.mramStore c a size v w = s.trap c .store a := if_pos h

/-- A doubleword that joins a gather changes no byte outside its own word and the doublewords of the gather. -/
theorem State.read_gatherStore (s : State) (c a : Nat) (v : W64) (w : MramWrite) (x : Nat)
    (hword : x < a / 32 * 32 ∨ a / 32 * 32 + 32 ≤ x)
    (h : ∀ g, s.mram.gather = some g → ∀ d ∈ g.dws, x < a / 32 * 32 + d.1 * 8 ∨ a / 32 * 32 + d.1 * 8 + 8 ≤ x) :
    Memory.read (s.gatherStore c a v w).mem x = Memory.read s.mem x := by
  unfold State.gatherStore
  extract_lets u
  have hu : u.mem = s.mem := rfl
  split
  · refine (State.read_flushGather u w x fun g hg d hd => ?_).trans (by rw [hu])
    have hadd : g = Gather.add s.mram.gather (a / 32 * 32) (a % 32 / 8) v c := (Option.some.inj hg).symm
    rw [hadd] at hd ⊢
    show x < a / 32 * 32 + d.1 * 8 ∨ a / 32 * 32 + d.1 * 8 + 8 ≤ x
    rcases List.mem_append.mp hd with hold | hnew
    · match hgather : s.mram.gather with
      | none =>
        rw [hgather] at hold
        cases hold
      | some g' =>
        rw [hgather] at hold
        exact h g' hgather d (List.mem_filter.mp hold).1
    · rw [List.mem_singleton.mp hnew]
      show x < a / 32 * 32 + a % 32 / 8 * 8 ∨ a / 32 * 32 + a % 32 / 8 * 8 + 8 ≤ x
      omega
  · rw [hu]

/-- A store to MRAM changes no byte outside its own word and the doublewords gathered before. -/
theorem State.read_mramStore (s : State) (c a size : Nat) (v : W64) (w : MramWrite) (x : Nat)
    (hword : x < a / 32 * 32 ∨ a / 32 * 32 + 32 ≤ x)
    (h : ∀ g, s.mram.gather = some g → ∀ d ∈ g.dws, x < g.word + d.1 * 8 ∨ g.word + d.1 * 8 + 8 ≤ x) :
    Memory.read (s.mramStore c a size v.toNat w).mem x = Memory.read s.mem x := by
  by_cases hbad : size ≠ 3 ∨ a % 8 ≠ 0 ∨ a < cfgBase ∨ cfgBase + 0x100000 ≤ a
  · rw [State.mramStore_refused s c v.toNat w hbad, State.trap_mem]
  · obtain ⟨rfl, halign, hlo, hhi⟩ : size = 3 ∧ a % 8 = 0 ∧ cfgBase ≤ a ∧ a < cfgBase + 0x100000 := by omega
    rw [State.mramStore_taken s c v w halign hlo hhi]
    by_cases hother : s.gathersOther (a / 32 * 32) = true
    · rw [if_pos hother, State.read_gatherStore _ _ _ _ _ _ hword, State.read_flushGather s w x h]
      intro g hg
      rw [show (s.flushGather w).mram.gather = none from s.gathered_flushGather w] at hg
      cases hg
    · rw [if_neg hother]
      refine State.read_gatherStore s c a v w x hword fun g hg d hd => ?_
      have hsame : g.word = a / 32 * 32 := by
        rw [State.gathersOther, hg] at hother
        simpa using hother
      rw [← hsame]
      exact h g hg d hd

end Machine

/-- Settles O21: a gathered store and the write of its word, case by case; the frame of the write says that it leaves nothing gathered
and touches only the doublewords gathered. -/
theorem fencesAndMramStores : Obligations.fences_and_mram_stores := by
  unfold Obligations.fences_and_mram_stores
  refine ⟨fun c w s hrun hun => ?_, fun c w s hrun hun => ?_, fun c s => ⟨_, exec_fenceI, rfl⟩,
    fun c a v w s hrun hreg hup hlo hhi halign hnone hdw => ?_, fun c a v w s hrun hreg hup hlo hhi hdw hnone => ?_,
    fun c a size v w s hrun hreg hbad => ?_, fun c a size v w s t hexec x hword hout => ?_⟩
  · rw [exec_fence, execFence, if_neg (ne_true_of_eq_false hrun), if_neg (ne_true_of_eq_false hun)]
  · have hexec : exec (.fence c w) s = .next (s.flushGather w) := by
      rw [exec_fence, execFence, if_neg (ne_true_of_eq_false hrun), if_pos hun]
    have hgather : (s.flushGather w).mram.gather = none := s.gathered_flushGather w
    exact ⟨_, hexec, rfl, by rw [State.unacked, hgather]⟩
  · rw [exec_mramCoreStore_taken hrun hreg hup, show (3 : Fin 4).val = 3 from rfl, State.mramStore_taken _ _ _ _ halign hlo hhi,
      State.gatherStore_first hnone, if_neg (by omega)]
  · rw [exec_mramCoreStore_taken hrun hreg hup, show (3 : Fin 4).val = 3 from rfl, State.mramStore_taken _ _ _ _ (by omega) hlo hhi,
      State.gatherStore_first hnone, if_pos (by omega), show a.toNat % 32 / 8 = 3 by omega]
  · by_cases hup : s.blocked a.toNat = true
    · rw [exec_mramCoreStore, execMramCoreStore, if_neg (mram_taken hrun hreg), if_pos hup]
    · rw [exec_mramCoreStore_taken hrun hreg (eq_false_of_ne_true hup)]
      refine congrArg Host.Outcome.next (State.mramStore_refused _ _ _ _ ?_)
      exact (hbad.resolve_left hup).imp_left fun h hsize => h (Fin.ext hsize)
  · rw [exec_mramCoreStore, execMramCoreStore] at hexec
    split at hexec
    · rw [← Host.Outcome.next.inj hexec]
    split at hexec
    · rw [← Host.Outcome.next.inj hexec, State.trap_mem]
    · rw [← Host.Outcome.next.inj hexec]
      exact s.read_mramStore _ _ _ v w x hword hout

end Sys2Proof
end
